-- ==== Sys2Proof/Word.lean ====
section
/-! DEFINITION. Word types, and the plain-data types that the commands carry as operands: facet operation words
(R31, R69, R92), the agents that present accesses (R21), and what comes in from outside the package. -/
namespace Sys2Proof

abbrev Byte := BitVec 8
abbrev Word := BitVec 64

/-- A facet operation as it is presented: the STOP and GUARD fields of R31, the low three opcode bits that hold the
type code t (R93) or size code z (R94) where the operation has one, and the three operand specifiers (R69).
For BCRC `tz` holds the polynomial number of R125. -/
structure OpW where
  stop  : Bool
  guard : BitVec 3
  tz    : BitVec 3
  a     : BitVec 16
  b     : BitVec 16
  c     : BitVec 16
  deriving DecidableEq, Repr

/-- A LIT operation (R36): its STOP and GUARD fields and its 48-bit literal. -/
structure LitW where
  stop  : Bool
  guard : BitVec 3
  value : BitVec 48
  deriving DecidableEq, Repr

/-- The facet operations of R92 to R135, R137, R192 and R412. -/
inductive OpKind where
  | vmulMac | vmac | vmsu | vmacu | vsad
  | vmov | vadd | vsub | vadds | vsubs | vmulAlu | vfma | vmin | vmax | vminu | vmaxu | vabs | vneg | vand | vor | vxor
  | vandn | vshl | vshr | vshru | vcmpeq | vcmplt | vcmple | vcmpltu | vsel | vcvt | accst | accsv | accrs
  | mov | add | sub | and | or | xor | shl | shr | min | max | cmpeq | cmpne | cmplt | cmple | lea | movw | tas
  | mul | mulh | div | rem | fdiv | fsqrt | frcp | frsqrt | fexp2 | flog2 | fsin | fcos | crc | extr | ins | clz | popc
  | rld | rst | radd | rtas | ldr | stc | bmove | bfill | bcrc | bfir
  | nop | br | brc | call | ret | loop | rep | twait | ewait | efclr | eftst | syscall | retx | brk | kenter
  | mfs | mts | sig | mbxput | mbxget | kld | kst | kmov | kbnd | kmask | kseal | kunseal | kget | kclr | lit
  deriving DecidableEq, Repr

/-- One operation of the bundle that a facet is collecting (R32). `lit` is the literal of a LIT, 0 otherwise. -/
structure Op where
  kind : OpKind
  w    : OpW
  lit  : BitVec 48
  deriving DecidableEq, Repr

/-- Who makes an access: the steward, a facet's remote operation, a mover channel, the host through PCIe function 1,
a fabric request, a blocker through its cell port (R351), the bezel's sealed loader (R479). -/
inductive Agent where
  | steward
  | facet (n : Fin 128)
  | mover (k : Fin 288)
  | host
  | fabric
  | blocker (b : Fin 64)
  | loader
  deriving DecidableEq, Repr

/-- What a Gleby command row carries (R406, R415): the number of the fetched command, the bytes its data buffer
holds (R408 check 5: `linkOk` says that the read of DPTR succeeded), and what its own execution learns from outside
the package (a peer's answer, a chip's certificate and response), which the row's meaning names. -/
structure GIn where
  id     : Nat
  data   : List Byte
  linkOk : Bool
  ext    : List (BitVec 64)
  deriving DecidableEq, Repr

/-- What a measurement of R346 to R350 found: pad voltages in mV with nothing applied, with the source and with the
sink, and for MODE 5 the round-trip delay in units of 25 ps and the reflection coefficient times 2,048. -/
structure Measured where
  v0a : Int
  v0b : Int
  v1a : Int
  v1b : Int
  v2a : Int
  v2b : Int
  found : Bool
  delay : Nat
  rho   : Int
  deriving DecidableEq, Repr

/-- What the line did during a shift entry (R365): the changes of the receive pad's ball (FCLK from the entry's start, level), after how many
bit periods the line ended an UNTIL shift early, in which bit period a transmit shift read dominant where it drove recessive. -/
structure ShiftResult where
  wave  : List (Nat × Bool)
  early : Option Nat
  lost  : Option Nat
  deriving DecidableEq, Repr

/-- What a control frame (TYPE 0) between Gleby and Gleby says (R393, R452, R509, R529): a heartbeat; a package that joins; a request for 64
identities; identities granted; identities allocated, for the deputy's mirror; an identity that returns; a consumable record; a request for
one, by ROM code and key digest. -/
inductive Control where
  | beat
  | join
  | ask
  | grant (ids : List Nat)
  | mirror (ids : List Nat)
  | giveBack (id : Nat)
  | record (line : List Byte)
  | fetch (rom digest : Nat)
  deriving DecidableEq, Repr

/-- The JTAG instructions of R472. -/
inductive Jtag where
  | bypass | idcode | samplePreload | dbgchal | dbgresp
  | extest | intest | clamp | extestPulse | extestTrain | debugPrivate
  deriving DecidableEq, Repr

/-- A frame received by a MAC (R519 to R521): its bytes from destination address through FCS, the tick at which its
first bit reached the internal reference plane, and what the MAC found. -/
structure Frame where
  bytes : List Byte
  tick  : BitVec 64
  fcsOk : Bool
  vlan  : Bool
  ptp   : Bool
  deriving DecidableEq, Repr

/-- A fabric frame (R528) after the Ethernet header, with the source station address and its CRC field. -/
structure FabFrame where
  station : BitVec 48
  ver     : BitVec 4
  ty      : BitVec 4
  flags   : BitVec 8
  spkg    : BitVec 8
  dpkg    : BitVec 8
  fabid   : BitVec 32
  seq     : BitVec 32
  code    : BitVec 16
  addr    : BitVec 64
  payload : List Byte
  crc     : BitVec 32
  deriving DecidableEq, Repr

/-- What boot finds outside the package's own state: the self-test, which boot-flash slots hold an image that is valid
under R469 (with RELEASE and ROLL), the flash's root manifest (whether R465 and its signature hold, its SIGNER, SERIAL, principals,
MAKERID, SHA-384 of its Maker and Inspector keys), and the capacity of each DDR5 channel that training left, in units of 512 MiB, 0 where
it failed (R524, R525). -/
structure BootIn where
  selfTest : Bool
  valid0   : Bool
  rel0     : BitVec 16
  roll0    : BitVec 6
  valid1   : Bool
  rel1     : BitVec 16
  roll1    : BitVec 6
  manOk     : Bool
  manSigner : BitVec 8
  manSerial : BitVec 16
  manPrins  : List (BitVec 8)
  makerId   : BitVec 16
  makerKey  : BitVec 384
  inspKey   : BitVec 384
  ddr0      : Fin 257
  ddr1      : Fin 257
  deriving DecidableEq, Repr

/-- Where a capability of a sealed configuration goes (R477 TYPE 0x0004): a K register of facet 0 or 1, or the source or
destination side of a channel. -/
inductive SealTarget where
  | kreg (facet : Nat) (bank : Nat) (i : Nat)
  | source (chan : Nat)
  | dest (chan : Nat)
  deriving DecidableEq, Repr

structure SealCap where
  target : SealTarget
  perm : BitVec 16
  otype : BitVec 16
  base : BitVec 48
  len : BitVec 32
  deriving DecidableEq, Repr

/-- A facet start record: XVB, CTX and HOLDMAX (R477 TYPE 0x0003). -/
structure SealStart where
  facet : Nat
  xvb : BitVec 64
  ctx : BitVec 64
  holdmax : BitVec 64
  deriving DecidableEq, Repr

/-- A code image: facet, byte offset in the code store, words (TYPE 0x0002). -/
structure SealCode where
  facet : Nat
  off : Nat
  words : List (BitVec 64)
  deriving DecidableEq, Repr

/-- A channel or a cell: its number and the values of its registers by block offset; a cell's TX FIFO preload (TYPE
0x0005, 0x0007). -/
structure SealRegs where
  num : Nat
  regs : List (Nat × BitVec 64)
  preload : List Byte
  deriving DecidableEq, Repr

/-- What a check word carries of store time (R308): tick count, fraction, RATE, the armed step with its tick, the armed swap. -/
structure TimeWord where
  tick : BitVec 64
  frac : BitVec 32
  rate : BitVec 32
  step : Option (BitVec 64 × BitVec 64)
  swap : Option (BitVec 64)
  deriving DecidableEq, Repr

/-- A check word on its way (R308): the number of bit errors it meets, and what the replica holds in the stated FCLK. -/
structure CheckIn where
  flips : Fin 3
  replica : Option TimeWord
  deriving DecidableEq, Repr

/-- An IEEE 1588 timestamp: seconds, nanoseconds, fraction in 2^-16 ns (R304). -/
structure PtpTime where
  sec : BitVec 48
  ns : BitVec 32
  frac : BitVec 16
  deriving DecidableEq, Repr

/-- A delay request-response exchange of a MAC in the slave role (R311): the master's time of its Sync and the local stamp of its arrival, the
local stamp of the delay request and the master's time of its arrival. PRESUMED, log entry 5. -/
structure PtpExchange where
  t1 : PtpTime
  t2 : BitVec 64
  t3 : BitVec 64
  t4 : PtpTime
  deriving DecidableEq, Repr

/-- A launch timer: number, MODE, PERIOD, phase (TYPE 0x0006). -/
structure SealTimer where
  num : Nat
  periodic : Bool
  period : BitVec 32
  phase : BitVec 64
  deriving DecidableEq, Repr

/-- A blocker routine: blocker, thread, owned slots, start address, words (TYPE 0x0008). -/
structure SealRoutine where
  blocker : Nat
  thread : Nat
  slots : BitVec 16
  start : Nat
  words : List (BitVec 64)
  deriving DecidableEq, Repr

/-- A hatband entry: table (0 source, 1 sink, 2 export), number, value (TYPE 0x0009). -/
structure SealHat where
  table : Nat
  num : Nat
  value : BitVec 128
  deriving DecidableEq, Repr

/-- A power feed: controller, feed, PFD_FCTL, PFD_FLIM and PFD_FI2T (TYPE 0x000A). -/
structure SealFeed where
  ctl : Nat
  feed : Nat
  fctl : BitVec 64
  flim : BitVec 64
  fi2t : BitVec 64
  deriving DecidableEq, Repr

/-- A sealed configuration: the records of its image (R477). -/
structure SealedConf where
  legal : List Byte
  code : List SealCode
  starts : List SealStart
  caps : List SealCap
  chans : List SealRegs
  timers : List SealTimer
  cells : List SealRegs
  routines : List SealRoutine
  hat : List SealHat
  feeds : List SealFeed
  cal : List (Nat × Nat)
  deriving DecidableEq, Repr

end Sys2Proof
end

