-- ==== Sys2Proof/Syntax.lean ====
section
/-! DEFINITION. The commands of the block: one constructor for each row of spec/opcode_table.json, with the operands
this model gives the row (the table gives none). Facet operations carry the facet number and the operation's fields;
Gleby commands carry a `GIn`; events name the unit they happen to and what comes in from outside. -/
namespace Sys2Proof

inductive Instr where
  /-- RESULT_LANDING (R39): A facet operation result lands at its fixed latency and becomes visible to later bundles, with same-FCLK overlaps merged by issue order. -/
  | resultLanding (n : Fin 128)
  /-- LOOP_END_ACTION (R148): A bundle at a loop end retires, the loop count falls, and fetch returns to the loop start or falls through. -/
  | loopEndAction (n : Fin 128)
  /-- EXCEPTION_ENTRY (R185): At a bundle boundary the facet takes the first due fault, interrupt, hold overrun or trap, drains, saves XPC and XST and redirects to the handler. -/
  | exceptionEntry (n : Fin 128)
  /-- HOLD_OVERRUN (R198): The hold counter reaches HOLDMAX.LIMIT and a hold overrun becomes due. -/
  | holdOverrun (n : Fin 128)
  /-- TWAIT_RELEASE (R160): The tick count reaches the TWAIT operand, the lateness is written and the next bundle issues. -/
  | twaitRelease (n : Fin 128)
  /-- EWAIT_RELEASE (R161): A masked event flag is set, EWAIT writes the flags seen, optionally clears them, and issue resumes. -/
  | ewaitRelease (n : Fin 128)
  /-- LONG_OP_DONE (R128): A long operation finishes its last element and the next bundle issues. -/
  | longOpDone (n : Fin 128)
  /-- REMOTE_COMPLETION (R119): A remote operation completes at its target, writes any local result and sets ARF.DONE or ARF.FAIL. -/
  | remoteCompletion (n : Fin 128) (i : Fin 16) (uncorrectable : Bool)
  /-- RESERVATION_EXPIRY (R124): A crown-store reservation is lost 4,096 FCLK after its LDR arrived. -/
  | reservationExpiry (n : Fin 128)
  /-- FACET_HALTED (R64): After RUN is cleared or a halting BRK, the facet drains and FAC_CTL.HALTED becomes 1. -/
  | facetHalted (n : Fin 128)
  /-- FAC_CTL_RUN (R65): The steward sets FAC_CTL.RUN and the facet issues from offset 0 or its resume index. -/
  | facCtlRun (n : Fin 128)
  /-- FAC_CTL_HALT (R64): The steward clears FAC_CTL.RUN and the facet halts at the next bundle boundary after a drain. -/
  | facCtlHalt (n : Fin 128)
  /-- PFLUSH (R57): Writing FAC_CTL.PFLUSH starts invalidating every branch-target-buffer entry and turns the predictor off. -/
  | pflush (n : Fin 128)
  /-- PFLUSH_DONE (R57): The branch-target-buffer flush completes within 2,048 FCLK and PFLUSH clears. -/
  | pflushDone (n : Fin 128)
  /-- FACET_REGISTER_BLOCK_WRITE (R60): A write through a facet register block is accepted only while the facet is halted and the value is storable, else refused. -/
  | facetRegisterBlockWrite (n : Fin 128) (off : Nat) (v : BitVec 64) (by_ : Agent)
  /-- VMUL_MAC (R100): Vector MAC VMUL writes the lane products into an accumulator. -/
  | vmulMac (n : Fin 128) (o : OpW)
  /-- VMAC (R100): Adds the lane products to an accumulator. -/
  | vmac (n : Fin 128) (o : OpW)
  /-- VMSU (R100): Subtracts the lane products from an accumulator. -/
  | vmsu (n : Fin 128) (o : OpW)
  /-- VMACU (R100): Adds unsigned lane products to an accumulator. -/
  | vmacu (n : Fin 128) (o : OpW)
  /-- VSAD (R100): Adds the sum of absolute differences to an accumulator. -/
  | vsad (n : Fin 128) (o : OpW)
  /-- VMOV (R103): Copies a vector. -/
  | vmov (n : Fin 128) (o : OpW)
  /-- VADD (R103): Adds two vectors lane by lane. -/
  | vadd (n : Fin 128) (o : OpW)
  /-- VSUB (R103): Subtracts two vectors lane by lane. -/
  | vsub (n : Fin 128) (o : OpW)
  /-- VADDS (R103): Adds two vectors with saturation. -/
  | vadds (n : Fin 128) (o : OpW)
  /-- VSUBS (R103): Subtracts two vectors with saturation. -/
  | vsubs (n : Fin 128) (o : OpW)
  /-- VMUL_ALU (R103): Vector ALU VMUL multiplies two vectors lane by lane. -/
  | vmulAlu (n : Fin 128) (o : OpW)
  /-- VFMA (R103): Fused multiply-add of floating-point vectors. -/
  | vfma (n : Fin 128) (o : OpW)
  /-- VMIN (R103): Signed or floating-point lane minimum. -/
  | vmin (n : Fin 128) (o : OpW)
  /-- VMAX (R103): Signed or floating-point lane maximum. -/
  | vmax (n : Fin 128) (o : OpW)
  /-- VMINU (R103): Unsigned lane minimum. -/
  | vminu (n : Fin 128) (o : OpW)
  /-- VMAXU (R103): Unsigned lane maximum. -/
  | vmaxu (n : Fin 128) (o : OpW)
  /-- VABS (R103): Lane absolute value. -/
  | vabs (n : Fin 128) (o : OpW)
  /-- VNEG (R103): Lane negation. -/
  | vneg (n : Fin 128) (o : OpW)
  /-- VAND (R103): Lane bitwise AND. -/
  | vand (n : Fin 128) (o : OpW)
  /-- VOR (R103): Lane bitwise OR. -/
  | vor (n : Fin 128) (o : OpW)
  /-- VXOR (R103): Lane bitwise XOR. -/
  | vxor (n : Fin 128) (o : OpW)
  /-- VANDN (R103): Lane bitwise AND with complement. -/
  | vandn (n : Fin 128) (o : OpW)
  /-- VSHL (R103): Lane shift left. -/
  | vshl (n : Fin 128) (o : OpW)
  /-- VSHR (R103): Lane arithmetic shift right. -/
  | vshr (n : Fin 128) (o : OpW)
  /-- VSHRU (R103): Lane logical shift right. -/
  | vshru (n : Fin 128) (o : OpW)
  /-- VCMPEQ (R103): Lane equality comparison. -/
  | vcmpeq (n : Fin 128) (o : OpW)
  /-- VCMPLT (R103): Lane signed or floating-point less-than. -/
  | vcmplt (n : Fin 128) (o : OpW)
  /-- VCMPLE (R103): Lane signed or floating-point less-or-equal. -/
  | vcmple (n : Fin 128) (o : OpW)
  /-- VCMPLTU (R103): Lane unsigned less-than. -/
  | vcmpltu (n : Fin 128) (o : OpW)
  /-- VSEL (R103): Lane select by the destination's old lane value. -/
  | vsel (n : Fin 128) (o : OpW)
  /-- VCVT (R104): Converts vector lanes between types and widths. -/
  | vcvt (n : Fin 128) (o : OpW)
  /-- ACCST (R106): Converts accumulator lanes with shift and rounding and stores one vector. -/
  | accst (n : Fin 128) (o : OpW)
  /-- ACCSV (R107): Saves 32 bytes of an accumulator image as a vector. -/
  | accsv (n : Fin 128) (o : OpW)
  /-- ACCRS (R107): Restores 32 bytes of an accumulator image from a vector. -/
  | accrs (n : Fin 128) (o : OpW)
  /-- MOV (R108): Scalar move. -/
  | mov (n : Fin 128) (o : OpW)
  /-- ADD (R108): Scalar add. -/
  | add (n : Fin 128) (o : OpW)
  /-- SUB (R108): Scalar subtract. -/
  | sub (n : Fin 128) (o : OpW)
  /-- AND (R108): Scalar AND. -/
  | and (n : Fin 128) (o : OpW)
  /-- OR (R108): Scalar OR. -/
  | or (n : Fin 128) (o : OpW)
  /-- XOR (R108): Scalar XOR. -/
  | xor (n : Fin 128) (o : OpW)
  /-- SHL (R108): Scalar shift left. -/
  | shl (n : Fin 128) (o : OpW)
  /-- SHR (R108): Scalar shift right, arithmetic or logical. -/
  | shr (n : Fin 128) (o : OpW)
  /-- MIN (R108): Scalar minimum. -/
  | min (n : Fin 128) (o : OpW)
  /-- MAX (R108): Scalar maximum. -/
  | max (n : Fin 128) (o : OpW)
  /-- CMPEQ (R108): Scalar equality comparison. -/
  | cmpeq (n : Fin 128) (o : OpW)
  /-- CMPNE (R108): Scalar inequality comparison. -/
  | cmpne (n : Fin 128) (o : OpW)
  /-- CMPLT (R108): Scalar less-than comparison. -/
  | cmplt (n : Fin 128) (o : OpW)
  /-- CMPLE (R108): Scalar less-or-equal comparison. -/
  | cmple (n : Fin 128) (o : OpW)
  /-- LEA (R109): Writes the effective address of a specifier without access or check. -/
  | lea (n : Fin 128) (o : OpW)
  /-- MOVW (R109): Writes a window register, shadowed and unchecked. -/
  | movw (n : Fin 128) (o : OpW)
  /-- TAS (R110): Indivisibly reads a byte and writes 0x01 to it, returning whether it was nonzero. -/
  | tas (n : Fin 128) (o : OpW)
  /-- MUL (R111): Scalar multiply, low bits. -/
  | mul (n : Fin 128) (o : OpW)
  /-- MULH (R111): High 64 bits of a 128-bit product. -/
  | mulh (n : Fin 128) (o : OpW)
  /-- DIV (R112): Integer division truncated toward zero; a zero divisor faults. -/
  | div (n : Fin 128) (o : OpW)
  /-- REM (R112): Integer remainder; a zero divisor faults. -/
  | rem (n : Fin 128) (o : OpW)
  /-- FDIV (R111): Correctly rounded fp32 division. -/
  | fdiv (n : Fin 128) (o : OpW)
  /-- FSQRT (R111): Correctly rounded fp32 square root. -/
  | fsqrt (n : Fin 128) (o : OpW)
  /-- FRCP (R113): fp32 reciprocal. -/
  | frcp (n : Fin 128) (o : OpW)
  /-- FRSQRT (R113): fp32 reciprocal square root. -/
  | frsqrt (n : Fin 128) (o : OpW)
  /-- FEXP2 (R113): fp32 power of two. -/
  | fexp2 (n : Fin 128) (o : OpW)
  /-- FLOG2 (R113): fp32 base-2 logarithm. -/
  | flog2 (n : Fin 128) (o : OpW)
  /-- FSIN (R113): fp32 sine of 2 pi b. -/
  | fsin (n : Fin 128) (o : OpW)
  /-- FCOS (R113): fp32 cosine of 2 pi b. -/
  | fcos (n : Fin 128) (o : OpW)
  /-- CRC (R114): Advances a CRC state in a G register over the bytes of b. -/
  | crc (n : Fin 128) (o : OpW)
  /-- EXTR (R115): Extracts a bit field. -/
  | extr (n : Fin 128) (o : OpW)
  /-- INS (R115): Inserts a bit field. -/
  | ins (n : Fin 128) (o : OpW)
  /-- CLZ (R111): Counts leading zeros. -/
  | clz (n : Fin 128) (o : OpW)
  /-- POPC (R111): Counts set bits. -/
  | popc (n : Fin 128) (o : OpW)
  /-- RLD (R116): Remote read into the facet store. -/
  | rld (n : Fin 128) (o : OpW)
  /-- RST (R116): Remote write from the facet store. -/
  | rst (n : Fin 128) (o : OpW)
  /-- RADD (R116): Remote atomic add returning the old value. -/
  | radd (n : Fin 128) (o : OpW)
  /-- RTAS (R116): Remote atomic test-and-set of a byte. -/
  | rtas (n : Fin 128) (o : OpW)
  /-- LDR (R124): Remote read of a crown-store word that takes a reservation. -/
  | ldr (n : Fin 128) (o : OpW)
  /-- STC (R124): Remote conditional store that writes only if the reservation holds. -/
  | stc (n : Fin 128) (o : OpW)
  /-- BMOVE (R125): Long operation copying 16-byte words. -/
  | bmove (n : Fin 128) (o : OpW)
  /-- BFILL (R125): Long operation filling 16-byte words. -/
  | bfill (n : Fin 128) (o : OpW)
  /-- BCRC (R125): Long operation advancing a CRC over 16-byte words. -/
  | bcrc (n : Fin 128) (o : OpW)
  /-- BFIR (R126): Long operation computing FIR filter outputs. -/
  | bfir (n : Fin 128) (o : OpW)
  /-- NOP (R131): No operation. -/
  | nop (n : Fin 128) (o : OpW)
  /-- BR (R46): Taken branch after three delay bundles. -/
  | br (n : Fin 128) (o : OpW)
  /-- BRC (R140): Conditional branch that checks its target whether taken or not. -/
  | brc (n : Fin 128) (o : OpW)
  /-- CALL (R141): Branch pushing the return index, or push-only mode. -/
  | call (n : Fin 128) (o : OpW)
  /-- RET (R141): Pop and branch, pop to a register, or read the return-stack depth. -/
  | ret (n : Fin 128) (o : OpW)
  /-- LOOP (R144): Sets up a hardware loop level. -/
  | loop (n : Fin 128) (o : OpW)
  /-- REP (R153): Repeats the next bundle a latched number of times. -/
  | rep (n : Fin 128) (o : OpW)
  /-- TWAIT (R160): Holds issue until a store time, or reads store time. -/
  | twait (n : Fin 128) (o : OpW)
  /-- EWAIT (R161): Holds issue until a masked event flag is set. -/
  | ewait (n : Fin 128) (o : OpW)
  /-- EFCLR (R162): Clears masked event flags. -/
  | efclr (n : Fin 128) (o : OpW)
  /-- EFTST (R162): Reads and optionally clears masked event flags. -/
  | eftst (n : Fin 128) (o : OpW)
  /-- SYSCALL (R193): Raises a system call entry after its bundle retires. -/
  | syscall (n : Fin 128) (o : OpW)
  /-- RETX (R189): Returns from a handler level, restoring FS or tail-chaining. -/
  | retx (n : Fin 128) (o : OpW)
  /-- BRK (R194): Raises a breakpoint entry or halts the facet. -/
  | brk (n : Fin 128) (o : OpW)
  /-- KENTER (R196): Consumes an entry pair and enters level 1 at the entry object's address. -/
  | kenter (n : Fin 128) (o : OpW)
  /-- MFS (R132): Reads a system register, including interrupt-controller claims. -/
  | mfs (n : Fin 128) (o : OpW)
  /-- MTS (R132): Writes a system register, checking DBG for XVB, CTX and HOLDMAX. -/
  | mts (n : Fin 128) (o : OpW)
  /-- SIG (R133): Raises a facet signal source on the hatband. -/
  | sig (n : Fin 128) (o : OpW)
  /-- MBXPUT (R413): Pushes a request to the steward if a credit is available. -/
  | mbxput (n : Fin 128) (o : OpW)
  /-- MBXGET (R414): Takes the oldest response from the staging buffer if any. -/
  | mbxget (n : Fin 128) (o : OpW)
  /-- KLD (R134): Loads a capability from a store word. -/
  | kld (n : Fin 128) (o : OpW)
  /-- KST (R135): Stores a capability to a store word, tagged only with SC. -/
  | kst (n : Fin 128) (o : OpW)
  /-- KMOV (R134): Copies a K register with its tag. -/
  | kmov (n : Fin 128) (o : OpW)
  /-- KBND (R172): Narrows the bounds of a capability. -/
  | kbnd (n : Fin 128) (o : OpW)
  /-- KMASK (R134): Narrows the permissions of a capability. -/
  | kmask (n : Fin 128) (o : OpW)
  /-- KSEAL (R174): Seals a capability under a sealing authority. -/
  | kseal (n : Fin 128) (o : OpW)
  /-- KUNSEAL (R175): Unseals a capability under an unsealing authority. -/
  | kunseal (n : Fin 128) (o : OpW)
  /-- KGET (R134): Reads a field of a capability. -/
  | kget (n : Fin 128) (o : OpW)
  /-- KCLR (R134): Clears the tag of a K register. -/
  | kclr (n : Fin 128) (o : OpW)
  /-- LIT (R36): Supplies a 48-bit literal to operations of its bundle. -/
  | lit (n : Fin 128) (o : LitW)
  /-- INT_SOURCE_EVENT (R208): An interrupt source event passes or is dropped by the glitch filter and is counted by coalescing. -/
  | intSourceEvent (k : Fin 129) (i : Fin 1024)
  /-- LEVEL_FILTER_SETTLE (R208): A level source's raw level has held for Lf clocks and the filtered level changes. -/
  | levelFilterSettle (k : Fin 129) (i : Fin 1024)
  /-- BATCH_TIMER_EXPIRY (R209): A coalescing batch timer reaches its deadline and the source becomes pending. -/
  | batchTimerExpiry (k : Fin 129) (i : Fin 1024)
  /-- INT_CLAIM (R212): A read of a claim register selects the highest-priority requesting source and makes it active. -/
  | intClaim (k : Fin 129) (fast : Bool)
  /-- INT_EOI (R213): Ends service of a source by clearing its active bit. -/
  | intEoi (k : Fin 129) (i : Fin 1024)
  /-- INT_SETP (R214): Sets a source pending, bypassing filter and coalescing. -/
  | intSetp (k : Fin 129) (i : Fin 1024)
  /-- INT_CLRP (R214): Clears a source's pending bit and event count. -/
  | intClrp (k : Fin 129) (i : Fin 1024)
  /-- INT_SCFG_WRITE (R215): Writes a source configuration, restarting its filter if FLT changes. -/
  | intScfgWrite (k : Fin 129) (i : Fin 1024) (v : BitVec 64)
  /-- FILL_DONE (R242): A first-touch fill finishes, the chunk is marked touched and the held accesses are served. -/
  | fillDone
  /-- RECONSTRUCTION (R263): A page holding an uncorrectable word is closed, rebuilt by the page code or failed, and reopened. -/
  | reconstruction (page : Nat) (port : Fin 8) (erased : List (Fin 128)) (sideBad : Bool)
  /-- ITG_SCRUB_START (R273): ITG_SCRUB.START begins a scrub pass or is refused. -/
  | itgScrubStart (u : Fin 17) (v : BitVec 64)
  /-- SCRUB_PASS_DONE (R273): A scrub pass reaches its last page and SCRUBDONE is set. -/
  | scrubPassDone (u : Fin 17)
  /-- ITG_RETIRE_START (R278): ITG_RETIRE.START begins a page retirement or is refused. -/
  | itgRetireStart (c : Fin 16) (v : BitVec 64)
  /-- RETIREMENT_DONE (R278): The retirement copy switches, the redirection is made permanent and recorded. -/
  | retirementDone (c : Fin 16)
  /-- POUNCE_INTERVAL_EXPIRY (R279): The pounce interval ends and the next page is copied out for testing. -/
  | pounceIntervalExpiry (c : Fin 16)
  /-- POUNCE_TEST_DONE (R280): A pounce page test ends and the page is copied back or retired. -/
  | pounceTestDone (c : Fin 16) (pass : Bool)
  /-- ITG_TCTL_GO (R283): The checker test mode reads or writes a word's raw bits, or is refused. -/
  | itgTctlGo (c : Fin 16) (v : BitVec 64)
  /-- MOV_CTL_START (R291): A channel takes a start from MOV_CTL or its start sink and runs the start check. -/
  | movCtlStart (k : Fin 288) (sink : Bool)
  /-- BURST_ISSUE (R293): Pacing allows a burst and the engine grants it; read beats issue one per FCLK. -/
  | burstIssue (k : Fin 288) (bad : Option (Fin 512))
  /-- TRANSFER_COMPLETION (R295): The last write response returns, POS is written, the completion pulse is raised and the channel goes IDLE. -/
  | transferCompletion (k : Fin 288)
  /-- MOV_CTL_STOP (R582): MOV_CTL.STOP stops a transfer at once or at the next burst boundary. -/
  | movCtlStop (k : Fin 288)
  /-- TRANSFER_END_EARLY (R299): A transfer ended by refusal, data loss, power, reset or STOP collects its responses, sets ERR and raises its error pulse. -/
  | transferEndEarly (k : Fin 288)
  /-- CHANNEL_DRAIN_HELD (R301): A channel asked to drain finishes its burst, collects responses and enters HELD. -/
  | channelDrainHeld (k : Fin 288)
  /-- CHANNEL_RESUME (R301): Every domain a HELD channel depends on returns and it resumes in WAIT. -/
  | channelResume (k : Fin 288)
  /-- DRAIN_TIMEOUT (R302): A channel that has not reached HELD within 2 µs is aborted with POWER_ABORT. -/
  | drainTimeout (k : Fin 288)
  /-- SEAM_REPLAY (R15): A seam flit with a CRC error is replayed; eight failures declare seam failure. -/
  | seamReplay (d : Fin 6)
  /-- TIME_STEP_APPLY (R305): The tick count reaches STEPAT and the armed step is applied. -/
  | timeStepApply
  /-- RATE_POINT (R306): The tick count reaches the rate point and the new RATE governs. -/
  | ratePoint
  /-- TIM_RATE_WRITE (R306): A TIM_RATE write is accepted and sets a rate point, or is refused. -/
  | timRateWrite (v : BitVec 64)
  /-- STEPARM (R307): Setting TIM_CTL.STEPARM arms, re-arms or is refused. -/
  | steparm
  /-- CHECK_WORD (R308): Every 1,024 FCLK a check word is sent on each seam and compared by the replicas. -/
  | checkWord (d : Fin 6) (w : CheckIn)
  /-- PPS_EDGE (R310): An active PPS_IN edge is stamped into TIM_PPSTS. -/
  | ppsEdge (rising : Bool)
  /-- PPS_MISS (R310): No PPS edge arrives within the limit and PPSMISS is set. -/
  | ppsMiss
  /-- STORE_TIME_SECOND (R320): The tick first reaches a whole second; the second source is raised and PPS_OUT rises. -/
  | storeTimeSecond
  /-- PPS_OUT_FALL (R310): PPS_OUT falls 12,000,000 ticks after it rose. -/
  | ppsOutFall
  /-- PTP_SAMPLE (R311): A PTP exchange yields an offset sample and the servo slews, steps or declares lock. -/
  | ptpSample (m : Fin 8) (x : PtpExchange)
  /-- HOLDOVER_ENTRY (R312): Sync intervals pass without a usable sample and RATE is frozen in holdover. -/
  | holdoverEntry
  /-- LAUNCH_TIMER_FIRE (R316): A launch timer's NEXT is reached; it raises its hatband source and advances or disables. -/
  | launchTimerFire (i : Fin 512)
  /-- TIM_LCTL_WRITE (R318): A timer control write takes effect or is stored with EN 0 and CFGERR. -/
  | timLctlWrite (i : Fin 512) (v : BitVec 64)
  /-- TIM_LPER_WRITE (R318): A timer period write takes effect or is refused while running periodically. -/
  | timLperWrite (i : Fin 512) (v : BitVec 64)
  /-- HATBAND_DELIVERY (R323): A pulse raised 16 FCLK earlier reaches every sink routed to its event number. -/
  | hatbandDelivery (e : Fin 4096) (lost : List (Fin 7))
  /-- HAT_SWAPARM (R325): Setting HAT_CTL.SWAPARM arms a routing bank swap or is refused. -/
  | hatSwaparm
  /-- HATBAND_SWAP (R325): The tick reaches HAT_SWAPAT and the shadow routing bank becomes live in every die. -/
  | hatbandSwap
  /-- HAT_COPY (R325): Setting HAT_CTL.COPY starts copying the live bank into the shadow bank, or is refused. -/
  | hatCopy
  /-- HAT_COPY_DONE (R325): The routing bank copy finishes and COPY clears. -/
  | hatCopyDone
  /-- FABRIC_EVENT_RECEIVE (R330): A fabric event frame is accepted into the import window or dropped. -/
  | fabricEventReceive (fr : FabFrame)
  /-- FABRIC_EVENT_ACT (R329): The tick reaches a fabric event's act time and its event number is raised. -/
  | fabricEventAct (e : Fin 4096)
  /-- VIO_SAMPLE (R332): A port group samples VIO every 10 µs and trips after two samples outside the window. -/
  | vioSample (gr : Fin 8) (mv : BitVec 16)
  /-- GROUP_ENABLE_WRITE (R332): A PRT_GCTL write enables a group, is refused, or disables it and all its cells. -/
  | groupEnableWrite (gr : Fin 8) (v : BitVec 64)
  /-- CELL_ENABLE (R334): A PRT_CTL write of EN = 1 starts a cell or is refused with CFGERR. -/
  | cellEnable (p : Fin 1024) (v : BitVec 64) (by_ : Agent)
  /-- FLUSHRX (R333): Empties the RX FIFO of a cell. -/
  | flushrx (p : Fin 1024)
  /-- FLUSHTX (R333): Empties the TX FIFO of a cell. -/
  | flushtx (p : Fin 1024)
  /-- PAD_FAULT (R335): A pad stands outside the rails for 1 µs; the cell is disabled and the fault raised. -/
  | padFault (p : Fin 1024)
  /-- TX_WINDOW_WRITE (R339): A TX window write pushes bytes into the TX FIFO, dropping excess. -/
  | txWindowWrite (p : Fin 1024) (bytes : List (BitVec 8)) (by_ : Agent)
  /-- RX_WINDOW_READ (R339): An RX window read pops bytes from the RX FIFO, reading 0x00 beyond its level. -/
  | rxWindowRead (p : Fin 1024) (len : Nat) (by_ : Agent)
  /-- RX_BYTE_RECEIVED (R336): A received byte enters the RX FIFO at the end of its last bit period, or is dropped if full. -/
  | rxByteReceived (p : Fin 1024) (wave : List (Nat × Bool))
  /-- BURST_END (R341): A launched burst reaches its last byte and event condition 3 is raised. -/
  | burstEnd (p : Fin 1024)
  /-- LAUNCH_PULSE_END (R342): A launch 1 pulse reaches its length and pad A is driven to the inverse level. -/
  | launchPulseEnd (p : Fin 1024)
  /-- LAUNCH_COMPARATOR (R344): A comparator's tick is reached; it raises its source and may launch. -/
  | launchComparator (p : Fin 1024) (k : Fin 2)
  /-- PAD_EDGE (R345): A level change on a cell pad is sampled for LVLA or LVLB and edge events. -/
  | padEdge (p : Fin 1024) (padB : Bool) (level : Bool)
  /-- PRT_SENSE_START (R346): PRT_SENSE.START begins or queues a measurement, or is refused. -/
  | prtSenseStart (p : Fin 1024) (v : BitVec 64)
  /-- MEASUREMENT_DONE (R346): A voltage, current, probe or cable measurement finishes and its result is written. -/
  | measurementDone (p : Fin 1024) (m : Measured)
  /-- ATTACH_CHANGE (R349): The pad levels have matched or differed from PRES for the debounce time and ATTACHED changes. -/
  | attachChange (p : Fin 1024)
  /-- SHIFT_ENTRY_END (R365): A shift queue entry ends and the next one starts. -/
  | shiftEntryEnd (p : Fin 1024) (r : ShiftResult)
  /-- FEED_SWITCH_ON (R354): A write of ON = 1 switches a feed on into blanking, or is refused. -/
  | feedSwitchOn (b : Fin 64) (f : Fin 4) (v : BitVec 64)
  /-- FEED_SWITCH_OFF (R354): A write of ON = 0 turns a feed's gate off. -/
  | feedSwitchOff (b : Fin 64) (f : Fin 4) (v : BitVec 64)
  /-- FEED_SAMPLE (R355): A feed samples current and voltage, updates I2T and may trip. -/
  | feedSample (b : Fin 64) (f : Fin 4) (i : BitVec 16) (vout : BitVec 16)
  /-- HARD_LIMIT_TRIP (R355): The current exceeds IHARD for 1 µs and the feed trips within 1 µs. -/
  | hardLimitTrip (b : Fin 64) (f : Fin 4)
  /-- FEED_RETRY (R355): The retry delay ends and the feed switches on again. -/
  | feedRetry (b : Fin 64) (f : Fin 4)
  /-- CONTROL_WORD_ISSUE (R360): A blocker thread issues one control word in its slot. -/
  | controlWordIssue (b : Fin 64) (errs : Fin 3)
  /-- TXB (R364): Pushes a byte into a cell's TX FIFO. -/
  | txb (t : Fin 1024) (cell : Fin 16) (v : BitVec 16)
  /-- RXB (R364): Pops one byte from a cell's RX FIFO. -/
  | rxb (t : Fin 1024) (cell : Fin 16) (dst : Fin 16)
  /-- SHIFT (R365): Queues a shift entry. -/
  | shift (t : Fin 1024) (cell : Fin 16) (v : BitVec 16)
  /-- SPAN (R366): Queues a span mark. -/
  | span (t : Fin 1024) (cell : Fin 16) (v : BitVec 16)
  /-- PADSET (R364): Queues pad levels for a number of bit periods. -/
  | padset (t : Fin 1024) (cell : Fin 16) (v : BitVec 16)
  /-- CRD (R364): Reads a half-word of a cell register. -/
  | crd (t : Fin 1024) (cell : Fin 16) (idx : Fin 64) (dst : Fin 16)
  /-- CWR (R364): Writes a half-word of a cell register under the cell's refusal rules. -/
  | cwr (t : Fin 1024) (cell : Fin 16) (idx : Fin 64) (v : BitVec 16)
  /-- FLUSH (R364): Empties selected FIFOs and shift queue of a cell. -/
  | flush (t : Fin 1024) (cell : Fin 16) (v : BitVec 16)
  /-- RSTAMP (R364): Copies a latched stamp and SEQ into the report. -/
  | rstamp (t : Fin 1024) (v : BitVec 16)
  /-- RSEND (R370): Passes the report buffer to the session engine, or drops it. -/
  | rsend (t : Fin 1024) (cell : Fin 16) (v : BitVec 16)
  /-- RPUT (R364): Appends a byte to the report. -/
  | rput (t : Fin 1024) (v : BitVec 16)
  /-- RCLR (R364): Empties the report buffer. -/
  | rclr (t : Fin 1024)
  /-- CMDB (R364): Pops a command byte. -/
  | cmdb (t : Fin 1024) (dst : Fin 16)
  /-- TMR (R364): Starts the micro-timer. -/
  | tmr (t : Fin 1024) (v : BitVec 16)
  /-- EVMASK (R364): Sets the thread's event mask. -/
  | evmask (t : Fin 1024) (v : BitVec 16)
  /-- ATTN (R364): Sets the thread's attention bit. -/
  | attn (t : Fin 1024)
  /-- HSIG (R364): Raises the blocker's hatband source. -/
  | hsig (t : Fin 1024)
  /-- PARK_WAKE (R368): A parked thread's masked event, timer, STOP or bank switch repeats its yield. -/
  | parkWake (t : Fin 1024)
  /-- MICRO_TIMER_EXPIRY (R364): A thread's micro-timer expires and latches its event. -/
  | microTimerExpiry (t : Fin 1024)
  /-- BLK_TSTART (R371): BLK_TCTL.START clears a stopped or faulted thread and starts it at ENTRY. -/
  | blkTstart (t : Fin 1024)
  /-- BLK_TSTOP (R371): BLK_TCTL.STOP requests a stop at the thread's next yield. -/
  | blkTstop (t : Fin 1024)
  /-- BLK_WHEEL_WRITE (R358): A BLK_WHEEL write is accepted or refused for locked slots. -/
  | blkWheelWrite (b : Fin 64) (v : BitVec 64)
  /-- WHEEL_CHANGE (R358): A written wheel takes effect at the next BCLK whose count mod 16 is 0. -/
  | wheelChange (b : Fin 64)
  /-- BLK_COPY (R373): BLK_CTL.COPY starts copying the live control-store bank, or is refused. -/
  | blkCopy (b : Fin 64)
  /-- BLK_COPY_DONE (R373): The control-store copy finishes and COPY clears. -/
  | blkCopyDone (b : Fin 64)
  /-- BLK_SWAPARM (R374): BLK_CTL.SWAPARM arms a bank swap or is refused. -/
  | blkSwaparm (b : Fin 64)
  /-- BLK_SWAP_POINT (R374): The tick reaches BLK_SWAPAT and idle threads switch bank; LIVE changes once all have switched. -/
  | blkSwapPoint (b : Fin 64)
  /-- REPORT_START (R381): The session engine starts the next queued report: lookup, context read, ring check and record write. -/
  | reportStart
  /-- REPORT_PUBLISH (R381): The record write response returns; PROD advances and the session event is raised. -/
  | reportPublish (n : Fin 16384)
  /-- FABRIC_REPORT_RECEIVE (R388): A TYPE 7 frame takes a fabric place or is refused with CODE 7. -/
  | fabricReportReceive (fr : FabFrame)
  /-- SES_COPY (R389): SES_CTL.COPY starts copying the live route bank, or is refused. -/
  | sesCopy
  /-- SES_COPY_DONE (R389): The route bank copy finishes. -/
  | sesCopyDone
  /-- SES_SWAPARM (R389): SES_CTL.SWAPARM arms a route bank swap or is refused. -/
  | sesSwaparm
  /-- ROUTE_SWAP (R389): The tick reaches SES_SWAPAT and the shadow route bank becomes live. -/
  | routeSwap
  /-- SES_CMD_PUSH (R390): A SES_CMD write pushes bytes into a thread's command queue, or is refused. -/
  | sesCmdPush (v : BitVec 64) (by_ : Agent)
  /-- CONTEXT_WRITE (R384): A capability write to a session context is accepted for CONS and lane bytes only. -/
  | contextWrite (n : Fin 16384) (off : Nat) (bytes : List (BitVec 8)) (by_ : Agent)
  /-- ENDPOINT_ATTACH (R391): Gleby handles an attach report: signature, session, identity, route entry, swap and open command. -/
  | endpointAttach (p : Fin 1024) (sub : BitVec 12) (proto : BitVec 8) (ident : List (BitVec 8))
  /-- ENDPOINT_DETACH (R391): Gleby closes a detached endpoint's session and removes its route. -/
  | endpointDetach (n : Fin 16384)
  /-- SESSION_HOLD_EXPIRY (R391): A DETACHED session's hold time ends and it returns to FREE. -/
  | sessionHoldExpiry (n : Fin 16384)
  /-- PACKAGE_LOST (R394): No frame from a package for FAILTIME; routes fail over and the registrar role moves. -/
  | packageLost (pkg : BitVec 8)
  /-- QUEUE_ENABLE (R397): An MBX_QCFG write that sets EN enables a queue pair or is refused. -/
  | queueEnable (q : Fin 16) (v : BitVec 64)
  /-- QUEUE_DISABLE (R398): An MBX_QCFG write of EN = 0 stops fetching and drains the queue pair. -/
  | queueDisable (q : Fin 16) (v : BitVec 64)
  /-- MBX_SQTAIL (R399): A submission tail doorbell is accepted or stops the queue with DBERR. -/
  | mbxSqtail (q : Fin 16) (v : BitVec 64)
  /-- MBX_CQHEAD (R399): A completion head doorbell frees completion slots or stops the queue. -/
  | mbxCqhead (q : Fin 16) (v : BitVec 64)
  /-- COMMAND_FETCH (R401): The steward fetches a burst of submission entries by priority and round-robin. -/
  | commandFetch (q : Fin 16) (entries : List (BitVec 512)) (ok : Bool)
  /-- COMPLETION_POST (R403): A finished command's completion is posted when the completion queue has room. -/
  | completionPost (q : Fin 16) (ok : Bool)
  /-- INTERRUPT_TIME_EXPIRY (R404): ITIME passes since the first unsignalled completion and the MSI-X message is sent. -/
  | interruptTimeExpiry (q : Fin 16)
  /-- ASYNC_EVENT_POST (R405): Gleby posts an enabled asynchronous event on completion queue 0, queuing or dropping it. -/
  | asyncEventPost (cls : Fin 256) (data : BitVec 64)
  /-- HEARTBEAT (R410): Gleby advances ALIVE every millisecond and kicks the watchdog. -/
  | heartbeat
  /-- COMMAND_TIMEOUT (R410): A command's time limit passes and it completes with TIMEOUT. -/
  | commandTimeout (id : Nat)
  /-- REQUEST_TAKE (R416): Gleby takes a facet request from its ring when a response entry is free, returning a credit. -/
  | requestTake (n : Fin 128)
  /-- RESPONSE_FORWARD (R416): A response is forwarded to the staging buffer when it has room. -/
  | responseForward (n : Fin 128)
  /-- GET_VERSION (R427): Returns part, stepping, grade and firmware releases. -/
  | getVersion (g : GIn)
  /-- GET_STATUS (R427): Returns package status. -/
  | getStatus (g : GIn)
  /-- EVENT_ENABLE (R431): Sets the enabled asynchronous event classes. -/
  | eventEnable (g : GIn)
  /-- ABORT (R429): Aborts a fetched command that has not posted. -/
  | abort (g : GIn)
  /-- RESET (R430): Resets a facet, a crown or the package. -/
  | resetCmd (g : GIn)
  /-- AUTH_CHALLENGE (R428): Issues a nonce for principal authentication. -/
  | authChallenge (g : GIn)
  /-- AUTH_OPEN (R466): Verifies a signed challenge and opens a principal session. -/
  | authOpen (g : GIn)
  /-- AUTH_CLOSE (R428): Closes a principal session. -/
  | authClose (g : GIn)
  /-- PRINCIPAL_SESSION_EXPIRY (R428): A principal session idle for 600 s ends. -/
  | principalSessionExpiry (h : BitVec 16)
  /-- NONCE_EXPIRY (R428): An unused nonce expires after 60 s. -/
  | nonceExpiry (id : BitVec 32)
  /-- CROWN_POWER (R432): Moves a crown to P0, P1 or P2. -/
  | crownPower (g : GIn)
  /-- DOMAIN_POWER (R432): Switches a port group, brim spine or Ethernet domain. -/
  | domainPower (g : GIn)
  /-- STANDBY (R433): Arranges package standby with its wake conditions. -/
  | standby (g : GIn)
  /-- POWER_STATUS (R432): Returns the state of every power domain. -/
  | powerStatus (g : GIn)
  /-- SENSORS (R432): Returns sensor readings. -/
  | sensors (g : GIn)
  /-- TIME_GET (R434): Returns the tick count when served. -/
  | timeGet (g : GIn)
  /-- TIME_SOURCE (R434): Sets the discipline source and PPS options. -/
  | timeSource (g : GIn)
  /-- TIME_STEP (R435): Arms a store-time step and completes when it is applied. -/
  | timeStep (g : GIn)
  /-- TIME_RATE (R434): Writes the rate adjustment. -/
  | timeRate (g : GIn)
  /-- PTP_CONFIG (R435): Configures PTP profile and servo parameters. -/
  | ptpConfig (g : GIn)
  /-- PTP_STATUS (R434): Returns PTP offset and state. -/
  | ptpStatus (g : GIn)
  /-- TIMER_SET (R434): Programs a launch timer. -/
  | timerSet (g : GIn)
  /-- HAT_WRITE (R436): Writes hatband entries into the shadow bank, optionally after a copy. -/
  | hatWrite (g : GIn)
  /-- HAT_SWAP (R436): Arms a hatband swap and completes when it has taken effect. -/
  | hatSwap (g : GIn)
  /-- GROUP_SET (R438): Sets a port group's supply selection and enable. -/
  | groupSet (g : GIn)
  /-- PROBE (R438): Probes a cell's partner. -/
  | probe (g : GIn)
  /-- CABLE (R438): Measures a cell's cable length. -/
  | cable (g : GIn)
  /-- BIND (R439): Binds a library protocol to a cell and starts its thread. -/
  | bind (g : GIn)
  /-- UNBIND (R439): Stops a cell's protocol thread and closes its sessions. -/
  | unbind (g : GIn)
  /-- WHEEL (R438): Writes a blocker's slot wheel. -/
  | wheel (g : GIn)
  /-- THREAD_STATUS (R437): Returns a thread's status and window. -/
  | threadStatus (g : GIn)
  /-- THREAD_RESTART (R438): Restarts a stopped or faulted thread at its bound entry. -/
  | threadRestart (g : GIn)
  /-- FEED_SET (R438): Programs and switches a power feed. -/
  | feedSet (g : GIn)
  /-- FEED_STATUS (R437): Returns a feed's measurements. -/
  | feedStatus (g : GIn)
  /-- SES_CONFIG (R440): Sets the detached-session hold time. -/
  | sesConfig (g : GIn)
  /-- SES_INFO (R440): Returns a session context. -/
  | sesInfo (g : GIn)
  /-- SES_RING (R441): Sets a session's ring and event and mints its ring capability. -/
  | sesRing (g : GIn)
  /-- SES_CLOSE (R441): Runs the detach sequence on a session. -/
  | sesClose (g : GIn)
  /-- SES_LIST (R440): Lists sessions. -/
  | sesList (g : GIn)
  /-- FACET_LOAD (R443): Loads a halted facet's code store. -/
  | facetLoad (g : GIn)
  /-- FACET_RUN (R443): Sets XVB, CTX, HOLDMAX and a predictor key and runs a halted facet. -/
  | facetRun (g : GIn)
  /-- FACET_HALT (R443): Halts a facet and returns its resume index. -/
  | facetHalt (g : GIn)
  /-- FACET_REPORT (R444): Returns and frees a facet reset report. -/
  | facetReport (g : GIn)
  /-- FACET_REGS (R443): Reads or writes a facet register block image. -/
  | facetRegs (g : GIn)
  /-- CROWN_MODE (R445): Changes a crown's collision mode. -/
  | crownMode (g : GIn)
  /-- SCRUB (R445): Runs a scrub pass and returns its summary. -/
  | scrub (g : GIn)
  /-- PATROL (R446): Sets Gleby's scrub, threshold, pounce and retirement policy. -/
  | patrol (g : GIn)
  /-- PATROL_SCRUB (R446): The patrol period ends and Gleby runs a full scrub. -/
  | patrolScrub
  /-- LOG_READ (R442): Reads and optionally frees error log entries. -/
  | logRead (g : GIn)
  /-- RETIRE (R445): Retires a page. -/
  | retire (g : GIn)
  /-- TEST_WORD (R445): Performs a checker test-mode access. -/
  | testWord (g : GIn)
  /-- DRAM_TOUCH (R447): Fills a DRAM range in advance. -/
  | dramTouch (g : GIn)
  /-- DRAM_RELEASE (R447): Returns a DRAM range to untouched. -/
  | dramRelease (g : GIn)
  /-- CAP_GRANT (R449): Mints a capability into a halted facet's K register. -/
  | capGrant (g : GIn)
  /-- CAP_REVOKE (R450): Raises a principal's epoch. -/
  | capRevoke (g : GIn)
  /-- MOV_BIND (R449): Binds a capability to a channel side. -/
  | movBind (g : GIn)
  /-- WINDOW_OPEN (R449): Binds a capability to a PCIe data window. -/
  | windowOpen (g : GIn)
  /-- WINDOW_CLOSE (R448): Closes a PCIe data window. -/
  | windowClose (g : GIn)
  /-- CAP_QUERY (R448): Returns a facet K register and its tag. -/
  | capQuery (g : GIn)
  /-- FAB_JOIN (R452): Joins the package to a fabric with a package number. -/
  | fabJoin (g : GIn)
  /-- FAB_LEAVE (R451): Leaves the fabric. -/
  | fabLeave (g : GIn)
  /-- FAB_STATUS (R451): Returns fabric membership. -/
  | fabStatus (g : GIn)
  /-- FAB_CONFIG (R451): Sets FAILTIME. -/
  | fabConfig (g : GIn)
  /-- FAB_WINDOW (R452): Opens or closes an inbound fabric window. -/
  | fabWindow (g : GIn)
  /-- FAB_STANDBY (R452): Sets standby routes for failover. -/
  | fabStandby (g : GIn)
  /-- FAB_EXPORT (R452): Writes a fabric export entry into the shadow bank. -/
  | fabExport (g : GIn)
  /-- FAB_IMPORT (R451): Sets the fabric import window. -/
  | fabImport (g : GIn)
  /-- CONS_LIST (R453): Lists consumable records. -/
  | consList (g : GIn)
  /-- CONS_AUTH (R505): Authenticates a consumable chip. -/
  | consAuth (g : GIn)
  /-- CONS_LIFE (R453): Returns a consumable's life left and limit. -/
  | consLife (g : GIn)
  /-- CONS_USE (R454): Counts use of a consumable and returns life left. -/
  | consUse (g : GIn)
  /-- CONS_POLICY (R508): Sets an issuer's limit and action for a class. -/
  | consPolicy (g : GIn)
  /-- METR_STATUS (R455): Returns the metrology state and identifiers. -/
  | metrStatus (g : GIn)
  /-- METR_LOAD (R477): Stages a sealed configuration image. -/
  | metrLoad (g : GIn)
  /-- METR_SEAL (R479): Seals the staged configuration, loading and locking its objects. -/
  | metrSeal (g : GIn)
  /-- METR_BREAK (R487): Breaks the seal, halting the partition and releasing its locks. -/
  | metrBreak (g : GIn)
  /-- METR_AUDIT (R455): Lists legal audit records. -/
  | metrAudit (g : GIn)
  /-- LDG_READ (R458): Reads ledger lines of a region. -/
  | ldgRead (g : GIn)
  /-- LDG_APPEND (R494): Appends an application record and completes at its commit. -/
  | ldgAppend (g : GIn)
  /-- LDG_STATUS (R457): Returns ledger usage. -/
  | ldgStatus (g : GIn)
  /-- UPD_STAGE (R460): Stages a chunk of an update image. -/
  | updStage (g : GIn)
  /-- UPD_APPLY (R460): Verifies and applies a Gleby image or blocker patch. -/
  | updApply (g : GIn)
  /-- UPD_STATUS (R459): Returns update state. -/
  | updStatus (g : GIn)
  /-- UPD_DISCARD (R459): Discards a staged image. -/
  | updDiscard (g : GIn)
  /-- LEDGER_WRITE (R498): A write to the ledger window enters a pending line or is refused. -/
  | ledgerWrite (line : Fin 262144) (off : Fin 8) (v : BitVec 64) (by_ : Agent)
  /-- LEDGER_READ (R496): A ledger read selects the valid copy, repairing or reporting an unrecoverable line. -/
  | ledgerRead (line : Fin 262144) (by_ : Agent) (bad : Fin 3)
  /-- LINE_COMMIT (R497): A pending line's governor interval ends and its commit starts. -/
  | lineCommit (line : Fin 262144)
  /-- LINE_COMMIT_DONE (R496): A line commit finishes and the writes it carries are answered. -/
  | lineCommitDone (line : Fin 262144)
  /-- POWER_FAIL_WARNING (R557): The power-fail warning rises and the ledger flushes its pending lines. -/
  | powerFailWarning
  /-- POWER_FAIL_WARNING_END (R557): The warning conditions have cleared for 10 ms and the ledger returns to service. -/
  | powerFailWarningEnd
  /-- DBGCHAL (R473): The JTAG challenge instruction shifts out a nonce and device key hash. -/
  | dbgchal
  /-- DBGRESP (R473): The JTAG response instruction grants a debug scope if the signature and conditions hold. -/
  | dbgresp (scope : BitVec 32) (signer : BitVec 8) (sig : List (BitVec 8))
  /-- JTAG_INSTRUCTION (R472): A JTAG instruction is executed or replaced by BYPASS when not authorized. -/
  | jtagInstruction (j : Jtag)
  /-- TRST_ASSERT (R473): TRST ends an open debug authorization. -/
  | trstAssert
  /-- HOST_WINDOW_REQUEST (R513): A host request through a PF1 data window is checked and served or refused. -/
  | hostWindowRequest (write : Bool) (o : Nat) (len : Nat) (data : List (BitVec 8)) (uncorrectable : Bool)
  /-- FUNCTION_LEVEL_RESET (R517): An FLR stops a function's queues or drops its requests. -/
  | functionLevelReset (f : Fin 2)
  /-- LINK_DOWN (R517): A PCIe Hot Reset or link-down acts as an FLR of both functions. -/
  | linkDown
  /-- PERST (R555): PERST_N resets the PCIe domain only. -/
  | perst
  /-- FRAME_RECEIVE (R521): A received Ethernet frame is stamped and queued as a record, passed to the fabric logic, or dropped. -/
  | frameReceive (m : Fin 8) (fr : Frame)
  /-- FRAME_TRANSMIT (R521): A whole transmit record is in the queue and its frame is sent. -/
  | frameTransmit (m : Fin 8)
  /-- FABRIC_REQUEST_RECEIVE (R530): A fabric read or write request is served inside a window or refused. -/
  | fabricRequestReceive (fr : FabFrame) (uncorrectable : Bool)
  /-- FABRIC_RESPONSE_RECEIVE (R529): A fabric response, acknowledgement or refusal ends an outstanding frame. -/
  | fabricResponseReceive (fr : FabFrame)
  /-- FABRIC_RETRANSMIT (R529): An unanswered fabric frame is retransmitted after 100 µs, or treated as refused after the eighth. -/
  | fabricRetransmit (dpkg : BitVec 8) (seq : BitVec 32)
  /-- FABRIC_HEARTBEAT (R529): A heartbeat frame is sent every FAILTIME / 8. -/
  | fabricHeartbeat
  /-- DRAM_PATROL (R524): The DDR5 controller patrols every touched chunk once every 24 hours. -/
  | dramPatrol (chunk : Fin 131072) (corrected : Bool) (uncorrectable : Bool)
  /-- PWR_DCTL_WRITE (R539): A domain control write requests a state change, or is refused. -/
  | pwrDctlWrite (d : Fin 38) (v : BitVec 64)
  /-- DOMAIN_SWITCH_DONE (R538): A domain completes its switch in dependency order and BUSY falls. -/
  | domainSwitchDone (d : Fin 38)
  /-- CROWN_P2_ENTRY (R543): A crown stops its facets, waits for remote operations, drains channels and opens its power switch. -/
  | crownP2Entry (c : Fin 16)
  /-- P2_ENTRY_TIMEOUT (R543): A remote operation is still outstanding after 1 ms and P2 entry is abandoned. -/
  | p2EntryTimeout (c : Fin 16)
  /-- CROWN_WAKE (R541): A wake cause reaches a crown at P1 or P2 and its return to P0 begins. -/
  | crownWake (c : Fin 16)
  /-- CROWN_WAKE_DONE (R544): The crown is at P0 and applies everything it recorded during sleep. -/
  | crownWakeDone (c : Fin 16)
  /-- STANDBY_ENTRY (R547): One millisecond after STANDBY, Gleby powers down to P3. -/
  | standbyEntry
  /-- PACKAGE_WAKE (R548): WAKE_IN or the wake time brings the package out of P3. -/
  | packageWake (pin : Bool) (time : Bool)
  /-- POWER_ON (R551): VDD_AON rises into its window and the package is held in reset. -/
  | powerOn
  /-- RST_N_ASSERT (R551): RST_N held low resets the package. -/
  | rstNAssert
  /-- REFCLK_LOSS (R535): REFCLK has no edge for 4 µs and the package is reset. -/
  | refclkLoss
  /-- PLL_LOCK_LOSS (R535): A PLL reports loss of lock and the package is reset. -/
  | pllLockLoss
  /-- SENSOR_SAMPLE (R556): Every 100 µs the sensors are sampled and warnings set. -/
  | sensorSample (i : Fin 58) (v : BitVec 32)
  /-- SUPPLY_TRIP (R556): A rail outside ±7 % for 10 µs resets the package. -/
  | supplyTrip
  /-- THERMAL_TRIP (R556): A junction above Tj,max + 15 °C resets and holds the package. -/
  | thermalTrip
  /-- WATCHDOG_EXPIRY (R553): TIMEOUT ms pass without a kick and the package is reset. -/
  | watchdogExpiry
  /-- WATCHDOG_KICK (R553): PWR_WDOG.KICK restarts the watchdog count. -/
  | watchdogKick
  /-- PACKAGE_RESET (R549): Every domain except the always-on domain is reset, logging its cause. -/
  | packageReset (cause : BitVec 8)
  /-- BOOT (R554): After reset release, PLLs lock, domains power up, the boot chain runs and READY is set. -/
  | boot (b : BootIn)
  /-- COUNTER_CLEAR_WRITE (R578): A steward write of all zeros clears the register's counters. -/
  | counterClearWrite (a : Nat)
  /-- REGISTER_WRITE (R5): A write to a register without behaviour of its own stores or ignores bits by access code. -/
  | registerWrite (a : Nat) (v : BitVec 64) (by_ : Agent)
  /-- MAC_LINK_UP (R523): A MAC's 10GBASE-R or 25GBASE-R link comes up, ETH_MSTAT shows link up and steward source 304 + m is raised. -/
  | macLinkUp (m : Fin 8)
  /-- MAC_LINK_DOWN (R523): A MAC's link goes down, ETH_MSTAT clears link up and steward source 304 + m is raised. -/
  | macLinkDown (m : Fin 8)
  /-- RS_FEC_LOSS_OF_LOCK (R523): The Clause 108 RS-FEC receiver loses lock on its code-word stream and steward source 304 + m is raised. -/
  | rsFecLossOfLock (m : Fin 8)
  /-- PCIE_LINK_UP (R518): The PCIe link trains and comes up, raising steward source 312. -/
  | pcieLinkUp
  /-- SPEED_OR_WIDTH_CHANGE (R518): The PCIe link retrains to another speed or width, raising steward source 312. -/
  | speedOrWidthChange (speed : Fin 4) (width : Fin 4)
  /-- COMPLETION_TIMEOUT (R516): A steward bus-master read of host memory gets no completion within the Completion Timeout, and the queue pair stops with DMAERR and ERR. -/
  | completionTimeout (q : Fin 16)
  /-- SERDES_REFERENCE_LOSS (R569): The 100 MHz PCIe or 156.25 MHz Ethernet reference clock disappears and CLK_STAT.PCIREF or ETHREF falls, without a package reset. -/
  | serdesReferenceLoss (eth : Bool)
  /-- SERDES_REFERENCE_RETURN (R569): A missing SerDes reference clock returns, CLK_STAT reports it, and the link may train again. -/
  | serdesReferenceReturn (eth : Bool)
  /-- TX_FIFO_BYTE_LEAVES (R340): The serializer takes a byte from a cell's TX FIFO, TXFREE rises, and event condition 4 or latch bit 4 may fire when the FIFO runs empty. -/
  | txFifoByteLeaves (p : Fin 1024)
  /-- PAD_FAULT_END (R335): A faulted pad returns within the rails and FAULTNOW falls to 0, allowing the cell to be re-enabled. -/
  | padFaultEnd (p : Fin 1024)
  /-- PFD_FMEAS_READ (R353): A read of PFD_FMEAS returns the measurements and restarts IPEAK as the highest current since this read. -/
  | pfdFmeasRead (b : Fin 64) (f : Fin 4)
  /-- MSI_X_MASK_CLEAR (R404): The host clears an MSI-X mask, and a message the mask held back is sent. -/
  | msiXMaskClear (f : Fin 2) (vec : Fin 64)
  /-- FREED_IDENTITY_RETURN (R393): An endpoint identity returns to the registrar no sooner than 60 s after its session left DETACHED. -/
  | freedIdentityReturn (eid : BitVec 18)
  /-- PTP_SYNC_SEND (R311): In the master role, Gleby sends a PTP Sync message on each enabled MAC every sync interval, with a one-step or two-step stamp. -/
  | ptpSyncSend (m : Fin 8)
  deriving DecidableEq, Repr

end Sys2Proof
end

