-- ==== Sys2Proof/Machine/OpTable.lean ====
section
/-! DEFINITION. The facet operation set (R92 to R96, R100, R103 to R135, R137, R192, R412): slot class, opcode, types,
operand roles, and the encoding checks of R34, R72, R74, R86 and R96. -/
namespace Sys2Proof.Machine

/-- The slot class of R33. -/
def opClass : OpKind → Nat
  | .vmulMac | .vmac | .vmsu | .vmacu | .vsad => 0
  | .vmov | .vadd | .vsub | .vadds | .vsubs | .vmulAlu | .vfma | .vmin | .vmax | .vminu | .vmaxu | .vabs | .vneg
  | .vand | .vor | .vxor | .vandn | .vshl | .vshr | .vshru | .vcmpeq | .vcmplt | .vcmple | .vcmpltu | .vsel | .vcvt
  | .accst | .accsv | .accrs | .bmove | .bfill | .bcrc | .bfir => 1
  | .mov | .add | .sub | .and | .or | .xor | .shl | .shr | .min | .max | .cmpeq | .cmpne | .cmplt | .cmple | .lea
  | .movw | .tas | .rld | .rst | .radd | .rtas | .ldr | .stc => 2
  | .mul | .mulh | .div | .rem | .fdiv | .fsqrt | .frcp | .frsqrt | .fexp2 | .flog2 | .fsin | .fcos | .crc | .extr
  | .ins | .clz | .popc => 3
  | .nop | .br | .brc | .call | .ret | .loop | .rep | .twait | .ewait | .efclr | .eftst | .syscall | .retx | .brk
  | .kenter | .mfs | .mts | .sig | .mbxput | .mbxget | .kld | .kst | .kmov | .kbnd | .kmask | .kseal | .kunseal
  | .kget | .kclr => 4
  | .lit => 5

/-- The opcode of R92 with its type or size code 0 (R100, R103, R105, R108, R111, R116, R125, R131, R134). -/
def opBase : OpKind → Nat
  | .vmulMac => 0x008 | .vmac => 0x010 | .vmsu => 0x018 | .vmacu => 0x020 | .vsad => 0x028
  | .vmov => 0x208 | .vadd => 0x210 | .vsub => 0x218 | .vadds => 0x220 | .vsubs => 0x228 | .vmulAlu => 0x230
  | .vfma => 0x238 | .vmin => 0x240 | .vmax => 0x248 | .vminu => 0x250 | .vmaxu => 0x258 | .vabs => 0x260
  | .vneg => 0x268 | .vand => 0x270 | .vor => 0x278 | .vxor => 0x280 | .vandn => 0x288 | .vshl => 0x290
  | .vshr => 0x298 | .vshru => 0x2A0 | .vcmpeq => 0x2A8 | .vcmplt => 0x2B0 | .vcmple => 0x2B8 | .vcmpltu => 0x2C0
  | .vsel => 0x2C8 | .vcvt => 0x2D0 | .accst => 0x300 | .accsv => 0x308 | .accrs => 0x310
  | .bmove => 0x380 | .bfill => 0x388 | .bcrc => 0x390 | .bfir => 0x398
  | .mov => 0x408 | .add => 0x410 | .sub => 0x418 | .and => 0x420 | .or => 0x428 | .xor => 0x430 | .shl => 0x438
  | .shr => 0x440 | .min => 0x448 | .max => 0x450 | .cmpeq => 0x458 | .cmpne => 0x460 | .cmplt => 0x468
  | .cmple => 0x470 | .lea => 0x478 | .movw => 0x480 | .tas => 0x488
  | .rld => 0x500 | .rst => 0x508 | .radd => 0x510 | .rtas => 0x518 | .ldr => 0x520 | .stc => 0x528
  | .mul => 0x608 | .mulh => 0x610 | .div => 0x618 | .rem => 0x620 | .fdiv => 0x628 | .fsqrt => 0x630
  | .frcp => 0x638 | .frsqrt => 0x640 | .fexp2 => 0x648 | .flog2 => 0x650 | .fsin => 0x658 | .fcos => 0x660
  | .crc => 0x668 | .extr => 0x670 | .ins => 0x678 | .clz => 0x680 | .popc => 0x688
  | .nop => 0x800 | .br => 0x810 | .brc => 0x811 | .call => 0x812 | .ret => 0x813 | .loop => 0x818 | .rep => 0x819
  | .twait => 0x820 | .ewait => 0x821 | .efclr => 0x822 | .eftst => 0x823 | .syscall => 0x828 | .retx => 0x829
  | .brk => 0x82A | .kenter => 0x82B | .mfs => 0x830 | .mts => 0x831 | .sig => 0x838 | .mbxput => 0x83C
  | .mbxget => 0x83D | .kld => 0x840 | .kst => 0x841 | .kmov => 0x842 | .kbnd => 0x843 | .kmask => 0x844
  | .kseal => 0x845 | .kunseal => 0x846 | .kget => 0x847 | .kclr => 0x848 | .lit => 0xA00

/-- Every operation kind. -/
def allKinds : List OpKind :=
  [.vmulMac, .vmac, .vmsu, .vmacu, .vsad, .vmov, .vadd, .vsub, .vadds, .vsubs, .vmulAlu, .vfma, .vmin, .vmax, .vminu,
   .vmaxu, .vabs, .vneg, .vand, .vor, .vxor, .vandn, .vshl, .vshr, .vshru, .vcmpeq, .vcmplt, .vcmple, .vcmpltu, .vsel,
   .vcvt, .accst, .accsv, .accrs, .bmove, .bfill, .bcrc, .bfir] ++
  [.mov, .add, .sub, .and, .or, .xor, .shl, .shr, .min, .max, .cmpeq, .cmpne, .cmplt, .cmple, .lea, .movw, .tas, .rld,
   .rst, .radd, .rtas, .ldr, .stc, .mul, .mulh, .div, .rem, .fdiv, .fsqrt, .frcp, .frsqrt, .fexp2, .flog2, .fsin,
   .fcos, .crc, .extr, .ins, .clz, .popc] ++
  [.nop, .br, .brc, .call, .ret, .loop, .rep, .twait, .ewait, .efclr, .eftst, .syscall, .retx, .brk, .kenter, .mfs,
   .mts, .sig, .mbxput, .mbxget, .kld, .kst, .kmov, .kbnd, .kmask, .kseal, .kunseal, .kget, .kclr, .lit]

/-- Whether the type or size code is allowed for the operation (R93 to R96 and the tables). -/
def tzAllowed : OpKind → Nat → Bool
  | .vmulMac, t | .vmac, t | .vmsu, t => [0, 1, 3, 4, 5].contains t
  | .vmacu, t | .vsad, t => [0, 1].contains t
  | .vmov, t | .vadd, t | .vsub, t | .vmulAlu, t | .vmin, t | .vmax, t | .vabs, t | .vneg, t | .vcmpeq, t
  | .vcmplt, t | .vcmple, t | .vsel, t | .vcvt, t => decide (t ≤ 6)
  | .vadds, t | .vsubs, t | .vshl, t | .vshr, t => decide (t ≤ 3)
  | .vfma, t => [4, 5, 6].contains t
  | .vminu, t | .vmaxu, t | .vand, t | .vor, t | .vxor, t | .vandn, t | .vshru, t | .vcmpltu, t => decide (t ≤ 2)
  | .accst, t => [1, 2, 3, 4, 5, 6].contains t
  | .bcrc, t => decide (t ≤ 4)
  | .bfir, t => [3, 6].contains t
  | .lea, z | .movw, z => z == 3
  | .mov, _ | .add, _ | .sub, _ | .and, _ | .or, _ | .xor, _ | .shl, _ | .shr, _ | .min, _ | .max, _ | .cmpeq, _
  | .cmpne, _ | .cmplt, _ | .cmple, _ | .mul, _ | .div, _ | .rem, _ | .crc, _ | .clz, _ | .popc, _ => true
  | .mulh, z | .extr, z | .ins, z => z == 3 || z == 7
  | .fdiv, z | .fsqrt, z | .frcp, z | .frsqrt, z | .fexp2, z | .flog2, z | .fsin, z | .fcos, z => z == 2
  | _, t => t == 0

/-- The operand roles of R95. -/
inductive Role where
  | none | src | dst | both
  | memSrc | memDst | memBoth
  | gSrc | gDst | gBoth
  | gaSrc | gaDst
  | accSrc | accDst
  | imm
  | pSrc | pDst
  | target | pushOrTarget
  | leaSrc | gOrImm | gOrMem
  deriving DecidableEq, Repr

/-- The roles of operands A, B and C. -/
def roles : OpKind → Role × Role × Role
  | .vmulMac | .vmac | .vmsu | .vmacu | .vsad => (.accDst, .src, .src)
  | .vmov | .vabs | .vneg => (.dst, .src, .none)
  | .vadd | .vsub | .vadds | .vsubs | .vmulAlu | .vmin | .vmax | .vminu | .vmaxu | .vand | .vor | .vxor | .vandn
  | .vshl | .vshr | .vshru | .vcmpeq | .vcmplt | .vcmple | .vcmpltu => (.dst, .src, .src)
  | .vfma | .vsel => (.both, .src, .src)
  | .vcvt => (.both, .src, .imm)
  | .accst | .accsv => (.dst, .accSrc, .imm)
  | .accrs => (.accDst, .src, .imm)
  | .mov | .clz | .popc | .fsqrt | .frcp | .frsqrt | .fexp2 | .flog2 | .fsin | .fcos => (.dst, .src, .none)
  | .add | .sub | .and | .or | .xor | .shl | .shr | .min | .max | .cmpeq | .cmpne | .cmplt | .cmple | .mul | .mulh
  | .div | .rem | .fdiv => (.dst, .src, .src)
  | .lea => (.gaDst, .leaSrc, .none)
  | .movw => (.none, .gSrc, .imm)
  | .tas => (.gDst, .memBoth, .none)
  | .crc => (.gBoth, .src, .imm)
  | .extr => (.dst, .src, .imm)
  | .ins => (.both, .src, .imm)
  | .rld | .rtas | .ldr => (.memDst, .gaSrc, .imm)
  | .rst | .stc => (.memSrc, .gaSrc, .imm)
  | .radd => (.memBoth, .gaSrc, .imm)
  | .bmove => (.pDst, .pSrc, .gSrc)
  | .bfill => (.pDst, .src, .gSrc)
  | .bcrc => (.gBoth, .pSrc, .gSrc)
  | .bfir => (.pDst, .pSrc, .gBoth)
  | .nop | .syscall | .retx | .lit => (.none, .none, .none)
  | .br => (.none, .target, .none)
  | .brc => (.gSrc, .target, .imm)
  | .call => (.none, .pushOrTarget, .imm)
  | .ret => (.gDst, .none, .imm)
  | .loop => (.src, .imm, .imm)
  | .rep => (.none, .none, .imm)
  | .twait => (.gDst, .src, .none)
  | .ewait | .eftst => (.gDst, .src, .imm)
  | .efclr => (.none, .src, .none)
  | .brk | .kenter | .sig | .kmov | .kclr => (.none, .none, .imm)
  | .mfs => (.gOrMem, .none, .imm)
  | .mts => (.none, .gOrImm, .imm)
  | .mbxput => (.gDst, .memSrc, .imm)
  | .mbxget => (.gDst, .memDst, .imm)
  | .kld => (.none, .memSrc, .imm)
  | .kst => (.memDst, .none, .imm)
  | .kbnd => (.gSrc, .gSrc, .imm)
  | .kmask | .kseal | .kunseal => (.gSrc, .none, .imm)
  | .kget => (.gDst, .none, .imm)

/-- The type of an operand: a vector of element type t, or a scalar of s bytes. -/
inductive DT where
  | vec (t : Nat)
  | sc (s : Nat) (fp : Bool) (uns : Bool)
  deriving DecidableEq, Repr

/-- The lane width in bytes of an element type (R87). -/
def laneBytes (t : Nat) : Nat := if t = 0 then 1 else if t = 2 || t = 6 then 4 else 2

def isFp (t : Nat) : Bool := decide (4 ≤ t)

/-- The bytes of a scalar of size code z (R94). -/
def szBytes (z : Nat) : Nat := 2 ^ (z % 4)

/-- The bytes that the SIZE field of R117 names. -/
def remoteSize (c : BitVec 16) : Nat := match ((c >>> 8) &&& 3).toNat with
  | 0 => 1 | 1 => 4 | 2 => 8 | _ => 16

/-- The access size and step unit of R70 of a type. -/
def DT.size : DT → Nat
  | .vec _ => 32
  | .sc s _ _ => s
def DT.unit : DT → Nat
  | .vec _ => 16
  | .sc s _ _ => s

/-- The type of operand `i` (0 = A, 1 = B, 2 = C) of an operation. -/
def operandDT (k : OpKind) (w : OpW) (i : Nat) : DT :=
  let z := w.tz.toNat
  match opClass k with
  | 0 => .vec z
  | 1 => match k with
    | .bmove => .sc 16 false true
    | .bfill => if i = 0 then .sc 16 false true else .sc 8 false true
    | .bcrc => .sc 16 false true
    | .bfir => .sc (laneBytes z) (isFp z) false
    | _ => .vec z
  | 2 => match k with
    | .rld | .rst | .radd | .rtas | .ldr | .stc => .sc (remoteSize w.c) false true
    | .movw | .lea => .sc 8 false true
    | .tas => .sc 1 false true
    | _ => .sc (szBytes z) false (decide (4 ≤ z))
  | 3 => match k with
    | .fdiv | .fsqrt | .frcp | .frsqrt | .fexp2 | .flog2 | .fsin | .fcos => .sc 4 true false
    | _ => .sc (szBytes z) false (decide (4 ≤ z))
  | _ => match k with
    | .kld | .kst => .sc 16 false true
    | .mbxput | .mbxget => .vec 0
    | _ => .sc 8 false true

/-- Fields of a specifier (R69). -/
def spMode (x : BitVec 16) : Nat := (x >>> 13).toNat
def spWin (x : BitVec 16) : Nat := ((x >>> 10) &&& 7).toNat
def spAreg (x : BitVec 16) : Nat := ((x >>> 6) &&& 15).toNat
def spOff (x : BitVec 16) : Nat := (x &&& 0x3FF).toNat
def spStep (x : BitVec 16) : Int := (x.setWidth 6).toInt
def spOrder (x : BitVec 16) : Nat := ((x >>> 2) &&& 15).toNat
def spFile (x : BitVec 16) : Nat := ((x >>> 11) &&& 3).toNat
def spReg (x : BitVec 16) : Nat := (x &&& 31).toNat
def spImm (x : BitVec 16) : BitVec 12 := x.setWidth 12
def spIsLit (x : BitVec 16) : Bool := spMode x == 7 && x.getLsbD 12
def spLitSel (x : BitVec 16) : Nat := ((x >>> 11) &&& 1).toNat

/-- A memory specifier whose reserved bits are 0, with the mode rules of R78 and R79. -/
def memSpecOk (x : BitVec 16) : Bool :=
  match spMode x with
  | 0 | 2 | 3 | 6 => true
  | 4 => (x &&& 3) == 0 && decide (1 ≤ spOrder x) && decide (spOrder x ≤ 14)
  | 5 => spAreg x % 2 == 0
  | _ => false

/-- A register specifier of a file (0 G, 1 A, 2 ACC) with its number in the file (R72). -/
def regSpecOk (x : BitVec 16) (file : Nat) : Bool :=
  spMode x == 1 && spFile x == file && ((x >>> 5) &&& 0x3F) == 0 && decide (spReg x < (if file = 0 then 32 else 16))

/-- An immediate that R74 allows for a source of the given type; `lits` are the literals of the bundle. -/
def immOk (x : BitVec 16) (d : DT) (lits : List (BitVec 48)) : Bool :=
  spMode x == 7 &&
  if x.getLsbD 12 then
    (x &&& 0x7FF) == 0 &&
    match lits[spLitSel x]? with
    | none => false
    | some l => match d with
      | .sc _ false _ => true
      | .sc s true _ => l >>> (8 * s) == 0
      | .vec t =>
        let w := 8 * laneBytes t
        if isFp t then l >>> w == 0
        else decide ((l.setWidth w).signExtend 48 = l)
  else true

/-- The encoding rules of one specifier in its role (R72, R74, R95, R116, R138). -/
def specOk (r : Role) (x : BitVec 16) (d : DT) (lits : List (BitVec 48)) : Bool :=
  let scalarReg := match d with
    | .sc s _ _ => decide (s ≤ 8) && (regSpecOk x 0 || regSpecOk x 1)
    | .vec _ => false
  match r with
  | .none => x == 0
  | .src => memSpecOk x || scalarReg || (decide (d.size ≠ 16) && immOk x d lits)
  | .dst | .both => memSpecOk x || scalarReg
  | .memSrc | .memDst | .memBoth => memSpecOk x
  | .gSrc | .gDst | .gBoth => regSpecOk x 0
  | .gaSrc | .gaDst => regSpecOk x 0 || regSpecOk x 1
  | .accSrc | .accDst => regSpecOk x 2
  | .imm => spMode x == 7 && !x.getLsbD 12
  | .pSrc | .pDst => spMode x == 2 || spMode x == 3
  | .target => regSpecOk x 0 || regSpecOk x 1 || (spMode x == 7 &&
      (!x.getLsbD 12 || ((x &&& 0x7FF) == 0 && match lits[spLitSel x]? with | some l => l >>> 15 == 0 | none => false)))
  | .pushOrTarget => true
  | .leaSrc => spMode x == 0 || spMode x == 6
  | .gOrImm => regSpecOk x 0 || immOk x d lits
  | .gOrMem => regSpecOk x 0 || memSpecOk x

/-- The A registers that a specifier updates (R76 to R79). -/
def spUpdates (x : BitVec 16) : List Nat :=
  match spMode x with
  | 2 | 3 | 4 => [spAreg x]
  | 5 => [spAreg x, spAreg x + 1]
  | _ => []

def isMemRole : Role → Bool
  | .src | .dst | .both | .memSrc | .memDst | .memBoth | .pSrc | .pDst | .gOrMem => true
  | _ => false

/-- Which system register numbers exist (R132, R217). -/
def sysNumOk (num : Nat) (mts : Bool) : Bool :=
  decide (num ≤ 8) || decide (0x10 ≤ num ∧ num ≤ 0x1B) || decide (0x20 ≤ num ∧ num ≤ 0x27)
    || (!mts && decide (0x30 ≤ num ∧ num ≤ 0x37)) || decide (0x40 ≤ num ∧ num ≤ 0x4B)

/-- The control value of a :I operand keeps to the operation's text. -/
def controlOk (k : OpKind) (w : OpW) : Bool :=
  let c := spImm w.c
  match k with
  | .vcvt =>
    let d := (c &&& 7).toNat
    let p := ((c >>> 3) &&& 3).toNat
    let ws := laneBytes w.tz.toNat
    let wd := laneBytes d
    decide (d ≤ 6) && c >>> 5 == 0 && decide (p < (if ws ≤ wd then wd / ws else ws / wd))
  | .accst =>
    let sh := (c &&& 0x3F).toNat
    let t := w.tz.toNat
    c >>> 8 == 0 && decide (sh ≤ 47) && (!isFp t || (sh == 0 && !c.getLsbD 7)) && (laneBytes t == 4 || !c.getLsbD 6)
  | .accsv | .accrs => decide (c.toNat ≤ 2)
  | .movw => decide (c.toNat ≤ 7)
  | .crc => decide (c.toNat ≤ 4)
  | .extr | .ins =>
    let len := (c >>> 6).toNat
    decide ((c &&& 0x3F).toNat + (if len = 0 then 64 else len) ≤ 64)
  | .rld | .rst => c >>> 10 == 0 && decide (remoteSize w.c ≠ 1)
  | .radd => c >>> 10 == 0 && decide (remoteSize w.c = 4 ∨ remoteSize w.c = 8)
  | .rtas => c >>> 10 == 0 && decide (remoteSize w.c = 1)
  | .ldr | .stc => c >>> 10 == 0 && decide (remoteSize w.c = 16)
  | .brc | .call | .ewait | .eftst | .brk => decide (c.toNat ≤ 1)
  | .ret => decide (c.toNat ≤ 2)
  | .loop => (spImm w.b &&& 0x3FF) != 0
  | .rep => !c.getLsbD 11 || (c &&& 0x7FF) == 0
  | .kenter => c >>> 8 == 0
  | .sig | .mbxput | .mbxget => c >>> 4 == 0
  | .kget => decide ((c >>> 8).toNat ≤ 6)
  | .mfs => sysNumOk (c &&& 0xFF).toNat false && c >>> 8 == 0
  | .mts =>
    let num := (c &&& 0xFF).toNat
    sysNumOk num true && (c >>> 8 == 0 || decide (6 ≤ num ∧ num ≤ 8))
  | _ => true

/-- Operand checks of R96 that depend on the operation: CALL's two forms, RET's three (R141), BCRC's two registers
(R125). -/
def formOk (k : OpKind) (w : OpW) (lits : List (BitVec 48)) : Bool :=
  match k with
  | .call => if (spImm w.c) == 1 then regSpecOk w.b 0 else specOk .target w.b (.sc 8 false true) lits
  | .ret => if (spImm w.c) == 0 then w.a == 0 else regSpecOk w.a 0
  | .bcrc => spReg w.a != spReg w.c
  | _ => true

/-- One operation keeps to its encoding (R34, R36, R86, R96). R86 lists specifiers that update and register reads; a destination register that
another specifier of the operation updates is legal here, and R40 merges the two. DEDUCED, log entry 15. -/
def opEncOk (o : Op) (lits : List (BitVec 48)) : Bool :=
  let r := roles o.kind
  let k := o.kind
  let w := o.w
  if k = .lit then w.guard == 0 else
  let ups := (if isMemRole r.1 then spUpdates w.a else []) ++ (if isMemRole r.2.1 then spUpdates w.b else [])
    ++ (if isMemRole r.2.2 then spUpdates w.c else [])
  tzAllowed k w.tz.toNat
    && (k = .ret || specOk r.1 w.a (operandDT k w 0) lits)
    && specOk r.2.1 w.b (operandDT k w 1) lits
    && specOk r.2.2 w.c (operandDT k w 2) lits
    && controlOk k w && formOk k w lits && decide ups.Nodup

def isLong : OpKind → Bool
  | .bmove | .bfill | .bcrc | .bfir => true
  | _ => false

/-- Operations that must stand alone in their bundle (R96, R163, R188, R192). -/
def standsAlone (k : OpKind) : Bool :=
  isLong k || k = .twait || k = .ewait || k = .retx || k = .kenter

/-- Operations barred while delay bundles are outstanding (R48, R192). -/
def barredInDelay : OpKind → Bool
  | .br | .brc | .call | .ret | .loop | .rep | .twait | .ewait | .retx | .kenter => true
  | _ => false

/-- Operations barred from a repeated bundle (R156). -/
def barredInRepeat (k : OpKind) : Bool :=
  isLong k || match k with
  | .br | .brc | .call | .ret | .loop | .rep | .twait | .ewait | .syscall | .retx | .brk | .kenter => true
  | _ => false

/-- The literals of a bundle in bundle order (R36). -/
def bundleLits (b : List Op) : List (BitVec 48) := (b.filter (·.kind = .lit)).map (·.lit)

/-- How many operations of a class a bundle holds; scalar and LIT operations count together (R34). -/
def classCount (b : List Op) (p : Nat → Bool) : Nat := (b.filter fun o => p (opClass o.kind)).length

/-- The bundle is legal under R34 and R96 as far as its encoding alone decides. -/
def bundleEncOk (b : List Op) : Bool :=
  let lits := bundleLits b
  (b.getLast?.any fun o => o.w.stop)
    && decide (classCount b (· == 0) ≤ 2) && decide (classCount b (· == 1) ≤ 2)
    && decide (classCount b (fun c => c == 2 || c == 5) ≤ 2) && decide (classCount b (· == 3) ≤ 1)
    && decide (classCount b (· == 4) ≤ 1)
    && b.all (fun o => opEncOk o lits)
    && (decide (b.length = 1) || !b.any fun o => standsAlone o.kind)

/-- The opcode of an operation (R92). -/
def opcodeOf (o : Op) : Nat := opBase o.kind + (if opClass o.kind ≤ 3 then o.w.tz.toNat else 0)

/-- Whether a 12-bit opcode is listed in the chapter's tables (R96). -/
def opcodeListed (c : Nat) : Bool :=
  allKinds.any fun k => if opClass k ≤ 3 then decide (opBase k ≤ c) && decide (c < opBase k + 8) else c == opBase k

/-- The 64-bit word of an operation (R31, R36). -/
def encodeOp (o : Op) : BitVec 64 :=
  (if o.w.stop then 1 <<< 63 else 0) ||| (o.w.guard.setWidth 64 <<< 60) ||| (BitVec.ofNat 64 (opcodeOf o) <<< 48) |||
  if o.kind = .lit then o.lit.setWidth 64
  else (o.w.c.setWidth 64 <<< 32) ||| (o.w.b.setWidth 64 <<< 16) ||| o.w.a.setWidth 64

end Sys2Proof.Machine
end

