-- ==== Sys2Proof/Config.lean ====
section
/-! DEFINITION. The free values: constants without a body, so that nothing can be proved of them. -/
namespace Sys2Proof

/-- A fresh free value of 64 bits: the `k`-th that the machine draws. DESIGN CHOICE, log entry 3. DESIGN CHOICE, log entry 5. -/
opaque Config.freeValue : Nat → BitVec 64

/-- Results of the operations whose value R113 bounds but does not state: functions of the operand, the same on every facet of every
package (R99), that count where they keep to the bound. DESIGN CHOICE, log entry 4. -/
opaque Config.frcp : BitVec 32 → BitVec 32
/-- DESIGN CHOICE, log entry 4. -/
opaque Config.frsqrt : BitVec 32 → BitVec 32
opaque Config.fexp2 : BitVec 32 → BitVec 32
opaque Config.flog2 : BitVec 32 → BitVec 32
opaque Config.fsin : BitVec 32 → BitVec 32
opaque Config.fcos : BitVec 32 → BitVec 32

/-- The rate (before it is cut to R306's range) with which the servo answers a sample: Kp and Ki in thousandths, the offset in ticks, the rate
in force, and the number of a fresh value for what else it holds (R311 gives the parameters, not the filter). DESIGN CHOICE, log entry 5. -/
opaque Config.servoRate : Nat → Nat → Int → Int → Nat → Int

/-- SHA-384 of a message (byte i of the digest is bits 8i + 7 to 8i) and the device's public key (R467, R488). DESIGN CHOICE, log entry 53. -/
opaque Config.sha384 : List Byte → BitVec 384
opaque Config.deviceKey : List Byte

/-- The records of a sealed configuration image, or the offset of the record that breaks a limit (R477 names the records
and their limits, and lays out no record). -/
opaque Config.parseSealed : List Byte → Option SealedConf
opaque Config.sealedBadOffset : List Byte → Nat

/-- The station address of a MAC (R529 compares a peer's; the spec assigns none). -/
opaque Config.station : Nat → BitVec 48

/-- The payload of a control frame, Gleby's own (R528 lays out none), and what a payload says, if anything. DESIGN CHOICE, log entry 34. -/
opaque Config.controlBytes : Control → List Byte
opaque Config.controlOf : List Byte → Option Control

/-- The bytes of library 2.7's open command for a cell and a sub-address (R391 lays out none). -/
opaque Config.openCommand : Nat → Nat → List Byte

/-- Pages of the girdle memories 3, 4 and 5 of R284, whose sizes no rule states. -/
opaque Config.girdlePages : Nat → Nat

/-- Whether an ECDSA P-384 signature (96 bytes) of a message verifies under the root of a principal that a root manifest gives
(R461, R466, R468): manifest serial, principal, message, signature. Principals 0 and 1 have the fused roots. DESIGN CHOICE, log entry 53. -/
opaque Config.verify : Nat → Nat → List Byte → List Byte → Bool

/-- Whether an ECDSA P-256 signature (64 bytes) of a message verifies under a chip's public key (R505): key, message, signature. -/
opaque Config.chipVerify : List Byte → List Byte → List Byte → Bool

/-- The image of microcode library 2.7 for a control-store bank (R357, R376, R470 give its release, not its words). DESIGN CHOICE, log entry 38. -/
opaque Config.library : Nat → Byte

/-- The entry address of a protocol of library 2.7 (R380 gives none). DESIGN CHOICE, log entry 38. -/
opaque Config.libraryEntry : Nat → Nat

/-- Where Gleby puts the ring of session 0 in the steward reserve, the ring's LOG2 above 3, and its EVENT (R384). DESIGN CHOICE, log entry 42. -/
opaque Config.session0Ring : Nat
/-- DESIGN CHOICE, log entry 42. -/
opaque Config.session0Log : Nat
opaque Config.session0Event : Nat

end Sys2Proof
end

