-- ==== Sys2Proof/Machine/Addr.lean ====
section
/-! DEFINITION. The package address map (R12, R13, R22, R250 to R252) and bit-field, byte-order and arithmetic helpers. -/
namespace Sys2Proof.Machine

/-- Bits [lo + w - 1 : lo] of a value as a number. -/
def fld {n : Nat} (x : BitVec n) (lo w : Nat) : Nat := x.toNat / 2 ^ lo % 2 ^ w

/-- The value with bits [lo + w - 1 : lo] replaced by the low bits of `v`. -/
def setFld {n : Nat} (x : BitVec n) (lo w v : Nat) : BitVec n :=
  BitVec.ofNat n (x.toNat - x.toNat / 2 ^ lo % 2 ^ w * 2 ^ lo + v % 2 ^ w * 2 ^ lo)

def bit {n : Nat} (x : BitVec n) (i : Nat) : Bool := x.getLsbD i
def setBit {n : Nat} (x : BitVec n) (i : Nat) (b : Bool) : BitVec n := setFld x i 1 (if b then 1 else 0)
def b2n (b : Bool) : Nat := if b then 1 else 0

/-- Little-endian bytes of a number, and back (R88). -/
def natBytes : Nat → Nat → List Byte
  | 0, _ => []
  | k + 1, v => BitVec.ofNat 8 v :: natBytes k (v / 256)
def bytesNat : List Byte → Nat
  | [] => 0
  | b :: t => b.toNat + 256 * bytesNat t

/-- The signed reading of the low `w` bits of a number, and the low `w` bits of a signed number. -/
def sgn (w x : Nat) : Int := if x % 2 ^ w < 2 ^ (w - 1) then (x % 2 ^ w : Nat) else (x % 2 ^ w : Nat) - (2 ^ w : Nat)
def wrapN (w : Nat) (i : Int) : Nat := (i % (2 ^ w : Nat)).toNat

/-- The number with its `w` low bits reversed. -/
def revBits : Nat → Nat → Nat
  | 0, _ => 0
  | w + 1, x => (x % 2) * 2 ^ w + revBits w (x / 2)

def facetBase (n : Nat) : Nat := 0x010000000000 + n * 0x100000
def codeBase (n : Nat) : Nat := facetBase n + 0x80000
def facetRegBase (n : Nat) : Nat := facetBase n + 0xC0000
def crownStoreBase (c : Nat) : Nat := 0x011000000000 + c * 0x400000
def girdle (o : Nat) : Nat := 0x012000000000 + o
def brim (o : Nat) : Nat := 0x013000000000 + o
def crownReg (c o : Nat) : Nat := girdle (0x08000000 + c * 0x10000 + o)
def timReg (o : Nat) : Nat := girdle (0x10000 + o)
def hatReg (o : Nat) : Nat := girdle (0x20000 + o)
def itgReg (o : Nat) : Nat := girdle (0x40000 + o)
def intReg (o : Nat) : Nat := girdle (0x60000 + o)
def mbxReg (o : Nat) : Nat := girdle (0x70000 + o)
def bezReg (o : Nat) : Nat := girdle (0x80000 + o)
def ldgReg (o : Nat) : Nat := girdle (0x90000 + o)
def pciReg (o : Nat) : Nat := girdle (0xA0000 + o)
def ethReg (o : Nat) : Nat := girdle (0xB0000 + o)
def ddrReg (o : Nat) : Nat := girdle (0xC0000 + o)
def sesReg (o : Nat) : Nat := girdle (0x100000 + o)
def ctxAddr (s o : Nat) : Nat := girdle (0x400000 + s * 256 + o)
def ledgerAddr (line o : Nat) : Nat := girdle (0x1000000 + line * 64 + o)
def chanReg (k o : Nat) : Nat :=
  if k < 256 then crownReg (k / 16) (0x4000 + k % 16 * 0x400 + o) else girdle (0x50000 + (k - 256) * 0x400 + o)
def cellReg (p o : Nat) : Nat := brim (p * 0x400 + o)
def blkReg (b o : Nat) : Nat := brim (0x100000 + b * 0x10000 + o)
def pfdReg (b o : Nat) : Nat := brim (0x500000 + b * 0x100 + o)
def grpReg (g o : Nat) : Nat := brim (0x510000 + g * 0x100 + o)

/-- Crown, die, blocker, brim die and port group of a unit (R12). -/
def crownOf (n : Nat) : Nat := n / 8
def dieOfCrown (c : Nat) : Nat := c / 4
def blockerOf (p : Nat) : Nat := p / 16
def brimDieOf (p : Nat) : Nat := p / 512
def groupOf (p : Nat) : Nat := p / 128

/-- The regions of R22. -/
inductive Region where
  | dram
  | fstore (n : Nat)
  | code (n : Nat)
  | fregs (n : Nat)
  | crown (c : Nat)
  | girdle (o : Nat)
  | brim (o : Nat)
  | hole
  deriving DecidableEq, Repr

def region (a : Nat) : Region :=
  if a < 0x4000000000 then .dram
  else if facetBase 0 ≤ a ∧ a < facetBase 128 then
    let n := (a - facetBase 0) / 0x100000
    let o := (a - facetBase 0) % 0x100000
    if o < 0x80000 then .fstore n else if o < 0xC0000 then .code n else .fregs n
  else if crownStoreBase 0 ≤ a ∧ a < crownStoreBase 16 then .crown ((a - crownStoreBase 0) / 0x400000)
  else if girdle 0 ≤ a ∧ a < girdle 0x10000000 then .girdle (a - girdle 0)
  else if brim 0 ≤ a ∧ a < brim 0x10000000 then .brim (a - brim 0)
  else .hole

/-- Assigned offsets of a channel block (R286), a crown register block (R251), a cell block (R333), a blocker block
(R373), a power-feed block (R353). -/
def chanOffset (o : Nat) : Bool :=
  o ∈ [0, 8, 0x10, 0x20, 0x28, 0x30, 0x38, 0x40, 0x48, 0x50, 0x58, 0x80, 0x88, 0x90, 0x98, 0xA0, 0x100, 0x108]
def crownOffset (o : Nat) : Bool :=
  o == 0 || o == 8 || decide (0x100 ≤ o ∧ o ≤ 0x300) || (decide (0x1000 ≤ o ∧ o < 0x1400) && decide (o % 0x80 < 0x60))
    || decide (0x2000 ≤ o ∧ o ≤ 0x2840) || decide (0x2880 ≤ o ∧ o ≤ 0x28A0)
    || (decide (0x4000 ≤ o ∧ o < 0x8000) && chanOffset (o % 0x400))
def cellOffset (o : Nat) : Bool := decide (o ≤ 0x70) || decide (0x100 ≤ o ∧ o < 0x300)
def blkOffset (o : Nat) : Bool :=
  decide (o ≤ 0x28) || (decide (0x100 ≤ o ∧ o < 0x300) && decide (o % 0x20 < 0x18)) || decide (0x400 ≤ o ∧ o < 0x800)
    || decide (0x4000 ≤ o ∧ o < 0xC000)
def pfdOffset (o : Nat) : Bool := o == 0 || decide (0x20 ≤ o ∧ o < 0xA0)

/-- Offsets of the mailbox block that name a register or a ring entry (R396). -/
def mbxAssigned (o : Nat) : Bool :=
  (decide (o < 0x400) && decide (o % 0x40 < 0x20)) || o == 0x800 || decide (0x1000 ≤ o ∧ o < 0x1100) || decide (0x8000 ≤ o ∧ o < 0x10000)
/-- Whether an offset of a facet register block names a register (R58). -/
def facetRegAssigned (o : Nat) : Bool :=
  decide (o % 8 = 0) && (decide (o < 0x1C0) || decide (0x200 ≤ o ∧ o ≤ 0x400) || decide (0x800 ≤ o ∧ o < 0x1000)
    || o == 0x1000 || decide (0x1010 ≤ o ∧ o < 0x1028) || decide (0x1030 ≤ o ∧ o < 0x1048) || decide (0x1050 ≤ o ∧ o < 0x1070)
    || decide (0x1080 ≤ o ∧ o ≤ 0x1100) || decide (0x1140 ≤ o ∧ o < 0x1180) || decide (0x1200 ≤ o ∧ o < 0x1260)
    || o == 0x1300 || decide (0x1380 ≤ o ∧ o < 0x13A8) || decide (0x1400 ≤ o ∧ o < 0x1480))

/-- Whether the 8-byte register at an offset of the girdle or the brim range is assigned (R250 to R252). -/
def girdleAssigned (o : Nat) : Bool :=
  if o < 0x10000 then
    o == 0 || decide (0x100 ≤ o ∧ o ≤ 0x120) || decide (0x200 ≤ o ∧ o < 0x300) || decide (0x1000 ≤ o ∧ o < 0x1130)
      || decide (0x2000 ≤ o ∧ o < 0x21D0)
  else if o < 0x20000 then decide (o ≤ 0x10008) || decide (0x10020 ≤ o ∧ o ≤ 0x10048) || decide (0x11000 ≤ o ∧ o < 0x15000)
  else if o < 0x40000 then
    decide (o ≤ 0x20018) || (decide (0x24000 ≤ o) && (let p := (o - 0x24000) % 0xE000
      decide (p < 0x4800) || decide (0x7000 ≤ p ∧ p < 0xD800)))
  else if o < 0x50000 then decide (o ≤ 0x40010) || decide (0x40020 ≤ o ∧ o ≤ 0x40030) || decide (0x41000 ≤ o ∧ o < 0x42000)
  else if o < 0x60000 then decide (o < 0x58000) && chanOffset (o % 0x400)
  else if o < 0x70000 then
    decide (o ≤ 0x60038) || decide (0x60100 ≤ o ∧ o < 0x60180) || decide (0x60200 ≤ o ∧ o < 0x60280) || decide (0x61000 ≤ o ∧ o < 0x65000)
  else if o < 0x80000 then mbxAssigned (o - 0x70000)
  else if o < 0x90000 then decide (o ≤ 0x80008) || decide (0x80040 ≤ o ∧ o < 0x80060) || decide (o = 0x80100)
  else if o < 0xA0000 then decide (o ≤ 0x90010)
  else if o < 0xB0000 then false
  else if o < 0xC0000 then
    let p := o - 0xB0000
    if p < 0x8000 then (let q := p % 0x1000
      decide (q ≤ 8) || q == 0x40 || decide (0x100 ≤ q ∧ q < 0x200) || decide (0x800 ≤ q))
    else decide (p < 0x8080)
  else if o < 0x100000 then decide (o = 0xC0000)
  else if o < 0x200000 then decide (o ≤ 0x100020) || decide (0x140000 ≤ o ∧ o < 0x1C0000)
  else if o < 0x400000 then false
  else if o < 0x800000 then true
  else if o < 0x1000000 then false
  else if o < 0x2000000 then decide (o < 0x1190000 ∨ 0x1200000 ≤ o)
  else decide (0x8000000 ≤ o ∧ o < 0x8100000) && crownOffset (o % 0x10000)
def brimAssigned (o : Nat) : Bool :=
  if o < 0x100000 then cellOffset (o % 0x400)
  else if o < 0x500000 then blkOffset ((o - 0x100000) % 0x10000)
  else if o < 0x504000 then pfdOffset (o % 0x100)
  else decide (0x510000 ≤ o ∧ o < 0x510800) && decide (o % 0x100 ≤ 8)
def assignedAt (a : Nat) : Bool :=
  match region a with
  | .girdle o => girdleAssigned o
  | .brim o => brimAssigned o
  | .fregs n => facetRegAssigned ((a - facetRegBase n) / 8 * 8)
  | _ => false

/-- The crown that holds an on-die store address, if any. -/
def crownAt (a : Nat) : Option Nat :=
  match region a with
  | .fstore n | .code n => some (crownOf n)
  | .crown c => some c
  | _ => none

end Sys2Proof.Machine
end

