-- ==== Sys2Proof/Machine/Flags.lean ====
section
/-! DEFINITION. The arithmetic conventions of R97 and R98: comparison results, saturation, shifts. The facet has no
condition codes; its sticky bits are FS.WS and the status registers. -/
namespace Sys2Proof.Machine

/-- A comparison writes 1 when it holds and 0 when it does not (R97). -/
def cmp01 (b : Bool) : Nat := if b then 1 else 0

/-- The nearest value of `w` signed bits (R98). -/
def satS (w : Nat) (x : Int) : Nat :=
  let hi : Int := 2 ^ (w - 1) - 1
  let lo : Int := -(2 ^ (w - 1))
  wrapN w (if hi < x then hi else if x < lo then lo else x)

/-- Shifts with an unsigned count (R98). -/
def shlN (w x c : Nat) : Nat := if w ≤ c then 0 else x * 2 ^ c % 2 ^ w
def shrN (w x c : Nat) : Nat := if w ≤ c then 0 else x % 2 ^ w / 2 ^ c
def sarN (w x c : Nat) : Nat := wrapN w (sgn w x / (2 ^ (min c (w - 1)) : Nat))

/-- Round `x / 2^k` to nearest, ties to even. -/
def rneShift (x : Int) (k : Nat) : Int :=
  let q := x / (2 ^ k : Nat)
  let r := x % (2 ^ k : Nat)
  if k = 0 then x
  else if (2 ^ (k - 1) : Nat) < r then q + 1
  else if r < (2 ^ (k - 1) : Nat) then q
  else if q % 2 = 0 then q else q + 1

/-- The number of leading zeros and of set bits of a `w`-bit value. -/
def clzN (w x : Nat) : Nat := if x % 2 ^ w = 0 then w else w - 1 - Nat.log2 (x % 2 ^ w)
def popcN : Nat → Nat → Nat
  | 0, _ => 0
  | w + 1, x => x % 2 + popcN w (x / 2)

end Sys2Proof.Machine
end

