-- ==== Sys2Proof/Machine/Float.lean ====
section
/-! DEFINITION. Floating point of R99: fp16, bf16 and fp32, exact operations rounded once to nearest even, default NaN,
bf16 subnormals as zero. -/
namespace Sys2Proof.Machine

/-- A format: exponent bits, fraction bits, and whether subnormals count as zero (bf16). -/
structure Fmt where
  eb : Nat
  mb : Nat
  flush : Bool
  deriving DecidableEq, Repr

def fmt16 : Fmt := ⟨5, 10, false⟩
def fmtB : Fmt := ⟨8, 7, true⟩
def fmt32 : Fmt := ⟨8, 23, false⟩
/-- The format of an element type (R93). -/
def fmtOf (t : Nat) : Fmt := if t = 4 then fmt16 else if t = 5 then fmtB else fmt32

/-- A value: NaN, an infinity, or sign and m x 2^e. -/
inductive FV where
  | nan
  | inf (neg : Bool)
  | fin (neg : Bool) (m : Nat) (e : Int)
  deriving DecidableEq, Repr

def Fmt.bias (f : Fmt) : Int := 2 ^ (f.eb - 1) - 1
def Fmt.width (f : Fmt) : Nat := f.eb + f.mb + 1
/-- The default quiet NaN (R99). -/
def Fmt.defNaN (f : Fmt) : Nat := (2 ^ f.eb - 1) * 2 ^ f.mb + 2 ^ (f.mb - 1)
def Fmt.infBits (f : Fmt) (neg : Bool) : Nat := b2n neg * 2 ^ (f.eb + f.mb) + (2 ^ f.eb - 1) * 2 ^ f.mb

def unpack (f : Fmt) (x : Nat) : FV :=
  let neg := x / 2 ^ (f.eb + f.mb) % 2 == 1
  let ex := x / 2 ^ f.mb % 2 ^ f.eb
  let fr := x % 2 ^ f.mb
  if ex = 2 ^ f.eb - 1 then (if fr = 0 then .inf neg else .nan)
  else if ex = 0 then (if f.flush then .fin neg 0 0 else .fin neg fr (1 - f.bias - f.mb))
  else .fin neg (2 ^ f.mb + fr) ((ex : Int) - f.bias - f.mb)

/-- Round sign, m x 2^e (with `sticky` when a nonzero part lies below) to the format, to nearest even. DEDUCED, log entry 18. -/
def roundPack (f : Fmt) (neg : Bool) (m : Nat) (e : Int) (sticky : Bool) : Nat :=
  let sb := b2n neg * 2 ^ (f.eb + f.mb)
  if m = 0 then sb else
  let lead : Int := e + Nat.log2 m
  let emin : Int := 1 - f.bias
  let q : Int := (if lead < emin then emin else lead) - f.mb
  let d : Int := q - e
  let mant : Nat :=
    if d ≤ 0 then m * 2 ^ (-d).toNat
    else
      let k := d.toNat
      let fl := m / 2 ^ k
      let rem := m % 2 ^ k
      let half := 2 ^ (k - 1)
      if half < rem || (rem == half && (sticky || fl % 2 == 1)) then fl + 1 else fl
  let enc : Nat := if mant < 2 ^ f.mb then mant
    else ((q + f.mb + f.bias).toNat * 2 ^ f.mb) + mant - 2 ^ f.mb
  if (2 ^ f.eb - 1) * 2 ^ f.mb ≤ enc then f.infBits neg
  else if f.flush && decide (enc < 2 ^ f.mb) then sb
  else sb + enc

/-- DEDUCED, log entry 18. -/
def packFV (f : Fmt) : FV → Nat
  | .nan => f.defNaN
  | .inf n => f.infBits n
  | .fin n m e => roundPack f n m e false

/-- Exact sum of two finite values, as sign, magnitude and exponent; an exact zero is +0 unless both are negative. -/
def addFin (n1 : Bool) (m1 : Nat) (e1 : Int) (n2 : Bool) (m2 : Nat) (e2 : Int) : FV :=
  let e := min e1 e2
  let a : Int := (if n1 then -1 else 1) * (m1 * 2 ^ (e1 - e).toNat : Nat)
  let b : Int := (if n2 then -1 else 1) * (m2 * 2 ^ (e2 - e).toNat : Nat)
  let s := a + b
  if s = 0 then .fin (n1 && n2) 0 0 else .fin (decide (s < 0)) s.natAbs e

def fvAdd : FV → FV → FV
  | .nan, _ | _, .nan => .nan
  | .inf a, .inf b => if a = b then .inf a else .nan
  | .inf a, _ => .inf a
  | _, .inf b => .inf b
  | .fin n1 m1 e1, .fin n2 m2 e2 => addFin n1 m1 e1 n2 m2 e2

def fvNeg : FV → FV
  | .nan => .nan
  | .inf a => .inf (!a)
  | .fin n m e => .fin (!n) m e

def fvMul : FV → FV → FV
  | .nan, _ | _, .nan => .nan
  | .inf a, .inf b => .inf (a != b)
  | .inf a, .fin n m _ => if m = 0 then .nan else .inf (a != n)
  | .fin n m _, .inf b => if m = 0 then .nan else .inf (n != b)
  | .fin n1 m1 e1, .fin n2 m2 e2 => .fin (n1 != n2) (m1 * m2) (e1 + e2)

def fAdd (f : Fmt) (x y : Nat) : Nat := packFV f (fvAdd (unpack f x) (unpack f y))
def fSub (f : Fmt) (x y : Nat) : Nat := packFV f (fvAdd (unpack f x) (fvNeg (unpack f y)))
def fMul (f : Fmt) (x y : Nat) : Nat := packFV f (fvMul (unpack f x) (unpack f y))
/-- a + b x c with one rounding to `g` (R101, R103). -/
def fMulAdd (f g : Fmt) (a b c : Nat) (sub : Bool) : Nat :=
  let p := fvMul (unpack f b) (unpack f c)
  packFV g (fvAdd (unpack g a) (if sub then fvNeg p else p))

/-- b / c, correctly rounded (R112). -/
def fDiv (f : Fmt) (x y : Nat) : Nat :=
  match unpack f x, unpack f y with
  | .nan, _ | _, .nan => f.defNaN
  | .inf _, .inf _ => f.defNaN
  | .inf a, .fin n _ _ => f.infBits (a != n)
  | .fin n _ _, .inf b => b2n (n != b) * 2 ^ (f.eb + f.mb)
  | .fin n1 m1 e1, .fin n2 m2 e2 =>
    if m2 = 0 then (if m1 = 0 then f.defNaN else f.infBits (n1 != n2))
    else
      let k := 2 * f.mb + 4
      let num := m1 * 2 ^ k
      roundPack f (n1 != n2) (num / m2) (e1 - e2 - k) (num % m2 != 0)

/-- Integer square root by Newton's iteration from above, at most `fuel` rounds. -/
def isqrtStep (n : Nat) : Nat → Nat → Nat
  | 0, x => x
  | fuel + 1, x => let y := (x + n / x) / 2; if x ≤ y then x else isqrtStep n fuel y
def isqrt (n : Nat) : Nat := if n = 0 then 0 else isqrtStep n (Nat.log2 n + 4) (2 ^ (Nat.log2 n / 2 + 1))

/-- The square root, correctly rounded; below -0 the default NaN (R112). -/
def fSqrt (f : Fmt) (x : Nat) : Nat :=
  match unpack f x with
  | .nan => f.defNaN
  | .inf n => if n then f.defNaN else f.infBits false
  | .fin n m e =>
    if m = 0 then b2n n * 2 ^ (f.eb + f.mb)
    else if n then f.defNaN
    else
      let k := 2 * f.mb + 8 + (if (e - (2 * f.mb + 8 : Nat)) % 2 = 0 then 0 else 1)
      let v := m * 2 ^ k
      let r := isqrt v
      roundPack f false r ((e - k) / 2) (r * r != v)

/-- Order of two values: `some` of b < c, b = c or b > c; `none` with a NaN. -0 equals +0 (R99). -/
def fCmp (f : Fmt) (x y : Nat) : Option Ordering :=
  let key (v : FV) : Option (Int × Nat × Int) := match v with
    | .nan => none
    | .inf n => some (if n then -2 else 2, 0, 0)
    | .fin n m e => if m = 0 then some (0, 0, 0) else some (if n then -1 else 1, m, e)
  match key (unpack f x), key (unpack f y) with
  | some (a, m1, e1), some (b, m2, e2) =>
    if a < b then some .lt else if b < a then some .gt
    else
      let e := min e1 e2
      let p := m1 * 2 ^ (e1 - e).toNat
      let q := m2 * 2 ^ (e2 - e).toNat
      let o := compare p q
      some (if a = -1 then o.swap else o)
  | _, _ => none

def fLt (f : Fmt) (x y : Nat) : Bool := fCmp f x y == some .lt
def fLe (f : Fmt) (x y : Nat) : Bool := fCmp f x y == some .lt || fCmp f x y == some .eq
def fEq (f : Fmt) (x y : Nat) : Bool := fCmp f x y == some .eq

/-- A bf16 subnormal input reads as zero of its sign. -/
def fIn (f : Fmt) (x : Nat) : Nat :=
  if f.flush && decide (x / 2 ^ f.mb % 2 ^ f.eb = 0) then x / 2 ^ (f.eb + f.mb) % 2 * 2 ^ (f.eb + f.mb) else x % 2 ^ f.width

/-- MIN and MAX: default NaN with a NaN operand, -0 below +0 (R99). -/
def fMin (f : Fmt) (x y : Nat) : Nat :=
  match fCmp f x y with
  | none => f.defNaN
  | some .lt => fIn f x
  | some .gt => fIn f y
  | some .eq => if x / 2 ^ (f.eb + f.mb) % 2 = 1 then fIn f x else fIn f y
def fMax (f : Fmt) (x y : Nat) : Nat :=
  match fCmp f x y with
  | none => f.defNaN
  | some .lt => fIn f y
  | some .gt => fIn f x
  | some .eq => if x / 2 ^ (f.eb + f.mb) % 2 = 1 then fIn f y else fIn f x

/-- |b| and -b of a floating-point lane: the sign cleared, inverted; a NaN result is the default NaN (R99, R103). -/
def fAbs (f : Fmt) (x : Nat) : Nat :=
  match unpack f x with | .nan => f.defNaN | _ => fIn f x % 2 ^ (f.eb + f.mb)
def fNegate (f : Fmt) (x : Nat) : Nat :=
  match unpack f x with
  | .nan => f.defNaN
  | _ => let y := fIn f x; if y / 2 ^ (f.eb + f.mb) % 2 = 1 then y - 2 ^ (f.eb + f.mb) else y + 2 ^ (f.eb + f.mb)

/-- Conversion between floating-point formats. -/
def fConv (f g : Fmt) (x : Nat) : Nat := packFV g (unpack f x)
/-- Exact integer times 2^e to a format. -/
def fOfInt (g : Fmt) (i : Int) (e : Int) : Nat := packFV g (.fin (decide (i < 0)) i.natAbs e)
/-- To a signed integer of `w` bits after scaling by 2^k: nearest even, saturating, NaN to 0 (R99, R104). -/
def fToInt (f : Fmt) (w k : Nat) (x : Nat) : Nat :=
  match unpack f x with
  | .nan => 0
  | .inf n => satS w (if n then -(2 ^ (w + 1)) else 2 ^ (w + 1))
  | .fin n m e =>
    let s : Int := if n then -(m : Int) else m
    let e := e + k
    satS w (if 0 ≤ e then (if 200 < e then (if m = 0 then 0 else s * 2 ^ 200) else s * (2 ^ e.toNat : Nat)) else rneShift s (-e).toNat)

end Sys2Proof.Machine
end

