-- ==== Sys2Proof/Machine/Transcend.lean ====
section
/-! DEFINITION. FRCP, FRSQRT, FEXP2, FLOG2, FSIN and FCOS (R99, R111, R113): the exact cases, a fixed-point reference, and the free
value of Config where it keeps to the accuracy of R113. -/
namespace Sys2Proof.Machine

/-- A finite fp32 value in units of 2^-149. -/
def v149 (x : Nat) : Option Int :=
  match unpack fmt32 x with
  | .fin n m e => some ((if n then -1 else 1) * (m * 2 ^ (e + 149).toNat : Nat))
  | _ => none

/-- The unit in the last place of an fp32 value, in units of 2^-149. -/
def ulp149 (x : Nat) : Nat := 2 ^ (max 1 (x / 2 ^ 23 % 2 ^ 8) - 1)

/-- The result of an operation that is accurate to 2 units in the last place (R113): the free value `v` where it lies that near to the
value that `r` rounds, else `r`. DESIGN CHOICE, log entry 4. -/
def within2 (v : BitVec 32) (r : Nat) : Nat :=
  match v149 v.toNat, v149 r with
  | some a, some b => if 2 * (a - b).natAbs ≤ 5 * ulp149 r then v.toNat else r
  | _, _ => r

/-- The result of FSIN or FCOS (R113): the free value within 2^-22 of `x` x 2^-64, else that rounded. DESIGN CHOICE, log entry 4. -/
def within22 (v : BitVec 32) (x : Int) : Nat :=
  let r := roundPack fmt32 (decide (x < 0)) x.natAbs (-64) false
  match v149 v.toNat with
  | some a => if (a - x * (2 ^ 85 : Nat)).natAbs ≤ 2 ^ 127 then v.toNat else r
  | none => r

/-- 1 / b. -/
def fRcp (x : Nat) : Nat :=
  match unpack fmt32 x with
  | .fin _ m _ => if m = 0 then fDiv fmt32 0x3F800000 x else within2 (Config.frcp (BitVec.ofNat 32 x)) (fDiv fmt32 0x3F800000 x)
  | _ => fDiv fmt32 0x3F800000 x

/-- 1 / sqrt b: an infinity of its sign for a zero, the default NaN below -0. -/
def fRsqrt (x : Nat) : Nat :=
  match unpack fmt32 x with
  | .nan => fmt32.defNaN
  | .inf n => if n then fmt32.defNaN else 0
  | .fin n m e =>
    if m = 0 then fmt32.infBits n
    else if n then fmt32.defNaN
    else
      let odd := e % 2 != 0
      let m' := if odd then 2 * m else m
      let h := (if odd then e - 1 else e) / 2
      within2 (Config.frsqrt (BitVec.ofNat 32 x)) (roundPack fmt32 false (isqrt (2 ^ 120 / m')) (-60 - h) true)

/-- A finite value m x 2^e in units of 2^-64, cut. -/
def fixed64 (m : Nat) (e : Int) : Nat := if 0 ≤ e + 64 then m * 2 ^ (e + 64).toNat else m / 2 ^ (-(e + 64)).toNat

/-- The product of 2^(2^-i) over the set bits of a 64-bit fraction from bit `i` down, in units of 2^-64; `c` is the factor of the bit above. -/
def exp2Bits (fr : Nat) : Nat → Nat → Nat → Nat
  | 0, _, p => p
  | i + 1, c, p =>
    let c := isqrt (c * 2 ^ 64)
    exp2Bits fr i c (if fr / 2 ^ (24 + i) % 2 = 1 then p * c / 2 ^ 64 else p)

/-- 2^b. -/
def fExp2 (x : Nat) : Nat :=
  match unpack fmt32 x with
  | .nan => fmt32.defNaN
  | .inf n => if n then 0 else fmt32.infBits false
  | .fin n m e =>
    let v : Int := (if n then -1 else 1) * (fixed64 m (min e 20) : Int)
    let w := v / (2 ^ 64 : Nat)
    if 128 ≤ w then fmt32.infBits false
    else
      within2 (Config.fexp2 (BitVec.ofNat 32 x))
        (if w < -160 then 0 else roundPack fmt32 false (exp2Bits (v % (2 ^ 64 : Nat)).toNat 40 (2 ^ 65) (2 ^ 64)) (w - 64) true)

/-- `i` more bits of the logarithm of `y` x 2^-64, which lies from 1 to 2. -/
def log2Bits : Nat → Nat → Nat → Nat
  | 0, _, acc => acc
  | i + 1, y, acc =>
    let y := y * y / 2 ^ 64
    if 2 ^ 65 ≤ y then log2Bits i (y / 2) (2 * acc + 1) else log2Bits i y (2 * acc)

/-- log2 b: minus infinity for a zero, the default NaN below it. -/
def fLog2 (x : Nat) : Nat :=
  match unpack fmt32 x with
  | .nan => fmt32.defNaN
  | .inf n => if n then fmt32.defNaN else fmt32.infBits false
  | .fin n m e =>
    if m = 0 then fmt32.infBits true
    else if n then fmt32.defNaN
    else
      let v : Int := (e + Nat.log2 m) * (2 ^ 60 : Nat) + log2Bits 60 (m * 2 ^ (64 - Nat.log2 m)) 0
      within2 (Config.flog2 (BitVec.ofNat 32 x)) (roundPack fmt32 (decide (v < 0)) v.natAbs (-60) true)

/-- The series of sine (`k` odd first) or cosine in units of 2^-64: `t` is the term before, `k` its power. -/
def trigSum (th2 : Nat) : Nat → Nat → Int → Int → Int
  | 0, _, _, acc => acc
  | fuel + 1, k, t, acc =>
    let t := -(t * th2 / (2 ^ 64 : Nat)) / ((k + 1) * (k + 2) : Nat)
    trigSum th2 fuel (k + 2) t (acc + t)

/-- Sine (and, a quarter turn further on, cosine) of a turn in units of 2^-64 of a turn, in units of 2^-64. -/
def sinTurn (t : Nat) : Int :=
  let th : Nat := t % 2 ^ 62 * 115904311329233965478 / 2 ^ 64
  let th2 : Nat := th * th / 2 ^ 64
  let sin := trigSum th2 14 1 (th : Int) (th : Int)
  let cos := trigSum th2 14 0 (2 ^ 64) (2 ^ 64)
  match t / 2 ^ 62 % 4 with
  | 0 => sin
  | 1 => cos
  | 2 => -sin
  | _ => -cos

/-- sin(2 pi b) for `quarter` 0, cos(2 pi b) for 2^62; the default NaN for an infinity. -/
def fTurn (h : BitVec 32 → BitVec 32) (quarter : Nat) (x : Nat) : Nat :=
  match unpack fmt32 x with
  | .fin n m e =>
    let t := fixed64 m e % 2 ^ 64
    within22 (h (BitVec.ofNat 32 x)) (sinTurn ((if n then 2 ^ 64 - t else t) + quarter))
  | _ => fmt32.defNaN
def fSin (x : Nat) : Nat := fTurn Config.fsin 0 x
def fCos (x : Nat) : Nat := fTurn Config.fcos (2 ^ 62) x

end Sys2Proof.Machine
end

