-- ==== Sys2Proof/Machine/FacetVal.lean ====
section
/-! DEFINITION. The values that facet operations compute from their operands (R97 to R107, R111 to R115, R126): lanes are
numbers, arithmetic is exact and narrowed once. -/
namespace Sys2Proof.Machine

/-- Lane `k` of `w` bits, and a value from its lanes. -/
def lane (w x k : Nat) : Nat := x / 2 ^ (k * w) % 2 ^ w
def fromLanes (w n : Nat) (h : Nat → Nat) : Nat := (List.range n).foldl (fun acc k => acc + h k % 2 ^ w * 2 ^ (k * w)) 0

/-- One lane of a vector ALU operation of type t on lanes a, b, c of w bits (R103). VSEL tests the bits of lane a: a floating-point -0
selects b. DESIGN CHOICE, log entry 79. -/
def laneAlu (k : OpKind) (t w a b c : Nat) : Nat :=
  let f := fmtOf t
  let fp := isFp t
  match k with
  | .vmov => b
  | .vadd => if fp then fAdd f b c else wrapN w ((b : Int) + c)
  | .vsub => if fp then fSub f b c else wrapN w ((b : Int) - c)
  | .vadds => satS w (sgn w b + sgn w c)
  | .vsubs => satS w (sgn w b - sgn w c)
  | .vmulAlu => if fp then fMul f b c else if t = 3 then satS w ((sgn w b * sgn w c + 2 ^ 14) / 2 ^ 15) else wrapN w (sgn w b * sgn w c)
  | .vfma => fMulAdd f f a b c false
  | .vmin => if fp then fMin f b c else wrapN w (min (sgn w b) (sgn w c))
  | .vmax => if fp then fMax f b c else wrapN w (max (sgn w b) (sgn w c))
  | .vminu => min b c
  | .vmaxu => max b c
  | .vabs => if fp then fAbs f b else satS w (sgn w b).natAbs
  | .vneg => if fp then fNegate f b else satS w (-sgn w b)
  | .vand => b &&& c
  | .vor => b ||| c
  | .vxor => b ^^^ c
  | .vandn => b &&& (2 ^ w - 1 - c)
  | .vshl => shlN w b c
  | .vshr => sarN w b c
  | .vshru => shrN w b c
  | .vcmpeq => cmp01 (if fp then fEq f b c else decide (b = c))
  | .vcmplt => cmp01 (if fp then fLt f b c else decide (sgn w b < sgn w c))
  | .vcmple => cmp01 (if fp then fLe f b c else decide (sgn w b ≤ sgn w c))
  | .vcmpltu => cmp01 (decide (b < c))
  | .vsel => if a ≠ 0 then b else c
  | _ => 0

/-- One lane converted from type t to type d (R104). -/
def laneCvt (t d x : Nat) : Nat :=
  let ws := 8 * laneBytes t
  let wd := 8 * laneBytes d
  if isFp t then
    if isFp d then fConv (fmtOf t) (fmtOf d) x
    else fToInt (fmtOf t) wd (if d = 3 then 15 else 0) x
  else if isFp d then fOfInt (fmtOf d) (sgn ws x) (if t = 3 then -15 else 0)
  else if t = 3 ∧ d ≠ 3 then (if d = 1 then x else wrapN wd (rneShift (sgn ws x) 15))
  else if t ≠ 3 ∧ d = 3 then (if t = 1 then x else satS 16 (sgn ws x * 2 ^ 15))
  else satS wd (sgn ws x)

/-- VCVT of a whole vector: `a` is the destination's old value (R104). -/
def vecCvt (t d p a b : Nat) : Nat :=
  let ws := 8 * laneBytes t
  let wd := 8 * laneBytes d
  let ns := 256 / ws
  let nd := 256 / wd
  if nd ≤ ns then fromLanes wd nd fun j => laneCvt t d (lane ws b (p * nd + j))
  else fromLanes wd nd fun j => if p * ns ≤ j ∧ j < p * ns + ns then laneCvt t d (lane ws b (j - p * ns)) else lane wd a j

/-- ACCST of an accumulator (R106). -/
def accStore (t : Nat) (acc : Nat) (ctl : BitVec 12) : Nat :=
  let sh := (ctl &&& 0x3F).toNat
  let h := b2n (ctl.getLsbD 6)
  let r := ctl.getLsbD 7
  let w := 8 * laneBytes t
  let n := 256 / w
  fromLanes w n fun j =>
    let v := lane 48 acc ((if n = 8 then 8 * h else 0) + j)
    if isFp t then fConv fmt32 (fmtOf t) (v % 2 ^ 32)
    else
      let i := sgn 48 v
      satS w ((if r && sh != 0 then i + (2 ^ (sh - 1) : Nat) else i) / (2 ^ sh : Nat))

/-- The lanes of an accumulator after a MAC operation lands on it (R100 to R102). -/
def macLand (k : OpKind) (t : Nat) (acc b c : Nat) : Nat :=
  fromLanes 48 16 fun j =>
    let old := lane 48 acc j
    if isFp t then
      let f := fmtOf t
      let x := lane 16 b j
      let y := lane 16 c j
      match k with
      | .vmulMac => packFV fmt32 (fvMul (unpack f x) (unpack f y))
      | .vmsu => fMulAdd f fmt32 (old % 2 ^ 32) x y true
      | _ => fMulAdd f fmt32 (old % 2 ^ 32) x y false
    else
      let s : Int :=
        if t = 0 then
          let e (u : Nat) (i : Nat) : Int := match k with
            | .vmacu | .vsad => (lane 8 u i : Int)
            | _ => sgn 8 (lane 8 u i)
          let d (i : Nat) : Int := if k = .vsad then ((e b i - e c i).natAbs : Int) else e b i * e c i
          d (2 * j) + d (2 * j + 1)
        else
          let e (u : Nat) : Int := match k with
            | .vmacu | .vsad => (lane 16 u j : Int)
            | _ => sgn 16 (lane 16 u j)
          if k = .vsad then ((e b - e c).natAbs : Int) else e b * e c
      match k with
      | .vmulMac => wrapN 48 s
      | .vmsu => wrapN 48 ((old : Int) - s)
      | _ => wrapN 48 ((old : Int) + s)

/-- A 64-bit value as a number, signed or unsigned (R94). -/
def scVal (uns : Bool) (x : Nat) : Int := if uns then (x % 2 ^ 64 : Nat) else sgn 64 x

/-- A 64-bit result of an operation of `s` bytes as a register takes it (R73, R94). -/
def scExt (s : Nat) (uns : Bool) (x : Nat) : BitVec 64 :=
  BitVec.ofInt 64 (if uns then (x % 2 ^ (8 * s) : Nat) else sgn (8 * s) x)

/-- A right shift of a 64-bit value in an operation of `w` bits (R98). -/
def scShr (w : Nat) (uns : Bool) (b c : Nat) : Nat :=
  if w ≤ c then (if uns || decide (0 ≤ scVal uns b) then 0 else 2 ^ 64 - 1) else wrapN 64 (scVal uns b / (2 ^ c : Nat))

/-- CRC polynomials of R114: width, polynomial (bit-reversed for the reflected ones), reflected. -/
def crcPoly (p : Nat) : Nat × Nat × Bool :=
  match p with
  | 0 => (8, 0x07, false)
  | 1 => (16, 0x1021, false)
  | 2 => (16, revBits 16 0x8005, true)
  | 3 => (32, revBits 32 0x04C11DB7, true)
  | _ => (32, revBits 32 0x1EDC6F41, true)

def crcBits (w poly : Nat) (refl : Bool) : Nat → Nat → Nat
  | 0, st => st
  | k + 1, st =>
    let st' := if refl then (if st % 2 = 1 then (st / 2) ^^^ poly else st / 2)
      else (if st / 2 ^ (w - 1) % 2 = 1 then (st * 2 % 2 ^ w) ^^^ poly else st * 2 % 2 ^ w)
    crcBits w poly refl k st'

/-- The CRC state advanced over bytes (R114). -/
def crcAdvance (p st : Nat) (bytes : List Byte) : Nat :=
  let (w, poly, refl) := crcPoly p
  bytes.foldl (fun st b =>
    crcBits w poly refl 8 (if refl then st ^^^ b.toNat else st ^^^ (b.toNat * 2 ^ (w - 8)))) (st % 2 ^ w)

/-- Scalar and special results at 64 bits or exact (R108, R111) of operands at 64 bits: `s` bytes, `uns` by z[2]. -/
def scalarAlu (k : OpKind) (s : Nat) (uns : Bool) (a b c : Nat) (ctl : BitVec 12) : Nat :=
  let w := 8 * s
  let ib := scVal uns b
  let ic := scVal uns c
  match k with
  | .mov => b
  | .add => wrapN 64 (ib + ic)
  | .sub => wrapN 64 (ib - ic)
  | .and => b &&& c
  | .or => b ||| c
  | .xor => b ^^^ c
  | .shl => shlN w b c
  | .shr => scShr w uns b c
  | .min => wrapN 64 (min ib ic)
  | .max => wrapN 64 (max ib ic)
  | .cmpeq => cmp01 (decide (ib = ic))
  | .cmpne => cmp01 (decide (ib ≠ ic))
  | .cmplt => cmp01 (decide (ib < ic))
  | .cmple => cmp01 (decide (ib ≤ ic))
  | .mul => wrapN 64 (ib * ic)
  | .mulh => wrapN 64 (ib * ic / (2 ^ 64 : Nat))
  | .div => wrapN 64 (Int.tdiv ib ic)
  | .rem => wrapN 64 (ib - ic * Int.tdiv ib ic)
  | .fdiv => fDiv fmt32 b c
  | .fsqrt => fSqrt fmt32 b
  | .frcp => fRcp b
  | .frsqrt => fRsqrt b
  | .fexp2 => fExp2 b
  | .flog2 => fLog2 b
  | .fsin => fSin b
  | .fcos => fCos b
  | .crc => crcAdvance (ctl &&& 7).toNat a (natBytes s b)
  | .extr =>
    let pos := (ctl &&& 0x3F).toNat
    let len := if (ctl >>> 6).toNat = 0 then 64 else (ctl >>> 6).toNat
    let v := b / 2 ^ pos % 2 ^ len
    if uns then v else wrapN 64 (sgn len v)
  | .ins =>
    let pos := (ctl &&& 0x3F).toNat
    let len := if (ctl >>> 6).toNat = 0 then 64 else (ctl >>> 6).toNat
    a - a / 2 ^ pos % 2 ^ len * 2 ^ pos + b % 2 ^ len * 2 ^ pos
  | .clz => clzN w b
  | .popc => popcN w b
  | _ => 0

end Sys2Proof.Machine
end

