-- ==== Sys2Proof/Machine/State.lean ====
section
/-! DEFINITION. The state of the package: plain data, every piece the spec names (INVENTORY.md lists each with its rule
and reset value), and the queue of waiting commands. Replicated units stand in sparse tables (Machine/Tbl.lean); every
memory-mapped 64-bit register stands in `regs` under its package address; hidden state stands in the records below. -/
namespace Sys2Proof.Machine

/-- A K register: 128 bits and the tag (R165). -/
structure KReg where
  cap : BitVec 128 := 0
  tag : Bool := false
  deriving DecidableEq, Repr

/-- Where and how a result in flight lands (R39 to R41): a G or A register (fast-bank copies at 64 more, R59), bytes of
one store word, the byte and the G register of a TAS, an accumulator step of R102, 32 bytes of an accumulator (R107),
a system register (its number, the level at issue), a window, a K register. -/
inductive Land where
  | g (r : Nat) (v : BitVec 64)
  | a (r : Nat) (v : BitVec 48)
  | mem (addr : Nat) (bytes : List Byte) (tag : Bool)
  | tas (addr : Nat) (r : Nat)
  | repCount (v : BitVec 16)
  | kclr (bank : Nat) (i : Nat)
  | mac (i : Nat) (kind : OpKind) (t : Nat) (b : BitVec 256) (c : BitVec 256)
  | accPart (i : Nat) (p : Nat) (v : BitVec 256)
  | sys (num : Nat) (lvl : Nat) (v : BitVec 64)
  | w (i : Nat) (v : BitVec 64)
  | k (bank : Nat) (i : Nat) (v : KReg)
  deriving DecidableEq, Repr

/-- A result in flight: the bundles that still issue before the one that sees it (R38, R39). -/
structure Flight where
  left : Nat
  land : Land
  deriving DecidableEq, Repr

/-- A running shadow of R49: the bundles that still behave under the old value. -/
inductive ShadowOf where
  | w (i : Nat) (old : BitVec 64)
  | k (bank : Nat) (i : Nat) (old : KReg)
  | fs (old : BitVec 64)
  | ctx (old : BitVec 64)
  | xvb (old : BitVec 64)
  | holdmax (old : BitVec 64)
  deriving DecidableEq, Repr

structure Shadow where
  left : Nat
  what : ShadowOf
  deriving DecidableEq, Repr

/-- A long operation in progress (R125 to R130): its operation, the FCLK of issue, the elements done since
issue, and the value that a BFILL writes. -/
structure LongOp where
  op : Op
  start : Nat
  done : Nat
  val : BitVec 64
  deriving DecidableEq, Repr

/-- What holds the issue of a facet (R37), among it the drain of a RETX up to its X1 (R189). -/
inductive Wait where
  | none
  | time (issued : Nat) (b : BitVec 64) (dst : Nat)
  | event (issued : Nat) (mask : BitVec 16) (clr : Bool) (dst : Nat)
  | long (l : LongOp)
  | retx (x1 : Nat)
  deriving DecidableEq, Repr

/-- An entry that follows a retirement (item 1 of R181). -/
inductive Due where
  | syscall
  | brk
  | kenter (ks : KReg) (kt : KReg)
  deriving DecidableEq, Repr

/-- An entry of the branch target buffer (R53). -/
structure Btb where
  v : Bool := false
  ctx : BitVec 12 := 0
  idx : BitVec 15 := 0
  target : BitVec 15 := 0
  ctr : BitVec 2 := 0
  lru : Bool := false
  deriving DecidableEq, Repr

/-- An outstanding remote operation (R119): its ARF index, operation, size, target, local address, data of A, and the PERM
bits of its K register, which the target's block checks (R168). -/
structure Remote where
  idx : Nat
  kind : OpKind
  size : Nat
  target : Nat
  locl : Nat
  data : List Byte
  perm : Nat := 0
  stale : Bool := false
  deriving DecidableEq, Repr

/-- The values of a loop level that the loop-end logic still uses after a LOOP, for `left` bundles (R145); or those that moves landing
with the bundle's start overwrote, `left` being 1 where one wrote LC (R150). -/
structure LoopOld where
  left : Nat
  level : Nat
  lc : BitVec 64
  ls : BitVec 64
  le : BitVec 64
  deriving DecidableEq, Repr

/-- A facet: the registers of R58 (fast-bank copies of G24 to G31 and A12 to A15 at index 64 more), and what the block
does not map: predictor, return stack, event flags (apart those that pulses of this FCLK set from the next, R159), hold counter, results in flight, shadows, the bundle about to issue
(R32), its operation index, stalls, entries due, remote operations; the FCLK from which a bundle may issue or an entry be taken (R37, R185,
R189), the E4 of an entry and whether it starts a second one (R187), the index of the bundle that retired last (R202), for each level
whether the target of its last branch was predicted (R55). -/
structure Facet where
  g : List (Nat × BitVec 64) := []
  a : List (Nat × BitVec 48) := []
  w : List (Nat × BitVec 64) := []
  k : List (Nat × KReg) := []
  acc : List (Nat × BitVec 768) := []
  fs : BitVec 64 := 0x100
  xpc : List (Nat × BitVec 64) := []
  xst : List (Nat × BitVec 64) := []
  pbt : List (Nat × BitVec 64) := []
  lc : List (Nat × BitVec 64) := []
  ls : List (Nat × BitVec 64) := []
  le : List (Nat × BitVec 64) := []
  repc : BitVec 64 := 0
  xvb : BitVec 64 := 0
  ctx : BitVec 64 := 0
  holdmax : BitVec 64 := 0x1000
  arf : BitVec 64 := 0
  ctl : BitVec 64 := 2
  cycles : BitVec 64 := 0
  bundles : BitVec 64 := 0
  replay : BitVec 64 := 0
  collapse : BitVec 64 := 0
  discard : BitVec 64 := 0
  pkey : List (Nat × BitVec 64) := []
  btb : List (Nat × Btb) := []
  flushAt : Nat := 0
  rstack : List (Nat × BitVec 15) := []
  top : BitVec 4 := 0
  depth : Nat := 0
  ef : BitVec 16 := 0
  efNext : BitVec 16 := 0
  hold : Nat := 0
  holdDue : Bool := false
  remErr : Bool := false
  flights : List Flight := []
  shadows : List Shadow := []
  bundle : List Op := []
  pc : BitVec 15 := 0
  predTaken : List (Nat × Bool) := []
  wait : Wait := .none
  landed : List Nat := []
  due : Option Due := none
  presented : Option Nat := none
  loopAct : Bool := false
  lastEnd : BitVec 15 := 0
  repeating : Bool := false
  repFirst : Bool := false
  loopOld : List LoopOld := []
  lpWas : List LoopOld := []
  ready : Nat := 0
  e4 : Option Nat := none
  second : Bool := false
  lastIdx : BitVec 15 := 0
  remotes : List Remote := []
  resv : Option (Nat × Nat) := none
  credits : Nat := 0
  staging : List (BitVec 256) := []
  reqRing : List (BitVec 256 × KReg) := []
  respRing : List (BitVec 256) := []
  inProgress : Nat := 0
  dropResp : Nat := 0
  credNew : Nat := 0
  respNew : Nat := 0
  deriving DecidableEq, Repr

/-- A source of an interrupt controller (R208 to R211): its configuration and state, the clocks in which an event was last accepted and
last discarded, the clock of a clear after which an asserted level makes it pending again (R214), and what the retention recorder
holds (R222). -/
structure IntSrc where
  cfg : BitVec 64 := 0
  pending : Bool := false
  active : Bool := false
  evcnt : Nat := 0
  deadline : Option Nat := none
  raw : Bool := false
  rawAt : Nat := 0
  flevel : Bool := false
  lastAcc : Option Nat := none
  lastDrop : Option Nat := none
  again : Option Nat := none
  recorded : Nat := 0
  recLevel : Bool := false
  deriving DecidableEq, Repr

/-- The rest of an interrupt controller: INT_SEL, the sticky bits of INT_STAT, INT_FDROP (R217). -/
structure IntCtl where
  sel : BitVec 64 := 0
  stat : BitVec 64 := 0
  fdrop : Nat := 0
  deriving DecidableEq, Repr

/-- A write to DRAM that the controller holds for a fill (R242, R243). -/
structure HeldWrite where
  addr : Nat
  bytes : List Byte
  who : Agent
  deriving DecidableEq, Repr

/-- A word whose stored bits differ from what the codes give for its data (R253, R282): 128 data bits as stored, the
tag, the valid bit and the 16 x 5 check bits. -/
structure RawWord where
  data : BitVec 128
  tag : Bool
  v : Bool
  chk : BitVec 80
  deriving DecidableEq, Repr

/-- A write that a port landed on a store word in the current FCLK (R230 to R235): the word, the port's rank, the bytes
landed, the word and its tag before the write, the writer that a loss is reported to, the number of its write, whether that write has
been told of a loss, and for a scrub write-back the stored bits that it replaced (R234). -/
structure WMark where
  word : Nat
  rank : Nat
  mask : BitVec 16
  old : List Byte
  oldTag : Bool := false
  who : Agent
  id : Nat := 0
  told : Bool := false
  back : Option RawWord := none
  deriving DecidableEq, Repr

/-- The time base (R303 to R307): tick count and fraction, the rate in force, the accepted rate with its rate point M,
and the armed step with its tick. The replicas of R308 hold the same count. -/
structure TimeBase where
  tick : Nat := 0
  frac : Nat := 0
  rate : Int := 0
  pend : Option (Int × Nat) := none
  step : Option (Int × Nat) := none
  deriving DecidableEq, Repr

/-- What the active sealed configuration locks (R219, R327, R482 to R484): facets, channels, timers, cells, blocker
threads, feeds, interrupt sources (controller x 1024 + source), hatband source, sink and export entries, and the event numbers
reserved for it. -/
structure Locks where
  facets : List Nat := []
  chans : List Nat := []
  timers : List Nat := []
  cells : List Nat := []
  threads : List Nat := []
  feeds : List Nat := []
  srcs : List Nat := []
  hatSrc : List Nat := []
  hatSink : List Nat := []
  hatExp : List Nat := []
  events : List Nat := []
  deriving DecidableEq, Repr

/-- A hatband pulse on its way (R323): the FCLK in which it was raised, its event number, the bank that routes it,
the tick of the raise. -/
structure Pulse where
  at_ : Nat
  ev : Nat
  bank : Nat
  tick : Nat
  deriving DecidableEq, Repr

/-- What READ-ONLY identity the package has (R1, R64, R427): its grade letter (0x43 C or 0x49 I) and serial number. -/
structure Ident where
  grade : BitVec 8 := 0x43
  serial : BitVec 64 := 0
  deriving DecidableEq, Repr

/-- A ledger line with a pending image or a commit under way (R496 to R499): its committed bytes, the FCLK at which its
interval ends, and whether the commit has started. -/
structure PendLine where
  line : Nat
  base : List Byte
  due : Nat
  busy : Bool
  /-- A further write came, which counts the image once in COALESCED (R497). -/
  merged : Bool := false
  deriving DecidableEq, Repr

/-- A record of ledger region 5, whose bytes the spec does not lay out (R278, R308, R552): resets, retirements, time
faults and patches. -/
inductive Rec5 where
  | reset (cause : Nat) (index : Nat) (tick : Nat)
  | retirement (crown : Nat) (page : Nat) (spare : Nat)
  | timeFault (die : Nat) (tick : Nat)
  | patch (serial : Nat)
  | standby (tick : Nat)
  deriving DecidableEq, Repr

/-- The ledger (R491 to R501) beside its window and registers: pending lines in the order of their first write, the FCLK
from which each line may commit again, the commit count of each line, region-5 records, the patches recorded, the next SEQ of the legal, the general and the application ring, whether new writes are refused (R500). -/
structure Ledger where
  pend : List PendLine := []
  last : List (Nat × Nat) := []
  seq : List (Nat × Nat) := []
  rec5 : List Rec5 := []
  patches : List (List Byte) := []
  legal : Nat := 0
  general : Nat := 0
  app : Nat := 0
  flush : Bool := false
  deriving DecidableEq, Repr

/-- The sealed weighing partition (R477 to R487): the staged image, the highest SERIAL sealed, the configuration in force, the image of
the record "sealed" with its digest and the tick of sealing, the FCLK of recent partition resets, whether restarts have stopped, the
change of state whose legal record waits for its commit (line, record kind) with the image it stages, the tick at which METR_SEAL
started. -/
structure Metro where
  staged : List Byte := []
  lastSealed : Nat := 0
  conf : Option SealedConf := none
  digest : BitVec 384 := 0
  sealImage : List Byte := []
  tick : Nat := 0
  resets : List Nat := []
  stopped : Bool := false
  change : Option (Nat × Nat) := none
  loading : List Byte := []
  start : Nat := 0
  deriving DecidableEq, Repr


/-- The integrity engine of a crown beside its registers (R275 to R281): redirections (page to spare), the page whose
retirement runs, the page under test with its spare, the FCLK at which the copy of that page switches while one runs (R277), the place of the
pounce, the FCLK at which its interval ends, the running scrub pass (store, facet, first page, pages). Pages
are numbered in the order of R279, spares included. -/
structure Integ where
  redir : List (Nat × Nat) := []
  retiring : Option Nat := none
  test : Option (Nat × Nat) := none
  copy : Option Nat := none
  next : Nat := 0
  due : Nat := 0
  scrub : Option (Nat × Nat × Nat × Nat) := none
  deriving DecidableEq, Repr

/-- A channel beside its registers (R290 to R302): bytes left to read, elements whose reads have issued, elements taken into
the holding register, elements written, the holding register, elements of a remote side that returned out of order (R531), the
error with which it ends, the FCLK of a drain request, the FCLK of the last start, of the last missed start (with MISSED before it) and of
the last return to IDLE, a start and a stop that the next FCLK takes, a start recorded while its crown sleeps. -/
structure Chan where
  rem : Nat := 0
  rpos : Nat := 0
  took : Nat := 0
  wpos : Nat := 0
  hold : List Byte := []
  back : List (Nat × List Byte) := []
  ending : Nat := 0
  startNext : Bool := false
  stopNext : Bool := false
  drain : Option Nat := none
  startAt : Option Nat := none
  missAt : Option (Nat × Nat) := none
  idleAt : Option Nat := none
  sleepStart : Bool := false
  deriving DecidableEq, Repr

/-- A mover engine (R296, R298): the channel last granted at each priority, the channel whose burst it issues with the
FCLK after its last read beat, and the suspended bursts with the beats each has left. -/
structure Engine where
  last : List (Nat × Nat) := []
  cur : Nat := 0
  busy : Nat := 0
  susp : List (Nat × Nat) := []
  deriving DecidableEq, Repr

/-- An entry of a cell's shift queue (R365, R366). -/
inductive ShiftEntry where
  | shift (v : BitVec 16)
  | span (v : BitVec 16)
  | pads (v : BitVec 16)
  deriving DecidableEq, Repr

/-- A burst of R341: its first FCLK, its bytes, how many of them come from the TX FIFO, the FIFO bytes taken and the bytes received so far. -/
structure Burst where
  start : Nat
  bytes : List Byte
  avail : Nat := 0
  sent : Nat := 0
  got : Nat := 0
  deriving DecidableEq, Repr

/-- A line as a serializer last left or read it (R337): its level, the last bit, the bits that count for stuffing. -/
structure LineSt where
  level : Bool := true
  last : Bool := true
  run : Nat := 0
  deriving DecidableEq, Repr

/-- A port cell beside its registers (R339 to R351, R365, R366): its FIFOs, burst, launch pulse end, shift queue with
the FCLK at which the first entry started, the bytes of it already received and taken, the bit periods already read, the lines as last sent
and read, stuffing, the CRC span (register, bits held back), pad levels forced by a PADSET, pads at high impedance since a fault or a trip
(R332, R335), the conditions of COND 9 and 18, the levels on its balls, the FCLK since which they have matched (or differed from) PRES, the FCLK of its last launch 0, and when a
measurement was accepted. -/
structure Cell where
  tx : List Byte := []
  rx : List Byte := []
  burst : Option Burst := none
  pulseEnd : Option (Nat × Bool) := none
  queue : List ShiftEntry := []
  entryAt : Nat := 0
  entryGot : Nat := 0
  entryTx : List Byte := []
  lineGot : Nat := 0
  txLine : LineSt := {}
  rxLine : LineSt := {}
  stuff : Bool := false
  span : Option (BitVec 32) := none
  spanTail : List Bool := []
  forced : BitVec 4 := 0
  hiz : Bool := false
  crcOk : Bool := false
  lost : Bool := false
  padA : Bool := false
  padB : Bool := false
  attSince : Nat := 0
  launch0 : Option Nat := none
  sense : Option (Nat × BitVec 64) := none
  tdr : Bool := false
  deriving DecidableEq, Repr

/-- A power feed beside its registers (R354, R355): retries left, the FCLK at which blanking or the retry delay ends, the exact
thermal accumulator in units of 10^-11 A²s, whether the previous sample stood at or above IFAST, the samples in a row
below 0.8 of nominal. -/
structure Feed where
  retries : Nat := 0
  till : Nat := 0
  acc : Nat := 0
  fast : Bool := false
  low : Nat := 0
  deriving DecidableEq, Repr

/-- A blocker thread (R357, R367 to R371). -/
structure Thread where
  pc : BitVec 11 := 0
  m : List (Nat × BitVec 16) := []
  z : Bool := false
  n : Bool := false
  c : Bool := false
  lcnt : BitVec 16 := 0
  stack : List (BitVec 11) := []
  latch : BitVec 16 := 0
  latchAt : Nat := 0
  mask : BitVec 16 := 0
  timer : Option Nat := none
  expired : Bool := false
  report : List Byte := []
  stamp : Option (BitVec 64 × BitVec 8) := none
  snap : List (BitVec 64 × BitVec 8) := []
  cmds : List Byte := []
  state : Nat := 0
  bank : Bool := false
  fcause : Nat := 0
  wake : Bool := false
  deriving DecidableEq, Repr

/-- A blocker beside its registers and threads (R358, R373, R374): the FCLK of its spine's reset, the last BCLK slot used, a
wheel value that waits for a BCLK whose count mod 16 is 0, and that count. -/
structure Blocker where
  origin : Nat := 0
  nextSlot : Nat := 0
  wheel : Option (BitVec 64) := none
  wheelAt : Nat := 0
  deriving DecidableEq, Repr


/-- A MAC's queues (R520, R521): receive and transmit queue bytes, two-step stamps, the sequence number of the next Sync, the FCLK
at which a received pause ends. -/
structure Mac where
  rx : List Byte := []
  tx : List Byte := []
  ts : List (BitVec 64 × Nat) := []
  seq : Nat := 0
  pauseEnd : Nat := 0
  deriving DecidableEq, Repr

/-- An outstanding fabric frame (R529): the frame, retransmissions made, the FCLK of the last one, the channel and element (or
destination element) that waits for it, and whether the last answer was refusal CODE 7 (R388). -/
structure FabOut where
  fr : FabFrame
  tries : Nat := 0
  at_ : Nat := 0
  chan : Option (Nat × Nat) := none
  full : Bool := false
  deriving DecidableEq, Repr

/-- An inbound fabric window (R26, R530): package, permission (bit 0 read, bit 1 write), base and length in bytes. -/
structure FabWin where
  win : Nat
  pkg : Nat
  perm : Nat
  base : Nat
  len : Nat
  deriving DecidableEq, Repr

/-- The girdle fabric (R528 to R530, R394): outstanding frames, the next SEQ for each destination, the frames each
source sent last with the answers given, when each package was last heard, membership, windows, fabric events
waiting for their act time (event, act time, FCLK of arrival), frames dropped. -/
structure Fabric where
  out : List FabOut := []
  seqs : List (Nat × Nat) := []
  seen : List (Nat × List (Nat × FabFrame)) := []
  heard : List (Nat × Nat) := []
  stations : List (Nat × BitVec 48) := []
  joined : Bool := false
  fabid : BitVec 32 := 0
  macs : BitVec 8 := 0
  present : List Nat := []
  failtime : Nat := 30
  beat : Nat := 0
  wins : List FabWin := []
  events : List (Nat × Nat × Nat) := []
  standby : Nat := 0
  drops : Nat := 0
  deriving DecidableEq, Repr


/-- The discipline of store time beside its registers (R309 to R312): whole seconds raised, the tick of the PPS edge whose
successor is awaited, PPS_OUT high since a tick, the servo's sync interval in ns, gains in 1/1,000, step threshold and lock
bound in ns, lock and holdover counts, consecutive good samples, the rates of the last samples, the FCLK of the last
usable sample, MACs with PTP on and their profile, the cable delay in ns, the FCLK of the last Sync sent
per MAC, DOMAIN and the IEEE 1588 priorities, the offset in ticks and the MAC of the last sample. -/
structure Disc where
  secDone : Nat := 0
  ppsFrom : Option Nat := none
  ppsHigh : Option Nat := none
  sync : Nat := 125000000
  kp : Nat := 700
  ki : Nat := 300
  stepNs : Nat := 100000
  lockNs : Nat := 100
  lockN : Nat := 16
  holdN : Nat := 3
  good : Nat := 0
  rates : List Int := []
  lastAt : Option Nat := none
  enabled : BitVec 8 := 0
  profile : BitVec 8 := 0
  delay : Int := 0
  synced : List (Nat × Nat) := []
  domain : Nat := 0
  prio1 : Nat := 128
  prio2 : Nat := 128
  lastOffset : Int := 0
  lastMac : Nat := 0
  deriving DecidableEq, Repr


/-- A report on its way to the session engine (R370, R381, R388): the package and cell it comes from, its sub-address, stamp and
stamp SEQ, its bytes, the FCLK of arrival, whether it holds a fabric place, the blocker whose place it holds. -/
structure Report where
  pkg : Nat
  cell : Nat
  sub : Nat
  stamp : Option (BitVec 64)
  sseq : BitVec 8
  data : List Byte
  at_ : Nat
  fab : Bool
  blk : Nat
  deriving DecidableEq, Repr

/-- A record written and not yet published (R381): session, stamp, address. -/
structure Publish where
  sess : Nat
  stamp : BitVec 64
  addr : Nat
  deriving DecidableEq, Repr

/-- The session engine beside its registers, contexts and banks, and Gleby's session tables (R381, R391 to R394): input queue,
FCLK of the last start, records to publish, HOLD in s, DETACHED sessions with their FCLK, the local pool and whether more was asked for, freed identities
with their FCLK, signatures with their identities, identities allocated, standby routes (key; package and session),
sessions whose attach or detach waits for a swap. -/
structure Ses where
  queue : List Report := []
  last : Nat := 0
  pubs : List Publish := []
  hold : Nat := 10
  detached : List (Nat × Nat) := []
  pool : List Nat := []
  asked : Bool := false
  freed : List (Nat × Nat) := []
  known : List (Nat × Nat) := []
  alloc : List Nat := []
  standby : List (Nat × Nat) := []
  opening : List Nat := []
  closing : List Nat := []
  deriving DecidableEq, Repr

/-- A host queue pair beside its registers (R397 to R404): the tail last rung, the head last rung, the phase of the current pass,
completions since the last message, the FCLK of the first of them, an FLR of PF0 that waits for ACTIVE to fall (R517). -/
structure QPair where
  tail : Nat := 0
  chead : Nat := 0
  phase : Bool := true
  count : Nat := 0
  firstAt : Option Nat := none
  flr : Bool := false
  deriving DecidableEq, Repr

/-- Where a Gleby command came from: a host queue, or a facet's request with its K register (R406, R415). -/
inductive CmdSrc where
  | host (q : Nat)
  | facet (n : Nat) (k : KReg)
  deriving DecidableEq, Repr

/-- What a started command waits for before it completes: the commit of ledger lines, a store-time step, a hatband swap, a
facet's halt, a scrub pass, a retirement, a power change (domain, state asked for, result), chunks to fill, chunks to release, a session's close,
a measurement of a cell, a thread that stops, swaps of blockers, the objects of a seal or a break. -/
inductive CmdWait where
  | none
  | lines (ls : List Nat) (result : Nat)
  | step (result : Nat)
  | hatSwap (result : Nat)
  | halt (n : Nat)
  | scrub (u : Nat)
  | retire (c : Nat)
  | power (d target result : Nat)
  | chunks (cs : List Nat) (result : Nat)
  | closed (n : Nat)
  | measured (p kind : Nat)
  | unbinding (p : Nat)
  | release (lo n : Nat)
  | swapped (bs : List Nat) (ls : List Nat) (result : Nat)
  | sealing
  | breaking
  deriving DecidableEq, Repr

/-- A Gleby command in progress (R401): its number, source, entry, the FCLK of its fetch and of its start, what it waits for, the
objects it holds (kind and number, R424), STATUS and RESULT once it has finished. -/
structure Cmd where
  id : Nat
  src : CmdSrc
  entry : BitVec 512
  at_ : Nat
  start : Option Nat := none
  wait : CmdWait := .none
  held : List (Nat × Nat) := []
  done : Option (Nat × BitVec 64) := none
  deriving DecidableEq, Repr

/-- An open principal session (R428): handle, principal, the FCLK of the last command that named it. -/
structure PSess where
  handle : Nat
  prin : Nat
  at_ : Nat
  deriving DecidableEq, Repr

/-- An outstanding nonce (R428): identifier, principal, value, FCLK. -/
structure Nonce where
  id : Nat
  prin : Nat
  value : List Byte
  at_ : Nat
  deriving DecidableEq, Repr

/-- A staged update image (R460): kind, length, the 16-byte units staged, the bytes. -/
structure Stage where
  kind : Nat
  total : Nat
  units : List Nat
  bytes : List (Nat × Byte)
  deriving DecidableEq, Repr

/-- A bound cell (R439): protocol, RATE, FMT, the descriptors or filters. -/
structure Bind where
  proto : Nat
  rate : BitVec 64
  fmt : BitVec 64
  data : List Byte := []
  deriving DecidableEq, Repr

/-- Gleby: queue pairs, commands in progress, the order in which they finished, next command number, queue last fetched at
each priority, event queue, events dropped, event mask, principal sessions, nonces, patrol settings (period, threshold,
policy, last pass), staged image, patches applied, host windows, bound cells, chips (8 x cell + device; record line), last heartbeat, warnings posted. -/
structure Gly where
  qps : List (Nat × QPair) := []
  cmds : List Cmd := []
  finished : List Nat := []
  nextId : Nat := 0
  rr : List (Nat × Nat) := []
  evq : List (Nat × BitVec 64) := []
  dropped : Nat := 0
  mask : BitVec 64 := 0
  prins : List PSess := []
  nextHandle : Nat := 1
  nonces : List Nonce := []
  nextNonce : Nat := 1
  period : Nat := 3600
  policy : Nat := 1
  patrolAt : Nat := 0
  stage : Option Stage := none
  wins : List (Nat × KReg) := []
  binds : List (Nat × Bind) := []
  chips : List (Nat × Nat) := []
  beat : Nat := 0
  warned : Nat := 0
  deriving DecidableEq, Repr

/-- The bezel beside its registers (R461 to R473): principals with a root, the key hashes in the programmed Inspector slots, the serial of the
accepted manifest with its principals and the hash of its Inspector key, the fused hash of the Maker key, the fuses, the nonce of an open challenge, the scope of an open debug authorization, the RELEASE and ROLL (256 x
RELEASE + ROLL) of the image in each boot-flash slot, the JTAG instruction in force. -/
structure Bez where
  roots : List Nat := []
  insp : List (BitVec 384) := []
  manSerial : Nat := 0
  manPrins : List Nat := []
  manInsp : BitVec 384 := 0
  maker : BitVec 384 := 0
  fuse : BitVec 64 := 0
  nonce : Option (List Byte) := none
  scope : Option (BitVec 32) := none
  jtag : Jtag := .idcode
  rel : List (Nat × Nat) := []
  deriving DecidableEq, Repr

/-- A change of a power domain under way (R538, R543): its domain, the state asked for, the FCLK of the request, FORCE. -/
structure PwrChange where
  d : Nat
  target : Nat
  at_ : Nat
  force : Bool
  deriving DecidableEq, Repr

/-- The always-on domain and the power controller beside their registers (R535 to R557): changes under way, crowns that wake with the
FCLK of the cause, a STANDBY with the FCLK of its SUCCESS, P3, whether the steward runs and the watchdog counts from, a package
reset that RESET has announced, whether the reset is held, the FCLK of the last sample of each sensor, facets whose
remote operations a forced entry refuses at wake, the FCLK of the power-fail warning, the FCLK at which each crown went to P1,
the FCLK since which every junction has read cool (R556) and that since which no rail has read outside its trip window (R562; none: always so far), whether boot found DDR5 channels of different capacity (R238), domains with a write stored while BUSY (R539), and per seam the replays in
a row of one flit with the FCLK of the last (R15). -/
structure Pwr where
  changes : List PwrChange := []
  waking : List (Nat × Nat) := []
  standby : Option Nat := none
  asleep : Bool := false
  running : Bool := false
  kicked : Nat := 0
  resetAt : Option Nat := none
  holdReset : Bool := false
  sampled : List (Nat × Nat) := []
  failed : List Nat := []
  pfwAt : Nat := 0
  slept : List (Nat × Nat) := []
  coolAt : Option Nat := none
  railAt : Option Nat := none
  ddrDiffer : Bool := false
  again : List Nat := []
  seams : List (Nat × (Nat × Nat)) := []
  deriving DecidableEq, Repr

/-- The links beside their registers (R510, R513, R518, R524, R526): whether the PCIe link is up, its speed (0 to 3: 2.5, 5, 8, 16 GT/s)
and width (0 to 3: x1, x2, x4, x8), AER non-fatal errors logged, the FCLK of the last correction that raised the source of a DRAM
channel, the FCLK of the last patrol of a chunk. -/
structure Links where
  up : Bool := false
  speed : Nat := 0
  width : Nat := 0
  aer : Nat := 0
  ddrCorr : List (Nat × Nat) := []
  patrolled : List (Nat × Nat) := []
  deriving DecidableEq, Repr

/-- What a cell does with a pad that no shift drives (R332, R334, R335, R341): nothing, its pull (PULL's code), a level. -/
inductive Drive where
  | hiz
  | pull (code : Nat)
  | level (v : Bool)
  deriving DecidableEq, Repr

/-- What has left the package, oldest first. -/
inductive Out where
  /-- Bytes written to host memory (R397, R513). -/
  | hostWrite (addr : Nat) (bytes : List Byte)
  /-- An MSI-X message of a PCIe function (R404, R512). -/
  | msix (f : Nat) (vec : Nat)
  /-- A frame leaving a MAC (R520), a fabric frame (R528). -/
  | frame (mac : Nat) (bytes : List Byte)
  | fabric (fr : FabFrame)
  /-- A PCIe completion to a host request: status (0 successful, 1 Unsupported Request, 2 Completer Abort) and data. -/
  | pcie (status : Nat) (data : List Byte)
  /-- The level driven on PPS_OUT (ball 4096). -/
  | pin (name : Nat) (level : Bool)
  /-- The level on the gate ball FDG of a power feed (R354, R570). -/
  | gate (ctl feed : Nat) (on : Bool)
  /-- What a cell does with its pads A and B from here on. -/
  | pads (cell : Nat) (a b : Drive)
  /-- What a serializer drove on a pad (ball 2p for pad A, 2p + 1 for pad B of cell p) from an FCLK on: FCLK and level, one after the other. -/
  | wave (ball start : Nat) (segs : List (Nat × Bool))
  /-- A value that a read returned to the agent that made it. -/
  | value (v : Nat)
  /-- Bytes that a cell's serializer sends. -/
  | line (cell : Nat) (bytes : List Byte)
  deriving DecidableEq, Repr

/-- The package. DESIGN CHOICE, log entry 69. -/
structure State where
  /-- Commands that wait, first in, first out. -/
  pending : List Instr := []
  /-- FCLK periods since reset: the model's own clock for the times the spec gives in FCLK, µs or ms (R533). -/
  fclk : Nat := 0
  /-- Free values drawn so far (the model's own). -/
  free : Nat := 0
  /-- What has left the package (the model's own record). -/
  out : List Out := []
  /-- Every memory-mapped 64-bit register, by package address (R22, R58, R250 to R252). -/
  regs : List (Nat × BitVec 64) := []
  /-- Register bits (address, bit) that the hardware set in the current FCLK, and W1S bits that software wrote 1 in it: what R6 and R7
  decide by. -/
  hits : List (Nat × Nat) := []
  sets : List (Nat × Nat) := []
  /-- The bytes of every store and memory (R22). An unlisted byte reads 0 (R258, R241, R384, R491). -/
  mem : List Host.Cell := []
  /-- The 16-byte words whose capability tag is set, by address (R166). -/
  tags : List Nat := []
  /-- The 16-byte on-die words whose valid bit is set, by address (R225, R233). -/
  vbits : List Nat := []
  /-- Words whose stored bits deviate (R282). -/
  raw : List (Nat × RawWord) := []
  /-- Writes landed in the current FCLK (R230). -/
  marks : List WMark := []
  /-- The number of the write that a port makes (the model's own: it joins the words of one write, R235). -/
  writes : Nat := 0
  /-- Crowns whose collision mode changes with the next FCLK (R236). -/
  modeNext : List Nat := []
  /-- DRAM chunks that are touched (R240). -/
  touched : List Nat := []
  /-- Chunks that fill or wait for a fill, first one filling (R243), and the writes held for them. -/
  fills : List Nat := []
  heldWrites : List HeldWrite := []
  facets : List (Nat × Facet) := []
  /-- Interrupt sources, at controller x 1024 + source; controller 128 is the steward's (R205, R206). -/
  ints : List (Nat × IntSrc) := []
  intc : List (Nat × IntCtl) := []
  /-- Sources changed in the current clock of their controller, as they stood at its start: what requests and claims see (R212, R216). -/
  intWas : List (Nat × IntSrc) := []
  /-- Refused writes that the spec has reported to the steward without naming a register (R219, R287): address and writer. The
  model's own record. -/
  refusals : List (Nat × Agent) := []
  tb : TimeBase := {}
  /-- Writes to launch timers (timer; register offset, value) that the next FCLK puts into effect (R318). -/
  timWrites : List (Nat × (Nat × BitVec 64)) := []
  /-- Current epochs of the principals (R171, R474). -/
  epochs : List (Nat × BitVec 8) := []
  /-- What the active sealed configuration locks. -/
  locks : Locks := {}
  /-- Hatband pulses raised and not yet delivered (R319, R323). -/
  pulses : List Pulse := []
  /-- What the part's fuses say of itself (R1, R64). -/
  ident : Ident := {}
  ledger : Ledger := {}
  metro : Metro := {}
  /-- What the page code describes of a word, XOR what the word reads as (R261, R283): data, V and tag. -/
  sideDev : List (Nat × BitVec 130) := []
  integ : List (Nat × Integ) := []
  chans : List (Nat × Chan) := []
  /-- Mover engines: 0 to 15 of the crowns, 16 and 17 of the girdle. -/
  engines : List (Nat × Engine) := []
  cells : List (Nat × Cell) := []
  /-- Power feeds, at 4 x controller + feed. -/
  feeds : List (Nat × Feed) := []
  /-- Blocker threads, at 16 x blocker + thread. -/
  threads : List (Nat × Thread) := []
  blockers : List (Nat × Blocker) := []
  /-- Crowns whose wake a retention recorder has asked for (R222). -/
  wakes : List Nat := []
  macs : List (Nat × Mac) := []
  fabric : Fabric := {}
  disc : Disc := {}
  /-- MSI-X vectors (function x 64 + vector) whose mask is clear, and those with a message held back (R404). -/
  msixOpen : List Nat := []
  msixHeld : List Nat := []
  ses : Ses := {}
  gly : Gly := {}
  bez : Bez := {}
  pwr : Pwr := {}
  links : Links := {}
  deriving DecidableEq, Repr

/-- Why the machine stops. -/
inductive Fault where
  /-- Raised by REGISTER_WRITE and COUNTER_CLEAR_WRITE at an address that names no register (R23, R250 to R252 give the
  steward's access there no outcome). Safe: the run stops. -/
  | unassigned (addr : Nat)
  deriving DecidableEq, Repr

/-- Why a command has no effect in the model. -/
inductive Refusal where
  /-- Raised by `exec` for a command that has no meaning yet. Safe. -/
  | notModelled (mnemonic : String)
  /-- Raised by a meaning whose event cannot come about in this state (no such unit is waiting for it), so that the
  spec gives no effect. Safe: nothing can be proved of a run that contains it. -/
  | notEnabled
  deriving DecidableEq, Repr

/-- The package right after reset: every field at the reset value the spec gives, or at the value a log entry names. -/
def State.reset : State where

end Sys2Proof.Machine
end

