-- ==== Sys2Proof/Machine/Codes.lean ====
section
/-! DEFINITION. The word code (R253 to R258) and the arithmetic of the page code (R259 to R264). -/
namespace Sys2Proof.Machine

/-- The five check bits of a lane: c0 in bit 0 to c3 in bit 3, p in bit 4 (R253). -/
def laneChk (d : Nat) (x : Bool) : Nat :=
  let b (i : Nat) : Nat := d / 2 ^ i % 2
  let x := b2n x
  let c0 := (b 0 + b 1 + b 3 + b 4 + b 6 + x) % 2
  let c1 := (b 0 + b 2 + b 3 + b 5 + b 6) % 2
  let c2 := (b 1 + b 2 + b 3 + b 7 + x) % 2
  let c3 := (b 4 + b 5 + b 6 + b 7 + x) % 2
  let p := (b 0 + b 1 + b 2 + b 3 + b 4 + b 5 + b 6 + b 7 + x + c0 + c1 + c2 + c3) % 2
  c0 + 2 * c1 + 4 * c2 + 8 * c3 + 16 * p

/-- What the decoder makes of a lane: its byte and extra bit, whether they were corrected, whether the lane is
uncorrectable, and SYND (s with e in bit 4). -/
structure LaneRes where
  d : Nat
  x : Bool
  corr : Bool
  bad : Bool
  synd : Nat
  deriving DecidableEq, Repr

/-- The data bit that a syndrome names. -/
def synBit (s : Nat) : Option Nat :=
  match s with
  | 3 => some 0 | 5 => some 1 | 6 => some 2 | 7 => some 3 | 9 => some 4 | 10 => some 5 | 11 => some 6 | 12 => some 7
  | _ => none

/-- The number of one bits among the low eight. -/
def ones8 (v : Nat) : Nat := (List.range 8).foldl (fun n i => n + v / 2 ^ i % 2) 0

/-- The decoder of lane j (R254, R256). -/
def laneDecode (j : Nat) (d : Nat) (x : Bool) (chk : Nat) : LaneRes :=
  let s := Nat.xor (chk % 16) (laneChk d x % 16)
  let e := (ones8 d + b2n x + ones8 (chk % 32)) % 2
  let synd := s + 16 * e
  let badLane : LaneRes := ⟨d, x, false, true, synd⟩
  if e = 0 then (if s = 0 then ⟨d, x, false, false, 0⟩ else badLane)
  else if s = 0 ∨ s = 1 ∨ s = 2 ∨ s = 4 ∨ s = 8 then ⟨d, x, true, false, synd⟩
  else match synBit s with
    | some i => ⟨Nat.xor d (2 ^ i), x, true, false, synd⟩
    | none =>
      if s = 13 then
        if j = 0 then ⟨d, !x, true, false, synd⟩
        else if j = 15 then ⟨d, false, true, false, synd⟩
        else badLane
      else badLane

/-- The extra bit of lane j of a stored word, and a lane's byte and check bits. -/
def RawWord.x (r : RawWord) (j : Nat) : Bool := if j = 0 then r.v else if j = 15 then r.tag else false
def RawWord.lane (r : RawWord) (j : Nat) : LaneRes := laneDecode j (fld r.data (8 * j) 8) (r.x j) (fld r.chk (5 * j) 5)

/-- The lanes that a read decodes: lane 0 alone when the decoded V is 0 (R258). -/
def RawWord.lanes (r : RawWord) : List (Nat × LaneRes) :=
  let l0 := r.lane 0
  if !l0.bad && !l0.x then [(0, l0)] else (List.range 16).map fun j => (j, r.lane j)

/-- The first uncorrectable lane with its SYND. -/
def RawWord.bad (r : RawWord) : Option (Nat × Nat) := (r.lanes.find? fun p => p.2.bad).map fun p => (p.1, p.2.synd)
/-- The corrected lanes with their SYND. -/
def RawWord.corr (r : RawWord) : List (Nat × Nat) := (r.lanes.filter fun p => p.2.corr).map fun p => (p.1, p.2.synd)

/-- What a read of a word without an uncorrectable lane returns: data, V, tag. -/
def RawWord.value (r : RawWord) : BitVec 128 × Bool × Bool :=
  let ls := r.lanes
  if ls.length = 1 then (0, false, false)
  else (BitVec.ofNat 128 (ls.foldl (fun v p => v + p.2.d * 2 ^ (8 * p.1)) 0), true, (r.lane 15).x)

/-- The stored bits that the code gives for a word (R257, R258). -/
def encodeWord (data : BitVec 128) (v tag : Bool) : RawWord :=
  if v then
    { data := data, tag := tag, v := v, chk := BitVec.ofNat 80 ((List.range 16).foldl (fun c j =>
        c + laneChk (fld data (8 * j) 8) (if j = 0 then v else if j = 15 then tag else false) * 2 ^ (5 * j)) 0) }
  else ⟨0, false, false, 0⟩

/-- A stored word after an ordinary write of the masked bytes (R257): written lanes are encoded afresh, V becomes 1 and
lane 0 is encoded again, a changed tag toggles c0, c2 and c3 of an unwritten lane 15. `data` holds the new bytes in the
written lanes and the byte as decoded in lane 0. -/
def RawWord.afterWrite (r : RawWord) (m : BitVec 16) (data : BitVec 128) (tag : Bool) : RawWord :=
  let pick (j : Nat) : Bool := m.getLsbD j || j == 0
  let newData := BitVec.ofNat 128 ((List.range 16).foldl (fun v j =>
    v + (if pick j then fld data (8 * j) 8 else fld r.data (8 * j) 8) * 2 ^ (8 * j)) 0)
  let chkOf (j : Nat) : Nat :=
    if pick j then laneChk (fld data (8 * j) 8) (if j = 0 then true else if j = 15 then tag else false)
    else if j = 15 ∧ r.tag ≠ tag then Nat.xor (fld r.chk 75 5) 13
    else fld r.chk (5 * j) 5
  ⟨newData, tag, true, BitVec.ofNat 80 ((List.range 16).foldl (fun c j => c + chkOf j * 2 ^ (5 * j)) 0)⟩

/-! ### GF(2^8) with polynomial 0x11D (R260) -/

def gmul : Nat → Nat → Nat → Nat
  | 0, _, _ => 0
  | k + 1, a, b =>
    let a2 := if a < 128 then 2 * a else Nat.xor (2 * a) 0x11D
    if b % 2 = 1 then Nat.xor a (gmul k a2 (b / 2)) else gmul k a2 (b / 2)
def gtimes (a b : Nat) : Nat := gmul 8 a b
def gpow (a : Nat) : Nat → Nat
  | 0 => 1
  | k + 1 => gtimes a (gpow a k)
def alpha (i : Nat) : Nat := gpow 2 i
def gdiv (a b : Nat) : Nat := gtimes a (gpow b 254)

/-- Symbol of codeword j of a page word given as data in bits 127:0, V in bit 128, tag in bit 129 (R260). -/
def symbol (w : BitVec 130) (j : Nat) : Nat :=
  if j < 16 then fld w (8 * j) 8 else fld w 128 1 + 2 * fld w 129 1

/-- S0 and S1 of codeword j over (page position, word) pairs, the erased symbols being left out (R260, R263). -/
def syndromes (ws : List (Nat × BitVec 130)) (j : Nat) : Nat × Nat :=
  ws.foldl (fun a p =>
    let v := symbol p.2 j
    (Nat.xor a.1 v, Nat.xor a.2 (if v = 0 then 0 else gtimes v (alpha (p.1 + 2))))) (0, 0)

/-- The erased symbols of codeword j at page positions `es`, when the check holds (R263, R264). -/
def solve (s0 s1 : Nat) (es : List Nat) : Option (List Nat) :=
  match es with
  | [i] => if s1 = gtimes s0 (alpha (i + 2)) then some [s0] else none
  | [i, k] =>
    let v := gdiv (Nat.xor s1 (gtimes s0 (alpha (k + 2)))) (Nat.xor (alpha (i + 2)) (alpha (k + 2)))
    some [v, Nat.xor s0 v]
  | _ => none

/-- The rebuilt words at positions `es`, if the reconstruction succeeds. -/
def rebuild (ws : List (Nat × BitVec 130)) (es : List Nat) : Option (List (BitVec 130)) :=
  (List.range 17).foldl (fun acc j =>
    match acc, solve (syndromes ws j).1 (syndromes ws j).2 es with
    | some l, some vs => some ((l.zip vs).map fun p =>
        p.1 ||| BitVec.ofNat 130 (if j < 16 then p.2 * 2 ^ (8 * j) else p.2 % 4 * 2 ^ 128))
    | _, _ => none) (some (es.map fun _ => 0))

end Sys2Proof.Machine
end

