-- ==== Sys2Proof/Machine/Tbl.lean ====
section
/-! DEFINITION. Sparse tables: lists of (index, value) with strictly rising indices in which no entry equals what an
unlisted index reads as, so that equal tables are equal data. -/
namespace Sys2Proof.Machine

/-- What a table holds at an index; `d` at an index it does not list. -/
def tget {α : Type} (d : α) : List (Nat × α) → Nat → α
  | [], _ => d
  | (k, v) :: t, i => if k = i then v else tget d t i

/-- The table without an entry at `i`. -/
def tdel {α : Type} (t : List (Nat × α)) (i : Nat) : List (Nat × α) := t.filter fun p => decide (p.1 ≠ i)

/-- The table with the entry (i, v), in its place. -/
def tput {α : Type} : List (Nat × α) → Nat → α → List (Nat × α)
  | [], i, v => [(i, v)]
  | (k, w) :: t, i, v => if i < k then (i, v) :: (k, w) :: t else if k = i then (i, v) :: t else (k, w) :: tput t i v

/-- The table after a write of `v` at `i`: the entry goes where `v` is the default. -/
def tset {α : Type} [DecidableEq α] (d : α) (t : List (Nat × α)) (i : Nat) (v : α) : List (Nat × α) :=
  if v = d then tdel t i else tput t i v

/-- The table without its entries from `lo` up to but not including `hi`. -/
def tclear {α : Type} (t : List (Nat × α)) (lo hi : Nat) : List (Nat × α) :=
  t.filter fun p => decide (p.1 < lo) || decide (hi ≤ p.1)

/-- The canonical form: indices strictly rising, no entry equal to the default. -/
def twf {α : Type} [DecidableEq α] (d : α) : List (Nat × α) → Bool
  | [] => true
  | [(_, v)] => decide (v ≠ d)
  | (k, v) :: (k', v') :: t => decide (v ≠ d) && decide (k < k') && twf d ((k', v') :: t)

/-- Insert into a strictly rising list of numbers. -/
def sadd : List Nat → Nat → List Nat
  | [], i => [i]
  | k :: t, i => if i < k then i :: k :: t else if k = i then k :: t else k :: sadd t i

/-- Remove from a list of numbers. -/
def sdel (l : List Nat) (i : Nat) : List Nat := l.filter (· ≠ i)

/-- Put or remove, by a Bool. -/
def sput (l : List Nat) (i : Nat) (b : Bool) : List Nat := if b then sadd l i else sdel l i

/-- The first `n` indices at which `p` holds, searched in the order of the list. -/
def firstIdx (p : Nat → Bool) (l : List Nat) : Option Nat := l.find? p

end Sys2Proof.Machine
end

