-- ==== Sys2Proof/Machine/Ops.lean ====
section
/-! DEFINITION. The named operations over the state: registers, memory with tags, valid bits and collisions, time,
interrupt sources, facets. -/
namespace Sys2Proof.Machine

abbrev Res := Host.Outcome State Fault Refusal

/-- A command whose event can come about only where `c` holds. DESIGN CHOICE, log entry 7. -/
def gate (c : Bool) (s : State) : Res := if c then .next s else .refused .notEnabled

/-- Draw a fresh free value. DESIGN CHOICE, log entry 3. -/
def drawFree (s : State) : BitVec 64 × State := (Config.freeValue s.free, { s with free := s.free + 1 })

/-- DESIGN CHOICE, log entry 66. -/
def emit (o : Out) (s : State) : State := { s with out := s.out ++ [o] }

/-! Whole parts of the state -/

def setMem (x : List Host.Cell) (s : State) : State := { s with mem := x }
def setTags (x : List Nat) (s : State) : State := { s with tags := x }
def setVbits (x : List Nat) (s : State) : State := { s with vbits := x }
def setRawWords (x : List (Nat × RawWord)) (s : State) : State := { s with raw := x }
def setModeNext (x : List Nat) (s : State) : State := { s with modeNext := x }
def nextWrite (s : State) : State := { s with writes := s.writes + 1 }
def setMarks (x : List WMark) (s : State) : State := { s with marks := x }
def setTouched (x : List Nat) (s : State) : State := { s with touched := x }
def setFills (x : List Nat) (s : State) : State := { s with fills := x }
def setHeldWrites (x : List HeldWrite) (s : State) : State := { s with heldWrites := x }
def setFacets (x : List (Nat × Facet)) (s : State) : State := { s with facets := x }
def setInts (x : List (Nat × IntSrc)) (s : State) : State := { s with ints := x }
def setIntc (x : List (Nat × IntCtl)) (s : State) : State := { s with intc := x }
def setTimWrites (x : List (Nat × (Nat × BitVec 64))) (s : State) : State := { s with timWrites := x }
def setTb (x : TimeBase) (s : State) : State := { s with tb := x }
def setLocks (x : Locks) (s : State) : State := { s with locks := x }
def setPulses (x : List Pulse) (s : State) : State := { s with pulses := x }
def setLedger (x : Ledger) (s : State) : State := { s with ledger := x }
def setSideDev (x : List (Nat × BitVec 130)) (s : State) : State := { s with sideDev := x }
def setIntegs (x : List (Nat × Integ)) (s : State) : State := { s with integ := x }
def setChans (x : List (Nat × Chan)) (s : State) : State := { s with chans := x }
def setEngines (x : List (Nat × Engine)) (s : State) : State := { s with engines := x }
def setWakes (x : List Nat) (s : State) : State := { s with wakes := x }
def setThreads (x : List (Nat × Thread)) (s : State) : State := { s with threads := x }
def setCells (x : List (Nat × Cell)) (s : State) : State := { s with cells := x }
def setBlockers (x : List (Nat × Blocker)) (s : State) : State := { s with blockers := x }
def setFeeds (x : List (Nat × Feed)) (s : State) : State := { s with feeds := x }
def setEpochs (x : List (Nat × BitVec 8)) (s : State) : State := { s with epochs := x }
def setOut (x : List Out) (s : State) : State := { s with out := x }
def setHits (x : List (Nat × Nat)) (s : State) : State := { s with hits := x }
def setSets (x : List (Nat × Nat)) (s : State) : State := { s with sets := x }
def setRegs (x : List (Nat × BitVec 64)) (s : State) : State := { s with regs := x }
def setPending (x : List Instr) (s : State) : State := { s with pending := x }
def setMacs (x : List (Nat × Mac)) (s : State) : State := { s with macs := x }
def setFabric (x : Fabric) (s : State) : State := { s with fabric := x }
def setMsixOpen (x : List Nat) (s : State) : State := { s with msixOpen := x }
def setMsixHeld (x : List Nat) (s : State) : State := { s with msixHeld := x }
def setSes (x : Ses) (s : State) : State := { s with ses := x }
def setGly (x : Gly) (s : State) : State := { s with gly := x }
def setPwr (x : Pwr) (s : State) : State := { s with pwr := x }
def setMetro (m : Metro) (s : State) : State := { s with metro := m }
def setBez (b : Bez) (s : State) : State := { s with bez := b }
def setLinks (l : Links) (s : State) : State := { s with links := l }
def setDisc (x : Disc) (s : State) : State := { s with disc := x }

/-! ### Registers -/

/-- Reset value of the 64-bit register at a package address (0 where the chapters give 0). DESIGN CHOICE, log entry 64. -/
def regReset (a : Nat) : BitVec 64 :=
  match region a with
  | .girdle o =>
    if o < 0x10000 then
      if 0x1000 ≤ o ∧ o < 0x1130 then 0x11
      else if o = 0x0100 then 1
      else if o = 0x0108 then 250
      else 0
    else if o = 0x40000 then 0x0010000000000000
    else if 0x08000000 ≤ o ∧ o < 0x08100000 then
      if o % 0x10000 = 0x2800 then 0x001003E800000000
      else if o % 0x10000 = 0x2818 then 0x2092492488888888
      else 0
    else 0
  | .brim o => if o < 0x100000 ∧ o % 0x400 = 0x020 then 0x01000000 else if 0x100000 ≤ o ∧ o < 0x500000 ∧ (o - 0x100000) % 0x10000 = 0x20 then 0xFEDCBA9876543210 else 0
  | _ => 0

def rget (s : State) (a : Nat) : BitVec 64 := tget (regReset a) s.regs a
def rset (a : Nat) (v : BitVec 64) (s : State) : State := { s with regs := tset (regReset a) s.regs a v }
def rfld (s : State) (a lo w : Nat) : Nat := fld (rget s a) lo w
def rput (a lo w v : Nat) (s : State) : State := rset a (setFld (rget s a) lo w v) s
def rbit (s : State) (a i : Nat) : Bool := bit (rget s a) i
/-- The hardware sets bit `i` of register `a` in this FCLK (R6). -/
def noteHit (a i : Nat) (b : Bool) (s : State) : State := setHits (if b then (a, i) :: s.hits else s.hits) s
/-- The hardware changes one bit. -/
def rbitSet (a i : Nat) (b : Bool) (s : State) : State := noteHit a i b (rset a (setBit (rget s a) i b) s)
/-- Of the bits written, those that the hardware has not set in this FCLK: only they clear a W1C bit (R6). -/
def w1c (s : State) (a : Nat) (v : BitVec 64) : BitVec 64 := s.hits.foldl (fun v h => if h.1 = a then setBit v h.2 false else v) v
/-- Software writes `v` to the W1C bits of `mask` (R5, R6). -/
def rw1c (a : Nat) (mask v : BitVec 64) (s : State) : State := rset a (rget s a &&& ~~~(w1c s a (v &&& mask))) s
/-- Software writes 1 to the W1S bit `i` (R5); one that is still set keeps the write in mind for the FCLK (R7). -/
def w1sWrite (a i : Nat) (s : State) : State :=
  setSets (if rbit s a i then (a, i) :: s.sets else s.sets) (rset a (setBit (rget s a) i true) s)
/-- The hardware clears a W1S bit; one that software wrote again in the same FCLK ends set, so that what it asks for starts anew (R7). -/
def w1sClear (a i : Nat) (s : State) : State := if s.sets.contains (a, i) then s else rbitSet a i false s
/-- Add to a field that saturates at all ones. -/
def rsat (a lo w v : Nat) (s : State) : State := rput a lo w (min (2 ^ w - 1) (rfld s a lo w + v)) s
/-- Every register from `lo` up to but not including `hi` back to its reset value. -/
def rclear (lo hi : Nat) (s : State) : State := { s with regs := tclear s.regs lo hi }

/-! ### Facets -/

def facet (s : State) (n : Nat) : Facet := tget {} s.facets n
def setFacet (n : Nat) (f : Facet) (s : State) : State := { s with facets := tset {} s.facets n f }
def updFacet (n : Nat) (h : Facet → Facet) (s : State) : State := setFacet n (h (facet s n)) s

/-! ### Interrupt sources (R204 to R216) -/

/-- The steward's controller. -/
def stewardCtl : Nat := 128

/-- The sources that are level sources (R205, R206). -/
def isLevelSrc (ctl src : Nat) : Bool := if ctl = stewardCtl then decide (128 ≤ src ∧ src ≤ 255) else src == 48

/-- Whether a number names a source of a controller (R205, R206). -/
def isSource (ctl src : Nat) : Bool := if ctl = stewardCtl then decide (src < 1023) else decide (src < 64)

def srcKey (ctl src : Nat) : Nat := ctl * 1024 + src
def intSrc (s : State) (ctl src : Nat) : IntSrc := tget {} s.ints (srcKey ctl src)
/-- A source changes; how it stood at the start of the clock is kept (R216). -/
def setIntSrc (ctl src : Nat) (x : IntSrc) (s : State) : State :=
  { s with ints := tset {} s.ints (srcKey ctl src) x,
           intWas := if s.intWas.any (fun p => p.1 == srcKey ctl src) then s.intWas else (srcKey ctl src, intSrc s ctl src) :: s.intWas }
/-- A source as it stood at the start of the current clock. -/
def srcWas (s : State) (key : Nat) : IntSrc :=
  match s.intWas.find? fun p => p.1 == key with
  | some p => p.2
  | none => tget {} s.ints key
def intCtl (s : State) (ctl : Nat) : IntCtl := tget {} s.intc ctl
def setIntCtl (ctl : Nat) (x : IntCtl) (s : State) : State := { s with intc := tset {} s.intc ctl x }

/-- A clock of a controller: FCLK for a facet's, GCLK (600 MHz, every second FCLK) for the steward's (R204). -/
def intClock (s : State) (ctl : Nat) : Nat := if ctl = stewardCtl then s.fclk / 2 else s.fclk

/-- The filter length Lf of a source (R208). -/
def fltLen (x : IntSrc) : Nat := let f := fld x.cfg 8 4; if f = 0 then 0 else 2 ^ (f - 1)

def fdrop (ctl : Nat) (s : State) : State :=
  let c := intCtl s ctl
  setIntCtl ctl { c with fdrop := min 0xFFFFFFFF (c.fdrop + 1) } s

/-- FS and ARF of facet n in its register block (R58). -/
def fsReg (n : Nat) : Nat := facetRegBase n + 0x1000
def arfReg (n : Nat) : Nat := facetRegBase n + 0x1100

/-- The address of a controller's INT_STAT: the steward's, or a facet's in its crown interrupt window (R217, R220). -/
def intStatReg (ctl : Nat) : Nat := if ctl = stewardCtl then intReg 0x28 else crownReg (crownOf ctl) (0x1050 + 0x80 * (ctl % 8))
/-- A W1C bit of INT_STAT rises. -/
def intStatSet (ctl i : Nat) (s : State) : State :=
  let c := intCtl s ctl
  noteHit (intStatReg ctl) i true (setIntCtl ctl { c with stat := setBit c.stat i true } s)
/-- Software clears bits of INT_STAT (R5, R6). -/
def intStatClear (ctl : Nat) (v : BitVec 64) (s : State) : State :=
  let c := intCtl s ctl
  setIntCtl ctl { c with stat := c.stat &&& ~~~(w1c s (intStatReg ctl) (v &&& 0xC)) } s

/-- `m` accepted events of a pulse source in one clock (R209, R223): EVCNT, the threshold check, the batch timer. -/
def acceptEvents (ctl src m : Nat) (s : State) : State :=
  let x := intSrc s ctl src
  let now := intClock s ctl
  let s := if 1023 < x.evcnt + m then intStatSet ctl 3 s else s
  let ev := min 1023 (x.evcnt + m)
  let ccnt := fld x.cfg 16 8
  let ctime := fld x.cfg 24 8
  let x := { x with evcnt := ev, lastAcc := some now }
  let x := if ccnt = 0 then { x with pending := true }
    else
      let x := if !x.pending && x.deadline.isNone && ctime != 0 then { x with deadline := some (now + ctime * 64) } else x
      if ccnt ≤ ev then { x with pending := true, deadline := none } else x
  setIntSrc ctl src x s

/-- An event of a pulse source: accepted or discarded by the glitch filter (R208); pulses of one clock form one event
(R207). -/
def pulseEvent (ctl src : Nat) (s : State) : State :=
  let x := intSrc s ctl src
  let now := intClock s ctl
  let blocked := match x.lastAcc with
    | some a => decide (now < a + fltLen x)
    | none => false
  if x.lastAcc = some now ∨ x.lastDrop = some now then s
  else if blocked then fdrop ctl (setIntSrc ctl src { x with lastDrop := some now } s)
  else acceptEvents ctl src 1 s

/-- The filtered level of a level source becomes `v` (R208, R211, R213). -/
def setFiltered (ctl src : Nat) (v : Bool) (s : State) : State :=
  let x := intSrc s ctl src
  let x := { x with flevel := v }
  let x := if v then (if x.active then x else { x with pending := true, evcnt := 1 })
    else { x with pending := false, evcnt := 0 }
  setIntSrc ctl src x s

/-- The raw level has held through Lf clocks before this one: the filtered level has followed it (R208). -/
def levelSettled (s : State) (ctl src : Nat) : Bool :=
  let x := intSrc s ctl src
  x.raw != x.flevel && decide (x.rawAt + fltLen x ≤ intClock s ctl)
/-- The raw level of a level source becomes `v` (R208). -/
def setRaw (ctl src : Nat) (v : Bool) (s : State) : State :=
  if (intSrc s ctl src).raw = v then s else
  let s := if levelSettled s ctl src then setFiltered ctl src (intSrc s ctl src).raw s else s
  let x := intSrc s ctl src
  let s := if x.raw && !v && !x.flevel then fdrop ctl s else s
  let s := setIntSrc ctl src { x with raw := v, rawAt := intClock s ctl } s
  if fltLen x ≤ 1 then setFiltered ctl src v s else s

/-- Whether a source requests (R211, R215). -/
def requesting (x : IntSrc) : Bool := x.pending && !x.active && bit x.cfg 0
/-- The sources of a class that requested at the start of the clock: what the facet's boundaries, the steward core and a claim see
(R216). -/
def requests (s : State) (ctl : Nat) (fast : Bool) : List (Nat × IntSrc) :=
  s.ints.filter fun p => decide (p.1 / 1024 = ctl) && requesting (srcWas s p.1) && bit (srcWas s p.1).cfg 1 == fast
def request (s : State) (ctl : Nat) (fast : Bool) : Bool := !(requests s ctl fast).isEmpty

/-- Raise a steward source (R206). -/
def raiseSteward (src : Nat) (s : State) : State := pulseEvent stewardCtl src s

/-- A refusal that is reported to the steward, in no register that the spec names (R219, R287). DESIGN CHOICE, log entry 70. -/
def tellSteward (a : Nat) (by_ : Agent) (s : State) : State := { s with refusals := s.refusals ++ [(a, by_)] }

/-- Raise steward source 318 with the bit of the block that raises it (R221): 0 bezel, 1 integrity, 2 sessions, 3
hatband. -/
def raiseGirdle (blk : Nat) (s : State) : State := raiseSteward 318 (rbitSet (intReg 0x38) blk true s)

/-! ### Time (R303 to R307) -/

/-- The sum of tick and fraction in units of 2^-32 tick. -/
def TimeBase.total (t : TimeBase) : Nat := t.tick * 2 ^ 32 + t.frac

/-- FCLK periods, at least 1, until the tick count first reaches `x` at the rate in force. -/
def fclkTo (t : TimeBase) (x : Nat) : Nat :=
  let r := (2 ^ 32 + t.rate).toNat
  if x * 2 ^ 32 ≤ t.total then 1 else max 1 ((x * 2 ^ 32 - t.total + r - 1) / r)

/-- The counter after `k` FCLK at the rate in force, without step or rate point. -/
def runTb (k : Nat) (t : TimeBase) : TimeBase :=
  let n := t.total + k * (2 ^ 32 + t.rate).toNat
  { t with tick := n / 2 ^ 32 % 2 ^ 64, frac := n % 2 ^ 32 }

/-- FCLK until the next step or rate point, if one is armed. -/
def nextTbEvent (t : TimeBase) : Option Nat :=
  match t.step, t.pend with
  | some (_, a), some (_, m) => some (min (fclkTo t a) (fclkTo t m))
  | some (_, a), none => some (fclkTo t a)
  | none, some (_, m) => some (fclkTo t m)
  | none, none => none

/-- The comparisons of one FCLK on its pre (R305, R306): the armed step first, then the rate point. -/
def tbCompare (t : TimeBase) : TimeBase :=
  let t := match t.step with
    | some (d, a) => if a ≤ t.tick then { t with tick := wrapN 64 (t.tick + d), step := none } else t
    | none => t
  match t.pend with
  | some (r, m) => if m ≤ t.tick then { t with rate := r, pend := none } else t
  | none => t

/-- The time base `k` FCLK later (R305 in each FCLK). Between steps and rate points the count runs at one rate. DEDUCED, log entry 68. -/
def advTb : Nat → Nat → TimeBase → TimeBase
  | 0, k, t => runTb k t
  | fuel + 1, k, t =>
    match nextTbEvent t with
    | some j => if j ≤ k then advTb fuel (k - j) (tbCompare (runTb j t)) else runTb k t
    | none => runTb k t

/-- FCLK until the tick count is at least `x` (0 if it already is). -/
def fclkUntil : Nat → Nat → TimeBase → Nat
  | 0, x, t => if x ≤ t.tick then 0 else fclkTo t x
  | fuel + 1, x, t =>
    if x ≤ t.tick then 0 else
    match nextTbEvent t with
    | some j => if fclkTo t x < j then fclkTo t x else j + fclkUntil fuel x (tbCompare (runTb j t))
    | none => fclkTo t x

/-! ### Memory -/

/-- Byte at an address; a byte that nothing has written reads 0 (R258, R241, R384, R491). -/
def mget (m : List Host.Cell) (a : Nat) : Byte := tget 0 m a
def mput (m : List Host.Cell) (a : Nat) (b : Byte) : List Host.Cell := tset 0 m a b
def mputs (m : List Host.Cell) (a : Nat) : List Byte → List Host.Cell
  | [] => m
  | b :: t => mputs (mput m a b) (a + 1) t

/-- The canonical form of a memory: addresses strictly rising, no entry 0. DESIGN CHOICE, log entry 21. -/
def Memory.wf (m : List Host.Cell) : Bool := twf (0 : Byte) m

/-- DESIGN CHOICE, log entry 21. -/
def byteAt (s : State) (a : Nat) : Byte := mget s.mem a
def bytesAt (s : State) (a len : Nat) : List Byte := (List.range len).map fun i => byteAt s (a + i)
def natAt (s : State) (a len : Nat) : Nat := bytesNat (bytesAt s a len)

/-- The memory with the bytes of [from, from + len) copied to another place. -/
def copyBytes (fr dst len : Nat) (m : List Host.Cell) : List Host.Cell :=
  (m.filter fun c => decide (fr ≤ c.1) && decide (c.1 < fr + len)).foldl (fun m c => mput m (c.1 - fr + dst) c.2) (tclear m dst (dst + len))

/-- Put bytes into memory with no other effect. -/
def poke (a : Nat) (bs : List Byte) (s : State) : State := setMem (mputs s.mem a bs) s
/-- Words that a run of bytes touches. -/
def wordsIn (a len : Nat) : List Nat := (List.range ((a + len + 15) / 16 - a / 16)).map fun i => a / 16 * 16 + 16 * i

def wordOf (a : Nat) : Nat := a / 16 * 16
def tagAt (s : State) (a : Nat) : Bool := s.tags.contains (wordOf a)
def setTag (a : Nat) (t : Bool) (s : State) : State := { s with tags := sput s.tags (wordOf a) t }

/-- Whether an address lies in a facet store, code store or crown store. -/
def isOnDie (a : Nat) : Bool := (crownAt a).isSome

/-- CH256 compatibility mode of the crown that holds an address (R236); a change governs from the next FCLK. -/
def compatAt (s : State) (a : Nat) : Bool :=
  match crownAt a with
  | some c => rbit s (crownReg c 0) 0 != s.modeNext.contains c
  | none => false

/-- CRN_COLL.HOSTLOST of the crown that holds an address advances (R235, R236). -/
def hostLost (a : Nat) (s : State) : State :=
  match crownAt a with
  | some c => rsat (crownReg c 8) 16 16 1 s
  | none => s

/-- Tell a writer that it lost bytes in a collision (R235). -/
def reportLoss (a : Nat) (who : Agent) (s : State) : State :=
  match who with
  | .facet n => noteHit (fsReg n) 9 true (updFacet n (fun f => { f with fs := setBit f.fs 9 true }) s)
  | .mover k => rbitSet (chanReg k 0x100) 16 true s
  | .host => hostLost a s
  | .fabric => hostLost a s
  | .steward => s
  | .blocker _ => s
  | .loader => s

/-- A write has lost bytes: it is told once, however many of its words or winners there are (R235). -/
def tellLoss (a : Nat) (who : Agent) (id : Nat) (s : State) : State :=
  if s.marks.any fun k => k.id == id && k.who == who && k.told then s
  else reportLoss a who (setMarks (s.marks.map fun k => if k.id = id ∧ k.who = who then { k with told := true } else k) s)

/-- The writes landed on a word in this FCLK (R230). -/
def marksOn (s : State) (w : Nat) : List WMark := s.marks.filter fun k => k.word == w && k.mask != 0
/-- A second access of the shared port to a word that it has written is granted in a later FCLK (R229). -/
def laterFclk (rank w : Nat) (s : State) : State :=
  if rank = 2 ∧ (marksOn s w).any (fun k => k.rank == 2) then setMarks (s.marks.filter fun k => k.word != w || k.mask == 0) s else s

/-- The byte mask of `len` bytes from offset `o` of a word. -/
def wordMask (o len : Nat) : BitVec 16 := BitVec.ofNat 16 ((2 ^ len - 1) * 2 ^ o)

/-- Replace the bytes of a word that a mask selects. -/
def maskBytes (m : BitVec 16) (new old : List Byte) : List Byte :=
  (List.range 16).map fun i => if m.getLsbD i then new.getD i 0 else old.getD i 0

/-- The reservations on a word that a write by `who` ends (R124, R248). -/
def dropResv (w : Nat) (who : Agent) (s : State) : State :=
  (s.facets.filter fun p => (p.2.resv.any fun r => r.1 == w) && decide (Agent.facet (Fin.ofNat 128 p.1) ≠ who)).foldl
    (fun s p => setFacet p.1 { p.2 with resv := none } s) s

/-- First register of the error log of a word's integrity engine, and its number of entries (R269, R284). -/
def logBase (a : Nat) : Nat × Nat :=
  match crownAt a with
  | some c => (crownReg c 0x2000, 64)
  | none => (itgReg 0x1000, 128)

/-- The log entries in use of a word: their registers. -/
def loggedAt (w : Nat) (s : State) : List Nat :=
  let b := logBase w
  (s.regs.filter fun p => decide (b.1 ≤ p.1) && decide (p.1 < b.1 + 32 * b.2) && decide ((p.1 - b.1) % 32 = 0)
      && bit p.2 63 && decide (fld p.2 56 3 < 3 ∨ fld p.2 56 3 = 4) && decide (fld p.2 4 44 = w / 16)).map (·.1)
/-- A write on a logged word sets REWR in its entries (R270). -/
def markRewritten (w : Nat) (s : State) : State := (loggedAt w s).foldl (fun s a => rbitSet a 59 true s) s

/-- A write to a girdle memory: the bytes, and REWR in the log entries of the words (R270, R284). -/
def girdlePut (a : Nat) (bs : List Byte) (s : State) : State :=
  (wordsIn a bs.length).foldl (fun s w => markRewritten w s) (poke a bs s)

/-- The stored bits of a deviating word after a write (R257): gone where they agree with the codes again. DEDUCED, log entry 19. -/
def rawWrite (w : Nat) (m : BitVec 16) (tag : Bool) (s : State) : State :=
  match s.raw.find? fun p => p.1 == w with
  | none => s
  | some (_, r) =>
    let data := BitVec.ofNat 128 (natAt s w 16)
    let r' := if r.value.2.1 || r.bad.isSome then r.afterWrite m data tag else encodeWord data true tag
    setRawWords (if r'.bad.isNone && r'.corr.isEmpty then tdel s.raw w else tput s.raw w r') s

/-- A scrub write-back that meets another port's write in its FCLK is dropped whole: the stored bits are as before it, and the drop is
counted (R234, R235, R273). -/
def dropBack (w : Nat) (s : State) : State :=
  match (marksOn s w).findSome? fun k => k.back, crownAt w with
  | some r, some c =>
    let a := crownReg c 0x2830
    let s := setRawWords (tput s.raw w r) (setMarks (s.marks.filter fun k => k.word != w || k.back.isNone) s)
    rsat (crownReg c 8) 0 16 1 (rsat a 32 16 1 (rput a 48 16 (rfld s a 48 16 - 1) s))
  | _, _ => s

/-- A write of up to 16 bytes inside one word of an on-die store, by a port of the given rank (1 operand path, 2 shared
port; R231): collisions with the writes that other ports landed in this FCLK (R230 to R235), the valid bit (R233), the tag (R166,
R233), and the loss of reservations on the word (R124, R248). DEDUCED, log entry 19. -/
def writeWord (who : Agent) (rank : Nat) (a : Nat) (bs : List Byte) (tag : Bool) (s : State) : State :=
  let w := wordOf a
  let s := laterFclk rank w (dropBack w s)
  let m := wordMask (a - w) bs.length
  let before := bytesAt s w 16
  let new := List.replicate (a - w) 0 ++ bs
  let here := marksOn s w
  let higher := here.filter fun k => decide (k.rank < rank)
  let lower := here.filter fun k => decide (rank < k.rank)
  let taken := higher.foldl (fun acc k => acc ||| k.mask) 0
  let compat := compatAt s w
  let eff := if compat then (if higher.isEmpty then m else 0) else m &&& ~~~taken
  let s := if eff ≠ m then tellLoss w who s.writes s else s
  let s := lower.foldl (fun s k => if compat || (k.mask &&& eff) ≠ 0 then tellLoss w k.who k.id s else s) s
  let told := eff != m || s.marks.any fun k => k.id == s.writes && k.who == who && k.told
  let mark : WMark := { word := w, rank := rank, mask := eff, old := before, oldTag := tagAt s w, who := who, id := s.writes, told := told }
  if eff = 0 then setMarks (s.marks ++ [mark]) s else
  let base := if compat then lower.foldl (fun b k => maskBytes (k.mask &&& ~~~taken) k.old b) before else before
  let s := poke w (maskBytes eff new base) s
  let s := rawWrite w eff (tag && eff == 0xFFFF) s
  let s := setVbits (sadd s.vbits w) (setMarks (s.marks ++ [mark]) s)
  let s := markRewritten w (setTag w (tag && eff == 0xFFFF) s)
  dropResv w who s

/-- Split a run of bytes at 16-byte word boundaries: at most `fuel` pieces. -/
def pieces : Nat → Nat → List Byte → List (Nat × List Byte)
  | 0, _, _ => []
  | fuel + 1, a, bs =>
    if bs.isEmpty then [] else
    let n := 16 - a % 16
    (a, bs.take n) :: pieces fuel (a + n) (bs.drop n)

/-! ### DRAM (R238 to R243) -/

def chunkOf (a : Nat) : Nat := a / 0x200000
def chunkTouched (s : State) (a : Nat) : Bool := s.touched.contains (chunkOf a)
/-- A chunk that fills or waits for its fill. -/
def chunkBusy (s : State) (a : Nat) : Bool := s.fills.contains (chunkOf a)
/-- The first unbacked DRAM address (R238, R581). -/
def ddrTop (s : State) : Nat := rfld s (ddrReg 0) 0 48

/-- Land a write in DRAM: the bytes, and the tags of its words cleared (R239). -/
def landDram (a : Nat) (bs : List Byte) (s : State) : State :=
  let s := poke a bs s
  setTags (s.tags.filter fun w => !(decide (a < w + 16) && decide (w < a + bs.length))) s

/-- Bytes of a channel acknowledged. -/
def ackBytes (k n : Nat) (s : State) : State := rput (chanReg k 0x108) 0 40 (rfld s (chanReg k 0x108) 0 40 + n) s

/-- A held write lands; its response returns. -/
def landHeld (s : State) (w : HeldWrite) : State :=
  let s := landDram w.addr w.bytes s
  match w.who with
  | .mover k => ackBytes k w.bytes.length s
  | _ => s

/-- The chunk that fills first is done: touched, and the writes held for it land in arrival order. DESIGN CHOICE, log entry 20. -/
def fillDone (s : State) : State :=
  match s.fills with
  | [] => s
  | c :: t =>
    let here := s.heldWrites.filter fun w => chunkOf w.addr == c
    let rest := s.heldWrites.filter fun w => chunkOf w.addr != c
    here.foldl landHeld (setFills t (setTouched (sadd s.touched c) (setHeldWrites rest s)))

/-- An access to a chunk that fills or waits is served once its fill has ended (R243). DESIGN CHOICE, log entry 20. -/
def finishFills (a : Nat) : Nat → State → State
  | 0, s => s
  | fuel + 1, s => if chunkBusy s a then finishFills a fuel (fillDone s) else s
def settleChunk (a : Nat) (s : State) : State := finishFills a s.fills.length s

/-- A write that reaches the DDR5 controller: landed in a touched chunk, held and a fill started or queued otherwise; where a fill runs and 8
chunks wait, its requester is held until a place frees (R242, R243). DESIGN CHOICE, log entry 20. -/
def writeDram (who : Agent) (a : Nat) (bs : List Byte) (s : State) : State :=
  if chunkBusy s a then setHeldWrites (s.heldWrites ++ [⟨a, bs, who⟩]) s
  else if chunkTouched s a then landDram a bs s
  else
    let s := if 9 ≤ s.fills.length then fillDone s else s
    setFills (s.fills ++ [chunkOf a]) (setHeldWrites (s.heldWrites ++ [⟨a, bs, who⟩]) s)

/-- A write by any agent through the shared port, the DDR5 controller or to a girdle or brim memory. -/
def writeMem (who : Agent) (a : Nat) (bs : List Byte) (s : State) : State :=
  match region a with
  | .dram => writeDram who a bs s
  | .fstore _ | .code _ | .crown _ =>
    (pieces (bs.length + 1) a bs).foldl (fun s p => writeWord who 2 p.1 p.2 false s) s
  | _ => girdlePut a bs s

/-- What a port reads in this FCLK: in CH256 compatibility mode the word as it stood before another port's write, with the bytes that the
port itself has landed (R232). DEDUCED, log entry 19. -/
def readByte (s : State) (rank a : Nat) : Byte :=
  let w := wordOf a
  let here := marksOn s w
  let own := here.filter fun k => k.rank == rank
  if compatAt s a && here.any (fun k => k.rank != rank) && !(rank == 2 && !own.isEmpty) && !(own.any fun k => k.mask.getLsbD (a - w)) then
    match here with
    | k :: _ => k.old.getD (a - w) 0
    | [] => byteAt s a
  else byteAt s a
def readBytes (s : State) (rank a len : Nat) : List Byte := (List.range len).map fun i => readByte s rank (a + i)
/-- The tag that the operand path reads with a word (R232). -/
def readTag (s : State) (a : Nat) : Bool :=
  let here := marksOn s (wordOf a)
  if compatAt s a && !here.any (fun k => k.rank == 1) then
    match here with
    | k :: _ => k.oldTag
    | [] => tagAt s a
  else tagAt s a

/-! ### Power of a crown (R249, R535) -/

/-- The state byte of power domain `d` (R537, PWR_DCTL.STATE): 1 on or P0, 2 P1, 3 P2, 4 off, 5 changing. -/
def domState (s : State) (d : Nat) : Nat := rfld s (girdle (0x1000 + 8 * d)) 0 3
/-- Crown c runs at P0. -/
def crownUp (s : State) (c : Nat) : Bool := domState s c == 1

/-! ### Capabilities (R165 to R171) -/

def capBase (c : BitVec 128) : Nat := fld c 0 48
def capLen (c : BitVec 128) : Nat := fld c 48 32
def capPerm (c : BitVec 128) : Nat := fld c 80 16
def capOtype (c : BitVec 128) : Nat := fld c 96 16
def capPrin (c : BitVec 128) : Nat := fld c 112 8
def capEpoch (c : BitVec 128) : Nat := fld c 120 8
def capHas (c : BitVec 128) (p : Nat) : Bool := bit c (80 + p)
def permR : Nat := 0
def permW : Nat := 1
def permX : Nat := 2
def permLC : Nat := 3
def permSC : Nat := 4
def permSEAL : Nat := 5
def permUNSEAL : Nat := 6
def permTIME : Nat := 7
def permPORT : Nat := 8
def permMETR : Nat := 9
def permMBX : Nat := 10
def permDBG : Nat := 11
def mkCap (epoch prin otype perm len base : Nat) : BitVec 128 :=
  BitVec.ofNat 128 (epoch % 256 * 2 ^ 120 + prin % 256 * 2 ^ 112 + otype % 65536 * 2 ^ 96 + perm % 65536 * 2 ^ 80
    + len % 2 ^ 32 * 2 ^ 48 + base % 2 ^ 48)

/-- The reset epoch of a principal (R450, R474). -/
def epochReset (p : Nat) : BitVec 8 := if (1 ≤ p ∧ p ≤ 4) ∨ (16 ≤ p ∧ p ≤ 31) then 1 else 0
/-- The current epoch of a principal (R171). -/
def epochOf (s : State) (p : Nat) : Nat := (tget (epochReset p) s.epochs p).toNat
/-- Tagged, with a current epoch (R171). -/
def capLive (s : State) (k : KReg) : Bool := k.tag && capEpoch k.cap == epochOf s (capPrin k.cap)
/-- The bytes [a, a + len) lie within the capability (R165, R82 step 7). -/
def capCovers (c : BitVec 128) (a len : Nat) : Bool :=
  decide (capBase c ≤ a) && decide (a + len ≤ capBase c + 16 * capLen c)

/-! ### The hatband (R319 to R323) -/

/-- The live bank (HAT_CTL.LIVE). -/
def hatLive (s : State) : Nat := rfld s (hatReg 0) 0 1
def hatBankBase (b : Nat) : Nat := hatReg (0x4000 + b * 0xE000)
/-- The 16-bit entry of a source or a sink in a bank. -/
def hatSource (s : State) (b src : Nat) : Nat := natAt s (hatBankBase b + 2 * src) 2
def hatSink (s : State) (b snk : Nat) : Nat := natAt s (hatBankBase b + 0x7000 + 2 * snk) 2

/-- Raise an event number: pulses of one event in one FCLK form one (R319). -/
def raiseEvent (ev : Nat) (s : State) : State :=
  if s.pulses.any fun p => p.at_ == s.fclk && p.ev == ev % 4096 then s
  else setPulses (s.pulses ++ [⟨s.fclk, ev % 4096, hatLive s, s.tb.tick⟩]) s
/-- Raise a hatband source: the event number that its entry in the live bank names, if the entry is valid (R323). -/
def raiseHat (src : Nat) (s : State) : State :=
  let e := hatSource s (hatLive s) src
  if e / 2 ^ 15 % 2 = 1 then raiseEvent (e % 4096) s else s

end Sys2Proof.Machine
end

