-- ==== Sys2Proof/Machine/IntOps.lean ====
section
/-! DEFINITION. Claims, EOI, set, clear and configuration of interrupt sources (R210 to R220). -/
namespace Sys2Proof.Machine

/-- The requesting source of a class with the highest priority, the lowest-numbered among equals (R212). -/
def claimPick (s : State) (ctl : Nat) (fast : Bool) : Option (Nat × IntSrc) :=
  ((requests s ctl fast).filter fun p => requesting p.2).foldl (fun best p =>
    match best with
    | none => some p
    | some b => if fld b.2.cfg 4 3 < fld p.2.cfg 4 3 then some p else some b) none

/-- The value of a claim register: SRC and COUNT (R212, R217); events of this clock count in the next batch. -/
def claimValue (s : State) (ctl : Nat) (fast : Bool) : BitVec 64 :=
  match claimPick s ctl fast with
  | some (k, _) => BitVec.ofNat 64 ((srcWas s k).evcnt * 2 ^ 16 + k % 1024)
  | none => 0x3FF

/-- The events of a source that this clock accepted. -/
def newEvents (s : State) (k : Nat) (x : IntSrc) : Nat :=
  let d := x.evcnt - (srcWas s k).evcnt
  if x.lastAcc = some (intClock s (k / 1024)) then max 1 d else d

/-- The claim's effect on the source (R212). -/
def claim (ctl : Nat) (fast : Bool) (s : State) : State :=
  match claimPick s ctl fast with
  | some (k, x) =>
    let m := newEvents s k x
    let s := setIntSrc ctl (k % 1024) { x with active := true, pending := false, evcnt := 0, deadline := none } s
    if m = 0 then s else acceptEvents ctl (k % 1024) m s
  | none => s

/-- End of interrupt (R213). -/
def intEoi (ctl src : Nat) (s : State) : State :=
  let x := intSrc s ctl src
  if isSource ctl src && x.active then
    let x := { x with active := false }
    let x := if isLevelSrc ctl src && x.flevel then { x with pending := true, evcnt := 1 } else x
    setIntSrc ctl src x s
  else intStatSet ctl 2 s

/-- Set pending (R214). -/
def intSetp (ctl src : Nat) (s : State) : State :=
  let x := intSrc s ctl src
  if !isSource ctl src then intStatSet ctl 2 s
  else if isLevelSrc ctl src then setIntSrc ctl src { x with pending := true, evcnt := 1, deadline := none } s
  else
    let s := if x.evcnt = 1023 then intStatSet ctl 3 s else s
    setIntSrc ctl src { x with pending := true, evcnt := min 1023 (x.evcnt + 1), deadline := none } s

/-- Clear pending (R214); an asserted, inactive level makes its source pending again in the next clock. -/
def intClrp (ctl src : Nat) (s : State) : State :=
  let x := intSrc s ctl src
  if !isSource ctl src then intStatSet ctl 2 s
  else
    let again := if isLevelSrc ctl src && x.flevel && !x.active then some (intClock s ctl) else none
    setIntSrc ctl src { x with pending := false, evcnt := 0, deadline := none, again := again } s

/-- The clock after such a clear. -/
def pendAgain (s : State) (p : Nat × IntSrc) : State :=
  let x := { p.2 with again := none }
  setIntSrc (p.1 / 1024) (p.1 % 1024) (if x.flevel && !x.active then { x with pending := true, evcnt := 1 } else x) s

/-- Clocks of the controllers pass: `k` FCLK have gone by. Batch timers of a sleeping crown stand still (R222). -/
def intsTick (k : Nat) (s : State) : State :=
  let s := { s with
    intWas := s.intWas.filter fun (p : Nat × IntSrc) => decide (p.1 / 1024 = stewardCtl ∧ s.fclk / 2 = (s.fclk - k) / 2),
    ints := s.ints.map fun (p : Nat × IntSrc) => if p.1 / 1024 < 128 && !crownUp s (crownOf (p.1 / 1024)) then (p.1, { p.2 with deadline := p.2.deadline.map (· + k) }) else p }
  (s.ints.filter fun p => p.2.again.any fun c => decide (c < intClock s (p.1 / 1024))).foldl pendAgain s

/-- The bits of INT_SCFG that a write stores; WAKE is not stored in the steward's (R217, R220). -/
def scfgMask (ctl : Nat) : BitVec 64 := if ctl = stewardCtl then 0xFFFF0F73 else 0xFFFF0F7B

/-- Write INT_SCFG of a source (R215). A new filter length restarts the filter; with none the filtered level is the raw level (R208). -/
def scfgWrite (ctl src : Nat) (v : BitVec 64) (s : State) : State :=
  if !isSource ctl src then s else
  let x := intSrc s ctl src
  let cfg := v &&& scfgMask ctl
  let x' := { x with cfg := cfg }
  if fld cfg 8 4 = fld x.cfg 8 4 then setIntSrc ctl src x' s
  else
    let s := setIntSrc ctl src { x' with lastAcc := none, rawAt := intClock s ctl } s
    if isLevelSrc ctl src && fltLen x' ≤ 1 && x.raw != x.flevel then setFiltered ctl src x.raw s else s

/-- INT_SCFG as read, with TYPE (R205, R217). -/
def scfgRead (s : State) (ctl src : Nat) : BitVec 64 :=
  (intSrc s ctl src).cfg ||| (if isLevelSrc ctl src then 4 else 0)

/-- INT_SSTAT (R217). -/
def sstatRead (s : State) (ctl src : Nat) : BitVec 64 :=
  let x := intSrc s ctl src
  let lv := isLevelSrc ctl src
  BitVec.ofNat 64 (x.evcnt * 2 ^ 16 + b2n x.deadline.isSome * 16 + b2n (lv && x.raw) * 8 + b2n (lv && x.flevel) * 4
    + b2n x.active * 2 + b2n x.pending)

/-- 64 pending or active bits from source `lo` (R217, R220). -/
def summaryRead (s : State) (ctl lo : Nat) (act : Bool) : BitVec 64 :=
  s.ints.foldl (fun v p =>
    if p.1 / 1024 = ctl ∧ lo ≤ p.1 % 1024 ∧ p.1 % 1024 < lo + 64 ∧ (if act then p.2.active else p.2.pending) = true
    then setBit v (p.1 % 1024 - lo) true else v) 0

/-- INT_STAT with the two request bits (R217). -/
def intStatRead (s : State) (ctl : Nat) : BitVec 64 :=
  ((intCtl s ctl).stat &&& 0xC) ||| BitVec.ofNat 64 (b2n (request s ctl true) * 2 + b2n (request s ctl false))

/-- A system register of a facet's interrupt controller as an MFS reads it (R217). -/
def intSysRead (s : State) (n num : Nat) : BitVec 64 :=
  match num with
  | 0x40 => claimValue s n false
  | 0x41 => claimValue s n true
  | 0x45 => (intCtl s n).sel
  | 0x46 => scfgRead s n (fld (intCtl s n).sel 0 6)
  | 0x47 => sstatRead s n (fld (intCtl s n).sel 0 6)
  | 0x48 => summaryRead s n 0 false
  | 0x49 => summaryRead s n 0 true
  | 0x4A => intStatRead s n
  | 0x4B => BitVec.ofNat 64 (intCtl s n).fdrop
  | _ => 0

/-- An MTS to a system register of the facet's interrupt controller (R217). -/
def intSysWrite (n num : Nat) (v : BitVec 64) (s : State) : State :=
  let c := intCtl s n
  match num with
  | 0x42 => intEoi n (fld v 0 10) s
  | 0x43 => intSetp n (fld v 0 10) s
  | 0x44 => intClrp n (fld v 0 10) s
  | 0x45 => setIntCtl n { c with sel := v &&& 0x3F } s
  | 0x46 => scfgWrite n (fld c.sel 0 6) v s
  | 0x4A => intStatClear n v s
  | _ => s

/-- The address of system register `num` of facet n in its crown's interrupt window (R217). -/
def crownIntReg (n num : Nat) : Nat := crownReg (crownOf n) (0x1000 + 0x80 * (n % 8) + 8 * (num - 0x40))

/-- Whether a source of facet n is locked by the sealed configuration (R219). -/
def srcLocked (s : State) (n src : Nat) : Bool := s.locks.srcs.contains (srcKey n src)

/-! ### Events at the sources of a facet -/

/-- The recorder of a sleeping crown takes an event of source i of facet n (R222). -/
def recordEvent (n i : Nat) (s : State) : State :=
  let x := intSrc s n i
  let x' := if i = 48 then { x with recLevel := true } else { x with recorded := min 1023 (x.recorded + 1) }
  let s := setIntSrc n i x' s
  if bit x.cfg 0 && bit x.cfg 3 then setWakes (sadd s.wakes (crownOf n)) s else s

/-- A pulse at a source of facet n (R205, R208, R222). -/
def facetPulse (n i : Nat) (s : State) : State :=
  if crownUp s (crownOf n) then pulseEvent n i s else recordEvent n i s

end Sys2Proof.Machine
end

