-- ==== Sys2Proof/Machine/Operands.lean ====
section
/-! DEFINITION. Facet operands (R59, R69 to R91): the register banks, the values under the shadow of R49, address
arithmetic, the operand check of R82, reads of sources, banks. -/
namespace Sys2Proof.Machine

/-! ### Fields of FS (R61) -/

def fsCAUSE (x : BitVec 64) : Nat := fld x 16 6
def fsWS (x : BitVec 64) : Bool := bit x 9
def fsSTRICT (x : BitVec 64) : Bool := bit x 8
def fsRSTRAP (x : BitVec 64) : Bool := bit x 7
def fsRES (x : BitVec 64) : Bool := bit x 6
def fsDS (x : BitVec 64) : Nat := fld x 4 2
def fsKB (x : BitVec 64) : Nat := fld x 3 1
def fsLVL (x : BitVec 64) : Nat := fld x 1 2
def fsIE (x : BitVec 64) : Bool := bit x 0

/-! ### Register banks and shadows -/

/-- The copy of a G register that operations name at the current level (R59). -/
def gKey (f : Facet) (r : Nat) : Nat := if 2 ≤ fsLVL f.fs ∧ 24 ≤ r then 64 + r else r
def aKey (f : Facet) (r : Nat) : Nat := if 2 ≤ fsLVL f.fs ∧ 12 ≤ r then 64 + r else r
/-- A G register; G0 reads 0 (R41). -/
def gRead (f : Facet) (r : Nat) : BitVec 64 := if r = 0 then 0 else tget 0 f.g (gKey f r)
def aRead (f : Facet) (r : Nat) : BitVec 48 := tget 0 f.a (aKey f r)

/-- The value that governs a bundle while shadows run (R49): the oldest shadow's old value. -/
def effW (f : Facet) (i : Nat) : BitVec 64 :=
  match f.shadows.findSome? fun h => match h.what with | .w j o => if j = i then some o else none | _ => none with
  | some o => o
  | none => tget 0 f.w i
def kKey (bank i : Nat) : Nat := bank * 16 + i
def kReg (f : Facet) (bank i : Nat) : KReg := tget {} f.k (kKey bank i)
def effK (f : Facet) (i : Nat) : KReg :=
  match f.shadows.findSome? fun h => match h.what with
      | .k b j o => if b = fsKB f.fs ∧ j = i then some o else none | _ => none with
  | some o => o
  | none => kReg f (fsKB f.fs) i
def effFs (f : Facet) : BitVec 64 :=
  match f.shadows.findSome? fun h => match h.what with | .fs o => some o | _ => none with
  | some o => o
  | none => f.fs
def effCtx (f : Facet) : BitVec 64 :=
  match f.shadows.findSome? fun h => match h.what with | .ctx o => some o | _ => none with
  | some o => o
  | none => f.ctx
def effXvb (f : Facet) : BitVec 64 :=
  match f.shadows.findSome? fun h => match h.what with | .xvb o => some o | _ => none with
  | some o => o
  | none => f.xvb
def effHoldmax (f : Facet) : BitVec 64 :=
  match f.shadows.findSome? fun h => match h.what with | .holdmax o => some o | _ => none with
  | some o => o
  | none => f.holdmax

/-! ### Windows and addresses (R75 to R80) -/

def wBase (w : BitVec 64) : Nat := fld w 4 44 * 16
def wLen (w : BitVec 64) : Nat := (if fld w 50 10 = 0 then 1024 else fld w 50 10) * 16
def wKsel (w : BitVec 64) : Nat := fld w 60 4
def wValid (w : BitVec 64) : Bool := bit w 48

/-- `x` modulo `m`, from 0 to m - 1 for negative `x` too. -/
def imod (x : Int) (m : Nat) : Nat := (x % (m : Int)).toNat

/-- The store accesses of a memory specifier for an operand of `size` bytes with step unit `u`: (address, length). -/
def segments (f : Facet) (x : BitVec 16) (d : DT) : List (Nat × Nat) :=
  let w := effW f (spWin x)
  let p := (aRead f (spAreg x)).toNat
  let one (ea : Nat) : List (Nat × Nat) :=
    match d with
    | .vec _ => [(ea % 2 ^ 48, 16), ((ea + 16) % 2 ^ 48, 16)]
    | .sc s _ _ => [(ea % 2 ^ 48, s)]
  match spMode x with
  | 0 => one (wBase w + spOff x * 16)
  | 2 => one p
  | 3 => match d with
    | .vec _ => [(p, 16), (wBase w + imod ((p : Int) - wBase w + 16) (wLen w), 16)]
    | .sc s _ _ => [(p, s)]
  | 4 =>
    let e := match d with | .vec _ => 32 | .sc s _ _ => s
    one (wBase w + p % 2 ^ spOrder x * e)
  | 5 => one p
  | 6 => one (imod ((p : Int) + spStep x * d.unit) (2 ^ 48))
  | _ => []

/-- The address-register updates of a specifier (R76 to R79): (register, new value). -/
def updates (f : Facet) (x : BitVec 16) (d : DT) : List (Nat × BitVec 48) :=
  let a := spAreg x
  let p := (aRead f a).toNat
  let w := effW f (spWin x)
  match spMode x with
  | 2 => [(a, BitVec.ofInt 48 ((p : Int) + spStep x * d.unit))]
  | 3 => [(a, BitVec.ofNat 48 (wBase w + imod ((p : Int) - wBase w + spStep x * d.unit) (wLen w)))]
  | 4 =>
    let m := spOrder x
    let i := p % 2 ^ m
    [(a, BitVec.ofNat 48 (p - i + revBits m ((revBits m i + 1) % 2 ^ m)))]
  | 5 =>
    let q := aRead f (a + 1)
    let ncol := if fld q 24 12 = 0 then 4096 else fld q 24 12
    if ncol ≤ fld q 36 12 + 1 then
      [(a, BitVec.ofInt 48 ((p : Int) + sgn 24 (fld q 0 24))), (a + 1, setFld q 36 12 0)]
    else [(a, BitVec.ofInt 48 ((p : Int) + spStep x * d.unit)), (a + 1, setFld q 36 12 (fld q 36 12 + 1))]
  | _ => []

/-- The operand check of R82 on a memory specifier used as a source, a destination or both. -/
def memCheck (s : State) (n : Nat) (f : Facet) (x : BitVec 16) (d : DT) (r w : Bool) : Option Nat :=
  let win := effW f (spWin x)
  let k := effK f (wKsel win)
  let segs := segments f x d
  let base := wBase win
  if !wValid win then some 2
  else if !k.tag then some 2
  else if capEpoch k.cap ≠ epochOf s (capPrin k.cap) then some 2
  else if capOtype k.cap ≠ 0 then some 5
  else if (r && !capHas k.cap permR) || (w && !capHas k.cap permW) then some 4
  else if segs.any (fun p => decide (p.1 % p.2 ≠ 0)) then some 7
  else if segs.any (fun p => !capCovers k.cap p.1 p.2) then some 3
  else if segs.any (fun p => decide (p.1 < facetBase n) || decide (facetBase n + 0x80000 < p.1 + p.2)) then some 3
  else match spMode x with
    | 0 => if segs.any (fun p => decide (p.1 < base) || decide (base + 16384 < p.1 + p.2)) then some 3 else none
    | 4 =>
      let e := match d with | .vec _ => 32 | .sc s _ _ => s
      if 16384 < (aRead f (spAreg x)).toNat % 2 ^ spOrder x * e + e then some 3 else none
    | 3 =>
      let p := (aRead f (spAreg x)).toNat
      if p < base ∨ base + wLen win ≤ p then some 3 else none
    | _ => none

/-- Whether a role reads, and whether it writes, its memory operand. -/
def roleReads : Role → Bool
  | .src | .both | .memSrc | .memBoth | .pSrc => true
  | _ => false
def roleWrites : Role → Bool
  | .dst | .both | .memDst | .memBoth | .pDst | .gOrMem => true
  | _ => false

def isMemSpec (x : BitVec 16) : Bool := [0, 2, 3, 4, 5, 6].contains (spMode x)

/-- The check of one operand in its role. -/
def operandCheck (s : State) (n : Nat) (f : Facet) (r : Role) (x : BitVec 16) (d : DT) : Option Nat :=
  if isMemRole r && isMemSpec x then memCheck s n f x d (roleReads r) (roleWrites r) else none

/-- The immediate value for a lane or scalar of `w` bits (R74). -/
def immValue (x : BitVec 16) (fp : Bool) (w : Nat) (lits : List (BitVec 48)) : Nat :=
  if x.getLsbD 12 then
    let l := lits.getD (spLitSel x) 0
    if fp then l.toNat % 2 ^ w else wrapN w l.toInt
  else
    let i := spImm x
    if fp then i.toNat * 2 ^ (w - 12) else wrapN w i.toInt

/-- Every lane of `w` bits set to `v`. -/
def splat (w v : Nat) : Nat := ((List.range (256 / w)).foldl (fun acc i => acc + v % 2 ^ w * 2 ^ (i * w)) 0)

/-- A scalar read of `s` bytes as its operation takes it at 64 bits: extended by z[2] (R94); 16-byte and floating-point scalars stay as they
are. -/
def scRead (s : Nat) (fp uns : Bool) (x : Nat) : Nat :=
  if fp || uns || decide (8 < s) then x % 2 ^ (8 * s) else wrapN 64 (sgn (8 * s) x)

/-- The value of a source operand: a scalar as `scRead` gives it, an A register as its 48 bits with zeros above (R73), or the 256 bits of a
vector. -/
def readOperand (s : State) (f : Facet) (lits : List (BitVec 48)) (x : BitVec 16) (d : DT) : Nat :=
  match spMode x with
  | 1 => match d with
    | .sc sz fp uns => if spFile x = 0 then scRead sz fp uns (gRead f (spReg x)).toNat
      else if fp then (aRead f (spReg x)).toNat % 2 ^ (8 * sz) else (aRead f (spReg x)).toNat
    | .vec _ => 0
  | 7 => match d with
    | .sc sz fp uns => scRead sz fp uns (immValue x fp (8 * sz) lits)
    | .vec t => splat (8 * laneBytes t) (immValue x (isFp t) (8 * laneBytes t) lits)
  | _ =>
    let v := bytesNat ((segments f x d).flatMap fun p => readBytes s 1 p.1 p.2)
    match d with
    | .sc sz fp uns => scRead sz fp uns v
    | .vec _ => v

/-- The store words that an operand touches (R90, R91). -/
def operandWords (f : Facet) (r : Role) (x : BitVec 16) (d : DT) : List Nat :=
  if isMemRole r && isMemSpec x && roleReads r then (segments f x d).map fun p => wordOf p.1 else []

/-- The largest number of accesses on one of the 64 banks (R43, R91): read words and write words each counted once. -/
def maxBank (reads writes : List Nat) : Nat :=
  let all := (reads.eraseDups ++ writes.eraseDups).map fun w => w / 16 % 64
  all.foldl (fun m b => max m (all.count b)) 0

end Sys2Proof.Machine
end

