-- ==== Sys2Proof/Machine/FacetCheck.lean ====
section
/-! DEFINITION. Which cause a bundle raises before it issues: encoding and misuse (R34, R48, R96, R132, R149, R156, R163,
R188, R192), operand checks (R82, R83), and the checks of single operations (R63, R112, R118, R127, R135, R138, R142,
R144, R146, R157, R172, R174, R175, R195, R197, R219, R413). -/
namespace Sys2Proof.Machine

/-- The owner code of a principal (R173). -/
def ownerCode (p : Nat) : Option Nat :=
  if 1 ≤ p ∧ p ≤ 3 then some p else if p = 4 then some 0x7F else if 16 ≤ p ∧ p ≤ 31 then some p else none

/-- Suppressed by its guard (R35). -/
def suppressed (f : Facet) (o : Op) : Bool := o.w.guard != 0 && gRead f o.w.guard.toNat != 1

def ctlC (o : Op) : BitVec 12 := spImm o.w.c
def sysNum (o : Op) : Nat := (ctlC o &&& 0xFF).toNat
def kdOf (o : Op) : Nat := (ctlC o &&& 15).toNat
def ksOf (o : Op) : Nat := ((ctlC o >>> 4) &&& 15).toNat
def ktOf (o : Op) : Nat := (ctlC o >>> 8).toNat

/-- XPC or XST named at level 0 (R62, R132); the rest of R132's misuse is in the encoding. -/
def sysMisuse (f : Facet) (o : Op) : Bool :=
  (o.kind = .mfs || o.kind = .mts) && fsLVL f.fs == 0 && (sysNum o == 1 || sysNum o == 2)

/-! ### Loop levels as the loop-end logic sees them (R145, R148, R150) -/

/-- The values of a loop level that decide a loop-end action. -/
def loopLevel (f : Facet) (l : Nat) : BitVec 64 × BitVec 64 × BitVec 64 :=
  match (f.loopOld ++ f.lpWas).find? fun h => h.level == l with
  | some h => (h.lc, h.ls, h.le)
  | none => (tget 0 f.lc l, tget 0 f.ls l, tget 0 f.le l)

/-- Level l is active, ends at this operation index and belongs to the handler level (R148). -/
def loopEndsAt (f : Facet) (idx : BitVec 15) (l : Nat) : Bool :=
  let (lc, _, le) := loopLevel f l
  fld lc 0 17 != 0 && fld lc 17 2 == fsLVL f.fs && fld le 3 15 == idx.toNat

/-- RETX misused (R62, R188). -/
def retxMisuse (f : Facet) : Bool :=
  let l := fsLVL f.fs
  l == 0 || fsDS f.fs != 0 || decide (l ≤ fsLVL (tget 0 f.xst l))

/-- Cause 0x01 that depends on more than the encoding (R48, R132, R149, R156, R188, R192). A REP at a loop end and a barred operation of a
repeated bundle count although a guard suppresses them: R149 and R156 speak of what the bundle holds. DEDUCED, log entry 75. -/
def bundleMisuse (f : Facet) (b : List Op) : Bool :=
  let live := b.filter fun o => !suppressed f o
  let loopEnds := (List.range 4).any (loopEndsAt f f.pc)
  (fsDS f.fs != 0 && live.any fun o => barredInDelay o.kind)
    || live.any (sysMisuse f)
    || (loopEnds && (fsDS f.fs != 0 || b.any fun o => o.kind = .rep))
    || (f.repeating && f.repFirst && b.any fun o => barredInRepeat o.kind)
    || (live.any (fun o => o.kind = .retx) && retxMisuse f)

/-- The raw value of operand `i` (0 A, 1 B, 2 C) as a source. -/
def rawOperand (s : State) (f : Facet) (lits : List (BitVec 48)) (o : Op) (i : Nat) : Nat :=
  let x := if i = 0 then o.w.a else if i = 1 then o.w.b else o.w.c
  readOperand s f lits x (operandDT o.kind o.w i)

/-- A G register named by a specifier, all 64 bits. -/
def gSpec (f : Facet) (x : BitVec 16) : Nat := (gRead f (spReg x)).toNat
/-- A register of file G or A named by a specifier: 64 bits. -/
def gaSpec (f : Facet) (x : BitVec 16) : Nat := if spFile x = 0 then gSpec f x else (aRead f (spReg x)).toNat

/-- The check of a long operation's range [lo, hi) through a window (R127): the steps of R82 on both ends. -/
def rangeCheck (s : State) (n : Nat) (f : Facet) (win : BitVec 64) (start size : Nat) (lo hi : Int) (r w : Bool) : Option Nat :=
  let k := effK f (wKsel win)
  if !wValid win then some 2
  else if !k.tag then some 2
  else if capEpoch k.cap ≠ epochOf s (capPrin k.cap) then some 2
  else if capOtype k.cap ≠ 0 then some 5
  else if (r && !capHas k.cap permR) || (w && !capHas k.cap permW) then some 4
  else if start % size ≠ 0 then some 7
  else if lo < (capBase k.cap : Int) ∨ ((capBase k.cap + 16 * capLen k.cap : Nat) : Int) < hi then some 3
  else if lo < (facetBase n : Int) ∨ ((facetBase n + 0x80000 : Nat) : Int) < hi then some 3
  else none

/-- One stream of a long operation with `cnt` elements left; `extra` bytes beyond each element (the taps of BFIR). With no element left there
is no range, and no step of R82 runs. DESIGN CHOICE, log entry 76. -/
def streamCheck (s : State) (n : Nat) (f : Facet) (x : BitVec 16) (d : DT) (cnt extra : Nat) (r w : Bool) : Option Nat :=
  if cnt = 0 then none else
  let win := effW f (spWin x)
  let p := (aRead f (spAreg x)).toNat
  let st : Int := spStep x * d.unit * ((cnt : Int) - 1)
  if spMode x = 3 then
    match rangeCheck s n f win p d.size (wBase win) (wBase win + wLen win) r w with
    | some c => some c
    | none => if p < wBase win ∨ wBase win + wLen win ≤ p then some 3 else none
  else rangeCheck s n f win p d.size (p + min 0 st) (p + max 0 st + d.size + extra) r w

/-- Elements left of a long operation, from its count or control register (R125, R126). -/
def longCount (f : Facet) (o : Op) : Nat :=
  if o.kind = .bfir then gSpec f o.w.c % 2 ^ 17 else gSpec f o.w.c

/-- The taps T of a BFIR control value and its coefficient window (R126). -/
def firTaps (v : Nat) : Nat := v / 2 ^ 24 % 256 + 1
def firWin (v : Nat) : Nat := v / 2 ^ 32 % 8

/-- The stream operand `i` of a long operation over what it has left (R127). -/
def longStream (s : State) (n : Nat) (f : Facet) (o : Op) (i : Nat) : Option Nat :=
  let d := operandDT o.kind o.w i
  let extra := if o.kind = .bfir then (firTaps (gSpec f o.w.c) - 1) * d.size else 0
  if i = 0 then streamCheck s n f o.w.a d (longCount f o) 0 false true
  else streamCheck s n f o.w.b d (longCount f o) extra true false

/-- The coefficients of a BFIR (R127). -/
def longCheck (s : State) (n : Nat) (f : Facet) (o : Op) : Option Nat :=
  let ctl := gSpec f o.w.c
  let dB := operandDT o.kind o.w 1
  if o.kind = .bfir ∧ longCount f o ≠ 0 then
    let win := effW f (firWin ctl)
    rangeCheck s n f win (wBase win) dB.size (wBase win) (wBase win + firTaps ctl * dB.size) true false
  else none

/-- The target operation index of a branch, or its cause (R138). -/
def branchTarget (f : Facet) (lits : List (BitVec 48)) (x : BitVec 16) : Except Nat (BitVec 15) :=
  if spMode x = 7 then
    if x.getLsbD 12 then .ok ((lits.getD (spLitSel x) 0).setWidth 15)
    else .ok (f.pc + BitVec.ofInt 15 (spImm x).toInt)
  else
    let v := gaSpec f x
    if v % 8 ≠ 0 then .error 7 else if 0x40000 ≤ v then .error 6 else .ok (BitVec.ofNat 15 (v / 8))

/-- Where the package backs an address range (R22, R23, R250 to R252): every byte in a mapped, assigned place. -/
def backed (s : State) (a len : Nat) : Bool :=
  let one (x : Nat) : Bool := match region x with
    | .dram => decide (x < ddrTop s)
    | .girdle _ | .brim _ | .fregs _ => assignedAt (x / 8 * 8)
    | .hole => false
    | _ => true
  one a && (len == 0 || one (a + len - 1))

/-- The permissions that a remote operation needs (R116). -/
def remoteNeeds : OpKind → Bool × Bool
  | .rld | .ldr => (true, false)
  | .rst | .stc => (false, true)
  | _ => (true, true)

def isRemote : OpKind → Bool
  | .rld | .rst | .radd | .rtas | .ldr | .stc => true
  | _ => false

def remoteN (o : Op) : Nat := ((ctlC o >>> 4) &&& 15).toNat

/-- The target check of R118; `earlier` are the indices of remote operations that stand earlier in the bundle. -/
def remoteCheck (s : State) (f : Facet) (o : Op) (earlier : List Nat) : Option Nat :=
  let k := effK f (kdOf o)
  let v := gaSpec f o.w.b
  let t := v % 2 ^ 48
  let sz := remoteSize o.w.c
  let need := remoteNeeds o.kind
  if !capLive s k then some 2
  else if capOtype k.cap ≠ 0 then some 5
  else if (need.1 && !capHas k.cap permR) || (need.2 && !capHas k.cap permW) then some 4
  else if t % sz ≠ 0 then some 7
  else if !capCovers k.cap t sz then some 3
  else if !backed s t sz || v / 2 ^ 48 != 0
      || ((o.kind = .ldr || o.kind = .stc) && (match region t with | .crown _ => false | _ => true)) then some 13
  else if earlier.contains (remoteN o) || f.remotes.any (fun r => r.idx == remoteN o) then some 13
  else none

/-- A K register offered for a DBG-checked MTS (R63). -/
def dbgCheck (s : State) (f : Facet) (o : Op) : Option Nat :=
  let k := effK f (ktOf o)
  if !capLive s k then some 2 else if capOtype k.cap ≠ 0 then some 5 else if !capHas k.cap permDBG then some 4 else none

/-- The type that KSEAL and KUNSEAL form, with the checks on Kt up to step 4 of R174. -/
def sealType (s : State) (kt : KReg) (a : Nat) (perm : Nat) : Except Nat Nat :=
  if !capLive s kt then .error 2
  else if capOtype kt.cap ≠ 0 then .error 5
  else if !capHas kt.cap perm then .error 4
  else match ownerCode (capPrin kt.cap) with
    | some oc => if capLen kt.cap = 0 ∧ a / 2 ^ 9 = 0 then .ok (a / 2 ^ 8 % 2 * 0x8000 + oc * 0x100 + a % 256) else .error 3
    | none => .error 3

/-- The checks of KENTER (R195). -/
def kenterCheck (s : State) (n : Nat) (f : Facet) (ks kt : KReg) : Option Nat :=
  let os := capOtype ks.cap
  let ot := capOtype kt.cap
  if fsLVL f.fs ≠ 0 then some 5
  else if !capLive s ks || !capLive s kt then some 2
  else if os / 2 ^ 15 ≠ 1 ∨ ot / 2 ^ 15 ≠ 0 ∨ os % 2 ^ 15 ≠ ot ∨ ot = 0 then some 5
  else if !capHas ks.cap permX then some 4
  else if capBase ks.cap % 8 ≠ 0 then some 7
  else if capLen ks.cap = 0 ∨ capBase ks.cap < codeBase n ∨ codeBase n + 0x40000 ≤ capBase ks.cap then some 6
  else none

/-- Checks of one operation beyond its operands. -/
def opCheck (s : State) (n : Nat) (f : Facet) (lits : List (BitVec 48)) (earlier : List Nat) (o : Op) : Option Nat :=
  let raw := rawOperand s f lits o
  match o.kind with
  | .div | .rem => if raw 2 = 0 then some 12 else none
  | .rld | .rst | .radd | .rtas | .ldr | .stc => remoteCheck s f o earlier
  | .bmove | .bfill | .bcrc | .bfir => longCheck s n f o
  | .br | .brc => match branchTarget f lits o.w.b with | .ok _ => none | .error c => some c
  | .call =>
    if ctlC o = 1 then (if f.depth = 16 ∧ fsRSTRAP (effFs f) = true then some 10 else none)
    else match branchTarget f lits o.w.b with
      | .error c => some c
      | .ok _ => if f.depth = 16 ∧ fsRSTRAP (effFs f) = true then some 10 else none
  | .ret => if (ctlC o = 0 ∨ ctlC o = 1) ∧ f.depth = 0 then some 11 else none
  | .loop => if 65536 < raw 0 then some 3 else none
  | .mts =>
    let v := raw 1
    let num := sysNum o
    if num = 6 ∨ num = 7 then dbgCheck s f o
    else if num = 8 then (match dbgCheck s f o with | some c => some c | none => if v % 2 ^ 16 < 64 then some 3 else none)
    else if 0x10 ≤ num ∧ num ≤ 0x13 then (if 65536 < v % 2 ^ 17 then some 3 else none)
    else if num = 5 then (if 65536 < v / 2 ^ 32 % 2 ^ 17 then some 3 else none)
    else if num = 0x46 then (if srcLocked s n (fld (intCtl s n).sel 0 6) then some 4 else none)
    else if num = 0x44 then (if srcLocked s n (v % 1024) then some 4 else none)
    else none
  | .mbxput | .mbxget =>
    let k := effK f (kdOf o)
    if !capLive s k then some 2 else if capOtype k.cap ≠ 0 then some 5 else if !capHas k.cap permMBX then some 4 else none
  | .kst =>
    let win := effW f (spWin o.w.a)
    if (effK f (ksOf o)).tag && !capHas (effK f (wKsel win)).cap permSC then some 4 else none
  | .kbnd =>
    let ks := effK f (ksOf o)
    let a := gSpec f o.w.a
    let b := gSpec f o.w.b
    if !capLive s ks then some 2
    else if capOtype ks.cap ≠ 0 then some 5
    else if 2 ^ 48 ≤ a ∨ 2 ^ 32 ≤ b ∨ a < capBase ks.cap ∨ capBase ks.cap + 16 * capLen ks.cap < a + 16 * b then some 3
    else none
  | .kmask =>
    let ks := effK f (ksOf o)
    if !capLive s ks then some 2 else if capOtype ks.cap ≠ 0 then some 5 else none
  | .kseal =>
    let ks := effK f (ksOf o)
    let kt := effK f (ktOf o)
    let a := gSpec f o.w.a
    if !capLive s ks then some 2
    else if capOtype ks.cap ≠ 0 then some 5
    else match sealType s kt a permSEAL with
      | .error c => some c
      | .ok _ =>
        if capPrin ks.cap ≠ capPrin kt.cap then some 4
        else if capHas ks.cap permX ≠ (a / 2 ^ 8 % 2 == 1) then some 4 else none
  | .kunseal =>
    let ks := effK f (ksOf o)
    if !capLive s ks then some 2
    else match sealType s (effK f (ktOf o)) (gSpec f o.w.a) permUNSEAL with
      | .error c => some c
      | .ok t => if capOtype ks.cap = t ∧ t ≠ 0 then none else some 5
  | .kenter => kenterCheck s n f (effK f (kdOf o)) (effK f (ksOf o))
  | _ => none

/-- The first failing check of one operation: the count of a long operation, operands A, B, C, then the operation's own (R83, R118). That a
count above 65,536 comes first is a DESIGN CHOICE, log entry 77. -/
def opCause (s : State) (n : Nat) (f : Facet) (lits : List (BitVec 48)) (earlier : List Nat) (o : Op) : Option Nat :=
  let r := roles o.kind
  let chk (r : Role) (x : BitVec 16) (i : Nat) : Option Nat :=
    if r = .pSrc || r = .pDst then longStream s n f o i else operandCheck s n f r x (operandDT o.kind o.w i)
  if isLong o.kind && decide (65536 < longCount f o) then some 3 else
  match chk r.1 o.w.a 0 with
  | some c => some c
  | none => match chk r.2.1 o.w.b 1 with
    | some c => some c
    | none => match chk r.2.2 o.w.c 2 with
      | some c => some c
      | none => opCheck s n f lits earlier o

/-- The first failing check of the operations of a bundle, in bundle order: an operation's own check comes before the operands of a later
one. DEDUCED, log entry 78. -/
def opsCause (s : State) (n : Nat) (f : Facet) (lits : List (BitVec 48)) : List Nat → List Op → Option Nat
  | _, [] => none
  | earlier, o :: t =>
    if suppressed f o then opsCause s n f lits earlier t
    else match opCause s n f lits earlier o with
      | some c => some c
      | none => opsCause s n f lits (if isRemote o.kind then remoteN o :: earlier else earlier) t

/-- The store words that the operand reads of a bundle touch (R43, R91). TAS reads its byte only when it lands, as one
access with its write (R110), so it is no operand read. -/
def bundleReads (f : Facet) (b : List Op) : List Nat :=
  (b.filter fun o => !suppressed f o && !isLong o.kind && o.kind != .tas).flatMap fun o =>
    let r := roles o.kind
    operandWords f r.1 o.w.a (operandDT o.kind o.w 0) ++ operandWords f r.2.1 o.w.b (operandDT o.kind o.w 1)
      ++ operandWords f r.2.2 o.w.c (operandDT o.kind o.w 2)

/-- A bundle whose long operation runs makes no bank check (R129); a suppressed one is no operation (R35). -/
def runsLong (f : Facet) (b : List Op) : Bool := b.any fun o => isLong o.kind && !suppressed f o

/-- The words that landing TAS operations read (R110). -/
def tasWords (l : List Land) : List Nat := l.filterMap fun x => match x with | .tas a _ => some (wordOf a) | _ => none

/-- The store words that results land on. -/
def landWords (l : List Land) : List Nat :=
  l.filterMap fun x => match x with | .mem a _ _ => some (wordOf a) | .tas a _ => some (wordOf a) | _ => none

end Sys2Proof.Machine
end

