-- ==== Sys2Proof/Machine/LedgerOps.lean ====
section
/-! DEFINITION. Writes to ledger lines and the bezel's two trails (R491 to R500, R488). -/
namespace Sys2Proof.Machine

/-- 1 ms and 1 µs in FCLK periods (R533). -/
def msFclk : Nat := 1200000
def usFclk : Nat := 1200

def ledgerPending (s : State) (line : Nat) : Bool := s.ledger.pend.any fun p => p.line == line

/-- Steward source 319 rises when a status bit changes from 0 to 1 (R503). -/
def ledgerFlag (i : Nat) (s : State) : State :=
  if rbit s (ldgReg 0) i then noteHit (ldgReg 0) i true s else raiseSteward 319 (rbitSet (ldgReg 0) i true s)

def setPendCount (s : State) : State := rput (ldgReg 0) 14 9 s.ledger.pend.length s

/-- A write into a line's pending image (R497, R498): visible at once, committed once its interval has passed; an
image counts once in COALESCED, however many writes it merges. DESIGN CHOICE, log entry 51. -/
def ledgerPut (line off : Nat) (bs : List Byte) (s : State) : State :=
  let base := bytesAt s (ledgerAddr line 0) 64
  let s' := poke (ledgerAddr line off) bs s
  let waits (p : PendLine) : Bool := p.line == line && !p.busy
  if s.ledger.pend.any waits then
    let s' := if s.ledger.pend.any fun p => waits p && !p.merged then rsat (ldgReg 0) 32 32 1 s' else s'
    setLedger { s.ledger with pend := s.ledger.pend.map fun p => if waits p then { p with merged := true } else p } s'
  else
    let last := tget 0 s.ledger.last line
    let due := if s.ledger.flush then s.fclk else max s.fclk last
    setPendCount (setLedger { s.ledger with pend := s.ledger.pend ++ [⟨line, base, due, false, false⟩] } s')

/-- First line of a region (R492). -/
def regionLine (r : Nat) : Nat :=
  match r with
  | 0 => 0 | 1 => 0x10000 / 64 | 2 => 0x90000 / 64 | 3 => 0x110000 / 64 | 4 => 0x140000 / 64 | 5 => 0x150000 / 64
  | 6 => 0x200000 / 64 | 7 => 0x400000 / 64 | _ => 0x500000 / 64

def shaBytes (bs : List Byte) (k : Nat) : List Byte := natBytes k (Config.sha384 bs).toNat

/-- A field of a byte list. -/
def leAt (bs : List Byte) (o n : Nat) : Nat := bytesNat ((bs.drop o).take n)

/-- Pad or cut to `k` bytes. -/
def padTo (k : Nat) (bs : List Byte) : List Byte := (bs ++ List.replicate k 0).take k

/-- Append a record to the legal (or the general) trail (R488, R489). -/
def audit (legal : Bool) (kind prin : Nat) (detail : List Byte) (s : State) : State :=
  let seq := if legal then s.ledger.legal else s.ledger.general
  if legal && decide (8192 ≤ seq) then s else
  let line := regionLine (if legal then 1 else 2) + seq % 8192
  let prev := if seq = 0 then shaBytes Config.deviceKey 24
    else bytesAt s (ledgerAddr (regionLine (if legal then 1 else 2) + (seq - 1) % 8192) 0x28) 24
  let head := natBytes 8 (seq % 2 ^ 32 * 2 ^ 32 + kind * 2 ^ 16 + prin * 2 ^ 8) ++ natBytes 8 s.tb.tick ++ padTo 24 detail
  let s := ledgerPut line 0 (head ++ shaBytes (prev ++ head) 24) s
  setLedger (if legal then { s.ledger with legal := seq + 1 } else { s.ledger with general := seq + 1 }) s

/-- The principal number of a record that the hardware caused (R488). -/
def hwPrin : Nat := 0xFF

/-- How many records of a trail or ring stand in the ledger: `n` without those that were lost before their commit. -/
def trimTrail (first ring : Nat) (s : State) : Nat → Nat → Nat
  | 0, n => n
  | fuel + 1, n =>
    let a := ledgerAddr (first + (n - 1) % ring) 0
    if n = 0 ∨ (natAt s a 64 ≠ 0 ∧ natAt s (a + 4) 4 = (n - 1) % 2 ^ 32) then n else trimTrail first ring s fuel (n - 1)
def trimTrails (s : State) : State :=
  setLedger { s.ledger with
    legal := trimTrail (regionLine 1) 8192 s 512 s.ledger.legal
    general := trimTrail (regionLine 2) 8192 s 512 s.ledger.general
    app := trimTrail (regionLine 8) 180224 s 512 s.ledger.app } s

/-- BEZ_MSTAT.STATE: 0 none, 1 staged, 2 sealed, 3 broken (R478), and SEALCNT. -/
def metroState (s : State) : Nat := rfld s (bezReg 0x100) 32 2
def sealCount (s : State) : Nat := rfld s (bezReg 0x100) 48 16

/-- The commit of the legal record that changes the metrology state (R478 to R480, R487): what the ledger holds from then on. -/
def metroCommitted (s : State) : State :=
  match s.metro.change with
  | none => s
  | some (_, k) =>
    let m := { s.metro with change := none }
    if k = 1 then rput (bezReg 0x100) 32 2 1 (setMetro { m with staged := m.loading, loading := [] } s)
    else if k = 2 then
      let s := rput (bezReg 0x100) 0 34 (2 * 2 ^ 32) (rput (bezReg 0x100) 48 16 (sealCount s + 1) s)
      setMetro { m with staged := [], lastSealed := leAt m.staged 0xA 2, sealImage := m.staged,
                                 digest := Config.sha384 m.staged, tick := s.tb.tick, resets := [], stopped := false } s
    else rput (bezReg 0x100) 32 2 3 (setMetro m s)

/-- A reset before that commit: the record is dropped, and the state stays (R480). -/
def cancelMetro (s : State) : State :=
  match s.metro.change with
  | none => s
  | some (l, _) =>
    let s := (s.ledger.pend.filter fun p => p.line == l).foldl (fun s p => poke (ledgerAddr l 0) p.base s) s
    trimTrails (setPendCount (setLedger { s.ledger with pend := s.ledger.pend.filter fun p => p.line != l } (setMetro { s.metro with change := none, loading := [] } s)))

def addRec5 (r : Rec5) (s : State) : State := setLedger { s.ledger with rec5 := s.ledger.rec5 ++ [r] } s

/-- The reset log (R551, R552): the entry that NEXT names, and NEXT advanced. A facet or crown reset is recorded in the
ledger at once; a package reset at the next boot. -/
def logReset (cause scope index : Nat) (s : State) : State :=
  let i := rfld s (girdle 0x100) 8 4
  let s := rset (girdle (0x208 + 16 * i)) (BitVec.ofNat 64 s.tb.tick) s
  let s := rset (girdle (0x200 + 16 * i))
    (BitVec.ofNat 64 (2 ^ 63 + (if scope = 2 then 0 else 2 ^ 62) + index * 2 ^ 16 + scope * 2 ^ 8 + cause)) s
  let s := rput (girdle 0x100) 8 4 (i + 1) s
  if scope = 2 then rput (girdle 0x100) 0 8 cause s else addRec5 (.reset cause index s.tb.tick) s

end Sys2Proof.Machine
end

