-- ==== Sys2Proof/Machine/IntegrityOps.lean ====
section
/-! DEFINITION. The error log, reads of deviating words, and reconstruction of a page (R255, R262 to R270). -/
namespace Sys2Proof.Machine

/-- A register of integrity engine u: 0 to 15 the crowns', 16 the central one (R271, R284). -/
def itgU (u o : Nat) : Nat := if u < 16 then crownReg u (0x2800 + o) else itgReg o
def logEntry (u e : Nat) : Nat := if u < 16 then crownReg u (0x2000 + 32 * e) else itgReg (0x1000 + 32 * e)
def logSize (u : Nat) : Nat := if u < 16 then 64 else 128

/-- Set a bit of ITG_EVT; a rise raises the engine's steward source (R271, R284). `src` is the source of the central
engine: 316 for seam replays, 317 for time-base memories, else 318. -/
def itgEvt (u i src : Nat) (s : State) : State :=
  if rbit s (itgU u 8) i then noteHit (itgU u 8) i true s
  else
    let s := rbitSet (itgU u 8) i true s
    if u < 16 then raiseSteward (272 + u) s else if src = 318 then raiseGirdle 1 s else raiseSteward src s

/-- An event for the error log (R269, R270). -/
structure LogEvent where
  src : Nat
  port : Nat
  lane : Nat
  synd : Nat
  spare : Nat
  addr : Nat
  ue : Bool
  rebuilt : Bool
  deriving DecidableEq, Repr

def logDropped (u srcNo : Nat) (s : State) : State := itgEvt u 3 srcNo (rsat (itgU u 0x10) 48 16 1 s)

/-- The time-base memory: launch timer state (R284). -/
def isTimeMem (a : Nat) : Bool := match region a with | .girdle o => decide (0x11000 ≤ o ∧ o < 0x15000) | _ => false
/-- The steward source of an event at the central engine (R284). -/
def memSource (a : Nat) : Nat := if isTimeMem a then 317 else 318
def evSource (ev : LogEvent) : Nat := if ev.src = 6 then 316 else memSource ev.addr

/-- The threshold event (R270). -/
def logThresh (u e srcNo : Nat) (s : State) : State :=
  let th := rfld s (itgU u 0) 48 16
  if th ≠ 0 ∧ rfld s (logEntry u e + 8) 48 16 = th then itgEvt u 0 srcNo s else s

/-- Match an event to an entry, or add one (R270). -/
def logOne (u : Nat) (s : State) (ev : LogEvent) : State :=
  let es := List.range (logSize u)
  let same (e : Nat) : Bool :=
    let w0 := rget s (logEntry u e)
    bit w0 63 && fld w0 56 3 == ev.src && fld w0 48 6 == ev.spare && fld w0 4 44 == ev.addr / 16
      && rfld s (logEntry u e + 8) 0 6 == ev.lane
  let now := BitVec.ofNat 64 s.tb.tick
  match es.find? same with
  | some e =>
    let a := logEntry u e
    let hard := rbit s a 59 || (ev.ue && rbit s a 61)
    let s := rsat (a + 8) 48 16 1 s
    let s := rput (a + 8) 16 5 ev.synd (rput (a + 8) 8 3 ev.port s)
    let s := rset (a + 24) now s
    let s := if ev.ue then rbitSet a 62 true s else s
    let s := if ev.rebuilt then rbitSet a 61 true s else s
    let s := if hard then itgEvt u 1 (evSource ev) (rbitSet a 60 true s) else s
    logThresh u e (evSource ev) s
  | none =>
    match es.find? fun e => !rbit s (logEntry u e) 63 with
    | none => logDropped u (evSource ev) s
    | some e =>
      let a := logEntry u e
      let s := noteHit a 63 true s
      let s := rset a (BitVec.ofNat 64 (2 ^ 63 + b2n ev.ue * 2 ^ 62 + b2n ev.rebuilt * 2 ^ 61 + ev.src % 8 * 2 ^ 56
        + ev.spare % 64 * 2 ^ 48 + ev.addr / 16 % 2 ^ 44 * 16)) s
      let s := rset (a + 8) (BitVec.ofNat 64 (2 ^ 48 + ev.synd % 32 * 2 ^ 16 + ev.port % 8 * 2 ^ 8 + ev.lane % 64)) s
      let s := rset (a + 24) now (rset (a + 16) now s)
      let s := rput (itgU u 0x10) 0 (if u < 16 then 7 else 8) (rfld s (itgU u 0x10) 0 8 + 1) s
      logThresh u e (evSource ev) s

/-- The events of one FCLK: 4 are taken and 16 queued, the rest is dropped (R270). -/
def logEvents (u : Nat) (evs : List LogEvent) (s : State) : State :=
  let s := (evs.take 20).foldl (logOne u) s
  (evs.drop 20).foldl (fun s ev => logDropped u (evSource ev) s) s

/-- Free an entry (W1C of V, R269). -/
def logFree (u e : Nat) (s : State) : State :=
  if rbit s (logEntry u e) 63 then
    rput (itgU u 0x10) 0 (if u < 16 then 7 else 8) (rfld s (itgU u 0x10) 0 8 - 1) (rbitSet (logEntry u e) 63 false s)
  else s

/-! ### Pages and spares (R259, R275, R276) -/

/-- Words, pages and spares of a store (0 facet store, 1 code store, 2 crown store). -/
def storePages (st : Nat) : Nat := match st with | 0 => 256 | 1 => 128 | _ => 2048
def storeSpares (st : Nat) : Nat := match st with | 0 => 8 | 1 => 4 | _ => 32
def storeBase (c st f : Nat) : Nat :=
  match st with | 0 => facetBase (8 * c + f) | 1 => codeBase (8 * c + f) | _ => crownStoreBase c

/-- The number of page p of a store in the order of R279, spares included. -/
def pageLin (st f p : Nat) : Nat :=
  match st with | 0 => 2080 + 264 * f + p | 1 => 2080 + 2112 + 132 * f + p | _ => p
def linTotal : Nat := 2080 + 2112 + 1056
/-- Store, facet and page of a number. -/
def linPage (l : Nat) : Nat × Nat × Nat :=
  if l < 2080 then (2, 0, l)
  else if l < 4192 then (0, (l - 2080) / 264, (l - 2080) % 264)
  else (1, (l - 4192) / 132, (l - 4192) % 132)

/-- SRC, store, facet and page of an on-die address. -/
def pageOf (a : Nat) : Option (Nat × Nat × Nat × Nat) :=
  match region a with
  | .fstore n => some (n / 8, 0, n % 8, (a - facetBase n) / 2048)
  | .code n => some (n / 8, 1, n % 8, (a - codeBase n) / 2048)
  | .crown c => some (c, 2, 0, (a - crownStoreBase c) / 2048)
  | _ => none

def integ (s : State) (c : Nat) : Integ := tget {} s.integ c
def setInteg (c : Nat) (x : Integ) (s : State) : State := { s with integ := tset {} s.integ c x }

/-- The spare that holds page number l of a store, if it is redirected (R276, R279). -/
def spareOf (x : Integ) (l : Nat) : Option Nat :=
  match x.redir.find? fun r => r.1 == l with
  | some r => some r.2
  | none => (x.test.filter fun t => t.1 == l).map (·.2)
/-! ### The pounce's copies in time (R277, R279) -/

/-- FCLK that a pounce copy takes: the most that R277 allows. DESIGN CHOICE, log entry 24. -/
def copyFclk : Nat := 96
/-- The test of a page has ended at FCLK `f`: the pounce waits for its interval, or is idle without PEN; TESTED advances. -/
def pounceIdle (c f : Nat) (s : State) : State :=
  let a := itgU c 0x40
  let s := setInteg c { integ s c with test := none, copy := none, due := f + rfld s (itgU c 0) 32 16 * usFclk } s
  rput a 0 32 (rfld s a 0 32 + 1) (rput a 60 3 (if rbit s (itgU c 0) 0 then 4 else 0) (rbitSet a 63 false s))
/-- A pounce copy switches when its time is over: the test follows the copy out, the copy back ends it. -/
def copySwitch (c : Nat) (s : State) : State :=
  match (integ s c).copy with
  | some f =>
    if s.fclk < f then s
    else if rfld s (itgU c 0x40) 60 3 = 3 then pounceIdle c f s
    else rput (itgU c 0x40) 60 3 2 (setInteg c { integ s c with copy := none } s)
  | none => s
def copiesTick (s : State) : State := (s.integ.map (·.1)).foldl (fun s c => copySwitch c s) s
/-- A crown reset restarts the pounce step in progress from its beginning (R267). -/
def copyRestart (c : Nat) (s : State) : State :=
  if (integ s c).copy.isSome then setInteg c { integ s c with copy := some (s.fclk + copyFclk) } s else s

/-- SPARE of a log entry: 0 for a page in place, n for spare n − 1 (R269). A spare that is itself redirected is followed. -/
def spareField (s : State) (a : Nat) : Nat :=
  match pageOf a with
  | some (c, st, f, p) =>
    match spareOf (integ s c) (pageLin st f p) with
    | some i => (spareOf (integ s c) (pageLin st f (storePages st + i))).getD i + 1
    | none => 0
  | none => 0

/-- The engine and SRC of an address. -/
def itgOf (a : Nat) : Nat × Nat :=
  match pageOf a with
  | some (c, st, _, _) => (c, st)
  | none => (16, 4)

/-- Corrected lanes of the words that a port reads are logged (R255). -/
def noteReads (port : Nat) (words : List Nat) (s : State) : State :=
  words.foldl (fun s w =>
    match s.raw.find? fun p => p.1 == w with
    | some (_, r) =>
      if r.bad.isSome then s else
      let (u, src) := itgOf w
      logEvents u (r.corr.map fun (p : Nat × Nat) => ⟨src, port, p.1, p.2, spareField s w, w, false, false⟩) s
    | none => s) s

/-- A read of plain memory through the shared port: it waits for the fills of the chunks it reads (R239, R243), and its reads are logged. -/
def memoryRead (a len : Nat) (s : State) : List Byte × State :=
  let s := (List.range (chunkOf (a + len) - chunkOf a + 1)).foldl (fun s i => if len ≤ i * 0x200000 - a % 0x200000 then s else settleChunk (a + i * 0x200000) s) s
  (readBytes s 2 a len, noteReads 2 (wordsIn a len) s)

/-- A word whose stored bits hold an uncorrectable lane: a read of it waits for a reconstruction (R262). -/
def wordBad (s : State) (w : Nat) : Bool := (s.raw.find? fun p => p.1 == w).any fun p => p.2.bad.isSome

/-! ### Reconstruction (R262 to R268) -/

/-- A word as the page code sees it: data, V, tag. -/
def wordSym (s : State) (w : Nat) : BitVec 130 :=
  BitVec.ofNat 130 (natAt s w 16 + b2n (s.vbits.contains w) * 2 ^ 128 + b2n (s.tags.contains w) * 2 ^ 129)

def putWordSym (w : Nat) (v : BitVec 130) (s : State) : State :=
  let s := poke w (natBytes 16 (v.toNat % 2 ^ 128)) s
  setVbits (sput s.vbits w (bit v 128)) (setTags (sput s.tags w (bit v 129)) (setRawWords (tdel s.raw w) s))

/-- The steward memory has no address in the map: RECONSTRUCTION numbers its pages from this address on. DESIGN CHOICE, log entry 23. -/
def stewardMem : Nat := 2 ^ 48
/-- A memory that carries the page code: an on-die store or a girdle memory of R284. -/
def isCoded (a : Nat) : Bool :=
  match region a with
  | .fstore _ | .code _ | .crown _ => true
  | .girdle o => decide (0x400000 ≤ o ∧ o < 0x800000) || decide (0x140000 ≤ o ∧ o < 0x1C0000)
      || decide (0x24000 ≤ o ∧ o < 0x40000) || decide (0x70000 ≤ o ∧ o < 0x80000) || isTimeMem a
  | _ => decide (stewardMem ≤ a ∧ a < stewardMem + 2048 * Config.girdlePages 4)

/-- The erased page positions: those named from outside and those whose stored bits are uncorrectable. -/
def erasedIn (s : State) (base : Nat) (outside : List (Fin 128)) : List Nat :=
  (List.range 128).filter fun k => outside.any (fun x => x.val == k) || wordBad s (base + 16 * k)

/-- What the page code describes of the erased words: the reads of the others leave S0 and S1 (R263). -/
def pageWords (s : State) (base : Nat) (es : List Nat) : List (Nat × BitVec 130) :=
  (List.range 128).map fun k =>
    let w := base + 16 * k
    let dev := tget 0 s.sideDev w
    (k, if es.contains k then wordSym s w ^^^ dev else dev)

/-- The log event of an erased word; where its bits failed outside the model, lane and SYND are free values. -/
def eraseEvent (port : Nat) (rebuilt : Bool) (w : Nat) (s : State) : State :=
  let (u, src) := itgOf w
  let (d, s) := match (s.raw.find? fun p => p.1 == w).bind fun p => p.2.bad with
    | some (l, sy) => ((l, sy), s)
    | none => let (v, s) := drawFree s; ((v.toNat % 16, v.toNat / 16 % 16), s)
  logEvents u [⟨src, port, d.1, d.2, spareField s w, w, true, rebuilt⟩] s

/-- The deviating words of a page. -/
def devWords (s : State) (base : Nat) : List Nat := (s.raw.filter fun p => decide (base ≤ p.1) && decide (p.1 < base + 2048)).map (·.1)

/-- Rebuild a page: whether it succeeded, and the state with the page reopened (R263, R264, R268). The 128 words are read and decoded; the
event of a rebuilt word meets REWR as the read found it. DEDUCED, log entry 23. -/
def reconstructPage (page port : Nat) (outside : List (Fin 128)) (sideBad : Bool) (s : State) : Bool × State :=
  let base := page * 2048
  let es := erasedIn s base outside
  let (u, _) := itgOf base
  let s := noteReads 5 (devWords s base) s
  if es.isEmpty then
    if sideBad then
      let (v, s) := drawFree s
      let s := logEvents u [⟨3, port, v.toNat % 34, v.toNat / 64 % 32, spareField s base, base, false, false⟩] s
      (true, (setSideDev (tclear s.sideDev base (base + 2048)) s))
    else (true, s)
  else
    let ok := if es.length ≤ 2 ∧ !sideBad then rebuild (pageWords s base es) es else none
    match ok with
    | some vs =>
      let s := (es.zip vs).foldl (fun s p =>
        let w := base + 16 * p.1
        let desc := wordSym s w ^^^ tget 0 s.sideDev w
        let t := (loggedAt w s).foldl (fun t a => rbitSet a 59 true t) (eraseEvent port true w s)
        let t := putWordSym w p.2 t
        setSideDev (tset 0 t.sideDev w (desc ^^^ p.2)) t) s
      (true, itgEvt u 2 (memSource base) s)
    | none =>
      let s := es.foldl (fun s k => eraseEvent port false (base + 16 * k) s) s
      let s := es.foldl (fun s k => putWordSym (base + 16 * k) 0 s) s
      (false, (setSideDev (tclear s.sideDev base (base + 2048)) s))

end Sys2Proof.Machine
end

