-- ==== Sys2Proof/Machine/FacetLand.lean ====
section
/-! DEFINITION. Results in flight (R38 to R42, R49): landing with the merge of R40, the accumulator rule of R102, writes to
system registers, shadows, the drain. -/
namespace Sys2Proof.Machine

/-- The places a landing writes: (space, first byte, past the last byte). -/
def landRange : Land → List (Nat × Nat × Nat)
  | .g r _ => if r = 0 then [] else [(0, r * 8, r * 8 + 8)]
  | .a r _ => [(1, r * 6, r * 6 + 6)]
  | .mem a b _ => [(3, a, a + b.length)]
  | .tas a r => (3, a, a + 1) :: (if r = 0 then [] else [(0, r * 8, r * 8 + 8)])
  | .mac i _ _ _ _ => [(2, i * 96, i * 96 + 96)]
  | .accPart i p _ => [(2, i * 96 + 32 * p, i * 96 + 32 * p + 32)]
  | .sys num lvl _ =>
    let l := if 1 ≤ num ∧ num ≤ 3 then lvl else 0
    [(4, (num * 4 + l) * 8, (num * 4 + l) * 8 + 8)]
  | .repCount _ => [(4, (5 * 4) * 8, (5 * 4) * 8 + 8)]
  | .w i _ => [(4, ((0x20 + i) * 4) * 8, ((0x20 + i) * 4) * 8 + 8)]
  | .k b i _ => [(5, (b * 16 + i) * 16, (b * 16 + i) * 16 + 16)]
  | .kclr b i => [(5, (b * 16 + i) * 16, (b * 16 + i) * 16 + 16)]

def rangesMeet (x y : List (Nat × Nat × Nat)) : Bool :=
  x.any fun p => y.any fun q => p.1 == q.1 && decide (p.2.1 < q.2.2) && decide (q.2.1 < p.2.2)

/-- Whether overlapping bytes are lost among results that land in one FCLK (R40). -/
def landsMeet : List Land → Bool
  | [] => false
  | x :: t => t.any (fun y => rangesMeet (landRange x) (landRange y)) || landsMeet t

/-- Masks of the writable bits of the system registers (R61, R62, R146, R147, R178, R197). -/
def xstMask : BitVec 64 := 0x3F03FF
def pcMask : BitVec 64 := 0x3FFF8
def lcMask : BitVec 64 := 0x7FFFF
def winMask : BitVec 64 := 0xFFFDFFFFFFFFFFF0

/-- A system move lands (R61 to R63, R123, R150, R157, R178, R197, R217). `lvl` is the level at which it issued. -/
def landSys (n num lvl : Nat) (v : BitVec 64) (s : State) : State :=
  let f := facet s n
  let put (g : Facet) : State := setFacet n g s
  let shadow (w : ShadowOf) (g : Facet) : State := put { g with shadows := f.shadows ++ [⟨2, w⟩] }
  match num with
  | 0 =>
    let keep := f.fs &&& ~~~(0x181 : BitVec 64)
    let keep := if bit (w1c s (fsReg n) v) 9 then setBit keep 9 false else keep
    shadow (.fs f.fs) { f with fs := keep ||| (v &&& 0x181) }
  | 1 => put { f with xpc := tset 0 f.xpc lvl (v &&& pcMask) }
  | 2 => put { f with xst := tset 0 f.xst lvl (v &&& xstMask) }
  | 3 => put { f with pbt := tset 0 f.pbt lvl (v &&& pcMask) }
  | 4 => put { f with arf := f.arf &&& ~~~(w1c s (arfReg n) (v &&& 0xFFFFFFFF)) }
  | 5 => put { f with repc := v &&& 0xFFFFFFFF0000FFFF }
  | 6 => shadow (.xvb f.xvb) { f with xvb := v &&& 0x3F001 }
  | 7 => shadow (.ctx f.ctx) { f with ctx := v &&& 0xFFF }
  | 8 => shadow (.holdmax f.holdmax) { f with holdmax := v &&& 0xFFFF }
  | _ =>
    if 0x10 ≤ num ∧ num ≤ 0x13 then put { f with lc := tset 0 f.lc (num - 0x10) (v &&& lcMask) }
    else if 0x14 ≤ num ∧ num ≤ 0x17 then put { f with ls := tset 0 f.ls (num - 0x14) (v &&& pcMask) }
    else if 0x18 ≤ num ∧ num ≤ 0x1B then put { f with le := tset 0 f.le (num - 0x18) (v &&& pcMask) }
    else if 0x20 ≤ num ∧ num ≤ 0x27 then
      shadow (.w (num - 0x20) (tget 0 f.w (num - 0x20))) { f with w := tset 0 f.w (num - 0x20) (v &&& winMask) }
    else intSysWrite n num v s

/-- One result lands; `s0` is the state in which the landings of the FCLK began (R102). DEDUCED, log entry 15. -/
def land1 (n : Nat) (s0 : State) (l : Land) (s : State) : State :=
  let f := facet s n
  match l with
  | .g r v => if r = 0 then s else setFacet n { f with g := tset 0 f.g r v } s
  | .a r v => setFacet n { f with a := tset 0 f.a r v } s
  | .mem a b t => writeWord (.facet (Fin.ofNat 128 n)) 1 a b t s
  | .tas a r =>
    let s := noteReads 0 [wordOf a] s
    let old := readByte s 1 a
    let s := writeWord (.facet (Fin.ofNat 128 n)) 1 a [1] false s
    if r = 0 then s else updFacet n (fun f => { f with g := tset 0 f.g r (if old = 0 then 0 else 1) }) s
  | .mac i k t b c =>
    let old := (tget 0 (facet s0 n).acc i).toNat
    setFacet n { f with acc := tset 0 f.acc i (BitVec.ofNat 768 (macLand k t old b.toNat c.toNat)) } s
  | .accPart i p v => setFacet n { f with acc := tset 0 f.acc i (setFld (tget 0 f.acc i) (256 * p) 256 v.toNat) } s
  | .sys num lvl v => landSys n num lvl v s
  | .w i v => landSys n (0x20 + i) 0 v s
  | .repCount v => setFacet n { f with repc := setFld f.repc 0 16 v.toNat } s
  | .k b i v =>
    setFacet n { f with k := tset {} f.k (kKey b i) v, shadows := f.shadows ++ [⟨2, .k b i (kReg f b i)⟩] } s
  | .kclr b i =>
    setFacet n { f with k := tset {} f.k (kKey b i) { kReg f b i with tag := false }, shadows := f.shadows ++ [⟨2, .k b i (kReg f b i)⟩] } s

/-- The results of one FCLK land, in issue order; FS.WS records lost bytes (R40). -/
def landAll (n : Nat) (ls : List Land) (s : State) : State :=
  let s' := ls.foldl (fun t l => land1 n s l t) s
  if landsMeet ls then noteHit (fsReg n) 9 true (updFacet n (fun f => { f with fs := setBit f.fs 9 true }) s') else s'

/-- What the loop-end logic keeps of the levels that landing moves write (R150). -/
def loopWas (f : Facet) (ls : List Land) : List LoopOld :=
  let writes (num : Nat) : Bool := ls.any fun x => match x with | .sys k _ _ => k == num | _ => false
  (List.range 4).filterMap fun l =>
    if writes (0x10 + l) || writes (0x14 + l) || writes (0x18 + l) then
      some ⟨b2n (writes (0x10 + l)), l, tget 0 f.lc l, tget 0 f.ls l, tget 0 f.le l⟩
    else none

/-- The start of a bundle: shadows and results move one bundle on, and the results due land (R39, R49). -/
def landDue (n : Nat) (s : State) : State :=
  let f := facet s n
  let fl := f.flights.map fun x => { x with left := x.left - 1 }
  let sh := (f.shadows.map fun x => { x with left := x.left - 1 }).filter fun x => x.left ≠ 0
  let due := (fl.filter fun x => x.left == 0).map (·.land)
  let s := setFacet n { f with flights := fl.filter (fun x => x.left ≠ 0), shadows := sh, lpWas := f.lpWas ++ loopWas f due } s
  landAll n due s

/-- The results that the next bundle's start lands. -/
def dueLands (f : Facet) : List Land := (f.flights.filter fun x => decide (x.left ≤ 1)).map (·.land)

/-- The drain of R42: empty bundles until no result is in flight; `d` counts them. -/
def drain : Nat → Nat → State → State
  | 0, _, s => s
  | fuel + 1, n, s => if (facet s n).flights.isEmpty then s else drain fuel n (landDue n s)

/-- A drain never needs more bundles than the longest latency (R38, R42). -/
def drainFacet (n : Nat) (s : State) : State := drain 16 n s
/-- The d of R185 and the d′ of R189: the first empty bundle stands in the FCLK of the boundary, and E1 or X1 is the FCLK of the last
landing. -/
def drainLen (f : Facet) : Nat := f.flights.foldl (fun d x => max d x.left) 0 - 1

end Sys2Proof.Machine
end

