-- ==== Sys2Proof/WellFormed.lean ====
section
/-! DEFINITION. Which commands are well formed: the operands that the rules give the command and no other. Register numbers, indexes
and codes are bounded by their types; what is left is checked here. -/
namespace Sys2Proof

/-- The operation classes of R92 that carry a type or size code in their opcode: the others have no such field, so that it is 0. -/
def hasTypeCode : OpKind → Bool
  | .nop | .br | .brc | .call | .ret | .loop | .rep | .twait | .ewait | .efclr | .eftst | .syscall | .retx | .brk | .kenter
  | .mfs | .mts | .sig | .mbxput | .mbxget | .kld | .kst | .kmov | .kbnd | .kmask | .kseal | .kunseal | .kget | .kclr | .lit => false
  | .vmulMac | .vmac | .vmsu | .vmacu | .vsad
  | .vmov | .vadd | .vsub | .vadds | .vsubs | .vmulAlu | .vfma | .vmin | .vmax | .vminu | .vmaxu | .vabs | .vneg | .vand | .vor | .vxor
  | .vandn | .vshl | .vshr | .vshru | .vcmpeq | .vcmplt | .vcmple | .vcmpltu | .vsel | .vcvt | .accst | .accsv | .accrs
  | .mov | .add | .sub | .and | .or | .xor | .shl | .shr | .min | .max | .cmpeq | .cmpne | .cmplt | .cmple | .lea | .movw | .tas
  | .mul | .mulh | .div | .rem | .fdiv | .fsqrt | .frcp | .frsqrt | .fexp2 | .flog2 | .fsin | .fcos | .crc | .extr | .ins | .clz | .popc
  | .rld | .rst | .radd | .rtas | .ldr | .stc | .bmove | .bfill | .bcrc | .bfir => true

/-- An operation word of a kind. -/
def opWordWf (k : OpKind) (o : OpW) : Bool := hasTypeCode k || o.tz == 0

def wellFormed (i : Instr) : Bool :=
  match i with
  | .resultLanding _ => true
  | .loopEndAction _ => true
  | .exceptionEntry _ => true
  | .holdOverrun _ => true
  | .twaitRelease _ => true
  | .ewaitRelease _ => true
  | .longOpDone _ => true
  | .remoteCompletion _ _ _ => true
  | .reservationExpiry _ => true
  | .facetHalted _ => true
  | .facCtlRun _ => true
  | .facCtlHalt _ => true
  | .pflush _ => true
  | .pflushDone _ => true
  | .facetRegisterBlockWrite _ off _ _ => decide (off % 8 = 0)
  | .vmulMac _ o => opWordWf .vmulMac o
  | .vmac _ o => opWordWf .vmac o
  | .vmsu _ o => opWordWf .vmsu o
  | .vmacu _ o => opWordWf .vmacu o
  | .vsad _ o => opWordWf .vsad o
  | .vmov _ o => opWordWf .vmov o
  | .vadd _ o => opWordWf .vadd o
  | .vsub _ o => opWordWf .vsub o
  | .vadds _ o => opWordWf .vadds o
  | .vsubs _ o => opWordWf .vsubs o
  | .vmulAlu _ o => opWordWf .vmulAlu o
  | .vfma _ o => opWordWf .vfma o
  | .vmin _ o => opWordWf .vmin o
  | .vmax _ o => opWordWf .vmax o
  | .vminu _ o => opWordWf .vminu o
  | .vmaxu _ o => opWordWf .vmaxu o
  | .vabs _ o => opWordWf .vabs o
  | .vneg _ o => opWordWf .vneg o
  | .vand _ o => opWordWf .vand o
  | .vor _ o => opWordWf .vor o
  | .vxor _ o => opWordWf .vxor o
  | .vandn _ o => opWordWf .vandn o
  | .vshl _ o => opWordWf .vshl o
  | .vshr _ o => opWordWf .vshr o
  | .vshru _ o => opWordWf .vshru o
  | .vcmpeq _ o => opWordWf .vcmpeq o
  | .vcmplt _ o => opWordWf .vcmplt o
  | .vcmple _ o => opWordWf .vcmple o
  | .vcmpltu _ o => opWordWf .vcmpltu o
  | .vsel _ o => opWordWf .vsel o
  | .vcvt _ o => opWordWf .vcvt o
  | .accst _ o => opWordWf .accst o
  | .accsv _ o => opWordWf .accsv o
  | .accrs _ o => opWordWf .accrs o
  | .mov _ o => opWordWf .mov o
  | .add _ o => opWordWf .add o
  | .sub _ o => opWordWf .sub o
  | .and _ o => opWordWf .and o
  | .or _ o => opWordWf .or o
  | .xor _ o => opWordWf .xor o
  | .shl _ o => opWordWf .shl o
  | .shr _ o => opWordWf .shr o
  | .min _ o => opWordWf .min o
  | .max _ o => opWordWf .max o
  | .cmpeq _ o => opWordWf .cmpeq o
  | .cmpne _ o => opWordWf .cmpne o
  | .cmplt _ o => opWordWf .cmplt o
  | .cmple _ o => opWordWf .cmple o
  | .lea _ o => opWordWf .lea o
  | .movw _ o => opWordWf .movw o
  | .tas _ o => opWordWf .tas o
  | .mul _ o => opWordWf .mul o
  | .mulh _ o => opWordWf .mulh o
  | .div _ o => opWordWf .div o
  | .rem _ o => opWordWf .rem o
  | .fdiv _ o => opWordWf .fdiv o
  | .fsqrt _ o => opWordWf .fsqrt o
  | .frcp _ o => opWordWf .frcp o
  | .frsqrt _ o => opWordWf .frsqrt o
  | .fexp2 _ o => opWordWf .fexp2 o
  | .flog2 _ o => opWordWf .flog2 o
  | .fsin _ o => opWordWf .fsin o
  | .fcos _ o => opWordWf .fcos o
  | .crc _ o => opWordWf .crc o
  | .extr _ o => opWordWf .extr o
  | .ins _ o => opWordWf .ins o
  | .clz _ o => opWordWf .clz o
  | .popc _ o => opWordWf .popc o
  | .rld _ o => opWordWf .rld o
  | .rst _ o => opWordWf .rst o
  | .radd _ o => opWordWf .radd o
  | .rtas _ o => opWordWf .rtas o
  | .ldr _ o => opWordWf .ldr o
  | .stc _ o => opWordWf .stc o
  | .bmove _ o => opWordWf .bmove o
  | .bfill _ o => opWordWf .bfill o
  | .bcrc _ o => opWordWf .bcrc o
  | .bfir _ o => opWordWf .bfir o
  | .nop _ o => opWordWf .nop o
  | .br _ o => opWordWf .br o
  | .brc _ o => opWordWf .brc o
  | .call _ o => opWordWf .call o
  | .ret _ o => opWordWf .ret o
  | .loop _ o => opWordWf .loop o
  | .rep _ o => opWordWf .rep o
  | .twait _ o => opWordWf .twait o
  | .ewait _ o => opWordWf .ewait o
  | .efclr _ o => opWordWf .efclr o
  | .eftst _ o => opWordWf .eftst o
  | .syscall _ o => opWordWf .syscall o
  | .retx _ o => opWordWf .retx o
  | .brk _ o => opWordWf .brk o
  | .kenter _ o => opWordWf .kenter o
  | .mfs _ o => opWordWf .mfs o
  | .mts _ o => opWordWf .mts o
  | .sig _ o => opWordWf .sig o
  | .mbxput _ o => opWordWf .mbxput o
  | .mbxget _ o => opWordWf .mbxget o
  | .kld _ o => opWordWf .kld o
  | .kst _ o => opWordWf .kst o
  | .kmov _ o => opWordWf .kmov o
  | .kbnd _ o => opWordWf .kbnd o
  | .kmask _ o => opWordWf .kmask o
  | .kseal _ o => opWordWf .kseal o
  | .kunseal _ o => opWordWf .kunseal o
  | .kget _ o => opWordWf .kget o
  | .kclr _ o => opWordWf .kclr o
  | .lit _ _ => true
  | .intSourceEvent _ _ => true
  | .levelFilterSettle _ _ => true
  | .batchTimerExpiry _ _ => true
  | .intClaim _ _ => true
  | .intEoi _ _ => true
  | .intSetp _ _ => true
  | .intClrp _ _ => true
  | .intScfgWrite _ _ _ => true
  | .fillDone => true
  | .reconstruction page _ _ _ => decide (page < 2 ^ 37)
  | .itgScrubStart _ _ => true
  | .scrubPassDone _ => true
  | .itgRetireStart _ _ => true
  | .retirementDone _ => true
  | .pounceIntervalExpiry _ => true
  | .pounceTestDone _ _ => true
  | .itgTctlGo _ _ => true
  | .movCtlStart _ _ => true
  | .burstIssue _ _ => true
  | .transferCompletion _ => true
  | .movCtlStop _ => true
  | .transferEndEarly _ => true
  | .channelDrainHeld _ => true
  | .channelResume _ => true
  | .drainTimeout _ => true
  | .seamReplay _ => true
  | .timeStepApply => true
  | .ratePoint => true
  | .timRateWrite _ => true
  | .steparm => true
  | .checkWord _ _ => true
  | .ppsEdge _ => true
  | .ppsMiss => true
  | .storeTimeSecond => true
  | .ppsOutFall => true
  | .ptpSample _ _ => true
  | .holdoverEntry => true
  | .launchTimerFire _ => true
  | .timLctlWrite _ _ => true
  | .timLperWrite _ _ => true
  | .hatbandDelivery _ _ => true
  | .hatSwaparm => true
  | .hatbandSwap => true
  | .hatCopy => true
  | .hatCopyDone => true
  | .fabricEventReceive _ => true
  | .fabricEventAct _ => true
  | .vioSample _ _ => true
  | .groupEnableWrite _ _ => true
  | .cellEnable _ _ _ => true
  | .flushrx _ => true
  | .flushtx _ => true
  | .padFault _ => true
  | .txWindowWrite _ bytes _ => [1, 2, 4, 8].contains bytes.length
  | .rxWindowRead _ len _ => [1, 2, 4, 8].contains len
  | .rxByteReceived _ _ => true
  | .burstEnd _ => true
  | .launchPulseEnd _ => true
  | .launchComparator _ _ => true
  | .padEdge _ _ _ => true
  | .prtSenseStart _ _ => true
  | .measurementDone _ _ => true
  | .attachChange _ => true
  | .shiftEntryEnd _ _ => true
  | .feedSwitchOn _ _ _ => true
  | .feedSwitchOff _ _ _ => true
  | .feedSample _ _ _ _ => true
  | .hardLimitTrip _ _ => true
  | .feedRetry _ _ => true
  | .controlWordIssue _ _ => true
  | .txb _ _ _ => true
  | .rxb _ _ _ => true
  | .shift _ _ _ => true
  | .span _ _ _ => true
  | .padset _ _ _ => true
  | .crd _ _ _ _ => true
  | .cwr _ _ _ _ => true
  | .flush _ _ _ => true
  | .rstamp _ _ => true
  | .rsend _ _ _ => true
  | .rput _ _ => true
  | .rclr _ => true
  | .cmdb _ _ => true
  | .tmr _ _ => true
  | .evmask _ _ => true
  | .attn _ => true
  | .hsig _ => true
  | .parkWake _ => true
  | .microTimerExpiry _ => true
  | .blkTstart _ => true
  | .blkTstop _ => true
  | .blkWheelWrite _ _ => true
  | .wheelChange _ => true
  | .blkCopy _ => true
  | .blkCopyDone _ => true
  | .blkSwaparm _ => true
  | .blkSwapPoint _ => true
  | .reportStart => true
  | .reportPublish _ => true
  | .fabricReportReceive _ => true
  | .sesCopy => true
  | .sesCopyDone => true
  | .sesSwaparm => true
  | .routeSwap => true
  | .sesCmdPush _ _ => true
  | .contextWrite _ off bytes _ => decide (off + bytes.length ≤ 256) && !bytes.isEmpty
  | .endpointAttach _ _ _ _ => true
  | .endpointDetach _ => true
  | .sessionHoldExpiry _ => true
  | .packageLost _ => true
  | .queueEnable _ _ => true
  | .queueDisable _ _ => true
  | .mbxSqtail _ _ => true
  | .mbxCqhead _ _ => true
  | .commandFetch _ _ _ => true
  | .completionPost _ _ => true
  | .interruptTimeExpiry _ => true
  | .asyncEventPost _ _ => true
  | .heartbeat => true
  | .commandTimeout _ => true
  | .requestTake _ => true
  | .responseForward _ => true
  | .getVersion _ => true
  | .getStatus _ => true
  | .eventEnable _ => true
  | .abort _ => true
  | .resetCmd _ => true
  | .authChallenge _ => true
  | .authOpen _ => true
  | .authClose _ => true
  | .principalSessionExpiry _ => true
  | .nonceExpiry _ => true
  | .crownPower _ => true
  | .domainPower _ => true
  | .standby _ => true
  | .powerStatus _ => true
  | .sensors _ => true
  | .timeGet _ => true
  | .timeSource _ => true
  | .timeStep _ => true
  | .timeRate _ => true
  | .ptpConfig _ => true
  | .ptpStatus _ => true
  | .timerSet _ => true
  | .hatWrite _ => true
  | .hatSwap _ => true
  | .groupSet _ => true
  | .probe _ => true
  | .cable _ => true
  | .bind _ => true
  | .unbind _ => true
  | .wheel _ => true
  | .threadStatus _ => true
  | .threadRestart _ => true
  | .feedSet _ => true
  | .feedStatus _ => true
  | .sesConfig _ => true
  | .sesInfo _ => true
  | .sesRing _ => true
  | .sesClose _ => true
  | .sesList _ => true
  | .facetLoad _ => true
  | .facetRun _ => true
  | .facetHalt _ => true
  | .facetReport _ => true
  | .facetRegs _ => true
  | .crownMode _ => true
  | .scrub _ => true
  | .patrol _ => true
  | .patrolScrub => true
  | .logRead _ => true
  | .retire _ => true
  | .testWord _ => true
  | .dramTouch _ => true
  | .dramRelease _ => true
  | .capGrant _ => true
  | .capRevoke _ => true
  | .movBind _ => true
  | .windowOpen _ => true
  | .windowClose _ => true
  | .capQuery _ => true
  | .fabJoin _ => true
  | .fabLeave _ => true
  | .fabStatus _ => true
  | .fabConfig _ => true
  | .fabWindow _ => true
  | .fabStandby _ => true
  | .fabExport _ => true
  | .fabImport _ => true
  | .consList _ => true
  | .consAuth _ => true
  | .consLife _ => true
  | .consUse _ => true
  | .consPolicy _ => true
  | .metrStatus _ => true
  | .metrLoad _ => true
  | .metrSeal _ => true
  | .metrBreak _ => true
  | .metrAudit _ => true
  | .ldgRead _ => true
  | .ldgAppend _ => true
  | .ldgStatus _ => true
  | .updStage _ => true
  | .updApply _ => true
  | .updStatus _ => true
  | .updDiscard _ => true
  | .ledgerWrite _ _ _ _ => true
  | .ledgerRead _ _ _ => true
  | .lineCommit _ => true
  | .lineCommitDone _ => true
  | .powerFailWarning => true
  | .powerFailWarningEnd => true
  | .dbgchal => true
  | .dbgresp _ _ sig => sig.length == 96
  | .jtagInstruction _ => true
  | .trstAssert => true
  | .hostWindowRequest write o len data unc => let n := if write then data.length else len
    decide (0 < n) && decide (n ≤ 4096) && decide (o + n ≤ 2 ^ 34) && !(write && unc)
  | .functionLevelReset _ => true
  | .linkDown => true
  | .perst => true
  | .frameReceive _ _ => true
  | .frameTransmit _ => true
  | .fabricRequestReceive _ _ => true
  | .fabricResponseReceive _ => true
  | .fabricRetransmit _ _ => true
  | .fabricHeartbeat => true
  | .dramPatrol _ _ _ => true
  | .pwrDctlWrite _ _ => true
  | .domainSwitchDone _ => true
  | .crownP2Entry _ => true
  | .p2EntryTimeout _ => true
  | .crownWake _ => true
  | .crownWakeDone _ => true
  | .standbyEntry => true
  | .packageWake _ _ => true
  | .powerOn => true
  | .rstNAssert => true
  | .refclkLoss => true
  | .pllLockLoss => true
  | .sensorSample _ _ => true
  | .supplyTrip => true
  | .thermalTrip => true
  | .watchdogExpiry => true
  | .watchdogKick => true
  | .packageReset cause => decide (1 ≤ cause.toNat) && decide (cause.toNat ≤ 10)
  | .boot _ => true
  | .counterClearWrite a => decide (a % 8 = 0) && decide (a < 2 ^ 48)
  | .registerWrite a _ _ => decide (a % 8 = 0) && decide (a < 2 ^ 48)
  | .macLinkUp _ => true
  | .macLinkDown _ => true
  | .rsFecLossOfLock _ => true
  | .pcieLinkUp => true
  | .speedOrWidthChange _ _ => true
  | .completionTimeout _ => true
  | .serdesReferenceLoss _ => true
  | .serdesReferenceReturn _ => true
  | .txFifoByteLeaves _ => true
  | .padFaultEnd _ => true
  | .pfdFmeasRead _ _ => true
  | .msiXMaskClear f vec => decide (vec.val < if f = 0 then 48 else 16)
  | .freedIdentityReturn _ => true
  | .ptpSyncSend _ => true

end Sys2Proof
end

