-- ==== Sys2Proof/Machine/FacetIssue.lean ====
section
/-! DEFINITION. Issue of a facet bundle (R32 to R59, R70 to R135, R137 to R163, R188 to R196, R412 to R414): what each
operation puts in flight and does at once, retirement, the predictor, RETX. -/
namespace Sys2Proof.Machine

/-- DEDUCED, log entry 14. -/
def putFlight (n : Nat) (l : Nat) (x : Land) (s : State) : State :=
  updFacet n (fun f => { f with flights := f.flights ++ [⟨l, x⟩] }) s

/-- The latency of an operation (R38). -/
def latency (k : OpKind) : Nat :=
  match opClass k with
  | 0 => 4
  | 1 => 2
  | 3 => match k with
    | .div | .rem | .fdiv | .fsqrt => 16
    | _ => 6
  | _ => 1

/-- The landing of a scalar or vector result at a destination specifier (R73, R75 to R79, R84). An A register takes the low 48 bits of the value
that a G register would take, extended by z[2] from the operation's size. DESIGN CHOICE, log entry 80. -/
def destLands (f : Facet) (x : BitVec 16) (d : DT) (v : Nat) : List Land :=
  match spMode x with
  | 1 => match d with
    | .sc sz _ uns =>
      if spFile x = 0 then [.g (if spReg x = 0 then 0 else gKey f (spReg x)) (scExt sz uns v)]
      else [.a (aKey f (spReg x)) ((scExt sz uns v).setWidth 48)]
    | .vec _ => []
  | _ =>
    let segs := segments f x d
    match d with
    | .sc sz _ _ => segs.map fun p => .mem p.1 (natBytes sz v) false
    | .vec _ => (segs.zip [0, 1]).map fun p => .mem p.1.1 (natBytes 16 (v / 2 ^ (128 * p.2))) false

/-- A result for a G register named by a specifier. -/
def gLand (f : Facet) (x : BitVec 16) (v : BitVec 64) : Land := .g (if spReg x = 0 then 0 else gKey f (spReg x)) v

/-- FEAT0 to FEAT7 (R64, R136, R236). DESIGN CHOICE, log entry 67. -/
def featRead (s : State) (n i : Nat) : BitVec 64 :=
  match i with
  | 0 => BitVec.ofNat 64 (0x1024 * 2 ^ 48 + 0xB0 * 2 ^ 40 + s.ident.grade.toNat * 2 ^ 24 + dieOfCrown (crownOf n) * 2 ^ 8 + n)
  | 1 => 0x1006020402010302
  | 2 => 0x020001004010420B
  | 3 => BitVec.ofNat 64 (b2n (s.locks.facets.contains n) * 2 ^ 12 + b2n (rbit s (crownReg (crownOf n) 0) 0) * 2 ^ 11 + 0x77F)
  | 4 => 0x100440100040FFFF
  | 5 => 0x0000000004020207
  | _ => 0

/-- What an MFS of a system register reads when it issues (R49, R59, R132, R217). -/
def sysRead (s : State) (n num : Nat) : BitVec 64 :=
  let f := facet s n
  let l := fsLVL f.fs
  match num with
  | 0 => f.fs
  | 1 => tget 0 f.xpc l
  | 2 => tget 0 f.xst l
  | 3 => tget 0 f.pbt l
  | 4 => f.arf
  | 5 => f.repc
  | 6 => f.xvb
  | 7 => f.ctx
  | 8 => f.holdmax
  | _ =>
    if 0x10 ≤ num ∧ num ≤ 0x13 then tget 0 f.lc (num - 0x10)
    else if 0x14 ≤ num ∧ num ≤ 0x17 then tget 0 f.ls (num - 0x14)
    else if 0x18 ≤ num ∧ num ≤ 0x1B then tget 0 f.le (num - 0x18)
    else if 0x20 ≤ num ∧ num ≤ 0x27 then tget 0 f.w (num - 0x20)
    else if 0x30 ≤ num ∧ num ≤ 0x37 then featRead s n (num - 0x30)
    else intSysRead s n num

/-! ### The predictor (R52 to R57) -/

/-- The key of the lowest-numbered matching entry of the key table (R52). -/
def predKey (f : Facet) : Option (BitVec 32) :=
  (List.range 16).findSome? fun i =>
    let k := tget 0 f.pkey i
    if bit k 63 && fld k 48 12 == fld (effCtx f) 0 12 then some (k.setWidth 32) else none
def predOn (f : Facet) : Bool := !fsSTRICT (effFs f) && (predKey f).isSome && !bit f.ctl 2

/-- The set of a branch bundle (R53). DESIGN CHOICE, log entry 11. -/
def btbSet (key : BitVec 32) (pc : BitVec 15) : Nat :=
  let x : BitVec 15 := pc ^^^ key.setWidth 15
  ((x.setWidth 10) ^^^ (((x >>> 10).setWidth 10) <<< 5) ^^^ ((key >>> 16).setWidth 10)).toNat

/-- Resolve a branch (R54, R56): train or allocate its entry, note whether its target was predicted, count what the
wrong path discards (a free count of at most the 32 operations of the fetch buffer). How R54's training runs is a DESIGN CHOICE, log entry 11. -/
def resolveBranch (n : Nat) (taken : Bool) (target : BitVec 15) (s : State) : State :=
  let f := facet s n
  let (d, s) := drawFree s
  let l := fsLVL f.fs
  match predKey f with
  | some key =>
    if !predOn f then
      updFacet n (fun f => { f with predTaken := tset false f.predTaken l false, discard := if taken then f.discard + BitVec.ofNat 64 (d.toNat % 33) else f.discard }) s
    else
      let b := 2 * btbSet key f.pc
      let c := (effCtx f).setWidth 12
      let hit (w : Nat) : Bool := let e := tget {} f.btb (b + w); e.v && e.ctx == c && e.idx == f.pc
      let way : Option Nat := if hit 0 then some 0 else if hit 1 then some 1 else none
      let e : Btb := match way with | some w => tget {} f.btb (b + w) | none => {}
      let said := way.isSome && decide (2 ≤ e.ctr.toNat)
      let right := said == taken && (!taken || e.target == target)
      let f := { f with predTaken := tset false f.predTaken l (said && taken && e.target == target),
                        discard := if right then f.discard else f.discard + BitVec.ofNat 64 (d.toNat % 33) }
      match way with
      | some w =>
        let ctr : BitVec 2 := if taken then (if e.ctr = 3 then 3 else e.ctr + 1) else (if e.ctr = 0 then 0 else e.ctr - 1)
        setFacet n { f with btb := tset {} f.btb (b + w) { e with ctr := ctr, target := if taken then target else e.target } } s
      | none =>
        if taken then
          let w := if !(tget {} f.btb b).v then 0 else if !(tget {} f.btb (b + 1)).v then 1 else b2n (tget {} f.btb b).lru
          let old := tget {} f.btb b
          let btb := tset {} f.btb (b + w) { v := true, ctx := c, idx := f.pc, target := target, ctr := (d >>> 8).setWidth 2 }
          let e0 := if w = 0 then tget {} btb b else old
          setFacet n { f with btb := tset {} btb b { e0 with lru := w == 0 } } s
        else setFacet n f s
  | none =>
    updFacet n (fun f => { f with predTaken := tset false f.predTaken l false, discard := if taken then f.discard + BitVec.ofNat 64 (d.toNat % 33) else f.discard }) s

/-- A taken branch (R46): the target into PBT of the level, three delay bundles. -/
def takeBranch (n : Nat) (target : BitVec 15) (s : State) : State :=
  let s := resolveBranch n true target s
  updFacet n (fun f => { f with fs := setFld f.fs 4 2 3, pbt := tset 0 f.pbt (fsLVL f.fs) (target.setWidth 64 <<< 3) }) s

def pushRs (n : Nat) (v : BitVec 15) (s : State) : State :=
  updFacet n (fun f =>
    let t := f.top + 1
    { f with top := t, rstack := tset 0 f.rstack t.toNat v, depth := min (f.depth + 1) 16 }) s
def popRs (n : Nat) (s : State) : BitVec 15 × State :=
  let f := facet s n
  (tget 0 f.rstack f.top.toNat, setFacet n { f with top := f.top - 1, depth := f.depth - 1 } s)

/-- The operations of the bundle at an operation index of the code store, by the STOP bits (R32); at most 8. -/
def bundleLenAt (s : State) (n : Nat) (idx : BitVec 15) : Nat :=
  let stop (i : Nat) : Bool := (byteAt s (codeBase n + 8 * (idx + BitVec.ofNat 15 i).toNat + 7)).getLsbD 7
  match (List.range 8).find? stop with
  | some i => i + 1
  | none => 8

/-- The index after `k` more bundles in program order. -/
def skipBundles (s : State) (n : Nat) : Nat → BitVec 15 → BitVec 15
  | 0, i => i
  | k + 1, i => skipBundles s n k (i + BitVec.ofNat 15 (bundleLenAt s n i))

/-! ### What each operation does when its bundle issues -/

/-- The post-modify updates of an operation's specifiers, landing one bundle later (R71). -/
def opUpdates (f : Facet) (o : Op) : List Land :=
  let r := roles o.kind
  let one (r : Role) (x : BitVec 16) (i : Nat) : List Land :=
    if isMemRole r && isMemSpec x && !(r = .pSrc || r = .pDst) then
      (updates f x (operandDT o.kind o.w i)).map fun p => .a (aKey f p.1) p.2 else []
  one r.1 o.w.a 0 ++ one r.2.1 o.w.b 1 ++ one r.2.2 o.w.c 2

/-- Results in flight of a vector MAC, vector ALU or accumulator transfer (R100 to R107). -/
def vectorLands (s : State) (f : Facet) (lits : List (BitVec 48)) (o : Op) : List Land :=
  let raw := rawOperand s f lits o
  let t := o.w.tz.toNat
  let accNo := spReg o.w.b
  let acc := (tget 0 f.acc accNo).toNat
  match o.kind with
  | .vmulMac | .vmac | .vmsu | .vmacu | .vsad =>
    [.mac (spReg o.w.a) o.kind t (BitVec.ofNat 256 (raw 1)) (BitVec.ofNat 256 (raw 2))]
  | .vcvt => destLands f o.w.a (.vec t) (vecCvt t (ctlC o &&& 7).toNat ((ctlC o >>> 3) &&& 3).toNat (raw 0) (raw 1))
  | .accst => destLands f o.w.a (.vec t) (accStore t acc (ctlC o))
  | .accsv => destLands f o.w.a (.vec t) (acc / 2 ^ (256 * (ctlC o).toNat) % 2 ^ 256)
  | .accrs => [.accPart (spReg o.w.a) (ctlC o).toNat (BitVec.ofNat 256 (raw 1))]
  | k =>
    let w := 8 * laneBytes t
    let a := match k with | .vfma | .vsel => raw 0 | _ => 0
    let c := match k with | .vmov | .vabs | .vneg => 0 | _ => raw 2
    destLands f o.w.a (.vec t)
      (fromLanes w (256 / w) fun j => laneAlu k t w (lane w a j) (lane w (raw 1) j) (lane w c j))

/-- Results in flight of a scalar, address or special operation (R108 to R115). -/
def scalarLands (s : State) (f : Facet) (lits : List (BitVec 48)) (o : Op) : List Land :=
  let raw := rawOperand s f lits o
  let d := operandDT o.kind o.w 0
  match o.kind with
  | .lea => match segments f o.w.b (.sc 8 false true) with
    | p :: _ => if spFile o.w.a = 0 then [gLand f o.w.a (BitVec.ofNat 64 p.1)] else [.a (aKey f (spReg o.w.a)) (BitVec.ofNat 48 p.1)]
    | [] => []
  | .movw => [.w (ctlC o).toNat (BitVec.ofNat 64 (gSpec f o.w.b) &&& winMask)]
  | .tas => match segments f o.w.b d with
    | p :: _ => [.tas p.1 (if spReg o.w.a = 0 then 0 else gKey f (spReg o.w.a))]
    | [] => []
  | .crc => [gLand f o.w.a (BitVec.ofNat 64 (scalarAlu .crc d.size true (gSpec f o.w.a) (raw 1) 0 (ctlC o)))]
  | k =>
    match d with
    | .sc sz _ uns =>
      let a := if k = .ins then raw 0 else 0
      let c := if (roles k).2.2 = .src then raw 2 else 0
      destLands f o.w.a d (scalarAlu k sz uns a (raw 1) c (ctlC o))
    | .vec _ => []

/-- An issued remote operation (R119). -/
def issueRemote (s0 : State) (n : Nat) (f : Facet) (o : Op) (s : State) : State :=
  let sz := remoteSize o.w.c
  let a := match segments f o.w.a (.sc sz false true) with | p :: _ => p.1 | [] => 0
  let i := remoteN o
  updFacet n (fun g => { g with
    arf := setBit (setBit g.arf i false) (16 + i) false,
    remotes := g.remotes ++ [⟨i, o.kind, sz, gaSpec f o.w.b % 2 ^ 48, a, readBytes s0 1 a sz,
      capPerm (effK f (kdOf o)).cap, false⟩] }) s

/-- The capability operations (R134, R172, R174, R175). -/
def capLands (s : State) (f : Facet) (lits : List (BitVec 48)) (o : Op) : List Land :=
  let kb := fsKB f.fs
  let ks := effK f (ksOf o)
  let kt := effK f (ktOf o)
  let ga := gSpec f o.w.a
  match o.kind with
  | .kld => match segments f o.w.b (.sc 16 false true) with
    | p :: _ =>
      let lc := capHas (effK f (wKsel (effW f (spWin o.w.b)))).cap permLC
      [.k kb (kdOf o) ⟨BitVec.ofNat 128 (rawOperand s f lits o 1), readTag s p.1 && lc⟩]
    | [] => []
  | .kst => match segments f o.w.a (.sc 16 false true) with
    | p :: _ => [.mem p.1 (natBytes 16 ks.cap.toNat) ks.tag]
    | [] => []
  | .kmov => [.k kb (kdOf o) ks]
  | .kbnd => [.k kb (kdOf o) ⟨setFld (setFld ks.cap 0 48 ga) 48 32 (gSpec f o.w.b), true⟩]
  | .kmask => [.k kb (kdOf o) ⟨setFld ks.cap 80 16 (capPerm ks.cap &&& (ga % 2 ^ 16)), true⟩]
  | .kseal => match sealType s kt ga permSEAL with
    | .ok t => [.k kb (kdOf o) ⟨setFld ks.cap 96 16 t, true⟩]
    | .error _ => []
  | .kunseal => [.k kb (kdOf o) ⟨setFld ks.cap 96 16 0, true⟩]
  | .kclr => [.kclr kb (kdOf o)]
  | .kget =>
    let v : Nat := match ktOf o with
      | 0 => capBase ks.cap | 1 => capLen ks.cap | 2 => capPerm ks.cap | 3 => capOtype ks.cap
      | 4 => capPrin ks.cap | 5 => capEpoch ks.cap | _ => b2n ks.tag
    [gLand f o.w.a (BitVec.ofNat 64 v)]
  | _ => []

/-- The control and system operations (R46, R133, R137 to R162, R192 to R196, R412 to R414). -/
def doControl (s0 : State) (n : Nat) (f : Facet) (lits : List (BitVec 48)) (len : Nat) (o : Op) (s : State) : State :=
  let raw := rawOperand s0 f lits o
  let next := f.pc + BitVec.ofNat 15 len
  match o.kind with
  | .br => match branchTarget f lits o.w.b with | .ok t => takeBranch n t s | .error _ => s
  | .brc =>
    let holds := gSpec f o.w.a == 1
    match branchTarget f lits o.w.b with
    | .ok t => if holds != (ctlC o == 1) then takeBranch n t s else resolveBranch n false t s
    | .error _ => s
  | .call =>
    if ctlC o = 1 then pushRs n (BitVec.ofNat 15 (gSpec f o.w.b / 8)) s
    else match branchTarget f lits o.w.b with
      | .ok t => takeBranch n t (pushRs n (skipBundles s0 n 3 next) s)
      | .error _ => s
  | .ret =>
    if ctlC o = 2 then putFlight n 1 (gLand f o.w.a (BitVec.ofNat 64 f.depth)) s
    else
      let (v, s) := popRs n s
      if ctlC o = 0 then takeBranch n v s else putFlight n 1 (gLand f o.w.a (v.setWidth 64 <<< 3)) s
  | .loop =>
    let b := spImm o.w.b
    let l := (b >>> 10).toNat
    let start := f.pc + (b &&& 0x3FF).setWidth 15
    let cnt := if raw 0 = 0 then 65536 else raw 0
    updFacet n (fun g => { g with
      loopOld := g.loopOld ++ [⟨2, l, tget 0 g.lc l, tget 0 g.ls l, tget 0 g.le l⟩],
      ls := tset 0 g.ls l (start.setWidth 64 <<< 3),
      le := tset 0 g.le l ((start + (ctlC o).setWidth 15).setWidth 64 <<< 3),
      lc := tset 0 g.lc l (BitVec.ofNat 64 (fsLVL f.fs * 2 ^ 17 + cnt)) }) s
  | .rep =>
    let c := if (ctlC o).getLsbD 11 then fld f.repc 0 16 else (ctlC o &&& 0x7FF).toNat
    let c := if c = 0 then 65536 else c
    updFacet n (fun g => { g with
      repc := setFld (setFld g.repc 32 17 c) 49 15 next.toNat, repeating := true, repFirst := true }) s
  | .twait => updFacet n (fun g => { g with wait := .time s.fclk (BitVec.ofNat 64 (raw 1)) (spReg o.w.a) }) s
  | .ewait => updFacet n (fun g => { g with wait := .event s.fclk (BitVec.ofNat 16 (raw 1)) (ctlC o == 1) (spReg o.w.a) }) s
  | .efclr => updFacet n (fun g => { g with ef := g.ef &&& ~~~(BitVec.ofNat 16 (raw 1)) }) s
  | .eftst =>
    let m := BitVec.ofNat 16 (raw 1)
    let s := putFlight n 1 (gLand f o.w.a ((f.ef &&& m).setWidth 64)) s
    if ctlC o = 1 then updFacet n (fun g => { g with ef := g.ef &&& ~~~m }) s else s
  | .syscall => updFacet n (fun g => { g with due := some .syscall }) s
  | .brk =>
    if ctlC o = 1 && !s.locks.facets.contains n then updFacet n (fun g => { g with ctl := setBit g.ctl 0 false }) s
    else updFacet n (fun g => { g with due := some .brk }) s
  | .kenter => updFacet n (fun g => { g with due := some (.kenter (effK f (kdOf o)) (effK f (ksOf o))) }) s
  | .mfs =>
    let num := sysNum o
    let s := (destLands f o.w.a (.sc 8 false true) (sysRead s0 n num).toNat).foldl (fun s l => putFlight n 1 l s) s
    if num = 0x40 then claim n false s else if num = 0x41 then claim n true s else s
  | .mts =>
    let v := BitVec.ofNat 64 (raw 1)
    putFlight n 1 (if sysNum o = 5 && f.repeating then .repCount (v.setWidth 16) else .sys (sysNum o) (fsLVL f.fs) v) s
  | .sig => raiseHat (0x0800 + 16 * n + (ctlC o).toNat) s
  | .mbxput =>
    if f.credits ≤ f.credNew then putFlight n 1 (gLand f o.w.a 0) s
    else
      let s := updFacet n (fun g => { g with
        credits := g.credits - 1,
        reqRing := g.reqRing ++ [(BitVec.ofNat 256 (raw 1), effK f (kdOf o))] }) s
      let s := setRaw stewardCtl (128 + n) true s
      putFlight n 1 (gLand f o.w.a 1) s
  | .mbxget =>
    match f.staging.take (f.staging.length - f.respNew) with
    | [] => putFlight n 1 (gLand f o.w.a 0) s
    | e :: _ =>
      let t := f.staging.drop 1
      let s := (destLands f o.w.b (.vec 0) e.toNat).foldl (fun s l => putFlight n 1 l s) s
      let s := putFlight n 1 (gLand f o.w.a 1) s
      let s := updFacet n (fun g => { g with staging := t }) s
      if t.isEmpty then setRaw n 48 false s else s
  | _ => s

/-- One operation of an issuing bundle; `s0` and `f` are the state in which the bundle issues. Its updates fly before its result, so a result
to a register that a specifier of the operation updates is the later one and stands, with FS.WS set (R40 gives no order within an operation).
DEDUCED, log entry 15. A wait moves its pointers when it ends (R163). -/
def doOp (s0 : State) (n : Nat) (f : Facet) (lits : List (BitVec 48)) (len : Nat) (s : State) (o : Op) : State :=
  if suppressed f o then s else
  let s := if o.kind = .twait || o.kind = .ewait then s else (opUpdates f o).foldl (fun s l => putFlight n 1 l s) s
  let fly (ls : List Land) (s : State) : State := ls.foldl (fun s l => putFlight n (latency o.kind) l s) s
  match opClass o.kind with
  | 0 => fly (vectorLands s0 f lits o) s
  | 1 => if isLong o.kind then updFacet n (fun g => { g with wait := .long ⟨o, s.fclk, 0, BitVec.ofNat 64 (if o.kind = .bfill then rawOperand s0 f lits o 1 else 0)⟩, fs := setBit g.fs 6 false }) s
    else fly (vectorLands s0 f lits o) s
  | 2 => if isRemote o.kind then issueRemote s0 n f o s else fly (scalarLands s0 f lits o) s
  | 3 => fly (scalarLands s0 f lits o) s
  | 4 => doControl s0 n f lits len o (fly (capLands s0 f lits o) s)
  | _ => s

/-- The operations of a bundle in slot order (R33), in which R40 merges their results. -/
def slotOrder (b : List Op) : List Op :=
  (List.range 5).flatMap fun c => b.filter fun o => opClass o.kind == c

/-! ### Retirement (R46, R55, R148, R155) -/

/-- The loop-end action over the levels from the highest down (R148). A value that a move landing with the bundle wrote stands (R150). -/
def loopEnd : List Nat → Facet → Facet
  | [], f => f
  | l :: t, f =>
    if loopEndsAt f f.lastEnd l then
      let (lc, ls, _) := loopLevel f l
      let put (c : Nat) (f : Facet) : Facet :=
        if f.loopOld.any fun h => h.level == l then
          { f with loopOld := f.loopOld.map fun h => if h.level = l then { h with lc := setFld h.lc 0 17 c } else h }
        else if f.lpWas.any fun h => h.level == l && h.left == 1 then f
        else { f with lc := tset 0 f.lc l (setFld lc 0 17 c) }
      if 1 < fld lc 0 17 then { put (fld lc 0 17 - 1) f with pc := BitVec.ofNat 15 (fld ls 3 15) }
      else loopEnd t (put 0 f)
    else loopEnd t f

/-- A bundle has gone by: old loop values run out (R145). -/
def ageLoops (f : Facet) : Facet :=
  { f with loopOld := f.loopOld.filterMap fun (h : LoopOld) => if h.left ≤ 1 then none else some { h with left := h.left - 1 }, lpWas := [] }

/-- The loop-end action of the bundle that retired. -/
def loopAction (f : Facet) : Facet := ageLoops { loopEnd [3, 2, 1, 0] f with loopAct := false }

/-- A delay bundle collapses (R55): one unguarded NOP, the branch predicted to its target, nothing in flight, no
interrupt pending, no loop end, no repeat; whether the target is in the fetch buffer is a free value. DESIGN CHOICE, log entry 11. -/
def collapses (s : State) (n : Nat) (f0 : Facet) (b : List Op) : Bool :=
  (match b with | [o] => o.kind == .nop && o.w.guard == 0 | _ => false)
    && fsDS f0.fs != 0 && predOn f0 && tget false f0.predTaken (fsLVL f0.fs) && f0.flights.isEmpty && !request s n false && !request s n true
    && !f0.repeating && !(List.range 4).any (loopEndsAt f0 f0.pc) && bit (Config.freeValue s.free) 0

/-- A bundle retires. `f0` is the facet as the bundle issued. A collapsed one takes no FCLK. -/
def retire (n : Nat) (f0 : Facet) (b : List Op) (s : State) : State :=
  let idx := f0.pc
  let col := collapses s n f0 b
  let now := s.fclk
  let s := if fsDS f0.fs ≠ 0 then (drawFree s).2 else s
  let f := facet s n
  let f := { f with bundles := f.bundles + 1, bundle := [], lastIdx := idx, collapse := if col then f.collapse + 1 else f.collapse,
                    ready := if col then now else f.ready }
  let left := fld f0.repc 32 17
  if f0.repeating && decide (1 < left) then
    setFacet n (ageLoops { f with repc := setFld f.repc 32 17 (left - 1), repFirst := false }) s
  else
    let f : Facet := if f0.repeating then { f with repc := setFld f.repc 32 17 0, repeating := false, repFirst := false } else f
    let next := idx + BitVec.ofNat 15 b.length
    let ds := fsDS f0.fs
    if ds ≠ 0 then
      setFacet n (ageLoops { f with fs := setFld f.fs 4 2 (ds - 1),
                                    pc := if ds = 1 then BitVec.ofNat 15 (fld (tget 0 f.pbt (fsLVL f0.fs)) 3 15) else next }) s
    else if (List.range 4).any (loopEndsAt f idx) then setFacet n { f with pc := next, loopAct := true, lastEnd := idx } s
    else setFacet n (ageLoops { f with pc := next, loopAct := false, lastEnd := idx }) s

/-! ### RETX (R188 to R191) -/

/-- RETX has issued: its drain; at X1 it decides (R189). -/
def doRetx (n : Nat) (s : State) : State :=
  let x1 := s.fclk + drainLen (facet s n) + 1
  let s := drainFacet n s
  updFacet n (fun f => { f with bundles := f.bundles + 1, bundle := [], wait := .retx x1, ready := x1 + 3 }) s

/-- X1 of a RETX: tail-chaining or the restored status (R189 to R191). -/
def endRetx (n : Nat) (s : State) : State :=
  let f := facet s n
  let l := fsLVL f.fs
  let st := tget 0 f.xst l
  let k := if fsKB st = 0 then
      let un (t : List (Nat × KReg)) (i : Nat) := tset {} t (kKey 1 i) { kReg f 1 i with tag := false }
      un (un f.k 14) 15
    else f.k
  let f := { f with wait := .none, shadows := [], k := k, loopOld := [], lpWas := [], landed := [] }
  if l = 1 ∧ fsLVL st = 0 ∧ fsIE st = true ∧ request s n false = true ∧ request s n true = false then
    let fs := setFld (setFld (setFld (setFld f.fs 16 6 0x20) 4 2 0) 6 1 0) 0 1 0
    setFacet n { f with fs := fs, pc := BitVec.ofNat 15 (fld f.xvb 12 6 * 512 + 0x20 * 8) } s
  else
    let pc := BitVec.ofNat 15 (fld (tget 0 f.xpc l) 3 15)
    let again := fld f.repc 32 17 != 0 && fld f.repc 49 15 == pc.toNat
    setFacet n { f with fs := st, pc := pc, repeating := again, repFirst := again } s

/-! ### Presenting operations and issuing the bundle -/

/-- An interrupt that the facet may take now (R177). -/
def takeable (s : State) (n : Nat) (f : Facet) : Bool :=
  fsIE f.fs && ((request s n true && decide (fsLVL f.fs < 2)) || (request s n false && fsLVL f.fs == 0))

/-- An entry of items 1 to 5 of R181 is due. -/
def entryDue (s : State) (n : Nat) (f : Facet) : Bool :=
  f.due.isSome || f.holdDue || (f.remErr && fsLVL f.fs == 0) || takeable s n f

/-- Facet n stands at a bundle boundary at which a bundle may issue (R37, R64, R181, R540); the results due at it have landed (R49, R177). -/
def canIssue (s : State) (n : Nat) : Bool :=
  let f := facet s n
  bit f.ctl 0 && !bit f.ctl 1 && crownUp s (crownOf n) && (f.wait == .none) && f.presented.isNone && !f.loopAct
    && decide (f.ready ≤ s.fclk) && !f.second && !entryDue s n (facet (landDue n s) n)

/-- The cause that keeps a bundle from issuing, if any (R34, R44, R83); `s1` is the state after the due results have
landed, `lands` those results. -/
def bundleCause (s1 : State) (n : Nat) (lands : List Land) (b : List Op) : Option Nat :=
  let f := facet s1 n
  if !bundleEncOk b || bundleMisuse f b then some 1
  else match opsCause s1 n f (bundleLits b) [] b with
    | some c => some c
    | none =>
      if !runsLong f b && decide (1 < maxBank (bundleReads f b) (landWords lands ++ f.landed)) && fsSTRICT (effFs f)
      then some 8 else none

/-- The bundle issues: due results land, replay is counted (R43), every operation acts in slot order, the bundle retires
unless it waits or returns. The next bundle may issue when its FCLK and replays are over (R37). DEDUCED, log entry 9. DEDUCED, log entry 10. -/
def issueBundle (n : Nat) (b : List Op) (s : State) : State :=
  let lands := dueLands (facet s n)
  let s1 := landDue n s
  match bundleCause s1 n lands b with
  | some c => updFacet n (fun f => { f with bundle := [], presented := some c }) s
  | none =>
    let f := facet s1 n
    let m := if runsLong f b then 0 else maxBank (bundleReads f b) (landWords lands ++ f.landed)
    let s2 := noteReads 0 (bundleReads f b) s1
    let s2 := updFacet n (fun f => { f with landed := [], replay := f.replay + BitVec.ofNat 64 (m - 1), ready := s.fclk + max 1 m }) s2
    let s3 := (slotOrder b).foldl (doOp s1 n f (bundleLits b) b.length) s2
    if b.any fun o => o.kind = .retx && !suppressed f o then doRetx n s3
    else if (facet s3 n).wait ≠ .none then updFacet n (fun f => { f with bundle := b }) s3
    else retire n f b s3

end Sys2Proof.Machine
end

