-- ==== Sys2Proof/Machine/FacetLong.lean ====
section
/-! DEFINITION. The elements of long operations and their end (R125 to R130). -/
namespace Sys2Proof.Machine

/-- Put an address-register update into effect at once (R128). -/
def putA (n : Nat) (ups : List (Nat × BitVec 48)) (s : State) : State :=
  updFacet n (fun f => ups.foldl (fun f p => { f with a := tset 0 f.a (aKey f p.1) p.2 }) f) s
def putG (n r : Nat) (v : BitVec 64) (s : State) : State :=
  if r = 0 then s else updFacet n (fun f => { f with g := tset 0 f.g (gKey f r) v }) s

/-- The address of element k of a BFIR input from the input pointer: a circular input wraps in its buffer (R126). -/
def firInput (f : Facet) (x : BitVec 16) (sz k : Nat) : Nat :=
  let p := (aRead f (spAreg x)).toNat
  let w := effW f (spWin x)
  if spMode x = 3 then wBase w + imod ((p : Int) - wBase w + k * sz) (wLen w) else (p + k * sz) % 2 ^ 48

/-- One output of BFIR (R126). -/
def firOutput (s : State) (f : Facet) (o : Op) : Nat :=
  let ctl := gSpec f o.w.c
  let t := o.w.tz.toNat
  let sz := laneBytes t
  let cw := effW f (firWin ctl)
  let taps := List.range (firTaps ctl)
  let h (k : Nat) : Nat := bytesNat (readBytes s 1 (wBase cw + k * sz) sz)
  let x (k : Nat) : Nat := bytesNat (readBytes s 1 (firInput f o.w.b sz k) sz)
  if t = 3 then
    let acc : Int := taps.foldl (fun acc k => acc + sgn 16 (h k) * sgn 16 (x k)) 0
    satS 16 ((acc + 2 ^ 14) / 2 ^ 15)
  else taps.foldl (fun acc k => fMulAdd fmt32 fmt32 acc (h k) (x k) false) 0

/-- One element: read, write, advance the pointers, decrement the count (R128). -/
def longElement (n : Nat) (l : LongOp) (s : State) : State :=
  let f := facet s n
  let o := l.op
  let dA := operandDT o.kind o.w 0
  let dB := operandDT o.kind o.w 1
  let pa := (aRead f (spAreg o.w.a)).toNat
  let pb := (aRead f (spAreg o.w.b)).toNat
  let who := Agent.facet (Fin.ofNat 128 n)
  let cnt := gSpec f o.w.c
  match o.kind with
  | .bmove =>
    let s := writeWord who 1 pa (readBytes s 1 pb 16) false s
    putG n (spReg o.w.c) (BitVec.ofNat 64 (cnt - 1)) (putA n (updates f o.w.b dB) (putA n (updates f o.w.a dA) s))
  | .bfill =>
    let v := natBytes 8 l.val.toNat
    let s := writeWord who 1 pa (v ++ v) false s
    putG n (spReg o.w.c) (BitVec.ofNat 64 (cnt - 1)) (putA n (updates f o.w.a dA) s)
  | .bcrc =>
    let st := crcAdvance o.w.tz.toNat (gSpec f o.w.a) (readBytes s 1 pb 16)
    let s := putG n (spReg o.w.a) (BitVec.ofNat 64 st) s
    putG n (spReg o.w.c) (BitVec.ofNat 64 (cnt - 1)) (putA n (updates f o.w.b dB) s)
  | _ =>
    let s := writeWord who 1 pa (natBytes dA.size (firOutput s f o)) false s
    putG n (spReg o.w.c) (BitVec.ofNat 64 (cnt - 1)) (putA n (updates f o.w.b dB) (putA n (updates f o.w.a dA) s))

/-- FCLK of one element (R129). -/
def longPer (f : Facet) (o : Op) : Nat :=
  match o.kind with
  | .bmove => 2
  | .bfir => 2 + (firTaps (gSpec f o.w.c) + 15) / 16
  | _ => 1

/-- The store words that the next element reads. -/
def longReads (f : Facet) (o : Op) : List Nat :=
  let pb := (aRead f (spAreg o.w.b)).toNat
  match o.kind with
  | .bfill => []
  | .bfir =>
    let sz := laneBytes o.w.tz.toNat
    let cw := effW f (firWin (gSpec f o.w.c))
    ((List.range (firTaps (gSpec f o.w.c))).flatMap fun k => [wordOf (wBase cw + k * sz), wordOf (firInput f o.w.b sz k)]).eraseDups
  | _ => [wordOf pb]

/-- At most `k` elements; an uncorrectable word stops them (R129, R262). -/
def longRun (n : Nat) : Nat → State → State
  | 0, s => s
  | k + 1, s =>
    match (facet s n).wait with
    | .long l =>
      let words := longReads (facet s n) l.op
      if longCount (facet s n) l.op = 0 || words.any (wordBad s) then s
      else longRun n k (updFacet n (fun f => { f with wait := .long { l with done := l.done + 1 } }) (longElement n l (noteReads 0 words s)))
    | _ => s

/-- Bring a long operation up to FCLK `t`: setup of 4 FCLK, then one element after another (R129). One that stands at an uncorrectable word
goes on from there. -/
def longTo (n t : Nat) (s : State) : State :=
  match (facet s n).wait with
  | .long l =>
    let target := (t - l.start - 4) / longPer (facet s n) l.op
    let s := longRun n (target - l.done) s
    match (facet s n).wait with
    | .long l' =>
      if l'.done < target && longCount (facet s n) l.op != 0 then
        updFacet n (fun f => { f with wait := .long { l' with start := t - 4 - longPer f l.op * l'.done } }) s
      else s
    | _ => s
  | _ => s

/-- The elements whose last FCLK this is; they meet the accesses of this FCLK (R229 to R232). -/
def longLast (n : Nat) (s : State) : State := longTo n (s.fclk + 1) s
/-- The elements that were over before this FCLK began. -/
def longProgress (n : Nat) (s : State) : State :=
  match (facet s n).wait with
  | .long _ => let t := longTo n s.fclk s; { t with marks := s.marks }
  | _ => s

/-- FCLK at which the operation has processed all it has left. -/
def longEnd (f : Facet) (l : LongOp) : Nat := l.start + 4 + longPer f l.op * (l.done + longCount f l.op)

/-- A long operation that has processed its last element is finished; it retires, with its loop-end action (R130, R148, R152). -/
def finishLong (n : Nat) (s : State) : State :=
  match (facet s n).wait with
  | .long l =>
    if longCount (facet s n) l.op = 0 then
      let s := retire n (facet s n) [l.op] (updFacet n (fun f => { f with wait := .none }) s)
      if (facet s n).loopAct then updFacet n loopAction s else s
    else s
  | _ => s

end Sys2Proof.Machine
end

