-- ==== Sys2Proof/Machine/Movers.lean ====
section
/-! DEFINITION. Stream movers (R285 to R302, R531, R582): registers, address sequence, start and its check, pacing, ends. The moving of
data stands in Bursts.lean. -/
namespace Sys2Proof.Machine

def chan (s : State) (k : Nat) : Chan := tget {} s.chans k
def setChan (k : Nat) (x : Chan) (s : State) : State := { s with chans := tset {} s.chans k x }
def engine (s : State) (e : Nat) : Engine := tget {} s.engines e
def setEngine (e : Nat) (x : Engine) (s : State) : State := { s with engines := tset {} s.engines e x }

/-- The engine of a channel (R285), and its own domain. -/
def engineOf (k : Nat) : Nat := if k < 256 then k / 16 else 16 + (k - 256) / 16
def chanDomain (k : Nat) : Nat := if k < 256 then k / 16 else 31

/-- MOV_STAT.STATE: 0 IDLE, 1 HELD, 2 WAIT, 3 RUN, 4 DRAIN. -/
def chanState (s : State) (k : Nat) : Nat := rfld s (chanReg k 0x100) 0 3
def setChanState (k v : Nat) (s : State) : State := rput (chanReg k 0x100) 0 3 v s

/-! ### The two sides (R286, R288 to R290) -/

/-- A side of a channel. -/
structure Side where
  addr : Nat
  ew : Nat
  ocnt : Nat
  icnt : Nat
  ostr : Int
  istr : Int
  wrap : Nat
  pos : Nat
  deriving DecidableEq, Repr

/-- A count field: 0 stands for 65,536. -/
def cnt16 (v : Nat) : Nat := if v = 0 then 65536 else v

def side (s : State) (k : Nat) (dst : Bool) : Side :=
  let b := if dst then 0x40 else 0x20
  let sh := rget s (chanReg k (b + 8))
  let st := rget s (chanReg k (b + 16))
  let wr := rget s (chanReg k (b + 24))
  { addr := rfld s (chanReg k b) 0 48, ew := fld sh 32 3, ocnt := cnt16 (fld sh 16 16), icnt := cnt16 (fld sh 0 16),
    ostr := sgn 32 (fld st 32 32), istr := sgn 24 (fld st 0 24), wrap := fld wr 0 24, pos := fld wr 32 28 }

/-- Address of element j (R288). -/
def Side.elem (x : Side) (j : Nat) : Nat :=
  let rel : Int := x.pos + (j / x.icnt : Nat) * x.ostr + (j % x.icnt : Nat) * x.istr
  (if x.wrap = 0 then (x.addr : Int) + rel else x.addr + rel % (x.wrap * 16 : Nat)).toNat

def Side.total (x : Side) : Nat := x.icnt * x.ocnt * 2 ^ x.ew

/-- The range [lo, hi) of a side (R289). -/
def Side.range (x : Side) : Int × Int :=
  if x.wrap ≠ 0 then (x.addr, x.addr + (x.wrap * 16 : Nat))
  else
    let o : Int := (x.ocnt - 1 : Nat) * x.ostr
    let i : Int := (x.icnt - 1 : Nat) * x.istr
    (x.addr + x.pos + min 0 o + min 0 i, x.addr + x.pos + max 0 o + max 0 i + (2 ^ x.ew : Nat))

/-- POS at completion of a continuing transfer (R288). -/
def Side.nextPos (x : Side) : Nat := (((x.pos : Int) + x.ocnt * x.ostr) % (x.wrap * 16 : Nat)).toNat

/-- Whether a side is remote, and its package (R531); one that names this package is served inside it (R26). -/
def remoteSide (s : State) (k : Nat) (dst : Bool) : Option Nat :=
  if k < 272 then none
  else
    let r := rget s (ethReg (0x8000 + 8 * (k - 272)))
    let pkg := fld r (if dst then 8 else 0) 8
    if bit r (if dst then 17 else 16) && pkg != rfld s (sesReg 0x20) 0 8 then some pkg else none

def chanCap (s : State) (k : Nat) (dst : Bool) : KReg :=
  let b := if dst then 0x90 else 0x80
  ⟨(rget s (chanReg k (b + 8)) ++ rget s (chanReg k b)), rbit s (chanReg k 0xA0) (if dst then 1 else 0)⟩

/-! ### Places: register blocks, backing, domains, permissions -/

/-- A byte of a register block, as against a store, DRAM or a session context. -/
def isRegister (a : Nat) : Bool :=
  match region a with
  | .fregs _ | .brim _ => true
  | .girdle o => !decide (0x400000 ≤ o ∧ o < 0x800000)
  | _ => false

/-- A cell FIFO data window (R333), and a MAC queue window (R519). -/
def cellWindow (a : Nat) : Bool :=
  match region a with
  | .brim o => decide (o < 0x100000) && decide (0x100 ≤ o % 0x400 ∧ o % 0x400 < 0x300)
  | _ => false
def macWindow (a : Nat) : Bool :=
  match region a with
  | .girdle o => decide (0xB0000 ≤ o ∧ o < 0xB8000) && decide (0x800 ≤ (o - 0xB0000) % 0x1000)
  | _ => false

/-- Whether a range of bytes is backed in every byte (R22 to R24). -/
def rangeBacked (s : State) (lo hi : Nat) : Bool :=
  decide (hi ≤ ddrTop s) || (decide (facetBase 0 ≤ lo) && decide (hi ≤ facetBase 128) && (List.range 128).all fun n =>
      let l := max lo (facetRegBase n)
      (List.range ((min hi (facetBase (n + 1)) + 7) / 8 - l / 8)).all fun i => assignedAt (l / 8 * 8 + 8 * i))
    || (decide (crownStoreBase 0 ≤ lo) && decide (hi ≤ crownStoreBase 16))
    || (decide (girdle 0 ≤ lo) && (List.range ((hi + 7) / 8 - lo / 8)).all fun i => assignedAt (lo / 8 * 8 + 8 * i))

/-- The address ranges of a power domain (R537). -/
def domRanges (d : Nat) : List (Nat × Nat) :=
  if d < 16 then [(facetBase (8 * d), facetBase (8 * d + 8)), (crownStoreBase d, crownStoreBase (d + 1)),
                  (crownReg d 0, crownReg (d + 1) 0)]
  else if d < 20 then []
  else if d < 22 then [(cellReg (512 * (d - 20)) 0, cellReg (512 * (d - 19)) 0), (blkReg (32 * (d - 20)) 0, blkReg (32 * (d - 19)) 0),
                       (pfdReg (32 * (d - 20)) 0, pfdReg (32 * (d - 19)) 0)]
  else if d < 30 then [(cellReg (128 * (d - 22)) 0, cellReg (128 * (d - 21)) 0), (grpReg (d - 22) 0, grpReg (d - 21) 0)]
  else if d = 34 then [(sesReg 0, sesReg 0x100000), (ctxAddr 0 0, ctxAddr 16384 0)]
  else if d = 35 then [(pciReg 0, pciReg 0x10000)]
  else if d = 36 then [(ethReg 0, ethReg 0x10000)]
  else if d = 37 then [(0, 0x4000000000), (ddrReg 0, ddrReg 0x10000)]
  else []

/-- The power domains that a range reaches. -/
def rangeDomains (lo hi : Nat) : List Nat :=
  (List.range 38).filter fun d => (domRanges d).any fun r => decide (lo < r.2) && decide (r.1 < hi)

/-- Off, or a crown at P2 (R292, R301). -/
def domGone (s : State) (d : Nat) : Bool := domState s d == 4 || domState s d == 3

/-- The domains that a channel depends on (R301). -/
def chanDomains (s : State) (k : Nat) : List Nat :=
  let rs (d : Bool) : List Nat := match remoteSide s k d with
    | some _ => [36]
    | none => let r := (side s k d).range; rangeDomains r.1.toNat r.2.toNat
  chanDomain k :: rs false ++ rs true

/-- A change under way takes a domain off, or a crown to P2 (R538, R543). -/
def withGroups (d : Nat) : List Nat := if 20 ≤ d ∧ d < 22 then d :: (List.range 4).map fun g => 22 + 4 * (d - 20) + g else [d]
def domLeaving (s : State) (d : Nat) : Bool := s.pwr.changes.any fun c => decide (3 ≤ c.target) && (withGroups c.d).contains d

/-- What a block asks of a capability beyond R or W (R168, R314, R315, R324, R351, R390, R474, R493). DEDUCED, log entry 27. -/
def accessPerms (a : Nat) (write : Bool) : List Nat :=
  match region a with
  | .brim _ => [permPORT]
  | .fregs _ => [permDBG]
  | .girdle o =>
    if 0x10000 ≤ o ∧ o < 0x40000 then (if write then [permTIME] else [])
    else if o = 0x100018 then [permPORT]
    else if o = 0x80100 ∨ (0x1000000 ≤ o ∧ o < 0x2000000) then [permMETR]
    else []
  | _ => []

/-- The byte ranges overlap. -/
def rangesShare (a b : Int × Int) : Bool := decide (a.1 < b.2) && decide (b.1 < a.2)

/-- A range holds a byte of a facet's register block. -/
def meetsFregs (lo hi n : Nat) : Bool := rangesShare (lo, hi) (facetRegBase n, facetBase (n + 1))

/-- The permissions that the blocks of a range ask for beyond R or W (R168): at its ends, at the start of every block of the girdle
that it runs through, and for the facet register blocks inside it. -/
def blockPerms (write : Bool) (lo hi : Nat) : List Nat :=
  let within := match region lo, region (hi - 1) with
    | .girdle _, .girdle _ => (List.range ((hi - 1) / 0x10000 - lo / 0x10000)).map fun i => (lo / 0x10000 + 1 + i) * 0x10000
    | _, _ => []
  (lo :: (hi - 1) :: within).flatMap (accessPerms · write) ++ if (List.range 128).any (meetsFregs lo hi) then [permDBG] else []

/-! ### The start check (R292) -/

def paceDepth (kind : Nat) : Nat := match kind with | 1 | 2 => 256 | 3 => 65535 | _ => 32768

/-- A range that reaches a register: what a mover presents there is an 8-byte access, but for the FIFO windows of cells (R247). -/
def reachesRegister (lo hi : Nat) : Bool := isRegister lo || isRegister (hi - 1) || (List.range 128).any (meetsFregs lo hi)

/-- The first failing item, or 0. -/
def startCheck (s : State) (k : Nat) : Nat :=
  let x := side s k false
  let y := side s k true
  let cfg := rget s (chanReg k 8)
  let pace := rget s (chanReg k 0x10)
  let kind := fld pace 60 4
  let u := max (2 ^ x.ew) (2 ^ y.ew)
  let rx := remoteSide s k false
  let ry := remoteSide s k true
  let sc := chanCap s k false
  let dc := chanCap s k true
  let (xl, xh) := x.range
  let (yl, yh) := y.range
  let aligned (z : Side) : Bool := z.addr % 2 ^ z.ew == 0 && z.pos % 2 ^ z.ew == 0 && z.istr % (2 ^ z.ew : Nat) == 0 && z.ostr % (2 ^ z.ew : Nat) == 0
  let inCap (c : BitVec 128) (l h : Int) : Bool := decide ((capBase c : Int) ≤ l) && decide (h ≤ (capBase c + 16 * capLen c : Nat))
  let addrOk (z : Side) (l h : Int) : Bool :=
    decide (0 ≤ l) && decide (h ≤ 2 ^ 48) && rangeBacked s l.toNat h.toNat
      && (!reachesRegister l.toNat h.toNat || z.ew == 3 || (cellWindow l.toNat && cellWindow (h.toNat - 1) && decide (z.ew ≤ 3)))
  let runs (l h : Int) : Bool := (List.range 128).any fun n => meetsFregs l.toNat h.toNat n && !bit (facet s n).ctl 1
  if 4 < x.ew ∨ 4 < y.ew ∨ 4 < fld cfg 8 3 ∨ 4 < kind ∨ (kind ≥ 3 ∧ k < 256) ∨ (bit cfg 3 ∧ fld cfg 0 3 < 6)
    ∨ (kind ≠ 0 ∧ (fld pace 0 16 < u ∨ paceDepth kind < fld pace 0 16 ∨ fld pace 0 16 < fld pace 16 16))
    ∨ (rx.isSome ∧ (kind ≠ 0 ∨ x.ew ≠ 3)) ∨ (ry.isSome ∧ (kind ≠ 0 ∨ y.ew ≠ 3)) then 8
  else if x.total ≠ y.total ∨ (x.wrap ≠ 0 ∧ x.wrap * 16 ≤ x.pos) ∨ (y.wrap ≠ 0 ∧ y.wrap * 16 ≤ y.pos)
    ∨ (rx.isNone ∧ ry.isNone ∧ rangesShare (xl, xh) (yl, yh) ∧ !reachesRegister xl.toNat xh.toNat ∧ !reachesRegister yl.toNat yh.toNat) then 7
  else if !capLive s sc || !capLive s dc then 2
  else if capOtype sc.cap ≠ 0 ∨ capOtype dc.cap ≠ 0 then 3
  else if !capHas sc.cap permR || !capHas dc.cap permW
    || (rx.isNone && (blockPerms false xl.toNat xh.toNat).any fun p => !capHas sc.cap p)
    || (ry.isNone && (blockPerms true yl.toNat yh.toNat).any fun p => !capHas dc.cap p) then 4
  else if !aligned x || !aligned y then 6
  else if (rx.isNone && !inCap sc.cap xl xh) || (ry.isNone && !inCap dc.cap yl yh) then 5
  else if (rx.isNone && !addrOk x xl xh) || (ry.isNone && (!addrOk y yl yh || runs yl yh)) then 1
  else 0

/-! ### Ends of a transfer (R291, R295, R299, R300) -/

/-- Back to IDLE. A start that this FCLK has already brought is taken in the next one and is not missed (R291); a STOP written again in
this FCLK stays set (R7). -/
def chanIdle (k : Nat) (s : State) : State :=
  let c := chan s k
  let early := c.missAt.any fun m => m.1 == s.fclk
  let s := match c.missAt with
    | some m => if early ∧ rfld s (chanReg k 0x100) 48 16 = min 65535 (m.2 + 1) then rput (chanReg k 0x100) 48 16 m.2 s else s
    | none => s
  let s := setChan k { ({} : Chan) with startAt := c.startAt, idleAt := some s.fclk, startNext := c.startNext || early,
                                        stopNext := s.sets.contains (chanReg k 0, 1), sleepStart := c.sleepStart } s
  rbitSet (chanReg k 0x100) 18 false (w1sClear (chanReg k 0) 1 (setChanState k 0 s))

/-- The steward source of a channel (R206). -/
def chanSource (k : Nat) : Nat := if k < 256 then 352 + k else 320 + (k - 256)

/-- An end with an error: ERR, the error pulse, the steward source. -/
def endError (k err : Nat) (s : State) : State :=
  chanIdle k (raiseSteward (chanSource k) (raiseHat (0x400 + k) (rput (chanReg k 0x100) 8 4 err s)))

/-- The transfer is complete (R288, R295). DEDUCED, log entry 26. -/
def endComplete (k : Nat) (s : State) : State :=
  let x := side s k false
  let y := side s k true
  let cont := rbit s (chanReg k 8) 5
  let s := if cont ∧ x.wrap ≠ 0 then rput (chanReg k 0x38) 32 28 x.nextPos s else s
  let s := if cont ∧ y.wrap ≠ 0 then rput (chanReg k 0x58) 32 28 y.nextPos s else s
  chanIdle k (raiseHat (0x200 + k) (rput (chanReg k 0x108) 0 40 x.total s))

/-- Writes of a channel that no target has answered yet: held for a fill, or out on the fabric. -/
def chanWaits (s : State) (k : Nat) : Bool :=
  s.heldWrites.any (fun w => w.who == .mover (Fin.ofNat 288 k)) || s.fabric.out.any (fun o => o.chan.any fun p => p.1 == k)

/-- A transfer ends early for a cause other than STOP: reads that return later are discarded; the responses of its writes are
collected first (R299, R582). -/
def failChan (k err : Nat) (s : State) : State :=
  if chanState s k = 0 then s
  else
    let drop (o : FabOut) : FabOut := if o.fr.ty = 1 ∧ o.chan.any (fun p => p.1 == k) then { o with chan := none } else o
    let s := setFabric { s.fabric with out := s.fabric.out.map drop } s
    if chanWaits s k then setChan k { chan s k with ending := err, drain := none, hold := [], back := [] } s else endError k err s

/-- The burst of channel k that its engine still issues ends at this FCLK. -/
def burstEndAt (s : State) (k : Nat) : Nat :=
  let e := engine s (engineOf k)
  match e.susp.find? fun p => p.1 == k with
  | some p => e.busy + p.2
  | none => if e.cur = k then e.busy else 0

/-! ### Starting (R291) -/

/-- A start is taken in this FCLK: MOV_CTL.START clears. -/
def takeStart (k : Nat) (s : State) : State :=
  let s := rbitSet (chanReg k 0) 0 false (rput (chanReg k 0x108) 0 40 0 (rput (chanReg k 0x100) 8 4 0 s))
  let s := setChan k { chan s k with startAt := some s.fclk, startNext := false, ending := 0 } s
  match startCheck s k with
  | 0 =>
    let ds := chanDomains s k
    let s := setChan k { chan s k with rem := (side s k false).total, drain := if ds.any (domLeaving s) then some s.fclk else none } s
    setChanState k (if ds.any (domGone s) then 1 else 2) s
  | err => endError k err s

/-- A start arrives at channel k. -/
def movStart (k : Nat) (s : State) : State :=
  let c := chan s k
  if c.startAt = some s.fclk ∨ c.missAt.any (fun m => m.1 == s.fclk) ∨ c.startNext then s
  else if chanState s k ≠ 0 then
    setChan k { c with missAt := some (s.fclk, rfld s (chanReg k 0x100) 48 16) } (rsat (chanReg k 0x100) 48 16 1 s)
  else if c.idleAt = some s.fclk then setChan k { c with startNext := true } s
  else takeStart k s

/-- A write of 1 to MOV_CTL.START: the bit reads 1 while the start waits for the next FCLK (R5, R291). -/
def movCtlStart (k : Nat) (s : State) : State :=
  let s := movStart k s
  if (chan s k).startNext then rbitSet (chanReg k 0) 0 true s else s

/-- A pulse at the start sink (R291, R541): a sleeping crown's channel records it. -/
def movSink (k : Nat) (s : State) : State :=
  if k < 256 ∧ !crownUp s (k / 16) then
    setWakes (sadd s.wakes (k / 16)) (setChan k { chan s k with sleepStart := true } s)
  else if rbit s (chanReg k 8) 4 then movStart k s else s

/-- MOV_CTL.STOP (R582). -/
def movStop (k : Nat) (s : State) : State :=
  if chanState s k = 0 then s
  else w1sWrite (chanReg k 0) 1 (setChan k { chan s k with ending := if (chan s k).ending = 0 then 13 else (chan s k).ending } s)

/-! ### Pacing (R293) and readiness (R296) -/

def cell (s : State) (p : Nat) : Cell := tget {} s.cells p
def mac (s : State) (m : Nat) : Mac := tget {} s.macs m

/-- The level of the pacing queue, or none for KIND 0. -/
def paceLevel (s : State) (k : Nat) : Option Nat :=
  let pace := rget s (chanReg k 0x10)
  let i := fld pace 48 10
  match fld pace 60 4 with
  | 1 => some (cell s i).rx.length
  | 2 => some (256 - (cell s i).tx.length)
  | 3 => some (mac s (i % 8)).rx.length
  | 4 => some (32768 - (mac s (i % 8)).tx.length)
  | _ => none

/-- The size of the burst that channel k may issue now; 0 if none. -/
def burstSize (s : State) (k : Nat) : Nat :=
  let c := chan s k
  let st := chanState s k
  let pace := rget s (chanReg k 0x10)
  let u := max (2 ^ (side s k false).ew) (2 ^ (side s k true).ew)
  if (st ≠ 2 ∧ st ≠ 3) ∨ c.rem = 0 ∨ c.ending ≠ 0 ∨ c.drain.isSome then 0
  else
    let lvl := (paceLevel s k).getD c.rem
    let run := if st = 3 ∧ fld pace 16 16 ≤ lvl then true else decide (min (fld pace 0 16) c.rem ≤ lvl) || (paceLevel s k).isNone
    if run then min (min lvl (32 * 2 ^ rfld s (chanReg k 8) 8 3)) c.rem / u * u else 0

def chanPri (s : State) (k : Nat) : Nat := rfld s (chanReg k 8) 0 3

/-- The channels of an engine. -/
def engineChans (e : Nat) : List Nat := (List.range 16).map fun i => if e < 16 then 16 * e + i else 256 + 16 * (e - 16) + i

/-- The channel that the engine grants next among those ready that satisfy `p` (R296). DESIGN CHOICE, log entry 13. -/
def grantAmong (s : State) (e : Nat) (p : Nat → Bool) : Option Nat :=
  let ready := (engineChans e).filter fun k => burstSize s k ≠ 0 && p k
  let best := ready.foldl (fun b k => max b (chanPri s k)) 0
  let top := ready.filter fun k => chanPri s k = best
  match (engine s e).last.find? fun p => p.1 == best with
  | some (_, l) => match top.find? fun k => decide (l < k) with
    | some k => some k
    | none => top.head?
  | none => top.head?
def nextGrant (s : State) (e : Nat) : Option Nat := grantAmong s e fun _ => true

/-! ### The passing of FCLK (R291, R293, R298) -/

/-- A suspended burst goes on at the end of the burst that took the engine, unless a channel of higher priority is ready. -/
def settleEngine (e : Nat) (x : Engine) (s : State) : State :=
  match x.susp with
  | (k, left) :: t =>
    if x.busy ≤ s.fclk ∧ (nextGrant s e).all (fun j => chanPri s j ≤ chanPri s k) then
      setEngine e { x with cur := k, busy := x.busy + left, susp := t } (rbitSet (chanReg k 0x100) 18 false s)
    else s
  | [] => s

/-- The evaluation of R293 in WAIT, and in RUN at a burst boundary. -/
def paceChan (k : Nat) (s : State) : State :=
  let c := chan s k
  let st := chanState s k
  if (st ≠ 2 ∧ st ≠ 3) ∨ c.ending ≠ 0 ∨ c.drain.isSome ∨ s.fclk < burstEndAt s k then s
  else if c.rem = 0 then setChanState k 4 s
  else
    let pace := rget s (chanReg k 0x10)
    let lvl := (paceLevel s k).getD c.rem
    let free := (paceLevel s k).isNone
    let u := max (2 ^ (side s k false).ew) (2 ^ (side s k true).ew)
    let st := if st = 3 ∧ !free ∧ lvl < fld pace 16 16 then 2 else st
    let st := if st = 2 ∧ (free ∨ min (fld pace 0 16) c.rem ≤ lvl) then 3 else st
    setChanState k (if st = 3 ∧ min (min lvl (32 * 2 ^ rfld s (chanReg k 8) 8 3)) c.rem / u = 0 then 2 else st) s

/-- A STOP that stood set when the channel became IDLE acts in the next FCLK: without effect on an idle channel (R7, R582). -/
def stopAgain (k : Nat) (s : State) : State :=
  movStop k (rbitSet (chanReg k 0) 1 false (setChan k { chan s k with stopNext := false } s))

/-- What the passing of FCLK does to the movers: starts and stops that the next FCLK takes, suspended bursts, pacing. DEDUCED, log entry 26. -/
def moversTick (s : State) : State :=
  let s := (s.chans.filter fun p => p.2.startNext).foldl (fun s p => takeStart p.1 s) s
  let s := (s.chans.filter fun p => p.2.stopNext).foldl (fun s p => stopAgain p.1 s) s
  let s := s.engines.foldl (fun s p => settleEngine p.1 p.2 s) s
  s.chans.foldl (fun s p => paceChan p.1 s) s

/-! ### Register writes (R287) -/

/-- Writable bits of a channel register. -/
def chanMask (o : Nat) : BitVec 64 :=
  match o with
  | 0x08 => 0x73F
  | 0x10 => 0xF3FF0000FFFFFFFF
  | 0x20 | 0x40 => 0xFFFFFFFFFFFF
  | 0x28 | 0x48 => 0x7FFFFFFFF
  | 0x30 | 0x50 => 0xFFFFFFFF00FFFFFF
  | 0x38 | 0x58 => 0x0FFFFFFF00FFFFFF
  | 0x80 | 0x88 | 0x90 | 0x98 => 0xFFFFFFFFFFFFFFFF
  | _ => 0

/-- A write to a channel register: whether the block accepts it, and the state. A refusal for the sealed configuration is reported to the
steward. -/
def chanWrite (k o : Nat) (v : BitVec 64) (by_ : Agent) (s : State) : Bool × State :=
  let outside := by_ == .host || by_ == .fabric
  let refuse (s : State) : Bool × State := (false, if outside then rbitSet (chanReg k 0x100) 19 true s else s)
  if s.locks.chans.contains k && by_ != .loader && !(o == 0 && v == 1) then refuse (tellSteward (chanReg k o) by_ s)
  else if o = 0 then
    let s := if bit v 1 then movStop k s else s
    (true, if bit v 0 then movCtlStart k s else s)
  else if o = 0x100 then
    let s := rw1c (chanReg k 0x100) 0xB0000 v s
    (true, if v = 0 ∧ by_ = .steward then rput (chanReg k 0x100) 48 16 0 s else s)
  else if chanMask o = 0 then (true, s)
  else if chanState s k ≠ 0 then refuse s
  else
    let s := rset (chanReg k o) (v &&& chanMask o) s
    (true, if 0x80 ≤ o ∧ by_ ≠ .loader then rbitSet (chanReg k 0xA0) (if o < 0x90 then 0 else 1) false s else s)

/-- The capabilities of a channel of the sealed configuration read 0 (R287). -/
def chanRead (s : State) (k o : Nat) : BitVec 64 :=
  if s.locks.chans.contains k && decide (0x80 ≤ o ∧ o < 0xA8) then 0 else rget s (chanReg k o)

end Sys2Proof.Machine
end

