-- ==== Sys2Proof/Machine/Timers.lean ====
section
/-! DEFINITION. Launch timers: their registers and when a write to them takes effect (R315, R318), and the report of a refused write to a
locked entry (R327). -/
namespace Sys2Proof.Machine

/-- The register at offset `o` (0 TIM_LNEXT, 8 TIM_LPER, 16 TIM_LCTL, 24 TIM_LSTAT) of launch timer `i`. -/
def ltim (i o : Nat) : Nat := timReg (0x1000 + 32 * i + o)
def timerLocked (s : State) (i : Nat) : Bool := s.locks.timers.contains i

def hatRef (i : Nat) (s : State) : State := rbitSet (hatReg 0x10) i true s
/-- LOCKREF; its rise raises source 318 (R221, R327). -/
def hatLockref (s : State) : State := if rbit s (hatReg 0x10) 3 then noteHit (hatReg 0x10) 3 true s else raiseGirdle 3 (hatRef 3 s)

/-- A value takes its place in TIM_LCTL (R318): EN stays 0 where the timer would be periodic with a PERIOD below 2. -/
def lctlPut (i : Nat) (v : BitVec 64) (s : State) : State :=
  let bad := bit v 0 && bit v 1 && decide (rfld s (ltim i 8) 0 32 < 2)
  let s := rset (ltim i 16) (setBit (v &&& 0xFFFFFFFF00000003) 0 (bit v 0 && !bad)) s
  if bad then rbitSet (ltim i 24) 31 true s else s

/-- A value takes its place in TIM_LPER, unless it is below 2 and the timer runs periodically (R318). -/
def lperPut (i : Nat) (v : BitVec 64) (s : State) : State :=
  if fld v 0 32 < 2 ∧ rfld s (ltim i 16) 0 2 = 3 then rbitSet (ltim i 24) 31 true s
  else rset (ltim i 8) (v &&& 0xFFFFFFFF) s

/-- A write to TIM_LNEXT, TIM_LPER or TIM_LCTL takes effect. -/
def timerPut (w : Nat × (Nat × BitVec 64)) (s : State) : State :=
  match w.2.1 with
  | 0 => rset (ltim w.1 0) w.2.2 s
  | 8 => lperPut w.1 w.2.2 s
  | _ => lctlPut w.1 w.2.2 s

/-- The time block accepts a write to TIM_LNEXT, TIM_LPER or TIM_LCTL: it takes effect in the FCLK after (R318). -/
def timerAccept (i o : Nat) (v : BitVec 64) (s : State) : State := setTimWrites (s.timWrites ++ [(i, (o, v))]) s

/-- The writes accepted in the FCLK before this one take effect (R318), in the order in which they were accepted. -/
def timersTick (s : State) : State := s.timWrites.foldl (fun s w => timerPut w s) (setTimWrites [] s)

end Sys2Proof.Machine
end

