-- ==== Sys2Proof/Machine/Clock.lean ====
section
/-! DEFINITION. The passing of FCLK periods (R303 to R306, R67, R129, R198): the model's idle step and what an event that lies
in the future waits for. -/
namespace Sys2Proof.Machine

/-- The hold counter counts in this state of the facet (R198). -/
def holdCounts (s : State) (n : Nat) (f : Facet) : Bool :=
  !fsIE f.fs && !bit f.ctl 1 && ((request s n true && decide (fsLVL f.fs < 2)) || (request s n false && fsLVL f.fs == 0))

/-- Pulses of the FCLK before this one have set their event flags (R159); its credits and responses count from now on (R413, R414). -/
def latchFlags (f : Facet) : Facet := { f with ef := f.ef ||| f.efNext, efNext := 0, credNew := 0, respNew := 0 }

/-- Of `k` FCLK that have just passed, those after the E2 of an entry that is under way (R185, R198). -/
def afterE2 (k : Nat) (s : State) (f : Facet) : Nat :=
  match f.e4 with
  | some e => min k (s.fclk - (e - 2))
  | none => k

/-- E4 has come: a fast request that stands starts a second entry where the first went to level 1 from IE = 1 (R187). -/
def atE4 (n : Nat) (s : State) : State :=
  let f := facet s n
  if f.e4.any fun e => decide (e ≤ s.fclk) then
    setFacet n { f with e4 := none, second := fsLVL f.fs == 1 && fsIE (tget 0 f.xst 1) && request s n true } s
  else s

/-- X1 of a RETX has come (R189). -/
def atX1 (n : Nat) (s : State) : State :=
  match (facet s n).wait with
  | .retx x1 => if x1 ≤ s.fclk then endRetx n s else s
  | _ => s

/-- What a facet keeps of the bundle that issued in an FCLK that is over: accesses of that FCLK no longer count (R43), and writes to loop
registers no longer meet a loop-end action unless that is still to come (R150). -/
def bundlePast (f : Facet) : Facet := { f with landed := [], lpWas := if f.loopAct then f.lpWas else [] }

/-- A facet over `k` FCLK: FAC_CYCLES while RUN = 1 (R67), the hold counter (R198), E4 and X1. No FCLK passes in a facet of
a crown that is not at P0 (R540). -/
def facetClock (k n : Nat) (s : State) : State :=
  if !crownUp s (crownOf n) then s else
  let s := updFacet n (fun f => bundlePast (latchFlags f)) s
  let f := facet s n
  let h := if holdCounts s n f then f.hold + afterE2 k s f else 0
  let s := setFacet n { f with
    cycles := if bit f.ctl 0 then f.cycles + BitVec.ofNat 64 k else f.cycles,
    hold := h,
    holdDue := f.holdDue || (holdCounts s n f && decide (fld (effHoldmax f) 0 16 ≤ h)) } s
  longProgress n (atX1 n (atE4 n s))

def eachFacet (h : Nat → State → State) (s : State) : State := (s.facets.map (·.1)).foldl (fun s n => h n s) s

/-- `k` FCLK pass at once. DEDUCED, log entry 10. -/
def tick (k : Nat) (s : State) : State :=
  let s := eachFacet (fun n s => if crownUp s (crownOf n) then longLast n s else s) s
  let t := advTb 4 k s.tb
  let stepped := s.tb.step.isSome && t.step.isNone
  let s := { s with fclk := s.fclk + k, tb := t, marks := [], hits := [], sets := [], modeNext := [] }
  let s := copiesTick (timersTick (intsTick k s))
  let s := if stepped then rbitSet (timReg 0x40) 3 true (rbitSet (timReg 0) 8 false s) else s
  moversTick (eachFacet (facetClock k) s)

/-- `k` FCLK pass: what waits for the next FCLK happens in the first of them. DESIGN CHOICE, log entry 1. -/
def advance (k : Nat) (s : State) : State :=
  if k = 0 then s else if k = 1 then tick 1 s else tick (k - 1) (tick 1 s)

/-- Let FCLK pass until the model's clock reads `f`. -/
def advanceTo (f : Nat) (s : State) : State := advance (f - s.fclk) s
/-- Let FCLK pass until the tick count is at least `t` (R305). -/
def advanceTick (t : Nat) (s : State) : State := advance (fclkUntil 4 t s.tb) s

def tickOf (s : State) : Nat := s.tb.tick

/-- A command whose event comes about at FCLK `f` or later, when `c` holds. DESIGN CHOICE, log entry 7. -/
def gateAt (c : Bool) (f : Nat) (s : State) (e : State → State) : Res :=
  if c then .next (e (advanceTo f s)) else .refused .notEnabled

end Sys2Proof.Machine
end

