-- ==== Sys2Proof/Machine/FacetReset.lean ====
section
/-! DEFINITION. Facet reset and its report (R68, R201, R202, R224, R417, R444, R485, R552, R579), and the sealed loader's reload
of a partition facet. -/
namespace Sys2Proof.Machine

/-- Every word of an address range to V = 0: content, tags and stored-bit deviations gone (R258). -/
def clearRange (lo hi : Nat) (s : State) : State :=
  setMem (tclear s.mem lo hi) (setVbits (s.vbits.filter (fun w => decide (w < lo) || decide (hi ≤ w))) (setTags (s.tags.filter (fun w => decide (w < lo) || decide (hi ≤ w))) (setRawWords (tclear s.raw lo hi) s)))

/-- Write 64-bit words to a store, setting valid bits, as the sealed loader does. -/
def loadWords (a : Nat) (ws : List (BitVec 64)) (s : State) : State :=
  (ws.zip (List.range ws.length)).foldl (fun s p =>
    let s := poke (a + 8 * p.2) (natBytes 8 p.1.toNat) s
    setVbits (sadd s.vbits (wordOf (a + 8 * p.2))) s) s

/-- A capability of the sealed configuration: principal 4 at its current epoch (R477). -/
def sealCapValue (s : State) (c : SealCap) : BitVec 128 :=
  mkCap (epochOf s 4) 4 c.otype.toNat c.perm.toNat c.len.toNat c.base.toNat

/-- The sealed loader loads one facet: code images, capabilities, start record (R479 steps 6 and 7). -/
def sealLoadFacet (conf : SealedConf) (n : Nat) (s : State) : State :=
  let s := (conf.code.filter fun c => c.facet == n).foldl (fun s c => loadWords (codeBase n + c.off) c.words s) s
  let s := conf.caps.foldl (fun s c => match c.target with
    | .kreg f b i => if f = n then updFacet n (fun g => { g with k := tset {} g.k (kKey b i) ⟨sealCapValue s c, true⟩ }) s else s
    | _ => s) s
  (conf.starts.filter fun c => c.facet == n).foldl (fun s c =>
    updFacet n (fun g => { g with xvb := c.xvb &&& 0x3F001, ctx := c.ctx &&& 0xFFF, holdmax := c.holdmax &&& 0xFFFF }) s) s

/-- RUN set on a halted facet (R65). -/
def facetRun (n : Nat) (s : State) : State := updFacet n (fun f => { f with ctl := (f.ctl ||| 1) &&& ~~~2 }) s

/-- The report of a facet reset as R444 lays it out. DEDUCED, log entry 62. -/
def resetReport (f : Facet) (n reason cause tick : Nat) : List (BitVec 64) :=
  [BitVec.ofNat 64 (f.pc.toNat * 2 ^ 32 + cause * 2 ^ 16 + reason * 2 ^ 8 + n),
   tget 0 f.xpc 1, tget 0 f.xpc 2, tget 0 f.xpc 3, tget 0 f.xst 1, tget 0 f.xst 2, tget 0 f.xst 3, BitVec.ofNat 64 tick]

/-- Latch a report (R579). -/
def latchReport (n : Nat) (ws : List (BitVec 64)) (s : State) : State :=
  let c := crownOf n
  let i := n % 8
  let st := crownReg c 0x300
  let was := rbit s st i
  let s := (ws.zip (List.range 8)).foldl (fun s p => rset (crownReg c (0x100 + i * 0x40 + 8 * p.2)) p.1 s) s
  let s := if was then rbitSet st (8 + i) true s else rbitSet st i true s
  if was then s else raiseSteward (256 + c) s

/-- Whether facet n belongs to the active sealed partition. -/
def inPartition (s : State) (n : Nat) : Bool := s.locks.facets.contains n

/-- What R485 does after a partition facet's reset: the legal record, FRESETS, the store cleared, the reload and the start, until
16 resets fall within 60 s. -/
def partitionRestart (n reason cause idx : Nat) (s : State) : State :=
  let s := audit true 5 hwPrin (natBytes 8 (n + reason * 256 + cause * 65536 + idx * 2 ^ 32)) s
  let s := rsat (bezReg 0x100) 16 16 1 s
  let recent := (s.metro.resets.filter fun t => decide (s.fclk < t + 60000 * msFclk)) ++ [s.fclk]
  let s := setMetro { s.metro with resets := recent } s
  let s := clearRange (facetBase n) (facetBase n + 0x80000) s
  if s.metro.stopped then s
  else if decide (16 ≤ recent.length) then
    let s := audit true 8 hwPrin (natBytes 8 (rfld s (bezReg 0x100) 16 16)) s
    let halt (f : Facet) : Facet := { f with ctl := 2 }
    updFacet 0 halt (updFacet 1 halt (setMetro { s.metro with stopped := true } s))
  else match s.metro.conf with
    | some conf => facetRun n (sealLoadFacet conf n s)
    | none => s

/-- The facet's registers, controller and mailbox port at reset (R68, R224, R417). DESIGN CHOICE, log entry 17. -/
def clearFacet (n : Nat) (s : State) : State :=
  let f := facet s n
  let s := setFacet n { ({} : Facet) with credits := if f.inProgress = 0 then 4 else 0,
                                          inProgress := f.inProgress, dropResp := f.inProgress } s
  let s := setInts (tclear s.ints (n * 1024) ((n + 1) * 1024)) (setIntc (tdel s.intc n) s)
  setRaw stewardCtl (128 + n) false s

/-- A facet reset with its log entry, report and, in the partition, its restart (R201, R202, R549, R552). `reason` is the reason
of R444. -/
def facetReset (n reason cause : Nat) (s : State) : State :=
  let f := facet s n
  let s := if reason = 4 then s else logReset (0x0F + min reason 4) 0 n s
  let s := latchReport n (resetReport f n reason cause s.tb.tick) s
  let s := clearFacet n s
  if inPartition s n then partitionRestart n reason cause f.pc.toNat s else s

end Sys2Proof.Machine
end

