-- ==== Sys2Proof/Machine/FacetEntry.lean ====
section
/-! DEFINITION. Exception entry (R177 to R187, R192 to R200): the one operation that takes an entry. -/
namespace Sys2Proof.Machine

/-- The operation index of a vector (R179). -/
def vectorIdx (f : Facet) (c : Nat) : BitVec 15 := BitVec.ofNat 15 (fld f.xvb 12 6 * 512 + c * 8)

/-- The bundle in the code store at pc holds an operation that does not exist, or eight pass without STOP (R34, R96, R140). -/
def fetchIllegal (s : State) (n : Nat) : Bool :=
  let f := facet s n
  let word (i : Nat) : Nat := natAt s (codeBase n + 8 * (f.pc + BitVec.ofNat 15 i).toNat) 8
  let len := bundleLenAt s n f.pc
  decide (word (len - 1) / 2 ^ 63 = 0) || (List.range len).any fun i => !opcodeListed (word i / 2 ^ 48 % 2 ^ 12)

/-- What is due at a bundle boundary. -/
inductive Entry where
  | after (d : Due)
  | hold
  | remote
  | interrupt (fast : Bool)
  | fault (c : Nat)
  deriving DecidableEq, Repr

/-- The first of R181 that applies; before all, the second entry that an entry's E4 decided (R187). FS is as the results due at this boundary
leave it (R49, R177). -/
def firstEntry (s : State) (n : Nat) : Option Entry :=
  let f := facet s n
  let fs := (facet (landDue n s) n).fs
  if f.second then some (.interrupt true) else
  match f.due with
  | some d => some (.after d)
  | none =>
    if f.holdDue then some .hold
    else if f.remErr && fsLVL fs == 0 then some .remote
    else if fsIE fs && request s n true && decide (fsLVL fs < 2) then some (.interrupt true)
    else if fsIE fs && request s n false && fsLVL fs == 0 then some (.interrupt false)
    else match f.presented with
      | some c => some (.fault c)
      | none => if f.wait = .none && f.bundle.isEmpty && fetchIllegal s n then some (.fault 1) else none

def entryCause : Entry → Nat
  | .after .syscall => 0x0E
  | .after .brk => 0x0F
  | .after (.kenter _ _) => 0x0E
  | .hold => 0x09
  | .remote => 0x0D
  | .interrupt fast => if fast then 0x21 else 0x20
  | .fault c => c

/-- The level an entry goes to; none where it resets the facet (R177, R184). -/
def entryLevel (e : Entry) (lvl : Nat) : Option Nat :=
  match e with
  | .interrupt fast => some (if fast then 2 else 1)
  | _ => if lvl = 0 then some 1 else if lvl < 3 then some 3 else none

/-- Save XPC and XST and write FS and pc for an entry into level L whose E1 is FCLK `e1` (R185). The reservation ends, and an LDR that is
still outstanding makes none (R248). -/
def enterLevel (e1 l cause : Nat) (target : Option (BitVec 15)) (f : Facet) : Facet :=
  let rec' := if l = 3 then 0x10 else cause
  let fs := setFld (setFld (setFld (setFld (setFld (setFld f.fs 1 2 l) 3 1 1) 0 1 0) 16 6 rec') 4 2 0) 6 1 0
  let f := { f with xpc := tset 0 f.xpc l (f.pc.setWidth 64 <<< 3), xst := tset 0 f.xst l f.fs, fs := fs,
                    resv := none, remotes := f.remotes.map (fun (r : Remote) => { r with stale := true }), repeating := false,
                    repFirst := false, hold := 0, shadows := [], landed := [], loopOld := [], lpWas := [],
                    ready := e1 + 4, e4 := some (e1 + 3), second := false }
  let f := if l = 3 then { f with g := tset 0 f.g 95 (BitVec.ofNat 64 cause) } else f
  { f with pc := match target with | some t => t | none => vectorIdx f rec' }

/-- What was presented is discarded; FS.RES says that a long operation resumes (R130). -/
def clearEntry (n : Nat) (e : Entry) (s : State) : State :=
  let res := match (facet s n).wait with | .long _ => true | _ => false
  updFacet n (fun f => { f with
    fs := if res then setBit f.fs 6 true else f.fs,
    wait := .none, bundle := [], presented := none, due := none,
    holdDue := if e = .hold then false else f.holdDue,
    remErr := if e = .remote then false else f.remErr }) s

/-- A KENTER goes to its entry point; every other entry to its handler. -/
def entryTarget (n : Nat) : Entry → Option (BitVec 15)
  | .after (.kenter ks _) => some (BitVec.ofNat 15 ((capBase ks.cap - codeBase n) / 8))
  | _ => none

/-- A KENTER writes K14 and K15 of bank 1, unsealed. -/
def kenterRegs (n : Nat) (e : Entry) (s : State) : State :=
  match e with
  | .after (.kenter ks kt) => updFacet n (fun f =>
      let k := tset {} f.k (kKey 1 15) ⟨setFld ks.cap 96 16 0, true⟩
      { f with k := tset {} k (kKey 1 14) ⟨setFld kt.cap 96 16 0, true⟩ }) s
  | _ => s

/-- The facet as the report of a third fault names it: an entry that follows a retirement names the bundle that retired (R202). -/
def atFault (n : Nat) (e : Entry) (s : State) : State :=
  match e with
  | .after _ => updFacet n (fun f => { f with pc := f.lastIdx }) s
  | _ => s

/-- Taking an entry at the boundary of this FCLK: the drain, then E1 to E3; the first bundle of the handler issues at E4 + 1, and the clock
decides at E4 whether a second entry comes first (R187). Landings and saves of FCLK up to E3 are made at once. DEDUCED, log entry 16. -/
def takeEntry (n : Nat) (e : Entry) (s : State) : State :=
  let s := finishLong n (longProgress n s)
  let e1 := s.fclk + drainLen (facet s n)
  match entryLevel e (fsLVL (facet s n).fs) with
  | none => facetReset n 1 (entryCause e) (atFault n e s)
  | some l =>
    let s := drainFacet n s
    if !bit (facet s n).xvb 0 then facetReset n 2 (entryCause e) (atFault n e s)
    else kenterRegs n e (updFacet n (enterLevel e1 l (entryCause e) (entryTarget n e)) (clearEntry n e s))

/-- A facet whose boundary may take an entry (R64, R540); a TAS in flight that must read an uncorrectable word waits (R262).
DEDUCED, log entry 16. -/
def canEnter (s : State) (n : Nat) : Bool :=
  let f := facet s n
  (bit f.ctl 0 || f.second) && !bit f.ctl 1 && crownUp s (crownOf n) && !f.loopAct
    && !(tasWords (f.flights.map (·.land))).any (wordBad s)

/-- The next FCLK, from the present one, at which facet n stands at a boundary: of a bundle, or of an element of its long operation, which
finishes the element in progress (R130, R181). -/
def boundaryAt (s : State) (n : Nat) : Nat :=
  let f := facet s n
  let t := max s.fclk f.ready
  match f.wait with
  | .long l =>
    let per := longPer f l.op
    if longEnd f l ≤ t then t else max t (l.start + 4 + per * ((t - l.start - 4 + per - 1) / per))
  | _ => t

end Sys2Proof.Machine
end

