-- ==== Sys2Proof/Machine/FacetRegs.lean ====
section
/-! DEFINITION. The facet register block (R58 to R67): reads, and the writes it accepts. -/
namespace Sys2Proof.Machine

/-- The byte offset `o` of an accumulator image within its 96 bytes, as 8 bytes. -/
def accWord (v : BitVec 768) (i : Nat) : BitVec 64 := if i < 12 then (v >>> (64 * i)).setWidth 64 else 0

def kTags (f : Facet) : Nat :=
  (List.range 32).foldl (fun v i => v + (if (tget ({} : KReg) f.k i).tag then 2 ^ i else 0)) 0

/-- A read through the block (R58 to R67). The key of FAC_PKEY reads 0. -/
def facetRegRead (s : State) (n o : Nat) : BitVec 64 :=
  let f := facet s n
  if o < 0x100 then (if o = 0 then 0 else tget 0 f.g (o / 8))
  else if o < 0x180 then (tget 0 f.a ((o - 0x100) / 8)).setWidth 64
  else if o < 0x1C0 then tget 0 f.w ((o - 0x180) / 8)
  else if 0x200 ≤ o ∧ o < 0x400 then
    let k := (tget ({} : KReg) f.k ((o - 0x200) / 16)).cap
    if o % 16 = 0 then k.setWidth 64 else (k >>> 64).setWidth 64
  else if o = 0x400 then BitVec.ofNat 64 (kTags f)
  else if 0x800 ≤ o ∧ o < 0x1000 then accWord (tget 0 f.acc ((o - 0x800) / 128)) (o % 128 / 8)
  else if o = 0x1000 then f.fs
  else if 0x1010 ≤ o ∧ o < 0x1028 then tget 0 f.xpc ((o - 0x1010) / 8 + 1)
  else if 0x1030 ≤ o ∧ o < 0x1048 then tget 0 f.xst ((o - 0x1030) / 8 + 1)
  else if 0x1050 ≤ o ∧ o < 0x1070 then tget 0 f.pbt ((o - 0x1050) / 8)
  else if 0x1080 ≤ o ∧ o < 0x10A0 then tget 0 f.lc ((o - 0x1080) / 8)
  else if 0x10A0 ≤ o ∧ o < 0x10C0 then tget 0 f.ls ((o - 0x10A0) / 8)
  else if 0x10C0 ≤ o ∧ o < 0x10E0 then tget 0 f.le ((o - 0x10C0) / 8)
  else if o = 0x10E0 then f.repc
  else if o = 0x10E8 then f.xvb
  else if o = 0x10F0 then f.ctx
  else if o = 0x10F8 then f.holdmax
  else if o = 0x1100 then f.arf
  else if 0x1140 ≤ o ∧ o < 0x1180 then featRead s n ((o - 0x1140) / 8)
  else if 0x1200 ≤ o ∧ o < 0x1240 then tget 0 f.g (88 + (o - 0x1200) / 8)
  else if 0x1240 ≤ o ∧ o < 0x1260 then (tget 0 f.a (76 + (o - 0x1240) / 8)).setWidth 64
  else if o = 0x1300 then f.ctl
  else if o = 0x1380 then f.cycles
  else if o = 0x1388 then f.bundles
  else if o = 0x1390 then f.replay
  else if o = 0x1398 then f.collapse
  else if o = 0x13A0 then f.discard
  else if 0x1400 ≤ o ∧ o < 0x1480 then tget 0 f.pkey ((o - 0x1400) / 8) &&& 0x8FFF000000000000
  else 0

/-- The value that a write through the block may not store (R60). -/
def blockRefuses (o : Nat) (v : BitVec 64) : Bool :=
  (decide (0x1080 ≤ o ∧ o < 0x10A0) && decide (65536 < fld v 0 17))
    || (o == 0x10E0 && decide (65536 < fld v 32 17)) || (o == 0x10F8 && decide (fld v 0 16 < 64))

/-- The registers that are written only while HALTED = 1 take the value (R58, R60, R61, R63); `arf` is what an ARF write clears (R6). -/
def haltedWrite (o : Nat) (v arf : BitVec 64) (f : Facet) : Facet :=
  if o < 0x100 then (if o = 0 then f else { f with g := tset 0 f.g (o / 8) v })
  else if o < 0x180 then { f with a := tset 0 f.a ((o - 0x100) / 8) (v.setWidth 48) }
  else if o < 0x1C0 then { f with w := tset 0 f.w ((o - 0x180) / 8) (v &&& winMask) }
  else if 0x200 ≤ o ∧ o < 0x400 then
    let i := (o - 0x200) / 16
    let k := (tget ({} : KReg) f.k i).cap
    { f with k := tset {} f.k i ⟨setFld k (if o % 16 = 0 then 0 else 64) 64 v.toNat, false⟩ }
  else if 0x800 ≤ o ∧ o < 0x1000 then
    if o % 128 < 96 then { f with acc := tset 0 f.acc ((o - 0x800) / 128) (setFld (tget 0 f.acc ((o - 0x800) / 128)) (64 * (o % 128 / 8)) 64 v.toNat) } else f
  else if o = 0x1000 then { f with fs := v &&& xstMask }
  else if 0x1010 ≤ o ∧ o < 0x1028 then { f with xpc := tset 0 f.xpc ((o - 0x1010) / 8 + 1) (v &&& pcMask) }
  else if 0x1030 ≤ o ∧ o < 0x1048 then { f with xst := tset 0 f.xst ((o - 0x1030) / 8 + 1) (v &&& xstMask) }
  else if 0x1050 ≤ o ∧ o < 0x1070 then { f with pbt := tset 0 f.pbt ((o - 0x1050) / 8) (v &&& pcMask) }
  else if 0x1080 ≤ o ∧ o < 0x10A0 then { f with lc := tset 0 f.lc ((o - 0x1080) / 8) (v &&& lcMask) }
  else if 0x10A0 ≤ o ∧ o < 0x10C0 then { f with ls := tset 0 f.ls ((o - 0x10A0) / 8) (v &&& pcMask) }
  else if 0x10C0 ≤ o ∧ o < 0x10E0 then { f with le := tset 0 f.le ((o - 0x10C0) / 8) (v &&& pcMask) }
  else if o = 0x10E0 then { f with repc := v &&& 0xFFFFFFFF0000FFFF }
  else if o = 0x10E8 then { f with xvb := v &&& 0x3F001 }
  else if o = 0x10F0 then { f with ctx := v &&& 0xFFF }
  else if o = 0x10F8 then { f with holdmax := v &&& 0xFFFF }
  else if o = 0x1100 then { f with arf := f.arf &&& ~~~arf }
  else if 0x1200 ≤ o ∧ o < 0x1240 then { f with g := tset 0 f.g (88 + (o - 0x1200) / 8) v }
  else if 0x1240 ≤ o ∧ o < 0x1260 then { f with a := tset 0 f.a (76 + (o - 0x1240) / 8) (v.setWidth 48) }
  else f

/-- A counter cleared by the steward's write of 0 (R67). -/
def counterWrite (o : Nat) (v : BitVec 64) (f : Facet) : Facet :=
  if v ≠ 0 then f
  else if o = 0x1380 then { f with cycles := 0 }
  else if o = 0x1388 then { f with bundles := 0 }
  else if o = 0x1390 then { f with replay := 0 }
  else if o = 0x1398 then { f with collapse := 0 }
  else { f with discard := 0 }

/-- The flush of R57 starts. -/
def startFlush (now : Nat) (f : Facet) : Facet := { f with ctl := setBit f.ctl 2 true, flushAt := now + 2048 }

/-- A write through the facet register block: the new state, or none where the block refuses it (R60, R65 to R67, R482). A write of FAC_CTL or
FAC_PKEY that is not the steward's is refused as a write that R60 refuses. DESIGN CHOICE, log entry 81. -/
def facetRegWrite (n o : Nat) (v : BitVec 64) (by_ : Agent) (s : State) : Option State :=
  let f := facet s n
  if !facetRegAssigned o then none
  else if inPartition s n && by_ != .loader then none
  else if o = 0x1300 then
    if by_ = .steward ∨ by_ = .loader then
      let f := { f with ctl := if bit v 0 then (f.ctl ||| 1) &&& ~~~2 else f.ctl &&& ~~~1 }
      some (setFacet n (if bit v 2 then startFlush s.fclk f else f) s)
    else none
  else if 0x1380 ≤ o ∧ o < 0x13A8 then some (if by_ = .steward then setFacet n (counterWrite o v f) s else s)
  else if 0x1400 ≤ o ∧ o < 0x1480 then
    if by_ = .steward then some (setFacet n { f with pkey := tset 0 f.pkey ((o - 0x1400) / 8) (v &&& 0x8FFF0000FFFFFFFF) } s) else none
  else if !bit f.ctl 1 then none
  else if blockRefuses o v then none
  else some (setFacet n (haltedWrite o v (w1c s (arfReg n) (v &&& 0xFFFFFFFF)) f) s)

end Sys2Proof.Machine
end

