-- ==== Sys2Proof/Machine/FacetEvents.lean ====
section
/-! DEFINITION. Facet events other than operations: entries, landings, the loop-end action, waits, long operations, reservations, halting
and running, the flush (R37 to R41, R57, R64, R65, R124, R128, R148, R160 to R164, R194, R198). -/
namespace Sys2Proof.Machine

/-- EXCEPTION_ENTRY. -/
def execExceptionEntry (n : Fin 128) (s : State) : Res :=
  let s := advanceTo (boundaryAt s n) s
  if canEnter s n then
    match firstEntry s n with
    | some e => .next (takeEntry n e s)
    | none => .refused .notEnabled
  else .refused .notEnabled

/-- RESULT_LANDING: the results that the next bundle sees land, at its FCLK (R39 to R41). Their shadows still cover that bundle and the one
after it (R49). -/
def earlyLand (n : Nat) (s : State) : State :=
  let f := facet s n
  let due := dueLands f
  let s := setFacet n { f with flights := f.flights.filter (fun x => decide (1 < x.left)), landed := f.landed ++ landWords due,
                               lpWas := f.lpWas ++ loopWas f due } s
  let old := f.shadows.length
  let s := landAll n due s
  updFacet n (fun f => { f with shadows := f.shadows.take old ++ (f.shadows.drop old).map fun x => { x with left := x.left + 1 } }) s
/-- During a stall every result in flight is frozen (R37). -/
def canLand (s : State) (n : Nat) : Bool :=
  let f := facet s n
  !(dueLands f).isEmpty && crownUp s (crownOf n) && (f.wait == .none) && !f.loopAct && !(tasWords (dueLands f)).any (wordBad s)
def execResultLanding (n : Fin 128) (s : State) : Res := gateAt (canLand s n) (facet s n).ready s (earlyLand n)

/-- The loop-end action (R148). -/
def execLoopEndAction (n : Fin 128) (s : State) : Res :=
  gate (facet s n).loopAct (updFacet n loopAction s)

/-- HOLD_OVERRUN: the hold counter reaches the limit (R198). -/
def execHoldOverrun (n : Fin 128) (s : State) : Res :=
  let f := facet s n
  let e2 := match f.e4 with | some e => e - 2 | none => 0
  gate (f.holdDue || (holdCounts s n f && crownUp s (crownOf n)))
    (if f.holdDue then s else advanceTo (max e2 s.fclk + (fld (effHoldmax f) 0 16 - f.hold)) s)

/-- The wait bundle retires; its result and its pointer updates land with the start of the next bundle, which issues in this FCLK (R40, R160,
R161, R163). DEDUCED, log entry 14. -/
def endWait (n dst : Nat) (v : BitVec 64) (s : State) : State :=
  let f := facet s n
  let s := setFacet n { f with wait := .none, ready := s.fclk } s
  let s := (f.bundle.flatMap (opUpdates f)).foldl (fun s l => putFlight n 1 l s) s
  retire n f f.bundle (putFlight n 1 (.g (if dst = 0 then 0 else gKey f dst) v) s)

/-- No entry ends the wait of facet n, and its crown runs (R163, R540). -/
def mayEnd (s : State) (n : Nat) : Bool := !entryDue s n (facet s n) && crownUp s (crownOf n)

/-- TWAIT_RELEASE: the first FCLK after issue whose tick count is at least b, unless an entry is due by then (R160, R163, R164). -/
def execTwaitRelease (n : Fin 128) (s : State) : Res :=
  match (facet s n).wait with
  | .time f0 b dst =>
    let u := advanceTick b.toNat (advanceTo (f0 + 1) s)
    if mayEnd s n && mayEnd u n then .next (endWait n dst (BitVec.ofNat 64 u.tb.tick - b) u) else .refused .notEnabled
  | _ => .refused .notEnabled

/-- EWAIT_RELEASE: a masked flag is set (R161). -/
def execEwaitRelease (n : Fin 128) (s : State) : Res :=
  match (facet s n).wait with
  | .event f0 mask clr dst =>
    let u := advanceTo (f0 + 1) s
    let seen := (facet u n).ef &&& mask
    if mayEnd s n && mayEnd u n && (seen != 0 || mask == 0) then
      .next (endWait n dst (seen.setWidth 64) (if clr then updFacet n (fun f => { f with ef := f.ef &&& ~~~seen }) u else u))
    else .refused .notEnabled
  | _ => .refused .notEnabled

/-- LONG_OP_DONE: the last element is done and the next bundle issues (R128, R129), unless an entry comes first or an uncorrectable word stalls it
(R130, R262). -/
def execLongOpDone (n : Fin 128) (s : State) : Res :=
  match (facet s n).wait with
  | .long l =>
    let u := longProgress n (advanceTo (longEnd (facet s n) l) s)
    let f := facet u n
    if mayEnd s n && mayEnd u n && longCount f l.op == 0 then
      .next (retire n f f.bundle (setFacet n { f with wait := .none, ready := u.fclk } u))
    else .refused .notEnabled
  | _ => .refused .notEnabled

/-- RESERVATION_EXPIRY: 4,096 FCLK after the LDR reached its crown store (R124, R248). -/
def execReservationExpiry (n : Fin 128) (s : State) : Res :=
  match (facet s n).resv with
  | some (_, d) => gateAt (crownUp s (crownOf n)) d s (updFacet n fun f => { f with resv := none })
  | none => .refused .notEnabled

/-- The halt at a bundle boundary: drain, HALTED, the hold counter to 0 (R64, R194, R198). A wait or long operation ends and is
issued again after RUN. -/
def haltFacet (n : Nat) (s : State) : State :=
  let s := drainFacet n (finishLong n (longProgress n s))
  updFacet n (fun f => { f with ctl := setBit (setBit f.ctl 1 true) 0 false, hold := 0, holdDue := false, wait := .none,
                                bundle := [], presented := none, shadows := [], landed := [], lpWas := [] }) s
/-- A facet whose boundary may halt it. -/
def canHalt (s : State) (n : Nat) : Bool :=
  let f := facet s n
  !bit f.ctl 0 && !bit f.ctl 1 && !f.loopAct && !f.second && crownUp s (crownOf n) && !(tasWords (f.flights.map (·.land))).any (wordBad s)
def execFacetHalted (n : Fin 128) (s : State) : Res :=
  let u := advanceTo (boundaryAt s n) s
  gate (canHalt u n) (haltFacet n u)

/-- FAC_CTL_RUN: issue starts at the index at which the facet stands: 0 after a reset, else its resume index (R65, R68, R194). -/
def execFacCtlRun (n : Fin 128) (s : State) : Res :=
  .next (if inPartition s n then s else facetRun n s)

/-- FAC_CTL_HALT: RUN := 0; FACET_HALTED follows at the next boundary (R64). -/
def execFacCtlHalt (n : Fin 128) (s : State) : Res :=
  .next (if inPartition s n then s else updFacet n (fun f => { f with ctl := setBit f.ctl 0 false }) s)

/-- PFLUSH (R57). -/
def execPflush (n : Fin 128) (s : State) : Res :=
  .next (if inPartition s n then s else updFacet n (startFlush s.fclk) s)

/-- PFLUSH_DONE: every entry invalid, within 2,048 FCLK (R57). -/
def execPflushDone (n : Fin 128) (s : State) : Res :=
  gate (bit (facet s n).ctl 2) (updFacet n (fun f => { f with btb := [], ctl := setBit f.ctl 2 false, predTaken := [] }) s)

end Sys2Proof.Machine
end

