-- ==== Sys2Proof/Machine/FabricOps.lean ====
section
/-! DEFINITION. Fabric frames that the package sends, and fabric events (R328 to R330, R528, R529, R532); MSI-X messages
(R404, R512). -/
namespace Sys2Proof.Machine

/-- The package number (R25). -/
def localPkg (s : State) : Nat := rfld s (sesReg 0x20) 0 8

/-- The bytes of a frame from +0 to the end of the payload (R528). -/
def fabBytes (f : FabFrame) : List Byte :=
  natBytes 1 (f.ver.toNat * 16 + f.ty.toNat) ++ [f.flags, f.spkg, f.dpkg] ++ natBytes 4 f.fabid.toNat
    ++ natBytes 4 f.seq.toNat ++ natBytes 2 f.payload.length ++ natBytes 2 f.code.toNat ++ natBytes 8 f.addr.toNat ++ f.payload

/-- CRC-32C with initial value and final XOR all ones (R114 code 4, R528). -/
def fabCrc (f : FabFrame) : BitVec 32 := BitVec.ofNat 32 (crcAdvance 4 0xFFFFFFFF (fabBytes f)) ^^^ 0xFFFFFFFF

/-- A frame of this package. -/
def mkFrame (s : State) (ty code dpkg addr seq : Nat) (payload : List Byte) : FabFrame :=
  let f : FabFrame := { station := Config.station 0, ver := 1, ty := BitVec.ofNat 4 ty, flags := 0, spkg := BitVec.ofNat 8 (localPkg s),
                        dpkg := BitVec.ofNat 8 dpkg, fabid := s.fabric.fabid, seq := BitVec.ofNat 32 seq,
                        code := BitVec.ofNat 16 code, addr := BitVec.ofNat 64 addr, payload := payload, crc := 0 }
  { f with crc := fabCrc f }

/-- Send a frame that awaits an answer: a request, an event or a report (R529). -/
def sendFabric (ty code dpkg addr : Nat) (payload : List Byte) (owner : Option (Nat × Nat)) (s : State) : State :=
  let q := tget 0 s.fabric.seqs dpkg
  let f := mkFrame s ty code dpkg addr q payload
  let fb : Fabric := { s.fabric with seqs := tset 0 s.fabric.seqs dpkg ((q + 1) % 2 ^ 32), out := s.fabric.out ++ [{ fr := f, at_ := s.fclk, chan := owner }] }
  emit (.fabric f) (setFabric fb s)

/-- A control frame (TYPE 0), whose payload is Gleby's own. It awaits no answer. -/
def sendControl (dpkg : Nat) (c : Control) (s : State) : State :=
  let q := tget 0 s.fabric.seqs dpkg
  emit (.fabric (mkFrame s 0 0 dpkg 0 q ((Config.controlBytes c).take 256)))
    (setFabric { s.fabric with seqs := tset 0 s.fabric.seqs dpkg ((q + 1) % 2 ^ 32) } s)

/-- A control frame goes to a member, if there is one. -/
def tellMember (d : Option Nat) (c : Control) (s : State) : State :=
  match d with
  | some d => sendControl d c s
  | none => s

/-- The packages of the fabric, the local one included; the registrar is the lowest, the deputy the next (R393). -/
def members (s : State) : List Nat := if s.fabric.joined then sadd s.fabric.present (localPkg s) else [localPkg s]
def isRegistrar (s : State) : Bool := (members s).head? == some (localPkg s)

/-- The steward source of fabric conditions with a package (R532). -/
def fabSource (pkg : Nat) : Nat := 608 + pkg % 32

/-! ### Receiving (R529) -/

/-- The frame's FABID, SPKG and station match the membership. -/
def fabMember (s : State) (f : FabFrame) : Bool :=
  s.fabric.joined && f.fabid == s.fabric.fabid && s.fabric.present.contains f.spkg.toNat
    && tget 0 s.fabric.stations f.spkg.toNat == f.station

/-- A frame that a receiver drops: its CRC fails, VER or TYPE is reserved, or it is no member's (R529). -/
def fabBad (s : State) (f : FabFrame) : Bool := fabCrc f != f.crc || f.ver != 1 || decide (8 ≤ f.ty.toNat) || !fabMember s f

/-- An answer to a frame: a response, an acknowledgement or a refusal with the frame's SEQ. -/
def fabAnswer (s : State) (f : FabFrame) (ty code : Nat) (payload : List Byte) : FabFrame :=
  mkFrame s ty code f.spkg.toNat 0 f.seq.toNat payload

/-- A frame of a package was heard now. -/
def heardFrom (src : Nat) (s : State) : State :=
  setFabric { s.fabric with heard := tset 0 s.fabric.heard src s.fclk } s

/-- What the answer to a frame leaves: refusals raise the package's source, kept answers join the last 256, the answer goes out. -/
def fabReplyOut (src : Nat) (f : FabFrame) (q : FabFrame × Bool × State) : State :=
  let s := if q.1.ty = 5 then raiseSteward (fabSource src) q.2.2 else q.2.2
  let log := ((f.seq.toNat, q.1) :: tget [] s.fabric.seen src).take 256
  emit (.fabric q.1) (if q.2.1 then setFabric { s.fabric with seen := tset [] s.fabric.seen src log } s else s)

/-- A received frame of one of the given types: dropped and counted, answered again as a repeat, or acted on. `act` gives the
answer, whether the SEQ is remembered, and the state (R528, R529). No rule names a check of DPKG, and a frame with another DPKG is served
like one for this package. DESIGN CHOICE, log entry 72. -/
def fabReceive (tys : List Nat) (f : FabFrame) (act : State → FabFrame × Bool × State) (s : State) : Res :=
  let src := f.spkg.toNat
  if domState s 36 ≠ 1 then .refused .notEnabled
  else if fabBad s f then
    .next (raiseSteward (fabSource src) (setFabric { s.fabric with drops := s.fabric.drops + 1 } s))
  else if !tys.contains f.ty.toNat then .refused .notEnabled
  else
    let s := heardFrom src s
    match (tget [] s.fabric.seen src).find? fun p => p.1 == f.seq.toNat with
    | some p => .next (emit (.fabric p.2) s)
    | none => .next (fabReplyOut src f (act s))

/-- A refused or dropped fabric request in the girdle error log (R23, R330): no rule states the entry's SRC, PORT, LANE and SYND. -/
def logFabric (a : Nat) (s : State) : State :=
  let (v, s) := drawFree s
  logEvents 16 [⟨fld v 0 3, fld v 3 3, fld v 6 6, fld v 12 5, 0, a, false, false⟩] s

/-- A fabric event at the import (R328 to R330): `member` says that it comes from this package or one in the fabric. -/
def fabImport (member : Bool) (e act : Nat) (s : State) : State :=
  let imp := rget s (hatReg 0x18)
  if bit imp 63 && decide (fld imp 0 12 ≤ e ∧ e ≤ fld imp 16 12) && member then
    let s := setFabric { s.fabric with events := s.fabric.events ++ [(e, act, s.fclk)] } s
    if act ≤ s.tb.tick then raiseSteward 608 (rsat (hatReg 0x10) 16 16 1 s) else s
  else
    let s := logFabric (hatReg 0x18) s
    raiseSteward 608 (rbitSet (hatReg 0x10) 4 true s)

/-- Send an MSI-X message, or hold it while its mask is set (R404, R512). -/
def sendMsix (f v : Nat) (s : State) : State :=
  if s.msixOpen.contains (64 * f + v) then emit (.msix f v) s else setMsixHeld (sadd s.msixHeld (64 * f + v)) s

/-- A pulse at a steward source; sources from 1,007 send a PF1 vector when they accept it (R512). -/
def stewardPulse (src : Nat) (s : State) : State :=
  let before := (intSrc s stewardCtl src).lastAcc
  let s := raiseSteward src s
  if 1007 ≤ src ∧ (intSrc s stewardCtl src).lastAcc ≠ before then sendMsix 1 (src - 1007) s else s

/-! ### MAC counters and stamps (R519, R520, R523) -/

/-- A register of MAC m. -/
def macReg (m o : Nat) : Nat := ethReg (m * 0x1000 + o)
/-- Counters in the order of R519: 0 frames, 1 octets, 2 FCS errors, 3 runts, 4 oversize, 5 and 6 FEC corrected and
uncorrected code words, 7 queue drops. A counter of FCS errors, uncorrected code words or drops that leaves 0 raises
source 304 + m (R523). -/
def macCount (m i n : Nat) (s : State) : State :=
  let a := macReg m (0x100 + 8 * i)
  let s' := rset a (rget s a + BitVec.ofNat 64 n) s
  if (i = 2 ∨ i = 6 ∨ i = 7) ∧ rget s a = 0 then raiseSteward (304 + m) s' else s'

/-- The fixed delays of R520 in ticks, to the nearest. -/
def txDelay (s : State) (m : Nat) : Nat :=
  let c := rget s (macReg m 0)
  if fld c 1 2 = 0 then 63 else if fld c 3 2 = 1 then 110 else 46
def rxDelay (s : State) (m : Nat) : Nat :=
  let c := rget s (macReg m 0)
  if fld c 1 2 = 0 then 86 else if fld c 3 2 = 1 then 290 else 60

/-- A two-step transmit stamp enters ETH_TXTS, or is dropped and counted (R520). -/
def txStamp (m tick seq : Nat) (s : State) : State :=
  let x := tget ({} : Mac) s.macs m
  if 16 ≤ x.ts.length then macCount m 7 1 s
  else setMacs (tset {} s.macs m { x with ts := x.ts ++ [(BitVec.ofNat 64 tick, seq)] }) s

/-- IEEE 1588 seconds and nanoseconds of a tick count (R304). -/
def ptpSec (t : Nat) : Nat := t / 1200000000
def ptpNs (t : Nat) : Nat := t % 1200000000 * 5 / 6
def ptpFrac (t : Nat) : Nat := t % 1200000000 * 5 % 6 * 65536 / 6
/-- The tick count of a PTP time (R304). -/
def ptpTick (sec ns frac : Nat) : Nat := sec * 1200000000 + (ns * 6 + (frac * 6 + 65535) / 65536) / 5

end Sys2Proof.Machine
end

