-- ==== Sys2Proof/Machine/Interrupts.lean ====
section
/-! DEFINITION. Interrupt-controller commands (R205 to R223): facet controllers 0 to 127, the steward's 128. -/
namespace Sys2Proof.Machine

/-- The controller runs: its crown is at P0 (R222); the steward's always does. -/
def ctlUp (s : State) (k : Nat) : Bool := k == stewardCtl || crownUp s (crownOf k)

/-- Whether the condition of a level source holds (R205, R206). -/
def levelOf (s : State) (k i : Nat) : Bool :=
  if k = stewardCtl then !(facet s (i - 128)).reqRing.isEmpty else !(facet s k).staging.isEmpty

/-- INT_SOURCE_EVENT (R205, R206, R208): a pulse source has an event; a level source's raw level follows its condition.
Sources 51 to 63 of a facet are software's alone. Source 318 is then raised by the bezel: the other blocks that share it raise it in
their own commands (R221). DESIGN CHOICE, log entry 71. -/
def execIntSourceEvent (k : Fin 129) (i : Fin 1024) (s : State) : Res :=
  if !isSource k i then .refused .notEnabled
  else if isLevelSrc k i then gate (ctlUp s k) (setRaw k i (levelOf s k i) s)
  else if k = stewardCtl then .next (if i = 318 then raiseGirdle 0 s else stewardPulse i s)
  else gate (decide (i.val < 51)) (facetPulse k i s)

/-- FCLK in which a clock of the controller begins. -/
def clockFclk (k c : Nat) : Nat := if k = stewardCtl then 2 * c else c

/-- LEVEL_FILTER_SETTLE: the raw level has held for Lf clocks (R208). -/
def execLevelFilterSettle (k : Fin 129) (i : Fin 1024) (s : State) : Res :=
  let x := intSrc s k i
  gateAt (isLevelSrc k i && isSource k i && ctlUp s k && x.raw != x.flevel) (clockFclk k (x.rawAt + fltLen x - 1)) s
    (setFiltered k i x.raw)

/-- BATCH_TIMER_EXPIRY: clock = deadline (R209). -/
def execBatchTimerExpiry (k : Fin 129) (i : Fin 1024) (s : State) : Res :=
  match (intSrc s k i).deadline with
  | some d => gateAt (ctlUp s k) (clockFclk k d) s fun s =>
      setIntSrc k i { intSrc s k i with pending := true, deadline := none } s
  | none => .refused .notEnabled

/-- Gleby, which takes source 317, clears the DFAULT bits, whose events it has recorded (R308). DESIGN CHOICE, log entry 73. -/
def clearDfault (k v : Nat) (s : State) : State :=
  if k = stewardCtl ∧ v % 1024 = 317 then rput (timReg 0x40) 8 6 0 s else s

/-- INT_CLAIM: the value goes to the reader (R212). -/
def execIntClaim (k : Fin 129) (fast : Bool) (s : State) : Res :=
  let v := (claimValue s k fast).toNat
  gate (ctlUp s k) (clearDfault k v (claim k fast (emit (.value v) s)))

/-- INT_EOI (R213). -/
def execIntEoi (k : Fin 129) (i : Fin 1024) (s : State) : Res := gate (ctlUp s k) (intEoi k i s)

/-- INT_SETP (R214). -/
def execIntSetp (k : Fin 129) (i : Fin 1024) (s : State) : Res := gate (ctlUp s k) (intSetp k i s)

/-- INT_CLRP (R214); a locked source refuses it, and the steward hears of it (R219). -/
def execIntClrp (k : Fin 129) (i : Fin 1024) (s : State) : Res :=
  gate (ctlUp s k) (if srcLocked s k i then tellSteward (crownIntReg k 0x44) .steward s else intClrp k i s)

/-- INT_SCFG_WRITE (R215, R220); a locked source refuses it, and the steward hears of it (R219). -/
def execIntScfgWrite (k : Fin 129) (i : Fin 1024) (v : BitVec 64) (s : State) : Res :=
  gate (ctlUp s k) (if srcLocked s k i then tellSteward (crownIntReg k 0x46) .steward s else scfgWrite k i v s)

/-- The first FCLK of P0 after sleep at source i of facet n: recorded events are accepted at once, the filter restarts with the
filtered level equal to the raw level, and a level that came and went makes its source pending (R223). -/
def wakeSource (n i : Nat) (s : State) : State :=
  let x := intSrc s n i
  let m := x.recorded
  let s := setIntSrc n i { x with recorded := 0, recLevel := false, lastAcc := none, rawAt := intClock s n } s
  let s := if x.raw != x.flevel then setFiltered n i x.raw s else s
  let s := if m = 0 then s else
    let s := acceptEvents n i m s
    setIntSrc n i { intSrc s n i with lastAcc := none } s
  if x.recLevel && !x.active then
    setIntSrc n i { intSrc s n i with pending := true, evcnt := 1 } s
  else s

def wakeSources (n : Nat) (s : State) : State :=
  (s.ints.filter fun p => decide (p.1 / 1024 = n)).foldl (fun s p => wakeSource n (p.1 % 1024) s) s

end Sys2Proof.Machine
end

