-- ==== Sys2Proof/Machine/Lines.lean ====
section
/-! DEFINITION. What a serializer puts on the line and reads from it: bytes as bits, stuffing, coding, waves (R336, R337). -/
namespace Sys2Proof.Machine

/-- What governs the line of a cell (R336, R337): BITPER, CODE, DUTY, CPOL, CPHA. -/
structure LineCfg where
  bitper : Nat
  code : Nat
  duty : Nat
  cpol : Bool
  cpha : Bool
  deriving DecidableEq, Repr

/-- A byte's bits in line order. -/
def byteBits (msbf : Bool) (b : Byte) : List Bool := (List.range 8).map fun i => b.getLsbD (if msbf then 7 - i else i)

/-- Bits in line order as bytes, a final partial byte padded with zeros (R365). -/
def packBits (msbf : Bool) : Nat → List Bool → List Byte
  | 0, _ => []
  | fuel + 1, bits =>
    if bits.isEmpty then [] else
    let h := bits.take 8
    let v := (List.range 8).foldl (fun v i =>
      if h.getD i false then v + (if msbf then 2 ^ (7 - i) else 2 ^ i) else v) 0
    BitVec.ofNat 8 v :: packBits msbf fuel (bits.drop 8)

/-- The line after one more bit: under CODE 1 a 0 changes the level; `run` counts 1 bits under CODE 1, equal bits under CODE 2. -/
def LineSt.after (c : LineCfg) (x : LineSt) (b : Bool) : LineSt :=
  { level := if c.code = 1 then (if b then x.level else !x.level) else b,
    last := b,
    run := if c.code = 1 then (if b then x.run + 1 else 0) else if b = x.last then x.run + 1 else 1 }

/-- A stuffed bit is due before the next bit (R337): after six 1 bits under CODE 1, after five equal bits under CODE 2. -/
def LineSt.due (c : LineCfg) (x : LineSt) : Bool := (c.code == 1 && x.run == 6) || (c.code == 2 && x.run == 5)
/-- The stuffed bit: a 0, or the opposite bit. -/
def LineSt.stuffed (c : LineCfg) (x : LineSt) : Bool := c.code == 2 && !x.last

/-- The bits of a transmission with the stuffed bits in place, and the line after them. -/
def txBits (c : LineCfg) (stuff : Bool) : List Bool → LineSt → List Bool × LineSt
  | [], x => ([], x)
  | b :: t, x =>
    let pre := stuff && x.due c
    let y := if pre then x.after c (x.stuffed c) else x
    let r := txBits c stuff t (y.after c b)
    ((if pre then [x.stuffed c, b] else [b]) ++ r.1, r.2)

/-- The level of each bit period: NRZI under CODE 1, the bit itself otherwise. -/
def levels (c : LineCfg) : List Bool → LineSt → List Bool
  | [], _ => []
  | b :: t, x => (x.after c b).level :: levels c t (x.after c b)

/-- `want` bits read from the levels at the sample points from bit period `i` on, stuffed bits removed; the next bit period and the line. -/
def rxBits (c : LineCfg) (stuff : Bool) (lvl : Nat → Bool) : Nat → Nat → Nat → LineSt → List Bool × Nat × LineSt
  | 0, i, _, x => ([], i, x)
  | fuel + 1, i, want, x =>
    if want = 0 then ([], i, x) else
    let b := if c.code = 1 then lvl i == x.level else lvl i
    let drop := stuff && x.due c
    let r := rxBits c stuff lvl fuel (i + 1) (if drop then want else want - 1) (x.after c b)
    (if drop then r.1 else b :: r.1, r.2)

/-- FCLK from the start of a bit period to its sample point (R336, R337). -/
def sampleOffset (c : LineCfg) : Nat := if c.code = 3 then 2 * c.duty else if c.cpha then c.bitper else c.bitper / 2

/-- The level of a line at offset `t`, from its level at offset 0 and its changes. -/
def levelAt (first : Bool) (wave : List (Nat × Bool)) (t : Nat) : Bool :=
  ((wave.filter fun e => decide (e.1 ≤ t)).getLast?.map (·.2)).getD first

/-- What a data pad does in the bit periods of `bits`: FCLK and level, one after the other. -/
def dataWave (c : LineCfg) (bits : List Bool) (x : LineSt) : List (Nat × Bool) :=
  if c.code = 3 then bits.flatMap fun b => let low := if b then c.duty else c.bitper - c.duty; [(low, false), (c.bitper - low, true)]
  else if c.code = 4 then bits.flatMap fun _ => [(c.duty, true), (c.bitper - c.duty, false)]
  else (levels c bits x).map fun l => (c.bitper, l)

/-- What a clock pad does in `n` bit periods (R336). -/
def clockWave (c : LineCfg) (n : Nat) : List (Nat × Bool) :=
  (List.range n).flatMap fun _ => [(c.bitper / 2, c.cpol), (c.bitper - c.bitper / 2, !c.cpol)]

/-- What a PWM pad does in `n` bit periods (R337). -/
def pwmWave (c : LineCfg) (n : Nat) : List (Nat × Bool) :=
  (List.range n).flatMap fun _ => [(c.duty, true), (c.bitper - c.duty, false)]

/-- The first `n` FCLK of a wave. -/
def cutWave : Nat → List (Nat × Bool) → List (Nat × Bool)
  | _, [] => []
  | n, (d, l) :: t => if n = 0 then [] else if n ≤ d then [(n, l)] else (d, l) :: cutWave (n - d) t

end Sys2Proof.Machine
end

