-- ==== Sys2Proof/Machine/Cells.lean ====
section
/-! DEFINITION. Port cells (R331 to R352): registers, FIFOs, launches, events, enabling. -/
namespace Sys2Proof.Machine

def setCell (p : Nat) (x : Cell) (s : State) : State := { s with cells := tset {} s.cells p x }
def updCell (p : Nat) (h : Cell → Cell) (s : State) : State := setCell p (h (cell s p)) s
def thread (s : State) (t : Nat) : Thread := tget {} s.threads t
def setThread (t : Nat) (x : Thread) (s : State) : State := { s with threads := tset {} s.threads t x }

/-- The group of a cell and its spine are on (R352, R538). -/
def cellOn (s : State) (p : Nat) : Bool := domState s (22 + groupOf p) == 1 && domState s (20 + brimDieOf p) == 1

/-- Set an event bit in the latch of the thread whose own cell is p, whatever its state (R367). -/
def latchEvent (p i : Nat) (s : State) : State :=
  let t := thread s p
  setThread p { t with latch := t.latch ||| BitVec.ofNat 16 (2 ^ i),
                       latchAt := if t.latch &&& t.mask = 0 then s.fclk else t.latchAt } s

/-- A condition of R345 occurs in cell p: events 0 and 1 that select it. -/
def cellEvent (p cond : Nat) (s : State) : State :=
  [0, 1].foldl (fun s e =>
    if rfld s (cellReg p 0x28) (4 * e) 4 = cond then
      let s := raiseHat (0x1000 + 2 * p + e) s
      let s := rset (cellReg p (0x38 + 8 * e)) (BitVec.ofNat 64 s.tb.tick) s
      let s := rput (cellReg p 0x30) (48 + 8 * e) 8 (rfld s (cellReg p 0x30) (48 + 8 * e) 8 + 1) s
      latchEvent p e s
    else s) s

def cellStat (p i : Nat) (s : State) : State := rbitSet (cellReg p 0x30) i true s

/-! ### Pairs, configuration checks (R334, R336, R341) -/

def cellEn (s : State) (p : Nat) : Bool := rbit s (cellReg p 0) 0
/-- The leader of a follower. -/
def leaderOf (s : State) (p : Nat) : Option Nat :=
  if p % 2 = 1 && rbit s (cellReg (p - 1) 0) 1 then some (p - 1) else none
/-- The cells that burst together with p. -/
def pairCells (s : State) (p : Nat) : List Nat :=
  if p % 2 = 0 && rbit s (cellReg p 0) 1 then [p, p + 1] else match leaderOf s p with
    | some l => [l, p]
    | none => [p]
/-- The PRT_SER whose BITPER, CODE, CPOL, CPHA and MSBF govern cell p. -/
def serOf (s : State) (p : Nat) : BitVec 64 := rget s (cellReg ((leaderOf s p).getD p) 0x10)
def bitper (s : State) (p : Nat) : Nat := fld (serOf s p) 0 22
def padFunc (s : State) (p : Nat) (b : Bool) : Nat := rfld s (cellReg p 8) (if b then 28 else 12) 4
/-- The line of cell p. DUTY is its own: the pair shares the leader's BITPER, CODE, CPOL, CPHA and MSBF (R336). -/
def lineCfg (s : State) (p : Nat) : LineCfg :=
  let v := serOf s p
  { bitper := fld v 0 22, code := fld v 24 3, duty := rfld s (cellReg p 0x10) 36 20, cpol := bit v 29, cpha := bit v 28 }
def cellMsbf (s : State) (p : Nat) : Bool := bit (serOf s p) 27
/-- The pad from which a cell receives: of FUNC 4 or 5, or pad A with the differential receiver (R341). DEDUCED, log entry 36. -/
def inputPad (s : State) (p : Nat) : Option Bool :=
  let reads (b : Bool) : Bool := let f := padFunc s p b; f == 4 || f == 5 || f == 8
  if reads false then some false else if reads true then some true else none
def hasInput (s : State) (p : Nat) : Bool := (inputPad s p).isSome
def cellBusy (s : State) (p : Nat) : Bool := (cell s p).burst.isSome || !(cell s p).queue.isEmpty

/-- A configuration that R334 refuses in a running cell, for the given register values. -/
def cellBad (s : State) (p : Nat) (ctl pad ser lb : BitVec 64) : Bool :=
  let follower := (leaderOf s p).isSome
  let vsel := rbit s (grpReg (groupOf p) 0) 1
  let fa := fld pad 12 4
  let fb := fld pad 28 4
  let pa := fld pad 5 3
  let pb := fld pad 21 3
  decide (10 < fa ∨ 10 < fb ∨ 5 < pa ∨ 5 < pb) || (fa == 8) != (fb == 8)
    || (vsel && (pa == 4 || pa == 5 || pb == 4 || pb == 5))
    || (!follower && decide (4 < fld ser 24 3)) || decide (8 < fld ser 32 4)
    || (!follower && decide (fld ser 0 22 < 4))
    || decide (256 < fld lb 0 9 ∨ 256 < fld lb 16 9 ∨ 256 < fld lb 32 8 + fld lb 16 9)
    || (bit ctl 1 && p % 2 == 1)
/-- Reserved values of launch actions and event conditions, with which a cell does not start (R9). -/
def cellReserved (s : State) (p : Nat) : Bool :=
  rfld s (cellReg p 0x18) 49 2 == 3 || decide (12 ≤ rfld s (cellReg p 0x28) 0 4) || decide (12 ≤ rfld s (cellReg p 0x28) 4 4)
def cellBadNow (s : State) (p : Nat) : Bool :=
  cellBad s p (rget s (cellReg p 0)) (rget s (cellReg p 8)) (rget s (cellReg p 0x10)) (rget s (cellReg p 0x18))

/-! ### FIFOs (R339, R340) -/

/-- A byte enters the RX FIFO, or is dropped. -/
def rxPush (p : Nat) (b : Byte) (s : State) : State :=
  let c := cell s p
  if 256 ≤ c.rx.length then cellEvent p 9 (cellStat p 0 s)
  else
    let s := latchEvent p 3 (setCell p { c with rx := c.rx ++ [b] } s)
    let mark := rfld s (cellReg p 0x20) 32 9
    if mark ≠ 0 ∧ c.rx.length + 1 = mark then cellEvent p 1 s else s

def rxPushAll (p : Nat) (bs : List Byte) (s : State) : State := bs.foldl (fun s b => rxPush p b s) s

/-- The TX FIFO has lost bytes: condition 4 and latch bit 4 when it has become empty. -/
def txAfter (p before : Nat) (s : State) : State :=
  if before ≠ 0 ∧ (cell s p).tx = [] then latchEvent p 4 (cellEvent p 4 s) else s

/-- Take `n` bytes from the TX FIFO, fewer if it holds fewer. -/
def txTake (p n : Nat) (s : State) : List Byte × State :=
  let c := cell s p
  (c.tx.take n, txAfter p c.tx.length (setCell p { c with tx := c.tx.drop n } s))

/-- A write to the TX window (R339). -/
def txWrite (p : Nat) (bs : List Byte) (s : State) : State :=
  let c := cell s p
  let free := 256 - c.tx.length
  let s := setCell p { c with tx := c.tx ++ bs.take free } s
  if free < bs.length then cellStat p 2 s else s

/-- A read of the RX window (R339): the bytes, and whether the FIFO held too few. -/
def rxRead (p n : Nat) (s : State) : List Byte × Bool × State :=
  let c := cell s p
  let got := c.rx.take n
  let s := setCell p { c with rx := c.rx.drop n } s
  (got ++ List.replicate (n - got.length) 0, decide (got.length < n), if got.length < n then cellStat p 1 s else s)

def flushRxFifo (p : Nat) (s : State) : State := updCell p (fun c => { c with rx := [] }) s
def flushTxFifo (p : Nat) (s : State) : State := (txTake p 256 s).2

/-! ### Pads (R332, R334, R335, R341, R365) -/

/-- What cell p does with a pad that its serializer does not drive with bits. A differential pair and an open-drain pad are released then.
DEDUCED, log entry 36. -/
def padDrive (s : State) (p : Nat) (b : Bool) : Drive :=
  let c := cell s p
  let pad := (rget s (cellReg p 8) >>> (if b then 16 else 0))
  let level (v : Bool) : Drive := if v && bit pad 8 then .pull (fld pad 5 3) else .level v
  let f := fld c.forced (if b then 2 else 0) 2
  if !cellOn s p || c.hiz then .hiz
  else if !cellEn s p then .pull (fld pad 5 3)
  else if f = 1 then .level false
  else if f = 2 then level true
  else match fld pad 12 4 with
    | 1 => level (bit pad 3 != bit pad 4)
    | 3 => level (true != bit pad 4)
    | 6 => level ((lineCfg s p).cpol != bit pad 4)
    | 9 => level (c.burst.isNone != bit pad 4)
    | 10 => level (bit pad 4)
    | _ => .pull (fld pad 5 3)
/-- What both pads of a cell do from here on. -/
def showPads (p : Nat) (s : State) : State := emit (.pads p (padDrive s p false) (padDrive s p true)) s

/-- What the serializer drives on a pad while it sends `bits`, if the pad takes part. -/
def padWave (s : State) (p : Nat) (b : Bool) (bits : List Bool) : Option (List (Nat × Bool)) :=
  let c := lineCfg s p
  let x := (cell s p).txLine
  let inv := rbit s (cellReg p 8) (if b then 20 else 4) != (padFunc s p b == 8 && b)
  let w := match padFunc s p b with
    | 3 => some (dataWave c bits x)
    | 5 => some (dataWave c bits x)
    | 8 => some (dataWave c bits x)
    | 6 => some (clockWave c bits.length)
    | 10 => some (pwmWave c bits.length)
    | _ => none
  w.map fun w => w.map fun e => (e.1, e.2 != inv)

/-- The serializer has sent `bits`, stuffed bits in place, from FCLK `start`: what its pads did in the first `n` FCLK of it, and the line. -/
def sendBits (p start n : Nat) (bits : List Bool) (s : State) : State :=
  let c := lineCfg s p
  let s := [false, true].foldl (fun s b =>
    match padWave s p b bits with
    | some w => emit (.wave (2 * p + b2n b) start (cutWave n w)) s
    | none => s) s
  updCell p (fun x => { x with txLine := bits.foldl (fun y b => y.after c b) x.txLine }) s

/-- The level of the receive pad in the bit period `i` of what started at wave offset `o`, at its sample point. -/
def sampled (s : State) (p o : Nat) (wave : List (Nat × Bool)) (i : Nat) : Bool :=
  match inputPad s p with
  | none => false
  | some b =>
    let first := if b then (cell s p).padB else (cell s p).padA
    levelAt first wave (o + i * bitper s p + sampleOffset (lineCfg s p)) != rbit s (cellReg p 8) (if b then 20 else 4)

/-- `want` bits that cell p reads from a wave, from bit period `i` on: without an input pad every bit is 0 (R341). A burst has no stuffed bits:
the blocker's marks do not reach it. DEDUCED, log entry 36. -/
def readBits (s : State) (p o : Nat) (wave : List (Nat × Bool)) (i want : Nat) : List Bool × Nat × LineSt :=
  let c := cell s p
  if hasInput s p then rxBits (lineCfg s p) (c.stuff && c.burst.isNone) (sampled s p o wave) (2 * want + 2) i want c.rxLine
  else (List.replicate want false, i + want, c.rxLine)

/-! ### Bursts and launches (R341 to R343) -/

/-- What a cell's burst sends in `n` bytes (R341). -/
def burstBytes (s : State) (p n : Nat) : List Byte :=
  let lb := rget s (cellReg p 0x18)
  let fill := BitVec.ofNat 8 (fld lb 40 8)
  let txs := ((cell s p).tx.take (fld lb 0 9))
  (txs ++ List.replicate n fill).take n

def burstLen (s : State) (ps : List Nat) : Nat :=
  ps.foldl (fun n p => let lb := rget s (cellReg p 0x18); max n (max (fld lb 0 9) (fld lb 32 8 + fld lb 16 9))) 0

/-- The bytes that a cell's burst takes from its FIFO: those that stand in it as the burst starts (R341). -/
def burstAvail (s : State) (p : Nat) : Nat :=
  let lb := rget s (cellReg p 0x18)
  if bit lb 48 then 0 else min (fld lb 0 9) (cell s p).tx.length

/-- The burst of one cell starts, of `n` bytes. -/
def startBurst (n q : Nat) (s : State) : State :=
  let short := decide ((cell s q).tx.length < rfld s (cellReg q 0x18) 0 9)
  let b : Burst := { start := s.fclk, bytes := burstBytes s q n, avail := burstAvail s q }
  let s := if short then cellStat q 3 s else s
  showPads q (updCell q (fun c => { c with burst := some b, launch0 := some s.fclk, lineGot := 0 }) s)

/-- Launch 0 of cell p is delivered. -/
def launch0 (p : Nat) (s : State) : State :=
  let ps := pairCells s p
  if !ps.all (cellEn s) then s
  else if ps.any fun q => (cell s q).launch0 == some s.fclk then s
  else if ps.any (cellBusy s) then
    updCell p (fun c => { c with launch0 := some s.fclk }) (rsat (cellReg p 0x30) 32 16 1 s)
  else
    let n := burstLen s ps
    if n = 0 then s else ps.foldl (fun s q => startBurst n q s) s

/-- Drive PRT_PAD.GPIO of pad A. -/
def setGpio (p : Nat) (v : Bool) (s : State) : State := showPads p (rbitSet (cellReg p 8) 3 v s)

/-- Launch 1 of cell p is delivered (R342). -/
def launch1 (p : Nat) (s : State) : State :=
  let lb := rget s (cellReg p 0x18)
  if !cellEn s p || padFunc s p false != 1 then s
  else match fld lb 49 2 with
    | 1 => setGpio p (bit lb 51) s
    | 2 => updCell p (fun c => { c with pulseEnd := some (s.fclk + fld lb 52 12 * 1200000, !bit lb 51) }) (setGpio p (bit lb 51) s)
    | _ => s

/-- The burst of one cell ends (R341, R345): what it sent until now, condition 3, the select pad released. -/
def stopBurst (q : Nat) (s : State) : State :=
  match (cell s q).burst with
  | none => s
  | some u =>
    let n := s.fclk - u.start
    let bits := u.bytes.flatMap (byteBits (cellMsbf s q))
    let s := emit (.line q (u.bytes.take (n / (8 * max 1 (bitper s q))))) (sendBits q u.start n bits s)
    showPads q (cellEvent q 3 (updCell q (fun c => { c with burst := none, entryAt := s.fclk, lineGot := 0 }) s))

/-- The burst of cell p, and of its pair, ends. -/
def endBurst (p : Nat) (s : State) : State := (pairCells s p).foldl (fun s q => stopBurst q s) s

/-- The cell stops: EN = 0, burst and shifts ended (R332, R334, R335). A launch pulse runs on to its end (R342). -/
def stopCell (p : Nat) (s : State) : State :=
  let s := endBurst p s
  let s := updCell p (fun c => { c with queue := [], entryGot := 0, entryTx := [], lineGot := 0, span := none, spanTail := [] }) s
  showPads p (rbitSet (cellReg p 0) 0 false s)

/-- Both pads of a cell go to high impedance, until the cell is enabled again (R332, R335). DESIGN CHOICE, log entry 36. -/
def padsOff (p : Nat) (s : State) : State := showPads p (updCell p (fun c => { c with hiz := true }) s)

/-! ### Register writes (R333 to R336, R349, R351) -/

/-- Whether the levels match PRES (R349). -/
def presMatch (s : State) (p : Nat) : Bool :=
  rfld s (cellReg p 0) 8 2 == b2n (cell s p).padA + 2 * b2n (cell s p).padB

/-- A register whose writes the blocker keeps to itself while OWNED (R351). -/
def ownedReg (o : Nat) : Bool := o ∈ [0, 8, 0x10, 0x18, 0x28, 0x48, 0x50, 0x58]

/-- The agent is the blocker whose cell p is (R351), or the sealed loader that writes for it. -/
def isBlockerAgent (p : Nat) : Agent → Bool
  | .blocker b => b.val == p / 16
  | .loader => true
  | _ => false

/-- Whether the reflectometer of cell p's blocker is free: none of the 16 cells is being served (R350). -/
def tdrFree (s : State) (p : Nat) : Bool := (List.range 16).all fun i => !(cell s (p / 16 * 16 + i)).tdr

/-- PRT_SENSE.START (R346, R350). The cell keeps the request as it was accepted: a later write of the fields acts on the next one. DEDUCED, log
entry 36. -/
def senseStart (p : Nat) (v : BitVec 64) (s : State) : State :=
  let mode := fld v 56 4
  let pad := fld v 60 2
  let s := rset (cellReg p 0x60) (setFld (rget s (cellReg p 0x60) &&& 0x4000000000000000) 48 14 (fld v 48 14)) s
  let busy := rbit s (cellReg p 0x60) 62
  let locked := s.locks.cells.contains p
  if !bit v 63 then s
  else if busy || decide (5 < mode) || pad == 3 || (mode == 5 && pad == 2)
    || (mode != 0 && (cellEn s p || rbit s (cellReg p 0) 6 || locked)) then cellStat p 6 s
  else
    let s := if mode = 5 then rbitSet (cellReg p 0x70) 63 false s else s
    updCell p (fun c => { c with sense := some (s.fclk, v), tdr := mode == 5 && tdrFree s p }) (rbitSet (cellReg p 0x60) 62 true s)

/-- PRT_CTL after the fields other than EN have been taken from `v`. -/
def ctlFields (old v : BitVec 64) (busy : Bool) : BitVec 64 :=
  let keep : BitVec 64 := if busy then 0x42 else 0x40
  (old &&& keep) ||| (v &&& 0xF320 &&& ~~~keep) ||| (v &&& (if busy then 0 else 2))

/-- A write to PRT_CTL. -/
def ctlWrite (p : Nat) (v : BitVec 64) (s : State) : Bool × State :=
  let a := cellReg p 0
  let old := rget s a
  let busy := cellBusy s p
  let pairChange := busy && bit v 1 != bit old 1
  let new := ctlFields old v busy
  let fol := p % 2 == 0 && bit old 1 && !bit new 1 && cellEn s (p + 1)
    && (decide (4 < rfld s (cellReg (p + 1) 0x10) 24 3) || decide (rfld s (cellReg (p + 1) 0x10) 0 22 < 4))
  let bad := cellBad s p new (rget s (cellReg p 8)) (rget s (cellReg p 0x10)) (rget s (cellReg p 0x18))
  if (bit old 0 && bit v 0 && bad) || fol then (false, cellStat p 5 s)
  else
    let s := if pairChange then cellStat p 5 s else s
    let was := presMatch s p
    let s := if bit old 0 && !bit v 0 then stopCell p s else s
    let s := rset a (setBit new 0 (bit old 0 && bit v 0)) s
    let s := if !bit old 0 && bit v 0 then
        (if bad || cellReserved s p || !rbit s (grpReg (groupOf p) 0) 0 then cellStat p 6 s
        else rbitSet a 0 true (updCell p (fun c => { c with hiz := false }) s))
      else s
    let s := if !bit v 5 then rbitSet (cellReg p 0x30) 11 false s else s
    let s := if (bit v 5 && !bit old 5) || presMatch s p != was then updCell p (fun c => { c with attSince := s.fclk }) s else s
    let s := showPads p (if bit v 3 then flushRxFifo p s else s)
    (true, if bit v 2 then flushTxFifo p s else s)

/-- Whether an agent may use a cell's data windows (R351): a locked cell serves only the sealed channels. -/
def windowOk (s : State) (p : Nat) (by_ : Agent) : Bool :=
  !s.locks.cells.contains p || isBlockerAgent p by_ || (match by_ with | .mover k => s.locks.chans.contains k.val | _ => false)

/-- A write to a cell register: whether the cell accepts it, and the state. -/
def cellWrite (p o : Nat) (v : BitVec 64) (by_ : Agent) (s : State) : Bool × State :=
  let a := cellReg p o
  let refuse (s : State) : Bool × State := (false, cellStat p 5 s)
  if !isBlockerAgent p by_ && (s.locks.cells.contains p || (rbit s (cellReg p 0) 6 && ownedReg o)) then refuse s
  else
    let pad := rget s (cellReg p 8)
    let ser := rget s (cellReg p 0x10)
    let lb := rget s (cellReg p 0x18)
    let ctl := rget s (cellReg p 0)
    match o with
    | 0x00 => ctlWrite p v s
    | 0x08 =>
      let n := v &&& 0xFFF8FFF8
      if cellEn s p && cellBad s p ctl n ser lb then refuse s else (true, showPads p (rset a n s))
    | 0x10 =>
      let n := v &&& 0x00FFFFFF3F3FFFFF
      if cellBusy s p || (cellEn s p && cellBad s p ctl pad n lb) then refuse s else (true, rset a n s)
    | 0x18 =>
      let n := v &&& 0xFFFFFFFF01FF01FF
      if cellBusy s p || (cellEn s p && cellBad s p ctl pad ser n) then refuse s else (true, rset a n s)
    | 0x20 => (true, rput a 32 9 (fld v 32 9) s)
    | 0x28 => (true, rset a (v &&& 0xFF) s)
    | 0x30 =>
      let s := rw1c a 0xFF v s
      (true, if v = 0 ∧ by_ = .steward then rput a 32 16 0 s else s)
    | 0x48 => (true, rset a v s)
    | 0x50 => (true, rset a v s)
    | 0x58 => (true, rset a (v &&& 0xF) s)
    | 0x60 => (true, senseStart p v s)
    | _ =>
      if o < 0x100 ∨ 0x200 ≤ o then (true, s)
      else if windowOk s p by_ then (true, txWrite p (natBytes 8 v.toNat) s) else refuse s

/-- A read of a cell register (R333, R339, R341). -/
def cellRead (s : State) (p o : Nat) : BitVec 64 :=
  let v := rget s (cellReg p o)
  match o with
  | 0x00 => setBit (setBit v 7 (s.locks.cells.contains p)) 4 (cellBusy s p)
  | 0x20 => setFld (setFld v 16 9 (256 - (cell s p).tx.length)) 0 9 (cell s p).rx.length
  | 0x30 => setBit (setBit v 10 (cell s p).padB) 9 (cell s p).padA
  | _ => v

/-- Every register of a cell returns to its reset value and its FIFOs empty (R352). -/
def resetCell (p : Nat) (s : State) : State :=
  let c := cell s p
  setCell p { ({} : Cell) with padA := c.padA, padB := c.padB } (rclear (cellReg p 0) (cellReg p 0x400) s)

/-! ### Commands -/

/-- VIO inside the window of VSEL (R331). -/
def vioIn (mv : Nat) (vsel : Bool) : Bool := if vsel then decide (1620 ≤ mv ∧ mv ≤ 1980) else decide (3000 ≤ mv ∧ mv ≤ 3600)
def groupUp (s : State) (g : Nat) : Bool := domState s (22 + g) == 1 && domState s (20 + g / 4) == 1
def groupCells (g : Nat) : List Nat := (List.range 128).map fun i => 128 * g + i
/-- The group stops its cells (R332). -/
def stopGroup (g : Nat) (s : State) : State :=
  (groupCells g).foldl (fun s p => if cellEn s p then stopCell p s else s) (rbitSet (grpReg g 0) 0 false s)

/-- 10 µs in FCLK: the sample interval of VIO and of the feeds. -/
def sampleFclk : Nat := 12000
def nextMultiple (k f : Nat) : Nat := (f + k - 1) / k * k

/-- VIO_SAMPLE (R332): the second sample in a row outside the window trips the group. DESIGN CHOICE, log entry 37. -/
def vioSample (g mv : Nat) (s : State) : State :=
  let c := grpReg g 0
  let t := grpReg g 8
  let vsel := rbit s c 1
  let ok := vioIn mv vsel
  let trip := !ok && !rbit s t 19 && rbit s c 0
  let s := rbitSet t 19 ok (rput t 0 16 mv s)
  if trip then
    let s := (groupCells g).foldl (fun s p => padsOff p s) (stopGroup g s)
    let s := rbitSet t (if (if vsel then 1980 else 3600) < mv then 17 else 16) true s
    (List.range 8).foldl (fun s i => raiseSteward (8 * g + i) s) s
  else s
def execVioSample (gr : Fin 8) (mv : BitVec 16) (s : State) : Res :=
  gateAt (groupUp s gr) (nextMultiple sampleFclk s.fclk) s (vioSample gr mv.toNat)

/-- A write to PRT_GCTL by the steward (R331, R332). -/
def groupWrite (g : Nat) (v : BitVec 64) (s : State) : State :=
  let c := grpReg g 0
  let t := grpReg g 8
  let en := rbit s c 0
  let s := if en then s else rbitSet t 19 (vioIn (rfld s t 0 16) (bit v 1)) (rbitSet c 1 (bit v 1) s)
  if bit v 0 then
    if en then s else if rbit s t 19 then rbitSet c 0 true s else rbitSet t 18 true s
  else if en then stopGroup g s else s
def execGroupEnableWrite (gr : Fin 8) (v : BitVec 64) (s : State) : Res := gate (groupUp s gr) (groupWrite gr v s)

/-- CELL_ENABLE: a write of PRT_CTL (R334). -/
def execCellEnable (p : Fin 1024) (v : BitVec 64) (by_ : Agent) (s : State) : Res :=
  gate (cellOn s p) (cellWrite p 0 v by_ s).2

/-- FLUSHRX and FLUSHTX: the FIFO is emptied (R333). -/
def execFlushrx (p : Fin 1024) (s : State) : Res := gate (cellOn s p) (flushRxFifo p s)
def execFlushtx (p : Fin 1024) (s : State) : Res := gate (cellOn s p) (flushTxFifo p s)

/-- PAD_FAULT (R335). -/
def padFault (p : Nat) (s : State) : State :=
  let s := cellStat p 8 (cellStat p 7 (padsOff p (stopCell p s)))
  raiseSteward (blockerOf p) (latchEvent p 8 (cellEvent p 8 s))
def execPadFault (p : Fin 1024) (s : State) : Res := gate (cellOn s p) (padFault p s)

/-- PAD_FAULT_END (R335). -/
def execPadFaultEnd (p : Fin 1024) (s : State) : Res :=
  gate (rbit s (cellReg p 0x30) 8) (rbitSet (cellReg p 0x30) 8 false s)

/-- TX_WINDOW_WRITE (R339, R351); the window takes 1, 2, 4 or 8 bytes and refuses any other access (R333). -/
def execTxWindowWrite (p : Fin 1024) (bytes : List (BitVec 8)) (by_ : Agent) (s : State) : Res :=
  if bytes.length ∉ [1, 2, 4, 8] then .next s
  else gate (cellOn s p) (if windowOk s p by_ then txWrite p bytes s else cellStat p 5 s)

/-- RX_WINDOW_READ (R333, R339, R351): the bytes go to the reader. -/
def execRxWindowRead (p : Fin 1024) (len : Nat) (by_ : Agent) (s : State) : Res :=
  if len ∉ [1, 2, 4, 8] then .next s
  else gate (cellOn s p) (if windowOk s p by_ then
      let (bs, _, s) := rxRead p len s
      emit (.value (bytesNat bs)) s
    else cellStat p 5 s)

/-! ### Bytes on the line, ends of bursts and pulses -/

/-- A received byte of a burst: skipped, kept or discarded (R341). -/
def burstRx (p : Nat) (b : Byte) (u : Burst) (s : State) : State :=
  let lb := rget s (cellReg p 0x18)
  let s := updCell p (fun c => { c with burst := some { u with got := u.got + 1 } }) s
  if fld lb 32 8 ≤ u.got ∧ u.got < fld lb 32 8 + fld lb 16 9 then rxPush p b s else s

/-- The first entry of the shift queue, when it is a shift. -/
def headShift (c : Cell) : Option (BitVec 16) := match c.queue with | .shift v :: _ => some v | _ => none
def byteFclk (s : State) (p : Nat) : Nat := 8 * bitper s p

/-- FCLK that a shift waits after its entry's start: with WAITSTART until the line leaves its idle state (R365), none where it has not yet. -/
def shiftWait (v : BitVec 16) (wave : List (Nat × Bool)) : Option Nat :=
  if bit v 14 then (wave.head?).map (·.1) else some 0

/-- The bit periods of a cell's line up to `i` have been read. -/
def lineRead (p i : Nat) (x : LineSt) (s : State) : State := updCell p (fun c => { c with lineGot := i, rxLine := x }) s

/-- RX_BYTE_RECEIVED: at the end of the byte's last bit period (R336). `wave` is what the receive pad did since the burst or the shift's
entry started. -/
def execRxByteReceived (p : Fin 1024) (wave : List (Nat × Bool)) (s : State) : Res :=
  let c := cell s p
  match c.burst with
  | some u =>
    let r := readBits s p 0 wave c.lineGot 8
    gateAt (decide (u.got < u.bytes.length) && cellOn s p) (u.start + (u.got + 1) * byteFclk s p) s fun s =>
      burstRx p ((packBits (cellMsbf s p) 2 r.1).getD 0 0) u (lineRead p r.2.1 r.2.2 s)
  | none =>
    match headShift c with
    | some v =>
      match shiftWait v wave with
      | none => .refused .notEnabled
      | some o =>
        let r := readBits s p o wave c.lineGot 8
        gateAt (bit v 13 && c.span.isNone && decide (8 * (c.entryGot + 1) ≤ fld v 0 12) && cellOn s p)
          (c.entryAt + o + r.2.1 * bitper s p) s
          fun s => rxPush p ((packBits (cellMsbf s p) 2 r.1).getD 0 0)
            (updCell p (fun c => { c with entryGot := c.entryGot + 1 }) (lineRead p r.2.1 r.2.2 s))
    | none => .refused .notEnabled

/-- The bits that a transmit shift has taken so far, as they stand on the line. -/
def entryLine (s : State) (p : Nat) (bits : List Bool) : List Bool := (txBits (lineCfg s p) (cell s p).stuff bits (cell s p).txLine).1

/-- TX_FIFO_BYTE_LEAVES: the serializer takes a byte (R340, R341, R365). -/
def execTxFifoByteLeaves (p : Fin 1024) (s : State) : Res :=
  let c := cell s p
  match c.burst with
  | some u =>
    gateAt (decide (u.sent < u.avail) && c.tx != [] && cellOn s p) (u.start + u.sent * byteFclk s p) s
      fun s => (txTake p 1 (updCell p (fun c => { c with burst := some { u with sent := u.sent + 1 } }) s)).2
  | none =>
    match headShift c with
    | some v =>
      gateAt (bit v 12 && c.tx != [] && decide (c.entryTx.length < (fld v 0 12 + 7) / 8) && cellOn s p)
        (if bit v 14 then s.fclk
         else c.entryAt + (entryLine s p (c.entryTx.flatMap (byteBits (cellMsbf s p)))).length * bitper s p) s
        fun s =>
          let (bs, s) := txTake p 1 s
          updCell p (fun c => { c with entryTx := c.entryTx ++ bs }) s
    | none => .refused .notEnabled

/-- The bytes of a cell's burst that must have passed before it ends: kept bytes received, FIFO bytes taken. -/
def burstDone (s : State) (p : Nat) : Bool :=
  let lb := rget s (cellReg p 0x18)
  match (cell s p).burst with
  | some u => decide (fld lb 32 8 + fld lb 16 9 ≤ u.got ∨ fld lb 16 9 = 0) && (decide (u.avail ≤ u.sent) || (cell s p).tx == [])
  | none => true

/-- BURST_END: at its full length (R341, R345). -/
def execBurstEnd (p : Fin 1024) (s : State) : Res :=
  match (cell s p).burst with
  | some u => gateAt ((pairCells s p).all (burstDone s) && cellOn s p) (u.start + u.bytes.length * byteFclk s p) s (endBurst p)
  | none => .refused .notEnabled

/-- LAUNCH_PULSE_END (R342). -/
def execLaunchPulseEnd (p : Fin 1024) (s : State) : Res :=
  match (cell s p).pulseEnd with
  | some (f, v) => gateAt (cellOn s p) f s fun s => setGpio p v (updCell p (fun c => { c with pulseEnd := none }) s)
  | none => .refused .notEnabled

/-- LAUNCH_COMPARATOR: the first FCLK whose tick count is at least the value (R344). -/
def execLaunchComparator (p : Fin 1024) (k : Fin 2) (s : State) : Res :=
  if !rbit s (cellReg p 0x58) (2 * k.val) || !cellOn s p then .refused .notEnabled
  else
    let s := advanceTick (rget s (cellReg p (0x48 + 8 * k.val))).toNat s
    let act := rbit s (cellReg p 0x58) (2 * k.val + 1)
    let s := raiseHat (0x1800 + 2 * p.val + k.val) s
    let s := if act then (if k = 0 then launch0 p s else launch1 p s) else s
    .next (rbitSet (cellReg p 0x58) (2 * k.val) false s)

/-- PAD_EDGE (R345, R349). DEDUCED, log entry 36. -/
def padEdge (p : Nat) (padB level : Bool) (s : State) : State :=
  let was := presMatch s p
  let s := updCell p (fun c => if padB then { c with padB := level } else { c with padA := level }) s
  let s := rbitSet (cellReg p 0x30) (if padB then 10 else 9) level s
  let s := if presMatch s p != was then updCell p (fun c => { c with attSince := s.fclk }) s else s
  cellEvent p (if padB then 11 else 10) s
def execPadEdge (p : Fin 1024) (padB : Bool) (level : Bool) (s : State) : Res :=
  gate (cellOn s p && (if padB then (cell s p).padB else (cell s p).padA) != level) (padEdge p padB level s)

/-- ATTACH_CHANGE: the levels have matched or differed for 2^DEB µs (R349). -/
def execAttachChange (p : Fin 1024) (s : State) : Res :=
  let m := presMatch s p
  gateAt (rbit s (cellReg p 0) 5 && m != rbit s (cellReg p 0x30) 11 && cellOn s p)
    ((cell s p).attSince + 2 ^ rfld s (cellReg p 0) 12 4 * 1200) s
    fun s => latchEvent p 7 (cellEvent p (if m then 6 else 7) (rbitSet (cellReg p 0x30) 11 m s))

/-! ### Measurements (R346 to R350) -/

def execPrtSenseStart (p : Fin 1024) (v : BitVec 64) (s : State) : Res :=
  gate (cellOn s p) (cellWrite p 0x60 (v ||| 0x8000000000000000) .steward s).2

/-- Probe class of R348, in mV. -/
def probeClass (vio v0 v1 v2 : Int) : Nat :=
  if vio + 300 < v0 ∨ v0 < -300 then 6
  else if 7 * vio ≤ 10 * v0 ∧ vio - 50 ≤ v2 then 3
  else if 10 * v0 ≤ 3 * vio ∧ v1 ≤ 50 then 4
  else if 9 * vio ≤ 10 * v1 ∧ 10 * v2 ≤ vio then 0
  else if 7 * vio ≤ 10 * v0 then 1
  else if 10 * v0 ≤ 3 * vio then 2
  else 5

/-- Cable length in units of 5 cm, to the nearest: delay in 25 ps, velocity factor in 1/256. -/
def tdrLen (delay vf : Nat) : Nat :=
  (delay * (if vf = 0 then 169 else vf) * 299792458 * 5 + 2560000000000) / 5120000000000

/-- PRT_TDR (R350). -/
def tdrResult (m : Measured) (vf : Nat) : BitVec 64 :=
  let len := tdrLen m.delay vf
  let kind := if !m.found ∨ 3000 < len then 0 else if len < 6 then 3 else if 0 < m.rho then 1 else 2
  BitVec.ofNat 64 (2 ^ 63 + kind * 2 ^ 60 + wrapN 12 m.rho * 2 ^ 20 + (if kind = 1 ∨ kind = 2 then len else 0))

/-- The reflectometer goes to the waiting cell of the blocker with the lowest number (R350). -/
def tdrNext (p : Nat) (s : State) : State :=
  match (List.range 16).find? fun i => (cell s (p / 16 * 16 + i)).sense.any fun r => fld r.2 56 4 == 5 with
  | some i => updCell (p / 16 * 16 + i) (fun c => { c with tdr := true }) s
  | none => s

/-- The result of request `v` for the pads that PAD selects (R346). -/
def senseResult (p : Nat) (v : BitVec 64) (m : Measured) (s : State) : State :=
  let mode := fld v 56 4
  let pad := fld v 60 2
  let vio : Int := rfld s (grpReg (groupOf p) 8) 0 16
  let s := rbitSet (cellReg p 0x60) 62 false (updCell p (fun c => { c with sense := none, tdr := false }) s)
  let a := cellReg p 0x68
  let putA (x : Int) (s : State) : State := if pad = 1 then s else rput a 0 16 (wrapN 16 x) s
  let putB (x : Int) (s : State) : State := if pad = 0 then s else rput a 32 16 (wrapN 16 x) s
  match mode with
  | 0 => putB m.v0b (putA m.v0a s)
  | 1 | 2 => putB m.v1b (putA m.v1a s)
  | 3 => putB m.v2b (putA m.v2a s)
  | 4 =>
    let s := rput a 32 16 (wrapN 16 m.v0b) (rput a 0 16 (wrapN 16 m.v0a) s)
    rput a 28 4 (probeClass vio m.v0b m.v1b m.v2b) (rput a 24 4 (probeClass vio m.v0a m.v1a m.v2a) s)
  | _ => tdrNext p (rset (cellReg p 0x70) (tdrResult m (fld v 48 8)) s)

/-- The time a measurement takes (R347), where the table gives one and not a bound. -/
def senseFclk (mode pad : Nat) : Nat := (match mode with | 0 => 2400 | 1 | 2 | 3 => 14400 | _ => 0) * (if pad = 2 then 2 else 1)

/-- MEASUREMENT_DONE (R346 to R350): of the cable measurements of a blocker, the one being served. -/
def execMeasurementDone (p : Fin 1024) (m : Measured) (s : State) : Res :=
  match (cell s p).sense with
  | some (f, v) => gateAt (cellOn s p && (fld v 56 4 != 5 || (cell s p).tdr)) (f + senseFclk (fld v 56 4) (fld v 60 2)) s (senseResult p v m)
  | none => .refused .notEnabled

end Sys2Proof.Machine
end

