-- ==== Sys2Proof/Machine/Shifts.lean ====
section
/-! DEFINITION. The shift queue of a cell (R365, R366) and the CRCs of R338. -/
namespace Sys2Proof.Machine

/-- Width, polynomial, initial value and final XOR of a CRCSEL (R338). The register takes bits in line order, which is the
order that the reflected CRCs take them in. -/
def cellCrc (sel : Nat) : Nat × Nat × Nat × Nat :=
  match sel with
  | 1 => (5, 0x05, 0x1F, 0x1F)
  | 2 => (16, 0x8005, 0xFFFF, 0xFFFF)
  | 3 => (8, 0x07, 0, 0)
  | 4 => (8, 0x31, 0, 0)
  | 5 => (15, 0x4599, 0, 0)
  | 6 => (17, 0x1685B, 0x10000, 0)
  | 7 => (21, 0x102899, 0x100000, 0)
  | 8 => (16, 0x8005, 0xFFFF, 0)
  | _ => (0, 0, 0, 0)

/-- The register after one more bit. -/
def crcBit (w poly st : Nat) (b : Bool) : Nat :=
  if w = 0 then 0 else
  let top := st / 2 ^ (w - 1) % 2
  let st' := st * 2 % 2 ^ w
  if top ≠ b2n b then Nat.xor st' poly else st'
def crcLine (sel st : Nat) (bits : List Bool) : Nat :=
  let (w, poly, _, _) := cellCrc sel
  bits.foldl (crcBit w poly) st
/-- The CRC in line order: most significant register bit first. -/
def crcOut (sel st : Nat) : List Bool :=
  let (w, _, _, x) := cellCrc sel
  (List.range w).map fun i => (Nat.xor st x / 2 ^ (w - 1 - i)) % 2 == 1

/-- Place an entry in the shift queue; a shift of 0 bits is discarded, a full queue takes none. -/
def queueEntry (p : Nat) (e : ShiftEntry) (s : State) : State :=
  let c := cell s p
  let drop := match e with | .shift v => fld v 0 12 == 0 | _ => false
  if drop || decide (8 ≤ c.queue.length) || !cellEn s p then s
  else setCell p { c with
    queue := c.queue ++ [e],
    entryAt := if c.queue.isEmpty then s.fclk else c.entryAt } s

/-- All the bits of a transmit shift: the bytes already taken, those still in the TX FIFO, and 1 bits, the idle level, for missing bytes (R365). -/
def shiftBits (s : State) (p : Nat) (v : BitVec 16) : List Bool :=
  let c := cell s p
  let need := (fld v 0 12 + 7) / 8
  (((c.entryTx ++ c.tx).take need).flatMap (byteBits (cellMsbf s p)) ++ List.replicate (8 * need) true).take (fld v 0 12)

/-- Whether a transmit shift can lose arbitration: an open-drain data pad (FUNC 5, or FUNC 3 with OD), or CODE 2 (R365). -/
def arbitrates (s : State) (p : Nat) : Bool :=
  fld (serOf s p) 24 3 == 2 ||
    [false, true].any fun b => padFunc s p b == 5 || (padFunc s p b == 3 && rbit s (cellReg p 8) (if b then 24 else 8))

/-- The bit at which a transmit shift loses arbitration. -/
def shiftLost (s : State) (p : Nat) (v : BitVec 16) (r : ShiftResult) : Option Nat :=
  if bit v 12 && arbitrates s p then r.lost else none

/-- The bit period at which a shift ends before its last bit: arbitration lost, or the line of an UNTIL shift (R365). -/
def shiftCut (s : State) (p : Nat) (v : BitVec 16) (r : ShiftResult) : Option Nat :=
  match shiftLost s p v r with
  | some k => some (k + 1)
  | none => if bit v 15 then r.early else none

/-- What a receive shift reads: its bits from the first byte not yet in the FIFO on. -/
def shiftRead (s : State) (p : Nat) (v : BitVec 16) (r : ShiftResult) : List Bool × Nat × LineSt :=
  let c := cell s p
  let o := (shiftWait v r.wave).getD 0
  let want := fld v 0 12 - 8 * c.entryGot
  match shiftCut s p v r with
  | some k => readBits s p o r.wave c.lineGot (min want (k - c.lineGot))
  | none => readBits s p o r.wave c.lineGot want

/-- Bit periods that a shift lasts. -/
def shiftPeriods (s : State) (p : Nat) (v : BitVec 16) (r : ShiftResult) : Nat :=
  match shiftCut s p v r with
  | some k => k
  | none =>
    if bit v 12 then (entryLine s p (shiftBits s p v)).length
    else if bit v 13 then (shiftRead s p v r).2.1 else fld v 0 12

/-- The CRC of an open span, sent (R366). -/
def spanCrc (s : State) (p : Nat) : List Bool :=
  match (cell s p).span with | some st => crcOut (rfld s (cellReg p 0x10) 32 4) st.toNat | none => []

/-- Bit periods that an entry lasts, from the FCLK at which it starts. -/
def entryBits (s : State) (p : Nat) (r : ShiftResult) : ShiftEntry → Nat
  | .shift v => shiftPeriods s p v r
  | .span v => match fld v 0 4 with
    | 3 => (entryLine s p (spanCrc s p)).length
    | 6 => 3
    | _ => 0
  | .pads v => fld v 4 12

/-- Bits received inside an open CRC span: the last w stay back, whole bytes before them enter the FIFO (R366). -/
def spanRx (p : Nat) (bits : List Bool) (s : State) : State :=
  let c := cell s p
  let sel := rfld s (cellReg p 0x10) 32 4
  let msbf := cellMsbf s p
  match c.span with
  | some st =>
    let w := (cellCrc sel).1
    let all := c.spanTail ++ bits
    let n := (all.length - w) / 8 * 8
    let go := all.take n
    let s := setCell p { c with span := some (BitVec.ofNat 32 (crcLine sel st.toNat go)), spanTail := all.drop n } s
    rxPushAll p (packBits msbf (n + 1) go) s
  | none => rxPushAll p (packBits msbf (bits.length + 1) bits) s

/-- CRC check: the last w received bits against the CRC of the span (R366). -/
def spanCheck (p : Nat) (s : State) : State :=
  let c := cell s p
  let sel := rfld s (cellReg p 0x10) 32 4
  let msbf := bit (serOf s p) 27
  match c.span with
  | some st =>
    let w := (cellCrc sel).1
    let before := c.spanTail.take (c.spanTail.length - w)
    let ok := decide (w ≤ c.spanTail.length) && crcOut sel (crcLine sel st.toNat before) == c.spanTail.drop (c.spanTail.length - w)
    let s := rxPushAll p (packBits msbf (before.length + 1) before) s
    let s := updCell p (fun c => { c with span := none, spanTail := [], crcOk := ok }) s
    if ok then s else cellEvent p 5 (cellStat p 4 s)
  | none => s

/-- The CRC of an open span takes bits that are sent (R338, R366). -/
def spanTx (p : Nat) (bits : List Bool) (s : State) : State :=
  match (cell s p).span with
  | some st => updCell p (fun c => { c with span := some (BitVec.ofNat 32 (crcLine (rfld s (cellReg p 0x10) 32 4) st.toNat bits)) }) s
  | none => s

/-- What a transmit shift leaves (R365): its bytes taken from the TX FIFO, its bits on the line and in the CRC of an open span; where arbitration
was lost, the line until that bit. -/
def shiftSent (p : Nat) (v : BitVec 16) (r : ShiftResult) (s : State) : State :=
  let c := cell s p
  let bits := shiftBits s p v
  let need := (fld v 0 12 + 7) / 8 - c.entryTx.length
  let start := c.entryAt + (shiftWait v r.wave).getD 0
  let line := entryLine s p bits
  let lost := (shiftLost s p v r).isSome
  let sent := match shiftCut s p v r with | some k => line.take k | none => line
  let (bs, s) := txTake p need s
  let s := if bs.length < need ∧ !lost then cellStat p 3 s else s
  let s := emit (.line p (c.entryTx ++ bs)) (sendBits p start (sent.length * bitper s p) sent s)
  let s := if bit v 13 then s else spanTx p bits s
  updCell p (fun c => { c with lost := lost }) s

/-- What a receive shift leaves: its bits in the RX FIFO (R365). -/
def shiftGot (p : Nat) (x : List Bool × Nat × LineSt) (s : State) : State := spanRx p x.1 (lineRead p x.2.1 x.2.2 s)

def shiftDone (p : Nat) (v : BitVec 16) (r : ShiftResult) (s : State) : State :=
  let x := shiftRead s p v r
  let s := if bit v 12 then shiftSent p v r s else s
  if bit v 13 then shiftGot p x s else s

/-- An end of packet (R366): both lines low for 2 bit periods, then J for 1. -/
def sendEop (p : Nat) (s : State) : State :=
  let c := cell s p
  let b := bitper s p
  let s := emit (.wave (2 * p + 1) c.entryAt [(2 * b, false), (b, false)]) (emit (.wave (2 * p) c.entryAt [(2 * b, false), (b, true)]) s)
  updCell p (fun c => { c with txLine := {} }) s

/-- The effect of an entry of the shift queue as it ends (R365, R366). -/
def entryEffect (p : Nat) (e : ShiftEntry) (r : ShiftResult) (s : State) : State :=
  let sel := rfld s (cellReg p 0x10) 32 4
  match e with
  | .shift v => shiftDone p v r s
  | .span v => match fld v 0 4 with
    | 0 => updCell p (fun c => { c with stuff := true }) s
    | 1 => updCell p (fun c => { c with stuff := false }) s
    | 2 => updCell p (fun c => { c with span := some (BitVec.ofNat 32 (cellCrc sel).2.2.1), spanTail := [] }) s
    | 3 =>
      let line := entryLine s p (spanCrc s p)
      updCell p (fun c => { c with span := none, spanTail := [] })
        (sendBits p (cell s p).entryAt (line.length * bitper s p) line (emit (.line p (packBits (cellMsbf s p) (line.length + 1) (spanCrc s p))) s))
    | 4 => spanCheck p s
    | 5 => cellEvent p 2 s
    | 6 => sendEop p s
    | _ => s
  | .pads v =>
    let lvl (old new : Nat) : Nat := if new = 3 then old else new
    showPads p <| updCell p (fun c => { c with forced := BitVec.ofNat 4 (lvl (fld c.forced 0 2) (fld v 0 2) + 4 * lvl (fld c.forced 2 2) (fld v 2 2)) }) s

/-- The first entry ends and the next one starts. -/
def entryDone (p : Nat) (e : ShiftEntry) (r : ShiftResult) (s : State) : State :=
  let s := entryEffect p e r s
  let s := updCell p (fun c => { c with queue := c.queue.drop 1, entryAt := s.fclk, entryGot := 0, entryTx := [], lineGot := 0 }) s
  if (cell s p).queue.isEmpty then latchEvent p 2 s else s

/-- FCLK from the start of an entry to its end. -/
def entryFclk (s : State) (p : Nat) (e : ShiftEntry) (r : ShiftResult) : Nat :=
  (match e with | .shift v => (shiftWait v r.wave).getD 0 | _ => 0) + entryBits s p r e * bitper s p

/-- SHIFT_ENTRY_END (R365). -/
def execShiftEntryEnd (p : Fin 1024) (r : ShiftResult) (s : State) : Res :=
  match (cell s p).queue with
  | e :: _ => gateAt ((cell s p).burst.isNone && cellOn s p) ((cell s p).entryAt + entryFclk s p e r) s (entryDone p e r)
  | [] => .refused .notEnabled

end Sys2Proof.Machine
end

