-- ==== Sys2Proof/Machine/Blockers.lean ====
section
/-! DEFINITION. Blockers: the slot wheel, control words, yields, threads, banks and swaps (R357 to R379). Thread t of blocker b has
number 16b + t, which is also the number of its own cell. -/
namespace Sys2Proof.Machine

def blocker (s : State) (b : Nat) : Blocker := tget {} s.blockers b
def setBlocker (b : Nat) (x : Blocker) (s : State) : State := { s with blockers := tset {} s.blockers b x }
def updThread (t : Nat) (h : Thread → Thread) (s : State) : State := setThread t (h (thread s t)) s
def spineOn (s : State) (b : Nat) : Bool := domState s (20 + b / 32) == 1

/-- A bit of BLK_STAT; a rise of TFAULT, ATTN, GROUPOFF or LOCKREF raises steward source b (R375). -/
def blkStat (b i : Nat) (s : State) : State :=
  if rbit s (blkReg b 0x10) i then noteHit (blkReg b 0x10) i true s
  else
    let s := rbitSet (blkReg b 0x10) i true s
    if 32 ≤ i ∨ i = 5 ∨ i = 3 then raiseSteward b s else s

/-! ### The wheel (R358) -/

/-- The BCLK count of a blocker at an FCLK, and the FCLK at which a count begins. -/
def bclkAt (s : State) (b f : Nat) : Nat := f / 4 - (blocker s b).origin / 4
def bclkFclk (s : State) (b n : Nat) : Nat := (n + (blocker s b).origin / 4) * 4
/-- The next slot that has not been used: the BCLK now, if it has not begun, or a later one. -/
def freeSlot (s : State) (b : Nat) : Nat :=
  max (blocker s b).nextSlot (bclkAt s b (s.fclk + 3))
/-- The thread (0 to 15) that owns the slot of a BCLK count. -/
def slotOwner (s : State) (b n : Nat) : Nat :=
  let w := match (blocker s b).wheel with
    | some v => if (blocker s b).wheelAt ≤ n then v else rget s (blkReg b 0x20)
    | none => rget s (blkReg b 0x20)
  fld w (4 * (n % 16)) 4
/-- A wheel value waits for the next BCLK whose count mod 16 is 0. -/
def putWheel (b : Nat) (v : BitVec 64) (s : State) : State :=
  setBlocker b { blocker s b with wheel := some v, wheelAt := bclkAt s b s.fclk / 16 * 16 + 16 } s
/-- The first BCLK count from `n` whose owner satisfies `p`. -/
def nextOwned (s : State) (b n : Nat) (p : Nat → Bool) : Option Nat :=
  ((List.range 16).map (n + ·)).find? fun m => p (slotOwner s b m)

/-! ### Registers of a thread -/

def mreg (t : Thread) (i : Nat) : BitVec 16 := if i = 0 then 0 else tget 0 t.m i
def setM (i : Nat) (v : BitVec 16) (t : Thread) : Thread := if i = 0 then t else { t with m := tset 0 t.m i v }

/-- Reports and bytes dropped (R370). -/
def rptLost (t : Nat) (s : State) : State := rsat (blkReg (t / 16) (0x110 + 32 * (t % 16))) 0 32 1 s

/-- Places of a blocker in the input queue, and whether the engine accepts a report from it (R381). -/
def blkPlaces (s : State) (b : Nat) : Nat := (s.ses.queue.filter fun r => !r.fab && r.blk == b).length
def sesAccepts (s : State) (b : Nat) : Bool := rbit s (sesReg 0) 3 && decide (blkPlaces s b < 4)

/-! ### Cell, report and thread operations (R364 to R370): `t` the thread, `c` the cell named -/

def copTxb (c : Nat) (v : BitVec 16) (s : State) : State := txWrite c [v.setWidth 8] s
def copRxb (c : Nat) (s : State) : BitVec 16 × State := let (bs, _, s) := rxRead c 1 s; (BitVec.ofNat 16 (bytesNat bs), s)
/-- CRD: half-word i of cell offsets 0x00 to 0x7F. -/
def copCrd (c i : Nat) (s : State) : BitVec 16 := BitVec.ofNat 16 (fld (cellRead s c (i / 4 * 8)) (16 * (i % 4)) 16)
/-- CWR: the half-word is written; the bits cleared by writing 1 elsewhere in the register stay. -/
def copCwr (b c i : Nat) (v : BitVec 16) (s : State) : State :=
  let o := i / 4 * 8
  let old : BitVec 64 := if o = 0x30 then 0 else cellRead s c o
  (cellWrite c o (setFld old (16 * (i % 4)) 16 v.toNat) (.blocker (Fin.ofNat 64 b)) s).2
def copFlush (c : Nat) (v : BitVec 16) (s : State) : State :=
  let s := if bit v 0 then flushTxFifo c s else s
  let s := if bit v 1 then flushRxFifo c s else s
  if bit v 2 then updCell c (fun x => { x with queue := [], entryGot := 0, entryTx := [], lineGot := 0 }) s else s
def copRstamp (t : Nat) (v : BitVec 16) (s : State) : State :=
  updThread t (fun x => { x with stamp := (x.snap[fld v 0 1]?).orElse fun _ => some (0, 0) }) s
/-- RSEND: the report passes to the session engine, 36 FCLK away, or is dropped (R370). -/
def copRsend (t c : Nat) (v : BitVec 16) (s : State) : State :=
  let x := thread s t
  let s := setThread t { x with report := [], stamp := none } s
  if sesAccepts s (t / 16) then
    let r : Report := { pkg := rfld s (sesReg 0x20) 0 8, cell := c, sub := fld v 0 12, stamp := x.stamp.map (·.1),
                        sseq := (x.stamp.map (·.2)).getD 0, data := x.report, at_ := s.fclk + 36, fab := false, blk := t / 16 }
    let s := setSes { s.ses with queue := s.ses.queue ++ [r] } s
    rput (blkReg (t / 16) (0x110 + 32 * (t % 16))) 32 32 (rfld s (blkReg (t / 16) (0x110 + 32 * (t % 16))) 32 32 + 1) s
  else rptLost t s
def copRput (t : Nat) (v : BitVec 16) (s : State) : State :=
  let x := thread s t
  if 64 ≤ x.report.length then rptLost t s else setThread t { x with report := x.report ++ [v.setWidth 8] } s
def copRclr (t : Nat) (s : State) : State := updThread t (fun x => { x with report := [], stamp := none }) s
def copCmdb (t : Nat) (s : State) : BitVec 16 × State :=
  let x := thread s t
  (((x.cmds.head?).getD 0).setWidth 16, setThread t { x with cmds := x.cmds.drop 1 } s)
def copTmr (t : Nat) (v : BitVec 16) (s : State) : State :=
  updThread t (fun x => { x with timer := some (s.fclk + fld v 0 15 * (if bit v 15 then 4 else 1200)), expired := false }) s
def copEvmask (t : Nat) (v : BitVec 16) (s : State) : State := updThread t (fun x => { x with mask := v }) s
def copAttn (t : Nat) (s : State) : State := blkStat (t / 16) (32 + t % 16) s
def copHsig (t : Nat) (s : State) : State := raiseHat (0x2000 + t / 16) s

/-- The operation with COP number `k` (R364): a value for DST, if it gives one. `imm` names the half-word of CRD and CWR. -/
def copRun (k t c : Nat) (a v : BitVec 16) (imm : Nat) (s : State) : Option (BitVec 16) × State :=
  match k with
  | 1 => (none, copTxb c v s)
  | 2 => let (r, s) := copRxb c s; (some r, s)
  | 3 => (none, queueEntry c (.shift v) s)
  | 4 => (none, queueEntry c (.span v) s)
  | 5 => (none, queueEntry c (.pads v) s)
  | 6 => (some (copCrd c (imm % 64) s), s)
  | 7 => (none, copCwr (t / 16) c (imm % 64) a s)
  | 8 => (none, copFlush c v s)
  | 9 => (none, copRstamp t v s)
  | 10 => (none, copRsend t c v s)
  | 11 => (none, copRput t v s)
  | 12 => (none, copRclr t s)
  | 13 => let (r, s) := copCmdb t s; (some r, s)
  | 14 => (none, copTmr t v s)
  | 15 => (none, copEvmask t v s)
  | 16 => (none, copAttn t s)
  | 17 => (none, copHsig t s)
  | _ => (none, s)

/-! ### Control words (R360 to R363) -/

/-- The condition of a word (R362). -/
def condHolds (s : State) (t c cond : Nat) : Bool :=
  let x := thread s t
  match cond with
  | 0 => true
  | 1 => x.z
  | 2 => x.n
  | 3 => x.c
  | 4 => x.lcnt == 0
  | 5 => cellBusy s c
  | 6 => decide (8 ≤ (cell s c).queue.length)
  | 7 => !(cell s c).rx.isEmpty
  | 8 => decide ((cell s c).tx.length < 256)
  | 9 => (cell s c).crcOk
  | 10 => rbit s (cellReg c 0x30) 11
  | 11 => (cell s c).padA
  | 12 => (cell s c).padB
  | 13 => rbit s (cellReg c 0x30) 8
  | 14 => !x.cmds.isEmpty
  | 15 => decide (64 ≤ x.report.length)
  | 16 => sesAccepts s (t / 16)
  | 17 => x.expired || x.timer.any fun d => decide (d ≤ s.fclk)
  | 18 => (cell s c).lost
  | _ => false

/-- Reverse the low eight bits. -/
def rev8 (a : BitVec 16) : BitVec 16 := BitVec.ofNat 16 (fld a 8 8 * 256 + revBits 8 (fld a 0 8))

/-- The ALU operation: result for DST, and the thread with its flags (R363). -/
def aopRun (k : Nat) (a b : BitVec 16) (x : Thread) : Option (BitVec 16) × Thread :=
  let flags (r : BitVec 16) (c : Bool) : Thread := { x with z := r == 0, n := r.getLsbD 15, c := c }
  let sh := fld b 0 4
  match k with
  | 1 => (some b, x)
  | 2 => (some (a + b), flags (a + b) (decide (65536 ≤ a.toNat + b.toNat)))
  | 3 => (some (a - b), flags (a - b) (decide (a.toNat < b.toNat)))
  | 4 => (some (a &&& b), flags (a &&& b) false)
  | 5 => (some (a ||| b), flags (a ||| b) false)
  | 6 => (some (a ^^^ b), flags (a ^^^ b) false)
  | 7 => (some (a <<< sh), flags (a <<< sh) (sh != 0 && a.getLsbD (16 - sh)))
  | 8 => (some (a >>> sh), flags (a >>> sh) (sh != 0 && a.getLsbD (sh - 1)))
  | 9 => (none, flags (a - b) (decide (a.toNat < b.toNat)))
  | 10 => (none, { x with lcnt := b })
  | 11 => (some x.lcnt, x)
  | 12 => (some (rev8 a), x)
  | _ => (none, x)

/-- Lowest set bit of a register, 16 if none. -/
def lowBit (v : BitVec 16) : Nat := ((List.range 16).find? fun i => v.getLsbD i).getD 16

/-- The next address (R361): the thread's PC, LCNT and stack after the word at its PC. LCNT and M[SRCA] are read from `r`: the thread as the slot
found it (R359), or for a yield the thread with its new M15 (R368). Where the word also writes LCNT, the decrement stands. DEDUCED, log entry 85. -/
def nextPc (w : BitVec 64) (holds : Bool) (r x : Thread) : Thread :=
  let tgt := BitVec.ofNat 11 (fld w 41 11)
  match fld w 59 3 with
  | 0 => { x with pc := x.pc + 1 }
  | 1 => { x with pc := tgt }
  | 2 => { x with pc := if holds then tgt else x.pc + 1 }
  | 3 => { x with pc := if holds then x.pc + 1 else tgt }
  | 4 => { x with stack := x.stack ++ [x.pc + 1], pc := tgt }
  | 5 => { x with stack := x.stack.dropLast, pc := x.stack.getLastD 0 }
  | 6 => if r.lcnt ≠ 0 then { x with lcnt := r.lcnt - 1, pc := tgt } else { x with pc := x.pc + 1 }
  | _ => { x with pc := tgt + BitVec.ofNat 11 (lowBit (mreg r (fld w 20 4))) }

/-- Whether a word holds a reserved field or value (R360 to R364, R368). -/
def wordReserved (w : BitVec 64) : Bool :=
  decide (fld w 62 2 = 3) || bit w 52 || decide (18 < fld w 53 6) || (fld w 53 6 != 0 && fld w 59 3 != 2 && fld w 59 3 != 3)
    || decide (17 < fld w 32 5) || decide (12 < fld w 28 4) || (fld w 62 2 != 0 && fld w 24 4 == 15)
    || ((fld w 28 4 == 0 || fld w 28 4 == 9 || fld w 28 4 == 10) && fld w 24 4 != 0 && !(fld w 32 5 ∈ [2, 6, 13]))
    || ((fld w 32 5 ∈ [2, 6, 13]) && fld w 28 4 != 0) || (fld w 32 5 == 7 && fld w 16 4 != 0)

/-- Whether an address lies in a sealed range of thread t (R378). -/
def sealedWord (s : State) (b addr : Nat) : Bool :=
  match s.metro.conf with
  | some cf => cf.routines.any fun r => r.blocker == b && decide (r.start ≤ addr) && decide (addr < r.start + r.words.length)
  | none => false

/-- The fault of a word before it lands (R361, R372, R378), or 0. -/
def wordFault (s : State) (t c : Nat) (w : BitVec 64) (errs : Nat) : Nat :=
  let x := thread s t
  let cop := fld w 32 5
  if errs = 2 then 4
  else if fld w 59 3 = 4 ∧ 8 ≤ x.stack.length then 1
  else if fld w 59 3 = 5 ∧ x.stack = [] then 2
  else if cop ∈ [1, 2, 3, 4, 5, 7, 8] && s.locks.cells.contains c && !sealedWord s (t / 16) x.pc.toNat then 3
  else 0

/-- BLK_TCTL.STOP clears when the thread has stopped, whatever stopped it. DEDUCED, log entry 85. -/
def stopped (t : Nat) (s : State) : State := w1sClear (blkReg (t / 16) (0x100 + 32 * (t % 16))) 1 s
def threadFault (t cause : Nat) (s : State) : State :=
  blkStat (t / 16) (48 + t % 16) (stopped t (updThread t (fun x => { x with state := 3, fcause := cause }) s))

/-! ### Bank switches (R374) -/

def blkLive (s : State) (b : Nat) : Bool := rbit s (blkReg b 0) 0

/-- When all 16 threads have switched, LIVE changes. -/
def swapFinish (b : Nat) (s : State) : State :=
  if rfld s (blkReg b 0x10) 16 16 = 0xFFFF ∧ rbit s (blkReg b 0x10) 1 then
    let s := rbitSet (blkReg b 0) 1 false (rbitSet (blkReg b 0) 0 (!blkLive s b) s)
    let s := blkStat b 0 (rbitSet (blkReg b 0x10) 1 false s)
    let v := rget s (blkReg b 0x18)
    rset (blkReg b 0x18) (BitVec.ofNat 64 (fld v 0 32 * 2 ^ 32 + fld v 32 32)) s
  else s

/-- Thread t switches to the shadow bank, if the swap point has passed and it has not. -/
def switchThread (t : Nat) (s : State) : State :=
  let b := t / 16
  if rbit s (blkReg b 0x10) 1 && !rbit s (blkReg b 0x10) (16 + t % 16) then
    let s := updThread t (fun x => { x with bank := !blkLive s b }) s
    swapFinish b (rbitSet (blkReg b 0x10) (16 + t % 16) true s)
  else s

/-! ### Yields (R368) -/

/-- The snapshot and the capture of a yield. -/
def yieldSnap (t : Nat) (s : State) : State :=
  let st := rget s (cellReg t 0x30)
  let snap := [(rget s (cellReg t 0x38), BitVec.ofNat 8 (fld st 48 8)), (rget s (cellReg t 0x40), BitVec.ofNat 8 (fld st 56 8))]
  updThread t (fun x =>
    let taken := x.latch &&& x.mask
    { setM 15 taken x with latch := x.latch &&& ~~~taken, snap := snap }) s

/-- A yield word after its operations have landed: snapshot, bank switch, then STOP, park or the next address. -/
def doYield (t : Nat) (w : BitVec 64) (holds : Bool) (s : State) : State :=
  let s := switchThread t (yieldSnap t s)
  let x := thread s t
  if rbit s (blkReg (t / 16) (0x100 + 32 * (t % 16))) 1 then stopped t (setThread t { nextPc w holds x x with state := 0 } s)
  else if fld w 62 2 = 2 ∧ mreg x 15 = 0 then setThread t { x with state := 2, wake := false } s
  else setThread t (nextPc w holds x x) s

def wordAt (s : State) (b : Nat) (x : Thread) : BitVec 64 :=
  BitVec.ofNat 64 (natAt s (blkReg b (if x.bank then 0x8000 else 0x4000) + 8 * x.pc.toNat) 8)

/-- The result of a control word goes to its destination register, where there is one. -/
def writeResult (t d : Nat) (r : Option (BitVec 16)) (s : State) : State :=
  match r with
  | some z => updThread t (setM d z) s
  | none => s

/-- The error counters of control words (R372): `errs` 1 corrected, 2 uncorrectable. -/
def countWordErrs (b errs : Nat) (s : State) : State :=
  if errs = 1 then rsat (blkReg b 0x28) 16 16 1 s else if errs = 2 then rsat (blkReg b 0x28) 0 16 1 s else s

/-- The end of a control word: its result, from the COP or else the ALU half, and the next word or the yield. -/
def endWord (t : Nat) (w : BitVec 64) (holds : Bool) (x : Thread) (r : Option (BitVec 16)) (q : Option (BitVec 16) × State) : State :=
  let s := writeResult t (fld w 24 4) (q.1.orElse fun _ => r) q.2
  if fld w 62 2 = 0 then updThread t (nextPc w holds x) s else doYield t w holds s

/-- What a control word without a fault does: both operations, the result, the next word or the yield. `x` is the thread as the
slot found it. -/
def wordRun (t c : Nat) (w : BitVec 64) (x : Thread) (s : State) : State :=
  let holds := condHolds s t c (fld w 53 6)
  let a := mreg x (fld w 20 4)
  let v := if fld w 16 4 = 0 then BitVec.ofNat 16 (fld w 0 16) else mreg x (fld w 16 4)
  let s := advanceTo (s.fclk + 4) s
  let r := aopRun (fld w 28 4) a v (thread s t)
  endWord t w holds x r.1 (copRun (fld w 32 5) t c a v (fld w 0 16) (setThread t r.2 s))

/-- The word of thread t issues in the BCLK that begins now and lands at its end (R359). -/
def issueWord (t errs : Nat) (s : State) : State :=
  let b := t / 16
  let x := thread s t
  let w := wordAt s b x
  let c := 16 * b + (t + fld w 37 4) % 16
  let s := countWordErrs b errs s
  match wordFault s t c w errs with
  | 0 => wordRun t c w x s
  | f => threadFault t f s

/-- CONTROL_WORD_ISSUE: the next slot of a thread in RUN (R358, R360); `errs` 1 corrected, 2 uncorrectable (R372). -/
def execControlWordIssue (b : Fin 64) (errs : Fin 3) (s : State) : Res :=
  match nextOwned s b (freeSlot s b) fun t => (thread s (16 * b.val + t)).state == 1 with
  | some n =>
    let t := 16 * b.val + slotOwner s b n
    if !spineOn s b || (errs.val != 2 && wordReserved (wordAt s b (thread s t))) then .refused .notEnabled
    else
      let s := advanceTo (bclkFclk s b n) s
      .next (issueWord t errs (setBlocker b { blocker s b with nextSlot := n + 1 } s))
  | none => .refused .notEnabled

/-! ### The operations as commands: a word of thread t applies the operation to the cell at offset `cell` from its own -/

/-- The thread is in RUN, and its word may act on the cell. -/
def copGate (s : State) (t : Nat) : Bool := (thread s t).state == 1 && spineOn s (t / 16)
/-- The cell named (R360). -/
def copCell (t cell : Nat) : Nat := t / 16 * 16 + (t + cell) % 16
/-- An operation on a cell: fault 3 where the cell is locked and the word is not sealed (R378). -/
def onCell (t cell : Nat) (f : State → State) (s : State) : Res :=
  gate (copGate s t)
    (if s.locks.cells.contains (copCell t cell) && !sealedWord s (t / 16) (thread s t).pc.toNat then threadFault t 3 s else f s)

def execTxb (t : Fin 1024) (cell : Fin 16) (v : BitVec 16) (s : State) : Res := onCell t cell (copTxb (copCell t cell) v) s
def execRxb (t : Fin 1024) (cell : Fin 16) (dst : Fin 16) (s : State) : Res :=
  onCell t cell (fun s => let (r, s) := copRxb (copCell t cell) s; updThread t (setM dst r) s) s
def execShift (t : Fin 1024) (cell : Fin 16) (v : BitVec 16) (s : State) : Res := onCell t cell (queueEntry (copCell t cell) (.shift v)) s
def execSpan (t : Fin 1024) (cell : Fin 16) (v : BitVec 16) (s : State) : Res := onCell t cell (queueEntry (copCell t cell) (.span v)) s
def execPadset (t : Fin 1024) (cell : Fin 16) (v : BitVec 16) (s : State) : Res := onCell t cell (queueEntry (copCell t cell) (.pads v)) s
def execCrd (t : Fin 1024) (cell : Fin 16) (idx : Fin 64) (dst : Fin 16) (s : State) : Res :=
  gate (copGate s t) (updThread t (setM dst (copCrd (copCell t cell) idx s)) s)
def execCwr (t : Fin 1024) (cell : Fin 16) (idx : Fin 64) (v : BitVec 16) (s : State) : Res :=
  onCell t cell (copCwr (t / 16) (copCell t cell) idx v) s
def execFlush (t : Fin 1024) (cell : Fin 16) (v : BitVec 16) (s : State) : Res := onCell t cell (copFlush (copCell t cell) v) s
def execRstamp (t : Fin 1024) (v : BitVec 16) (s : State) : Res := gate (copGate s t) (copRstamp t v s)
def execRsend (t : Fin 1024) (cell : Fin 16) (v : BitVec 16) (s : State) : Res :=
  gate (copGate s t) (copRsend t (copCell t cell) v s)
def execRput (t : Fin 1024) (v : BitVec 16) (s : State) : Res := gate (copGate s t) (copRput t v s)
def execRclr (t : Fin 1024) (s : State) : Res := gate (copGate s t) (copRclr t s)
def execCmdb (t : Fin 1024) (dst : Fin 16) (s : State) : Res :=
  gate (copGate s t) (let (r, s) := copCmdb t s; updThread t (setM dst r) s)
def execTmr (t : Fin 1024) (v : BitVec 16) (s : State) : Res := gate (copGate s t) (copTmr t v s)
def execEvmask (t : Fin 1024) (v : BitVec 16) (s : State) : Res := gate (copGate s t) (copEvmask t v s)
def execAttn (t : Fin 1024) (s : State) : Res := gate (copGate s t) (copAttn t s)
def execHsig (t : Fin 1024) (s : State) : Res := gate (copGate s t) (copHsig t s)

/-! ### Parking, the micro-timer, START and STOP (R368, R371) -/

/-- The yield of a parked thread is taken again: snapshot, capture and next address, which land at the end of the BCLK (R359). -/
def unpark (t : Nat) (s : State) : State :=
  let w := wordAt s (t / 16) (thread s t)
  let holds := condHolds s t (16 * (t / 16) + (t + fld w 37 4) % 16) (fld w 53 6)
  let s := switchThread t (yieldSnap t (advanceTo (s.fclk + 4) s))
  updThread t (fun x => { nextPc w holds x x with state := 1, wake := false }) s

/-- PARK_WAKE: the first slot at least 1 BCLK after an event of the mask, or the end of the park (R368). -/
def execParkWake (t : Fin 1024) (s : State) : Res :=
  let b := t.val / 16
  let x := thread s t
  let from_ := max (freeSlot s b) (bclkAt s b (x.latchAt + 7))
  match nextOwned s b from_ (· == t.val % 16) with
  | some n =>
    if x.state = 2 && ((x.latch &&& x.mask) != 0 || x.wake) && spineOn s b then
      let s := advanceTo (bclkFclk s b n) s
      .next (unpark t (setBlocker b { blocker s b with nextSlot := n + 1 } s))
    else .refused .notEnabled
  | none => .refused .notEnabled

/-- MICRO_TIMER_EXPIRY (R364, R367). -/
def execMicroTimerExpiry (t : Fin 1024) (s : State) : Res :=
  match (thread s t).timer with
  | some d => gateAt (spineOn s (t / 16)) d s fun s =>
      latchEvent t 6 (updThread t (fun x => { x with timer := none, expired := true, wake := x.wake || x.state == 2 }) s)
  | none => .refused .notEnabled

/-- A thread that the sealed configuration locks (R378). -/
def threadLocked (s : State) (t : Nat) : Bool := s.locks.threads.contains t

/-- START (R371). A thread that has switched in a swap under way fetches from the new bank (R374). -/
def startThread (t : Nat) (s : State) : State :=
  let x := thread s t
  let b := t / 16
  if x.state = 1 ∨ x.state = 2 then s
  else
    let new := rbit s (blkReg b 0x10) 1 && rbit s (blkReg b 0x10) (16 + t % 16)
    setThread t { ({} : Thread) with
      pc := BitVec.ofNat 11 (rfld s (blkReg b (0x100 + 32 * (t % 16))) 16 11), state := 1, bank := blkLive s b != new } s
def stopThread (t : Nat) (s : State) : State :=
  match (thread s t).state with
  | 1 => w1sWrite (blkReg (t / 16) (0x100 + 32 * (t % 16))) 1 s
  | 2 => updThread t (fun x => { x with state := 0 }) s
  | _ => s
def execBlkTstart (t : Fin 1024) (s : State) : Res :=
  gate (spineOn s (t / 16)) (if threadLocked s t then s else startThread t s)
def execBlkTstop (t : Fin 1024) (s : State) : Res :=
  gate (spineOn s (t / 16)) (if threadLocked s t then s else stopThread t s)

/-! ### Wheel writes, copies, swaps (R358, R373, R374, R378) -/

/-- A wheel value that changes a locked slot or gives another slot to a locked thread. -/
def wheelLocked (s : State) (b : Nat) (v : BitVec 64) : Bool :=
  let old := rget s (blkReg b 0x20)
  (List.range 16).any fun i =>
    fld v (4 * i) 4 != fld old (4 * i) 4
      && (threadLocked s (16 * b + fld v (4 * i) 4) || threadLocked s (16 * b + fld old (4 * i) 4))
def wheelWrite (b : Nat) (v : BitVec 64) (s : State) : State :=
  if wheelLocked s b v then blkStat b 3 s else putWheel b v s
def execBlkWheelWrite (b : Fin 64) (v : BitVec 64) (s : State) : Res := gate (spineOn s b) (wheelWrite b v s)

/-- WHEEL_CHANGE: the next BCLK whose count mod 16 is 0 (R358). -/
def execWheelChange (b : Fin 64) (s : State) : Res :=
  match (blocker s b).wheel with
  | some v => gateAt (spineOn s b) (bclkFclk s b (blocker s b).wheelAt) s fun s =>
      rset (blkReg b 0x20) v (setBlocker b { blocker s b with wheel := none } s)
  | none => .refused .notEnabled

/-- COPY, BLK_CTL bit 2 (R373). -/
def blkCopyStart (b : Nat) (s : State) : State :=
  if rbit s (blkReg b 0) 1 then blkStat b 4 s else w1sWrite (blkReg b 0) 2 s
def execBlkCopy (b : Fin 64) (s : State) : Res := gate (spineOn s b) (blkCopyStart b s)

def blkBank (b : Nat) (k : Bool) : Nat := blkReg b (if k then 0x8000 else 0x4000)
def execBlkCopyDone (b : Fin 64) (s : State) : Res :=
  gate (rbit s (blkReg b 0) 2)
    (w1sClear (blkReg b 0) 2 (setMem (copyBytes (blkBank b (blkLive s b)) (blkBank b (!blkLive s b)) 0x4000 s.mem) s))

/-- SWAPARM (R374). -/
def blkArm (b : Nat) (s : State) : State :=
  if (rget s (blkReg b 8)).toNat < s.tb.tick + 4096 ∨ rbit s (blkReg b 0) 1 ∨ rbit s (blkReg b 0) 2 then blkStat b 4 s
  else rbitSet (blkReg b 0) 1 true s
def execBlkSwaparm (b : Fin 64) (s : State) : Res := gate (spineOn s b) (blkArm b s)

/-- BLK_SWAP_POINT, the first BCLK that begins at the tick of BLK_SWAPAT or later: threads that do not run switch at once, and a bank
switch ends a park (R374, R368). -/
def swapPoint (b : Nat) (s : State) : State :=
  let s := rbitSet (blkReg b 0x10) 1 true (rput (blkReg b 0x10) 16 16 0 s)
  (List.range 16).foldl (fun s i =>
    let t := 16 * b + i
    if (thread s t).state = 1 then s
    else switchThread t (updThread t (fun x => { x with wake := x.wake || x.state == 2 }) s)) s
def execBlkSwapPoint (b : Fin 64) (s : State) : Res :=
  if !rbit s (blkReg b 0) 1 || rbit s (blkReg b 0x10) 1 || !spineOn s b then .refused .notEnabled
  else
    let s := advanceTick (rget s (blkReg b 8)).toNat s
    .next (swapPoint b (advanceTo ((s.fclk + 3) / 4 * 4) s))

/-! ### Registers, power (R371 to R379) -/

def blkWrite (b o : Nat) (v : BitVec 64) (by_ : Agent) (s : State) : Bool × State :=
  let a := blkReg b o
  if by_ ≠ .steward ∧ by_ ≠ .loader then (false, s)
  else if o < 0x100 then
    match o with
    | 0x00 =>
      let s := if bit v 2 then blkCopyStart b s else s
      (true, if bit v 1 then blkArm b s else s)
    | 0x08 => if rbit s (blkReg b 0) 1 then (false, s) else (true, rset a v s)
    | 0x10 => (true, rw1c a 0xFFFFFFFF0000003D v s)
    | 0x18 => (true, rset a v s)
    | 0x20 => (true, wheelWrite b v s)
    | _ => (true, if v = 0 then rset a 0 s else s)
  else if o < 0x300 then
    let t := 16 * b + (o - 0x100) / 32
    match o % 32 with
    | 0 =>
      if threadLocked s t && by_ != .loader then (false, s)
      else
        let s := rput a 16 11 (fld v 16 11) s
        let s := if bit v 0 then startThread t s else s
        (true, if bit v 1 then stopThread t s else s)
    | 16 => (true, if v = 0 then rput a 0 32 0 s else s)
    | _ => (true, s)
  else if o < 0x4000 then (true, s)
  else
    let bank := decide (0x8000 ≤ o)
    if by_ = .loader then (true, poke a (natBytes 8 v.toNat) s)
    else if sealedWord s b ((o - 0x4000) % 0x4000 / 8) then (false, blkStat b 3 s)
    else if bank = blkLive s b ∨ rbit s (blkReg b 0) 1 then (false, blkStat b 2 s)
    else (true, poke a (natBytes 8 v.toNat) s)

/-- BLK_TSTAT (R371). -/
def tstatRead (x : Thread) : BitVec 64 :=
  BitVec.ofNat 64 (x.state * 2 ^ 62 + b2n x.bank * 2 ^ 61 + x.fcause * 2 ^ 56 + x.stack.length * 2 ^ 52 + x.latch.toNat * 2 ^ 32
    + x.pc.toNat * 2 ^ 16 + x.mask.toNat)
/-- The thread window (R372). -/
def windowRead (x : Thread) (o : Nat) : BitVec 64 :=
  let four (f : Nat → Nat) : BitVec 64 := BitVec.ofNat 64 (f 0 + f 1 * 2 ^ 16 + f 2 * 2 ^ 32 + f 3 * 2 ^ 48)
  if x.state = 1 ∨ x.state = 2 then 0
  else match o / 8 with
    | 4 => BitVec.ofNat 64 (x.lcnt.toNat + b2n x.z * 2 ^ 16 + b2n x.n * 2 ^ 17 + b2n x.c * 2 ^ 18 + x.stack.length * 2 ^ 20)
    | 5 => four fun i => (x.stack.getD i 0).toNat
    | 6 => four fun i => (x.stack.getD (4 + i) 0).toNat
    | 7 => 0
    | k => four fun i => (mreg x (4 * k + i)).toNat
def blkRead (s : State) (b o : Nat) : BitVec 64 :=
  if o = 0x20 then (blocker s b).wheel.getD (rget s (blkReg b o))
  else if 0x100 ≤ o ∧ o < 0x300 ∧ o % 32 = 8 then tstatRead (thread s (16 * b + (o - 0x100) / 32))
  else if 0x400 ≤ o ∧ o < 0x800 then windowRead (thread s (16 * b + (o - 0x400) / 64)) (o % 64)
  else if 0x4000 ≤ o then BitVec.ofNat 64 (natAt s (blkReg b o) 8)
  else rget s (blkReg b o)
/-- Registers of the block that a capability with PORT and R may read (R373). -/
def blkReadable (o : Nat) : Bool :=
  o == 0x10 || o == 0x18 || (decide (0x100 ≤ o ∧ o < 0x300) && (o % 32 == 8 || o % 32 == 16))

/-- The threads of a group stop when its domain goes off (R379). -/
def groupThreadsOff (g : Nat) (s : State) : State :=
  (List.range 8).foldl (fun s i =>
    let b := 8 * g + i
    let run := (List.range 16).filter fun t => (thread s (16 * b + t)).state = 1 ∨ (thread s (16 * b + t)).state = 2
    let s := run.foldl (fun s t => stopped (16 * b + t) (updThread (16 * b + t) (fun x => { x with state := 0 }) s)) s
    if run.isEmpty then s else blkStat b 5 s) s

/-- Reset of a blocker with its spine: banks, threads, registers (R379); BCLK is counted from here (R358). -/
def resetBlocker (b : Nat) (s : State) : State :=
  let s := rclear (blkReg b 0) (blkReg b 0x10000) s
  setBlocker b { origin := s.fclk } (setThreads (tclear s.threads (16 * b) (16 * b + 16))
    (setMem (tclear s.mem (blkReg b 0) (blkReg b 0x10000)) s))

end Sys2Proof.Machine
end

