-- ==== Sys2Proof/Machine/Consumables.lean ====
section
/-! DEFINITION. Consumable records and the authentication of identity chips (R504 to R509). -/
namespace Sys2Proof.Machine

/-- Record i of region 7 as a ledger line. -/
def consLine (i : Nat) : Nat := regionLine 7 + i
def consAt (s : State) (l o n : Nat) : Nat := natAt s (ledgerAddr l o) n
/-- A line's bytes with some fields (offset, bytes, value) replaced. -/
def editLine (bs : List Byte) (es : List (Nat × Nat × Nat)) : List Byte :=
  es.foldl (fun bs e => bs.take e.1 ++ natBytes e.2.1 e.2.2 ++ bs.drop (e.1 + e.2.1)) bs
/-- One write of a line with some fields replaced. -/
def consEdit (l : Nat) (es : List (Nat × Nat × Nat)) (s : State) : State :=
  ledgerPut l 0 (editLine (bytesAt s (ledgerAddr l 0) 64) es) s

/-- Key digest of a certificate: the first 16 bytes of SHA-384 of the chip key. -/
def keyDigest (cert : List Byte) : Nat := bytesNat (shaBytes ((cert.drop 16).take 64) 16)
def consUsed (s : State) (l : Nat) : Bool := consAt s l 0 8 != 0 || consAt s l 8 8 != 0 || consAt s l 0x28 16 != 0
def consState (s : State) (l : Nat) : Nat := consAt s l 9 1
def consLines : List Nat := (List.range 16384).map consLine
/-- The record of a ROM code and key digest. -/
def findCons (s : State) (rom dig : Nat) : Option Nat :=
  consLines.find? fun l => consUsed s l && consAt s l 0 8 == rom && consAt s l 0x28 16 == dig
/-- The line of a new record: the first free one, else the absent record with the oldest authentication tick (R507). -/
def newConsLine (s : State) : Option Nat :=
  match consLines.find? fun l => !consUsed s l with
  | some l => some l
  | none => (consLines.filter fun l => consState s l == 3).foldl (fun (b : Option Nat) l => match b with
      | some m => if consAt s l 0x18 8 < consAt s m 0x18 8 then some l else some m
      | none => some l) none

/-- The bytes of a new record. -/
def newCons (cert : List Byte) (p dev home tick : Nat) : List Byte :=
  cert.take 8 ++ natBytes 8 (leAt cert 8 1 + p * 2 ^ 16 + dev * 2 ^ 32 + leAt cert 9 1 * 2 ^ 40 + home * 2 ^ 48)
    ++ natBytes 8 (leAt cert 12 4 * 2 ^ 32) ++ natBytes 8 0 ++ natBytes 8 tick ++ natBytes 16 (keyDigest cert) ++ natBytes 8 0

/-- Life of a record under the policy of its issuer and class (R508): Gleby private state, a line for each. -/
def policyLine (issuer cls : Nat) : Nat := 0x190000 / 64 + (issuer - 16) * 256 + cls
def policyOf (s : State) (issuer cls : Nat) : Nat × Nat :=
  let l := policyLine issuer cls
  if consAt s l 0 1 = 1 then (consAt s l 1 1, consAt s l 4 4) else (0, 0)
def consLimit (s : State) (l : Nat) : Nat :=
  let lim := (policyOf s (consAt s l 8 1) (consAt s l 13 1)).2
  if lim = 0 then consAt s l 0x14 4 else min (consAt s l 0x14 4) lim
def consLeft (s : State) (l : Nat) : Nat := consLimit s l - consAt s l 0x10 4

/-- The chip at a place, and its record. -/
def chipLine (s : State) (p dev : Nat) : Option Nat := (s.gly.chips.find? fun c => c.1 == 8 * p + dev).map (·.2)

/-- A record is mirrored to the registrar (R509). -/
def mirrorCons (l : Nat) (s : State) : State :=
  if isRegistrar s then s else tellMember (members s).head? (.record (bytesAt s (ledgerAddr l 0) 64)) s
/-- The registrar keeps the master copy of a record that a package sends (R509). -/
def keepRecord (bs : List Byte) (s : State) : State :=
  match (findCons s (leAt bs 0 8) (leAt bs 0x28 16)).orElse fun _ => newConsLine s with
  | some l => ledgerPut l 0 (padTo 64 (bs.take 64)) s
  | none => s

/-- Where the record of a chip stands. -/
def seatChip (p dev l : Nat) (s : State) : State := setGly { s.gly with chips := tput s.gly.chips (8 * p + dev) l } s
def unseatChip (p dev : Nat) (s : State) : State := setGly { s.gly with chips := tdel s.gly.chips (8 * p + dev) } s

/-- The certificate that a chip presents: its record exists from then on, STATE present (R505 to R507, R509). `master` is the record
that the registrar holds, if the package has none. -/
def presentChip (p dev : Nat) (cert master : List Byte) (s : State) : State :=
  let here : List (Nat × Nat × Nat) := [(9, 1, 0), (10, 2, p), (12, 1, dev)]
  match findCons s (leAt cert 0 8) (keyDigest cert) with
  | some l => consEdit l here (seatChip p dev l s)
  | none => match newConsLine s with
    | some l =>
      let s := if isRegistrar s then s else tellMember (members s).head? (.fetch (leAt cert 0 8) (keyDigest cert)) s
      let r := if master.isEmpty then newCons cert p dev (localPkg s) s.tb.tick else padTo 64 master
      ledgerPut l 0 (editLine r ((14, 1, localPkg s) :: here)) (seatChip p dev l s)
    | none => unseatChip p dev s

/-- Steps 1 to 3 of R505. -/
def chipGenuine (s : State) (rom cert nonce resp : List Byte) : Bool :=
  cert.take 8 == rom && leAt cert 10 2 == 1
    && decide (16 ≤ leAt cert 8 1 ∧ leAt cert 8 1 ≤ 31) && s.bez.roots.contains (leAt cert 8 1)
    && Config.verify s.bez.manSerial (leAt cert 8 1) (cert.take 80) (cert.drop 80)
    && Config.chipVerify ((cert.drop 16).take 64) ([0x43, 0x48, 0x4E, 0x2D, 0x43, 0x4F, 0x4E, 0x53] ++ nonce ++ rom) resp

/-- A 32-byte random nonce: free. DEDUCED, log entry 52. -/
def chipNonce (s : State) : List Byte × State :=
  let (a, s) := drawFree s
  let (b, s) := drawFree s
  let (c, s) := drawFree s
  let (d, s) := drawFree s
  (natBytes 8 a.toNat ++ natBytes 8 b.toNat ++ natBytes 8 c.toNat ++ natBytes 8 d.toNat, s)

/-- The record of a chip after its authentication: present or in use up, the tick; or failed, one failure more. DEDUCED, log entry 52. -/
def chipVerdict (ok : Bool) (l : Nat) (s : State) : State :=
  mirrorCons l (consEdit l (if ok then [(9, 1, if consLeft s l = 0 then 4 else 1), (0x18, 8, s.tb.tick)]
    else [(9, 1, 2), (0x38, 4, min (2 ^ 32 - 1) (consAt s l 0x38 4 + 1))]) s)

/-- The verdict goes to the record of the chip, if it has a line. -/
def judgeChip (p dev : Nat) (ok : Bool) (s : State) : Bool × Option Nat × State :=
  match chipLine s p dev with
  | none => (ok, none, s)
  | some l => (ok, some l, chipVerdict ok l s)

/-- Steps 1 to 3 of R505 on the chip in place: whether it is genuine and its record. -/
def authChip (p dev : Nat) (bs : List Byte) (s : State) : Bool × Option Nat × State :=
  let q := chipNonce (presentChip p dev ((bs.drop 8).take 176) (bs.drop 248) s)
  judgeChip p dev (chipGenuine q.2 (bs.take 8) ((bs.drop 8).take 176) q.1 ((bs.drop 184).take 64)) q.2

/-- The library reports an identity chip attached: with its certificate and response Gleby authenticates it. -/
def chipAttach (p dev : Nat) (ident : List Byte) (s : State) : State :=
  if ident.length < 248 then s else (authChip p dev ident s).2.2
/-- A detach sets STATE to absent, and the record stays (R507). -/
def chipDetach (p dev : Nat) (s : State) : State :=
  match chipLine s p dev with
  | some l => consEdit l [(9, 1, 3)] (unseatChip p dev s)
  | none => s

end Sys2Proof.Machine
end

