-- ==== Sys2Proof/Machine/Time.lean ====
section
/-! DEFINITION. Store time: steps, rate points, check words, the PPS balls, the servo, launch timers (R303 to R318). -/
namespace Sys2Proof.Machine

def timStat (i : Nat) (s : State) : State := rbitSet (timReg 0x40) i true s

/-- Let FCLK pass, one armed step or rate point after the other, while `p` holds. -/
def advanceWhile (p : State → Bool) : Nat → State → State
  | 0, s => s
  | fuel + 1, s =>
    if p s then
      match nextTbEvent s.tb with
      | some j => advanceWhile p fuel (advance j s)
      | none => s
    else s

/-- TIME_STEP_APPLY: the tick count reaches STEPAT (R305, R307). -/
def execTimeStepApply (s : State) : Res :=
  gate s.tb.step.isSome (advanceWhile (fun s => s.tb.step.isSome) 3 s)

/-- RATE_POINT: the tick count reaches M (R306). -/
def execRatePoint (s : State) : Res :=
  gate s.tb.pend.isSome (advanceWhile (fun s => s.tb.pend.isSome) 3 s)

/-- A write to TIM_RATE (R306). -/
def rateWrite (v : Nat) (s : State) : State :=
  let r := sgn 32 v
  if 2147483 < r ∨ r < -2147483 then timStat 2 s
  else
    let m := (s.tb.tick + 2048 + 1023) / 1024 * 1024
    rset (timReg 0x20) (BitVec.ofNat 64 (v % 2 ^ 32)) (setTb { s.tb with pend := some (r, m) } s)
def execTimRateWrite (v : BitVec 64) (s : State) : Res := .next (rateWrite v.toNat s)

/-- Setting STEPARM (R307). -/
def stepArm (s : State) : State :=
  let at_ := (rget s (timReg 0x30)).toNat
  if at_ < s.tb.tick + 4096 then timStat 2 s
  else rbitSet (timReg 0) 8 true (setTb { s.tb with step := some ((rget s (timReg 0x28)).toInt, at_) } s)
def execSteparm (s : State) : Res := .next (stepArm s)

/-- What a check word carries at its stated FCLK: the master's own state (R308). -/
def timeWord (s : State) : TimeWord :=
  { tick := BitVec.ofNat 64 s.tb.tick, frac := BitVec.ofNat 32 s.tb.frac, rate := BitVec.ofInt 32 s.tb.rate,
    step := s.tb.step.map fun x => (BitVec.ofInt 64 x.1, BitVec.ofNat 64 x.2),
    swap := if rbit s (hatReg 0) 2 then some (rget s (hatReg 8)) else none }

/-- DFAULT of a die rises (R308): source 317, and the record that Gleby makes of it. -/
def dfault (d : Nat) (s : State) : State :=
  let rise := !rbit s (timReg 0x40) (8 + d)
  let s := addRec5 (.timeFault d s.tb.tick) (timStat (8 + d) s)
  if rise then raiseSteward 317 s else s

/-- CHECK_WORD on the seam of die d (R308) with `flips` bit errors: none, one, which is corrected, or two, which drop the word.
`replica` is what the die's replica holds in the stated FCLK; none: what R305 has made of the master's own state. A replica that differs loads
the word, and so holds the master's state again. DESIGN CHOICE, log entry 73. -/
def checkWord (d flips : Nat) (replica : Option TimeWord) (s : State) : State :=
  if flips = 2 then rsat (timReg 0x48) 0 32 1 s
  else if replica.getD (timeWord s) = timeWord s then s
  else dfault d s
def execCheckWord (d : Fin 6) (w : CheckIn) (s : State) : Res :=
  .next (checkWord d w.flips w.replica (advanceTo ((s.fclk + 1023) / 1024 * 1024) s))

/-! ### The servo (R309, R311, R312) -/

def timSrc (s : State) : Nat := rfld s (timReg 0) 0 2

def secondTicks : Nat := 1200000000

/-- LOCK or HOLDOVER takes a value; a change raises source 317 (R312). -/
def setTimBit (i : Nat) (v : Bool) (s : State) : State :=
  if rbit s (timReg 0x40) i = v then s else raiseSteward 317 (rbitSet (timReg 0x40) i v s)

/-- An offset of n ticks is above, or below, a bound in ns: one tick is 5/6 ns (R303). -/
def aboveNs (n : Int) (ns : Nat) : Bool := decide (6 * ns < 5 * n.natAbs)
def belowNs (n : Int) (ns : Nat) : Bool := decide (5 * n.natAbs < 6 * ns)

/-- Gleby steps store time by `d` ticks, at a tick within the range of an arm (a free value). DESIGN CHOICE, log entry 5. -/
def servoStep (d : Int) (s : State) : State :=
  let (v, s) := drawFree s
  stepArm (rset (timReg 0x30) (BitVec.ofNat 64 (s.tb.tick + 4096 + v.toNat % 1048576)) (rset (timReg 0x28) (BitVec.ofInt 64 d) s))

/-- The servo slews: a rate within R306 that Kp and Ki give (a free value). DESIGN CHOICE, log entry 5. -/
def servoSlew (offset : Int) (s : State) : State :=
  let (v, s) := drawFree s
  let r := max (-2147483) (min 2147483 (Config.servoRate s.disc.kp s.disc.ki offset s.tb.rate v.toNat))
  rateWrite (wrapN 32 r) s

/-- A usable sample with its offset in ticks (R311, R312): above the step threshold it is stepped, otherwise slewed; LOCK after enough offsets
in a row below the lock bound; never a step in holdover, which the sample ends. -/
def servoSample (offset : Int) (s : State) : State :=
  let wasHold := rbit s (timReg 0x40) 1
  let s := setTimBit 1 false s
  let x := s.disc
  let good := if belowNs offset x.lockNs then min (x.good + 1) 255 else 0
  let s := setDisc { x with good := good, lastAt := some s.fclk, rates := (x.rates ++ [s.tb.rate]).drop (x.rates.length + 1 - 16) } s
  let s := if aboveNs offset x.stepNs && !wasHold then servoStep (0 - offset) s else servoSlew offset s
  setTimBit 0 (decide (x.lockN ≤ good)) s

/-! ### 1PPS and whole seconds (R309, R310, R320) -/

/-- The distance in ticks of a PPS edge stamped `t` from the nearest whole second, less the fixed input delay of 3.0 ns (R567) and the cable
delay (R310). -/
def ppsOffset (t : Nat) (delay : Int) : Int :=
  let x := 5 * (t : Int) - 18 - 6 * delay
  let s : Int := 5 * secondTicks
  ((x + s / 2) % s - s / 2) / 5

/-- PPS_EDGE: the active edge is stamped (R310) and raises source 0x20A8; with SRC 2 or 3 it is the servo's sample (R309). -/
def execPpsEdge (rising : Bool) (s : State) : Res :=
  .next (if rising != rbit s (timReg 0) 6 then
      let s := raiseHat 0x20A8 (rset (timReg 0x38) (BitVec.ofNat 64 s.tb.tick) (setDisc { s.disc with ppsFrom := some s.tb.tick } s))
      if 2 ≤ timSrc s then servoSample (ppsOffset s.tb.tick s.disc.delay) s else s
    else s)

/-- PPS_MISS: no edge within 1,200,600,000 ticks of the previous one, with SRC 2 or 3 (R310). -/
def execPpsMiss (s : State) : Res :=
  match s.disc.ppsFrom with
  | some t =>
    if 2 ≤ timSrc s then
      let s := advanceTick (t + 1200600001) s
      .next (raiseSteward 317 (timStat 4 (setDisc { s.disc with ppsFrom := none } s)))
    else .refused .notEnabled
  | none => .refused .notEnabled

/-- STORE_TIME_SECOND: the tick count first reaches a whole second: source 0x20A9, and PPS_OUT rises (R310, R320). -/
def execStoreTimeSecond (s : State) : Res :=
  let s := advanceTick ((min s.disc.secDone (s.tb.tick / secondTicks) + 1) * secondTicks) s
  let s := raiseHat 0x20A9 (setDisc { s.disc with secDone := s.tb.tick / secondTicks } s)
  .next (if rbit s (timReg 0) 7 then
      emit (.pin 4096 true) (setDisc { s.disc with ppsHigh := some (s.tb.tick / secondTicks * secondTicks) } s) else s)

/-- PPS_OUT_FALL: 12,000,000 ticks later (R310). DEDUCED, log entry 68. -/
def execPpsOutFall (s : State) : Res :=
  match s.disc.ppsHigh with
  | some t =>
    let s := advanceTick (t + 12000000) s
    .next (emit (.pin 4096 false) (setDisc { s.disc with ppsHigh := none } s))
  | none => .refused .notEnabled

/-! ### PTP (R311, R312) -/

/-- The MAC in the slave role: the one whose master gave the last usable sample, out of holdover. The best master clock algorithm chooses it by
what other clocks announce, which is outside the package: the events PTP_SAMPLE and PTP_SYNC_SEND say what it chose. DESIGN CHOICE,
log entry 5. -/
def slaveMac (s : State) : Option Nat :=
  if s.disc.lastAt.isSome && !rbit s (timReg 0x40) 1 then some s.disc.lastMac else none

/-- A PTP message as a Layer 2 frame without FCS (R311, R520): message type, flags, correction in 2^-16 ns, sequence, timestamp, bytes after it.
PRESUMED (IEEE 1588), log entry 5. -/
def ptpFrame (s : State) (m kind flags corr seq : Nat) (stamp : Option Nat) (tail : Nat) : List Byte :=
  let be (k v : Nat) : List Byte := (natBytes k v).reverse
  let st := (Config.station m).toNat
  [0x01, 0x1B, 0x19, 0, 0, 0] ++ be 6 st ++ [0x88, 0xF7, BitVec.ofNat 8 kind, 0x02] ++ be 2 (44 + tail)
    ++ be 1 s.disc.domain ++ [0] ++ be 2 flags ++ be 8 corr ++ be 4 0
    ++ be 3 (st / 2 ^ 24) ++ [0xFF, 0xFE] ++ be 3 (st % 2 ^ 24) ++ be 2 (m + 1) ++ be 2 seq ++ [0, 0]
    ++ (match stamp with
      | some t => be 6 (ptpSec t) ++ be 4 (ptpNs t)
      | none => List.replicate 10 0) ++ List.replicate tail 0

/-- A PTP timestamp in ticks (R304). -/
def ptpTicks (t : PtpTime) : Nat := ptpTick t.sec.toNat t.ns.toNat t.frac.toNat

/-- The offset from the master that a delay request-response exchange gives, in ticks (R304, R311). PRESUMED (IEEE 1588), log entry 5. -/
def ptpOffset (x : PtpExchange) : Int :=
  (((x.t2.toNat : Int) - ptpTicks x.t1) - ((ptpTicks x.t4 : Int) - x.t3.toNat)) / 2

/-- What a PTP exchange does under SRC 1, the servo's sample, and under SRC 3, where it gives the second count only (R309). -/
def ptpSample (offset : Int) (s : State) : State :=
  if timSrc s = 3 then
    let n := (2 * offset + secondTicks) / (2 * secondTicks)
    if n ≠ 0 ∧ !rbit s (timReg 0x40) 1 then servoStep (0 - n * secondTicks) s else s
  else servoSample offset s

/-- The MAC sends its delay request (IEEE 1588 default profile) or peer delay request (802.1AS). -/
def delayRequest (m : Nat) (s : State) : State :=
  let x := tget ({} : Mac) s.macs m
  let p := s.disc.profile.getLsbD m
  setMacs (tset {} s.macs m { x with seq := (x.seq + 1) % 65536 })
    (emit (.frame m (ptpFrame s m (if p then 2 else 1) 0 0 x.seq none (if p then 10 else 0))) s)

/-- PTP_SAMPLE (R311). -/
def execPtpSample (m : Fin 8) (x : PtpExchange) (s : State) : Res :=
  gate ((timSrc s == 1 || timSrc s == 3) && s.disc.enabled.getLsbD m && decide (domState s 36 = 1))
    (ptpSample (ptpOffset x) (delayRequest m
      (setDisc { s.disc with lastOffset := ptpOffset x, lastMac := m, lastAt := some s.fclk } s)))

/-- ns in FCLK. -/
def nsFclk (ns : Nat) : Nat := ns * 6 / 5

/-- HOLDOVER_ENTRY: RATE freezes at the mean of the last 16 samples (R312). -/
def execHoldoverEntry (s : State) : Res :=
  match s.disc.lastAt with
  | some f => gateAt ((timSrc s == 1 || timSrc s == 3) && !rbit s (timReg 0x40) 1)
      (f + s.disc.holdN * nsFclk s.disc.sync) s fun s =>
        let r := s.disc.rates.foldl (· + ·) (0 : Int) / (max 1 s.disc.rates.length : Nat)
        rateWrite (wrapN 32 r) (setTimBit 1 true (setTimBit 0 false (setDisc { s.disc with good := 0 } s)))
  | none => .refused .notEnabled

/-- PTP_SYNC_SEND: one Sync every sync interval on an enabled MAC in the master role, with a one-step stamp, or a two-step stamp that a
Follow_Up carries in IEEE 1588 form (R304, R311, R520). -/
def execPtpSyncSend (m : Fin 8) (s : State) : Res :=
  let last := tget 0 s.disc.synced m
  gateAt (s.disc.enabled.getLsbD m && slaveMac s != some m.val && rbit s (macReg m 0) 0 && decide (domState s 36 = 1))
    (if last = 0 then s.fclk else last + nsFclk s.disc.sync) s fun s =>
      let x := tget ({} : Mac) s.macs m
      let stamp := s.tb.tick + txDelay s m
      let s := setMacs (tset {} s.macs m { x with seq := (x.seq + 1) % 65536 }) s
      let s := if rbit s (macReg m 0) 6 then emit (.frame m (ptpFrame s m 0 0 0 x.seq (some stamp) 0)) s
        else
          let s := txStamp m stamp x.seq (emit (.frame m (ptpFrame s m 0 0x200 0 x.seq none 0)) s)
          emit (.frame m (ptpFrame s m 8 0 (ptpFrac stamp) x.seq (some stamp) 0)) s
      setDisc { s.disc with synced := tset 0 s.disc.synced m s.fclk } s

/-! ### Launch timers (R315 to R318) -/

/-- LAUNCH_TIMER_FIRE (R316, R317). -/
def timerFire (i : Nat) (s : State) : State :=
  let next := (rget s (ltim i 0)).toNat
  let period := rfld s (ltim i 8) 0 32
  let c := rget s (ltim i 16)
  let limit := fld c 32 32
  let s := raiseHat i s
  let s := rput (ltim i 24) 32 32 (rfld s (ltim i 24) 32 32 + 1) s
  let s := if limit ≠ 0 then rput (ltim i 16) 32 32 (limit - 1) s else s
  let s := if limit = 1 then rbitSet (ltim i 16) 0 false s else s
  if !bit c 1 then rbitSet (ltim i 16) 0 false s
  else
    let k := (s.tb.tick - next) / max 1 period + 1
    rset (ltim i 0) (BitVec.ofNat 64 (next + k * period)) (rsat (ltim i 24) 0 31 (k - 1) s)
def execLaunchTimerFire (i : Fin 512) (s : State) : Res :=
  if !rbit s (ltim i 16) 0 then .refused .notEnabled
  else .next (timerFire i (advanceTick (rget s (ltim i 0)).toNat s))

/-- A write to a launch timer's TIM_LNEXT, TIM_LPER or TIM_LCTL: refused and reported where the timer is locked (R315, R318, R327). -/
def timerWrite (i o : Nat) (v : BitVec 64) (s : State) : Bool × State :=
  if timerLocked s i then (false, hatLockref s) else (true, timerAccept i o v s)
/-- TIM_LCTL_WRITE. -/
def execTimLctlWrite (i : Fin 512) (v : BitVec 64) (s : State) : Res := .next (timerWrite i 16 v s).2
/-- TIM_LPER_WRITE. -/
def execTimLperWrite (i : Fin 512) (v : BitVec 64) (s : State) : Res := .next (timerWrite i 8 v s).2

/-! ### The time block's registers (R314, R315) -/

/-- A write: the time base registers are the steward's alone; a launch timer takes any agent whose capability reaches it. -/
def timWrite (o : Nat) (v : BitVec 64) (by_ : Agent) (s : State) : Bool × State :=
  if 0x1000 ≤ o then
    let i := (o - 0x1000) / 32
    if o % 32 = 24 then
      if timerLocked s i then (false, hatLockref s)
      else
        let s := rw1c (ltim i 24) 0x80000000 v s
        (true, if v = 0 ∧ by_ = .steward then rput (ltim i 24) 0 31 0 s else s)
    else timerWrite i (o % 32) v s
  else if by_ ≠ .steward ∧ by_ ≠ .loader then (false, s)
  else (true, match o with
    | 0x00 =>
      let s := rset (timReg 0) (setBit (v &&& 0xC3) 8 (rbit s (timReg 0) 8)) s
      if bit v 8 then stepArm s else s
    | 0x20 => rateWrite v.toNat s
    | 0x28 => rset (timReg 0x28) v s
    | 0x30 => rset (timReg 0x30) v s
    | 0x40 =>
      let s := setTimBit 0 (bit v 0) (setTimBit 1 (bit v 1) s)
      rw1c (timReg 0x40) 0x3F1C v s
    | 0x48 => if v = 0 then rset (timReg 0x48) 0 s else s
    | _ => s)

/-- A read: TIM_NOW is the tick count, TIM_LCTL shows LOCKED (R314, R315). -/
def timRead (s : State) (o : Nat) : BitVec 64 :=
  if o = 8 then BitVec.ofNat 64 s.tb.tick
  else if 0x1000 ≤ o ∧ o % 32 = 16 then setBit (rget s (timReg o)) 2 (timerLocked s ((o - 0x1000) / 32))
  else rget s (timReg o)

end Sys2Proof.Machine
end

