-- ==== Sys2Proof/Machine/Hatband.lean ====
section
/-! DEFINITION. The hatband: delivery, banks, copies and swaps, fabric events (R319 to R330). -/
namespace Sys2Proof.Machine

/-- The sinks of a bank that listen to an event, found among its written entries (R319). -/
def sinksOf (s : State) (bank ev : Nat) : List Nat :=
  let b := hatBankBase bank + 0x7000
  s.mem.filterMap fun c =>
    if b ≤ c.1 ∧ c.1 < b + 0x6400 ∧ (c.1 - b) % 2 = 1 then
      let n := (c.1 - b) / 2
      let e := hatSink s bank n
      if e / 2 ^ 15 = 1 ∧ e % 4096 = ev then some n else none
    else none

/-- The die of a sink: 0 to 3 facet dies, 4 and 5 brim dies, none the girdle. -/
def sinkDie (n : Nat) : Option Nat :=
  if n < 0x100 then some (dieOfCrown (n / 16))
  else if n < 0x120 then none
  else if n < 0x1000 then some (dieOfCrown (crownOf ((n - 0x800) / 16)))
  else if n < 0x2800 then some (dieOfCrown (crownOf ((n - 0x1000) / 48)))
  else if n < 0x3000 then some (4 + brimDieOf ((n - 0x2800) / 2))
  else none

/-- The sink's power domain is off (R323): a group, a spine, or a crown at P3. -/
def sinkOff (s : State) (n : Nat) : Bool :=
  if n < 0x100 then domState s (n / 16) == 4
  else if n < 0x120 then false
  else if n < 0x1000 then domState s (crownOf ((n - 0x800) / 16)) == 4
  else if n < 0x2800 then domState s (crownOf ((n - 0x1000) / 48)) == 4
  else if n < 0x3000 then !cellOn s ((n - 0x2800) / 2)
  else false

/-- A pulse at a facet event flag: it reads set from the next FCLK (R159, R540, R541). -/
def setFlag (n f : Nat) (s : State) : State :=
  let s := updFacet n (fun x => { x with efNext := x.efNext ||| BitVec.ofNat 16 (2 ^ f) }) s
  if crownUp s (crownOf n) then s else setWakes (sadd s.wakes (crownOf n)) s

/-- A pulse at fabric export x (R328): `p` is the pulse. -/
def exportPulse (x : Nat) (p : Pulse) (s : State) : State :=
  let e : BitVec 128 := BitVec.ofNat 128 (natAt s (hatBankBase p.bank + 0xD400 + 16 * x) 16)
  if !bit e 127 then s
  else
    let act := (p.tick + fld e 0 32) % 2 ^ 64
    if fld e 104 8 = localPkg s then fabImport true (fld e 64 12) act s
    else if s.fabric.joined then sendFabric 6 0 (fld e 104 8) act (natBytes 8 (fld e 64 12)) none s
    else s

/-- Deliver a pulse to one sink (R321). -/
def deliver (p : Pulse) (n : Nat) (s : State) : State :=
  if sinkOff s n then rsat (hatReg 0x10) 32 16 1 s
  else if n < 0x120 then movSink n s
  else if n < 0x1000 then setFlag ((n - 0x800) / 16) ((n - 0x800) % 16) s
  else if n < 0x2800 then facetPulse ((n - 0x1000) / 48) ((n - 0x1000) % 48) s
  else if n < 0x3000 then (if n % 2 = 0 then launch0 ((n - 0x2800) / 2) s else launch1 ((n - 0x2800) / 2) s)
  else if n < 0x3180 then stewardPulse (640 + (n - 0x3000)) s
  else exportPulse (n - 0x3180) p s

/-- HATBAND_DELIVERY: the oldest pulse of event e, 16 FCLK after it was raised (R19, R323); `lost` are the seams on which a
double-bit error drops it (R16): to facet dies 0 to 3, to brim dies 4 and 5, and 6 from the die of its source, in which case it
reaches no sink. -/
def execHatbandDelivery (e : Fin 4096) (lost : List (Fin 7)) (s : State) : Res :=
  match s.pulses.find? fun p => p.ev == e.val with
  | none => .refused .notEnabled
  | some p =>
    let s := advanceTo (p.at_ + 16) (setPulses (s.pulses.erase p) s)
    let all := sinksOf s p.bank p.ev
    let gone (n : Nat) : Bool := lost.any fun x => x.val == 6 || sinkDie n == some x.val
    let s := if lost.isEmpty then s else raiseSteward 315 (rsat (hatReg 0x10) 48 16 (if lost.contains 6 then 1 else lost.length) s)
    .next ((all.filter fun n => !gone n).foldl (fun s n => deliver p n s) s)

/-! ### Banks, copies, swaps (R320, R321, R324 to R327) -/

/-- Source and sink numbers that the tables list. -/
def srcListed (n : Nat) : Bool :=
  decide (n < 0x320) || decide (0x400 ≤ n ∧ n < 0x520) || decide (0x800 ≤ n ∧ n < 0x20AA)
def snkListed (n : Nat) : Bool :=
  decide (n < 0x120) || decide (0x800 ≤ n ∧ n < 0x317F) || decide (0x3180 ≤ n ∧ n < 0x31C0)

/-- Setting SWAPARM (R325). -/
def hatArm (s : State) : State :=
  if (rget s (hatReg 8)).toNat < s.tb.tick + 4096 ∨ rbit s (hatReg 0) 2 ∨ rbit s (hatReg 0) 1 then hatRef 2 s
  else w1sWrite (hatReg 0) 2 s
def execHatSwaparm (s : State) : Res := .next (hatArm s)

/-- HATBAND_SWAP (R325, R326). -/
def execHatbandSwap (s : State) : Res :=
  if !rbit s (hatReg 0) 2 then .refused .notEnabled
  else
    let s := advanceTick (rget s (hatReg 8)).toNat s
    .next (hatRef 0 (rbitSet (hatReg 0) 2 false (rput (hatReg 0) 0 1 (1 - hatLive s) s)))

/-- Setting COPY (R325); set again in the FCLK in which a copy ends, it starts another (R7). -/
def hatCopyStart (s : State) : State := if rbit s (hatReg 0) 2 then hatRef 2 s else w1sWrite (hatReg 0) 1 s
def execHatCopy (s : State) : Res := .next (hatCopyStart s)

/-- HAT_COPY_DONE: locked entries are the same in both banks, so the copy leaves them unchanged (R325, R327). -/
def execHatCopyDone (s : State) : Res :=
  let l := hatLive s
  gate (rbit s (hatReg 0) 1) (w1sClear (hatReg 0) 1
    (setMem (copyBytes (hatBankBase l) (hatBankBase (1 - l)) 0xD800 s.mem) s))

/-- The bits of the 8-byte register at bank offset o that are stored. -/
def bankMask (o : Nat) : BitVec 64 :=
  let ent (listed : Nat → Bool) (n : Nat) : Nat :=
    (List.range 4).foldl (fun v i => v + (if listed (n + i) then 0x8FFF * 2 ^ (16 * i) else 0)) 0
  if o < 0x4800 then BitVec.ofNat 64 (ent srcListed (o / 2))
  else if 0x7000 ≤ o ∧ o < 0xD400 then BitVec.ofNat 64 (ent snkListed ((o - 0x7000) / 2))
  else if 0xD400 ≤ o ∧ o < 0xD800 then (if o % 16 = 0 then 0xFFFFFFFF else 0x8000FF0000000FFF)
  else 0

/-- A bank write writes a locked entry (R327), or puts a reserved event number into an unlocked source entry (R484). -/
def bankLocked (s : State) (o : Nat) (v : BitVec 64) : Bool :=
  (List.range 4).any fun i =>
    let e := fld v (16 * i) 16
    if o < 0x4800 then s.locks.hatSrc.contains (o / 2 + i) || (decide (0x8000 ≤ e) && s.locks.events.contains (e % 4096))
    else if o < 0xD400 then s.locks.hatSink.contains ((o - 0x7000) / 2 + i)
    else s.locks.hatExp.contains ((o - 0xD400) / 16)

/-- An import window that covers a reserved event number (R484). -/
def impLocked (s : State) (v : BitVec 64) : Bool :=
  bit v 63 && s.locks.events.any fun e => decide (fld v 0 12 ≤ e ∧ e ≤ fld v 16 12)

/-- A write to the hatband block (R324, R325, R327). -/
def hatWrite (o : Nat) (v : BitVec 64) (by_ : Agent) (s : State) : Bool × State :=
  if o < 0x4000 then
    match o with
    | 0x00 =>
      let s := if bit v 1 then hatCopyStart s else s
      (true, if bit v 2 then hatArm s else s)
    | 0x08 => if rbit s (hatReg 0) 2 then (false, s) else (true, rset (hatReg 8) v s)
    | 0x10 =>
      let s := rw1c (hatReg 0x10) 0x1D v s
      (true, if v = 0 ∧ by_ = .steward then rput (hatReg 0x10) 16 48 0 s else s)
    | _ => if impLocked s v then (false, hatLockref s) else (true, rset (hatReg 0x18) (v &&& 0x800000000FFF0FFF) s)
  else
    let b := (o - 0x4000) / 0xE000
    let p := (o - 0x4000) % 0xE000
    let a := hatReg o
    let nv := v &&& bankMask p
    if by_ = .loader then (true, girdlePut a (natBytes 8 nv.toNat) s)
    else if b = hatLive s ∨ rbit s (hatReg 0) 1 then (false, s)
    else if bankLocked s p nv then (false, hatLockref s)
    else (true, girdlePut a (natBytes 8 nv.toNat) s)

def hatRead (s : State) (o : Nat) : BitVec 64 :=
  if o < 0x4000 then rget s (hatReg o) else BitVec.ofNat 64 (natAt s (hatReg o) 8)

/-! ### Fabric events (R329, R330) -/

/-- A TYPE 6 frame (R528 to R530); one from a package outside the fabric is dropped, logged and sets FREJ (R330). -/
def fabEvent (fr : FabFrame) (s : State) : Res :=
  let e := bytesNat fr.payload % 4096
  let s' := if fabMember s fr then s else fabImport false e fr.addr.toNat s
  fabReceive [6] fr (fun s => (fabAnswer s fr 4 0 [], true, fabImport true e fr.addr.toNat s)) s'
/-- FABRIC_EVENT_RECEIVE. -/
def execFabricEventReceive (fr : FabFrame) (s : State) : Res := fabEvent fr s

/-- The waiting event of number e with the earliest act time, the first to arrive among equals. -/
def nextFabricEvent (s : State) (e : Nat) : Option (Nat × Nat × Nat) :=
  (s.fabric.events.filter fun x => x.1 == e).foldl (fun best x =>
    match best with
    | none => some x
    | some b => if x.2.1 < b.2.1 then some x else some b) none

/-- FABRIC_EVENT_ACT: the tick count first reaches the act time, or the FCLK after a late arrival (R329, R330). -/
def execFabricEventAct (e : Fin 4096) (s : State) : Res :=
  match nextFabricEvent s e with
  | none => .refused .notEnabled
  | some x =>
    let s := setFabric { s.fabric with events := s.fabric.events.erase x } s
    .next (raiseEvent e (advanceTick x.2.1 (advanceTo (x.2.2 + 1) s)))

end Sys2Proof.Machine
end

