-- ==== Sys2Proof/Machine/Sessions.lean ====
section
/-! DEFINITION. The session engine, its contexts and route banks, and Gleby's handling of endpoints (R381 to R395). -/
namespace Sys2Proof.Machine

/-- Set a W1C bit of SES_STAT; a rise raises source 318 (R221). -/
def sesEvt (i : Nat) (s : State) : State :=
  if rbit s (sesReg 0x10) i then noteHit (sesReg 0x10) i true s else raiseGirdle 2 (rbitSet (sesReg 0x10) i true s)

def sesOn (s : State) : Bool := domState s 34 == 1

/-! ### Contexts (R384) -/

/-- A field of a context, and its write. -/
def ctxFld (s : State) (n o lo w : Nat) : Nat := natAt s (ctxAddr n o) 8 / 2 ^ lo % 2 ^ w
def ctxPut (n o lo w v : Nat) (s : State) : State :=
  girdlePut (ctxAddr n o) (natBytes 8 (setFld (BitVec.ofNat 64 (natAt s (ctxAddr n o) 8)) lo w v).toNat) s
def ctxState (s : State) (n : Nat) : Nat := ctxFld s n 0 61 3
def ringLog (s : State) (n : Nat) : Nat := ctxFld s n 8 60 4
def ringBase (s : State) (n : Nat) : Nat := ctxFld s n 8 7 41 * 128
def ringCap (s : State) (n : Nat) : KReg := ⟨BitVec.ofNat 128 (natAt s (ctxAddr n 0x30) 16), tagAt s (ctxAddr n 0x30)⟩

/-- Records written and not yet published. DESIGN CHOICE, log entry 40. -/
def inFlight (s : State) (n : Nat) : Nat := (s.ses.pubs.filter fun p => p.sess == n).length
/-- The address of the record that the next report of session n takes. -/
def recordAddr (s : State) (n : Nat) : Nat :=
  ringBase s n + (ctxFld s n 0x10 0 32 + inFlight s n) % 2 ^ ringLog s n * 128

/-- Memory that holds a ring: a store, or backed DRAM. DESIGN CHOICE, log entry 40. -/
def ringPlace (s : State) (a : Nat) : Bool :=
  match region a with
  | .dram => decide (a + 128 ≤ ddrTop s)
  | .fstore _ | .code _ | .crown _ => true
  | _ => false

/-- The check of RINGCAP against the 128 bytes of a record, and of LOG2 (R382, R384). -/
def ringOk (s : State) (n a : Nat) : Bool :=
  let k := ringCap s n
  decide (3 ≤ ringLog s n) && capLive s k && capOtype k.cap == 0 && capHas k.cap permW
    && (blockPerms true a (a + 128)).all (fun p => capHas k.cap p) && capCovers k.cap a 128 && ringPlace s a

def ringFull (s : State) (n : Nat) : Bool :=
  (ctxFld s n 0x10 0 32 + inFlight s n + 2 ^ 32 - ctxFld s n 0x18 0 32) % 2 ^ 32 == 2 ^ ringLog s n % 2 ^ 32

/-! ### The route table (R385 to R387) -/

def routeKey (pkg cell sub : Nat) : Nat := pkg * 2 ^ 22 + cell * 2 ^ 12 + sub
def routeH1 (k : Nat) : Nat := k * 0x9E3779B1 % 2 ^ 32 / 2 ^ 20
def routeH2 (k : Nat) : Nat := Nat.xor (routeH1 k) (k % 4095 + 1)
def bankAddr (b h w : Nat) : Nat := sesReg (0x40000 + b * 0x40000) + h * 64 + w * 8
def sesLive (s : State) : Nat := rfld s (sesReg 0) 0 1

def entryAt (s : State) (a : Nat) : BitVec 64 := BitVec.ofNat 64 (natAt s a 8)
def entryValid (e : BitVec 64) : Bool := bit e 63 && fld e 0 11 == 0
def entryKey (e : BitVec 64) : Nat := fld e 33 30
def routeEntry (k tpkg sess : Nat) : Nat := 2 ^ 63 + k * 2 ^ 33 + tpkg * 2 ^ 25 + sess * 2 ^ 11

/-- The places that a lookup reads, in order. -/
def bucketPlaces (b k : Nat) : List Nat :=
  (List.range 8).map (bankAddr b (routeH1 k)) ++ (List.range 8).map (bankAddr b (routeH2 k))
/-- The place of a key's entry in a bank (R386). -/
def findRoute (s : State) (b k : Nat) : Option Nat :=
  (bucketPlaces b k).find? fun a => entryValid (entryAt s a) && entryKey (entryAt s a) == k
/-- Package and session of a key in the live bank. -/
def lookup (s : State) (k : Nat) : Option (Nat × Nat) :=
  (findRoute s (sesLive s) k).map fun a => (fld (entryAt s a) 25 8, fld (entryAt s a) 11 14)

/-! ### Reports (R381 to R383, R387, R388) -/

/-- The 128 bytes of a record. -/
def recordBytes (r : Report) (seq eid arrive : Nat) : List Byte :=
  natBytes 8 (seq * 2 ^ 32 + b2n r.stamp.isSome * 2 ^ 31 + r.data.length * 2 ^ 23 + r.sub)
    ++ natBytes 8 (r.stamp.getD 0).toNat
    ++ natBytes 8 (r.sseq.toNat * 2 ^ 56 + r.pkg * 2 ^ 48 + r.cell * 2 ^ 38 + eid)
    ++ natBytes 8 arrive ++ padTo 64 r.data ++ List.replicate 32 0

/-- Context, checks and record write for session n (R381 items 2 and 3, R382). -/
def recordReport (r : Report) (n : Nat) (s : State) : State :=
  let seq := ctxFld s n 0x20 32 32
  let a := recordAddr s n
  let ok := ringOk s n a
  let full := ringFull s n
  let s := ctxPut n 0x20 32 32 (seq + 1) s
  if !ok || full then
    let s := ctxPut n 0x20 0 32 (ctxFld s n 0x20 0 32 + 1) (rsat (sesReg 0x10) 32 16 1 s)
    if ok then s else sesEvt 4 s
  else
    let s := setSes { s.ses with pubs := s.ses.pubs ++ [⟨n, r.stamp.getD 0, a⟩] } s
    writeMem .steward a (recordBytes r seq (ctxFld s n 0 30 18) s.tb.tick) s

/-- A report for session 0 because of a miss or a state that is not OPEN. -/
def unrouted (r : Report) (s : State) : State := recordReport r 0 (rsat (sesReg 0x10) 48 16 1 s)

/-- The payload of a TYPE 7 frame (R528). -/
def reportPayload (r : Report) : List Byte :=
  natBytes 8 (r.pkg % 256 + r.cell * 2 ^ 8 + r.sub * 2 ^ 18 + r.sseq.toNat * 2 ^ 32 + r.data.length * 2 ^ 40) ++ padTo 64 r.data

/-- A report whose entry names another package (R387, R388). -/
def forwardReport (r : Report) (tpkg : Nat) (s : State) : State :=
  if s.fabric.joined && domState s 36 == 1 then sendFabric 7 0 tpkg (r.stamp.getD 0).toNat (reportPayload r) none s
  else rsat (sesReg 0x10) 24 8 1 s

/-- The engine starts a report. -/
def startReport (r : Report) (s : State) : State :=
  if r.sub = 0xFFF then recordReport r 0 s
  else match lookup s (routeKey r.pkg r.cell r.sub) with
    | none => unrouted r s
    | some (tpkg, n) =>
      if tpkg = localPkg s then (if ctxState s n = 1 then recordReport r n s else unrouted r s)
      else if r.fab then unrouted r s
      else forwardReport r tpkg s

/-- The report that arrived first. -/
def firstReport (s : State) : Option Report :=
  s.ses.queue.foldl (fun (b : Option Report) r => match b with
    | some x => if r.at_ < x.at_ then some r else some x
    | none => some r) none

/-- REPORT_START: in arrival order, at most one every 32 GCLK (R381). -/
def execReportStart (s : State) : Res :=
  match firstReport s with
  | none => .refused .notEnabled
  | some r =>
    gateAt (rbit s (sesReg 0) 3 && sesOn s) (max r.at_ (s.ses.last + 64)) s fun s =>
      startReport r (setSes { s.ses with queue := s.ses.queue.erase r, last := s.fclk } s)

/-- A record write that no target has answered yet. -/
def recordWaits (s : State) (a : Nat) : Bool :=
  s.heldWrites.any (fun w => w.who == .steward && decide (w.addr = a))
    || (match crownAt a with | some c => domGone s c | none => false)

/-- REPORT_PUBLISH: PROD advances and the event is raised in the same FCLK (R381 item 4). -/
def execReportPublish (n : Fin 16384) (s : State) : Res :=
  match s.ses.pubs.find? fun p => p.sess == n.val with
  | none => .refused .notEnabled
  | some p =>
    gate (!recordWaits s p.addr)
      (let s := setSes { s.ses with pubs := s.ses.pubs.erase p } s
       let s := ctxPut n 0x10 0 32 (ctxFld s n 0x10 0 32 + 1) (ctxPut n 0x28 0 64 p.stamp.toNat s)
       if ctxFld s n 0 60 1 = 1 then raiseEvent (ctxFld s n 0 48 12) s else s)

/-- The report of a TYPE 7 frame. The frame has no stamp-valid bit: a stamp of 0 stands for none. -/
def frameReport (f : FabFrame) (s : State) : Report :=
  let w := bytesNat (f.payload.take 8)
  { pkg := w % 256, cell := w / 2 ^ 8 % 1024, sub := w / 2 ^ 18 % 4096, sseq := BitVec.ofNat 8 (w / 2 ^ 32),
    stamp := if f.addr = 0 then none else some f.addr, data := (f.payload.drop 8).take (min 64 (w / 2 ^ 40 % 128)),
    at_ := s.fclk, fab := true, blk := 0 }

/-- A TYPE 7 frame takes one of the 32 fabric places, or refusal CODE 7, which is not remembered (R388, R529). -/
def fabReport (fr : FabFrame) (s : State) : Res :=
  fabReceive [7] fr (fun s =>
    if (s.ses.queue.filter fun r => r.fab).length < 32 ∧ sesOn s then
      (fabAnswer s fr 4 0 [], true, (setSes { s.ses with queue := s.ses.queue ++ [frameReport fr s] } s))
    else (fabAnswer s fr 5 7 [], false, s)) s
/-- FABRIC_REPORT_RECEIVE. -/
def execFabricReportReceive (fr : FabFrame) (s : State) : Res := fabReport fr s

/-! ### Banks (R389) -/

def sesCopyStart (s : State) : State := if rbit s (sesReg 0) 1 then sesEvt 2 s else w1sWrite (sesReg 0) 2 s
/-- SES_COPY. -/
def execSesCopy (s : State) : Res := gate (sesOn s) (sesCopyStart s)

/-- The shadow bank takes the content of the live bank. Locked entries are the same in both. -/
def syncShadow (s : State) : State :=
  setMem (copyBytes (bankAddr (sesLive s) 0 0) (bankAddr (1 - sesLive s) 0 0) 0x40000 s.mem) s
/-- SES_COPY_DONE. -/
def execSesCopyDone (s : State) : Res := gate (rbit s (sesReg 0) 2) (w1sClear (sesReg 0) 2 (syncShadow s))

def sesArm (s : State) : State :=
  if (rget s (sesReg 8)).toNat < s.tb.tick + 4096 ∨ rbit s (sesReg 0) 1 ∨ rbit s (sesReg 0) 2 then sesEvt 2 s
  else rbitSet (sesReg 0) 1 true s
/-- SES_SWAPARM. -/
def execSesSwaparm (s : State) : Res := gate (sesOn s) (sesArm s)

/-- An entry of a locked cell. -/
def entryLocked (s : State) (e : BitVec 64) : Bool := bit e 63 && s.locks.cells.contains (fld e 45 10)

/-- A write to a route bank. -/
def bankWrite (a : Nat) (v : BitVec 64) (s : State) : Bool × State :=
  let b := if a < sesReg 0x80000 then 0 else 1
  if b = sesLive s ∨ rbit s (sesReg 0) 2 then (false, sesEvt 1 s)
  else if v ≠ entryAt s a ∧ (entryLocked s v || entryLocked s (entryAt s a)) then (false, sesEvt 3 s)
  else (true, girdlePut a (natBytes 8 v.toNat) s)

/-! ### Commands to a thread (R390) -/

def pushRefused (s : State) (v : BitVec 64) : Bool :=
  let n := fld v 61 3
  let p := fld v 48 10
  n == 0 || n == 7 || !cellOn s p || decide (64 < (thread s p).cmds.length + n)

/-- Push bytes into the command queue of the thread that serves a cell. -/
def pushBytes (p : Nat) (bs : List Byte) (s : State) : State :=
  latchEvent p 5 (setThread p { thread s p with cmds := (thread s p).cmds ++ bs } s)

def sesPush (v : BitVec 64) (s : State) : Bool × State :=
  let p := fld v 48 10
  if s.locks.cells.contains p then (false, sesEvt 3 s)
  else if pushRefused s v then (false, sesEvt 5 s)
  else (true, pushBytes p (natBytes (fld v 61 3) (fld v 0 48)) s)

/-- SES_CMD_PUSH: by the steward, or through a capability with W and PORT, which the access has checked. -/
def execSesCmdPush (v : BitVec 64) (by_ : Agent) (s : State) : Res :=
  gate (sesOn s && by_ != .loader) (sesPush v s).2

/-! ### Context writes (R384) -/

/-- The listed bits of byte `o` of a context; the others read 0. -/
def ctxListed (o : Nat) : Byte :=
  if o = 8 then 0x80 else if o = 0xE then 0 else if o = 0xF then 0xF0
  else if (0x14 ≤ o ∧ o < 0x18) ∨ (0x1C ≤ o ∧ o < 0x20) ∨ (0x50 ≤ o ∧ o < 0x80) then 0
  else 0xFF
/-- A write of bytes to a context: whether it is accepted, and the state. -/
def ctxWrite (n off : Nat) (bs : List Byte) (by_ : Agent) (s : State) : Bool × State :=
  let hi := off + bs.length
  let at_ (o : Nat) (bs : List Byte) (s : State) : State :=
    let s := girdlePut (ctxAddr n o) ((bs.zip (List.range bs.length)).map fun p => p.1 &&& ctxListed (o + p.2)) s
    setTags (s.tags.filter fun w => !(decide (ctxAddr n o < w + 16) && decide (w < ctxAddr n o + bs.length))) s
  if by_ = .steward then (true, at_ off bs s)
  else if 0x80 ≤ off ∧ hi ≤ 0x100 then (true, at_ off bs s)
  else if 0x18 ≤ off ∧ hi ≤ 0x20 ∧ off < 0x1C then (true, at_ off (bs.take (0x1C - off)) s)
  else (false, sesEvt 1 s)

/-- CONTEXT_WRITE; one that runs past the context's 256 bytes is refused as a write outside its writable fields. DEDUCED, log entry 8. -/
def execContextWrite (n : Fin 16384) (off : Nat) (bytes : List (BitVec 8)) (by_ : Agent) (s : State) : Res :=
  gate (sesOn s) (if 256 < off + bytes.length then sesEvt 1 s else (ctxWrite n off bytes by_ s).2)

/-- SES_CTL written: SESEN, and the actions COPY and SWAPARM. -/
def sesCtlWrite (v : BitVec 64) (s : State) : State :=
  let s := rbitSet (sesReg 0) 3 (bit v 3) s
  let s := if bit v 2 then sesCopyStart s else s
  if bit v 1 then sesArm s else s
/-- SES_EVT written: events cleared, and all but the events by the steward's 0. -/
def sesEvtWrite (v : BitVec 64) (by_ : Agent) (s : State) : State :=
  let s := rw1c (sesReg 0x10) 0x3F v s
  if v = 0 ∧ by_ = .steward then rput (sesReg 0x10) 24 40 0 s else s
/-- A write to the session control block and the route banks. -/
def sesWrite (o : Nat) (v : BitVec 64) (by_ : Agent) (s : State) : Bool × State :=
  match o with
  | 0x00 => (true, sesCtlWrite v s)
  | 0x08 => if rbit s (sesReg 0) 1 then (false, sesEvt 1 s) else (true, rset (sesReg 8) v s)
  | 0x10 => (true, sesEvtWrite v by_ s)
  | 0x18 => sesPush v s
  | 0x20 => (true, s)
  | _ => if 0x40000 ≤ o then bankWrite (sesReg o) v s else (true, s)

def sesRead (s : State) (o : Nat) : BitVec 64 :=
  if 0x40000 ≤ o then entryAt s (sesReg o)
  else if o = 0x10 then setFld (rget s (sesReg 0x10)) 14 9 s.ses.queue.length
  else if o = 0x18 then 0
  else rget s (sesReg o)

/-! ### Endpoints (R391 to R393) -/

/-- Gleby arms a swap 6,000 ticks ahead, unless one is armed already (R391 step 4). -/
def armSoon (s : State) : State :=
  if rbit s (sesReg 0) 1 then s else rbitSet (sesReg 0) 1 true (rset (sesReg 8) (BitVec.ofNat 64 (s.tb.tick + 6000)) s)
/-- Before Gleby changes routes, the shadow bank holds what the live bank holds, unless a swap that carries changes is armed. -/
def prepShadow (s : State) : State := if rbit s (sesReg 0) 1 then s else syncShadow s

/-- The other bucket of a key. -/
def otherBucket (k h : Nat) : Nat := if h = routeH1 k then routeH2 k else routeH1 k

/-- The first place of a bucket without a valid entry. -/
def freeWay (s : State) (b h : Nat) : Option Nat :=
  ((List.range 8).map (bankAddr b h)).find? fun a => !entryValid (entryAt s a)

/-- An unlocked entry of the bucket that can move to its other bucket: its place and the place it moves to. -/
def movableEntry (s : State) (b h : Nat) : Option (Nat × Nat) :=
  (((List.range 8).map (bankAddr b h)).filterMap fun a =>
    (if entryLocked s (entryAt s a) then none else freeWay s b (otherBucket (entryKey (entryAt s a)) h)).map fun t => (a, t)).head?

/-- Gleby puts an entry into bank b (R386): where the key already is, a free way, or after moving one entry of h1. -/
def insertRoute (b k : Nat) (e : Nat) (s : State) : Option State :=
  match (findRoute s b k).orElse fun _ => (freeWay s b (routeH1 k)).orElse fun _ => freeWay s b (routeH2 k) with
  | some a => some (girdlePut a (natBytes 8 e) s)
  | none =>
    (movableEntry s b (routeH1 k)).map fun p => girdlePut p.1 (natBytes 8 e) (girdlePut p.2 (natBytes 8 (entryAt s p.1).toNat) s)

def removeRoute (b k : Nat) (s : State) : State :=
  match findRoute s b k with
  | some a => girdlePut a (natBytes 8 0) s
  | none => s

/-- The endpoint signature (R391 step 1). -/
def endpointSig (pkg cell proto : Nat) (ident : List Byte) : Nat :=
  bytesNat (shaBytes (natBytes 1 pkg ++ natBytes 2 cell ++ natBytes 1 proto ++ ident) 8)

/-- The registrar takes the 64 lowest free identities of its table, and mirrors them to the deputy before they are granted (R393). -/
def allocate (s : State) : List Nat × State :=
  let ids := (((List.range (s.ses.alloc.length + 64)).filter fun i => !s.ses.alloc.contains i).filter fun i => decide (i < 262144)).take 64
  (ids, tellMember (members s)[1]? (.mirror ids) (setSes { s.ses with alloc := ids.foldl sadd s.ses.alloc } s))
/-- Identities join the local pool. -/
def addPool (ids : List Nat) (s : State) : State := setSes { s.ses with pool := ids.foldl sadd s.ses.pool, asked := false } s
/-- A pool below 32 takes 64 more: the registrar from its own table, any other package by asking it, once (R393). -/
def fillPool (s : State) : State :=
  if 32 ≤ s.ses.pool.length then s
  else if isRegistrar s then (let q := allocate s; addPool q.1 q.2)
  else if s.ses.asked then s
  else tellMember (members s).head? .ask (setSes { s.ses with asked := true } s)
/-- An identity returns to the registrar, which tells the deputy (R393). -/
def returnIdentity (e : Nat) (s : State) : State :=
  let s' := setSes { s.ses with alloc := sdel s.ses.alloc e } s
  if isRegistrar s then tellMember (members s)[1]? (.giveBack e) s' else s'
/-- What Gleby does on a control frame of member p (R393, R509): grants and mirrors count from the registrar alone. -/
def controlAct (p : Nat) (c : Control) (s : State) : State :=
  let master := (members s).head? == some p
  match c with
  | .beat | .join => s
  | .ask => if isRegistrar s then (let q := allocate s; sendControl p (.grant q.1) q.2) else s
  | .grant ids => if master then addPool (ids.filter (· < 262144)) s else s
  | .mirror ids => if master then setSes { s.ses with alloc := (ids.filter (· < 262144)).foldl sadd s.ses.alloc } s else s
  | .giveBack e => returnIdentity e s
  | .record bs => keepRecord bs s
  | .fetch rom dig => match findCons s rom dig with
    | some l => sendControl p (.record (bytesAt s (ledgerAddr l 0) 64)) s
    | none => s

/-- The lowest identity of the pool, now known for the signature. -/
def poolIdentity (sig : Nat) (s : State) : Option (Nat × State) :=
  match s.ses.pool with
  | [] => none
  | e :: rest => some (e, (setSes { s.ses with pool := rest, known := s.ses.known ++ [(sig, e)] } s))
/-- The identity of a signature: the one bound to it before (R392), or the lowest of the pool (R393). -/
def takeIdentity (sig : Nat) (s : State) : Option (Nat × State) :=
  match s.ses.known.find? fun p => p.1 == sig with
  | some p => some (p.2, (setSes { s.ses with freed := s.ses.freed.filter fun f => f.1 != p.2 } s))
  | none => (poolIdentity sig s).map fun q => (q.1, fillPool q.2)

/-- The DETACHED session of a signature. -/
def detachedOf (s : State) (sig : Nat) : Option Nat :=
  (s.ses.detached.find? fun p => ctxFld s p.1 0x40 0 64 == sig).map (·.1)
/-- The lowest FREE session. -/
def freeSession (s : State) : Option Nat := ((List.range 16383).map (· + 1)).find? fun n => ctxState s n == 0

/-- Gleby writes an OPEN context (R391 step 3). A reopened session keeps its ring and event. -/
def openContext (n cell sub eid sig : Nat) (fresh : Bool) (s : State) : State :=
  let s := if fresh then { girdlePut (ctxAddr n 0) (List.replicate 256 0) s with tags := sdel s.tags (ctxAddr n 0x30) } else s
  let s := ctxPut n 0 61 3 1 (ctxPut n 0 0 48 (eid * 2 ^ 30 + localPkg s * 2 ^ 22 + cell * 2 ^ 12 + sub) s)
  ctxPut n 0x48 0 64 s.tb.tick (ctxPut n 0x40 0 64 sig s)

/-- The session opens with its identity, and its route goes into the shadow bank. -/
def openSession (n p sub sig : Nat) (fresh : Bool) (q : Nat × State) : Option State :=
  let s := setSes { q.2.ses with detached := q.2.ses.detached.filter fun d => d.1 != n } q.2
  let s := prepShadow (openContext n p sub q.1 sig fresh s)
  let k := routeKey (localPkg s) p sub
  (insertRoute (1 - sesLive s) k (routeEntry k (localPkg s) n) s).map fun t =>
    armSoon (setSes { t.ses with opening := t.ses.opening ++ [n] } t)

/-- An attach report (R391, R392). Where no session, identity or route place is left, Gleby changes nothing. DESIGN CHOICE, log entry 41. -/
def attach (p sub proto : Nat) (ident : List Byte) (s : State) : Option State :=
  let sig := endpointSig (localPkg s) p proto ident
  let old := detachedOf s sig
  match old.orElse fun _ => freeSession s with
  | none => none
  | some n => (takeIdentity sig s).bind (openSession n p sub sig old.isNone)

/-- ENDPOINT_ATTACH. Of an identity-bus device, the identity data is the ROM code; what its authentication reads follows (R505). -/
def execEndpointAttach (p : Fin 1024) (sub : BitVec 12) (proto : BitVec 8) (ident : List (BitVec 8)) (s : State) : Res :=
  if !sesOn s || rbit s (sesReg 0) 2 then .refused .notEnabled
  else if s.locks.cells.contains p.val then .next (sesEvt 3 s)
  else
    let s := fillPool (if proto.toNat = 7 then chipAttach p (sub.toNat % 8) ident s else s)
    .next ((attach p sub.toNat proto.toNat (if proto.toNat = 7 then ident.take 8 else ident) s).getD s)

/-- Gleby closes a session (R391): CLOSING, the entry cleared in the shadow bank, a swap. DESIGN CHOICE, log entry 41. -/
def detach (n : Nat) (s : State) : State :=
  let k := routeKey (ctxFld s n 0 22 8) (ctxFld s n 0 12 10) (ctxFld s n 0 0 12)
  let s := prepShadow (ctxPut n 0 61 3 2 s)
  let s := armSoon (removeRoute (1 - sesLive s) k s)
  let p := ctxFld s n 0 12 10
  let s := if (s.gly.binds.any fun b => b.1 == p && b.2.proto == 7) then chipDetach p (ctxFld s n 0 0 12 % 8) s else s
  setSes { s.ses with closing := s.ses.closing ++ [n] } s

/-- ENDPOINT_DETACH. -/
def execEndpointDetach (n : Fin 16384) (s : State) : Res :=
  gate (sesOn s && ctxState s n == 1 && n.val != 0 && !rbit s (sesReg 0) 2) (detach n s)

/-- What Gleby does once a swap has taken effect (R391): open commands, DETACHED. -/
def afterSwap (s : State) : State :=
  let op := s.ses.opening
  let cl := s.ses.closing
  let s := setSes { s.ses with opening := [], closing := [] } s
  let s := op.foldl (fun s n =>
    let p := ctxFld s n 0 12 10
    let bs := Config.openCommand p (ctxFld s n 0 0 12)
    if cellOn s p && decide ((thread s p).cmds.length + bs.length ≤ 64) then pushBytes p bs s else sesEvt 5 s) s
  cl.foldl (fun s n =>
    setSes { s.ses with detached := s.ses.detached ++ [(n, s.fclk)] } (ctxPut n 0 61 3 3 s)) s

/-- ROUTE_SWAP: in the FCLK whose tick first reaches SES_SWAPAT (R389). -/
def execRouteSwap (s : State) : Res :=
  if !(rbit s (sesReg 0) 1 && sesOn s) then .refused .notEnabled
  else
    let s := advanceTick (rget s (sesReg 8)).toNat s
    .next (afterSwap (sesEvt 0 (rbitSet (sesReg 0) 1 false (rput (sesReg 0) 0 1 (1 - sesLive s) s))))

/-- SESSION_HOLD_EXPIRY: back to FREE (R391); the identity is held until it returns to the registrar (R393). -/
def execSessionHoldExpiry (n : Fin 16384) (s : State) : Res :=
  match s.ses.detached.find? fun p => p.1 == n.val with
  | none => .refused .notEnabled
  | some d =>
    gateAt (sesOn s) (d.2 + s.ses.hold * 1000 * msFclk) s fun s =>
      let e := ctxFld s n 0 30 18
      setSes { s.ses with detached := s.ses.detached.erase d, freed := s.ses.freed ++ [(e, s.fclk)] } (ctxPut n 0 61 3 0 s)

/-- FREED_IDENTITY_RETURN: 60 s after the session left DETACHED (R393). -/
def execFreedIdentityReturn (eid : BitVec 18) (s : State) : Res :=
  match s.ses.freed.find? fun p => p.1 == eid.toNat with
  | none => .refused .notEnabled
  | some f =>
    gateAt true (f.2 + 60000 * msFclk) s fun s =>
      let s := setSes { s.ses with freed := s.ses.freed.erase f, known := s.ses.known.filter fun k => k.2 != f.1 } s
      if isRegistrar s then returnIdentity f.1 s else tellMember (members s).head? (.giveBack f.1) s

/-! ### Loss of a package (R394) -/

/-- Rewrite the shadow bank's entries that name package `pkg`, by their standby. -/
def failover (pkg : Nat) (s : State) : State :=
  let s := prepShadow s
  let b := 1 - sesLive s
  let s := s.ses.standby.foldl (fun s p =>
    match findRoute s b p.1 with
    | some a => if fld (entryAt s a) 25 8 = pkg ∧ !entryLocked s (entryAt s a)
        then girdlePut a (natBytes 8 (routeEntry p.1 (p.2 / 16384) (p.2 % 16384))) s else s
    | none => s) s
  armSoon s

end Sys2Proof.Machine
end

