-- ==== Sys2Proof/Machine/Ledger.lean ====
section
/-! DEFINITION. The ledger window, its commits and its power-fail flush (R491 to R503, R557). -/
namespace Sys2Proof.Machine

/-- A sealed configuration is active (R478). -/
def sealActive (s : State) : Bool := inPartition s 0

/-- A calibration line, granted to METR capabilities by the active configuration (R477, R493). -/
def isCalLine (line : Nat) : Bool := decide (regionLine 4 ≤ line) && decide (line < regionLine 4 + 1024)
def calGranted (s : State) (line : Nat) : Bool :=
  isCalLine line && sealActive s && match s.metro.conf with
    | some c => c.cal.any fun r => decide (regionLine 4 + r.1 ≤ line) && decide (line < regionLine 4 + r.1 + r.2)
    | none => false

/-- The legal trail takes no record of an ordinary kind any more (R488). -/
def legalFull (s : State) : Bool := decide (8128 ≤ s.ledger.legal)

/-- A write finds a place: its line is pending already, or fewer than 256 lines are (R498). -/
def ledgerRoom (s : State) (line : Nat) : Bool :=
  s.ledger.pend.any (fun p => p.line == line && !p.busy) || decide (s.ledger.pend.length < 256)

/-- An 8-byte write to the ledger window (R493, R498, R500): accepted or refused. A calibration write makes a legal record and
advances CALWR (R483). -/
def ledgerWrite (line off : Nat) (v : BitVec 64) (by_ : Agent) (s : State) : Bool × State :=
  if s.ledger.flush then (false, s)
  else if by_ = .steward then (true, ledgerPut line (8 * off) (natBytes 8 v.toNat) s)
  else if !calGranted s line || legalFull s then (false, s)
  else
    let s := ledgerPut line (8 * off) (natBytes 8 v.toNat) s
    let s := rsat (bezReg 0x100) 0 16 1 s
    (true, audit true 6 4 (natBytes 4 (64 * line) ++ shaBytes (bytesAt s (ledgerAddr line 0) 64) 16) s)

/-- LEDGER_WRITE: held while 256 other lines are pending (R498). -/
def execLedgerWrite (line : Fin 262144) (off : Fin 8) (v : BitVec 64) (by_ : Agent) (s : State) : Res :=
  gate (ledgerRoom s line) (ledgerWrite line off v by_ s).2

/-- What a read finds when one or both copies are invalid (R496). -/
def ledgerDamage (line bad : Nat) (s : State) : State :=
  match bad with
  | 0 => s
  | 1 =>
    let s := ledgerFlag 2 (rsat (ldgReg 8) 32 32 1 s)
    if ledgerPending s line then s else ledgerPut line 0 (bytesAt s (ledgerAddr line 0) 64) s
  | _ =>
    let s := ledgerFlag 1 (rput (ldgReg 8) 0 18 line s)
    let s := logEvents 16 [⟨4, 6, 0, 0, 0, ledgerAddr line 0, true, false⟩] s
    if ledgerPending s line then s else poke (ledgerAddr line 0) (List.replicate 64 0) s

/-- LEDGER_READ: `bad` copies of the line are found invalid. The line goes to the reader (R496, R501). -/
def execLedgerRead (line : Fin 262144) (by_ : Agent) (bad : Fin 3) (s : State) : Res :=
  if by_ = .steward ∨ calGranted s line then
    let s := ledgerDamage line bad s
    .next (emit (.value (natAt s (ledgerAddr line 0) 64)) s)
  else .next s

/-- The line may start its commit before every other waiting line (R499, R500). -/
def commitFirst (s : State) (p : PendLine) : Bool :=
  if s.ledger.flush then (s.ledger.pend.find? fun q => !q.busy) == some p
  else s.ledger.pend.all fun q => q.busy || q.line == p.line ||
    decide (p.due / 48 < q.due / 48) || (decide (p.due / 48 = q.due / 48) && decide (p.line < q.line))

def setPend (l : List PendLine) (s : State) : State := setPendCount { s with ledger := { s.ledger with pend := l } }

/-- The trail or ring that a line belongs to: its first line, its lines, the offset and the bytes of CHAIN (R488, R494). -/
def trailOf (line : Nat) : Option (Nat × Nat × Nat × Nat) :=
  [(regionLine 1, 8192, 0x28, 24), (regionLine 2, 8192, 0x28, 24), (regionLine 8, 180224, 0x30, 16)].find? fun r =>
    decide (r.1 ≤ line ∧ line < r.1 + r.2.1)
/-- A new record takes the tick count of its commit, and its CHAIN over it (R488, R494). The commit is its start. DEDUCED, log entry 51. -/
def stampRecord (p : PendLine) (s : State) : State :=
  match trailOf p.line with
  | none => s
  | some (first, ring, o, k) =>
    if bytesAt s (ledgerAddr p.line 0) 64 = p.base then s
    else
      let prev := if natAt s (ledgerAddr p.line 4) 4 = 0 then shaBytes Config.deviceKey k
        else bytesAt s (ledgerAddr (first + (p.line - first + ring - 1) % ring) o) k
      let s := poke (ledgerAddr p.line 8) (natBytes 8 s.tb.tick) s
      poke (ledgerAddr p.line o) (shaBytes (prev ++ bytesAt s (ledgerAddr p.line 0) o) k) s

/-- LINE_COMMIT (R497, R499). -/
def execLineCommit (line : Fin 262144) (s : State) : Res :=
  match s.ledger.pend.find? fun p => p.line == line.val && !p.busy with
  | none => .refused .notEnabled
  | some p =>
    gateAt (commitFirst s p && !(s.ledger.pend.any fun q => q.line == line.val && q.busy)) p.due s fun s =>
      stampRecord p (setPend (s.ledger.pend.map fun q => if q = p then { q with busy := true } else q)
        (setLedger { s.ledger with last := tset 0 s.ledger.last line (s.fclk + msFclk) } s))

/-- The commit of a line has finished (R496, R497). -/
def lineDone (p : PendLine) (s : State) : State :=
  let n := tget 0 s.ledger.seq p.line
  let s := if n = 0 then rput (ldgReg 0x10) 0 19 (rfld s (ldgReg 0x10) 0 19 + 1) s else s
  let s := setLedger { s.ledger with seq := tset 0 s.ledger.seq p.line (n + 1) } s
  setPend (s.ledger.pend.erase p) s

/-- POWER_FAIL_WARNING (R500, R557). -/
def execPowerFailWarning (s : State) : Res :=
  gate (!rbit s (girdle 0x120) 63)
    (let s := rbitSet (girdle 0x120) 63 true s
     let s := setPwr { s.pwr with pfwAt := s.fclk } s
     let now (p : PendLine) : PendLine := { p with due := s.fclk }
     ledgerFlag 3 (setLedger { s.ledger with flush := true, pend := s.ledger.pend.map now } s))

/-- POWER_FAIL_WARNING_END (R557). -/
def execPowerFailWarningEnd (s : State) : Res :=
  gateAt (rbit s (girdle 0x120) 63) (s.pwr.pfwAt + 10 * msFclk) s fun s =>
    let s := rbitSet (girdle 0x120) 63 false s
    rbitSet (ldgReg 0) 3 false (setLedger { s.ledger with flush := false } s)

/-- What a loss of ledger power leaves of a pending line: its last committed bytes; of a line whose commit runs, those or the new
ones (R496, R498). DESIGN CHOICE, log entry 51. -/
def losePend (p : PendLine) (s : State) : State :=
  if p.busy then
    let (v, s) := drawFree s
    if bit v 0 then (if s.metro.change.any fun c => c.1 == p.line then metroCommitted s else s)
    else poke (ledgerAddr p.line 0) p.base s
  else poke (ledgerAddr p.line 0) p.base s
def losePending (s : State) : State :=
  let s := s.ledger.pend.reverse.foldl (fun s p => losePend p s) s
  trimTrails (setPend [] (setMetro { s.metro with change := none, loading := [] } s))

/-- A steward write to the ledger control block (R503, R578). -/
def ldgWrite (o : Nat) (v : BitVec 64) (s : State) : State :=
  match o with
  | 0 =>
    let s := rw1c (ldgReg 0) 6 v s
    if v = 0 then rput (ldgReg 0) 32 32 0 s else s
  | 8 => if v = 0 then rput (ldgReg 8) 32 32 0 s else s
  | _ => s

end Sys2Proof.Machine
end

