-- ==== Sys2Proof/Machine/Feeds.lean ====
section
/-! DEFINITION. Power feeds (R353 to R356). -/
namespace Sys2Proof.Machine

def feed (s : State) (b f : Nat) : Feed := tget {} s.feeds (4 * b + f)
def setFeed (b f : Nat) (x : Feed) (s : State) : State := { s with feeds := tset {} s.feeds (4 * b + f) x }
def fctl (b f : Nat) : Nat := pfdReg b (0x20 + 0x20 * f)
def flim (b f : Nat) : Nat := pfdReg b (0x28 + 0x20 * f)
def fi2t (b f : Nat) : Nat := pfdReg b (0x30 + 0x20 * f)
def fmeas (b f : Nat) : Nat := pfdReg b (0x38 + 0x20 * f)
/-- Feed state: 0 off, 1 blanking, 2 on, 3 waiting to retry, 4 latched off. -/
def feedState (s : State) (b f : Nat) : Nat := rfld s (fmeas b f) 48 3
/-- The gate is on while the feed blanks or is on (R354, R355). -/
def gateLevel (st : Nat) : Bool := st == 1 || st == 2
/-- The level that a feed's gate takes. -/
def showGate (b f : Nat) (was on : Bool) (s : State) : State := if was = on then s else emit (.gate b f on) s
def setFeedState (b f v : Nat) (s : State) : State := showGate b f (gateLevel (feedState s b f)) (gateLevel v) (rput (fmeas b f) 48 3 v s)
def feedOn (s : State) (b : Nat) : Bool := domState s (20 + b / 32) == 1
def feedLocked (s : State) (b f : Nat) : Bool := s.locks.feeds.contains (4 * b + f)

/-- The accumulator in units of 10^-11 A²s, shown in 0.001 A²s. -/
def setAcc (b f v : Nat) (s : State) : State :=
  rput (fi2t b f) 32 32 (min (2 ^ 32 - 1) (v / 100000000)) (setFeed b f { feed s b f with acc := v } s)

/-- Full scale of a shunt in mA. -/
def fullScale (rsh : Nat) : Nat := match rsh with | 0 => 20000 | 1 => 10000 | 2 => 5000 | _ => 2000

/-- Whether a switch-on is refused (R354). -/
def feedRefused (s : State) (b f : Nat) : Bool :=
  let c := rget s (fctl b f)
  let l := rget s (flim b f)
  decide (fld l 0 16 = 0) || decide (fld l 16 16 ≤ fld l 0 16) || decide (fld l 32 16 ≤ fld l 16 16)
    || decide (fullScale (fld c 2 2) < fld l 32 16) || decide (rfld s (fi2t b f) 0 32 = 0)
    || (decide (fld c 4 4 ≠ 0) && decide (fld c 8 8 = 0))

/-- Gate on, into blanking (R354, R355). -/
def feedBlank (b f : Nat) (s : State) : State :=
  let s := setAcc b f 0 s
  setFeedState b f 1 (setFeed b f { feed s b f with till := s.fclk + rfld s (fctl b f) 16 16 * msFclk } s)

/-- A write to PFD_FCTL (R353, R354); one that is refused leaves a feed that is on as it was. -/
def fctlWrite (b f : Nat) (v : BitVec 64) (by_ : Agent) (s : State) : Bool × State :=
  if feedLocked s b f && by_ != .loader then (false, s)
  else
    let st := feedState s b f
    let old := s
    let was := rbit s (fctl b f) 0
    let s := rset (fctl b f) (setBit (v &&& 0xFFFFFFFE) 0 (was && bit v 0)) s
    if bit v 0 then
      if st = 0 ∨ st = 4 then
        (true, if feedRefused s b f then rbitSet (pfdReg b 0) 24 true (rbitSet (fctl b f) 0 false s)
          else feedBlank b f (setFeed b f { feed s b f with retries := fld v 4 4 } (rbitSet (fctl b f) 0 true s)))
      else (true, if feedRefused s b f then rbitSet (pfdReg b 0) 24 true old else rbitSet (fctl b f) 0 true s)
    else (true, setFeedState b f 0 s)

/-- A trip with its cause (R355). -/
def feedTrip (b f cause : Nat) (s : State) : State :=
  let s := rput (pfdReg b 0) (4 * f) 4 cause (rbitSet (pfdReg b 0) (16 + f) true s)
  let s := raiseSteward (64 + b) (raiseHat (0x2040 + b) s)
  let x := feed s b f
  if 0 < x.retries then setFeedState b f 3 (setFeed b f { x with till := s.fclk + rfld s (fctl b f) 8 8 * 100 * msFclk } s)
  else setFeedState b f 4 s

def nominal (s : State) (b f : Nat) : Nat := if rbit s (fctl b f) 1 then 24000 else 12000

/-- The sample rules of state 2 (R355); `x` is the feed as the previous sample left it. -/
def feedRules (b f i vout : Nat) (x : Feed) (s : State) : State :=
  let inom := rfld s (flim b f) 0 16
  let ifast := rfld s (flim b f) 16 16
  let acc := (((feed s b f).acc : Int) + (i * i : Nat) - (inom * inom : Nat)).toNat
  let high := decide (ifast ≤ i)
  let low := if 10 * vout < 8 * nominal s b f then x.low + 1 else 0
  let s := setAcc b f acc s
  if high && x.fast then feedTrip b f 2 s
  else if rfld s (fi2t b f) 0 32 * 100000000 ≤ acc then feedTrip b f 3 s
  else if 100 ≤ low then feedTrip b f 4 s
  else s

/-- FEED_SAMPLE: current in mA and voltage in mV (R355). DESIGN CHOICE, log entry 37. -/
def feedSample (b f i vout : Nat) (s : State) : State :=
  let good := decide (9 * nominal s b f ≤ 10 * vout ∧ 10 * vout ≤ 11 * nominal s b f)
  let rise := good && !rbit s (pfdReg b 0) (20 + f)
  let s := rput (fmeas b f) 32 16 vout (rput (fmeas b f) 16 16 (max i (rfld s (fmeas b f) 16 16)) (rput (fmeas b f) 0 16 i s))
  let s := rbitSet (pfdReg b 0) (20 + f) good s
  let s := if rise then raiseHat (0x2040 + b) s else s
  let s := if feedState s b f = 1 ∧ (feed s b f).till ≤ s.fclk then
      let s := setFeedState b f 2 s
      if 10 * vout < 9 * nominal s b f then feedTrip b f 4 s else s
    else s
  let x := feed s b f
  let s := setFeed b f { x with fast := decide (rfld s (flim b f) 16 16 ≤ i), low := if 10 * vout < 8 * nominal s b f then x.low + 1 else 0 } s
  if feedState s b f = 2 then feedRules b f i vout x s else s

def execFeedSwitchOn (b : Fin 64) (f : Fin 4) (v : BitVec 64) (s : State) : Res :=
  gate (feedOn s b) (fctlWrite b f (v ||| 1) .steward s).2
def execFeedSwitchOff (b : Fin 64) (f : Fin 4) (v : BitVec 64) (s : State) : Res :=
  gate (feedOn s b) (fctlWrite b f (v &&& ~~~1) .steward s).2
def execFeedSample (b : Fin 64) (f : Fin 4) (i : BitVec 16) (vout : BitVec 16) (s : State) : Res :=
  gateAt (feedOn s b) (nextMultiple sampleFclk s.fclk) s (feedSample b f i.toNat vout.toNat)

/-- HARD_LIMIT_TRIP: i ≥ ihard for 1 µs in states 1 and 2 (R355). -/
def execHardLimitTrip (b : Fin 64) (f : Fin 4) (s : State) : Res :=
  gate (feedOn s b && (feedState s b f == 1 || feedState s b f == 2)) (feedTrip b f 1 s)

/-- FEED_RETRY: RDLY × 100 ms after the trip (R355). -/
def execFeedRetry (b : Fin 64) (f : Fin 4) (s : State) : Res :=
  gateAt (feedOn s b && feedState s b f == 3) (feed s b f).till s fun s =>
    feedBlank b f (setFeed b f { feed s b f with retries := (feed s b f).retries - 1 } s)

/-- PFD_FMEAS_READ: IPEAK starts again (R353). -/
def fmeasRead (b f : Nat) (s : State) : State := rput (fmeas b f) 16 16 0 s
def execPfdFmeasRead (b : Fin 64) (f : Fin 4) (s : State) : Res :=
  gate (feedOn s b) (fmeasRead b f (emit (.value (rget s (fmeas b f)).toNat) s))

/-- A write to a power-feed controller register (R353). -/
def pfdWrite (b o : Nat) (v : BitVec 64) (by_ : Agent) (s : State) : Bool × State :=
  if o = 0 then (true, rw1c (pfdReg b 0) 0x10F0000 v s)
  else
    let f := (o - 0x20) / 0x20
    if feedLocked s b f && by_ != .loader then (false, s)
    else match (o - 0x20) % 0x20 with
      | 0x00 => fctlWrite b f v by_ s
      | 0x08 => (true, rset (flim b f) (v &&& 0xFFFFFFFFFFFF) s)
      | 0x10 => (true, rput (fi2t b f) 0 32 (fld v 0 32) s)
      | _ => (true, s)

def pfdRead (s : State) (b o : Nat) : BitVec 64 :=
  let v := rget s (pfdReg b o)
  if 0x20 ≤ o ∧ (o - 0x20) % 0x20 = 0 then setBit v 32 (feedLocked s b ((o - 0x20) / 0x20)) else v

/-- The controllers of a spine return to reset values, gates off (R356). -/
def resetFeeds (b : Nat) (s : State) : State :=
  let s := (List.range 4).foldl (fun s f => setFeedState b f 0 s) s
  setFeeds (tclear s.feeds (4 * b) (4 * b + 4)) (rclear (pfdReg b 0) (pfdReg b 0x100) s)

end Sys2Proof.Machine
end

