-- ==== Sys2Proof/Machine/Resets.lean ====
section
/-! DEFINITION. Crown reset (R267, R300), package reset (R549 to R552), and what a failed reconstruction resets (R266). -/
namespace Sys2Proof.Machine

/-- The responses of a channel's outstanding writes are discarded; the writes land as their targets take them (R300). -/
def forgetWrites (k : Nat) (s : State) : State :=
  let own (w : HeldWrite) : HeldWrite := if w.who = .mover (Fin.ofNat 288 k) then { w with who := .steward } else w
  let drop (o : FabOut) : FabOut := if o.chan.any (fun p => p.1 == k) then { o with chan := none } else o
  setHeldWrites (s.heldWrites.map own) (setFabric { s.fabric with out := s.fabric.out.map drop } s)

/-- A busy channel is aborted with an error (R299, R300). -/
def abortChannel (err k : Nat) (s : State) : State :=
  if chanState s k = 0 then s else endError k err (forgetWrites k s)

/-- Every reservation in a crown store ends (R248). -/
def dropCrownResv (c : Nat) (s : State) : State :=
  (s.facets.filter fun p => p.2.resv.any fun r => crownAt r.1 == some c).foldl
    (fun s p => setFacet p.1 { p.2 with resv := none } s) s

/-- A crown reset (R267): facets and controllers, channels, reservations; the facets' reports give reason 4. DEDUCED, log entry 62. -/
def crownReset (c cause : Nat) (s : State) : State :=
  let s := logReset cause 1 c s
  let s := (List.range 8).foldl (fun s i => facetReset (8 * c + i) 4 0 s) s
  let s := (List.range 16).foldl (fun s i => abortChannel 12 (16 * c + i) s) s
  dropCrownResv c (copyRestart c (setEngines (tdel s.engines c) s))

/-- Registers that a package reset keeps: the always-on part of the power block, unless the always-on domain is reset too, and
the ledger's (R549, R550). -/
def keptReg (aon : Bool) (a : Nat) : Bool :=
  (!aon && decide (girdle 0 ≤ a ∧ a < girdle 0x1000)) || (!aon && decide (girdle 0x2000 ≤ a ∧ a < girdle 0x3000))
    || decide (ldgReg 0 ≤ a ∧ a < ldgReg 0x10000)
/-- Bytes that a package reset keeps: the ledger's. DRAM keeps its contents, but every chunk is untouched afterwards, so that
every read returns zeros until a fill has written zeros (R240 to R242, R549): its bytes read 0. -/
def keptByte (a : Nat) : Bool := decide (ledgerAddr 0 0 ≤ a ∧ a < girdle 0x2000000)

/-- What a package reset keeps, every other field at its reset value; `aon`: the causes that also reset the always-on domain. DEDUCED, log entry 61. -/
def packageKept (aon : Bool) (s : State) : State :=
  { State.reset with
    pending := s.pending, fclk := s.fclk, free := s.free, out := s.out, ident := s.ident, ledger := s.ledger,
    mem := s.mem.filter (fun c => keptByte c.1),
    regs := s.regs.filter (fun p => keptReg aon p.1),
    tb := if aon then {} else { tick := s.tb.tick, frac := s.tb.frac, rate := s.tb.rate },
    metro := { s.metro with conf := none, resets := [], stopped := false },
    bez := { s.bez with nonce := none, scope := none },
    pwr := if aon then { pfwAt := s.pwr.pfwAt } else { sampled := s.pwr.sampled, pfwAt := s.pwr.pfwAt, railAt := s.pwr.railAt },
    ses := { known := s.ses.known, alloc := s.ses.alloc, pool := s.ses.pool, freed := s.ses.freed } }

/-- A package reset (R549 to R552). Causes 1 to 4 reset the always-on domain too; after any other, store time continues. What
comes of the ledger at boot (identities, seal) is restored there. DEDUCED, log entry 61. -/
def packageReset (cause : Nat) (s : State) : State :=
  let s := cancelMetro s
  let kept := rset (bezReg 0x100) (rget s (bezReg 0x100) &&& 0xFFFF000300000000) (packageKept (decide (cause ≤ 4)) s)
  logReset cause 2 0 (rbitSet (girdle 0x120) 63 s.ledger.flush kept)

/-- What a failed reconstruction of a page resets (R266): the facet, the crown, or the package, whose ledger record is made before the
reset. -/
def resetOwner (a : Nat) (s : State) : State :=
  match region a with
  | .fstore n | .code n => facetReset n 3 0 s
  | .crown c => crownReset c 0x20 s
  | _ =>
    let s := packageReset 0x0A (addRec5 (.reset 0x0A 0 s.tb.tick) s)
    rbitSet (girdle (0x200 + 16 * ((rfld s (girdle 0x100) 8 4 + 15) % 16))) 62 true s

/-- The source elements that a channel reads next, as its rem stands. -/
def nextElems (s : State) (k n : Nat) : List Nat :=
  (List.range n).map fun i => (side s k false).elem ((chan s k).rpos + i)

/-- Channels whose waiting burst reads an erased word end with DATA_LOST (R299). -/
def markDataLost (ws : List Nat) (s : State) : State :=
  s.chans.foldl (fun s p =>
    let n := burstSize s p.1 / 2 ^ (side s p.1 false).ew
    if (remoteSide s p.1 false).isNone && (nextElems s p.1 n).any (fun a => ws.contains (wordOf a)) then
      setChan p.1 { chan s p.1 with ending := 10 } s
    else s) s

/-- Rebuild the page; a failure resets its scope. DESIGN CHOICE, log entry 23. -/
def reconstruct (page port : Nat) (outside : List (Fin 128)) (sideBad : Bool) (s : State) : State :=
  let es := (erasedIn s (page * 2048) outside).map fun k => page * 2048 + 16 * k
  let (ok, s) := reconstructPage page port outside sideBad s
  if ok then s else resetOwner (page * 2048) (markDataLost es s)

/-- The uncorrectable ones among the words that a port reads start the reconstruction of their pages (R262). -/
def mendWords (port : Nat) (ws : List Nat) (s : State) : State :=
  ws.foldl (fun s w => if wordBad s w then reconstruct (w / 2048) port [] false s else s) s

end Sys2Proof.Machine
end

