-- ==== Sys2Proof/Machine/Integrity.lean ====
section
/-! DEFINITION. Integrity commands: reconstruction, scrub, retirement, pounce, test mode (R262 to R284). -/
namespace Sys2Proof.Machine

/-- RECONSTRUCTION (R262 to R268): a page with an uncorrectable word or side byte. -/
def execReconstruction (page : Nat) (port : Fin 8) (erased : List (Fin 128)) (sideBad : Bool) (s : State) : Res :=
  gate (isCoded (page * 2048) && (sideBad || !(erasedIn s (page * 2048) erased).isEmpty)) (reconstruct page port erased sideBad s)

/-! ### Scrub (R272, R273, R284) -/

/-- Pages of the store that engine u scrubs: a crown's store, or a girdle memory. -/
def scrubPages (u st : Nat) : Nat :=
  if u < 16 then storePages st else match st with | 0 => 2048 | 1 => 256 | 2 => 56 | m => Config.girdlePages m
/-- Address of page p of that store, where the map gives it one. -/
def scrubAddr (u st f p : Nat) : Option Nat :=
  if u < 16 then some (storeBase u st f + 2048 * p)
  else match st with
    | 0 => some (ctxAddr 0 0 + 2048 * p)
    | 1 => some (sesReg 0x40000 + 2048 * p)
    | 2 => some (hatReg 0x4000 + 2048 * p)
    | 4 => some (stewardMem + 2048 * p)
    | _ => none
def scrubStore (u : Nat) (v : BitVec 64) : Nat := if u < 16 then fld v 60 2 else fld v 57 5
def scrubBadStore (u st : Nat) : Bool := if u < 16 then st == 3 else decide (5 < st)
def scrubMask : BitVec 64 := 0x3E000FFF000007FF

/-- The source that the end of a pass over girdle memory `st` raises (R284). -/
def passSource (st : Nat) : Nat := if st = 5 then 317 else 318

/-- A write of ITG_SCRUB (R272, R273). START acts at once and is not held: it reads 0 while the pass runs, since no rule says when it clears.
DESIGN CHOICE, log entry 74. -/
def scrubWrite (u : Nat) (v : BitVec 64) (s : State) : State :=
  let st := scrubStore u v
  let a := itgU u 0x20
  if !bit v 63 then rset a (v &&& scrubMask ||| rget s a &&& 0x4000000000000000) s
  else if scrubBadStore u st || decide (scrubPages u st < fld v 0 11 + fld v 32 12) || (integ s u).scrub.isSome then
    itgEvt u 7 318 s
  else
    let s := rset a (v &&& scrubMask) s
    let s := rset (itgU u 0x30) 0 (rset (itgU u 0x28) 0 s)
    if fld v 32 12 = 0 then itgEvt u 5 (passSource st) s
    else setInteg u { integ s u with scrub := some (st, if u < 16 then fld v 57 3 else 0, fld v 0 11, fld v 32 12) } (rbitSet a 62 true s)

/-- ITG_SCRUB_START (R273): a write of ITG_SCRUB with START = 1. -/
def execItgScrubStart (u : Fin 17) (v : BitVec 64) (s : State) : Res := .next (scrubWrite u (v ||| 0x8000000000000000) s)

/-- HARD marks in the log of engine u. -/
def hardMarks (s : State) (u : Nat) : Nat := ((List.range (logSize u)).filter fun e => rbit s (logEntry u e) 60).length

/-- A corrected word is written back, unless another port has written it in this FCLK (R234, R235): then the write-back is dropped and
counted. A girdle memory has no collisions (R230). -/
def writeBack (u w : Nat) (r : RawWord) (s : State) : State :=
  let s := rsat (itgU u 0x28) 0 32 1 s
  if decide (u < 16) && !(marksOn s w).isEmpty then rsat (itgU u 0x30) 32 16 1 (rsat (crownReg u 8) 0 16 1 s)
  else
    let mark : WMark := { word := w, rank := 3, mask := 0xFFFF, old := bytesAt s w 16, oldTag := tagAt s w, who := .steward, back := some r }
    rsat (itgU u 0x30) 48 16 1 (markRewritten w (setRawWords (tdel s.raw w) (if u < 16 then setMarks (s.marks ++ [mark]) s else s)))

/-- What the scrubber does about a word that it has read: an uncorrectable one is rebuilt or its owner reset, a corrected one
is written back. -/
def scrubRead (u w : Nat) (s : State) : State :=
  match s.raw.find? fun p => p.1 == w with
  | none => s
  | some (_, r) =>
    if r.bad.isSome then
      let n := (erasedIn s (w / 2048 * 2048) []).length
      let q := reconstructPage (w / 2048) 5 [] false s
      if q.1 then rsat (itgU u 0x30) 16 16 n q.2 else resetOwner w q.2
    else if r.corr.isEmpty then s
    else writeBack u w r (noteReads 3 [w] s)

/-- One word of a pass. -/
def scrubWord (u w : Nat) (s : State) : State :=
  let h := hardMarks s u
  let s := scrubRead u w (rsat (itgU u 0x28) 32 32 1 s)
  rsat (itgU u 0x30) 0 16 (hardMarks s u - h) s

/-- The deviating words of a range of pages, and the pass over it: words that hold what the codes give are only counted. -/
def scrubRange (u a n : Nat) (s : State) : State :=
  let ws := (s.raw.filter fun p => decide (a ≤ p.1) && decide (p.1 < a + 2048 * n)).map (·.1)
  let s := ws.foldl (fun s w => scrubWord u w s) s
  rsat (itgU u 0x28) 32 32 (128 * n - ws.length) s

/-- The words of a pass are read; a pass over no store only counts. DESIGN CHOICE, log entry 23. -/
def scrubPass (u st f first n : Nat) (s : State) : State :=
  match scrubAddr u st f first with
  | some a => scrubRange u a n s
  | none => rsat (itgU u 0x28) 32 32 (128 * n) s

/-- The first number of a store, and how many numbers it has, spares included. -/
def linStore (st f : Nat) : Nat × Nat := (pageLin st f 0, storePages st + storeSpares st)
def sameStore (l m : Nat) : Bool := (linPage l).1 == (linPage m).1 && (linPage l).2.1 == (linPage m).2.1

/-- The pass over store `st` ends: BUSY reads 0, SCRUBDONE is recorded. -/
def scrubEnd (u st : Nat) (s : State) : State :=
  itgEvt u 5 (passSource st) (rbitSet (itgU u 0x20) 62 false (setInteg u { integ s u with scrub := none } s))

/-- A retirement is copying its page: it no longer waits for a pounce step of its store (R278). -/
def retireCopies (s : State) (c : Nat) : Bool :=
  (integ s c).retiring.any fun l => !((integ s c).test.any fun t => sameStore t.1 l)
/-- The FCLK at which the pounce copy under way has switched; 0 where none runs. -/
def copyEnd (s : State) (c : Nat) : Nat := (integ s c).copy.getD 0

/-- SCRUB_PASS_DONE (R273): the pass ends after the copies of its crown, which the integrity port serves first (R274). -/
def execScrubPassDone (u : Fin 17) (s : State) : Res :=
  match (integ s u).scrub with
  | some (st, f, first, n) =>
    gateAt ((decide (16 ≤ u.val) || crownUp s u) && !retireCopies s u) (copyEnd s u) s fun s => scrubEnd u st (scrubPass u st f first n s)
  | none => .refused .notEnabled

/-! ### Spares, retirement and the pounce (R275 to R281) -/

/-- The free spares of the store that holds page number l. DESIGN CHOICE, log entry 24. -/
def freeSpares (s : State) (c l : Nat) : List Nat :=
  let (st, f, _) := linPage l
  let x := integ s c
  (List.range (storeSpares st)).filter fun i =>
    !(x.redir.any fun r => sameStore r.1 l && r.2 == i) && !(x.redir.any fun r => r.1 == pageLin st f (storePages st + i))

/-- The count of a store in ITG_SPARES is the number of its free spares (R275, R278). -/
def showSpares (c l : Nat) (s : State) : State :=
  let (st, f, _) := linPage l
  let a := itgU c 0x18
  let n := (freeSpares s c l).length
  match st with
  | 0 => rput a (4 * f) 4 n s
  | 1 => rput a (32 + 3 * f) 3 n s
  | _ => rput a 56 6 n s

/-- Where a page in the map lies. -/
def linAddr (c l : Nat) : Option Nat :=
  let (st, f, p) := linPage l
  if p < storePages st then some (storeBase c st f + 2048 * p) else none

/-- A copy has switched (R277): its reads are decoded and logged, the words stand in the page it wrote with fresh codes. A word that it
read uncorrectable is rebuilt after the switch. DEDUCED, log entry 24. -/
def copied (c l : Nat) (s : State) : State :=
  match linAddr c l with
  | none => s
  | some a =>
    let s := noteReads 4 (devWords s a) s
    let s := mendWords 4 (devWords s a) s
    setSideDev (tclear s.sideDev a (a + 2048)) (setRawWords (tclear s.raw a (a + 2048)) s)

/-- A page is retired into a spare: redirection, ledger record, count, SPARE, RETDONE (R278, R280). DESIGN CHOICE, log entry 24. -/
def retireInto (c l sp : Nat) (s : State) : State :=
  let x := integ s c
  let s := setInteg c { x with redir := tput x.redir l sp } s
  itgEvt c 6 318 (showSpares c l (addRec5 (.retirement c l sp) (rput (itgU c 0x38) 40 6 sp s)))

def retireMask : BitVec 64 := 0x3E000000000007FF

/-- A write of ITG_RETIRE (R278). START reads 0 while the retirement runs. DESIGN CHOICE, log entry 74. -/
def retireWrite (c : Nat) (v : BitVec 64) (s : State) : State :=
  let st := fld v 60 2
  let l := pageLin st (fld v 57 3) (fld v 0 11)
  let a := itgU c 0x38
  let keep := rget s a &&& 0x40003F0000000000
  if !bit v 63 then rset a (v &&& retireMask ||| keep) s
  else if st = 3 ∨ storePages st ≤ fld v 0 11 ∨ (integ s c).redir.any (fun r => r.1 == l) ∨ (freeSpares s c l).length ≤ 1
      ∨ (integ s c).retiring.isSome then itgEvt c 7 318 s
  else setInteg c { integ s c with retiring := some l } (rset a (v &&& retireMask ||| keep ||| 0x4000000000000000) s)

/-- ITG_RETIRE_START (R278). -/
def execItgRetireStart (c : Fin 16) (v : BitVec 64) (s : State) : Res := .next (retireWrite c (v ||| 0x8000000000000000) s)

/-- Crown c is at P0, or on its way to P2, where copies in progress are finished (R281). -/
def copyServed (s : State) (c : Nat) : Bool := crownUp s c || domState s c == 5

/-- RETIREMENT_DONE (R277, R278): after any pounce step of that store. -/
def execRetirementDone (c : Fin 16) (s : State) : Res :=
  let x := integ s c
  match x.retiring, (x.retiring.bind fun l => (freeSpares s c l).head?) with
  | some l, some sp =>
    gate (copyServed s c && retireCopies s c)
      (copied c l (retireInto c l sp (rbitSet (itgU c 0x38) 62 false (setInteg c { x with retiring := none } s))))
  | _, _ => .refused .notEnabled

/-- The spare of l's store that is held for the pounce. DESIGN CHOICE, log entry 24. -/
def heldSpare (s : State) (c l : Nat) : Option Nat := (freeSpares s c l).getLast?

/-- The next page to test from number `l` on: not retired, not the held spare, in a store with a free spare (R279). -/
def nextTest (s : State) (c l : Nat) : Option Nat :=
  let ok (m : Nat) : Bool :=
    let (st, f, p) := linPage m
    !((integ s c).redir.any fun r => r.1 == m) && (heldSpare s c m).any fun i => pageLin st f p != pageLin st f (storePages st + i)
  ((List.range linTotal).map fun i => (l + i) % linTotal).find? ok

/-- PSTAT while a page is under test: ACTIVE, STEP 1, the page (R279); the count of tests stays. -/
def pounceStat (l count : Nat) : BitVec 64 :=
  setFld (setFld (setFld (setFld (setFld (BitVec.ofNat 64 count) 32 11 ((linPage l).2.2 % 2048)) 55 3 (linPage l).2.1) 58 2 (linPage l).1) 60 3 1) 63 1 1

/-- The test of a page begins: its words are copied to the held spare. -/
def pounceStart (c l : Nat) (s : State) : State :=
  let sp := (heldSpare s c l).getD 0
  copied c l (rset (itgU c 0x40) (pounceStat l (rfld s (itgU c 0x40) 0 32))
    (setInteg c { integ s c with test := some (l, sp), copy := some (s.fclk + copyFclk), next := (l + 1) % linTotal } s))

/-- POUNCE_INTERVAL_EXPIRY (R279): the next page is copied to the held spare. -/
def execPounceIntervalExpiry (c : Fin 16) (s : State) : Res :=
  let x := integ s c
  match nextTest s c x.next with
  | some l =>
    gateAt (rbit s (itgU c 0) 0 && x.test.isNone && crownUp s c && !(x.retiring.any fun r => sameStore r l)) x.due s (pounceStart c l)
  | none => .refused .notEnabled

/-- The page has passed: it is copied back (STEP 3), and the spare is free again at the switch. -/
def copyBack (c l : Nat) (s : State) : State :=
  copied c l (rput (itgU c 0x40) 60 3 3 (setInteg c { integ s c with copy := some (s.fclk + copyFclk) } s))

/-- The page has failed: it stays in its spare (R280). -/
def pounceFail (c l sp : Nat) (s : State) : State :=
  itgEvt c 4 318 (copied c l (retireInto c l sp (pounceIdle c s.fclk s)))

/-- POUNCE_TEST_DONE (R279, R280): the page is copied back, or stays redirected as retired. A test takes the slots that scrub leaves
(R274). -/
def execPounceTestDone (c : Fin 16) (pass : Bool) (s : State) : Res :=
  match (integ s c).test with
  | some (l, sp) =>
    gateAt (crownUp s c && (integ s c).scrub.isNone && rfld s (itgU c 0x40) 60 3 != 3) (copyEnd s c) s
      (if pass then copyBack c l else pounceFail c l sp)
  | none => .refused .notEnabled

/-! ### The checker test mode (R282, R283) -/

/-- What a word stores: its deviating bits, or what the code gives. DEDUCED, log entry 22. -/
def storedWord (s : State) (w : Nat) : RawWord :=
  match s.raw.find? fun p => p.1 == w with
  | some (_, r) => r
  | none => encodeWord (BitVec.ofNat 128 (natAt s w 16)) (s.vbits.contains w) (s.tags.contains w)

/-- A word as the page code sees it. -/
def symOf (data : BitVec 128) (v tag : Bool) : BitVec 130 :=
  if v then BitVec.ofNat 130 (data.toNat + 2 ^ 128 + b2n tag * 2 ^ 129) else 0

/-- Store raw bits in a word. `desc` is what the page code describes of it afterwards, if the mode updates it. DEDUCED, log entry 22. -/
def storeRaw (w : Nat) (r : RawWord) (desc : Option (BitVec 130)) (s : State) : State :=
  let old := wordSym s w
  let dev := tget 0 s.sideDev w
  if r.bad.isSome then
    match desc with
    | some d => { putWordSym w d s with raw := tput s.raw w r }
    | none => setRawWords (tput s.raw w r) s
  else
    let (data, v, tag) := r.value
    let new := symOf data v tag
    let s := putWordSym w new s
    let s := if r = encodeWord data v tag then s else setRawWords (tput s.raw w r) s
    let dev' := match desc with
      | some d => dev ^^^ d ^^^ new
      | none => dev ^^^ old ^^^ new
    (setSideDev (tset 0 s.sideDev w dev') s)

/-- CHK of ITG_TCHK0 and ITG_TCHK1 as 16 × 5 bits, and the two registers from them. -/
def chkIn (c0 c1 : BitVec 64) : BitVec 80 :=
  BitVec.ofNat 80 ((List.range 16).foldl (fun x j => x + fld (if j < 8 then c0 else c1) (8 * (j % 8)) 5 * 2 ^ (5 * j)) 0)
def chkOut (c : BitVec 80) (hi : Nat) : BitVec 64 :=
  BitVec.ofNat 64 ((List.range 8).foldl (fun x j => x + fld c (5 * (8 * hi + j)) 5 * 2 ^ (8 * j)) 0)

/-- Whether GO is refused (R282). -/
def testRefused (s : State) (c : Nat) (v : BitVec 64) : Bool :=
  let st := fld v 58 2
  let n := 8 * c + fld v 55 3
  st == 3 || decide (128 * storePages st ≤ fld v 0 18)
    || (st != 2 && (!bit (facet s n).ctl 1 || inPartition s n))
    || (st == 2 && ((List.range 8).any (fun i => !bit (facet s (8 * c + i)).ctl 1)
          || (List.range 16).any fun i => chanState s (16 * c + i) != 0))

/-- Perform MODE on WORD (R283). -/
def testGo (c : Nat) (v : BitVec 64) (s : State) : State :=
  let w := storeBase c (fld v 58 2) (fld v 55 3) + 16 * fld v 0 18
  let r := storedWord s w
  let data := rget s (itgU c 0x90) ++ rget s (itgU c 0x88)
  let chk := chkIn (rget s (itgU c 0x98)) (rget s (itgU c 0xA0))
  match fld v 60 2 with
  | 0 =>
    let s := rbitSet (itgU c 0x80) 32 r.v (rbitSet (itgU c 0x80) 33 r.tag s)
    let s := rset (itgU c 0x90) ((r.data >>> 64).setWidth 64) (rset (itgU c 0x88) (r.data.setWidth 64) s)
    rset (itgU c 0xA0) (chkOut r.chk 1) (rset (itgU c 0x98) (chkOut r.chk 0) s)
  | 1 => storeRaw w { r with chk := chk, tag := false } none s
  | 2 => markRewritten w (storeRaw w { r with data := data, tag := false } none s)
  | _ => markRewritten w (storeRaw w ⟨data, false, bit v 32, chk⟩ (some (symOf data (bit v 32) false)) s)

def testMask : BitVec 64 := 0x3F8000010003FFFF

/-- A write of ITG_TCTL (R282, R283): the fields are stored and, with GO, MODE is performed, unless refused. -/
def testWrite (c : Nat) (v : BitVec 64) (s : State) : State :=
  let stored (s : State) : State := rset (itgU c 0x80) (v &&& testMask ||| rget s (itgU c 0x80) &&& 0x200000000) s
  if !bit v 63 then stored s else if testRefused s c v then itgEvt c 7 318 s else testGo c v (stored s)

/-- ITG_TCTL_GO (R282, R283). -/
def execItgTctlGo (c : Fin 16) (v : BitVec 64) (s : State) : Res :=
  gate (crownUp s c) (testWrite c (v ||| 0x8000000000000000) s)

/-! ### Writes of the other registers (R269, R271, R284, R578) -/

/-- A steward write at offset `o` of the registers of engine u (`o` from ITG_CTL). -/
def itgWrite (u o : Nat) (v : BitVec 64) (s : State) : State :=
  let a := itgU u o
  match o with
  | 0 =>
    let was := rbit s a 0
    let s := rset a (v &&& (if u < 16 then 0xFFFFFFFF00000001 else 0xFFFF000000000000)) s
    if !was && rbit s a 0 then setInteg u { integ s u with due := s.fclk } s
    else if was && !rbit s a 0 && rfld s (itgU u 0x40) 60 3 == 4 then rput (itgU u 0x40) 60 3 0 s else s
  | 8 => rw1c a 0xFF v s
  | 0x10 => if v = 0 then rput a 48 16 0 s else s
  | 0x20 => scrubWrite u v s
  | 0x38 => if u < 16 then retireWrite u v s else s
  | 0x80 => if u < 16 then testWrite u v s else s
  | 0x88 | 0x90 => if u < 16 then rset a v s else s
  | 0x98 | 0xA0 => if u < 16 then rset a (v &&& 0x1F1F1F1F1F1F1F1F) s else s
  | _ => s

/-- A steward write to byte offset `o` of the error log of engine u: W1C of V (R269). -/
def logWrite (u o : Nat) (v : BitVec 64) (s : State) : State := if o % 32 = 0 ∧ bit (w1c s (logEntry u (o / 32)) v) 63 then logFree u (o / 32) s else s

end Sys2Proof.Machine
end

