-- ==== Sys2Proof/Machine/Patch.lean ====
section
/-! DEFINITION. Blocker patches (R376): their fields and records, and what the loader writes. -/
namespace Sys2Proof.Machine

/-- The word records of a patch: address and words, and the bytes that follow them; none where a record is cut short. -/
def patchRecords : Nat → List Byte → Option (List (Nat × List (BitVec 64)) × List Byte)
  | 0, bs => some ([], bs)
  | n + 1, bs =>
    let len := leAt bs 2 2
    if bs.length < 8 + 8 * len then none else
    let ws := (List.range len).map fun i => BitVec.ofNat 64 (leAt bs (8 + 8 * i) 8)
    match patchRecords n (bs.drop (8 + 8 * len)) with
    | some (rs, rest) => some ((leAt bs 0 2, ws) :: rs, rest)
    | none => none

structure Patch where
  flags : Nat
  baseRel : Nat
  newRel : Nat
  serial : Nat
  signer : Nat
  mask : Nat
  recs : List (Nat × List (BitVec 64))
  /-- Entry records: PROTO, ENTRY, MINSLOTS, CELLS. -/
  ents : List (Nat × Nat × Nat × Nat)
  reserved : Bool
  signed : List Byte
  sig : List Byte
  deriving DecidableEq, Repr

/-- The patch that an image spells; none where its parts do not fill it. -/
def parsePatch (bs : List Byte) : Option Patch :=
  match patchRecords (leAt bs 14 2) (bs.drop 32) with
  | none => none
  | some (rs, rest) =>
    let ne := leAt bs 16 2
    if bs.length < 32 ∨ rest.length ≠ 8 * ne + 96 then none else
    let ents := (List.range ne).map fun i => (leAt rest (8 * i) 2, leAt rest (8 * i + 2) 2, leAt rest (8 * i + 4) 1, leAt rest (8 * i + 5) 1)
    let entRes := (List.range ne).any fun i => leAt rest (8 * i + 6) 2 != 0
    let recRes := (rs.foldl (fun (acc : Bool × Nat) r => (acc.1 || leAt bs (acc.2 + 4) 4 != 0, acc.2 + 8 + 8 * r.2.length)) (false, 32)).1
    some { flags := leAt bs 6 2, baseRel := leAt bs 8 2, newRel := leAt bs 10 2, serial := leAt bs 12 2, signer := leAt bs 18 1,
           mask := leAt bs 20 8, recs := rs, ents := ents,
           reserved := entRes || recRes || leAt bs 19 1 != 0 || leAt bs 28 4 != 0,
           signed := bs.take (bs.length - 96), sig := bs.drop (bs.length - 96) }

/-- The image of a bank with the patch applied: FULL takes the records alone (R377). -/
def patchImage (p : Patch) (old : Nat → BitVec 64) : Nat → BitVec 64 := fun a =>
  match p.recs.find? fun r => decide (r.1 ≤ a) && decide (a < r.1 + r.2.length) with
  | some r => r.2.getD (a - r.1) 0
  | none => if p.flags % 2 = 1 then 0 else old a

/-- Put a bank's 2,048 words into one bank of a blocker. -/
def putBank (b : Nat) (k : Bool) (img : Nat → BitVec 64) (s : State) : State :=
  (List.range 2048).foldl (fun s i => poke (blkBank b k + 8 * i) (natBytes 8 (img i).toNat) s) s

def libraryWord (i : Nat) : BitVec 64 := BitVec.ofNat 64 (bytesNat ((List.range 8).map fun j => Config.library (8 * i + j)))

/-- The signature of a patch verifies under the root of a signer that may sign it (R377, check 2). -/
def patchSigned (s : State) (p : Patch) : Bool :=
  decide (p.signer < 2) && (p.signer == 0 || s.bez.roots.contains p.signer) && Config.verify s.bez.manSerial p.signer p.signed p.sig

/-- Library 2.7 with the recorded patches that name blocker b and still verify (step 4 of R470), and the release and serial that
BLK_VER shows. -/
def loadedBank (s : State) (b : Nat) : (Nat → BitVec 64) × Nat × Nat :=
  s.ledger.patches.foldl (fun acc bs => match parsePatch bs with
    | some p => if patchSigned s p ∧ p.mask / 2 ^ b % 2 = 1 then (patchImage p acc.1, p.newRel, p.serial) else acc
    | none => acc) (libraryWord, 0x207, 0)

/-- Gleby loads blocker b: both banks and BLK_VER (R379, step 4 of R470). -/
def loadBlocker (b : Nat) (s : State) : State :=
  let (img, rel, ser) := loadedBank s b
  let v := rel * 2 ^ 16 + ser
  rset (blkReg b 0x18) (BitVec.ofNat 64 (v * 2 ^ 32 + v)) (putBank b true img (putBank b false img s))

end Sys2Proof.Machine
end

