-- ==== Sys2Proof/Machine/Restore.lean ====
section
/-! DEFINITION. What Gleby sets up at boot and at the wake from P3 (R278, R379, R384, R417, R470, R548, R554), and a domain's
return to reset values (R332, R352, R356, R379, R395). -/
namespace Sys2Proof.Machine

/-- A capability that Gleby makes for itself: none of principal 0 is minted (R462), so the Maker's stands in it. -/
def glebyCap (s : State) (perm base len : Nat) : BitVec 128 := mkCap (epochOf s 1) 1 0 (2 ^ perm) len base

/-- Session 0: OPEN, its ring in the steward reserve, its EVENT; the engine takes reports (R384, R395). -/
def setupSession0 (s : State) : State :=
  let log := 3 + Config.session0Log % 13
  let base := Config.session0Ring % 2 ^ (21 - log) * 2 ^ log
  let s := girdlePut (ctxAddr 0 0) (List.replicate 256 0) s
  let s := ctxPut 0 0 61 3 1 s
  let s := ctxPut 0 8 7 41 base (ctxPut 0 8 60 4 log s)
  let s := ctxPut 0 0 60 1 1 (ctxPut 0 0 48 12 (Config.session0Event % 4096) s)
  let s := girdlePut (ctxAddr 0 0x30) (natBytes 16 (glebyCap s permW (base * 128) (2 ^ log * 8)).toNat) s
  rbitSet (sesReg 0) 3 true (setTag (ctxAddr 0 0x30) true s)

/-- Every credit count is 4 (R417). DESIGN CHOICE, log entry 17. -/
def giveCredits (s : State) : State :=
  (List.range 128).foldl (fun s n => updFacet n (fun f => { f with credits := 4 }) s) s

/-- The retirements that the ledger records are applied again (R278). -/
def reapplyRetirements (s : State) : State :=
  s.ledger.rec5.foldl (fun s r => match r with
    | .retirement c l sp => showSpares c l (setInteg c { integ s c with redir := tput (integ s c).redir l sp } s)
    | _ => s) s

/-- Gleby loads every blocker of a spine. -/
def loadSpine (i : Nat) (s : State) : State := (List.range 32).foldl (fun s b => loadBlocker (32 * i + b) s) s

/-- READY rises with the release of Gleby (R396). -/
def setReady (s : State) : State := rput (mbxReg 0x800) 48 16 0x0402 (rbitSet (mbxReg 0x800) 32 true s)

/-- A port group goes off or is reset: its cells stop and return to reset values, the threads of its cells stop (R332, R352,
R379). -/
def groupOff (g : Nat) (s : State) : State :=
  let s := groupThreadsOff g (stopGroup g s)
  rclear (grpReg g 0) (grpReg g 0x100) ((groupCells g).foldl (fun s p => resetCell p s) s)

/-- A brim spine goes off or is reset, its groups first (R352, R356, R379); its cells' threads are bound no more. -/
def spineOff (i : Nat) (s : State) : State :=
  let s := (List.range 4).foldl (fun s g => groupOff (4 * i + g) s) s
  let s := (List.range 32).foldl (fun s b => resetFeeds (32 * i + b) (resetBlocker (32 * i + b) s)) s
  setGly { s.gly with binds := s.gly.binds.filter fun p => brimDieOf p.1 != i } s

/-- The Ethernet and fabric domain goes off (R537): its registers and queues. -/
def ethernetOff (s : State) : State :=
  setMacs [] (setFabric { s.fabric with out := [], seen := [], heard := [], wins := [] } (rclear (ethReg 0) (ethReg 0x10000) s))

/-- The session store goes off: contexts and route banks (R395). -/
def sessionStoreOff (s : State) : State :=
  let s := rclear (sesReg 0) (sesReg 0x100000) s
  setMem (tclear (tclear s.mem (sesReg 0) (sesReg 0x100000)) (ctxAddr 0 0) (ctxAddr 16384 0))
    (setTags (s.tags.filter (fun w => decide (w < ctxAddr 0 0) || decide (ctxAddr 16384 0 ≤ w)))
      (setSes { hold := s.ses.hold, pool := s.ses.pool, freed := s.ses.freed, known := s.ses.known, alloc := s.ses.alloc } s))

/-- The PCIe domain is reset (R517, R555): its registers, windows and MSI-X masks. -/
def pcieOff (s : State) : State :=
  setMsixOpen [] (setMsixHeld [] (setLinks { s.links with up := false } (setGly { s.gly with wins := [] }
    (rclear (pciReg 0) (pciReg 0x10000) s))))

end Sys2Proof.Machine
end

