-- ==== Sys2Proof/Machine/Power.lean ====
section
/-! DEFINITION. Power domains and crown states (R537 to R545), standby (R546 to R548), resets (R549 to R553), monitors (R556), and
seam replays (R15). -/
namespace Sys2Proof.Machine

def dctl (d : Nat) : Nat := girdle (0x1000 + 8 * d)
def dTarget (s : State) (d : Nat) : Nat := rfld s (dctl d) 4 3
def setDom (d v : Nat) (s : State) : State := rput (dctl d) 0 3 v s
def setBusy (d : Nat) (b : Bool) (s : State) : State := rbitSet (dctl d) 9 b s
def dBusy (s : State) (d : Nat) : Bool := rbit s (dctl d) 9
/-- What PWR_DCTL reads: STATE is 5 while a change runs. DEDUCED, log entry 59. -/
def dctlRead (s : State) (d : Nat) : BitVec 64 :=
  let v := rget s (dctl d)
  if bit v 9 then setFld v 0 3 5 else v

/-- The states a domain takes through PWR_DCTL (R537, R538). -/
def dLegal (d t : Nat) : Bool :=
  if d < 16 then t == 1 || t == 2 || t == 3
  else if (20 ≤ d ∧ d < 30) ∨ d = 36 then t == 1 || t == 4
  else t == 1
/-- What the sealed locks forbid (R29, R482). -/
def dLocked (s : State) (d t : Nat) : Bool :=
  sealActive s && ((d == 0 && t == 3)
    || (t == 4 && decide (20 ≤ d ∧ d < 22) && s.locks.cells.any fun p => brimDieOf p + 20 == d)
    || (t == 4 && decide (22 ≤ d ∧ d < 30) && s.locks.cells.any fun p => groupOf p + 22 == d))

def dRefuse (d : Nat) (s : State) : State := rbitSet (dctl d) 10 true s

/-- Busy channels affected by the power-down of some domains (R301). -/
def affected (s : State) (ds : List Nat) : List Nat :=
  ((s.chans.map (·.1)).filter fun k => chanState s k != 0 && (chanDomains s k).any fun d => ds.contains d)

/-- Affected channels are asked to drain, or aborted when forced (R301, R302). -/
def askDrain (force : Bool) (ds : List Nat) (s : State) : State :=
  (affected s ds).foldl (fun s k =>
    if force then failChan k 11 s
    else if chanState s k = 1 then s
    else let c := chan s k
      setChan k { c with drain := if c.drain.isSome then c.drain else some s.fclk } s) s

/-- No FCLK has passed in the facets of a crown that slept at P1: running long operations and reservations move on by the time
slept (R540, R545). -/
def unfreeze (c : Nat) (s : State) : State :=
  match s.pwr.slept.find? fun p => p.1 == c with
  | none => s
  | some (_, t) =>
    let dt := s.fclk - t
    let move (f : Facet) : Facet :=
      let later (x : Nat) : Nat := if t < x then x + dt else x
      { f with wait := (match f.wait with | .long l => .long { l with start := l.start + dt } | .retx x => .retx (later x) | w => w),
               ready := later f.ready, e4 := f.e4.map later,
               resv := f.resv.map fun r => (r.1, r.2 + dt) }
    let s := (List.range 8).foldl (fun s i => updFacet (8 * c + i) move s) s
    setPwr { s.pwr with slept := s.pwr.slept.filter fun p => p.1 != c } s

/-- A facet stops for P2: it drains; a long operation with elements left keeps its bundle as the next with FS.RES; a wait
is issued again (R543, R545). -/
def stopFacet (n : Nat) (s : State) : State :=
  let s := finishLong n (if (facet s n).wait matches .long _ then { longTo n (boundaryAt s n) s with marks := s.marks } else s)
  let s := match (facet s n).wait with | .retx _ => endRetx n s | _ => s
  let s := drainFacet n s
  let f := facet s n
  let again (res : Bool) (f : Facet) : Facet :=
    { f with fs := if res then setBit f.fs 6 true else f.fs, wait := .none, bundle := [], presented := none, shadows := [],
             landed := [], lpWas := [] }
  match f.wait with
  | .long _ => updFacet n (again true) s
  | _ => updFacet n (again false) s

def addChange (d t : Nat) (force : Bool) (s : State) : State :=
  setBusy d true (setPwr { s.pwr with changes := s.pwr.changes ++ [⟨d, t, s.fclk, force⟩] } s)
def dropChange (d : Nat) (s : State) : State :=
  setBusy d false (setPwr { s.pwr with changes := s.pwr.changes.filter fun c => c.d != d } s)
def changeOf (s : State) (d : Nat) : Option PwrChange := s.pwr.changes.find? fun c => c.d == d

/-- A crown's entry into P2 begins (R543). -/
def startP2 (c : Nat) (force : Bool) (s : State) : State :=
  let s := (List.range 8).foldl (fun s i => stopFacet (8 * c + i) s) (unfreeze c s)
  askDrain force [c] (setDom c 5 (addChange c 3 force s))

def facetHalted (s : State) (n : Nat) : Bool := bit (facet s n).ctl 1
/-- The conditions of a change of COMPAT (R236). -/
def crownQuiet (s : State) (c : Nat) : Bool :=
  (List.range 8).all (fun i => facetHalted s (8 * c + i)) && (List.range 16).all (fun i => chanState s (16 * c + i) == 0)
    && s.facets.all fun p => p.2.remotes.all fun r => crownAt r.target != some c
/-- CRN_CTL.COMPAT takes a value; a change governs from the next FCLK (R236). -/
def setCompat (c : Nat) (b : Bool) (s : State) : State :=
  if rbit s (crownReg c 0) 0 = b then s
  else
    let s := setModeNext (if s.modeNext.contains c then s.modeNext.filter (· != c) else c :: s.modeNext) s
    rset (crownReg c 0) (setBit (rget s (crownReg c 0)) 0 b) s

/-- A crown goes to P1: its facets freeze (R540). -/
def enterP1 (c : Nat) (s : State) : State :=
  setDom c 2 (setPwr { s.pwr with slept := s.pwr.slept ++ [(c, s.fclk)] } s)

/-- A copy of a crown's pages is in progress: its entry into P1 or P2 waits for it (R281). -/
def copying (s : State) (c : Nat) : Bool := retireCopies s c || (integ s c).copy.isSome

/-- The power controller acts on a domain's TARGET (R538, R539). -/
def actOn (d : Nat) (s : State) : State :=
  let t := dTarget s d
  let st := domState s d
  if !dLegal d t || dLocked s d t then dRefuse d s
  else if t = st then s
  else if d < 16 then
    if t = 3 then startP2 d (rbit s (dctl d) 8) s
    else if t = 2 ∧ st = 1 then
      if copying s d then addChange d 2 false s else enterP1 d s
    else setWakes (sadd s.wakes d) s
  else
    let s := addChange d t (rbit s (dctl d) 8) s
    if t = 4 then askDrain (rbit s (dctl d) 8) (withGroups d) s else s

/-- A write that came while the domain was BUSY is acted on (R539). -/
def actAgain (d : Nat) (s : State) : State :=
  if s.pwr.again.contains d then actOn d (setPwr { s.pwr with again := sdel s.pwr.again d } s) else s

/-- A write to PWR_DCTL (R539). TARGET = 1 is a wake cause, which abandons an entry into P2 (R541). DEDUCED, log entry 59. -/
def dctlWrite (d : Nat) (v : BitVec 64) (s : State) : State :=
  let old := rget s (dctl d)
  let new := setBit (setFld old 4 3 (fld v 4 3)) 8 (bit v 8)
  let s := rset (dctl d) (new &&& ~~~(w1c s (dctl d) (v &&& 0x400))) s
  if d < 16 ∧ fld v 4 3 = 1 ∧ (changeOf s d).any (fun c => c.target == 3) then setWakes (sadd s.wakes d) s
  else if dBusy s d then setPwr { s.pwr with again := sadd s.pwr.again d } s else actOn d s
def execPwrDctlWrite (d : Fin 38) (v : BitVec 64) (s : State) : Res := .next (dctlWrite d v s)

/-- The effects of a domain's switch (R332, R352, R356, R379, R537). Gleby loads the blockers of a spine that returns, and restarts
the bound threads of a group that returns (R379). -/
def switchOff (d : Nat) (s : State) : State :=
  let s := (withGroups d).foldl (fun s d => setDom d 4 s) s
  if d = 36 then ethernetOff s else if d < 22 then spineOff (d - 20) s else groupOff (d - 22) s
def switchOn (d : Nat) (s : State) : State :=
  let s := setDom d 1 s
  if 20 ≤ d ∧ d < 22 then
    let s := (List.range 32).foldl (fun s b => resetBlocker (32 * (d - 20) + b) s) s
    if s.pwr.running then loadSpine (d - 20) s else s
  else if 22 ≤ d ∧ d < 30 ∧ s.pwr.running then
    (s.gly.binds.filter fun p => groupOf p.1 + 22 == d).foldl (fun s p => startThread p.1 s) s
  else s

/-- DOMAIN_SWITCH_DONE (R538): a group comes on only with its spine; an affected channel has reached HELD or ended. -/
def execDomainSwitchDone (d : Fin 38) (s : State) : Res :=
  match changeOf s d with
  | none => .refused .notEnabled
  | some c =>
    if d.val < 16 then
      gateAt (decide (c.target = 2) && !retireCopies s d) (copyEnd s d) s fun s => actAgain d (enterP1 d (dropChange d s))
    else if c.target = 4 then
      gate ((affected s (withGroups d)).all fun k => chanState s k == 1) (actAgain d (switchOff d (dropChange d s)))
    else
      gate (!decide (22 ≤ d.val ∧ d.val < 30) || domState s (20 + (d.val - 22) / 4) == 1)
        (actAgain d (switchOn d (dropChange d s)))

/-- Facets of a crown with remote operations outstanding. -/
def remoteFacets (s : State) (c : Nat) : List Nat :=
  ((List.range 8).map (8 * c + ·)).filter fun n => !(facet s n).remotes.isEmpty

/-- CROWN_P2_ENTRY: the power switch opens (R543); reservations end (R248). -/
def execCrownP2Entry (c : Fin 16) (s : State) : Res :=
  match changeOf s c with
  | some ch =>
    gateAt (decide (ch.target = 3) && !(decide (c = 0) && sealActive s) && (ch.force || (remoteFacets s c).isEmpty) && !retireCopies s c
        && (affected s [c.val]).all fun k => chanState s k == 1) (max (ch.at_ + usFclk) (copyEnd s c)) s fun s =>
      let s := setPwr { s.pwr with failed := s.pwr.failed ++ remoteFacets s c } s
      let off (f : Facet) : Facet := { f with resv := none, flights := [], shadows := [] }
      let s := (List.range 8).foldl (fun s i => updFacet (8 * c + i) off s) (dropCrownResv c s)
      actAgain c (setDom c 3 (dropChange c s))
  | none => .refused .notEnabled

/-- An entry into P2 is abandoned: the crown is at P0 again, and its channels go on unless another domain that leaves has asked them to
drain. -/
def abandonP2 (c : Nat) (s : State) : State :=
  let t := dropChange c s
  let go (p : Nat × Chan) : Nat × Chan :=
    if (affected s [c]).contains p.1 && !(chanDomains s p.1).any (domLeaving t) then (p.1, { p.2 with drain := none }) else p
  setChans (s.chans.map go) t

/-- P2_ENTRY_TIMEOUT: 1 ms after the request; P0 in the next FCLK (R543). -/
def execP2EntryTimeout (c : Fin 16) (s : State) : Res :=
  match changeOf s c with
  | some ch =>
    gateAt (decide (ch.target = 3) && !ch.force && !(remoteFacets s c).isEmpty) (ch.at_ + msFclk) s fun s =>
      actAgain c (advance 1 (dRefuse c (setDom c 1 (abandonP2 c s))))
  | none => .refused .notEnabled

/-- CROWN_WAKE: a wake cause reaches a crown at P1 or P2, or on its way to P2, which abandons the entry (R541). -/
def execCrownWake (c : Fin 16) (s : State) : Res :=
  gate (s.wakes.contains c.val && !(s.pwr.waking.any fun w => w.1 == c.val) && domState s c != 1 && domState s c != 4)
    (let s := setWakes (sdel s.wakes c.val) s
     let s := if (changeOf s c).isSome then abandonP2 c s else s
     setBusy c true (setPwr { s.pwr with waking := s.pwr.waking ++ [(c.val, s.fclk)] } s))

/-- A facet's remote operations that a forced entry did not wait for complete as refused (R543, R121), which raises source 50 (R205). -/
def failRemotes (n : Nat) (s : State) : State :=
  if (facet s n).remotes.isEmpty then s
  else facetPulse n 50 (updFacet n (fun f => { f with
    arf := f.remotes.foldl (fun a r => setBit a (16 + r.idx) true) f.arf, remotes := [], remErr := true }) s)

/-- The first FCLK of P0 for one facet (R223, R540, R544). -/
def wakeFacet (deep : Bool) (n : Nat) (s : State) : State :=
  let x := intSrc s n 48
  let s := setIntSrc n 48 { x with raw := levelOf s n 48 } s
  let s := wakeSources n s
  let s := if deep then updFacet n (fun f => { f with btb := [], predTaken := [], ready := max f.ready (s.fclk + 1) }) s else s
  if s.pwr.failed.contains n then setPwr { s.pwr with failed := sdel s.pwr.failed n } (failRemotes n s) else s

/-- Channel starts recorded during sleep act as one each (R544). -/
def wakeStarts (c : Nat) (s : State) : State :=
  ((List.range 16).map (16 * c + ·)).foldl (fun s k =>
    if (chan s k).sleepStart then movSink k (setChan k { chan s k with sleepStart := false } s) else s) s

/-- The crown is at P0 again and applies what it recorded (R542, R544). -/
def wakeDone (c : Nat) (s : State) : State :=
  let deep := domState s c == 3
  let s := unfreeze c (setPwr { s.pwr with waking := s.pwr.waking.filter fun w => w.1 != c } s)
  let s := setBusy c false (setDom c 1 (setWakes (sdel s.wakes c) s))
  let s := (List.range 8).foldl (fun s i => wakeFacet deep (8 * c + i) s) s
  actAgain c (wakeStarts c s)

/-- CROWN_WAKE_DONE (R542, R544). -/
def execCrownWakeDone (c : Fin 16) (s : State) : Res :=
  gate (s.pwr.waking.any fun w => w.1 == c.val) (wakeDone c s)

/-! ### Standby (R546 to R548) -/

/-- Domains that P3 switches off. -/
def p3Domains : List Nat := (List.range 38).filter fun d => d != 30 && d != 31 && d != 33

/-- The end of a drain for P3 (R301, R302, R547): a busy girdle channel that a leaving domain affects is held; one whose fabric frames
have no answer is aborted. Every crown channel returns to its reset values. -/
def p3Channel (k : Nat) (s : State) : State :=
  if s.fabric.out.any fun o => o.chan.any fun p => p.1 == k then
    endError k 11 (setFabric { s.fabric with out := s.fabric.out.filter fun o => !(o.chan.any fun p => p.1 == k) } s)
  else if (chan s k).ending ≠ 0 then endError k (chan s k).ending s
  else setChanState k 1 (setChan k { chan s k with drain := none } s)
def p3Channels (s : State) : State :=
  let s := ((affected s p3Domains).filter fun k => decide (256 ≤ k)).foldl (fun s k => p3Channel k s) s
  (setChans (s.chans.filter (fun p => decide (256 ≤ p.1))) (setEngines (s.engines.filter fun p => decide (16 ≤ p.1)) s))

/-- The requests of the facets that lose their mailbox rings are gone: their steward sources fall (R206, R207). -/
def dropRequests (s : State) : State :=
  (s.facets.filter fun p => !p.2.reqRing.isEmpty).foldl (fun s p => setRaw stewardCtl (128 + p.1) false s) s

/-- The crowns and stores lose everything (R249, R546). -/
def p3Crowns (s : State) : State :=
  let s := clearRange (facetBase 0) (crownStoreBase 16) (dropRequests s)
  let s := rclear (crownReg 0 0) (crownReg 16 0) s
  setFacets [] (setIntegs [] (setSideDev [] (setWakes [] (setInts (s.ints.filter (fun p => decide (stewardCtl * 1024 ≤ p.1))) (setIntc (s.intc.filter fun p => p.1 == stewardCtl) s)))))

/-- Host queues and mailbox rings go with the session store (R537). DEDUCED, log entry 60. -/
def p3Queues (s : State) : State :=
  let s := rclear (mbxReg 0) (mbxReg 0x800) s
  setGly { s.gly with qps := [], cmds := [], finished := [], evq := [] } s

/-- RATE freezes as in holdover (R312, R546). -/
def p3Time (s : State) : State :=
  if rbit s (timReg 0x40) 0 then
    let r := s.disc.rates.foldl (· + ·) (0 : Int) / (max 1 s.disc.rates.length : Nat)
    rateWrite (wrapN 32 r) (setTimBit 1 true (setTimBit 0 false (setDisc { s.disc with good := 0 } s)))
  else s

/-- DEDUCED, log entry 60. -/
def enterP3 (s : State) : State :=
  let s := p3Time (p3Queues (p3Crowns (p3Channels s)))
  let s := pcieOff (sessionStoreOff (ethernetOff (spineOff 1 (spineOff 0 s))))
  let s := p3Domains.foldl (fun s d => setBusy d false (setDom d 4 s)) s
  let s := rbitSet (mbxReg 0x800) 32 false (addRec5 (.standby s.tb.tick) s)
  setFabric { failtime := s.fabric.failtime } (setPwr { s.pwr with standby := none, asleep := true, changes := [], waking := [], failed := [], slept := [], again := [] } s)

/-- STANDBY_ENTRY: 1 ms after SUCCESS (R547). -/
def execStandbyEntry (s : State) : Res :=
  match s.pwr.standby with
  | some f => gateAt (!sealActive s) (f + msFclk) s enterP3
  | none => .refused .notEnabled

/-- What a wake from P3 does within 2 ms (R548). -/
def leaveP3 (last : Nat) (s : State) : State :=
  let s := advance (1300 * usFclk) (setPwr { s.pwr with asleep := false } s)
  let s := rput (girdle 0x110) 4 2 last (p3Domains.foldl (fun s d => setDom d 1 s) s)
  let s := (List.range 64).foldl (fun s b => resetBlocker b s) s
  setReady (loadSpine 1 (loadSpine 0 (reapplyRetirements (giveCredits (setupSession0 s)))))

/-- PACKAGE_WAKE: WAKE_IN held high for 1 µs, store time at PWR_WAKEAT, or both in one REFCLK period. -/
def execPackageWake (pin : Bool) (time : Bool) (s : State) : Res :=
  let w := rget s (girdle 0x110)
  gate (s.pwr.asleep && (pin || time) && (!pin || bit w 0) && (!time || bit w 1))
    (let s := if time then advanceTick (rget s (girdle 0x118)).toNat s else s
     leaveP3 (b2n pin + 2 * b2n time) s)

/-! ### Resets (R549 to R553) -/

/-- POWER_ON: what the ledger had not committed is lost (R498). -/
def execPowerOn (s : State) : Res :=
  let s := losePending s
  .next (packageReset 1 (setLedger { s.ledger with flush := false } s))
def execRstNAssert (s : State) : Res := .next (packageReset 2 s)
def execRefclkLoss (s : State) : Res := .next (packageReset 3 s)
def execPllLockLoss (s : State) : Res := .next (packageReset 4 s)
def execSupplyTrip (s : State) : Res := .next (packageReset 5 s)

/-- The reset of a thermal trip is held (R556). -/
def thermalReset (s : State) : State :=
  let s := packageReset 6 s
  setPwr { s.pwr with holdReset := true } s
def execThermalTrip (s : State) : Res := .next (thermalReset s)

/-- The FCLK at which the watchdog expires (R553). -/
def watchdogAt (s : State) : Nat := s.pwr.kicked + rfld s (girdle 0x108) 0 10 * msFclk
def execWatchdogExpiry (s : State) : Res := gateAt s.pwr.running (watchdogAt s) s (packageReset 7)

def kick (s : State) : State := setPwr { s.pwr with kicked := s.fclk } s
def execWatchdogKick (s : State) : Res := .next (kick s)

/-- PACKAGE_RESET with a cause of R551; that of RESET comes 10 ms after its SUCCESS (R430), that of the watchdog when it
expires. -/
def execPackageReset (cause : BitVec 8) (s : State) : Res :=
  match cause.toNat with
  | 1 | 2 | 3 | 4 | 5 | 9 | 10 => .next (packageReset cause.toNat s)
  | 6 => .next (thermalReset s)
  | 7 => gateAt s.pwr.running (watchdogAt s) s (packageReset 7)
  | 8 => match s.pwr.resetAt with
    | some f => gateAt true f s (packageReset 8)
    | none => .refused .notEnabled
  | _ => .refused .notEnabled

/-! ### Monitors (R556) -/

/-- The junction limit Tj,max in m°C. -/
def tjMax (s : State) : Int := if s.ident.grade = 0x49 then 105000 else 95000
def sensorKind (i : Nat) : Nat := if i < 32 then 0 else if i < 52 then 1 else 2
/-- Nominal voltage in mV of the rails 32 to 43 (R559). -/
def railNominal (i : Nat) : Int :=
  if i < 37 then 750 else match i with | 37 | 38 => 800 | 39 => 1200 | 40 => 1100 | 41 => 850 | 42 => 1200 | _ => 1800
def railOutside (i : Nat) (v : Int) : Bool :=
  decide (v * 100 < railNominal i * 97) || decide (railNominal i * 103 < v * 100)
/-- The warning limit of a current in mA (R556, R560). -/
def currentLimit (i : Nat) : Int := if i < 56 then 37500 else if i = 56 then 20000 else 18000
/-- Outside nominal ± 7 %: the window of the supply trip (R556). -/
def railTripped (i : Nat) (v : Int) : Bool :=
  decide (v * 100 < railNominal i * 93) || decide (railNominal i * 107 < v * 100)
def sensorReg (i : Nat) : Nat := girdle (0x2000 + 8 * i)
def reading (s : State) (i : Nat) : Int := sgn 32 (rfld s (sensorReg i) 32 32)

/-- A rail of sensors 32 to 43 that was sampled reads outside its trip window. -/
def railOut (s : State) : Bool := (List.range 44).any fun i => decide (32 ≤ i) && tget 0 s.pwr.sampled i != 0 && railTripped i (reading s i)

/-- Whether a reading passes the warning limit; a rail's, when the sample before did so too (100 µs). DESIGN CHOICE, log entry 63. -/
def warns (s : State) (i : Nat) (v : Int) : Bool :=
  if i < 32 then decide (tjMax s - 5000 < v)
  else if i < 44 then railOutside i v && tget 0 s.pwr.sampled i != 0 && railOutside i (reading s i)
  else if i < 52 then false
  else decide (currentLimit i < v)

/-- A sensor's sample (R556). DESIGN CHOICE, log entry 63. -/
def sensorSample (i : Nat) (v : BitVec 32) (s : State) : State :=
  let w := warns s i v.toInt
  let was := railOut s
  let s := if w then rbitSet (girdle 0x120) i true s else s
  let s := rset (sensorReg i) (BitVec.ofNat 64 (v.toNat * 2 ^ 32 + sensorKind i * 2 ^ 16 + i)) s
  let cool := (List.range 32).all fun j => decide (reading s j < tjMax s - 10000)
  let s := setPwr { s.pwr with sampled := tset 0 s.pwr.sampled i s.fclk, coolAt := if cool then some (s.pwr.coolAt.getD s.fclk) else none } s
  if railOut s || was then setPwr { s.pwr with railAt := some s.fclk } s else s
def execSensorSample (i : Fin 58) (v : BitVec 32) (s : State) : Res :=
  .next (sensorSample i v (advanceTo (tget 0 s.pwr.sampled i + 100 * usFclk) s))

/-- A steward write to the power block (R548, R552, R553, R556). -/
def pwrWrite (o : Nat) (v : BitVec 64) (s : State) : State :=
  if o = 0x108 then
    let s := if bit v 63 then kick s else s
    if 100 ≤ fld v 0 10 ∧ fld v 0 10 ≤ 1000 then rput (girdle o) 0 10 (fld v 0 10) s else s
  else if o = 0x110 then rput (girdle o) 0 2 (fld v 0 2) s
  else if o = 0x118 then rset (girdle o) v s
  else if o = 0x120 then rw1c (girdle o) 0x03FFFFFFFFFFFFFF v s
  else if 0x200 ≤ o ∧ o < 0x300 ∧ o % 16 = 0 then rbitSet (girdle o) 62 (bit v 62) s
  else if 0x1000 ≤ o ∧ o < 0x1130 then dctlWrite ((o - 0x1000) / 8) v s
  else s

/-! ### Seam replays (R15) -/

/-- A replay on the seam of die d: a failure within 48 FCLK of the replay before is one of the same flit. DESIGN CHOICE, log entry 6. -/
def seamReplay (d : Nat) (s : State) : State :=
  let (n, at_) := tget (0, 0) s.pwr.seams d
  let n := if n ≠ 0 ∧ s.fclk ≤ at_ + 48 then n + 1 else 1
  let s := setPwr { s.pwr with seams := tset (0, 0) s.pwr.seams d (n, s.fclk) } s
  let s := logEvents 16 [⟨6, 6, d, 0, 0, 0, false, false⟩] (raiseSteward 316 s)
  if 8 ≤ n then packageReset 9 s else s
def execSeamReplay (d : Fin 6) (s : State) : Res := .next (seamReplay d s)

end Sys2Proof.Machine
end

