-- ==== Sys2Proof/Machine/GlebyOps.lean ====
section
/-! DEFINITION. How Gleby takes, checks and finishes a command (R401, R406 to R411, R415, R419 to R426). -/
namespace Sys2Proof.Machine

/-! ### Status codes (R411) -/

def stOk : Nat := 0
def stCommand : Nat := 1
def stField : Nat := 2
def stLength : Nat := 3
def stTransfer : Nat := 4
def stAuth : Nat := 5
def stDenied : Nat := 6
def stBusy : Nat := 7
def stNotFound : Nat := 8
def stWrong : Nat := 9
def stExhausted : Nat := 10
def stTimeout : Nat := 11
def stAborted : Nat := 12
def stRefused : Nat := 13
def stLocked : Nat := 14
def stSignature : Nat := 15
def stVersion : Nat := 16
def stPower : Nat := 17
def stLedger : Nat := 18
def stFabric : Nat := 19
def stUnsupported : Nat := 21

/-- The commands of Gleby 4.2 with their time limits in ms (R419, R427 to R459). -/
def cmdTable : List (Nat × Nat) :=
  [(0x0001, 100), (0x0002, 100), (0x0003, 100), (0x0004, 100), (0x0005, 10), (0x0008, 100), (0x0009, 1000), (0x000A, 100),
   (0x0101, 10), (0x0102, 10), (0x0103, 100), (0x0104, 100), (0x0105, 100),
   (0x0201, 100), (0x0202, 100), (0x0203, 10000), (0x0204, 100), (0x0205, 100), (0x0206, 100), (0x0208, 100), (0x0209, 100),
   (0x020A, 10000)] ++
  [(0x0301, 100), (0x0302, 100), (0x0303, 100), (0x0304, 100), (0x0305, 10), (0x0306, 100), (0x0307, 100), (0x0308, 100),
   (0x0309, 100), (0x030A, 100), (0x0401, 100), (0x0402, 100), (0x0403, 100), (0x0404, 100), (0x0405, 100)] ++
  [(0x0501, 100), (0x0502, 100), (0x0503, 100), (0x0504, 100), (0x0505, 100), (0x0506, 100), (0x0508, 1000), (0x0509, 100),
   (0x050A, 100), (0x050B, 1), (0x050C, 100), (0x050D, 4000), (0x050E, 1000)] ++
  [(0x0601, 100), (0x0602, 1), (0x0603, 100), (0x0604, 100), (0x0605, 1), (0x0606, 100),
   (0x0701, 10000), (0x0702, 1000), (0x0703, 100), (0x0704, 100), (0x0705, 100), (0x0706, 100), (0x0707, 100), (0x0708, 100)] ++
  [(0x0801, 100), (0x0802, 1000), (0x0803, 100), (0x0804, 100), (0x0805, 100),
   (0x0901, 100), (0x0902, 1000), (0x0903, 1000), (0x0904, 100), (0x0905, 100),
   (0x0A01, 100), (0x0A02, 10), (0x0A03, 100), (0x0B01, 100), (0x0B02, 10000), (0x0B03, 100), (0x0B04, 100)]

def knownCmd (c : Nat) : Bool := cmdTable.any fun p => p.1 == c
def cmdLimit (c : Nat) : Nat := ((cmdTable.find? fun p => p.1 == c).map (·.2)).getD 10000

/-! ### Entries (R406, R415) -/

def Cmd.code (c : Cmd) : Nat := fld c.entry 0 16
def Cmd.isHost (c : Cmd) : Bool := match c.src with | .host _ => true | .facet _ _ => false
def Cmd.queue (c : Cmd) : Option Nat := match c.src with | .host q => some q | .facet _ _ => none
def Cmd.ofFacet (c : Cmd) : Option Nat := match c.src with | .host _ => none | .facet n _ => some n
def Cmd.cid (c : Cmd) : Nat := if c.isHost then fld c.entry 32 16 else fld c.entry 16 16
def Cmd.plen (c : Cmd) : Nat := if c.isHost then fld c.entry 24 8 else fld c.entry 32 8
def Cmd.auth (c : Cmd) : Nat := fld c.entry 48 16
def Cmd.fence (c : Cmd) : Bool := c.isHost && bit c.entry 16
/-- PARAM; bytes from PLEN on read as 0. -/
def Cmd.param (c : Cmd) : Nat := c.entry.toNat / 2 ^ (if c.isHost then 192 else 64) % 2 ^ (8 * min c.plen (if c.isHost then 40 else 24))
def Cmd.dptr (c : Cmd) : Nat := if c.isHost then fld c.entry 64 64 else c.param / 2 ^ 128 % 2 ^ 48
def Cmd.dlen (c : Cmd) : Nat := if c.isHost then fld c.entry 128 32 else c.param / 2 ^ 176 % 2 ^ 16 * 16

/-- The byte offset of the lowest reserved bit that is 1 (check 2). DEDUCED, log entry 45. -/
def Cmd.reservedAt (c : Cmd) : Option Nat :=
  let v := c.entry.toNat
  let any (lo w : Nat) : Bool := v / 2 ^ lo % 2 ^ w != 0
  if c.isHost then
    if any 17 7 then some 2 else if c.cid = 0xFFFF then some 4
    else (List.range 4).foldr (fun i r => if any (160 + 8 * i) 8 then some (20 + i) else r) none
  else (List.range 3).foldr (fun i r => if any (40 + 8 * i) 8 then some (5 + i) else r) none

/-- Where PARAM begins in the entry. -/
def Cmd.paramAt (c : Cmd) : Nat := if c.isHost then 0x18 else 8

/-! ### Principals -/

/-- The open principal session of a handle (R428). -/
def session (s : State) (h : Nat) : Option PSess :=
  s.gly.prins.find? fun p => p.handle == h && decide (s.fclk < p.at_ + 600000 * msFclk)

/-- A command as checked: principal (none for AUTH = 0), the facet with its K, the buffer, what the row brings. -/
structure Call where
  prin : Option Nat
  facet : Option (Nat × KReg)
  par : Nat
  dptr : Nat
  dlen : Nat
  data : List Byte
  linkOk : Bool
  ext : List (BitVec 64)
  id : Nat
  auth : Nat
  deriving DecidableEq, Repr

/-- Bytes [o, o + n) of PARAM as a number. -/
def Call.p (c : Call) (o n : Nat) : Nat := c.par / 2 ^ (8 * o) % 2 ^ (8 * n)
/-- The caller's principal; 0xFF where there is none. -/
def Call.who (c : Call) : Nat := c.prin.getD 0xFF

/-- A command's row in its table: code; principals (R422); consumable issuers; AUTH = 0 accepted; facets; fields (offset, bytes);
the lengths its buffer may have, where it has one; whether Gleby reads the buffer. -/
structure CmdSpec where
  code : Nat
  who : List Nat
  issuers : Bool := false
  zero : Bool := false
  facets : Bool := false
  fields : List (Nat × Nat) := []
  buffer : Option (Nat × Nat × Nat) := none
  orNone : Bool := false
  input : Bool := false
  /-- FACET_LOAD: the buffer holds LEN bytes when SRC = 0, else there is none. -/
  load : Bool := false
  deriving DecidableEq, Repr

/-- The buffer length is one that the row accepts: a range and a unit, or 0 where the buffer is optional. -/
def CmdSpec.lenOk (sp : CmdSpec) (n : Nat) : Bool :=
  match sp.buffer with
  | none => n == 0
  | some (lo, hi, unit) => (sp.orNone && n == 0) || (decide (lo ≤ n ∧ n ≤ hi) && n % unit == 0)

def CmdSpec.endField (sp : CmdSpec) : Nat := sp.fields.foldl (fun m f => max m (f.1 + f.2)) 0

/-- The first PARAM byte below PLEN that no field occupies and that is not 0 (R420). -/
def CmdSpec.strayByte (sp : CmdSpec) (c : Cmd) : Option Nat :=
  let fs := if c.isHost ∨ sp.buffer.isNone then sp.fields else (16, 8) :: sp.fields
  (List.range 40).find? fun i => !(fs.any fun f => decide (f.1 ≤ i ∧ i < f.1 + f.2)) && c.param / 2 ^ (8 * i) % 256 != 0

/-- The commands that a facet request of principal 4 may be (R476). -/
def partitionCmds : List Nat := [0x0001, 0x0002, 0x0104, 0x0201, 0x0402, 0x030A, 0x0803, 0x0901]

/-- Check 7: the principal may issue the command (R422, R476). -/
def CmdSpec.mayIssue (sp : CmdSpec) (c : Cmd) (prin : Option Nat) : Bool :=
  let listed := sp.zero || prin.any fun p => sp.who.contains p || (sp.issuers && decide (16 ≤ p ∧ p < 32))
  if c.isHost then listed
  else if prin = some 4 then sp.facets && partitionCmds.contains sp.code
  else sp.facets && listed

/-- Checks 2 to 5 of R408: STATUS and RESULT, or the call. DEDUCED, log entry 45. DEDUCED, log entry 46. -/
def checkEntry (sp : CmdSpec) (c : Cmd) (g : GIn) (s : State) : (Nat × Nat) ⊕ Call :=
  match c.reservedAt, sp.strayByte c with
  | some o, _ => .inl (stField, o)
  | none, some i => .inl (stField, c.paramAt + i)
  | none, none =>
    let sized := !sp.load || c.dlen == (if c.param / 2 ^ 64 % 2 ^ 64 = 0 then c.param / 2 ^ 128 % 2 ^ 32 else 0)
    if c.plen < sp.endField ∨ !sized ∨ (if c.isHost then 40 else 24) < c.plen ∨ !sp.lenOk (if sp.buffer.isNone ∧ !c.isHost then 0 else c.dlen)
        ∨ (c.isHost ∧ sp.buffer.isNone ∧ c.dptr ≠ 0) ∨ (c.isHost ∧ c.dlen ≠ 0 ∧ c.dptr % 16 ≠ 0) then .inl (stLength, 0)
    else
      let call (prin : Option Nat) (f : Option (Nat × KReg)) : Call :=
        { prin := prin, facet := f, par := c.param, dptr := c.dptr, dlen := if sp.buffer.isNone then 0 else c.dlen,
          data := g.data, linkOk := g.linkOk, ext := g.ext, id := c.id, auth := c.auth }
      match c.src with
      | .facet n k => if capLive s k then .inr (call (some (capPrin k.cap)) (some (n, k))) else .inl (stAuth, 0)
      | .host _ =>
        if c.auth = 0 then (if sp.zero then .inr (call none none) else .inl (stAuth, 0))
        else match session s c.auth with
          | none => .inl (stAuth, 0)
          | some p => if sp.input && c.dlen != 0 && !g.linkOk then .inl (stTransfer, 0) else .inr (call (some p.prin) none)

/-- A facet's buffer lies within its K, with W (R415). -/
def bufferOk (c : Call) : Bool :=
  match c.facet with
  | some (_, k) => c.dlen == 0 || (capHas k.cap permW && capCovers k.cap c.dptr c.dlen)
  | none => true

/-- How a command ends or waits: STATUS, RESULT, bytes for the buffer, what it waits for, and the objects it holds while it
waits (R424). -/
structure Reply where
  status : Nat := 0
  result : Nat := 0
  data : List Byte := []
  wait : CmdWait := .none
  held : List (Nat × Nat) := []
  deriving DecidableEq, Repr

def fail (st : Nat) (s : State) : Reply × State := ({ status := st }, s)
def failWith (st r : Nat) (s : State) : Reply × State := ({ status := st, result := r }, s)
def done (r : Nat) (s : State) : Reply × State := ({ result := r }, s)
def doneData (r : Nat) (bs : List Byte) (s : State) : Reply × State := ({ result := r, data := bs }, s)

/-- Where a field with an excluded value stands: in PARAM, or in the data buffer (R411). -/
inductive BadAt where
  | param (o : Nat)
  | buffer (o : Nat)
  deriving DecidableEq, Repr

/-! ### Objects (R424): kinds -/

def obFacet : Nat := 0
def obCrown : Nat := 1
def obGroup : Nat := 2
def obCell : Nat := 3
def obBlocker : Nat := 4
def obChan : Nat := 5
def obSession : Nat := 6
def obTime : Nat := 7
def obHat : Nat := 8
def obRoutes : Nat := 9
def obEpoch : Nat := 10
def obFabric : Nat := 11
def obLedger : Nat := 12
def obUpdate : Nat := 13

/-! ### Starting and finishing -/

def setCmd (c : Cmd) (s : State) : State :=
  setGly { s.gly with cmds := s.gly.cmds.map fun d => if d.id = c.id then c else d } s
def dropCmd (id : Nat) (s : State) : State :=
  setGly { s.gly with cmds := s.gly.cmds.filter (fun d => d.id != id), finished := s.gly.finished.filter fun i => i != id } s

/-- A command is finished with STATUS and RESULT. -/
def finishCmd (c : Cmd) (st r : Nat) (s : State) : State :=
  let s := setCmd { c with done := some (st, BitVec.ofNat 64 r), wait := .none, held := [] } s
  setGly { s.gly with finished := s.gly.finished ++ [c.id] } s

/-- A command that ends before its operation leaves nothing behind that would complete it: a BIND in its probe binds nothing. -/
def abandonWait (c : Cmd) (s : State) : State :=
  match c.wait with
  | .measured p 2 => setGly { s.gly with binds := s.gly.binds.filter fun b => b.1 != p } s
  | _ => s

/-- Commands of one queue start in order; a fenced one after all before it have posted, and none after it until it has (R401). -/
def mayStart (s : State) (c : Cmd) : Bool :=
  c.start.isNone && c.done.isNone &&
    match c.src with
    | .host q => (s.gly.cmds.filter fun d => d.src == .host q && decide (d.id < c.id)).all fun d =>
        !c.fence && !d.fence && (d.start.isSome || d.done.isSome)
    | .facet _ _ => true

/-- An object that another command holds (R424). DEDUCED, log entry 47. -/
def objectsFree (s : State) (c : Cmd) (obs : List (Nat × Nat)) : Bool :=
  s.gly.cmds.all fun d => d.id == c.id || !(d.held.any fun o => obs.contains o)

/-- Bytes to the buffer: host memory, or a facet's buffer in the package (R402, R422). -/
def putData (c : Call) (bs : List Byte) (s : State) : State :=
  let bs := bs.take c.dlen
  if bs.isEmpty then s else
  match c.facet with
  | some _ => writeMem .steward c.dptr bs s
  | none => emit (.hostWrite c.dptr bs) s

/-- A command that names a session keeps it open (R428). -/
def touchSession (c : Cmd) (s : State) : State :=
  let go (p : PSess) : PSess := if c.isHost ∧ p.handle = c.auth ∧ (session s c.auth).isSome then { p with at_ := s.fclk } else p
  setGly { s.gly with prins := s.gly.prins.map go } s

/-- The reply of a body: data out, then the end or the wait. -/
def settle (c : Cmd) (call : Call) (r : Reply) (s : State) : State :=
  let c := { c with start := some s.fclk }
  if r.wait ≠ .none then setCmd { c with wait := r.wait, held := r.held } s
  else if !call.linkOk && call.facet.isNone && !r.data.isEmpty then finishCmd c stTransfer 0 s
  else finishCmd c r.status r.result (putData call r.data s)

/-- The buffer of a facet's command lies in a store of a crown at P2, where every access waits (R249). -/
def bufferAsleep (c : Call) (s : State) : Bool := c.facet.isSome && c.dlen != 0 && (crownAt c.dptr).any fun k => domGone s k

/-- A command starts: its checks in the order of R408, then its effect. `bad` is check 6 (the place of a field with an
excluded value), `deny` check 7 on the object, `obs` what it changes (R424). -/
def runCmd (sp : CmdSpec) (bad : Call → State → Option BadAt) (deny : Call → State → Bool) (obs : Call → List (Nat × Nat))
    (body : Call → State → Reply × State) (g : GIn) (s : State) : Res :=
  match s.gly.cmds.find? fun c => c.id == g.id with
  | none => .refused .notEnabled
  | some c =>
    if c.code ≠ sp.code ∨ !mayStart s c ∨ !s.pwr.running then .refused .notEnabled
    else
      let g := if sp.input then { g with data := padTo c.dlen g.data } else g
      let st (a : Nat) (r : Nat) : Res := .next (finishCmd { c with start := some s.fclk } a r (touchSession c s))
      match checkEntry sp c g s with
      | .inl (a, r) => st a r
      | .inr call =>
        if bufferAsleep call s then .refused .notEnabled
        else if sp.input && c.dlen != 0 && !g.linkOk then st stTransfer 0
        else match bad call s with
        | some (.param o) => st stField (c.paramAt + o)
        | some (.buffer o) => st stField (o % 2 ^ 16)
        | none =>
          if !sp.mayIssue c call.prin || !bufferOk call || deny call s then st stDenied 0
          else if !objectsFree s c (obs call) then .refused .notEnabled
          else
            let (r, s') := body call (touchSession c s)
            .next (settle c call r s')

def noBad (_ : Call) (_ : State) : Option BadAt := none
def noDeny (_ : Call) (_ : State) : Bool := false
def noObs (_ : Call) : List (Nat × Nat) := []

/-- The first of some conditions that holds gives the PARAM offset of its field. -/
def firstBad (l : List (Bool × Nat)) : Option BadAt := (l.find? (·.1)).map fun p => .param p.2

/-- A list of records from START on, as R426 returns it. -/
def listReply (c : Call) (start size : Nat) (recs : List (List Byte)) (s : State) : Reply × State :=
  let out := (recs.drop start).take (c.dlen / size)
  doneData (out.length + recs.length * 2 ^ 32) out.flatten s

def le (n v : Nat) : List Byte := natBytes n v

/-- The ledger refuses commands that need a commit while the power-fail warning stands (R557). DEDUCED, log entry 50. -/
def pfw (s : State) : Bool := rbit s (girdle 0x120) 63

/-- Line of the next record of a trail. -/
def nextAudit (legal : Bool) (s : State) : Nat :=
  regionLine (if legal then 1 else 2) + (if legal then s.ledger.legal else s.ledger.general) % 8192

/-- Post an asynchronous event of an enabled class: into the event queue, or dropped and counted (R405). -/
def postEvent (cls : Nat) (data : BitVec 64) (s : State) : State :=
  if !bit s.gly.mask cls then s
  else if s.gly.evq.length < 256 then setGly { s.gly with evq := s.gly.evq ++ [(cls, data)] } s
  else setGly { s.gly with dropped := s.gly.dropped + 1 } s

/-- A principal that the bezel mints capabilities for and that may be given bytes: the ranges of R423 for M and O. -/
def inRange (a len lo hi : Nat) : Bool := decide (lo ≤ a) && decide (a + len ≤ hi)
/-- The steward reserve ends here (R423). -/
def reserveEnd : Nat := 0x10000000

/-- Bytes that R423 lets M and O be given, with these permissions. -/
def grantable (s : State) (perm a len : Nat) : Bool :=
  let has (p : Nat) : Bool := perm / 2 ^ p % 2 == 1
  let outside : Bool := !(sealActive s && decide (a < facetBase 2) && decide (facetBase 0 < a + max len 1))
  len == 0 || inRange a len reserveEnd (ddrTop s)
    || ((List.range 128).any (fun n => inRange a len (facetBase n) (facetRegBase n)) && outside)
    || inRange a len (crownStoreBase 0) (crownStoreBase 16)
    || (List.range 16).any (fun c => inRange a len (crownReg c 0x4000) (crownReg c 0x8000)) || inRange a len (girdle 0x50000) (girdle 0x58000)
    || inRange a len (ctxAddr 0 0) (ctxAddr 16384 0) || inRange a len (sesReg 0) (sesReg 0x10000)
    || (has permTIME && (inRange a len (timReg 0) (timReg 0x10000) || inRange a len (hatReg 0) (hatReg 0x20000)))
    || (has permPORT && inRange a len (brim 0) (brim 0x10000000))
    || (has permDBG && (List.range 128).any fun n => inRange a len (facetRegBase n) (facetBase (n + 1)))

end Sys2Proof.Machine
end

