-- ==== Sys2Proof/Machine/GlebySystem.lean ====
section
/-! DEFINITION. The system and principal-session commands (R427 to R431, R462, R466). -/
namespace Sys2Proof.Machine

def pH : Nat := 0
def pM : Nat := 1
def pO : Nat := 2
def pI : Nat := 3

/-- GET_VERSION. DESIGN CHOICE, log entry 67. -/
def getVersion (_ : Call) (s : State) : Reply × State :=
  done (0x1024 * 2 ^ 48 + 0xB0 * 2 ^ 40 + s.ident.grade.toNat * 2 ^ 32 + 0x0402 * 2 ^ 16 + 0x0207) s
def execGetVersion (g : GIn) (s : State) : Res :=
  runCmd { code := 0x0001, who := [], zero := true, facets := true } noBad noDeny noObs getVersion g s

def hostInProgress (s : State) : Nat := (s.gly.cmds.filter Cmd.isHost).length

/-- The principal sessions that have not been idle for 600 s (R428). -/
def livePrins (s : State) : List PSess := s.gly.prins.filter fun p => decide (s.fclk < p.at_ + 600000 * msFclk)

/-- GET_STATUS. -/
def getStatus (_ : Call) (s : State) : Reply × State :=
  done (b2n (rbit s (mbxReg 0x800) 32) + 2 * b2n (sealActive s) + 4 * b2n s.fabric.joined + 8 * b2n (rbit s (timReg 0x40) 0)
    + 16 * b2n (rbit s (timReg 0x40) 1) + localPkg s * 2 ^ 8
    + (livePrins s).length * 2 ^ 16 + hostInProgress s * 2 ^ 24
    + ddrTop s / 2 ^ 30 * 2 ^ 48) s
def execGetStatus (g : GIn) (s : State) : Res :=
  runCmd { code := 0x0002, who := [], zero := true, facets := true } noBad noDeny noObs getStatus g s

/-- EVENT_ENABLE (R431). -/
def eventEnable (c : Call) (s : State) : Reply × State :=
  done s.gly.mask.toNat (setGly { s.gly with mask := BitVec.ofNat 64 (c.p 0 8) } s)
def execEventEnable (g : GIn) (s : State) : Res :=
  runCmd { code := 0x0003, who := [pM, pO], fields := [(0, 8)] } noBad noDeny noObs eventEnable g s

/-! ### ABORT (R429) -/

/-- The command that an ABORT names. -/
def abortTarget (c : Call) (s : State) : Option Cmd :=
  s.gly.cmds.find? fun d => d.src == .host (c.p 0 1) && d.cid == c.p 2 2 && d.id != c.id
/-- The issuer must be the command's principal, or M. -/
def abortDenied (c : Call) (s : State) : Bool :=
  match abortTarget c s with
  | some d => c.prin != some pM && c.prin != (session s d.auth).map (·.prin)
  | none => false
/-- Commands that are never aborted, and commands that have finished. -/
def neverAborted (d : Cmd) : Bool :=
  d.done.isSome || [0x0009, 0x0005, 0x0602, 0x0903, 0x0904].contains d.code || (d.code == 0x0B02 && d.start.isSome)
def abortCmd (c : Call) (s : State) : Reply × State :=
  match abortTarget c s with
  | none => fail stNotFound s
  | some d =>
    if neverAborted d then done 0 s
    else if d.start.isNone then done 1 (finishCmd d stAborted 0 s)
    else
      let (v, s) := drawFree s
      done 1 (finishCmd d stAborted v.toNat (abandonWait d s))
def execAbort (g : GIn) (s : State) : Res :=
  runCmd { code := 0x0004, who := [pM, pO], fields := [(0, 1), (2, 2)] } (fun c _ => firstBad [(decide (15 < c.p 0 1), 0)])
    abortDenied noObs abortCmd g s

/-! ### RESET (R430) -/

def resetBad (c : Call) (_ : State) : Option BadAt :=
  firstBad [(decide (2 < c.p 0 1), 0), (c.p 0 1 == 0 && decide (127 < c.p 1 1), 1), (c.p 0 1 == 1 && decide (15 < c.p 1 1), 1)]
def resetBody (c : Call) (s : State) : Reply × State :=
  let i := c.p 1 1
  match c.p 0 1 with
  | 0 => if inPartition s i then fail stLocked s else done 0 (facetReset i 5 0 s)
  | 1 =>
    if sealActive s && i == 0 then fail stLocked s
    else done 0 (crownReset i 0x21 (if domState s i = 3 then wakeDone i s else s))
  | _ => done 0 s
def resetObs (c : Call) : List (Nat × Nat) :=
  match c.p 0 1 with | 0 => [(obFacet, c.p 1 1)] | 1 => [(obCrown, c.p 1 1)] | _ => []
def execResetCmd (g : GIn) (s : State) : Res :=
  runCmd { code := 0x0005, who := [pH, pM], fields := [(0, 1), (1, 1)] } resetBad noDeny resetObs resetBody g s

/-! ### Principal sessions (R428, R462, R466) -/

def hasRoot (s : State) (p : Nat) : Bool := p == 0 || s.bez.roots.contains p
def nonceLife : Nat := 60000 * msFclk
def liveNonces (s : State) : List Nonce := s.gly.nonces.filter fun n => decide (s.fclk < n.at_ + nonceLife)

/-- 48 free bytes. -/
def freeBytes : Nat → State → List Byte × State
  | 0, s => ([], s)
  | k + 1, s => let (v, s) := drawFree s; let (bs, s) := freeBytes k s; (natBytes 8 v.toNat ++ bs, s)

/-- AUTH_CHALLENGE. -/
def authChallenge (c : Call) (s : State) : Reply × State :=
  if !hasRoot s (c.p 0 1) then fail stNotFound s
  else if 16 ≤ (liveNonces s).length then fail stExhausted s
  else
    let (bs, s) := freeBytes 6 s
    let id := s.gly.nextNonce
    doneData id bs (setGly { s.gly with nonces := liveNonces s ++ [⟨id, c.p 0 1, bs, s.fclk⟩], nextNonce := (id + 1) % 2 ^ 32 } s)
def execAuthChallenge (g : GIn) (s : State) : Res :=
  runCmd { code := 0x0008, who := [], zero := true, fields := [(0, 1)], buffer := some (48, 48, 1) } noBad noDeny noObs authChallenge g s

/-- The message that AUTH_OPEN verifies. -/
def authMessage (prin id : Nat) (nonce : List Byte) : List Byte :=
  [0x43, 0x48, 0x4E, 0x2D, 0x41, 0x55, 0x54, 0x48] ++ shaBytes Config.deviceKey 48 ++ natBytes 1 prin ++ natBytes 4 id ++ nonce

/-- AUTH_OPEN: a nonce serves one AUTH_OPEN (R428). DEDUCED, log entry 46. -/
def authOpen (c : Call) (s : State) : Reply × State :=
  if !hasRoot s (c.p 0 1) then fail stNotFound s
  else match (liveNonces s).find? fun n => n.id == c.p 4 4 with
  | none => fail stNotFound s
  | some n =>
    if pfw s then fail stLedger s
    else
    let s := setGly { s.gly with nonces := s.gly.nonces.filter fun m => m.id != n.id } s
    if !Config.verify s.bez.manSerial (c.p 0 1) (authMessage (c.p 0 1) n.id n.value) c.data then fail stSignature s
    else if 64 ≤ (livePrins s).length ∨ 0xFFFF < s.gly.nextHandle then fail stExhausted s
    else
      let h := s.gly.nextHandle
      let l := nextAudit false s
      let s := audit false 0x0102 (c.p 0 1) (natBytes 1 (c.p 0 1) ++ natBytes 2 h) s
      ({ wait := .lines [l] (600 * 2 ^ 32 + h) },
       (setGly { s.gly with prins := s.gly.prins ++ [⟨h, c.p 0 1, s.fclk⟩], nextHandle := h + 1 } s))
def execAuthOpen (g : GIn) (s : State) : Res :=
  runCmd { code := 0x0009, who := [], zero := true, fields := [(0, 1), (4, 4)], buffer := some (96, 96, 1), input := true }
    noBad noDeny noObs authOpen g s

/-- AUTH_CLOSE. -/
def authClose (c : Call) (s : State) : Reply × State :=
  done 0 (setGly { s.gly with prins := s.gly.prins.filter fun p => p.handle != c.auth } s)
def execAuthClose (g : GIn) (s : State) : Res :=
  runCmd { code := 0x000A, who := [pH, pM, pO, pI], issuers := true } noBad noDeny noObs authClose g s

/-- PRINCIPAL_SESSION_EXPIRY: 600 s without a command that names it. -/
def execPrincipalSessionExpiry (h : BitVec 16) (s : State) : Res :=
  match s.gly.prins.find? fun p => p.handle == h.toNat with
  | some p => gateAt s.pwr.running (p.at_ + 600000 * msFclk) s fun s =>
      setGly { s.gly with prins := s.gly.prins.filter fun q => q.handle != h.toNat } s
  | none => .refused .notEnabled

/-- NONCE_EXPIRY: 60 s. -/
def execNonceExpiry (id : BitVec 32) (s : State) : Res :=
  match s.gly.nonces.find? fun n => n.id == id.toNat with
  | some n => gateAt s.pwr.running (n.at_ + nonceLife) s fun s =>
      setGly { s.gly with nonces := s.gly.nonces.filter fun m => m.id != id.toNat } s
  | none => .refused .notEnabled

end Sys2Proof.Machine
end

