-- ==== Sys2Proof/Machine/GlebyPower.lean ====
section
/-! DEFINITION. The power and clock commands (R432, R433, R547, R548, R556). -/
namespace Sys2Proof.Machine

/-- CROWN_POWER: RESULT is the previous state; it waits for the change. -/
def crownPowerBad (c : Call) (_ : State) : Option BadAt :=
  firstBad [(decide (15 < c.p 0 1), 0), (decide (2 < c.p 1 1), 1), (decide (1 < c.p 2 1), 2)]
def crownPower (c : Call) (s : State) : Reply × State :=
  let d := c.p 0 1
  let t := c.p 1 1 + 1
  if dLocked s d t then fail stLocked s
  else
    ({ wait := .power d t (domState s d - 1), held := [(obCrown, d)] },
     dctlWrite d (BitVec.ofNat 64 (t * 16 + c.p 2 1 * 256)) s)
def execCrownPower (g : GIn) (s : State) : Res :=
  runCmd { code := 0x0101, who := [pM, pO], fields := [(0, 1), (1, 1), (2, 1)] } crownPowerBad noDeny
    (fun c => [(obCrown, c.p 0 1)]) crownPower g s

/-- The power domain of DOMAIN_POWER's DOMAIN. -/
def domainOf (x : Nat) : Nat := if x < 8 then 22 + x else if x < 10 then 12 + x else 36
/-- A domain that holds locked cells (R433). -/
def holdsLocked (s : State) (d : Nat) : Bool :=
  sealActive s && s.locks.cells.any fun p => brimDieOf p + 20 == d || groupOf p + 22 == d
/-- DOMAIN_POWER. -/
def domainPowerBad (c : Call) (_ : State) : Option BadAt :=
  firstBad [(decide (10 < c.p 0 1), 0), (decide (1 < c.p 1 1), 1), (decide (1 < c.p 2 1), 2)]
def domainPower (c : Call) (s : State) : Reply × State :=
  let d := domainOf (c.p 0 1)
  let t := if c.p 1 1 = 1 then 1 else 4
  if holdsLocked s d then fail stLocked s
  else if d = 36 ∧ t = 4 ∧ s.fabric.joined then fail stWrong s
  else
    ({ wait := .power d t 0, held := (withGroups d).map fun d => (obGroup, d) },
     dctlWrite d (BitVec.ofNat 64 (t * 16 + c.p 2 1 * 256)) s)
def execDomainPower (g : GIn) (s : State) : Res :=
  runCmd { code := 0x0102, who := [pM, pO], fields := [(0, 1), (1, 1), (2, 1)] } domainPowerBad noDeny
    (fun c => (withGroups (domainOf (c.p 0 1))).map fun d => (obGroup, d)) domainPower g s

/-- STANDBY: P3 follows 1 ms after SUCCESS is posted. -/
def standbyBad (c : Call) (_ : State) : Option BadAt := firstBad [(c.p 0 1 == 0 || decide (3 < c.p 0 1), 0)]
def standbyBody (c : Call) (s : State) : Reply × State :=
  if sealActive s then fail stLocked s
  else if pfw s then fail stLedger s
  else if (List.range 16).any fun d => dBusy s d then fail stBusy s
  else done 0 (rput (girdle 0x110) 0 2 (c.p 0 1) (rset (girdle 0x118) (BitVec.ofNat 64 (c.p 8 8)) s))
def execStandby (g : GIn) (s : State) : Res :=
  runCmd { code := 0x0103, who := [pM, pO], fields := [(0, 1), (8, 8)] } standbyBad noDeny noObs standbyBody g s

/-- POWER_STATUS: byte d is the state of domain d; bytes 38 to 63 are 0 (R537). -/
def powerStatus (_ : Call) (s : State) : Reply × State :=
  doneData 0 (((List.range 38).map fun d => BitVec.ofNat 8 (fld (dctlRead s d) 0 3)) ++ List.replicate 26 0) s
def execPowerStatus (g : GIn) (s : State) : Res :=
  runCmd { code := 0x0104, who := [pM, pO, pI], facets := true, buffer := some (64, 64, 1) } noBad noDeny noObs powerStatus g s

/-- SENSORS. -/
def sensors (c : Call) (s : State) : Reply × State :=
  listReply c (c.p 0 2) 8 ((List.range 58).map fun i => le 8 (rget s (sensorReg i)).toNat) s
def execSensors (g : GIn) (s : State) : Res :=
  runCmd { code := 0x0105, who := [pH, pM, pO], fields := [(0, 2)], buffer := some (8, 1048576, 1) } noBad noDeny noObs sensors g s

end Sys2Proof.Machine
end

