-- ==== Sys2Proof/Machine/GlebyTime.lean ====
section
/-! DEFINITION. The time and hatband commands (R434 to R436). -/
namespace Sys2Proof.Machine

/-- HW_REFUSED; RESULT gives the unit and its status bits in a form that no rule lays out: a free value. -/
def refusedFree (s : State) : Reply × State :=
  let (v, s) := drawFree s
  failWith stRefused v.toNat s

/-- TIME_GET. -/
def timeGet (_ : Call) (s : State) : Reply × State := done s.tb.tick s
def execTimeGet (g : GIn) (s : State) : Res :=
  runCmd { code := 0x0201, who := [pM, pO, pI], facets := true } noBad noDeny noObs timeGet g s

/-- TIME_SOURCE. -/
def timeSourceBad (c : Call) (_ : State) : Option BadAt :=
  firstBad [(decide (3 < c.p 0 1), 0), (decide (1 < c.p 1 1), 1), (decide (1 < c.p 2 1), 2)]
def timeSource (c : Call) (s : State) : Reply × State :=
  done 0 (rput (timReg 0) 0 2 (c.p 0 1) (rput (timReg 0) 6 1 (c.p 1 1) (rput (timReg 0) 7 1 (c.p 2 1)
    (setDisc { s.disc with delay := sgn 32 (c.p 4 4) } s))))
def execTimeSource (g : GIn) (s : State) : Res :=
  runCmd { code := 0x0202, who := [pM, pO], fields := [(0, 1), (1, 1), (2, 1), (4, 4)] } timeSourceBad noDeny
    (fun _ => [(obTime, 0)]) timeSource g s

/-- The servo owns store time (R435). -/
def servoOwns (s : State) : Bool := timSrc s == 1 || timSrc s == 3
/-- AT of TIME_STEP and HAT_SWAP: 0 means now + 1,200,000. -/
def atOf (at_ : Nat) (s : State) : Nat := if at_ = 0 then s.tb.tick + 1200000 else at_

/-- TIME_STEP: it completes when the step is applied. The arm is its change of the time base, so that another may re-arm (R435). DEDUCED, log
entry 47. -/
def timeStepBad (c : Call) (s : State) : Option BadAt :=
  let a := atOf (c.p 16 8) s
  firstBad [(decide (a < s.tb.tick + 6000 ∨ s.tb.tick + 9 * secondTicks < a), 16)]
def timeStep (c : Call) (s : State) : Reply × State :=
  if servoOwns s then fail stWrong s
  else
    let a := atOf (c.p 16 8) s
    let s := stepArm (rset (timReg 0x30) (BitVec.ofNat 64 a) (rset (timReg 0x28) (BitVec.ofNat 64 (c.p 8 8)) s))
    ({ wait := .step a }, s)
def execTimeStep (g : GIn) (s : State) : Res :=
  runCmd { code := 0x0203, who := [pM, pO], fields := [(8, 8), (16, 8)] } timeStepBad noDeny (fun _ => [(obTime, 0)]) timeStep g s

/-- TIME_RATE. -/
def timeRate (c : Call) (s : State) : Reply × State :=
  if servoOwns s then fail stWrong s
  else
    let r := sgn 32 (c.p 0 4)
    let s := rateWrite (c.p 0 4) s
    if 2147483 < r ∨ r < -2147483 then refusedFree s else done 0 s
def execTimeRate (g : GIn) (s : State) : Res :=
  runCmd { code := 0x0204, who := [pM, pO], fields := [(0, 4)] } noBad noDeny (fun _ => [(obTime, 0)]) timeRate g s

/-- PTP_CONFIG (R311). DEDUCED, log entry 49. -/
def ptpConfigBad (c : Call) (_ : State) : Option BadAt :=
  let out (o n lo hi : Nat) : Bool × Nat := (decide (c.p o n < lo ∨ hi < c.p o n), o)
  firstBad [(decide (1 < c.p 1 1), 1), (decide (sgn 8 (c.p 5 1) < -7 ∨ 0 < sgn 8 (c.p 5 1)), 5), out 6 2 100 1000, out 8 2 10 1000,
    out 10 1 4 255, out 11 1 2 64, out 12 4 1000 1000000000, out 16 4 10 10000]
def ptpConfig (c : Call) (s : State) : Reply × State :=
  let macs := BitVec.ofNat 8 (c.p 0 1)
  let profile := if c.p 1 1 = 1 then s.disc.profile ||| macs else s.disc.profile &&& ~~~macs
  done 0 (setDisc { s.disc with
    enabled := macs, profile := profile, domain := c.p 2 1, prio1 := c.p 3 1, prio2 := c.p 4 1,
    sync := 1000000000 / 2 ^ (0 - sgn 8 (c.p 5 1)).toNat, kp := c.p 6 2, ki := c.p 8 2, lockN := c.p 10 1, holdN := c.p 11 1,
    stepNs := c.p 12 4, lockNs := c.p 16 4 } s)
def execPtpConfig (g : GIn) (s : State) : Res :=
  runCmd { code := 0x0205, who := [pM, pO], fields := [(0, 1), (1, 1), (2, 1), (3, 1), (4, 1), (5, 1), (6, 2), (8, 2), (10, 1),
    (11, 1), (12, 4), (16, 4)] } ptpConfigBad noDeny (fun _ => [(obTime, 0)]) ptpConfig g s

/-- PTP_STATUS: the port state that the best master clock algorithm gives is a free value; the slave role is the MAC of the last
sample. DESIGN CHOICE, log entry 48. -/
def ptpStatus (_ : Call) (s : State) : Reply × State :=
  let (v, s) := drawFree s
  done (wrapN 32 ((s.disc.lastOffset * 5).tdiv 6) + v.toNat % 256 * 2 ^ 32 + rfld s (timReg 0x40) 0 2 * 2 ^ 40
    + s.disc.lastMac * 2 ^ 44) s
def execPtpStatus (g : GIn) (s : State) : Res :=
  runCmd { code := 0x0206, who := [pM, pO, pI] } noBad noDeny noObs ptpStatus g s

/-- TIMER_SET: TIM_LNEXT, TIM_LPER, TIM_LCTL (R318). -/
def timerSetBad (c : Call) (_ : State) : Option BadAt :=
  firstBad [(decide (511 < c.p 0 2), 0), (decide (1 < c.p 2 1), 2), (decide (1 < c.p 3 1), 3)]
def timerSet (c : Call) (s : State) : Reply × State :=
  let i := c.p 0 2
  if timerLocked s i then fail stLocked s
  else
    let bad1 := decide (c.p 4 4 < 2) && rfld s (ltim i 16) 0 2 == 3
    let bad2 := c.p 2 1 == 1 && c.p 3 1 == 1 && decide ((if bad1 then rfld s (ltim i 8) 0 32 else c.p 4 4) < 2)
    let s := timerAccept i 8 (BitVec.ofNat 64 (c.p 4 4)) (timerAccept i 0 (BitVec.ofNat 64 (c.p 8 8)) s)
    let s := timerAccept i 16 (BitVec.ofNat 64 (c.p 16 4 * 2 ^ 32 + c.p 2 1 * 2 + c.p 3 1)) s
    if bad1 || bad2 then refusedFree s else done 0 s
def execTimerSet (g : GIn) (s : State) : Res :=
  runCmd { code := 0x0208, who := [pM, pO], fields := [(0, 2), (2, 1), (3, 1), (4, 4), (8, 8), (16, 4)] } timerSetBad noDeny
    (fun _ => [(obTime, 0)]) timerSet g s

/-! ### The hatband (R436) -/

/-- A record of HAT_WRITE: its table is the sinks', its number, its value. -/
structure HatRec where
  sink : Bool
  num : Nat
  val : Nat
  deriving DecidableEq, Repr

def hatRecs (bs : List Byte) : List HatRec :=
  (List.range (bs.length / 8)).map fun i =>
    let v := leAt bs (8 * i) 8
    { sink := v / 2 ^ 16 % 2 == 1, num := v % 2 ^ 16, val := v / 2 ^ 32 % 2 ^ 16 }
def hatRecOut (r : HatRec) : Bool := if r.sink then decide (0x3200 ≤ r.num) else decide (0x2400 ≤ r.num)
/-- The record names a locked entry, or routes an unlocked source to a reserved event number (R425, R484). -/
def hatRecLocked (s : State) (r : HatRec) : Bool :=
  if r.sink then s.locks.hatSink.contains r.num
  else s.locks.hatSrc.contains r.num || (decide (0x8000 ≤ r.val) && s.locks.events.contains (r.val % 4096))
/-- Write an entry into a bank; entries that are not listed ignore writes (R320, R321). -/
def putHatRec (b : Nat) (r : HatRec) (s : State) : State :=
  if !(if r.sink then snkListed r.num else srcListed r.num) then s
  else girdlePut (hatBankBase b + (if r.sink then 0x7000 else 0) + 2 * r.num) (natBytes 2 (r.val / 0x8000 * 0x8000 + r.val % 4096)) s

/-- HAT_WRITE: every record is checked before any is written. -/
def hatWriteBad (c : Call) (_ : State) : Option BadAt :=
  match (hatRecs c.data).findIdx? hatRecOut with
  | some i => some (.buffer (8 * i))
  | none => firstBad [(decide (1 < c.p 0 1), 0)]
def hatWriteBody (c : Call) (s : State) : Reply × State :=
  let rs := hatRecs c.data
  if rs.any (hatRecLocked s) then fail stLocked s
  else if rbit s (hatReg 0) 2 then fail stWrong s
  else
    let l := hatLive s
    let s := if c.p 0 1 = 1 then setMem (copyBytes (hatBankBase l) (hatBankBase (1 - l)) 0xD800 s.mem) s else s
    done (rs.length + rs.length * 2 ^ 32) (rs.foldl (fun s r => putHatRec (1 - l) r s) s)
def execHatWrite (g : GIn) (s : State) : Res :=
  if rbit s (hatReg 0) 1 then .refused .notEnabled
  else runCmd { code := 0x0209, who := [pM, pO], fields := [(0, 1)], buffer := some (8, 524288, 8), input := true } hatWriteBad
    noDeny (fun _ => [(obHat, 0)]) hatWriteBody g s

/-- HAT_SWAP: it completes at the swap. The arm is its change, so that a second finds the swap armed (R436). DEDUCED, log entry 47. -/
def hatSwapBad (c : Call) (s : State) : Option BadAt := firstBad [(decide (atOf (c.p 0 8) s < s.tb.tick + 6000), 0)]
def hatSwapBody (c : Call) (s : State) : Reply × State :=
  if rbit s (hatReg 0) 2 then fail stWrong s
  else
    let a := atOf (c.p 0 8) s
    ({ wait := .hatSwap a }, hatArm (rset (hatReg 8) (BitVec.ofNat 64 a) s))
def execHatSwap (g : GIn) (s : State) : Res :=
  if rbit s (hatReg 0) 1 then .refused .notEnabled
  else runCmd { code := 0x020A, who := [pM, pO], fields := [(0, 8)] } hatSwapBad noDeny (fun _ => [(obHat, 0)]) hatSwapBody g s

end Sys2Proof.Machine
end

