-- ==== Sys2Proof/Machine/GlebyPorts.lean ====
section
/-! DEFINITION. The port, blocker and feed commands (R380, R437 to R439). -/
namespace Sys2Proof.Machine

def cellLocked (s : State) (p : Nat) : Bool := s.locks.cells.contains p
def bindOf (s : State) (p : Nat) : Option Bind := (s.gly.binds.find? fun b => b.1 == p).map (·.2)
/-- Protocols that take an even cell with its follower (R439). -/
def isPairProto (pr : Nat) : Bool := pr == 6 || pr == 10
/-- The cells that a binding holds. -/
def boundCells (p : Nat) (b : Bind) : List Nat := if isPairProto b.proto then [p, p + 1] else [p]
def cellBound (s : State) (p : Nat) : Bool := s.gly.binds.any fun b => (boundCells b.1 b.2).contains p

/-- GROUP_SET: HW_REFUSED when the group sets VERR. -/
def groupSetBad (c : Call) (_ : State) : Option BadAt :=
  firstBad [(decide (7 < c.p 0 1), 0), (decide (1 < c.p 1 1), 1), (decide (1 < c.p 2 1), 2)]
def groupSet (c : Call) (s : State) : Reply × State :=
  let g := c.p 0 1
  if holdsLocked s (22 + g) then fail stLocked s
  else if !groupUp s g then fail stPower s
  else
    let v := BitVec.ofNat 64 (c.p 2 1 + 2 * c.p 1 1)
    let verr := rbit (groupWrite g v (rbitSet (grpReg g 8) 18 false s)) (grpReg g 8) 18
    let s := groupWrite g v s
    if verr then failWith stRefused (rget s (grpReg g 8)).toNat s else done (rget s (grpReg g 8)).toNat s
def execGroupSet (g : GIn) (s : State) : Res :=
  runCmd { code := 0x0301, who := [pM, pO], fields := [(0, 1), (1, 1), (2, 1)] } groupSetBad noDeny
    (fun c => [(obGroup, 22 + c.p 0 1)]) groupSet g s

/-- Why a measurement with current or a step cannot start (R346, R438), or 0. -/
def senseDenied (s : State) (p : Nat) : Nat :=
  if cellLocked s p then stLocked
  else if !cellOn s p then stPower
  else if cellEn s p || rbit s (cellReg p 0) 6 then stWrong
  else 0
/-- Gleby starts a measurement and waits for its end; BUSY where another one runs in the cell. DESIGN CHOICE, log entry 48. -/
def startMeasure (p kind : Nat) (v : BitVec 64) (s : State) : Reply × State :=
  if rbit s (cellReg p 0x60) 62 then fail stBusy s else
  let s := (cellWrite p 0x60 (v ||| 0x8000000000000000) .steward s).2
  if rbit s (cellReg p 0x60) 62 then ({ wait := .measured p kind, held := [(obCell, p)] }, s) else refusedFree s

def cellBadField (c : Call) (_ : State) : Option BadAt := firstBad [(decide (1023 < c.p 0 2), 0)]
def probeBody (c : Call) (s : State) : Reply × State :=
  match senseDenied s (c.p 0 2) with
  | 0 => startMeasure (c.p 0 2) 0 0x0400000000000000 s
  | st => fail st s
/-- PROBE. -/
def execProbe (g : GIn) (s : State) : Res :=
  runCmd { code := 0x0302, who := [pM, pO], fields := [(0, 2)] } cellBadField noDeny (fun c => [(obCell, c.p 0 2)]) probeBody g s

/-- CABLE. -/
def cableBad (c : Call) (_ : State) : Option BadAt := firstBad [(decide (1023 < c.p 0 2), 0), (decide (1 < c.p 2 1), 2)]
def cableBody (c : Call) (s : State) : Reply × State :=
  match senseDenied s (c.p 0 2) with
  | 0 => startMeasure (c.p 0 2) 1 (BitVec.ofNat 64 (5 * 2 ^ 56 + c.p 2 1 * 2 ^ 60 + c.p 3 1 * 2 ^ 48)) s
  | st => fail st s
def execCable (g : GIn) (s : State) : Res :=
  runCmd { code := 0x0303, who := [pM, pO], fields := [(0, 2), (2, 1), (3, 1)] } cableBad noDeny
    (fun c => [(obCell, c.p 0 2)]) cableBody g s

/-! ### BIND and UNBIND -/

/-- RATE of a protocol within the limits of R380. -/
def rateOk (pr rate fmt : Nat) : Bool :=
  match pr with
  | 1 | 2 => decide (300 ≤ rate ∧ rate ≤ 3000000)
  | 4 => decide (10000 ≤ rate ∧ rate ≤ 1000000)
  | 5 => decide (1 ≤ rate ∧ rate ≤ 1000000)
  | 6 => decide (1 ≤ rate ∧ rate ≤ (if fmt % 2 = 0 then 25000000 else 12500000) ∧ 1200000000 / rate < 2 ^ 22)
  | 9 => decide (1200 ≤ rate ∧ rate ≤ 10000000)
  | _ => rate == 0
/-- FMT of a protocol within the limits of R380; bits that the table gives no meaning are 0. -/
def fmtOk (pr fmt : Nat) : Bool :=
  let f (lo w : Nat) : Nat := fmt / 2 ^ lo % 2 ^ w
  match pr with
  | 1 | 2 => decide (5 ≤ f 0 4 ∧ f 0 4 ≤ 9 ∧ f 4 3 ≤ 4 ∧ f 7 2 ≤ 2 ∧ fmt < 2 ^ 12)
  | 3 => decide (fmt < 8)
  | 4 => decide (f 3 29 = 0 ∧ f 32 32 ≤ 5000000)
  | 5 => decide (fmt < 2 ^ 10)
  | 6 => decide (fmt < 2 ^ 9 ∧ (4 ≤ f 3 5 ∨ f 3 5 = 0))
  | 7 => decide (fmt < 2)
  | 8 => decide (f 1 7 = 0 ∧ fmt < 2 ^ 16 ∧ (f 0 1 = 0 ∨ 1 ≤ f 8 8))
  | 9 => decide (fmt < 2 ^ 16)
  | _ => decide (f 1 7 = 0 ∧ fmt < 2 ^ 24 ∧ f 16 8 ≤ 32)

/-- Slots that a protocol needs (R380). -/
def librarySlots (pr : Nat) : Nat := match pr with | 3 => 2 | 4 => 4 | 10 => 4 | _ => 1
/-- The entry record of a protocol: the latest recorded patch of the blocker that has one, else the library's. DESIGN CHOICE, log entry 48. -/
def entryRecord (s : State) (b pr : Nat) : Nat × Nat :=
  s.ledger.patches.foldl (fun acc bs => match parsePatch bs with
    | some p => if p.mask / 2 ^ b % 2 = 1 then
        match p.ents.find? fun e => e.1 == pr with
        | some e => (e.2.1, e.2.2.1)
        | none => acc
      else acc
    | none => acc) (Config.libraryEntry pr % 2048, librarySlots pr)
/-- Slots of thread t in a wheel value. -/
def slotsIn (w : BitVec 64) (t : Nat) : Nat := ((List.range 16).filter fun i => fld w (4 * i) 4 == t).length
def wheelNow (s : State) (b : Nat) : BitVec 64 := blkRead s b 0x20

def bindBad (c : Call) (_ : State) : Option BadAt :=
  let pr := c.p 2 1
  firstBad [(decide (1023 < c.p 0 2) || (isPairProto pr && c.p 0 2 % 2 == 1), 0), (decide (pr < 1 ∨ 10 < pr), 2),
    (!rateOk pr (c.p 8 8) (c.p 16 8), 8), (!fmtOk pr (c.p 16 8), 16)]
def bindObs (c : Call) : List (Nat × Nat) :=
  [(obCell, c.p 0 2), (obBlocker, c.p 0 2 / 16)] ++ if isPairProto (c.p 2 1) then [(obCell, c.p 0 2 + 1)] else []
/-- BIND: its checks, then the probe. -/
def bindBody (c : Call) (s : State) : Reply × State :=
  let p := c.p 0 2
  let pr := c.p 2 1
  let b := blockerOf p
  let cells := if isPairProto pr then [p, p + 1] else [p]
  if cells.any (cellLocked s) || threadLocked s p then fail stLocked s
  else if !cellOn s p then fail stPower s
  else if cells.any (cellBound s) then fail stWrong s
  else if slotsIn (wheelNow s b) (p % 16) < (entryRecord s b pr).2 then fail stWrong s
  else if rfld s (blkReg b 0x18) 48 16 < 0x207 then fail stUnsupported s
  else match senseDenied s p with
    | 0 =>
      let (r, s) := startMeasure p 2 0x0400000000000000 s
      ({ r with held := bindObs c },
       (setGly { s.gly with
         binds := if r.wait = .none then s.gly.binds
           else s.gly.binds ++ [(p, ⟨pr, BitVec.ofNat 64 (c.p 8 8), BitVec.ofNat 64 (c.p 16 8), c.data⟩)] } s))
    | st => fail st s
def execBind (g : GIn) (s : State) : Res :=
  runCmd { code := 0x0304, who := [pM, pO], fields := [(0, 2), (2, 1), (8, 8), (16, 8)], buffer := some (1, 4096, 1), orNone := true,
           input := true } bindBad noDeny bindObs bindBody g s

/-- What BIND does after its probe: BITPER, OWNED, the thread's entry and start; its RESULT. -/
def bindFinish (p : Nat) (s : State) : Nat × State :=
  match bindOf s p with
  | none => (0, s)
  | some bd =>
    let b := blockerOf p
    let s := if bd.proto ∈ [1, 2, 6] then rput (cellReg p 0x10) 0 22 (1200000000 / bd.rate.toNat) s else s
    let s := (boundCells p bd).foldl (fun s q => rbitSet (cellReg q 0) 6 true s) s
    let s := startThread p (rput (blkReg b (0x100 + 32 * (p % 16))) 16 11 (entryRecord s b bd.proto).1 s)
    (p % 16 + b * 2 ^ 8 + rfld s (cellReg p 0x68) 24 4 * 2 ^ 24 + rfld s (cellReg p 0x68) 28 4 * 2 ^ 28, s)

/-- UNBIND: the thread stops at its next yield. -/
def unbindBody (c : Call) (s : State) : Reply × State :=
  let p := c.p 0 2
  if cellLocked s p then fail stLocked s
  else match bindOf s p with
    | none => fail stNotFound s
    | some _ => ({ wait := .unbinding p, held := [(obCell, p)] }, stopThread p s)
def execUnbind (g : GIn) (s : State) : Res :=
  runCmd { code := 0x0305, who := [pM, pO], fields := [(0, 2)] } cellBadField noDeny (fun c => [(obCell, c.p 0 2)]) unbindBody g s

/-- Sessions of a local cell that are OPEN. -/
def openSessions (s : State) (p : Nat) : List Nat :=
  ((List.range 16383).map (· + 1)).filter fun n =>
    ctxState s n == 1 && ctxFld s n 0 12 10 == p && ctxFld s n 0 22 8 == localPkg s
/-- UNBIND once the thread has stopped: OWNED cleared, the sessions of its cells closed. -/
def unbindFinish (p : Nat) (s : State) : State :=
  match bindOf s p with
  | none => s
  | some bd =>
    let s := (boundCells p bd).foldl (fun s q => rbitSet (cellReg q 0) 6 false s) s
    let s := setGly { s.gly with binds := s.gly.binds.filter fun b => b.1 != p } s
    (boundCells p bd).foldl (fun s q => (openSessions s q).foldl (fun s n => detach n s) s) s

/-! ### Wheel, threads, feeds -/

/-- A bound thread that a wheel leaves with too few slots. -/
def wheelShort (s : State) (b : Nat) (w : BitVec 64) : Bool :=
  s.gly.binds.any fun d => blockerOf d.1 == b && decide (slotsIn w (d.1 % 16) < (entryRecord s b d.2.proto).2)
/-- WHEEL. -/
def wheelBody (c : Call) (s : State) : Reply × State :=
  let b := c.p 0 1
  let w := BitVec.ofNat 64 (c.p 8 8)
  if wheelLocked s b w then fail stLocked s
  else if !spineOn s b then fail stPower s
  else if wheelShort s b w then fail stWrong s
  else done (wheelNow s b).toNat (wheelWrite b w s)
def blkBad (c : Call) (_ : State) : Option BadAt := firstBad [(decide (63 < c.p 0 1), 0)]
def execWheel (g : GIn) (s : State) : Res :=
  runCmd { code := 0x0306, who := [pM, pO], fields := [(0, 1), (8, 8)] } blkBad noDeny (fun c => [(obBlocker, c.p 0 1)]) wheelBody g s

def threadBad (c : Call) (_ : State) : Option BadAt := firstBad [(decide (63 < c.p 0 1), 0), (decide (15 < c.p 1 1), 1)]
/-- THREAD_STATUS. -/
def threadStatus (c : Call) (s : State) : Reply × State :=
  let x := thread s (16 * c.p 0 1 + c.p 1 1)
  doneData (tstatRead x).toNat (((List.range 8).map fun i => le 8 (windowRead x (8 * i)).toNat).flatten) s
def execThreadStatus (g : GIn) (s : State) : Res :=
  runCmd { code := 0x0307, who := [pH, pM, pO], fields := [(0, 1), (1, 1)], buffer := some (64, 64, 1), orNone := true } threadBad noDeny
    noObs threadStatus g s

/-- BLK_TCTL.ENTRY of a bound thread takes its bound entry (R438). -/
def boundEntry (t : Nat) (s : State) : State :=
  match bindOf s t with
  | some bd => rput (blkReg (t / 16) (0x100 + 32 * (t % 16))) 16 11 (entryRecord s (t / 16) bd.proto).1 s
  | none => s
/-- THREAD_RESTART. -/
def threadRestart (c : Call) (s : State) : Reply × State :=
  let t := 16 * c.p 0 1 + c.p 1 1
  if threadLocked s t then fail stLocked s
  else if !spineOn s (c.p 0 1) then fail stPower s
  else if (thread s t).state ≠ 0 ∧ (thread s t).state ≠ 3 then fail stWrong s
  else done 0 (startThread t (boundEntry t s))
def execThreadRestart (g : GIn) (s : State) : Res :=
  runCmd { code := 0x0308, who := [pM, pO], fields := [(0, 1), (1, 1)] } threadBad noDeny (fun c => [(obBlocker, c.p 0 1)])
    threadRestart g s

def feedBad (c : Call) (_ : State) : Option BadAt := firstBad [(decide (63 < c.p 0 1), 0), (decide (3 < c.p 1 1), 1)]
/-- FEED_SET: PFD_FCTL, then PFD_FLIM and PFD_FI2T.LIMIT; HW_REFUSED when the controller sets CFGERR. -/
def feedSet (c : Call) (s : State) : Reply × State :=
  let b := c.p 0 1
  let f := c.p 1 1
  if feedLocked s b f then fail stLocked s
  else if !feedOn s b then fail stPower s
  else
    let ctl := BitVec.ofNat 64 (c.p 4 4)
    let cfgErr := rbit (fctlWrite b f ctl .steward (rbitSet (pfdReg b 0) 24 false s)).2 (pfdReg b 0) 24
    let s := (fctlWrite b f ctl .steward s).2
    let s := rset (flim b f) (BitVec.ofNat 64 (c.p 8 2 + c.p 10 2 * 2 ^ 16 + c.p 12 2 * 2 ^ 32)) s
    let s := rput (fi2t b f) 0 32 (c.p 16 4) s
    let v := (rget s (pfdReg b 0)).toNat
    if cfgErr then failWith stRefused v s else done v s
def execFeedSet (g : GIn) (s : State) : Res :=
  runCmd { code := 0x0309, who := [pM, pO], fields := [(0, 1), (1, 1), (4, 4), (8, 2), (10, 2), (12, 2), (16, 4)] } feedBad noDeny
    (fun c => [(obBlocker, c.p 0 1)]) feedSet g s

/-- FEED_STATUS: reading PFD_FMEAS starts IPEAK again (R353). -/
def feedStatus (c : Call) (s : State) : Reply × State :=
  done (rget s (fmeas (c.p 0 1) (c.p 1 1))).toNat (fmeasRead (c.p 0 1) (c.p 1 1) s)
def execFeedStatus (g : GIn) (s : State) : Res :=
  runCmd { code := 0x030A, who := [pM, pO, pI], facets := true, fields := [(0, 1), (1, 1)] } feedBad noDeny noObs feedStatus g s

end Sys2Proof.Machine
end

