-- ==== Sys2Proof/Machine/GlebySessions.lean ====
section
/-! DEFINITION. The session commands (R440, R441). -/
namespace Sys2Proof.Machine

def sessionBad (c : Call) (_ : State) : Option BadAt := firstBad [(decide (c.p 0 2 < 1 ∨ 16383 < c.p 0 2), 0)]

/-- SES_CONFIG. -/
def sesConfig (c : Call) (s : State) : Reply × State := done s.ses.hold (setSes { s.ses with hold := c.p 0 4 } s)
def execSesConfig (g : GIn) (s : State) : Res :=
  runCmd { code := 0x0401, who := [pM, pO], fields := [(0, 4)] } (fun c _ => firstBad [(decide (3600 < c.p 0 4), 0)]) noDeny noObs
    sesConfig g s

/-- SES_INFO. -/
def sesInfo (c : Call) (s : State) : Reply × State :=
  let n := c.p 0 2
  if ctxState s n = 0 then fail stNotFound s
  else doneData (natAt s (ctxAddr n 0) 8) (bytesAt s (ctxAddr n 0) 128 ++ le 8 (b2n (tagAt s (ctxAddr n 0x30)))) s
def execSesInfo (g : GIn) (s : State) : Res :=
  runCmd { code := 0x0402, who := [pM, pO, pI], facets := true, fields := [(0, 2)], buffer := some (136, 136, 1), orNone := true }
    sessionBad noDeny noObs sesInfo g s

/-- The record that Gleby finds at address `a` of session 0's ring belongs to session n by the live routes, and has not been copied. -/
def zeroRecordFor (s : State) (n a : Nat) : Bool :=
  let w2 := natAt s (a + 16) 8
  let k := routeKey (w2 / 2 ^ 48 % 256) (w2 / 2 ^ 38 % 1024) (natAt s a 8 % 4096)
  natAt s a 8 / 2 ^ 30 % 2 == 0 && lookup s k == some (localPkg s, n)
/-- Gleby copies a record of session 0 into session n's ring with FWD = 1, and marks its own record as copied. -/
def forwardRecord (n a : Nat) (s : State) : State :=
  let dst := recordAddr s n
  if !zeroRecordFor s n a || ctxState s n != 1 || !ringOk s n dst || ringFull s n then s
  else
    let w := natBytes 8 (setBit (BitVec.ofNat 64 (natAt s a 8)) 30 true).toNat
    let s := writeMem .steward a w (writeMem .steward dst (w ++ bytesAt s (a + 8) 120) s)
    let s := ctxPut n 0x10 0 32 (ctxFld s n 0x10 0 32 + 1) s
    if ctxFld s n 0 60 1 = 1 then raiseEvent (ctxFld s n 0 48 12) s else s
/-- The records of session 0 that nobody has consumed. -/
def forwardZero (n : Nat) (s : State) : State :=
  let cons := ctxFld s 0 0x18 0 32
  let k := (ctxFld s 0 0x10 0 32 + 2 ^ 32 - cons) % 2 ^ 32
  (List.range (min k (2 ^ ringLog s 0))).foldl (fun s i =>
    forwardRecord n (ringBase s 0 + (cons + i) % 2 ^ ringLog s 0 * 128) s) s

/-- SES_RING: the ring, its capability for the caller, CONS := PROD. -/
def sesRingBad (c : Call) (s : State) : Option BadAt :=
  (sessionBad c s).orElse fun _ => firstBad [(decide (c.p 2 1 < 3 ∨ 15 < c.p 2 1), 2), (decide (1 < c.p 3 1), 3),
    (decide (4095 < c.p 4 2), 4), (c.p 8 8 % 128 != 0, 8)]
def sesRingDeny (c : Call) (s : State) : Bool := !grantable s (2 ^ permW) (c.p 8 8) (2 ^ c.p 2 1 * 128)
def sesRing (c : Call) (s : State) : Reply × State :=
  let n := c.p 0 2
  if ctxState s n = 0 then fail stNotFound s
  else if c.p 3 1 = 1 ∧ s.locks.events.contains (c.p 4 2) then fail stLocked s
  else
    let s := ctxPut n 8 7 41 (c.p 8 8 / 128) (ctxPut n 8 60 4 (c.p 2 1) s)
    let s := ctxPut n 0 60 1 (c.p 3 1) (ctxPut n 0 48 12 (c.p 4 2) s)
    let k := mkCap (epochOf s c.who) c.who 0 (2 ^ permW) (2 ^ c.p 2 1 * 8) (c.p 8 8)
    let s := setTag (ctxAddr n 0x30) true (girdlePut (ctxAddr n 0x30) (natBytes 16 k.toNat) s)
    done 0 (forwardZero n (ctxPut n 0x18 0 32 (ctxFld s n 0x10 0 32) s))
def execSesRing (g : GIn) (s : State) : Res :=
  runCmd { code := 0x0403, who := [pM, pO], fields := [(0, 2), (2, 1), (3, 1), (4, 2), (8, 8)] } sesRingBad sesRingDeny
    (fun c => [(obSession, c.p 0 2)]) sesRing g s

/-- SES_CLOSE: complete when DETACHED. -/
def sesClose (c : Call) (s : State) : Reply × State :=
  let n := c.p 0 2
  if ctxState s n = 0 then fail stNotFound s
  else if cellLocked s (ctxFld s n 0 12 10) && ctxFld s n 0 22 8 == localPkg s then fail stLocked s
  else ({ wait := .closed n, held := [(obSession, n)] }, if ctxState s n = 1 then detach n s else s)
def execSesClose (g : GIn) (s : State) : Res :=
  if rbit s (sesReg 0) 2 then .refused .notEnabled
  else runCmd { code := 0x0404, who := [pM, pO], fields := [(0, 2)] } sessionBad noDeny (fun c => [(obSession, c.p 0 2)]) sesClose g s

/-- SES_LIST: the sessions that are not FREE, in order. -/
def sesList (c : Call) (s : State) : Reply × State :=
  let ns := (List.range 16384).filter fun n => ctxState s n != 0
  listReply c (c.p 0 2) 16 (ns.map fun n => bytesAt s (ctxAddr n 0) 8 ++ bytesAt s (ctxAddr n 0x40) 8) s
def execSesList (g : GIn) (s : State) : Res :=
  runCmd { code := 0x0405, who := [pM, pO, pI], fields := [(0, 2)], buffer := some (16, 1048576, 1) } noBad noDeny noObs sesList g s

end Sys2Proof.Machine
end

