-- ==== Sys2Proof/Machine/GlebyFacets.lean ====
section
/-! DEFINITION. The facet and memory commands (R442 to R447), and the patrol. -/
namespace Sys2Proof.Machine

def facetBad (c : Call) (_ : State) : Option BadAt := firstBad [(decide (127 < c.p 0 1), 0)]
/-- The crown of a facet is at P2 or off. -/
def facetGone (s : State) (n : Nat) : Bool := domGone s (crownOf n)

/-- FACET_LOAD: from package memory, or from the buffer when SRC = 0. A crown at P2 or off excludes it, as the facet's or as the source's.
DEDUCED, log entry 47. -/
def facetLoadBad (c : Call) (_ : State) : Option BadAt :=
  firstBad [(decide (127 < c.p 0 1), 0), (c.p 4 4 % 16 != 0 || decide (0x40000 < c.p 4 4), 4),
    (c.p 16 4 % 16 != 0 || decide (0x40000 < c.p 4 4 + c.p 16 4), 16)]
def facetLoadDeny (c : Call) (s : State) : Bool := c.p 8 8 != 0 && !grantable s (2 ^ permR) (c.p 8 8) (c.p 16 4)
def facetLoad (c : Call) (s : State) : Reply × State :=
  let n := c.p 0 1
  if inPartition s n then fail stLocked s
  else if facetGone s n || (c.p 8 8 != 0 && (crownAt (c.p 8 8)).any fun k => domGone s k) then fail stPower s
  else if !facetHalted s n then fail stWrong s
  else
    let q := if c.p 8 8 = 0 then (c.data, s) else memoryRead (c.p 8 8) (c.p 16 4) (mendWords 2 (wordsIn (c.p 8 8) (c.p 16 4)) s)
    done 0 (writeMem .steward (codeBase n + c.p 4 4) q.1 (nextWrite q.2))
def execFacetLoad (g : GIn) (s : State) : Res :=
  runCmd { code := 0x0501, who := [pM, pO], fields := [(0, 1), (4, 4), (8, 8), (16, 4)], buffer := some (16, 262144, 1), orNone := true,
           input := true, load := true } facetLoadBad facetLoadDeny (fun c => [(obFacet, c.p 0 1)]) facetLoad g s

/-- The key entry that a context takes: its own, the lowest free one, else entry 15. -/
def keyEntry (f : Facet) (ctx : Nat) : Nat :=
  let e (i : Nat) : BitVec 64 := tget 0 f.pkey i
  match (List.range 16).find? fun i => bit (e i) 63 && fld (e i) 48 12 == ctx with
  | some i => i
  | none => ((List.range 16).find? fun i => !bit (e i) 63).getD 15
/-- FACET_RUN: XVB, CTX, HOLDMAX, a fresh key, RUN. -/
def facetRunBad (c : Call) (_ : State) : Option BadAt :=
  firstBad [(decide (127 < c.p 0 1), 0), (decide (4095 < c.p 2 2), 2), (decide (0 < c.p 4 2 ∧ c.p 4 2 < 64), 4)]
/-- DEDUCED, log entry 49. -/
def facetRunBody (c : Call) (s : State) : Reply × State :=
  let n := c.p 0 1
  if inPartition s n then fail stLocked s
  else if facetGone s n then fail stPower s
  else if !facetHalted s n then fail stWrong s
  else
    let (v, s) := drawFree s
    let set (f : Facet) : Facet :=
      { f with
        xvb := BitVec.ofNat 64 (c.p 8 8) &&& 0x3F001
        ctx := BitVec.ofNat 64 (c.p 2 2)
        holdmax := if c.p 4 2 = 0 then f.holdmax else BitVec.ofNat 64 (c.p 4 2)
        pkey := tset 0 f.pkey (keyEntry f (c.p 2 2)) (BitVec.ofNat 64 (2 ^ 63 + c.p 2 2 * 2 ^ 48 + v.toNat % 2 ^ 32)) }
    done 0 (facetRun n (updFacet n set s))
def execFacetRun (g : GIn) (s : State) : Res :=
  runCmd { code := 0x0502, who := [pM, pO], fields := [(0, 1), (2, 2), (4, 2), (8, 8)] } facetRunBad noDeny
    (fun c => [(obFacet, c.p 0 1)]) facetRunBody g s

/-- FACET_HALT: complete when HALTED = 1. -/
def facetHalt (c : Call) (s : State) : Reply × State :=
  let n := c.p 0 1
  if inPartition s n then fail stLocked s
  else if facetGone s n then fail stPower s
  else ({ wait := .halt n, held := [(obFacet, n)] }, updFacet n (fun f => { f with ctl := setBit f.ctl 0 false }) s)
def execFacetHalt (g : GIn) (s : State) : Res :=
  runCmd { code := 0x0503, who := [pM, pO], fields := [(0, 1)] } facetBad noDeny (fun c => [(obFacet, c.p 0 1)]) facetHalt g s

/-- FACET_REPORT: the latch is read and freed (R579). -/
def facetReport (c : Call) (s : State) : Reply × State :=
  let n := c.p 0 1
  let st := crownReg (crownOf n) 0x300
  let at_ (i : Nat) : Nat := crownReg (crownOf n) (0x100 + n % 8 * 0x40 + 8 * i)
  if !rbit s st (n % 8) then fail stNotFound s
  else doneData (rfld s (at_ 0) 8 8 + b2n (rbit s st (8 + n % 8)) * 2 ^ 8)
    (((List.range 8).map fun i => le 8 (rget s (at_ i)).toNat).flatten) (rw1c st (BitVec.ofNat 64 (257 * 2 ^ (n % 8))) (BitVec.allOnes 64) s)
def execFacetReport (g : GIn) (s : State) : Res :=
  runCmd { code := 0x0504, who := [pM, pO, pI], fields := [(0, 1)], buffer := some (64, 64, 1) } facetBad noDeny noObs facetReport g s

/-- The register block image; K registers and tag bits of a partition facet read 0 (R443). -/
def regImage (s : State) (n : Nat) : List Byte :=
  ((List.range 1024).map fun i =>
    le 8 (if inPartition s n ∧ 0x200 ≤ 8 * i ∧ 8 * i ≤ 0x400 then 0 else facetRegRead s n (8 * i)).toNat).flatten
/-- Write the image in offset order, up to the first register that the block refuses. -/
def writeImage (n : Nat) (bs : List Byte) : List Nat → State → Option Nat × State
  | [], s => (none, s)
  | o :: t, s =>
    if !facetRegAssigned o then writeImage n bs t s
    else match facetRegWrite n o (BitVec.ofNat 64 (leAt bs o 8)) .steward s with
      | some s => writeImage n bs t s
      | none => (some o, s)
/-- FACET_REGS. -/
def facetRegsBad (c : Call) (_ : State) : Option BadAt := firstBad [(decide (127 < c.p 0 1), 0), (decide (1 < c.p 1 1), 1)]
def facetRegs (c : Call) (s : State) : Reply × State :=
  let n := c.p 0 1
  if c.p 1 1 = 0 then doneData 0 (regImage s n) s
  else if inPartition s n then fail stLocked s
  else if facetGone s n then fail stPower s
  else if !facetHalted s n then fail stWrong s
  else match writeImage n c.data ((List.range 1024).map (8 * ·)) s with
    | (some o, s) => failWith stRefused o s
    | (none, s) => done 0 s
/-- Byte `o` of the PARAM of the command that a row names. -/
def paramByte (s : State) (id o : Nat) : Nat := ((s.gly.cmds.find? fun c => c.id == id).map fun c => c.param / 2 ^ (8 * o) % 256).getD 0
def execFacetRegs (g : GIn) (s : State) : Res :=
  runCmd { code := 0x0505, who := [pM], fields := [(0, 1), (1, 1)], buffer := some (8192, 8192, 1), input := paramByte s g.id 1 == 1 }
    facetRegsBad noDeny (fun c => if c.p 1 1 = 1 then [(obFacet, c.p 0 1)] else []) facetRegs g s

/-- CROWN_MODE. -/
def crownModeBad (c : Call) (_ : State) : Option BadAt := firstBad [(decide (15 < c.p 0 1), 0), (decide (1 < c.p 1 1), 1)]
def crownMode (c : Call) (s : State) : Reply × State :=
  let cr := c.p 0 1
  if sealActive s && cr == 0 then fail stLocked s
  else if domGone s cr then fail stPower s
  else if !crownQuiet s cr then fail stBusy s
  else done 0 (setCompat cr (c.p 1 1 == 1) s)
def execCrownMode (g : GIn) (s : State) : Res :=
  runCmd { code := 0x0506, who := [pM], fields := [(0, 1), (1, 1)] } crownModeBad noDeny (fun c => [(obCrown, c.p 0 1)]) crownMode g s

/-! ### Integrity -/

/-- HW_REFUSED with ITG_EVT when the engine refuses a write (R445). -/
def itgRefused (u : Nat) (s : State) : Reply × State := failWith stRefused (rget s (itgU u 8)).toNat s

/-- SCRUB: complete at SCRUBDONE. -/
def scrubValue (u st f first count : Nat) : BitVec 64 :=
  BitVec.ofNat 64 (2 ^ 63 + (if u < 16 then st * 2 ^ 60 + f * 2 ^ 57 else st * 2 ^ 57) + count * 2 ^ 32 + first)
def scrubBad (c : Call) (_ : State) : Option BadAt :=
  firstBad [(decide (16 < c.p 0 1), 0), (decide ((if c.p 0 1 = 16 then 31 else 3) < c.p 1 1), 1), (decide (7 < c.p 2 1), 2),
    (decide (2047 < c.p 4 2), 4), (decide (4095 < c.p 6 2), 6)]
def scrubBody (c : Call) (s : State) : Reply × State :=
  let u := c.p 0 1
  if u < 16 && domGone s u then fail stPower s
  else
    let ref := scrubBadStore u (c.p 1 1) || decide (scrubPages u (c.p 1 1) < c.p 4 2 + c.p 6 2) || (integ s u).scrub.isSome
    let s := scrubWrite u (scrubValue u (c.p 1 1) (c.p 2 1) (c.p 4 2) (c.p 6 2)) s
    if ref then itgRefused u s else ({ wait := .scrub u, held := [(obCrown, u)] }, s)
def execScrub (g : GIn) (s : State) : Res :=
  runCmd { code := 0x0508, who := [pH, pM, pO], fields := [(0, 1), (1, 1), (2, 1), (4, 2), (6, 2)], buffer := some (16, 16, 1),
           orNone := true } scrubBad noDeny (fun c => [(obCrown, c.p 0 1)]) scrubBody g s

/-- PATROL. -/
def patrolBad (c : Call) (_ : State) : Option BadAt :=
  firstBad [(c.p 0 4 != 0 && decide (c.p 0 4 < 60 ∨ 86400 < c.p 0 4), 0), (decide (1 < c.p 6 1), 6), (decide (1 < c.p 7 1), 7)]
def patrolBody (c : Call) (s : State) : Reply × State :=
  let v := BitVec.ofNat 64 (c.p 4 2 * 2 ^ 48 + c.p 8 2 * 2 ^ 32 + c.p 7 1)
  let s := (List.range 16).foldl (fun s u => itgWrite u 0 v s) s
  done 0 (setGly { s.gly with period := c.p 0 4, policy := c.p 6 1 } s)
def execPatrol (g : GIn) (s : State) : Res :=
  runCmd { code := 0x0509, who := [pM], fields := [(0, 4), (4, 2), (6, 1), (7, 1), (8, 2)] } patrolBad noDeny noObs patrolBody g s

/-- POLICY 1: Gleby retires the page of a word that the log of crown c marks HARD, with two free spares; else class 0x01. -/
def policyRetire (c : Nat) (s : State) : State :=
  let hard := (List.range 64).filter fun e => rbit s (logEntry c e) 63 && rbit s (logEntry c e) 60 && decide (rfld s (logEntry c e) 56 3 < 3) && rfld s (logEntry c e) 48 6 == 0
  hard.foldl (fun s e =>
    let a := rfld s (logEntry c e) 4 44 * 16
    let try_ (st f p : Nat) : State :=
      let l := pageLin st f p
      if (integ s c).redir.any (fun r => r.1 == l) || (integ s c).retiring == some l then s
      else if (freeSpares s c l).length < 2 || (integ s c).retiring.isSome then
        postEvent 1 (BitVec.ofNat 64 (c + rfld s (itgU c 8) 0 8 * 2 ^ 8)) s
      else postEvent 1 (BitVec.ofNat 64 (c + rfld s (itgU c 8) 0 8 * 2 ^ 8))
        (retireWrite c (BitVec.ofNat 64 (2 ^ 63 + st * 2 ^ 60 + f * 2 ^ 57 + p)) s)
    match region a with
    | .fstore n => try_ 0 (n % 8) ((a - facetBase n) / 2048)
    | .code n => try_ 1 (n % 8) ((a - codeBase n) / 2048)
    | .crown _ => try_ 2 0 ((a - crownStoreBase c) / 2048)
    | _ => s) s

/-- A full pass of one engine's stores. -/
def patrolUnit (u : Nat) (s : State) : State :=
  if u < 16 then
    if !crownUp s u then s else
    let fs := (List.range 8).flatMap fun f => [(0, f), (1, f)]
    ((2, 0) :: fs).foldl (fun s p => scrubRange u (storeBase u p.1 p.2) (storePages p.1) s) s
  else (List.range 6).foldl (fun s m => scrubPass 16 m 0 0 (scrubPages 16 m) s) s
/-- PATROL_SCRUB: the period ends and Gleby scrubs every store and girdle memory; then its retirement policy. -/
def patrolScrub (s : State) : State :=
  let s := (List.range 17).foldl (fun s u =>
    itgEvt u 5 318 (patrolUnit u (rset (itgU u 0x30) 0 (rset (itgU u 0x28) 0 s)))) s
  let s := if s.gly.policy = 1 then (List.range 16).foldl (fun s c => policyRetire c s) s else s
  setGly { s.gly with patrolAt := s.fclk } s
def execPatrolScrub (s : State) : Res :=
  gateAt (s.pwr.running && s.gly.period != 0 && (List.range 17).all fun u => (integ s u).scrub.isNone)
    (s.gly.patrolAt + s.gly.period * 1000 * msFclk) s patrolScrub

/-- LOG_READ: the entries in use; FREE frees those returned. -/
def logReadBad (c : Call) (_ : State) : Option BadAt := firstBad [(decide (16 < c.p 0 1), 0), (decide (1 < c.p 1 1), 1)]
def logRead (c : Call) (s : State) : Reply × State :=
  let u := c.p 0 1
  let es := (List.range (logSize u)).filter fun e => rbit s (logEntry u e) 63
  let r := (listReply c (c.p 2 2) 32 (es.map fun e => ((List.range 4).map fun i => le 8 (rget s (logEntry u e + 8 * i)).toNat).flatten) s).1
  (r, if c.p 1 1 = 1 then ((es.drop (c.p 2 2)).take (c.dlen / 32)).foldl (fun s e => logFree u e s) s else s)
def execLogRead (g : GIn) (s : State) : Res :=
  runCmd { code := 0x050A, who := [pH, pM, pO, pI], fields := [(0, 1), (1, 1), (2, 2)], buffer := some (32, 1048576, 1) } logReadBad
    noDeny noObs logRead g s

/-- RETIRE: RESULT is the spare. -/
def retireBad (c : Call) (_ : State) : Option BadAt :=
  firstBad [(decide (15 < c.p 0 1), 0), (decide (3 < c.p 1 1), 1), (decide (7 < c.p 2 1), 2), (decide (2047 < c.p 4 2), 4)]
def retireBody (c : Call) (s : State) : Reply × State :=
  let u := c.p 0 1
  let st := c.p 1 1
  let l := pageLin st (c.p 2 1) (c.p 4 2)
  let ref := decide (st = 3 ∨ storePages st ≤ c.p 4 2) || (integ s u).redir.any (fun r => r.1 == l)
    || decide ((freeSpares s u l).length ≤ 1) || (integ s u).retiring.isSome
  if domGone s u then fail stPower s
  else
    let s := retireWrite u (BitVec.ofNat 64 (2 ^ 63 + st * 2 ^ 60 + c.p 2 1 * 2 ^ 57 + c.p 4 2)) s
    if ref then itgRefused u s else ({ wait := .retire u, held := [(obCrown, u)] }, s)
def execRetire (g : GIn) (s : State) : Res :=
  runCmd { code := 0x050B, who := [pH, pM], fields := [(0, 1), (1, 1), (2, 1), (4, 2)] } retireBad noDeny
    (fun c => [(obCrown, c.p 0 1)]) retireBody g s

/-- TEST_WORD: the record of a write waits for its commit. -/
def testWordBad (c : Call) (_ : State) : Option BadAt :=
  firstBad [(decide (15 < c.p 0 1), 0), (decide (3 < c.p 1 1), 1), (decide (2 < c.p 2 1), 2), (decide (7 < c.p 3 1), 3),
    (decide (128 * storePages (c.p 2 1) ≤ c.p 4 4), 4), (decide (1 < c.p 8 1), 8)]
def testWord (c : Call) (s : State) : Reply × State :=
  let u := c.p 0 1
  let v := BitVec.ofNat 64 (2 ^ 63 + c.p 1 1 * 2 ^ 60 + c.p 2 1 * 2 ^ 58 + c.p 3 1 * 2 ^ 55 + c.p 8 1 * 2 ^ 32 + c.p 4 4)
  if c.p 2 1 ≠ 2 ∧ inPartition s (8 * u + c.p 3 1) then fail stLocked s
  else if domGone s u then fail stPower s
  else if c.p 1 1 ≠ 0 ∧ pfw s then fail stLedger s
  else if testRefused s u v then fail stWrong s
  else if c.p 1 1 = 0 then
    let s := testWrite u v s
    doneData 0 ((([0x88, 0x90, 0x98, 0xA0].map fun o => le 8 (rget s (itgU u o)).toNat).flatten)
      ++ le 8 ((rget s (itgU u 0x80)).toNat / 2 ^ 32 % 4 * 2 ^ 32)) s
  else
    let s := (List.range 4).foldl (fun s i => itgWrite u ([0x88, 0x90, 0x98, 0xA0].getD i 0) (BitVec.ofNat 64 (leAt c.data (8 * i) 8)) s) s
    let l := nextAudit false s
    let s := audit false 0x0107 c.who (natBytes 1 u ++ natBytes 1 (c.p 2 1) ++ natBytes 4 (c.p 4 4)) (testWrite u v s)
    ({ wait := .lines [l] 0 }, s)
def execTestWord (g : GIn) (s : State) : Res :=
  runCmd { code := 0x050C, who := [pH, pM], fields := [(0, 1), (1, 1), (2, 1), (3, 1), (4, 4), (8, 1)], buffer := some (40, 40, 1),
           input := paramByte s g.id 1 != 0 } testWordBad noDeny (fun c => [(obCrown, c.p 0 1)]) testWord g s

/-! ### DRAM -/

def chunkBytes : Nat := 0x200000
def dramBad (c : Call) (s : State) : Option BadAt :=
  firstBad [(c.p 0 8 % chunkBytes != 0 || decide (ddrTop s < c.p 0 8), 0),
    (c.p 8 8 % chunkBytes != 0 || decide (ddrTop s < c.p 0 8 + c.p 8 8), 8)]
def chunksOf (c : Call) : List Nat := (List.range (c.p 8 8 / chunkBytes)).map (c.p 0 8 / chunkBytes + ·)
/-- DRAM_TOUCH: every untouched chunk is filled. -/
def dramTouch (c : Call) (s : State) : Reply × State :=
  let cs := (chunksOf c).filter fun k => !s.touched.contains k
  ({ wait := .chunks cs cs.length }, (setFills (s.fills ++ cs.filter fun k => !s.fills.contains k) s))
def execDramTouch (g : GIn) (s : State) : Res :=
  runCmd { code := 0x050D, who := [pM, pO], fields := [(0, 8), (8, 8)] } dramBad noDeny noObs dramTouch g s

/-- Chunks return to untouched: their bytes read 0 at once (R244). -/
def releaseChunks (lo n : Nat) (s : State) : State :=
  let a := lo * chunkBytes
  let b := (lo + n) * chunkBytes
  setMem (tclear s.mem a b) (setTouched (s.touched.filter (fun k => decide (k < lo) || decide (lo + n ≤ k))) (setTags (s.tags.filter fun w => decide (w < a) || decide (b ≤ w)) s))
/-- DRAM_RELEASE: it waits until no access to a chunk is outstanding. -/
def dramRelease (c : Call) (s : State) : Reply × State := ({ wait := .release (c.p 0 8 / chunkBytes) (c.p 8 8 / chunkBytes) }, s)
def execDramRelease (g : GIn) (s : State) : Res :=
  runCmd { code := 0x050E, who := [pM, pO], fields := [(0, 8), (8, 8)] } dramBad
    (fun c _ => decide (c.p 0 8 < reserveEnd) && decide (0 < c.p 8 8)) noObs dramRelease g s

end Sys2Proof.Machine
end

