-- ==== Sys2Proof/Machine/GlebyCaps.lean ====
section
/-! DEFINITION. The capability, mover and window commands (R448 to R450, R513, R531). -/
namespace Sys2Proof.Machine

def permBit (perm p : Nat) : Bool := perm / 2 ^ p % 2 == 1
/-- PERM that no command mints: bits 15:12, or SEAL or UNSEAL over bytes (R169, R174). -/
def permBad (perm len : Nat) : Bool :=
  decide (0x1000 ≤ perm) || ((permBit perm permSEAL || permBit perm permUNSEAL) && len != 0)
/-- What R449 denies beside OTYPE. -/
def mintDenied (s : State) (c : Call) (perm base len : Nat) : Bool :=
  permBit perm permMETR || (permBit perm permDBG && c.prin == some pO) || !grantable s perm base (16 * len)
/-- A capability for the caller's principal at its current epoch. -/
def mint (s : State) (c : Call) (otype perm base len : Nat) : KReg := ⟨mkCap (epochOf s c.who) c.who otype perm len base, true⟩

/-- CAP_GRANT. -/
def capGrantBad (c : Call) (_ : State) : Option BadAt :=
  let perm := c.p 4 2
  let ot := c.p 6 2
  firstBad [(decide (127 < c.p 0 1), 0), (decide (1 < c.p 1 1), 1), (decide (15 < c.p 2 1) || (c.p 1 1 == 1 && decide (14 ≤ c.p 2 1)), 2),
    (permBad perm (c.p 16 4), 4),
    (ot == 0x8000 || (decide (0x8000 ≤ ot) && !permBit perm permX) || (ot != 0 && decide (ot < 0x8000) && permBit perm permX), 6),
    (decide (2 ^ 48 ≤ c.p 8 8), 8)]
def capGrantDeny (c : Call) (s : State) : Bool :=
  mintDenied s c (c.p 4 2) (c.p 8 8) (c.p 16 4) || (c.p 6 2 != 0 && ownerCode c.who != some (c.p 6 2 / 256 % 128))
def capGrant (c : Call) (s : State) : Reply × State :=
  let n := c.p 0 1
  if inPartition s n then fail stLocked s
  else if facetGone s n then fail stPower s
  else if !facetHalted s n then fail stWrong s
  else
    let k := mint s c (c.p 6 2) (c.p 4 2) (c.p 8 8) (c.p 16 4)
    done 0 (updFacet n (fun f => { f with k := tset {} f.k (kKey (c.p 1 1) (c.p 2 1)) k }) s)
def execCapGrant (g : GIn) (s : State) : Res :=
  runCmd { code := 0x0601, who := [pM, pO], fields := [(0, 1), (1, 1), (2, 1), (4, 2), (6, 2), (8, 8), (16, 4)] } capGrantBad capGrantDeny
    (fun c => [(obFacet, c.p 0 1), (obEpoch, c.who)]) capGrant g s

/-- Raise the epoch of a principal. -/
def setEpoch (p e : Nat) (s : State) : State := { s with epochs := tset (epochReset p) s.epochs p (BitVec.ofNat 8 e) }
/-- CAP_REVOKE: the record "epoch raised" is committed before it completes. -/
def capRevokeDeny (c : Call) (_ : State) : Bool :=
  c.prin != some (c.p 0 1) && !(c.prin == some pM && c.p 0 1 == pO)
/-- DEDUCED, log entry 50. -/
def capRevoke (c : Call) (s : State) : Reply × State :=
  let p := c.p 0 1
  let e := epochOf s p
  if e = 255 then fail stExhausted s
  else if pfw s then fail stLedger s
  else
    let l := nextAudit false s
    let s := audit false 0x0103 c.who (natBytes 1 p ++ natBytes 1 (e + 1)) (setEpoch p (e + 1) s)
    ({ wait := .lines [l] (e + 1) }, s)
def execCapRevoke (g : GIn) (s : State) : Res :=
  runCmd { code := 0x0602, who := [pM, pO, pI], fields := [(0, 1)] } noBad capRevokeDeny (fun c => [(obEpoch, c.p 0 1)]) capRevoke g s

/-! ### MOV_BIND -/

/-- A side of girdle channels 16 to 31 whose BASE names another package (R531). -/
def bindRemote (s : State) (c : Call) : Bool := decide (272 ≤ c.p 0 2) && c.p 8 8 / 2 ^ 48 % 256 != localPkg s
/-- BASE as the capability holds it; BASE[55:48] of such a channel names a package. -/
def bindBase (c : Call) : Nat := if 272 ≤ c.p 0 2 then c.p 8 8 % 2 ^ 48 else c.p 8 8
/-- The MAC sides of girdle channels 0 to 15 (R522). -/
def macSide (k d : Nat) : Bool := (decide (256 ≤ k ∧ k < 264) && d == 0) || (decide (264 ≤ k ∧ k < 272) && d == 1)
def movBindBad (c : Call) (_ : State) : Option BadAt :=
  firstBad [(decide (287 < c.p 0 2), 0), (decide (1 < c.p 2 1), 2), (permBad (c.p 4 2) (c.p 16 4), 4),
    (decide ((if 272 ≤ c.p 0 2 then 2 ^ 56 else 2 ^ 48) ≤ c.p 8 8), 8)]
def movBindDeny (c : Call) (s : State) : Bool :=
  macSide (c.p 0 2) (c.p 2 1) ||
    (if bindRemote s c then permBit (c.p 4 2) permMETR || (permBit (c.p 4 2) permDBG && c.prin == some pO)
     else mintDenied s c (c.p 4 2) (bindBase c) (c.p 16 4))
/-- Write a side's capability, tagged. -/
def putChanCap (k : Nat) (dst : Bool) (v : KReg) (s : State) : State :=
  let b := if dst then 0x90 else 0x80
  let s := rset (chanReg k (b + 8)) ((v.cap >>> 64).setWidth 64) (rset (chanReg k b) (v.cap.setWidth 64) s)
  rbitSet (chanReg k 0xA0) (if dst then 1 else 0) v.tag s
/-- ETH_FOUT of a channel's side. -/
def putFout (k : Nat) (dst rem : Bool) (pkg : Nat) (s : State) : State :=
  let a := ethReg (0x8000 + 8 * (k - 272))
  rput a (if dst then 8 else 0) 8 (if rem then pkg else 0) (rbitSet a (if dst then 17 else 16) rem s)
def movBind (c : Call) (s : State) : Reply × State :=
  let k := c.p 0 2
  let dst := c.p 2 1 == 1
  if s.locks.chans.contains k then fail stLocked s
  else if domGone s (chanDomain k) then fail stPower s
  else if chanState s k ≠ 0 then failWith stBusy (rget s (chanReg k 0x100)).toNat s
  else
    let rem := bindRemote s c
    let s := if 272 ≤ k then putFout k dst rem (c.p 8 8 / 2 ^ 48 % 256) s else s
    done 0 (putChanCap k dst (mint s c 0 (c.p 4 2) (bindBase c) (c.p 16 4)) s)
def execMovBind (g : GIn) (s : State) : Res :=
  runCmd { code := 0x0603, who := [pM, pO], facets := true, fields := [(0, 2), (2, 1), (4, 2), (8, 8), (16, 4)] } movBindBad movBindDeny
    (fun c => [(obChan, c.p 0 2), (obEpoch, c.who)]) movBind g s

/-! ### Windows -/

def windowBad (c : Call) (_ : State) : Option BadAt :=
  firstBad [(decide (15 < c.p 0 1), 0), (permBad (c.p 4 2) (c.p 16 4), 4), (decide (2 ^ 48 ≤ c.p 8 8), 8)]
def windowOpen (c : Call) (s : State) : Reply × State :=
  if s.gly.wins.any fun w => w.1 == c.p 0 1 then fail stBusy s
  else
    let k := mint s c 0 (c.p 4 2) (c.p 8 8) (c.p 16 4)
    done 0 (setGly { s.gly with wins := tput s.gly.wins (c.p 0 1) k } s)
/-- WINDOW_OPEN. -/
def execWindowOpen (g : GIn) (s : State) : Res :=
  runCmd { code := 0x0604, who := [pM, pO], fields := [(0, 1), (4, 2), (8, 8), (16, 4)] } windowBad
    (fun c s => mintDenied s c (c.p 4 2) (c.p 8 8) (c.p 16 4)) (fun c => [(obEpoch, c.who)]) windowOpen g s
/-- WINDOW_CLOSE. -/
def windowClose (c : Call) (s : State) : Reply × State :=
  if s.gly.wins.any fun w => w.1 == c.p 0 1 then done 0 (setGly { s.gly with wins := tdel s.gly.wins (c.p 0 1) } s)
  else fail stNotFound s
def execWindowClose (g : GIn) (s : State) : Res :=
  runCmd { code := 0x0605, who := [pM, pO], fields := [(0, 1)] } (fun c _ => firstBad [(decide (15 < c.p 0 1), 0)]) noDeny noObs
    windowClose g s

/-- CAP_QUERY. -/
def capQueryBad (c : Call) (_ : State) : Option BadAt :=
  firstBad [(decide (127 < c.p 0 1), 0), (decide (1 < c.p 1 1), 1), (decide (15 < c.p 2 1), 2)]
def capQuery (c : Call) (s : State) : Reply × State :=
  let n := c.p 0 1
  if inPartition s n then fail stLocked s
  else
    let k := tget ({} : KReg) (facet s n).k (kKey (c.p 1 1) (c.p 2 1))
    doneData (b2n k.tag + 2 * b2n (capEpoch k.cap == epochOf s (capPrin k.cap))) (natBytes 16 k.cap.toNat) s
def execCapQuery (g : GIn) (s : State) : Res :=
  runCmd { code := 0x0606, who := [pM, pO], fields := [(0, 1), (1, 1), (2, 1)], buffer := some (16, 16, 1) } capQueryBad noDeny noObs
    capQuery g s

end Sys2Proof.Machine
end

