-- ==== Sys2Proof/Machine/Bezel.lean ====
section
/-! DEFINITION. The sealed weighing partition: images, sealing, restoring, breaking (R468, R469, R477 to R487), the commits that these
wait for, and debug authorization (R472, R473). -/
namespace Sys2Proof.Machine

/-! ### Images (R468, R469) -/

/-- The header of an image of a kind is well formed, and the image has the length that it gives. -/
def headerOk (kind : Nat) (img : List Byte) : Bool :=
  decide (144 ≤ img.length) && leAt img 0 4 == 0x4D494C48 && leAt img 4 2 == 1 && leAt img 6 2 == kind && leAt img 0xE 18 == 0
    && leAt img 0x20 4 + 144 == img.length && leAt img 0x24 12 == 0 && decide (leAt img 0xD 1 < 64) && (kind == 1 || leAt img 0xD 1 == 0)
/-- Its signature verifies under the root of a signer that has one. -/
def imageSigned (s : State) (signer : Nat) (img : List Byte) : Bool :=
  leAt img 0xC 1 == signer && (signer == 0 || s.bez.roots.contains signer)
    && Config.verify s.bez.manSerial signer (img.take (img.length - 96)) (img.drop (img.length - 96))
def imageRelease (img : List Byte) : Nat := leAt img 8 2
def imageSerial (img : List Byte) : Nat := leAt img 0xA 2
def imageRoll (img : List Byte) : Nat := leAt img 0xD 1

/-! ### What a configuration names (R477, R484) -/

def confCells (c : SealedConf) : List Nat := c.cells.map (·.num)
def confChans (c : SealedConf) : List Nat := c.chans.map (·.num)
def confTimers (c : SealedConf) : List Nat := c.timers.map (·.num)
def confThreads (c : SealedConf) : List Nat := (c.routines.map fun r => 16 * r.blocker + r.thread).eraseDups
def confFeeds (c : SealedConf) : List Nat := c.feeds.map fun f => 4 * f.ctl + f.feed
def confBlockers (c : SealedConf) : List Nat := ((confCells c).map blockerOf ++ c.routines.map (·.blocker)).eraseDups

/-- Source and sink entries: those that records set, and those of its facets, cells, timers and channels. -/
def confHatSrcs (c : SealedConf) : List Nat :=
  let own : List Nat := (List.range 32).map (0x800 + ·) ++ (confTimers c) ++ (confChans c).flatMap (fun k => [0x200 + k, 0x400 + k])
    ++ (confCells c).flatMap fun p => [0x1000 + 2 * p, 0x1001 + 2 * p, 0x1800 + 2 * p, 0x1801 + 2 * p]
  (own ++ (c.hat.filter fun h => h.table == 0).map (·.num)).eraseDups
def confHatSinks (c : SealedConf) : List Nat :=
  let own : List Nat := (List.range 32).map (0x800 + ·) ++ (List.range 96).map (0x1000 + ·) ++ (confChans c)
    ++ (confCells c).flatMap fun p => [0x2800 + 2 * p, 0x2801 + 2 * p]
  (own ++ (c.hat.filter fun h => h.table == 1).map (·.num)).eraseDups
def confHatExps (c : SealedConf) : List Nat := ((c.hat.filter fun h => h.table == 2).map (·.num)).eraseDups
/-- The event numbers that valid named entries carry. -/
def confEvents (c : SealedConf) : List Nat :=
  ((c.hat.filter fun h => decide (h.table < 2) && bit h.value 15).map fun h => fld h.value 0 12).eraseDups

/-- Every lock of a configuration (R482). -/
def confLocks (c : SealedConf) : Locks :=
  { facets := [0, 1], chans := (confChans c), timers := (confTimers c), cells := (confCells c), threads := (confThreads c), feeds := (confFeeds c),
    srcs := (List.range 64).map (srcKey 0 ·) ++ (List.range 64).map (srcKey 1 ·), hatSrc := (confHatSrcs c), hatSink := (confHatSinks c),
    hatExp := (confHatExps c), events := (confEvents c) }

/-- DEDUCED, log entry 47. -/
def obMetro : Nat := 14
/-- The objects that sealing takes (step 1 of R479). -/
def confObjects (c : SealedConf) : List (Nat × Nat) :=
  [(obMetro, 0), (obFacet, 0), (obFacet, 1), (obTime, 0), (obHat, 0), (obRoutes, 0), (obEpoch, 4)]
    ++ (confChans c).map (obChan, ·) ++ (confCells c).map (obCell, ·) ++ (confBlockers c).map (obBlocker, ·)

/-- A capability record keeps to R477, R169, R173 and R174: PERM without SC, DBG, LC and bits [15:12], an OTYPE of 0 or of the owner code of
principal 4, SEAL or UNSEAL with LENGTH 0 alone, a K register of facet 0 or 1 or, without METR, a side of a crown 0 channel. -/
def sealCapOk (k : SealCap) : Bool :=
  (k.perm &&& 0xF818) == 0 && (k.otype == 0 || (k.otype.toNat / 2 ^ 8 % 2 ^ 7 == 0x7F && k.otype.getLsbD 15 == k.perm.getLsbD permX))
    && ((k.perm &&& 0x60) == 0 || k.len == 0)
    && match k.target with
      | .kreg f b i => decide (f < 2) && decide (b < 2) && decide (i < 16)
      | .source c | .dest c => decide (c < 16) && !k.perm.getLsbD permMETR
/-- A cell record that makes its cell lead a pair, and so needs the follower's. -/
def leadsPair (c : SealRegs) : Bool := c.regs.any fun r => r.1 == 0 && bit r.2 1
/-- The records keep to the limits of R477. -/
def confOk (c : SealedConf) : Bool :=
  c.legal.length == 32 && c.legal.all (fun b => decide (0x20 ≤ b.toNat) && decide (b.toNat ≤ 0x7E))
    && c.code.all (fun i => decide (i.facet < 2) && decide (i.off + 8 * i.words.length ≤ 0x40000))
    && c.starts.length == 2 && [0, 1].all (fun n => c.starts.any fun x => x.facet == n && bit x.xvb 0)
    && decide (c.caps.length ≤ 48) && c.caps.all sealCapOk
    && decide (c.chans.length ≤ 8) && c.chans.all (fun k => decide (k.num < 16))
    && decide (c.timers.length ≤ 16)
    && decide (c.cells.length ≤ 32) && decide (((confCells c).map blockerOf).eraseDups.length ≤ 2)
    && c.cells.all (fun p => decide (p.preload.length ≤ 256) && (!leadsPair p || (confCells c).contains (p.num + 1)))
    && c.routines.all (fun r => (confCells c).contains (16 * r.blocker + r.thread))
    && decide (c.hat.length ≤ 512)
    && c.feeds.all (fun f => (confBlockers c).contains f.ctl)
    && c.cal.all (fun r => decide (r.1 + r.2 ≤ 1024))
/-- The records of a sealed configuration image, where they keep to the limits. -/
def sealedConf (img : List Byte) : Option SealedConf := (Config.parseSealed img).filter confOk
/-- The configuration of the staged image; none where its records break R477. -/
def stagedConf (s : State) : Option SealedConf := sealedConf s.metro.staged

/-! ### Stopping the named objects (step 2 of R479 and of R487) -/

def quiesce (c : SealedConf) (s : State) : State :=
  let s := (confTimers c).foldl (fun s i => rbitSet (ltim i 16) 0 false s) s
  let s := (confChans c).foldl (fun s k => movStop k s) s
  (confThreads c).foldl (fun s t => stopThread t s) s
def quiet (c : SealedConf) (s : State) : Bool :=
  (confChans c).all (fun k => chanState s k == 0) && (confThreads c).all fun t => (thread s t).state == 0 || (thread s t).state == 3

/-- Every word of the stores and code stores of facets 0 and 1 to V = 0. -/
def clearPartition (s : State) : State :=
  clearRange (facetBase 1) (facetBase 1 + 0xC0000) (clearRange (facetBase 0) (facetBase 0 + 0xC0000) s)
def haltPartition (s : State) : State := haltFacet 1 (haltFacet 0 s)
/-- The epoch of principal 4 rises by 1, from 255 to 1. -/
def raiseEpoch4 (s : State) : State := setEpoch 4 (if epochOf s 4 = 255 then 1 else epochOf s 4 + 1) s

/-! ### The sealed loader (steps 6 to 8 of R479) -/

/-- Writes in order; true where every block accepted its write. -/
def runWrites (ws : List (State → Bool × State)) (s : State) : Bool × State :=
  ws.foldl (fun acc w => let r := w acc.2; (acc.1 && r.1, r.2)) (true, s)

def loadCell (c : SealRegs) (s : State) : Bool × State :=
  let r := runWrites (c.regs.map fun w => cellWrite c.num w.1 w.2 .loader) s
  (r.1 && cellOn s c.num, if c.preload.isEmpty then r.2 else txWrite c.num c.preload r.2)
def loadFeed (f : SealFeed) (s : State) : Bool × State :=
  let r := runWrites [pfdWrite f.ctl (0x28 + 0x20 * f.feed) f.flim .loader, pfdWrite f.ctl (0x30 + 0x20 * f.feed) f.fi2t .loader,
    pfdWrite f.ctl (0x20 + 0x20 * f.feed) f.fctl .loader] s
  (r.1 && feedOn s f.ctl, r.2)
def loadChan (c : SealRegs) (s : State) : Bool × State := runWrites (c.regs.map fun w => chanWrite c.num w.1 w.2 .loader) s
/-- MODE and PERIOD; the timer stays disabled. -/
def loadTimer (t : SealTimer) (s : State) : State :=
  rset (ltim t.num 16) (if t.periodic then 2 else 0) (rset (ltim t.num 8) (t.period.setWidth 64) s)
/-- The words in both banks, ENTRY, and the slots that the thread owns. -/
def loadRoutine (r : SealRoutine) (s : State) : Bool × State :=
  let put (k : Bool) (s : State) : State := (r.words.zip (List.range r.words.length)).foldl (fun s w =>
    poke (blkBank r.blocker k + 8 * ((r.start + w.2) % 2048)) (natBytes 8 w.1.toNat) s) s
  let s := rput (blkReg r.blocker (0x100 + 32 * r.thread)) 16 11 r.start (put true (put false s))
  let old := (blocker s r.blocker).wheel.getD (rget s (blkReg r.blocker 0x20))
  let v := (List.range 16).foldl (fun v i => if bit r.slots i then setFld v (4 * i) 4 r.thread else v) old
  (spineOn s r.blocker, putWheel r.blocker v s)
/-- One hatband entry in both banks. -/
def putHat (table num : Nat) (v : BitVec 128) (s : State) : State :=
  let at_ (b : Nat) : Nat := hatBankBase b + (match table with | 0 => 2 * num | 1 => 0x7000 + 2 * num | _ => 0xD400 + 16 * num)
  let bs := if table < 2 then natBytes 2 (v.toNat % 2 ^ 16) else natBytes 16 v.toNat
  poke (at_ 1) bs (poke (at_ 0) bs s)
/-- Entries that no record sets are locked with V = 0. -/
def loadHat (c : SealedConf) (s : State) : State :=
  let s := (confHatSrcs c).foldl (fun s n => putHat 0 n 0 s) s
  let s := (confHatSinks c).foldl (fun s n => putHat 1 n 0 s) s
  c.hat.foldl (fun s h => putHat h.table h.num h.value s) s
/-- Capabilities of channel sides (step 7); those of K registers stand in sealLoadFacet. -/
def loadChanCap (c : SealCap) (s : State) : State :=
  match c.target with
  | .kreg _ _ _ => s
  | .source k => putChanCap k false ⟨sealCapValue s c, true⟩ s
  | .dest k => putChanCap k true ⟨sealCapValue s c, true⟩ s

/-- Steps 6 to 8. The locks apply in one FCLK. -/
def sealLoad (c : SealedConf) (s : State) : Bool × State :=
  let s := sealLoadFacet c 1 (sealLoadFacet c 0 s)
  let r := runWrites (c.cells.map loadCell ++ c.feeds.map loadFeed ++ c.chans.map loadChan ++ c.routines.map loadRoutine) s
  let s := loadHat c (c.timers.foldl (fun s t => loadTimer t s) r.2)
  let s := c.caps.foldl (fun s k => loadChanCap k s) s
  (r.1, (setLocks ((confLocks c)) (setMetro { s.metro with conf := some c } s)))

/-- An entry of crown 0 into P2 that is under way is abandoned, so that the crown stays where it is while the seal is active (R29).
DEDUCED, log entry 83. -/
def stayAwake (s : State) : State :=
  if (changeOf s 0).any fun ch => ch.target == 3 then actAgain 0 (setDom 0 1 (abandonP2 0 s)) else s

/-- Steps 3 to 8 of R479: whether all succeeded. -/
def sealSteps (c : SealedConf) (s : State) : Bool × State :=
  let s := stayAwake s
  let up := !domGone s 0
  let s := haltPartition s
  let s := clearPartition (setBez { s.bez with scope := none } s)
  let r := sealLoad c (raiseEpoch4 s)
  (r.1 && up, r.2)

/-- The first tick at or after `base` that is the phase plus a whole number of periods. DEDUCED, log entry 57. -/
def firstTick (t : SealTimer) (base : Nat) : Nat :=
  let p := max 1 t.period.toNat
  base + (t.phase.toNat % p + p - base % p) % p
/-- Step 10 of R479: facets 0 and 1 run, the named threads start, the named timers are enabled. DEDUCED, log entry 57. -/
def sealStart (s : State) : State :=
  match s.metro.conf with
  | none => s
  | some c =>
    let s := facetRun 1 (facetRun 0 s)
    let s := (confThreads c).foldl (fun s t => startThread t s) s
    c.timers.foldl (fun s t =>
      lctlPut t.num (if t.periodic then 3 else 1) (rset (ltim t.num 0) (BitVec.ofNat 64 (firstTick t (s.metro.start + 4800000))) s)) s

/-- Every lock and reserved event number is released (step 5 of R487). -/
def releaseLocks (s : State) : State := setLocks {} (setMetro { s.metro with conf := none } s)

/-! ### METR_LOAD -/

def metroEvent (s : State) : State := postEvent 0x0B (BitVec.ofNat 64 (metroState s)) s

/-- A legal record that changes the metrology state at its commit. -/
def metroRecord (kind prin : Nat) (detail : List Byte) (s : State) : Nat × State :=
  let l := nextAudit true s
  let s := audit true kind prin detail s
  (l, (setMetro { s.metro with change := some (l, kind) } s))

/-- DEDUCED, log entry 56. -/
def metrLoad (c : Call) (s : State) : Reply × State :=
  let img := c.data
  if metroState s = 2 then fail stWrong s
  else if pfw s || legalFull s then fail stLedger s
  else if !headerOk 3 img || !imageSigned s 1 img then fail stSignature s
  else if imageSerial img ≤ s.metro.lastSealed then fail stVersion s
  else if (sealedConf img).isNone then failWith stField (Config.sealedBadOffset img % 2 ^ 16) s
  else
    let (l, s) := metroRecord 1 c.who (shaBytes img 16 ++ natBytes 2 (imageSerial img) ++ natBytes 2 (imageRelease img)) s
    ({ wait := .lines [l] 0, held := [(obMetro, 0)] }, (setMetro { s.metro with loading := img } s))
/-- METR_LOAD: the state is staged from the commit of its legal record on. -/
def execMetrLoad (g : GIn) (s : State) : Res :=
  runCmd { code := 0x0902, who := [pM], buffer := some (16, 65536, 1), input := true } noBad noDeny (fun _ => [(obMetro, 0)]) metrLoad g s

/-! ### METR_SEAL -/

def metrSeal (c : Call) (s : State) : Reply × State :=
  if metroState s ≠ 1 then fail stWrong s
  else if c.p 0 16 ≠ bytesNat (shaBytes s.metro.staged 16) then fail stSignature s
  else if pfw s || legalFull s then fail stLedger s
  else match stagedConf s with
    | none => fail stRefused s
    | some conf => ({ wait := .sealing, held := (confObjects conf) },
        quiesce conf (setMetro { s.metro with start := s.tb.tick } s))
/-- Steps 3 to 8 of a METR_SEAL whose named objects have stopped, and the legal record of step 9. A failure undoes steps 8 and 5. -/
def sealBegin (c : Cmd) (conf : SealedConf) (s : State) : State :=
  let e := epochOf s 4
  let r := sealSteps conf s
  if r.1 then
    let q := metroRecord 2 pI (shaBytes s.metro.staged 16 ++ natBytes 2 (sealCount s + 1)) r.2
    setCmd { c with wait := .lines [q.1] 0 } q.2
  else finishCmd c stRefused 0 (setEpoch 4 e (releaseLocks r.2))
/-- METR_SEAL: its checks and steps 1 and 2; presented again for the same command once the named objects have stopped, steps 3 to 9.
Step 10 comes with the commit (LINE_COMMIT_DONE). -/
def execMetrSeal (g : GIn) (s : State) : Res :=
  match s.gly.cmds.find? fun c => c.id == g.id && c.wait == .sealing, stagedConf s with
  | some c, some conf => gate (quiet conf s) (sealBegin c conf s)
  | _, _ => runCmd { code := 0x0903, who := [pI], fields := [(0, 16)] } noBad noDeny
      (fun _ => match stagedConf s with | some conf => (confObjects conf) | none => [(obMetro, 0)]) metrSeal g s

/-! ### METR_BREAK -/

def metrBreak (c : Call) (s : State) : Reply × State :=
  if metroState s ≠ 2 then fail stWrong s
  else if pfw s || legalFull s then fail stLedger s
  else
    let (_, s) := metroRecord 3 c.who (natBytes 4 (c.p 0 4) ++ natBytes 2 (sealCount s)) s
    ({ wait := .breaking, held := (obMetro, 0) :: (match s.metro.conf with | some conf => (confObjects conf) | none => []) }, s)
/-- Steps 3 to 5 of R487. -/
def breakSteps (conf : SealedConf) (s : State) : State :=
  let s := raiseEpoch4 (clearPartition (haltPartition s))
  let s := (confChans conf).foldl (fun s k => rbitSet (chanReg k 0xA0) 0 false (rbitSet (chanReg k 0xA0) 1 false s)) s
  let noK (f : Facet) : Facet := { f with k := [] }
  let s := releaseLocks (updFacet 1 noK (updFacet 0 noK s))
  setMetro { s.metro with stopped := false, resets := [] } s
/-- METR_BREAK: the legal record; step 2 comes with its commit (LINE_COMMIT_DONE); presented again for the same command once the named
objects have stopped, steps 3 to 5. -/
def execMetrBreak (g : GIn) (s : State) : Res :=
  match s.gly.cmds.find? fun c => c.id == g.id && c.wait == .breaking, s.metro.conf with
  | some c, some conf => gate (metroState s == 3 && quiet conf s) (finishCmd c stOk 0 (breakSteps conf s))
  | _, _ => runCmd { code := 0x0904, who := [pI], fields := [(0, 4)] } noBad noDeny
      (fun _ => (obMetro, 0) :: (match s.metro.conf with | some conf => (confObjects conf) | none => [])) metrBreak g s

/-! ### The commit of a line (R496, R497), and what it brings about -/

/-- What a change of the metrology state does beyond the ledger: step 10 of R479, step 2 of R487, event class 0x0B. -/
def metroFollow (kind : Nat) (s : State) : State :=
  let s := metroEvent s
  if kind = 2 then sealStart s
  else if kind = 3 then (match s.metro.conf with | some c => quiesce c s | none => s)
  else s
/-- LINE_COMMIT_DONE. -/
def execLineCommitDone (line : Fin 262144) (s : State) : Res :=
  match s.ledger.pend.find? fun p => p.line == line.val && p.busy with
  | none => .refused .notEnabled
  | some p =>
    let s' := lineDone p s
    .next (match s.metro.change with
      | some (l, k) => if l = line then metroFollow k (metroCommitted s') else s'
      | none => s')

/-! ### METR_STATUS, METR_AUDIT -/

/-- The image that the state speaks of: the staged one, or the one sealed last. -/
def metroImage (s : State) : List Byte := if metroState s = 1 then s.metro.staged else if metroState s = 0 then [] else s.metro.sealImage
def metroInfo (s : State) : List Byte :=
  if metroState s = 0 then List.replicate 128 0
  else
    let img := metroImage s
    padTo 32 (match sealedConf img with | some c => c.legal | none => []) ++ shaBytes img 48
      ++ natBytes 8 (if metroState s = 1 then 0 else s.metro.tick) ++ List.replicate 40 0
/-- DEDUCED, log entry 56. -/
def metrStatus (_ : Call) (s : State) : Reply × State := doneData (metroState s + sealCount s * 2 ^ 16) (metroInfo s) s
def execMetrStatus (g : GIn) (s : State) : Res :=
  runCmd { code := 0x0901, who := [], zero := true, facets := true, buffer := some (128, 128, 1), orNone := true } noBad noDeny noObs
    metrStatus g s

/-- METR_AUDIT: the records of the legal trail from START on. -/
def legalRecords (s : State) : List (List Byte) :=
  (List.range (min 8192 s.ledger.legal)).map fun i => bytesAt s (ledgerAddr (regionLine 1 + i) 0) 64
def metrAudit (c : Call) (s : State) : Reply × State := listReply c (c.p 0 4) 64 (legalRecords s) s
def execMetrAudit (g : GIn) (s : State) : Res :=
  runCmd { code := 0x0905, who := [], zero := true, fields := [(0, 4)], buffer := some (64, 1048576, 1) } noBad noDeny noObs metrAudit g s

/-! ### Restoring the seal at boot (R486) -/

/-- A seal that cannot be restored: a legal record of the step, METR_STAT, an event. -/
def sealBroken (step : Nat) (s : State) : Bool × State :=
  (false, metroEvent (rput (bezReg 0x100) 32 2 3 (audit true 4 hwPrin (natBytes 1 step ++ shaBytes s.metro.sealImage 16) s)))
/-- Steps 3 to 8 of R479 for the restored image; the seal counts from now. -/
def sealAgain (conf : SealedConf) (s : State) : Bool × State :=
  let r := sealSteps conf (quiesce conf s)
  if r.1 then (true, audit false 0x0108 hwPrin (natBytes 2 (sealCount s)) (setMetro { r.2.metro with start := s.tb.tick } r.2))
  else sealBroken 6 (releaseLocks r.2)
/-- Step 5 of R470: whether it went well. -/
def restoreSeal (s : State) : Bool × State :=
  if metroState s ≠ 2 then (true, s)
  else match sealedConf s.metro.sealImage with
    | some conf =>
      if Config.sha384 s.metro.sealImage ≠ s.metro.digest || !imageSigned s 1 s.metro.sealImage then sealBroken 1 s else sealAgain conf s
    | none => sealBroken 1 s

/-! ### Debug authorization (R472, R473) -/

/-- The 96 bytes of the challenge. -/
def challenge (nonce : List Byte) : List Byte := nonce ++ shaBytes Config.deviceKey 48
/-- DBGCHAL: a fresh nonce, shifted out with the hash of the device public key. -/
def execDbgchal (s : State) : Res :=
  let (bs, s) := freeBytes 6 s
  .next (emit (.value (bytesNat (challenge bs))) (setBez { s.bez with nonce := some bs, jtag := .dbgchal } s))

/-- The message that a response signs: CHN-DBUG, the challenge, SCOPE. -/
def debugMessage (nonce : List Byte) (scope : BitVec 32) : List Byte :=
  [0x43, 0x48, 0x4E, 0x2D, 0x44, 0x42, 0x55, 0x47] ++ challenge nonce ++ natBytes 4 scope.toNat
/-- Whether every scope bit's condition holds. DEDUCED, log entry 58. -/
def scopeOk (s : State) (scope : BitVec 32) (signer : Nat) : Bool :=
  decide (signer < 2) && decide (scope.toNat < 16) && !(sealActive s && (bit scope 1 || bit scope 3)) && !(bit scope 2 && signer != 0)
/-- DBGRESP: the nonce is spent; a response that verifies grants its scope. -/
def execDbgresp (scope : BitVec 32) (signer : BitVec 8) (sig : List (BitVec 8)) (s : State) : Res :=
  let sn := signer.toNat
  let ok := match s.bez.nonce with
    | some n => scopeOk s scope sn && (sn == 0 || s.bez.roots.contains sn) && Config.verify s.bez.manSerial sn (debugMessage n scope) sig
    | none => false
  let s := setBez { s.bez with nonce := none, jtag := .dbgresp } s
  .next (if ok then audit false 0x0106 sn (natBytes 4 scope.toNat ++ natBytes 1 sn) (setBez { s.bez with scope := some scope } s) else s)

/-- Whether the TAP accepts an instruction (R472, R473). DEDUCED, log entry 58. -/
def tapAccepts (s : State) (j : Jtag) : Bool :=
  match j with
  | .bypass | .idcode | .samplePreload | .dbgchal | .dbgresp => true
  | .extest | .intest | .clamp | .extestPulse | .extestTrain => !sealActive s && s.bez.scope.any fun v => bit v 3
  | .debugPrivate => !sealActive s && s.bez.scope.isSome
/-- JTAG_INSTRUCTION: a refused instruction acts as BYPASS. -/
def execJtagInstruction (j : Jtag) (s : State) : Res :=
  .next (setBez { s.bez with jtag := if tapAccepts s j then j else .bypass } s)
/-- TRST_ASSERT: the authorization ends. -/
def execTrstAssert (s : State) : Res := .next (setBez { s.bez with scope := none, jtag := .idcode } s)

/-! ### The bezel block (R474) -/

def bezRead (s : State) (o : Nat) : BitVec 64 :=
  if o = 0 then setBit (setFld (rget s (bezReg 0)) 18 2 (metroState s)) 17 s.bez.scope.isSome
  else if o = 8 then s.bez.fuse
  else if 0x40 ≤ o ∧ o < 0x60 then
    BitVec.ofNat 64 (bytesNat ((List.range 8).map fun j => BitVec.ofNat 8 (epochOf s ((o - 0x40) + j))))
  else if o = 0x100 then rget s (bezReg 0x100)
  else 0

end Sys2Proof.Machine
end

