-- ==== Sys2Proof/Machine/GlebyFabric.lean ====
section
/-! DEFINITION. The fabric commands (R25 to R27, R394, R451, R452, R530). -/
namespace Sys2Proof.Machine

def registrar (s : State) : Nat := (members s).headD (localPkg s)
/-- The next-lowest package; the registrar itself where there is no other. -/
def deputy (s : State) : Nat := ((members s)[1]?).getD (registrar s)

/-- FAB_JOIN: `ext` holds one word for each member that answered: its package in [7:0], its station address in [63:16]. -/
def fabJoin (c : Call) (s : State) : Reply × State :=
  if s.fabric.joined then fail stWrong s
  else if domGone s 36 then fail stPower s
  else
    let peers := c.ext.map fun w => (fld w 0 8, BitVec.ofNat 48 (fld w 16 48))
    let old := s.fabric
    let s := sendControl 0xFF .join (setFabric { old with fabid := BitVec.ofNat 32 (c.p 4 4), macs := BitVec.ofNat 8 (c.p 1 1) } s)
    let back := setFabric { s.fabric with fabid := old.fabid, macs := old.macs } s
    if peers.isEmpty then failWith stFabric 0 back
    else if peers.any fun p => p.1 == c.p 0 1 then failWith stFabric 1 back
    else
      let s := rput (sesReg 0x20) 0 8 (c.p 0 1) s
      let s := setFabric { s.fabric with
        joined := true, present := peers.foldl (fun l p => sadd l p.1) [], stations := peers.foldl (fun t p => tput t p.1 p.2) [],
        heard := peers.foldl (fun t p => tput t p.1 s.fclk) [], seqs := [], seen := [], beat := s.fclk } s
      done (registrar s + deputy s * 2 ^ 8) (postEvent 9 (BitVec.ofNat 64 (c.p 0 1 + 2 ^ 8)) s)
def execFabJoin (g : GIn) (s : State) : Res :=
  runCmd { code := 0x0701, who := [pM], fields := [(0, 1), (1, 1), (4, 4)] } noBad noDeny (fun _ => [(obFabric, 0)]) fabJoin g s

/-- FAB_LEAVE: the package keeps its number. -/
def fabLeave (_ : Call) (s : State) : Reply × State :=
  if !s.fabric.joined then fail stWrong s
  else
    let s := setFabric { s.fabric with joined := false, present := [], stations := [], heard := [], seen := [] } s
    done 0 (postEvent 9 (BitVec.ofNat 64 (localPkg s)) s)
def execFabLeave (g : GIn) (s : State) : Res :=
  runCmd { code := 0x0702, who := [pM] } noBad noDeny (fun _ => [(obFabric, 0)]) fabLeave g s

/-- FAB_STATUS. -/
def fabStatus (_ : Call) (s : State) : Reply × State :=
  doneData (localPkg s) (natBytes 32 ((members s).foldl (fun v p => v + 2 ^ p) 0)
    ++ le 8 (registrar s + deputy s * 2 ^ 8 + localPkg s * 2 ^ 16)) s
def execFabStatus (g : GIn) (s : State) : Res :=
  runCmd { code := 0x0703, who := [pM, pO, pI], buffer := some (40, 40, 1) } noBad noDeny noObs fabStatus g s

/-- FAB_CONFIG. -/
def fabConfig (c : Call) (s : State) : Reply × State := done 0 (setFabric { s.fabric with failtime := c.p 0 2 } s)
def execFabConfig (g : GIn) (s : State) : Res :=
  runCmd { code := 0x0704, who := [pM], fields := [(0, 2)] } (fun c _ => firstBad [(decide (c.p 0 2 < 5 ∨ 1000 < c.p 0 2), 0)]) noDeny
    (fun _ => [(obFabric, 0)]) fabConfig g s

/-- FAB_WINDOW: `pkg` 256 stands for every member. -/
def fabWindowBad (c : Call) (_ : State) : Option BadAt :=
  firstBad [(decide (15 < c.p 0 1), 0), (decide (1 < c.p 2 1), 2), (permBad (c.p 4 2) (c.p 16 4), 4), (decide (2 ^ 48 ≤ c.p 8 8), 8)]
def fabWindow (c : Call) (s : State) : Reply × State :=
  let rest := s.fabric.wins.filter fun w => w.win != c.p 0 1
  let w : FabWin := ⟨c.p 0 1, if c.p 2 1 = 1 then 256 else c.p 1 1, c.p 4 2, c.p 8 8, 16 * c.p 16 4⟩
  done 0 (setFabric { s.fabric with wins := if c.p 16 4 = 0 then rest else rest ++ [w] } s)
def execFabWindow (g : GIn) (s : State) : Res :=
  runCmd { code := 0x0705, who := [pM, pO], fields := [(0, 1), (1, 1), (2, 1), (4, 2), (8, 8), (16, 4)] } fabWindowBad
    (fun c s => mintDenied s c (c.p 4 2) (c.p 8 8) (c.p 16 4)) (fun _ => [(obFabric, 0)]) fabWindow g s

/-- FAB_STANDBY: keys with their standby package and session. -/
def standbyRecs (bs : List Byte) : List (Nat × Nat) :=
  (List.range (bs.length / 16)).map fun i =>
    let v := leAt bs (16 * i) 8
    (routeKey (v % 256) (v / 2 ^ 8 % 1024) (v / 2 ^ 18 % 4096), v / 2 ^ 32 % 256 * 16384 + v / 2 ^ 40 % 16384)
def fabStandby (c : Call) (s : State) : Reply × State :=
  let rs := standbyRecs c.data
  if rs.any fun r => r.1 / 2 ^ 22 == localPkg s && cellLocked s (r.1 / 2 ^ 12 % 1024) then fail stLocked s
  else done 0 (setSes { s.ses with standby := rs.foldl (fun t r => tput t r.1 r.2) s.ses.standby } s)
def execFabStandby (g : GIn) (s : State) : Res :=
  runCmd { code := 0x0706, who := [pM, pO], buffer := some (16, 65536, 16), input := true } noBad noDeny (fun _ => [(obRoutes, 0)])
    fabStandby g s

/-- FAB_EXPORT: into the shadow hatband bank; it waits for a running copy. -/
def fabExportBad (c : Call) (_ : State) : Option BadAt :=
  firstBad [(decide (63 < c.p 0 1), 0), (decide (1 < c.p 1 1), 1), (decide (4095 < c.p 2 2), 2)]
def fabExport (c : Call) (s : State) : Reply × State :=
  if s.locks.hatExp.contains (c.p 0 1) || (c.p 1 1 == 1 && s.locks.events.contains (c.p 2 2)) then fail stLocked s
  else
    let e := c.p 1 1 * 2 ^ 127 + c.p 4 1 * 2 ^ 104 + c.p 2 2 * 2 ^ 64 + c.p 8 4
    done 0 (girdlePut (hatBankBase (1 - hatLive s) + 0xD400 + 16 * c.p 0 1) (natBytes 16 e) s)
def execFabExport (g : GIn) (s : State) : Res :=
  if rbit s (hatReg 0) 1 then .refused .notEnabled
  else runCmd { code := 0x0707, who := [pM, pO], fields := [(0, 1), (1, 1), (2, 2), (4, 1), (8, 4)] } fabExportBad noDeny
    (fun _ => [(obHat, 0)]) fabExport g s

/-- FAB_IMPORT: HAT_IMP. -/
def fabImportBad (c : Call) (_ : State) : Option BadAt :=
  firstBad [(decide (1 < c.p 0 1), 0), (decide (4095 < c.p 2 2), 2), (decide (4095 < c.p 4 2), 4)]
def fabImportSet (c : Call) (s : State) : Reply × State :=
  let v := BitVec.ofNat 64 (c.p 0 1 * 2 ^ 63 + c.p 4 2 * 2 ^ 16 + c.p 2 2)
  if impLocked s v then fail stLocked s else done 0 (hatWrite 0x18 v .steward s).2
def execFabImport (g : GIn) (s : State) : Res :=
  runCmd { code := 0x0708, who := [pM, pO], fields := [(0, 1), (2, 2), (4, 2)] } fabImportBad noDeny (fun _ => [(obFabric, 0)])
    fabImportSet g s

end Sys2Proof.Machine
end

