-- ==== Sys2Proof/Machine/PatchCheck.lean ====
section
/-! DEFINITION. The loader's checks of a patch (R377), with the path rules of R369. -/
namespace Sys2Proof.Machine

/-- A place on a path: the address, the return addresses, LCNT where its value is known. -/
structure Walk where
  pc : Nat
  stack : List Nat
  lc : Option Nat
  deriving DecidableEq, Repr

/-- The places after a word (R361), by what may happen; none where a call chain is deeper than 8. -/
def walkNext (img : Nat → BitVec 64) (x : Walk) : Option (List Walk) :=
  let w := img x.pc
  let lc := if fld w 28 4 = 10 then (if fld w 16 4 = 0 then some (fld w 0 16) else none) else x.lc
  let tgt := fld w 41 11
  let next := (x.pc + 1) % 2048
  let go (a : Nat) : Walk := ⟨a, x.stack, lc⟩
  match fld w 59 3 with
  | 0 => some [go next]
  | 1 => some [go tgt]
  | 2 => some (if fld w 53 6 = 0 then [go tgt] else [go tgt, go next])
  | 3 => some (if fld w 53 6 = 0 then [go next] else [go next, go tgt])
  | 4 => if 8 ≤ x.stack.length then none else some [⟨tgt, x.stack ++ [next], lc⟩]
  | 5 => some (match x.stack.getLast? with | some a => [⟨a, x.stack.dropLast, lc⟩] | none => [])
  | 6 => some (match lc with
    | some 0 => [go next]
    | some (n + 1) => [⟨tgt, x.stack, some n⟩]
    | none => [go next, go tgt])
  | _ => some ((List.range 17).map fun i => go ((tgt + i) % 2048))

def isYield (w : BitVec 64) : Bool := fld w 62 2 != 0

/-- Follow every path to its next yield word, at most `fuel` words away: the places after those yields; none where a path breaks
the bound, or loops without a yield past it. -/
def untilYield (img : Nat → BitVec 64) : Nat → Walk → Option (List Walk)
  | 0, _ => none
  | fuel + 1, x =>
    match walkNext img x with
    | none => none
    | some l =>
      if isYield (img x.pc) then some l
      else l.foldl (fun acc y => match acc, untilYield img fuel y with | some a, some b => some (a ++ b) | _, _ => none) (some [])

/-- Every path from some places reaches a yield word within 64 words, and so on from each yield. DEDUCED, log entry 39. -/
def pathsOk (img : Nat → BitVec 64) : Nat → List Walk → List Walk → Bool
  | 0, _, _ => false
  | _ + 1, [], _ => true
  | fuel + 1, x :: t, seen =>
    if seen.contains x then pathsOk img fuel t seen
    else match untilYield img 64 x with
      | none => false
      | some l => pathsOk img fuel (t ++ l) (x :: seen)

/-- Addresses that follow a yield word of an image. -/
def followAddrs (img : Nat → BitVec 64) : List Nat :=
  let rets := (List.range 2048).filterMap fun a => if fld (img a) 59 3 = 4 then some ((a + 1) % 2048) else none
  ((List.range 2048).flatMap fun a =>
    if !isYield (img a) then []
    else if fld (img a) 59 3 = 5 then rets
    else ((walkNext img ⟨a, [], none⟩).getD []).map (·.pc)).eraseDups

/-- A word that check 5 refuses. -/
def ctlWordBad (w : BitVec 64) : Bool :=
  wordReserved w || ((fld w 28 4 == 10 || fld w 28 4 == 11) && fld w 59 3 == 6) || (fld w 59 3 == 7 && decide (2047 < fld w 41 11 + 16))

/-- Records reach beyond the bank, or two overlap. -/
def recsBad : List (Nat × List (BitVec 64)) → Bool
  | [] => false
  | r :: t => decide (2048 < r.1 + r.2.length) || t.any (fun q => decide (r.1 < q.1 + q.2.length) && decide (q.1 < r.1 + r.2.length)) || recsBad t

def maskBlockers (p : Patch) : List Nat := (List.range 64).filter fun b => p.mask / 2 ^ b % 2 = 1
/-- The live bank of a blocker. -/
def liveWord (s : State) (b : Nat) (a : Nat) : BitVec 64 := BitVec.ofNat 64 (natAt s (blkBank b (blkLive s b) + 8 * a) 8)
/-- Where threads of blocker b enter the new image. -/
def patchRoots (s : State) (p : Patch) (b : Nat) : List Walk :=
  let lib := if p.flags % 2 = 1 then [] else (List.range 10).map fun i => (entryRecord s b (i + 1)).1
  (p.ents.map (fun e => e.2.1) ++ lib).map fun a => ⟨a, [], none⟩

/-- The number of the first check that a patch fails, for the staged bytes that it was read from. DEDUCED, log entry 39. -/
def patchCheck (s : State) (bs : List Byte) (p : Patch) : Option Nat :=
  let bl := maskBlockers p
  let img (b : Nat) : Nat → BitVec 64 := patchImage p (liveWord s b)
  let relBad (b : Nat) : Bool :=
    let r := rfld s (blkReg b 0x18) 48 16
    p.baseRel != r || decide (p.newRel < p.baseRel) || (p.newRel == p.baseRel && decide (p.serial ≤ rfld s (blkReg b 0x18) 32 16))
  let sealDiff (b : Nat) : Bool := sealActive s && (List.range 2048).any fun a => sealedWord s b a && img b a != liveWord s b a
  if leAt bs 0 4 ≠ 0x4B504C42 ∨ leAt bs 4 2 ≠ 1 ∨ p.reserved ∨ 3 < p.flags then some 1
  else if !patchSigned s p then some 2
  else if bl.any relBad then some 3
  else if recsBad p.recs then some 4
  else if bl.any fun b => (List.range 2048).any fun a => ctlWordBad (img b a) then some 5
  else if bl.any fun b => !pathsOk (img b) (2 ^ 64) (patchRoots s p b) [] then some 6
  else if bl.any fun b => (followAddrs (liveWord s b)).any fun a => !(followAddrs (img b)).contains a then some 7
  else if p.ents.any fun e => decide (2048 ≤ e.2.1) || decide (e.1 < 1 ∨ 10 < e.1) then some 8
  else if bl.any sealDiff then some 9
  else none

end Sys2Proof.Machine
end

