-- ==== Sys2Proof/Machine/GlebyUpdate.lean ====
section
/-! DEFINITION. The update commands (R459, R460, R471). -/
namespace Sys2Proof.Machine

/-- An UPD_APPLY is under way. -/
def applying (s : State) : Bool := s.gly.cmds.any fun c => c.code == 0x0B02 && c.start.isSome && c.done.isNone

/-- UPD_STAGE: TOTAL is that of the image staged before, if one is. -/
def updStageBad (c : Call) (s : State) : Option BadAt :=
  let total := c.p 8 4
  firstBad [(decide (1 < c.p 0 1), 0), (c.p 4 4 % 16 != 0 || decide (total < c.p 4 4 + c.dlen), 4),
    (total % 16 != 0 || decide (0x1000000 < total) || (s.gly.stage.any fun g => g.kind == c.p 0 1 && g.total != total), 8)]
def updStage (c : Call) (s : State) : Reply × State :=
  if applying s || (s.gly.stage.any fun g => g.kind != c.p 0 1) then fail stWrong s
  else
    let g := s.gly.stage.getD ⟨c.p 0 1, c.p 8 4, [], []⟩
    let units := (List.range (c.data.length / 16)).map (c.p 4 4 / 16 + ·)
    let bytes := (c.data.zip (List.range c.data.length)).foldl (fun t b => tput t (c.p 4 4 + b.2) b.1) g.bytes
    done 0 (setGly { s.gly with stage := some { g with units := units.foldl sadd g.units, bytes := bytes } } s)
def execUpdStage (g : GIn) (s : State) : Res :=
  runCmd { code := 0x0B01, who := [pH, pM], fields := [(0, 1), (4, 4), (8, 4)], buffer := some (16, 1048576, 1), input := true }
    updStageBad noDeny noObs updStage g s

/-- The bytes of a staged image. -/
def stageBytes (g : Stage) : List Byte := (List.range g.total).map fun i => tget 0 g.bytes i
def stageWhole (g : Stage) : Bool := decide (g.units.length = g.total / 16) && g.total != 0

/-- The Gleby image in staged bytes: they may end in padding up to TOTAL. -/
def stagedImage (bs : List Byte) : List Byte :=
  let n := leAt bs 0x20 4 + 144
  if n ≤ bs.length ∧ bs.length < n + 16 then bs.take n else bs
/-- The patch in staged bytes, with the bytes it was read from. -/
def stagedPatch (bs : List Byte) : Option (List Byte × Patch) :=
  match parsePatch bs with
  | some p => some (bs, p)
  | none => (parsePatch (bs.take (bs.length - 8))).map fun p => (bs.take (bs.length - 8), p)

def fuseRoll (s : State) : Nat := fld s.bez.fuse 52 6
def liveSlot (s : State) : Nat := rfld s (bezReg 0) 8 1

/-- A Gleby image is verified and written to the inactive slot. -/
def applyGleby (c : Call) (bs : List Byte) (s : State) : Reply × State :=
  let img := stagedImage bs
  if !headerOk 1 img || !imageSigned s 0 img then fail stSignature s
  else if imageRoll img < fuseRoll s then fail stVersion s
  else if pfw s then fail stLedger s
  else
    let slot := 1 - liveSlot s
    let l := nextAudit false s
    let s := setBez { s.bez with rel := tput s.bez.rel slot (256 * imageRelease img + imageRoll img) } s
    let s := audit false 0x0105 c.who (natBytes 1 0 ++ natBytes 2 (imageRelease img) ++ natBytes 2 (imageSerial img) ++ natBytes 8 0) s
    ({ wait := .lines [l] slot, held := [(obUpdate, 0)] }, s)

/-- Whether blocker b refuses a swap at tick `t` (R374). -/
def armRefused (s : State) (b t : Nat) : Bool := decide (t < s.tb.tick + 4096) || rbit s (blkReg b 0) 1 || rbit s (blkReg b 0) 2

/-- Step 1 and 2: the shadow bank holds the live bank with the records, and BLK_VER says so. -/
def writeShadow (p : Patch) (b : Nat) (s : State) : State :=
  let s := putBank b (!blkLive s b) (patchImage p (liveWord s b)) s
  rput (blkReg b 0x18) 0 32 (p.newRel * 2 ^ 16 + p.serial) s
/-- Step 4 for the blockers in order, up to one that refuses. -/
def armAll (t : Nat) : List Nat → State → Option Nat × State
  | [], s => (none, s)
  | b :: l, s =>
    let s := rbitSet (blkReg b 0x10) 0 false (if rbit s (blkReg b 0) 1 then s else rset (blkReg b 8) (BitVec.ofNat 64 t) s)
    if armRefused s b t then (some b, blkArm b s) else armAll t l (blkArm b s)

/-- The patch goes into the shadow banks of its blockers and into the ledger, and the banks swap at `t`. -/
def installPatch (c : Call) (bs : List Byte) (p : Patch) (s : State) : Reply × State :=
  let bl := maskBlockers p
  let t := if c.p 8 8 = 0 then s.tb.tick + 12000000 else c.p 8 8
  let s := bl.foldl (fun s b => writeShadow p b s) s
  let l := nextAudit false s
  let s := audit false 0x0105 c.who (natBytes 1 1 ++ natBytes 2 p.newRel ++ natBytes 2 p.serial ++ natBytes 8 p.mask)
    (addRec5 (.patch p.serial) (setLedger { s.ledger with patches := s.ledger.patches ++ [bs] } s))
  let q := armAll t bl s
  match q.1 with
  | some b => failWith stRefused b q.2
  | none => ({ wait := .swapped bl [l] t, held := (obUpdate, 0) :: bl.map (obBlocker, ·) }, q.2)

/-- A patch is checked, written and armed. -/
def applyPatch (c : Call) (bs : List Byte) (s : State) : Reply × State :=
  match stagedPatch bs with
  | none => failWith stSignature 1 s
  | some (bs, p) =>
    match patchCheck s bs p with
    | some 3 => fail stVersion s
    | some 9 => fail stLocked s
    | some k => failWith stSignature k s
    | none =>
      if (maskBlockers p).any fun b => !spineOn s b then fail stPower s
      else if pfw s then fail stLedger s
      else installPatch c bs p s

/-- UPD_APPLY. -/
def updApply (c : Call) (s : State) : Reply × State :=
  match s.gly.stage with
  | none => fail stWrong s
  | some g =>
    if g.kind ≠ c.p 0 1 || !stageWhole g then fail stWrong s
    else if g.kind = 0 then applyGleby c (stageBytes g) s else applyPatch c (stageBytes g) s
/-- The blockers that the staged patch names. -/
def applyObs (s : State) : List (Nat × Nat) :=
  (obUpdate, 0) :: match s.gly.stage with
    | some g => if g.kind = 1 then (match stagedPatch (stageBytes g) with | some (_, p) => (maskBlockers p).map (obBlocker, ·) | none => []) else []
    | none => []
def execUpdApply (g : GIn) (s : State) : Res :=
  runCmd { code := 0x0B02, who := [pH, pM], fields := [(0, 1), (8, 8)] } (fun c _ => firstBad [(decide (1 < c.p 0 1), 0)]) noDeny
    (fun _ => applyObs s) updApply g s

/-- UPD_STATUS. -/
def slotRelease (s : State) (k : Nat) : Nat := tget 0 s.bez.rel k / 256 % 2 ^ 16
def updStatus (_ : Call) (s : State) : Reply × State :=
  let (n, k) := match s.gly.stage with | some g => (g.units.length % 2 ^ 16, g.kind) | none => (0, 0)
  done (slotRelease s (liveSlot s) + slotRelease s (1 - liveSlot s) * 2 ^ 16 + n * 2 ^ 32 + k * 2 ^ 48) s
def execUpdStatus (g : GIn) (s : State) : Res :=
  runCmd { code := 0x0B03, who := [pH, pM, pO, pI] } noBad noDeny noObs updStatus g s

/-- UPD_DISCARD. -/
def updDiscard (c : Call) (s : State) : Reply × State :=
  if s.gly.stage.any fun g => g.kind == c.p 0 1 then done 0 (setGly { s.gly with stage := none } s) else fail stNotFound s
def execUpdDiscard (g : GIn) (s : State) : Res :=
  runCmd { code := 0x0B04, who := [pH, pM], fields := [(0, 1)] } (fun c _ => firstBad [(decide (1 < c.p 0 1), 0)]) noDeny
    (fun _ => [(obUpdate, 0)]) updDiscard g s

end Sys2Proof.Machine
end

