-- ==== Sys2Proof/Machine/Mailbox.lean ====
section
/-! DEFINITION. The steward mailboxes (R396 to R418): queue registers, doorbells, fetches, completions, events, facet requests. -/
namespace Sys2Proof.Machine

def qreg (q o : Nat) : Nat := mbxReg (q * 0x40 + o)
def qcfg (s : State) (q : Nat) : BitVec 64 := rget s (qreg q 0x10)
def qEn (s : State) (q : Nat) : Bool := bit (qcfg s q) 0
def qBit (s : State) (q i : Nat) : Bool := rbit s (qreg q 0x18) i
def qSet (q i : Nat) (b : Bool) (s : State) : State := rbitSet (qreg q 0x18) i b s
def qActive (s : State) (q : Nat) : Bool := qBit s q 0
def sqSize (s : State) (q : Nat) : Nat := 2 ^ fld (qcfg s q) 8 4
def cqSize (s : State) (q : Nat) : Nat := 2 ^ fld (qcfg s q) 16 4
def sqHead (s : State) (q : Nat) : Nat := rfld s (qreg q 0x18) 16 12
def cqTail (s : State) (q : Nat) : Nat := rfld s (qreg q 0x18) 32 12
def qpair (s : State) (q : Nat) : QPair := tget {} s.gly.qps q
def setQpair (q : Nat) (x : QPair) (s : State) : State := { s with gly := { s.gly with qps := tset {} s.gly.qps q x } }
/-- MBX_GSTAT.READY without FAULT. -/
def glebyReady (s : State) : Bool := rbit s (mbxReg 0x800) 32 && !rbit s (mbxReg 0x800) 33
def qCmds (s : State) (q : Nat) : List Cmd := s.gly.cmds.filter fun c => c.src == .host q

/-! ### Configuration (R397, R398) -/

def qcfgMask : BitVec 64 := 0x00FFFFFF3F0F0F0F
/-- EN, IE, ICNT and ITIME: what a write stores while EN = 1. -/
def qcfgLive : BitVec 64 := 0x00FFFFFF00000009

/-- DRAIN and ACTIVE of a queue pair whose EN is 0. -/
def settleQueue (q : Nat) (s : State) : State :=
  if qEn s q || !qActive s q then s
  else if (qCmds s q).isEmpty then
    if (qpair s q).flr then setQpair q {} (rclear (qreg q 0) (qreg q 0x20) s) else qSet q 0 false (qSet q 1 false s)
  else qSet q 1 true s

/-- Why an enable with the value `v` is refused. -/
def enableRefused (s : State) (q : Nat) (v : BitVec 64) : Bool :=
  let log (n : Nat) : Bool := decide (1 ≤ n ∧ n ≤ 12)
  !glebyReady s || !log (fld v 8 4) || !log (fld v 16 4) || decide (48 ≤ fld v 24 6)
    || rget s (qreg q 0) == 0 || rget s (qreg q 8) == 0 || qActive s q

/-- A write to MBX_QCFG. DEDUCED, log entry 43. -/
def qcfgWrite (q : Nat) (v : BitVec 64) (s : State) : State :=
  let old := qcfg s q
  if bit old 0 then
    let s := if (v &&& qcfgMask &&& ~~~qcfgLive) ≠ (old &&& ~~~qcfgLive) then qSet q 5 true s else s
    settleQueue q (rset (qreg q 0x10) ((old &&& ~~~qcfgLive) ||| (v &&& qcfgLive)) s)
  else if bit v 0 then
    if enableRefused s q v then qSet q 5 true (rset (qreg q 0x10) (v &&& qcfgMask &&& ~~~1) s)
    else
      let st := rget s (qreg q 0x18) &&& 0x38
      setQpair q {} (rset (qreg q 0x18) (st ||| 1) (rset (qreg q 0x10) (v &&& qcfgMask) s))
  else rset (qreg q 0x10) (v &&& qcfgMask) s
/-- QUEUE_ENABLE: a write with EN = 1. -/
def execQueueEnable (q : Fin 16) (v : BitVec 64) (s : State) : Res := .next (qcfgWrite q (v ||| 1) s)
/-- QUEUE_DISABLE: a write with EN = 0. -/
def execQueueDisable (q : Fin 16) (v : BitVec 64) (s : State) : Res := .next (qcfgWrite q (v &&& ~~~1) s)

/-- A write to MBX_SQBASE or MBX_CQBASE. -/
def qbaseWrite (q o : Nat) (v : BitVec 64) (s : State) : State :=
  let n := v &&& ~~~0xFFF
  if qEn s q then (if n ≠ rget s (qreg q o) then qSet q 5 true s else s) else rset (qreg q o) n s

/-! ### Doorbells (R399) -/

/-- The queue pair stops on an error. -/
def qStop (q i : Nat) (s : State) : State := qSet q 2 true (qSet q i true s)

/-- DEDUCED, log entry 43. -/
def sqtailWrite (q v : Nat) (s : State) : State :=
  if !qActive s q then qSet q 3 true s
  else if sqSize s q ≤ v then qStop q 3 s
  else raiseSteward (288 + q) (setQpair q { qpair s q with tail := v } s)
def execMbxSqtail (q : Fin 16) (v : BitVec 64) (s : State) : Res := .next (sqtailWrite q (fld v 0 12) s)

/-- The value lies between the head and CQTAIL, going forward, both ends included. -/
def cqheadOk (s : State) (q v : Nat) : Bool :=
  let n := cqSize s q
  let h := (qpair s q).chead
  decide (v < n) && decide ((v + n - h) % n ≤ (cqTail s q + n - h) % n)
def cqheadWrite (q v : Nat) (s : State) : State :=
  if !qActive s q then qSet q 3 true s
  else if !cqheadOk s q v then qStop q 3 s
  else raiseSteward (288 + q) (setQpair q { qpair s q with chead := v } s)
def execMbxCqhead (q : Fin 16) (v : BitVec 64) (s : State) : Res := .next (cqheadWrite q (fld v 0 12) s)

/-! ### Fetching (R400, R401) -/

/-- Entries that queue q may still give. -/
def sqAvail (s : State) (q : Nat) : Nat :=
  if qEn s q && !qBit s q 2 then ((qpair s q).tail + sqSize s q - sqHead s q) % sqSize s q else 0
def qPri (s : State) (q : Nat) : Nat := fld (qcfg s q) 1 2
/-- The queue that the steward fetches from next: the highest PRI, round-robin among equals. DESIGN CHOICE, log entry 13. -/
def nextQueue (s : State) : Option Nat :=
  let ready := (List.range 16).filter fun q => sqAvail s q ≠ 0
  let best := ready.foldl (fun b q => max b (qPri s q)) 0
  let top := ready.filter fun q => qPri s q = best
  match s.gly.rr.find? fun r => r.1 == best with
  | some (_, l) => match top.find? fun q => decide (l < q) with
    | some q => some q
    | none => top.head?
  | none => top.head?

def addCmd (src : CmdSrc) (entry : BitVec 512) (s : State) : State :=
  setGly { s.gly with cmds := s.gly.cmds ++ [{ id := s.gly.nextId, src := src, entry := entry, at_ := s.fclk }],
                               nextId := s.gly.nextId + 1 } s
/-- A burst of entries is fetched from queue q. -/
def fetchBurst (q : Nat) (es : List (BitVec 512)) (s : State) : State :=
  let s := es.foldl (fun s e => addCmd (.host q) e s) s
  let s := rput (qreg q 0x18) 16 12 ((sqHead s q + es.length) % sqSize s q) s
  setGly { s.gly with rr := tput s.gly.rr (qPri s q) q } s
def burstLength (s : State) (q : Nat) : Nat := min 8 (min (sqAvail s q) (64 - hostInProgress s))
/-- COMMAND_FETCH: `ok` is false where a read failed on the link; of the burst, entries that the command does not bring read 0. DESIGN CHOICE, log entry 8. -/
def execCommandFetch (q : Fin 16) (entries : List (BitVec 512)) (ok : Bool) (s : State) : Res :=
  let n := burstLength s q
  if nextQueue s ≠ some q.val || n = 0 || !glebyReady s || !s.pwr.running then .refused .notEnabled
  else .next (if ok then fetchBurst q ((List.range n).map fun i => entries.getD i 0) s else qStop q 4 s)

/-! ### The ends of waits -/

/-- What the completion of a wait writes to a host buffer. -/
def waitData (c : Cmd) (bs : List Byte) (s : State) : State :=
  if c.isHost ∧ c.dlen ≠ 0 then emit (.hostWrite c.dptr (bs.take c.dlen)) s else s

/-- STATUS, RESULT and state of a command whose wait has come to its end; none while it goes on. -/
def waitEnd (s : State) (c : Cmd) : Option (Nat × Nat × State) :=
  let ended (b : Bool) (r : Nat) (s : State) : Option (Nat × Nat × State) := if b then some (stOk, r, s) else none
  match c.wait with
  | .none => if mayStart s c && !knownCmd c.code then some (stCommand, 0, s) else none
  | .lines ls r => ended (ls.all fun l => !ledgerPending s l) r s
  | .step r => ended s.tb.step.isNone r s
  | .hatSwap r => ended (!rbit s (hatReg 0) 2) r s
  | .halt n => ended (facetHalted s n) ((facet s n).pc.toNat * 8) s
  | .scrub u =>
    let bs := natBytes 8 (rget s (itgU u 0x28)).toNat ++ natBytes 8 (rget s (itgU u 0x30)).toNat
    ended (integ s u).scrub.isNone (rget s (itgU u 0x28)).toNat (waitData c bs s)
  | .retire u => ended (integ s u).retiring.isNone (rfld s (crownReg u 0x2820) 40 6) s
  | .power d t r =>
    if dBusy s d || (s.pwr.waking.any fun w => w.1 == d) || s.wakes.contains d then none
    else if domState s d = t then some (stOk, r, s) else some (stTimeout, r, s)
  | .chunks cs r => ended (cs.all fun k => s.touched.contains k) r s
  | .closed n => ended (ctxState s n == 3) 0 s
  | .measured p k =>
    if rbit s (cellReg p 0x60) 62 then none
    else match k with
      | 0 => some (stOk, (rget s (cellReg p 0x68)).toNat, s)
      | 1 => some (stOk, (rget s (cellReg p 0x70)).toNat, s)
      | _ => let r := bindFinish p s; some (stOk, r.1, r.2)
  | .unbinding p => ended (((thread s p).state == 0 || (thread s p).state == 3) && !rbit s (sesReg 0) 2) 0 (unbindFinish p s)
  | .release lo n =>
    ended (!(s.fills.any fun k => decide (lo ≤ k) && decide (k < lo + n)))
      (s.touched.filter fun k => decide (lo ≤ k) && decide (k < lo + n)).length (releaseChunks lo n s)
  | .swapped bs ls r => ended ((bs.all fun b => rbit s (blkReg b 0x10) 0) && ls.all fun l => !ledgerPending s l) r s
  | .sealing => none
  | .breaking => none

/-- The first of some commands that has finished or whose wait is over, finished. -/
def readyCmd (s : State) (p : Cmd → Bool) : Option (Cmd × State) :=
  match s.gly.finished.findSome? fun i => s.gly.cmds.find? fun c => c.id == i && p c with
  | some c => some (c, s)
  | none => s.gly.cmds.findSome? fun c =>
      if !p c || c.done.isSome then none
      else (waitEnd s c).map fun r =>
        ({ c with done := some (r.1, BitVec.ofNat 64 r.2.1) }, finishCmd c r.1 r.2.1 r.2.2)

/-! ### Completions and interrupts (R402 to R404, R407) -/

def cqFull (s : State) (q : Nat) : Bool := (cqTail s q + 1) % cqSize s q == (qpair s q).chead

/-- The message of queue q is sent, and its count starts again. -/
def qMessage (q : Nat) (s : State) : State :=
  setQpair q { qpair s q with count := 0, firstAt := none } (sendMsix 0 (fld (qcfg s q) 24 6) s)
/-- A completion counts against ICNT and ITIME; while IE = 1, the one that reaches ICNT sends the message. -/
def qCount (q : Nat) (s : State) : State :=
  let x := qpair s q
  let s := setQpair q { x with count := x.count + 1, firstAt := some (x.firstAt.getD s.fclk) } s
  if bit (qcfg s q) 3 ∧ max 1 (fld (qcfg s q) 32 8) ≤ x.count + 1 then qMessage q s else s

/-- The 16 bytes of a completion entry. -/
def cqEntry (s : State) (q cid status : Nat) (result : BitVec 64) : List Byte :=
  natBytes 8 (b2n (qpair s q).phase * 2 ^ 48 + sqHead s q * 2 ^ 32 + status % 2 ^ 16 * 2 ^ 16 + cid) ++ natBytes 8 result.toNat
/-- An entry is written to slot CQTAIL, and CQTAIL advances. -/
def cqWrite (q cid status : Nat) (result : BitVec 64) (s : State) : State :=
  let t := cqTail s q
  let s := emit (.hostWrite ((rget s (qreg q 8)).toNat + 16 * t) (cqEntry s q cid status result)) s
  let n := (t + 1) % cqSize s q
  let s := rput (qreg q 0x18) 32 12 n s
  let x := qpair s q
  qCount q (if n = 0 then setQpair q { x with phase := !x.phase } s else s)

/-- What a posted SUCCESS starts: P3 (R547), a package reset (R430). -/
def afterPost (c : Cmd) (st : Nat) (s : State) : State :=
  if st ≠ 0 then s
  else if c.code = 0x0103 then setPwr { s.pwr with standby := some s.fclk } s
  else if c.code = 0x0005 ∧ c.param % 256 = 2 then setPwr { s.pwr with resetAt := some (s.fclk + 10 * msFclk) } s
  else s

/-- A finished command is posted; where the write fails on the link, the queue pair stops and the completion is lost. After an FLR of
PF0 none is posted (R517). DEDUCED, log entry 44. -/
def postCmd (q : Nat) (c : Cmd) (ok : Bool) (s : State) : State :=
  let (st, r) := c.done.getD (0, 0)
  let s := dropCmd c.id s
  settleQueue q (if (qpair s q).flr then s else if ok then afterPost c st (cqWrite q c.cid st r s) else qStop q 4 s)
/-- The oldest event of the event queue is posted on queue 0. -/
def postQueued (ok : Bool) (e : Nat × BitVec 64) (t : List (Nat × BitVec 64)) (s : State) : State :=
  let s := setGly { s.gly with evq := t } s
  let s := if ok then cqWrite 0 0xFFFF (0x8000 + e.1) e.2 s else qStop 0 4 s
  if s.gly.dropped = 0 then s
  else setGly { s.gly with evq := s.gly.evq ++ [(0xFF, BitVec.ofNat 64 s.gly.dropped)], dropped := 0 } s

/-- COMPLETION_POST: a finished command of queue q, or on queue 0 the oldest waiting event. -/
def execCompletionPost (q : Fin 16) (ok : Bool) (s : State) : Res :=
  if !qActive s q || (cqFull s q && !(qpair s q).flr) || !s.pwr.running then .refused .notEnabled
  else match readyCmd s fun c => c.src == .host q with
    | some (c, s) => .next (postCmd q c ok s)
    | none => match s.gly.evq with
      | e :: t => if q = 0 ∧ !(qpair s 0).flr then .next (postQueued ok e t s) else .refused .notEnabled
      | [] => .refused .notEnabled

/-- INTERRUPT_TIME_EXPIRY. -/
def execInterruptTimeExpiry (q : Fin 16) (s : State) : Res :=
  match (qpair s q).firstAt with
  | some f => gateAt (bit (qcfg s q) 3 && fld (qcfg s q) 40 16 != 0) (f + fld (qcfg s q) 40 16 * usFclk) s (qMessage q)
  | none => .refused .notEnabled

/-! ### Events, the heartbeat, time limits (R405, R410) -/

/-- RESULT of an event (R431): `data` names the facet, unit, blocker, feed, group, channel, session, package, region or sensor, in the bits of
that class's first field; the machine gives the rest. A region's status and the sensor are `data`'s own. -/
def eventResult (s : State) (cls : Nat) (data : BitVec 64) : BitVec 64 :=
  let d (w : Nat) : Nat := fld data 0 w
  BitVec.ofNat 64 (match cls with
  | 0 => d 7 + rfld s (crownReg (d 7 / 8) (0x100 + d 3 * 0x40)) 8 8 * 2 ^ 8
  | 1 => let u := min 16 (d 5)
    u + rfld s (itgU u 8) 0 8 * 2 ^ 8
  | 2 => d 6 + rfld s (blkReg (d 6) 0x10) 16 48 * 2 ^ 16
  | 3 => d 6 + fld data 8 2 * 2 ^ 8 + rfld s (pfdReg (d 6) 0) (4 * fld data 8 2) 4 * 2 ^ 12
  | 4 => d 3 + rfld s (grpReg (d 3) 8) 16 3 * 2 ^ 16
  | 5 => (rget s (timReg 0x40)).toNat
  | 6 => let k := d 9 % 288
    k + rfld s (chanReg k 0x100) 8 4 * 2 ^ 12
  | 7 => rfld s (sesReg 0x10) 0 6
  | 8 => d 14 + ctxFld s (d 14) 0 30 18 * 2 ^ 14 + ctxState s (d 14) * 2 ^ 32
  | 9 => d 8 + b2n ((members s).contains (d 8)) * 2 ^ 8
  | 11 => metroState s
  | _ => d 16)

/-- ASYNC_EVENT_POST: an event of the classes of R431, or the count of events dropped once there is room. -/
def execAsyncEventPost (cls : Fin 256) (data : BitVec 64) (s : State) : Res :=
  if cls.val ≤ 0x0C then gate s.pwr.running (postEvent cls (eventResult s cls data) s)
  else gate (cls.val == 0xFF && s.gly.dropped != 0 && decide (s.gly.evq.length < 256) && s.pwr.running)
    (setGly { s.gly with evq := s.gly.evq ++ [(0xFF, BitVec.ofNat 64 s.gly.dropped)], dropped := 0 } s)

/-- Monitor bits that are set and have not been reported are posted as class 0x0C (R556). -/
def postWarnings (s : State) : State :=
  let now := (rget s (girdle 0x120)).toNat % 2 ^ 58
  let s := ((List.range 58).filter fun i => now / 2 ^ i % 2 = 1 ∧ s.gly.warned / 2 ^ i % 2 = 0).foldl
    (fun s i => postEvent 0x0C (BitVec.ofNat 64 i) s) s
  (setGly { s.gly with warned := now } s)
/-- HEARTBEAT: every 1.000 ms ± 1 %; Gleby also kicks the watchdog (R553). -/
def execHeartbeat (s : State) : Res :=
  gateAt s.pwr.running (s.gly.beat + 1188000) s fun s =>
    let s := kick (setGly { s.gly with beat := s.fclk } s)
    postWarnings (if glebyReady s then rput (mbxReg 0x800) 0 32 (rfld s (mbxReg 0x800) 0 32 + 1) s else s)

/-- COMMAND_TIMEOUT: RESULT names what stands. DEDUCED, log entry 44. -/
def execCommandTimeout (id : Nat) (s : State) : Res :=
  match s.gly.cmds.find? fun c => c.id == id with
  | some c =>
    gateAt (c.done.isNone && s.pwr.running) (c.start.getD c.at_ + cmdLimit c.code * msFclk) s fun s =>
      let (v, s) := drawFree s
      finishCmd c stTimeout v.toNat (abandonWait c s)
  | none => .refused .notEnabled

/-! ### Facet mailboxes (R412 to R418) -/

/-- Requests of a facet in progress. -/
def facetBusy (s : State) (n : Nat) : Bool := s.gly.cmds.any fun c => c.ofFacet == some n

/-- REQUEST_TAKE. -/
def requestTake (n : Nat) (r : BitVec 256 × KReg) (t : List (BitVec 256 × KReg)) (s : State) : State :=
  let s := addCmd (.facet n r.2) (r.1.setWidth 512) s
  let take (f : Facet) : Facet :=
    { f with reqRing := t, credits := min 4 (f.credits + 1), credNew := f.credNew + 1, inProgress := f.inProgress + 1 }
  let s := facetPulse n 49 (updFacet n take s)
  setRaw stewardCtl (128 + n) (!t.isEmpty) s
/-- DEDUCED, log entry 65. -/
def execRequestTake (n : Fin 128) (s : State) : Res :=
  match (facet s n).reqRing with
  | r :: t => gate (!facetBusy s n && decide ((facet s n).respRing.length < 4) && glebyReady s && s.pwr.running) (requestTake n r t s)
  | [] => .refused .notEnabled

/-- The response entry of a finished request. -/
def respEntry (c : Cmd) (st : Nat) (r : BitVec 64) : BitVec 256 := BitVec.ofNat 256 (r.toNat * 2 ^ 64 + st % 2 ^ 16 * 2 ^ 16 + c.cid)
/-- A finished request's response enters the response ring; after a reset of the facet it is dropped (R417). -/
def collectResp (n : Nat) (c : Cmd) (s : State) : State :=
  let (st, r) := c.done.getD (0, 0)
  let s := dropCmd c.id s
  updFacet n (fun f =>
    let f := { f with inProgress := f.inProgress - 1 }
    if f.dropResp ≠ 0 then
      { f with dropResp := f.dropResp - 1, credits := if f.inProgress = 0 ∧ f.reqRing.isEmpty then 4 else f.credits }
    else { f with respRing := f.respRing ++ [respEntry c st r] }) s
/-- The oldest response lands in the staging buffer; source 48 is asserted, or recorded while the crown sleeps. -/
def forwardResp (n : Nat) (s : State) : State :=
  let f := facet s n
  match f.respRing with
  | e :: t =>
    if f.staging.length < 4 then
      let s := setFacet n { f with respRing := t, staging := f.staging ++ [e], respNew := f.respNew + 1 } s
      if crownUp s (crownOf n) then setRaw n 48 true s else recordEvent n 48 s
    else s
  | [] => s
/-- RESPONSE_FORWARD. -/
def execResponseForward (n : Fin 128) (s : State) : Res :=
  match readyCmd s fun c => c.ofFacet == some n.val with
  | some (c, s) => .next (forwardResp n (collectResp n c s))
  | none => gate (!(facet s n).respRing.isEmpty && decide ((facet s n).staging.length < 4)) (forwardResp n s)

/-! ### The mailbox block (R396, R418) -/

def mbxWrite (o : Nat) (v : BitVec 64) (s : State) : State :=
  if o < 0x400 then
    let q := o / 0x40
    match o % 0x40 with
    | 0 => qbaseWrite q 0 v s
    | 8 => qbaseWrite q 8 v s
    | 0x10 => qcfgWrite q v s
    | 0x18 => rw1c (qreg q 0x18) 0x38 v s
    | _ => s
  else if 0x1000 ≤ o ∧ o < 0x1080 then sqtailWrite ((o - 0x1000) / 8) (fld v 0 12) s
  else if 0x1080 ≤ o ∧ o < 0x1100 then cqheadWrite ((o - 0x1080) / 8) (fld v 0 12) s
  else s
def mbxRead (s : State) (o : Nat) : BitVec 64 :=
  if o < 0x1000 then rget s (mbxReg o)
  else if 0x8000 ≤ o then
    let f := facet s ((o - 0x8000) / 0x100)
    let i := o % 0x80 / 32
    let e : BitVec 256 := if o % 0x100 < 0x80 then ((f.reqRing[i]?).map (·.1)).getD 0 else (f.respRing[i]?).getD 0
    (e >>> (64 * (o % 32 / 8))).setWidth 64
  else 0

end Sys2Proof.Machine
end

