-- ==== Sys2Proof/Machine/Access.lean ====
section
/-! DEFINITION. Accesses by the shared port and to register blocks (R21, R23, R168, R228, R247, R250 to R252, R481), fills
(R242, R243), and uncorrectable DRAM lines (R524, R526). -/
namespace Sys2Proof.Machine

/-! ### Register blocks -/

/-- The register blocks that capabilities reach (R21, R423, R474, R493). DEDUCED, log entry 27. -/
def capReaches (a : Nat) : Bool :=
  match region a with
  | .fregs _ | .brim _ => true
  | .girdle o => decide (0x10000 ≤ o ∧ o < 0x40000) || decide (0x50000 ≤ o ∧ o < 0x58000) || o == 0x80100
      || decide (0x100000 ≤ o ∧ o < 0x800000) || decide (0x1000000 ≤ o ∧ o < 0x2000000)
      || (decide (0x8000000 ≤ o ∧ o < 0x8100000) && decide (0x4000 ≤ o % 0x10000 ∧ o % 0x10000 < 0x8000))
  | _ => false

/-- The access is let through: `perm` is PERM of the capability that authorised it. -/
def accessOk (a perm : Nat) (write : Bool) : Bool :=
  capReaches a && assignedAt a && (accessPerms a write).all fun p => perm.testBit p

/-- The channel whose block holds a girdle offset. -/
def chanAt (o : Nat) : Nat :=
  if o < 0x58000 then 256 + (o - 0x50000) / 0x400 else (o - 0x8000000) / 0x10000 * 16 + ((o - 0x8000000) % 0x10000 - 0x4000) / 0x400

/-- An aligned 8-byte read of a register through a capability: the value, or none where the block refuses it. -/
def regRead (a perm : Nat) (s : State) : Option (BitVec 64) × State :=
  if !accessOk a perm false then (none, s)
  else match region a with
  | .fregs n => if inPartition s n then (none, s) else (some (facetRegRead s n (a - facetRegBase n)), s)
  | .brim o =>
    if o < 0x100000 then (some (cellRead s (o / 0x400) (o % 0x400)), s)
    else if o < 0x500000 then
      let q := (o - 0x100000) % 0x10000
      (if blkReadable q then some (blkRead s ((o - 0x100000) / 0x10000) q) else none, s)
    else if o < 0x504000 then
      let b := (o - 0x500000) / 0x100
      let q := o % 0x100
      let v := pfdRead s b q
      (some v, if 0x20 ≤ q ∧ q % 0x20 = 0x18 then fmeasRead b ((q - 0x20) / 0x20) s else s)
    else (some (rget s a), s)
  | .girdle o =>
    if o < 0x20000 then
      let q := o - 0x10000
      (if 0x1000 ≤ q ∨ q = 8 ∨ q = 0x38 ∨ q = 0x40 then some (timRead s q) else none, s)
    else if o < 0x40000 then (some (hatRead s (o - 0x20000)), s)
    else if o < 0x58000 then (some (chanRead s (chanAt o) (o % 0x400)), s)
    else if o < 0x100000 then (some (bezRead s (o - 0x80000)), s)
    else if o < 0x200000 then (some (sesRead s (o - 0x100000)), s)
    else if o < 0x2000000 then
      let line := (o - 0x1000000) / 64
      (if calGranted s line then some (BitVec.ofNat 64 (natAt s a 8)) else none, s)
    else (some (chanRead s (chanAt o) (o % 0x400)), s)
  | _ => (none, s)

/-- An aligned 8-byte write of a register through a capability: whether the block accepts it, and the state. -/
def regWrite (a : Nat) (v : BitVec 64) (perm : Nat) (by_ : Agent) (s : State) : Bool × State :=
  if !accessOk a perm true then (false, s)
  else match region a with
  | .fregs n => match facetRegWrite n (a - facetRegBase n) v by_ s with
    | some t => (true, t)
    | none => (false, s)
  | .brim o =>
    if o < 0x100000 then cellWrite (o / 0x400) (o % 0x400) v by_ s
    else if o < 0x500000 then blkWrite ((o - 0x100000) / 0x10000) ((o - 0x100000) % 0x10000) v by_ s
    else if o < 0x504000 then pfdWrite ((o - 0x500000) / 0x100) (o % 0x100) v by_ s
    else (false, s)
  | .girdle o =>
    if o < 0x20000 then timWrite (o - 0x10000) v by_ s
    else if o < 0x40000 then hatWrite (o - 0x20000) v by_ s
    else if o < 0x58000 then chanWrite (chanAt o) (o % 0x400) v by_ s
    else if o < 0x100000 then (false, s)
    else if o < 0x200000 then sesWrite (o - 0x100000) v by_ s
    else if o < 0x2000000 then ledgerWrite ((o - 0x1000000) / 64) (o % 64 / 8) v by_ s
    else chanWrite (chanAt o) (o % 0x400) v by_ s
  | _ => (false, s)

/-! ### The steward's own writes (R5, R578) -/

/-- A write of the steward interrupt block (R220, R221). -/
def intBlockWrite (o : Nat) (v : BitVec 64) (s : State) : State :=
  let k := stewardCtl
  let c := intCtl s k
  match o with
  | 0x10 => intEoi k (fld v 0 10) s
  | 0x18 => intSetp k (fld v 0 10) s
  | 0x20 => intClrp k (fld v 0 10) s
  | 0x28 => intStatClear k v s
  | 0x30 => if v = 0 then setIntCtl k { c with fdrop := 0 } s else s
  | 0x38 => rw1c (intReg 0x38) 0xF v s
  | _ => if 0x1000 ≤ o ∧ o < 0x3000 then scfgWrite k ((o - 0x1000) / 8) v s else s

/-- A write through a facet's crown interrupt window: as its own MTS, but that a locked source is reported, and 0 clears INT_FDROP. -/
def crownIntWrite (n num : Nat) (v : BitVec 64) (s : State) : Bool × State :=
  if (num = 0x46 ∧ srcLocked s n (fld (intCtl s n).sel 0 6)) ∨ (num = 0x44 ∧ srcLocked s n (fld v 0 10)) then
    (false, tellSteward (crownIntReg n num) .steward s)
  else if num = 0x4B then (true, if v = 0 then setIntCtl n { intCtl s n with fdrop := 0 } s else s)
  else (true, intSysWrite n num v s)

/-- A crown register other than a channel's (R235 to R237, R269 to R282, R579). A write of CRN_CTL meets the conditions of Gleby's command
(R236). -/
def crownRegWrite (c o : Nat) (v : BitVec 64) (s : State) : Bool × State :=
  if o = 0 then (true, if crownQuiet s c then setCompat c (bit v 0) s else s)
  else if o = 8 then (true, if v = 0 then rset (crownReg c 8) 0 s else s)
  else if o < 0x300 then (true, s)
  else if o = 0x300 then (true, rw1c (crownReg c 0x300) 0xFFFF v s)
  else if o < 0x2000 then crownIntWrite (8 * c + (o - 0x1000) / 0x80) (0x40 + o % 0x80 / 8) v s
  else if o < 0x2800 then (true, logWrite c (o - 0x2000) v s)
  else (true, itgWrite c (o - 0x2800) v s)

/-- ETH_MCFG of MAC m written: EN = 0 takes a link down (R519, R523). DEDUCED, log entry 84. -/
def macCfgWrite (m : Nat) (v : BitVec 64) (s : State) : State :=
  let s := rset (macReg m 0) (v &&& 0xFFFF) s
  if !bit v 0 && rbit s (macReg m 8) 0 then raiseSteward (304 + m) (rput (macReg m 8) 0 3 0 s) else s

/-- An Ethernet register (R519, R531): ETH_MCFG and ETH_FOUT take their RW bits, counters and queues nothing. -/
def ethWrite (o : Nat) (v : BitVec 64) (s : State) : State :=
  if o < 0x8000 then (if o % 0x1000 = 0 then macCfgWrite (o / 0x1000) v s else s)
  else rset (ethReg o) (v &&& 0x3FFFF) s

/-- A write of a register by the steward: whether its block accepts it, and the state. -/
def stewardWrite (a : Nat) (v : BitVec 64) (s : State) : Bool × State :=
  match region a with
  | .fregs _ => regWrite a v 0xFFF .steward s
  | .brim o =>
    if 0x510000 ≤ o then (true, if o % 0x100 = 0 then groupWrite ((o - 0x510000) / 0x100) v s
      else rw1c a 0x70000 v s)
    else regWrite a v 0xFFF .steward s
  | .girdle o =>
    if o < 0x10000 then (true, pwrWrite o v s)
    else if o < 0x40000 then regWrite a v 0xFFF .steward s
    else if o < 0x50000 then (true, if 0x41000 ≤ o then logWrite 16 (o - 0x41000) v s else itgWrite 16 (o - 0x40000) v s)
    else if o < 0x60000 then regWrite a v 0xFFF .steward s
    else if o < 0x70000 then (true, intBlockWrite (o - 0x60000) v s)
    else if o < 0x80000 then (true, mbxWrite (o - 0x70000) v s)
    else if o < 0x90000 then (true, s)
    else if o < 0xA0000 then (true, ldgWrite (o - 0x90000) v s)
    else if o < 0xC0000 then (true, ethWrite (o - 0xB0000) v s)
    else if o < 0x100000 then (true, s)
    else if o < 0x400000 then sesWrite (o - 0x100000) v .steward s
    else if o < 0x800000 then ctxWrite ((o - 0x400000) / 256) (o % 256) (natBytes 8 v.toNat) .steward s
    else if o < 0x2000000 then ledgerWrite ((o - 0x1000000) / 64) (o % 64 / 8) v .steward s
    else if 0x4000 ≤ o % 0x10000 then chanWrite (chanAt o) (o % 0x400) v .steward s
    else crownRegWrite ((o - 0x8000000) / 0x10000) (o % 0x10000) v s
  | _ => (false, s)

/-! ### The steward's own reads (R217, R220, R250, R251) -/

/-- A read of the steward interrupt block; the claim registers claim, entries 1,023 read 0 (R220). -/
def intBlockRead (o : Nat) (s : State) : BitVec 64 × State :=
  let k := stewardCtl
  if o = 0 then (claimValue s k false, claim k false s)
  else if o = 8 then (claimValue s k true, claim k true s)
  else if o = 0x28 then (intStatRead s k, s)
  else if o = 0x30 then (BitVec.ofNat 64 (intCtl s k).fdrop, s)
  else if o = 0x38 then (rget s (intReg 0x38), s)
  else if 0x100 ≤ o ∧ o < 0x180 then (summaryRead s k ((o - 0x100) / 8 * 64) false, s)
  else if 0x200 ≤ o ∧ o < 0x280 then (summaryRead s k ((o - 0x200) / 8 * 64) true, s)
  else if 0x1000 ≤ o ∧ o < 0x2FF8 then (scfgRead s k ((o - 0x1000) / 8), s)
  else if 0x3000 ≤ o ∧ o < 0x4FF8 then (sstatRead s k ((o - 0x3000) / 8), s)
  else (0, s)
/-- A read of a crown register other than a channel's; a claim register of the interrupt window does not claim (R217). -/
def crownRegRead (s : State) (c o : Nat) : BitVec 64 :=
  if 0x1000 ≤ o ∧ o < 0x2000 then intSysRead s (8 * c + (o - 0x1000) / 0x80) (0x40 + o % 0x80 / 8) else rget s (crownReg c o)
/-- A read of a register by the steward. -/
def stewardRead (a : Nat) (s : State) : BitVec 64 × State :=
  match region a with
  | .fregs n => (facetRegRead s n (a - facetRegBase n), s)
  | .girdle o =>
    if 0x1000 ≤ o ∧ o < 0x2000 then (dctlRead s ((o - 0x1000) / 8), s)
    else if 0x60000 ≤ o ∧ o < 0x70000 then intBlockRead (o - 0x60000) s
    else if 0x70000 ≤ o ∧ o < 0x80000 then (mbxRead s (o - 0x70000), s)
    else if 0x10000 ≤ o ∧ o < 0x20000 then (timRead s (o - 0x10000), s)
    else if 0x400000 ≤ o ∧ o < 0x2000000 then (BitVec.ofNat 64 (natAt s a 8), s)
    else if 0x8000000 ≤ o ∧ o % 0x10000 < 0x4000 then (crownRegRead s ((o - 0x8000000) / 0x10000) (o % 0x10000), s)
    else let q := regRead a 0xFFF s
      (q.1.getD (rget s a), q.2)
  | _ => let q := regRead a 0xFFF s
    (q.1.getD (rget s a), q.2)

/-- The registers that the steward reaches: every assigned one, and Gleby's own ledger region (R492). -/
def stewardReg (a : Nat) : Bool :=
  a % 8 == 0 && (assignedAt a || (match region a with | .girdle o => decide (0x1190000 ≤ o ∧ o < 0x1200000) | _ => false))

/-! ### Fills (R241 to R243) -/

/-- FILL_DONE (R242). -/
def execFillDone (s : State) : Res := gate (!s.fills.isEmpty) (fillDone s)

/-! ### Accesses of any size -/

/-- The shared port serves a store of an active partition for the named channels only (R481). -/
def partitionRefuses (s : State) (a : Nat) (by_ : Agent) : Bool :=
  match region a with
  | .fstore n | .code n => inPartition s n && !(match by_ with | .mover k => s.locks.chans.contains k.val | .loader => true | _ => false)
  | _ => false

/-- A session context byte (R384). -/
def ctxAt (a : Nat) : Option (Nat × Nat) :=
  match region a with
  | .girdle o => if 0x400000 ≤ o ∧ o < 0x800000 then some ((o - 0x400000) / 256, o % 256) else none
  | _ => none

/-- The MAC whose queue window holds an address, and whether it is the transmit window (R519). -/
def macOfWindow (a : Nat) : Nat × Bool := let o := a - ethReg 0; (o / 0x1000, decide (0xC00 ≤ o % 0x1000))

/-- A read of a MAC's receive window pops bytes; bytes that the queue does not hold are free values. -/
def macPop (m n : Nat) (s : State) : List Byte × State :=
  let x := mac s m
  let got := x.rx.take n
  let s := setMacs (tset {} s.macs m { x with rx := x.rx.drop n }) s
  if got.length = n then (got, s)
  else let (v, s) := drawFree s; (got ++ (natBytes 16 (v.toNat * 2 ^ 64 + v.toNat)).take (n - got.length), s)
/-- A write to a MAC's transmit window enters the transmit queue as far as it has place. -/
def macPush (m : Nat) (bs : List Byte) (s : State) : State :=
  let x := mac s m
  setMacs (tset {} s.macs m { x with tx := x.tx ++ bs.take (32768 - x.tx.length) }) s

/-- A read of a cell's window: the receive half pops bytes, and a mover learns that they ran short; the transmit half reads 0. -/
def cellWindowRead (by_ : Agent) (p a len : Nat) (s : State) : Option (List Byte) × State :=
  if a % 0x400 < 0x200 then (some (List.replicate len 0), s)
  else
    let q := rxRead p len s
    (some q.1, match by_ with | .mover k => if q.2.1 then rbitSet (chanReg k 0x100) 17 true q.2.2 else q.2.2 | _ => q.2.2)
/-- A mover's read of a MAC's window. -/
def macWindowRead (a len : Nat) (s : State) : Option (List Byte) × State :=
  if (macOfWindow a).2 then (some (List.replicate len 0), s)
  else
    let q := macPop (macOfWindow a).1 len s
    (some q.1, q.2)

/-- A read: the bytes, or none where the target refuses it. `perm` is PERM of the capability that authorised it. -/
def readAt (by_ : Agent) (perm a len : Nat) (s : State) : Option (List Byte) × State :=
  if cellWindow a then
    let p := (a - cellReg 0 0) / 0x400
    if len ∉ [1, 2, 4, 8] ∨ a % len ≠ 0 ∨ !perm.testBit permPORT then (none, s)
    else if !windowOk s p by_ then (none, cellStat p 5 s)
    else cellWindowRead by_ p a len s
  else if macWindow a then
    match by_ with
    | .mover _ => if len ≠ 8 ∨ a % 8 ≠ 0 then (none, s) else macWindowRead a len s
    | _ => (none, s)
  else if isRegister a then
    if len ≠ 8 ∨ a % 8 ≠ 0 then (none, s)
    else
      let q := regRead a perm s
      (q.1.map fun v => natBytes 8 v.toNat, q.2)
  else if partitionRefuses s a by_ then (none, s)
  else
    let q := memoryRead a len s
    (some q.1, q.2)

/-- A write: whether the target takes it, and the state. A write to an untouched chunk is held for its fill. -/
def writeAt (by_ : Agent) (perm a : Nat) (bs : List Byte) (s : State) : Bool × State :=
  if cellWindow a then
    let p := (a - cellReg 0 0) / 0x400
    if bs.length ∉ [1, 2, 4, 8] ∨ a % bs.length ≠ 0 ∨ !perm.testBit permPORT then (false, s)
    else if !windowOk s p by_ then (false, cellStat p 5 s)
    else (true, if a % 0x400 < 0x200 then txWrite p bs s else s)
  else if macWindow a then
    match by_ with
    | .mover _ =>
      if bs.length ≠ 8 ∨ a % 8 ≠ 0 then (false, s)
      else (true, if (macOfWindow a).2 then macPush (macOfWindow a).1 bs s else s)
    | _ => (false, s)
  else match ctxAt a with
  | some (n, off) => ctxWrite n off bs by_ s
  | none =>
    if isRegister a then
      if bs.length ≠ 8 ∨ a % 8 ≠ 0 then (false, s) else regWrite a (BitVec.ofNat 64 (bytesNat bs)) perm by_ s
    else if partitionRefuses s a by_ then (false, s)
    else (true, (pieces (bs.length + 1) a bs).foldl (fun s p => writeMem by_ p.1 p.2 s) (nextWrite s))

/-- The power domains that serve a range: on, or a crown at P0, P1 or on its way to P2 (R120, R249, R542, R543). -/
def domServes (s : State) (d : Nat) : Bool := domState s d == 1 || (decide (d < 16) && (domState s d == 2 || domState s d == 5))
def rangeServed (s : State) (lo hi : Nat) : Bool := (rangeDomains lo hi).all (domServes s)

/-- The range holds a word that waits for a reconstruction (R262). -/
def rangeBad (s : State) (a len : Nat) : Bool := (wordsIn a len).any (wordBad s)

/-- An uncorrectable DRAM line in the girdle log, and the source of its channel (R524, R526). -/
def dramUe (a : Nat) (s : State) : State :=
  let (v, s) := drawFree s
  raiseSteward (313 + a / 256 % 2) (logEvents 16 [⟨5, 6, fld v 0 4, fld v 4 5, 0, a / 64 * 64, true, false⟩] s)

/-- An access that finds uncorrectable data is refused: a DRAM line, or a word erased by a failed reconstruction. -/
def noteUe (a : Nat) (s : State) : State := match region a with | .dram => dramUe a s | _ => s

end Sys2Proof.Machine
end

