-- ==== Sys2Proof/Machine/Requests.lean ====
section
/-! DEFINITION. Requests of the agents outside the movers: remote operations at their targets (R119 to R124), register writes (R5, R23,
R578), host requests through PF1 (R513 to R515), fabric requests (R529, R530). -/
namespace Sys2Proof.Machine

/-! ### Remote operations (R119 to R124, R247, R248) -/

/-- The facet takes the outcome: DONE and FAIL of the index, of which a rise raises source 50 (R205), remote-error pending where the operation
was refused. -/
def endRemote (n : Nat) (r : Remote) (done fail : Bool) (s : State) : State :=
  let was := (facet s n).arf
  let s := noteHit (arfReg n) r.idx done (noteHit (arfReg n) (16 + r.idx) fail s)
  let s := updFacet n (fun f => { f with
    remotes := f.remotes.erase r
    arf := setBit (setBit f.arf r.idx done) (16 + r.idx) fail
    remErr := f.remErr || (fail && !done) }) s
  if (done && !bit was r.idx) || (fail && !bit was (16 + r.idx)) then facetPulse n 50 s else s

/-- The result lands in the issuing facet's store, through the shared port (R119, R228). -/
def landLocal (n : Nat) (r : Remote) (bs : List Byte) (s : State) : State :=
  endRemote n r true false (writeMem (.facet (Fin.ofNat 128 n)) r.locl bs s)

/-- The facet holds the reservation of a word (R124). -/
def holdsResv (s : State) (n w : Nat) : Bool := (facet s n).resv.any fun r => r.1 == w && decide (s.fclk < r.2)

/-- The write of an atomic operation or of a store, at a target that is no register block: an untouched chunk is filled first. -/
def remoteStore (n : Nat) (r : Remote) (bs : List Byte) (s : State) : Bool × State :=
  let q := writeAt (.facet (Fin.ofNat 128 n)) r.perm r.target bs s
  (q.1, settleChunk r.target q.2)

/-- The operation is refused. -/
def refuseRemote (n : Nat) (r : Remote) (s : State) : State := endRemote n r false true s

/-- A store: done, or refused. -/
def actStore (n : Nat) (r : Remote) (s : State) : State :=
  let q := remoteStore n r r.data s
  if q.1 then endRemote n r true false q.2 else refuseRemote n r q.2
/-- A store-conditional (R124). -/
def actStc (n : Nat) (r : Remote) (s : State) : State :=
  let held := holdsResv s n (wordOf r.target)
  let s := updFacet n (fun f => { f with resv := none }) s
  if partitionRefuses s r.target (.facet (Fin.ofNat 128 n)) then refuseRemote n r s
  else if held then endRemote n r true false (remoteStore n r r.data s).2
  else endRemote n r true true s
/-- The write of an atomic operation, whose old value lands at the issuer. -/
def actAtomic (n : Nat) (r : Remote) (old new : List Byte) (s : State) : State :=
  let q := remoteStore n r new s
  if q.1 then landLocal n r old q.2 else refuseRemote n r q.2
/-- What an operation that reads does with the old bytes. -/
def actOld (n : Nat) (r : Remote) (old : List Byte) (s : State) : State :=
  match r.kind with
  | .radd => actAtomic n r old (natBytes r.size (bytesNat old + bytesNat r.data)) s
  | .rtas => actAtomic n r old [1] s
  | .ldr =>
    landLocal n r old (if r.stale then s else updFacet n (fun f => { f with resv := some (wordOf r.target, s.fclk + 4096) }) s)
  | _ => landLocal n r old s
/-- An operation that reads its target. -/
def actRead (n : Nat) (r : Remote) (s : State) : State :=
  if r.kind ≠ .rld ∧ isRegister r.target then refuseRemote n r s
  else
    let q := readAt (.facet (Fin.ofNat 128 n)) r.perm r.target r.size s
    match q.1 with
    | none => refuseRemote n r q.2
    | some old => actOld n r old q.2

/-- What an operation does at its target. -/
def remoteAct (n : Nat) (r : Remote) (s : State) : State :=
  match r.kind with
  | .rst => actStore n r s
  | .stc => actStc n r s
  | _ => actRead n r s

/-- REMOTE_COMPLETION: `uncorrectable` says that the access finds data that cannot be restored. Operations of one facet to one
address keep issue order; a target whose domain is off holds the operation (R120). DEDUCED, log entry 65. -/
def execRemoteCompletion (n : Fin 128) (i : Fin 16) (uncorrectable : Bool) (s : State) : Res :=
  match (facet s n).remotes.find? fun r => r.idx == i.val with
  | none => .refused .notEnabled
  | some r =>
    let first := ((facet s n).remotes.find? fun q => q.target == r.target) == some r
    if !first || !rangeServed s r.target (r.target + r.size) || !domServes s (crownOf n)
        || (rangeBad s r.target r.size && !uncorrectable) || (uncorrectable && isRegister r.target) then .refused .notEnabled
    else .next (if uncorrectable then endRemote n r false true (noteUe r.target s) else remoteAct n r s)

/-! ### Register writes -/

/-- FACET_REGISTER_BLOCK_WRITE (R60): `by_` is the steward, the sealed loader, or holds DBG. -/
def execFacetRegisterBlockWrite (n : Fin 128) (off : Nat) (v : BitVec 64) (by_ : Agent) (s : State) : Res :=
  gate (domServes s (crownOf n)) ((facetRegWrite n off v by_ s).getD s)

/-- PERM of the capabilities through which an agent may write the register at `a`: live, unsealed, with W, covering its 8 bytes. A facet holds its K
registers, a channel its destination capability, the host its windows; a fabric window has PERM of its own (R21, R168, R171). -/
def writePerms (s : State) (a : Nat) (by_ : Agent) : List Nat :=
  let held (ks : List KReg) : List Nat :=
    (ks.filter fun k => capLive s k && capOtype k.cap == 0 && capHas k.cap permW && capCovers k.cap a 8).map (capPerm ·.cap)
  match by_ with
  | .facet n => held ((facet s n).k.map (·.2))
  | .mover k => held [chanCap s k true]
  | .host => held (s.gly.wins.map (·.2))
  | .fabric => (s.fabric.wins.filter fun w => w.perm.testBit permW && decide (w.base ≤ a) && decide (a + 8 ≤ w.base + w.len)).map (·.perm)
  | _ => []

/-- REGISTER_WRITE (R5, R23): by the steward, or through a capability that its agent holds (R21); the block refuses one that lacks a permission
it asks for. A blocker reaches its own cells (R351). A write that is not of an aligned register reaches none (R247). -/
def execRegisterWrite (a : Nat) (v : BitVec 64) (by_ : Agent) (s : State) : Res :=
  match by_ with
  | .steward =>
    if !stewardReg a then .fault (.unassigned a)
    else gate (rangeServed s a (a + 8)) (stewardWrite a v s).2
  | .loader => .refused .notEnabled
  | .blocker b => match region a with
    | .brim o => if o < 0x100000 ∧ o / 0x4000 = b.val ∧ o % 8 = 0 then gate (rangeServed s a (a + 8)) (cellWrite (o / 0x400) (o % 0x400) v by_ s).2
      else .refused .notEnabled
    | _ => .refused .notEnabled
  | _ =>
    let ps := writePerms s a by_
    let need := accessPerms a true
    match (ps.find? fun p => need.all fun q => p.testBit q).or ps.head? with
    | none => .refused .notEnabled
    | some p =>
      if !(isRegister a || (ctxAt a).isSome) then .refused .notEnabled
      else if a % 8 ≠ 0 then .next s
      else gate (rangeServed s a (a + 8)) (writeAt by_ p a (natBytes 8 v.toNat) s).2

/-- COUNTER_CLEAR_WRITE (R578): a steward write of all zeros. -/
def execCounterClearWrite (a : Nat) (s : State) : Res :=
  if !stewardReg a then .fault (.unassigned a)
  else gate (rangeServed s a (a + 8)) (stewardWrite a 0 s).2

/-! ### Host requests through PF1 (R513 to R515) -/

/-- An AER non-fatal error, which is an uncorrectable error of AER, raises source 312 (R513, R518). DEDUCED, log entry 28. -/
def aerError (s : State) : State := raiseSteward 312 (setLinks { s.links with aer := s.links.aer + 1 } s)

/-- The checks of R513 for `len` bytes at BAR0 offset `o`: the package address and PERM, or none. -/
def windowCheck (s : State) (write : Bool) (o len : Nat) : Option (Nat × Nat) :=
  match s.gly.wins.find? fun w => w.1 == o / 2 ^ 30 with
  | none => none
  | some (_, k) =>
    let off := o % 2 ^ 30
    let a := capBase k.cap + off
    let blocks := blockPerms write a (a + len)
    if 2 ^ 30 < off + len ∨ 16 * capLen k.cap < off + len ∨ !capLive s k ∨ capOtype k.cap ≠ 0 ∨ !capHas k.cap (if write then permW else permR)
        ∨ !rangeBacked s a (a + len) ∨ (blocks.any fun p => !capHas k.cap p) ∨ partitionRefuses s a .host
        ∨ (0 < len && partitionRefuses s (a + len - 1) .host) then none
    else some (a, capPerm k.cap)

/-- A write lands at once; a read answers after every write before it (R514). DEDUCED, log entry 28. -/
def hostServe (write : Bool) (a perm len : Nat) (data : List Byte) (s : State) : State :=
  if write then
    let q := writeAt .host perm a data s
    if q.1 then q.2 else aerError q.2
  else
    let q := readAt .host perm a len s
    match q.1 with
    | some bs => emit (.pcie 0 bs) q.2
    | none => emit (.pcie 1 []) (aerError q.2)

/-- HOST_WINDOW_REQUEST: `o` is the BAR0 offset, `len` the length of a read, `data` what a write carries; `uncorrectable`
says that a read of memory finds data that cannot be restored (R515). A read of no byte only answers. -/
def execHostWindowRequest (write : Bool) (o : Nat) (len : Nat) (data : List (BitVec 8)) (uncorrectable : Bool) (s : State) : Res :=
  let n := if write then data.length else len
  if !s.links.up then .refused .notEnabled
  else match windowCheck s write o n with
    | none => .next (if write then aerError s else emit (.pcie 1 []) (aerError s))
    | some (a, perm) =>
      let ue := uncorrectable && !write && !isRegister a
      if n = 0 then .next (if write then s else emit (.pcie 0 []) s)
      else if !rangeServed s a (a + n) || (!write && rangeBad s a n && !ue) then .refused .notEnabled
      else .next (if ue then emit (.pcie 2 []) (aerError (noteUe a s)) else hostServe write a perm n data s)

/-! ### Fabric requests (R529, R530) -/

/-- The bytes that a request names: reads by CODE, writes by their payload. -/
def fabLen (f : FabFrame) : Nat := if f.ty = 1 then f.code.toNat else f.payload.length
/-- A length of 8 to 256 in multiples of 8, at a multiple of 8, inside 256 bytes (R528). -/
def fabShape (f : FabFrame) : Bool :=
  let n := fabLen f
  let a := f.addr.toNat % 2 ^ 48
  n % 8 == 0 && decide (8 ≤ n) && decide (n ≤ 256) && a % 8 == 0 && decide (a % 256 + n ≤ 256)

/-- The windows open to a package that hold the bytes. -/
def fabWindows (s : State) (pkg a n : Nat) : List FabWin :=
  s.fabric.wins.filter fun w => (w.pkg == pkg || w.pkg == 256) && decide (w.base ≤ a) && decide (a + n ≤ w.base + w.len)

/-- A refused request: its CODE; it is logged (R23). DEDUCED, log entry 29. -/
def fabRefuse (a code : Nat) (s : State) : (Nat × Nat × List Byte) × State := ((5, code, []), logFabric a s)
/-- A read that its window allows. -/
def fabRead (a n perm : Nat) (s : State) : (Nat × Nat × List Byte) × State :=
  let q := readAt .fabric perm a n s
  match q.1 with
  | some bs => ((3, 0, bs), q.2)
  | none => fabRefuse a 3 q.2
/-- A write that its window allows. -/
def fabWrite (a perm : Nat) (bs : List Byte) (s : State) : (Nat × Nat × List Byte) × State :=
  let q := writeAt .fabric perm a bs s
  if q.1 then ((4, 0, []), settleChunk a q.2) else fabRefuse a 3 q.2

/-- Serve a request: the answer's TYPE, CODE and payload, and the state. DEDUCED, log entry 29. -/
def fabServe (f : FabFrame) (ue : Bool) (s : State) : (Nat × Nat × List Byte) × State :=
  let a := f.addr.toNat % 2 ^ 48
  let n := fabLen f
  let wins := fabWindows s f.spkg.toNat a n
  let need := (if f.ty = 1 then permR else permW) :: blockPerms (f.ty != 1) a (a + n)
  if !fabShape f || wins.isEmpty then fabRefuse a 2 s
  else match wins.find? fun w => need.all fun p => w.perm.testBit p with
    | none => fabRefuse a 3 s
    | some w =>
      if !rangeBacked s a (a + n) then fabRefuse a 4 s
      else if partitionRefuses s a .fabric then fabRefuse a 5 s
      else if ue then fabRefuse a 6 (noteUe a s)
      else if f.ty = 1 then fabRead a n w.perm s
      else fabWrite a w.perm f.payload s

/-- A request that its window takes is held while a domain is off or a word waits for a reconstruction (R120, R262). -/
def fabWaits (f : FabFrame) (ue : Bool) (s : State) : Bool :=
  let a := f.addr.toNat % 2 ^ 48
  let n := fabLen f
  !fabBad s f && !(fabWindows s f.spkg.toNat a n).isEmpty && rangeBacked s a (a + n)
    && (!rangeServed s a (a + n) || (f.ty == 1 && rangeBad s a n && !ue) || (ue && f.ty != 1))

/-- A TYPE 1 or 2 frame. -/
def fabRequest (fr : FabFrame) (uncorrectable : Bool) (s : State) : Res :=
  if fabWaits fr uncorrectable s then .refused .notEnabled
  else fabReceive [1, 2] fr (fun s =>
    let q := fabServe fr uncorrectable s
    (fabAnswer q.2 fr q.1.1 q.1.2.1 q.1.2.2, true, q.2)) s
/-- FABRIC_REQUEST_RECEIVE: `uncorrectable` says that a read finds data that cannot be restored. -/
def execFabricRequestReceive (fr : FabFrame) (uncorrectable : Bool) (s : State) : Res := fabRequest fr uncorrectable s

end Sys2Proof.Machine
end

