-- ==== Sys2Proof/Machine/Bursts.lean ====
section
/-! DEFINITION. The moving of data by the channels (R290 to R302, R531, R582): starts, bursts, ends, drains. -/
namespace Sys2Proof.Machine

def moverOf (k : Nat) : Agent := .mover (Fin.ofNat 288 k)
def chanPerm (s : State) (k : Nat) (dst : Bool) : Nat := capPerm (chanCap s k dst).cap

/-- The transfer of channel k goes on: no error has ended it. -/
def chanGoes (s : State) (k : Nat) : Bool := chanState s k != 0 && ((chan s k).ending == 0 || (chan s k).ending == 13)

/-- The next destination element is written (R290): a fabric request on a remote side, which its acknowledgement answers; a write
to a chunk without its fill is acknowledged when it lands. -/
def destWrite (k : Nat) (bs : List Byte) (s : State) : State :=
  let j := (chan s k).wpos
  let a := (side s k true).elem j
  let s := setChan k { chan s k with wpos := j + 1 } s
  match remoteSide s k true with
  | some pkg => sendFabric 2 0 pkg a bs (some (k, j)) s
  | none =>
    let held := region a == .dram && (chunkBusy s a || !chunkTouched s a)
    let q := writeAt (moverOf k) (chanPerm s k true) a bs s
    if !q.1 then failChan k 9 q.2 else if held then q.2 else ackBytes k bs.length q.2

/-- Destination elements whose bytes the holding register holds are written. DEDUCED, log entry 25. -/
def pump : Nat → Nat → State → State
  | 0, _, s => s
  | fuel + 1, k, s =>
    let c := chan s k
    let w := 2 ^ (side s k true).ew
    if !chanGoes s k || decide (c.hold.length < w) then s
    else pump fuel k (destWrite k (c.hold.take w) (setChan k { c with hold := c.hold.drop w } s))

/-- A source element enters the holding register. -/
def pushElem (k : Nat) (bs : List Byte) (s : State) : State :=
  let c := chan s k
  pump (c.hold.length + bs.length) k (setChan k { c with hold := c.hold ++ bs, took := c.took + 1 } s)

/-- Elements of a remote side enter in element order, however their responses arrive (R290, R531). -/
def takeBack : Nat → Nat → State → State
  | 0, _, s => s
  | fuel + 1, k, s =>
    let c := chan s k
    match c.back.find? fun p => p.1 == c.took with
    | some p => if chanGoes s k then takeBack fuel k (pushElem k p.2 (setChan k { c with back := c.back.erase p } s)) else s
    | none => s
def elemBack (k j : Nat) (bs : List Byte) (s : State) : State :=
  if !chanGoes s k then s
  else
    let c := chan s k
    takeBack (c.back.length + 1) k (setChan k { c with back := c.back ++ [(j, bs)] } s)

/-- A read beat: the next source element; `bad` says that its data cannot be restored (R299, R524). -/
def srcRead (k : Nat) (bad : Bool) (s : State) : State :=
  let x := side s k false
  let j := (chan s k).rpos
  let a := x.elem j
  let s := setChan k { chan s k with rpos := j + 1 } s
  match remoteSide s k false with
  | some pkg => sendFabric 1 8 pkg a [] (some (k, j)) s
  | none =>
    if bad then failChan k (if region a = .dram then 9 else 10) (noteUe a s)
    else
      let q := readAt (moverOf k) (chanPerm s k false) a (2 ^ x.ew) s
      match q.1 with
      | some bs => pushElem k bs q.2
      | none => failChan k 9 q.2

/-- The read beats of a burst, in element order. -/
def beats (k : Nat) (bad : Option Nat) : Nat → Nat → State → State
  | 0, _, s => s
  | n + 1, i, s => if chanState s k = 0 ∨ (chan s k).ending ≠ 0 then s else beats k bad n (i + 1) (srcRead k (bad == some i) s)

/-- FCLK passes until the engine issues no burst; suspended bursts go on first (R296, R298). -/
def engineFree (e : Nat) : Nat → State → State
  | 0, s => s
  | fuel + 1, s => if (engine s e).busy ≤ s.fclk then s else engineFree e fuel (advanceTo (engine s e).busy s)

/-- Channel k takes the engine at once from a burst of lower priority (R298). -/
def preempts (s : State) (k : Nat) : Bool :=
  let x := engine s (engineOf k)
  rbit s (chanReg k 8) 3 && decide (chanPri s x.cur < chanPri s k) && decide (s.fclk + 1 < x.busy)

/-- The engine suspends its burst. -/
def suspendCur (e : Nat) (s : State) : State :=
  let x := engine s e
  rbitSet (chanReg x.cur 0x100) 18 true (setEngine e { x with susp := (x.cur, x.busy - (s.fclk + 1)) :: x.susp, busy := s.fclk + 1 } s)

/-- The source elements of the next `b` bytes hold a word that waits for a reconstruction (R262). -/
def burstBad (s : State) (k b : Nat) : Bool :=
  let x := side s k false
  (remoteSide s k false).isNone && (List.range (b / 2 ^ x.ew)).any fun i => rangeBad s (x.elem ((chan s k).rpos + i)) (2 ^ x.ew)

/-- A granted burst is issued: rem, the engine, the grant that round-robin remembers, one beat per FCLK (R293, R294, R296). DEDUCED, log entry 25. -/
def issueBurst (k b : Nat) (bad : Option Nat) (s : State) : State :=
  let e := engineOf k
  let n := b / 2 ^ (side s k false).ew
  let x := engine s e
  let s := setEngine e { x with last := tset 300 x.last (chanPri s k) k, cur := k, busy := max s.fclk x.busy + n } s
  beats k bad n 0 (setChan k { chan s k with rem := (chan s k).rem - b } (setChanState k 3 s))

/-- BURST_ISSUE: `bad` is the first element of the burst whose data cannot be restored. -/
def execBurstIssue (k : Fin 288) (bad : Option (Fin 512)) (s : State) : Res :=
  let e := engineOf k
  let pre := preempts s k && grantAmong s e (fun j => preempts s j) == some k.val
  let s := if pre then s else engineFree e ((engine s e).susp.length + 1) s
  let b := burstSize s k
  if b = 0 || (!pre && nextGrant s e != some k.val) || (burstBad s k b && bad.isNone) || (chanDomains s k).any (domGone s) then
    .refused .notEnabled
  else .next (issueBurst k b (bad.map (·.val)) (if pre then suspendCur e s else s))

/-- MOV_CTL_START (R291): by MOV_CTL.START or by a pulse at the start sink. -/
def execMovCtlStart (k : Fin 288) (sink : Bool) (s : State) : Res :=
  if sink then .next (movSink k s) else gate (domServes s (chanDomain k)) (movCtlStart k s)

/-- MOV_CTL_STOP (R299, R582); a channel of the sealed configuration refuses it (R287). -/
def execMovCtlStop (k : Fin 288) (s : State) : Res :=
  gate (domServes s (chanDomain k)) (if s.locks.chans.contains k.val then tellSteward (chanReg k 0) .steward s else movStop k s)

/-- TRANSFER_COMPLETION (R288, R295): every element is written and every response has returned. -/
def execTransferCompletion (k : Fin 288) (s : State) : Res :=
  let c := chan s k
  let st := chanState s k
  gateAt ((st == 3 || st == 4) && c.rem == 0 && c.ending == 0 && c.hold.isEmpty && c.back.isEmpty && !chanWaits s k)
    (burstEndAt s k) s (endComplete k)

/-- TRANSFER_END_EARLY (R299, R582): STOP acts in RUN at the burst boundary. -/
def execTransferEndEarly (k : Fin 288) (s : State) : Res :=
  let c := chan s k
  gateAt (chanState s k != 0 && c.ending != 0 && !chanWaits s k) (if c.ending = 13 ∧ chanState s k = 3 then burstEndAt s k else s.fclk) s
    (endError k c.ending)

/-- CHANNEL_DRAIN_HELD (R301). -/
def execChannelDrainHeld (k : Fin 288) (s : State) : Res :=
  let c := chan s k
  gateAt (c.drain.isSome && decide (2 ≤ chanState s k) && c.ending == 0 && c.rem != 0 && !chanWaits s k) (burstEndAt s k) s
    fun s => setChanState k 1 (setChan k { chan s k with drain := none } s)

/-- CHANNEL_RESUME (R301): every domain that the channel depends on has returned. -/
def execChannelResume (k : Fin 288) (s : State) : Res :=
  gate (chanState s k == 1 && (chan s k).ending == 0
      && (chanDomains s k).all fun d => (domState s d == 1 || (decide (d < 16) && domState s d == 2)) && !domLeaving s d)
    (setChanState k 2 (setChan k { chan s k with drain := none } s))

/-- DRAIN_TIMEOUT (R302): 2 µs after the request, unless its writes wait for a fill or a domain that is off. -/
def execDrainTimeout (k : Fin 288) (s : State) : Res :=
  match (chan s k).drain with
  | some f =>
    gateAt (chanState s k != 0 && !(s.heldWrites.any fun w => w.who == moverOf k) && !(chanDomains s k).any (domGone s))
      (f + 2 * usFclk) s (failChan k 11)
  | none => .refused .notEnabled

end Sys2Proof.Machine
end

