-- ==== Sys2Proof/Machine/Links.lean ====
section
/-! DEFINITION. The links of the girdle: PCIe events, Ethernet frames, fabric answers and heartbeats, DDR5 patrol, SerDes references
(R394, R404, R510 to R532, R536, R555, R569). -/
namespace Sys2Proof.Machine

/-! ### PCIe (R510, R516 to R518, R555) -/

/-- A link event raises steward source 312 (R518). -/
def linkEvent (s : State) : State := raiseSteward 312 s

/-- CLK_STAT bit of a SerDes reference: PCIREF or ETHREF (R536). DEDUCED, log entry 31. -/
def refBit (eth : Bool) : Nat := if eth then 2 else 1

/-- PCIE_LINK_UP: PCIe does not train without its reference (R569). DEDUCED, log entry 31. -/
def execPcieLinkUp (s : State) : Res :=
  gate (!s.links.up && rbit s (girdle 0) 1 && domState s 35 == 1) (linkEvent (setLinks { s.links with up := true } s))

/-- SPEED_OR_WIDTH_CHANGE. -/
def execSpeedOrWidthChange (speed : Fin 4) (width : Fin 4) (s : State) : Res :=
  gate (s.links.up && (s.links.speed != speed.val || s.links.width != width.val))
    (linkEvent (setLinks { s.links with speed := speed, width := width } s))

/-- The masks of a function's MSI-X table are set again by a reset of the function. PRESUMED, log entry 30. -/
def maskAll (f : Nat) (s : State) : State :=
  setMsixOpen (s.msixOpen.filter (fun v => v / 64 != f)) (setMsixHeld (s.msixHeld.filter (fun v => v / 64 != f)) s)

/-- One queue pair at an FLR of PF0: as after EN = 0, without completions; its registers return to reset values once ACTIVE falls. -/
def flrQueue (s : State) (q : Nat) : State :=
  settleQueue q (if qActive s q then setQpair q { qpair s q with flr := true } (rbitSet (qreg q 0x10) 0 false s)
    else setQpair q {} (rclear (qreg q 0) (qreg q 0x20) s))
/-- An FLR of a function; PF1 keeps its windows, and its requests are served whole here (R517). PRESUMED, log entry 30. -/
def flr (f : Nat) (s : State) : State :=
  let s := linkEvent (maskAll f s)
  if f = 0 then (List.range 16).foldl flrQueue s else s

/-- FUNCTION_LEVEL_RESET. -/
def execFunctionLevelReset (f : Fin 2) (s : State) : Res := gate s.links.up (flr f s)
/-- LINK_DOWN: a Hot Reset or a link-down acts as an FLR of both functions. -/
def execLinkDown (s : State) : Res := gate s.links.up (flr 1 (flr 0 (setLinks { s.links with up := false } s)))
/-- PERST: as a Hot Reset (R555). -/
def execPerst (s : State) : Res := .next (flr 1 (flr 0 (setLinks { s.links with up := false } s)))

/-- COMPLETION_TIMEOUT: a read for queue q gets no completion (R516). -/
def execCompletionTimeout (q : Fin 16) (s : State) : Res :=
  gate (qActive s q && s.links.up) (qStop q 4 (aerError s))

/-- MSI_X_MASK_CLEAR: a message that the mask held back is sent (R404, R511); a function's table has no entry above its vectors (R512). -/
def execMsiXMaskClear (f : Fin 2) (vec : Fin 64) (s : State) : Res :=
  let v := 64 * f.val + vec.val
  if (if f = 0 then 48 else 16) ≤ vec.val then .next s
  else
    let s' := setMsixOpen (sadd s.msixOpen v) (setMsixHeld (sdel s.msixHeld v) s)
    .next (if s.msixHeld.contains v then emit (.msix f vec) s' else s')

/-- SERDES_REFERENCE_LOSS, SERDES_REFERENCE_RETURN (R536, R569). -/
def execSerdesReferenceLoss (eth : Bool) (s : State) : Res := gate (rbit s (girdle 0) (refBit eth)) (rbitSet (girdle 0) (refBit eth) false s)
def execSerdesReferenceReturn (eth : Bool) (s : State) : Res := gate (!rbit s (girdle 0) (refBit eth)) (rbitSet (girdle 0) (refBit eth) true s)

/-! ### MAC links (R519, R523, R569) -/

def macCfg (s : State) (m : Nat) : BitVec 64 := rget s (macReg m 0)
def macUp (s : State) (m : Nat) : Bool := rbit s (macReg m 8) 0 && domState s 36 == 1
def setMac (m : Nat) (x : Mac) (s : State) : State := { s with macs := tset {} s.macs m x }

/-- ETH_MCFG holds a reserved STFILT, FEC or SPEED, or RS-FEC at 10 Gb/s. -/
def macCfgBad (v : BitVec 64) : Bool :=
  decide (1 < fld v 8 8) || decide (1 < fld v 3 2) || decide (1 < fld v 1 2) || (fld v 3 2 == 1 && fld v 1 2 == 0)

/-- MAC_LINK_UP: with RS-FEC, the receiver has lock. A MAC with a reserved value does not start and reports a configuration error (R9), in no
register that the spec names. DESIGN CHOICE, log entry 84. -/
def execMacLinkUp (m : Fin 8) (s : State) : Res :=
  gate (bit (macCfg s m) 0 && rbit s (girdle 0) 2 && domState s 36 == 1 && !rbit s (macReg m 8) 0)
    (if macCfgBad (macCfg s m) then tellSteward (macReg m 0) .steward s
     else raiseSteward (304 + m) (rbitSet (macReg m 8) 1 (fld (macCfg s m) 3 2 == 1) (rbitSet (macReg m 8) 0 true s)))
/-- MAC_LINK_DOWN. -/
def execMacLinkDown (m : Fin 8) (s : State) : Res := gate (macUp s m) (raiseSteward (304 + m) (rput (macReg m 8) 0 3 0 s))
/-- RS_FEC_LOSS_OF_LOCK. -/
def execRsFecLossOfLock (m : Fin 8) (s : State) : Res :=
  gate (rbit s (macReg m 8) 1 && domState s 36 == 1) (raiseSteward (304 + m) (rbitSet (macReg m 8) 1 false s))

/-! ### Fabric answers (R388, R529, R531, R532) -/

/-- An outstanding frame has ended in a refusal, or after the last retransmission; a report whose last frame was refused with CODE 7 counts in
FWDLOST (R388). -/
def fabFailed (o : FabOut) (last : Bool) (s : State) : State :=
  let s := raiseSteward (fabSource o.fr.dpkg.toNat) (setFabric { s.fabric with out := s.fabric.out.erase o } s)
  let s := if o.fr.ty = 7 ∧ last ∧ o.full then rsat (sesReg 0x10) 24 8 1 s else s
  match o.chan with
  | some (k, _) => failChan k 9 s
  | none => s

/-- An outstanding frame has been answered. -/
def fabDone (o : FabOut) (f : FabFrame) (s : State) : State :=
  let s := setFabric { s.fabric with out := s.fabric.out.erase o } s
  match o.chan with
  | some (k, j) => if f.ty = 3 then elemBack k j f.payload s else ackBytes k o.fr.payload.length s
  | none => s

/-- The frame that an answer belongs to, if the answer fits its TYPE. -/
def fabMatch (s : State) (f : FabFrame) : Option FabOut :=
  s.fabric.out.find? fun o => o.fr.dpkg == f.spkg && o.fr.seq == f.seq
    && (f.ty == 5 || (if o.fr.ty = 1 then f.ty == 3 && f.payload.length == o.fr.code.toNat else f.ty == 4))

/-- An answer ends an outstanding frame; a report refused with CODE 7 is retransmitted (R388). DEDUCED, log entry 35. -/
def fabReply (f : FabFrame) (s : State) : Res :=
  if domState s 36 ≠ 1 then .refused .notEnabled
  else if fabBad s f then
    .next (raiseSteward (fabSource f.spkg.toNat) (setFabric { s.fabric with drops := s.fabric.drops + 1 } s))
  else if f.ty ≠ 3 ∧ f.ty ≠ 4 ∧ f.ty ≠ 5 then .refused .notEnabled
  else
    let s := setFabric { s.fabric with heard := tset 0 s.fabric.heard f.spkg.toNat s.fclk } s
    match fabMatch s f with
    | none => .next s
    | some o =>
      if f.ty = 5 then
        let kept (x : FabOut) : FabOut := if x = o then { o with full := true } else x
        .next (if o.fr.ty = 7 ∧ f.code = 7 then
            raiseSteward (fabSource f.spkg.toNat) (setFabric { s.fabric with out := s.fabric.out.map kept } s)
          else fabFailed o false s)
      else .next (fabDone o f s)
/-- FABRIC_RESPONSE_RECEIVE: a TYPE 3, 4 or 5 frame. -/
def execFabricResponseReceive (fr : FabFrame) (s : State) : Res := fabReply fr s

/-- A frame sent again, with the same SEQ and FLAGS[0] = 1. -/
def again (f : FabFrame) : FabFrame :=
  let f := { f with flags := f.flags ||| 1 }
  { f with crc := fabCrc f }
/-- FABRIC_RETRANSMIT: 100 µs after the frame was last sent, up to 8 times; then it counts as refused with CODE 0 (R529). DEDUCED, log entry 35. -/
def execFabricRetransmit (dpkg : BitVec 8) (seq : BitVec 32) (s : State) : Res :=
  match s.fabric.out.find? fun o => o.fr.dpkg == dpkg && o.fr.seq == seq with
  | none => .refused .notEnabled
  | some o =>
    gateAt (decide (domState s 36 = 1)) (o.at_ + 100 * usFclk) s fun s =>
      if 8 ≤ o.tries then fabFailed o true s
      else
        let s := if o.tries = 7 then raiseSteward (fabSource dpkg.toNat) s else s
        let re (x : FabOut) : FabOut := if x = o then { o with fr := again o.fr, tries := o.tries + 1, at_ := s.fclk, full := false } else x
        emit (.fabric (again o.fr)) (setFabric { s.fabric with out := s.fabric.out.map re } s)

/-- FABRIC_HEARTBEAT: every FAILTIME / 8, and at least every 1 ms, to every member (R529). DEDUCED, log entry 34. -/
def execFabricHeartbeat (s : State) : Res :=
  gateAt (s.fabric.joined && domState s 36 == 1) (s.fabric.beat + min (s.fabric.failtime * msFclk / 8) msFclk) s fun s =>
    s.fabric.present.foldl (fun s p => sendControl p .beat s) (setFabric { s.fabric with beat := s.fclk } s)

/-- A package leaves the membership: reports on their way to it are lost uncounted, its routes fail over, and what was asked of it as registrar is
asked of the next (R393, R394). -/
def loseMember (pkg : Nat) (s : State) : State :=
  let again := s.ses.asked && (members s).head? == some pkg
  let s := setFabric { s.fabric with
    present := sdel s.fabric.present pkg, stations := tdel s.fabric.stations pkg, heard := tdel s.fabric.heard pkg,
    out := s.fabric.out.filter fun o => !(o.fr.ty == 7 && o.fr.dpkg.toNat == pkg) } s
  let s := if again then fillPool (setSes { s.ses with asked := false } s) else s
  postEvent 9 (BitVec.ofNat 64 pkg) (failover pkg s)
/-- PACKAGE_LOST: no frame from it for FAILTIME. -/
def execPackageLost (pkg : BitVec 8) (s : State) : Res :=
  gateAt (s.fabric.joined && s.fabric.present.contains pkg.toNat && s.pwr.running)
    (tget 0 s.fabric.heard pkg.toNat + s.fabric.failtime * msFclk) s (loseMember pkg.toNat)

/-! ### Frames (R519 to R521, R528) -/

/-- Bytes [o, o + n) of a frame as a big-endian number. -/
def beAt (bs : List Byte) (o n : Nat) : Nat := bytesNat ((bs.drop o).take n).reverse
def tagLen (vlan : Bool) : Nat := if vlan then 4 else 0
/-- EtherType, behind an 802.1Q tag if there is one. -/
def etherType (bs : List Byte) (vlan : Bool) : Nat := beAt bs (12 + tagLen vlan) 2
def isTagged (bs : List Byte) : Bool := beAt bs 12 2 == 0x8100

/-- The fabric frame in an Ethernet frame; one whose LEN does not fit fails its CRC. -/
def fabParse (bs : List Byte) (vlan : Bool) : FabFrame :=
  let b := bs.drop (14 + tagLen vlan)
  let n := leAt b 12 2
  let whole := decide (n ≤ 256) && decide (28 + n ≤ b.length)
  let f : FabFrame := {
    station := BitVec.ofNat 48 (beAt bs 6 6), ver := BitVec.ofNat 4 (leAt b 0 1 / 16), ty := BitVec.ofNat 4 (leAt b 0 1),
    flags := BitVec.ofNat 8 (leAt b 1 1), spkg := BitVec.ofNat 8 (leAt b 2 1), dpkg := BitVec.ofNat 8 (leAt b 3 1),
    fabid := BitVec.ofNat 32 (leAt b 4 4), seq := BitVec.ofNat 32 (leAt b 8 4), code := BitVec.ofNat 16 (leAt b 14 2),
    addr := BitVec.ofNat 64 (leAt b 16 8), payload := (b.drop 24).take (min n 256), crc := BitVec.ofNat 32 (leAt b (24 + n) 4) }
  if whole then f else { f with crc := ~~~(fabCrc f) }

/-- A control frame (TYPE 0): a member's heartbeat and what else it says, or the join of a package with a free number (R393, R452, R528). DEDUCED, log entry 34. -/
def fabControl (f : FabFrame) (s : State) : State :=
  let p := f.spkg.toNat
  let drop (s : State) : State := raiseSteward (fabSource p) (setFabric { s.fabric with drops := s.fabric.drops + 1 } s)
  if fabCrc f ≠ f.crc ∨ f.ver ≠ 1 then drop s
  else if fabMember s f then
    let s := setFabric { s.fabric with heard := tset 0 s.fabric.heard p s.fclk } s
    match Config.controlOf f.payload with
    | some c => controlAct p c s
    | none => s
  else if s.fabric.joined ∧ f.fabid = s.fabric.fabid ∧ p ≠ localPkg s ∧ !s.fabric.present.contains p then
    postEvent 9 (BitVec.ofNat 64 (p + 2 ^ 8)) (setFabric { s.fabric with
      present := sadd s.fabric.present p, stations := tput s.fabric.stations p f.station, heard := tset 0 s.fabric.heard p s.fclk } s)
  else drop s

/-- A fabric frame goes to the fabric logic. -/
def fabIn (f : FabFrame) (s : State) : Res :=
  match f.ty.toNat with
  | 0 => .next (fabControl f s)
  | 1 | 2 => fabRequest f false s
  | 6 => fabEvent f s
  | 7 => fabReport f s
  | _ => fabReply f s

/-- Bytes of a record: header, frame and padding (R521). -/
def recordLen (n : Nat) : Nat := 32 + (n + 31) / 32 * 32
/-- A record. -/
def macRecord (bs : List Byte) (stamp : Option Nat) (vlan : Bool) : List Byte :=
  let h := natBytes 8 (bs.length % 2 ^ 16 + b2n stamp.isSome * 2 ^ 16 + b2n vlan * 2 ^ 17) ++ natBytes 8 (stamp.getD 0)
  padTo 32 h ++ padTo ((bs.length + 31) / 32 * 32) bs

/-- The stamp of a received frame (R520): every frame, or PTP frames only. -/
def rxStamp (s : State) (m : Nat) (fr : Frame) : Option Nat :=
  if fld (macCfg s m) 8 8 = 1 ∨ fr.ptp then some ((fr.tick.toNat + 2 ^ 64 - rxDelay s m) % 2 ^ 64) else none

/-- An accepted frame enters the receive queue whole, or is dropped (R521). DEDUCED, log entry 32. -/
def rxQueue (m : Nat) (fr : Frame) (s : State) : State :=
  let x := mac s m
  let st := rxStamp s m fr
  if 65535 < x.rx.length + recordLen fr.bytes.length then macCount m 7 1 s
  else
    let s := setMac m { x with rx := x.rx ++ macRecord fr.bytes st fr.vlan } s
    if st.isSome then raiseHat (0x20A0 + m) s else s

/-- A received pause frame is obeyed: 512 bit times for each of its quanta (R519). -/
def rxPause (m : Nat) (fr : Frame) (s : State) : State :=
  let q := beAt fr.bytes (16 + tagLen fr.vlan) 2
  let t := if fld (macCfg s m) 1 2 = 0 then (q * 6144 + 99) / 100 else (q * 24576 + 999) / 1000
  rbitSet (macReg m 8) 2 (q != 0) (setMac m { mac s m with pauseEnd := s.fclk + t } s)

/-- FRAME_RECEIVE: runts, oversized frames and bad FCS are dropped whole and counted. DEDUCED, log entry 32. -/
def execFrameReceive (m : Fin 8) (fr : Frame) (s : State) : Res :=
  let n := fr.bytes.length
  let et := etherType fr.bytes fr.vlan
  let cfg := macCfg s m
  if !macUp s m then .refused .notEnabled
  else if n < 64 then .next (macCount m 3 1 s)
  else if 9600 < n then .next (macCount m 4 1 s)
  else if !fr.fcsOk then .next (macCount m 2 1 s)
  else
    let s := macCount m 1 n (macCount m 0 1 s)
    if et = 0x88B5 ∧ bit cfg 7 then fabIn (fabParse fr.bytes fr.vlan) s
    else if et = 0x8808 ∧ bit cfg 5 ∧ beAt fr.bytes (14 + tagLen fr.vlan) 2 = 1 then .next (rxPause m fr s)
    else .next (rxQueue m fr s)

/-! ### Transmit (R520, R521) -/

/-- Where a frame's PTP message begins: Layer 2, UDP over IPv4 or over IPv6, with the place of its UDP header (R520). -/
def ptpAt (bs : List Byte) : Option (Nat × Option Nat) :=
  let v := isTagged bs
  let l := 14 + tagLen v
  let et := etherType bs v
  let udp (h : Nat) : Option (Nat × Option Nat) := if beAt bs (h + 2) 2 = 319 ∨ beAt bs (h + 2) 2 = 320 then some (h + 8, some h) else none
  if et = 0x88F7 then some (l, none)
  else if et = 0x0800 ∧ beAt bs (l + 9) 1 = 17 then udp (l + 4 * (beAt bs l 1 % 16))
  else if et = 0x86DD ∧ beAt bs (l + 6) 1 = 17 then udp (l + 40)
  else none

/-- Bytes put into a frame at an offset. -/
def splice (bs : List Byte) (o : Nat) (x : List Byte) : List Byte := bs.take o ++ x ++ bs.drop (o + x.length)
/-- The sum of the 16-bit words of a run of bytes, for the one's-complement checksum of UDP. -/
def words16 : Nat → List Byte → Nat
  | 0, _ => 0
  | n + 1, bs => beAt bs 0 2 + words16 n (bs.drop 2)

/-- The originTimestamp of a Sync (PTP messageType 0) is written; the UDP checksum is cleared over IPv4, and the two trailing bytes
are adjusted over IPv6 so that it still holds (R520). -/
def oneStep (bs : List Byte) (stamp : Nat) : List Byte :=
  match ptpAt bs with
  | none => bs
  | some (p, u) =>
    if beAt bs p 1 % 16 ≠ 0 then bs
    else
      let be (k v : Nat) : List Byte := (natBytes k v).reverse
      let old := words16 5 (bs.drop (p + 34))
      let bs := splice bs (p + 34) (be 6 (ptpSec stamp % 2 ^ 48) ++ be 4 (ptpNs stamp))
      match u with
      | none => bs
      | some h =>
        if etherType bs (isTagged bs) = 0x0800 then splice bs (h + 6) [0, 0]
        else
          let e := h + beAt bs (h + 4) 2 - 2
          splice bs e (be 2 ((beAt bs e 2 + old + 5 * 65535 - words16 5 (bs.drop (p + 34))) % 65535))

/-- A frame leaves: its stamp is written, or enters ETH_TXTS with its sequence number; of a frame that is no PTP frame the number is
a free value. -/
def txFrame (m : Nat) (bs : List Byte) (s : State) : State :=
  let cfg := macCfg s m
  let stamp := (s.tb.tick + txDelay s m) % 2 ^ 64
  let out (bs : List Byte) (s : State) : State := emit (.frame m bs) s
  if bit cfg 6 && (ptpAt bs).any (fun p => beAt bs p.1 1 % 16 == 0) then out (oneStep bs stamp) s
  else match ptpAt bs with
    | some (p, _) => out bs (txStamp m stamp (beAt bs (p + 30) 2) s)
    | none => if fld cfg 8 8 = 1 then let (v, s) := drawFree s; out bs (txStamp m stamp (v.toNat % 65536) s) else out bs s

/-- FRAME_TRANSMIT: the whole record is in the queue; a length outside 60 to 9,596 flushes the queue and is counted. A received
pause is obeyed. -/
def execFrameTransmit (m : Fin 8) (s : State) : Res :=
  let x := mac s m
  let n := leAt x.tx 0 2
  let bad := decide (n < 60 ∨ 9596 < n)
  gateAt (macUp s m && decide (32 ≤ x.tx.length) && (bad || decide (recordLen n ≤ x.tx.length))) (if bad then s.fclk else x.pauseEnd) s fun s =>
    let s := if x.pauseEnd ≤ s.fclk then rbitSet (macReg m 8) 2 false s else s
    if bad then macCount m 7 1 (setMac m { x with tx := [] } s)
    else txFrame m ((x.tx.drop 32).take n) (setMac m { x with tx := x.tx.drop (recordLen n) } s)

/-! ### DDR5 (R524, R526) -/

/-- A day in FCLK. DESIGN CHOICE, log entry 33. -/
def dayFclk : Nat := 86400000 * msFclk

/-- A corrected line: logged and written back; the first correction in each second raises the channel's source. -/
def dramCorrected (a : Nat) (s : State) : State :=
  let ch := a / 256 % 2
  let (v, s) := drawFree s
  let s := logEvents 16 [⟨5, 6, fld v 0 4, fld v 4 5, 0, a / 64 * 64, false, false⟩] s
  let last := s.links.ddrCorr.find? fun p => p.1 == ch
  if last.all fun p => decide (p.2 + 1000 * msFclk ≤ s.fclk) then
    raiseSteward (313 + ch) (setLinks { s.links with ddrCorr := tput s.links.ddrCorr ch s.fclk } s)
  else s

/-- DRAM_PATROL: a patrol read of a touched chunk, at most once in 24 hours; the line that it finds corrected or uncorrectable is a
free one of the chunk. DESIGN CHOICE, log entry 33. -/
def execDramPatrol (chunk : Fin 131072) (corrected : Bool) (uncorrectable : Bool) (s : State) : Res :=
  let due := match s.links.patrolled.find? fun p => p.1 == chunk.val with
    | some p => p.2 + dayFclk
    | none => s.fclk
  gateAt (s.touched.contains chunk.val && domState s 37 == 1) due s fun s =>
    let s := setLinks { s.links with patrolled := tput s.links.patrolled chunk s.fclk } s
    let (v, s) := drawFree s
    let a := chunk.val * 0x200000 + fld v 0 15 * 64
    let s := if corrected then dramCorrected a s else s
    if uncorrectable then dramUe (chunk.val * 0x200000 + fld v 15 15 * 64) s else s

end Sys2Proof.Machine
end

