-- ==== Sys2Proof/Machine/Boot.lean ====
section
/-! DEFINITION. Boot (R463 to R465, R470, R471, R525, R554). -/
namespace Sys2Proof.Machine

/-- The last step of R470 completed, and the error of a step. DEDUCED, log entry 55. -/
def bootStep (n : Nat) (s : State) : State := rput (bezReg 0) 0 4 n s
def bootErr (e : Nat) (s : State) : State := rput (bezReg 0) 4 4 e s

/-- Step 2: the slot with the higher RELEASE among those valid whose ROLL is not below the fuses'; its RELEASE and ROLL. -/
def bootSlot (s : State) (b : BootIn) : Option (Nat × Nat × Nat) :=
  let a0 : List (Nat × Nat × Nat) := if b.valid0 ∧ fuseRoll s ≤ b.roll0.toNat then [(0, b.rel0.toNat, b.roll0.toNat)] else []
  let a1 : List (Nat × Nat × Nat) := if b.valid1 ∧ fuseRoll s ≤ b.roll1.toNat then [(1, b.rel1.toNat, b.roll1.toNat)] else []
  match a0, a1 with
  | x :: _, y :: _ => some (if x.2.1 < y.2.1 then y else x)
  | x :: _, [] => some x
  | [], y :: _ => some y
  | [], [] => none

/-- A manifest has one entry for principal 1, at most one for each of 2, 3 and 16 to 31, and no other (R465). -/
def prinsOk (ps : List (BitVec 8)) : Bool :=
  ps.count 1 == 1 && ps.all fun p => ps.count p == 1 && (decide (1 ≤ p.toNat ∧ p.toNat ≤ 3) || decide (16 ≤ p.toNat ∧ p.toNat ≤ 31))

/-- Whether the manifest of the boot flash is valid: signed by Holtelo before binding, by the Maker key fused after it (R463). -/
def manValid (s : State) (b : BootIn) : Bool :=
  b.manOk && prinsOk b.manPrins && (if bit s.bez.fuse 31 then b.manSigner == 1 && b.makerKey == s.bez.maker else b.manSigner == 0)
/-- R463, R465: a valid and newer manifest is accepted; at the first acceptance the Maker is bound. DESIGN CHOICE, log entry 54. -/
def acceptManifest (b : BootIn) (s : State) : State :=
  let z := s.bez
  let z := if bit z.fuse 31 then z else { z with fuse := setBit (setFld z.fuse 32 16 b.makerId.toNat) 31 true, maker := b.makerKey }
  audit false 0x0104 hwPrin (natBytes 2 b.manSerial.toNat)
    (setBez { z with manSerial := b.manSerial.toNat, manPrins := b.manPrins.map (·.toNat), manInsp := b.inspKey } s)
/-- R464: a new Inspector key goes into the next free slot while no configuration is sealed, with its legal record. DESIGN CHOICE, log entry 54. -/
def inspectorSlot (s : State) : State :=
  let z := s.bez
  let n := z.insp.length
  if !z.manPrins.contains 3 || z.insp.contains z.manInsp || metroState s == 2 || decide (4 ≤ n) || legalFull s then s
  else audit true 7 hwPrin (natBytes 1 n ++ natBytes 16 z.manInsp.toNat)
    (setBez { z with insp := z.insp ++ [z.manInsp], fuse := setBit z.fuse (48 + n) true } s)
/-- The principals with a usable root (R462, R464): the accepted manifest's, the Inspector if its key is the active one. -/
def takeRoots (s : State) : State :=
  setBez { s.bez with roots := s.bez.manPrins.filter fun p => p != 3 || s.bez.insp.getLast? == some s.bez.manInsp } s
/-- Step 3. -/
def manifestStep (b : BootIn) (s : State) : State :=
  let valid := manValid s b
  let newer := valid && decide (s.bez.manSerial < b.manSerial.toNat)
  let s := if newer then acceptManifest b s else rbitSet (bezReg 0) 16 true s
  takeRoots (inspectorSlot (if valid then s else bootErr 3 s))

/-- The MAC sides of girdle channels 0 to 15 (R522). -/
def bindMacs (s : State) : State :=
  (List.range 8).foldl (fun s m =>
    let s := putChanCap (256 + m) false ⟨glebyCap s permR (ethReg (0x1000 * m + 0x800)) 0x400, true⟩ s
    putChanCap (264 + m) true ⟨glebyCap s permW (ethReg (0x1000 * m + 0xC00)) 0x400, true⟩ s) s

/-- Step 4: the steward runs, its watchdog counts; library and patches in every blocker, retirements, session 0, MAC sides. -/
def stewardStep (s : State) : State :=
  let s := kick (setPwr { s.pwr with running := true } s)
  let bad := s.ledger.patches.any fun bs => match parsePatch bs with | some p => !patchSigned s p | none => true
  let s := if bad then bootErr 4 s else s
  bindMacs (setupSession0 (reapplyRetirements (loadSpine 1 (loadSpine 0 s))))

/-- The first unbacked DRAM address: twice the smaller channel (R238, R581). -/
def bootTop (b : BootIn) : Nat := min b.ddr0.val b.ddr1.val * 2 ^ 30
/-- A mismatch of two channels that trained is reported, in no register that the spec names (R238). DESIGN CHOICE, log entry 82. -/
def ddrReport (b : BootIn) (s : State) : State :=
  setPwr { s.pwr with ddrDiffer := decide (b.ddr0 ≠ b.ddr1) && decide (bootTop b ≠ 0) } s

/-- DDR5 training ends (R525, R526). -/
def ddrTrained (top : Nat) (s : State) : State :=
  let s := rset (girdle 0xC0000) (BitVec.ofNat 64 top) s
  if top = 0 then s else raiseSteward 314 (raiseSteward 313 s)

/-- Each entry of PWR_RLOG that is not in the ledger yet is recorded, oldest first (R552). -/
def recordResets (s : State) : State :=
  (List.range 16).foldl (fun s j =>
    let i := (rfld s (girdle 0x100) 8 4 + j) % 16
    let v := rget s (girdle (0x200 + 16 * i))
    if bit v 63 && !bit v 62 then
      rbitSet (girdle (0x200 + 16 * i)) 62 true
        (addRec5 (.reset (fld v 0 8) (fld v 16 8) (rget s (girdle (0x208 + 16 * i))).toNat) s)
    else s) s

/-- Step 6: READY; the fuses' rollback level rises to the image's (R471). -/
def readyStep (roll : Nat) (s : State) : State :=
  let s := setBez { s.bez with fuse := setFld s.bez.fuse 52 6 (max (fuseRoll s) roll) } (giveCredits (recordResets s))
  let s := setReady (setGly { s.gly with beat := s.fclk } s)
  bootStep 6 (if metroState s = 2 then sealStart s else s)

/-- Steps 3 to 6, at the typical times of R554. DEDUCED, log entry 55. -/
def bootRun (b : BootIn) (k rel roll : Nat) (s : State) : State :=
  let s := rput (bezReg 0) 8 1 k (bootStep 2 s)
  let s := audit false 0x0101 hwPrin (natBytes 2 rel ++ natBytes 1 k ++ [0xB0]) s
  let s := stewardStep (advance (25 * msFclk) (bootStep 3 (manifestStep b s)))
  let s := ddrTrained (bootTop b) (ddrReport b (bootStep 4 (advance (80 * msFclk) s)))
  if bootTop b = 0 then rbitSet (mbxReg 0x800) 33 true s
  else
    let r := restoreSeal s
    let s := if r.1 then r.2 else bootErr 5 r.2
    readyStep roll (advance (5 * msFclk) (bootStep 5 s))

/-- What is in the boot flash. -/
def flashSlots (b : BootIn) (s : State) : State :=
  let put (k : Nat) (v : Bool) (x : Nat) (t : List (Nat × Nat)) : List (Nat × Nat) := if v then tput t k x else tdel t k
  setBez { s.bez with rel := put 1 b.valid1 (256 * b.rel1.toNat + b.roll1.toNat) (put 0 b.valid0 (256 * b.rel0.toNat + b.roll0.toNat) s.bez.rel) } s

/-- The boot chain from the release of the reset on; a failure of step 1 or 2 holds the package, or the steward, in reset. -/
def bootChain (b : BootIn) (s : State) : State :=
  let s := rput (girdle 0) 8 8 0x7F (rbitSet (girdle 0) 0 true s)
  let s := setPwr { s.pwr with holdReset := false, coolAt := none } (rbitSet (ldgReg 0) 0 true s)
  if !b.selfTest then bootErr 1 s
  else
    let s := bootStep 1 (flashSlots b s)
    match bootSlot s b with
    | none => bootErr 2 s
    | some (k, rel, roll) => bootRun b k rel roll s

/-- The FCLK at which a reset is released: after a thermal trip when every sensor has read cool for 1 s (R556), and when every rail has been
within its trip window for 100 µs (R562). -/
def releaseAt (s : State) : Nat :=
  max (if s.pwr.holdReset then s.pwr.coolAt.getD 0 + 1000 * msFclk else s.fclk) (s.pwr.railAt.elim 0 (· + 100 * usFclk))

/-- BOOT: a reset is released once. -/
def execBoot (b : BootIn) (s : State) : Res :=
  gateAt (!s.pwr.running && !s.pwr.asleep && rfld s (bezReg 0) 0 8 == 0 && (!s.pwr.holdReset || s.pwr.coolAt.isSome) && !railOut s)
    (releaseAt s) s (bootChain b)

end Sys2Proof.Machine
end

