-- ==== Sys2Proof/Machine/Present.lean ====
section
/-! DEFINITION. Presenting an operation to a facet (R32, R34, R37, R110, R262), which every facet operation's meaning calls. -/
namespace Sys2Proof.Machine

/-- An operation without a type or size code has none (R92). -/
def codeless (o : Op) : Op := if hasTypeCode o.kind then o else { o with w := { o.w with tz := 0 } }

/-- The store words that a bundle reads as it issues: its operands, and what the TAS operations that land with it read (R110, R262). -/
def issueReads (s : State) (n : Nat) (b : List Op) : List Nat :=
  bundleReads (facet (landDue n s) n) b ++ tasWords (dueLands (facet s n))

/-- Facet n, at its boundary, presents one operation. It joins the bundle being collected; its STOP bit, or the eighth operation, ends the
bundle (R32, R34), which then issues or faults. One that reads an uncorrectable word stalls until the reconstruction (R262). -/
def presentNow (n : Nat) (o : Op) (s : State) : Res :=
  if !canIssue s n then .refused .notEnabled
  else
    let b := (facet s n).bundle ++ [o]
    if o.w.stop || decide (8 ≤ b.length) then gate (!(issueReads s n b).any (wordBad s)) (issueBundle n b s)
    else .next (updFacet n (fun f => { f with bundle := b }) s)

/-- Facet n presents one operation, once its FCLK has come. DEDUCED, log entry 9. -/
def presentOp (n : Nat) (o : Op) (s : State) : Res := presentNow n (codeless o) (advanceTo (facet s n).ready s)

end Sys2Proof.Machine
end

