-- ==== Sys2Proof/Machine/Capability.lean ====
section
/-! DEFINITION. Capability operations (R134, R135, R172 to R176) and LIT (R36): each presents its operation to the facet;
what it does when its bundle issues is in Machine/FacetIssue.lean and Machine/FacetVal.lean. -/
namespace Sys2Proof.Machine

/-- KLD (R134): loads a capability from a store word. -/
def execKld (n : Fin 128) (o : OpW) (s : State) : Res := presentOp n ⟨.kld, o, 0⟩ s
/-- KST (R135): stores a capability to a store word, tagged only with SC. -/
def execKst (n : Fin 128) (o : OpW) (s : State) : Res := presentOp n ⟨.kst, o, 0⟩ s
/-- KMOV (R134): copies a K register with its tag. -/
def execKmov (n : Fin 128) (o : OpW) (s : State) : Res := presentOp n ⟨.kmov, o, 0⟩ s
/-- KBND (R172): narrows the bounds of a capability. -/
def execKbnd (n : Fin 128) (o : OpW) (s : State) : Res := presentOp n ⟨.kbnd, o, 0⟩ s
/-- KMASK (R134): narrows the permissions of a capability. -/
def execKmask (n : Fin 128) (o : OpW) (s : State) : Res := presentOp n ⟨.kmask, o, 0⟩ s
/-- KSEAL (R174): seals a capability under a sealing authority. -/
def execKseal (n : Fin 128) (o : OpW) (s : State) : Res := presentOp n ⟨.kseal, o, 0⟩ s
/-- KUNSEAL (R175): unseals a capability under an unsealing authority. -/
def execKunseal (n : Fin 128) (o : OpW) (s : State) : Res := presentOp n ⟨.kunseal, o, 0⟩ s
/-- KGET (R134): reads a field of a capability. -/
def execKget (n : Fin 128) (o : OpW) (s : State) : Res := presentOp n ⟨.kget, o, 0⟩ s
/-- KCLR (R134): clears the tag of a K register. -/
def execKclr (n : Fin 128) (o : OpW) (s : State) : Res := presentOp n ⟨.kclr, o, 0⟩ s
/-- LIT (R36): a literal for operations of the same bundle. -/
def execLit (n : Fin 128) (o : LitW) (s : State) : Res :=
  presentOp n ⟨.lit, ⟨o.stop, o.guard, 0, 0, 0, 0⟩, o.value⟩ s

end Sys2Proof.Machine
end

