-- ==== Sys2Proof/Machine/Control.lean ====
section
/-! DEFINITION. Control and system operations, class 0b100, slot S7 (R131 to R133, R137 to R163, R188 to R196, R412 to R414): each presents its operation to the facet;
what it does when its bundle issues is in Machine/FacetIssue.lean and Machine/FacetVal.lean. -/
namespace Sys2Proof.Machine

/-- NOP (R131): no operation. -/
def execNop (n : Fin 128) (o : OpW) (s : State) : Res := presentOp n ⟨.nop, o, 0⟩ s
/-- BR (R46): taken branch after three delay bundles. -/
def execBr (n : Fin 128) (o : OpW) (s : State) : Res := presentOp n ⟨.br, o, 0⟩ s
/-- BRC (R140): conditional branch that checks its target whether taken or not. -/
def execBrc (n : Fin 128) (o : OpW) (s : State) : Res := presentOp n ⟨.brc, o, 0⟩ s
/-- CALL (R141): branch pushing the return index, or push-only mode. -/
def execCall (n : Fin 128) (o : OpW) (s : State) : Res := presentOp n ⟨.call, o, 0⟩ s
/-- RET (R141): pop and branch, pop to a register, or read the return-stack depth. -/
def execRet (n : Fin 128) (o : OpW) (s : State) : Res := presentOp n ⟨.ret, o, 0⟩ s
/-- LOOP (R144): sets up a hardware loop level. -/
def execLoop (n : Fin 128) (o : OpW) (s : State) : Res := presentOp n ⟨.loop, o, 0⟩ s
/-- REP (R153): repeats the next bundle a latched number of times. -/
def execRep (n : Fin 128) (o : OpW) (s : State) : Res := presentOp n ⟨.rep, o, 0⟩ s
/-- TWAIT (R160): holds issue until a store time, or reads store time. -/
def execTwait (n : Fin 128) (o : OpW) (s : State) : Res := presentOp n ⟨.twait, o, 0⟩ s
/-- EWAIT (R161): holds issue until a masked event flag is set. -/
def execEwait (n : Fin 128) (o : OpW) (s : State) : Res := presentOp n ⟨.ewait, o, 0⟩ s
/-- EFCLR (R162): clears masked event flags. -/
def execEfclr (n : Fin 128) (o : OpW) (s : State) : Res := presentOp n ⟨.efclr, o, 0⟩ s
/-- EFTST (R162): reads and optionally clears masked event flags. -/
def execEftst (n : Fin 128) (o : OpW) (s : State) : Res := presentOp n ⟨.eftst, o, 0⟩ s
/-- SYSCALL (R193): raises a system call entry after its bundle retires. -/
def execSyscall (n : Fin 128) (o : OpW) (s : State) : Res := presentOp n ⟨.syscall, o, 0⟩ s
/-- RETX (R189): returns from a handler level, restoring FS or tail-chaining. -/
def execRetx (n : Fin 128) (o : OpW) (s : State) : Res := presentOp n ⟨.retx, o, 0⟩ s
/-- BRK (R194): raises a breakpoint entry or halts the facet. -/
def execBrk (n : Fin 128) (o : OpW) (s : State) : Res := presentOp n ⟨.brk, o, 0⟩ s
/-- KENTER (R196): consumes an entry pair and enters level 1 at the entry object's address. -/
def execKenter (n : Fin 128) (o : OpW) (s : State) : Res := presentOp n ⟨.kenter, o, 0⟩ s
/-- MFS (R132): reads a system register, including interrupt-controller claims. -/
def execMfs (n : Fin 128) (o : OpW) (s : State) : Res := presentOp n ⟨.mfs, o, 0⟩ s
/-- MTS (R132): writes a system register, checking DBG for XVB, CTX and HOLDMAX. -/
def execMts (n : Fin 128) (o : OpW) (s : State) : Res := presentOp n ⟨.mts, o, 0⟩ s
/-- SIG (R133): raises a facet signal source on the hatband. -/
def execSig (n : Fin 128) (o : OpW) (s : State) : Res := presentOp n ⟨.sig, o, 0⟩ s
/-- MBXPUT (R413): pushes a request to the steward if a credit is available. -/
def execMbxput (n : Fin 128) (o : OpW) (s : State) : Res := presentOp n ⟨.mbxput, o, 0⟩ s
/-- MBXGET (R414): takes the oldest response from the staging buffer if any. -/
def execMbxget (n : Fin 128) (o : OpW) (s : State) : Res := presentOp n ⟨.mbxget, o, 0⟩ s

end Sys2Proof.Machine
end

