-- ==== Sys2Proof/Machine/GlebyCons.lean ====
section
/-! DEFINITION. The consumable commands (R453, R454, R505 to R509). -/
namespace Sys2Proof.Machine

def isIssuer (c : Call) : Bool := c.prin.any fun p => decide (16 ≤ p ∧ p ≤ 31)
def consPlaceBad (c : Call) (_ : State) : Option BadAt := firstBad [(decide (1023 < c.p 0 2), 0), (decide (7 < c.p 2 1), 2)]
/-- The record that a command names. -/
def consOf (c : Call) (s : State) : Option Nat := chipLine s (c.p 0 2) (c.p 2 1)
/-- A consumable issuer sees only its own records (R454). -/
def consDenied (c : Call) (s : State) : Bool :=
  isIssuer c && match consOf c s with
    | some l => consAt s l 8 1 != c.who
    | none => false

/-- CONS_LIST. -/
def consList (c : Call) (s : State) : Reply × State :=
  let ls := consLines.filter fun l => consUsed s l && (!isIssuer c || consAt s l 8 1 == c.who)
  listReply c (c.p 0 2) 32 (ls.map fun l =>
    bytesAt s (ledgerAddr l 0) 16 ++ le 4 (consLeft s l) ++ le 4 (consLimit s l) ++ bytesAt s (ledgerAddr l 0x18) 8) s
def execConsList (g : GIn) (s : State) : Res :=
  runCmd { code := 0x0801, who := [pM, pO, pI], issuers := true, fields := [(0, 2)], buffer := some (32, 1048576, 1) } noBad noDeny noObs
    consList g s

/-- CONS_AUTH: `ext` is what the bus returns (see authChip), or nothing where the chip is absent. -/
def consAuth (c : Call) (s : State) : Reply × State :=
  let bs := (c.ext.map fun w => natBytes 8 w.toNat).flatten
  if pfw s then fail stLedger s
  else if bs.length < 248 then fail stNotFound s
  else
    let q := authChip (c.p 0 2) (c.p 2 1) bs s
    if !q.1 then fail stSignature q.2.2
    else ({ wait := .lines q.2.1.toList (1 + leAt bs 16 1 * 2 ^ 8) }, q.2.2)
def execConsAuth (g : GIn) (s : State) : Res :=
  runCmd { code := 0x0802, who := [pM, pO], facets := true, fields := [(0, 2), (2, 1)] } consPlaceBad noDeny
    (fun _ => [(obLedger, 7)]) consAuth g s

/-- CONS_LIFE. -/
def consLife (c : Call) (s : State) : Reply × State :=
  match consOf c s with
  | none => fail stNotFound s
  | some l => done (consLeft s l + consLimit s l * 2 ^ 32) s
def execConsLife (g : GIn) (s : State) : Res :=
  runCmd { code := 0x0803, who := [pM, pO], issuers := true, facets := true, fields := [(0, 2), (2, 1)] } consPlaceBad consDenied noObs
    consLife g s

/-- CONS_USE. In a fabric, `ext` is not empty when the registrar answers (R509). -/
def consUse (c : Call) (s : State) : Reply × State :=
  match consOf c s with
  | none => fail stNotFound s
  | some l =>
    let n := c.p 4 4
    let act := (policyOf s (consAt s l 8 1) (consAt s l 13 1)).1
    if consState s l ≠ 1 ∧ consState s l ≠ 4 then fail stWrong s
    else if act = 1 ∧ consLeft s l < n then fail stWrong s
    else if s.fabric.joined && !isRegistrar s && c.ext.isEmpty then fail stFabric s
    else if pfw s then fail stLedger s
    else
      let short := decide (consLeft s l < n)
      let left := consLeft s l - n
      let s := consEdit l [(9, 1, if left = 0 then 4 else consState s l), (0x10, 4, min (2 ^ 32 - 1) (consAt s l 0x10 4 + n))] s
      let s := if short then postEvent 0x0A 7 s else s
      ({ wait := .lines [l] left }, mirrorCons l s)
def execConsUse (g : GIn) (s : State) : Res :=
  runCmd { code := 0x0804, who := [pO], facets := true, fields := [(0, 2), (2, 1), (4, 4)] } consPlaceBad noDeny
    (fun _ => [(obLedger, 7)]) consUse g s

/-- CONS_POLICY: an exhausted record whose life a new policy raises is authentic again (R508). -/
def consPolicy (c : Call) (s : State) : Reply × State :=
  if pfw s then fail stLedger s
  else
    let l := policyLine c.who (c.p 0 1)
    let s := ledgerPut l 0 (natBytes 8 (1 + c.p 1 1 * 2 ^ 8 + c.p 4 4 * 2 ^ 32)) s
    let mine := consLines.filter fun r => consUsed s r && consAt s r 8 1 == c.who && consAt s r 13 1 == c.p 0 1
    let s := (mine.filter fun r => consState s r == 4 && consLeft s r != 0).foldl (fun s r => consEdit r [(9, 1, 1)] s) s
    ({ wait := .lines [l] 0 }, (mine.filter fun r => consState s r == 1 && consLeft s r == 0).foldl (fun s r => consEdit r [(9, 1, 4)] s) s)
def execConsPolicy (g : GIn) (s : State) : Res :=
  runCmd { code := 0x0805, who := [], issuers := true, fields := [(0, 1), (1, 1), (4, 4)] }
    (fun c _ => firstBad [(decide (1 < c.p 1 1), 1)]) noDeny (fun _ => [(obLedger, 7)]) consPolicy g s

end Sys2Proof.Machine
end

