-- ==== Sys2Proof/Machine/GlebyLedger.lean ====
section
/-! DEFINITION. The ledger commands (R457, R458, R492, R494). -/
namespace Sys2Proof.Machine

/-- Lines of a region, and who may read it (R492); C are the consumable issuers. -/
def regionLines (r : Nat) : Nat :=
  match r with | 0 => 1024 | 1 => 8192 | 2 => 8192 | 3 => 3072 | 4 => 1024 | 5 => 4096 | 6 => 32768 | 7 => 16384 | _ => 180224
def regionReaders (r : Nat) : List Nat × Bool :=
  match r with
  | 0 | 1 | 3 => ([pH, pM, pO, pI], true)
  | 2 | 5 => ([pH, pM, pO, pI], false)
  | 4 => ([pH, pM, pI], false)
  | 7 => ([pM, pO, pI], true)
  | _ => ([pM, pO, pI], false)
/-- Lines that a call reads. -/
def linesOf (c : Call) : Nat := min (c.dlen / 64) (regionLines (c.p 0 1) - c.p 4 4 / 64)
/-- An issuer reads the region 7 lines that carry its own number. -/
def ownLines (c : Call) (s : State) : Bool :=
  (List.range (linesOf c)).all fun i => natAt s (ledgerAddr (regionLine 7 + c.p 4 4 / 64 + i) 8) 1 == c.who
def ldgReadDeny (c : Call) (s : State) : Bool :=
  let r := regionReaders (c.p 0 1)
  !(r.1.contains c.who || (r.2 && decide (16 ≤ c.who ∧ c.who < 32) && (c.p 0 1 != 7 || ownLines c s)))
/-- Regions whose bytes the spec lays out. -/
def laidOut (r : Nat) : Bool := [1, 2, 4, 7, 8].contains r
def ldgRead (c : Call) (s : State) : Reply × State :=
  let r := c.p 0 1
  if regionLines r ≤ c.p 4 4 / 64 then fail stNotFound s
  else
    let n := linesOf c
    if laidOut r then doneData n (bytesAt s (ledgerAddr (regionLine r + c.p 4 4 / 64) 0) (64 * n)) s
    else
      let (bs, s) := freeBytes (8 * n) s
      doneData n bs s
/-- LDG_READ: OFFSET counts bytes, and is a multiple of 64. -/
def execLdgRead (g : GIn) (s : State) : Res :=
  runCmd { code := 0x0A01, who := [pH, pM, pO, pI], issuers := true, fields := [(0, 1), (4, 4)], buffer := some (64, 1048576, 64) }
    (fun c _ => firstBad [(decide (8 < c.p 0 1), 0), (c.p 4 4 % 64 != 0, 4)]) ldgReadDeny noObs ldgRead g s

/-- The 64 bytes of application record `seq`. -/
def appRecord (s : State) (c : Call) (seq : Nat) : List Byte :=
  let prev := if seq = 0 then shaBytes Config.deviceKey 16
    else bytesAt s (ledgerAddr (regionLine 8 + (seq - 1) % 180224) 0x30) 16
  let head := natBytes 8 (seq % 2 ^ 32 * 2 ^ 32 + c.p 0 2 * 2 ^ 16 + c.who * 2 ^ 8 + c.p 2 1) ++ natBytes 8 s.tb.tick
    ++ padTo 32 ((natBytes 32 (c.p 8 32)).take (c.p 2 1))
  head ++ shaBytes (prev ++ head) 16
def ldgAppend (c : Call) (s : State) : Reply × State :=
  if pfw s then fail stLedger s
  else
    let n := s.ledger.app
    let l := regionLine 8 + n % 180224
    let s := ledgerPut l 0 (appRecord s c n) s
    ({ wait := .lines [l] n }, (setLedger { s.ledger with app := n + 1 } s))
/-- LDG_APPEND. -/
def execLdgAppend (g : GIn) (s : State) : Res :=
  runCmd { code := 0x0A02, who := [pM, pO], fields := [(0, 2), (2, 1), (8, 32)] }
    (fun c _ => firstBad [(decide (c.p 2 1 < 1 ∨ 32 < c.p 2 1), 2)]) noDeny (fun _ => [(obLedger, 0)]) ldgAppend g s

/-- LDG_STATUS. -/
def ldgStatus (_ : Call) (s : State) : Reply × State :=
  done (rfld s (ldgReg 0x10) 0 19 + rfld s (ldgReg 0) 32 32 * 2 ^ 32) s
def execLdgStatus (g : GIn) (s : State) : Res :=
  runCmd { code := 0x0A03, who := [pM, pO, pI] } noBad noDeny noObs ldgStatus g s

end Sys2Proof.Machine
end

