-- ==== Sys2Proof/Machine/LongOps.lean ====
section
/-! DEFINITION. Long operations (R125 to R130): each presents its operation to the facet;
what it does when its bundle issues is in Machine/FacetIssue.lean and Machine/FacetVal.lean. -/
namespace Sys2Proof.Machine

/-- BMOVE (R125): long operation copying 16-byte words. -/
def execBmove (n : Fin 128) (o : OpW) (s : State) : Res := presentOp n ⟨.bmove, o, 0⟩ s
/-- BFILL (R125): long operation filling 16-byte words. -/
def execBfill (n : Fin 128) (o : OpW) (s : State) : Res := presentOp n ⟨.bfill, o, 0⟩ s
/-- BCRC (R125): long operation advancing a CRC over 16-byte words. -/
def execBcrc (n : Fin 128) (o : OpW) (s : State) : Res := presentOp n ⟨.bcrc, o, 0⟩ s
/-- BFIR (R126): long operation computing FIR filter outputs. -/
def execBfir (n : Fin 128) (o : OpW) (s : State) : Res := presentOp n ⟨.bfir, o, 0⟩ s

end Sys2Proof.Machine
end

