-- ==== Sys2Proof/Machine/RemoteOps.lean ====
section
/-! DEFINITION. Remote operations (R116 to R124): each presents its operation to the facet;
what it does when its bundle issues is in Machine/FacetIssue.lean and Machine/FacetVal.lean. -/
namespace Sys2Proof.Machine

/-- RLD (R116): remote read into the facet store. -/
def execRld (n : Fin 128) (o : OpW) (s : State) : Res := presentOp n ⟨.rld, o, 0⟩ s
/-- RST (R116): remote write from the facet store. -/
def execRst (n : Fin 128) (o : OpW) (s : State) : Res := presentOp n ⟨.rst, o, 0⟩ s
/-- RADD (R116): remote atomic add returning the old value. -/
def execRadd (n : Fin 128) (o : OpW) (s : State) : Res := presentOp n ⟨.radd, o, 0⟩ s
/-- RTAS (R116): remote atomic test-and-set of a byte. -/
def execRtas (n : Fin 128) (o : OpW) (s : State) : Res := presentOp n ⟨.rtas, o, 0⟩ s
/-- LDR (R124): remote read of a crown-store word that takes a reservation. -/
def execLdr (n : Fin 128) (o : OpW) (s : State) : Res := presentOp n ⟨.ldr, o, 0⟩ s
/-- STC (R124): remote conditional store that writes only if the reservation holds. -/
def execStc (n : Fin 128) (o : OpW) (s : State) : Res := presentOp n ⟨.stc, o, 0⟩ s

end Sys2Proof.Machine
end

