-- ==== Sys2Proof/Machine/Scalar.lean ====
section
/-! DEFINITION. Scalar and address operations, class 0b010, slots S4 and S5 (R108 to R110): each presents its operation to the facet;
what it does when its bundle issues is in Machine/FacetIssue.lean and Machine/FacetVal.lean. -/
namespace Sys2Proof.Machine

/-- MOV (R108): scalar move. -/
def execMov (n : Fin 128) (o : OpW) (s : State) : Res := presentOp n ⟨.mov, o, 0⟩ s
/-- ADD (R108): scalar add. -/
def execAdd (n : Fin 128) (o : OpW) (s : State) : Res := presentOp n ⟨.add, o, 0⟩ s
/-- SUB (R108): scalar subtract. -/
def execSub (n : Fin 128) (o : OpW) (s : State) : Res := presentOp n ⟨.sub, o, 0⟩ s
/-- AND (R108): scalar AND. -/
def execAnd (n : Fin 128) (o : OpW) (s : State) : Res := presentOp n ⟨.and, o, 0⟩ s
/-- OR (R108): scalar OR. -/
def execOr (n : Fin 128) (o : OpW) (s : State) : Res := presentOp n ⟨.or, o, 0⟩ s
/-- XOR (R108): scalar XOR. -/
def execXor (n : Fin 128) (o : OpW) (s : State) : Res := presentOp n ⟨.xor, o, 0⟩ s
/-- SHL (R108): scalar shift left. -/
def execShl (n : Fin 128) (o : OpW) (s : State) : Res := presentOp n ⟨.shl, o, 0⟩ s
/-- SHR (R108): scalar shift right, arithmetic or logical. -/
def execShr (n : Fin 128) (o : OpW) (s : State) : Res := presentOp n ⟨.shr, o, 0⟩ s
/-- MIN (R108): scalar minimum. -/
def execMin (n : Fin 128) (o : OpW) (s : State) : Res := presentOp n ⟨.min, o, 0⟩ s
/-- MAX (R108): scalar maximum. -/
def execMax (n : Fin 128) (o : OpW) (s : State) : Res := presentOp n ⟨.max, o, 0⟩ s
/-- CMPEQ (R108): scalar equality comparison. -/
def execCmpeq (n : Fin 128) (o : OpW) (s : State) : Res := presentOp n ⟨.cmpeq, o, 0⟩ s
/-- CMPNE (R108): scalar inequality comparison. -/
def execCmpne (n : Fin 128) (o : OpW) (s : State) : Res := presentOp n ⟨.cmpne, o, 0⟩ s
/-- CMPLT (R108): scalar less-than comparison. -/
def execCmplt (n : Fin 128) (o : OpW) (s : State) : Res := presentOp n ⟨.cmplt, o, 0⟩ s
/-- CMPLE (R108): scalar less-or-equal comparison. -/
def execCmple (n : Fin 128) (o : OpW) (s : State) : Res := presentOp n ⟨.cmple, o, 0⟩ s
/-- LEA (R109): writes the effective address of a specifier without access or check. -/
def execLea (n : Fin 128) (o : OpW) (s : State) : Res := presentOp n ⟨.lea, o, 0⟩ s
/-- MOVW (R109): writes a window register, shadowed and unchecked. -/
def execMovw (n : Fin 128) (o : OpW) (s : State) : Res := presentOp n ⟨.movw, o, 0⟩ s
/-- TAS (R110): indivisibly reads a byte and writes 0x01 to it, returning whether it was nonzero. -/
def execTas (n : Fin 128) (o : OpW) (s : State) : Res := presentOp n ⟨.tas, o, 0⟩ s

end Sys2Proof.Machine
end

