-- ==== Sys2Proof/Machine/Special.lean ====
section
/-! DEFINITION. Special operations, class 0b011, slot S6 (R111 to R115): each presents its operation to the facet;
what it does when its bundle issues is in Machine/FacetIssue.lean and Machine/FacetVal.lean. -/
namespace Sys2Proof.Machine

/-- MUL (R111): scalar multiply, low bits. -/
def execMul (n : Fin 128) (o : OpW) (s : State) : Res := presentOp n ⟨.mul, o, 0⟩ s
/-- MULH (R111): high 64 bits of a 128-bit product. -/
def execMulh (n : Fin 128) (o : OpW) (s : State) : Res := presentOp n ⟨.mulh, o, 0⟩ s
/-- DIV (R112): integer division truncated toward zero; a zero divisor faults. -/
def execDiv (n : Fin 128) (o : OpW) (s : State) : Res := presentOp n ⟨.div, o, 0⟩ s
/-- REM (R112): integer remainder; a zero divisor faults. -/
def execRem (n : Fin 128) (o : OpW) (s : State) : Res := presentOp n ⟨.rem, o, 0⟩ s
/-- FDIV (R111): correctly rounded fp32 division. -/
def execFdiv (n : Fin 128) (o : OpW) (s : State) : Res := presentOp n ⟨.fdiv, o, 0⟩ s
/-- FSQRT (R111): correctly rounded fp32 square root. -/
def execFsqrt (n : Fin 128) (o : OpW) (s : State) : Res := presentOp n ⟨.fsqrt, o, 0⟩ s
/-- FRCP (R113): fp32 reciprocal. -/
def execFrcp (n : Fin 128) (o : OpW) (s : State) : Res := presentOp n ⟨.frcp, o, 0⟩ s
/-- FRSQRT (R113): fp32 reciprocal square root. -/
def execFrsqrt (n : Fin 128) (o : OpW) (s : State) : Res := presentOp n ⟨.frsqrt, o, 0⟩ s
/-- FEXP2 (R113): fp32 power of two. -/
def execFexp2 (n : Fin 128) (o : OpW) (s : State) : Res := presentOp n ⟨.fexp2, o, 0⟩ s
/-- FLOG2 (R113): fp32 base-2 logarithm. -/
def execFlog2 (n : Fin 128) (o : OpW) (s : State) : Res := presentOp n ⟨.flog2, o, 0⟩ s
/-- FSIN (R113): fp32 sine of 2 pi b. -/
def execFsin (n : Fin 128) (o : OpW) (s : State) : Res := presentOp n ⟨.fsin, o, 0⟩ s
/-- FCOS (R113): fp32 cosine of 2 pi b. -/
def execFcos (n : Fin 128) (o : OpW) (s : State) : Res := presentOp n ⟨.fcos, o, 0⟩ s
/-- CRC (R114): advances a CRC state in a G register over the bytes of b. -/
def execCrc (n : Fin 128) (o : OpW) (s : State) : Res := presentOp n ⟨.crc, o, 0⟩ s
/-- EXTR (R115): extracts a bit field. -/
def execExtr (n : Fin 128) (o : OpW) (s : State) : Res := presentOp n ⟨.extr, o, 0⟩ s
/-- INS (R115): inserts a bit field. -/
def execIns (n : Fin 128) (o : OpW) (s : State) : Res := presentOp n ⟨.ins, o, 0⟩ s
/-- CLZ (R111): counts leading zeros. -/
def execClz (n : Fin 128) (o : OpW) (s : State) : Res := presentOp n ⟨.clz, o, 0⟩ s
/-- POPC (R111): counts set bits. -/
def execPopc (n : Fin 128) (o : OpW) (s : State) : Res := presentOp n ⟨.popc, o, 0⟩ s

end Sys2Proof.Machine
end

