-- ==== Sys2Proof/Machine/VectorAlu.lean ====
section
/-! DEFINITION. Vector ALU and accumulator transfer operations, class 0b001, slots S2 and S3 (R103 to R107): each presents its operation to the facet;
what it does when its bundle issues is in Machine/FacetIssue.lean and Machine/FacetVal.lean. -/
namespace Sys2Proof.Machine

/-- VMOV (R103): copies a vector. -/
def execVmov (n : Fin 128) (o : OpW) (s : State) : Res := presentOp n ⟨.vmov, o, 0⟩ s
/-- VADD (R103): adds two vectors lane by lane. -/
def execVadd (n : Fin 128) (o : OpW) (s : State) : Res := presentOp n ⟨.vadd, o, 0⟩ s
/-- VSUB (R103): subtracts two vectors lane by lane. -/
def execVsub (n : Fin 128) (o : OpW) (s : State) : Res := presentOp n ⟨.vsub, o, 0⟩ s
/-- VADDS (R103): adds two vectors with saturation. -/
def execVadds (n : Fin 128) (o : OpW) (s : State) : Res := presentOp n ⟨.vadds, o, 0⟩ s
/-- VSUBS (R103): subtracts two vectors with saturation. -/
def execVsubs (n : Fin 128) (o : OpW) (s : State) : Res := presentOp n ⟨.vsubs, o, 0⟩ s
/-- VMUL_ALU (R103): vector ALU VMUL multiplies two vectors lane by lane. -/
def execVmulAlu (n : Fin 128) (o : OpW) (s : State) : Res := presentOp n ⟨.vmulAlu, o, 0⟩ s
/-- VFMA (R103): fused multiply-add of floating-point vectors. -/
def execVfma (n : Fin 128) (o : OpW) (s : State) : Res := presentOp n ⟨.vfma, o, 0⟩ s
/-- VMIN (R103): signed or floating-point lane minimum. -/
def execVmin (n : Fin 128) (o : OpW) (s : State) : Res := presentOp n ⟨.vmin, o, 0⟩ s
/-- VMAX (R103): signed or floating-point lane maximum. -/
def execVmax (n : Fin 128) (o : OpW) (s : State) : Res := presentOp n ⟨.vmax, o, 0⟩ s
/-- VMINU (R103): unsigned lane minimum. -/
def execVminu (n : Fin 128) (o : OpW) (s : State) : Res := presentOp n ⟨.vminu, o, 0⟩ s
/-- VMAXU (R103): unsigned lane maximum. -/
def execVmaxu (n : Fin 128) (o : OpW) (s : State) : Res := presentOp n ⟨.vmaxu, o, 0⟩ s
/-- VABS (R103): lane absolute value. -/
def execVabs (n : Fin 128) (o : OpW) (s : State) : Res := presentOp n ⟨.vabs, o, 0⟩ s
/-- VNEG (R103): lane negation. -/
def execVneg (n : Fin 128) (o : OpW) (s : State) : Res := presentOp n ⟨.vneg, o, 0⟩ s
/-- VAND (R103): lane bitwise AND. -/
def execVand (n : Fin 128) (o : OpW) (s : State) : Res := presentOp n ⟨.vand, o, 0⟩ s
/-- VOR (R103): lane bitwise OR. -/
def execVor (n : Fin 128) (o : OpW) (s : State) : Res := presentOp n ⟨.vor, o, 0⟩ s
/-- VXOR (R103): lane bitwise XOR. -/
def execVxor (n : Fin 128) (o : OpW) (s : State) : Res := presentOp n ⟨.vxor, o, 0⟩ s
/-- VANDN (R103): lane bitwise AND with complement. -/
def execVandn (n : Fin 128) (o : OpW) (s : State) : Res := presentOp n ⟨.vandn, o, 0⟩ s
/-- VSHL (R103): lane shift left. -/
def execVshl (n : Fin 128) (o : OpW) (s : State) : Res := presentOp n ⟨.vshl, o, 0⟩ s
/-- VSHR (R103): lane arithmetic shift right. -/
def execVshr (n : Fin 128) (o : OpW) (s : State) : Res := presentOp n ⟨.vshr, o, 0⟩ s
/-- VSHRU (R103): lane logical shift right. -/
def execVshru (n : Fin 128) (o : OpW) (s : State) : Res := presentOp n ⟨.vshru, o, 0⟩ s
/-- VCMPEQ (R103): lane equality comparison. -/
def execVcmpeq (n : Fin 128) (o : OpW) (s : State) : Res := presentOp n ⟨.vcmpeq, o, 0⟩ s
/-- VCMPLT (R103): lane signed or floating-point less-than. -/
def execVcmplt (n : Fin 128) (o : OpW) (s : State) : Res := presentOp n ⟨.vcmplt, o, 0⟩ s
/-- VCMPLE (R103): lane signed or floating-point less-or-equal. -/
def execVcmple (n : Fin 128) (o : OpW) (s : State) : Res := presentOp n ⟨.vcmple, o, 0⟩ s
/-- VCMPLTU (R103): lane unsigned less-than. -/
def execVcmpltu (n : Fin 128) (o : OpW) (s : State) : Res := presentOp n ⟨.vcmpltu, o, 0⟩ s
/-- VSEL (R103): lane select by the destination's old lane value. -/
def execVsel (n : Fin 128) (o : OpW) (s : State) : Res := presentOp n ⟨.vsel, o, 0⟩ s
/-- VCVT (R104): converts vector lanes between types and widths. -/
def execVcvt (n : Fin 128) (o : OpW) (s : State) : Res := presentOp n ⟨.vcvt, o, 0⟩ s
/-- ACCST (R106): converts accumulator lanes with shift and rounding and stores one vector. -/
def execAccst (n : Fin 128) (o : OpW) (s : State) : Res := presentOp n ⟨.accst, o, 0⟩ s
/-- ACCSV (R107): saves 32 bytes of an accumulator image as a vector. -/
def execAccsv (n : Fin 128) (o : OpW) (s : State) : Res := presentOp n ⟨.accsv, o, 0⟩ s
/-- ACCRS (R107): restores 32 bytes of an accumulator image from a vector. -/
def execAccrs (n : Fin 128) (o : OpW) (s : State) : Res := presentOp n ⟨.accrs, o, 0⟩ s

end Sys2Proof.Machine
end

