-- ==== Sys2Proof/Machine/VectorMac.lean ====
section
/-! DEFINITION. Vector MAC operations, class 0b000, slots S0 and S1 (R100 to R102): each presents its operation to the facet;
what it does when its bundle issues is in Machine/FacetIssue.lean and Machine/FacetVal.lean. -/
namespace Sys2Proof.Machine

/-- VMUL_MAC (R100): vector MAC VMUL writes the lane products into an accumulator. -/
def execVmulMac (n : Fin 128) (o : OpW) (s : State) : Res := presentOp n ⟨.vmulMac, o, 0⟩ s
/-- VMAC (R100): adds the lane products to an accumulator. -/
def execVmac (n : Fin 128) (o : OpW) (s : State) : Res := presentOp n ⟨.vmac, o, 0⟩ s
/-- VMSU (R100): subtracts the lane products from an accumulator. -/
def execVmsu (n : Fin 128) (o : OpW) (s : State) : Res := presentOp n ⟨.vmsu, o, 0⟩ s
/-- VMACU (R100): adds unsigned lane products to an accumulator. -/
def execVmacu (n : Fin 128) (o : OpW) (s : State) : Res := presentOp n ⟨.vmacu, o, 0⟩ s
/-- VSAD (R100): adds the sum of absolute differences to an accumulator. -/
def execVsad (n : Fin 128) (o : OpW) (s : State) : Res := presentOp n ⟨.vsad, o, 0⟩ s

end Sys2Proof.Machine
end

