-- ==== Sys2Proof/Machine/Dispatch.lean ====
section
/-! DEFINITION. One arm for each command: a direct call of its meaning. -/
namespace Sys2Proof.Machine

def exec (i : Instr) (s : State) : Host.Outcome State Fault Refusal :=
  match i with
  | .resultLanding n => Sys2Proof.Machine.execResultLanding n s
  | .loopEndAction n => Sys2Proof.Machine.execLoopEndAction n s
  | .exceptionEntry n => Sys2Proof.Machine.execExceptionEntry n s
  | .holdOverrun n => Sys2Proof.Machine.execHoldOverrun n s
  | .twaitRelease n => Sys2Proof.Machine.execTwaitRelease n s
  | .ewaitRelease n => Sys2Proof.Machine.execEwaitRelease n s
  | .longOpDone n => Sys2Proof.Machine.execLongOpDone n s
  | .remoteCompletion n j_ uncorrectable => Sys2Proof.Machine.execRemoteCompletion n j_ uncorrectable s
  | .reservationExpiry n => Sys2Proof.Machine.execReservationExpiry n s
  | .facetHalted n => Sys2Proof.Machine.execFacetHalted n s
  | .facCtlRun n => Sys2Proof.Machine.execFacCtlRun n s
  | .facCtlHalt n => Sys2Proof.Machine.execFacCtlHalt n s
  | .pflush n => Sys2Proof.Machine.execPflush n s
  | .pflushDone n => Sys2Proof.Machine.execPflushDone n s
  | .facetRegisterBlockWrite n off v by_ => Sys2Proof.Machine.execFacetRegisterBlockWrite n off v by_ s
  | .vmulMac n o => Sys2Proof.Machine.execVmulMac n o s
  | .vmac n o => Sys2Proof.Machine.execVmac n o s
  | .vmsu n o => Sys2Proof.Machine.execVmsu n o s
  | .vmacu n o => Sys2Proof.Machine.execVmacu n o s
  | .vsad n o => Sys2Proof.Machine.execVsad n o s
  | .vmov n o => Sys2Proof.Machine.execVmov n o s
  | .vadd n o => Sys2Proof.Machine.execVadd n o s
  | .vsub n o => Sys2Proof.Machine.execVsub n o s
  | .vadds n o => Sys2Proof.Machine.execVadds n o s
  | .vsubs n o => Sys2Proof.Machine.execVsubs n o s
  | .vmulAlu n o => Sys2Proof.Machine.execVmulAlu n o s
  | .vfma n o => Sys2Proof.Machine.execVfma n o s
  | .vmin n o => Sys2Proof.Machine.execVmin n o s
  | .vmax n o => Sys2Proof.Machine.execVmax n o s
  | .vminu n o => Sys2Proof.Machine.execVminu n o s
  | .vmaxu n o => Sys2Proof.Machine.execVmaxu n o s
  | .vabs n o => Sys2Proof.Machine.execVabs n o s
  | .vneg n o => Sys2Proof.Machine.execVneg n o s
  | .vand n o => Sys2Proof.Machine.execVand n o s
  | .vor n o => Sys2Proof.Machine.execVor n o s
  | .vxor n o => Sys2Proof.Machine.execVxor n o s
  | .vandn n o => Sys2Proof.Machine.execVandn n o s
  | .vshl n o => Sys2Proof.Machine.execVshl n o s
  | .vshr n o => Sys2Proof.Machine.execVshr n o s
  | .vshru n o => Sys2Proof.Machine.execVshru n o s
  | .vcmpeq n o => Sys2Proof.Machine.execVcmpeq n o s
  | .vcmplt n o => Sys2Proof.Machine.execVcmplt n o s
  | .vcmple n o => Sys2Proof.Machine.execVcmple n o s
  | .vcmpltu n o => Sys2Proof.Machine.execVcmpltu n o s
  | .vsel n o => Sys2Proof.Machine.execVsel n o s
  | .vcvt n o => Sys2Proof.Machine.execVcvt n o s
  | .accst n o => Sys2Proof.Machine.execAccst n o s
  | .accsv n o => Sys2Proof.Machine.execAccsv n o s
  | .accrs n o => Sys2Proof.Machine.execAccrs n o s
  | .mov n o => Sys2Proof.Machine.execMov n o s
  | .add n o => Sys2Proof.Machine.execAdd n o s
  | .sub n o => Sys2Proof.Machine.execSub n o s
  | .and n o => Sys2Proof.Machine.execAnd n o s
  | .or n o => Sys2Proof.Machine.execOr n o s
  | .xor n o => Sys2Proof.Machine.execXor n o s
  | .shl n o => Sys2Proof.Machine.execShl n o s
  | .shr n o => Sys2Proof.Machine.execShr n o s
  | .min n o => Sys2Proof.Machine.execMin n o s
  | .max n o => Sys2Proof.Machine.execMax n o s
  | .cmpeq n o => Sys2Proof.Machine.execCmpeq n o s
  | .cmpne n o => Sys2Proof.Machine.execCmpne n o s
  | .cmplt n o => Sys2Proof.Machine.execCmplt n o s
  | .cmple n o => Sys2Proof.Machine.execCmple n o s
  | .lea n o => Sys2Proof.Machine.execLea n o s
  | .movw n o => Sys2Proof.Machine.execMovw n o s
  | .tas n o => Sys2Proof.Machine.execTas n o s
  | .mul n o => Sys2Proof.Machine.execMul n o s
  | .mulh n o => Sys2Proof.Machine.execMulh n o s
  | .div n o => Sys2Proof.Machine.execDiv n o s
  | .rem n o => Sys2Proof.Machine.execRem n o s
  | .fdiv n o => Sys2Proof.Machine.execFdiv n o s
  | .fsqrt n o => Sys2Proof.Machine.execFsqrt n o s
  | .frcp n o => Sys2Proof.Machine.execFrcp n o s
  | .frsqrt n o => Sys2Proof.Machine.execFrsqrt n o s
  | .fexp2 n o => Sys2Proof.Machine.execFexp2 n o s
  | .flog2 n o => Sys2Proof.Machine.execFlog2 n o s
  | .fsin n o => Sys2Proof.Machine.execFsin n o s
  | .fcos n o => Sys2Proof.Machine.execFcos n o s
  | .crc n o => Sys2Proof.Machine.execCrc n o s
  | .extr n o => Sys2Proof.Machine.execExtr n o s
  | .ins n o => Sys2Proof.Machine.execIns n o s
  | .clz n o => Sys2Proof.Machine.execClz n o s
  | .popc n o => Sys2Proof.Machine.execPopc n o s
  | .rld n o => Sys2Proof.Machine.execRld n o s
  | .rst n o => Sys2Proof.Machine.execRst n o s
  | .radd n o => Sys2Proof.Machine.execRadd n o s
  | .rtas n o => Sys2Proof.Machine.execRtas n o s
  | .ldr n o => Sys2Proof.Machine.execLdr n o s
  | .stc n o => Sys2Proof.Machine.execStc n o s
  | .bmove n o => Sys2Proof.Machine.execBmove n o s
  | .bfill n o => Sys2Proof.Machine.execBfill n o s
  | .bcrc n o => Sys2Proof.Machine.execBcrc n o s
  | .bfir n o => Sys2Proof.Machine.execBfir n o s
  | .nop n o => Sys2Proof.Machine.execNop n o s
  | .br n o => Sys2Proof.Machine.execBr n o s
  | .brc n o => Sys2Proof.Machine.execBrc n o s
  | .call n o => Sys2Proof.Machine.execCall n o s
  | .ret n o => Sys2Proof.Machine.execRet n o s
  | .loop n o => Sys2Proof.Machine.execLoop n o s
  | .rep n o => Sys2Proof.Machine.execRep n o s
  | .twait n o => Sys2Proof.Machine.execTwait n o s
  | .ewait n o => Sys2Proof.Machine.execEwait n o s
  | .efclr n o => Sys2Proof.Machine.execEfclr n o s
  | .eftst n o => Sys2Proof.Machine.execEftst n o s
  | .syscall n o => Sys2Proof.Machine.execSyscall n o s
  | .retx n o => Sys2Proof.Machine.execRetx n o s
  | .brk n o => Sys2Proof.Machine.execBrk n o s
  | .kenter n o => Sys2Proof.Machine.execKenter n o s
  | .mfs n o => Sys2Proof.Machine.execMfs n o s
  | .mts n o => Sys2Proof.Machine.execMts n o s
  | .sig n o => Sys2Proof.Machine.execSig n o s
  | .mbxput n o => Sys2Proof.Machine.execMbxput n o s
  | .mbxget n o => Sys2Proof.Machine.execMbxget n o s
  | .kld n o => Sys2Proof.Machine.execKld n o s
  | .kst n o => Sys2Proof.Machine.execKst n o s
  | .kmov n o => Sys2Proof.Machine.execKmov n o s
  | .kbnd n o => Sys2Proof.Machine.execKbnd n o s
  | .kmask n o => Sys2Proof.Machine.execKmask n o s
  | .kseal n o => Sys2Proof.Machine.execKseal n o s
  | .kunseal n o => Sys2Proof.Machine.execKunseal n o s
  | .kget n o => Sys2Proof.Machine.execKget n o s
  | .kclr n o => Sys2Proof.Machine.execKclr n o s
  | .lit n o => Sys2Proof.Machine.execLit n o s
  | .intSourceEvent k j_ => Sys2Proof.Machine.execIntSourceEvent k j_ s
  | .levelFilterSettle k j_ => Sys2Proof.Machine.execLevelFilterSettle k j_ s
  | .batchTimerExpiry k j_ => Sys2Proof.Machine.execBatchTimerExpiry k j_ s
  | .intClaim k fast => Sys2Proof.Machine.execIntClaim k fast s
  | .intEoi k j_ => Sys2Proof.Machine.execIntEoi k j_ s
  | .intSetp k j_ => Sys2Proof.Machine.execIntSetp k j_ s
  | .intClrp k j_ => Sys2Proof.Machine.execIntClrp k j_ s
  | .intScfgWrite k j_ v => Sys2Proof.Machine.execIntScfgWrite k j_ v s
  | .fillDone => Sys2Proof.Machine.execFillDone s
  | .reconstruction page port erased sideBad => Sys2Proof.Machine.execReconstruction page port erased sideBad s
  | .itgScrubStart u v => Sys2Proof.Machine.execItgScrubStart u v s
  | .scrubPassDone u => Sys2Proof.Machine.execScrubPassDone u s
  | .itgRetireStart c v => Sys2Proof.Machine.execItgRetireStart c v s
  | .retirementDone c => Sys2Proof.Machine.execRetirementDone c s
  | .pounceIntervalExpiry c => Sys2Proof.Machine.execPounceIntervalExpiry c s
  | .pounceTestDone c pass => Sys2Proof.Machine.execPounceTestDone c pass s
  | .itgTctlGo c v => Sys2Proof.Machine.execItgTctlGo c v s
  | .movCtlStart k sink => Sys2Proof.Machine.execMovCtlStart k sink s
  | .burstIssue k bad => Sys2Proof.Machine.execBurstIssue k bad s
  | .transferCompletion k => Sys2Proof.Machine.execTransferCompletion k s
  | .movCtlStop k => Sys2Proof.Machine.execMovCtlStop k s
  | .transferEndEarly k => Sys2Proof.Machine.execTransferEndEarly k s
  | .channelDrainHeld k => Sys2Proof.Machine.execChannelDrainHeld k s
  | .channelResume k => Sys2Proof.Machine.execChannelResume k s
  | .drainTimeout k => Sys2Proof.Machine.execDrainTimeout k s
  | .seamReplay d => Sys2Proof.Machine.execSeamReplay d s
  | .timeStepApply => Sys2Proof.Machine.execTimeStepApply s
  | .ratePoint => Sys2Proof.Machine.execRatePoint s
  | .timRateWrite v => Sys2Proof.Machine.execTimRateWrite v s
  | .steparm => Sys2Proof.Machine.execSteparm s
  | .checkWord d w => Sys2Proof.Machine.execCheckWord d w s
  | .ppsEdge rising => Sys2Proof.Machine.execPpsEdge rising s
  | .ppsMiss => Sys2Proof.Machine.execPpsMiss s
  | .storeTimeSecond => Sys2Proof.Machine.execStoreTimeSecond s
  | .ppsOutFall => Sys2Proof.Machine.execPpsOutFall s
  | .ptpSample m x => Sys2Proof.Machine.execPtpSample m x s
  | .holdoverEntry => Sys2Proof.Machine.execHoldoverEntry s
  | .launchTimerFire j_ => Sys2Proof.Machine.execLaunchTimerFire j_ s
  | .timLctlWrite j_ v => Sys2Proof.Machine.execTimLctlWrite j_ v s
  | .timLperWrite j_ v => Sys2Proof.Machine.execTimLperWrite j_ v s
  | .hatbandDelivery e lost => Sys2Proof.Machine.execHatbandDelivery e lost s
  | .hatSwaparm => Sys2Proof.Machine.execHatSwaparm s
  | .hatbandSwap => Sys2Proof.Machine.execHatbandSwap s
  | .hatCopy => Sys2Proof.Machine.execHatCopy s
  | .hatCopyDone => Sys2Proof.Machine.execHatCopyDone s
  | .fabricEventReceive fr => Sys2Proof.Machine.execFabricEventReceive fr s
  | .fabricEventAct e => Sys2Proof.Machine.execFabricEventAct e s
  | .vioSample gr mv => Sys2Proof.Machine.execVioSample gr mv s
  | .groupEnableWrite gr v => Sys2Proof.Machine.execGroupEnableWrite gr v s
  | .cellEnable p v by_ => Sys2Proof.Machine.execCellEnable p v by_ s
  | .flushrx p => Sys2Proof.Machine.execFlushrx p s
  | .flushtx p => Sys2Proof.Machine.execFlushtx p s
  | .padFault p => Sys2Proof.Machine.execPadFault p s
  | .txWindowWrite p bytes by_ => Sys2Proof.Machine.execTxWindowWrite p bytes by_ s
  | .rxWindowRead p len by_ => Sys2Proof.Machine.execRxWindowRead p len by_ s
  | .rxByteReceived p wave => Sys2Proof.Machine.execRxByteReceived p wave s
  | .burstEnd p => Sys2Proof.Machine.execBurstEnd p s
  | .launchPulseEnd p => Sys2Proof.Machine.execLaunchPulseEnd p s
  | .launchComparator p k => Sys2Proof.Machine.execLaunchComparator p k s
  | .padEdge p padB level => Sys2Proof.Machine.execPadEdge p padB level s
  | .prtSenseStart p v => Sys2Proof.Machine.execPrtSenseStart p v s
  | .measurementDone p m => Sys2Proof.Machine.execMeasurementDone p m s
  | .attachChange p => Sys2Proof.Machine.execAttachChange p s
  | .shiftEntryEnd p r => Sys2Proof.Machine.execShiftEntryEnd p r s
  | .feedSwitchOn b f v => Sys2Proof.Machine.execFeedSwitchOn b f v s
  | .feedSwitchOff b f v => Sys2Proof.Machine.execFeedSwitchOff b f v s
  | .feedSample b f j_ vout => Sys2Proof.Machine.execFeedSample b f j_ vout s
  | .hardLimitTrip b f => Sys2Proof.Machine.execHardLimitTrip b f s
  | .feedRetry b f => Sys2Proof.Machine.execFeedRetry b f s
  | .controlWordIssue b errs => Sys2Proof.Machine.execControlWordIssue b errs s
  | .txb t cell v => Sys2Proof.Machine.execTxb t cell v s
  | .rxb t cell dst => Sys2Proof.Machine.execRxb t cell dst s
  | .shift t cell v => Sys2Proof.Machine.execShift t cell v s
  | .span t cell v => Sys2Proof.Machine.execSpan t cell v s
  | .padset t cell v => Sys2Proof.Machine.execPadset t cell v s
  | .crd t cell idx dst => Sys2Proof.Machine.execCrd t cell idx dst s
  | .cwr t cell idx v => Sys2Proof.Machine.execCwr t cell idx v s
  | .flush t cell v => Sys2Proof.Machine.execFlush t cell v s
  | .rstamp t v => Sys2Proof.Machine.execRstamp t v s
  | .rsend t cell v => Sys2Proof.Machine.execRsend t cell v s
  | .rput t v => Sys2Proof.Machine.execRput t v s
  | .rclr t => Sys2Proof.Machine.execRclr t s
  | .cmdb t dst => Sys2Proof.Machine.execCmdb t dst s
  | .tmr t v => Sys2Proof.Machine.execTmr t v s
  | .evmask t v => Sys2Proof.Machine.execEvmask t v s
  | .attn t => Sys2Proof.Machine.execAttn t s
  | .hsig t => Sys2Proof.Machine.execHsig t s
  | .parkWake t => Sys2Proof.Machine.execParkWake t s
  | .microTimerExpiry t => Sys2Proof.Machine.execMicroTimerExpiry t s
  | .blkTstart t => Sys2Proof.Machine.execBlkTstart t s
  | .blkTstop t => Sys2Proof.Machine.execBlkTstop t s
  | .blkWheelWrite b v => Sys2Proof.Machine.execBlkWheelWrite b v s
  | .wheelChange b => Sys2Proof.Machine.execWheelChange b s
  | .blkCopy b => Sys2Proof.Machine.execBlkCopy b s
  | .blkCopyDone b => Sys2Proof.Machine.execBlkCopyDone b s
  | .blkSwaparm b => Sys2Proof.Machine.execBlkSwaparm b s
  | .blkSwapPoint b => Sys2Proof.Machine.execBlkSwapPoint b s
  | .reportStart => Sys2Proof.Machine.execReportStart s
  | .reportPublish n => Sys2Proof.Machine.execReportPublish n s
  | .fabricReportReceive fr => Sys2Proof.Machine.execFabricReportReceive fr s
  | .sesCopy => Sys2Proof.Machine.execSesCopy s
  | .sesCopyDone => Sys2Proof.Machine.execSesCopyDone s
  | .sesSwaparm => Sys2Proof.Machine.execSesSwaparm s
  | .routeSwap => Sys2Proof.Machine.execRouteSwap s
  | .sesCmdPush v by_ => Sys2Proof.Machine.execSesCmdPush v by_ s
  | .contextWrite n off bytes by_ => Sys2Proof.Machine.execContextWrite n off bytes by_ s
  | .endpointAttach p sub proto ident => Sys2Proof.Machine.execEndpointAttach p sub proto ident s
  | .endpointDetach n => Sys2Proof.Machine.execEndpointDetach n s
  | .sessionHoldExpiry n => Sys2Proof.Machine.execSessionHoldExpiry n s
  | .packageLost pkg => Sys2Proof.Machine.execPackageLost pkg s
  | .queueEnable q v => Sys2Proof.Machine.execQueueEnable q v s
  | .queueDisable q v => Sys2Proof.Machine.execQueueDisable q v s
  | .mbxSqtail q v => Sys2Proof.Machine.execMbxSqtail q v s
  | .mbxCqhead q v => Sys2Proof.Machine.execMbxCqhead q v s
  | .commandFetch q entries ok => Sys2Proof.Machine.execCommandFetch q entries ok s
  | .completionPost q ok => Sys2Proof.Machine.execCompletionPost q ok s
  | .interruptTimeExpiry q => Sys2Proof.Machine.execInterruptTimeExpiry q s
  | .asyncEventPost cls data => Sys2Proof.Machine.execAsyncEventPost cls data s
  | .heartbeat => Sys2Proof.Machine.execHeartbeat s
  | .commandTimeout id => Sys2Proof.Machine.execCommandTimeout id s
  | .requestTake n => Sys2Proof.Machine.execRequestTake n s
  | .responseForward n => Sys2Proof.Machine.execResponseForward n s
  | .getVersion g => Sys2Proof.Machine.execGetVersion g s
  | .getStatus g => Sys2Proof.Machine.execGetStatus g s
  | .eventEnable g => Sys2Proof.Machine.execEventEnable g s
  | .abort g => Sys2Proof.Machine.execAbort g s
  | .resetCmd g => Sys2Proof.Machine.execResetCmd g s
  | .authChallenge g => Sys2Proof.Machine.execAuthChallenge g s
  | .authOpen g => Sys2Proof.Machine.execAuthOpen g s
  | .authClose g => Sys2Proof.Machine.execAuthClose g s
  | .principalSessionExpiry h => Sys2Proof.Machine.execPrincipalSessionExpiry h s
  | .nonceExpiry id => Sys2Proof.Machine.execNonceExpiry id s
  | .crownPower g => Sys2Proof.Machine.execCrownPower g s
  | .domainPower g => Sys2Proof.Machine.execDomainPower g s
  | .standby g => Sys2Proof.Machine.execStandby g s
  | .powerStatus g => Sys2Proof.Machine.execPowerStatus g s
  | .sensors g => Sys2Proof.Machine.execSensors g s
  | .timeGet g => Sys2Proof.Machine.execTimeGet g s
  | .timeSource g => Sys2Proof.Machine.execTimeSource g s
  | .timeStep g => Sys2Proof.Machine.execTimeStep g s
  | .timeRate g => Sys2Proof.Machine.execTimeRate g s
  | .ptpConfig g => Sys2Proof.Machine.execPtpConfig g s
  | .ptpStatus g => Sys2Proof.Machine.execPtpStatus g s
  | .timerSet g => Sys2Proof.Machine.execTimerSet g s
  | .hatWrite g => Sys2Proof.Machine.execHatWrite g s
  | .hatSwap g => Sys2Proof.Machine.execHatSwap g s
  | .groupSet g => Sys2Proof.Machine.execGroupSet g s
  | .probe g => Sys2Proof.Machine.execProbe g s
  | .cable g => Sys2Proof.Machine.execCable g s
  | .bind g => Sys2Proof.Machine.execBind g s
  | .unbind g => Sys2Proof.Machine.execUnbind g s
  | .wheel g => Sys2Proof.Machine.execWheel g s
  | .threadStatus g => Sys2Proof.Machine.execThreadStatus g s
  | .threadRestart g => Sys2Proof.Machine.execThreadRestart g s
  | .feedSet g => Sys2Proof.Machine.execFeedSet g s
  | .feedStatus g => Sys2Proof.Machine.execFeedStatus g s
  | .sesConfig g => Sys2Proof.Machine.execSesConfig g s
  | .sesInfo g => Sys2Proof.Machine.execSesInfo g s
  | .sesRing g => Sys2Proof.Machine.execSesRing g s
  | .sesClose g => Sys2Proof.Machine.execSesClose g s
  | .sesList g => Sys2Proof.Machine.execSesList g s
  | .facetLoad g => Sys2Proof.Machine.execFacetLoad g s
  | .facetRun g => Sys2Proof.Machine.execFacetRun g s
  | .facetHalt g => Sys2Proof.Machine.execFacetHalt g s
  | .facetReport g => Sys2Proof.Machine.execFacetReport g s
  | .facetRegs g => Sys2Proof.Machine.execFacetRegs g s
  | .crownMode g => Sys2Proof.Machine.execCrownMode g s
  | .scrub g => Sys2Proof.Machine.execScrub g s
  | .patrol g => Sys2Proof.Machine.execPatrol g s
  | .patrolScrub => Sys2Proof.Machine.execPatrolScrub s
  | .logRead g => Sys2Proof.Machine.execLogRead g s
  | .retire g => Sys2Proof.Machine.execRetire g s
  | .testWord g => Sys2Proof.Machine.execTestWord g s
  | .dramTouch g => Sys2Proof.Machine.execDramTouch g s
  | .dramRelease g => Sys2Proof.Machine.execDramRelease g s
  | .capGrant g => Sys2Proof.Machine.execCapGrant g s
  | .capRevoke g => Sys2Proof.Machine.execCapRevoke g s
  | .movBind g => Sys2Proof.Machine.execMovBind g s
  | .windowOpen g => Sys2Proof.Machine.execWindowOpen g s
  | .windowClose g => Sys2Proof.Machine.execWindowClose g s
  | .capQuery g => Sys2Proof.Machine.execCapQuery g s
  | .fabJoin g => Sys2Proof.Machine.execFabJoin g s
  | .fabLeave g => Sys2Proof.Machine.execFabLeave g s
  | .fabStatus g => Sys2Proof.Machine.execFabStatus g s
  | .fabConfig g => Sys2Proof.Machine.execFabConfig g s
  | .fabWindow g => Sys2Proof.Machine.execFabWindow g s
  | .fabStandby g => Sys2Proof.Machine.execFabStandby g s
  | .fabExport g => Sys2Proof.Machine.execFabExport g s
  | .fabImport g => Sys2Proof.Machine.execFabImport g s
  | .consList g => Sys2Proof.Machine.execConsList g s
  | .consAuth g => Sys2Proof.Machine.execConsAuth g s
  | .consLife g => Sys2Proof.Machine.execConsLife g s
  | .consUse g => Sys2Proof.Machine.execConsUse g s
  | .consPolicy g => Sys2Proof.Machine.execConsPolicy g s
  | .metrStatus g => Sys2Proof.Machine.execMetrStatus g s
  | .metrLoad g => Sys2Proof.Machine.execMetrLoad g s
  | .metrSeal g => Sys2Proof.Machine.execMetrSeal g s
  | .metrBreak g => Sys2Proof.Machine.execMetrBreak g s
  | .metrAudit g => Sys2Proof.Machine.execMetrAudit g s
  | .ldgRead g => Sys2Proof.Machine.execLdgRead g s
  | .ldgAppend g => Sys2Proof.Machine.execLdgAppend g s
  | .ldgStatus g => Sys2Proof.Machine.execLdgStatus g s
  | .updStage g => Sys2Proof.Machine.execUpdStage g s
  | .updApply g => Sys2Proof.Machine.execUpdApply g s
  | .updStatus g => Sys2Proof.Machine.execUpdStatus g s
  | .updDiscard g => Sys2Proof.Machine.execUpdDiscard g s
  | .ledgerWrite line off v by_ => Sys2Proof.Machine.execLedgerWrite line off v by_ s
  | .ledgerRead line by_ bad => Sys2Proof.Machine.execLedgerRead line by_ bad s
  | .lineCommit line => Sys2Proof.Machine.execLineCommit line s
  | .lineCommitDone line => Sys2Proof.Machine.execLineCommitDone line s
  | .powerFailWarning => Sys2Proof.Machine.execPowerFailWarning s
  | .powerFailWarningEnd => Sys2Proof.Machine.execPowerFailWarningEnd s
  | .dbgchal => Sys2Proof.Machine.execDbgchal s
  | .dbgresp scope signer sig => Sys2Proof.Machine.execDbgresp scope signer sig s
  | .jtagInstruction j => Sys2Proof.Machine.execJtagInstruction j s
  | .trstAssert => Sys2Proof.Machine.execTrstAssert s
  | .hostWindowRequest write o len data uncorrectable => Sys2Proof.Machine.execHostWindowRequest write o len data uncorrectable s
  | .functionLevelReset f => Sys2Proof.Machine.execFunctionLevelReset f s
  | .linkDown => Sys2Proof.Machine.execLinkDown s
  | .perst => Sys2Proof.Machine.execPerst s
  | .frameReceive m fr => Sys2Proof.Machine.execFrameReceive m fr s
  | .frameTransmit m => Sys2Proof.Machine.execFrameTransmit m s
  | .fabricRequestReceive fr uncorrectable => Sys2Proof.Machine.execFabricRequestReceive fr uncorrectable s
  | .fabricResponseReceive fr => Sys2Proof.Machine.execFabricResponseReceive fr s
  | .fabricRetransmit dpkg seq => Sys2Proof.Machine.execFabricRetransmit dpkg seq s
  | .fabricHeartbeat => Sys2Proof.Machine.execFabricHeartbeat s
  | .dramPatrol chunk corrected uncorrectable => Sys2Proof.Machine.execDramPatrol chunk corrected uncorrectable s
  | .pwrDctlWrite d v => Sys2Proof.Machine.execPwrDctlWrite d v s
  | .domainSwitchDone d => Sys2Proof.Machine.execDomainSwitchDone d s
  | .crownP2Entry c => Sys2Proof.Machine.execCrownP2Entry c s
  | .p2EntryTimeout c => Sys2Proof.Machine.execP2EntryTimeout c s
  | .crownWake c => Sys2Proof.Machine.execCrownWake c s
  | .crownWakeDone c => Sys2Proof.Machine.execCrownWakeDone c s
  | .standbyEntry => Sys2Proof.Machine.execStandbyEntry s
  | .packageWake pin time => Sys2Proof.Machine.execPackageWake pin time s
  | .powerOn => Sys2Proof.Machine.execPowerOn s
  | .rstNAssert => Sys2Proof.Machine.execRstNAssert s
  | .refclkLoss => Sys2Proof.Machine.execRefclkLoss s
  | .pllLockLoss => Sys2Proof.Machine.execPllLockLoss s
  | .sensorSample j_ v => Sys2Proof.Machine.execSensorSample j_ v s
  | .supplyTrip => Sys2Proof.Machine.execSupplyTrip s
  | .thermalTrip => Sys2Proof.Machine.execThermalTrip s
  | .watchdogExpiry => Sys2Proof.Machine.execWatchdogExpiry s
  | .watchdogKick => Sys2Proof.Machine.execWatchdogKick s
  | .packageReset cause => Sys2Proof.Machine.execPackageReset cause s
  | .boot b => Sys2Proof.Machine.execBoot b s
  | .counterClearWrite a => Sys2Proof.Machine.execCounterClearWrite a s
  | .registerWrite a v by_ => Sys2Proof.Machine.execRegisterWrite a v by_ s
  | .macLinkUp m => Sys2Proof.Machine.execMacLinkUp m s
  | .macLinkDown m => Sys2Proof.Machine.execMacLinkDown m s
  | .rsFecLossOfLock m => Sys2Proof.Machine.execRsFecLossOfLock m s
  | .pcieLinkUp => Sys2Proof.Machine.execPcieLinkUp s
  | .speedOrWidthChange speed width => Sys2Proof.Machine.execSpeedOrWidthChange speed width s
  | .completionTimeout q => Sys2Proof.Machine.execCompletionTimeout q s
  | .serdesReferenceLoss eth => Sys2Proof.Machine.execSerdesReferenceLoss eth s
  | .serdesReferenceReturn eth => Sys2Proof.Machine.execSerdesReferenceReturn eth s
  | .txFifoByteLeaves p => Sys2Proof.Machine.execTxFifoByteLeaves p s
  | .padFaultEnd p => Sys2Proof.Machine.execPadFaultEnd p s
  | .pfdFmeasRead b f => Sys2Proof.Machine.execPfdFmeasRead b f s
  | .msiXMaskClear f vec => Sys2Proof.Machine.execMsiXMaskClear f vec s
  | .freedIdentityReturn eid => Sys2Proof.Machine.execFreedIdentityReturn eid s
  | .ptpSyncSend m => Sys2Proof.Machine.execPtpSyncSend m s

end Sys2Proof.Machine
end

