-- ==== Sys2Proof/Safety.lean ====
section
/-! DEFINITION. What claims about runs speak of: the canonical form of the state, the states that steps lead to, and steps that
do not stop. -/
namespace Sys2Proof.Machine

/-- The whole address space is in canonical form: bytes and registers. -/
def State.canonical (s : State) : Prop := Memory.wf s.mem = true ∧ (s.regs.map (·.1)).Pairwise (· < ·)

/-- A step answers a next state. -/
def State.goesOn (s : State) : Prop := ∃ t, step s = .next t

/-- `t` is what some number of steps leads to. -/
inductive State.Leads : State → State → Prop where
  | here (s : State) : State.Leads s s
  | step (s t u : State) : State.Leads s t → Machine.step t = .next u → State.Leads s u

end Sys2Proof.Machine
end

