-- ==== Sys2Proof/Certificates/Slice0/Obligations.lean ====
section
/-! DEFINITION. The statements about the model. Each says which rules it formalises; `Sys2Proof.Claims` holds the notions they share. -/
namespace Sys2Proof.Claims
open Sys2Proof Sys2Proof.Machine

/-! ### Facet operations -/

/-- The operations of a class with the command that presents each. -/
abbrev Ops := List (OpKind × (Fin 128 → OpW → Instr))

def scalarOps : Ops :=
  [(.mov, .mov), (.add, .add), (.sub, .sub), (.and, .and), (.or, .or), (.xor, .xor), (.shl, .shl), (.shr, .shr), (.min, .min),
   (.max, .max), (.cmpeq, .cmpeq), (.cmpne, .cmpne), (.cmplt, .cmplt), (.cmple, .cmple), (.mul, .mul), (.mulh, .mulh), (.div, .div),
   (.rem, .rem), (.clz, .clz), (.popc, .popc), (.extr, .extr)]
def floatOps : Ops :=
  [(.fdiv, .fdiv), (.fsqrt, .fsqrt), (.frcp, .frcp), (.frsqrt, .frsqrt), (.fexp2, .fexp2), (.flog2, .flog2), (.fsin, .fsin), (.fcos, .fcos)]
def laneOps : Ops :=
  [(.vmov, .vmov), (.vadd, .vadd), (.vsub, .vsub), (.vadds, .vadds), (.vsubs, .vsubs), (.vmulAlu, .vmulAlu), (.vfma, .vfma), (.vmin, .vmin),
   (.vmax, .vmax), (.vminu, .vminu), (.vmaxu, .vmaxu), (.vabs, .vabs), (.vneg, .vneg), (.vand, .vand), (.vor, .vor), (.vxor, .vxor),
   (.vandn, .vandn), (.vshl, .vshl), (.vshr, .vshr), (.vshru, .vshru), (.vcmpeq, .vcmpeq), (.vcmplt, .vcmplt), (.vcmple, .vcmple),
   (.vcmpltu, .vcmpltu), (.vsel, .vsel)]
def macOps : Ops := [(.vmulMac, .vmulMac), (.vmac, .vmac), (.vmsu, .vmsu), (.vmacu, .vmacu), (.vsad, .vsad)]
def transferOps : Ops := [(.vcvt, .vcvt), (.accst, .accst), (.accsv, .accsv), (.accrs, .accrs)]
def longOps : Ops := [(.bmove, .bmove), (.bfill, .bfill), (.bcrc, .bcrc), (.bfir, .bfir)]
def remoteOps : Ops := [(.rld, .rld), (.rst, .rst), (.radd, .radd), (.rtas, .rtas), (.ldr, .ldr), (.stc, .stc)]
def capOps : Ops :=
  [(.kld, .kld), (.kst, .kst), (.kmov, .kmov), (.kbnd, .kbnd), (.kmask, .kmask), (.kseal, .kseal), (.kunseal, .kunseal), (.kget, .kget),
   (.kclr, .kclr)]
def controlOps : Ops :=
  [(.nop, .nop), (.br, .br), (.brc, .brc), (.call, .call), (.ret, .ret), (.loop, .loop), (.rep, .rep), (.twait, .twait), (.ewait, .ewait),
   (.efclr, .efclr), (.eftst, .eftst), (.syscall, .syscall), (.retx, .retx), (.brk, .brk), (.kenter, .kenter), (.mfs, .mfs), (.mts, .mts),
   (.sig, .sig), (.mbxput, .mbxput), (.mbxget, .mbxget)]
def otherOps : Ops := [(.crc, .crc), (.ins, .ins), (.lea, .lea), (.movw, .movw), (.tas, .tas)]
/-- Every operation but LIT. -/
def facetOps : Ops :=
  scalarOps ++ floatOps ++ laneOps ++ macOps ++ transferOps ++ longOps ++ remoteOps ++ capOps ++ controlOps ++ otherOps

/-- An operation as its command presents it: one without a type or size code has none (R92). -/
abbrev op (k : OpKind) (w : OpW) : Op := codeless ⟨k, w, 0⟩

/-- What no facet operation touches: all but the facets, the free values drawn and the marks of writes in this FCLK. -/
def besides (s : State) : State := { s with facets := [], free := 0, marks := [] }

/-- What a facet keeps while a bundle issues and retires: every register but the program counter, FS.DS, REPC and the counters. -/
def kept (f : Facet) : Facet :=
  { f with pc := 0, fs := setFld f.fs 4 2 0, flights := [], bundle := [], landed := [], bundles := 0, replay := 0, collapse := 0,
           repc := 0, repeating := false, repFirst := false, loopOld := [], lpWas := [], loopAct := false, lastEnd := 0, lastIdx := 0,
           ready := 0 }

/-- The bundle that consists of this operation alone issues: the facet stands at a bundle boundary, no word that it reads waits for a
reconstruction, no check of R34, R82 or the operation's own fails, and its guard does not suppress it. -/
structure IssuesAlone (n : Fin 128) (o : Op) (s : State) : Prop where
  boundary : canIssue s n = true
  stop : o.w.stop = true
  first : (facet s n).bundle = []
  readable : (issueReads s n [o]).any (wordBad s) = false
  passes : bundleCause (landDue n s) n (dueLands (facet s n)) [o] = none
  unguarded : suppressed (facet (landDue n s) n) o = false

/-- The facet once the results due have landed: what the operation's bundle reads (R39). -/
def seen (n : Fin 128) (s : State) : Facet := facet (landDue n s) n
/-- The state in which it issues: the results due have landed, and corrected lanes of what it reads are logged (R255). -/
def atIssue (n : Fin 128) (o : Op) (s : State) : State := noteReads 0 (bundleReads (seen n s) [o]) (landDue n s)

/-- Operand `i` of an operation that issues alone: 0 A, 1 B, 2 C. -/
def operand (n : Fin 128) (o : Op) (s : State) (i : Nat) : Nat := rawOperand (landDue n s) (seen n s) [] o i

/-- The operation index at which a facet goes on after a bundle of one operation (R46, R155). -/
def goesOnAt (f : Facet) : BitVec 15 :=
  if f.repeating && decide (1 < fld f.repc 32 17) then f.pc
  else if fsDS f.fs = 1 then BitVec.ofNat 15 (fld (tget 0 f.pbt (fsLVL f.fs)) 3 15)
  else f.pc + 1

/-- The bundle has issued and retired. The results `ls` are in flight with latency `lat` and the address updates with latency 1 behind
those already in flight; nothing else has changed but the program counter and the counters, here and anywhere. -/
structure Flies (n : Fin 128) (o : Op) (s : State) (lat : Nat) (ls : List Land) (t : State) : Prop where
  flights : (facet t n).flights = (seen n s).flights ++ ((opUpdates (seen n s) o).map fun l => ⟨1, l⟩) ++ ls.map fun l => ⟨lat, l⟩
  registers : kept (facet t n) = kept (seen n s)
  pc : (facet t n).pc = goesOnAt (seen n s)
  counted : (facet t n).bundles = (seen n s).bundles + 1
  bundle : (facet t n).bundle = []
  others : ∀ m, m ≠ n.val → facet t m = facet (landDue n s) m
  rest : besides t = besides (atIssue n o s)

/-- The value of a scalar operation of `z` bits, computed at 64 bits on operands extended to 64 (R94, R97, R98, R108, R111, R112): `uns`
by z[2], `ctl` the control value. Its low `z` bits are the result. -/
def scalarSpec (k : OpKind) (z : Nat) (uns : Bool) (x y : BitVec 64) (ctl : BitVec 12) : BitVec 64 :=
  let flag (b : Bool) : BitVec 64 := if b then 1 else 0
  let less (x y : BitVec 64) : Bool := if uns then x.ult y else x.slt y
  let pos := (ctl.setWidth 6).toNat
  let len := if ctl >>> 6 = 0 then 64 else (ctl >>> 6).toNat
  match k with
  | .mov => x
  | .add => x + y
  | .sub => x - y
  | .and => x &&& y
  | .or => x ||| y
  | .xor => x ^^^ y
  | .shl => if z ≤ y.toNat then 0 else x <<< y.toNat
  | .shr => if uns then (if z ≤ y.toNat then 0 else x >>> y.toNat) else x.sshiftRight (if z ≤ y.toNat then 64 else y.toNat)
  | .min => if less x y then x else y
  | .max => if less x y then y else x
  | .cmpeq => flag (x == y)
  | .cmpne => flag (x != y)
  | .cmplt => flag (less x y)
  | .cmple => flag (!less y x)
  | .mul => x * y
  | .mulh => if uns then ((x.setWidth 128 * y.setWidth 128) >>> 64).setWidth 64 else ((x.signExtend 128 * y.signExtend 128) >>> 64).setWidth 64
  | .div => if uns then x.udiv y else x.sdiv y
  | .rem => if uns then x.umod y else x.srem y
  | .clz => BitVec.ofNat 64 ((List.range z).takeWhile fun i => !x.getLsbD (z - 1 - i)).length
  | .popc => BitVec.ofNat 64 ((List.range z).filter x.getLsbD).length
  | .extr => if uns then ((x >>> pos).setWidth len).setWidth 64 else ((x >>> pos).setWidth len).signExtend 64
  | _ => 0

/-- One lane of a vector ALU operation of type t on lanes of `w` bits (R97, R98, R103); floating-point lanes go through the
operations of R88 and R99. -/
def laneSpec (k : OpKind) (t w : Nat) (a b c : BitVec w) : BitVec w :=
  let f := fmtOf t
  let clamp (x : Int) : BitVec w := BitVec.ofInt w (max (-2 ^ (w - 1)) (min (2 ^ (w - 1) - 1) x))
  let flag (p : Bool) : BitVec w := if p then 1 else 0
  let fp (x : Nat) : BitVec w := BitVec.ofNat w x
  match k with
  | .vmov => b
  | .vadd => if isFp t then fp (fAdd f b.toNat c.toNat) else b + c
  | .vsub => if isFp t then fp (fSub f b.toNat c.toNat) else b - c
  | .vadds => clamp (b.toInt + c.toInt)
  | .vsubs => clamp (b.toInt - c.toInt)
  | .vmulAlu => if isFp t then fp (fMul f b.toNat c.toNat)
      else if t = 3 then clamp ((b.toInt * c.toInt + 2 ^ 14) / 2 ^ 15) else b * c
  | .vfma => fp (fMulAdd f f a.toNat b.toNat c.toNat false)
  | .vmin => if isFp t then fp (fMin f b.toNat c.toNat) else if b.slt c then b else c
  | .vmax => if isFp t then fp (fMax f b.toNat c.toNat) else if b.slt c then c else b
  | .vminu => if b.ult c then b else c
  | .vmaxu => if b.ult c then c else b
  | .vabs => if isFp t then fp (fAbs f b.toNat) else clamp b.toInt.natAbs
  | .vneg => if isFp t then fp (fNegate f b.toNat) else clamp (-b.toInt)
  | .vand => b &&& c
  | .vor => b ||| c
  | .vxor => b ^^^ c
  | .vandn => b &&& ~~~c
  | .vshl => b <<< min c.toNat w
  | .vshr => b.sshiftRight c.toNat
  | .vshru => b >>> c.toNat
  | .vcmpeq => flag (if isFp t then fEq f b.toNat c.toNat else b == c)
  | .vcmplt => flag (if isFp t then fLt f b.toNat c.toNat else b.slt c)
  | .vcmple => flag (if isFp t then fLe f b.toNat c.toNat else !c.slt b)
  | .vcmpltu => flag (b.ult c)
  | .vsel => if a != 0 then b else c
  | _ => 0

/-- The value of a special function on bits (R111, R113, R114). -/
def floatSpec (k : OpKind) (b c : Nat) : Nat :=
  match k with
  | .fdiv => fDiv fmt32 b c
  | .fsqrt => fSqrt fmt32 b
  | .frcp => fRcp b
  | .frsqrt => fRsqrt b
  | .fexp2 => fExp2 b
  | .flog2 => fLog2 b
  | .fsin => fSin b
  | .fcos => fCos b
  | _ => 0

end Sys2Proof.Claims

open Sys2Proof Sys2Proof.Machine Sys2Proof.Claims

/-- A step takes the command at the front of the queue and runs it on the state with the rest of the queue. -/
def Obligations.StepRunsFrontCommand : Prop :=
  ∀ (c : Instr) (s : State) (rest : List Instr), step { s with pending := c :: rest } = exec c { s with pending := rest }

/-- An operation without STOP joins the bundle that its facet collects and does nothing else (R32). -/
def Sys2Proof.Claims.OperationJoinsBundle : Prop :=
  ∀ p ∈ facetOps, ∀ (n : Fin 128) (w : OpW) (s : State), canIssue s n = true → w.stop = false →
    (facet s n).bundle.length < 7 →
    exec (p.2 n w) s = .next (setFacet n { facet s n with bundle := (facet s n).bundle ++ [op p.1 w] } s)

/-- A LIT joins its bundle with its literal; alone in its bundle it issues, and no result of its own is in flight (R36). -/
def Sys2Proof.Claims.LiteralJoinsOrIssues : Prop :=
  ∀ (n : Fin 128) (l : LitW) (s : State),
    let o : Op := ⟨.lit, ⟨l.stop, l.guard, 0, 0, 0, 0⟩, l.value⟩
    (canIssue s n = true → l.stop = false → (facet s n).bundle.length < 7 →
      exec (.lit n l) s = .next (setFacet n { facet s n with bundle := (facet s n).bundle ++ [o] } s)) ∧
    (IssuesAlone n o s → ∃ t, exec (.lit n l) s = .next t ∧ Flies n o s 1 [] t)

/-- A bundle that fails a check presents its cause, and none of its operations acts (R34, R44, R83). -/
def Obligations.FailingBundlePresentsCause : Prop :=
  ∀ p ∈ facetOps, ∀ (n : Fin 128) (w : OpW) (s : State) (c : Nat), canIssue s n = true → w.stop = true →
    let b := (facet s n).bundle ++ [op p.1 w]
    (issueReads s n b).any (wordBad s) = false → bundleCause (landDue n s) n (dueLands (facet s n)) b = some c →
    exec (p.2 n w) s = .next (setFacet n { facet s n with bundle := [], presented := some c } s)

/-- Scalar operations: the result of R108, R111, R112 and R115 is in flight for the destination, at the latency of R38. -/
def Obligations.ScalarOperationResult : Prop :=
  ∀ p ∈ scalarOps, ∀ (n : Fin 128) (w : OpW) (s : State), IssuesAlone n (op p.1 w) s →
    let o : Op := op p.1 w
    let z := 8 * szBytes w.tz.toNat
    let v := scalarSpec p.1 z (decide (4 ≤ w.tz.toNat)) (BitVec.ofNat 64 (operand n o s 1)) (BitVec.ofNat 64 (operand n o s 2)) (spImm w.c)
    ∃ t x, exec (p.2 n w) s = .next t ∧ Flies n o s (latency p.1) (destLands (seen n s) w.a (operandDT p.1 w 0) x) t ∧
      x % 2 ^ z = v.toNat % 2 ^ z

/-- Division, square root and the special functions: the result of R111 and R113. Where R113 leaves a choice, the result is a free value near
the exact one (log entry 4): that of FRCP of a finite value other than 0 lies within 2.5 units in the last place of the rounded quotient; a
value that no number answers gives the default NaN. -/
def Obligations.FloatFunctionResult : Prop :=
  (∀ x a r, v149 (fRcp x) = some a → v149 (fDiv fmt32 0x3F800000 x) = some r →
    2 * (a - r).natAbs ≤ 5 * ulp149 (fDiv fmt32 0x3F800000 x)) ∧
  (∀ x, unpack fmt32 x = .nan → fRcp x = fmt32.defNaN ∧ fRsqrt x = fmt32.defNaN ∧ fExp2 x = fmt32.defNaN ∧ fLog2 x = fmt32.defNaN ∧
    fSin x = fmt32.defNaN ∧ fCos x = fmt32.defNaN) ∧
  (∀ x m e, unpack fmt32 x = .fin true m e → m ≠ 0 → fRsqrt x = fmt32.defNaN ∧ fLog2 x = fmt32.defNaN) ∧
  (∀ x g, unpack fmt32 x = .inf g → fSin x = fmt32.defNaN ∧ fCos x = fmt32.defNaN) ∧
  ∀ p ∈ floatOps, ∀ (n : Fin 128) (w : OpW) (s : State), IssuesAlone n (op p.1 w) s →
    let o : Op := op p.1 w
    ∃ t, exec (p.2 n w) s = .next t ∧
      Flies n o s (latency p.1) (destLands (seen n s) w.a (operandDT p.1 w 0) (floatSpec p.1 (operand n o s 1) (operand n o s 2))) t

/-- Vector ALU operations work lane by lane (R103). -/
def Obligations.VectorLaneResult : Prop :=
  ∀ p ∈ laneOps, ∀ (n : Fin 128) (w : OpW) (s : State), IssuesAlone n (op p.1 w) s →
    let o : Op := op p.1 w
    let z := 8 * laneBytes w.tz.toNat
    ∃ t v, exec (p.2 n w) s = .next t ∧ Flies n o s 2 (destLands (seen n s) w.a (.vec w.tz.toNat) v) t ∧
      ∀ j, j < 256 / z → BitVec.ofNat z (lane z v j) =
        laneSpec p.1 w.tz.toNat z (BitVec.ofNat z (lane z (operand n o s 0) j)) (BitVec.ofNat z (lane z (operand n o s 1) j))
          (BitVec.ofNat z (lane z (operand n o s 2) j))

/-- Vector MAC operations leave their accumulator as it is at issue: the sum is formed when the result lands, four bundles on (R38, R102). -/
def Sys2Proof.Claims.MacInFlight : Prop :=
  ∀ p ∈ macOps, ∀ (n : Fin 128) (w : OpW) (s : State), IssuesAlone n (op p.1 w) s →
    let o : Op := op p.1 w
    ∃ t, exec (p.2 n w) s = .next t ∧
      Flies n o s 4 [.mac (spReg w.a) p.1 w.tz.toNat (BitVec.ofNat 256 (operand n o s 1)) (BitVec.ofNat 256 (operand n o s 2))] t

/-- A landing integer MAC adds the products of its lanes to the accumulator, modulo 2^48 (R100 to R102). -/
def Sys2Proof.Claims.MacLandsOnAccumulator : Prop :=
  ∀ (b c : BitVec 256) (n i : Nat) (s : State),
    let acc := tget 0 (facet s n).acc i
    (let t := land1 n s (.mac i .vmac 1 b c) s
     ∀ j, j < 16 → ((tget 0 (facet t n).acc i) >>> (48 * j)).setWidth 48 =
       (acc >>> (48 * j)).setWidth 48 + ((b >>> (16 * j)).setWidth 16).signExtend 48 * ((c >>> (16 * j)).setWidth 16).signExtend 48) ∧
    (let t := land1 n s (.mac i .vmsu 1 b c) s
     ∀ j, j < 16 → ((tget 0 (facet t n).acc i) >>> (48 * j)).setWidth 48 =
       (acc >>> (48 * j)).setWidth 48 - ((b >>> (16 * j)).setWidth 16).signExtend 48 * ((c >>> (16 * j)).setWidth 16).signExtend 48) ∧
    (let t := land1 n s (.mac i .vmacu 0 b c) s
     ∀ j, j < 16 → ((tget 0 (facet t n).acc i) >>> (48 * j)).setWidth 48 = (acc >>> (48 * j)).setWidth 48
       + ((b >>> (16 * j)).setWidth 8).setWidth 48 * ((c >>> (16 * j)).setWidth 8).setWidth 48
       + ((b >>> (16 * j + 8)).setWidth 8).setWidth 48 * ((c >>> (16 * j + 8)).setWidth 8).setWidth 48)

namespace Sys2Proof.Claims
open Sys2Proof Sys2Proof.Machine

/-- A facet with the parts that a branch writes put aside: FS, PBT, the predictor, the return stack, the loop registers. -/
def unbranched (f : Facet) : Facet :=
  kept { f with fs := 0, pbt := [], btb := [], predTaken := [], discard := 0, rstack := [], top := 0, depth := 0, lc := [], ls := [], le := [] }

/-- An operation of the control class has issued and retired: the results `ls` are in flight with latency 1, the facet `f` shows what else
it wrote, and nothing besides has changed but the program counter and the counters. -/
structure Controls (n : Fin 128) (o : Op) (s : State) (ls : List Land) (f : Facet) (t : State) : Prop where
  flights : (facet t n).flights = (seen n s).flights ++ ((opUpdates (seen n s) o).map fun l => ⟨1, l⟩) ++ ls.map fun l => ⟨1, l⟩
  registers : kept (facet t n) = kept f
  pc : (facet t n).pc = goesOnAt (seen n s)
  bundle : (facet t n).bundle = []
  others : ∀ m, m ≠ n.val → facet t m = facet (landDue n s) m
  rest : besides t = besides (atIssue n o s)

/-- The operation waits: its bundle stays until the wait ends, and it has written nothing; a TWAIT or EWAIT moves its pointers when it
ends (R163). -/
structure Waits (n : Fin 128) (o : Op) (s : State) (w : Wait) (t : State) : Prop where
  waits : (facet t n).wait = w
  bundle : (facet t n).bundle = [o]
  pc : (facet t n).pc = (seen n s).pc
  flights : (facet t n).flights = (seen n s).flights ++
    if o.kind = .twait ∨ o.kind = .ewait then [] else (opUpdates (seen n s) o).map fun l => ⟨1, l⟩
  registers : kept { facet t n with wait := .none, fs := setBit (facet t n).fs 6 false } = kept { seen n s with wait := .none, fs := setBit (seen n s).fs 6 false }
  others : ∀ m, m ≠ n.val → facet t m = facet (landDue n s) m
  rest : besides t = besides (atIssue n o s)

/-- The state in which the operations of the bundle act: replay is counted, and the next bundle comes that much later (R43). -/
def acting (n : Fin 128) (o : Op) (s : State) : State :=
  let m := if isLong o.kind then 0 else maxBank (bundleReads (seen n s) [o]) (landWords (dueLands (facet s n)) ++ (seen n s).landed)
  updFacet n (fun f => { f with landed := [], replay := f.replay + BitVec.ofNat 64 (m - 1), ready := s.fclk + max 1 m }) (atIssue n o s)

end Sys2Proof.Claims

/-- LEA, MOVW, TAS, CRC and INS (R109, R110, R114, R115). LEA reads no memory; TAS reads and writes its byte when it lands; bit `i` of an
INS is bit `i - pos` of the source inside the field and the old bit outside. -/
def Obligations.AddressAndFieldResult : Prop :=
  ∀ (n : Fin 128) (w : OpW) (s : State),
    let f := seen n s
    (IssuesAlone n (op .lea w) s → ∃ t e, exec (.lea n w) s = .next t ∧ (segments f w.b (.sc 8 false true)).head? = some (e, 8) ∧
      Flies n (op .lea w) s 1
        [if spFile w.a = 0 then gLand f w.a (BitVec.ofNat 64 e) else .a (aKey f (spReg w.a)) (BitVec.ofNat 48 e)] t) ∧
    (IssuesAlone n (op .movw w) s → ∃ t, exec (.movw n w) s = .next t ∧
      Flies n (op .movw w) s 1 [.w (spImm w.c).toNat (gRead f (spReg w.b) &&& 0xFFFDFFFFFFFFFFF0)] t) ∧
    (IssuesAlone n (op .tas w) s → ∃ t e, exec (.tas n w) s = .next t ∧ (segments f w.b (.sc 1 false true)).head? = some (e, 1) ∧
      Flies n (op .tas w) s 1 [.tas e (if spReg w.a = 0 then 0 else gKey f (spReg w.a))] t) ∧
    (IssuesAlone n (op .crc w) s → ∃ t, exec (.crc n w) s = .next t ∧
      Flies n (op .crc w) s 6 [gLand f w.a (BitVec.ofNat 64
        (crcAdvance (spImm w.c &&& 7).toNat (gRead f (spReg w.a)).toNat (natBytes (szBytes w.tz.toNat) (operand n (op .crc w) s 1))))] t) ∧
    (IssuesAlone n (op .ins w) s → ∃ t v, exec (.ins n w) s = .next t ∧
      Flies n (op .ins w) s 6 (destLands f w.a (operandDT .ins w 0) v) t ∧
      ∀ i, i < 64 → v.testBit i =
        let pos := ((spImm w.c).setWidth 6).toNat
        let len := if spImm w.c >>> 6 = 0 then 64 else (spImm w.c >>> 6).toNat
        if pos ≤ i ∧ i < pos + len then (operand n (op .ins w) s 1).testBit (i - pos) else (operand n (op .ins w) s 0).testBit i)

/-- ACCSV and ACCRS move one 256-bit part of an accumulator; ACCST and VCVT convert lane by lane (R104 to R107). -/
def Obligations.AccumulatorTransferResult : Prop :=
  ∀ (n : Fin 128) (w : OpW) (s : State),
    let f := seen n s
    let c := spImm w.c
    let acc := tget 0 f.acc (spReg w.b)
    let z := 8 * laneBytes w.tz.toNat
    (IssuesAlone n (op .accsv w) s → ∃ t, exec (.accsv n w) s = .next t ∧
      Flies n (op .accsv w) s 2 (destLands f w.a (.vec 0) ((acc >>> (256 * c.toNat)).setWidth 256).toNat) t) ∧
    (IssuesAlone n (op .accrs w) s → ∃ t, exec (.accrs n w) s = .next t ∧
      Flies n (op .accrs w) s 2 [.accPart (spReg w.a) c.toNat (BitVec.ofNat 256 (operand n (op .accrs w) s 1))] t) ∧
    (IssuesAlone n (op .accst w) s → ∃ t v, exec (.accst n w) s = .next t ∧
      Flies n (op .accst w) s 2 (destLands f w.a (.vec w.tz.toNat) v) t ∧
      (isFp w.tz.toNat = false → ∀ j, j < 256 / z →
        let a := ((acc >>> (48 * ((if 256 / z = 8 ∧ c.getLsbD 6 then 8 else 0) + j))).setWidth 48).toInt
        let sh := (c.setWidth 6).toNat
        let r : Int := if c.getLsbD 7 ∧ sh ≠ 0 then (a + 2 ^ (sh - 1)) / 2 ^ sh else a / 2 ^ sh
        BitVec.ofNat z (lane z v j) = BitVec.ofInt z (max (-2 ^ (z - 1)) (min (2 ^ (z - 1) - 1) r)))) ∧
    (IssuesAlone n (op .vcvt w) s → ∃ t v, exec (.vcvt n w) s = .next t ∧
      Flies n (op .vcvt w) s 2 (destLands f w.a (.vec w.tz.toNat) v) t ∧
      let d := (c.setWidth 3).toNat
      let p := ((c >>> 3).setWidth 2).toNat
      let y := 8 * laneBytes d
      ∀ j, j < 256 / y → lane y v j =
        if 256 / y ≤ 256 / z then laneCvt w.tz.toNat d (lane z (operand n (op .vcvt w) s 1) (p * (256 / y) + j)) % 2 ^ y
        else if p * (256 / z) ≤ j ∧ j < (p + 1) * (256 / z) then
          laneCvt w.tz.toNat d (lane z (operand n (op .vcvt w) s 1) (j - p * (256 / z))) % 2 ^ y
        else lane y (operand n (op .vcvt w) s 0) j)

/-- A long operation starts: the facet waits for it, FS.RES is cleared, and no element is processed yet (R125, R128, R129). -/
def Obligations.LongOperationStarts : Prop :=
  ∀ p ∈ longOps, ∀ (n : Fin 128) (w : OpW) (s : State), IssuesAlone n (op p.1 w) s →
    let o : Op := op p.1 w
    let v : BitVec 64 := if p.1 = .bfill then BitVec.ofNat 64 (operand n o s 1) else 0
    ∃ t, exec (p.2 n w) s = .next t ∧ Waits n o s (.long ⟨o, s.fclk, 0, v⟩) t ∧ fsRES (facet t n).fs = false

/-- A remote operation issues: DONE and FAIL of its index are cleared, and the operation is outstanding with the address, data and rights
that its operands give (R116, R119). -/
def Sys2Proof.Claims.RemoteOperationIssues : Prop :=
  ∀ p ∈ remoteOps, ∀ (n : Fin 128) (w : OpW) (s : State), IssuesAlone n (op p.1 w) s →
    let o : Op := op p.1 w
    let f := seen n s
    let i := ((spImm w.c >>> 4).setWidth 4).toNat
    let z := remoteSize w.c
    ∃ t e, exec (p.2 n w) s = .next t ∧ (segments f w.a (.sc z false true)).head? = some (e, z) ∧
      Controls n o s [] { f with
        arf := setBit (setBit f.arf i false) (16 + i) false,
        remotes := f.remotes ++ [⟨i, p.1, z, gaSpec f w.b % 2 ^ 48, e, readBytes (landDue n s) 1 e z, capPerm (effK f (kdOf o)).cap, false⟩] } t

/-- BR branches; BRC branches where its flag holds the value that C asks for. A taken branch writes its target to PBT and starts three
delay bundles (R46, R137, R138). -/
def Sys2Proof.Claims.BranchTaken : Prop :=
  ∀ (n : Fin 128) (w : OpW) (s : State) (target : BitVec 15), (seen n s).repeating = false →
    branchTarget (seen n s) [] w.b = .ok target →
    let f := seen n s
    let taken (t : State) : Prop := (facet t n).fs = setFld f.fs 4 2 3 ∧ tget 0 (facet t n).pbt (fsLVL f.fs) = target.setWidth 64 <<< 3
    let same (o : Op) (t : State) : Prop := (facet t n).flights = f.flights ∧ (facet t n).pc = f.pc + 1 ∧ unbranched (facet t n) = unbranched f ∧
      (facet t n).rstack = f.rstack ∧ (facet t n).depth = f.depth ∧ (∀ m, m ≠ n.val → facet t m = facet (landDue n s) m) ∧
      besides t = besides (atIssue n o s)
    (IssuesAlone n (op .br w) s → ∃ t, exec (.br n w) s = .next t ∧ taken t ∧ same (op .br w) t) ∧
    (IssuesAlone n (op .brc w) s → (gRead f (spReg w.a) = 1 ↔ spImm w.c ≠ 1) → ∃ t, exec (.brc n w) s = .next t ∧ taken t ∧ same (op .brc w) t) ∧
    (IssuesAlone n (op .brc w) s → (gRead f (spReg w.a) = 1 ↔ spImm w.c = 1) → ∃ t, exec (.brc n w) s = .next t ∧
      (facet t n).fs = f.fs ∧ (facet t n).pbt = f.pbt ∧ same (op .brc w) t)

/-- CALL pushes the index behind its three delay bundles and branches, or pushes the index in a register; RET pops and branches, pops into a
register, or reads the depth (R139 to R143). -/
def Sys2Proof.Claims.CallAndReturn : Prop :=
  ∀ (n : Fin 128) (w : OpW) (s : State), (seen n s).repeating = false →
    let f := seen n s
    let pushed (v : BitVec 15) (t : State) : Prop := (facet t n).top = f.top + 1 ∧ tget 0 (facet t n).rstack (f.top + 1).toNat = v ∧
      (facet t n).depth = min (f.depth + 1) 16
    let popped (t : State) : Prop := (facet t n).top = f.top - 1 ∧ (facet t n).rstack = f.rstack ∧ (facet t n).depth = f.depth - 1
    let top := tget 0 f.rstack f.top.toNat
    let jumps (v : BitVec 15) (t : State) : Prop := (facet t n).fs = setFld f.fs 4 2 3 ∧ tget 0 (facet t n).pbt (fsLVL f.fs) = v.setWidth 64 <<< 3
    let same (o : Op) (ls : List Land) (t : State) : Prop := (facet t n).flights = f.flights ++ ls.map (fun l => ⟨1, l⟩) ∧ (facet t n).pc = f.pc + 1 ∧
      unbranched (facet t n) = unbranched f ∧ (∀ m, m ≠ n.val → facet t m = facet (landDue n s) m) ∧ besides t = besides (atIssue n o s)
    (∀ target, IssuesAlone n (op .call w) s → spImm w.c = 0 → branchTarget f [] w.b = .ok target → ∃ t, exec (.call n w) s = .next t ∧
      pushed (skipBundles (landDue n s) n 3 (f.pc + 1)) t ∧ jumps target t ∧ same (op .call w) [] t) ∧
    (IssuesAlone n (op .call w) s → spImm w.c = 1 → ∃ t, exec (.call n w) s = .next t ∧
      pushed (BitVec.ofNat 15 (gSpec f w.b / 8)) t ∧ (facet t n).fs = f.fs ∧ same (op .call w) [] t) ∧
    (IssuesAlone n (op .ret w) s → spImm w.c = 0 → ∃ t, exec (.ret n w) s = .next t ∧ popped t ∧ jumps top t ∧ same (op .ret w) [] t) ∧
    (IssuesAlone n (op .ret w) s → spImm w.c = 1 → ∃ t, exec (.ret n w) s = .next t ∧ popped t ∧ (facet t n).fs = f.fs ∧
      same (op .ret w) [gLand f w.a (top.setWidth 64 <<< 3)] t) ∧
    (IssuesAlone n (op .ret w) s → spImm w.c = 2 → ∃ t, exec (.ret n w) s = .next t ∧ (facet t n).depth = f.depth ∧ (facet t n).fs = f.fs ∧
      (facet t n).rstack = f.rstack ∧ same (op .ret w) [gLand f w.a (BitVec.ofNat 64 f.depth)] t)

/-- LOOP sets LS, LE and LC of its level; REP makes the next bundle repeat. A count of 0 stands for 65,536 (R144 to R146, R154, R155). -/
def Obligations.LoopAndRepeat : Prop :=
  ∀ (n : Fin 128) (w : OpW) (s : State), (seen n s).repeating = false →
    let f := seen n s
    (IssuesAlone n (op .loop w) s →
      let l := (spImm w.b >>> 10).toNat
      let start := f.pc + ((spImm w.b).setWidth 10).setWidth 15
      let x := operand n (op .loop w) s 0
      ∃ t, exec (.loop n w) s = .next t ∧ tget 0 (facet t n).ls l = start.setWidth 64 <<< 3 ∧
        tget 0 (facet t n).le l = (start + (spImm w.c).setWidth 15).setWidth 64 <<< 3 ∧
        fld (tget 0 (facet t n).lc l) 0 17 = (if x = 0 then 65536 else x) ∧ fld (tget 0 (facet t n).lc l) 17 2 = fsLVL f.fs ∧
        (facet t n).pc = f.pc + 1 ∧ unbranched (facet t n) = unbranched f ∧ (facet t n).fs = f.fs ∧
        (∀ k, k ≠ l → tget 0 (facet t n).lc k = tget 0 f.lc k ∧ tget 0 (facet t n).ls k = tget 0 f.ls k ∧ tget 0 (facet t n).le k = tget 0 f.le k) ∧
        besides t = besides (atIssue n (op .loop w) s)) ∧
    (IssuesAlone n (op .rep w) s →
      let c := if (spImm w.c).getLsbD 11 then fld f.repc 0 16 else ((spImm w.c).setWidth 11).toNat
      ∃ t, exec (.rep n w) s = .next t ∧ (facet t n).repeating = true ∧ fld (facet t n).repc 32 17 = (if c = 0 then 65536 else c) ∧
        fld (facet t n).repc 49 15 = (f.pc + 1).toNat ∧ (facet t n).pc = f.pc + 1 ∧ kept (facet t n) = kept f ∧
        besides t = besides (atIssue n (op .rep w) s))

/-- EFTST reads event flags, and clears them with CLR = 1; EFCLR clears them (R162). -/
def Obligations.EventFlagOperations : Prop :=
  ∀ (n : Fin 128) (w : OpW) (s : State),
    let f := seen n s
    let mask (o : Op) : BitVec 16 := BitVec.ofNat 16 (operand n o s 1)
    (IssuesAlone n (op .efclr w) s → ∃ t, exec (.efclr n w) s = .next t ∧
      Controls n (op .efclr w) s [] { f with ef := f.ef &&& ~~~(mask (op .efclr w)) } t) ∧
    (IssuesAlone n (op .eftst w) s → ∃ t, exec (.eftst n w) s = .next t ∧
      Controls n (op .eftst w) s [gLand f w.a ((f.ef &&& mask (op .eftst w)).setWidth 64)]
        { f with ef := if spImm w.c = 1 then f.ef &&& ~~~(mask (op .eftst w)) else f.ef } t)

/-- NOP does nothing; TWAIT and EWAIT wait (R137, R160, R161, R163). -/
def Sys2Proof.Claims.WaitingOperations : Prop :=
  ∀ (n : Fin 128) (w : OpW) (s : State),
    let mask (o : Op) : BitVec 16 := BitVec.ofNat 16 (operand n o s 1)
    (IssuesAlone n (op .nop w) s → ∃ t, exec (.nop n w) s = .next t ∧ Controls n (op .nop w) s [] (seen n s) t) ∧
    (IssuesAlone n (op .twait w) s → ∃ t, exec (.twait n w) s = .next t ∧
      Waits n (op .twait w) s (.time s.fclk (BitVec.ofNat 64 (operand n (op .twait w) s 1)) (spReg w.a)) t) ∧
    (IssuesAlone n (op .ewait w) s → ∃ t, exec (.ewait n w) s = .next t ∧
      Waits n (op .ewait w) s (.event s.fclk (mask (op .ewait w)) (spImm w.c == 1) (spReg w.a)) t)

/-- G0 reads 0. A result of a scalar operation for G0 is in flight as every result is, and when it lands nothing in the state changes, the
status FS.WS of lost results included (R41). -/
def Obligations.ZeroRegister : Prop :=
  (∀ f : Facet, gRead f 0 = 0) ∧
  (∀ (n : Nat) (ls : List Land) (s : State), (∀ l ∈ ls, ∃ v, l = .g 0 v) → landAll n ls s = s) ∧
  (∀ p ∈ scalarOps, ∀ (n : Fin 128) (w : OpW) (s : State), IssuesAlone n (op p.1 w) s → spMode w.a = 1 → spFile w.a = 0 → spReg w.a = 0 →
    ∃ t v, exec (p.2 n w) s = .next t ∧
      (facet t n).flights = (seen n s).flights ++ ((opUpdates (seen n s) (op p.1 w)).map fun l => ⟨1, l⟩) ++ [⟨latency p.1, .g 0 v⟩])

/-- SYSCALL, BRK and KENTER make an entry due that is taken at the next bundle boundary; BRK with C = 1 stops the facet where it is not
locked (R192 to R195). -/
def Sys2Proof.Claims.EntryBecomesDue : Prop :=
  ∀ (n : Fin 128) (w : OpW) (s : State),
    let f := seen n s
    (IssuesAlone n (op .syscall w) s → ∃ t, exec (.syscall n w) s = .next t ∧
      Controls n (op .syscall w) s [] { f with due := some .syscall } t) ∧
    (IssuesAlone n (op .brk w) s → ∃ t, exec (.brk n w) s = .next t ∧
      Controls n (op .brk w) s [] (if spImm w.c = 1 ∧ n.val ∉ s.locks.facets then { f with ctl := setBit f.ctl 0 false } else { f with due := some .brk }) t) ∧
    (IssuesAlone n (op .kenter w) s → ∃ t, exec (.kenter n w) s = .next t ∧
      Controls n (op .kenter w) s [] { f with due := some (.kenter (effK f (spImm w.c &&& 15).toNat) (effK f ((spImm w.c >>> 4) &&& 15).toNat)) } t)

/-- RETX drains, and X1 comes one FCLK after the last landing. At X1 it restores the status of XST and goes to XPC; where the restored status
is bank 0, K14 and K15 of bank 1 lose their tags; with a level 1 request and none of level 2 waiting it goes straight to the handler of cause
0x20 (R188 to R191). -/
def Sys2Proof.Claims.ReturnFromException : Prop :=
  (∀ (n : Fin 128) (w : OpW) (s : State), IssuesAlone n (op .retx w) s →
    let a := acting n (op .retx w) s
    let x := drainFacet n a
    let x1 := s.fclk + drainLen (facet a n) + 1
    ∃ t, exec (.retx n w) s = .next t ∧ besides t = besides x ∧ (∀ m, m ≠ n.val → facet t m = facet x m) ∧
      facet t n = { facet x n with bundles := (facet x n).bundles + 1, bundle := [], wait := .retx x1, ready := x1 + 3 }) ∧
  (∀ (n : Fin 128) (x1 : Nat) (x : State), (facet x n).wait = .retx x1 → x1 ≤ x.fclk →
    let f := facet x n
    let l := fsLVL f.fs
    let st := tget 0 f.xst l
    let chain := l = 1 ∧ fsLVL st = 0 ∧ fsIE st = true ∧ request x n false = true ∧ request x n true = false
    let t := atX1 n x
    (facet t n).wait = .none ∧ (facet t n).shadows = [] ∧ (facet t n).g = f.g ∧ (facet t n).xst = f.xst ∧ (facet t n).xpc = f.xpc ∧
      besides t = besides x ∧ (∀ m, m ≠ n.val → facet t m = facet x m) ∧
      (¬ chain → (facet t n).fs = st ∧ (facet t n).pc = BitVec.ofNat 15 (fld (tget 0 f.xpc l) 3 15)) ∧
      (chain → fsLVL (facet t n).fs = 1 ∧ fsIE (facet t n).fs = false ∧ fsCAUSE (facet t n).fs = 0x20 ∧
        (facet t n).pc = BitVec.ofNat 15 (fld f.xvb 12 6 * 512 + 0x20 * 8)) ∧
      (fsKB st = 0 → (kReg (facet t n) 1 14).tag = false ∧ (kReg (facet t n) 1 15).tag = false))

/-- MFS reads a system register, MTS puts its write in flight, SIG raises a hatband source of the facet (R131 to R133). Reading INT_CLAIM or
INT_CLAIM2 also claims (R212, R217). An MTS to REPC in a repeated bundle writes the count of a later REP only (R157). -/
def Obligations.SystemRegisterMoves : Prop :=
  ∀ (n : Fin 128) (w : OpW) (s : State),
    let f := seen n s
    let num := ((spImm w.c).setWidth 8).toNat
    (IssuesAlone n (op .mfs w) s → num ≠ 0x40 → num ≠ 0x41 → ∃ t, exec (.mfs n w) s = .next t ∧
      Flies n (op .mfs w) s 1 (destLands f w.a (.sc 8 false true) (sysRead (landDue n s) n num).toNat) t) ∧
    (IssuesAlone n (op .mfs w) s → num = 0x40 ∨ num = 0x41 → ∃ t, exec (.mfs n w) s = .next t ∧
      (facet t n).flights = f.flights ++ ((opUpdates f (op .mfs w)).map fun l => ⟨1, l⟩) ++
        ((destLands f w.a (.sc 8 false true) (sysRead (landDue n s) n num).toNat).map fun l => ⟨1, l⟩) ∧
      kept (facet t n) = kept f ∧ t.mem = (landDue n s).mem ∧ t.ints = (claim n (num == 0x41) (atIssue n (op .mfs w) s)).ints) ∧
    (IssuesAlone n (op .mts w) s → ∃ t, exec (.mts n w) s = .next t ∧
      Flies n (op .mts w) s 1 [if num = 5 ∧ f.repeating = true then .repCount (BitVec.ofNat 16 (operand n (op .mts w) s 1))
        else .sys num (fsLVL f.fs) (BitVec.ofNat 64 (operand n (op .mts w) s 1))] t) ∧
    (IssuesAlone n (op .sig w) s → ∃ t, exec (.sig n w) s = .next t ∧ kept (facet t n) = kept f ∧ (facet t n).flights = f.flights ∧
      (facet t n).pc = goesOnAt f ∧
      besides t = besides (raiseHat (0x0800 + 16 * n + (spImm w.c).toNat) (atIssue n (op .sig w) s)))

/-- MBXPUT sends a request while the facet has a credit and returns 1, else 0; MBXGET takes the oldest response and returns 1, else 0
(R412, R413). A credit or response that arrives in this FCLK counts from the next. -/
def Obligations.MailboxOperations : Prop :=
  ∀ (n : Fin 128) (w : OpW) (s : State),
    let f := seen n s
    (IssuesAlone n (op .mbxput w) s → f.credits ≤ f.credNew → ∃ t, exec (.mbxput n w) s = .next t ∧
      Controls n (op .mbxput w) s [gLand f w.a 0] f t) ∧
    (IssuesAlone n (op .mbxput w) s → f.credNew < f.credits → ∃ t, exec (.mbxput n w) s = .next t ∧
      (facet t n).credits = f.credits - 1 ∧
      (facet t n).reqRing = f.reqRing ++ [(BitVec.ofNat 256 (operand n (op .mbxput w) s 1), effK f ((spImm w.c) &&& 15).toNat)] ∧
      (facet t n).flights = f.flights ++ ((opUpdates f (op .mbxput w)).map fun l => ⟨1, l⟩) ++ [⟨1, gLand f w.a 1⟩] ∧
      kept { facet t n with credits := 0, reqRing := [] } = kept { f with credits := 0, reqRing := [] } ∧ t.mem = (landDue n s).mem) ∧
    (IssuesAlone n (op .mbxget w) s → f.staging.length ≤ f.respNew → ∃ t, exec (.mbxget n w) s = .next t ∧
      Controls n (op .mbxget w) s [gLand f w.a 0] f t) ∧
    (∀ e rest, IssuesAlone n (op .mbxget w) s → f.respNew < f.staging.length → f.staging = e :: rest → ∃ t, exec (.mbxget n w) s = .next t ∧
      (facet t n).staging = rest ∧
      (facet t n).flights = f.flights ++ ((opUpdates f (op .mbxget w)).map fun l => ⟨1, l⟩) ++
        ((destLands f w.b (.vec 0) e.toNat).map fun l => ⟨1, l⟩) ++ [⟨1, gLand f w.a 1⟩] ∧
      kept { facet t n with staging := [] } = kept { f with staging := [] } ∧ t.mem = (landDue n s).mem)

/-- The capability operations: what each has in flight for its K register, G register or memory word (R134, R172, R174, R175). -/
def Obligations.CapabilityOperationResult : Prop :=
  ∀ (n : Fin 128) (w : OpW) (s : State),
    let f := seen n s
    let d := (spImm w.c &&& 15).toNat
    let k := effK f ((spImm w.c >>> 4) &&& 15).toNat
    let kt := effK f (spImm w.c >>> 8).toNat
    let b := fsKB f.fs
    let a := (gRead f (spReg w.a)).toNat
    (IssuesAlone n (op .kmov w) s → ∃ t, exec (.kmov n w) s = .next t ∧ Flies n (op .kmov w) s 1 [.k b d k] t) ∧
    (IssuesAlone n (op .kclr w) s → ∃ t, exec (.kclr n w) s = .next t ∧ Flies n (op .kclr w) s 1 [.kclr b d] t) ∧
    (IssuesAlone n (op .kbnd w) s → ∃ t c, exec (.kbnd n w) s = .next t ∧ Flies n (op .kbnd w) s 1 [.k b d ⟨c, true⟩] t ∧
      capBase c = a ∧ capLen c = (gRead f (spReg w.b)).toNat ∧ fld c 80 48 = fld k.cap 80 48) ∧
    (IssuesAlone n (op .kmask w) s → ∃ t c, exec (.kmask n w) s = .next t ∧ Flies n (op .kmask w) s 1 [.k b d ⟨c, true⟩] t ∧
      capPerm c = capPerm k.cap &&& a % 2 ^ 16 ∧ fld c 0 80 = fld k.cap 0 80 ∧ fld c 96 32 = fld k.cap 96 32) ∧
    (IssuesAlone n (op .kseal w) s → ∃ t c, exec (.kseal n w) s = .next t ∧ Flies n (op .kseal w) s 1 [.k b d ⟨c, true⟩] t ∧
      sealType (landDue n s) kt a permSEAL = .ok (capOtype c) ∧ fld c 0 96 = fld k.cap 0 96 ∧ fld c 112 16 = fld k.cap 112 16) ∧
    (IssuesAlone n (op .kunseal w) s → ∃ t c, exec (.kunseal n w) s = .next t ∧ Flies n (op .kunseal w) s 1 [.k b d ⟨c, true⟩] t ∧
      capOtype c = 0 ∧ fld c 0 96 = fld k.cap 0 96 ∧ fld c 112 16 = fld k.cap 112 16) ∧
    (IssuesAlone n (op .kget w) s → ∃ t, exec (.kget n w) s = .next t ∧ Flies n (op .kget w) s 1 [gLand f w.a (BitVec.ofNat 64
      (match (spImm w.c >>> 8).toNat with
        | 0 => fld k.cap 0 48 | 1 => fld k.cap 48 32 | 2 => fld k.cap 80 16 | 3 => fld k.cap 96 16 | 4 => fld k.cap 112 8
        | 5 => fld k.cap 120 8 | _ => if k.tag then 1 else 0))] t) ∧
    (IssuesAlone n (op .kld w) s → ∃ t e, exec (.kld n w) s = .next t ∧ (segments f w.b (.sc 16 false true)).head? = some (e, 16) ∧
      Flies n (op .kld w) s 1 [.k b d ⟨BitVec.ofNat 128 (operand n (op .kld w) s 1),
        tagAt (landDue n s) e && capHas (effK f (wKsel (effW f (spWin w.b)))).cap permLC⟩] t) ∧
    (IssuesAlone n (op .kst w) s → ∃ t e, exec (.kst n w) s = .next t ∧ (segments f w.a (.sc 16 false true)).head? = some (e, 16) ∧
      Flies n (op .kst w) s 1 [.mem e (natBytes 16 k.cap.toNat) k.tag] t)

/-- No capability operation makes a wider capability: the bytes that KBND names lie within the source's, and KMASK adds no permission
(R172). -/
def Obligations.CapabilityNeverGrows : Prop :=
  ∀ (n : Fin 128) (w : OpW) (s : State),
    let f := seen n s
    let d := (spImm w.c &&& 15).toNat
    let k := effK f ((spImm w.c >>> 4) &&& 15).toNat
    (IssuesAlone n (op .kbnd w) s → ∃ t c, exec (.kbnd n w) s = .next t ∧ Flies n (op .kbnd w) s 1 [.k (fsKB f.fs) d ⟨c, true⟩] t ∧
      capBase k.cap ≤ capBase c ∧ capBase c + 16 * capLen c ≤ capBase k.cap + 16 * capLen k.cap ∧ capLive (landDue n s) k = true ∧
      capOtype k.cap = 0) ∧
    (IssuesAlone n (op .kmask w) s → ∃ t c, exec (.kmask n w) s = .next t ∧ Flies n (op .kmask w) s 1 [.k (fsKB f.fs) d ⟨c, true⟩] t ∧
      (∀ p, p < 16 → capHas c p = true → capHas k.cap p = true) ∧ capBase c = capBase k.cap ∧ capLen c = capLen k.cap ∧
      capLive (landDue n s) k = true ∧ capOtype k.cap = 0)

namespace Sys2Proof.Claims
open Sys2Proof Sys2Proof.Machine

/-- Nothing but facet `n` differs. -/
def onlyFacet (n : Nat) (s t : State) : Prop := (∀ m, m ≠ n → facet t m = facet s m) ∧ { t with facets := [] } = { s with facets := [] }

/-- The boundary at which an entry is taken: a long operation has been brought up to date, and is finished where it had no element left. -/
def boundary (n : Nat) (s : State) : State := finishLong n (longProgress n s)

/-- FS as an entry saves it: a waiting long operation leaves RES = 1 (R130). -/
def savedFs (f : Facet) (fs : BitVec 64) : BitVec 64 := match f.wait with | .long _ => setBit fs 6 true | _ => fs

end Sys2Proof.Claims

/-- A step on an empty queue is one FCLK: with no step or rate point armed the time base advances by 1 + RATE / 2^32 ticks (R303, R304). That
the empty queue stands for a passing FCLK is the model's choice (log entry 1). -/
def Obligations.IdleStepIsOneFclk : Prop :=
  ∀ s : State, s.pending = [] → ∃ t, step s = .next t ∧ t.fclk = s.fclk + 1 ∧ t.pending = [] ∧
    (s.tb.step = none → s.tb.pend = none →
      t.tb.tick * 2 ^ 32 + t.tb.frac = (s.tb.tick * 2 ^ 32 + s.tb.frac + (2 ^ 32 + s.tb.rate).toNat) % 2 ^ 96 ∧ t.tb.rate = s.tb.rate)

/-- After reset nothing waits, the memory and the registers list nothing but what differs from their reset values, and every facet is
halted (R68, R258, R549). -/
def Obligations.ResetState : Prop :=
  State.reset.canonical ∧ State.reset.pending = [] ∧ (∀ a, byteAt State.reset a = 0) ∧
    ∀ n, facet State.reset n = {} ∧ bit (facet State.reset n).ctl 1 = true ∧ bit (facet State.reset n).ctl 0 = false

/-- Every step keeps the canonical form of the memory: addresses rising, no entry that reads as an unwritten byte does. -/
def Obligations.MemoryStaysCanonical : Prop :=
  ∀ s t : State, Memory.wf s.mem = true → step s = .next t → Memory.wf t.mem = true

/-- A store inside one word, with no other write on that word in its FCLK, writes its bytes and no other (R39, R233). -/
def Obligations.StoreLandsAtItsBytes : Prop :=
  ∀ (n : Fin 128) (a : Nat) (bs : List Byte) (tag : Bool) (s0 s : State), bs ≠ [] → a % 16 + bs.length ≤ 16 →
    (∀ k ∈ s.marks, k.word ≠ wordOf a) →
    let t := land1 n s0 (.mem a bs tag) s
    (∀ i, i < bs.length → byteAt t (a + i) = bs.getD i 0) ∧ (∀ x, (x < a ∨ a + bs.length ≤ x) → byteAt t x = byteAt s x) ∧
      tagAt t a = (tag && bs.length == 16) ∧ (∀ x, wordOf x ≠ wordOf a → tagAt t x = tagAt s x)

/-- RESULT_LANDING: the results that the next bundle reads land before it. A G register takes its value (G0 stays 0); a K register keeps its
old value for reads of the bundle that reads it first and of the next (R39, R49). -/
def Sys2Proof.Claims.ResultLandsEarly : Prop :=
  ∀ (n : Fin 128) (s : State), canLand s n = true → (facet s n).ready ≤ s.fclk →
    let f := facet s n
    let rest := f.flights.filter fun x => decide (1 < x.left)
    ∃ t, exec (.resultLanding n) s = .next t ∧ (facet t n).flights = rest ∧ (facet t n).pc = f.pc ∧
      (facet t n).landed = f.landed ++ landWords (dueLands f) ∧
      (∀ r v, dueLands f = [.g r v] → facet t n = { f with flights := rest, g := if r = 0 then f.g else tset 0 f.g r v } ∧
        onlyFacet n s t) ∧
      (∀ r v, dueLands f = [.a r v] → facet t n = { f with flights := rest, a := tset 0 f.a r v } ∧ onlyFacet n s t) ∧
      (∀ b i v, dueLands f = [.k b i v] → onlyFacet n s t ∧
        facet t n = { f with flights := rest, k := tset {} f.k (kKey b i) v, shadows := f.shadows ++ [⟨3, .k b i (kReg f b i)⟩] })

/-- The loop-end action: the innermost level that ends goes back to its start while its count is above 1; else its count becomes 0 and the
facet goes on (R148). A count that a move wrote with the bundle stands (R150). -/
def Sys2Proof.Claims.LoopEndActionTaken : Prop :=
  ∀ (n : Fin 128) (s : State), (facet s n).loopAct = true → (facet s n).loopOld = [] →
    let f := facet s n
    ∃ t, exec (.loopEndAction n) s = .next t ∧ onlyFacet n s t ∧ (facet t n).loopAct = false ∧ (facet t n).g = f.g ∧ (facet t n).fs = f.fs ∧
      (∀ l, l < 4 → f.lpWas.any (fun h => h.level == l && h.left == 1) = true → tget 0 (facet t n).lc l = tget 0 f.lc l) ∧
      (∀ l, f.lpWas = [] → l < 4 → loopEndsAt f f.lastEnd l = true → (∀ k, l < k → k < 4 → loopEndsAt f f.lastEnd k = false) →
        let c := fld (tget 0 f.lc l) 0 17
        fld (tget 0 (facet t n).lc l) 0 17 = c - 1 ∧
          (1 < c → (facet t n).pc = BitVec.ofNat 15 (fld (tget 0 f.ls l) 3 15) ∧ ∀ k, k ≠ l → tget 0 (facet t n).lc k = tget 0 f.lc k)) ∧
      (f.lpWas = [] → (∀ l, l < 4 → loopEndsAt f f.lastEnd l = false) → facet t n = { f with loopAct := false })

/-- Exception entry, at the facet's next boundary: XPC and XST of the level save the program counter and FS; LVL, KB, IE, CAUSE, DS and RES are
set, and the facet goes on at its vector, a KENTER at its entry point. The drain takes `drainLen` FCLK; the handler's first bundle issues at
E4 + 1 (R179, R181, R185). -/
def Sys2Proof.Claims.ExceptionEntryTaken : Prop :=
  ∀ (n : Fin 128) (s : State) (e : Entry) (l : Nat),
    let v := advanceTo (boundaryAt s n) s
    canEnter v n = true → firstEntry v n = some e →
    let u := boundary n v
    let d := drainFacet n u
    let fs := savedFs (facet u n) (facet d n).fs
    let cause := if l = 3 then 0x10 else entryCause e
    entryLevel e (fsLVL (facet u n).fs) = some l → bit (facet d n).xvb 0 = true →
    ∃ t, exec (.exceptionEntry n) s = .next t ∧ onlyFacet n d t ∧
      tget 0 (facet t n).xpc l = (facet d n).pc.setWidth 64 <<< 3 ∧ tget 0 (facet t n).xst l = fs ∧
      fsLVL (facet t n).fs = l ∧ fsKB (facet t n).fs = 1 ∧ fsIE (facet t n).fs = false ∧ fsCAUSE (facet t n).fs = cause % 64 ∧
      fsDS (facet t n).fs = 0 ∧ fsRES (facet t n).fs = false ∧
      (facet t n).pc = (entryTarget n e).getD (vectorIdx (facet d n) cause) ∧ (facet t n).resv = none ∧ (facet t n).repeating = false ∧
      (facet t n).bundle = [] ∧ (facet t n).presented = none ∧ (facet t n).wait = .none ∧ (facet t n).due = none ∧
      (facet t n).ready = u.fclk + drainLen (facet u n) + 4 ∧
      (∀ k, k ≠ l → tget 0 (facet t n).xpc k = tget 0 (facet d n).xpc k ∧ tget 0 (facet t n).xst k = tget 0 (facet d n).xst k) ∧
      (facet t n).w = (facet d n).w ∧ (facet t n).a = (facet d n).a ∧ (facet t n).acc = (facet d n).acc ∧
      (∀ r, ¬ (l = 3 ∧ r = 95) → tget 0 (facet t n).g r = tget 0 (facet d n).g r) ∧ (l = 3 → tget 0 (facet t n).g 95 = BitVec.ofNat 64 (entryCause e))

/-- An entry at level 3, or one with XVB.V = 0 once the facet has drained, resets the facet (R177, R184). -/
def Sys2Proof.Claims.ExceptionEntryResets : Prop :=
  ∀ (n : Fin 128) (s : State) (e : Entry),
    let v := advanceTo (boundaryAt s n) s
    canEnter v n = true → firstEntry v n = some e →
    let u := boundary n v
    (entryLevel e (fsLVL (facet u n).fs) = none → exec (.exceptionEntry n) s = .next (facetReset n 1 (entryCause e) (atFault n e u))) ∧
    (entryLevel e (fsLVL (facet u n).fs) ≠ none → bit (facet (drainFacet n u) n).xvb 0 = false →
      exec (.exceptionEntry n) s = .next (facetReset n 2 (entryCause e) (atFault n e (drainFacet n u))))

/-- A facet reset outside a sealed partition: every register of the facet at its reset value, four credits where no request of it is in
progress, its interrupt sources cleared (R68, R224, R417). -/
def Sys2Proof.Claims.FacetResetClears : Prop :=
  ∀ (n : Fin 128) (reason cause : Nat) (s : State), inPartition s n = false →
    let t := facetReset n reason cause s
    facet t n = { ({} : Facet) with credits := if (facet s n).inProgress = 0 then 4 else 0, inProgress := (facet s n).inProgress,
                                    dropResp := (facet s n).inProgress } ∧
      (∀ m, m ≠ n.val → facet t m = facet s m) ∧ t.mem = s.mem

/-- No entry being due, TWAIT ends at the first FCLK whose tick count reaches its operand and EWAIT when a flag that it asks for is set: the bundle retires and
the result, the ticks passed or the flags seen, and the moves of its pointers are in flight with latency 1 (R160, R161, R163, R164). A finished long operation retires (R128). -/
def Sys2Proof.Claims.WaitsEnd : Prop :=
  ∀ (n : Fin 128) (s : State), mayEnd s n = true →
    let key (f : Facet) (d : Nat) : Nat := if d = 0 then 0 else gKey f d
    let moved (f : Facet) : List Flight := (f.bundle.flatMap (opUpdates f)).map fun l => ⟨1, l⟩
    (∀ f0 b d, (facet s n).wait = .time f0 b d →
      let u := advanceTick b.toNat (advanceTo (f0 + 1) s)
      mayEnd u n = true → ∃ t, exec (.twaitRelease n) s = .next t ∧ (facet t n).wait = .none ∧ (facet t n).bundle = [] ∧
        (facet t n).flights = (facet u n).flights ++ moved (facet u n) ++ [⟨1, .g (key (facet u n) d) (BitVec.ofNat 64 u.tb.tick - b)⟩] ∧
        (facet t n).g = (facet u n).g ∧ (facet t n).bundles = (facet u n).bundles + 1 ∧ besides t = besides u) ∧
    (∀ f0 m clr d, (facet s n).wait = .event f0 m clr d →
      let u := advanceTo (f0 + 1) s
      let got := (facet u n).ef &&& m
      mayEnd u n = true → (m = 0 ∨ got ≠ 0) → ∃ t, exec (.ewaitRelease n) s = .next t ∧ (facet t n).wait = .none ∧ (facet t n).bundle = [] ∧
        (facet t n).flights = (facet u n).flights ++ moved (facet u n) ++ [⟨1, .g (key (facet u n) d) (got.setWidth 64)⟩] ∧
        (facet t n).ef = (if clr then (facet u n).ef &&& ~~~got else (facet u n).ef) ∧ (facet t n).g = (facet u n).g ∧ besides t = besides u) ∧
    (∀ l, (facet s n).wait = .long l →
      let u := longProgress n (advanceTo (longEnd (facet s n) l) s)
      mayEnd u n = true → longCount (facet u n) l.op = 0 → ∃ t, exec (.longOpDone n) s = .next t ∧ (facet t n).wait = .none ∧
        (facet t n).bundle = [] ∧ (facet t n).g = (facet u n).g ∧ (facet t n).bundles = (facet u n).bundles + 1 ∧ besides t = besides u)

/-- Reservations end after 4,096 FCLK; a facet whose RUN is 0 halts at its next boundary with its results landed; RUN starts it, HALT asks for the
halt; PFLUSH empties the predictor; the hold counter reaches its limit (R57, R64, R65, R124, R194, R198). -/
def Obligations.FacetEventsHappen : Prop :=
  ∀ (n : Fin 128) (s : State),
    let f := facet s n
    (∀ w d, f.resv = some (w, d) → crownUp s (crownOf n) = true → exec (.reservationExpiry n) s =
      .next (setFacet n { facet (advanceTo d s) n with resv := none } (advanceTo d s))) ∧
    (let v := advanceTo (boundaryAt s n) s;
      canHalt v n = true →
      let u := drainFacet n (boundary n v);
      ∃ t, exec (.facetHalted n) s = .next t ∧ bit (facet t n).ctl 1 = true ∧ bit (facet t n).ctl 0 = false ∧ (facet t n).hold = 0 ∧
        (facet t n).wait = .none ∧ (facet t n).pc = (facet u n).pc ∧ (facet t n).g = (facet u n).g ∧ (facet t n).fs = (facet u n).fs ∧ onlyFacet n u t) ∧
    (inPartition s n = false → ∃ t, exec (.facCtlRun n) s = .next t ∧ facet t n = { f with ctl := (f.ctl ||| 1) &&& ~~~2 } ∧ onlyFacet n s t) ∧
    (inPartition s n = false → ∃ t, exec (.facCtlHalt n) s = .next t ∧ facet t n = { f with ctl := setBit f.ctl 0 false } ∧ onlyFacet n s t) ∧
    (inPartition s n = true → exec (.facCtlRun n) s = .next s ∧ exec (.facCtlHalt n) s = .next s ∧ exec (.pflush n) s = .next s) ∧
    (inPartition s n = false → ∃ t, exec (.pflush n) s = .next t ∧ bit (facet t n).ctl 2 = true ∧ (facet t n).btb = f.btb ∧
      (facet t n).g = f.g ∧ onlyFacet n s t) ∧
    (bit f.ctl 2 = true → ∃ t, exec (.pflushDone n) s = .next t ∧ (facet t n).btb = [] ∧ bit (facet t n).ctl 2 = false ∧
      (facet t n).g = f.g ∧ onlyFacet n s t) ∧
    (f.holdDue = true → exec (.holdOverrun n) s = .next s) ∧
    (f.holdDue = false → holdCounts s n f = true → crownUp s (crownOf n) = true →
      let from_ := max (match f.e4 with | some e => e - 2 | none => 0) s.fclk
      exec (.holdOverrun n) s = .next (advanceTo (from_ + (fld (effHoldmax f) 0 16 - f.hold)) s))

/-- A write to a facet's register block by Gleby: a halted facet's G, A and XPC registers take the value (G0 discards it), bits outside the
defined fields read 0; FAC_CTL sets RUN and clears HALTED; a running facet refuses register writes (R58, R60, R65). -/
def Sys2Proof.Claims.FacetRegisterBlockTakesWrites : Prop :=
  ∀ (n : Fin 128) (v : BitVec 64) (s : State), domServes s (crownOf n) = true → inPartition s n = false →
    let f := facet s n
    let run (o : Nat) := exec (.facetRegisterBlockWrite n o v .steward) s
    (bit f.ctl 1 = true → ∀ r, 0 < r → r < 32 → ∃ t, run (8 * r) = .next t ∧ facet t n = { f with g := tset 0 f.g r v } ∧ onlyFacet n s t) ∧
    (bit f.ctl 1 = true → ∃ t, run 0 = .next t ∧ facet t n = f ∧ onlyFacet n s t) ∧
    (bit f.ctl 1 = true → ∀ r, r < 16 → ∃ t, run (0x100 + 8 * r) = .next t ∧ facet t n = { f with a := tset 0 f.a r (v.setWidth 48) } ∧ onlyFacet n s t) ∧
    (bit f.ctl 1 = true → ∀ l, 1 ≤ l → l ≤ 3 → ∃ t, run (0x1008 + 8 * l) = .next t ∧
      facet t n = { f with xpc := tset 0 f.xpc l (v &&& 0x3FFF8) } ∧ onlyFacet n s t) ∧
    (bit v 2 = false → ∃ t, run 0x1300 = .next t ∧
      facet t n = { f with ctl := if bit v 0 then (f.ctl ||| 1) &&& ~~~2 else f.ctl &&& ~~~1 } ∧ onlyFacet n s t) ∧
    (bit f.ctl 1 = false → ∀ o, o < 0x1300 → run o = .next s)

/-- A remote operation completes at its target: a store writes its data, a store-conditional only with the reservation, an atomic operation writes
the new value and returns the old, a load returns the data and LDR takes a reservation for 4,096 FCLK; DONE or FAIL of the index is set, whose rise
raises source 50 (R119 to R124, R205). An LDR from before an exception entry takes no reservation (R248). -/
def Sys2Proof.Claims.RemoteOperationCompletes : Prop :=
  ∀ (n : Fin 128) (i : Fin 16) (r : Remote) (s : State),
    ((facet s n).remotes.find? fun q => q.idx == i.val) = some r → ((facet s n).remotes.find? fun q => q.target == r.target) = some r →
    rangeServed s r.target (r.target + r.size) = true → domServes s (crownOf n) = true → rangeBad s r.target r.size = false →
    let who := Agent.facet n
    let run := exec (.remoteCompletion n i false) s
    let got := readAt who r.perm r.target r.size s
    let put (bs : List Byte) (u : State) : State := settleChunk r.target (writeAt who r.perm r.target bs u).2
    let ok (bs : List Byte) (u : State) : Prop := (writeAt who r.perm r.target bs u).1 = true
    (r.kind = .rst → ok r.data s → run = .next (endRemote n r true false (put r.data s))) ∧
    (r.kind = .rst → ¬ ok r.data s → run = .next (endRemote n r false true (put r.data s))) ∧
    (r.kind = .stc → partitionRefuses s r.target who = false →
      let u := updFacet n (fun f => { f with resv := none }) s
      run = .next (if holdsResv s n (wordOf r.target) then endRemote n r true false (put r.data u) else endRemote n r true true u)) ∧
    (∀ old u, r.kind = .rld → got = (some old, u) → run = .next (endRemote n r true false (writeMem who r.locl old u))) ∧
    (∀ old u, r.kind = .ldr → isRegister r.target = false → got = (some old, u) → run = .next (endRemote n r true false
      (writeMem who r.locl old
        (if r.stale then u else updFacet n (fun f => { f with resv := some (wordOf r.target, u.fclk + 4096) }) u)))) ∧
    (∀ old u, r.kind = .radd ∨ r.kind = .rtas → isRegister r.target = false → got = (some old, u) →
      let new := if r.kind = .rtas then [1] else natBytes r.size (bytesNat old + bytesNat r.data)
      ok new u → run = .next (endRemote n r true false (writeMem who r.locl old (put new u)))) ∧
    (∀ x, let t := endRemote n r true false x
      (facet t n).remotes = (facet x n).remotes.erase r ∧ (facet t n).arf = setBit (setBit (facet x n).arf r.idx true) (16 + r.idx) false ∧
      (facet t n).remErr = (facet x n).remErr ∧ (∀ m, m ≠ n.val → facet t m = facet x m) ∧ t.mem = x.mem ∧ t.regs = x.regs ∧
      (bit (facet x n).arf r.idx = true → t.ints = x.ints) ∧
      (bit (facet x n).arf r.idx = false → crownUp x (crownOf n) = true → t.ints = (pulseEvent n 50 x).ints))

/-- Claiming returns the source and the count it had as the clock began, makes it active and not pending, and leaves the events of this clock for
the next batch; EOI ends it, and makes a level source pending again; set and clear of pending count from EVCNT, and a level that still stands
makes its source pending in the clock after a clear (R210 to R214). A locked source refuses, and the steward hears of it (R219). -/
def Sys2Proof.Claims.InterruptClaimAndEnd : Prop :=
  ∀ (k : Fin 129) (i : Fin 1024) (s : State), ctlUp s k = true →
    let x := intSrc s k i
    let lv := isLevelSrc k i
    (∀ fast, ∃ t, exec (.intClaim k fast) s = .next t ∧ t.out = s.out ++ [.value (claimValue s k fast).toNat] ∧
      (claimPick s k fast = none → claimValue s k fast = 0x3FF ∧ t.ints = s.ints) ∧
      (∀ q y, claimPick s k fast = some (q, y) →
        let u := setIntSrc k (q % 1024) { y with active := true, pending := false, evcnt := 0, deadline := none } s
        let m := newEvents s q y
        claimValue s k fast = BitVec.ofNat 64 ((srcWas s q).evcnt * 2 ^ 16 + q % 1024) ∧
          (m = 0 → t.ints = u.ints) ∧ (m ≠ 0 → t.ints = (acceptEvents k (q % 1024) m u).ints))) ∧
    (isSource k i = true → x.active = true → exec (.intEoi k i) s = .next (setIntSrc k i
      (if lv ∧ x.flevel then { x with active := false, pending := true, evcnt := 1 } else { x with active := false }) s)) ∧
    (isSource k i = false ∨ x.active = false → exec (.intEoi k i) s = .next (intStatSet k 2 s)) ∧
    (isSource k i = true → lv = false → x.evcnt < 1023 → exec (.intSetp k i) s = .next (setIntSrc k i
      { x with pending := true, evcnt := x.evcnt + 1, deadline := none } s)) ∧
    (isSource k i = true → lv = true → exec (.intSetp k i) s = .next (setIntSrc k i { x with pending := true, evcnt := 1, deadline := none } s)) ∧
    (isSource k i = true → srcLocked s k i = false →
      let again := if lv ∧ x.flevel ∧ x.active = false then some (intClock s k) else none
      exec (.intClrp k i) s = .next (setIntSrc k i { x with pending := false, evcnt := 0, deadline := none, again := again } s)) ∧
    (intSrc (pendAgain s (srcKey k i, x)) k i =
      if x.flevel ∧ x.active = false then { x with again := none, pending := true, evcnt := 1 } else { x with again := none }) ∧
    (srcLocked s k i = true → exec (.intClrp k i) s = .next (tellSteward (crownIntReg k 0x44) .steward s) ∧
      ∀ v, exec (.intScfgWrite k i v) s = .next (tellSteward (crownIntReg k 0x46) .steward s)) ∧
    (∀ v, isSource k i = true → srcLocked s k i = false → ∃ t, exec (.intScfgWrite k i v) s = .next t ∧
      (intSrc t k i).cfg = v &&& scfgMask k ∧ (intSrc t k i).active = x.active ∧
      (fld (v &&& scfgMask k) 8 4 = fld x.cfg 8 4 ∨ lv = false → (intSrc t k i).pending = x.pending ∧ (intSrc t k i).evcnt = x.evcnt) ∧
      (fld (v &&& scfgMask k) 8 4 ≠ fld x.cfg 8 4 → lv = true → fltLen (intSrc t k i) ≤ 1 → (intSrc t k i).flevel = x.raw) ∧
      (∀ q, q ≠ srcKey k i → tget {} t.ints q = tget {} s.ints q))

/-- A pulse that the glitch filter lets pass counts, and makes its source pending when the count reaches CCNT; one inside the filter time is dropped
and counted; pulses of one clock are one event. A level that has stood for its filter time makes its source pending or not; the batch timer makes it pending (R207 to R209, R211). -/
def Sys2Proof.Claims.InterruptSourcesTakeEvents : Prop :=
  ∀ (k : Fin 129) (i : Fin 1024) (s : State), isSource k i = true → ctlUp s k = true →
    let x := intSrc s k i
    let now := intClock s k
    (k.val < 128 → i.val < 48 → (∀ a, x.lastAcc = some a → a + fltLen x ≤ now ∧ a ≠ now) → x.lastDrop ≠ some now → x.evcnt < 1023 → ∃ t, exec (.intSourceEvent k i) s = .next t ∧
      (intSrc t k i).evcnt = x.evcnt + 1 ∧ (intSrc t k i).lastAcc = some now ∧ (intSrc t k i).active = x.active ∧
      ((intSrc t k i).pending = true ↔ x.pending = true ∨ fld x.cfg 16 8 ≤ x.evcnt + 1) ∧ t = { s with ints := t.ints, intWas := t.intWas }) ∧
    (k.val < 128 → i.val < 48 → (∃ a, x.lastAcc = some a ∧ a < now ∧ now < a + fltLen x) → x.lastDrop ≠ some now → exec (.intSourceEvent k i) s =
      .next (setIntCtl k { intCtl s k with fdrop := min 0xFFFFFFFF ((intCtl s k).fdrop + 1) } (setIntSrc k i { x with lastDrop := some now } s))) ∧
    (k.val < 128 → i.val < 48 → x.lastAcc = some now ∨ x.lastDrop = some now → exec (.intSourceEvent k i) s = .next s) ∧
    (isLevelSrc k i = true → exec (.intSourceEvent k i) s = .next (setRaw k i (levelOf s k i) s)) ∧
    (isLevelSrc k i = true → x.raw ≠ x.flevel →
      let u := advanceTo (clockFclk k (x.rawAt + fltLen x - 1)) s
      let y := intSrc u k i
      exec (.levelFilterSettle k i) s = .next (setIntSrc k i (if x.raw then (if y.active then { y with flevel := true }
        else { y with flevel := true, pending := true, evcnt := 1 }) else { y with flevel := false, pending := false, evcnt := 0 }) u)) ∧
    (∀ d, x.deadline = some d →
      let u := advanceTo (clockFclk k d) s
      exec (.batchTimerExpiry k i) s = .next (setIntSrc k i { intSrc u k i with pending := true, deadline := none } u))

namespace Sys2Proof.Claims
open Sys2Proof Sys2Proof.Machine

/-- The state except its registers and what the current FCLK did to their bits (R6, R7). -/
def offRegs (s : State) : State := { s with regs := [], hits := [], sets := [] }

/-- A register field names a page range of a store that engine `u` scrubs. -/
def scrubRangeOk (u : Nat) (v : BitVec 64) : Prop := scrubBadStore u (scrubStore u v) = false ∧ fld v 0 11 + fld v 32 12 ≤ scrubPages u (scrubStore u v)

/-- The value written by a command that stands for a write with its start bit set. -/
def started (v : BitVec 64) : BitVec 64 := v ||| 0x8000000000000000

end Sys2Proof.Claims

/-- A fill ends: its chunk is touched and the writes held for it have landed, and no byte outside them has changed (R241 to R243). -/
def Sys2Proof.Claims.DramFillEnds : Prop :=
  ∀ (c : Nat) (rest : List Nat) (s : State), s.fills = c :: rest →
    ∃ t, exec .fillDone s = .next t ∧ t.fills = rest ∧ c ∈ t.touched ∧ t.heldWrites = s.heldWrites.filter (fun w => chunkOf w.addr != c) ∧
      t.facets = s.facets ∧
      (∀ x, (∀ w ∈ s.heldWrites, chunkOf w.addr = c → x < w.addr ∨ w.addr + w.bytes.length ≤ x) → byteAt t x = byteAt s x) ∧
      (∀ w, s.heldWrites.filter (fun w => chunkOf w.addr == c) = [w] → ∀ i, i < w.bytes.length → byteAt t (w.addr + i) = w.bytes.getD i 0)

/-- A patrol read of a touched chunk: no content changes; what it finds is logged (R524). -/
def Sys2Proof.Claims.DramPatrolLogs : Prop :=
  ∀ (chunk : Fin 131072) (corrected uncorrectable : Bool) (s : State), s.touched.contains chunk.val = true → domState s 37 = 1 →
    let due := match s.links.patrolled.find? fun p => p.1 == chunk.val with | some p => p.2 + dayFclk | none => s.fclk
    let u := advanceTo due s
    ∃ t, exec (.dramPatrol chunk corrected uncorrectable) s = .next t ∧ t.mem = u.mem ∧ t.facets = u.facets ∧ t.fclk = u.fclk ∧
      t.links.patrolled = tput u.links.patrolled chunk.val u.fclk ∧
      (corrected = false → uncorrectable = false → t = { u with links := t.links, free := u.free + 1 })

/-- Reconstruction: a page with at most two erased words is rebuilt or found beyond repair; with more, or with a bad side byte beside an
erased word, it is lost, and its facet, crown or package is reset (R262 to R266). -/
def Sys2Proof.Claims.ReconstructionOutcome : Prop :=
  ∀ (page : Nat) (port : Fin 8) (erased : List (Fin 128)) (sideBad : Bool) (s : State), isCoded (page * 2048) = true →
    let es := erasedIn s (page * 2048) erased
    let q := reconstructPage page port erased sideBad s
    let run := exec (.reconstruction page port erased sideBad) s
    (sideBad = true ∨ es ≠ []) →
    (q.1 = true → run = .next q.2) ∧
    (q.1 = false → run = .next (resetOwner (page * 2048) (markDataLost (es.map fun k => page * 2048 + 16 * k) q.2))) ∧
    (3 ≤ es.length → q.1 = false) ∧ (es ≠ [] → sideBad = true → q.1 = false) ∧
    (es = [] → q.1 = true ∧ q.2.mem = s.mem ∧ q.2.facets = s.facets)

/-- The scrubber starts on a range of pages, refuses a bad range or a second pass, and at the end of its pass reads START 0, which it
reads throughout by the model's choice (log entry 74), and records SCRUBDONE (R271 to R273). -/
def Sys2Proof.Claims.ScrubPasses : Prop :=
  ∀ (u : Fin 17) (v : BitVec 64) (s : State),
    let w := started v
    (scrubRangeOk u w → (integ s u).scrub = none → fld w 32 12 ≠ 0 →
      ∃ t, exec (.itgScrubStart u v) s = .next t ∧ t.mem = s.mem ∧ t.facets = s.facets ∧ rbit t (itgU u 0x20) 62 = true ∧
        rget t (itgU u 0x28) = 0 ∧ rget t (itgU u 0x30) = 0 ∧
        (integ t u).scrub = some (scrubStore u w, if u.val < 16 then fld w 57 3 else 0, fld w 0 11, fld w 32 12)) ∧
    (¬ scrubRangeOk u w ∨ (integ s u).scrub ≠ none → exec (.itgScrubStart u v) s = .next (itgEvt u 7 318 s)) ∧
    (∀ st f first n, (integ s u).scrub = some (st, f, first, n) → (16 ≤ u.val ∨ crownUp s u = true) → retireCopies s u = false →
      ∃ t, exec (.scrubPassDone u) s = .next t ∧ t = scrubEnd u st (scrubPass u st f first n (advanceTo (copyEnd s u) s)) ∧
        (integ t u).scrub = none ∧ rbit t (itgU u 0x20) 62 = false ∧ rbit t (itgU u 8) 5 = true)

/-- A page is retired into a free spare, whose number SPARE shows; the pounce copies a page to the held spare, tests it there, and copies it back,
or leaves it retired where the test fails; a command that names no such page is refused (R277 to R281). `clean` pages hold no deviating word. -/
def Obligations.RetirementAndPounce : Prop :=
  ∀ (c : Fin 16) (v : BitVec 64) (s : State),
    let w := started v
    let st := fld w 60 2
    let l := pageLin st (fld w 57 3) (fld w 0 11)
    let x := integ s c
    let ok := st ≠ 3 ∧ fld w 0 11 < storePages st ∧ x.redir.any (fun r => r.1 == l) = false ∧ 1 < (freeSpares s c l).length ∧ x.retiring = none
    let clean (u : State) (m : Nat) : Prop := ∀ a, linAddr c m = some a → devWords u a = []
    (ok → ∃ t, exec (.itgRetireStart c v) s = .next t ∧ integ t c = { x with retiring := some l } ∧ rbit t (itgU c 0x38) 62 = true ∧ t.mem = s.mem ∧
      t.facets = s.facets) ∧
    (¬ ok → exec (.itgRetireStart c v) s = .next (itgEvt c 7 318 s)) ∧
    (∀ l sp rest, x.retiring = some l → freeSpares s c l = sp :: rest → copyServed s c = true → retireCopies s c = true → clean s l →
      ∃ t, exec (.retirementDone c) s = .next t ∧ integ t c = { x with retiring := none, redir := tput x.redir l sp } ∧ t.mem = s.mem ∧
        rbit t (itgU c 0x38) 62 = false ∧ rfld t (itgU c 0x38) 40 6 = sp ∧ rbit t (itgU c 8) 6 = true) ∧
    (∀ l, nextTest s c x.next = some l → rbit s (itgU c 0) 0 = true → x.test = none → crownUp s c = true → (∀ r, x.retiring = some r → sameStore r l = false) →
      let u := advanceTo x.due s
      ∃ t, exec (.pounceIntervalExpiry c) s = .next t ∧ t = pounceStart c l u ∧
        (clean u l → (integ t c).test = some (l, (heldSpare u c l).getD 0) ∧ (integ t c).copy = some (u.fclk + copyFclk) ∧
          rfld t (itgU c 0x40) 60 3 = 1 ∧ t.mem = u.mem)) ∧
    (∀ f, x.copy = some f → f ≤ s.fclk →
      (rfld s (itgU c 0x40) 60 3 ≠ 3 → rfld (copySwitch c s) (itgU c 0x40) 60 3 = 2 ∧ (integ (copySwitch c s) c).test = x.test) ∧
      (rfld s (itgU c 0x40) 60 3 = 3 → (integ (copySwitch c s) c).test = none ∧ (integ (copySwitch c s) c).redir = x.redir)) ∧
    (∀ l sp, x.test = some (l, sp) → x.scrub = none → crownUp s c = true → rfld s (itgU c 0x40) 60 3 ≠ 3 →
      let u := advanceTo (copyEnd s c) s
      clean u l →
      (∃ t, exec (.pounceTestDone c true) s = .next t ∧ (integ t c).test = (integ u c).test ∧ (integ t c).redir = (integ u c).redir ∧
        rfld t (itgU c 0x40) 60 3 = 3 ∧ t.mem = u.mem) ∧
      (∃ t, exec (.pounceTestDone c false) s = .next t ∧ (integ t c).test = none ∧ (integ t c).redir = tput (integ u c).redir l sp ∧
        rfld t (itgU c 0x38) 40 6 = sp % 64 ∧ rbit t (itgU c 8) 4 = true ∧ t.mem = u.mem))

/-- The checker's test mode: MODE 0 reads the stored bits of a word into the test registers and changes no store; a GO on a running facet's
store is refused (R282, R283). -/
def Sys2Proof.Claims.CheckerTestMode : Prop :=
  ∀ (c : Fin 16) (v : BitVec 64) (s : State), crownUp s c = true →
    let w := started v
    (testRefused s c w = true → exec (.itgTctlGo c v) s = .next (itgEvt c 7 318 s)) ∧
    (testRefused s c w = false → fld w 60 2 = 0 →
      let r := storedWord s (storeBase c (fld w 58 2) (fld w 55 3) + 16 * fld w 0 18)
      ∃ t, exec (.itgTctlGo c v) s = .next t ∧ offRegs t = offRegs s ∧ rget t (itgU c 0x88) = r.data.setWidth 64 ∧
        rget t (itgU c 0x90) = (r.data >>> 64).setWidth 64 ∧ rbit t (itgU c 0x80) 32 = r.v ∧ rbit t (itgU c 0x80) 33 = r.tag) ∧
    (testRefused s c w = false → ∃ t, exec (.itgTctlGo c v) s = .next t ∧ t.facets = s.facets)

/-- A seam replay is counted; eight of one flit reset the package (R15). That replays within 48 FCLK are of one flit is the model's choice (log
entry 6). -/
def Sys2Proof.Claims.SeamReplayCounts : Prop :=
  ∀ (d : Fin 6) (n a : Nat) (s : State), tget (0, 0) s.pwr.seams d = (n, a) →
    let more := n ≠ 0 ∧ s.fclk ≤ a + 48
    (¬ (more ∧ 7 ≤ n) → ∃ t, exec (.seamReplay d) s = .next t ∧
      tget (0, 0) t.pwr.seams d = (if more then n + 1 else 1, s.fclk) ∧ t.mem = s.mem ∧ t.facets = s.facets ∧ t.tb = s.tb) ∧
    (more → 7 ≤ n → ∃ u, exec (.seamReplay d) s = .next (packageReset 9 u) ∧ u.mem = s.mem ∧ u.facets = s.facets)

/-- A start of an idle channel that passes the checks loads the transfer and waits, or is held while a domain is gone; one that fails a check
ends with its error; a start in the FCLK in which the channel became idle waits for the next, and START reads 1; a start of a busy channel is
counted as missed; a start sink acts where CFG lets it, and a sleeping crown records its pulse (R291, R292). -/
def Sys2Proof.Claims.MoverStarts : Prop :=
  ∀ (k : Fin 288) (s : State), domServes s (chanDomain k) = true →
    let c := chan s k
    let fresh := c.startAt ≠ some s.fclk ∧ c.missAt.any (fun m => m.1 == s.fclk) = false ∧ c.startNext = false
    let run := exec (.movCtlStart k false) s
    (fresh → c.idleAt ≠ some s.fclk → chanState s k = 0 → startCheck s k = 0 → ∃ t, run = .next t ∧
      chanState t k = (if (chanDomains s k).any (domGone s) then 1 else 2) ∧ (chan t k).rem = (side s k false).total ∧
      rfld t (chanReg k 0x108) 0 40 = 0 ∧ rfld t (chanReg k 0x100) 8 4 = 0 ∧ t.mem = s.mem ∧ t.facets = s.facets) ∧
    (fresh → c.idleAt ≠ some s.fclk → chanState s k = 0 → startCheck s k ≠ 0 → ∃ t, run = .next t ∧ chanState t k = 0 ∧
      rfld t (chanReg k 0x100) 8 4 = startCheck s k ∧ t.mem = s.mem ∧ t.facets = s.facets) ∧
    (fresh → c.idleAt = some s.fclk → chanState s k = 0 →
      run = .next (rbitSet (chanReg k 0) 0 true (setChan k { c with startNext := true } s))) ∧
    (fresh → chanState s k ≠ 0 → run = .next (setChan k { c with missAt := some (s.fclk, rfld s (chanReg k 0x100) 48 16) }
      (rsat (chanReg k 0x100) 48 16 1 s))) ∧
    ((256 ≤ k.val ∨ crownUp s (k / 16) = true) →
      exec (.movCtlStart k true) s = .next (if rbit s (chanReg k 8) 4 then movStart k s else s)) ∧
    (k.val < 256 → crownUp s (k / 16) = false → ∃ t, exec (.movCtlStart k true) s = .next t ∧ chan t k = { c with sleepStart := true } ∧
      t.wakes = sadd s.wakes (k / 16) ∧ t.regs = s.regs ∧ t.mem = s.mem)

/-- A granted burst is issued: the engine is busy for its beats, the bytes left go down, and its source elements are read and written in order
(R293, R294, R296). -/
def Sys2Proof.Claims.MoverBurst : Prop :=
  ∀ (k : Fin 288) (s : State),
    let e := engineOf k
    let b := burstSize s k
    (engine s e).busy ≤ s.fclk → b ≠ 0 → nextGrant s e = some k.val → burstBad s k b = false → (chanDomains s k).any (domGone s) = false →
    let n := b / 2 ^ (side s k false).ew
    let x := engine s e
    exec (.burstIssue k none) s = .next (beats k none n 0 (setChan k { chan s k with rem := (chan s k).rem - b } (setChanState k 3
      (setEngine e { x with last := tset 300 x.last (chanPri s k) k, cur := k, busy := s.fclk + n } s))))

/-- One beat between on-die stores with equal element widths copies the element's bytes and no others, and acknowledges them (R290). -/
def Obligations.MoverBeatCopies : Prop :=
  ∀ (k : Fin 288) (s : State),
    let x := side s k false
    let y := side s k true
    let a := x.elem (chan s k).rpos
    let d := y.elem (chan s k).wpos
    let w := 2 ^ x.ew
    x.ew = y.ew → x.ew ≤ 4 → a % w = 0 → d % w = 0 → isOnDie a = true → isOnDie d = true → partitionRefuses s a (.mover k) = false →
    partitionRefuses s d (.mover k) = false → remoteSide s k false = none → remoteSide s k true = none → chanGoes s k = true →
    (chan s k).hold = [] → s.marks = [] → s.fills = [] →
    let t := srcRead k false s
    bytesAt t d w = bytesAt s a w ∧ (∀ z, (z < d ∨ d + w ≤ z) → byteAt t z = byteAt s z) ∧
      (chan t k).rpos = (chan s k).rpos + 1 ∧ (chan t k).wpos = (chan s k).wpos + 1 ∧ (chan t k).hold = [] ∧
      rfld t (chanReg k 0x108) 0 40 = (rfld s (chanReg k 0x108) 0 40 + w) % 2 ^ 40

/-- How transfers end: complete with MOVED at the total, stopped or failed with their error; STOP is remembered; a drain holds the channel and it
goes on when its domains are back, or fails after 2 µs (R295, R299 to R302). -/
def Obligations.MoverEnds : Prop :=
  ∀ (k : Fin 288) (s : State),
    let c := chan s k
    let st := chanState s k
    ((st = 3 ∨ st = 4) → c.rem = 0 → c.ending = 0 → c.hold = [] → c.back = [] → chanWaits s k = false →
      let u := advanceTo (burstEndAt s k) s
      ∃ t, exec (.transferCompletion k) s = .next t ∧ t = endComplete k u ∧ chanState t k = 0 ∧ t.mem = u.mem ∧ t.facets = u.facets ∧
        rfld t (chanReg k 0x108) 0 40 = (side u k false).total % 2 ^ 40) ∧
    (st ≠ 0 → c.ending ≠ 0 → chanWaits s k = false →
      let u := advanceTo (if c.ending = 13 ∧ st = 3 then burstEndAt s k else s.fclk) s
      ∃ t, exec (.transferEndEarly k) s = .next t ∧ chanState t k = 0 ∧ rfld t (chanReg k 0x100) 8 4 = c.ending % 16 ∧ t.mem = u.mem) ∧
    (domServes s (chanDomain k) = true → k.val ∉ s.locks.chans → st ≠ 0 →
      exec (.movCtlStop k) s = .next (w1sWrite (chanReg k 0) 1 (setChan k { c with ending := if c.ending = 0 then 13 else c.ending } s))) ∧
    (domServes s (chanDomain k) = true → k.val ∈ s.locks.chans → exec (.movCtlStop k) s = .next (tellSteward (chanReg k 0) .steward s)) ∧
    (c.drain.isSome = true → 2 ≤ st → c.ending = 0 → c.rem ≠ 0 → chanWaits s k = false →
      let u := advanceTo (burstEndAt s k) s
      exec (.channelDrainHeld k) s = .next (setChanState k 1 (setChan k { chan u k with drain := none } u))) ∧
    (st = 1 → c.ending = 0 → (∀ d ∈ chanDomains s k, (domState s d = 1 ∨ (d < 16 ∧ domState s d = 2)) ∧ domLeaving s d = false) →
      exec (.channelResume k) s = .next (setChanState k 2 (setChan k { c with drain := none } s))) ∧
    (∀ f, c.drain = some f → st ≠ 0 → (∀ w ∈ s.heldWrites, w.who ≠ .mover k) → (chanDomains s k).any (domGone s) = false →
      exec (.drainTimeout k) s = .next (failChan k 11 (advanceTo (f + 2 * usFclk) s)))

/-- An armed step adds its amount when the tick count reaches STEPAT; a rate point puts its rate into force; TIM_RATE takes effect at a multiple
of 1,024 ticks and refuses a rate out of range; STEPARM refuses a time too near (R305 to R307). -/
def Sys2Proof.Claims.StepsAndRates : Prop :=
  ∀ s : State,
    (∀ d a, s.tb.step = some (d, a) → s.tb.pend = none →
      let j := fclkTo s.tb a
      let b := runTb j s.tb
      a ≤ b.tick → ∃ t, exec .timeStepApply s = .next t ∧ t.fclk = s.fclk + j ∧ t.tb = { b with tick := wrapN 64 (b.tick + d), step := none }) ∧
    (∀ r m, s.tb.pend = some (r, m) → s.tb.step = none →
      let j := fclkTo s.tb m
      let b := runTb j s.tb
      m ≤ b.tick → ∃ t, exec .ratePoint s = .next t ∧ t.fclk = s.fclk + j ∧ t.tb = { b with rate := r, pend := none }) ∧
    (∀ v : BitVec 64, let r := sgn 32 v.toNat;
      (-2147483 ≤ r → r ≤ 2147483 → ∃ t, exec (.timRateWrite v) s = .next t ∧ rget t (timReg 0x20) = BitVec.ofNat 64 (v.toNat % 2 ^ 32) ∧
        t.tb = { s.tb with pend := some (r, (s.tb.tick + 2048 + 1023) / 1024 * 1024) } ∧ offRegs t = offRegs { s with tb := t.tb }) ∧
      (2147483 < r ∨ r < -2147483 → exec (.timRateWrite v) s = .next (rbitSet (timReg 0x40) 2 true s))) ∧
    (let a := (rget s (timReg 0x30)).toNat;
      (s.tb.tick + 4096 ≤ a → ∃ t, exec .steparm s = .next t ∧ t.tb = { s.tb with step := some ((rget s (timReg 0x28)).toInt, a) } ∧
        rbit t (timReg 0) 8 = true ∧ offRegs t = offRegs { s with tb := t.tb }) ∧
      (a < s.tb.tick + 4096 → exec .steparm s = .next (rbitSet (timReg 0x40) 2 true s)))

/-- Check words: two bit errors are counted and drop the word; a replica that holds another time than the master's is flagged, recorded and raises
source 317 at its rise (R308). The replica's content is the command's operand (log entry 73). -/
def Sys2Proof.Claims.CheckWords : Prop :=
  ∀ (d : Fin 6) (s : State),
    let u := advanceTo ((s.fclk + 1023) / 1024 * 1024) s
    (∀ w, ∃ t, exec (.checkWord d ⟨2, w⟩) s = .next t ∧ rfld t (timReg 0x48) 0 32 = min (2 ^ 32 - 1) (rfld u (timReg 0x48) 0 32 + 1) ∧
      offRegs t = offRegs u) ∧
    (∀ e : Fin 3, e ≠ 2 → exec (.checkWord d ⟨e, none⟩) s = .next u ∧ exec (.checkWord d ⟨e, some (timeWord u)⟩) s = .next u ∧
      ∀ w, w ≠ timeWord u → ∃ t, exec (.checkWord d ⟨e, some w⟩) s = .next t ∧ rbit t (timReg 0x40) (8 + d) = true ∧
        t.ledger.rec5 = u.ledger.rec5 ++ [.timeFault d u.tb.tick] ∧ t.tb = u.tb ∧ t.mem = u.mem ∧ t.facets = u.facets ∧
        (rbit u (timReg 0x40) (8 + d) = true → t.ints = u.ints))

/-- The PPS balls: the active edge is stamped, raises its source and is the servo's sample under SRC 2 and 3, the other does nothing; a missing edge sets PPSMISS; a whole second raises
source 0x20A9 and PPS_OUT, which falls 12,000,000 ticks later (R309, R310, R320). -/
def Sys2Proof.Claims.PulsePerSecond : Prop :=
  ∀ (rising : Bool) (s : State),
    (rising ≠ rbit s (timReg 0) 6 → ∃ t, exec (.ppsEdge rising) s = .next t ∧ rget t (timReg 0x38) = BitVec.ofNat 64 s.tb.tick ∧
      t.disc.ppsFrom = some s.tb.tick ∧ t.mem = s.mem ∧ t.facets = s.facets ∧ (timSrc s < 2 → t.disc.good = s.disc.good ∧ t.tb = s.tb) ∧
      (2 ≤ timSrc s → t.disc.lastAt = some s.fclk ∧ rbit t (timReg 0x40) 1 = false ∧ t.disc.good =
        if belowNs (ppsOffset s.tb.tick s.disc.delay) s.disc.lockNs then min (s.disc.good + 1) 255 else 0)) ∧
    (rising = rbit s (timReg 0) 6 → exec (.ppsEdge rising) s = .next s) ∧
    (∀ a, s.disc.ppsFrom = some a → 2 ≤ timSrc s → let u := advanceTick (a + 1200600001) s
      ∃ t, exec .ppsMiss s = .next t ∧ rbit t (timReg 0x40) 4 = true ∧ t.disc.ppsFrom = none ∧ t.mem = u.mem) ∧
    (let u := advanceTick ((min s.disc.secDone (s.tb.tick / secondTicks) + 1) * secondTicks) s
      ∃ t, exec .storeTimeSecond s = .next t ∧ t.disc.secDone = u.tb.tick / secondTicks ∧ t.mem = u.mem ∧
        t.out = u.out ++ (if rbit u (timReg 0) 7 then [.pin 4096 true] else [])) ∧
    (∀ a, s.disc.ppsHigh = some a → let u := advanceTick (a + 12000000) s
      exec .ppsOutFall s = .next (emit (.pin 4096 false) (setDisc { u.disc with ppsHigh := none } u)))

/-- Under SRC 1 a PTP exchange counts towards LOCK and ends HOLDOVER, under SRC 3 it gives the second count only; without one for N sync intervals
HOLDOVER begins; in the master role a Sync goes out once in every sync interval, followed by a Follow_Up where the stamp is two-step (R304, R309,
R311, R312, R520). The rate that the servo sets is a free value, the role is chosen outside (log entry 5). -/
def Sys2Proof.Claims.PtpServo : Prop :=
  ∀ (m : Fin 8) (s : State),
    (∀ x : PtpExchange, timSrc s = 1 ∨ timSrc s = 3 → s.disc.enabled.getLsbD m = true → domState s 36 = 1 →
      ∃ t, exec (.ptpSample m x) s = .next t ∧ t.disc.lastAt = some s.fclk ∧ t.disc.lastOffset = ptpOffset x ∧ t.tb.tick = s.tb.tick ∧
        t.mem = s.mem ∧ t.facets = s.facets ∧ (timSrc s = 3 → t.disc.good = s.disc.good) ∧
        (timSrc s = 1 → t.disc.good = (if belowNs (ptpOffset x) s.disc.lockNs then min (s.disc.good + 1) 255 else 0) ∧
          rbit t (timReg 0x40) 0 = decide (s.disc.lockN ≤ t.disc.good) ∧ rbit t (timReg 0x40) 1 = false)) ∧
    (∀ f, s.disc.lastAt = some f → timSrc s = 1 ∨ timSrc s = 3 → rbit s (timReg 0x40) 1 = false →
      let u := advanceTo (f + s.disc.holdN * nsFclk s.disc.sync) s
      ∃ t, exec .holdoverEntry s = .next t ∧ rbit t (timReg 0x40) 1 = true ∧ rbit t (timReg 0x40) 0 = false ∧ t.disc.good = 0 ∧ t.mem = u.mem) ∧
    (s.disc.enabled.getLsbD m = true → slaveMac s ≠ some m.val → rbit s (macReg m 0) 0 = true → domState s 36 = 1 →
      let last := tget 0 s.disc.synced m
      let u := advanceTo (if last = 0 then s.fclk else last + nsFclk s.disc.sync) s
      let x := tget ({} : Mac) u.macs m
      let stamp := u.tb.tick + txDelay u m
      ∃ t, exec (.ptpSyncSend m) s = .next t ∧ tget 0 t.disc.synced m = u.fclk ∧ t.mem = u.mem ∧
        (rbit u (macReg m 0) 6 = true → t.out = u.out ++ [.frame m (ptpFrame u m 0 0 0 x.seq (some stamp) 0)]) ∧
        (rbit u (macReg m 0) 6 = false → t.out = u.out ++ [.frame m (ptpFrame u m 0 0x200 0 x.seq none 0),
          .frame m (ptpFrame u m 8 0 (ptpFrac stamp) x.seq (some stamp) 0)]))

/-- A launch timer fires at its NEXT: it raises its hatband source and counts; a one-shot timer disarms, a periodic one goes on at the first of its
times after now. A control or period write waits for the FCLK after it, in which it takes its fields; a period below 2 is refused, and so is a write
to a locked timer, which sets LOCKREF (R316 to R318, R327). -/
def Obligations.LaunchTimers : Prop :=
  ∀ (i : Fin 512) (v : BitVec 64) (s : State),
    (rbit s (ltim i 16) 0 = true →
      let u := advanceTick (rget s (ltim i 0)).toNat s
      let next := (rget u (ltim i 0)).toNat
      let period := rfld u (ltim i 8) 0 32
      ∃ t, exec (.launchTimerFire i) s = .next t ∧ t.pulses = (raiseHat i u).pulses ∧ t.mem = u.mem ∧ t.facets = u.facets ∧
        rfld t (ltim i 24) 32 32 = (rfld u (ltim i 24) 32 32 + 1) % 2 ^ 32 ∧
        (rbit u (ltim i 16) 1 = false → rbit t (ltim i 16) 0 = false ∧ rget t (ltim i 0) = rget u (ltim i 0)) ∧
        (rbit u (ltim i 16) 1 = true → 0 < period →
          rget t (ltim i 0) = BitVec.ofNat 64 (next + ((u.tb.tick - next) / period + 1) * period))) ∧
    (timerLocked s i = true → exec (.timLctlWrite i v) s = .next (hatLockref s) ∧ exec (.timLperWrite i v) s = .next (hatLockref s)) ∧
    (timerLocked s i = false → exec (.timLctlWrite i v) s = .next (setTimWrites (s.timWrites ++ [(i.val, (16, v))]) s) ∧
      exec (.timLperWrite i v) s = .next (setTimWrites (s.timWrites ++ [(i.val, (8, v))]) s)) ∧
    (let bad := bit v 0 = true ∧ bit v 1 = true ∧ rfld s (ltim i 8) 0 32 < 2
     let t := timersTick s
     s.timWrites = [(i.val, (16, v))] → t.timWrites = [] ∧ offRegs t = offRegs { s with timWrites := [] } ∧
       (¬ bad → rget t (ltim i 16) = v &&& 0xFFFFFFFF00000003) ∧ (bad → rbit t (ltim i 16) 0 = false ∧ rbit t (ltim i 24) 31 = true)) ∧
    (let bad := fld v 0 32 < 2 ∧ rfld s (ltim i 16) 0 2 = 3
     let t := timersTick s
     s.timWrites = [(i.val, (8, v))] → t.timWrites = [] ∧ offRegs t = offRegs { s with timWrites := [] } ∧
       (¬ bad → rget t (ltim i 8) = v &&& 0xFFFFFFFF) ∧ (bad → rget t (ltim i 8) = rget s (ltim i 8) ∧ rbit t (ltim i 24) 31 = true))

/-- A pulse arrives 16 FCLK after it was raised at the sinks that listen to its event in the bank live at that time: a facet event flag reads set from
the next FCLK, a sink whose domain is off is counted, and a pulse lost on the seam of its source's die reaches none (R16, R159, R319, R321,
R323). -/
def Sys2Proof.Claims.HatbandDelivers : Prop :=
  ∀ (e : Fin 4096) (p : Pulse) (s : State), (s.pulses.find? fun p => p.ev == e.val) = some p →
    let u := advanceTo (p.at_ + 16) (setPulses (s.pulses.erase p) s)
    let run := exec (.hatbandDelivery e []) s
    run = .next ((sinksOf u p.bank p.ev).foldl (fun s n => deliver p n s) u) ∧
    exec (.hatbandDelivery e [6]) s = .next (raiseSteward 315 (rsat (hatReg 0x10) 48 16 1 u)) ∧
    (∀ n f, n < 128 → f < 16 → sinksOf u p.bank p.ev = [0x800 + 16 * n + f] → sinkOff u (0x800 + 16 * n + f) = false → ∃ t, run = .next t ∧
      (facet t n).efNext = (facet u n).efNext ||| BitVec.ofNat 16 (2 ^ f) ∧ (facet t n).ef = (facet u n).ef ∧ (facet t n).g = (facet u n).g ∧ (∀ m, m ≠ n → facet t m = facet u m) ∧ t.mem = u.mem) ∧
    (∀ n, sinksOf u p.bank p.ev = [n] → sinkOff u n = true → run = .next (rsat (hatReg 0x10) 32 16 1 u))

/-- The banks: a copy makes the other bank equal to the live one and changes nothing else; SWAPARM refuses a time too near, a second arm or an arm
during a copy; the swap makes the other bank live (R324 to R326). COPY set again in the FCLK in which a copy ends stays set (R7). -/
def Sys2Proof.Claims.HatbandBanks : Prop :=
  ∀ s : State,
    let l := hatLive s
    (rbit s (hatReg 0) 2 = false → rbit s (hatReg 0) 1 = false → s.tb.tick + 4096 ≤ (rget s (hatReg 8)).toNat →
      exec .hatSwaparm s = .next (w1sWrite (hatReg 0) 2 s)) ∧
    (rbit s (hatReg 0) 2 = true ∨ rbit s (hatReg 0) 1 = true ∨ (rget s (hatReg 8)).toNat < s.tb.tick + 4096 →
      exec .hatSwaparm s = .next (rbitSet (hatReg 0x10) 2 true s)) ∧
    (rbit s (hatReg 0) 2 = true → let u := advanceTick (rget s (hatReg 8)).toNat s
      ∃ t, exec .hatbandSwap s = .next t ∧ hatLive t = 1 - hatLive u ∧ rbit t (hatReg 0) 2 = false ∧ rbit t (hatReg 0x10) 0 = true ∧ offRegs t = offRegs u) ∧
    (rbit s (hatReg 0) 2 = false → exec .hatCopy s = .next (w1sWrite (hatReg 0) 1 s)) ∧
    (rbit s (hatReg 0) 2 = true → exec .hatCopy s = .next (rbitSet (hatReg 0x10) 2 true s)) ∧
    (rbit s (hatReg 0) 1 = true → Memory.wf s.mem = true → ∃ t, exec .hatCopyDone s = .next t ∧
      rbit t (hatReg 0) 1 = s.sets.contains (hatReg 0, 1) ∧
      (∀ i, i < 0xD800 → byteAt t (hatBankBase (1 - l) + i) = byteAt s (hatBankBase l + i)) ∧
      (∀ a, a < hatBankBase (1 - l) ∨ hatBankBase (1 - l) + 0xD800 ≤ a → byteAt t a = byteAt s a))

/-- A fabric event of a member is acknowledged and waits for its act time, and then raises its event, the earliest first; a repeated frame is answered
again; a frame whose CRC fails is dropped and counted, one from outside the fabric sets FREJ (R328 to R330, R529). -/
def Sys2Proof.Claims.FabricEvents : Prop :=
  ∀ (fr : FabFrame) (s : State), domState s 36 = 1 →
    let run := exec (.fabricEventReceive fr) s
    (fabMember s fr = true → fabBad s fr = true → ∃ t, run = .next t ∧ t.fabric = { s.fabric with drops := s.fabric.drops + 1 } ∧ t.mem = s.mem) ∧
    (fabBad s fr = false → fr.ty = 6 → (tget [] s.fabric.seen fr.spkg.toNat).find? (fun p => p.1 == fr.seq.toNat) = none →
      let imp := rget s (hatReg 0x18)
      let e := bytesNat fr.payload % 4096
      bit imp 63 = true → fld imp 0 12 ≤ e → e ≤ fld imp 16 12 → ∃ t, run = .next t ∧ (e, fr.addr.toNat, s.fclk) ∈ t.fabric.events ∧
        t.out = s.out ++ [.fabric (fabAnswer s fr 4 0 [])] ∧ t.mem = s.mem ∧ t.facets = s.facets) ∧
    (∀ p, fabBad s fr = false → fr.ty = 6 → (tget [] s.fabric.seen fr.spkg.toNat).find? (fun p => p.1 == fr.seq.toNat) = some p →
      run = .next (emit (.fabric p.2) (heardFrom fr.spkg.toNat s))) ∧
    (fabMember s fr = false → ∃ t, run = .next t ∧ rbit t (hatReg 0x10) 4 = true ∧ t.fabric.events = s.fabric.events ∧ t.mem = s.mem) ∧
    (∀ (e : Fin 4096) x, nextFabricEvent s e = some x → (∀ y ∈ s.fabric.events, y.1 = e.val → x.2.1 ≤ y.2.1) ∧
      exec (.fabricEventAct e) s = .next (raiseEvent e (advanceTick x.2.1 (advanceTo (x.2.2 + 1)
        (setFabric { s.fabric with events := s.fabric.events.erase x } s)))))

namespace Sys2Proof.Claims
open Sys2Proof Sys2Proof.Machine

/-- Nothing but cell `p` differs. -/
def onlyCell (p : Nat) (s t : State) : Prop := (∀ q, q ≠ p → cell t q = cell s q) ∧ { t with cells := [] } = { s with cells := [] }
/-- Nothing but thread `i` differs. -/
def onlyThread (i : Nat) (s t : State) : Prop := (∀ j, j ≠ i → thread t j = thread s j) ∧ { t with threads := [] } = { s with threads := [] }
/-- A coprocessor operation of thread `i` may act on the cell it names (R378). -/
def mayTouch (i cell : Nat) (s : State) : Prop :=
  copGate s i = true ∧ (s.locks.cells.contains (copCell i cell) && !sealedWord s (i / 16) (thread s i).pc.toNat) = false

end Sys2Proof.Claims

/-- A group's voltage is sampled; a second sample in a row outside its window stops the group. A group is enabled where its last sample was good;
a cell is enabled where its configuration is legal and its group is enabled (R331, R332, R334). -/
def Sys2Proof.Claims.GroupAndCellEnable : Prop :=
  (∀ (g : Fin 8) (mv : BitVec 16) (s : State), groupUp s g = true →
    let u := advanceTo (nextMultiple sampleFclk s.fclk) s
    let ok := vioIn mv.toNat (rbit u (grpReg g 0) 1)
    (ok = true ∨ rbit u (grpReg g 8) 19 = true ∨ rbit u (grpReg g 0) 0 = false →
      exec (.vioSample g mv) s = .next (rbitSet (grpReg g 8) 19 ok (rput (grpReg g 8) 0 16 mv.toNat u))) ∧
    (ok = false → rbit u (grpReg g 8) 19 = false → rbit u (grpReg g 0) 0 = true →
      ∃ t, exec (.vioSample g mv) s = .next t ∧ rbit t (grpReg g 0) 0 = false ∧ rfld t (grpReg g 8) 0 16 = mv.toNat ∧
        (∀ i, i < 128 → (cell t (128 * g + i)).hiz = true) ∧ t.mem = u.mem)) ∧
  (∀ (g : Fin 8) (v : BitVec 64) (s : State), groupUp s g = true → rbit s (grpReg g 0) 0 = false → bit v 0 = true →
    vioIn (rfld s (grpReg g 8) 0 16) (bit v 1) = true → ∃ t, exec (.groupEnableWrite g v) s = .next t ∧ rbit t (grpReg g 0) 0 = true ∧ offRegs t = offRegs s) ∧
  (∀ (p : Fin 1024) (v : BitVec 64) (a : Agent) (s : State), cellOn s p = true → (isBlockerAgent p a = true ∨ (p.val ∉ s.locks.cells ∧ rbit s (cellReg p 0) 6 = false)) →
    rbit s (cellReg p 0) 0 = false → bit v 0 = true → rbit s (grpReg (groupOf p) 0) 0 = true → cellReserved s p = false →
    (rbit s (cellReg p 0) 1 = false ∨ bit v 1 = true ∨ cellEn s (p + 1) = false ∨
      (rfld s (cellReg (p + 1) 0x10) 24 3 ≤ 4 ∧ 4 ≤ rfld s (cellReg (p + 1) 0x10) 0 22)) →
    cellBad s p (ctlFields (rget s (cellReg p 0)) v (cellBusy s p)) (rget s (cellReg p 8)) (rget s (cellReg p 0x10)) (rget s (cellReg p 0x18)) = false →
    ∃ t, exec (.cellEnable p v a) s = .next t ∧ cellEn t p = true ∧ t.mem = s.mem ∧ t.facets = s.facets) ∧
  (∀ (p : Fin 1024) (v : BitVec 64) (a : Agent) (s : State), cellOn s p = true → isBlockerAgent p a = false → p.val ∈ s.locks.cells →
    exec (.cellEnable p v a) s = .next (rbitSet (cellReg p 0x30) 5 true s))

/-- The FIFOs of a cell and their windows: what a write adds, what a read takes, what is lost when a FIFO is full or short (R333, R339, R340, R351). -/
def Sys2Proof.Claims.CellFifos : Prop :=
  ∀ (p : Fin 1024) (s : State), cellOn s p = true →
    let c := cell s p
    (exec (.flushrx p) s = .next (setCell p { c with rx := [] } s)) ∧
    (∃ t, exec (.flushtx p) s = .next t ∧ (cell t p).tx = c.tx.drop 256 ∧ (cell t p).rx = c.rx ∧ t.mem = s.mem ∧ (∀ q, q ≠ p.val → cell t q = cell s q)) ∧
    (∀ bs a, bs.length ∈ [1, 2, 4, 8] → windowOk s p a = true → ∃ t, exec (.txWindowWrite p bs a) s = .next t ∧
      cell t p = { c with tx := c.tx ++ bs.take (256 - c.tx.length) } ∧ (∀ q, q ≠ p.val → cell t q = cell s q) ∧ t.mem = s.mem ∧
      (256 - c.tx.length < bs.length → rbit t (cellReg p 0x30) 2 = true) ∧ (bs.length ≤ 256 - c.tx.length → onlyCell p s t)) ∧
    (∀ n a, n ∈ [1, 2, 4, 8] → windowOk s p a = true → ∃ t, exec (.rxWindowRead p n a) s = .next t ∧ cell t p = { c with rx := c.rx.drop n } ∧
      t.out = s.out ++ [.value (bytesNat (c.rx.take n ++ List.replicate (n - (c.rx.take n).length) 0))] ∧
      ((c.rx.take n).length < n → rbit t (cellReg p 0x30) 1 = true) ∧ t.mem = s.mem) ∧
    (∀ bs a n, bs.length ∈ [1, 2, 4, 8] → n ∈ [1, 2, 4, 8] → windowOk s p a = false →
      exec (.txWindowWrite p bs a) s = .next (rbitSet (cellReg p 0x30) 5 true s) ∧ exec (.rxWindowRead p n a) s = .next (rbitSet (cellReg p 0x30) 5 true s))

/-- A burst on the line: a received byte inside the kept range enters the RX FIFO, others do not; the serializer takes its bytes from the TX FIFO in
order; the burst ends for the cell and its pair (R336, R340, R341). -/
def Sys2Proof.Claims.CellBursts : Prop :=
  ∀ (p : Fin 1024) (wave : List (Nat × Bool)) (u : Burst) (s : State), cellOn s p = true → (cell s p).burst = some u →
    (u.got < u.bytes.length →
      let v := advanceTo (u.start + (u.got + 1) * byteFclk s p) s
      let lb := rget v (cellReg p 0x18)
      let inside := fld lb 32 8 ≤ u.got ∧ u.got < fld lb 32 8 + fld lb 16 9
      let r := readBits s p 0 wave (cell s p).lineGot 8
      ∃ t, exec (.rxByteReceived p wave) s = .next t ∧ t.mem = v.mem ∧ (cell t p).burst = some { u with got := u.got + 1 } ∧ (cell t p).tx = (cell v p).tx ∧
        (cell t p).lineGot = r.2.1 ∧ (cell t p).rxLine = r.2.2 ∧
        (inside → (cell v p).rx.length < 256 → (cell t p).rx = (cell v p).rx ++ [(packBits (cellMsbf v p) 2 r.1).getD 0 0]) ∧
        (¬ inside → (cell t p).rx = (cell v p).rx)) ∧
    (u.sent < u.avail → (cell s p).tx ≠ [] →
      let v := advanceTo (u.start + u.sent * byteFclk s p) s
      ∃ t, exec (.txFifoByteLeaves p) s = .next t ∧ (cell t p).tx = (cell v p).tx.drop 1 ∧ (cell t p).burst = some { u with sent := u.sent + 1 } ∧
        (cell t p).rx = (cell v p).rx ∧ t.mem = v.mem) ∧
    ((pairCells s p).all (burstDone s) = true →
      let v := advanceTo (u.start + u.bytes.length * byteFclk s p) s
      ∃ t, exec (.burstEnd p) s = .next t ∧ (cell t p).burst = none ∧ (cell t p).rx = (cell v p).rx ∧ (cell t p).tx = (cell v p).tx ∧ t.mem = v.mem)

/-- Pads, launches and comparators: a pad fault stops the cell; an edge changes the level that the cell reads; a launch pulse ends with its level; a
comparator raises its source at its tick and disarms; ATTACHED follows the debounced levels (R335, R342, R344, R345, R349). -/
def Sys2Proof.Claims.CellEvents : Prop :=
  ∀ (p : Fin 1024) (s : State), cellOn s p = true →
    (∃ t, exec (.padFault p) s = .next t ∧ cellEn t p = false ∧ (cell t p).hiz = true ∧ rbit t (cellReg p 0x30) 7 = true ∧ rbit t (cellReg p 0x30) 8 = true ∧ t.mem = s.mem) ∧
    (rbit s (cellReg p 0x30) 8 = true → exec (.padFaultEnd p) s = .next (rbitSet (cellReg p 0x30) 8 false s)) ∧
    (∀ level, (cell s p).padA ≠ level → ∃ t, exec (.padEdge p false level) s = .next t ∧ (cell t p).padA = level ∧ (cell t p).padB = (cell s p).padB ∧
      rbit t (cellReg p 0x30) 9 = level ∧ t.mem = s.mem) ∧
    (∀ level, (cell s p).padB ≠ level → ∃ t, exec (.padEdge p true level) s = .next t ∧ (cell t p).padB = level ∧ (cell t p).padA = (cell s p).padA ∧
      rbit t (cellReg p 0x30) 10 = level ∧ t.mem = s.mem) ∧
    (∀ f v, (cell s p).pulseEnd = some (f, v) → let u := advanceTo f s
      exec (.launchPulseEnd p) s = .next (showPads p (rbitSet (cellReg p 8) 3 v (setCell p { cell u p with pulseEnd := none } u)))) ∧
    (∀ k : Fin 2, rbit s (cellReg p 0x58) (2 * k.val) = true →
      let u := advanceTick (rget s (cellReg p (0x48 + 8 * k.val))).toNat s
      ∃ t, exec (.launchComparator p k) s = .next t ∧ rbit t (cellReg p 0x58) (2 * k.val) = false ∧ t.mem = u.mem ∧
        (rbit u (cellReg p 0x58) (2 * k.val + 1) = false → t = rbitSet (cellReg p 0x58) (2 * k.val) false (raiseHat (0x1800 + 2 * p.val + k.val) u))) ∧
    (rbit s (cellReg p 0) 5 = true → presMatch s p ≠ rbit s (cellReg p 0x30) 11 →
      let u := advanceTo ((cell s p).attSince + 2 ^ rfld s (cellReg p 0) 12 4 * 1200) s
      ∃ t, exec (.attachChange p) s = .next t ∧ rbit t (cellReg p 0x30) 11 = presMatch s p ∧ t.mem = u.mem ∧ cell t p = cell u p)

/-- A measurement starts where the cell is idle and nothing measures, and the cell keeps its request; its end clears BUSY and leaves the voltages of
the pads it names, or the result of the reflectometer where that serves the cell (R346, R347, R350). -/
def Sys2Proof.Claims.CellMeasurement : Prop :=
  ∀ (p : Fin 1024) (v : BitVec 64) (m : Measured) (s : State), cellOn s p = true →
    let w := v ||| 0x8000000000000000
    (p.val ∉ s.locks.cells → rbit s (cellReg p 0x60) 62 = false → fld w 56 4 ≤ 5 → fld w 60 2 ≠ 3 → ¬ (fld w 56 4 = 5 ∧ fld w 60 2 = 2) →
      (fld w 56 4 = 0 ∨ (cellEn s p = false ∧ rbit s (cellReg p 0) 6 = false)) →
      ∃ t, exec (.prtSenseStart p v) s = .next t ∧ cell t p = { cell s p with sense := some (s.fclk, w), tdr := fld w 56 4 == 5 && tdrFree s p } ∧
        rbit t (cellReg p 0x60) 62 = true ∧ t.mem = s.mem) ∧
    (∀ f r, (cell s p).sense = some (f, r) → fld r 56 4 ≠ 5 ∨ (cell s p).tdr = true →
      let u := advanceTo (f + senseFclk (fld r 56 4) (fld r 60 2)) s
      ∃ t, exec (.measurementDone p m) s = .next t ∧ cell t p = { cell u p with sense := none, tdr := false } ∧ rbit t (cellReg p 0x60) 62 = false ∧
        t.mem = u.mem ∧
        (fld r 56 4 = 0 → fld r 60 2 ≠ 1 → rfld t (cellReg p 0x68) 0 16 = wrapN 16 m.v0a) ∧
        (fld r 56 4 = 0 → fld r 60 2 ≠ 0 → rfld t (cellReg p 0x68) 32 16 = wrapN 16 m.v0b) ∧
        (fld r 56 4 = 5 → rget t (cellReg p 0x70) = tdrResult m (fld r 48 8)))

/-- The first entry of the shift queue ends: it leaves the queue and the next starts; a receive shift leaves its bits in the RX FIFO, packed in line
order (R365). -/
def Sys2Proof.Claims.ShiftEntryEnds : Prop :=
  ∀ (p : Fin 1024) (r : ShiftResult) (e : ShiftEntry) (rest : List ShiftEntry) (s : State), cellOn s p = true → (cell s p).queue = e :: rest →
    (cell s p).burst = none →
    let u := advanceTo ((cell s p).entryAt + entryFclk s p e r) s
    ∃ t, exec (.shiftEntryEnd p r) s = .next t ∧ (cell t p).queue = (cell u p).queue.drop 1 ∧ (cell t p).entryGot = 0 ∧ (cell t p).entryTx = [] ∧
      (cell t p).lineGot = 0 ∧ (cell t p).entryAt = u.fclk ∧ t.mem = u.mem ∧ t.facets = u.facets ∧
      (∀ v, e = .shift v → bit v 12 = false → bit v 13 = true → (cell u p).span = none →
        let bits := (shiftRead u p v r).1
        (cell u p).rx.length + bits.length / 8 + 1 ≤ 256 →
        (cell t p).rx = (cell u p).rx ++ packBits (cellMsbf u p) (bits.length + 1) bits ∧ (cell t p).tx = (cell u p).tx) ∧
      (∀ v, e = .shift v → bit v 12 = true → bit v 13 = false →
        (cell t p).tx = (cell u p).tx.drop ((fld v 0 12 + 7) / 8 - (cell u p).entryTx.length) ∧ (cell t p).rx = (cell u p).rx ∧
          (cell t p).lost = (shiftLost u p v r).isSome) ∧
      (∀ v, e = .span v → fld v 0 4 ≤ 1 → (cell t p).stuff = decide (fld v 0 4 = 0) ∧ (cell t p).rx = (cell u p).rx)

/-- Power feeds: a legal switch-on starts blanking, an illegal one is refused; off turns the gate off; a sample is shown with its peak; a trip waits to
retry or latches off with its cause; a read of the measurement starts the peak again (R353 to R355). -/
def Sys2Proof.Claims.PowerFeeds : Prop :=
  ∀ (b : Fin 64) (f : Fin 4) (s : State), feedOn s b = true →
    (∀ v, feedLocked s b f = false → feedState s b f = 0 ∨ feedState s b f = 4 → feedRefused (rset (fctl b f) (v &&& 0xFFFFFFFE) s) b f = false →
      ∃ t, exec (.feedSwitchOn b f v) s = .next t ∧ feedState t b f = 1 ∧ rbit t (fctl b f) 0 = true ∧ (feed t b f).acc = 0 ∧
        (feed t b f).retries = fld v 4 4 ∧ (feed t b f).till = s.fclk + fld v 16 16 * msFclk ∧ t.out = s.out ++ [.gate b f true] ∧ t.mem = s.mem) ∧
    (∀ v, feedLocked s b f = false → feedState s b f = 0 ∨ feedState s b f = 4 → feedRefused (rset (fctl b f) (v &&& 0xFFFFFFFE) s) b f = true →
      ∃ t, exec (.feedSwitchOn b f v) s = .next t ∧ feedState t b f = feedState s b f ∧ rbit t (fctl b f) 0 = false ∧ rbit t (pfdReg b 0) 24 = true) ∧
    (∀ v, feedLocked s b f = false → ∃ t, exec (.feedSwitchOff b f v) s = .next t ∧ feedState t b f = 0 ∧ rbit t (fctl b f) 0 = false ∧
      t.out = s.out ++ (if gateLevel (feedState s b f) then [.gate b f false] else []) ∧ offRegs { t with out := [] } = offRegs { s with out := [] }) ∧
    (∀ v, feedLocked s b f = true → exec (.feedSwitchOn b f v) s = .next s ∧ exec (.feedSwitchOff b f v) s = .next s) ∧
    (∀ (i vout : BitVec 16), let u := advanceTo (nextMultiple sampleFclk s.fclk) s
      ∃ t, exec (.feedSample b f i vout) s = .next t ∧ rfld t (fmeas b f) 0 16 = i.toNat ∧ rfld t (fmeas b f) 32 16 = vout.toNat ∧
        rfld t (fmeas b f) 16 16 = max i.toNat (rfld u (fmeas b f) 16 16) ∧ t.mem = u.mem) ∧
    (feedState s b f = 1 ∨ feedState s b f = 2 → ∃ t, exec (.hardLimitTrip b f) s = .next t ∧ rfld t (pfdReg b 0) (4 * f) 4 = 1 ∧
      rbit t (pfdReg b 0) (16 + f) = true ∧ feedState t b f = (if 0 < (feed s b f).retries then 3 else 4) ∧ t.out = s.out ++ [.gate b f false] ∧
      t.mem = s.mem) ∧
    (feedState s b f = 3 → let u := advanceTo (feed s b f).till s
      ∃ t, exec (.feedRetry b f) s = .next t ∧ feedState t b f = 1 ∧ (feed t b f).retries = (feed u b f).retries - 1 ∧ (feed t b f).acc = 0 ∧
        (feedState u b f = 3 → t.out = u.out ++ [.gate b f true]) ∧ t.mem = u.mem) ∧
    (∃ t, exec (.pfdFmeasRead b f) s = .next t ∧ t.out = s.out ++ [.value (rget s (fmeas b f)).toNat] ∧ rfld t (fmeas b f) 16 16 = 0 ∧
      rfld t (fmeas b f) 0 16 = rfld s (fmeas b f) 0 16 ∧ t.mem = s.mem)

/-- Coprocessor operations on a cell: TXB, RXB, the shift queue, CRD, CWR and FLUSH; a locked cell makes the thread fault 3 (R360, R364, R365,
R378). -/
def Sys2Proof.Claims.CoprocessorCellOperations : Prop :=
  ∀ (i : Fin 1024) (k : Fin 16) (v : BitVec 16) (s : State),
    let p := copCell i k
    let c := cell s p
    (mayTouch i k s →
      (∃ t, exec (.txb i k v) s = .next t ∧ cell t p = { c with tx := c.tx ++ [v.setWidth 8].take (256 - c.tx.length) } ∧
        (c.tx.length < 256 → onlyCell p s t) ∧ (256 ≤ c.tx.length → rbit t (cellReg p 0x30) 2 = true)) ∧
      (∀ d : Fin 16, ∃ t, exec (.rxb i k d) s = .next t ∧ cell t p = { c with rx := c.rx.drop 1 } ∧
        mreg (thread t i) d = (if d = 0 then 0 else BitVec.ofNat 16 ((c.rx.head?).getD 0).toNat) ∧ t.mem = s.mem ∧ (c.rx = [] → rbit t (cellReg p 0x30) 1 = true)) ∧
      (cellEn s p = true → c.queue.length < 8 →
        (fld v 0 12 ≠ 0 → ∃ t, exec (.shift i k v) s = .next t ∧ (cell t p).queue = c.queue ++ [.shift v] ∧ onlyCell p s t) ∧
        (∃ t, exec (.span i k v) s = .next t ∧ (cell t p).queue = c.queue ++ [.span v] ∧ onlyCell p s t) ∧
        (∃ t, exec (.padset i k v) s = .next t ∧ (cell t p).queue = c.queue ++ [.pads v] ∧ onlyCell p s t)) ∧
      (∀ x : Fin 64, exec (.cwr i k x v) s = .next (copCwr (i / 16) p x v s)) ∧
      (∃ t, exec (.flush i k v) s = .next t ∧ (bit v 0 = true → (cell t p).tx = c.tx.drop 256) ∧ (bit v 0 = false → (cell t p).tx = c.tx) ∧
        (cell t p).rx = (if bit v 1 then [] else c.rx) ∧ (cell t p).queue = (if bit v 2 then [] else c.queue) ∧ t.mem = s.mem)) ∧
    (copGate s i = true → ∀ (x : Fin 64) (d : Fin 16), ∃ t, exec (.crd i k x d) s = .next t ∧ onlyThread i s t ∧
      mreg (thread t i) d = (if d = 0 then 0 else BitVec.ofNat 16 (fld (cellRead s p (x / 4 * 8)) (16 * (x % 4)) 16))) ∧
    (copGate s i = true → ¬ mayTouch i k s → ∃ t, exec (.txb i k v) s = .next t ∧ thread t i = { thread s i with state := 3, fcause := 3 } ∧ t.cells = s.cells)

/-- Coprocessor operations on the thread: the report buffer, the command queue, the micro-timer, the event mask, attention and the hatband source
(R364, R367, R369, R370). -/
def Sys2Proof.Claims.CoprocessorThreadOperations : Prop :=
  ∀ (i : Fin 1024) (v : BitVec 16) (s : State), copGate s i = true →
    let x := thread s i
    (∃ t, exec (.rstamp i v) s = .next t ∧ onlyThread i s t ∧ (thread t i).report = x.report ∧
      (∀ q, x.snap[fld v 0 1]? = some q → thread t i = { x with stamp := some q }) ∧
      (x.snap[fld v 0 1]? = none → thread t i = { x with stamp := some (0, 0) })) ∧
    (x.report.length < 64 → ∃ t, exec (.rput i v) s = .next t ∧ onlyThread i s t ∧ thread t i = { x with report := x.report ++ [v.setWidth 8] }) ∧
    (64 ≤ x.report.length → ∃ t, exec (.rput i v) s = .next t ∧ offRegs t = offRegs s ∧
      rfld t (blkReg (i / 16) (0x110 + 32 * (i % 16))) 0 32 = min (2 ^ 32 - 1) (rfld s (blkReg (i / 16) (0x110 + 32 * (i % 16))) 0 32 + 1)) ∧
    (∃ t, exec (.rclr i) s = .next t ∧ onlyThread i s t ∧ thread t i = { x with report := [], stamp := none }) ∧
    (∀ d : Fin 16, ∃ t, exec (.cmdb i d) s = .next t ∧ onlyThread i s t ∧ (thread t i).cmds = x.cmds.drop 1 ∧
      mreg (thread t i) d = (if d = 0 then 0 else ((x.cmds.head?).getD 0).setWidth 16)) ∧
    (∃ t, exec (.tmr i v) s = .next t ∧ onlyThread i s t ∧
      thread t i = { x with timer := some (s.fclk + fld v 0 15 * (if bit v 15 then 4 else 1200)), expired := false }) ∧
    (∃ t, exec (.evmask i v) s = .next t ∧ onlyThread i s t ∧ thread t i = { x with mask := v }) ∧
    (∃ t, exec (.attn i) s = .next t ∧ rbit t (blkReg (i / 16) 0x10) (32 + i % 16) = true ∧ t.threads = s.threads ∧ t.mem = s.mem) ∧
    (exec (.hsig i) s = .next (raiseHat (0x2000 + i / 16) s)) ∧
    (∀ k : Fin 16, sesAccepts s (i / 16) = true → ∃ t r, exec (.rsend i k v) s = .next t ∧ t.ses = { s.ses with queue := s.ses.queue ++ [r] } ∧
      r.data = x.report ∧ r.cell = copCell i k ∧ r.sub = fld v 0 12 ∧ r.at_ = s.fclk + 36 ∧ r.blk = i / 16 ∧
      thread t i = { x with report := [], stamp := none } ∧ t.mem = s.mem) ∧
    (∀ k : Fin 16, sesAccepts s (i / 16) = false → ∃ t, exec (.rsend i k v) s = .next t ∧ t.ses = s.ses ∧ thread t i = { x with report := [], stamp := none })

/-- Threads: a control word issues in the next slot of a running thread, and an addition writes its result, its flags and the next address, which land
at the end of its BCLK, 4 FCLK later; an
uncorrectable word stops the thread with fault 4; a parked thread wakes with the events taken; the micro-timer expires; START and STOP (R358 to R363,
R367, R368, R371, R372, R359). -/
def Sys2Proof.Claims.BlockerThreads : Prop :=
  ∀ (i : Fin 1024) (s : State), spineOn s (i / 16) = true →
    (∀ (b : Fin 64) (errs : Fin 3) n, nextOwned s b (freeSlot s b) (fun t => (thread s (16 * b.val + t)).state == 1) = some n →
      i.val = 16 * b.val + slotOwner s b n → wordReserved (wordAt s b (thread s i)) = false →
      let a := advanceTo (bclkFclk s b n) s
      let u := setBlocker b { blocker a b with nextSlot := n + 1 } a
      let w := wordAt u b (thread u i)
      let x := thread u i
      let l := mreg x (fld w 20 4)
      let r := if fld w 16 4 = 0 then BitVec.ofNat 16 (fld w 0 16) else mreg x (fld w 16 4)
      ∃ t, exec (.controlWordIssue b errs) s = .next t ∧ t = issueWord i errs u ∧
        (errs = 2 → (thread t i).state = 3 ∧ (thread t i).fcause = 4 ∧ (thread t i).m = x.m) ∧
        (errs = 0 → fld w 28 4 = 2 → fld w 32 5 = 0 → fld w 53 6 = 0 → fld w 59 3 = 0 → fld w 62 2 = 0 →
          let y := thread (advanceTo (u.fclk + 4) u) i
          (thread t i).pc = y.pc + 1 ∧ mreg (thread t i) (fld w 24 4) = (if fld w 24 4 = 0 then 0 else l + r) ∧
          (thread t i).z = (l + r == 0) ∧ (thread t i).c = decide (65536 ≤ l.toNat + r.toNat) ∧ (thread t i).stack = y.stack)) ∧
    (∀ n, nextOwned s (i / 16) (max (freeSlot s (i / 16)) (bclkAt s (i / 16) ((thread s i).latchAt + 7))) (· == i.val % 16) = some n →
      (thread s i).state = 2 → ((thread s i).latch &&& (thread s i).mask ≠ 0 ∨ (thread s i).wake = true) →
      let b := advanceTo (bclkFclk s (i / 16) n) s
      let a := advanceTo (b.fclk + 4) (setBlocker (i / 16) { blocker b (i / 16) with nextSlot := n + 1 } b)
      ∃ t, exec (.parkWake i) s = .next t ∧ (thread t i).state = 1 ∧ (thread t i).wake = false ∧
        mreg (thread t i) 15 = (thread a i).latch &&& (thread a i).mask ∧ t.mem = a.mem) ∧
    (∀ d, (thread s i).timer = some d → let u := advanceTo d s
      ∃ t, exec (.microTimerExpiry i) s = .next t ∧ (thread t i).timer = none ∧ (thread t i).expired = true ∧ (thread t i).m = (thread u i).m ∧ t.mem = u.mem) ∧
    (threadLocked s i = false → (thread s i).state = 0 ∨ (thread s i).state = 3 → ∃ t, exec (.blkTstart i) s = .next t ∧ onlyThread i s t ∧
      (thread t i).state = 1 ∧ (thread t i).pc = BitVec.ofNat 11 (rfld s (blkReg (i / 16) (0x100 + 32 * (i % 16))) 16 11) ∧ (thread t i).m = [] ∧
      (thread t i).stack = []) ∧
    (threadLocked s i = false → (thread s i).state = 1 → exec (.blkTstop i) s = .next (w1sWrite (blkReg (i / 16) (0x100 + 32 * (i % 16))) 1 s)) ∧
    (threadLocked s i = false → (thread s i).state = 2 → ∃ t, exec (.blkTstop i) s = .next t ∧ onlyThread i s t ∧ thread t i = { thread s i with state := 0 }) ∧
    (threadLocked s i = true → exec (.blkTstart i) s = .next s ∧ exec (.blkTstop i) s = .next s)

/-- The slot wheel and the banks: a wheel value waits for the wheel's start and then takes effect; a copy makes the other bank equal to the live one;
a swap arms, and once all threads have switched the other bank is live (R358, R373, R374, R378). -/
def Sys2Proof.Claims.BlockerBanks : Prop :=
  ∀ (b : Fin 64) (s : State), spineOn s b = true →
    (∀ v, wheelLocked s b v = false → exec (.blkWheelWrite b v) s = .next (setBlocker b
      { blocker s b with wheel := some v, wheelAt := bclkAt s b s.fclk / 16 * 16 + 16 } s)) ∧
    (∀ v, wheelLocked s b v = true → ∃ t, exec (.blkWheelWrite b v) s = .next t ∧ t.blockers = s.blockers ∧ rbit t (blkReg b 0x10) 3 = true) ∧
    (∀ v, (blocker s b).wheel = some v → let u := advanceTo (bclkFclk s b (blocker s b).wheelAt) s
      ∃ t, exec (.wheelChange b) s = .next t ∧ rget t (blkReg b 0x20) = v ∧ (blocker t b).wheel = none ∧ t.mem = u.mem ∧ t.threads = u.threads) ∧
    (rbit s (blkReg b 0) 1 = false → exec (.blkCopy b) s = .next (w1sWrite (blkReg b 0) 2 s)) ∧
    (rbit s (blkReg b 0) 2 = true → Memory.wf s.mem = true → ∃ t, exec (.blkCopyDone b) s = .next t ∧
      rbit t (blkReg b 0) 2 = s.sets.contains (blkReg b 0, 2) ∧
      (∀ i, i < 0x4000 → byteAt t (blkBank b (!blkLive s b) + i) = byteAt s (blkBank b (blkLive s b) + i)) ∧
      (∀ a, a < blkBank b (!blkLive s b) ∨ blkBank b (!blkLive s b) + 0x4000 ≤ a → byteAt t a = byteAt s a)) ∧
    (s.tb.tick + 4096 ≤ (rget s (blkReg b 8)).toNat → rbit s (blkReg b 0) 1 = false → rbit s (blkReg b 0) 2 = false →
      ∃ t, exec (.blkSwaparm b) s = .next t ∧ rbit t (blkReg b 0) 1 = true ∧ offRegs t = offRegs s) ∧
    (rbit s (blkReg b 0) 1 = true → rbit s (blkReg b 0x10) 1 = false → let a := advanceTick (rget s (blkReg b 8)).toNat s
      let u := advanceTo ((a.fclk + 3) / 4 * 4) a
      ∃ t, exec (.blkSwapPoint b) s = .next t ∧ t.mem = u.mem ∧
        ((∀ i, i < 16 → (thread u (16 * b + i)).state ≠ 1) →
          blkLive t b = (!blkLive u b) ∧ rbit t (blkReg b 0) 1 = false ∧ rbit t (blkReg b 0x10) 1 = false ∧ rbit t (blkReg b 0x10) 0 = true))

namespace Sys2Proof.Claims
open Sys2Proof Sys2Proof.Machine

/-- The bytes at `a` are `bs`, and every other byte is as it was. -/
def stored (a : Nat) (bs : List Byte) (s t : State) : Prop :=
  (∀ i, i < bs.length → byteAt t (a + i) = bs.getD i 0) ∧ ∀ x, x < a ∨ a + bs.length ≤ x → byteAt t x = byteAt s x
/-- The `n` bytes at `b` are a copy of those at `a`, and every other byte is as it was. -/
def copied (a b n : Nat) (s t : State) : Prop :=
  (∀ i, i < n → byteAt t (b + i) = byteAt s (a + i)) ∧ ∀ x, x < b ∨ b + n ≤ x → byteAt t x = byteAt s x

/-- A report that session `n` is to have: it advances the session's number; where the ring's capability holds and the ring is not full, its
record is written and waits for its publication; where the ring is full, it is counted as lost. -/
def Recorded (r : Report) (n : Nat) (v t : State) : Prop :=
  let a := recordAddr v n
  let seq := ctxFld v n 0x20 32 32
  let w := ctxPut n 0x20 32 32 (seq + 1) v
  ringOk v n a = true →
    (ringFull v n = false → t = writeMem .steward a (recordBytes r seq (ctxFld w n 0 30 18) w.tb.tick)
      (setSes { w.ses with pubs := w.ses.pubs ++ [⟨n, r.stamp.getD 0, a⟩] } w)) ∧
    (ringFull v n = true → t = ctxPut n 0x20 0 32 (ctxFld w n 0x20 0 32 + 1) (rsat (sesReg 0x10) 32 16 1 w))

/-- Reports start in arrival order, and go to the session that the live routes name, to session 0, or to another package. -/
def ReportsStart : Prop :=
  ∀ (r : Report) (s : State), firstReport s = some r → rbit s (sesReg 0) 3 = true → sesOn s = true →
    let u := advanceTo (max r.at_ (s.ses.last + 64)) s
    let v := setSes { u.ses with queue := u.ses.queue.erase r, last := u.fclk } u
    let route := lookup v (routeKey r.pkg r.cell r.sub)
    ∃ t, exec .reportStart s = .next t ∧
      (r.sub = 0xFFF → Recorded r 0 v t) ∧
      (r.sub ≠ 0xFFF → route = none → Recorded r 0 (rsat (sesReg 0x10) 48 16 1 v) t) ∧
      (∀ n, r.sub ≠ 0xFFF → route = some (localPkg v, n) → ctxState v n = 1 → Recorded r n v t) ∧
      (∀ n, r.sub ≠ 0xFFF → route = some (localPkg v, n) → ctxState v n ≠ 1 → Recorded r 0 (rsat (sesReg 0x10) 48 16 1 v) t) ∧
      (∀ d n, r.sub ≠ 0xFFF → route = some (d, n) → d ≠ localPkg v → r.fab = false → v.fabric.joined = true → domState v 36 = 1 →
        t = sendFabric 7 0 d (r.stamp.getD 0).toNat (reportPayload r) none v)

/-- A record is published: PROD and the last stamp advance, and the session's event is raised. -/
def ReportsPublish : Prop :=
  ∀ (n : Fin 16384) (p : Publish) (s : State), (s.ses.pubs.find? fun p => p.sess == n.val) = some p → recordWaits s p.addr = false →
    ∃ t, exec (.reportPublish n) s = .next t ∧ ctxFld t n 0x10 0 32 = (ctxFld s n 0x10 0 32 + 1) % 2 ^ 32 ∧
      ctxFld t n 0x28 0 64 = p.stamp.toNat ∧ t.ses.pubs = s.ses.pubs.erase p ∧ t.facets = s.facets ∧
      t.pulses = (if ctxFld s n 0 60 1 = 1 then (raiseEvent (ctxFld s n 0 48 12) s).pulses else s.pulses)

/-- A report frame takes a fabric place and is acknowledged, or is refused with CODE 7. -/
def ReportFrames : Prop :=
  ∀ (fr : FabFrame) (s : State), domState s 36 = 1 → fabBad s fr = false → fr.ty = 7 →
    (tget [] s.fabric.seen fr.spkg.toNat).find? (fun p => p.1 == fr.seq.toNat) = none →
    let room := (s.ses.queue.filter fun r => r.fab).length < 32 ∧ sesOn s = true
    ∃ t, exec (.fabricReportReceive fr) s = .next t ∧ t.mem = s.mem ∧
      (room → t.ses = { s.ses with queue := s.ses.queue ++ [frameReport fr s] } ∧ t.out = s.out ++ [.fabric (fabAnswer s fr 4 0 [])]) ∧
      (¬ room → t.ses = s.ses ∧ t.out = s.out ++ [.fabric (fabAnswer s fr 5 7 [])])

/-- The route banks: copy, arm and swap. -/
def RouteBanks : Prop :=
  ∀ s : State, sesOn s = true →
    (rbit s (sesReg 0) 1 = false → exec .sesCopy s = .next (w1sWrite (sesReg 0) 2 s)) ∧
    (rbit s (sesReg 0) 1 = true → exec .sesCopy s = .next (sesEvt 2 s)) ∧
    (rbit s (sesReg 0) 2 = true → Memory.wf s.mem = true → ∃ t, exec .sesCopyDone s = .next t ∧ rbit t (sesReg 0) 2 = s.sets.contains (sesReg 0, 2) ∧
      copied (bankAddr (sesLive s) 0 0) (bankAddr (1 - sesLive s) 0 0) 0x40000 s t) ∧
    (s.tb.tick + 4096 ≤ (rget s (sesReg 8)).toNat → rbit s (sesReg 0) 1 = false → rbit s (sesReg 0) 2 = false →
      exec .sesSwaparm s = .next (rbitSet (sesReg 0) 1 true s)) ∧
    ((rget s (sesReg 8)).toNat < s.tb.tick + 4096 ∨ rbit s (sesReg 0) 1 = true ∨ rbit s (sesReg 0) 2 = true →
      exec .sesSwaparm s = .next (sesEvt 2 s)) ∧
    (rbit s (sesReg 0) 1 = true → let u := advanceTick (rget s (sesReg 8)).toNat s;
      u.ses.opening = [] → ∃ t, exec .routeSwap s = .next t ∧ sesLive t = 1 - sesLive u ∧ rbit t (sesReg 0) 1 = false ∧
        rbit t (sesReg 0x10) 0 = true ∧ (u.ses.closing = [] → t.mem = u.mem) ∧
        (∀ n, u.ses.closing = [n] → ctxState t n = 3 ∧ t.ses.detached = u.ses.detached ++ [(n, u.fclk)] ∧ t.ses.closing = []))

/-- Commands pushed to a thread, and writes to contexts. -/
def CommandsAndContexts : Prop :=
  (∀ (v : BitVec 64) (a : Agent) (s : State), sesOn s = true → a ≠ .loader →
    let p := fld v 48 10
    (p ∉ s.locks.cells → pushRefused s v = false → ∃ t, exec (.sesCmdPush v a) s = .next t ∧ t.mem = s.mem ∧ t.regs = s.regs ∧
      (thread t p).cmds = (thread s p).cmds ++ natBytes (fld v 61 3) (fld v 0 48) ∧ (thread t p).m = (thread s p).m) ∧
    (p ∉ s.locks.cells → pushRefused s v = true → exec (.sesCmdPush v a) s = .next (sesEvt 5 s)) ∧
    (p ∈ s.locks.cells → exec (.sesCmdPush v a) s = .next (sesEvt 3 s))) ∧
  (∀ (n : Fin 16384) (off : Nat) (bs : List (BitVec 8)) (a : Agent) (s : State), sesOn s = true → bs ≠ [] → off + bs.length ≤ 256 →
    (a = .steward → ∃ t, exec (.contextWrite n off bs a) s = .next t ∧
      stored (ctxAddr n off) ((bs.zip (List.range bs.length)).map fun p => p.1 &&& ctxListed (off + p.2)) s t ∧ t.facets = s.facets) ∧
    (a ≠ .steward → 0x80 ≤ off → ∃ t, exec (.contextWrite n off bs a) s = .next t ∧ stored (ctxAddr n off) bs s t ∧ t.facets = s.facets) ∧
    (a ≠ .steward → 0x18 ≤ off → off < 0x1C → off + bs.length ≤ 0x20 →
      ∃ t, exec (.contextWrite n off bs a) s = .next t ∧ stored (ctxAddr n off) (bs.take (0x1C - off)) s t ∧ t.facets = s.facets) ∧
    (a ≠ .steward → off < 0x80 → ¬ (0x18 ≤ off ∧ off < 0x1C ∧ off + bs.length ≤ 0x20) → exec (.contextWrite n off bs a) s = .next (sesEvt 1 s))) ∧
  (∀ (n : Fin 16384) (off : Nat) (bs : List (BitVec 8)) (a : Agent) (s : State), sesOn s = true → 256 < off + bs.length →
    exec (.contextWrite n off bs a) s = .next (sesEvt 1 s))

end Sys2Proof.Claims

/-- Reports and the route banks: a report is routed, recorded, published or counted (R381 to R383, R387, R388); the banks copy and swap (R389);
bytes go to a thread (R390), and contexts are written (R384). -/
def Obligations.SessionEngine : Prop :=
  ReportsStart ∧ ReportsPublish ∧ ReportFrames ∧ RouteBanks ∧ CommandsAndContexts

/-- Endpoints: an attach report opens a session with the identity bound to its signature and puts its route into the shadow bank; a detach closes
the session; after the hold time it is free, and 60 s later the identity returns; a lost package leaves the fabric and its routes fail over
(R391 to R394). -/
def Obligations.EndpointSessions : Prop :=
  (∀ (p : Fin 1024) (sub : BitVec 12) (proto : BitVec 8) (ident : List (BitVec 8)) (s : State), sesOn s = true → rbit s (sesReg 0) 2 = false →
    let run := exec (.endpointAttach p sub proto ident) s
    (p.val ∈ s.locks.cells → run = .next (sesEvt 3 s)) ∧
    let u := fillPool s
    (p.val ∉ s.locks.cells → proto ≠ 7 → attach p sub.toNat proto.toNat ident u = none → run = .next u) ∧
    (∀ t, p.val ∉ s.locks.cells → proto ≠ 7 → attach p sub.toNat proto.toNat ident u = some t → run = .next t) ∧
    (∀ t n e, Memory.wf s.mem = true → attach p sub.toNat proto.toNat ident u = some t →
      let sig := endpointSig (localPkg s) p proto.toNat ident
      detachedOf s sig = none → freeSession s = some n → (s.ses.known.find? fun q => q.1 == sig) = some e →
      ctxState t n = 1 ∧ ctxFld t n 0 30 18 = e.2 % 2 ^ 18 ∧ ctxFld t n 0 12 10 = p ∧ ctxFld t n 0 0 12 = sub.toNat ∧ n ∈ t.ses.opening ∧
        rbit t (sesReg 0) 1 = true ∧ ∃ a, findRoute t (1 - sesLive t) (routeKey (localPkg s) p sub.toNat) = some a ∧
          fld (entryAt t a) 11 14 = n ∧ fld (entryAt t a) 25 8 = localPkg s)) ∧
  (∀ (n : Fin 16384) (s : State), sesOn s = true → Memory.wf s.mem = true → rbit s (sesReg 0) 2 = false → n.val ≠ 0 → ctxState s n = 1 →
    ∃ t, exec (.endpointDetach n) s = .next t ∧ ctxState t n = 2 ∧ n.val ∈ t.ses.closing ∧ rbit t (sesReg 0) 1 = true) ∧
  (∀ (n : Fin 16384) d (s : State), sesOn s = true → (s.ses.detached.find? fun p => p.1 == n.val) = some d →
    let u := advanceTo (d.2 + s.ses.hold * 1000 * msFclk) s
    ∃ t, exec (.sessionHoldExpiry n) s = .next t ∧ ctxState t n = 0 ∧
      t.ses = { u.ses with detached := u.ses.detached.erase d, freed := u.ses.freed ++ [(ctxFld u n 0 30 18, u.fclk)] }) ∧
  (∀ (eid : BitVec 18) f (s : State), (s.ses.freed.find? fun p => p.1 == eid.toNat) = some f →
    let u := advanceTo (f.2 + 60000 * msFclk) s
    ∃ t, exec (.freedIdentityReturn eid) s = .next t ∧ t.ses.freed = u.ses.freed.erase f ∧ t.mem = u.mem ∧
      t.ses.alloc = (if isRegistrar u then sdel u.ses.alloc f.1 else u.ses.alloc)) ∧
  (∀ (pkg : BitVec 8) (s : State), s.fabric.joined = true → pkg.toNat ∈ s.fabric.present → s.pwr.running = true →
    let u := advanceTo (tget 0 s.fabric.heard pkg.toNat + s.fabric.failtime * msFclk) s
    ∃ t, exec (.packageLost pkg) s = .next t ∧ t.fabric.present = sdel u.fabric.present pkg.toNat ∧ rbit t (sesReg 0) 1 = true ∧
      (∀ k r a, u.ses.standby = [(k, r)] → rbit u (sesReg 0) 1 = true → findRoute u (1 - sesLive u) k = some a → fld (entryAt u a) 25 8 = pkg.toNat →
        entryLocked u (entryAt u a) = false → entryAt t a = BitVec.ofNat 64 (routeEntry k (r / 16384) (r % 16384))))

/-- Queue pairs of the steward mailboxes: enabling, disabling, doorbells, fetches, completions and interrupts (R397 to R405, R516). -/
def Obligations.MailboxQueues : Prop :=
  ∀ (q : Fin 16) (s : State),
    (∀ v, qEn s q = false → enableRefused s q (v ||| 1) = false → ∃ t, exec (.queueEnable q v) s = .next t ∧ qcfg t q = (v ||| 1) &&& qcfgMask ∧
      qActive t q = true ∧ qpair t q = {} ∧ sqHead t q = 0 ∧ cqTail t q = 0 ∧ t.mem = s.mem) ∧
    (∀ v, qEn s q = false → enableRefused s q (v ||| 1) = true → ∃ t, exec (.queueEnable q v) s = .next t ∧ qEn t q = false ∧ qBit t q 5 = true ∧
      qActive t q = qActive s q) ∧
    (∀ v, qEn s q = true → qActive s q = true → (qpair s q).flr = false → ∃ t, exec (.queueDisable q v) s = .next t ∧ qEn t q = false ∧
      (qCmds s q = [] → qActive t q = false) ∧ (qCmds s q ≠ [] → qActive t q = true ∧ qBit t q 1 = true)) ∧
    (∀ v, qEn s q = false → exec (.queueDisable q v) s = .next (rset (qreg q 0x10) (v &&& ~~~1 &&& qcfgMask) s)) ∧
    (∀ v, qActive s q = true → fld v 0 12 < sqSize s q →
      exec (.mbxSqtail q v) s = .next (raiseSteward (288 + q) (setQpair q { qpair s q with tail := fld v 0 12 } s))) ∧
    (∀ v, qActive s q = true → sqSize s q ≤ fld v 0 12 → exec (.mbxSqtail q v) s = .next (qSet q 2 true (qSet q 3 true s))) ∧
    (∀ v, qActive s q = false → exec (.mbxSqtail q v) s = .next (qSet q 3 true s) ∧ exec (.mbxCqhead q v) s = .next (qSet q 3 true s)) ∧
    (∀ v, qActive s q = true →
      let n := cqSize s q
      let h := (qpair s q).chead
      let ok := fld v 0 12 < n ∧ (fld v 0 12 + n - h) % n ≤ (cqTail s q + n - h) % n
      (ok → exec (.mbxCqhead q v) s = .next (raiseSteward (288 + q) (setQpair q { qpair s q with chead := fld v 0 12 } s))) ∧
      (¬ ok → exec (.mbxCqhead q v) s = .next (qSet q 2 true (qSet q 3 true s)))) ∧
    (∀ es, nextQueue s = some q.val → burstLength s q ≠ 0 → glebyReady s = true → s.pwr.running = true → fld (qcfg s q) 8 4 ≤ 12 →
      let n := burstLength s q
      ∃ t, exec (.commandFetch q es true) s = .next t ∧ sqHead t q = (sqHead s q + n) % sqSize s q ∧
        t.gly.cmds.map (·.entry) = s.gly.cmds.map (·.entry) ++ (List.range n).map (fun i => es.getD i 0) ∧ t.mem = s.mem) ∧
    (∀ es, nextQueue s = some q.val → burstLength s q ≠ 0 → glebyReady s = true → s.pwr.running = true →
      exec (.commandFetch q es false) s = .next (qSet q 2 true (qSet q 4 true s))) ∧
    (∀ c u, qActive s q = true → cqFull s q = false → s.pwr.running = true → (readyCmd s fun c => c.src == .host q) = some (c, u) →
      (qpair u q).flr = false → bit (qcfg u q) 3 = false → fld (qcfg u q) 16 4 ≤ 12 →
      let d := c.done.getD (0, 0)
      ∃ t, exec (.completionPost q true) s = .next t ∧ cqTail t q = (cqTail u q + 1) % cqSize u q ∧
        t.gly.cmds = u.gly.cmds.filter (fun d => d.id != c.id) ∧
        t.out = u.out ++ [.hostWrite ((rget u (qreg q 8)).toNat + 16 * cqTail u q) (cqEntry u q c.cid d.1 d.2)]) ∧
    (∀ e rest, q = 0 → qActive s q = true → cqFull s q = false → s.pwr.running = true → (readyCmd s fun c => c.src == .host q) = none →
      s.gly.evq = e :: rest → (qpair s q).flr = false → bit (qcfg s q) 3 = false → s.gly.dropped = 0 →
      ∃ t, exec (.completionPost q true) s = .next t ∧ t.gly.evq = rest ∧
        t.out = s.out ++ [.hostWrite ((rget s (qreg q 8)).toNat + 16 * cqTail s q) (cqEntry s q 0xFFFF (0x8000 + e.1) e.2)]) ∧
    (∀ f, (qpair s q).firstAt = some f → bit (qcfg s q) 3 = true → fld (qcfg s q) 40 16 ≠ 0 →
      let u := advanceTo (f + fld (qcfg s q) 40 16 * usFclk) s
      ∃ t, exec (.interruptTimeExpiry q) s = .next t ∧ (qpair t q).count = 0 ∧ (qpair t q).firstAt = none ∧ t.mem = u.mem ∧
        (fld (qcfg u q) 24 6 ∈ u.msixOpen → t.out = u.out ++ [.msix 0 (fld (qcfg u q) 24 6)])) ∧
    (∀ (f : Fin 2) (vec : Fin 64), vec.val < (if f = 0 then 48 else 16) →
      let v := 64 * f.val + vec.val
      ∃ t, exec (.msiXMaskClear f vec) s = .next t ∧ v ∈ t.msixOpen ∧ v ∉ t.msixHeld ∧ t.mem = s.mem ∧
        t.out = s.out ++ (if v ∈ s.msixHeld then [.msix f.val vec.val] else [])) ∧
    (qActive s q = true → s.links.up = true → exec (.completionTimeout q) s = .next (qSet q 2 true (qSet q 4 true (aerError s))))

/-- Events, the heartbeat, time limits, and the request and response rings of the facets (R405, R410, R414 to R417). What RESULT holds of a command
whose time is over is a free value (log entry 3). -/
def Obligations.MailboxEventsAndRequests : Prop :=
  (∀ (cls : Fin 256) (data : BitVec 64) (s : State), cls.val ≤ 0x0C → s.pwr.running = true →
    (bit s.gly.mask cls = false → exec (.asyncEventPost cls data) s = .next s) ∧
    (bit s.gly.mask cls = true → s.gly.evq.length < 256 → exec (.asyncEventPost cls data) s = .next (setGly { s.gly with evq := s.gly.evq ++ [(cls.val, eventResult s cls data)] } s)) ∧
    (bit s.gly.mask cls = true → 256 ≤ s.gly.evq.length → exec (.asyncEventPost cls data) s = .next (setGly { s.gly with dropped := s.gly.dropped + 1 } s))) ∧
  (∀ (data : BitVec 64) (s : State), s.gly.dropped ≠ 0 → s.gly.evq.length < 256 → s.pwr.running = true →
    exec (.asyncEventPost 255 data) s = .next (setGly { s.gly with evq := s.gly.evq ++ [(0xFF, BitVec.ofNat 64 s.gly.dropped)], dropped := 0 } s)) ∧
  (∀ s : State, s.pwr.running = true →
    let u := advanceTo (s.gly.beat + 1188000) s
    ∃ t, exec .heartbeat s = .next t ∧ t.gly.beat = u.fclk ∧ t.pwr.kicked = u.fclk ∧ t.mem = u.mem ∧
      (glebyReady u = true → rfld t (mbxReg 0x800) 0 32 = (rfld u (mbxReg 0x800) 0 32 + 1) % 2 ^ 32)) ∧
  (∀ (id : Nat) (c : Cmd) (s : State), (s.gly.cmds.find? fun c => c.id == id) = some c → c.done = none → s.pwr.running = true →
    let u := advanceTo (c.start.getD c.at_ + cmdLimit c.code * msFclk) s
    exec (.commandTimeout id) s = .next (finishCmd c 11 (drawFree u).1.toNat (abandonWait c (drawFree u).2))) ∧
  (∀ (n : Fin 128) r rest (s : State), (facet s n).reqRing = r :: rest → facetBusy s n = false → (facet s n).respRing.length < 4 → glebyReady s = true →
    s.pwr.running = true → ∃ t, exec (.requestTake n) s = .next t ∧ (facet t n).reqRing = rest ∧ (facet t n).credits = min 4 ((facet s n).credits + 1) ∧
      (facet t n).inProgress = (facet s n).inProgress + 1 ∧ t.mem = s.mem ∧
      t.gly.cmds = s.gly.cmds ++ [{ id := s.gly.nextId, src := .facet n r.2, entry := r.1.setWidth 512, at_ := s.fclk }]) ∧
  (∀ (n : Fin 128) c u (s : State), (readyCmd s fun c => c.ofFacet == some n.val) = some (c, u) → (facet u n).dropResp = 0 → (facet u n).respRing = [] →
    (facet u n).staging.length < 4 →
    let d := c.done.getD (0, 0)
    ∃ t, exec (.responseForward n) s = .next t ∧ (facet t n).staging = (facet u n).staging ++ [respEntry c d.1 d.2] ∧ (facet t n).respRing = [] ∧
      (facet t n).inProgress = (facet u n).inProgress - 1 ∧ t.gly.cmds = u.gly.cmds.filter (fun d => d.id != c.id)) ∧
  (∀ (n : Fin 128) e rest (s : State), (readyCmd s fun c => c.ofFacet == some n.val) = none → (facet s n).respRing = e :: rest → (facet s n).staging.length < 4 →
    ∃ t, exec (.responseForward n) s = .next t ∧ (facet t n).staging = (facet s n).staging ++ [e] ∧ (facet t n).respRing = rest ∧ t.gly = s.gly ∧ t.mem = s.mem)

namespace Sys2Proof.Claims
open Sys2Proof Sys2Proof.Machine

/-- The command that `g` names stands in a queue of Gleby, is of this row, and may start now (R401); what its row brings has arrived. -/
structure Turn (sp : CmdSpec) (g : GIn) (s : State) (c : Cmd) : Prop where
  found : (s.gly.cmds.find? fun c => c.id == g.id) = some c
  code : c.code = sp.code
  turn : mayStart s c = true
  running : s.pwr.running = true
  data : sp.input = true → g.data.length = c.dlen
  link : g.linkOk = true

/-- It passes the checks of entry and principal (R408, R422), nothing that it changes is held by another command (R424), and its buffer does not
lie in a store that is asleep (R249). -/
structure Starts (sp : CmdSpec) (obs : Call → State → List (Nat × Nat)) (g : GIn) (s : State) (c : Cmd) (call : Call) : Prop extends Turn sp g s c where
  entry : checkEntry sp c g s = .inr call
  allowed : sp.mayIssue c call.prin = true
  buffer : bufferOk call = true
  awake : bufferAsleep call s = false
  free : objectsFree s c (obs call s) = true

/-- A command of this row whose fields and objects are as `ok` says starts, and `P` says what it does: `u` is the state in which it acts, `t` the
next state. -/
def Runs (x : GIn → Instr) (sp : CmdSpec) (ok : Call → State → Prop) (obs : Call → State → List (Nat × Nat)) (P : Cmd → Call → State → State → Prop) : Prop :=
  ∀ (g : GIn) (s : State) (c : Cmd) (call : Call), Starts sp obs g s c call → ok call s →
    ∃ t, exec (x g) s = .next t ∧ P c call (touchSession c s) t

def none' (_ : Call) (_ : State) : List (Nat × Nat) := []

/-- The command ends with SUCCESS and RESULT `r`, and its buffer has the bytes `bs`. -/
def succeeds (c : Cmd) (call : Call) (r : Nat) (bs : List Byte) (u : State) : State :=
  finishCmd { c with start := some u.fclk } 0 r (putData call bs u)
/-- It ends with another STATUS and RESULT. -/
def fails (c : Cmd) (st r : Nat) (u : State) : State := finishCmd { c with start := some u.fclk } st r u
/-- It has begun: it waits, and holds objects meanwhile. -/
def begins (c : Cmd) (w : CmdWait) (held : List (Nat × Nat)) (u : State) : State := setCmd { c with start := some u.fclk, wait := w, held := held } u
/-- It returns a list from its START on (R426). -/
def lists (c : Cmd) (call : Call) (start size : Nat) (recs : List (List Byte)) (u : State) : State :=
  let out := (recs.drop start).take (call.dlen / size)
  succeeds c call (out.length + recs.length * 2 ^ 32) out.flatten u
/-- RESULT is a free value (log entry 3). -/
def refusedWith (c : Cmd) (u : State) : State := fails c stRefused (drawFree u).1.toNat (drawFree u).2

/-- The checks of R408 in their order, on EVENT_ENABLE: its STATUS and RESULT where one fails. -/
def ChecksInOrder : Prop :=
  ∀ (g : GIn) (s : State) (c : Cmd), Turn { code := 0x0003, who := [pM, pO], fields := [(0, 8)] } g s c →
    let ends (st r : Nat) : Prop := exec (.eventEnable g) s = .next (fails c st r (touchSession c s))
    (∀ o, c.reservedAt = some o → ends 2 o) ∧
    (c.reservedAt = none → (∀ i, 8 ≤ i → i < 40 → c.param / 2 ^ (8 * i) % 256 = 0) →
      (c.plen < 8 → ends 3 0) ∧
      (∀ q, c.src = .host q → 8 ≤ c.plen → c.plen ≤ 40 → c.dlen = 0 → c.dptr = 0 →
        (c.auth = 0 ∨ session s c.auth = none → ends 5 0) ∧
        (∀ p, c.auth ≠ 0 → session s c.auth = some p → p.prin ≠ 1 → p.prin ≠ 2 → ends 6 0)))

/-- GET_VERSION to ABORT. -/
def SystemCommands : Prop :=
  Runs .getVersion { code := 0x0001, who := [], zero := true, facets := true } (fun _ _ => True) none' (fun c call u t =>
    t = succeeds c call (0x1024 * 2 ^ 48 + 0xB0 * 2 ^ 40 + u.ident.grade.toNat * 2 ^ 32 + 0x0402 * 2 ^ 16 + 0x0207) [] u) ∧
  Runs .getStatus { code := 0x0002, who := [], zero := true, facets := true } (fun _ _ => True) none' (fun c call u t =>
    let b (x : Bool) (i : Nat) : Nat := if x then 2 ^ i else 0
    t = succeeds c call (b (rbit u (mbxReg 0x800) 32) 0 + b (sealActive u) 1 + b u.fabric.joined 2 + b (rbit u (timReg 0x40) 0) 3 + b (rbit u (timReg 0x40) 1) 4
      + localPkg u * 2 ^ 8 + (livePrins u).length * 2 ^ 16 + hostInProgress u * 2 ^ 24 + ddrTop u / 2 ^ 30 * 2 ^ 48) [] u) ∧
  Runs .eventEnable { code := 0x0003, who := [pM, pO], fields := [(0, 8)] } (fun _ _ => True) none' (fun c call u t =>
    t = succeeds c call u.gly.mask.toNat [] (setGly { u.gly with mask := BitVec.ofNat 64 (call.p 0 8) } u)) ∧
  Runs .abort { code := 0x0004, who := [pM, pO], fields := [(0, 1), (2, 2)] }
    (fun call s => call.p 0 1 ≤ 15 ∧ ∀ d, abortTarget call s = some d → call.prin = some pM ∨ call.prin = (session s d.auth).map (·.prin)) none' (fun c call u t =>
      (abortTarget call u = none → t = fails c stNotFound 0 u) ∧
      (∀ d, abortTarget call u = some d → neverAborted d = true → t = succeeds c call 0 [] u) ∧
      (∀ d, abortTarget call u = some d → neverAborted d = false → d.start = none → t = succeeds c call 1 [] (finishCmd d stAborted 0 u)) ∧
      (∀ d, abortTarget call u = some d → neverAborted d = false → d.start ≠ none →
        t = succeeds c call 1 [] (finishCmd d stAborted (drawFree u).1.toNat (abandonWait d (drawFree u).2)))) ∧
  Runs .resetCmd { code := 0x0005, who := [pH, pM], fields := [(0, 1), (1, 1)] }
    (fun call _ => call.p 0 1 ≤ 2 ∧ (call.p 0 1 = 0 → call.p 1 1 ≤ 127) ∧ (call.p 0 1 = 1 → call.p 1 1 ≤ 15))
    (fun call _ => if call.p 0 1 = 0 then [(obFacet, call.p 1 1)] else if call.p 0 1 = 1 then [(obCrown, call.p 1 1)] else []) (fun c call u t =>
      let i := call.p 1 1
      (call.p 0 1 = 0 → inPartition u i = false → t = succeeds c call 0 [] (facetReset i 5 0 u)) ∧
      (call.p 0 1 = 0 → inPartition u i = true → t = fails c stLocked 0 u) ∧
      (call.p 0 1 = 1 → ¬ (sealActive u = true ∧ i = 0) → domState u i ≠ 3 → t = succeeds c call 0 [] (crownReset i 0x21 u)) ∧
      (call.p 0 1 = 1 → sealActive u = true → i = 0 → t = fails c stLocked 0 u) ∧
      (call.p 0 1 = 2 → t = succeeds c call 0 [] u))

/-- Principal sessions and their nonces. -/
def PrincipalCommands : Prop :=
  Runs .authChallenge { code := 0x0008, who := [], zero := true, fields := [(0, 1)], buffer := some (48, 48, 1) } (fun _ _ => True) none' (fun c call u t =>
    let q := freeBytes 6 u
    let id := u.gly.nextNonce
    (hasRoot u (call.p 0 1) = false → t = fails c stNotFound 0 u) ∧
    (hasRoot u (call.p 0 1) = true → 16 ≤ (liveNonces u).length → t = fails c stExhausted 0 u) ∧
    (hasRoot u (call.p 0 1) = true → (liveNonces u).length < 16 → t = succeeds c call id q.1
      (setGly { q.2.gly with nonces := liveNonces q.2 ++ [⟨q.2.gly.nextNonce, call.p 0 1, q.1, q.2.fclk⟩], nextNonce := (q.2.gly.nextNonce + 1) % 2 ^ 32 } q.2))) ∧
  Runs .authOpen { code := 0x0009, who := [], zero := true, fields := [(0, 1), (4, 4)], buffer := some (96, 96, 1), input := true } (fun _ _ => True) none' (fun c call u t =>
    let p := call.p 0 1
    ∀ n, hasRoot u p = true → ((liveNonces u).find? fun n => n.id == call.p 4 4) = some n → pfw u = false →
      let v := setGly { u.gly with nonces := u.gly.nonces.filter fun m => m.id != n.id } u
      let good := Config.verify u.bez.manSerial p (authMessage p n.id n.value) call.data
      let h := u.gly.nextHandle
      let w := audit false 0x0102 p (natBytes 1 p ++ natBytes 2 h) v
      (good = false → t = fails c stSignature 0 v) ∧
      (good = true → (livePrins u).length < 64 → h ≤ 0xFFFF → t = begins c (.lines [nextAudit false v] (600 * 2 ^ 32 + h)) []
        (setGly { w.gly with prins := w.gly.prins ++ [⟨h, p, w.fclk⟩], nextHandle := h + 1 } w))) ∧
  Runs .authClose { code := 0x000A, who := [pH, pM, pO, pI], issuers := true } (fun _ _ => True) none' (fun c call u t =>
    t = succeeds c call 0 [] (setGly { u.gly with prins := u.gly.prins.filter fun p => p.handle != call.auth } u)) ∧
  (∀ (h : BitVec 16) p (s : State), (s.gly.prins.find? fun p => p.handle == h.toNat) = some p → s.pwr.running = true →
    let u := advanceTo (p.at_ + 600000 * msFclk) s
    exec (.principalSessionExpiry h) s = .next (setGly { u.gly with prins := u.gly.prins.filter fun q => q.handle != h.toNat } u)) ∧
  (∀ (id : BitVec 32) n (s : State), (s.gly.nonces.find? fun n => n.id == id.toNat) = some n → s.pwr.running = true →
    let u := advanceTo (n.at_ + 60000 * msFclk) s
    exec (.nonceExpiry id) s = .next (setGly { u.gly with nonces := u.gly.nonces.filter fun m => m.id != id.toNat } u))

/-- CROWN_POWER to SENSORS. -/
def PowerCommands : Prop :=
  Runs .crownPower { code := 0x0101, who := [pM, pO], fields := [(0, 1), (1, 1), (2, 1)] } (fun call _ => call.p 0 1 ≤ 15 ∧ call.p 1 1 ≤ 2 ∧ call.p 2 1 ≤ 1)
    (fun call _ => [(obCrown, call.p 0 1)]) (fun c call u t =>
      let d := call.p 0 1
      let st := call.p 1 1 + 1
      (dLocked u d st = true → t = fails c stLocked 0 u) ∧
      (dLocked u d st = false → t = begins c (.power d st (domState u d - 1)) [(obCrown, d)] (dctlWrite d (BitVec.ofNat 64 (st * 16 + call.p 2 1 * 256)) u))) ∧
  Runs .domainPower { code := 0x0102, who := [pM, pO], fields := [(0, 1), (1, 1), (2, 1)] } (fun call _ => call.p 0 1 ≤ 10 ∧ call.p 1 1 ≤ 1 ∧ call.p 2 1 ≤ 1)
    (fun call _ => (withGroups (domainOf (call.p 0 1))).map fun d => (obGroup, d)) (fun c call u t =>
      let d := domainOf (call.p 0 1)
      let st := if call.p 1 1 = 1 then 1 else 4
      (holdsLocked u d = false → ¬ (d = 36 ∧ st = 4 ∧ u.fabric.joined = true) → t = begins c (.power d st 0) ((withGroups d).map fun d => (obGroup, d))
        (dctlWrite d (BitVec.ofNat 64 (st * 16 + call.p 2 1 * 256)) u)) ∧
      (holdsLocked u d = true → t = fails c stLocked 0 u)) ∧
  Runs .standby { code := 0x0103, who := [pM, pO], fields := [(0, 1), (8, 8)] } (fun call _ => 1 ≤ call.p 0 1 ∧ call.p 0 1 ≤ 3) none' (fun c call u t =>
    let busy := (List.range 16).any fun d => dBusy u d
    (sealActive u = true → t = fails c stLocked 0 u) ∧
    (sealActive u = false → pfw u = false → busy = true → t = fails c stBusy 0 u) ∧
    (sealActive u = false → pfw u = false → busy = false → t = succeeds c call 0 []
      (rput (girdle 0x110) 0 2 (call.p 0 1) (rset (girdle 0x118) (BitVec.ofNat 64 (call.p 8 8)) u)))) ∧
  Runs .powerStatus { code := 0x0104, who := [pM, pO, pI], facets := true, buffer := some (64, 64, 1) } (fun _ _ => True) none' (fun c call u t =>
    t = succeeds c call 0 (((List.range 38).map fun d => BitVec.ofNat 8 (fld (dctlRead u d) 0 3)) ++ List.replicate 26 0) u) ∧
  Runs .sensors { code := 0x0105, who := [pH, pM, pO], fields := [(0, 2)], buffer := some (8, 1048576, 1) } (fun _ _ => True) none' (fun c call u t =>
    t = lists c call (call.p 0 2) 8 ((List.range 58).map fun i => natBytes 8 (rget u (girdle (0x2000 + 8 * i))).toNat) u)

/-- TIME_GET to HAT_SWAP. -/
def TimeCommands : Prop :=
  let tm (_ : Call) (_ : State) : List (Nat × Nat) := [(obTime, 0)]
  let hat (_ : Call) (_ : State) : List (Nat × Nat) := [(obHat, 0)]
  Runs .timeGet { code := 0x0201, who := [pM, pO, pI], facets := true } (fun _ _ => True) none' (fun c call u t => t = succeeds c call u.tb.tick [] u) ∧
  Runs .timeSource { code := 0x0202, who := [pM, pO], fields := [(0, 1), (1, 1), (2, 1), (4, 4)] } (fun call _ => call.p 0 1 ≤ 3 ∧ call.p 1 1 ≤ 1 ∧ call.p 2 1 ≤ 1) tm
    (fun c call u t => t = succeeds c call 0 [] (rput (timReg 0) 0 2 (call.p 0 1) (rput (timReg 0) 6 1 (call.p 1 1) (rput (timReg 0) 7 1 (call.p 2 1)
      (setDisc { u.disc with delay := sgn 32 (call.p 4 4) } u))))) ∧
  Runs .timeStep { code := 0x0203, who := [pM, pO], fields := [(8, 8), (16, 8)] }
    (fun call s => s.tb.tick + 6000 ≤ atOf (call.p 16 8) s ∧ atOf (call.p 16 8) s ≤ s.tb.tick + 9 * secondTicks) tm (fun c call u t =>
      let a := atOf (call.p 16 8) u
      let v := rset (timReg 0x30) (BitVec.ofNat 64 a) (rset (timReg 0x28) (BitVec.ofNat 64 (call.p 8 8)) u)
      (timSrc u = 1 ∨ timSrc u = 3 → t = fails c stWrong 0 u) ∧
      (timSrc u ≠ 1 → timSrc u ≠ 3 → a < 2 ^ 64 → t = begins c (.step a) []
        (rbitSet (timReg 0) 8 true (setTb { v.tb with step := some ((rget v (timReg 0x28)).toInt, a) } v)))) ∧
  Runs .timeRate { code := 0x0204, who := [pM, pO], fields := [(0, 4)] } (fun _ _ => True) tm (fun c call u t =>
    let r := sgn 32 (call.p 0 4)
    (timSrc u = 1 ∨ timSrc u = 3 → t = fails c stWrong 0 u) ∧
    (timSrc u ≠ 1 → timSrc u ≠ 3 → -2147483 ≤ r → r ≤ 2147483 → t = succeeds c call 0 [] (rateWrite (call.p 0 4) u)) ∧
    (timSrc u ≠ 1 → timSrc u ≠ 3 → 2147483 < r ∨ r < -2147483 → t = refusedWith c (rateWrite (call.p 0 4) u))) ∧
  Runs .ptpConfig { code := 0x0205, who := [pM, pO], fields := [(0, 1), (1, 1), (2, 1), (3, 1), (4, 1), (5, 1), (6, 2), (8, 2), (10, 1), (11, 1), (12, 4), (16, 4)] }
    (fun call _ => call.p 1 1 ≤ 1 ∧ -7 ≤ sgn 8 (call.p 5 1) ∧ sgn 8 (call.p 5 1) ≤ 0 ∧ 100 ≤ call.p 6 2 ∧ call.p 6 2 ≤ 1000 ∧ 10 ≤ call.p 8 2 ∧ call.p 8 2 ≤ 1000 ∧
      4 ≤ call.p 10 1 ∧ 2 ≤ call.p 11 1 ∧ call.p 11 1 ≤ 64 ∧ 1000 ≤ call.p 12 4 ∧ call.p 12 4 ≤ 1000000000 ∧ 10 ≤ call.p 16 4 ∧ call.p 16 4 ≤ 10000) tm (fun c call u t =>
      let macs := BitVec.ofNat 8 (call.p 0 1)
      t = succeeds c call 0 [] (setDisc { u.disc with
        enabled := macs, profile := (if call.p 1 1 = 1 then u.disc.profile ||| macs else u.disc.profile &&& ~~~macs), domain := call.p 2 1, prio1 := call.p 3 1,
        prio2 := call.p 4 1, sync := 1000000000 / 2 ^ (0 - sgn 8 (call.p 5 1)).toNat, kp := call.p 6 2, ki := call.p 8 2, lockN := call.p 10 1,
        holdN := call.p 11 1, stepNs := call.p 12 4, lockNs := call.p 16 4 } u)) ∧
  Runs .ptpStatus { code := 0x0206, who := [pM, pO, pI] } (fun _ _ => True) none' (fun c call u t =>
    t = succeeds c call (wrapN 32 ((u.disc.lastOffset * 5).tdiv 6) + (drawFree u).1.toNat % 256 * 2 ^ 32 + rfld u (timReg 0x40) 0 2 * 2 ^ 40
      + u.disc.lastMac * 2 ^ 44) [] (drawFree u).2) ∧
  Runs .timerSet { code := 0x0208, who := [pM, pO], fields := [(0, 2), (2, 1), (3, 1), (4, 4), (8, 8), (16, 4)] }
    (fun call _ => call.p 0 2 ≤ 511 ∧ call.p 2 1 ≤ 1 ∧ call.p 3 1 ≤ 1) tm (fun c call u t =>
      let i := call.p 0 2
      (timerLocked u i = true → t = fails c stLocked 0 u) ∧
      (timerLocked u i = false → 2 ≤ call.p 4 4 → t = succeeds c call 0 [] (setTimWrites (u.timWrites ++ [(i, (0, BitVec.ofNat 64 (call.p 8 8))),
        (i, (8, BitVec.ofNat 64 (call.p 4 4))), (i, (16, BitVec.ofNat 64 (call.p 16 4 * 2 ^ 32 + call.p 2 1 * 2 + call.p 3 1)))]) u))) ∧
  Runs .hatWrite { code := 0x0209, who := [pM, pO], fields := [(0, 1)], buffer := some (8, 524288, 8), input := true }
    (fun call s => rbit s (hatReg 0) 1 = false ∧ call.p 0 1 ≤ 1 ∧ ∀ r ∈ hatRecs call.data, hatRecOut r = false) hat (fun c call u t =>
      let rs := hatRecs call.data
      let b := 1 - hatLive u
      let at_ (r : HatRec) : Nat := hatBankBase b + (if r.sink then 0x7000 else 0) + 2 * r.num
      (rs.any (hatRecLocked u) = true → t = fails c stLocked 0 u) ∧
      (rs.any (hatRecLocked u) = false → rbit u (hatReg 0) 2 = true → t = fails c stWrong 0 u) ∧
      (rs.any (hatRecLocked u) = false → rbit u (hatReg 0) 2 = false → Memory.wf u.mem = true →
        ∃ w, t = succeeds c call (rs.length + rs.length * 2 ^ 32) [] w ∧
          (call.p 0 1 = 0 → ∀ a, (∀ r ∈ rs, a < at_ r ∨ at_ r + 2 ≤ a) → byteAt w a = byteAt u a) ∧
          (∀ r, rs = [r] → (if r.sink then snkListed r.num else srcListed r.num) = true → natAt w (at_ r) 2 = r.val / 0x8000 * 0x8000 + r.val % 4096))) ∧
  Runs .hatSwap { code := 0x020A, who := [pM, pO], fields := [(0, 8)] } (fun call s => rbit s (hatReg 0) 1 = false ∧ s.tb.tick + 6000 ≤ atOf (call.p 0 8) s) hat
    (fun c call u t =>
      let a := atOf (call.p 0 8) u
      (rbit u (hatReg 0) 2 = true → t = fails c stWrong 0 u) ∧
      (rbit u (hatReg 0) 2 = false → a < 2 ^ 64 → t = begins c (.hatSwap a) [] (w1sWrite (hatReg 0) 2 (rset (hatReg 8) (BitVec.ofNat 64 a) u))))

end Sys2Proof.Claims

/-- Gleby's checks in their order, and the system, principal and power commands (R401, R408, R422, R427 to R433, R547). -/
def Obligations.SystemAndPowerCommands : Prop :=
  ChecksInOrder ∧ SystemCommands ∧ PrincipalCommands ∧ PowerCommands

namespace Sys2Proof.Claims
open Sys2Proof Sys2Proof.Machine

/-- GROUP_SET to FEED_STATUS. -/
def PortCommands : Prop :=
  let cellOf (call : Call) (_ : State) : List (Nat × Nat) := [(obCell, call.p 0 2)]
  let blk (call : Call) (_ : State) : List (Nat × Nat) := [(obBlocker, call.p 0 1)]
  Runs .groupSet { code := 0x0301, who := [pM, pO], fields := [(0, 1), (1, 1), (2, 1)] } (fun call _ => call.p 0 1 ≤ 7 ∧ call.p 1 1 ≤ 1 ∧ call.p 2 1 ≤ 1)
    (fun call _ => [(obGroup, 22 + call.p 0 1)]) (fun c call u t =>
      let g := call.p 0 1
      let v := BitVec.ofNat 64 (call.p 2 1 + 2 * call.p 1 1)
      let w := groupWrite g v u
      (holdsLocked u (22 + g) = true → t = fails c stLocked 0 u) ∧
      (holdsLocked u (22 + g) = false → groupUp u g = false → t = fails c stPower 0 u) ∧
      (holdsLocked u (22 + g) = false → groupUp u g = true → rbit (groupWrite g v (rbitSet (grpReg g 8) 18 false u)) (grpReg g 8) 18 = true →
        t = fails c stRefused (rget w (grpReg g 8)).toNat w) ∧
      (holdsLocked u (22 + g) = false → groupUp u g = true → rbit (groupWrite g v (rbitSet (grpReg g 8) 18 false u)) (grpReg g 8) 18 = false →
        t = succeeds c call (rget w (grpReg g 8)).toNat [] w)) ∧
  Runs .probe { code := 0x0302, who := [pM, pO], fields := [(0, 2)] } (fun call _ => call.p 0 2 ≤ 1023) cellOf (fun c call u t =>
    let p := call.p 0 2
    let w := (cellWrite p 0x60 0x8400000000000000 .steward u).2
    (senseDenied u p ≠ 0 → t = fails c (senseDenied u p) 0 u) ∧
    (senseDenied u p = 0 → rbit u (cellReg p 0x60) 62 = false → rbit w (cellReg p 0x60) 62 = true → t = begins c (.measured p 0) [(obCell, p)] w)) ∧
  Runs .cable { code := 0x0303, who := [pM, pO], fields := [(0, 2), (2, 1), (3, 1)] } (fun call _ => call.p 0 2 ≤ 1023 ∧ call.p 2 1 ≤ 1) cellOf (fun c call u t =>
    let p := call.p 0 2
    let w := (cellWrite p 0x60 (BitVec.ofNat 64 (5 * 2 ^ 56 + call.p 2 1 * 2 ^ 60 + call.p 3 1 * 2 ^ 48) ||| 0x8000000000000000) .steward u).2
    (senseDenied u p ≠ 0 → t = fails c (senseDenied u p) 0 u) ∧
    (senseDenied u p = 0 → rbit u (cellReg p 0x60) 62 = false → rbit w (cellReg p 0x60) 62 = true → t = begins c (.measured p 1) [(obCell, p)] w)) ∧
  Runs .bind { code := 0x0304, who := [pM, pO], fields := [(0, 2), (2, 1), (8, 8), (16, 8)], buffer := some (1, 4096, 1), orNone := true, input := true }
    (fun call _ => call.p 0 2 ≤ 1023 ∧ 1 ≤ call.p 2 1 ∧ call.p 2 1 ≤ 10 ∧ (isPairProto (call.p 2 1) = true → call.p 0 2 % 2 = 0) ∧
      rateOk (call.p 2 1) (call.p 8 8) (call.p 16 8) = true ∧ fmtOk (call.p 2 1) (call.p 16 8) = true) (fun call _ => bindObs call) (fun c call u t =>
      let p := call.p 0 2
      let pr := call.p 2 1
      let cells := if isPairProto pr then [p, p + 1] else [p]
      let w := (cellWrite p 0x60 0x8400000000000000 .steward u).2
      (cells.any (cellLocked u) = true ∨ threadLocked u p = true → t = fails c stLocked 0 u) ∧
      (cells.any (cellLocked u) = false → threadLocked u p = false → cellOn u p = false → t = fails c stPower 0 u) ∧
      (cells.any (cellLocked u) = false → threadLocked u p = false → cellOn u p = true → cells.any (cellBound u) = true → t = fails c stWrong 0 u) ∧
      (cells.any (cellLocked u) = false → threadLocked u p = false → cells.any (cellBound u) = false →
        (entryRecord u (blockerOf p) pr).2 ≤ slotsIn (wheelNow u (blockerOf p)) (p % 16) → 0x207 ≤ rfld u (blkReg (blockerOf p) 0x18) 48 16 →
        senseDenied u p = 0 → rbit u (cellReg p 0x60) 62 = false → rbit w (cellReg p 0x60) 62 = true → t = begins c (.measured p 2) (bindObs call)
          (setGly { w.gly with binds := w.gly.binds ++ [(p, ⟨pr, BitVec.ofNat 64 (call.p 8 8), BitVec.ofNat 64 (call.p 16 8), call.data⟩)] } w))) ∧
  Runs .unbind { code := 0x0305, who := [pM, pO], fields := [(0, 2)] } (fun call _ => call.p 0 2 ≤ 1023) cellOf (fun c call u t =>
    let p := call.p 0 2
    (cellLocked u p = true → t = fails c stLocked 0 u) ∧
    (cellLocked u p = false → bindOf u p = none → t = fails c stNotFound 0 u) ∧
    (cellLocked u p = false → bindOf u p ≠ none → t = begins c (.unbinding p) [(obCell, p)] (stopThread p u))) ∧
  Runs .wheel { code := 0x0306, who := [pM, pO], fields := [(0, 1), (8, 8)] } (fun call _ => call.p 0 1 ≤ 63) blk (fun c call u t =>
    let b := call.p 0 1
    let v := BitVec.ofNat 64 (call.p 8 8)
    (wheelLocked u b v = true → t = fails c stLocked 0 u) ∧
    (wheelLocked u b v = false → spineOn u b = true → wheelShort u b v = true → t = fails c stWrong 0 u) ∧
    (wheelLocked u b v = false → spineOn u b = true → wheelShort u b v = false → t = succeeds c call (wheelNow u b).toNat [] (wheelWrite b v u))) ∧
  Runs .threadStatus { code := 0x0307, who := [pH, pM, pO], fields := [(0, 1), (1, 1)], buffer := some (64, 64, 1), orNone := true }
    (fun call _ => call.p 0 1 ≤ 63 ∧ call.p 1 1 ≤ 15) none' (fun c call u t =>
      let x := thread u (16 * call.p 0 1 + call.p 1 1)
      t = succeeds c call (tstatRead x).toNat ((List.range 8).map fun i => natBytes 8 (windowRead x (8 * i)).toNat).flatten u) ∧
  Runs .threadRestart { code := 0x0308, who := [pM, pO], fields := [(0, 1), (1, 1)] } (fun call _ => call.p 0 1 ≤ 63 ∧ call.p 1 1 ≤ 15) blk (fun c call u t =>
    let i := 16 * call.p 0 1 + call.p 1 1
    let idle := (thread u i).state = 0 ∨ (thread u i).state = 3
    (threadLocked u i = true → t = fails c stLocked 0 u) ∧
    (threadLocked u i = false → spineOn u (call.p 0 1) = true → ¬ idle → t = fails c stWrong 0 u) ∧
    (threadLocked u i = false → spineOn u (call.p 0 1) = true → idle → t = succeeds c call 0 [] (startThread i (boundEntry i u)))) ∧
  Runs .feedSet { code := 0x0309, who := [pM, pO], fields := [(0, 1), (1, 1), (4, 4), (8, 2), (10, 2), (12, 2), (16, 4)] }
    (fun call _ => call.p 0 1 ≤ 63 ∧ call.p 1 1 ≤ 3) blk (fun c call u t =>
      let b := call.p 0 1
      let f := call.p 1 1
      let ctl := BitVec.ofNat 64 (call.p 4 4)
      let w := rput (fi2t b f) 0 32 (call.p 16 4) (rset (flim b f) (BitVec.ofNat 64 (call.p 8 2 + call.p 10 2 * 2 ^ 16 + call.p 12 2 * 2 ^ 32))
        (fctlWrite b f ctl .steward u).2)
      let bad := rbit (fctlWrite b f ctl .steward (rbitSet (pfdReg b 0) 24 false u)).2 (pfdReg b 0) 24
      (feedLocked u b f = true → t = fails c stLocked 0 u) ∧
      (feedLocked u b f = false → feedOn u b = false → t = fails c stPower 0 u) ∧
      (feedLocked u b f = false → feedOn u b = true → bad = true → t = fails c stRefused (rget w (pfdReg b 0)).toNat w) ∧
      (feedLocked u b f = false → feedOn u b = true → bad = false → t = succeeds c call (rget w (pfdReg b 0)).toNat [] w)) ∧
  Runs .feedStatus { code := 0x030A, who := [pM, pO, pI], facets := true, fields := [(0, 1), (1, 1)] } (fun call _ => call.p 0 1 ≤ 63 ∧ call.p 1 1 ≤ 3) none'
    (fun c call u t => t = succeeds c call (rget u (fmeas (call.p 0 1) (call.p 1 1))).toNat [] (fmeasRead (call.p 0 1) (call.p 1 1) u))

/-- SES_CONFIG to SES_LIST. -/
def SessionCommands : Prop :=
  Runs .sesConfig { code := 0x0401, who := [pM, pO], fields := [(0, 4)] } (fun call _ => call.p 0 4 ≤ 3600) none' (fun c call u t =>
    t = succeeds c call u.ses.hold [] (setSes { u.ses with hold := call.p 0 4 } u)) ∧
  Runs .sesInfo { code := 0x0402, who := [pM, pO, pI], facets := true, fields := [(0, 2)], buffer := some (136, 136, 1), orNone := true }
    (fun call _ => 1 ≤ call.p 0 2 ∧ call.p 0 2 ≤ 16383) none' (fun c call u t =>
      let n := call.p 0 2
      (ctxState u n = 0 → t = fails c stNotFound 0 u) ∧
      (ctxState u n ≠ 0 → t = succeeds c call (natAt u (ctxAddr n 0) 8) (bytesAt u (ctxAddr n 0) 128 ++ natBytes 8 (if tagAt u (ctxAddr n 0x30) then 1 else 0)) u)) ∧
  Runs .sesRing { code := 0x0403, who := [pM, pO], fields := [(0, 2), (2, 1), (3, 1), (4, 2), (8, 8)] }
    (fun call s => 1 ≤ call.p 0 2 ∧ call.p 0 2 ≤ 16383 ∧ 3 ≤ call.p 2 1 ∧ call.p 2 1 ≤ 15 ∧ call.p 3 1 ≤ 1 ∧ call.p 4 2 ≤ 4095 ∧ call.p 8 8 % 128 = 0 ∧
      grantable s (2 ^ permW) (call.p 8 8) (2 ^ call.p 2 1 * 128) = true) (fun call _ => [(obSession, call.p 0 2)]) (fun c call u t =>
      let n := call.p 0 2
      (ctxState u n = 0 → t = fails c stNotFound 0 u) ∧
      (ctxState u n ≠ 0 → call.p 3 1 = 1 → call.p 4 2 ∈ u.locks.events → t = fails c stLocked 0 u) ∧
      (ctxState u n ≠ 0 → ¬ (call.p 3 1 = 1 ∧ call.p 4 2 ∈ u.locks.events) → ∃ v, t = succeeds c call 0 [] (forwardZero n v) ∧
        ringBase v n = call.p 8 8 % 2 ^ 48 ∧ ringLog v n = call.p 2 1 ∧ ctxFld v n 0 60 1 = call.p 3 1 ∧ ctxFld v n 0 48 12 = call.p 4 2 ∧
        ctxFld v n 0x18 0 32 = ctxFld u n 0x10 0 32 ∧
        ringCap v n = ⟨mkCap (epochOf u call.who) call.who 0 (2 ^ permW) (2 ^ call.p 2 1 * 8) (call.p 8 8), true⟩)) ∧
  Runs .sesClose { code := 0x0404, who := [pM, pO], fields := [(0, 2)] } (fun call s => 1 ≤ call.p 0 2 ∧ call.p 0 2 ≤ 16383 ∧ rbit s (sesReg 0) 2 = false)
    (fun call _ => [(obSession, call.p 0 2)]) (fun c call u t =>
      let n := call.p 0 2
      let locked := cellLocked u (ctxFld u n 0 12 10) = true ∧ ctxFld u n 0 22 8 = localPkg u
      (ctxState u n = 0 → t = fails c stNotFound 0 u) ∧
      (ctxState u n ≠ 0 → locked → t = fails c stLocked 0 u) ∧
      (ctxState u n = 1 → ¬ locked → t = begins c (.closed n) [(obSession, n)] (detach n u)) ∧
      (ctxState u n ≠ 0 → ctxState u n ≠ 1 → ¬ locked → t = begins c (.closed n) [(obSession, n)] u)) ∧
  Runs .sesList { code := 0x0405, who := [pM, pO, pI], fields := [(0, 2)], buffer := some (16, 1048576, 1) } (fun _ _ => True) none' (fun c call u t =>
    t = lists c call (call.p 0 2) 16 (((List.range 16384).filter fun n => ctxState u n != 0).map fun n => bytesAt u (ctxAddr n 0) 8 ++ bytesAt u (ctxAddr n 0x40) 8) u)

/-- FAB_JOIN to FAB_IMPORT. The payload of the frames that FAB_JOIN sends is free. -/
def FabricCommands : Prop :=
  let fab (_ : Call) (_ : State) : List (Nat × Nat) := [(obFabric, 0)]
  Runs .fabJoin { code := 0x0701, who := [pM], fields := [(0, 1), (1, 1), (4, 4)] } (fun _ _ => True) fab (fun c call u t =>
    let n := call.p 0 1
    let peers := call.ext.map fun w => fld w 0 8
    (u.fabric.joined = true → t = fails c stWrong 0 u) ∧
    (u.fabric.joined = false → domGone u 36 = false → peers = [] → ∃ v, t = fails c stFabric 0 v ∧ v.fabric.joined = false ∧ localPkg v = localPkg u) ∧
    (u.fabric.joined = false → domGone u 36 = false → n ∈ peers → ∃ v, t = fails c stFabric 1 v ∧ v.fabric.joined = false ∧ localPkg v = localPkg u) ∧
    (u.fabric.joined = false → domGone u 36 = false → peers ≠ [] → n ∉ peers → ∃ v r, t = succeeds c call r [] v ∧ v.fabric.joined = true ∧
      localPkg v = n ∧ v.fabric.fabid = BitVec.ofNat 32 (call.p 4 4) ∧ v.fabric.present = peers.foldl sadd [] ∧ r = registrar v + deputy v * 2 ^ 8)) ∧
  Runs .fabLeave { code := 0x0702, who := [pM] } (fun _ _ => True) fab (fun c call u t =>
    (u.fabric.joined = false → t = fails c stWrong 0 u) ∧
    (u.fabric.joined = true → ∃ v, t = succeeds c call 0 [] v ∧ v.fabric.joined = false ∧ v.fabric.present = [] ∧ localPkg v = localPkg u ∧ v.mem = u.mem)) ∧
  Runs .fabStatus { code := 0x0703, who := [pM, pO, pI], buffer := some (40, 40, 1) } (fun _ _ => True) none' (fun c call u t =>
    t = succeeds c call (localPkg u) (natBytes 32 ((members u).foldl (fun v p => v + 2 ^ p) 0)
      ++ natBytes 8 (registrar u + deputy u * 2 ^ 8 + localPkg u * 2 ^ 16)) u) ∧
  Runs .fabConfig { code := 0x0704, who := [pM], fields := [(0, 2)] } (fun call _ => 5 ≤ call.p 0 2 ∧ call.p 0 2 ≤ 1000) fab (fun c call u t =>
    t = succeeds c call 0 [] (setFabric { u.fabric with failtime := call.p 0 2 } u)) ∧
  Runs .fabWindow { code := 0x0705, who := [pM, pO], fields := [(0, 1), (1, 1), (2, 1), (4, 2), (8, 8), (16, 4)] }
    (fun call s => call.p 0 1 ≤ 15 ∧ call.p 2 1 ≤ 1 ∧ permBad (call.p 4 2) (call.p 16 4) = false ∧ call.p 8 8 < 2 ^ 48 ∧
      mintDenied s call (call.p 4 2) (call.p 8 8) (call.p 16 4) = false) fab (fun c call u t =>
      let rest := u.fabric.wins.filter fun w => w.win != call.p 0 1
      (call.p 16 4 = 0 → t = succeeds c call 0 [] (setFabric { u.fabric with wins := rest } u)) ∧
      (call.p 16 4 ≠ 0 → t = succeeds c call 0 [] (setFabric { u.fabric with wins :=
        rest ++ [⟨call.p 0 1, if call.p 2 1 = 1 then 256 else call.p 1 1, call.p 4 2, call.p 8 8, 16 * call.p 16 4⟩] } u))) ∧
  Runs .fabStandby { code := 0x0706, who := [pM, pO], buffer := some (16, 65536, 16), input := true } (fun _ _ => True) (fun _ _ => [(obRoutes, 0)]) (fun c call u t =>
    let rs := standbyRecs call.data
    let locked := rs.any fun r => r.1 / 2 ^ 22 == localPkg u && cellLocked u (r.1 / 2 ^ 12 % 1024)
    (locked = true → t = fails c stLocked 0 u) ∧
    (locked = false → t = succeeds c call 0 [] (setSes { u.ses with standby := rs.foldl (fun t r => tput t r.1 r.2) u.ses.standby } u))) ∧
  Runs .fabExport { code := 0x0707, who := [pM, pO], fields := [(0, 1), (1, 1), (2, 2), (4, 1), (8, 4)] }
    (fun call s => call.p 0 1 ≤ 63 ∧ call.p 1 1 ≤ 1 ∧ call.p 2 2 ≤ 4095 ∧ rbit s (hatReg 0) 1 = false) (fun _ _ => [(obHat, 0)]) (fun c call u t =>
      let locked := call.p 0 1 ∈ u.locks.hatExp ∨ (call.p 1 1 = 1 ∧ call.p 2 2 ∈ u.locks.events)
      (locked → t = fails c stLocked 0 u) ∧
      (¬ locked → t = succeeds c call 0 [] (girdlePut (hatBankBase (1 - hatLive u) + 0xD400 + 16 * call.p 0 1)
        (natBytes 16 (call.p 1 1 * 2 ^ 127 + call.p 4 1 * 2 ^ 104 + call.p 2 2 * 2 ^ 64 + call.p 8 4)) u))) ∧
  Runs .fabImport { code := 0x0708, who := [pM, pO], fields := [(0, 1), (2, 2), (4, 2)] } (fun call _ => call.p 0 1 ≤ 1 ∧ call.p 2 2 ≤ 4095 ∧ call.p 4 2 ≤ 4095) fab
    (fun c call u t =>
      let v := BitVec.ofNat 64 (call.p 0 1 * 2 ^ 63 + call.p 4 2 * 2 ^ 16 + call.p 2 2)
      (impLocked u v = true → t = fails c stLocked 0 u) ∧
      (impLocked u v = false → ∃ w, t = succeeds c call 0 [] w ∧ rget w (hatReg 0x18) = v ∧ offRegs w = offRegs u))

end Sys2Proof.Claims

/-- Gleby's commands on time, the hatband, ports, blockers and feeds (R318, R422, R424, R434 to R439). -/
def Obligations.TimeAndPortCommands : Prop := TimeCommands ∧ PortCommands

/-- Gleby's commands on sessions and the fabric (R25 to R27, R394, R422, R440, R441, R451, R452, R530). -/
def Obligations.SessionAndFabricCommands : Prop := SessionCommands ∧ FabricCommands

namespace Sys2Proof.Claims
open Sys2Proof Sys2Proof.Machine

def facetOb (call : Call) (_ : State) : List (Nat × Nat) := [(obFacet, call.p 0 1)]
def crownOb (call : Call) (_ : State) : List (Nat × Nat) := [(obCrown, call.p 0 1)]
/-- A facet that a command may change. -/
def facetOpen (n : Nat) (u : State) : Prop := inPartition u n = false ∧ domGone u (crownOf n) = false ∧ bit (facet u n).ctl 1 = true
/-- The first condition in the way of a command on a halted facet. -/
def facetShut (c : Cmd) (n : Nat) (u t : State) : Prop :=
  (inPartition u n = true → t = fails c stLocked 0 u) ∧
  (inPartition u n = false → domGone u (crownOf n) = true → t = fails c stPower 0 u) ∧
  (inPartition u n = false → domGone u (crownOf n) = false → bit (facet u n).ctl 1 = false → t = fails c stWrong 0 u)

/-- FACET_LOAD: the bytes of the buffer, or those that SRC names, stand in the code store. -/
def FacetLoadCompletes : Prop :=
  ∀ (g : GIn) (s : State) (c : Cmd) (call : Call),
    Starts { code := 0x0501, who := [pM, pO], fields := [(0, 1), (4, 4), (8, 8), (16, 4)], buffer := some (16, 262144, 1), orNone := true, input := true, load := true }
      facetOb g s c call →
    call.p 0 1 ≤ 127 → call.p 4 4 % 16 = 0 → call.p 16 4 % 16 = 0 → call.p 4 4 + call.p 16 4 ≤ 0x40000 →
    (call.p 8 8 = 0 ∨ grantable s (2 ^ permR) (call.p 8 8) (call.p 16 4) = true) →
    let n := call.p 0 1
    let a := call.p 8 8
    let u := touchSession c s
    let q := if a = 0 then (call.data, u) else memoryRead a (call.p 16 4) (mendWords 2 (wordsIn a (call.p 16 4)) u)
    let gone := domGone u (crownOf n) = true ∨ (a ≠ 0 ∧ (crownAt a).any (domGone u) = true)
    (inPartition u n = false → ¬ gone → bit (facet u n).ctl 1 = true →
      exec (.facetLoad g) s = .next (succeeds c call 0 [] (writeMem .steward (codeBase n + call.p 4 4) q.1 (nextWrite q.2)))) ∧
    (inPartition u n = true → exec (.facetLoad g) s = .next (fails c stLocked 0 u)) ∧
    (inPartition u n = false → gone → exec (.facetLoad g) s = .next (fails c stPower 0 u)) ∧
    (inPartition u n = false → ¬ gone → bit (facet u n).ctl 1 = false → exec (.facetLoad g) s = .next (fails c stWrong 0 u))

/-- FACET_RUN: the facet runs with the vector base, context and hold limit given, and a key of its context. -/
def FacetRunCompletes : Prop :=
  ∀ (g : GIn) (s : State) (c : Cmd) (call : Call), Starts { code := 0x0502, who := [pM, pO], fields := [(0, 1), (2, 2), (4, 2), (8, 8)] } facetOb g s c call →
    call.p 0 1 ≤ 127 → call.p 2 2 ≤ 4095 → (call.p 4 2 = 0 ∨ 64 ≤ call.p 4 2) →
    let n := call.p 0 1
    let u := touchSession c s
    (facetOpen n u → ∃ w, exec (.facetRun g) s = .next (succeeds c call 0 [] w) ∧ onlyFacet n (drawFree u).2 w ∧
      (facet w n).ctl = ((facet u n).ctl ||| 1) &&& ~~~2 ∧ (facet w n).xvb = BitVec.ofNat 64 (call.p 8 8) &&& 0x3F001 ∧
      (facet w n).ctx = BitVec.ofNat 64 (call.p 2 2) ∧ (facet w n).g = (facet u n).g ∧ (facet w n).pc = (facet u n).pc ∧
      (facet w n).holdmax = (if call.p 4 2 = 0 then (facet u n).holdmax else BitVec.ofNat 64 (call.p 4 2)) ∧
      ∃ i, i < 16 ∧ bit (tget 0 (facet w n).pkey i) 63 = true ∧ fld (tget 0 (facet w n).pkey i) 48 12 = call.p 2 2) ∧
    ∃ t, exec (.facetRun g) s = .next t ∧ facetShut c n u t

/-- FACET_HALT clears RUN and waits for HALTED; FACET_REPORT returns the latched report and frees the latch; FACET_REGS reads the register image, or
writes it up to a register that is refused; CROWN_MODE changes the mode of a quiet crown. -/
def FacetStateCommands : Prop :=
  (∀ (g : GIn) (s : State) (c : Cmd) (call : Call), Starts { code := 0x0503, who := [pM, pO], fields := [(0, 1)] } facetOb g s c call → call.p 0 1 ≤ 127 →
    let n := call.p 0 1
    let u := touchSession c s
    (inPartition u n = false → domGone u (crownOf n) = false →
      exec (.facetHalt g) s = .next (begins c (.halt n) [(obFacet, n)] (updFacet n (fun f => { f with ctl := setBit f.ctl 0 false }) u))) ∧
    (inPartition u n = true → exec (.facetHalt g) s = .next (fails c stLocked 0 u))) ∧
  (∀ (g : GIn) (s : State) (c : Cmd) (call : Call),
    Starts { code := 0x0504, who := [pM, pO, pI], fields := [(0, 1)], buffer := some (64, 64, 1) } none' g s c call → call.p 0 1 ≤ 127 →
    let n := call.p 0 1
    let st := crownReg (crownOf n) 0x300
    let at_ (i : Nat) : Nat := crownReg (crownOf n) (0x100 + n % 8 * 0x40 + 8 * i)
    let u := touchSession c s
    (rbit u st (n % 8) = true → exec (.facetReport g) s = .next (succeeds c call (rfld u (at_ 0) 8 8 + (if rbit u st (8 + n % 8) then 2 ^ 8 else 0))
      ((List.range 8).map fun i => natBytes 8 (rget u (at_ i)).toNat).flatten (rw1c st (BitVec.ofNat 64 (257 * 2 ^ (n % 8))) (BitVec.allOnes 64) u))) ∧
    (rbit u st (n % 8) = false → exec (.facetReport g) s = .next (fails c stNotFound 0 u))) ∧
  (∀ (g : GIn) (s : State) (c : Cmd) (call : Call), call.p 0 1 ≤ 127 → call.p 1 1 ≤ 1 →
    Starts { code := 0x0505, who := [pM], fields := [(0, 1), (1, 1)], buffer := some (8192, 8192, 1), input := paramByte s g.id 1 == 1 }
      (fun call _ => if call.p 1 1 = 1 then [(obFacet, call.p 0 1)] else []) g s c call →
    let n := call.p 0 1
    let u := touchSession c s
    let r := writeImage n call.data ((List.range 1024).map (8 * ·)) u
    (call.p 1 1 = 0 → exec (.facetRegs g) s = .next (succeeds c call 0 (regImage u n) u)) ∧
    (call.p 1 1 = 1 → facetOpen n u → r.1 = none → exec (.facetRegs g) s = .next (succeeds c call 0 [] r.2)) ∧
    (∀ o, call.p 1 1 = 1 → facetOpen n u → r.1 = some o → exec (.facetRegs g) s = .next (fails c stRefused o r.2)) ∧
    (call.p 1 1 = 1 → ∃ t, exec (.facetRegs g) s = .next t ∧ facetShut c n u t)) ∧
  (∀ (g : GIn) (s : State) (c : Cmd) (call : Call), Starts { code := 0x0506, who := [pM], fields := [(0, 1), (1, 1)] } crownOb g s c call →
    call.p 0 1 ≤ 15 → call.p 1 1 ≤ 1 →
    let cr := call.p 0 1
    let u := touchSession c s
    let sealed := sealActive u = true ∧ cr = 0
    (¬ sealed → domGone u cr = false → crownQuiet u cr = true → exec (.crownMode g) s = .next (succeeds c call 0 [] (setCompat cr (call.p 1 1 == 1) u))) ∧
    (¬ sealed → domGone u cr = false → crownQuiet u cr = false → exec (.crownMode g) s = .next (fails c stBusy 0 u)) ∧
    (sealed → exec (.crownMode g) s = .next (fails c stLocked 0 u)))

/-- FACET_LOAD to CROWN_MODE. -/
def FacetCommands : Prop := FacetLoadCompletes ∧ FacetRunCompletes ∧ FacetStateCommands

/-- SCRUB starts a pass and waits for its end; PATROL sets the engines and the period; the patrol scrubs every store. -/
def ScrubCommands : Prop :=
  (∀ (g : GIn) (s : State) (c : Cmd) (call : Call),
    Starts { code := 0x0508, who := [pH, pM, pO], fields := [(0, 1), (1, 1), (2, 1), (4, 2), (6, 2)], buffer := some (16, 16, 1), orNone := true } crownOb g s c call →
    call.p 0 1 ≤ 16 → call.p 1 1 ≤ (if call.p 0 1 = 16 then 31 else 3) → call.p 2 1 ≤ 7 → call.p 4 2 ≤ 2047 → call.p 6 2 ≤ 4095 →
    let k := call.p 0 1
    let u := touchSession c s
    let w := scrubWrite k (scrubValue k (call.p 1 1) (call.p 2 1) (call.p 4 2) (call.p 6 2)) u
    let bad := scrubBadStore k (call.p 1 1) = true ∨ scrubPages k (call.p 1 1) < call.p 4 2 + call.p 6 2 ∨ (integ u k).scrub ≠ none
    (¬ (k < 16 ∧ domGone u k = true) → ¬ bad → exec (.scrub g) s = .next (begins c (.scrub k) [(obCrown, k)] w)) ∧
    (¬ (k < 16 ∧ domGone u k = true) → bad → exec (.scrub g) s = .next (fails c stRefused (rget w (itgU k 8)).toNat w)) ∧
    (k < 16 → domGone u k = true → exec (.scrub g) s = .next (fails c stPower 0 u))) ∧
  (∀ (g : GIn) (s : State) (c : Cmd) (call : Call),
    Starts { code := 0x0509, who := [pM], fields := [(0, 4), (4, 2), (6, 1), (7, 1), (8, 2)] } none' g s c call →
    (call.p 0 4 = 0 ∨ (60 ≤ call.p 0 4 ∧ call.p 0 4 ≤ 86400)) → call.p 6 1 ≤ 1 → call.p 7 1 ≤ 1 →
    let u := touchSession c s
    ∃ w, exec (.patrol g) s = .next (succeeds c call 0 [] w) ∧ w.gly = { u.gly with period := call.p 0 4, policy := call.p 6 1 } ∧ w.mem = u.mem ∧ w.facets = u.facets ∧
      ∀ k, k < 16 → rget w (itgU k 0) = BitVec.ofNat 64 (call.p 4 2 * 2 ^ 48 + call.p 8 2 * 2 ^ 32 + call.p 7 1)) ∧
  (∀ s : State, s.pwr.running = true → s.gly.period ≠ 0 → (∀ u, u < 17 → (integ s u).scrub = none) →
    let u := advanceTo (s.gly.patrolAt + s.gly.period * 1000 * msFclk) s
    ∃ t, exec .patrolScrub s = .next t ∧ t.gly.patrolAt = u.fclk ∧ (u.gly.policy = 0 → ∀ k, k < 17 → rbit t (itgU k 8) 5 = true))

/-- LOG_READ returns entries and may free them; RETIRE starts a retirement and waits for it; TEST_WORD reads or writes the stored bits of a word. -/
def LogAndTestCommands : Prop :=
  (∀ (g : GIn) (s : State) (c : Cmd) (call : Call),
    Starts { code := 0x050A, who := [pH, pM, pO, pI], fields := [(0, 1), (1, 1), (2, 2)], buffer := some (32, 1048576, 1) } none' g s c call →
    call.p 0 1 ≤ 16 → call.p 1 1 ≤ 1 →
    let k := call.p 0 1
    let u := touchSession c s
    let es := (List.range (logSize k)).filter fun e => rbit u (logEntry k e) 63
    let bytes (e : Nat) : List Byte := ((List.range 4).map fun i => natBytes 8 (rget u (logEntry k e + 8 * i)).toNat).flatten
    let got := (es.drop (call.p 2 2)).take (call.dlen / 32)
    exec (.logRead g) s = .next (succeeds c call (got.length + es.length * 2 ^ 32) (got.map bytes).flatten
      (if call.p 1 1 = 1 then got.foldl (fun s e => logFree k e s) u else u))) ∧
  (∀ (g : GIn) (s : State) (c : Cmd) (call : Call), Starts { code := 0x050B, who := [pH, pM], fields := [(0, 1), (1, 1), (2, 1), (4, 2)] } crownOb g s c call →
    call.p 0 1 ≤ 15 → call.p 1 1 ≤ 3 → call.p 2 1 ≤ 7 → call.p 4 2 ≤ 2047 →
    let k := call.p 0 1
    let st := call.p 1 1
    let u := touchSession c s
    let l := pageLin st (call.p 2 1) (call.p 4 2)
    let w := retireWrite k (BitVec.ofNat 64 (2 ^ 63 + st * 2 ^ 60 + call.p 2 1 * 2 ^ 57 + call.p 4 2)) u
    let ok := st ≠ 3 ∧ call.p 4 2 < storePages st ∧ (integ u k).redir.any (fun r => r.1 == l) = false ∧ 1 < (freeSpares u k l).length ∧ (integ u k).retiring = none
    (domGone u k = false → ok → exec (.retire g) s = .next (begins c (.retire k) [(obCrown, k)] w) ∧ (integ w k).retiring = some l) ∧
    (domGone u k = false → ¬ ok → exec (.retire g) s = .next (fails c stRefused (rget w (itgU k 8)).toNat w)) ∧
    (domGone u k = true → exec (.retire g) s = .next (fails c stPower 0 u))) ∧
  (∀ (g : GIn) (s : State) (c : Cmd) (call : Call), call.p 0 1 ≤ 15 → call.p 1 1 ≤ 3 → call.p 2 1 ≤ 2 → call.p 3 1 ≤ 7 → call.p 4 4 < 128 * storePages (call.p 2 1) →
    call.p 8 1 ≤ 1 →
    Starts { code := 0x050C, who := [pH, pM], fields := [(0, 1), (1, 1), (2, 1), (3, 1), (4, 4), (8, 1)], buffer := some (40, 40, 1), input := paramByte s g.id 1 != 0 }
      crownOb g s c call →
    let k := call.p 0 1
    let u := touchSession c s
    let v := BitVec.ofNat 64 (2 ^ 63 + call.p 1 1 * 2 ^ 60 + call.p 2 1 * 2 ^ 58 + call.p 3 1 * 2 ^ 55 + call.p 8 1 * 2 ^ 32 + call.p 4 4)
    let locked := call.p 2 1 ≠ 2 ∧ inPartition u (8 * k + call.p 3 1) = true
    let w := testWrite k v u
    let x (i : Nat) : BitVec 64 := BitVec.ofNat 64 (leAt call.data (8 * i) 8)
    let y := testWrite k v (itgWrite k 0xA0 (x 3) (itgWrite k 0x98 (x 2) (itgWrite k 0x90 (x 1) (itgWrite k 0x88 (x 0) u))))
    (¬ locked → domGone u k = false → call.p 1 1 = 0 → testRefused u k v = false →
      exec (.testWord g) s = .next (succeeds c call 0 (([0x88, 0x90, 0x98, 0xA0].map fun o => natBytes 8 (rget w (itgU k o)).toNat).flatten
        ++ natBytes 8 ((rget w (itgU k 0x80)).toNat / 2 ^ 32 % 4 * 2 ^ 32)) w)) ∧
    (¬ locked → domGone u k = false → call.p 1 1 ≠ 0 → pfw u = false → testRefused u k v = false →
      exec (.testWord g) s = .next (begins c (.lines [nextAudit false u] 0) []
        (audit false 0x0107 call.who (natBytes 1 k ++ natBytes 1 (call.p 2 1) ++ natBytes 4 (call.p 4 4)) y))) ∧
    (¬ locked → domGone u k = false → call.p 1 1 = 0 → testRefused u k v = true → exec (.testWord g) s = .next (fails c stWrong 0 u)) ∧
    (locked → exec (.testWord g) s = .next (fails c stLocked 0 u)))

/-- DRAM_TOUCH starts a fill of every untouched chunk of its range; DRAM_RELEASE waits until no access to its chunks is outstanding. -/
def DramCommands : Prop :=
  (∀ (g : GIn) (s : State) (c : Cmd) (call : Call), Starts { code := 0x050D, who := [pM, pO], fields := [(0, 8), (8, 8)] } none' g s c call →
    call.p 0 8 % 0x200000 = 0 → call.p 8 8 % 0x200000 = 0 → call.p 0 8 + call.p 8 8 ≤ ddrTop s →
    let u := touchSession c s
    let cs := ((List.range (call.p 8 8 / 0x200000)).map (call.p 0 8 / 0x200000 + ·)).filter fun k => !u.touched.contains k
    exec (.dramTouch g) s = .next (begins c (.chunks cs cs.length) [] (setFills (u.fills ++ cs.filter fun k => !u.fills.contains k) u))) ∧
  (∀ (g : GIn) (s : State) (c : Cmd) (call : Call), Starts { code := 0x050E, who := [pM, pO], fields := [(0, 8), (8, 8)] } none' g s c call →
    call.p 0 8 % 0x200000 = 0 → call.p 8 8 % 0x200000 = 0 → call.p 0 8 + call.p 8 8 ≤ ddrTop s → (call.p 8 8 = 0 ∨ 0x10000000 ≤ call.p 0 8) →
    exec (.dramRelease g) s = .next (begins c (.release (call.p 0 8 / 0x200000) (call.p 8 8 / 0x200000)) [] (touchSession c s)))

/-- SCRUB to DRAM_RELEASE, and the patrol. -/
def IntegrityCommands : Prop := ScrubCommands ∧ LogAndTestCommands ∧ DramCommands

/-- CAP_GRANT to CAP_QUERY. -/
def CapabilityCommands : Prop :=
  Runs .capGrant { code := 0x0601, who := [pM, pO], fields := [(0, 1), (1, 1), (2, 1), (4, 2), (6, 2), (8, 8), (16, 4)] }
    (fun call s => call.p 0 1 ≤ 127 ∧ call.p 1 1 ≤ 1 ∧ call.p 2 1 ≤ 15 ∧ (call.p 1 1 = 1 → call.p 2 1 < 14) ∧ permBad (call.p 4 2) (call.p 16 4) = false ∧
      (call.p 6 2 = 0 ∨ (0x8000 < call.p 6 2 ∧ (call.p 4 2).testBit permX = true) ∨ (0 < call.p 6 2 ∧ call.p 6 2 < 0x8000 ∧ (call.p 4 2).testBit permX = false)) ∧
      call.p 8 8 < 2 ^ 48 ∧ mintDenied s call (call.p 4 2) (call.p 8 8) (call.p 16 4) = false ∧
      (call.p 6 2 = 0 ∨ ownerCode call.who = some (call.p 6 2 / 256 % 128)))
    (fun call _ => [(obFacet, call.p 0 1), (obEpoch, call.who)]) (fun c call u t =>
      let n := call.p 0 1
      let k : KReg := ⟨mkCap (epochOf u call.who) call.who (call.p 6 2) (call.p 4 2) (call.p 16 4) (call.p 8 8), true⟩
      facetShut c n u t ∧ (facetOpen n u →
        t = succeeds c call 0 [] (updFacet n (fun f => { f with k := tset {} f.k (kKey (call.p 1 1) (call.p 2 1)) k }) u))) ∧
  Runs .capRevoke { code := 0x0602, who := [pM, pO, pI], fields := [(0, 1)] }
    (fun call _ => call.prin = some (call.p 0 1) ∨ (call.prin = some pM ∧ call.p 0 1 = pO)) (fun call _ => [(obEpoch, call.p 0 1)]) (fun c call u t =>
      let p := call.p 0 1
      let e := epochOf u p
      (e = 255 → t = fails c stExhausted 0 u) ∧
      (e ≠ 255 → pfw u = false → ∃ w, t = begins c (.lines [nextAudit false u] (e + 1)) [] w ∧ epochOf w p = e + 1 ∧ (∀ q, q ≠ p → epochOf w q = epochOf u q) ∧
        w.facets = u.facets)) ∧
  Runs .movBind { code := 0x0603, who := [pM, pO], facets := true, fields := [(0, 2), (2, 1), (4, 2), (8, 8), (16, 4)] }
    (fun call s => call.p 0 2 ≤ 287 ∧ call.p 2 1 ≤ 1 ∧ permBad (call.p 4 2) (call.p 16 4) = false ∧
      call.p 8 8 < (if 272 ≤ call.p 0 2 then 2 ^ 56 else 2 ^ 48) ∧ movBindDeny call s = false)
    (fun call _ => [(obChan, call.p 0 2), (obEpoch, call.who)]) (fun c call u t =>
      let k := call.p 0 2
      let pkg := call.p 8 8 / 2 ^ 48
      let cap (base : Nat) : KReg := ⟨mkCap (epochOf u call.who) call.who 0 (call.p 4 2) (call.p 16 4) base, true⟩
      (k ∈ u.locks.chans → t = fails c stLocked 0 u) ∧
      (k ∉ u.locks.chans → domGone u (chanDomain k) = false → chanState u k ≠ 0 → t = fails c stBusy (rget u (chanReg k 0x100)).toNat u) ∧
      (k ∉ u.locks.chans → domGone u (chanDomain k) = false → chanState u k = 0 →
        (k < 272 → t = succeeds c call 0 [] (putChanCap k (call.p 2 1 == 1) (cap (call.p 8 8)) u)) ∧
        (272 ≤ k → t = succeeds c call 0 [] (putChanCap k (call.p 2 1 == 1) (cap (call.p 8 8 % 2 ^ 48))
          (putFout k (call.p 2 1 == 1) (pkg != localPkg u) pkg u))))) ∧
  Runs .windowOpen { code := 0x0604, who := [pM, pO], fields := [(0, 1), (4, 2), (8, 8), (16, 4)] }
    (fun call s => call.p 0 1 ≤ 15 ∧ permBad (call.p 4 2) (call.p 16 4) = false ∧ call.p 8 8 < 2 ^ 48 ∧ mintDenied s call (call.p 4 2) (call.p 8 8) (call.p 16 4) = false)
    (fun call _ => [(obEpoch, call.who)]) (fun c call u t =>
      let shut := u.gly.wins.any fun w => w.1 == call.p 0 1
      let k : KReg := ⟨mkCap (epochOf u call.who) call.who 0 (call.p 4 2) (call.p 16 4) (call.p 8 8), true⟩
      (shut = true → t = fails c stBusy 0 u) ∧
      (shut = false → t = succeeds c call 0 [] (setGly { u.gly with wins := tput u.gly.wins (call.p 0 1) k } u))) ∧
  Runs .windowClose { code := 0x0605, who := [pM, pO], fields := [(0, 1)] } (fun call _ => call.p 0 1 ≤ 15) none' (fun c call u t =>
    ((u.gly.wins.any fun w => w.1 == call.p 0 1) = true → t = succeeds c call 0 [] (setGly { u.gly with wins := tdel u.gly.wins (call.p 0 1) } u)) ∧
    ((u.gly.wins.any fun w => w.1 == call.p 0 1) = false → t = fails c stNotFound 0 u)) ∧
  Runs .capQuery { code := 0x0606, who := [pM, pO], fields := [(0, 1), (1, 1), (2, 1)], buffer := some (16, 16, 1) }
    (fun call _ => call.p 0 1 ≤ 127 ∧ call.p 1 1 ≤ 1 ∧ call.p 2 1 ≤ 15) none' (fun c call u t =>
      let n := call.p 0 1
      let k := kReg (facet u n) (call.p 1 1) (call.p 2 1)
      (inPartition u n = true → t = fails c stLocked 0 u) ∧
      (inPartition u n = false → t = succeeds c call ((if k.tag then 1 else 0) + (if capEpoch k.cap = epochOf u (capPrin k.cap) then 2 else 0)) (natBytes 16 k.cap.toNat) u))

/-- CONS_LIST to CONS_POLICY. -/
def ConsumableCommands : Prop :=
  let place (call : Call) : Prop := call.p 0 2 ≤ 1023 ∧ call.p 2 1 ≤ 7
  let issuer (call : Call) : Bool := call.prin.any fun p => decide (16 ≤ p ∧ p ≤ 31)
  let led (_ : Call) (_ : State) : List (Nat × Nat) := [(obLedger, 7)]
  Runs .consList { code := 0x0801, who := [pM, pO, pI], issuers := true, fields := [(0, 2)], buffer := some (32, 1048576, 1) } (fun _ _ => True) none' (fun c call u t =>
    let ls := consLines.filter fun l => consUsed u l && (!issuer call || consAt u l 8 1 == call.who)
    t = lists c call (call.p 0 2) 32 (ls.map fun l => bytesAt u (ledgerAddr l 0) 16 ++ natBytes 4 (consLeft u l) ++ natBytes 4 (consLimit u l)
      ++ bytesAt u (ledgerAddr l 0x18) 8) u) ∧
  Runs .consAuth { code := 0x0802, who := [pM, pO], facets := true, fields := [(0, 2), (2, 1)] } (fun call _ => place call) led (fun c call u t =>
    let bs := (call.ext.map fun w => natBytes 8 w.toNat).flatten
    let q := authChip (call.p 0 2) (call.p 2 1) bs u
    (pfw u = false → bs.length < 248 → t = fails c stNotFound 0 u) ∧
    (pfw u = false → 248 ≤ bs.length → q.1 = false → t = fails c stSignature 0 q.2.2) ∧
    (pfw u = false → 248 ≤ bs.length → q.1 = true → t = begins c (.lines q.2.1.toList (1 + leAt bs 16 1 * 2 ^ 8)) [] q.2.2)) ∧
  Runs .consLife { code := 0x0803, who := [pM, pO], issuers := true, facets := true, fields := [(0, 2), (2, 1)] }
    (fun call s => place call ∧ (issuer call = true → ∀ l, chipLine s (call.p 0 2) (call.p 2 1) = some l → consAt s l 8 1 = call.who)) none' (fun c call u t =>
      (chipLine u (call.p 0 2) (call.p 2 1) = none → t = fails c stNotFound 0 u) ∧
      (∀ l, chipLine u (call.p 0 2) (call.p 2 1) = some l → t = succeeds c call (consLeft u l + consLimit u l * 2 ^ 32) [] u)) ∧
  Runs .consUse { code := 0x0804, who := [pO], facets := true, fields := [(0, 2), (2, 1), (4, 4)] } (fun call _ => place call) led (fun c call u t =>
    let n := call.p 4 4
    (chipLine u (call.p 0 2) (call.p 2 1) = none → t = fails c stNotFound 0 u) ∧
    (∀ l, chipLine u (call.p 0 2) (call.p 2 1) = some l → (consState u l = 1 ∨ consState u l = 4) →
      (let short := (policyOf u (consAt u l 8 1) (consAt u l 13 1)).1 = 1 ∧ consLeft u l < n
       (short → t = fails c stWrong 0 u) ∧
       (¬ short → n ≤ consLeft u l → u.fabric.joined = false → pfw u = false → t = begins c (.lines [l] (consLeft u l - n)) []
         (consEdit l [(9, 1, if consLeft u l - n = 0 then 4 else consState u l), (0x10, 4, min (2 ^ 32 - 1) (consAt u l 0x10 4 + n))] u))))) ∧
  Runs .consPolicy { code := 0x0805, who := [], issuers := true, fields := [(0, 1), (1, 1), (4, 4)] } (fun call _ => call.p 1 1 ≤ 1) led (fun c call u t =>
    let l := policyLine call.who (call.p 0 1)
    pfw u = false → ∃ w, t = begins c (.lines [l] 0) [] w ∧
      ((∀ r ∈ consLines, ¬ (consUsed u r = true ∧ consAt u r 8 1 = call.who ∧ consAt u r 13 1 = call.p 0 1)) →
        w = ledgerPut l 0 (natBytes 8 (1 + call.p 1 1 * 2 ^ 8 + call.p 4 4 * 2 ^ 32)) u))

/-- METR_STATUS to METR_AUDIT, with the steps of METR_SEAL and METR_BREAK that follow. -/
def MetrologyCommands : Prop :=
  Runs .metrStatus { code := 0x0901, who := [], zero := true, facets := true, buffer := some (128, 128, 1), orNone := true } (fun _ _ => True) none' (fun c call u t =>
    t = succeeds c call (metroState u + sealCount u * 2 ^ 16) (metroInfo u) u) ∧
  Runs .metrLoad { code := 0x0902, who := [pM], buffer := some (16, 65536, 1), input := true } (fun _ _ => True) (fun _ _ => [(obMetro, 0)]) (fun c call u t =>
    let img := call.data
    (metroState u = 2 → t = fails c stWrong 0 u) ∧
    (metroState u ≠ 2 → pfw u = false → legalFull u = false → headerOk 3 img = false ∨ imageSigned u 1 img = false → t = fails c stSignature 0 u) ∧
    (metroState u ≠ 2 → pfw u = false → legalFull u = false → headerOk 3 img = true → imageSigned u 1 img = true → imageSerial img ≤ u.metro.lastSealed →
      t = fails c stVersion 0 u) ∧
    (metroState u ≠ 2 → pfw u = false → legalFull u = false → headerOk 3 img = true → imageSigned u 1 img = true → u.metro.lastSealed < imageSerial img →
      sealedConf img ≠ none → ∃ w, t = begins c (.lines [nextAudit true u] 0) [(obMetro, 0)] w ∧ w.metro.loading = img ∧
        w.metro.change = some (nextAudit true u, 1) ∧ metroState w = metroState u ∧ w.ledger.legal = u.ledger.legal + 1)) ∧
  (∀ (g : GIn) (s : State) (c : Cmd) (call : Call), (s.gly.cmds.find? fun c => c.id == g.id && c.wait == .sealing) = none →
    Starts { code := 0x0903, who := [pI], fields := [(0, 16)] }
      (fun _ s => match stagedConf s with | some conf => confObjects conf | none => [(obMetro, 0)]) g s c call →
    let u := touchSession c s
    ∃ t, exec (.metrSeal g) s = .next t ∧ (metroState u ≠ 1 → t = fails c stWrong 0 u) ∧
      (metroState u = 1 → call.p 0 16 ≠ bytesNat (shaBytes u.metro.staged 16) → t = fails c stSignature 0 u) ∧
      (∀ conf, metroState u = 1 → call.p 0 16 = bytesNat (shaBytes u.metro.staged 16) → pfw u = false → legalFull u = false → stagedConf u = some conf →
        t = begins c .sealing (confObjects conf) (quiesce conf (setMetro { u.metro with start := u.tb.tick } u)))) ∧
  (∀ (g : GIn) (s : State) (c : Cmd) conf, (s.gly.cmds.find? fun c => c.id == g.id && c.wait == .sealing) = some c → stagedConf s = some conf → quiet conf s = true →
    let r := sealSteps conf s
    ∃ t, exec (.metrSeal g) s = .next t ∧
      (r.1 = true → ∃ w, t = setCmd { c with wait := .lines [nextAudit true r.2] 0 } w ∧ w.metro.change = some (nextAudit true r.2, 2) ∧ w.locks = r.2.locks) ∧
      (r.1 = false → t = finishCmd c stRefused 0 (setEpoch 4 (epochOf s 4) (releaseLocks r.2)))) ∧
  (∀ (g : GIn) (s : State) (c : Cmd) (call : Call), (s.gly.cmds.find? fun c => c.id == g.id && c.wait == .breaking) = none →
    Starts { code := 0x0904, who := [pI], fields := [(0, 4)] }
      (fun _ s => (obMetro, 0) :: (match s.metro.conf with | some conf => confObjects conf | none => [])) g s c call →
    let u := touchSession c s
    ∃ t, exec (.metrBreak g) s = .next t ∧ (metroState u ≠ 2 → t = fails c stWrong 0 u) ∧
      (metroState u = 2 → pfw u = false → legalFull u = false → ∃ w held, t = begins c .breaking held w ∧ w.metro.change = some (nextAudit true u, 3) ∧
        metroState w = 2)) ∧
  (∀ (g : GIn) (s : State) (c : Cmd) conf, (s.gly.cmds.find? fun c => c.id == g.id && c.wait == .breaking) = some c → s.metro.conf = some conf →
    metroState s = 3 → quiet conf s = true → ∃ w, exec (.metrBreak g) s = .next (finishCmd c 0 0 w) ∧ w.locks = {} ∧ (facet w 0).k = [] ∧ (facet w 1).k = [] ∧
      bit (facet w 0).ctl 1 = true ∧ bit (facet w 1).ctl 1 = true ∧ epochOf w 4 = (if epochOf s 4 = 255 then 1 else epochOf s 4 + 1)) ∧
  Runs .metrAudit { code := 0x0905, who := [], zero := true, fields := [(0, 4)], buffer := some (64, 1048576, 1) } (fun _ _ => True) none' (fun c call u t =>
    t = lists c call (call.p 0 4) 64 ((List.range (min 8192 u.ledger.legal)).map fun i => bytesAt u (ledgerAddr (regionLine 1 + i) 0) 64) u)

/-- LDG_READ to UPD_DISCARD. -/
def LedgerAndUpdateCommands : Prop :=
  let upd (_ : Call) (_ : State) : List (Nat × Nat) := [(obUpdate, 0)]
  Runs .ldgRead { code := 0x0A01, who := [pH, pM, pO, pI], issuers := true, fields := [(0, 1), (4, 4)], buffer := some (64, 1048576, 64) }
    (fun call s => call.p 0 1 ≤ 8 ∧ call.p 4 4 % 64 = 0 ∧ ldgReadDeny call s = false) none' (fun c call u t =>
      let r := call.p 0 1
      let first := call.p 4 4 / 64
      let n := min (call.dlen / 64) (regionLines r - first)
      (regionLines r ≤ first → t = fails c stNotFound 0 u) ∧
      (first < regionLines r → r ∈ [1, 2, 4, 7, 8] → t = succeeds c call n (bytesAt u (ledgerAddr (regionLine r + first) 0) (64 * n)) u) ∧
      (first < regionLines r → r ∉ [1, 2, 4, 7, 8] → t = succeeds c call n (freeBytes (8 * n) u).1 (freeBytes (8 * n) u).2)) ∧
  Runs .ldgAppend { code := 0x0A02, who := [pM, pO], fields := [(0, 2), (2, 1), (8, 32)] } (fun call _ => 1 ≤ call.p 2 1 ∧ call.p 2 1 ≤ 32)
    (fun _ _ => [(obLedger, 0)]) (fun c call u t =>
      let n := u.ledger.app
      let l := regionLine 8 + n % 180224
      (pfw u = true → t = fails c stLedger 0 u) ∧
      (pfw u = false → ∃ w, t = begins c (.lines [l] n) [] w ∧ w.ledger.app = n + 1 ∧ ledgerPending w l = true ∧ bytesAt w (ledgerAddr l 0) 64 = appRecord u call n)) ∧
  Runs .ldgStatus { code := 0x0A03, who := [pM, pO, pI] } (fun _ _ => True) none' (fun c call u t =>
    t = succeeds c call (rfld u (ldgReg 0x10) 0 19 + rfld u (ldgReg 0) 32 32 * 2 ^ 32) [] u) ∧
  Runs .updStage { code := 0x0B01, who := [pH, pM], fields := [(0, 1), (4, 4), (8, 4)], buffer := some (16, 1048576, 1), input := true }
    (fun call s => call.p 0 1 ≤ 1 ∧ call.p 4 4 % 16 = 0 ∧ call.p 4 4 + call.dlen ≤ call.p 8 4 ∧ call.p 8 4 % 16 = 0 ∧ call.p 8 4 ≤ 0x1000000 ∧
      ∀ g, s.gly.stage = some g → g.kind = call.p 0 1 → g.total = call.p 8 4) none' (fun c call u t =>
      (applying u = true → t = fails c stWrong 0 u) ∧
      (applying u = false → (∀ g, u.gly.stage = some g → g.kind = call.p 0 1) → ∃ g, t = succeeds c call 0 [] (setGly { u.gly with stage := some g } u) ∧
        g.kind = call.p 0 1 ∧ (∀ i, i < call.data.length → tget 0 g.bytes (call.p 4 4 + i) = call.data.getD i 0) ∧
        ∀ k, k < call.data.length / 16 → call.p 4 4 / 16 + k ∈ g.units)) ∧
  Runs .updApply { code := 0x0B02, who := [pH, pM], fields := [(0, 1), (8, 8)] } (fun call _ => call.p 0 1 ≤ 1) (fun _ s => applyObs s) (fun c call u t =>
    (u.gly.stage = none → t = fails c stWrong 0 u) ∧
    (∀ g, u.gly.stage = some g → g.kind ≠ call.p 0 1 ∨ stageWhole g = false → t = fails c stWrong 0 u) ∧
    (∀ g, u.gly.stage = some g → g.kind = 0 → call.p 0 1 = 0 → stageWhole g = true →
      let img := stagedImage (stageBytes g)
      let good := headerOk 1 img = true ∧ imageSigned u 0 img = true
      (¬ good → t = fails c stSignature 0 u) ∧
      (good → imageRoll img < fuseRoll u → t = fails c stVersion 0 u) ∧
      (good → fuseRoll u ≤ imageRoll img → pfw u = false → ∃ w, t = begins c (.lines [nextAudit false u] (1 - liveSlot u)) [(obUpdate, 0)] w ∧
        w.bez.rel = tput u.bez.rel (1 - liveSlot u) (256 * imageRelease img + imageRoll img) ∧ w.facets = u.facets)) ∧
    (∀ g bs p, u.gly.stage = some g → g.kind = 1 → call.p 0 1 = 1 → stageWhole g = true → stagedPatch (stageBytes g) = some (bs, p) →
      (patchCheck u bs p = some 3 → t = fails c stVersion 0 u) ∧
      (patchCheck u bs p = none → ((maskBlockers p).any fun b => !spineOn u b) = true → t = fails c stPower 0 u) ∧
      (patchCheck u bs p = none → ((maskBlockers p).any fun b => !spineOn u b) = false → pfw u = false → ∃ w, w.ledger.patches = u.ledger.patches ++ [bs] ∧
        ((∃ b, t = fails c stRefused b w) ∨ ∃ at_, t = begins c (.swapped (maskBlockers p) [nextAudit false u] at_) ((obUpdate, 0) :: (maskBlockers p).map (obBlocker, ·)) w)))) ∧
  Runs .updStatus { code := 0x0B03, who := [pH, pM, pO, pI] } (fun _ _ => True) none' (fun c call u t =>
    let slots := slotRelease u (liveSlot u) + slotRelease u (1 - liveSlot u) * 2 ^ 16
    (u.gly.stage = none → t = succeeds c call slots [] u) ∧
    (∀ g, u.gly.stage = some g → t = succeeds c call (slots + g.units.length % 2 ^ 16 * 2 ^ 32 + g.kind * 2 ^ 48) [] u)) ∧
  Runs .updDiscard { code := 0x0B04, who := [pH, pM], fields := [(0, 1)] } (fun call _ => call.p 0 1 ≤ 1) upd (fun c call u t =>
    ((∀ g, u.gly.stage = some g → g.kind ≠ call.p 0 1) → t = fails c stNotFound 0 u) ∧
    (∀ g, u.gly.stage = some g → g.kind = call.p 0 1 → t = succeeds c call 0 [] (setGly { u.gly with stage := none } u)))

end Sys2Proof.Claims

/-- Gleby's commands on facets, integrity and DRAM (R244, R278, R422, R442 to R447, R579): each of FACET_LOAD, FACET_RUN, FACET_HALT, FACET_REPORT,
FACET_REGS, CROWN_MODE, SCRUB, PATROL, the patrol scrub, LOG_READ, RETIRE, TEST_WORD, DRAM_TOUCH and DRAM_RELEASE answers a next state, in every
state in which its command may start, and that next state is given. FACET_RUN draws its key from a free value (log entry 3). -/
def Obligations.FacetAndIntegrityCommands : Prop := FacetCommands ∧ IntegrityCommands

/-- Gleby's commands on capabilities, windows and consumables (R422, R448 to R450, R453, R454, R508, R513). -/
def Obligations.CapabilityAndConsumableCommands : Prop := CapabilityCommands ∧ ConsumableCommands

/-- Gleby's commands on the sealed partition, the ledger and updates (R457 to R460, R471, R479, R480, R487). -/
def Obligations.MetrologyLedgerUpdateCommands : Prop := MetrologyCommands ∧ LedgerAndUpdateCommands

namespace Sys2Proof.Claims
open Sys2Proof Sys2Proof.Machine

/-- A pulse has reached a steward source. -/
def Raised (src : Nat) (s t : State) : Prop := t.ints = (raiseSteward src s).ints
/-- Only registers have changed, and one of them has this value. -/
def Register (a : Nat) (v : BitVec 64) (s t : State) : Prop := rget t a = v ∧ (∀ b, b ≠ a → rget t b = rget s b) ∧ offRegs t = offRegs s

/-- A debug response that grants its scope: it answers the open nonce, each scope bit's condition holds, and its signature verifies. -/
def GoodResponse (scope : BitVec 32) (signer : BitVec 8) (sig : List Byte) (s : State) : Prop :=
  ∃ n, s.bez.nonce = some n ∧ signer.toNat < 2 ∧ scope.toNat < 16 ∧ ¬ (sealActive s = true ∧ (bit scope 1 = true ∨ bit scope 3 = true)) ∧
    (bit scope 2 = true → signer = 0) ∧ (signer = 0 ∨ 1 ∈ s.bez.roots) ∧
    Config.verify s.bez.manSerial signer.toNat ([0x43, 0x48, 0x4E, 0x2D, 0x44, 0x42, 0x55, 0x47] ++ (n ++ shaBytes Config.deviceKey 48) ++ natBytes 4 scope.toNat) sig = true

/-- Debug authorization: a challenge shows a fresh nonce; a response spends it, and a good one grants its scope; TRST_N ends the authorization;
an instruction that is not allowed acts as BYPASS. -/
def DebugPort : Prop :=
  ∀ s : State,
    (let q := freeBytes 6 s
     exec .dbgchal s = .next (emit (.value (bytesNat (q.1 ++ shaBytes Config.deviceKey 48))) (setBez { s.bez with nonce := some q.1, jtag := .dbgchal } q.2))) ∧
    (∀ scope signer sig, ¬ GoodResponse scope signer sig s →
      exec (.dbgresp scope signer sig) s = .next (setBez { s.bez with nonce := none, jtag := .dbgresp } s)) ∧
    (∀ scope signer sig, GoodResponse scope signer sig s → ∃ t, exec (.dbgresp scope signer sig) s = .next t ∧
      t.bez = { s.bez with nonce := none, jtag := .dbgresp, scope := some scope } ∧ t.ledger.general = s.ledger.general + 1 ∧ t.facets = s.facets) ∧
    (∀ j, let always := j ∈ [Jtag.bypass, Jtag.idcode, Jtag.samplePreload, Jtag.dbgchal, Jtag.dbgresp]
      let allowed := always ∨ (sealActive s = false ∧ ∃ v, s.bez.scope = some v ∧ (j = Jtag.debugPrivate ∨ bit v 3 = true));
      (allowed → exec (.jtagInstruction j) s = .next (setBez { s.bez with jtag := j } s)) ∧
      (¬ allowed → exec (.jtagInstruction j) s = .next (setBez { s.bez with jtag := .bypass } s))) ∧
    exec .trstAssert s = .next (setBez { s.bez with scope := none, jtag := .idcode } s)

/-- The ledger window: writes wait for their commit, are visible at once, and are refused during a power-fail flush. -/
def LedgerWindow : Prop :=
  ∀ (line : Fin 262144) (s : State),
    (∀ (off : Fin 8) (v : BitVec 64) (a : Agent), ledgerRoom s line = true →
      let run := exec (.ledgerWrite line off v a) s
      (s.ledger.flush = true → run = .next s) ∧
      (s.ledger.flush = false → a = .steward →
        ∃ t, run = .next t ∧ stored (ledgerAddr line (8 * off.val)) (natBytes 8 v.toNat) s t ∧ ledgerPending t line = true ∧ t.facets = s.facets) ∧
      (s.ledger.flush = false → a ≠ .steward → calGranted s line = false ∨ legalFull s = true → run = .next s) ∧
      (s.ledger.flush = false → a ≠ .steward → calGranted s line = true → legalFull s = false →
        ∃ t, run = .next t ∧ (∀ i, i < 8 → byteAt t (ledgerAddr line (8 * off.val) + i) = (natBytes 8 v.toNat).getD i 0) ∧ ledgerPending t line = true ∧
          t.ledger.legal = s.ledger.legal + 1 ∧ rfld t (bezReg 0x100) 0 16 = min 65535 (rfld s (bezReg 0x100) 0 16 + 1))) ∧
    (∀ (a : Agent) (bad : Fin 3), a = .steward ∨ calGranted s line = true →
      ∃ t, exec (.ledgerRead line a bad) s = .next t ∧
        t.out = s.out ++ [.value (if bad = 2 ∧ ledgerPending s line = false then 0 else natAt s (ledgerAddr line 0) 64)] ∧
        (bad = 0 → t = emit (.value (natAt s (ledgerAddr line 0) 64)) s) ∧ (bad = 1 → rbit t (ldgReg 0) 2 = true) ∧ (bad = 2 → rbit t (ldgReg 0) 1 = true)) ∧
    (∀ (a : Agent) (bad : Fin 3), a ≠ .steward → calGranted s line = false → exec (.ledgerRead line a bad) s = .next s)

/-- Commits: a line commits when it is due, in order, and at most once in a millisecond, a trail record with its tick and chain; the commit of a record that changes the metrology
state changes it. -/
def LedgerCommits : Prop :=
  (∀ (line : Fin 262144) p (s : State), (s.ledger.pend.find? fun p => p.line == line.val && !p.busy) = some p → commitFirst s p = true →
    (∀ q ∈ s.ledger.pend, q.line = line.val → q.busy = false) →
    let u := advanceTo p.due s
    ∃ t, exec (.lineCommit line) s = .next t ∧ t.ledger.pend = u.ledger.pend.map (fun q => if q = p then { q with busy := true } else q) ∧
      tget 0 t.ledger.last line = u.fclk + 1200000 ∧ t.mem = (stampRecord p u).mem ∧ (trailOf line = none → t.mem = u.mem)) ∧
  (∀ (line : Fin 262144) p (s : State), (s.ledger.pend.find? fun p => p.line == line.val && p.busy) = some p →
    ∃ t, exec (.lineCommitDone line) s = .next t ∧ t.ledger.pend = s.ledger.pend.erase p ∧
      tget 0 t.ledger.seq line = tget 0 s.ledger.seq line + 1 ∧
      (s.metro.change = none → t.mem = s.mem ∧ t.facets = s.facets ∧ metroState t = metroState s) ∧
      (s.metro.change = some (line.val, 1) → metroState t = 1 ∧ t.metro.staged = s.metro.loading) ∧
      (s.metro.change = some (line.val, 2) → metroState t = 2 ∧ sealCount t = (sealCount s + 1) % 65536 ∧ t.metro.sealImage = s.metro.staged) ∧
      (s.metro.change = some (line.val, 3) → metroState t = 3))

/-- The power-fail warning: every pending line is due, and no write is taken until it ends. -/
def PowerFail : Prop :=
  ∀ s : State,
    (rbit s (girdle 0x120) 63 = false → ∃ t, exec .powerFailWarning s = .next t ∧ rbit t (girdle 0x120) 63 = true ∧ t.ledger.flush = true ∧
      (∀ p ∈ t.ledger.pend, p.due = s.fclk) ∧ t.ledger.pend.map (·.line) = s.ledger.pend.map (·.line) ∧ t.pwr.pfwAt = s.fclk ∧ t.mem = s.mem) ∧
    (rbit s (girdle 0x120) 63 = true → let u := advanceTo (s.pwr.pfwAt + 12000000) s;
      ∃ t, exec .powerFailWarningEnd s = .next t ∧ rbit t (girdle 0x120) 63 = false ∧ t.ledger.flush = false ∧ t.ledger.pend = u.ledger.pend ∧ t.mem = u.mem)

end Sys2Proof.Claims

/-- Debug authorization and the TAP (R472, R473), the ledger window and its commits (R493, R496 to R501), the power-fail warning (R500, R557). The
nonce of a challenge is a free value (log entry 3). -/
def Obligations.BezelAndLedgerLines : Prop := DebugPort ∧ LedgerWindow ∧ LedgerCommits ∧ PowerFail

namespace Sys2Proof.Claims
open Sys2Proof Sys2Proof.Machine

/-- Register writes: to no register a fault; by the steward, or by an agent whose capability the block accepts, the block's own rule. -/
def RegisterWrites : Prop :=
  (∀ a v (s : State), stewardReg a = false →
    exec (.registerWrite a v .steward) s = .fault (.unassigned a) ∧ exec (.counterClearWrite a) s = .fault (.unassigned a)) ∧
  (∀ a v (s : State), stewardReg a = true → rangeServed s a (a + 8) = true →
    exec (.registerWrite a v .steward) s = .next (stewardWrite a v s).2 ∧ exec (.counterClearWrite a) s = .next (stewardWrite a 0 s).2) ∧
  (∀ v (s : State), rangeServed s (girdle 0x118) (girdle 0x120) = true →
    ∃ t, exec (.registerWrite (girdle 0x118) v .steward) s = .next t ∧ Register (girdle 0x118) v s t) ∧
  (∀ v (s : State), rangeServed s (girdle 0x120) (girdle 0x128) = true →
    ∃ t, exec (.registerWrite (girdle 0x120) v .steward) s = .next t ∧ Register (girdle 0x120) (rget s (girdle 0x120) &&& ~~~(w1c s (girdle 0x120) (v &&& 0x03FFFFFFFFFFFFFF))) s t) ∧
  (∀ (m : Fin 8) v (s : State), rangeServed s (macReg m 0) (macReg m 0 + 8) = true →
    ∃ t, exec (.registerWrite (macReg m 0) v .steward) s = .next t ∧ Register (macReg m 0) (v &&& 0xFFFF) s t) ∧
  (∀ (c : Fin 16) v (s : State), rangeServed s (crownReg c 0) (crownReg c 0 + 16) = true →
    exec (.registerWrite (crownReg c 0) v .steward) s = .next (if crownQuiet s c then setCompat c (bit v 0) s else s) ∧
    (∃ t, exec (.counterClearWrite (crownReg c 8)) s = .next t ∧ Register (crownReg c 8) 0 s t) ∧
    (v ≠ 0 → exec (.registerWrite (crownReg c 8) v .steward) s = .next s)) ∧
  (∀ a v (n : Fin 128) (s : State), a % 8 = 0 → isRegister a = true → rangeServed s a (a + 8) = true → capReaches a = false →
    writePerms s a (.facet n) ≠ [] → exec (.registerWrite a v (.facet n)) s = .next s) ∧
  (∀ a v (n : Fin 128) p (s : State), a % 8 = 0 → isRegister a = true → rangeServed s a (a + 8) = true → cellWindow a = false → macWindow a = false → ctxAt a = none →
    ((writePerms s a (.facet n)).find? fun p => (accessPerms a true).all fun q => p.testBit q) = some p →
    exec (.registerWrite a v (.facet n)) s = .next (regWrite a v p (.facet n) s).2) ∧
  (∀ (b : Fin 64) (i : Fin 16) (o : Nat) v (s : State), o % 8 = 0 → o < 0x400 →
    let a := cellReg (16 * b.val + i.val) o
    rangeServed s a (a + 8) = true → exec (.registerWrite a v (.blocker b)) s = .next (cellWrite (16 * b.val + i.val) o v (.blocker b) s).2)

/-- Host requests through PF1: refused where a check fails, served at the package address else. -/
def HostRequests : Prop :=
  ∀ (o : Nat) (s : State), s.links.up = true →
    (∀ len data, 0 < len → len ≤ 4096 → o + len ≤ 2 ^ 34 → windowCheck s false o len = none →
      exec (.hostWindowRequest false o len data false) s = .next (emit (.pcie 1 []) (raiseSteward 312 (setLinks { s.links with aer := s.links.aer + 1 } s)))) ∧
    (∀ len data, data ≠ [] → data.length ≤ 4096 → o + data.length ≤ 2 ^ 34 → windowCheck s true o data.length = none →
      exec (.hostWindowRequest true o len data false) s = .next (raiseSteward 312 (setLinks { s.links with aer := s.links.aer + 1 } s))) ∧
    (∀ len data a perm, 0 < len → len ≤ 4096 → o + len ≤ 2 ^ 34 → windowCheck s false o len = some (a, perm) → rangeServed s a (a + len) = true →
      isRegister a = false → (∀ x, a ≤ x → x < a + len → chunkBusy s x = false) →
      (rangeBad s a len = false → ∃ t, exec (.hostWindowRequest false o len data false) s = .next t ∧ t.out = s.out ++ [.pcie 0 (readBytes s 2 a len)] ∧ t.mem = s.mem) ∧
      (∃ t, exec (.hostWindowRequest false o len data true) s = .next t ∧ t.out = s.out ++ [.pcie 2 []] ∧ t.mem = s.mem)) ∧
    (∀ len data a perm c, data ≠ [] → a % 16 + data.length ≤ 16 → o + data.length ≤ 2 ^ 34 → windowCheck s true o data.length = some (a, perm) →
      rangeServed s a (a + data.length) = true → region a = .crown c → (∀ k ∈ s.marks, k.word ≠ wordOf a) →
      ∃ t, exec (.hostWindowRequest true o len data false) s = .next t ∧ stored a data s t ∧ t.out = s.out)

end Sys2Proof.Claims

/-- Register writes (R5, R21, R23, R351, R578) and host requests through PF1 (R513 to R515). -/
def Obligations.RegistersAndHost : Prop := RegisterWrites ∧ HostRequests

namespace Sys2Proof.Claims
open Sys2Proof Sys2Proof.Machine

/-- PCIe events and the SerDes references. -/
def PcieLinks : Prop :=
  ∀ s : State,
    (s.links.up = false → rbit s (girdle 0) 1 = true → domState s 35 = 1 →
      exec .pcieLinkUp s = .next (raiseSteward 312 (setLinks { s.links with up := true } s))) ∧
    (∀ speed width, s.links.up = true → s.links.speed ≠ speed.val ∨ s.links.width ≠ width.val →
      exec (.speedOrWidthChange speed width) s = .next (raiseSteward 312 (setLinks { s.links with speed := speed, width := width } s))) ∧
    (∀ f : Fin 2, s.links.up = true → ∃ t, exec (.functionLevelReset f) s = .next t ∧ t.links = s.links ∧ t.mem = s.mem ∧ t.facets = s.facets ∧
      (∀ v, v ∈ t.msixOpen ↔ v ∈ s.msixOpen ∧ v / 64 ≠ f.val) ∧ (∀ q, f = 0 → q < 16 → qEn t q = false) ∧ (f = 1 → t.regs = s.regs)) ∧
    (s.links.up = true → exec .linkDown s = exec .perst s) ∧
    (∃ t, exec .perst s = .next t ∧ t.links = { s.links with up := false } ∧ t.mem = s.mem ∧ (∀ v ∈ t.msixOpen, 2 ≤ v / 64) ∧ ∀ q, q < 16 → qEn t q = false) ∧
    (∀ eth : Bool, rbit s (girdle 0) (if eth then 2 else 1) = true → ∃ t, exec (.serdesReferenceLoss eth) s = .next t ∧
      Register (girdle 0) (setBit (rget s (girdle 0)) (if eth then 2 else 1) false) s t) ∧
    (∀ eth : Bool, rbit s (girdle 0) (if eth then 2 else 1) = false → ∃ t, exec (.serdesReferenceReturn eth) s = .next t ∧
      Register (girdle 0) (setBit (rget s (girdle 0)) (if eth then 2 else 1) true) s t)

/-- MAC links and received frames: what a frame adds to the receive queue and to the counters. -/
def MacsReceive : Prop :=
  ∀ (m : Fin 8) (s : State),
    (rbit s (macReg m 0) 0 = true → rbit s (girdle 0) 2 = true → domState s 36 = 1 → rbit s (macReg m 8) 0 = false → macCfgBad (macCfg s m) = false →
      ∃ t, exec (.macLinkUp m) s = .next t ∧ rbit t (macReg m 8) 0 = true ∧ rbit t (macReg m 8) 1 = (fld (macCfg s m) 3 2 == 1) ∧ Raised (304 + m.val) s t) ∧
    (rbit s (macReg m 0) 0 = true → rbit s (girdle 0) 2 = true → domState s 36 = 1 → rbit s (macReg m 8) 0 = false → macCfgBad (macCfg s m) = true →
      exec (.macLinkUp m) s = .next (tellSteward (macReg m 0) .steward s)) ∧
    (macUp s m = true → ∃ t, exec (.macLinkDown m) s = .next t ∧ rfld t (macReg m 8) 0 3 = 0 ∧ Raised (304 + m.val) s t ∧ t.macs = s.macs) ∧
    (rbit s (macReg m 8) 1 = true → domState s 36 = 1 → ∃ t, exec (.rsFecLossOfLock m) s = .next t ∧ rbit t (macReg m 8) 1 = false ∧
      rbit t (macReg m 8) 0 = rbit s (macReg m 8) 0 ∧ Raised (304 + m.val) s t) ∧
    (∀ fr, macUp s m = true →
      let n := fr.bytes.length
      let et := etherType fr.bytes fr.vlan
      let run := exec (.frameReceive m fr) s
      let v := macCount m 1 n (macCount m 0 1 s)
      let counts (i k : Nat) (t : State) : Prop := rget t (macReg m (0x100 + 8 * i)) = rget s (macReg m (0x100 + 8 * i)) + BitVec.ofNat 64 k
      let asFabric := et = 0x88B5 ∧ rbit s (macReg m 0) 7 = true
      let asPause := et = 0x8808 ∧ rbit s (macReg m 0) 5 = true ∧ beAt fr.bytes (14 + tagLen fr.vlan) 2 = 1
      (n < 64 → ∃ t, run = .next t ∧ counts 3 1 t ∧ t.macs = s.macs) ∧
      (9600 < n → ∃ t, run = .next t ∧ counts 4 1 t ∧ t.macs = s.macs) ∧
      (64 ≤ n → n ≤ 9600 → fr.fcsOk = false → ∃ t, run = .next t ∧ counts 2 1 t ∧ t.macs = s.macs) ∧
      (64 ≤ n → n ≤ 9600 → fr.fcsOk = true → ¬ asFabric → ¬ asPause → (mac s m).rx.length + recordLen n ≤ 65535 →
        ∃ t, run = .next t ∧ counts 0 1 t ∧ counts 1 n t ∧ t.mem = s.mem ∧
          mac t m = { mac s m with rx := (mac s m).rx ++ macRecord fr.bytes (rxStamp s m fr) fr.vlan }) ∧
      (64 ≤ n → n ≤ 9600 → fr.fcsOk = true → ¬ asFabric → ¬ asPause → 65535 < (mac s m).rx.length + recordLen n →
        ∃ t, run = .next t ∧ counts 0 1 t ∧ counts 7 1 t ∧ t.macs = s.macs) ∧
      (64 ≤ n → n ≤ 9600 → fr.fcsOk = true → asPause → ∃ t, run = .next t ∧ (mac t m).rx = (mac s m).rx ∧
        (mac t m).pauseEnd = s.fclk + (let q := beAt fr.bytes (16 + tagLen fr.vlan) 2
          if fld (macCfg s m) 1 2 = 0 then (q * 6144 + 99) / 100 else (q * 24576 + 999) / 1000)) ∧
      (64 ≤ n → n ≤ 9600 → fr.fcsOk = true → asFabric →
        let f := fabParse fr.bytes fr.vlan
        (f.ty = 1 ∨ f.ty = 2 → run = exec (.fabricRequestReceive f false) v) ∧ (f.ty = 3 ∨ f.ty = 4 ∨ f.ty = 5 → run = exec (.fabricResponseReceive f) v) ∧
        (f.ty = 6 → run = exec (.fabricEventReceive f) v) ∧ (f.ty = 7 → run = exec (.fabricReportReceive f) v) ∧
        (f.ty = 0 → fabCrc f = f.crc → f.ver = 1 → fabMember s f = true → ∃ t, run = .next t ∧ tget 0 t.fabric.heard f.spkg.toNat = s.fclk ∧ t.macs = s.macs)))

/-- A frame leaves the transmit queue, with its stamp kept where it is a PTP frame; a frame of a forbidden length flushes the queue. -/
def MacsTransmit : Prop :=
  ∀ (m : Fin 8) (s : State), macUp s m = true → 32 ≤ (mac s m).tx.length →
    let n := leAt (mac s m).tx 0 2
    let bytes := ((mac s m).tx.drop 32).take n
    (n < 60 ∨ 9596 < n → ∃ t, exec (.frameTransmit m) s = .next t ∧ (mac t m).tx = [] ∧ rget t (macReg m 0x138) = rget s (macReg m 0x138) + 1) ∧
    (60 ≤ n → n ≤ 9596 → recordLen n ≤ (mac s m).tx.length →
      let u := advanceTo (mac s m).pauseEnd s
      ∃ t, exec (.frameTransmit m) s = .next t ∧ (mac t m).tx = (mac s m).tx.drop (recordLen n) ∧ (mac t m).rx = (mac s m).rx ∧
        (ptpAt bytes = none → rbit u (macReg m 0) 6 = true ∨ fld (macCfg u m) 8 8 ≠ 1 → t.out = u.out ++ [.frame m bytes] ∧ (mac t m).ts = (mac s m).ts) ∧
        (∀ p h, ptpAt bytes = some (p, h) → rbit u (macReg m 0) 6 = false → (mac s m).ts.length < 16 → t.out = u.out ++ [.frame m bytes] ∧
          (mac t m).ts = (mac s m).ts ++ [(BitVec.ofNat 64 ((u.tb.tick + txDelay u m) % 2 ^ 64), beAt bytes (p + 30) 2)]))

/-- Requests of other packages are answered from the window that allows them, once each. -/
def FabricRequests : Prop :=
  ∀ (fr : FabFrame) (ue : Bool) (s : State), domState s 36 = 1 → fabBad s fr = false → fr.ty = 1 ∨ fr.ty = 2 → fabWaits fr ue s = false →
    let a := fr.addr.toNat % 2 ^ 48
    let n := fabLen fr
    let run := exec (.fabricRequestReceive fr ue) s
    let old := (tget [] s.fabric.seen fr.spkg.toNat).find? fun p => p.1 == fr.seq.toNat
    let need := (if fr.ty = 1 then permR else permW) :: blockPerms (fr.ty != 1) a (a + n)
    let win := (fabWindows s fr.spkg.toNat a n).find? fun w => need.all fun p => w.perm.testBit p;
    (∀ p, old = some p → run = .next (emit (.fabric p.2) (heardFrom fr.spkg.toNat s))) ∧
    (old = none → fabShape fr = false ∨ fabWindows s fr.spkg.toNat a n = [] →
      ∃ t, run = .next t ∧ t.out = s.out ++ [.fabric (fabAnswer s fr 5 2 [])] ∧ t.mem = s.mem ∧ t.facets = s.facets) ∧
    (old = none → fabShape fr = true → fabWindows s fr.spkg.toNat a n ≠ [] → win = none →
      ∃ t, run = .next t ∧ t.out = s.out ++ [.fabric (fabAnswer s fr 5 3 [])] ∧ t.mem = s.mem ∧ t.facets = s.facets) ∧
    (∀ w c, old = none → fabShape fr = true → win = some w → rangeBacked s a (a + n) = true → region a = .crown c → ue = false →
      (fr.ty = 1 → chunkBusy s a = false →
        ∃ t, run = .next t ∧ t.out = s.out ++ [.fabric (fabAnswer s fr 3 0 (readBytes s 2 a n))] ∧ t.mem = s.mem) ∧
      (fr.ty = 2 → chunkBusy s a = false → a % 16 + n ≤ 16 → (∀ k ∈ s.marks, k.word ≠ wordOf a) →
        ∃ t, run = .next t ∧ t.out = s.out ++ [.fabric (fabAnswer s fr 4 0 [])] ∧ stored a fr.payload s t))

/-- Answers end outstanding frames; an unanswered frame is sent again, 8 times at most; heartbeats go to every member. -/
def FabricAnswers : Prop :=
  (∀ (fr : FabFrame) (s : State), domState s 36 = 1 → fabBad s fr = false → fr.ty = 3 ∨ fr.ty = 4 ∨ fr.ty = 5 →
    let run := exec (.fabricResponseReceive fr) s
    let heard := tset 0 s.fabric.heard fr.spkg.toNat s.fclk
    (fabMatch s fr = none → run = .next (setFabric { s.fabric with heard := heard } s)) ∧
    (∀ o, fabMatch s fr = some o → o.chan = none → fr.ty ≠ 5 → run = .next (setFabric { s.fabric with heard := heard, out := s.fabric.out.erase o } s)) ∧
    (∀ o, fabMatch s fr = some o → o.chan = none → fr.ty = 5 → ∃ t, run = .next t ∧ Raised (fabSource fr.spkg.toNat) s t ∧
      (let kept := s.fabric.out.map fun x => if x = o then { o with full := true } else x
       t.fabric = { s.fabric with heard := heard, out := if o.fr.ty = 7 ∧ fr.code = 7 then kept else s.fabric.out.erase o })) ∧
    (∀ o k j, fabMatch s fr = some o → o.chan = some (k, j) → fr.ty = 4 → ∃ t, run = .next t ∧ t.fabric.out = s.fabric.out.erase o ∧
      rfld t (chanReg k 0x108) 0 40 = (rfld s (chanReg k 0x108) 0 40 + o.fr.payload.length) % 2 ^ 40)) ∧
  (∀ (dpkg : BitVec 8) (seq : BitVec 32) o (s : State), (s.fabric.out.find? fun o => o.fr.dpkg == dpkg && o.fr.seq == seq) = some o → domState s 36 = 1 →
    let u := advanceTo (o.at_ + 120000) s
    (o.tries < 8 → ∃ t, exec (.fabricRetransmit dpkg seq) s = .next t ∧ t.out = u.out ++ [.fabric (again o.fr)] ∧
      t.fabric.out = u.fabric.out.map fun x => if x = o then { o with fr := again o.fr, tries := o.tries + 1, at_ := u.fclk, full := false } else x) ∧
    (8 ≤ o.tries → o.chan = none → ∃ t, exec (.fabricRetransmit dpkg seq) s = .next t ∧ t.out = u.out ∧ t.fabric.out = u.fabric.out.erase o)) ∧
  (∀ s : State, s.fabric.joined = true → domState s 36 = 1 →
    let u := advanceTo (s.fabric.beat + min (s.fabric.failtime * 1200000 / 8) 1200000) s
    ∃ t, exec .fabricHeartbeat s = .next t ∧ t.fabric.beat = u.fclk ∧ t.fabric.out = u.fabric.out ∧ t.mem = u.mem ∧
      t.out.length = u.out.length + u.fabric.present.length)

end Sys2Proof.Claims

namespace Sys2Proof.Claims
open Sys2Proof Sys2Proof.Machine

/-- The FCLK of a reset for a cause, from `s` to `t`: what it clears, what it keeps, and its entry in the reset log. -/
structure PackageReset (cause : Nat) (s t : State) : Prop where
  facets : t.facets = []
  stopped : t.pwr.running = false ∧ t.pwr.asleep = false
  cleared : ∀ a, a < ledgerAddr 0 0 ∨ girdle 0x2000000 ≤ a → byteAt t a = 0
  ledger : s.metro.change = none → ∀ a, ledgerAddr 0 0 ≤ a → a < girdle 0x2000000 → byteAt t a = byteAt s a
  cause_ : rfld t (girdle 0x100) 0 8 = cause
  logged : let i := if cause ≤ 4 then 0 else rfld s (girdle 0x100) 8 4;
    rfld t (girdle 0x100) 8 4 = (i + 1) % 16 ∧ rget t (girdle (0x200 + 16 * i)) = BitVec.ofNat 64 (2 ^ 63 + 2 * 2 ^ 8 + cause)
  time : t.fclk = s.fclk ∧ t.tb.tick = (if cause ≤ 4 then 0 else s.tb.tick)
  queue : t.pending = s.pending

/-- Every cause of a package reset. -/
def Resets : Prop :=
  ∀ s : State,
    (let v := setLedger { (losePending s).ledger with flush := false } (losePending s);
     (∃ t, exec .powerOn s = .next t ∧ PackageReset 1 v t) ∧
     (∀ p, s.ledger.pend = [p] → p.busy = false → p.base.length = 64 → p.line < 262144 → ∀ i, i < 64 → byteAt v (ledgerAddr p.line 0 + i) = p.base.getD i 0)) ∧
    (∃ t, exec .rstNAssert s = .next t ∧ PackageReset 2 s t) ∧ (∃ t, exec .refclkLoss s = .next t ∧ PackageReset 3 s t) ∧
    (∃ t, exec .pllLockLoss s = .next t ∧ PackageReset 4 s t) ∧ (∃ t, exec .supplyTrip s = .next t ∧ PackageReset 5 s t) ∧
    (∃ t, exec .thermalTrip s = .next t ∧ PackageReset 6 s t ∧ t.pwr.holdReset = true) ∧
    (s.pwr.running = true → ∃ t, exec .watchdogExpiry s = .next t ∧ PackageReset 7 (advanceTo (s.pwr.kicked + rfld s (girdle 0x108) 0 10 * 1200000) s) t) ∧
    exec .watchdogKick s = .next (setPwr { s.pwr with kicked := s.fclk } s) ∧
    (∀ cause : BitVec 8, cause.toNat ∈ [1, 2, 3, 4, 5, 9, 10] → ∃ t, exec (.packageReset cause) s = .next t ∧ PackageReset cause.toNat s t) ∧
    (∃ t, exec (.packageReset 6) s = .next t ∧ PackageReset 6 s t ∧ t.pwr.holdReset = true) ∧
    (s.pwr.running = true → exec (.packageReset 7) s = exec .watchdogExpiry s) ∧
    (∀ f, s.pwr.resetAt = some f → ∃ t, exec (.packageReset 8) s = .next t ∧ PackageReset 8 (advanceTo f s) t)

/-- A write of PWR_DCTL is stored; the power controller refuses it, acts on it, or leaves it until BUSY falls. -/
def DomainWrites : Prop :=
  ∀ (d : Fin 38) (v : BitVec 64) (s : State),
    let tgt := fld v 4 3
    let wakes := d.val < 16 ∧ tgt = 1 ∧ (changeOf s d).any (fun c => c.target == 3) = true
    let acts := ¬ wakes ∧ dBusy s d = false
    let ok := dLegal d tgt = true ∧ dLocked s d tgt = false
    ∃ t, exec (.pwrDctlWrite d v) s = .next t ∧ rfld t (dctl d) 4 3 = tgt ∧ rbit t (dctl d) 8 = bit v 8 ∧
      (wakes → d.val ∈ t.wakes ∧ t.pwr = s.pwr) ∧
      (¬ wakes → dBusy s d = true → t.pwr = { s.pwr with again := sadd s.pwr.again d } ∧ domState t d = domState s d) ∧
      (acts → ¬ ok → rbit t (dctl d) 10 = true ∧ domState t d = domState s d ∧ offRegs t = offRegs s) ∧
      (acts → ok → tgt = domState s d → domState t d = domState s d ∧ dBusy t d = false ∧ offRegs t = offRegs s) ∧
      (acts → ok → d.val < 16 → tgt = 2 → domState s d = 1 → copying s d = false → domState t d = 2 ∧ t.pwr.slept = s.pwr.slept ++ [(d.val, s.fclk)] ∧
        t.facets = s.facets) ∧
      (acts → ok → d.val < 16 → tgt = 3 → domState s d ≠ 3 → domState t d = 5 ∧ dBusy t d = true ∧
        t.pwr.changes = s.pwr.changes ++ [⟨d.val, 3, s.fclk, bit v 8⟩]) ∧
      (acts → ok → d.val < 16 → tgt = 1 → domState s d ≠ 1 → d.val ∈ t.wakes ∧ domState t d = domState s d) ∧
      (acts → ok → 16 ≤ d.val → tgt ≠ domState s d → dBusy t d = true ∧ domState t d = domState s d ∧
        t.pwr.changes = s.pwr.changes ++ [⟨d.val, tgt, s.fclk, bit v 8⟩])

/-- Changes of domains and crown states end. -/
def DomainChanges : Prop :=
  (∀ (d : Fin 38) c (s : State), changeOf s d = some c → d.val ∉ s.pwr.again →
    (d.val < 16 → c.target = 2 → retireCopies s d = false →
      let u := advanceTo (copyEnd s d) s
      d.val ∉ u.pwr.again → ∃ t, exec (.domainSwitchDone d) s = .next t ∧ domState t d = 2 ∧ dBusy t d = false ∧ t.facets = u.facets) ∧
    (16 ≤ d.val → c.target = 4 → (∀ k ∈ affected s (withGroups d), chanState s k = 1) →
      ∃ t, exec (.domainSwitchDone d) s = .next t ∧ (∀ e ∈ withGroups d, domState t e = 4) ∧ dBusy t d = false ∧ t.facets = s.facets) ∧
    (16 ≤ d.val → c.target ≠ 4 → (22 ≤ d.val → d.val < 30 → domState s (20 + (d.val - 22) / 4) = 1) →
      ∃ t, exec (.domainSwitchDone d) s = .next t ∧ domState t d = 1 ∧ dBusy t d = false)) ∧
  (∀ (c : Fin 16) ch (s : State), changeOf s c = some ch → ch.target = 3 →
    (ch.force = true ∨ remoteFacets s c = [] → ¬ (c = 0 ∧ sealActive s = true) → retireCopies s c = false → (∀ k ∈ affected s [c.val], chanState s k = 1) →
      let u := advanceTo (max (ch.at_ + 1200) (copyEnd s c)) s
      c.val ∉ u.pwr.again → ∃ t, exec (.crownP2Entry c) s = .next t ∧ domState t c = 3 ∧ dBusy t c = false ∧ t.mem = u.mem ∧
        ∀ i, i < 8 → (facet t (8 * c.val + i)).resv = none ∧ (facet t (8 * c.val + i)).flights = [] ∧ (facet t (8 * c.val + i)).g = (facet u (8 * c.val + i)).g) ∧
    (ch.force = false → remoteFacets s c ≠ [] →
      let u := advanceTo (ch.at_ + 1200000) s
      let v := dRefuse c (setDom c 1 (abandonP2 c u))
      domState v c = 1 ∧ rbit v (dctl c) 10 = true ∧ dBusy v c = false ∧
        (c.val ∉ (advance 1 v).pwr.again → exec (.p2EntryTimeout c) s = .next (advance 1 v)))) ∧
  (∀ (c : Fin 16) (s : State), c.val ∈ s.wakes → (∀ w ∈ s.pwr.waking, w.1 ≠ c.val) → domState s c ≠ 1 → domState s c ≠ 4 →
    ∃ t, exec (.crownWake c) s = .next t ∧ t.wakes = sdel s.wakes c ∧ t.pwr.waking = s.pwr.waking ++ [(c.val, s.fclk)] ∧ dBusy t c = true ∧
      domState t c = domState s c ∧ t.facets = s.facets) ∧
  (∀ (c : Fin 16) (s : State), (∃ w ∈ s.pwr.waking, w.1 = c.val) → c.val ∉ s.pwr.again →
    ∃ t, exec (.crownWakeDone c) s = .next t ∧ domState t c = 1 ∧ dBusy t c = false ∧ (∀ w ∈ t.pwr.waking, w.1 ≠ c.val) ∧
      (domState s c = 3 → ∀ i, i < 8 → (facet t (8 * c.val + i)).btb = []))

/-- Standby, the wake from it, and sensors. -/
def StandbyAndSensors : Prop :=
  (∀ f (s : State), s.pwr.standby = some f → sealActive s = false →
    let u := advanceTo (f + 1200000) s
    ∃ t, exec .standbyEntry s = .next t ∧ t.pwr.asleep = true ∧ t.pwr.standby = none ∧ t.facets = [] ∧ rbit t (mbxReg 0x800) 32 = false ∧
      (∀ d, d < 38 → d ≠ 30 → d ≠ 31 → d ≠ 33 → domState t d = 4) ∧ t.ledger.rec5.getLast? = some (.standby u.tb.tick) ∧
      ∀ a, ledgerAddr 0 0 ≤ a → a < girdle 0x2000000 → byteAt t a = byteAt u a) ∧
  (∀ (pin time : Bool) (s : State), s.pwr.asleep = true → pin = true ∨ time = true → (pin = true → rbit s (girdle 0x110) 0 = true) →
    (time = true → rbit s (girdle 0x110) 1 = true) →
    ∃ t, exec (.packageWake pin time) s = .next t ∧ t.pwr.asleep = false ∧ (∀ d, d < 38 → d ≠ 30 → d ≠ 31 → d ≠ 33 → domState t d = 1) ∧
      rfld t (girdle 0x110) 4 2 = b2n pin + 2 * b2n time ∧ rbit t (mbxReg 0x800) 32 = true ∧ ∀ n, n < 128 → (facet t n).credits = 4) ∧
  (∀ (i : Fin 58) (v : BitVec 32) (s : State),
    let u := advanceTo (tget 0 s.pwr.sampled i + 120000) s
    ∃ t, exec (.sensorSample i v) s = .next t ∧ rget t (sensorReg i) = BitVec.ofNat 64 (v.toNat * 2 ^ 32 + sensorKind i * 2 ^ 16 + i.val) ∧
      rbit t (girdle 0x120) i = (warns u i v.toInt || rbit u (girdle 0x120) i) ∧ t.pwr.sampled = tset 0 u.pwr.sampled i u.fclk ∧ t.mem = u.mem ∧ t.facets = u.facets)

/-- Boot, once the rails have been within their trip windows for 100 µs: a self-test that fails and a flash without a usable slot stop it, and are recorded; else the steward runs and the package is READY. -/
def Boots : Prop :=
  ∀ (b : BootIn) (s : State), s.pwr.running = false → s.pwr.asleep = false → rfld s (bezReg 0) 0 8 = 0 →
    (s.pwr.holdReset = true → s.pwr.coolAt ≠ none) → railOut s = false →
    let u := advanceTo (max (if s.pwr.holdReset then s.pwr.coolAt.getD 0 + 1200000000 else s.fclk) (s.pwr.railAt.elim 0 (· + 120000))) s
    let usable (v : Bool) (roll : BitVec 6) : Prop := v = true ∧ fuseRoll u ≤ roll.toNat
    ∃ t, exec (.boot b) s = .next t ∧
      (b.selfTest = false → rfld t (bezReg 0) 4 4 = 1 ∧ t.pwr.running = u.pwr.running ∧ t.mem = u.mem) ∧
      (b.selfTest = true → ¬ usable b.valid0 b.roll0 → ¬ usable b.valid1 b.roll1 →
        rfld t (bezReg 0) 0 4 = 1 ∧ rfld t (bezReg 0) 4 4 = 2 ∧ t.pwr.running = u.pwr.running ∧ t.mem = u.mem) ∧
      (b.selfTest = true → usable b.valid0 b.roll0 ∨ usable b.valid1 b.roll1 → t.pwr.running = true ∧
        (bootTop b = 0 → rbit t (mbxReg 0x800) 33 = true ∧ rfld t (bezReg 0) 0 4 = 4) ∧
        (bootTop b ≠ 0 → rbit t (mbxReg 0x800) 32 = true ∧ rfld t (bezReg 0) 0 4 = 6) ∧
        (usable b.valid0 b.roll0 → ¬ usable b.valid1 b.roll1 → rfld t (bezReg 0) 8 1 = 0) ∧
        (usable b.valid1 b.roll1 → ¬ usable b.valid0 b.roll0 → rfld t (bezReg 0) 8 1 = 1) ∧
        (usable b.valid0 b.roll0 → usable b.valid1 b.roll1 → rfld t (bezReg 0) 8 1 = if b.rel0.toNat < b.rel1.toNat then 1 else 0))

end Sys2Proof.Claims

/-- Power domains and crown states (R537 to R544), standby (R546 to R548), every reset (R549 to R553), sensors (R556) and boot (R470, R471, R525,
R562). -/
def Obligations.PowerResetBoot : Prop := Resets ∧ DomainWrites ∧ DomainChanges ∧ StandbyAndSensors ∧ Boots

/-- PCIe, Ethernet and fabric traffic (R328 to R330, R510, R517 to R521, R523, R529, R531, R532, R536). -/
def Obligations.LinksAndFabric : Prop := PcieLinks ∧ MacsReceive ∧ MacsTransmit ∧ FabricRequests ∧ FabricAnswers ∧ FabricEvents

/-! ### Statements in several parts -/

/-- NOP, TWAIT and EWAIT issue, and waits end (R128, R137, R160, R161, R163, R164). -/
def Obligations.WaitingAndWaits : Prop := WaitingOperations ∧ WaitsEnd

/-- An operation without STOP and a LIT join the bundle that their facet collects (R32, R36). -/
def Obligations.BundleForms : Prop := OperationJoinsBundle ∧ LiteralJoinsOrIssues

/-- Vector MAC operations: in flight for four bundles, then added to their accumulator (R38, R100 to R102). -/
def Obligations.MacResult : Prop := MacInFlight ∧ MacLandsOnAccumulator

/-- Remote operations issue with their checks and complete at their targets (R116, R119 to R124). -/
def Obligations.RemoteOperations : Prop := RemoteOperationIssues ∧ RemoteOperationCompletes

/-- Branches, calls and returns (R46, R137 to R143). -/
def Obligations.BranchesAndCalls : Prop := BranchTaken ∧ CallAndReturn

/-- SYSCALL, BRK and KENTER make an entry due, and RETX returns from one (R188 to R195). -/
def Obligations.ExceptionRequestsAndReturn : Prop := EntryBecomesDue ∧ ReturnFromException

/-- Results land before the bundle that reads them, and the loop-end action follows a bundle (R39, R49, R148). -/
def Obligations.LandingAndLoopEnd : Prop := ResultLandsEarly ∧ LoopEndActionTaken

/-- Taking an exception: what is saved, where the facet goes on, and when the facet is reset instead (R177, R179, R181, R184, R185). -/
def Obligations.ExceptionEntry : Prop := ExceptionEntryTaken ∧ ExceptionEntryResets

/-- What a facet reset clears, and writes to the facet register block (R58, R60, R65, R68, R224, R417). -/
def Obligations.FacetResetAndRegisterBlock : Prop := FacetResetClears ∧ FacetRegisterBlockTakesWrites

/-- Interrupt sources take events, and requests are claimed and ended (R207 to R214). -/
def Obligations.Interrupts : Prop := InterruptClaimAndEnd ∧ InterruptSourcesTakeEvents

/-- First-touch fills and patrol reads of DRAM (R241 to R243, R524). -/
def Obligations.Dram : Prop := DramFillEnds ∧ DramPatrolLogs

/-- Reconstruction of a page, and seam replays, where the same flit is one replayed within 48 FCLK by the model's choice (R15, R262 to R266; log
entry 6). -/
def Obligations.ReconstructionAndSeams : Prop := ReconstructionOutcome ∧ SeamReplayCounts

/-- The scrubber and the test mode of the checkers (R271 to R273, R282, R283). -/
def Obligations.ScrubAndChecker : Prop := ScrubPasses ∧ CheckerTestMode

/-- A channel starts and issues its bursts (R291 to R294, R296). -/
def Obligations.MoversStart : Prop := MoverStarts ∧ MoverBurst

/-- Steps and rates of store time, and the time check words (R305 to R308). -/
def Obligations.TimeStepsAndCheckWords : Prop := StepsAndRates ∧ CheckWords

/-- The pulse per second, and the PTP servo, whose rate is a free value (R309 to R312, R320, R520; log entry 5). -/
def Obligations.PulsesAndServo : Prop := PulsePerSecond ∧ PtpServo

/-- Events of the hatband and its banks (R319, R321, R323 to R326). -/
def Obligations.Hatband : Prop := HatbandDelivers ∧ HatbandBanks

/-- Port groups, cells and power feeds (R331, R332, R334, R353 to R355). -/
def Obligations.GroupsAndFeeds : Prop := GroupAndCellEnable ∧ PowerFeeds

/-- FIFOs of a port cell and the bursts of its serializer (R333, R336, R339 to R341, R351). -/
def Obligations.CellData : Prop := CellFifos ∧ CellBursts

/-- Events and measurements of a port cell (R335, R342, R344 to R347, R349). -/
def Obligations.CellInputs : Prop := CellEvents ∧ CellMeasurement

/-- Shift entries and the operations of blocker threads on their cells and on themselves (R360, R364, R365, R367, R369, R370, R378). -/
def Obligations.ThreadOperations : Prop := ShiftEntryEnds ∧ CoprocessorCellOperations ∧ CoprocessorThreadOperations

/-- Threads of a blocker and its microcode banks (R358 to R363, R367, R368, R371 to R374, R378). -/
def Obligations.Blockers : Prop := BlockerThreads ∧ BlockerBanks
end

