-- ==== Sys2Proof/Laws/Bits.lean ====
section
/-! SUPPORT. The laws of bit fields: reads of a field or bit after a write of a field or bit. -/
namespace Sys2Proof.Laws
open Sys2Proof.Machine

variable {n : Nat}

theorem testBit_fld (x : BitVec n) (lo w i : Nat) : (fld x lo w).testBit i = (decide (i < w) && x.getLsbD (lo + i)) := by
  unfold fld
  simp [BitVec.getLsbD, Nat.testBit_mod_two_pow, Nat.testBit_div_two_pow, Nat.add_comm]

theorem fld_lt (x : BitVec n) (lo w : Nat) : fld x lo w < 2 ^ w := Nat.mod_lt _ (by positivity)

/-- Every bit of a value in which a field has been replaced. -/
theorem getLsbD_setFld (x : BitVec n) (lo w v i : Nat) :
    (setFld x lo w v).getLsbD i = (decide (i < n) && if lo ≤ i ∧ i < lo + w then v.testBit (i - lo) else x.getLsbD i) := by
  unfold setFld
  rw [BitVec.getLsbD_ofNat]
  by_cases hn : i < n
  · simp only [hn, decide_true, Bool.true_and]
    have e1 : x.toNat = 2 ^ lo * (x.toNat / 2 ^ lo) + x.toNat % 2 ^ lo := (Nat.div_add_mod _ _).symm
    have e2 : x.toNat / 2 ^ lo = 2 ^ w * (x.toNat / 2 ^ lo / 2 ^ w) + x.toNat / 2 ^ lo % 2 ^ w := (Nat.div_add_mod _ _).symm
    set a := x.toNat % 2 ^ lo with ha
    set q := x.toNat / 2 ^ lo with hq
    set h := q / 2 ^ w with hh
    set f := q % 2 ^ w with hf
    have hal : a < 2 ^ lo := Nat.mod_lt _ (by positivity)
    have hfl : f < 2 ^ w := Nat.mod_lt _ (by positivity)
    have hvl : v % 2 ^ w < 2 ^ w := Nat.mod_lt _ (by positivity)
    have hx : x.getLsbD i = x.toNat.testBit i := rfl
    rw [hx, e1]
    have : 2 ^ lo * q + a - f * 2 ^ lo + v % 2 ^ w * 2 ^ lo = 2 ^ lo * (2 ^ w * h + v % 2 ^ w) + a := by
      rw [e2]
      rw [Nat.mul_add, Nat.mul_add, Nat.mul_comm f]
      rw [Nat.mul_comm (v % 2 ^ w)]
      omega
    rw [this, Nat.testBit_two_pow_mul_add _ hal, Nat.testBit_two_pow_mul_add _ hal, e2,
      Nat.testBit_two_pow_mul_add _ hvl, Nat.testBit_two_pow_mul_add _ hfl]
    by_cases c1 : i < lo
    · have : ¬ (lo ≤ i ∧ i < lo + w) := by omega
      rw [if_pos c1, if_neg this, if_pos c1]
    · by_cases c2 : i - lo < w
      · have : lo ≤ i ∧ i < lo + w := by omega
        rw [if_neg c1, if_pos c2, if_pos this, Nat.testBit_mod_two_pow, decide_eq_true c2, Bool.true_and]
      · have : ¬ (lo ≤ i ∧ i < lo + w) := by omega
        rw [if_neg c1, if_neg c2, if_neg this, if_neg c1, if_neg c2]
  · simp [hn]

/-- A field just written. -/
theorem fld_setFld_same (x : BitVec n) (lo w v : Nat) (h : lo + w ≤ n) : fld (setFld x lo w v) lo w = v % 2 ^ w := by
  apply Nat.eq_of_testBit_eq
  intro i
  rw [testBit_fld, getLsbD_setFld, Nat.testBit_mod_two_pow]
  by_cases hi : i < w
  · have h1 : lo + i < n := by omega
    simp [hi, h1]
  · simp [hi]

/-- A field apart from the one written. -/
theorem fld_setFld_apart (x : BitVec n) {lo w v lo' w' : Nat} (h : lo' + w' ≤ lo ∨ lo + w ≤ lo') :
    fld (setFld x lo w v) lo' w' = fld x lo' w' := by
  apply Nat.eq_of_testBit_eq
  intro i
  rw [testBit_fld, testBit_fld, getLsbD_setFld]
  by_cases hi : i < w'
  · have h1 : ¬ (lo ≤ lo' + i ∧ lo' + i < lo + w) := by omega
    simp only [hi, decide_true, Bool.true_and, h1, if_false]
    by_cases hn : lo' + i < n
    · simp [hn]
    · simp [hn, BitVec.getLsbD_of_ge x (lo' + i) (by omega)]
  · simp [hi]

theorem bit_setFld_apart (x : BitVec n) {lo w v i : Nat} (h : i < lo ∨ lo + w ≤ i) : bit (setFld x lo w v) i = bit x i := by
  unfold bit
  rw [getLsbD_setFld, if_neg (by omega)]
  by_cases hn : i < n
  · simp [hn]
  · simp [hn, BitVec.getLsbD_of_ge x i (by omega)]

theorem bit_setBit_same (x : BitVec n) {i : Nat} (b : Bool) (h : i < n) : bit (setBit x i b) i = b := by
  unfold setBit bit
  rw [getLsbD_setFld]
  cases b <;> simp [h]

theorem bit_setBit_ne (x : BitVec n) {i j : Nat} (b : Bool) (h : j ≠ i) : bit (setBit x i b) j = bit x j :=
  bit_setFld_apart x (by omega)

theorem fld_setBit_apart (x : BitVec n) {i lo w : Nat} (b : Bool) (h : i < lo ∨ lo + w ≤ i) : fld (setBit x i b) lo w = fld x lo w :=
  fld_setFld_apart x (by omega)

/-- Writing a field twice. -/
theorem setFld_setFld (x : BitVec n) (lo w u v : Nat) : setFld (setFld x lo w u) lo w v = setFld x lo w v := by
  apply BitVec.eq_of_getLsbD_eq
  intro i hi
  simp only [getLsbD_setFld, hi, decide_true, Bool.true_and]
  split <;> rfl

end Sys2Proof.Laws
end

