-- ==== Sys2Proof/Laws/State.lean ====
section
/-! SUPPORT. What each primitive update of the state changes and what it leaves: one lemma per update, a conjunction over the
fields of State that simp uses as one rule per field. -/
namespace Sys2Proof.Laws
open Sys2Proof.Machine

@[simp] theorem emit_fields (o : Out) (s : State) :
    (emit o s).pending = s.pending ∧ (emit o s).fclk = s.fclk ∧ (emit o s).free = s.free ∧ (emit o s).out = s.out ++ [o] ∧
    (emit o s).regs = s.regs ∧ (emit o s).hits = s.hits ∧ (emit o s).sets = s.sets ∧ (emit o s).mem = s.mem ∧
    (emit o s).tags = s.tags ∧ (emit o s).vbits = s.vbits ∧ (emit o s).raw = s.raw ∧ (emit o s).marks = s.marks ∧
    (emit o s).writes = s.writes ∧ (emit o s).modeNext = s.modeNext ∧ (emit o s).touched = s.touched ∧ (emit o s).fills = s.fills ∧
    (emit o s).heldWrites = s.heldWrites ∧ (emit o s).facets = s.facets ∧ (emit o s).ints = s.ints ∧ (emit o s).intc = s.intc ∧
    (emit o s).intWas = s.intWas ∧ (emit o s).refusals = s.refusals ∧ (emit o s).tb = s.tb ∧ (emit o s).timWrites = s.timWrites ∧
    (emit o s).epochs = s.epochs ∧ (emit o s).locks = s.locks ∧ (emit o s).pulses = s.pulses ∧ (emit o s).ident = s.ident ∧
    (emit o s).ledger = s.ledger ∧ (emit o s).metro = s.metro ∧ (emit o s).sideDev = s.sideDev ∧ (emit o s).integ = s.integ ∧
    (emit o s).chans = s.chans ∧ (emit o s).engines = s.engines ∧ (emit o s).cells = s.cells ∧ (emit o s).feeds = s.feeds ∧
    (emit o s).threads = s.threads ∧ (emit o s).blockers = s.blockers ∧ (emit o s).wakes = s.wakes ∧ (emit o s).macs = s.macs ∧
    (emit o s).fabric = s.fabric ∧ (emit o s).disc = s.disc ∧ (emit o s).msixOpen = s.msixOpen ∧ (emit o s).msixHeld = s.msixHeld ∧
    (emit o s).ses = s.ses ∧ (emit o s).gly = s.gly ∧ (emit o s).bez = s.bez ∧ (emit o s).pwr = s.pwr ∧ (emit o s).links = s.links :=
  ⟨rfl, rfl, rfl, rfl, rfl, rfl, rfl, rfl, rfl, rfl, rfl, rfl, rfl, rfl, rfl, rfl, rfl, rfl, rfl, rfl, rfl, rfl, rfl, rfl, rfl, rfl, rfl, rfl, rfl, rfl, rfl, rfl, rfl, rfl, rfl, rfl, rfl, rfl, rfl, rfl, rfl, rfl, rfl, rfl, rfl, rfl, rfl, rfl, rfl⟩

@[simp] theorem setMem_fields (x : List Host.Cell) (s : State) :
    (setMem x s).pending = s.pending ∧ (setMem x s).fclk = s.fclk ∧ (setMem x s).free = s.free ∧ (setMem x s).out = s.out ∧
    (setMem x s).regs = s.regs ∧ (setMem x s).hits = s.hits ∧ (setMem x s).sets = s.sets ∧ (setMem x s).mem = x ∧
    (setMem x s).tags = s.tags ∧ (setMem x s).vbits = s.vbits ∧ (setMem x s).raw = s.raw ∧ (setMem x s).marks = s.marks ∧
    (setMem x s).writes = s.writes ∧ (setMem x s).modeNext = s.modeNext ∧ (setMem x s).touched = s.touched ∧
    (setMem x s).fills = s.fills ∧ (setMem x s).heldWrites = s.heldWrites ∧ (setMem x s).facets = s.facets ∧
    (setMem x s).ints = s.ints ∧ (setMem x s).intc = s.intc ∧ (setMem x s).intWas = s.intWas ∧ (setMem x s).refusals = s.refusals ∧
    (setMem x s).tb = s.tb ∧ (setMem x s).timWrites = s.timWrites ∧ (setMem x s).epochs = s.epochs ∧ (setMem x s).locks = s.locks ∧
    (setMem x s).pulses = s.pulses ∧ (setMem x s).ident = s.ident ∧ (setMem x s).ledger = s.ledger ∧ (setMem x s).metro = s.metro ∧
    (setMem x s).sideDev = s.sideDev ∧ (setMem x s).integ = s.integ ∧ (setMem x s).chans = s.chans ∧
    (setMem x s).engines = s.engines ∧ (setMem x s).cells = s.cells ∧ (setMem x s).feeds = s.feeds ∧
    (setMem x s).threads = s.threads ∧ (setMem x s).blockers = s.blockers ∧ (setMem x s).wakes = s.wakes ∧
    (setMem x s).macs = s.macs ∧ (setMem x s).fabric = s.fabric ∧ (setMem x s).disc = s.disc ∧ (setMem x s).msixOpen = s.msixOpen ∧
    (setMem x s).msixHeld = s.msixHeld ∧ (setMem x s).ses = s.ses ∧ (setMem x s).gly = s.gly ∧ (setMem x s).bez = s.bez ∧
    (setMem x s).pwr = s.pwr ∧ (setMem x s).links = s.links :=
  ⟨rfl, rfl, rfl, rfl, rfl, rfl, rfl, rfl, rfl, rfl, rfl, rfl, rfl, rfl, rfl, rfl, rfl, rfl, rfl, rfl, rfl, rfl, rfl, rfl, rfl, rfl, rfl, rfl, rfl, rfl, rfl, rfl, rfl, rfl, rfl, rfl, rfl, rfl, rfl, rfl, rfl, rfl, rfl, rfl, rfl, rfl, rfl, rfl, rfl⟩

@[simp] theorem setTags_fields (x : List Nat) (s : State) :
    (setTags x s).pending = s.pending ∧ (setTags x s).fclk = s.fclk ∧ (setTags x s).free = s.free ∧ (setTags x s).out = s.out ∧
    (setTags x s).regs = s.regs ∧ (setTags x s).hits = s.hits ∧ (setTags x s).sets = s.sets ∧ (setTags x s).mem = s.mem ∧
    (setTags x s).tags = x ∧ (setTags x s).vbits = s.vbits ∧ (setTags x s).raw = s.raw ∧ (setTags x s).marks = s.marks ∧
    (setTags x s).writes = s.writes ∧ (setTags x s).modeNext = s.modeNext ∧ (setTags x s).touched = s.touched ∧
    (setTags x s).fills = s.fills ∧ (setTags x s).heldWrites = s.heldWrites ∧ (setTags x s).facets = s.facets ∧
    (setTags x s).ints = s.ints ∧ (setTags x s).intc = s.intc ∧ (setTags x s).intWas = s.intWas ∧
    (setTags x s).refusals = s.refusals ∧ (setTags x s).tb = s.tb ∧ (setTags x s).timWrites = s.timWrites ∧
    (setTags x s).epochs = s.epochs ∧ (setTags x s).locks = s.locks ∧ (setTags x s).pulses = s.pulses ∧
    (setTags x s).ident = s.ident ∧ (setTags x s).ledger = s.ledger ∧ (setTags x s).metro = s.metro ∧
    (setTags x s).sideDev = s.sideDev ∧ (setTags x s).integ = s.integ ∧ (setTags x s).chans = s.chans ∧
    (setTags x s).engines = s.engines ∧ (setTags x s).cells = s.cells ∧ (setTags x s).feeds = s.feeds ∧
    (setTags x s).threads = s.threads ∧ (setTags x s).blockers = s.blockers ∧ (setTags x s).wakes = s.wakes ∧
    (setTags x s).macs = s.macs ∧ (setTags x s).fabric = s.fabric ∧ (setTags x s).disc = s.disc ∧
    (setTags x s).msixOpen = s.msixOpen ∧ (setTags x s).msixHeld = s.msixHeld ∧ (setTags x s).ses = s.ses ∧
    (setTags x s).gly = s.gly ∧ (setTags x s).bez = s.bez ∧ (setTags x s).pwr = s.pwr ∧ (setTags x s).links = s.links :=
  ⟨rfl, rfl, rfl, rfl, rfl, rfl, rfl, rfl, rfl, rfl, rfl, rfl, rfl, rfl, rfl, rfl, rfl, rfl, rfl, rfl, rfl, rfl, rfl, rfl, rfl, rfl, rfl, rfl, rfl, rfl, rfl, rfl, rfl, rfl, rfl, rfl, rfl, rfl, rfl, rfl, rfl, rfl, rfl, rfl, rfl, rfl, rfl, rfl, rfl⟩

@[simp] theorem setVbits_fields (x : List Nat) (s : State) :
    (setVbits x s).pending = s.pending ∧ (setVbits x s).fclk = s.fclk ∧ (setVbits x s).free = s.free ∧ (setVbits x s).out = s.out ∧
    (setVbits x s).regs = s.regs ∧ (setVbits x s).hits = s.hits ∧ (setVbits x s).sets = s.sets ∧ (setVbits x s).mem = s.mem ∧
    (setVbits x s).tags = s.tags ∧ (setVbits x s).vbits = x ∧ (setVbits x s).raw = s.raw ∧ (setVbits x s).marks = s.marks ∧
    (setVbits x s).writes = s.writes ∧ (setVbits x s).modeNext = s.modeNext ∧ (setVbits x s).touched = s.touched ∧
    (setVbits x s).fills = s.fills ∧ (setVbits x s).heldWrites = s.heldWrites ∧ (setVbits x s).facets = s.facets ∧
    (setVbits x s).ints = s.ints ∧ (setVbits x s).intc = s.intc ∧ (setVbits x s).intWas = s.intWas ∧
    (setVbits x s).refusals = s.refusals ∧ (setVbits x s).tb = s.tb ∧ (setVbits x s).timWrites = s.timWrites ∧
    (setVbits x s).epochs = s.epochs ∧ (setVbits x s).locks = s.locks ∧ (setVbits x s).pulses = s.pulses ∧
    (setVbits x s).ident = s.ident ∧ (setVbits x s).ledger = s.ledger ∧ (setVbits x s).metro = s.metro ∧
    (setVbits x s).sideDev = s.sideDev ∧ (setVbits x s).integ = s.integ ∧ (setVbits x s).chans = s.chans ∧
    (setVbits x s).engines = s.engines ∧ (setVbits x s).cells = s.cells ∧ (setVbits x s).feeds = s.feeds ∧
    (setVbits x s).threads = s.threads ∧ (setVbits x s).blockers = s.blockers ∧ (setVbits x s).wakes = s.wakes ∧
    (setVbits x s).macs = s.macs ∧ (setVbits x s).fabric = s.fabric ∧ (setVbits x s).disc = s.disc ∧
    (setVbits x s).msixOpen = s.msixOpen ∧ (setVbits x s).msixHeld = s.msixHeld ∧ (setVbits x s).ses = s.ses ∧
    (setVbits x s).gly = s.gly ∧ (setVbits x s).bez = s.bez ∧ (setVbits x s).pwr = s.pwr ∧ (setVbits x s).links = s.links :=
  ⟨rfl, rfl, rfl, rfl, rfl, rfl, rfl, rfl, rfl, rfl, rfl, rfl, rfl, rfl, rfl, rfl, rfl, rfl, rfl, rfl, rfl, rfl, rfl, rfl, rfl, rfl, rfl, rfl, rfl, rfl, rfl, rfl, rfl, rfl, rfl, rfl, rfl, rfl, rfl, rfl, rfl, rfl, rfl, rfl, rfl, rfl, rfl, rfl, rfl⟩

@[simp] theorem setRawWords_fields (x : List (Nat × RawWord)) (s : State) :
    (setRawWords x s).pending = s.pending ∧ (setRawWords x s).fclk = s.fclk ∧ (setRawWords x s).free = s.free ∧
    (setRawWords x s).out = s.out ∧ (setRawWords x s).regs = s.regs ∧ (setRawWords x s).hits = s.hits ∧
    (setRawWords x s).sets = s.sets ∧ (setRawWords x s).mem = s.mem ∧ (setRawWords x s).tags = s.tags ∧
    (setRawWords x s).vbits = s.vbits ∧ (setRawWords x s).raw = x ∧ (setRawWords x s).marks = s.marks ∧
    (setRawWords x s).writes = s.writes ∧ (setRawWords x s).modeNext = s.modeNext ∧ (setRawWords x s).touched = s.touched ∧
    (setRawWords x s).fills = s.fills ∧ (setRawWords x s).heldWrites = s.heldWrites ∧ (setRawWords x s).facets = s.facets ∧
    (setRawWords x s).ints = s.ints ∧ (setRawWords x s).intc = s.intc ∧ (setRawWords x s).intWas = s.intWas ∧
    (setRawWords x s).refusals = s.refusals ∧ (setRawWords x s).tb = s.tb ∧ (setRawWords x s).timWrites = s.timWrites ∧
    (setRawWords x s).epochs = s.epochs ∧ (setRawWords x s).locks = s.locks ∧ (setRawWords x s).pulses = s.pulses ∧
    (setRawWords x s).ident = s.ident ∧ (setRawWords x s).ledger = s.ledger ∧ (setRawWords x s).metro = s.metro ∧
    (setRawWords x s).sideDev = s.sideDev ∧ (setRawWords x s).integ = s.integ ∧ (setRawWords x s).chans = s.chans ∧
    (setRawWords x s).engines = s.engines ∧ (setRawWords x s).cells = s.cells ∧ (setRawWords x s).feeds = s.feeds ∧
    (setRawWords x s).threads = s.threads ∧ (setRawWords x s).blockers = s.blockers ∧ (setRawWords x s).wakes = s.wakes ∧
    (setRawWords x s).macs = s.macs ∧ (setRawWords x s).fabric = s.fabric ∧ (setRawWords x s).disc = s.disc ∧
    (setRawWords x s).msixOpen = s.msixOpen ∧ (setRawWords x s).msixHeld = s.msixHeld ∧ (setRawWords x s).ses = s.ses ∧
    (setRawWords x s).gly = s.gly ∧ (setRawWords x s).bez = s.bez ∧ (setRawWords x s).pwr = s.pwr ∧
    (setRawWords x s).links = s.links :=
  ⟨rfl, rfl, rfl, rfl, rfl, rfl, rfl, rfl, rfl, rfl, rfl, rfl, rfl, rfl, rfl, rfl, rfl, rfl, rfl, rfl, rfl, rfl, rfl, rfl, rfl, rfl, rfl, rfl, rfl, rfl, rfl, rfl, rfl, rfl, rfl, rfl, rfl, rfl, rfl, rfl, rfl, rfl, rfl, rfl, rfl, rfl, rfl, rfl, rfl⟩

@[simp] theorem setModeNext_fields (x : List Nat) (s : State) :
    (setModeNext x s).pending = s.pending ∧ (setModeNext x s).fclk = s.fclk ∧ (setModeNext x s).free = s.free ∧
    (setModeNext x s).out = s.out ∧ (setModeNext x s).regs = s.regs ∧ (setModeNext x s).hits = s.hits ∧
    (setModeNext x s).sets = s.sets ∧ (setModeNext x s).mem = s.mem ∧ (setModeNext x s).tags = s.tags ∧
    (setModeNext x s).vbits = s.vbits ∧ (setModeNext x s).raw = s.raw ∧ (setModeNext x s).marks = s.marks ∧
    (setModeNext x s).writes = s.writes ∧ (setModeNext x s).modeNext = x ∧ (setModeNext x s).touched = s.touched ∧
    (setModeNext x s).fills = s.fills ∧ (setModeNext x s).heldWrites = s.heldWrites ∧ (setModeNext x s).facets = s.facets ∧
    (setModeNext x s).ints = s.ints ∧ (setModeNext x s).intc = s.intc ∧ (setModeNext x s).intWas = s.intWas ∧
    (setModeNext x s).refusals = s.refusals ∧ (setModeNext x s).tb = s.tb ∧ (setModeNext x s).timWrites = s.timWrites ∧
    (setModeNext x s).epochs = s.epochs ∧ (setModeNext x s).locks = s.locks ∧ (setModeNext x s).pulses = s.pulses ∧
    (setModeNext x s).ident = s.ident ∧ (setModeNext x s).ledger = s.ledger ∧ (setModeNext x s).metro = s.metro ∧
    (setModeNext x s).sideDev = s.sideDev ∧ (setModeNext x s).integ = s.integ ∧ (setModeNext x s).chans = s.chans ∧
    (setModeNext x s).engines = s.engines ∧ (setModeNext x s).cells = s.cells ∧ (setModeNext x s).feeds = s.feeds ∧
    (setModeNext x s).threads = s.threads ∧ (setModeNext x s).blockers = s.blockers ∧ (setModeNext x s).wakes = s.wakes ∧
    (setModeNext x s).macs = s.macs ∧ (setModeNext x s).fabric = s.fabric ∧ (setModeNext x s).disc = s.disc ∧
    (setModeNext x s).msixOpen = s.msixOpen ∧ (setModeNext x s).msixHeld = s.msixHeld ∧ (setModeNext x s).ses = s.ses ∧
    (setModeNext x s).gly = s.gly ∧ (setModeNext x s).bez = s.bez ∧ (setModeNext x s).pwr = s.pwr ∧
    (setModeNext x s).links = s.links :=
  ⟨rfl, rfl, rfl, rfl, rfl, rfl, rfl, rfl, rfl, rfl, rfl, rfl, rfl, rfl, rfl, rfl, rfl, rfl, rfl, rfl, rfl, rfl, rfl, rfl, rfl, rfl, rfl, rfl, rfl, rfl, rfl, rfl, rfl, rfl, rfl, rfl, rfl, rfl, rfl, rfl, rfl, rfl, rfl, rfl, rfl, rfl, rfl, rfl, rfl⟩

@[simp] theorem nextWrite_fields (s : State) :
    (nextWrite s).pending = s.pending ∧ (nextWrite s).fclk = s.fclk ∧ (nextWrite s).free = s.free ∧ (nextWrite s).out = s.out ∧
    (nextWrite s).regs = s.regs ∧ (nextWrite s).hits = s.hits ∧ (nextWrite s).sets = s.sets ∧ (nextWrite s).mem = s.mem ∧
    (nextWrite s).tags = s.tags ∧ (nextWrite s).vbits = s.vbits ∧ (nextWrite s).raw = s.raw ∧ (nextWrite s).marks = s.marks ∧
    (nextWrite s).writes = s.writes + 1 ∧ (nextWrite s).modeNext = s.modeNext ∧ (nextWrite s).touched = s.touched ∧
    (nextWrite s).fills = s.fills ∧ (nextWrite s).heldWrites = s.heldWrites ∧ (nextWrite s).facets = s.facets ∧
    (nextWrite s).ints = s.ints ∧ (nextWrite s).intc = s.intc ∧ (nextWrite s).intWas = s.intWas ∧
    (nextWrite s).refusals = s.refusals ∧ (nextWrite s).tb = s.tb ∧ (nextWrite s).timWrites = s.timWrites ∧
    (nextWrite s).epochs = s.epochs ∧ (nextWrite s).locks = s.locks ∧ (nextWrite s).pulses = s.pulses ∧
    (nextWrite s).ident = s.ident ∧ (nextWrite s).ledger = s.ledger ∧ (nextWrite s).metro = s.metro ∧
    (nextWrite s).sideDev = s.sideDev ∧ (nextWrite s).integ = s.integ ∧ (nextWrite s).chans = s.chans ∧
    (nextWrite s).engines = s.engines ∧ (nextWrite s).cells = s.cells ∧ (nextWrite s).feeds = s.feeds ∧
    (nextWrite s).threads = s.threads ∧ (nextWrite s).blockers = s.blockers ∧ (nextWrite s).wakes = s.wakes ∧
    (nextWrite s).macs = s.macs ∧ (nextWrite s).fabric = s.fabric ∧ (nextWrite s).disc = s.disc ∧
    (nextWrite s).msixOpen = s.msixOpen ∧ (nextWrite s).msixHeld = s.msixHeld ∧ (nextWrite s).ses = s.ses ∧
    (nextWrite s).gly = s.gly ∧ (nextWrite s).bez = s.bez ∧ (nextWrite s).pwr = s.pwr ∧ (nextWrite s).links = s.links :=
  ⟨rfl, rfl, rfl, rfl, rfl, rfl, rfl, rfl, rfl, rfl, rfl, rfl, rfl, rfl, rfl, rfl, rfl, rfl, rfl, rfl, rfl, rfl, rfl, rfl, rfl, rfl, rfl, rfl, rfl, rfl, rfl, rfl, rfl, rfl, rfl, rfl, rfl, rfl, rfl, rfl, rfl, rfl, rfl, rfl, rfl, rfl, rfl, rfl, rfl⟩

@[simp] theorem setTimWrites_fields (x : List (Nat × (Nat × BitVec 64))) (s : State) :
    (setTimWrites x s).pending = s.pending ∧ (setTimWrites x s).fclk = s.fclk ∧ (setTimWrites x s).free = s.free ∧
    (setTimWrites x s).out = s.out ∧ (setTimWrites x s).regs = s.regs ∧ (setTimWrites x s).hits = s.hits ∧
    (setTimWrites x s).sets = s.sets ∧ (setTimWrites x s).mem = s.mem ∧ (setTimWrites x s).tags = s.tags ∧
    (setTimWrites x s).vbits = s.vbits ∧ (setTimWrites x s).raw = s.raw ∧ (setTimWrites x s).marks = s.marks ∧
    (setTimWrites x s).writes = s.writes ∧ (setTimWrites x s).modeNext = s.modeNext ∧ (setTimWrites x s).touched = s.touched ∧
    (setTimWrites x s).fills = s.fills ∧ (setTimWrites x s).heldWrites = s.heldWrites ∧ (setTimWrites x s).facets = s.facets ∧
    (setTimWrites x s).ints = s.ints ∧ (setTimWrites x s).intc = s.intc ∧ (setTimWrites x s).intWas = s.intWas ∧
    (setTimWrites x s).refusals = s.refusals ∧ (setTimWrites x s).tb = s.tb ∧ (setTimWrites x s).timWrites = x ∧
    (setTimWrites x s).epochs = s.epochs ∧ (setTimWrites x s).locks = s.locks ∧ (setTimWrites x s).pulses = s.pulses ∧
    (setTimWrites x s).ident = s.ident ∧ (setTimWrites x s).ledger = s.ledger ∧ (setTimWrites x s).metro = s.metro ∧
    (setTimWrites x s).sideDev = s.sideDev ∧ (setTimWrites x s).integ = s.integ ∧ (setTimWrites x s).chans = s.chans ∧
    (setTimWrites x s).engines = s.engines ∧ (setTimWrites x s).cells = s.cells ∧ (setTimWrites x s).feeds = s.feeds ∧
    (setTimWrites x s).threads = s.threads ∧ (setTimWrites x s).blockers = s.blockers ∧ (setTimWrites x s).wakes = s.wakes ∧
    (setTimWrites x s).macs = s.macs ∧ (setTimWrites x s).fabric = s.fabric ∧ (setTimWrites x s).disc = s.disc ∧
    (setTimWrites x s).msixOpen = s.msixOpen ∧ (setTimWrites x s).msixHeld = s.msixHeld ∧ (setTimWrites x s).ses = s.ses ∧
    (setTimWrites x s).gly = s.gly ∧ (setTimWrites x s).bez = s.bez ∧ (setTimWrites x s).pwr = s.pwr ∧
    (setTimWrites x s).links = s.links :=
  ⟨rfl, rfl, rfl, rfl, rfl, rfl, rfl, rfl, rfl, rfl, rfl, rfl, rfl, rfl, rfl, rfl, rfl, rfl, rfl, rfl, rfl, rfl, rfl, rfl, rfl, rfl, rfl, rfl, rfl, rfl, rfl, rfl, rfl, rfl, rfl, rfl, rfl, rfl, rfl, rfl, rfl, rfl, rfl, rfl, rfl, rfl, rfl, rfl, rfl⟩

@[simp] theorem setMarks_fields (x : List WMark) (s : State) :
    (setMarks x s).pending = s.pending ∧ (setMarks x s).fclk = s.fclk ∧ (setMarks x s).free = s.free ∧ (setMarks x s).out = s.out ∧
    (setMarks x s).regs = s.regs ∧ (setMarks x s).hits = s.hits ∧ (setMarks x s).sets = s.sets ∧ (setMarks x s).mem = s.mem ∧
    (setMarks x s).tags = s.tags ∧ (setMarks x s).vbits = s.vbits ∧ (setMarks x s).raw = s.raw ∧ (setMarks x s).marks = x ∧
    (setMarks x s).writes = s.writes ∧ (setMarks x s).modeNext = s.modeNext ∧ (setMarks x s).touched = s.touched ∧
    (setMarks x s).fills = s.fills ∧ (setMarks x s).heldWrites = s.heldWrites ∧ (setMarks x s).facets = s.facets ∧
    (setMarks x s).ints = s.ints ∧ (setMarks x s).intc = s.intc ∧ (setMarks x s).intWas = s.intWas ∧
    (setMarks x s).refusals = s.refusals ∧ (setMarks x s).tb = s.tb ∧ (setMarks x s).timWrites = s.timWrites ∧
    (setMarks x s).epochs = s.epochs ∧ (setMarks x s).locks = s.locks ∧ (setMarks x s).pulses = s.pulses ∧
    (setMarks x s).ident = s.ident ∧ (setMarks x s).ledger = s.ledger ∧ (setMarks x s).metro = s.metro ∧
    (setMarks x s).sideDev = s.sideDev ∧ (setMarks x s).integ = s.integ ∧ (setMarks x s).chans = s.chans ∧
    (setMarks x s).engines = s.engines ∧ (setMarks x s).cells = s.cells ∧ (setMarks x s).feeds = s.feeds ∧
    (setMarks x s).threads = s.threads ∧ (setMarks x s).blockers = s.blockers ∧ (setMarks x s).wakes = s.wakes ∧
    (setMarks x s).macs = s.macs ∧ (setMarks x s).fabric = s.fabric ∧ (setMarks x s).disc = s.disc ∧
    (setMarks x s).msixOpen = s.msixOpen ∧ (setMarks x s).msixHeld = s.msixHeld ∧ (setMarks x s).ses = s.ses ∧
    (setMarks x s).gly = s.gly ∧ (setMarks x s).bez = s.bez ∧ (setMarks x s).pwr = s.pwr ∧ (setMarks x s).links = s.links :=
  ⟨rfl, rfl, rfl, rfl, rfl, rfl, rfl, rfl, rfl, rfl, rfl, rfl, rfl, rfl, rfl, rfl, rfl, rfl, rfl, rfl, rfl, rfl, rfl, rfl, rfl, rfl, rfl, rfl, rfl, rfl, rfl, rfl, rfl, rfl, rfl, rfl, rfl, rfl, rfl, rfl, rfl, rfl, rfl, rfl, rfl, rfl, rfl, rfl, rfl⟩

@[simp] theorem setTouched_fields (x : List Nat) (s : State) :
    (setTouched x s).pending = s.pending ∧ (setTouched x s).fclk = s.fclk ∧ (setTouched x s).free = s.free ∧
    (setTouched x s).out = s.out ∧ (setTouched x s).regs = s.regs ∧ (setTouched x s).hits = s.hits ∧ (setTouched x s).sets = s.sets ∧
    (setTouched x s).mem = s.mem ∧ (setTouched x s).tags = s.tags ∧ (setTouched x s).vbits = s.vbits ∧ (setTouched x s).raw = s.raw ∧
    (setTouched x s).marks = s.marks ∧ (setTouched x s).writes = s.writes ∧ (setTouched x s).modeNext = s.modeNext ∧
    (setTouched x s).touched = x ∧ (setTouched x s).fills = s.fills ∧ (setTouched x s).heldWrites = s.heldWrites ∧
    (setTouched x s).facets = s.facets ∧ (setTouched x s).ints = s.ints ∧ (setTouched x s).intc = s.intc ∧
    (setTouched x s).intWas = s.intWas ∧ (setTouched x s).refusals = s.refusals ∧ (setTouched x s).tb = s.tb ∧
    (setTouched x s).timWrites = s.timWrites ∧ (setTouched x s).epochs = s.epochs ∧ (setTouched x s).locks = s.locks ∧
    (setTouched x s).pulses = s.pulses ∧ (setTouched x s).ident = s.ident ∧ (setTouched x s).ledger = s.ledger ∧
    (setTouched x s).metro = s.metro ∧ (setTouched x s).sideDev = s.sideDev ∧ (setTouched x s).integ = s.integ ∧
    (setTouched x s).chans = s.chans ∧ (setTouched x s).engines = s.engines ∧ (setTouched x s).cells = s.cells ∧
    (setTouched x s).feeds = s.feeds ∧ (setTouched x s).threads = s.threads ∧ (setTouched x s).blockers = s.blockers ∧
    (setTouched x s).wakes = s.wakes ∧ (setTouched x s).macs = s.macs ∧ (setTouched x s).fabric = s.fabric ∧
    (setTouched x s).disc = s.disc ∧ (setTouched x s).msixOpen = s.msixOpen ∧ (setTouched x s).msixHeld = s.msixHeld ∧
    (setTouched x s).ses = s.ses ∧ (setTouched x s).gly = s.gly ∧ (setTouched x s).bez = s.bez ∧ (setTouched x s).pwr = s.pwr ∧
    (setTouched x s).links = s.links :=
  ⟨rfl, rfl, rfl, rfl, rfl, rfl, rfl, rfl, rfl, rfl, rfl, rfl, rfl, rfl, rfl, rfl, rfl, rfl, rfl, rfl, rfl, rfl, rfl, rfl, rfl, rfl, rfl, rfl, rfl, rfl, rfl, rfl, rfl, rfl, rfl, rfl, rfl, rfl, rfl, rfl, rfl, rfl, rfl, rfl, rfl, rfl, rfl, rfl, rfl⟩

@[simp] theorem setFills_fields (x : List Nat) (s : State) :
    (setFills x s).pending = s.pending ∧ (setFills x s).fclk = s.fclk ∧ (setFills x s).free = s.free ∧ (setFills x s).out = s.out ∧
    (setFills x s).regs = s.regs ∧ (setFills x s).hits = s.hits ∧ (setFills x s).sets = s.sets ∧ (setFills x s).mem = s.mem ∧
    (setFills x s).tags = s.tags ∧ (setFills x s).vbits = s.vbits ∧ (setFills x s).raw = s.raw ∧ (setFills x s).marks = s.marks ∧
    (setFills x s).writes = s.writes ∧ (setFills x s).modeNext = s.modeNext ∧ (setFills x s).touched = s.touched ∧
    (setFills x s).fills = x ∧ (setFills x s).heldWrites = s.heldWrites ∧ (setFills x s).facets = s.facets ∧
    (setFills x s).ints = s.ints ∧ (setFills x s).intc = s.intc ∧ (setFills x s).intWas = s.intWas ∧
    (setFills x s).refusals = s.refusals ∧ (setFills x s).tb = s.tb ∧ (setFills x s).timWrites = s.timWrites ∧
    (setFills x s).epochs = s.epochs ∧ (setFills x s).locks = s.locks ∧ (setFills x s).pulses = s.pulses ∧
    (setFills x s).ident = s.ident ∧ (setFills x s).ledger = s.ledger ∧ (setFills x s).metro = s.metro ∧
    (setFills x s).sideDev = s.sideDev ∧ (setFills x s).integ = s.integ ∧ (setFills x s).chans = s.chans ∧
    (setFills x s).engines = s.engines ∧ (setFills x s).cells = s.cells ∧ (setFills x s).feeds = s.feeds ∧
    (setFills x s).threads = s.threads ∧ (setFills x s).blockers = s.blockers ∧ (setFills x s).wakes = s.wakes ∧
    (setFills x s).macs = s.macs ∧ (setFills x s).fabric = s.fabric ∧ (setFills x s).disc = s.disc ∧
    (setFills x s).msixOpen = s.msixOpen ∧ (setFills x s).msixHeld = s.msixHeld ∧ (setFills x s).ses = s.ses ∧
    (setFills x s).gly = s.gly ∧ (setFills x s).bez = s.bez ∧ (setFills x s).pwr = s.pwr ∧ (setFills x s).links = s.links :=
  ⟨rfl, rfl, rfl, rfl, rfl, rfl, rfl, rfl, rfl, rfl, rfl, rfl, rfl, rfl, rfl, rfl, rfl, rfl, rfl, rfl, rfl, rfl, rfl, rfl, rfl, rfl, rfl, rfl, rfl, rfl, rfl, rfl, rfl, rfl, rfl, rfl, rfl, rfl, rfl, rfl, rfl, rfl, rfl, rfl, rfl, rfl, rfl, rfl, rfl⟩

@[simp] theorem setHeldWrites_fields (x : List HeldWrite) (s : State) :
    (setHeldWrites x s).pending = s.pending ∧ (setHeldWrites x s).fclk = s.fclk ∧ (setHeldWrites x s).free = s.free ∧
    (setHeldWrites x s).out = s.out ∧ (setHeldWrites x s).regs = s.regs ∧ (setHeldWrites x s).hits = s.hits ∧
    (setHeldWrites x s).sets = s.sets ∧ (setHeldWrites x s).mem = s.mem ∧ (setHeldWrites x s).tags = s.tags ∧
    (setHeldWrites x s).vbits = s.vbits ∧ (setHeldWrites x s).raw = s.raw ∧ (setHeldWrites x s).marks = s.marks ∧
    (setHeldWrites x s).writes = s.writes ∧ (setHeldWrites x s).modeNext = s.modeNext ∧ (setHeldWrites x s).touched = s.touched ∧
    (setHeldWrites x s).fills = s.fills ∧ (setHeldWrites x s).heldWrites = x ∧ (setHeldWrites x s).facets = s.facets ∧
    (setHeldWrites x s).ints = s.ints ∧ (setHeldWrites x s).intc = s.intc ∧ (setHeldWrites x s).intWas = s.intWas ∧
    (setHeldWrites x s).refusals = s.refusals ∧ (setHeldWrites x s).tb = s.tb ∧ (setHeldWrites x s).timWrites = s.timWrites ∧
    (setHeldWrites x s).epochs = s.epochs ∧ (setHeldWrites x s).locks = s.locks ∧ (setHeldWrites x s).pulses = s.pulses ∧
    (setHeldWrites x s).ident = s.ident ∧ (setHeldWrites x s).ledger = s.ledger ∧ (setHeldWrites x s).metro = s.metro ∧
    (setHeldWrites x s).sideDev = s.sideDev ∧ (setHeldWrites x s).integ = s.integ ∧ (setHeldWrites x s).chans = s.chans ∧
    (setHeldWrites x s).engines = s.engines ∧ (setHeldWrites x s).cells = s.cells ∧ (setHeldWrites x s).feeds = s.feeds ∧
    (setHeldWrites x s).threads = s.threads ∧ (setHeldWrites x s).blockers = s.blockers ∧ (setHeldWrites x s).wakes = s.wakes ∧
    (setHeldWrites x s).macs = s.macs ∧ (setHeldWrites x s).fabric = s.fabric ∧ (setHeldWrites x s).disc = s.disc ∧
    (setHeldWrites x s).msixOpen = s.msixOpen ∧ (setHeldWrites x s).msixHeld = s.msixHeld ∧ (setHeldWrites x s).ses = s.ses ∧
    (setHeldWrites x s).gly = s.gly ∧ (setHeldWrites x s).bez = s.bez ∧ (setHeldWrites x s).pwr = s.pwr ∧
    (setHeldWrites x s).links = s.links :=
  ⟨rfl, rfl, rfl, rfl, rfl, rfl, rfl, rfl, rfl, rfl, rfl, rfl, rfl, rfl, rfl, rfl, rfl, rfl, rfl, rfl, rfl, rfl, rfl, rfl, rfl, rfl, rfl, rfl, rfl, rfl, rfl, rfl, rfl, rfl, rfl, rfl, rfl, rfl, rfl, rfl, rfl, rfl, rfl, rfl, rfl, rfl, rfl, rfl, rfl⟩

@[simp] theorem setFacets_fields (x : List (Nat × Facet)) (s : State) :
    (setFacets x s).pending = s.pending ∧ (setFacets x s).fclk = s.fclk ∧ (setFacets x s).free = s.free ∧
    (setFacets x s).out = s.out ∧ (setFacets x s).regs = s.regs ∧ (setFacets x s).hits = s.hits ∧ (setFacets x s).sets = s.sets ∧
    (setFacets x s).mem = s.mem ∧ (setFacets x s).tags = s.tags ∧ (setFacets x s).vbits = s.vbits ∧ (setFacets x s).raw = s.raw ∧
    (setFacets x s).marks = s.marks ∧ (setFacets x s).writes = s.writes ∧ (setFacets x s).modeNext = s.modeNext ∧
    (setFacets x s).touched = s.touched ∧ (setFacets x s).fills = s.fills ∧ (setFacets x s).heldWrites = s.heldWrites ∧
    (setFacets x s).facets = x ∧ (setFacets x s).ints = s.ints ∧ (setFacets x s).intc = s.intc ∧ (setFacets x s).intWas = s.intWas ∧
    (setFacets x s).refusals = s.refusals ∧ (setFacets x s).tb = s.tb ∧ (setFacets x s).timWrites = s.timWrites ∧
    (setFacets x s).epochs = s.epochs ∧ (setFacets x s).locks = s.locks ∧ (setFacets x s).pulses = s.pulses ∧
    (setFacets x s).ident = s.ident ∧ (setFacets x s).ledger = s.ledger ∧ (setFacets x s).metro = s.metro ∧
    (setFacets x s).sideDev = s.sideDev ∧ (setFacets x s).integ = s.integ ∧ (setFacets x s).chans = s.chans ∧
    (setFacets x s).engines = s.engines ∧ (setFacets x s).cells = s.cells ∧ (setFacets x s).feeds = s.feeds ∧
    (setFacets x s).threads = s.threads ∧ (setFacets x s).blockers = s.blockers ∧ (setFacets x s).wakes = s.wakes ∧
    (setFacets x s).macs = s.macs ∧ (setFacets x s).fabric = s.fabric ∧ (setFacets x s).disc = s.disc ∧
    (setFacets x s).msixOpen = s.msixOpen ∧ (setFacets x s).msixHeld = s.msixHeld ∧ (setFacets x s).ses = s.ses ∧
    (setFacets x s).gly = s.gly ∧ (setFacets x s).bez = s.bez ∧ (setFacets x s).pwr = s.pwr ∧ (setFacets x s).links = s.links :=
  ⟨rfl, rfl, rfl, rfl, rfl, rfl, rfl, rfl, rfl, rfl, rfl, rfl, rfl, rfl, rfl, rfl, rfl, rfl, rfl, rfl, rfl, rfl, rfl, rfl, rfl, rfl, rfl, rfl, rfl, rfl, rfl, rfl, rfl, rfl, rfl, rfl, rfl, rfl, rfl, rfl, rfl, rfl, rfl, rfl, rfl, rfl, rfl, rfl, rfl⟩

@[simp] theorem setInts_fields (x : List (Nat × IntSrc)) (s : State) :
    (setInts x s).pending = s.pending ∧ (setInts x s).fclk = s.fclk ∧ (setInts x s).free = s.free ∧ (setInts x s).out = s.out ∧
    (setInts x s).regs = s.regs ∧ (setInts x s).hits = s.hits ∧ (setInts x s).sets = s.sets ∧ (setInts x s).mem = s.mem ∧
    (setInts x s).tags = s.tags ∧ (setInts x s).vbits = s.vbits ∧ (setInts x s).raw = s.raw ∧ (setInts x s).marks = s.marks ∧
    (setInts x s).writes = s.writes ∧ (setInts x s).modeNext = s.modeNext ∧ (setInts x s).touched = s.touched ∧
    (setInts x s).fills = s.fills ∧ (setInts x s).heldWrites = s.heldWrites ∧ (setInts x s).facets = s.facets ∧
    (setInts x s).ints = x ∧ (setInts x s).intc = s.intc ∧ (setInts x s).intWas = s.intWas ∧ (setInts x s).refusals = s.refusals ∧
    (setInts x s).tb = s.tb ∧ (setInts x s).timWrites = s.timWrites ∧ (setInts x s).epochs = s.epochs ∧
    (setInts x s).locks = s.locks ∧ (setInts x s).pulses = s.pulses ∧ (setInts x s).ident = s.ident ∧
    (setInts x s).ledger = s.ledger ∧ (setInts x s).metro = s.metro ∧ (setInts x s).sideDev = s.sideDev ∧
    (setInts x s).integ = s.integ ∧ (setInts x s).chans = s.chans ∧ (setInts x s).engines = s.engines ∧
    (setInts x s).cells = s.cells ∧ (setInts x s).feeds = s.feeds ∧ (setInts x s).threads = s.threads ∧
    (setInts x s).blockers = s.blockers ∧ (setInts x s).wakes = s.wakes ∧ (setInts x s).macs = s.macs ∧
    (setInts x s).fabric = s.fabric ∧ (setInts x s).disc = s.disc ∧ (setInts x s).msixOpen = s.msixOpen ∧
    (setInts x s).msixHeld = s.msixHeld ∧ (setInts x s).ses = s.ses ∧ (setInts x s).gly = s.gly ∧ (setInts x s).bez = s.bez ∧
    (setInts x s).pwr = s.pwr ∧ (setInts x s).links = s.links :=
  ⟨rfl, rfl, rfl, rfl, rfl, rfl, rfl, rfl, rfl, rfl, rfl, rfl, rfl, rfl, rfl, rfl, rfl, rfl, rfl, rfl, rfl, rfl, rfl, rfl, rfl, rfl, rfl, rfl, rfl, rfl, rfl, rfl, rfl, rfl, rfl, rfl, rfl, rfl, rfl, rfl, rfl, rfl, rfl, rfl, rfl, rfl, rfl, rfl, rfl⟩

@[simp] theorem setIntc_fields (x : List (Nat × IntCtl)) (s : State) :
    (setIntc x s).pending = s.pending ∧ (setIntc x s).fclk = s.fclk ∧ (setIntc x s).free = s.free ∧ (setIntc x s).out = s.out ∧
    (setIntc x s).regs = s.regs ∧ (setIntc x s).hits = s.hits ∧ (setIntc x s).sets = s.sets ∧ (setIntc x s).mem = s.mem ∧
    (setIntc x s).tags = s.tags ∧ (setIntc x s).vbits = s.vbits ∧ (setIntc x s).raw = s.raw ∧ (setIntc x s).marks = s.marks ∧
    (setIntc x s).writes = s.writes ∧ (setIntc x s).modeNext = s.modeNext ∧ (setIntc x s).touched = s.touched ∧
    (setIntc x s).fills = s.fills ∧ (setIntc x s).heldWrites = s.heldWrites ∧ (setIntc x s).facets = s.facets ∧
    (setIntc x s).ints = s.ints ∧ (setIntc x s).intc = x ∧ (setIntc x s).intWas = s.intWas ∧ (setIntc x s).refusals = s.refusals ∧
    (setIntc x s).tb = s.tb ∧ (setIntc x s).timWrites = s.timWrites ∧ (setIntc x s).epochs = s.epochs ∧
    (setIntc x s).locks = s.locks ∧ (setIntc x s).pulses = s.pulses ∧ (setIntc x s).ident = s.ident ∧
    (setIntc x s).ledger = s.ledger ∧ (setIntc x s).metro = s.metro ∧ (setIntc x s).sideDev = s.sideDev ∧
    (setIntc x s).integ = s.integ ∧ (setIntc x s).chans = s.chans ∧ (setIntc x s).engines = s.engines ∧
    (setIntc x s).cells = s.cells ∧ (setIntc x s).feeds = s.feeds ∧ (setIntc x s).threads = s.threads ∧
    (setIntc x s).blockers = s.blockers ∧ (setIntc x s).wakes = s.wakes ∧ (setIntc x s).macs = s.macs ∧
    (setIntc x s).fabric = s.fabric ∧ (setIntc x s).disc = s.disc ∧ (setIntc x s).msixOpen = s.msixOpen ∧
    (setIntc x s).msixHeld = s.msixHeld ∧ (setIntc x s).ses = s.ses ∧ (setIntc x s).gly = s.gly ∧ (setIntc x s).bez = s.bez ∧
    (setIntc x s).pwr = s.pwr ∧ (setIntc x s).links = s.links :=
  ⟨rfl, rfl, rfl, rfl, rfl, rfl, rfl, rfl, rfl, rfl, rfl, rfl, rfl, rfl, rfl, rfl, rfl, rfl, rfl, rfl, rfl, rfl, rfl, rfl, rfl, rfl, rfl, rfl, rfl, rfl, rfl, rfl, rfl, rfl, rfl, rfl, rfl, rfl, rfl, rfl, rfl, rfl, rfl, rfl, rfl, rfl, rfl, rfl, rfl⟩

@[simp] theorem setTb_fields (x : TimeBase) (s : State) :
    (setTb x s).pending = s.pending ∧ (setTb x s).fclk = s.fclk ∧ (setTb x s).free = s.free ∧ (setTb x s).out = s.out ∧
    (setTb x s).regs = s.regs ∧ (setTb x s).hits = s.hits ∧ (setTb x s).sets = s.sets ∧ (setTb x s).mem = s.mem ∧
    (setTb x s).tags = s.tags ∧ (setTb x s).vbits = s.vbits ∧ (setTb x s).raw = s.raw ∧ (setTb x s).marks = s.marks ∧
    (setTb x s).writes = s.writes ∧ (setTb x s).modeNext = s.modeNext ∧ (setTb x s).touched = s.touched ∧
    (setTb x s).fills = s.fills ∧ (setTb x s).heldWrites = s.heldWrites ∧ (setTb x s).facets = s.facets ∧ (setTb x s).ints = s.ints ∧
    (setTb x s).intc = s.intc ∧ (setTb x s).intWas = s.intWas ∧ (setTb x s).refusals = s.refusals ∧ (setTb x s).tb = x ∧
    (setTb x s).timWrites = s.timWrites ∧ (setTb x s).epochs = s.epochs ∧ (setTb x s).locks = s.locks ∧
    (setTb x s).pulses = s.pulses ∧ (setTb x s).ident = s.ident ∧ (setTb x s).ledger = s.ledger ∧ (setTb x s).metro = s.metro ∧
    (setTb x s).sideDev = s.sideDev ∧ (setTb x s).integ = s.integ ∧ (setTb x s).chans = s.chans ∧ (setTb x s).engines = s.engines ∧
    (setTb x s).cells = s.cells ∧ (setTb x s).feeds = s.feeds ∧ (setTb x s).threads = s.threads ∧ (setTb x s).blockers = s.blockers ∧
    (setTb x s).wakes = s.wakes ∧ (setTb x s).macs = s.macs ∧ (setTb x s).fabric = s.fabric ∧ (setTb x s).disc = s.disc ∧
    (setTb x s).msixOpen = s.msixOpen ∧ (setTb x s).msixHeld = s.msixHeld ∧ (setTb x s).ses = s.ses ∧ (setTb x s).gly = s.gly ∧
    (setTb x s).bez = s.bez ∧ (setTb x s).pwr = s.pwr ∧ (setTb x s).links = s.links :=
  ⟨rfl, rfl, rfl, rfl, rfl, rfl, rfl, rfl, rfl, rfl, rfl, rfl, rfl, rfl, rfl, rfl, rfl, rfl, rfl, rfl, rfl, rfl, rfl, rfl, rfl, rfl, rfl, rfl, rfl, rfl, rfl, rfl, rfl, rfl, rfl, rfl, rfl, rfl, rfl, rfl, rfl, rfl, rfl, rfl, rfl, rfl, rfl, rfl, rfl⟩

@[simp] theorem setLocks_fields (x : Locks) (s : State) :
    (setLocks x s).pending = s.pending ∧ (setLocks x s).fclk = s.fclk ∧ (setLocks x s).free = s.free ∧ (setLocks x s).out = s.out ∧
    (setLocks x s).regs = s.regs ∧ (setLocks x s).hits = s.hits ∧ (setLocks x s).sets = s.sets ∧ (setLocks x s).mem = s.mem ∧
    (setLocks x s).tags = s.tags ∧ (setLocks x s).vbits = s.vbits ∧ (setLocks x s).raw = s.raw ∧ (setLocks x s).marks = s.marks ∧
    (setLocks x s).writes = s.writes ∧ (setLocks x s).modeNext = s.modeNext ∧ (setLocks x s).touched = s.touched ∧
    (setLocks x s).fills = s.fills ∧ (setLocks x s).heldWrites = s.heldWrites ∧ (setLocks x s).facets = s.facets ∧
    (setLocks x s).ints = s.ints ∧ (setLocks x s).intc = s.intc ∧ (setLocks x s).intWas = s.intWas ∧
    (setLocks x s).refusals = s.refusals ∧ (setLocks x s).tb = s.tb ∧ (setLocks x s).timWrites = s.timWrites ∧
    (setLocks x s).epochs = s.epochs ∧ (setLocks x s).locks = x ∧ (setLocks x s).pulses = s.pulses ∧ (setLocks x s).ident = s.ident ∧
    (setLocks x s).ledger = s.ledger ∧ (setLocks x s).metro = s.metro ∧ (setLocks x s).sideDev = s.sideDev ∧
    (setLocks x s).integ = s.integ ∧ (setLocks x s).chans = s.chans ∧ (setLocks x s).engines = s.engines ∧
    (setLocks x s).cells = s.cells ∧ (setLocks x s).feeds = s.feeds ∧ (setLocks x s).threads = s.threads ∧
    (setLocks x s).blockers = s.blockers ∧ (setLocks x s).wakes = s.wakes ∧ (setLocks x s).macs = s.macs ∧
    (setLocks x s).fabric = s.fabric ∧ (setLocks x s).disc = s.disc ∧ (setLocks x s).msixOpen = s.msixOpen ∧
    (setLocks x s).msixHeld = s.msixHeld ∧ (setLocks x s).ses = s.ses ∧ (setLocks x s).gly = s.gly ∧ (setLocks x s).bez = s.bez ∧
    (setLocks x s).pwr = s.pwr ∧ (setLocks x s).links = s.links :=
  ⟨rfl, rfl, rfl, rfl, rfl, rfl, rfl, rfl, rfl, rfl, rfl, rfl, rfl, rfl, rfl, rfl, rfl, rfl, rfl, rfl, rfl, rfl, rfl, rfl, rfl, rfl, rfl, rfl, rfl, rfl, rfl, rfl, rfl, rfl, rfl, rfl, rfl, rfl, rfl, rfl, rfl, rfl, rfl, rfl, rfl, rfl, rfl, rfl, rfl⟩

@[simp] theorem setPulses_fields (x : List Pulse) (s : State) :
    (setPulses x s).pending = s.pending ∧ (setPulses x s).fclk = s.fclk ∧ (setPulses x s).free = s.free ∧
    (setPulses x s).out = s.out ∧ (setPulses x s).regs = s.regs ∧ (setPulses x s).hits = s.hits ∧ (setPulses x s).sets = s.sets ∧
    (setPulses x s).mem = s.mem ∧ (setPulses x s).tags = s.tags ∧ (setPulses x s).vbits = s.vbits ∧ (setPulses x s).raw = s.raw ∧
    (setPulses x s).marks = s.marks ∧ (setPulses x s).writes = s.writes ∧ (setPulses x s).modeNext = s.modeNext ∧
    (setPulses x s).touched = s.touched ∧ (setPulses x s).fills = s.fills ∧ (setPulses x s).heldWrites = s.heldWrites ∧
    (setPulses x s).facets = s.facets ∧ (setPulses x s).ints = s.ints ∧ (setPulses x s).intc = s.intc ∧
    (setPulses x s).intWas = s.intWas ∧ (setPulses x s).refusals = s.refusals ∧ (setPulses x s).tb = s.tb ∧
    (setPulses x s).timWrites = s.timWrites ∧ (setPulses x s).epochs = s.epochs ∧ (setPulses x s).locks = s.locks ∧
    (setPulses x s).pulses = x ∧ (setPulses x s).ident = s.ident ∧ (setPulses x s).ledger = s.ledger ∧
    (setPulses x s).metro = s.metro ∧ (setPulses x s).sideDev = s.sideDev ∧ (setPulses x s).integ = s.integ ∧
    (setPulses x s).chans = s.chans ∧ (setPulses x s).engines = s.engines ∧ (setPulses x s).cells = s.cells ∧
    (setPulses x s).feeds = s.feeds ∧ (setPulses x s).threads = s.threads ∧ (setPulses x s).blockers = s.blockers ∧
    (setPulses x s).wakes = s.wakes ∧ (setPulses x s).macs = s.macs ∧ (setPulses x s).fabric = s.fabric ∧
    (setPulses x s).disc = s.disc ∧ (setPulses x s).msixOpen = s.msixOpen ∧ (setPulses x s).msixHeld = s.msixHeld ∧
    (setPulses x s).ses = s.ses ∧ (setPulses x s).gly = s.gly ∧ (setPulses x s).bez = s.bez ∧ (setPulses x s).pwr = s.pwr ∧
    (setPulses x s).links = s.links :=
  ⟨rfl, rfl, rfl, rfl, rfl, rfl, rfl, rfl, rfl, rfl, rfl, rfl, rfl, rfl, rfl, rfl, rfl, rfl, rfl, rfl, rfl, rfl, rfl, rfl, rfl, rfl, rfl, rfl, rfl, rfl, rfl, rfl, rfl, rfl, rfl, rfl, rfl, rfl, rfl, rfl, rfl, rfl, rfl, rfl, rfl, rfl, rfl, rfl, rfl⟩

@[simp] theorem setLedger_fields (x : Ledger) (s : State) :
    (setLedger x s).pending = s.pending ∧ (setLedger x s).fclk = s.fclk ∧ (setLedger x s).free = s.free ∧
    (setLedger x s).out = s.out ∧ (setLedger x s).regs = s.regs ∧ (setLedger x s).hits = s.hits ∧ (setLedger x s).sets = s.sets ∧
    (setLedger x s).mem = s.mem ∧ (setLedger x s).tags = s.tags ∧ (setLedger x s).vbits = s.vbits ∧ (setLedger x s).raw = s.raw ∧
    (setLedger x s).marks = s.marks ∧ (setLedger x s).writes = s.writes ∧ (setLedger x s).modeNext = s.modeNext ∧
    (setLedger x s).touched = s.touched ∧ (setLedger x s).fills = s.fills ∧ (setLedger x s).heldWrites = s.heldWrites ∧
    (setLedger x s).facets = s.facets ∧ (setLedger x s).ints = s.ints ∧ (setLedger x s).intc = s.intc ∧
    (setLedger x s).intWas = s.intWas ∧ (setLedger x s).refusals = s.refusals ∧ (setLedger x s).tb = s.tb ∧
    (setLedger x s).timWrites = s.timWrites ∧ (setLedger x s).epochs = s.epochs ∧ (setLedger x s).locks = s.locks ∧
    (setLedger x s).pulses = s.pulses ∧ (setLedger x s).ident = s.ident ∧ (setLedger x s).ledger = x ∧
    (setLedger x s).metro = s.metro ∧ (setLedger x s).sideDev = s.sideDev ∧ (setLedger x s).integ = s.integ ∧
    (setLedger x s).chans = s.chans ∧ (setLedger x s).engines = s.engines ∧ (setLedger x s).cells = s.cells ∧
    (setLedger x s).feeds = s.feeds ∧ (setLedger x s).threads = s.threads ∧ (setLedger x s).blockers = s.blockers ∧
    (setLedger x s).wakes = s.wakes ∧ (setLedger x s).macs = s.macs ∧ (setLedger x s).fabric = s.fabric ∧
    (setLedger x s).disc = s.disc ∧ (setLedger x s).msixOpen = s.msixOpen ∧ (setLedger x s).msixHeld = s.msixHeld ∧
    (setLedger x s).ses = s.ses ∧ (setLedger x s).gly = s.gly ∧ (setLedger x s).bez = s.bez ∧ (setLedger x s).pwr = s.pwr ∧
    (setLedger x s).links = s.links :=
  ⟨rfl, rfl, rfl, rfl, rfl, rfl, rfl, rfl, rfl, rfl, rfl, rfl, rfl, rfl, rfl, rfl, rfl, rfl, rfl, rfl, rfl, rfl, rfl, rfl, rfl, rfl, rfl, rfl, rfl, rfl, rfl, rfl, rfl, rfl, rfl, rfl, rfl, rfl, rfl, rfl, rfl, rfl, rfl, rfl, rfl, rfl, rfl, rfl, rfl⟩

@[simp] theorem setSideDev_fields (x : List (Nat × BitVec 130)) (s : State) :
    (setSideDev x s).pending = s.pending ∧ (setSideDev x s).fclk = s.fclk ∧ (setSideDev x s).free = s.free ∧
    (setSideDev x s).out = s.out ∧ (setSideDev x s).regs = s.regs ∧ (setSideDev x s).hits = s.hits ∧ (setSideDev x s).sets = s.sets ∧
    (setSideDev x s).mem = s.mem ∧ (setSideDev x s).tags = s.tags ∧ (setSideDev x s).vbits = s.vbits ∧ (setSideDev x s).raw = s.raw ∧
    (setSideDev x s).marks = s.marks ∧ (setSideDev x s).writes = s.writes ∧ (setSideDev x s).modeNext = s.modeNext ∧
    (setSideDev x s).touched = s.touched ∧ (setSideDev x s).fills = s.fills ∧ (setSideDev x s).heldWrites = s.heldWrites ∧
    (setSideDev x s).facets = s.facets ∧ (setSideDev x s).ints = s.ints ∧ (setSideDev x s).intc = s.intc ∧
    (setSideDev x s).intWas = s.intWas ∧ (setSideDev x s).refusals = s.refusals ∧ (setSideDev x s).tb = s.tb ∧
    (setSideDev x s).timWrites = s.timWrites ∧ (setSideDev x s).epochs = s.epochs ∧ (setSideDev x s).locks = s.locks ∧
    (setSideDev x s).pulses = s.pulses ∧ (setSideDev x s).ident = s.ident ∧ (setSideDev x s).ledger = s.ledger ∧
    (setSideDev x s).metro = s.metro ∧ (setSideDev x s).sideDev = x ∧ (setSideDev x s).integ = s.integ ∧
    (setSideDev x s).chans = s.chans ∧ (setSideDev x s).engines = s.engines ∧ (setSideDev x s).cells = s.cells ∧
    (setSideDev x s).feeds = s.feeds ∧ (setSideDev x s).threads = s.threads ∧ (setSideDev x s).blockers = s.blockers ∧
    (setSideDev x s).wakes = s.wakes ∧ (setSideDev x s).macs = s.macs ∧ (setSideDev x s).fabric = s.fabric ∧
    (setSideDev x s).disc = s.disc ∧ (setSideDev x s).msixOpen = s.msixOpen ∧ (setSideDev x s).msixHeld = s.msixHeld ∧
    (setSideDev x s).ses = s.ses ∧ (setSideDev x s).gly = s.gly ∧ (setSideDev x s).bez = s.bez ∧ (setSideDev x s).pwr = s.pwr ∧
    (setSideDev x s).links = s.links :=
  ⟨rfl, rfl, rfl, rfl, rfl, rfl, rfl, rfl, rfl, rfl, rfl, rfl, rfl, rfl, rfl, rfl, rfl, rfl, rfl, rfl, rfl, rfl, rfl, rfl, rfl, rfl, rfl, rfl, rfl, rfl, rfl, rfl, rfl, rfl, rfl, rfl, rfl, rfl, rfl, rfl, rfl, rfl, rfl, rfl, rfl, rfl, rfl, rfl, rfl⟩

@[simp] theorem setIntegs_fields (x : List (Nat × Integ)) (s : State) :
    (setIntegs x s).pending = s.pending ∧ (setIntegs x s).fclk = s.fclk ∧ (setIntegs x s).free = s.free ∧
    (setIntegs x s).out = s.out ∧ (setIntegs x s).regs = s.regs ∧ (setIntegs x s).hits = s.hits ∧ (setIntegs x s).sets = s.sets ∧
    (setIntegs x s).mem = s.mem ∧ (setIntegs x s).tags = s.tags ∧ (setIntegs x s).vbits = s.vbits ∧ (setIntegs x s).raw = s.raw ∧
    (setIntegs x s).marks = s.marks ∧ (setIntegs x s).writes = s.writes ∧ (setIntegs x s).modeNext = s.modeNext ∧
    (setIntegs x s).touched = s.touched ∧ (setIntegs x s).fills = s.fills ∧ (setIntegs x s).heldWrites = s.heldWrites ∧
    (setIntegs x s).facets = s.facets ∧ (setIntegs x s).ints = s.ints ∧ (setIntegs x s).intc = s.intc ∧
    (setIntegs x s).intWas = s.intWas ∧ (setIntegs x s).refusals = s.refusals ∧ (setIntegs x s).tb = s.tb ∧
    (setIntegs x s).timWrites = s.timWrites ∧ (setIntegs x s).epochs = s.epochs ∧ (setIntegs x s).locks = s.locks ∧
    (setIntegs x s).pulses = s.pulses ∧ (setIntegs x s).ident = s.ident ∧ (setIntegs x s).ledger = s.ledger ∧
    (setIntegs x s).metro = s.metro ∧ (setIntegs x s).sideDev = s.sideDev ∧ (setIntegs x s).integ = x ∧
    (setIntegs x s).chans = s.chans ∧ (setIntegs x s).engines = s.engines ∧ (setIntegs x s).cells = s.cells ∧
    (setIntegs x s).feeds = s.feeds ∧ (setIntegs x s).threads = s.threads ∧ (setIntegs x s).blockers = s.blockers ∧
    (setIntegs x s).wakes = s.wakes ∧ (setIntegs x s).macs = s.macs ∧ (setIntegs x s).fabric = s.fabric ∧
    (setIntegs x s).disc = s.disc ∧ (setIntegs x s).msixOpen = s.msixOpen ∧ (setIntegs x s).msixHeld = s.msixHeld ∧
    (setIntegs x s).ses = s.ses ∧ (setIntegs x s).gly = s.gly ∧ (setIntegs x s).bez = s.bez ∧ (setIntegs x s).pwr = s.pwr ∧
    (setIntegs x s).links = s.links :=
  ⟨rfl, rfl, rfl, rfl, rfl, rfl, rfl, rfl, rfl, rfl, rfl, rfl, rfl, rfl, rfl, rfl, rfl, rfl, rfl, rfl, rfl, rfl, rfl, rfl, rfl, rfl, rfl, rfl, rfl, rfl, rfl, rfl, rfl, rfl, rfl, rfl, rfl, rfl, rfl, rfl, rfl, rfl, rfl, rfl, rfl, rfl, rfl, rfl, rfl⟩

@[simp] theorem setChans_fields (x : List (Nat × Chan)) (s : State) :
    (setChans x s).pending = s.pending ∧ (setChans x s).fclk = s.fclk ∧ (setChans x s).free = s.free ∧ (setChans x s).out = s.out ∧
    (setChans x s).regs = s.regs ∧ (setChans x s).hits = s.hits ∧ (setChans x s).sets = s.sets ∧ (setChans x s).mem = s.mem ∧
    (setChans x s).tags = s.tags ∧ (setChans x s).vbits = s.vbits ∧ (setChans x s).raw = s.raw ∧ (setChans x s).marks = s.marks ∧
    (setChans x s).writes = s.writes ∧ (setChans x s).modeNext = s.modeNext ∧ (setChans x s).touched = s.touched ∧
    (setChans x s).fills = s.fills ∧ (setChans x s).heldWrites = s.heldWrites ∧ (setChans x s).facets = s.facets ∧
    (setChans x s).ints = s.ints ∧ (setChans x s).intc = s.intc ∧ (setChans x s).intWas = s.intWas ∧
    (setChans x s).refusals = s.refusals ∧ (setChans x s).tb = s.tb ∧ (setChans x s).timWrites = s.timWrites ∧
    (setChans x s).epochs = s.epochs ∧ (setChans x s).locks = s.locks ∧ (setChans x s).pulses = s.pulses ∧
    (setChans x s).ident = s.ident ∧ (setChans x s).ledger = s.ledger ∧ (setChans x s).metro = s.metro ∧
    (setChans x s).sideDev = s.sideDev ∧ (setChans x s).integ = s.integ ∧ (setChans x s).chans = x ∧
    (setChans x s).engines = s.engines ∧ (setChans x s).cells = s.cells ∧ (setChans x s).feeds = s.feeds ∧
    (setChans x s).threads = s.threads ∧ (setChans x s).blockers = s.blockers ∧ (setChans x s).wakes = s.wakes ∧
    (setChans x s).macs = s.macs ∧ (setChans x s).fabric = s.fabric ∧ (setChans x s).disc = s.disc ∧
    (setChans x s).msixOpen = s.msixOpen ∧ (setChans x s).msixHeld = s.msixHeld ∧ (setChans x s).ses = s.ses ∧
    (setChans x s).gly = s.gly ∧ (setChans x s).bez = s.bez ∧ (setChans x s).pwr = s.pwr ∧ (setChans x s).links = s.links :=
  ⟨rfl, rfl, rfl, rfl, rfl, rfl, rfl, rfl, rfl, rfl, rfl, rfl, rfl, rfl, rfl, rfl, rfl, rfl, rfl, rfl, rfl, rfl, rfl, rfl, rfl, rfl, rfl, rfl, rfl, rfl, rfl, rfl, rfl, rfl, rfl, rfl, rfl, rfl, rfl, rfl, rfl, rfl, rfl, rfl, rfl, rfl, rfl, rfl, rfl⟩

@[simp] theorem setEngines_fields (x : List (Nat × Engine)) (s : State) :
    (setEngines x s).pending = s.pending ∧ (setEngines x s).fclk = s.fclk ∧ (setEngines x s).free = s.free ∧
    (setEngines x s).out = s.out ∧ (setEngines x s).regs = s.regs ∧ (setEngines x s).hits = s.hits ∧ (setEngines x s).sets = s.sets ∧
    (setEngines x s).mem = s.mem ∧ (setEngines x s).tags = s.tags ∧ (setEngines x s).vbits = s.vbits ∧ (setEngines x s).raw = s.raw ∧
    (setEngines x s).marks = s.marks ∧ (setEngines x s).writes = s.writes ∧ (setEngines x s).modeNext = s.modeNext ∧
    (setEngines x s).touched = s.touched ∧ (setEngines x s).fills = s.fills ∧ (setEngines x s).heldWrites = s.heldWrites ∧
    (setEngines x s).facets = s.facets ∧ (setEngines x s).ints = s.ints ∧ (setEngines x s).intc = s.intc ∧
    (setEngines x s).intWas = s.intWas ∧ (setEngines x s).refusals = s.refusals ∧ (setEngines x s).tb = s.tb ∧
    (setEngines x s).timWrites = s.timWrites ∧ (setEngines x s).epochs = s.epochs ∧ (setEngines x s).locks = s.locks ∧
    (setEngines x s).pulses = s.pulses ∧ (setEngines x s).ident = s.ident ∧ (setEngines x s).ledger = s.ledger ∧
    (setEngines x s).metro = s.metro ∧ (setEngines x s).sideDev = s.sideDev ∧ (setEngines x s).integ = s.integ ∧
    (setEngines x s).chans = s.chans ∧ (setEngines x s).engines = x ∧ (setEngines x s).cells = s.cells ∧
    (setEngines x s).feeds = s.feeds ∧ (setEngines x s).threads = s.threads ∧ (setEngines x s).blockers = s.blockers ∧
    (setEngines x s).wakes = s.wakes ∧ (setEngines x s).macs = s.macs ∧ (setEngines x s).fabric = s.fabric ∧
    (setEngines x s).disc = s.disc ∧ (setEngines x s).msixOpen = s.msixOpen ∧ (setEngines x s).msixHeld = s.msixHeld ∧
    (setEngines x s).ses = s.ses ∧ (setEngines x s).gly = s.gly ∧ (setEngines x s).bez = s.bez ∧ (setEngines x s).pwr = s.pwr ∧
    (setEngines x s).links = s.links :=
  ⟨rfl, rfl, rfl, rfl, rfl, rfl, rfl, rfl, rfl, rfl, rfl, rfl, rfl, rfl, rfl, rfl, rfl, rfl, rfl, rfl, rfl, rfl, rfl, rfl, rfl, rfl, rfl, rfl, rfl, rfl, rfl, rfl, rfl, rfl, rfl, rfl, rfl, rfl, rfl, rfl, rfl, rfl, rfl, rfl, rfl, rfl, rfl, rfl, rfl⟩

@[simp] theorem setWakes_fields (x : List Nat) (s : State) :
    (setWakes x s).pending = s.pending ∧ (setWakes x s).fclk = s.fclk ∧ (setWakes x s).free = s.free ∧ (setWakes x s).out = s.out ∧
    (setWakes x s).regs = s.regs ∧ (setWakes x s).hits = s.hits ∧ (setWakes x s).sets = s.sets ∧ (setWakes x s).mem = s.mem ∧
    (setWakes x s).tags = s.tags ∧ (setWakes x s).vbits = s.vbits ∧ (setWakes x s).raw = s.raw ∧ (setWakes x s).marks = s.marks ∧
    (setWakes x s).writes = s.writes ∧ (setWakes x s).modeNext = s.modeNext ∧ (setWakes x s).touched = s.touched ∧
    (setWakes x s).fills = s.fills ∧ (setWakes x s).heldWrites = s.heldWrites ∧ (setWakes x s).facets = s.facets ∧
    (setWakes x s).ints = s.ints ∧ (setWakes x s).intc = s.intc ∧ (setWakes x s).intWas = s.intWas ∧
    (setWakes x s).refusals = s.refusals ∧ (setWakes x s).tb = s.tb ∧ (setWakes x s).timWrites = s.timWrites ∧
    (setWakes x s).epochs = s.epochs ∧ (setWakes x s).locks = s.locks ∧ (setWakes x s).pulses = s.pulses ∧
    (setWakes x s).ident = s.ident ∧ (setWakes x s).ledger = s.ledger ∧ (setWakes x s).metro = s.metro ∧
    (setWakes x s).sideDev = s.sideDev ∧ (setWakes x s).integ = s.integ ∧ (setWakes x s).chans = s.chans ∧
    (setWakes x s).engines = s.engines ∧ (setWakes x s).cells = s.cells ∧ (setWakes x s).feeds = s.feeds ∧
    (setWakes x s).threads = s.threads ∧ (setWakes x s).blockers = s.blockers ∧ (setWakes x s).wakes = x ∧
    (setWakes x s).macs = s.macs ∧ (setWakes x s).fabric = s.fabric ∧ (setWakes x s).disc = s.disc ∧
    (setWakes x s).msixOpen = s.msixOpen ∧ (setWakes x s).msixHeld = s.msixHeld ∧ (setWakes x s).ses = s.ses ∧
    (setWakes x s).gly = s.gly ∧ (setWakes x s).bez = s.bez ∧ (setWakes x s).pwr = s.pwr ∧ (setWakes x s).links = s.links :=
  ⟨rfl, rfl, rfl, rfl, rfl, rfl, rfl, rfl, rfl, rfl, rfl, rfl, rfl, rfl, rfl, rfl, rfl, rfl, rfl, rfl, rfl, rfl, rfl, rfl, rfl, rfl, rfl, rfl, rfl, rfl, rfl, rfl, rfl, rfl, rfl, rfl, rfl, rfl, rfl, rfl, rfl, rfl, rfl, rfl, rfl, rfl, rfl, rfl, rfl⟩

@[simp] theorem setThreads_fields (x : List (Nat × Thread)) (s : State) :
    (setThreads x s).pending = s.pending ∧ (setThreads x s).fclk = s.fclk ∧ (setThreads x s).free = s.free ∧
    (setThreads x s).out = s.out ∧ (setThreads x s).regs = s.regs ∧ (setThreads x s).hits = s.hits ∧ (setThreads x s).sets = s.sets ∧
    (setThreads x s).mem = s.mem ∧ (setThreads x s).tags = s.tags ∧ (setThreads x s).vbits = s.vbits ∧ (setThreads x s).raw = s.raw ∧
    (setThreads x s).marks = s.marks ∧ (setThreads x s).writes = s.writes ∧ (setThreads x s).modeNext = s.modeNext ∧
    (setThreads x s).touched = s.touched ∧ (setThreads x s).fills = s.fills ∧ (setThreads x s).heldWrites = s.heldWrites ∧
    (setThreads x s).facets = s.facets ∧ (setThreads x s).ints = s.ints ∧ (setThreads x s).intc = s.intc ∧
    (setThreads x s).intWas = s.intWas ∧ (setThreads x s).refusals = s.refusals ∧ (setThreads x s).tb = s.tb ∧
    (setThreads x s).timWrites = s.timWrites ∧ (setThreads x s).epochs = s.epochs ∧ (setThreads x s).locks = s.locks ∧
    (setThreads x s).pulses = s.pulses ∧ (setThreads x s).ident = s.ident ∧ (setThreads x s).ledger = s.ledger ∧
    (setThreads x s).metro = s.metro ∧ (setThreads x s).sideDev = s.sideDev ∧ (setThreads x s).integ = s.integ ∧
    (setThreads x s).chans = s.chans ∧ (setThreads x s).engines = s.engines ∧ (setThreads x s).cells = s.cells ∧
    (setThreads x s).feeds = s.feeds ∧ (setThreads x s).threads = x ∧ (setThreads x s).blockers = s.blockers ∧
    (setThreads x s).wakes = s.wakes ∧ (setThreads x s).macs = s.macs ∧ (setThreads x s).fabric = s.fabric ∧
    (setThreads x s).disc = s.disc ∧ (setThreads x s).msixOpen = s.msixOpen ∧ (setThreads x s).msixHeld = s.msixHeld ∧
    (setThreads x s).ses = s.ses ∧ (setThreads x s).gly = s.gly ∧ (setThreads x s).bez = s.bez ∧ (setThreads x s).pwr = s.pwr ∧
    (setThreads x s).links = s.links :=
  ⟨rfl, rfl, rfl, rfl, rfl, rfl, rfl, rfl, rfl, rfl, rfl, rfl, rfl, rfl, rfl, rfl, rfl, rfl, rfl, rfl, rfl, rfl, rfl, rfl, rfl, rfl, rfl, rfl, rfl, rfl, rfl, rfl, rfl, rfl, rfl, rfl, rfl, rfl, rfl, rfl, rfl, rfl, rfl, rfl, rfl, rfl, rfl, rfl, rfl⟩

@[simp] theorem setCells_fields (x : List (Nat × Cell)) (s : State) :
    (setCells x s).pending = s.pending ∧ (setCells x s).fclk = s.fclk ∧ (setCells x s).free = s.free ∧ (setCells x s).out = s.out ∧
    (setCells x s).regs = s.regs ∧ (setCells x s).hits = s.hits ∧ (setCells x s).sets = s.sets ∧ (setCells x s).mem = s.mem ∧
    (setCells x s).tags = s.tags ∧ (setCells x s).vbits = s.vbits ∧ (setCells x s).raw = s.raw ∧ (setCells x s).marks = s.marks ∧
    (setCells x s).writes = s.writes ∧ (setCells x s).modeNext = s.modeNext ∧ (setCells x s).touched = s.touched ∧
    (setCells x s).fills = s.fills ∧ (setCells x s).heldWrites = s.heldWrites ∧ (setCells x s).facets = s.facets ∧
    (setCells x s).ints = s.ints ∧ (setCells x s).intc = s.intc ∧ (setCells x s).intWas = s.intWas ∧
    (setCells x s).refusals = s.refusals ∧ (setCells x s).tb = s.tb ∧ (setCells x s).timWrites = s.timWrites ∧
    (setCells x s).epochs = s.epochs ∧ (setCells x s).locks = s.locks ∧ (setCells x s).pulses = s.pulses ∧
    (setCells x s).ident = s.ident ∧ (setCells x s).ledger = s.ledger ∧ (setCells x s).metro = s.metro ∧
    (setCells x s).sideDev = s.sideDev ∧ (setCells x s).integ = s.integ ∧ (setCells x s).chans = s.chans ∧
    (setCells x s).engines = s.engines ∧ (setCells x s).cells = x ∧ (setCells x s).feeds = s.feeds ∧
    (setCells x s).threads = s.threads ∧ (setCells x s).blockers = s.blockers ∧ (setCells x s).wakes = s.wakes ∧
    (setCells x s).macs = s.macs ∧ (setCells x s).fabric = s.fabric ∧ (setCells x s).disc = s.disc ∧
    (setCells x s).msixOpen = s.msixOpen ∧ (setCells x s).msixHeld = s.msixHeld ∧ (setCells x s).ses = s.ses ∧
    (setCells x s).gly = s.gly ∧ (setCells x s).bez = s.bez ∧ (setCells x s).pwr = s.pwr ∧ (setCells x s).links = s.links :=
  ⟨rfl, rfl, rfl, rfl, rfl, rfl, rfl, rfl, rfl, rfl, rfl, rfl, rfl, rfl, rfl, rfl, rfl, rfl, rfl, rfl, rfl, rfl, rfl, rfl, rfl, rfl, rfl, rfl, rfl, rfl, rfl, rfl, rfl, rfl, rfl, rfl, rfl, rfl, rfl, rfl, rfl, rfl, rfl, rfl, rfl, rfl, rfl, rfl, rfl⟩

@[simp] theorem setBlockers_fields (x : List (Nat × Blocker)) (s : State) :
    (setBlockers x s).pending = s.pending ∧ (setBlockers x s).fclk = s.fclk ∧ (setBlockers x s).free = s.free ∧
    (setBlockers x s).out = s.out ∧ (setBlockers x s).regs = s.regs ∧ (setBlockers x s).hits = s.hits ∧
    (setBlockers x s).sets = s.sets ∧ (setBlockers x s).mem = s.mem ∧ (setBlockers x s).tags = s.tags ∧
    (setBlockers x s).vbits = s.vbits ∧ (setBlockers x s).raw = s.raw ∧ (setBlockers x s).marks = s.marks ∧
    (setBlockers x s).writes = s.writes ∧ (setBlockers x s).modeNext = s.modeNext ∧ (setBlockers x s).touched = s.touched ∧
    (setBlockers x s).fills = s.fills ∧ (setBlockers x s).heldWrites = s.heldWrites ∧ (setBlockers x s).facets = s.facets ∧
    (setBlockers x s).ints = s.ints ∧ (setBlockers x s).intc = s.intc ∧ (setBlockers x s).intWas = s.intWas ∧
    (setBlockers x s).refusals = s.refusals ∧ (setBlockers x s).tb = s.tb ∧ (setBlockers x s).timWrites = s.timWrites ∧
    (setBlockers x s).epochs = s.epochs ∧ (setBlockers x s).locks = s.locks ∧ (setBlockers x s).pulses = s.pulses ∧
    (setBlockers x s).ident = s.ident ∧ (setBlockers x s).ledger = s.ledger ∧ (setBlockers x s).metro = s.metro ∧
    (setBlockers x s).sideDev = s.sideDev ∧ (setBlockers x s).integ = s.integ ∧ (setBlockers x s).chans = s.chans ∧
    (setBlockers x s).engines = s.engines ∧ (setBlockers x s).cells = s.cells ∧ (setBlockers x s).feeds = s.feeds ∧
    (setBlockers x s).threads = s.threads ∧ (setBlockers x s).blockers = x ∧ (setBlockers x s).wakes = s.wakes ∧
    (setBlockers x s).macs = s.macs ∧ (setBlockers x s).fabric = s.fabric ∧ (setBlockers x s).disc = s.disc ∧
    (setBlockers x s).msixOpen = s.msixOpen ∧ (setBlockers x s).msixHeld = s.msixHeld ∧ (setBlockers x s).ses = s.ses ∧
    (setBlockers x s).gly = s.gly ∧ (setBlockers x s).bez = s.bez ∧ (setBlockers x s).pwr = s.pwr ∧
    (setBlockers x s).links = s.links :=
  ⟨rfl, rfl, rfl, rfl, rfl, rfl, rfl, rfl, rfl, rfl, rfl, rfl, rfl, rfl, rfl, rfl, rfl, rfl, rfl, rfl, rfl, rfl, rfl, rfl, rfl, rfl, rfl, rfl, rfl, rfl, rfl, rfl, rfl, rfl, rfl, rfl, rfl, rfl, rfl, rfl, rfl, rfl, rfl, rfl, rfl, rfl, rfl, rfl, rfl⟩

@[simp] theorem setFeeds_fields (x : List (Nat × Feed)) (s : State) :
    (setFeeds x s).pending = s.pending ∧ (setFeeds x s).fclk = s.fclk ∧ (setFeeds x s).free = s.free ∧ (setFeeds x s).out = s.out ∧
    (setFeeds x s).regs = s.regs ∧ (setFeeds x s).hits = s.hits ∧ (setFeeds x s).sets = s.sets ∧ (setFeeds x s).mem = s.mem ∧
    (setFeeds x s).tags = s.tags ∧ (setFeeds x s).vbits = s.vbits ∧ (setFeeds x s).raw = s.raw ∧ (setFeeds x s).marks = s.marks ∧
    (setFeeds x s).writes = s.writes ∧ (setFeeds x s).modeNext = s.modeNext ∧ (setFeeds x s).touched = s.touched ∧
    (setFeeds x s).fills = s.fills ∧ (setFeeds x s).heldWrites = s.heldWrites ∧ (setFeeds x s).facets = s.facets ∧
    (setFeeds x s).ints = s.ints ∧ (setFeeds x s).intc = s.intc ∧ (setFeeds x s).intWas = s.intWas ∧
    (setFeeds x s).refusals = s.refusals ∧ (setFeeds x s).tb = s.tb ∧ (setFeeds x s).timWrites = s.timWrites ∧
    (setFeeds x s).epochs = s.epochs ∧ (setFeeds x s).locks = s.locks ∧ (setFeeds x s).pulses = s.pulses ∧
    (setFeeds x s).ident = s.ident ∧ (setFeeds x s).ledger = s.ledger ∧ (setFeeds x s).metro = s.metro ∧
    (setFeeds x s).sideDev = s.sideDev ∧ (setFeeds x s).integ = s.integ ∧ (setFeeds x s).chans = s.chans ∧
    (setFeeds x s).engines = s.engines ∧ (setFeeds x s).cells = s.cells ∧ (setFeeds x s).feeds = x ∧
    (setFeeds x s).threads = s.threads ∧ (setFeeds x s).blockers = s.blockers ∧ (setFeeds x s).wakes = s.wakes ∧
    (setFeeds x s).macs = s.macs ∧ (setFeeds x s).fabric = s.fabric ∧ (setFeeds x s).disc = s.disc ∧
    (setFeeds x s).msixOpen = s.msixOpen ∧ (setFeeds x s).msixHeld = s.msixHeld ∧ (setFeeds x s).ses = s.ses ∧
    (setFeeds x s).gly = s.gly ∧ (setFeeds x s).bez = s.bez ∧ (setFeeds x s).pwr = s.pwr ∧ (setFeeds x s).links = s.links :=
  ⟨rfl, rfl, rfl, rfl, rfl, rfl, rfl, rfl, rfl, rfl, rfl, rfl, rfl, rfl, rfl, rfl, rfl, rfl, rfl, rfl, rfl, rfl, rfl, rfl, rfl, rfl, rfl, rfl, rfl, rfl, rfl, rfl, rfl, rfl, rfl, rfl, rfl, rfl, rfl, rfl, rfl, rfl, rfl, rfl, rfl, rfl, rfl, rfl, rfl⟩

@[simp] theorem setEpochs_fields (x : List (Nat × BitVec 8)) (s : State) :
    (setEpochs x s).pending = s.pending ∧ (setEpochs x s).fclk = s.fclk ∧ (setEpochs x s).free = s.free ∧
    (setEpochs x s).out = s.out ∧ (setEpochs x s).regs = s.regs ∧ (setEpochs x s).hits = s.hits ∧ (setEpochs x s).sets = s.sets ∧
    (setEpochs x s).mem = s.mem ∧ (setEpochs x s).tags = s.tags ∧ (setEpochs x s).vbits = s.vbits ∧ (setEpochs x s).raw = s.raw ∧
    (setEpochs x s).marks = s.marks ∧ (setEpochs x s).writes = s.writes ∧ (setEpochs x s).modeNext = s.modeNext ∧
    (setEpochs x s).touched = s.touched ∧ (setEpochs x s).fills = s.fills ∧ (setEpochs x s).heldWrites = s.heldWrites ∧
    (setEpochs x s).facets = s.facets ∧ (setEpochs x s).ints = s.ints ∧ (setEpochs x s).intc = s.intc ∧
    (setEpochs x s).intWas = s.intWas ∧ (setEpochs x s).refusals = s.refusals ∧ (setEpochs x s).tb = s.tb ∧
    (setEpochs x s).timWrites = s.timWrites ∧ (setEpochs x s).epochs = x ∧ (setEpochs x s).locks = s.locks ∧
    (setEpochs x s).pulses = s.pulses ∧ (setEpochs x s).ident = s.ident ∧ (setEpochs x s).ledger = s.ledger ∧
    (setEpochs x s).metro = s.metro ∧ (setEpochs x s).sideDev = s.sideDev ∧ (setEpochs x s).integ = s.integ ∧
    (setEpochs x s).chans = s.chans ∧ (setEpochs x s).engines = s.engines ∧ (setEpochs x s).cells = s.cells ∧
    (setEpochs x s).feeds = s.feeds ∧ (setEpochs x s).threads = s.threads ∧ (setEpochs x s).blockers = s.blockers ∧
    (setEpochs x s).wakes = s.wakes ∧ (setEpochs x s).macs = s.macs ∧ (setEpochs x s).fabric = s.fabric ∧
    (setEpochs x s).disc = s.disc ∧ (setEpochs x s).msixOpen = s.msixOpen ∧ (setEpochs x s).msixHeld = s.msixHeld ∧
    (setEpochs x s).ses = s.ses ∧ (setEpochs x s).gly = s.gly ∧ (setEpochs x s).bez = s.bez ∧ (setEpochs x s).pwr = s.pwr ∧
    (setEpochs x s).links = s.links :=
  ⟨rfl, rfl, rfl, rfl, rfl, rfl, rfl, rfl, rfl, rfl, rfl, rfl, rfl, rfl, rfl, rfl, rfl, rfl, rfl, rfl, rfl, rfl, rfl, rfl, rfl, rfl, rfl, rfl, rfl, rfl, rfl, rfl, rfl, rfl, rfl, rfl, rfl, rfl, rfl, rfl, rfl, rfl, rfl, rfl, rfl, rfl, rfl, rfl, rfl⟩

@[simp] theorem setOut_fields (x : List Out) (s : State) :
    (setOut x s).pending = s.pending ∧ (setOut x s).fclk = s.fclk ∧ (setOut x s).free = s.free ∧ (setOut x s).out = x ∧
    (setOut x s).regs = s.regs ∧ (setOut x s).hits = s.hits ∧ (setOut x s).sets = s.sets ∧ (setOut x s).mem = s.mem ∧
    (setOut x s).tags = s.tags ∧ (setOut x s).vbits = s.vbits ∧ (setOut x s).raw = s.raw ∧ (setOut x s).marks = s.marks ∧
    (setOut x s).writes = s.writes ∧ (setOut x s).modeNext = s.modeNext ∧ (setOut x s).touched = s.touched ∧
    (setOut x s).fills = s.fills ∧ (setOut x s).heldWrites = s.heldWrites ∧ (setOut x s).facets = s.facets ∧
    (setOut x s).ints = s.ints ∧ (setOut x s).intc = s.intc ∧ (setOut x s).intWas = s.intWas ∧ (setOut x s).refusals = s.refusals ∧
    (setOut x s).tb = s.tb ∧ (setOut x s).timWrites = s.timWrites ∧ (setOut x s).epochs = s.epochs ∧ (setOut x s).locks = s.locks ∧
    (setOut x s).pulses = s.pulses ∧ (setOut x s).ident = s.ident ∧ (setOut x s).ledger = s.ledger ∧ (setOut x s).metro = s.metro ∧
    (setOut x s).sideDev = s.sideDev ∧ (setOut x s).integ = s.integ ∧ (setOut x s).chans = s.chans ∧
    (setOut x s).engines = s.engines ∧ (setOut x s).cells = s.cells ∧ (setOut x s).feeds = s.feeds ∧
    (setOut x s).threads = s.threads ∧ (setOut x s).blockers = s.blockers ∧ (setOut x s).wakes = s.wakes ∧
    (setOut x s).macs = s.macs ∧ (setOut x s).fabric = s.fabric ∧ (setOut x s).disc = s.disc ∧ (setOut x s).msixOpen = s.msixOpen ∧
    (setOut x s).msixHeld = s.msixHeld ∧ (setOut x s).ses = s.ses ∧ (setOut x s).gly = s.gly ∧ (setOut x s).bez = s.bez ∧
    (setOut x s).pwr = s.pwr ∧ (setOut x s).links = s.links :=
  ⟨rfl, rfl, rfl, rfl, rfl, rfl, rfl, rfl, rfl, rfl, rfl, rfl, rfl, rfl, rfl, rfl, rfl, rfl, rfl, rfl, rfl, rfl, rfl, rfl, rfl, rfl, rfl, rfl, rfl, rfl, rfl, rfl, rfl, rfl, rfl, rfl, rfl, rfl, rfl, rfl, rfl, rfl, rfl, rfl, rfl, rfl, rfl, rfl, rfl⟩

@[simp] theorem setHits_fields (x : List (Nat × Nat)) (s : State) :
    (setHits x s).pending = s.pending ∧ (setHits x s).fclk = s.fclk ∧ (setHits x s).free = s.free ∧ (setHits x s).out = s.out ∧
    (setHits x s).regs = s.regs ∧ (setHits x s).hits = x ∧ (setHits x s).sets = s.sets ∧ (setHits x s).mem = s.mem ∧
    (setHits x s).tags = s.tags ∧ (setHits x s).vbits = s.vbits ∧ (setHits x s).raw = s.raw ∧ (setHits x s).marks = s.marks ∧
    (setHits x s).writes = s.writes ∧ (setHits x s).modeNext = s.modeNext ∧ (setHits x s).touched = s.touched ∧
    (setHits x s).fills = s.fills ∧ (setHits x s).heldWrites = s.heldWrites ∧ (setHits x s).facets = s.facets ∧
    (setHits x s).ints = s.ints ∧ (setHits x s).intc = s.intc ∧ (setHits x s).intWas = s.intWas ∧
    (setHits x s).refusals = s.refusals ∧ (setHits x s).tb = s.tb ∧ (setHits x s).timWrites = s.timWrites ∧
    (setHits x s).epochs = s.epochs ∧ (setHits x s).locks = s.locks ∧ (setHits x s).pulses = s.pulses ∧
    (setHits x s).ident = s.ident ∧ (setHits x s).ledger = s.ledger ∧ (setHits x s).metro = s.metro ∧
    (setHits x s).sideDev = s.sideDev ∧ (setHits x s).integ = s.integ ∧ (setHits x s).chans = s.chans ∧
    (setHits x s).engines = s.engines ∧ (setHits x s).cells = s.cells ∧ (setHits x s).feeds = s.feeds ∧
    (setHits x s).threads = s.threads ∧ (setHits x s).blockers = s.blockers ∧ (setHits x s).wakes = s.wakes ∧
    (setHits x s).macs = s.macs ∧ (setHits x s).fabric = s.fabric ∧ (setHits x s).disc = s.disc ∧
    (setHits x s).msixOpen = s.msixOpen ∧ (setHits x s).msixHeld = s.msixHeld ∧ (setHits x s).ses = s.ses ∧
    (setHits x s).gly = s.gly ∧ (setHits x s).bez = s.bez ∧ (setHits x s).pwr = s.pwr ∧ (setHits x s).links = s.links :=
  ⟨rfl, rfl, rfl, rfl, rfl, rfl, rfl, rfl, rfl, rfl, rfl, rfl, rfl, rfl, rfl, rfl, rfl, rfl, rfl, rfl, rfl, rfl, rfl, rfl, rfl, rfl, rfl, rfl, rfl, rfl, rfl, rfl, rfl, rfl, rfl, rfl, rfl, rfl, rfl, rfl, rfl, rfl, rfl, rfl, rfl, rfl, rfl, rfl, rfl⟩

@[simp] theorem setSets_fields (x : List (Nat × Nat)) (s : State) :
    (setSets x s).pending = s.pending ∧ (setSets x s).fclk = s.fclk ∧ (setSets x s).free = s.free ∧ (setSets x s).out = s.out ∧
    (setSets x s).regs = s.regs ∧ (setSets x s).hits = s.hits ∧ (setSets x s).sets = x ∧ (setSets x s).mem = s.mem ∧
    (setSets x s).tags = s.tags ∧ (setSets x s).vbits = s.vbits ∧ (setSets x s).raw = s.raw ∧ (setSets x s).marks = s.marks ∧
    (setSets x s).writes = s.writes ∧ (setSets x s).modeNext = s.modeNext ∧ (setSets x s).touched = s.touched ∧
    (setSets x s).fills = s.fills ∧ (setSets x s).heldWrites = s.heldWrites ∧ (setSets x s).facets = s.facets ∧
    (setSets x s).ints = s.ints ∧ (setSets x s).intc = s.intc ∧ (setSets x s).intWas = s.intWas ∧
    (setSets x s).refusals = s.refusals ∧ (setSets x s).tb = s.tb ∧ (setSets x s).timWrites = s.timWrites ∧
    (setSets x s).epochs = s.epochs ∧ (setSets x s).locks = s.locks ∧ (setSets x s).pulses = s.pulses ∧
    (setSets x s).ident = s.ident ∧ (setSets x s).ledger = s.ledger ∧ (setSets x s).metro = s.metro ∧
    (setSets x s).sideDev = s.sideDev ∧ (setSets x s).integ = s.integ ∧ (setSets x s).chans = s.chans ∧
    (setSets x s).engines = s.engines ∧ (setSets x s).cells = s.cells ∧ (setSets x s).feeds = s.feeds ∧
    (setSets x s).threads = s.threads ∧ (setSets x s).blockers = s.blockers ∧ (setSets x s).wakes = s.wakes ∧
    (setSets x s).macs = s.macs ∧ (setSets x s).fabric = s.fabric ∧ (setSets x s).disc = s.disc ∧
    (setSets x s).msixOpen = s.msixOpen ∧ (setSets x s).msixHeld = s.msixHeld ∧ (setSets x s).ses = s.ses ∧
    (setSets x s).gly = s.gly ∧ (setSets x s).bez = s.bez ∧ (setSets x s).pwr = s.pwr ∧ (setSets x s).links = s.links :=
  ⟨rfl, rfl, rfl, rfl, rfl, rfl, rfl, rfl, rfl, rfl, rfl, rfl, rfl, rfl, rfl, rfl, rfl, rfl, rfl, rfl, rfl, rfl, rfl, rfl, rfl, rfl, rfl, rfl, rfl, rfl, rfl, rfl, rfl, rfl, rfl, rfl, rfl, rfl, rfl, rfl, rfl, rfl, rfl, rfl, rfl, rfl, rfl, rfl, rfl⟩

@[simp] theorem setRegs_fields (x : List (Nat × BitVec 64)) (s : State) :
    (setRegs x s).pending = s.pending ∧ (setRegs x s).fclk = s.fclk ∧ (setRegs x s).free = s.free ∧ (setRegs x s).out = s.out ∧
    (setRegs x s).regs = x ∧ (setRegs x s).hits = s.hits ∧ (setRegs x s).sets = s.sets ∧ (setRegs x s).mem = s.mem ∧
    (setRegs x s).tags = s.tags ∧ (setRegs x s).vbits = s.vbits ∧ (setRegs x s).raw = s.raw ∧ (setRegs x s).marks = s.marks ∧
    (setRegs x s).writes = s.writes ∧ (setRegs x s).modeNext = s.modeNext ∧ (setRegs x s).touched = s.touched ∧
    (setRegs x s).fills = s.fills ∧ (setRegs x s).heldWrites = s.heldWrites ∧ (setRegs x s).facets = s.facets ∧
    (setRegs x s).ints = s.ints ∧ (setRegs x s).intc = s.intc ∧ (setRegs x s).intWas = s.intWas ∧
    (setRegs x s).refusals = s.refusals ∧ (setRegs x s).tb = s.tb ∧ (setRegs x s).timWrites = s.timWrites ∧
    (setRegs x s).epochs = s.epochs ∧ (setRegs x s).locks = s.locks ∧ (setRegs x s).pulses = s.pulses ∧
    (setRegs x s).ident = s.ident ∧ (setRegs x s).ledger = s.ledger ∧ (setRegs x s).metro = s.metro ∧
    (setRegs x s).sideDev = s.sideDev ∧ (setRegs x s).integ = s.integ ∧ (setRegs x s).chans = s.chans ∧
    (setRegs x s).engines = s.engines ∧ (setRegs x s).cells = s.cells ∧ (setRegs x s).feeds = s.feeds ∧
    (setRegs x s).threads = s.threads ∧ (setRegs x s).blockers = s.blockers ∧ (setRegs x s).wakes = s.wakes ∧
    (setRegs x s).macs = s.macs ∧ (setRegs x s).fabric = s.fabric ∧ (setRegs x s).disc = s.disc ∧
    (setRegs x s).msixOpen = s.msixOpen ∧ (setRegs x s).msixHeld = s.msixHeld ∧ (setRegs x s).ses = s.ses ∧
    (setRegs x s).gly = s.gly ∧ (setRegs x s).bez = s.bez ∧ (setRegs x s).pwr = s.pwr ∧ (setRegs x s).links = s.links :=
  ⟨rfl, rfl, rfl, rfl, rfl, rfl, rfl, rfl, rfl, rfl, rfl, rfl, rfl, rfl, rfl, rfl, rfl, rfl, rfl, rfl, rfl, rfl, rfl, rfl, rfl, rfl, rfl, rfl, rfl, rfl, rfl, rfl, rfl, rfl, rfl, rfl, rfl, rfl, rfl, rfl, rfl, rfl, rfl, rfl, rfl, rfl, rfl, rfl, rfl⟩

@[simp] theorem setPending_fields (x : List Instr) (s : State) :
    (setPending x s).pending = x ∧ (setPending x s).fclk = s.fclk ∧ (setPending x s).free = s.free ∧ (setPending x s).out = s.out ∧
    (setPending x s).regs = s.regs ∧ (setPending x s).hits = s.hits ∧ (setPending x s).sets = s.sets ∧ (setPending x s).mem = s.mem ∧
    (setPending x s).tags = s.tags ∧ (setPending x s).vbits = s.vbits ∧ (setPending x s).raw = s.raw ∧
    (setPending x s).marks = s.marks ∧ (setPending x s).writes = s.writes ∧ (setPending x s).modeNext = s.modeNext ∧
    (setPending x s).touched = s.touched ∧ (setPending x s).fills = s.fills ∧ (setPending x s).heldWrites = s.heldWrites ∧
    (setPending x s).facets = s.facets ∧ (setPending x s).ints = s.ints ∧ (setPending x s).intc = s.intc ∧
    (setPending x s).intWas = s.intWas ∧ (setPending x s).refusals = s.refusals ∧ (setPending x s).tb = s.tb ∧
    (setPending x s).timWrites = s.timWrites ∧ (setPending x s).epochs = s.epochs ∧ (setPending x s).locks = s.locks ∧
    (setPending x s).pulses = s.pulses ∧ (setPending x s).ident = s.ident ∧ (setPending x s).ledger = s.ledger ∧
    (setPending x s).metro = s.metro ∧ (setPending x s).sideDev = s.sideDev ∧ (setPending x s).integ = s.integ ∧
    (setPending x s).chans = s.chans ∧ (setPending x s).engines = s.engines ∧ (setPending x s).cells = s.cells ∧
    (setPending x s).feeds = s.feeds ∧ (setPending x s).threads = s.threads ∧ (setPending x s).blockers = s.blockers ∧
    (setPending x s).wakes = s.wakes ∧ (setPending x s).macs = s.macs ∧ (setPending x s).fabric = s.fabric ∧
    (setPending x s).disc = s.disc ∧ (setPending x s).msixOpen = s.msixOpen ∧ (setPending x s).msixHeld = s.msixHeld ∧
    (setPending x s).ses = s.ses ∧ (setPending x s).gly = s.gly ∧ (setPending x s).bez = s.bez ∧ (setPending x s).pwr = s.pwr ∧
    (setPending x s).links = s.links :=
  ⟨rfl, rfl, rfl, rfl, rfl, rfl, rfl, rfl, rfl, rfl, rfl, rfl, rfl, rfl, rfl, rfl, rfl, rfl, rfl, rfl, rfl, rfl, rfl, rfl, rfl, rfl, rfl, rfl, rfl, rfl, rfl, rfl, rfl, rfl, rfl, rfl, rfl, rfl, rfl, rfl, rfl, rfl, rfl, rfl, rfl, rfl, rfl, rfl, rfl⟩

@[simp] theorem setMacs_fields (x : List (Nat × Mac)) (s : State) :
    (setMacs x s).pending = s.pending ∧ (setMacs x s).fclk = s.fclk ∧ (setMacs x s).free = s.free ∧ (setMacs x s).out = s.out ∧
    (setMacs x s).regs = s.regs ∧ (setMacs x s).hits = s.hits ∧ (setMacs x s).sets = s.sets ∧ (setMacs x s).mem = s.mem ∧
    (setMacs x s).tags = s.tags ∧ (setMacs x s).vbits = s.vbits ∧ (setMacs x s).raw = s.raw ∧ (setMacs x s).marks = s.marks ∧
    (setMacs x s).writes = s.writes ∧ (setMacs x s).modeNext = s.modeNext ∧ (setMacs x s).touched = s.touched ∧
    (setMacs x s).fills = s.fills ∧ (setMacs x s).heldWrites = s.heldWrites ∧ (setMacs x s).facets = s.facets ∧
    (setMacs x s).ints = s.ints ∧ (setMacs x s).intc = s.intc ∧ (setMacs x s).intWas = s.intWas ∧
    (setMacs x s).refusals = s.refusals ∧ (setMacs x s).tb = s.tb ∧ (setMacs x s).timWrites = s.timWrites ∧
    (setMacs x s).epochs = s.epochs ∧ (setMacs x s).locks = s.locks ∧ (setMacs x s).pulses = s.pulses ∧
    (setMacs x s).ident = s.ident ∧ (setMacs x s).ledger = s.ledger ∧ (setMacs x s).metro = s.metro ∧
    (setMacs x s).sideDev = s.sideDev ∧ (setMacs x s).integ = s.integ ∧ (setMacs x s).chans = s.chans ∧
    (setMacs x s).engines = s.engines ∧ (setMacs x s).cells = s.cells ∧ (setMacs x s).feeds = s.feeds ∧
    (setMacs x s).threads = s.threads ∧ (setMacs x s).blockers = s.blockers ∧ (setMacs x s).wakes = s.wakes ∧ (setMacs x s).macs = x ∧
    (setMacs x s).fabric = s.fabric ∧ (setMacs x s).disc = s.disc ∧ (setMacs x s).msixOpen = s.msixOpen ∧
    (setMacs x s).msixHeld = s.msixHeld ∧ (setMacs x s).ses = s.ses ∧ (setMacs x s).gly = s.gly ∧ (setMacs x s).bez = s.bez ∧
    (setMacs x s).pwr = s.pwr ∧ (setMacs x s).links = s.links :=
  ⟨rfl, rfl, rfl, rfl, rfl, rfl, rfl, rfl, rfl, rfl, rfl, rfl, rfl, rfl, rfl, rfl, rfl, rfl, rfl, rfl, rfl, rfl, rfl, rfl, rfl, rfl, rfl, rfl, rfl, rfl, rfl, rfl, rfl, rfl, rfl, rfl, rfl, rfl, rfl, rfl, rfl, rfl, rfl, rfl, rfl, rfl, rfl, rfl, rfl⟩

@[simp] theorem setFabric_fields (x : Fabric) (s : State) :
    (setFabric x s).pending = s.pending ∧ (setFabric x s).fclk = s.fclk ∧ (setFabric x s).free = s.free ∧
    (setFabric x s).out = s.out ∧ (setFabric x s).regs = s.regs ∧ (setFabric x s).hits = s.hits ∧ (setFabric x s).sets = s.sets ∧
    (setFabric x s).mem = s.mem ∧ (setFabric x s).tags = s.tags ∧ (setFabric x s).vbits = s.vbits ∧ (setFabric x s).raw = s.raw ∧
    (setFabric x s).marks = s.marks ∧ (setFabric x s).writes = s.writes ∧ (setFabric x s).modeNext = s.modeNext ∧
    (setFabric x s).touched = s.touched ∧ (setFabric x s).fills = s.fills ∧ (setFabric x s).heldWrites = s.heldWrites ∧
    (setFabric x s).facets = s.facets ∧ (setFabric x s).ints = s.ints ∧ (setFabric x s).intc = s.intc ∧
    (setFabric x s).intWas = s.intWas ∧ (setFabric x s).refusals = s.refusals ∧ (setFabric x s).tb = s.tb ∧
    (setFabric x s).timWrites = s.timWrites ∧ (setFabric x s).epochs = s.epochs ∧ (setFabric x s).locks = s.locks ∧
    (setFabric x s).pulses = s.pulses ∧ (setFabric x s).ident = s.ident ∧ (setFabric x s).ledger = s.ledger ∧
    (setFabric x s).metro = s.metro ∧ (setFabric x s).sideDev = s.sideDev ∧ (setFabric x s).integ = s.integ ∧
    (setFabric x s).chans = s.chans ∧ (setFabric x s).engines = s.engines ∧ (setFabric x s).cells = s.cells ∧
    (setFabric x s).feeds = s.feeds ∧ (setFabric x s).threads = s.threads ∧ (setFabric x s).blockers = s.blockers ∧
    (setFabric x s).wakes = s.wakes ∧ (setFabric x s).macs = s.macs ∧ (setFabric x s).fabric = x ∧ (setFabric x s).disc = s.disc ∧
    (setFabric x s).msixOpen = s.msixOpen ∧ (setFabric x s).msixHeld = s.msixHeld ∧ (setFabric x s).ses = s.ses ∧
    (setFabric x s).gly = s.gly ∧ (setFabric x s).bez = s.bez ∧ (setFabric x s).pwr = s.pwr ∧ (setFabric x s).links = s.links :=
  ⟨rfl, rfl, rfl, rfl, rfl, rfl, rfl, rfl, rfl, rfl, rfl, rfl, rfl, rfl, rfl, rfl, rfl, rfl, rfl, rfl, rfl, rfl, rfl, rfl, rfl, rfl, rfl, rfl, rfl, rfl, rfl, rfl, rfl, rfl, rfl, rfl, rfl, rfl, rfl, rfl, rfl, rfl, rfl, rfl, rfl, rfl, rfl, rfl, rfl⟩

@[simp] theorem setMsixOpen_fields (x : List Nat) (s : State) :
    (setMsixOpen x s).pending = s.pending ∧ (setMsixOpen x s).fclk = s.fclk ∧ (setMsixOpen x s).free = s.free ∧
    (setMsixOpen x s).out = s.out ∧ (setMsixOpen x s).regs = s.regs ∧ (setMsixOpen x s).hits = s.hits ∧
    (setMsixOpen x s).sets = s.sets ∧ (setMsixOpen x s).mem = s.mem ∧ (setMsixOpen x s).tags = s.tags ∧
    (setMsixOpen x s).vbits = s.vbits ∧ (setMsixOpen x s).raw = s.raw ∧ (setMsixOpen x s).marks = s.marks ∧
    (setMsixOpen x s).writes = s.writes ∧ (setMsixOpen x s).modeNext = s.modeNext ∧ (setMsixOpen x s).touched = s.touched ∧
    (setMsixOpen x s).fills = s.fills ∧ (setMsixOpen x s).heldWrites = s.heldWrites ∧ (setMsixOpen x s).facets = s.facets ∧
    (setMsixOpen x s).ints = s.ints ∧ (setMsixOpen x s).intc = s.intc ∧ (setMsixOpen x s).intWas = s.intWas ∧
    (setMsixOpen x s).refusals = s.refusals ∧ (setMsixOpen x s).tb = s.tb ∧ (setMsixOpen x s).timWrites = s.timWrites ∧
    (setMsixOpen x s).epochs = s.epochs ∧ (setMsixOpen x s).locks = s.locks ∧ (setMsixOpen x s).pulses = s.pulses ∧
    (setMsixOpen x s).ident = s.ident ∧ (setMsixOpen x s).ledger = s.ledger ∧ (setMsixOpen x s).metro = s.metro ∧
    (setMsixOpen x s).sideDev = s.sideDev ∧ (setMsixOpen x s).integ = s.integ ∧ (setMsixOpen x s).chans = s.chans ∧
    (setMsixOpen x s).engines = s.engines ∧ (setMsixOpen x s).cells = s.cells ∧ (setMsixOpen x s).feeds = s.feeds ∧
    (setMsixOpen x s).threads = s.threads ∧ (setMsixOpen x s).blockers = s.blockers ∧ (setMsixOpen x s).wakes = s.wakes ∧
    (setMsixOpen x s).macs = s.macs ∧ (setMsixOpen x s).fabric = s.fabric ∧ (setMsixOpen x s).disc = s.disc ∧
    (setMsixOpen x s).msixOpen = x ∧ (setMsixOpen x s).msixHeld = s.msixHeld ∧ (setMsixOpen x s).ses = s.ses ∧
    (setMsixOpen x s).gly = s.gly ∧ (setMsixOpen x s).bez = s.bez ∧ (setMsixOpen x s).pwr = s.pwr ∧
    (setMsixOpen x s).links = s.links :=
  ⟨rfl, rfl, rfl, rfl, rfl, rfl, rfl, rfl, rfl, rfl, rfl, rfl, rfl, rfl, rfl, rfl, rfl, rfl, rfl, rfl, rfl, rfl, rfl, rfl, rfl, rfl, rfl, rfl, rfl, rfl, rfl, rfl, rfl, rfl, rfl, rfl, rfl, rfl, rfl, rfl, rfl, rfl, rfl, rfl, rfl, rfl, rfl, rfl, rfl⟩

@[simp] theorem setMsixHeld_fields (x : List Nat) (s : State) :
    (setMsixHeld x s).pending = s.pending ∧ (setMsixHeld x s).fclk = s.fclk ∧ (setMsixHeld x s).free = s.free ∧
    (setMsixHeld x s).out = s.out ∧ (setMsixHeld x s).regs = s.regs ∧ (setMsixHeld x s).hits = s.hits ∧
    (setMsixHeld x s).sets = s.sets ∧ (setMsixHeld x s).mem = s.mem ∧ (setMsixHeld x s).tags = s.tags ∧
    (setMsixHeld x s).vbits = s.vbits ∧ (setMsixHeld x s).raw = s.raw ∧ (setMsixHeld x s).marks = s.marks ∧
    (setMsixHeld x s).writes = s.writes ∧ (setMsixHeld x s).modeNext = s.modeNext ∧ (setMsixHeld x s).touched = s.touched ∧
    (setMsixHeld x s).fills = s.fills ∧ (setMsixHeld x s).heldWrites = s.heldWrites ∧ (setMsixHeld x s).facets = s.facets ∧
    (setMsixHeld x s).ints = s.ints ∧ (setMsixHeld x s).intc = s.intc ∧ (setMsixHeld x s).intWas = s.intWas ∧
    (setMsixHeld x s).refusals = s.refusals ∧ (setMsixHeld x s).tb = s.tb ∧ (setMsixHeld x s).timWrites = s.timWrites ∧
    (setMsixHeld x s).epochs = s.epochs ∧ (setMsixHeld x s).locks = s.locks ∧ (setMsixHeld x s).pulses = s.pulses ∧
    (setMsixHeld x s).ident = s.ident ∧ (setMsixHeld x s).ledger = s.ledger ∧ (setMsixHeld x s).metro = s.metro ∧
    (setMsixHeld x s).sideDev = s.sideDev ∧ (setMsixHeld x s).integ = s.integ ∧ (setMsixHeld x s).chans = s.chans ∧
    (setMsixHeld x s).engines = s.engines ∧ (setMsixHeld x s).cells = s.cells ∧ (setMsixHeld x s).feeds = s.feeds ∧
    (setMsixHeld x s).threads = s.threads ∧ (setMsixHeld x s).blockers = s.blockers ∧ (setMsixHeld x s).wakes = s.wakes ∧
    (setMsixHeld x s).macs = s.macs ∧ (setMsixHeld x s).fabric = s.fabric ∧ (setMsixHeld x s).disc = s.disc ∧
    (setMsixHeld x s).msixOpen = s.msixOpen ∧ (setMsixHeld x s).msixHeld = x ∧ (setMsixHeld x s).ses = s.ses ∧
    (setMsixHeld x s).gly = s.gly ∧ (setMsixHeld x s).bez = s.bez ∧ (setMsixHeld x s).pwr = s.pwr ∧
    (setMsixHeld x s).links = s.links :=
  ⟨rfl, rfl, rfl, rfl, rfl, rfl, rfl, rfl, rfl, rfl, rfl, rfl, rfl, rfl, rfl, rfl, rfl, rfl, rfl, rfl, rfl, rfl, rfl, rfl, rfl, rfl, rfl, rfl, rfl, rfl, rfl, rfl, rfl, rfl, rfl, rfl, rfl, rfl, rfl, rfl, rfl, rfl, rfl, rfl, rfl, rfl, rfl, rfl, rfl⟩

@[simp] theorem setSes_fields (x : Ses) (s : State) :
    (setSes x s).pending = s.pending ∧ (setSes x s).fclk = s.fclk ∧ (setSes x s).free = s.free ∧ (setSes x s).out = s.out ∧
    (setSes x s).regs = s.regs ∧ (setSes x s).hits = s.hits ∧ (setSes x s).sets = s.sets ∧ (setSes x s).mem = s.mem ∧
    (setSes x s).tags = s.tags ∧ (setSes x s).vbits = s.vbits ∧ (setSes x s).raw = s.raw ∧ (setSes x s).marks = s.marks ∧
    (setSes x s).writes = s.writes ∧ (setSes x s).modeNext = s.modeNext ∧ (setSes x s).touched = s.touched ∧
    (setSes x s).fills = s.fills ∧ (setSes x s).heldWrites = s.heldWrites ∧ (setSes x s).facets = s.facets ∧
    (setSes x s).ints = s.ints ∧ (setSes x s).intc = s.intc ∧ (setSes x s).intWas = s.intWas ∧ (setSes x s).refusals = s.refusals ∧
    (setSes x s).tb = s.tb ∧ (setSes x s).timWrites = s.timWrites ∧ (setSes x s).epochs = s.epochs ∧ (setSes x s).locks = s.locks ∧
    (setSes x s).pulses = s.pulses ∧ (setSes x s).ident = s.ident ∧ (setSes x s).ledger = s.ledger ∧ (setSes x s).metro = s.metro ∧
    (setSes x s).sideDev = s.sideDev ∧ (setSes x s).integ = s.integ ∧ (setSes x s).chans = s.chans ∧
    (setSes x s).engines = s.engines ∧ (setSes x s).cells = s.cells ∧ (setSes x s).feeds = s.feeds ∧
    (setSes x s).threads = s.threads ∧ (setSes x s).blockers = s.blockers ∧ (setSes x s).wakes = s.wakes ∧
    (setSes x s).macs = s.macs ∧ (setSes x s).fabric = s.fabric ∧ (setSes x s).disc = s.disc ∧ (setSes x s).msixOpen = s.msixOpen ∧
    (setSes x s).msixHeld = s.msixHeld ∧ (setSes x s).ses = x ∧ (setSes x s).gly = s.gly ∧ (setSes x s).bez = s.bez ∧
    (setSes x s).pwr = s.pwr ∧ (setSes x s).links = s.links :=
  ⟨rfl, rfl, rfl, rfl, rfl, rfl, rfl, rfl, rfl, rfl, rfl, rfl, rfl, rfl, rfl, rfl, rfl, rfl, rfl, rfl, rfl, rfl, rfl, rfl, rfl, rfl, rfl, rfl, rfl, rfl, rfl, rfl, rfl, rfl, rfl, rfl, rfl, rfl, rfl, rfl, rfl, rfl, rfl, rfl, rfl, rfl, rfl, rfl, rfl⟩

@[simp] theorem setGly_fields (x : Gly) (s : State) :
    (setGly x s).pending = s.pending ∧ (setGly x s).fclk = s.fclk ∧ (setGly x s).free = s.free ∧ (setGly x s).out = s.out ∧
    (setGly x s).regs = s.regs ∧ (setGly x s).hits = s.hits ∧ (setGly x s).sets = s.sets ∧ (setGly x s).mem = s.mem ∧
    (setGly x s).tags = s.tags ∧ (setGly x s).vbits = s.vbits ∧ (setGly x s).raw = s.raw ∧ (setGly x s).marks = s.marks ∧
    (setGly x s).writes = s.writes ∧ (setGly x s).modeNext = s.modeNext ∧ (setGly x s).touched = s.touched ∧
    (setGly x s).fills = s.fills ∧ (setGly x s).heldWrites = s.heldWrites ∧ (setGly x s).facets = s.facets ∧
    (setGly x s).ints = s.ints ∧ (setGly x s).intc = s.intc ∧ (setGly x s).intWas = s.intWas ∧ (setGly x s).refusals = s.refusals ∧
    (setGly x s).tb = s.tb ∧ (setGly x s).timWrites = s.timWrites ∧ (setGly x s).epochs = s.epochs ∧ (setGly x s).locks = s.locks ∧
    (setGly x s).pulses = s.pulses ∧ (setGly x s).ident = s.ident ∧ (setGly x s).ledger = s.ledger ∧ (setGly x s).metro = s.metro ∧
    (setGly x s).sideDev = s.sideDev ∧ (setGly x s).integ = s.integ ∧ (setGly x s).chans = s.chans ∧
    (setGly x s).engines = s.engines ∧ (setGly x s).cells = s.cells ∧ (setGly x s).feeds = s.feeds ∧
    (setGly x s).threads = s.threads ∧ (setGly x s).blockers = s.blockers ∧ (setGly x s).wakes = s.wakes ∧
    (setGly x s).macs = s.macs ∧ (setGly x s).fabric = s.fabric ∧ (setGly x s).disc = s.disc ∧ (setGly x s).msixOpen = s.msixOpen ∧
    (setGly x s).msixHeld = s.msixHeld ∧ (setGly x s).ses = s.ses ∧ (setGly x s).gly = x ∧ (setGly x s).bez = s.bez ∧
    (setGly x s).pwr = s.pwr ∧ (setGly x s).links = s.links :=
  ⟨rfl, rfl, rfl, rfl, rfl, rfl, rfl, rfl, rfl, rfl, rfl, rfl, rfl, rfl, rfl, rfl, rfl, rfl, rfl, rfl, rfl, rfl, rfl, rfl, rfl, rfl, rfl, rfl, rfl, rfl, rfl, rfl, rfl, rfl, rfl, rfl, rfl, rfl, rfl, rfl, rfl, rfl, rfl, rfl, rfl, rfl, rfl, rfl, rfl⟩

@[simp] theorem setPwr_fields (x : Pwr) (s : State) :
    (setPwr x s).pending = s.pending ∧ (setPwr x s).fclk = s.fclk ∧ (setPwr x s).free = s.free ∧ (setPwr x s).out = s.out ∧
    (setPwr x s).regs = s.regs ∧ (setPwr x s).hits = s.hits ∧ (setPwr x s).sets = s.sets ∧ (setPwr x s).mem = s.mem ∧
    (setPwr x s).tags = s.tags ∧ (setPwr x s).vbits = s.vbits ∧ (setPwr x s).raw = s.raw ∧ (setPwr x s).marks = s.marks ∧
    (setPwr x s).writes = s.writes ∧ (setPwr x s).modeNext = s.modeNext ∧ (setPwr x s).touched = s.touched ∧
    (setPwr x s).fills = s.fills ∧ (setPwr x s).heldWrites = s.heldWrites ∧ (setPwr x s).facets = s.facets ∧
    (setPwr x s).ints = s.ints ∧ (setPwr x s).intc = s.intc ∧ (setPwr x s).intWas = s.intWas ∧ (setPwr x s).refusals = s.refusals ∧
    (setPwr x s).tb = s.tb ∧ (setPwr x s).timWrites = s.timWrites ∧ (setPwr x s).epochs = s.epochs ∧ (setPwr x s).locks = s.locks ∧
    (setPwr x s).pulses = s.pulses ∧ (setPwr x s).ident = s.ident ∧ (setPwr x s).ledger = s.ledger ∧ (setPwr x s).metro = s.metro ∧
    (setPwr x s).sideDev = s.sideDev ∧ (setPwr x s).integ = s.integ ∧ (setPwr x s).chans = s.chans ∧
    (setPwr x s).engines = s.engines ∧ (setPwr x s).cells = s.cells ∧ (setPwr x s).feeds = s.feeds ∧
    (setPwr x s).threads = s.threads ∧ (setPwr x s).blockers = s.blockers ∧ (setPwr x s).wakes = s.wakes ∧
    (setPwr x s).macs = s.macs ∧ (setPwr x s).fabric = s.fabric ∧ (setPwr x s).disc = s.disc ∧ (setPwr x s).msixOpen = s.msixOpen ∧
    (setPwr x s).msixHeld = s.msixHeld ∧ (setPwr x s).ses = s.ses ∧ (setPwr x s).gly = s.gly ∧ (setPwr x s).bez = s.bez ∧
    (setPwr x s).pwr = x ∧ (setPwr x s).links = s.links :=
  ⟨rfl, rfl, rfl, rfl, rfl, rfl, rfl, rfl, rfl, rfl, rfl, rfl, rfl, rfl, rfl, rfl, rfl, rfl, rfl, rfl, rfl, rfl, rfl, rfl, rfl, rfl, rfl, rfl, rfl, rfl, rfl, rfl, rfl, rfl, rfl, rfl, rfl, rfl, rfl, rfl, rfl, rfl, rfl, rfl, rfl, rfl, rfl, rfl, rfl⟩

@[simp] theorem setMetro_fields (m : Metro) (s : State) :
    (setMetro m s).pending = s.pending ∧ (setMetro m s).fclk = s.fclk ∧ (setMetro m s).free = s.free ∧ (setMetro m s).out = s.out ∧
    (setMetro m s).regs = s.regs ∧ (setMetro m s).hits = s.hits ∧ (setMetro m s).sets = s.sets ∧ (setMetro m s).mem = s.mem ∧
    (setMetro m s).tags = s.tags ∧ (setMetro m s).vbits = s.vbits ∧ (setMetro m s).raw = s.raw ∧ (setMetro m s).marks = s.marks ∧
    (setMetro m s).writes = s.writes ∧ (setMetro m s).modeNext = s.modeNext ∧ (setMetro m s).touched = s.touched ∧
    (setMetro m s).fills = s.fills ∧ (setMetro m s).heldWrites = s.heldWrites ∧ (setMetro m s).facets = s.facets ∧
    (setMetro m s).ints = s.ints ∧ (setMetro m s).intc = s.intc ∧ (setMetro m s).intWas = s.intWas ∧
    (setMetro m s).refusals = s.refusals ∧ (setMetro m s).tb = s.tb ∧ (setMetro m s).timWrites = s.timWrites ∧
    (setMetro m s).epochs = s.epochs ∧ (setMetro m s).locks = s.locks ∧ (setMetro m s).pulses = s.pulses ∧
    (setMetro m s).ident = s.ident ∧ (setMetro m s).ledger = s.ledger ∧ (setMetro m s).metro = m ∧
    (setMetro m s).sideDev = s.sideDev ∧ (setMetro m s).integ = s.integ ∧ (setMetro m s).chans = s.chans ∧
    (setMetro m s).engines = s.engines ∧ (setMetro m s).cells = s.cells ∧ (setMetro m s).feeds = s.feeds ∧
    (setMetro m s).threads = s.threads ∧ (setMetro m s).blockers = s.blockers ∧ (setMetro m s).wakes = s.wakes ∧
    (setMetro m s).macs = s.macs ∧ (setMetro m s).fabric = s.fabric ∧ (setMetro m s).disc = s.disc ∧
    (setMetro m s).msixOpen = s.msixOpen ∧ (setMetro m s).msixHeld = s.msixHeld ∧ (setMetro m s).ses = s.ses ∧
    (setMetro m s).gly = s.gly ∧ (setMetro m s).bez = s.bez ∧ (setMetro m s).pwr = s.pwr ∧ (setMetro m s).links = s.links :=
  ⟨rfl, rfl, rfl, rfl, rfl, rfl, rfl, rfl, rfl, rfl, rfl, rfl, rfl, rfl, rfl, rfl, rfl, rfl, rfl, rfl, rfl, rfl, rfl, rfl, rfl, rfl, rfl, rfl, rfl, rfl, rfl, rfl, rfl, rfl, rfl, rfl, rfl, rfl, rfl, rfl, rfl, rfl, rfl, rfl, rfl, rfl, rfl, rfl, rfl⟩

@[simp] theorem setBez_fields (b : Bez) (s : State) :
    (setBez b s).pending = s.pending ∧ (setBez b s).fclk = s.fclk ∧ (setBez b s).free = s.free ∧ (setBez b s).out = s.out ∧
    (setBez b s).regs = s.regs ∧ (setBez b s).hits = s.hits ∧ (setBez b s).sets = s.sets ∧ (setBez b s).mem = s.mem ∧
    (setBez b s).tags = s.tags ∧ (setBez b s).vbits = s.vbits ∧ (setBez b s).raw = s.raw ∧ (setBez b s).marks = s.marks ∧
    (setBez b s).writes = s.writes ∧ (setBez b s).modeNext = s.modeNext ∧ (setBez b s).touched = s.touched ∧
    (setBez b s).fills = s.fills ∧ (setBez b s).heldWrites = s.heldWrites ∧ (setBez b s).facets = s.facets ∧
    (setBez b s).ints = s.ints ∧ (setBez b s).intc = s.intc ∧ (setBez b s).intWas = s.intWas ∧ (setBez b s).refusals = s.refusals ∧
    (setBez b s).tb = s.tb ∧ (setBez b s).timWrites = s.timWrites ∧ (setBez b s).epochs = s.epochs ∧ (setBez b s).locks = s.locks ∧
    (setBez b s).pulses = s.pulses ∧ (setBez b s).ident = s.ident ∧ (setBez b s).ledger = s.ledger ∧ (setBez b s).metro = s.metro ∧
    (setBez b s).sideDev = s.sideDev ∧ (setBez b s).integ = s.integ ∧ (setBez b s).chans = s.chans ∧
    (setBez b s).engines = s.engines ∧ (setBez b s).cells = s.cells ∧ (setBez b s).feeds = s.feeds ∧
    (setBez b s).threads = s.threads ∧ (setBez b s).blockers = s.blockers ∧ (setBez b s).wakes = s.wakes ∧
    (setBez b s).macs = s.macs ∧ (setBez b s).fabric = s.fabric ∧ (setBez b s).disc = s.disc ∧ (setBez b s).msixOpen = s.msixOpen ∧
    (setBez b s).msixHeld = s.msixHeld ∧ (setBez b s).ses = s.ses ∧ (setBez b s).gly = s.gly ∧ (setBez b s).bez = b ∧
    (setBez b s).pwr = s.pwr ∧ (setBez b s).links = s.links :=
  ⟨rfl, rfl, rfl, rfl, rfl, rfl, rfl, rfl, rfl, rfl, rfl, rfl, rfl, rfl, rfl, rfl, rfl, rfl, rfl, rfl, rfl, rfl, rfl, rfl, rfl, rfl, rfl, rfl, rfl, rfl, rfl, rfl, rfl, rfl, rfl, rfl, rfl, rfl, rfl, rfl, rfl, rfl, rfl, rfl, rfl, rfl, rfl, rfl, rfl⟩

@[simp] theorem setLinks_fields (l : Links) (s : State) :
    (setLinks l s).pending = s.pending ∧ (setLinks l s).fclk = s.fclk ∧ (setLinks l s).free = s.free ∧ (setLinks l s).out = s.out ∧
    (setLinks l s).regs = s.regs ∧ (setLinks l s).hits = s.hits ∧ (setLinks l s).sets = s.sets ∧ (setLinks l s).mem = s.mem ∧
    (setLinks l s).tags = s.tags ∧ (setLinks l s).vbits = s.vbits ∧ (setLinks l s).raw = s.raw ∧ (setLinks l s).marks = s.marks ∧
    (setLinks l s).writes = s.writes ∧ (setLinks l s).modeNext = s.modeNext ∧ (setLinks l s).touched = s.touched ∧
    (setLinks l s).fills = s.fills ∧ (setLinks l s).heldWrites = s.heldWrites ∧ (setLinks l s).facets = s.facets ∧
    (setLinks l s).ints = s.ints ∧ (setLinks l s).intc = s.intc ∧ (setLinks l s).intWas = s.intWas ∧
    (setLinks l s).refusals = s.refusals ∧ (setLinks l s).tb = s.tb ∧ (setLinks l s).timWrites = s.timWrites ∧
    (setLinks l s).epochs = s.epochs ∧ (setLinks l s).locks = s.locks ∧ (setLinks l s).pulses = s.pulses ∧
    (setLinks l s).ident = s.ident ∧ (setLinks l s).ledger = s.ledger ∧ (setLinks l s).metro = s.metro ∧
    (setLinks l s).sideDev = s.sideDev ∧ (setLinks l s).integ = s.integ ∧ (setLinks l s).chans = s.chans ∧
    (setLinks l s).engines = s.engines ∧ (setLinks l s).cells = s.cells ∧ (setLinks l s).feeds = s.feeds ∧
    (setLinks l s).threads = s.threads ∧ (setLinks l s).blockers = s.blockers ∧ (setLinks l s).wakes = s.wakes ∧
    (setLinks l s).macs = s.macs ∧ (setLinks l s).fabric = s.fabric ∧ (setLinks l s).disc = s.disc ∧
    (setLinks l s).msixOpen = s.msixOpen ∧ (setLinks l s).msixHeld = s.msixHeld ∧ (setLinks l s).ses = s.ses ∧
    (setLinks l s).gly = s.gly ∧ (setLinks l s).bez = s.bez ∧ (setLinks l s).pwr = s.pwr ∧ (setLinks l s).links = l :=
  ⟨rfl, rfl, rfl, rfl, rfl, rfl, rfl, rfl, rfl, rfl, rfl, rfl, rfl, rfl, rfl, rfl, rfl, rfl, rfl, rfl, rfl, rfl, rfl, rfl, rfl, rfl, rfl, rfl, rfl, rfl, rfl, rfl, rfl, rfl, rfl, rfl, rfl, rfl, rfl, rfl, rfl, rfl, rfl, rfl, rfl, rfl, rfl, rfl, rfl⟩

@[simp] theorem setDisc_fields (x : Disc) (s : State) :
    (setDisc x s).pending = s.pending ∧ (setDisc x s).fclk = s.fclk ∧ (setDisc x s).free = s.free ∧ (setDisc x s).out = s.out ∧
    (setDisc x s).regs = s.regs ∧ (setDisc x s).hits = s.hits ∧ (setDisc x s).sets = s.sets ∧ (setDisc x s).mem = s.mem ∧
    (setDisc x s).tags = s.tags ∧ (setDisc x s).vbits = s.vbits ∧ (setDisc x s).raw = s.raw ∧ (setDisc x s).marks = s.marks ∧
    (setDisc x s).writes = s.writes ∧ (setDisc x s).modeNext = s.modeNext ∧ (setDisc x s).touched = s.touched ∧
    (setDisc x s).fills = s.fills ∧ (setDisc x s).heldWrites = s.heldWrites ∧ (setDisc x s).facets = s.facets ∧
    (setDisc x s).ints = s.ints ∧ (setDisc x s).intc = s.intc ∧ (setDisc x s).intWas = s.intWas ∧
    (setDisc x s).refusals = s.refusals ∧ (setDisc x s).tb = s.tb ∧ (setDisc x s).timWrites = s.timWrites ∧
    (setDisc x s).epochs = s.epochs ∧ (setDisc x s).locks = s.locks ∧ (setDisc x s).pulses = s.pulses ∧
    (setDisc x s).ident = s.ident ∧ (setDisc x s).ledger = s.ledger ∧ (setDisc x s).metro = s.metro ∧
    (setDisc x s).sideDev = s.sideDev ∧ (setDisc x s).integ = s.integ ∧ (setDisc x s).chans = s.chans ∧
    (setDisc x s).engines = s.engines ∧ (setDisc x s).cells = s.cells ∧ (setDisc x s).feeds = s.feeds ∧
    (setDisc x s).threads = s.threads ∧ (setDisc x s).blockers = s.blockers ∧ (setDisc x s).wakes = s.wakes ∧
    (setDisc x s).macs = s.macs ∧ (setDisc x s).fabric = s.fabric ∧ (setDisc x s).disc = x ∧ (setDisc x s).msixOpen = s.msixOpen ∧
    (setDisc x s).msixHeld = s.msixHeld ∧ (setDisc x s).ses = s.ses ∧ (setDisc x s).gly = s.gly ∧ (setDisc x s).bez = s.bez ∧
    (setDisc x s).pwr = s.pwr ∧ (setDisc x s).links = s.links :=
  ⟨rfl, rfl, rfl, rfl, rfl, rfl, rfl, rfl, rfl, rfl, rfl, rfl, rfl, rfl, rfl, rfl, rfl, rfl, rfl, rfl, rfl, rfl, rfl, rfl, rfl, rfl, rfl, rfl, rfl, rfl, rfl, rfl, rfl, rfl, rfl, rfl, rfl, rfl, rfl, rfl, rfl, rfl, rfl, rfl, rfl, rfl, rfl, rfl, rfl⟩

@[simp] theorem rset_fields (a : Nat) (v : BitVec 64) (s : State) :
    (rset a v s).pending = s.pending ∧ (rset a v s).fclk = s.fclk ∧ (rset a v s).free = s.free ∧ (rset a v s).out = s.out ∧
    (rset a v s).regs = tset (regReset a) s.regs a v ∧ (rset a v s).hits = s.hits ∧ (rset a v s).sets = s.sets ∧
    (rset a v s).mem = s.mem ∧ (rset a v s).tags = s.tags ∧ (rset a v s).vbits = s.vbits ∧ (rset a v s).raw = s.raw ∧
    (rset a v s).marks = s.marks ∧ (rset a v s).writes = s.writes ∧ (rset a v s).modeNext = s.modeNext ∧
    (rset a v s).touched = s.touched ∧ (rset a v s).fills = s.fills ∧ (rset a v s).heldWrites = s.heldWrites ∧
    (rset a v s).facets = s.facets ∧ (rset a v s).ints = s.ints ∧ (rset a v s).intc = s.intc ∧ (rset a v s).intWas = s.intWas ∧
    (rset a v s).refusals = s.refusals ∧ (rset a v s).tb = s.tb ∧ (rset a v s).timWrites = s.timWrites ∧
    (rset a v s).epochs = s.epochs ∧ (rset a v s).locks = s.locks ∧ (rset a v s).pulses = s.pulses ∧ (rset a v s).ident = s.ident ∧
    (rset a v s).ledger = s.ledger ∧ (rset a v s).metro = s.metro ∧ (rset a v s).sideDev = s.sideDev ∧ (rset a v s).integ = s.integ ∧
    (rset a v s).chans = s.chans ∧ (rset a v s).engines = s.engines ∧ (rset a v s).cells = s.cells ∧ (rset a v s).feeds = s.feeds ∧
    (rset a v s).threads = s.threads ∧ (rset a v s).blockers = s.blockers ∧ (rset a v s).wakes = s.wakes ∧
    (rset a v s).macs = s.macs ∧ (rset a v s).fabric = s.fabric ∧ (rset a v s).disc = s.disc ∧ (rset a v s).msixOpen = s.msixOpen ∧
    (rset a v s).msixHeld = s.msixHeld ∧ (rset a v s).ses = s.ses ∧ (rset a v s).gly = s.gly ∧ (rset a v s).bez = s.bez ∧
    (rset a v s).pwr = s.pwr ∧ (rset a v s).links = s.links :=
  ⟨rfl, rfl, rfl, rfl, rfl, rfl, rfl, rfl, rfl, rfl, rfl, rfl, rfl, rfl, rfl, rfl, rfl, rfl, rfl, rfl, rfl, rfl, rfl, rfl, rfl, rfl, rfl, rfl, rfl, rfl, rfl, rfl, rfl, rfl, rfl, rfl, rfl, rfl, rfl, rfl, rfl, rfl, rfl, rfl, rfl, rfl, rfl, rfl, rfl⟩

@[simp] theorem rput_fields (a lo w v : Nat) (s : State) :
    (rput a lo w v s).pending = s.pending ∧ (rput a lo w v s).fclk = s.fclk ∧ (rput a lo w v s).free = s.free ∧
    (rput a lo w v s).out = s.out ∧ (rput a lo w v s).regs = tset (regReset a) s.regs a (setFld (rget s a) lo w v) ∧
    (rput a lo w v s).hits = s.hits ∧ (rput a lo w v s).sets = s.sets ∧ (rput a lo w v s).mem = s.mem ∧
    (rput a lo w v s).tags = s.tags ∧ (rput a lo w v s).vbits = s.vbits ∧ (rput a lo w v s).raw = s.raw ∧
    (rput a lo w v s).marks = s.marks ∧ (rput a lo w v s).writes = s.writes ∧ (rput a lo w v s).modeNext = s.modeNext ∧
    (rput a lo w v s).touched = s.touched ∧ (rput a lo w v s).fills = s.fills ∧ (rput a lo w v s).heldWrites = s.heldWrites ∧
    (rput a lo w v s).facets = s.facets ∧ (rput a lo w v s).ints = s.ints ∧ (rput a lo w v s).intc = s.intc ∧
    (rput a lo w v s).intWas = s.intWas ∧ (rput a lo w v s).refusals = s.refusals ∧ (rput a lo w v s).tb = s.tb ∧
    (rput a lo w v s).timWrites = s.timWrites ∧ (rput a lo w v s).epochs = s.epochs ∧ (rput a lo w v s).locks = s.locks ∧
    (rput a lo w v s).pulses = s.pulses ∧ (rput a lo w v s).ident = s.ident ∧ (rput a lo w v s).ledger = s.ledger ∧
    (rput a lo w v s).metro = s.metro ∧ (rput a lo w v s).sideDev = s.sideDev ∧ (rput a lo w v s).integ = s.integ ∧
    (rput a lo w v s).chans = s.chans ∧ (rput a lo w v s).engines = s.engines ∧ (rput a lo w v s).cells = s.cells ∧
    (rput a lo w v s).feeds = s.feeds ∧ (rput a lo w v s).threads = s.threads ∧ (rput a lo w v s).blockers = s.blockers ∧
    (rput a lo w v s).wakes = s.wakes ∧ (rput a lo w v s).macs = s.macs ∧ (rput a lo w v s).fabric = s.fabric ∧
    (rput a lo w v s).disc = s.disc ∧ (rput a lo w v s).msixOpen = s.msixOpen ∧ (rput a lo w v s).msixHeld = s.msixHeld ∧
    (rput a lo w v s).ses = s.ses ∧ (rput a lo w v s).gly = s.gly ∧ (rput a lo w v s).bez = s.bez ∧ (rput a lo w v s).pwr = s.pwr ∧
    (rput a lo w v s).links = s.links :=
  ⟨rfl, rfl, rfl, rfl, rfl, rfl, rfl, rfl, rfl, rfl, rfl, rfl, rfl, rfl, rfl, rfl, rfl, rfl, rfl, rfl, rfl, rfl, rfl, rfl, rfl, rfl, rfl, rfl, rfl, rfl, rfl, rfl, rfl, rfl, rfl, rfl, rfl, rfl, rfl, rfl, rfl, rfl, rfl, rfl, rfl, rfl, rfl, rfl, rfl⟩

@[simp] theorem rbitSet_fields (a i : Nat) (b : Bool) (s : State) :
    (rbitSet a i b s).pending = s.pending ∧ (rbitSet a i b s).fclk = s.fclk ∧ (rbitSet a i b s).free = s.free ∧
    (rbitSet a i b s).out = s.out ∧ (rbitSet a i b s).regs = tset (regReset a) s.regs a (setBit (rget s a) i b) ∧
    (rbitSet a i b s).hits = (if b then (a, i) :: s.hits else s.hits) ∧ (rbitSet a i b s).sets = s.sets ∧
    (rbitSet a i b s).mem = s.mem ∧ (rbitSet a i b s).tags = s.tags ∧ (rbitSet a i b s).vbits = s.vbits ∧
    (rbitSet a i b s).raw = s.raw ∧ (rbitSet a i b s).marks = s.marks ∧ (rbitSet a i b s).writes = s.writes ∧
    (rbitSet a i b s).modeNext = s.modeNext ∧ (rbitSet a i b s).touched = s.touched ∧ (rbitSet a i b s).fills = s.fills ∧
    (rbitSet a i b s).heldWrites = s.heldWrites ∧ (rbitSet a i b s).facets = s.facets ∧ (rbitSet a i b s).ints = s.ints ∧
    (rbitSet a i b s).intc = s.intc ∧ (rbitSet a i b s).intWas = s.intWas ∧ (rbitSet a i b s).refusals = s.refusals ∧
    (rbitSet a i b s).tb = s.tb ∧ (rbitSet a i b s).timWrites = s.timWrites ∧ (rbitSet a i b s).epochs = s.epochs ∧
    (rbitSet a i b s).locks = s.locks ∧ (rbitSet a i b s).pulses = s.pulses ∧ (rbitSet a i b s).ident = s.ident ∧
    (rbitSet a i b s).ledger = s.ledger ∧ (rbitSet a i b s).metro = s.metro ∧ (rbitSet a i b s).sideDev = s.sideDev ∧
    (rbitSet a i b s).integ = s.integ ∧ (rbitSet a i b s).chans = s.chans ∧ (rbitSet a i b s).engines = s.engines ∧
    (rbitSet a i b s).cells = s.cells ∧ (rbitSet a i b s).feeds = s.feeds ∧ (rbitSet a i b s).threads = s.threads ∧
    (rbitSet a i b s).blockers = s.blockers ∧ (rbitSet a i b s).wakes = s.wakes ∧ (rbitSet a i b s).macs = s.macs ∧
    (rbitSet a i b s).fabric = s.fabric ∧ (rbitSet a i b s).disc = s.disc ∧ (rbitSet a i b s).msixOpen = s.msixOpen ∧
    (rbitSet a i b s).msixHeld = s.msixHeld ∧ (rbitSet a i b s).ses = s.ses ∧ (rbitSet a i b s).gly = s.gly ∧
    (rbitSet a i b s).bez = s.bez ∧ (rbitSet a i b s).pwr = s.pwr ∧ (rbitSet a i b s).links = s.links :=
  ⟨rfl, rfl, rfl, rfl, rfl, rfl, rfl, rfl, rfl, rfl, rfl, rfl, rfl, rfl, rfl, rfl, rfl, rfl, rfl, rfl, rfl, rfl, rfl, rfl, rfl, rfl, rfl, rfl, rfl, rfl, rfl, rfl, rfl, rfl, rfl, rfl, rfl, rfl, rfl, rfl, rfl, rfl, rfl, rfl, rfl, rfl, rfl, rfl, rfl⟩

@[simp] theorem noteHit_fields (a i : Nat) (b : Bool) (s : State) :
    (noteHit a i b s).pending = s.pending ∧ (noteHit a i b s).fclk = s.fclk ∧ (noteHit a i b s).free = s.free ∧
    (noteHit a i b s).out = s.out ∧ (noteHit a i b s).regs = s.regs ∧
    (noteHit a i b s).hits = (if b then (a, i) :: s.hits else s.hits) ∧ (noteHit a i b s).sets = s.sets ∧
    (noteHit a i b s).mem = s.mem ∧ (noteHit a i b s).tags = s.tags ∧ (noteHit a i b s).vbits = s.vbits ∧
    (noteHit a i b s).raw = s.raw ∧ (noteHit a i b s).marks = s.marks ∧ (noteHit a i b s).writes = s.writes ∧
    (noteHit a i b s).modeNext = s.modeNext ∧ (noteHit a i b s).touched = s.touched ∧ (noteHit a i b s).fills = s.fills ∧
    (noteHit a i b s).heldWrites = s.heldWrites ∧ (noteHit a i b s).facets = s.facets ∧ (noteHit a i b s).ints = s.ints ∧
    (noteHit a i b s).intc = s.intc ∧ (noteHit a i b s).intWas = s.intWas ∧ (noteHit a i b s).refusals = s.refusals ∧
    (noteHit a i b s).tb = s.tb ∧ (noteHit a i b s).timWrites = s.timWrites ∧ (noteHit a i b s).epochs = s.epochs ∧
    (noteHit a i b s).locks = s.locks ∧ (noteHit a i b s).pulses = s.pulses ∧ (noteHit a i b s).ident = s.ident ∧
    (noteHit a i b s).ledger = s.ledger ∧ (noteHit a i b s).metro = s.metro ∧ (noteHit a i b s).sideDev = s.sideDev ∧
    (noteHit a i b s).integ = s.integ ∧ (noteHit a i b s).chans = s.chans ∧ (noteHit a i b s).engines = s.engines ∧
    (noteHit a i b s).cells = s.cells ∧ (noteHit a i b s).feeds = s.feeds ∧ (noteHit a i b s).threads = s.threads ∧
    (noteHit a i b s).blockers = s.blockers ∧ (noteHit a i b s).wakes = s.wakes ∧ (noteHit a i b s).macs = s.macs ∧
    (noteHit a i b s).fabric = s.fabric ∧ (noteHit a i b s).disc = s.disc ∧ (noteHit a i b s).msixOpen = s.msixOpen ∧
    (noteHit a i b s).msixHeld = s.msixHeld ∧ (noteHit a i b s).ses = s.ses ∧ (noteHit a i b s).gly = s.gly ∧
    (noteHit a i b s).bez = s.bez ∧ (noteHit a i b s).pwr = s.pwr ∧ (noteHit a i b s).links = s.links :=
  ⟨rfl, rfl, rfl, rfl, rfl, rfl, rfl, rfl, rfl, rfl, rfl, rfl, rfl, rfl, rfl, rfl, rfl, rfl, rfl, rfl, rfl, rfl, rfl, rfl, rfl, rfl, rfl, rfl, rfl, rfl, rfl, rfl, rfl, rfl, rfl, rfl, rfl, rfl, rfl, rfl, rfl, rfl, rfl, rfl, rfl, rfl, rfl, rfl, rfl⟩

@[simp] theorem rw1c_fields (a : Nat) (m v : BitVec 64) (s : State) :
    (rw1c a m v s).pending = s.pending ∧ (rw1c a m v s).fclk = s.fclk ∧ (rw1c a m v s).free = s.free ∧ (rw1c a m v s).out = s.out ∧
    (rw1c a m v s).regs = tset (regReset a) s.regs a (rget s a &&& ~~~(w1c s a (v &&& m))) ∧ (rw1c a m v s).hits = s.hits ∧
    (rw1c a m v s).sets = s.sets ∧ (rw1c a m v s).mem = s.mem ∧ (rw1c a m v s).tags = s.tags ∧ (rw1c a m v s).vbits = s.vbits ∧
    (rw1c a m v s).raw = s.raw ∧ (rw1c a m v s).marks = s.marks ∧ (rw1c a m v s).writes = s.writes ∧
    (rw1c a m v s).modeNext = s.modeNext ∧ (rw1c a m v s).touched = s.touched ∧ (rw1c a m v s).fills = s.fills ∧
    (rw1c a m v s).heldWrites = s.heldWrites ∧ (rw1c a m v s).facets = s.facets ∧ (rw1c a m v s).ints = s.ints ∧
    (rw1c a m v s).intc = s.intc ∧ (rw1c a m v s).intWas = s.intWas ∧ (rw1c a m v s).refusals = s.refusals ∧
    (rw1c a m v s).tb = s.tb ∧ (rw1c a m v s).timWrites = s.timWrites ∧ (rw1c a m v s).epochs = s.epochs ∧
    (rw1c a m v s).locks = s.locks ∧ (rw1c a m v s).pulses = s.pulses ∧ (rw1c a m v s).ident = s.ident ∧
    (rw1c a m v s).ledger = s.ledger ∧ (rw1c a m v s).metro = s.metro ∧ (rw1c a m v s).sideDev = s.sideDev ∧
    (rw1c a m v s).integ = s.integ ∧ (rw1c a m v s).chans = s.chans ∧ (rw1c a m v s).engines = s.engines ∧
    (rw1c a m v s).cells = s.cells ∧ (rw1c a m v s).feeds = s.feeds ∧ (rw1c a m v s).threads = s.threads ∧
    (rw1c a m v s).blockers = s.blockers ∧ (rw1c a m v s).wakes = s.wakes ∧ (rw1c a m v s).macs = s.macs ∧
    (rw1c a m v s).fabric = s.fabric ∧ (rw1c a m v s).disc = s.disc ∧ (rw1c a m v s).msixOpen = s.msixOpen ∧
    (rw1c a m v s).msixHeld = s.msixHeld ∧ (rw1c a m v s).ses = s.ses ∧ (rw1c a m v s).gly = s.gly ∧ (rw1c a m v s).bez = s.bez ∧
    (rw1c a m v s).pwr = s.pwr ∧ (rw1c a m v s).links = s.links :=
  ⟨rfl, rfl, rfl, rfl, rfl, rfl, rfl, rfl, rfl, rfl, rfl, rfl, rfl, rfl, rfl, rfl, rfl, rfl, rfl, rfl, rfl, rfl, rfl, rfl, rfl, rfl, rfl, rfl, rfl, rfl, rfl, rfl, rfl, rfl, rfl, rfl, rfl, rfl, rfl, rfl, rfl, rfl, rfl, rfl, rfl, rfl, rfl, rfl, rfl⟩

@[simp] theorem w1sWrite_fields (a i : Nat) (s : State) :
    (w1sWrite a i s).pending = s.pending ∧ (w1sWrite a i s).fclk = s.fclk ∧ (w1sWrite a i s).free = s.free ∧
    (w1sWrite a i s).out = s.out ∧ (w1sWrite a i s).regs = tset (regReset a) s.regs a (setBit (rget s a) i true) ∧
    (w1sWrite a i s).hits = s.hits ∧ (w1sWrite a i s).sets = (if rbit s a i then (a, i) :: s.sets else s.sets) ∧
    (w1sWrite a i s).mem = s.mem ∧ (w1sWrite a i s).tags = s.tags ∧ (w1sWrite a i s).vbits = s.vbits ∧ (w1sWrite a i s).raw = s.raw ∧
    (w1sWrite a i s).marks = s.marks ∧ (w1sWrite a i s).writes = s.writes ∧ (w1sWrite a i s).modeNext = s.modeNext ∧
    (w1sWrite a i s).touched = s.touched ∧ (w1sWrite a i s).fills = s.fills ∧ (w1sWrite a i s).heldWrites = s.heldWrites ∧
    (w1sWrite a i s).facets = s.facets ∧ (w1sWrite a i s).ints = s.ints ∧ (w1sWrite a i s).intc = s.intc ∧
    (w1sWrite a i s).intWas = s.intWas ∧ (w1sWrite a i s).refusals = s.refusals ∧ (w1sWrite a i s).tb = s.tb ∧
    (w1sWrite a i s).timWrites = s.timWrites ∧ (w1sWrite a i s).epochs = s.epochs ∧ (w1sWrite a i s).locks = s.locks ∧
    (w1sWrite a i s).pulses = s.pulses ∧ (w1sWrite a i s).ident = s.ident ∧ (w1sWrite a i s).ledger = s.ledger ∧
    (w1sWrite a i s).metro = s.metro ∧ (w1sWrite a i s).sideDev = s.sideDev ∧ (w1sWrite a i s).integ = s.integ ∧
    (w1sWrite a i s).chans = s.chans ∧ (w1sWrite a i s).engines = s.engines ∧ (w1sWrite a i s).cells = s.cells ∧
    (w1sWrite a i s).feeds = s.feeds ∧ (w1sWrite a i s).threads = s.threads ∧ (w1sWrite a i s).blockers = s.blockers ∧
    (w1sWrite a i s).wakes = s.wakes ∧ (w1sWrite a i s).macs = s.macs ∧ (w1sWrite a i s).fabric = s.fabric ∧
    (w1sWrite a i s).disc = s.disc ∧ (w1sWrite a i s).msixOpen = s.msixOpen ∧ (w1sWrite a i s).msixHeld = s.msixHeld ∧
    (w1sWrite a i s).ses = s.ses ∧ (w1sWrite a i s).gly = s.gly ∧ (w1sWrite a i s).bez = s.bez ∧ (w1sWrite a i s).pwr = s.pwr ∧
    (w1sWrite a i s).links = s.links :=
  ⟨rfl, rfl, rfl, rfl, rfl, rfl, rfl, rfl, rfl, rfl, rfl, rfl, rfl, rfl, rfl, rfl, rfl, rfl, rfl, rfl, rfl, rfl, rfl, rfl, rfl, rfl, rfl, rfl, rfl, rfl, rfl, rfl, rfl, rfl, rfl, rfl, rfl, rfl, rfl, rfl, rfl, rfl, rfl, rfl, rfl, rfl, rfl, rfl, rfl⟩

@[simp] theorem rsat_fields (a lo w v : Nat) (s : State) :
    (rsat a lo w v s).pending = s.pending ∧ (rsat a lo w v s).fclk = s.fclk ∧ (rsat a lo w v s).free = s.free ∧
    (rsat a lo w v s).out = s.out ∧ (rsat a lo w v s).hits = s.hits ∧ (rsat a lo w v s).sets = s.sets ∧
    (rsat a lo w v s).mem = s.mem ∧ (rsat a lo w v s).tags = s.tags ∧ (rsat a lo w v s).vbits = s.vbits ∧
    (rsat a lo w v s).raw = s.raw ∧ (rsat a lo w v s).marks = s.marks ∧ (rsat a lo w v s).writes = s.writes ∧
    (rsat a lo w v s).modeNext = s.modeNext ∧ (rsat a lo w v s).touched = s.touched ∧ (rsat a lo w v s).fills = s.fills ∧
    (rsat a lo w v s).heldWrites = s.heldWrites ∧ (rsat a lo w v s).facets = s.facets ∧ (rsat a lo w v s).ints = s.ints ∧
    (rsat a lo w v s).intc = s.intc ∧ (rsat a lo w v s).intWas = s.intWas ∧ (rsat a lo w v s).refusals = s.refusals ∧
    (rsat a lo w v s).tb = s.tb ∧ (rsat a lo w v s).timWrites = s.timWrites ∧ (rsat a lo w v s).epochs = s.epochs ∧
    (rsat a lo w v s).locks = s.locks ∧ (rsat a lo w v s).pulses = s.pulses ∧ (rsat a lo w v s).ident = s.ident ∧
    (rsat a lo w v s).ledger = s.ledger ∧ (rsat a lo w v s).metro = s.metro ∧ (rsat a lo w v s).sideDev = s.sideDev ∧
    (rsat a lo w v s).integ = s.integ ∧ (rsat a lo w v s).chans = s.chans ∧ (rsat a lo w v s).engines = s.engines ∧
    (rsat a lo w v s).cells = s.cells ∧ (rsat a lo w v s).feeds = s.feeds ∧ (rsat a lo w v s).threads = s.threads ∧
    (rsat a lo w v s).blockers = s.blockers ∧ (rsat a lo w v s).wakes = s.wakes ∧ (rsat a lo w v s).macs = s.macs ∧
    (rsat a lo w v s).fabric = s.fabric ∧ (rsat a lo w v s).disc = s.disc ∧ (rsat a lo w v s).msixOpen = s.msixOpen ∧
    (rsat a lo w v s).msixHeld = s.msixHeld ∧ (rsat a lo w v s).ses = s.ses ∧ (rsat a lo w v s).gly = s.gly ∧
    (rsat a lo w v s).bez = s.bez ∧ (rsat a lo w v s).pwr = s.pwr ∧ (rsat a lo w v s).links = s.links :=
  ⟨rfl, rfl, rfl, rfl, rfl, rfl, rfl, rfl, rfl, rfl, rfl, rfl, rfl, rfl, rfl, rfl, rfl, rfl, rfl, rfl, rfl, rfl, rfl, rfl, rfl, rfl, rfl, rfl, rfl, rfl, rfl, rfl, rfl, rfl, rfl, rfl, rfl, rfl, rfl, rfl, rfl, rfl, rfl, rfl, rfl, rfl, rfl, rfl⟩

@[simp] theorem rclear_fields (lo hi : Nat) (s : State) :
    (rclear lo hi s).pending = s.pending ∧ (rclear lo hi s).fclk = s.fclk ∧ (rclear lo hi s).free = s.free ∧
    (rclear lo hi s).out = s.out ∧ (rclear lo hi s).regs = tclear s.regs lo hi ∧ (rclear lo hi s).hits = s.hits ∧
    (rclear lo hi s).sets = s.sets ∧ (rclear lo hi s).mem = s.mem ∧ (rclear lo hi s).tags = s.tags ∧
    (rclear lo hi s).vbits = s.vbits ∧ (rclear lo hi s).raw = s.raw ∧ (rclear lo hi s).marks = s.marks ∧
    (rclear lo hi s).writes = s.writes ∧ (rclear lo hi s).modeNext = s.modeNext ∧ (rclear lo hi s).touched = s.touched ∧
    (rclear lo hi s).fills = s.fills ∧ (rclear lo hi s).heldWrites = s.heldWrites ∧ (rclear lo hi s).facets = s.facets ∧
    (rclear lo hi s).ints = s.ints ∧ (rclear lo hi s).intc = s.intc ∧ (rclear lo hi s).intWas = s.intWas ∧
    (rclear lo hi s).refusals = s.refusals ∧ (rclear lo hi s).tb = s.tb ∧ (rclear lo hi s).timWrites = s.timWrites ∧
    (rclear lo hi s).epochs = s.epochs ∧ (rclear lo hi s).locks = s.locks ∧ (rclear lo hi s).pulses = s.pulses ∧
    (rclear lo hi s).ident = s.ident ∧ (rclear lo hi s).ledger = s.ledger ∧ (rclear lo hi s).metro = s.metro ∧
    (rclear lo hi s).sideDev = s.sideDev ∧ (rclear lo hi s).integ = s.integ ∧ (rclear lo hi s).chans = s.chans ∧
    (rclear lo hi s).engines = s.engines ∧ (rclear lo hi s).cells = s.cells ∧ (rclear lo hi s).feeds = s.feeds ∧
    (rclear lo hi s).threads = s.threads ∧ (rclear lo hi s).blockers = s.blockers ∧ (rclear lo hi s).wakes = s.wakes ∧
    (rclear lo hi s).macs = s.macs ∧ (rclear lo hi s).fabric = s.fabric ∧ (rclear lo hi s).disc = s.disc ∧
    (rclear lo hi s).msixOpen = s.msixOpen ∧ (rclear lo hi s).msixHeld = s.msixHeld ∧ (rclear lo hi s).ses = s.ses ∧
    (rclear lo hi s).gly = s.gly ∧ (rclear lo hi s).bez = s.bez ∧ (rclear lo hi s).pwr = s.pwr ∧ (rclear lo hi s).links = s.links :=
  ⟨rfl, rfl, rfl, rfl, rfl, rfl, rfl, rfl, rfl, rfl, rfl, rfl, rfl, rfl, rfl, rfl, rfl, rfl, rfl, rfl, rfl, rfl, rfl, rfl, rfl, rfl, rfl, rfl, rfl, rfl, rfl, rfl, rfl, rfl, rfl, rfl, rfl, rfl, rfl, rfl, rfl, rfl, rfl, rfl, rfl, rfl, rfl, rfl, rfl⟩

@[simp] theorem setFacet_fields (n : Nat) (f : Facet) (s : State) :
    (setFacet n f s).pending = s.pending ∧ (setFacet n f s).fclk = s.fclk ∧ (setFacet n f s).free = s.free ∧
    (setFacet n f s).out = s.out ∧ (setFacet n f s).regs = s.regs ∧ (setFacet n f s).hits = s.hits ∧ (setFacet n f s).sets = s.sets ∧
    (setFacet n f s).mem = s.mem ∧ (setFacet n f s).tags = s.tags ∧ (setFacet n f s).vbits = s.vbits ∧ (setFacet n f s).raw = s.raw ∧
    (setFacet n f s).marks = s.marks ∧ (setFacet n f s).writes = s.writes ∧ (setFacet n f s).modeNext = s.modeNext ∧
    (setFacet n f s).touched = s.touched ∧ (setFacet n f s).fills = s.fills ∧ (setFacet n f s).heldWrites = s.heldWrites ∧
    (setFacet n f s).facets = tset {} s.facets n f ∧ (setFacet n f s).ints = s.ints ∧ (setFacet n f s).intc = s.intc ∧
    (setFacet n f s).intWas = s.intWas ∧ (setFacet n f s).refusals = s.refusals ∧ (setFacet n f s).tb = s.tb ∧
    (setFacet n f s).timWrites = s.timWrites ∧ (setFacet n f s).epochs = s.epochs ∧ (setFacet n f s).locks = s.locks ∧
    (setFacet n f s).pulses = s.pulses ∧ (setFacet n f s).ident = s.ident ∧ (setFacet n f s).ledger = s.ledger ∧
    (setFacet n f s).metro = s.metro ∧ (setFacet n f s).sideDev = s.sideDev ∧ (setFacet n f s).integ = s.integ ∧
    (setFacet n f s).chans = s.chans ∧ (setFacet n f s).engines = s.engines ∧ (setFacet n f s).cells = s.cells ∧
    (setFacet n f s).feeds = s.feeds ∧ (setFacet n f s).threads = s.threads ∧ (setFacet n f s).blockers = s.blockers ∧
    (setFacet n f s).wakes = s.wakes ∧ (setFacet n f s).macs = s.macs ∧ (setFacet n f s).fabric = s.fabric ∧
    (setFacet n f s).disc = s.disc ∧ (setFacet n f s).msixOpen = s.msixOpen ∧ (setFacet n f s).msixHeld = s.msixHeld ∧
    (setFacet n f s).ses = s.ses ∧ (setFacet n f s).gly = s.gly ∧ (setFacet n f s).bez = s.bez ∧ (setFacet n f s).pwr = s.pwr ∧
    (setFacet n f s).links = s.links :=
  ⟨rfl, rfl, rfl, rfl, rfl, rfl, rfl, rfl, rfl, rfl, rfl, rfl, rfl, rfl, rfl, rfl, rfl, rfl, rfl, rfl, rfl, rfl, rfl, rfl, rfl, rfl, rfl, rfl, rfl, rfl, rfl, rfl, rfl, rfl, rfl, rfl, rfl, rfl, rfl, rfl, rfl, rfl, rfl, rfl, rfl, rfl, rfl, rfl, rfl⟩

@[simp] theorem updFacet_fields (n : Nat) (h : Facet → Facet) (s : State) :
    (updFacet n h s).pending = s.pending ∧ (updFacet n h s).fclk = s.fclk ∧ (updFacet n h s).free = s.free ∧
    (updFacet n h s).out = s.out ∧ (updFacet n h s).regs = s.regs ∧ (updFacet n h s).hits = s.hits ∧ (updFacet n h s).sets = s.sets ∧
    (updFacet n h s).mem = s.mem ∧ (updFacet n h s).tags = s.tags ∧ (updFacet n h s).vbits = s.vbits ∧ (updFacet n h s).raw = s.raw ∧
    (updFacet n h s).marks = s.marks ∧ (updFacet n h s).writes = s.writes ∧ (updFacet n h s).modeNext = s.modeNext ∧
    (updFacet n h s).touched = s.touched ∧ (updFacet n h s).fills = s.fills ∧ (updFacet n h s).heldWrites = s.heldWrites ∧
    (updFacet n h s).facets = tset {} s.facets n (h (facet s n)) ∧ (updFacet n h s).ints = s.ints ∧ (updFacet n h s).intc = s.intc ∧
    (updFacet n h s).intWas = s.intWas ∧ (updFacet n h s).refusals = s.refusals ∧ (updFacet n h s).tb = s.tb ∧
    (updFacet n h s).timWrites = s.timWrites ∧ (updFacet n h s).epochs = s.epochs ∧ (updFacet n h s).locks = s.locks ∧
    (updFacet n h s).pulses = s.pulses ∧ (updFacet n h s).ident = s.ident ∧ (updFacet n h s).ledger = s.ledger ∧
    (updFacet n h s).metro = s.metro ∧ (updFacet n h s).sideDev = s.sideDev ∧ (updFacet n h s).integ = s.integ ∧
    (updFacet n h s).chans = s.chans ∧ (updFacet n h s).engines = s.engines ∧ (updFacet n h s).cells = s.cells ∧
    (updFacet n h s).feeds = s.feeds ∧ (updFacet n h s).threads = s.threads ∧ (updFacet n h s).blockers = s.blockers ∧
    (updFacet n h s).wakes = s.wakes ∧ (updFacet n h s).macs = s.macs ∧ (updFacet n h s).fabric = s.fabric ∧
    (updFacet n h s).disc = s.disc ∧ (updFacet n h s).msixOpen = s.msixOpen ∧ (updFacet n h s).msixHeld = s.msixHeld ∧
    (updFacet n h s).ses = s.ses ∧ (updFacet n h s).gly = s.gly ∧ (updFacet n h s).bez = s.bez ∧ (updFacet n h s).pwr = s.pwr ∧
    (updFacet n h s).links = s.links :=
  ⟨rfl, rfl, rfl, rfl, rfl, rfl, rfl, rfl, rfl, rfl, rfl, rfl, rfl, rfl, rfl, rfl, rfl, rfl, rfl, rfl, rfl, rfl, rfl, rfl, rfl, rfl, rfl, rfl, rfl, rfl, rfl, rfl, rfl, rfl, rfl, rfl, rfl, rfl, rfl, rfl, rfl, rfl, rfl, rfl, rfl, rfl, rfl, rfl, rfl⟩

@[simp] theorem setIntSrc_fields (c i : Nat) (x : IntSrc) (s : State) :
    (setIntSrc c i x s).pending = s.pending ∧ (setIntSrc c i x s).fclk = s.fclk ∧ (setIntSrc c i x s).free = s.free ∧
    (setIntSrc c i x s).out = s.out ∧ (setIntSrc c i x s).regs = s.regs ∧ (setIntSrc c i x s).hits = s.hits ∧
    (setIntSrc c i x s).sets = s.sets ∧ (setIntSrc c i x s).mem = s.mem ∧ (setIntSrc c i x s).tags = s.tags ∧
    (setIntSrc c i x s).vbits = s.vbits ∧ (setIntSrc c i x s).raw = s.raw ∧ (setIntSrc c i x s).marks = s.marks ∧
    (setIntSrc c i x s).writes = s.writes ∧ (setIntSrc c i x s).modeNext = s.modeNext ∧ (setIntSrc c i x s).touched = s.touched ∧
    (setIntSrc c i x s).fills = s.fills ∧ (setIntSrc c i x s).heldWrites = s.heldWrites ∧ (setIntSrc c i x s).facets = s.facets ∧
    (setIntSrc c i x s).ints = tset {} s.ints (srcKey c i) x ∧ (setIntSrc c i x s).intc = s.intc ∧
    (setIntSrc c i x s).intWas = (if s.intWas.any (fun p => p.1 == srcKey c i) then s.intWas else (srcKey c i, intSrc s c i) :: s.intWas) ∧
    (setIntSrc c i x s).refusals = s.refusals ∧ (setIntSrc c i x s).tb = s.tb ∧ (setIntSrc c i x s).timWrites = s.timWrites ∧
    (setIntSrc c i x s).epochs = s.epochs ∧ (setIntSrc c i x s).locks = s.locks ∧ (setIntSrc c i x s).pulses = s.pulses ∧
    (setIntSrc c i x s).ident = s.ident ∧ (setIntSrc c i x s).ledger = s.ledger ∧ (setIntSrc c i x s).metro = s.metro ∧
    (setIntSrc c i x s).sideDev = s.sideDev ∧ (setIntSrc c i x s).integ = s.integ ∧ (setIntSrc c i x s).chans = s.chans ∧
    (setIntSrc c i x s).engines = s.engines ∧ (setIntSrc c i x s).cells = s.cells ∧ (setIntSrc c i x s).feeds = s.feeds ∧
    (setIntSrc c i x s).threads = s.threads ∧ (setIntSrc c i x s).blockers = s.blockers ∧ (setIntSrc c i x s).wakes = s.wakes ∧
    (setIntSrc c i x s).macs = s.macs ∧ (setIntSrc c i x s).fabric = s.fabric ∧ (setIntSrc c i x s).disc = s.disc ∧
    (setIntSrc c i x s).msixOpen = s.msixOpen ∧ (setIntSrc c i x s).msixHeld = s.msixHeld ∧ (setIntSrc c i x s).ses = s.ses ∧
    (setIntSrc c i x s).gly = s.gly ∧ (setIntSrc c i x s).bez = s.bez ∧ (setIntSrc c i x s).pwr = s.pwr ∧
    (setIntSrc c i x s).links = s.links :=
  ⟨rfl, rfl, rfl, rfl, rfl, rfl, rfl, rfl, rfl, rfl, rfl, rfl, rfl, rfl, rfl, rfl, rfl, rfl, rfl, rfl, rfl, rfl, rfl, rfl, rfl, rfl, rfl, rfl, rfl, rfl, rfl, rfl, rfl, rfl, rfl, rfl, rfl, rfl, rfl, rfl, rfl, rfl, rfl, rfl, rfl, rfl, rfl, rfl, rfl⟩

@[simp] theorem tellSteward_fields (a : Nat) (w : Agent) (s : State) :
    (tellSteward a w s).pending = s.pending ∧ (tellSteward a w s).fclk = s.fclk ∧ (tellSteward a w s).free = s.free ∧
    (tellSteward a w s).out = s.out ∧ (tellSteward a w s).regs = s.regs ∧ (tellSteward a w s).hits = s.hits ∧
    (tellSteward a w s).sets = s.sets ∧ (tellSteward a w s).mem = s.mem ∧ (tellSteward a w s).tags = s.tags ∧
    (tellSteward a w s).vbits = s.vbits ∧ (tellSteward a w s).raw = s.raw ∧ (tellSteward a w s).marks = s.marks ∧
    (tellSteward a w s).writes = s.writes ∧ (tellSteward a w s).modeNext = s.modeNext ∧ (tellSteward a w s).touched = s.touched ∧
    (tellSteward a w s).fills = s.fills ∧ (tellSteward a w s).heldWrites = s.heldWrites ∧ (tellSteward a w s).facets = s.facets ∧
    (tellSteward a w s).ints = s.ints ∧ (tellSteward a w s).intc = s.intc ∧ (tellSteward a w s).intWas = s.intWas ∧
    (tellSteward a w s).refusals = s.refusals ++ [(a, w)] ∧ (tellSteward a w s).tb = s.tb ∧
    (tellSteward a w s).timWrites = s.timWrites ∧ (tellSteward a w s).epochs = s.epochs ∧ (tellSteward a w s).locks = s.locks ∧
    (tellSteward a w s).pulses = s.pulses ∧ (tellSteward a w s).ident = s.ident ∧ (tellSteward a w s).ledger = s.ledger ∧
    (tellSteward a w s).metro = s.metro ∧ (tellSteward a w s).sideDev = s.sideDev ∧ (tellSteward a w s).integ = s.integ ∧
    (tellSteward a w s).chans = s.chans ∧ (tellSteward a w s).engines = s.engines ∧ (tellSteward a w s).cells = s.cells ∧
    (tellSteward a w s).feeds = s.feeds ∧ (tellSteward a w s).threads = s.threads ∧ (tellSteward a w s).blockers = s.blockers ∧
    (tellSteward a w s).wakes = s.wakes ∧ (tellSteward a w s).macs = s.macs ∧ (tellSteward a w s).fabric = s.fabric ∧
    (tellSteward a w s).disc = s.disc ∧ (tellSteward a w s).msixOpen = s.msixOpen ∧ (tellSteward a w s).msixHeld = s.msixHeld ∧
    (tellSteward a w s).ses = s.ses ∧ (tellSteward a w s).gly = s.gly ∧ (tellSteward a w s).bez = s.bez ∧
    (tellSteward a w s).pwr = s.pwr ∧ (tellSteward a w s).links = s.links :=
  ⟨rfl, rfl, rfl, rfl, rfl, rfl, rfl, rfl, rfl, rfl, rfl, rfl, rfl, rfl, rfl, rfl, rfl, rfl, rfl, rfl, rfl, rfl, rfl, rfl, rfl, rfl, rfl, rfl, rfl, rfl, rfl, rfl, rfl, rfl, rfl, rfl, rfl, rfl, rfl, rfl, rfl, rfl, rfl, rfl, rfl, rfl, rfl, rfl, rfl⟩

@[simp] theorem setIntCtl_fields (c : Nat) (x : IntCtl) (s : State) :
    (setIntCtl c x s).pending = s.pending ∧ (setIntCtl c x s).fclk = s.fclk ∧ (setIntCtl c x s).free = s.free ∧
    (setIntCtl c x s).out = s.out ∧ (setIntCtl c x s).regs = s.regs ∧ (setIntCtl c x s).hits = s.hits ∧
    (setIntCtl c x s).sets = s.sets ∧ (setIntCtl c x s).mem = s.mem ∧ (setIntCtl c x s).tags = s.tags ∧
    (setIntCtl c x s).vbits = s.vbits ∧ (setIntCtl c x s).raw = s.raw ∧ (setIntCtl c x s).marks = s.marks ∧
    (setIntCtl c x s).writes = s.writes ∧ (setIntCtl c x s).modeNext = s.modeNext ∧ (setIntCtl c x s).touched = s.touched ∧
    (setIntCtl c x s).fills = s.fills ∧ (setIntCtl c x s).heldWrites = s.heldWrites ∧ (setIntCtl c x s).facets = s.facets ∧
    (setIntCtl c x s).ints = s.ints ∧ (setIntCtl c x s).intc = tset {} s.intc c x ∧ (setIntCtl c x s).intWas = s.intWas ∧
    (setIntCtl c x s).refusals = s.refusals ∧ (setIntCtl c x s).tb = s.tb ∧ (setIntCtl c x s).timWrites = s.timWrites ∧
    (setIntCtl c x s).epochs = s.epochs ∧ (setIntCtl c x s).locks = s.locks ∧ (setIntCtl c x s).pulses = s.pulses ∧
    (setIntCtl c x s).ident = s.ident ∧ (setIntCtl c x s).ledger = s.ledger ∧ (setIntCtl c x s).metro = s.metro ∧
    (setIntCtl c x s).sideDev = s.sideDev ∧ (setIntCtl c x s).integ = s.integ ∧ (setIntCtl c x s).chans = s.chans ∧
    (setIntCtl c x s).engines = s.engines ∧ (setIntCtl c x s).cells = s.cells ∧ (setIntCtl c x s).feeds = s.feeds ∧
    (setIntCtl c x s).threads = s.threads ∧ (setIntCtl c x s).blockers = s.blockers ∧ (setIntCtl c x s).wakes = s.wakes ∧
    (setIntCtl c x s).macs = s.macs ∧ (setIntCtl c x s).fabric = s.fabric ∧ (setIntCtl c x s).disc = s.disc ∧
    (setIntCtl c x s).msixOpen = s.msixOpen ∧ (setIntCtl c x s).msixHeld = s.msixHeld ∧ (setIntCtl c x s).ses = s.ses ∧
    (setIntCtl c x s).gly = s.gly ∧ (setIntCtl c x s).bez = s.bez ∧ (setIntCtl c x s).pwr = s.pwr ∧
    (setIntCtl c x s).links = s.links :=
  ⟨rfl, rfl, rfl, rfl, rfl, rfl, rfl, rfl, rfl, rfl, rfl, rfl, rfl, rfl, rfl, rfl, rfl, rfl, rfl, rfl, rfl, rfl, rfl, rfl, rfl, rfl, rfl, rfl, rfl, rfl, rfl, rfl, rfl, rfl, rfl, rfl, rfl, rfl, rfl, rfl, rfl, rfl, rfl, rfl, rfl, rfl, rfl, rfl, rfl⟩

@[simp] theorem poke_fields (a : Nat) (bs : List Byte) (s : State) :
    (poke a bs s).pending = s.pending ∧ (poke a bs s).fclk = s.fclk ∧ (poke a bs s).free = s.free ∧ (poke a bs s).out = s.out ∧
    (poke a bs s).regs = s.regs ∧ (poke a bs s).hits = s.hits ∧ (poke a bs s).sets = s.sets ∧ (poke a bs s).mem = mputs s.mem a bs ∧
    (poke a bs s).tags = s.tags ∧ (poke a bs s).vbits = s.vbits ∧ (poke a bs s).raw = s.raw ∧ (poke a bs s).marks = s.marks ∧
    (poke a bs s).writes = s.writes ∧ (poke a bs s).modeNext = s.modeNext ∧ (poke a bs s).touched = s.touched ∧
    (poke a bs s).fills = s.fills ∧ (poke a bs s).heldWrites = s.heldWrites ∧ (poke a bs s).facets = s.facets ∧
    (poke a bs s).ints = s.ints ∧ (poke a bs s).intc = s.intc ∧ (poke a bs s).intWas = s.intWas ∧
    (poke a bs s).refusals = s.refusals ∧ (poke a bs s).tb = s.tb ∧ (poke a bs s).timWrites = s.timWrites ∧
    (poke a bs s).epochs = s.epochs ∧ (poke a bs s).locks = s.locks ∧ (poke a bs s).pulses = s.pulses ∧
    (poke a bs s).ident = s.ident ∧ (poke a bs s).ledger = s.ledger ∧ (poke a bs s).metro = s.metro ∧
    (poke a bs s).sideDev = s.sideDev ∧ (poke a bs s).integ = s.integ ∧ (poke a bs s).chans = s.chans ∧
    (poke a bs s).engines = s.engines ∧ (poke a bs s).cells = s.cells ∧ (poke a bs s).feeds = s.feeds ∧
    (poke a bs s).threads = s.threads ∧ (poke a bs s).blockers = s.blockers ∧ (poke a bs s).wakes = s.wakes ∧
    (poke a bs s).macs = s.macs ∧ (poke a bs s).fabric = s.fabric ∧ (poke a bs s).disc = s.disc ∧
    (poke a bs s).msixOpen = s.msixOpen ∧ (poke a bs s).msixHeld = s.msixHeld ∧ (poke a bs s).ses = s.ses ∧
    (poke a bs s).gly = s.gly ∧ (poke a bs s).bez = s.bez ∧ (poke a bs s).pwr = s.pwr ∧ (poke a bs s).links = s.links :=
  ⟨rfl, rfl, rfl, rfl, rfl, rfl, rfl, rfl, rfl, rfl, rfl, rfl, rfl, rfl, rfl, rfl, rfl, rfl, rfl, rfl, rfl, rfl, rfl, rfl, rfl, rfl, rfl, rfl, rfl, rfl, rfl, rfl, rfl, rfl, rfl, rfl, rfl, rfl, rfl, rfl, rfl, rfl, rfl, rfl, rfl, rfl, rfl, rfl, rfl⟩

@[simp] theorem setTag_fields (a : Nat) (b : Bool) (s : State) :
    (setTag a b s).pending = s.pending ∧ (setTag a b s).fclk = s.fclk ∧ (setTag a b s).free = s.free ∧ (setTag a b s).out = s.out ∧
    (setTag a b s).regs = s.regs ∧ (setTag a b s).hits = s.hits ∧ (setTag a b s).sets = s.sets ∧ (setTag a b s).mem = s.mem ∧
    (setTag a b s).tags = sput s.tags (wordOf a) b ∧ (setTag a b s).vbits = s.vbits ∧ (setTag a b s).raw = s.raw ∧
    (setTag a b s).marks = s.marks ∧ (setTag a b s).writes = s.writes ∧ (setTag a b s).modeNext = s.modeNext ∧
    (setTag a b s).touched = s.touched ∧ (setTag a b s).fills = s.fills ∧ (setTag a b s).heldWrites = s.heldWrites ∧
    (setTag a b s).facets = s.facets ∧ (setTag a b s).ints = s.ints ∧ (setTag a b s).intc = s.intc ∧
    (setTag a b s).intWas = s.intWas ∧ (setTag a b s).refusals = s.refusals ∧ (setTag a b s).tb = s.tb ∧
    (setTag a b s).timWrites = s.timWrites ∧ (setTag a b s).epochs = s.epochs ∧ (setTag a b s).locks = s.locks ∧
    (setTag a b s).pulses = s.pulses ∧ (setTag a b s).ident = s.ident ∧ (setTag a b s).ledger = s.ledger ∧
    (setTag a b s).metro = s.metro ∧ (setTag a b s).sideDev = s.sideDev ∧ (setTag a b s).integ = s.integ ∧
    (setTag a b s).chans = s.chans ∧ (setTag a b s).engines = s.engines ∧ (setTag a b s).cells = s.cells ∧
    (setTag a b s).feeds = s.feeds ∧ (setTag a b s).threads = s.threads ∧ (setTag a b s).blockers = s.blockers ∧
    (setTag a b s).wakes = s.wakes ∧ (setTag a b s).macs = s.macs ∧ (setTag a b s).fabric = s.fabric ∧ (setTag a b s).disc = s.disc ∧
    (setTag a b s).msixOpen = s.msixOpen ∧ (setTag a b s).msixHeld = s.msixHeld ∧ (setTag a b s).ses = s.ses ∧
    (setTag a b s).gly = s.gly ∧ (setTag a b s).bez = s.bez ∧ (setTag a b s).pwr = s.pwr ∧ (setTag a b s).links = s.links :=
  ⟨rfl, rfl, rfl, rfl, rfl, rfl, rfl, rfl, rfl, rfl, rfl, rfl, rfl, rfl, rfl, rfl, rfl, rfl, rfl, rfl, rfl, rfl, rfl, rfl, rfl, rfl, rfl, rfl, rfl, rfl, rfl, rfl, rfl, rfl, rfl, rfl, rfl, rfl, rfl, rfl, rfl, rfl, rfl, rfl, rfl, rfl, rfl, rfl, rfl⟩

@[simp] theorem setInteg_fields (c : Nat) (x : Integ) (s : State) :
    (setInteg c x s).pending = s.pending ∧ (setInteg c x s).fclk = s.fclk ∧ (setInteg c x s).free = s.free ∧
    (setInteg c x s).out = s.out ∧ (setInteg c x s).regs = s.regs ∧ (setInteg c x s).hits = s.hits ∧ (setInteg c x s).sets = s.sets ∧
    (setInteg c x s).mem = s.mem ∧ (setInteg c x s).tags = s.tags ∧ (setInteg c x s).vbits = s.vbits ∧ (setInteg c x s).raw = s.raw ∧
    (setInteg c x s).marks = s.marks ∧ (setInteg c x s).writes = s.writes ∧ (setInteg c x s).modeNext = s.modeNext ∧
    (setInteg c x s).touched = s.touched ∧ (setInteg c x s).fills = s.fills ∧ (setInteg c x s).heldWrites = s.heldWrites ∧
    (setInteg c x s).facets = s.facets ∧ (setInteg c x s).ints = s.ints ∧ (setInteg c x s).intc = s.intc ∧
    (setInteg c x s).intWas = s.intWas ∧ (setInteg c x s).refusals = s.refusals ∧ (setInteg c x s).tb = s.tb ∧
    (setInteg c x s).timWrites = s.timWrites ∧ (setInteg c x s).epochs = s.epochs ∧ (setInteg c x s).locks = s.locks ∧
    (setInteg c x s).pulses = s.pulses ∧ (setInteg c x s).ident = s.ident ∧ (setInteg c x s).ledger = s.ledger ∧
    (setInteg c x s).metro = s.metro ∧ (setInteg c x s).sideDev = s.sideDev ∧ (setInteg c x s).integ = tset {} s.integ c x ∧
    (setInteg c x s).chans = s.chans ∧ (setInteg c x s).engines = s.engines ∧ (setInteg c x s).cells = s.cells ∧
    (setInteg c x s).feeds = s.feeds ∧ (setInteg c x s).threads = s.threads ∧ (setInteg c x s).blockers = s.blockers ∧
    (setInteg c x s).wakes = s.wakes ∧ (setInteg c x s).macs = s.macs ∧ (setInteg c x s).fabric = s.fabric ∧
    (setInteg c x s).disc = s.disc ∧ (setInteg c x s).msixOpen = s.msixOpen ∧ (setInteg c x s).msixHeld = s.msixHeld ∧
    (setInteg c x s).ses = s.ses ∧ (setInteg c x s).gly = s.gly ∧ (setInteg c x s).bez = s.bez ∧ (setInteg c x s).pwr = s.pwr ∧
    (setInteg c x s).links = s.links :=
  ⟨rfl, rfl, rfl, rfl, rfl, rfl, rfl, rfl, rfl, rfl, rfl, rfl, rfl, rfl, rfl, rfl, rfl, rfl, rfl, rfl, rfl, rfl, rfl, rfl, rfl, rfl, rfl, rfl, rfl, rfl, rfl, rfl, rfl, rfl, rfl, rfl, rfl, rfl, rfl, rfl, rfl, rfl, rfl, rfl, rfl, rfl, rfl, rfl, rfl⟩

@[simp] theorem setChan_fields (k : Nat) (x : Chan) (s : State) :
    (setChan k x s).pending = s.pending ∧ (setChan k x s).fclk = s.fclk ∧ (setChan k x s).free = s.free ∧
    (setChan k x s).out = s.out ∧ (setChan k x s).regs = s.regs ∧ (setChan k x s).hits = s.hits ∧ (setChan k x s).sets = s.sets ∧
    (setChan k x s).mem = s.mem ∧ (setChan k x s).tags = s.tags ∧ (setChan k x s).vbits = s.vbits ∧ (setChan k x s).raw = s.raw ∧
    (setChan k x s).marks = s.marks ∧ (setChan k x s).writes = s.writes ∧ (setChan k x s).modeNext = s.modeNext ∧
    (setChan k x s).touched = s.touched ∧ (setChan k x s).fills = s.fills ∧ (setChan k x s).heldWrites = s.heldWrites ∧
    (setChan k x s).facets = s.facets ∧ (setChan k x s).ints = s.ints ∧ (setChan k x s).intc = s.intc ∧
    (setChan k x s).intWas = s.intWas ∧ (setChan k x s).refusals = s.refusals ∧ (setChan k x s).tb = s.tb ∧
    (setChan k x s).timWrites = s.timWrites ∧ (setChan k x s).epochs = s.epochs ∧ (setChan k x s).locks = s.locks ∧
    (setChan k x s).pulses = s.pulses ∧ (setChan k x s).ident = s.ident ∧ (setChan k x s).ledger = s.ledger ∧
    (setChan k x s).metro = s.metro ∧ (setChan k x s).sideDev = s.sideDev ∧ (setChan k x s).integ = s.integ ∧
    (setChan k x s).chans = tset {} s.chans k x ∧ (setChan k x s).engines = s.engines ∧ (setChan k x s).cells = s.cells ∧
    (setChan k x s).feeds = s.feeds ∧ (setChan k x s).threads = s.threads ∧ (setChan k x s).blockers = s.blockers ∧
    (setChan k x s).wakes = s.wakes ∧ (setChan k x s).macs = s.macs ∧ (setChan k x s).fabric = s.fabric ∧
    (setChan k x s).disc = s.disc ∧ (setChan k x s).msixOpen = s.msixOpen ∧ (setChan k x s).msixHeld = s.msixHeld ∧
    (setChan k x s).ses = s.ses ∧ (setChan k x s).gly = s.gly ∧ (setChan k x s).bez = s.bez ∧ (setChan k x s).pwr = s.pwr ∧
    (setChan k x s).links = s.links :=
  ⟨rfl, rfl, rfl, rfl, rfl, rfl, rfl, rfl, rfl, rfl, rfl, rfl, rfl, rfl, rfl, rfl, rfl, rfl, rfl, rfl, rfl, rfl, rfl, rfl, rfl, rfl, rfl, rfl, rfl, rfl, rfl, rfl, rfl, rfl, rfl, rfl, rfl, rfl, rfl, rfl, rfl, rfl, rfl, rfl, rfl, rfl, rfl, rfl, rfl⟩

@[simp] theorem setEngine_fields (e : Nat) (x : Engine) (s : State) :
    (setEngine e x s).pending = s.pending ∧ (setEngine e x s).fclk = s.fclk ∧ (setEngine e x s).free = s.free ∧
    (setEngine e x s).out = s.out ∧ (setEngine e x s).regs = s.regs ∧ (setEngine e x s).hits = s.hits ∧
    (setEngine e x s).sets = s.sets ∧ (setEngine e x s).mem = s.mem ∧ (setEngine e x s).tags = s.tags ∧
    (setEngine e x s).vbits = s.vbits ∧ (setEngine e x s).raw = s.raw ∧ (setEngine e x s).marks = s.marks ∧
    (setEngine e x s).writes = s.writes ∧ (setEngine e x s).modeNext = s.modeNext ∧ (setEngine e x s).touched = s.touched ∧
    (setEngine e x s).fills = s.fills ∧ (setEngine e x s).heldWrites = s.heldWrites ∧ (setEngine e x s).facets = s.facets ∧
    (setEngine e x s).ints = s.ints ∧ (setEngine e x s).intc = s.intc ∧ (setEngine e x s).intWas = s.intWas ∧
    (setEngine e x s).refusals = s.refusals ∧ (setEngine e x s).tb = s.tb ∧ (setEngine e x s).timWrites = s.timWrites ∧
    (setEngine e x s).epochs = s.epochs ∧ (setEngine e x s).locks = s.locks ∧ (setEngine e x s).pulses = s.pulses ∧
    (setEngine e x s).ident = s.ident ∧ (setEngine e x s).ledger = s.ledger ∧ (setEngine e x s).metro = s.metro ∧
    (setEngine e x s).sideDev = s.sideDev ∧ (setEngine e x s).integ = s.integ ∧ (setEngine e x s).chans = s.chans ∧
    (setEngine e x s).engines = tset {} s.engines e x ∧ (setEngine e x s).cells = s.cells ∧ (setEngine e x s).feeds = s.feeds ∧
    (setEngine e x s).threads = s.threads ∧ (setEngine e x s).blockers = s.blockers ∧ (setEngine e x s).wakes = s.wakes ∧
    (setEngine e x s).macs = s.macs ∧ (setEngine e x s).fabric = s.fabric ∧ (setEngine e x s).disc = s.disc ∧
    (setEngine e x s).msixOpen = s.msixOpen ∧ (setEngine e x s).msixHeld = s.msixHeld ∧ (setEngine e x s).ses = s.ses ∧
    (setEngine e x s).gly = s.gly ∧ (setEngine e x s).bez = s.bez ∧ (setEngine e x s).pwr = s.pwr ∧
    (setEngine e x s).links = s.links :=
  ⟨rfl, rfl, rfl, rfl, rfl, rfl, rfl, rfl, rfl, rfl, rfl, rfl, rfl, rfl, rfl, rfl, rfl, rfl, rfl, rfl, rfl, rfl, rfl, rfl, rfl, rfl, rfl, rfl, rfl, rfl, rfl, rfl, rfl, rfl, rfl, rfl, rfl, rfl, rfl, rfl, rfl, rfl, rfl, rfl, rfl, rfl, rfl, rfl, rfl⟩

@[simp] theorem setCell_fields (p : Nat) (x : Cell) (s : State) :
    (setCell p x s).pending = s.pending ∧ (setCell p x s).fclk = s.fclk ∧ (setCell p x s).free = s.free ∧
    (setCell p x s).out = s.out ∧ (setCell p x s).regs = s.regs ∧ (setCell p x s).hits = s.hits ∧ (setCell p x s).sets = s.sets ∧
    (setCell p x s).mem = s.mem ∧ (setCell p x s).tags = s.tags ∧ (setCell p x s).vbits = s.vbits ∧ (setCell p x s).raw = s.raw ∧
    (setCell p x s).marks = s.marks ∧ (setCell p x s).writes = s.writes ∧ (setCell p x s).modeNext = s.modeNext ∧
    (setCell p x s).touched = s.touched ∧ (setCell p x s).fills = s.fills ∧ (setCell p x s).heldWrites = s.heldWrites ∧
    (setCell p x s).facets = s.facets ∧ (setCell p x s).ints = s.ints ∧ (setCell p x s).intc = s.intc ∧
    (setCell p x s).intWas = s.intWas ∧ (setCell p x s).refusals = s.refusals ∧ (setCell p x s).tb = s.tb ∧
    (setCell p x s).timWrites = s.timWrites ∧ (setCell p x s).epochs = s.epochs ∧ (setCell p x s).locks = s.locks ∧
    (setCell p x s).pulses = s.pulses ∧ (setCell p x s).ident = s.ident ∧ (setCell p x s).ledger = s.ledger ∧
    (setCell p x s).metro = s.metro ∧ (setCell p x s).sideDev = s.sideDev ∧ (setCell p x s).integ = s.integ ∧
    (setCell p x s).chans = s.chans ∧ (setCell p x s).engines = s.engines ∧ (setCell p x s).cells = tset {} s.cells p x ∧
    (setCell p x s).feeds = s.feeds ∧ (setCell p x s).threads = s.threads ∧ (setCell p x s).blockers = s.blockers ∧
    (setCell p x s).wakes = s.wakes ∧ (setCell p x s).macs = s.macs ∧ (setCell p x s).fabric = s.fabric ∧
    (setCell p x s).disc = s.disc ∧ (setCell p x s).msixOpen = s.msixOpen ∧ (setCell p x s).msixHeld = s.msixHeld ∧
    (setCell p x s).ses = s.ses ∧ (setCell p x s).gly = s.gly ∧ (setCell p x s).bez = s.bez ∧ (setCell p x s).pwr = s.pwr ∧
    (setCell p x s).links = s.links :=
  ⟨rfl, rfl, rfl, rfl, rfl, rfl, rfl, rfl, rfl, rfl, rfl, rfl, rfl, rfl, rfl, rfl, rfl, rfl, rfl, rfl, rfl, rfl, rfl, rfl, rfl, rfl, rfl, rfl, rfl, rfl, rfl, rfl, rfl, rfl, rfl, rfl, rfl, rfl, rfl, rfl, rfl, rfl, rfl, rfl, rfl, rfl, rfl, rfl, rfl⟩

@[simp] theorem setThread_fields (t : Nat) (x : Thread) (s : State) :
    (setThread t x s).pending = s.pending ∧ (setThread t x s).fclk = s.fclk ∧ (setThread t x s).free = s.free ∧
    (setThread t x s).out = s.out ∧ (setThread t x s).regs = s.regs ∧ (setThread t x s).hits = s.hits ∧
    (setThread t x s).sets = s.sets ∧ (setThread t x s).mem = s.mem ∧ (setThread t x s).tags = s.tags ∧
    (setThread t x s).vbits = s.vbits ∧ (setThread t x s).raw = s.raw ∧ (setThread t x s).marks = s.marks ∧
    (setThread t x s).writes = s.writes ∧ (setThread t x s).modeNext = s.modeNext ∧ (setThread t x s).touched = s.touched ∧
    (setThread t x s).fills = s.fills ∧ (setThread t x s).heldWrites = s.heldWrites ∧ (setThread t x s).facets = s.facets ∧
    (setThread t x s).ints = s.ints ∧ (setThread t x s).intc = s.intc ∧ (setThread t x s).intWas = s.intWas ∧
    (setThread t x s).refusals = s.refusals ∧ (setThread t x s).tb = s.tb ∧ (setThread t x s).timWrites = s.timWrites ∧
    (setThread t x s).epochs = s.epochs ∧ (setThread t x s).locks = s.locks ∧ (setThread t x s).pulses = s.pulses ∧
    (setThread t x s).ident = s.ident ∧ (setThread t x s).ledger = s.ledger ∧ (setThread t x s).metro = s.metro ∧
    (setThread t x s).sideDev = s.sideDev ∧ (setThread t x s).integ = s.integ ∧ (setThread t x s).chans = s.chans ∧
    (setThread t x s).engines = s.engines ∧ (setThread t x s).cells = s.cells ∧ (setThread t x s).feeds = s.feeds ∧
    (setThread t x s).threads = tset {} s.threads t x ∧ (setThread t x s).blockers = s.blockers ∧ (setThread t x s).wakes = s.wakes ∧
    (setThread t x s).macs = s.macs ∧ (setThread t x s).fabric = s.fabric ∧ (setThread t x s).disc = s.disc ∧
    (setThread t x s).msixOpen = s.msixOpen ∧ (setThread t x s).msixHeld = s.msixHeld ∧ (setThread t x s).ses = s.ses ∧
    (setThread t x s).gly = s.gly ∧ (setThread t x s).bez = s.bez ∧ (setThread t x s).pwr = s.pwr ∧
    (setThread t x s).links = s.links :=
  ⟨rfl, rfl, rfl, rfl, rfl, rfl, rfl, rfl, rfl, rfl, rfl, rfl, rfl, rfl, rfl, rfl, rfl, rfl, rfl, rfl, rfl, rfl, rfl, rfl, rfl, rfl, rfl, rfl, rfl, rfl, rfl, rfl, rfl, rfl, rfl, rfl, rfl, rfl, rfl, rfl, rfl, rfl, rfl, rfl, rfl, rfl, rfl, rfl, rfl⟩

@[simp] theorem setBlocker_fields (b : Nat) (x : Blocker) (s : State) :
    (setBlocker b x s).pending = s.pending ∧ (setBlocker b x s).fclk = s.fclk ∧ (setBlocker b x s).free = s.free ∧
    (setBlocker b x s).out = s.out ∧ (setBlocker b x s).regs = s.regs ∧ (setBlocker b x s).hits = s.hits ∧
    (setBlocker b x s).sets = s.sets ∧ (setBlocker b x s).mem = s.mem ∧ (setBlocker b x s).tags = s.tags ∧
    (setBlocker b x s).vbits = s.vbits ∧ (setBlocker b x s).raw = s.raw ∧ (setBlocker b x s).marks = s.marks ∧
    (setBlocker b x s).writes = s.writes ∧ (setBlocker b x s).modeNext = s.modeNext ∧ (setBlocker b x s).touched = s.touched ∧
    (setBlocker b x s).fills = s.fills ∧ (setBlocker b x s).heldWrites = s.heldWrites ∧ (setBlocker b x s).facets = s.facets ∧
    (setBlocker b x s).ints = s.ints ∧ (setBlocker b x s).intc = s.intc ∧ (setBlocker b x s).intWas = s.intWas ∧
    (setBlocker b x s).refusals = s.refusals ∧ (setBlocker b x s).tb = s.tb ∧ (setBlocker b x s).timWrites = s.timWrites ∧
    (setBlocker b x s).epochs = s.epochs ∧ (setBlocker b x s).locks = s.locks ∧ (setBlocker b x s).pulses = s.pulses ∧
    (setBlocker b x s).ident = s.ident ∧ (setBlocker b x s).ledger = s.ledger ∧ (setBlocker b x s).metro = s.metro ∧
    (setBlocker b x s).sideDev = s.sideDev ∧ (setBlocker b x s).integ = s.integ ∧ (setBlocker b x s).chans = s.chans ∧
    (setBlocker b x s).engines = s.engines ∧ (setBlocker b x s).cells = s.cells ∧ (setBlocker b x s).feeds = s.feeds ∧
    (setBlocker b x s).threads = s.threads ∧ (setBlocker b x s).blockers = tset {} s.blockers b x ∧
    (setBlocker b x s).wakes = s.wakes ∧ (setBlocker b x s).macs = s.macs ∧ (setBlocker b x s).fabric = s.fabric ∧
    (setBlocker b x s).disc = s.disc ∧ (setBlocker b x s).msixOpen = s.msixOpen ∧ (setBlocker b x s).msixHeld = s.msixHeld ∧
    (setBlocker b x s).ses = s.ses ∧ (setBlocker b x s).gly = s.gly ∧ (setBlocker b x s).bez = s.bez ∧
    (setBlocker b x s).pwr = s.pwr ∧ (setBlocker b x s).links = s.links :=
  ⟨rfl, rfl, rfl, rfl, rfl, rfl, rfl, rfl, rfl, rfl, rfl, rfl, rfl, rfl, rfl, rfl, rfl, rfl, rfl, rfl, rfl, rfl, rfl, rfl, rfl, rfl, rfl, rfl, rfl, rfl, rfl, rfl, rfl, rfl, rfl, rfl, rfl, rfl, rfl, rfl, rfl, rfl, rfl, rfl, rfl, rfl, rfl, rfl, rfl⟩

@[simp] theorem setFeed_fields (b f : Nat) (x : Feed) (s : State) :
    (setFeed b f x s).pending = s.pending ∧ (setFeed b f x s).fclk = s.fclk ∧ (setFeed b f x s).free = s.free ∧
    (setFeed b f x s).out = s.out ∧ (setFeed b f x s).regs = s.regs ∧ (setFeed b f x s).hits = s.hits ∧
    (setFeed b f x s).sets = s.sets ∧ (setFeed b f x s).mem = s.mem ∧ (setFeed b f x s).tags = s.tags ∧
    (setFeed b f x s).vbits = s.vbits ∧ (setFeed b f x s).raw = s.raw ∧ (setFeed b f x s).marks = s.marks ∧
    (setFeed b f x s).writes = s.writes ∧ (setFeed b f x s).modeNext = s.modeNext ∧ (setFeed b f x s).touched = s.touched ∧
    (setFeed b f x s).fills = s.fills ∧ (setFeed b f x s).heldWrites = s.heldWrites ∧ (setFeed b f x s).facets = s.facets ∧
    (setFeed b f x s).ints = s.ints ∧ (setFeed b f x s).intc = s.intc ∧ (setFeed b f x s).intWas = s.intWas ∧
    (setFeed b f x s).refusals = s.refusals ∧ (setFeed b f x s).tb = s.tb ∧ (setFeed b f x s).timWrites = s.timWrites ∧
    (setFeed b f x s).epochs = s.epochs ∧ (setFeed b f x s).locks = s.locks ∧ (setFeed b f x s).pulses = s.pulses ∧
    (setFeed b f x s).ident = s.ident ∧ (setFeed b f x s).ledger = s.ledger ∧ (setFeed b f x s).metro = s.metro ∧
    (setFeed b f x s).sideDev = s.sideDev ∧ (setFeed b f x s).integ = s.integ ∧ (setFeed b f x s).chans = s.chans ∧
    (setFeed b f x s).engines = s.engines ∧ (setFeed b f x s).cells = s.cells ∧
    (setFeed b f x s).feeds = tset {} s.feeds (4 * b + f) x ∧ (setFeed b f x s).threads = s.threads ∧
    (setFeed b f x s).blockers = s.blockers ∧ (setFeed b f x s).wakes = s.wakes ∧ (setFeed b f x s).macs = s.macs ∧
    (setFeed b f x s).fabric = s.fabric ∧ (setFeed b f x s).disc = s.disc ∧ (setFeed b f x s).msixOpen = s.msixOpen ∧
    (setFeed b f x s).msixHeld = s.msixHeld ∧ (setFeed b f x s).ses = s.ses ∧ (setFeed b f x s).gly = s.gly ∧
    (setFeed b f x s).bez = s.bez ∧ (setFeed b f x s).pwr = s.pwr ∧ (setFeed b f x s).links = s.links :=
  ⟨rfl, rfl, rfl, rfl, rfl, rfl, rfl, rfl, rfl, rfl, rfl, rfl, rfl, rfl, rfl, rfl, rfl, rfl, rfl, rfl, rfl, rfl, rfl, rfl, rfl, rfl, rfl, rfl, rfl, rfl, rfl, rfl, rfl, rfl, rfl, rfl, rfl, rfl, rfl, rfl, rfl, rfl, rfl, rfl, rfl, rfl, rfl, rfl, rfl⟩

@[simp] theorem setEpoch_fields (p e : Nat) (s : State) :
    (setEpoch p e s).pending = s.pending ∧ (setEpoch p e s).fclk = s.fclk ∧ (setEpoch p e s).free = s.free ∧
    (setEpoch p e s).out = s.out ∧ (setEpoch p e s).regs = s.regs ∧ (setEpoch p e s).hits = s.hits ∧ (setEpoch p e s).sets = s.sets ∧
    (setEpoch p e s).mem = s.mem ∧ (setEpoch p e s).tags = s.tags ∧ (setEpoch p e s).vbits = s.vbits ∧ (setEpoch p e s).raw = s.raw ∧
    (setEpoch p e s).marks = s.marks ∧ (setEpoch p e s).writes = s.writes ∧ (setEpoch p e s).modeNext = s.modeNext ∧
    (setEpoch p e s).touched = s.touched ∧ (setEpoch p e s).fills = s.fills ∧ (setEpoch p e s).heldWrites = s.heldWrites ∧
    (setEpoch p e s).facets = s.facets ∧ (setEpoch p e s).ints = s.ints ∧ (setEpoch p e s).intc = s.intc ∧
    (setEpoch p e s).intWas = s.intWas ∧ (setEpoch p e s).refusals = s.refusals ∧ (setEpoch p e s).tb = s.tb ∧
    (setEpoch p e s).timWrites = s.timWrites ∧ (setEpoch p e s).epochs = tset (epochReset p) s.epochs p (BitVec.ofNat 8 e) ∧
    (setEpoch p e s).locks = s.locks ∧ (setEpoch p e s).pulses = s.pulses ∧ (setEpoch p e s).ident = s.ident ∧
    (setEpoch p e s).ledger = s.ledger ∧ (setEpoch p e s).metro = s.metro ∧ (setEpoch p e s).sideDev = s.sideDev ∧
    (setEpoch p e s).integ = s.integ ∧ (setEpoch p e s).chans = s.chans ∧ (setEpoch p e s).engines = s.engines ∧
    (setEpoch p e s).cells = s.cells ∧ (setEpoch p e s).feeds = s.feeds ∧ (setEpoch p e s).threads = s.threads ∧
    (setEpoch p e s).blockers = s.blockers ∧ (setEpoch p e s).wakes = s.wakes ∧ (setEpoch p e s).macs = s.macs ∧
    (setEpoch p e s).fabric = s.fabric ∧ (setEpoch p e s).disc = s.disc ∧ (setEpoch p e s).msixOpen = s.msixOpen ∧
    (setEpoch p e s).msixHeld = s.msixHeld ∧ (setEpoch p e s).ses = s.ses ∧ (setEpoch p e s).gly = s.gly ∧
    (setEpoch p e s).bez = s.bez ∧ (setEpoch p e s).pwr = s.pwr ∧ (setEpoch p e s).links = s.links :=
  ⟨rfl, rfl, rfl, rfl, rfl, rfl, rfl, rfl, rfl, rfl, rfl, rfl, rfl, rfl, rfl, rfl, rfl, rfl, rfl, rfl, rfl, rfl, rfl, rfl, rfl, rfl, rfl, rfl, rfl, rfl, rfl, rfl, rfl, rfl, rfl, rfl, rfl, rfl, rfl, rfl, rfl, rfl, rfl, rfl, rfl, rfl, rfl, rfl, rfl⟩

@[simp] theorem setMac_fields (m : Nat) (x : Mac) (s : State) :
    (setMac m x s).pending = s.pending ∧ (setMac m x s).fclk = s.fclk ∧ (setMac m x s).free = s.free ∧ (setMac m x s).out = s.out ∧
    (setMac m x s).regs = s.regs ∧ (setMac m x s).hits = s.hits ∧ (setMac m x s).sets = s.sets ∧ (setMac m x s).mem = s.mem ∧
    (setMac m x s).tags = s.tags ∧ (setMac m x s).vbits = s.vbits ∧ (setMac m x s).raw = s.raw ∧ (setMac m x s).marks = s.marks ∧
    (setMac m x s).writes = s.writes ∧ (setMac m x s).modeNext = s.modeNext ∧ (setMac m x s).touched = s.touched ∧
    (setMac m x s).fills = s.fills ∧ (setMac m x s).heldWrites = s.heldWrites ∧ (setMac m x s).facets = s.facets ∧
    (setMac m x s).ints = s.ints ∧ (setMac m x s).intc = s.intc ∧ (setMac m x s).intWas = s.intWas ∧
    (setMac m x s).refusals = s.refusals ∧ (setMac m x s).tb = s.tb ∧ (setMac m x s).timWrites = s.timWrites ∧
    (setMac m x s).epochs = s.epochs ∧ (setMac m x s).locks = s.locks ∧ (setMac m x s).pulses = s.pulses ∧
    (setMac m x s).ident = s.ident ∧ (setMac m x s).ledger = s.ledger ∧ (setMac m x s).metro = s.metro ∧
    (setMac m x s).sideDev = s.sideDev ∧ (setMac m x s).integ = s.integ ∧ (setMac m x s).chans = s.chans ∧
    (setMac m x s).engines = s.engines ∧ (setMac m x s).cells = s.cells ∧ (setMac m x s).feeds = s.feeds ∧
    (setMac m x s).threads = s.threads ∧ (setMac m x s).blockers = s.blockers ∧ (setMac m x s).wakes = s.wakes ∧
    (setMac m x s).macs = tset {} s.macs m x ∧ (setMac m x s).fabric = s.fabric ∧ (setMac m x s).disc = s.disc ∧
    (setMac m x s).msixOpen = s.msixOpen ∧ (setMac m x s).msixHeld = s.msixHeld ∧ (setMac m x s).ses = s.ses ∧
    (setMac m x s).gly = s.gly ∧ (setMac m x s).bez = s.bez ∧ (setMac m x s).pwr = s.pwr ∧ (setMac m x s).links = s.links :=
  ⟨rfl, rfl, rfl, rfl, rfl, rfl, rfl, rfl, rfl, rfl, rfl, rfl, rfl, rfl, rfl, rfl, rfl, rfl, rfl, rfl, rfl, rfl, rfl, rfl, rfl, rfl, rfl, rfl, rfl, rfl, rfl, rfl, rfl, rfl, rfl, rfl, rfl, rfl, rfl, rfl, rfl, rfl, rfl, rfl, rfl, rfl, rfl, rfl, rfl⟩

@[simp] theorem setQpair_fields (q : Nat) (x : QPair) (s : State) :
    (setQpair q x s).pending = s.pending ∧ (setQpair q x s).fclk = s.fclk ∧ (setQpair q x s).free = s.free ∧
    (setQpair q x s).out = s.out ∧ (setQpair q x s).regs = s.regs ∧ (setQpair q x s).hits = s.hits ∧ (setQpair q x s).sets = s.sets ∧
    (setQpair q x s).mem = s.mem ∧ (setQpair q x s).tags = s.tags ∧ (setQpair q x s).vbits = s.vbits ∧ (setQpair q x s).raw = s.raw ∧
    (setQpair q x s).marks = s.marks ∧ (setQpair q x s).writes = s.writes ∧ (setQpair q x s).modeNext = s.modeNext ∧
    (setQpair q x s).touched = s.touched ∧ (setQpair q x s).fills = s.fills ∧ (setQpair q x s).heldWrites = s.heldWrites ∧
    (setQpair q x s).facets = s.facets ∧ (setQpair q x s).ints = s.ints ∧ (setQpair q x s).intc = s.intc ∧
    (setQpair q x s).intWas = s.intWas ∧ (setQpair q x s).refusals = s.refusals ∧ (setQpair q x s).tb = s.tb ∧
    (setQpair q x s).timWrites = s.timWrites ∧ (setQpair q x s).epochs = s.epochs ∧ (setQpair q x s).locks = s.locks ∧
    (setQpair q x s).pulses = s.pulses ∧ (setQpair q x s).ident = s.ident ∧ (setQpair q x s).ledger = s.ledger ∧
    (setQpair q x s).metro = s.metro ∧ (setQpair q x s).sideDev = s.sideDev ∧ (setQpair q x s).integ = s.integ ∧
    (setQpair q x s).chans = s.chans ∧ (setQpair q x s).engines = s.engines ∧ (setQpair q x s).cells = s.cells ∧
    (setQpair q x s).feeds = s.feeds ∧ (setQpair q x s).threads = s.threads ∧ (setQpair q x s).blockers = s.blockers ∧
    (setQpair q x s).wakes = s.wakes ∧ (setQpair q x s).macs = s.macs ∧ (setQpair q x s).fabric = s.fabric ∧
    (setQpair q x s).disc = s.disc ∧ (setQpair q x s).msixOpen = s.msixOpen ∧ (setQpair q x s).msixHeld = s.msixHeld ∧
    (setQpair q x s).ses = s.ses ∧ (setQpair q x s).gly = { s.gly with qps := tset {} s.gly.qps q x } ∧ (setQpair q x s).bez = s.bez ∧
    (setQpair q x s).pwr = s.pwr ∧ (setQpair q x s).links = s.links :=
  ⟨rfl, rfl, rfl, rfl, rfl, rfl, rfl, rfl, rfl, rfl, rfl, rfl, rfl, rfl, rfl, rfl, rfl, rfl, rfl, rfl, rfl, rfl, rfl, rfl, rfl, rfl, rfl, rfl, rfl, rfl, rfl, rfl, rfl, rfl, rfl, rfl, rfl, rfl, rfl, rfl, rfl, rfl, rfl, rfl, rfl, rfl, rfl, rfl, rfl⟩

@[simp] theorem setCmd_fields (c : Cmd) (s : State) :
    (setCmd c s).pending = s.pending ∧ (setCmd c s).fclk = s.fclk ∧ (setCmd c s).free = s.free ∧ (setCmd c s).out = s.out ∧
    (setCmd c s).regs = s.regs ∧ (setCmd c s).hits = s.hits ∧ (setCmd c s).sets = s.sets ∧ (setCmd c s).mem = s.mem ∧
    (setCmd c s).tags = s.tags ∧ (setCmd c s).vbits = s.vbits ∧ (setCmd c s).raw = s.raw ∧ (setCmd c s).marks = s.marks ∧
    (setCmd c s).writes = s.writes ∧ (setCmd c s).modeNext = s.modeNext ∧ (setCmd c s).touched = s.touched ∧
    (setCmd c s).fills = s.fills ∧ (setCmd c s).heldWrites = s.heldWrites ∧ (setCmd c s).facets = s.facets ∧
    (setCmd c s).ints = s.ints ∧ (setCmd c s).intc = s.intc ∧ (setCmd c s).intWas = s.intWas ∧ (setCmd c s).refusals = s.refusals ∧
    (setCmd c s).tb = s.tb ∧ (setCmd c s).timWrites = s.timWrites ∧ (setCmd c s).epochs = s.epochs ∧ (setCmd c s).locks = s.locks ∧
    (setCmd c s).pulses = s.pulses ∧ (setCmd c s).ident = s.ident ∧ (setCmd c s).ledger = s.ledger ∧ (setCmd c s).metro = s.metro ∧
    (setCmd c s).sideDev = s.sideDev ∧ (setCmd c s).integ = s.integ ∧ (setCmd c s).chans = s.chans ∧
    (setCmd c s).engines = s.engines ∧ (setCmd c s).cells = s.cells ∧ (setCmd c s).feeds = s.feeds ∧
    (setCmd c s).threads = s.threads ∧ (setCmd c s).blockers = s.blockers ∧ (setCmd c s).wakes = s.wakes ∧
    (setCmd c s).macs = s.macs ∧ (setCmd c s).fabric = s.fabric ∧ (setCmd c s).disc = s.disc ∧ (setCmd c s).msixOpen = s.msixOpen ∧
    (setCmd c s).msixHeld = s.msixHeld ∧ (setCmd c s).ses = s.ses ∧
    (setCmd c s).gly = { s.gly with cmds := s.gly.cmds.map fun d => if d.id = c.id then c else d } ∧ (setCmd c s).bez = s.bez ∧
    (setCmd c s).pwr = s.pwr ∧ (setCmd c s).links = s.links :=
  ⟨rfl, rfl, rfl, rfl, rfl, rfl, rfl, rfl, rfl, rfl, rfl, rfl, rfl, rfl, rfl, rfl, rfl, rfl, rfl, rfl, rfl, rfl, rfl, rfl, rfl, rfl, rfl, rfl, rfl, rfl, rfl, rfl, rfl, rfl, rfl, rfl, rfl, rfl, rfl, rfl, rfl, rfl, rfl, rfl, rfl, rfl, rfl, rfl, rfl⟩

end Sys2Proof.Laws
end

