-- ==== Sys2Proof/Laws/Table.lean ====
section
/-! SUPPORT. The laws of sparse tables: reads after writes, and the canonical form that every table operation keeps. -/
namespace Sys2Proof.Laws
open Sys2Proof.Machine

variable {α : Type}

theorem tget_tput_self (d : α) (t : List (Nat × α)) (i : Nat) (v : α) : tget d (tput t i v) i = v := by
  induction t with
  | nil => simp [tput, tget]
  | cons p t ih =>
    obtain ⟨k, w⟩ := p
    unfold tput
    split
    · simp [tget]
    · split
      · simp [tget]
      · simp [tget, *]

theorem tget_tput_ne (d : α) (t : List (Nat × α)) {i j : Nat} (v : α) (h : j ≠ i) : tget d (tput t i v) j = tget d t j := by
  induction t with
  | nil => simp [tput, tget, h.symm]
  | cons p t ih =>
    obtain ⟨k, w⟩ := p
    unfold tput
    split
    · simp [tget, h.symm]
    · split
      · subst_vars; simp [tget, h.symm]
      · simp [tget, ih]

theorem tget_tdel_self (d : α) (t : List (Nat × α)) (i : Nat) : tget d (tdel t i) i = d := by
  induction t with
  | nil => simp [tdel, tget]
  | cons p t ih =>
    by_cases h : p.1 = i
    · simpa [tdel, List.filter_cons, h] using ih
    · simpa [tdel, List.filter_cons, h, tget] using ih

theorem tget_tdel_ne (d : α) (t : List (Nat × α)) {i j : Nat} (h : j ≠ i) : tget d (tdel t i) j = tget d t j := by
  induction t with
  | nil => simp [tdel, tget]
  | cons p t ih =>
    by_cases hk : p.1 = i
    · have hj : ¬ p.1 = j := fun e => h (e.symm.trans hk)
      simpa [tdel, List.filter_cons, hk, tget, h.symm, hj] using ih
    · by_cases hj : p.1 = j
      · simp [tdel, tget, hj, h]
      · simpa [tdel, List.filter_cons, hk, tget, hj] using ih

variable [DecidableEq α]

/-- A read of the index just written. -/
@[simp] theorem tget_tset_self (d : α) (t : List (Nat × α)) (i : Nat) (v : α) : tget d (tset d t i v) i = v := by
  unfold tset
  split
  · rename_i h; rw [tget_tdel_self, h]
  · exact tget_tput_self d t i v

/-- A read of another index. -/
theorem tget_tset_ne (d : α) (t : List (Nat × α)) {i j : Nat} (v : α) (h : j ≠ i) : tget d (tset d t i v) j = tget d t j := by
  unfold tset
  split
  · exact tget_tdel_ne d t h
  · exact tget_tput_ne d t v h

theorem tget_tset (d : α) (t : List (Nat × α)) (i j : Nat) (v : α) :
    tget d (tset d t i v) j = if j = i then v else tget d t j := by
  by_cases h : j = i
  · subst h; simp
  · simp [h, tget_tset_ne]

/-! ### The canonical form -/

theorem twf_iff (d : α) (t : List (Nat × α)) :
    twf d t = true ↔ (t.map (·.1)).Pairwise (· < ·) ∧ ∀ p ∈ t, p.2 ≠ d := by
  induction t with
  | nil => simp [twf]
  | cons p t ih =>
    obtain ⟨k, v⟩ := p
    cases t with
    | nil => simp [twf]
    | cons q t =>
      obtain ⟨k', v'⟩ := q
      simp only [twf, Bool.and_eq_true, decide_eq_true_eq, ih, List.map_cons, List.pairwise_cons, List.mem_cons,
        forall_eq_or_imp, List.mem_map]
      constructor
      · rintro ⟨⟨hv, hk⟩, ⟨h1, h2⟩, h3, h4⟩
        exact ⟨⟨⟨hk, fun a ha => lt_trans hk (h1 a ha)⟩, h1, h2⟩, hv, h3, h4⟩
      · rintro ⟨⟨⟨hk, -⟩, h1, h2⟩, hv, h3, h4⟩
        exact ⟨⟨hv, hk⟩, ⟨h1, h2⟩, h3, h4⟩

theorem twf_filter (d : α) (t : List (Nat × α)) (p : Nat × α → Bool) (h : twf d t = true) : twf d (t.filter p) = true := by
  rw [twf_iff] at *
  refine ⟨?_, fun x hx => h.2 x (List.mem_of_mem_filter hx)⟩
  exact List.Pairwise.sublist (List.Sublist.map _ (List.filter_sublist)) h.1

omit [DecidableEq α] in
theorem mem_tput {t : List (Nat × α)} {i : Nat} {v : α} {x : Nat × α} (h : x ∈ tput t i v) : x = (i, v) ∨ x ∈ t := by
  induction t with
  | nil => simpa [tput] using h
  | cons p t ih =>
    obtain ⟨k, w⟩ := p
    unfold tput at h
    split at h
    · simpa using h
    · split at h
      · rcases List.mem_cons.1 h with h | h
        · exact .inl h
        · exact .inr (List.mem_cons_of_mem _ h)
      · rcases List.mem_cons.1 h with h | h
        · exact .inr (by simp [h])
        · rcases ih h with h | h
          · exact .inl h
          · exact .inr (List.mem_cons_of_mem _ h)

omit [DecidableEq α] in
theorem pairwise_tput {t : List (Nat × α)} (i : Nat) (v : α) (h : (t.map (·.1)).Pairwise (· < ·)) :
    ((tput t i v).map (·.1)).Pairwise (· < ·) := by
  induction t with
  | nil => simp [tput]
  | cons p t ih =>
    obtain ⟨k, w⟩ := p
    rw [List.map_cons, List.pairwise_cons] at h
    unfold tput
    split
    · rename_i hi
      simp only [List.map_cons, List.pairwise_cons, List.mem_cons, forall_eq_or_imp]
      exact ⟨⟨hi, fun a ha => lt_trans hi (h.1 a ha)⟩, h⟩
    · rename_i hi
      split
      · rename_i hk
        subst hk
        simpa [List.pairwise_cons] using h
      · rename_i hk
        rw [List.map_cons, List.pairwise_cons]
        refine ⟨?_, ih h.2⟩
        intro a ha
        obtain ⟨x, hx, rfl⟩ := List.mem_map.1 ha
        rcases mem_tput hx with hx | hx
        · subst hx; simp only at *; omega
        · exact h.1 _ (List.mem_map_of_mem hx)

theorem twf_tset (d : α) (t : List (Nat × α)) (i : Nat) (v : α) (h : twf d t = true) : twf d (tset d t i v) = true := by
  unfold tset
  split
  · exact twf_filter d t _ h
  · rename_i hv
    rw [twf_iff] at *
    refine ⟨pairwise_tput i v h.1, fun x hx => ?_⟩
    rcases mem_tput hx with hx | hx
    · subst hx; exact hv
    · exact h.2 x hx

/-- Every write to a register keeps the register keys strictly rising, whatever the reset value of the register is. -/
theorem pairwise_tset (d : α) {t : List (Nat × α)} (i : Nat) (v : α) (h : (t.map (·.1)).Pairwise (· < ·)) :
    ((tset d t i v).map (·.1)).Pairwise (· < ·) := by
  unfold tset
  split
  · exact List.Pairwise.sublist (List.Sublist.map _ List.filter_sublist) h
  · exact pairwise_tput i v h

/-! ### Memory -/

theorem wf_mput {m : List Host.Cell} (a : Nat) (b : Byte) (h : Memory.wf m = true) : Memory.wf (mput m a b) = true :=
  twf_tset 0 m a b h

theorem wf_mputs (bs : List Byte) : ∀ {m : List Host.Cell} (a : Nat), Memory.wf m = true → Memory.wf (mputs m a bs) = true := by
  induction bs with
  | nil => intro m a h; exact h
  | cons b t ih => intro m a h; exact ih (a + 1) (wf_mput a b h)

theorem wf_filter {m : List Host.Cell} (p : Host.Cell → Bool) (h : Memory.wf m = true) : Memory.wf (m.filter p) = true :=
  twf_filter 0 m p h

theorem wf_tclear {m : List Host.Cell} (lo hi : Nat) (h : Memory.wf m = true) : Memory.wf (tclear m lo hi) = true :=
  wf_filter _ h

theorem wf_copyBytes {m : List Host.Cell} (fr dst len : Nat) (h : Memory.wf m = true) :
    Memory.wf (copyBytes fr dst len m) = true := by
  unfold copyBytes
  generalize m.filter _ = l
  have h' := wf_tclear dst (dst + len) h
  revert h'
  generalize tclear m dst (dst + len) = m'
  induction l generalizing m' with
  | nil => exact id
  | cons c l ih => intro h'; exact ih _ (wf_mput _ _ h')

/-- A read of memory after a run of bytes is written: the byte written inside the run, the old byte elsewhere. -/
theorem mget_mputs (bs : List Byte) : ∀ (m : List Host.Cell) (a x : Nat),
    mget (mputs m a bs) x = if a ≤ x ∧ x < a + bs.length then bs.getD (x - a) 0 else mget m x := by
  induction bs with
  | nil => intro m a x; simp [mputs]
  | cons b t ih =>
    intro m a x
    rw [mputs, ih]
    simp only [mput, mget, tget_tset, List.length_cons]
    by_cases hx : x = a
    · subst hx; simp
    · by_cases h1 : a + 1 ≤ x ∧ x < a + 1 + t.length
      · rw [if_pos h1, if_pos (by omega)]
        have : x - a = (x - (a + 1)) + 1 := by omega
        rw [this]; simp
      · rw [if_neg h1, if_neg hx, if_neg (by omega)]

end Sys2Proof.Laws
end

