-- ==== Sys2Proof/Laws/Facets.lean ====
section
/-! SUPPORT. The laws of facets: reads of a facet after a write of one, what events elsewhere leave alone, a bundle of one operation that issues. -/
namespace Sys2Proof.Laws
open Sys2Proof Sys2Proof.Machine

@[simp] theorem facet_setFacet_same (n : Nat) (f s) : facet (setFacet n f s) n = f := by simp [facet, setFacet]
theorem facet_setFacet_ne {n m : Nat} (h : m ≠ n) (f s) : facet (setFacet n f s) m = facet s m := by
  simp [facet, setFacet, tget_tset_ne _ _ _ h]
@[simp] theorem facet_updFacet_same (n : Nat) (h s) : facet (updFacet n h s) n = h (facet s n) := by simp [updFacet]
theorem facet_updFacet_ne {n m : Nat} (hn : m ≠ n) (h s) : facet (updFacet n h s) m = facet s m := facet_setFacet_ne hn _ _

/-- A facet is read from the facets alone. -/
theorem facet_congr {s t : State} (h : s.facets = t.facets) (n : Nat) : facet s n = facet t n := by simp [facet, h]

theorem acceptEvents_facets (a b c s) : (acceptEvents a b c s).facets = s.facets := by
  unfold acceptEvents intStatSet; dsimp only; simp only [setIntSrc]; split <;> rfl
theorem pulseEvent_facets (c i s) : (pulseEvent c i s).facets = s.facets := by
  unfold pulseEvent; dsimp only; repeat' split
  all_goals simp [acceptEvents_facets, fdrop, setIntCtl]
theorem raiseSteward_facets (c s) : (raiseSteward c s).facets = s.facets := pulseEvent_facets _ _ _
theorem raiseGirdle_facets (c s) : (raiseGirdle c s).facets = s.facets := by simp [raiseGirdle, raiseSteward_facets, rbitSet, rset]
theorem itgEvt_facets (u i c s) : (itgEvt u i c s).facets = s.facets := by
  unfold itgEvt; dsimp only; repeat' split
  all_goals simp [raiseSteward_facets, raiseGirdle_facets, rbitSet, rset]
theorem logDropped_facets (u n s) : (logDropped u n s).facets = s.facets := by simp [logDropped, itgEvt_facets, rsat, rput, rset]
theorem logThresh_facets (u e n s) : (logThresh u e n s).facets = s.facets := by
  unfold logThresh; dsimp only; split <;> simp [itgEvt_facets]
theorem rset_facets (a v s) : (rset a v s).facets = s.facets := rfl
theorem rput_facets (a l w v s) : (rput a l w v s).facets = s.facets := rfl
theorem rsat_facets (a l w v s) : (rsat a l w v s).facets = s.facets := rfl
theorem rbitSet_facets (a i b s) : (rbitSet a i b s).facets = s.facets := rfl
theorem noteHit_facets (a i b s) : (noteHit a i b s).facets = s.facets := rfl
theorem logOne_facets (u s ev) : (logOne u s ev).facets = s.facets := by
  have hi : ∀ (c : Prop) [Decidable c] (a b : State) (x : List (Nat × Facet)), a.facets = x → b.facets = x → (if c then a else b).facets = x := by
    intro c _ a b x ha hb; split <;> assumption
  fun_cases logOne u s ev <;>
  repeat' first | intro _ | (with_reducible first | rfl | assumption | refine (itgEvt_facets ..).trans ?_ | refine (logDropped_facets ..).trans ?_ | refine (logThresh_facets ..).trans ?_ | refine (noteHit_facets ..).trans ?_ | refine (rbitSet_facets ..).trans ?_ | refine (rput_facets ..).trans ?_ | refine (rsat_facets ..).trans ?_ | refine (rset_facets ..).trans ?_ | refine hi _ _ _ _ ?_ ?_)
theorem logEvents_facets (u es s) : (logEvents u es s).facets = s.facets := by
  have h1 : ∀ (l : List LogEvent) s, (l.foldl (logOne u) s).facets = s.facets := by
    intro l; induction l with
    | nil => intro s; rfl
    | cons x t ih => intro s; rw [List.foldl_cons, ih, logOne_facets]
  have h2 : ∀ (l : List LogEvent) s, (l.foldl (fun s ev => logDropped u (evSource ev) s) s).facets = s.facets := by
    intro l; induction l with
    | nil => intro s; rfl
    | cons x t ih => intro s; rw [List.foldl_cons, ih, logDropped_facets]
  unfold logEvents; dsimp only; rw [h2, h1]
theorem noteReads_facets (p ws s) : (noteReads p ws s).facets = s.facets := by
  unfold noteReads
  induction ws generalizing s with
  | nil => rfl
  | cons x t ih =>
    rw [List.foldl_cons, ih]
    split
    · split
      · rfl
      · dsimp only; rw [logEvents_facets]
    · rfl
@[simp] theorem facet_noteReads (p ws s n) : facet (noteReads p ws s) n = facet s n := facet_congr (noteReads_facets p ws s) n

/-! ### A bundle of one operation -/

/-- What is left to do for a bundle of one operation once it has acted: `f0` is the facet as it issued. -/
def afterAct (n : Fin 128) (o : Op) (f0 : Facet) (x : State) : State :=
  if o.kind = .retx then doRetx n x
  else if (facet x n).wait ≠ .none then updFacet n (fun f => { f with bundle := [o] }) x
  else retire n f0 [o] x

/-- The state in which a bundle of one operation acts: `lands` are the results that landed before it, in FCLK `now`. -/
def beforeAct (n : Fin 128) (o : Op) (lands : List Land) (now : Nat) (u : State) : State :=
  let m := if isLong o.kind then 0 else maxBank (bundleReads (facet u n) [o]) (landWords lands ++ (facet u n).landed)
  updFacet n (fun f => { f with landed := [], replay := f.replay + BitVec.ofNat 64 (m - 1), ready := now + max 1 m })
    (noteReads 0 (bundleReads (facet u n) [o]) u)

/-- A facet that stands at a boundary presents at once. -/
theorem presentOp_now {n : Nat} {o : Op} {s : State} (hcan : canIssue s n = true) : presentOp n o s = presentNow n (codeless o) s := by
  have h : (facet s n).ready ≤ s.fclk := by
    unfold canIssue at hcan
    simp only [Bool.and_eq_true, decide_eq_true_eq] at hcan
    exact hcan.1.1.2
  unfold presentOp advanceTo
  rw [Nat.sub_eq_zero_of_le h]
  rfl

/-- An operation that is a whole bundle, passes every check and is not suppressed: it acts, and the bundle retires or waits. -/
theorem presentNow_alone {n : Fin 128} {o : Op} {s : State} (hl : o.kind ≠ .lit)
    (hcan : canIssue s n = true) (hstop : o.w.stop = true) (hfirst : (facet s n).bundle = [])
    (hread : (issueReads s n [o]).any (wordBad s) = false)
    (hpass : bundleCause (landDue n s) n (dueLands (facet s n)) [o] = none) (hguard : suppressed (facet (landDue n s) n) o = false) :
    presentNow n o s = .next (afterAct n o (facet (landDue n s) n)
      (doOp (landDue n s) n (facet (landDue n s) n) [] 1 (beforeAct n o (dueLands (facet s n)) s.fclk (landDue n s)) o)) := by
  have hc : opClass o.kind < 5 := by
    revert hl; cases o.kind <;> decide
  have hs : slotOrder [o] = [o] := by
    unfold slotOrder
    have : opClass o.kind = 0 ∨ opClass o.kind = 1 ∨ opClass o.kind = 2 ∨ opClass o.kind = 3 ∨ opClass o.kind = 4 := by omega
    rcases this with h | h | h | h | h <;> simp [List.range, List.range.loop, h]
  have hlits : bundleLits [o] = [] := by simp [bundleLits, hl]
  unfold presentNow
  rw [if_neg (by simp [hcan])]
  simp only [hfirst, List.nil_append, hstop, Bool.true_or, if_true]
  have hw : (!(issueReads s n [o]).any (wordBad s)) = true := by simp [hread]
  rw [hw]
  simp only [gate, if_true]
  congr 1
  unfold issueBundle
  simp only [hpass]
  rw [hs, hlits]
  have hr : runsLong (facet (landDue n s) n) [o] = isLong o.kind := by simp [runsLong, hguard]
  simp only [List.foldl_cons, List.foldl_nil, List.length_singleton, List.any_cons, List.any_nil, Bool.or_false, hguard, Bool.not_false,
    Bool.and_true, decide_eq_true_eq, hr]
  rfl

/-- Where a facet goes on after a bundle (R46, R155): the repeated bundle again, the target after the last delay bundle, or the next index. -/
def nextIndex (f : Facet) (len : Nat) : BitVec 15 :=
  if f.repeating && decide (1 < fld f.repc 32 17) then f.pc
  else if fsDS f.fs = 1 then BitVec.ofNat 15 (fld (tget 0 f.pbt (fsLVL f.fs)) 3 15)
  else f.pc + BitVec.ofNat 15 len

/-- Everything that retiring a bundle changes in its facet: `f0` is the facet as the bundle issued. -/
structure Retired (n : Nat) (f0 : Facet) (b : List Op) (x t : State) : Prop where
  others : ∀ m, m ≠ n → facet t m = facet x m
  rest : { t with facets := [], free := 0 } = { x with facets := [], free := 0 }
  same : ∃ pc fs rf lo lw la le li re bu co rc rp, facet t n = { facet x n with
    pc := pc, fs := fs, repFirst := rf, loopOld := lo, lpWas := lw, loopAct := la, lastEnd := le, lastIdx := li, ready := re, bundles := bu,
    collapse := co, repc := rc, repeating := rp, bundle := [] }
  bundles : (facet t n).bundles = (facet x n).bundles + 1
  fs : (facet t n).fs = if f0.repeating && decide (1 < fld f0.repc 32 17) then (facet x n).fs
    else if fsDS f0.fs = 0 then (facet x n).fs else setFld (facet x n).fs 4 2 (fsDS f0.fs - 1)
  repc : f0.repeating = false → (facet t n).repc = (facet x n).repc ∧ (facet t n).repeating = (facet x n).repeating
  pc : (facet x n).pc = f0.pc → (facet x n).pbt = f0.pbt → (facet t n).pc = nextIndex f0 b.length
  plain : f0.repeating = false → fsDS f0.fs = 0 → (facet t n).pc = f0.pc + BitVec.ofNat 15 b.length

theorem retired (n : Nat) (f0 : Facet) (b : List Op) (x : State) : Retired n f0 b x (retire n f0 b x) := by
  unfold retire
  dsimp only
  generalize hy : (if fsDS f0.fs ≠ 0 then (drawFree x).2 else x) = y
  have hyb : { y with facets := [], free := 0 } = { x with facets := [], free := 0 } := by rw [← hy]; split <;> rfl
  have hyf : ∀ m, facet y m = facet x m := by intro m; rw [← hy]; split <;> rfl
  have hset : ∀ f, { setFacet n f y with facets := [], free := 0 } = { x with facets := [], free := 0 } := fun f => hyb
  have hoth : ∀ f m, m ≠ n → facet (setFacet n f y) m = facet x m := fun f m hm => (facet_setFacet_ne hm f y).trans (hyf m)
  generalize collapses x n f0 b = col
  cases hr : f0.repeating with
  | false =>
    simp only [Bool.false_and, Bool.false_eq_true, if_false]
    split
    · rename_i h0
      refine ⟨hoth _, hset _, ?_, ?_, ?_, ?_, ?_, ?_⟩ <;> simp only [facet_setFacet_same, hyf, hr, Bool.false_and, Bool.false_eq_true, if_false, nextIndex, ageLoops]
      · exact ⟨_, _, _, _, _, _, _, _, _, _, _, _, _, rfl⟩
      · rw [if_neg h0]
      · exact fun _ => ⟨trivial, trivial⟩
      · intro hp hb; rw [hb]
      · intro _ hz; exact absurd hz h0
    · rename_i h0
      generalize (List.range 4).any (loopEndsAt _ f0.pc) = z
      cases z
      all_goals
        refine ⟨hoth _, hset _, ?_, ?_, ?_, ?_, ?_, ?_⟩ <;> simp only [facet_setFacet_same, hyf, hr, Bool.false_and, Bool.false_eq_true, if_false, if_true, nextIndex, ageLoops]
        · exact ⟨_, _, _, _, _, _, _, _, _, _, _, _, _, rfl⟩
        · simp only [ne_eq, not_not] at h0; rw [if_pos h0]
        · exact fun _ => ⟨trivial, trivial⟩
        · intro _ _; simp only [ne_eq, not_not] at h0; rw [if_neg (by omega)]
        · exact fun _ _ => trivial
  | true =>
    simp only [Bool.true_and]
    split
    · rename_i h1
      refine ⟨hoth _, hset _, ?_, ?_, ?_, ?_, ?_, ?_⟩ <;> simp only [facet_setFacet_same, hyf, hr, Bool.true_and, h1, if_true, nextIndex, ageLoops]
      · exact ⟨_, _, _, _, _, _, _, _, _, _, _, _, _, rfl⟩
      · exact fun h => absurd h (by simp)
      · exact fun h _ => h
      · exact fun h => absurd h (by simp)
    · rename_i h1
      split
      · rename_i h0
        refine ⟨hoth _, hset _, ?_, ?_, ?_, ?_, ?_, ?_⟩ <;> simp only [facet_setFacet_same, hyf, hr, Bool.true_and, h1, Bool.false_eq_true, if_false, if_true, nextIndex, ageLoops]
        · exact ⟨_, _, _, _, _, _, _, _, _, _, _, _, _, rfl⟩
        · rw [if_neg h0]
        · exact fun h => absurd h (by simp)
        · intro hp hb; rw [hb]
        · exact fun h => absurd h (by simp)
      · rename_i h0
        generalize (List.range 4).any (loopEndsAt _ f0.pc) = z
        cases z
        all_goals
          refine ⟨hoth _, hset _, ?_, ?_, ?_, ?_, ?_, ?_⟩ <;> simp only [facet_setFacet_same, hyf, hr, Bool.true_and, h1, Bool.false_eq_true, if_false, if_true, nextIndex, ageLoops]
          · exact ⟨_, _, _, _, _, _, _, _, _, _, _, _, _, rfl⟩
          · simp only [ne_eq, not_not] at h0; rw [if_pos h0]
          · exact fun h => absurd h (by simp)
          · intro _ _; simp only [ne_eq, not_not] at h0; rw [if_neg (by omega)]
          · exact fun h => absurd h (by simp)

end Sys2Proof.Laws
end

