-- ==== Sys2Proof/Laws/MemBase.lean ====
section
/-! SUPPORT. What the lemmas on the canonical form of memory rest on: a lemma `f_mem` says that an operation leaves memory
as it is, a lemma `wf_f` that it keeps the canonical form. -/

namespace Sys2Proof.Laws
open Sys2Proof.Machine

/-- The memory of a state, under a name of its own, so that a proof compares states and not what they compute to. -/
def memOf (s : State) : List Host.Cell := s.mem
theorem memOf_eq (s : State) : memOf s = s.mem := rfl
theorem mem_def {s : State} : s.mem = memOf s := rfl

theorem ite_mem (c : Prop) [Decidable c] (a b : State) : memOf (if c then a else b) = if c then memOf a else memOf b := by split <;> rfl
theorem ite_snd {α β : Type} (c : Prop) [Decidable c] (a b : α × β) : (if c then a else b).2 = if c then a.2 else b.2 := by split <;> rfl
theorem foldl_mem {β : Type} (g : State → β → State) (h : ∀ s x, memOf (g s x) = memOf s) (l : List β) (s : State) :
    memOf (l.foldl g s) = memOf s := by
  induction l generalizing s with
  | nil => rfl
  | cons x t ih => rw [List.foldl_cons, ih, h]
theorem foldr_mem {β : Type} (g : β → State → State) (h : ∀ x s, memOf (g x s) = memOf s) (l : List β) (s : State) :
    memOf (l.foldr g s) = memOf s := by
  induction l with
  | nil => rfl
  | cons x t ih => rw [List.foldr_cons, h, ih]
theorem wf_foldl {β : Type} (g : State → β → State) (h : ∀ s x, Memory.wf (memOf s) = true → Memory.wf (memOf (g s x)) = true) (l : List β)
    (s : State) (hs : Memory.wf (memOf s) = true) : Memory.wf (memOf (l.foldl g s)) = true := by
  induction l generalizing s with
  | nil => exact hs
  | cons x t ih => exact ih _ (h _ _ hs)
theorem ite_eq_mem {c : Prop} [Decidable c] {a b : State} {m : List Host.Cell} (ha : memOf a = m) (hb : memOf b = m) :
    memOf (if c then a else b) = m := by split <;> assumption
theorem ite_snd_mem {β : Type} {c : Prop} [Decidable c] {a b : β × State} {m : List Host.Cell} (ha : memOf a.2 = m) (hb : memOf b.2 = m) :
    memOf (if c then a else b).2 = m := by split <;> assumption
theorem wf_ite {c : Prop} [Decidable c] {a b : State} (ha : Memory.wf (memOf a) = true) (hb : Memory.wf (memOf b) = true) :
    Memory.wf (memOf (if c then a else b)) = true := by split <;> assumption
theorem wf_ite_snd {β : Type} {c : Prop} [Decidable c] {a b : β × State} (ha : Memory.wf (memOf a.2) = true) (hb : Memory.wf (memOf b.2) = true) :
    Memory.wf (memOf (if c then a else b).2) = true := by split <;> assumption
theorem mem_of_ite {c : Prop} [Decidable c] {a b : State} {m : List Host.Cell} (ha : memOf a = m) (hb : memOf b = m) :
    memOf (if c then a else b) = m := by split <;> assumption
theorem ite_eq_same {c : Prop} [Decidable c] {a b : State} {m : List Host.Cell} (hb : memOf b = m) (ha : memOf b = m → memOf a = m) :
    memOf (if c then a else b) = m := by split; exacts [ha hb, hb]
theorem wf_ite_same {c : Prop} [Decidable c] {a b : State} (hb : Memory.wf (memOf b) = true)
    (ha : Memory.wf (memOf b) = true → Memory.wf (memOf a) = true) : Memory.wf (memOf (if c then a else b)) = true := by
  split; exacts [ha hb, hb]
theorem wf_mem_def {s : State} (h : Memory.wf (memOf s) = true) : Memory.wf s.mem = true := h
theorem wf_of_eq {a b : List Host.Cell} (h : a = b) (hb : Memory.wf b = true) : Memory.wf a = true := h ▸ hb
theorem pair_mem {β : Type} {a : β} {s : State} : memOf (a, s).2 = memOf s := rfl
theorem triple_mem {β γ : Type} {a : β} {b : γ} {s : State} : memOf (a, b, s).2.2 = memOf s := rfl
theorem pair_eq_mem {β : Type} {p : β × State} {a : β} {s : State} (h : p = (a, s)) : memOf s = memOf p.2 := by rw [h]
theorem triple_eq_mem {β γ : Type} {p : β × γ × State} {a : β} {b : γ} {s : State} (h : p = (a, b, s)) : memOf s = memOf p.2.2 := by rw [h]
theorem foldl_eq_mem {β : Type} {g : State → β → State} {l : List β} {s : State} {m : List Host.Cell}
    (h : ∀ s x, memOf (g s x) = memOf s) (hs : memOf s = m) : memOf (l.foldl g s) = m := (foldl_mem g h l s).trans hs
theorem foldr_eq_mem {β : Type} {g : β → State → State} {l : List β} {s : State} {m : List Host.Cell}
    (h : ∀ x s, memOf (g x s) = memOf s) (hs : memOf s = m) : memOf (l.foldr g s) = m := (foldr_mem g h l s).trans hs
theorem wf_foldr {β : Type} (g : β → State → State) (h : ∀ x s, Memory.wf (memOf s) = true → Memory.wf (memOf (g x s)) = true) (l : List β)
    (s : State) (hs : Memory.wf (memOf s) = true) : Memory.wf (memOf (l.foldr g s)) = true := by
  induction l with
  | nil => exact hs
  | cons x t ih => exact h _ _ ih
theorem gate_next {c : Bool} {e t : State} (h : gate c e = .next t) : e = t := by
  unfold gate at h; split at h <;> simp_all
theorem gateAt_next {c : Bool} {f : Nat} {s t : State} {e : State → State} (h : gateAt c f s e = .next t) : e (advanceTo f s) = t := by
  unfold gateAt at h; split at h <;> simp_all
theorem next_inj {a t : State} (h : (Host.Outcome.next a : Res) = .next t) : a = t := by cases h; rfl
theorem wf_setMem {m : List Host.Cell} {s : State} (h : Memory.wf m = true) : Memory.wf (memOf (setMem m s)) = true := h
theorem wf_poke {a : Nat} {bs : List Byte} {s : State} (h : Memory.wf (memOf s) = true) : Memory.wf (memOf (poke a bs s)) = true := wf_mputs bs a h
theorem mk_mem {pending_ fclk_ free_ out_ regs_ hits_ sets_ mem_ tags_ vbits_ raw_ marks_ writes_ modeNext_ touched_ fills_ heldWrites_ facets_ ints_ intc_ intWas_ refusals_ tb_ timWrites_ epochs_ locks_ pulses_ ident_ ledger_ metro_ sideDev_ integ_ chans_ engines_ cells_ feeds_ threads_ blockers_ wakes_ macs_ fabric_ disc_ msixOpen_ msixHeld_ ses_ gly_ bez_ pwr_ links_} : memOf (State.mk pending_ fclk_ free_ out_ regs_ hits_ sets_ mem_ tags_ vbits_ raw_ marks_ writes_ modeNext_ touched_ fills_ heldWrites_ facets_ ints_ intc_ intWas_ refusals_ tb_ timWrites_ epochs_ locks_ pulses_ ident_ ledger_ metro_ sideDev_ integ_ chans_ engines_ cells_ feeds_ threads_ blockers_ wakes_ macs_ fabric_ disc_ msixOpen_ msixHeld_ ses_ gly_ bez_ pwr_ links_) = mem_ := rfl
theorem emit_mem (o : Out) (s : State) : memOf (emit o s) = memOf s := rfl
theorem setTags_mem (x : List Nat) (s : State) : memOf (setTags x s) = memOf s := rfl
theorem setVbits_mem (x : List Nat) (s : State) : memOf (setVbits x s) = memOf s := rfl
theorem setRawWords_mem (x : List (Nat × RawWord)) (s : State) : memOf (setRawWords x s) = memOf s := rfl
theorem setModeNext_mem (x : List Nat) (s : State) : memOf (setModeNext x s) = memOf s := rfl
theorem nextWrite_mem (s : State) : memOf (nextWrite s) = memOf s := rfl
theorem setTimWrites_mem (x : List (Nat × (Nat × BitVec 64))) (s : State) : memOf (setTimWrites x s) = memOf s := rfl
theorem setMarks_mem (x : List WMark) (s : State) : memOf (setMarks x s) = memOf s := rfl
theorem setTouched_mem (x : List Nat) (s : State) : memOf (setTouched x s) = memOf s := rfl
theorem setFills_mem (x : List Nat) (s : State) : memOf (setFills x s) = memOf s := rfl
theorem setHeldWrites_mem (x : List HeldWrite) (s : State) : memOf (setHeldWrites x s) = memOf s := rfl
theorem setFacets_mem (x : List (Nat × Facet)) (s : State) : memOf (setFacets x s) = memOf s := rfl
theorem setInts_mem (x : List (Nat × IntSrc)) (s : State) : memOf (setInts x s) = memOf s := rfl
theorem setIntc_mem (x : List (Nat × IntCtl)) (s : State) : memOf (setIntc x s) = memOf s := rfl
theorem setTb_mem (x : TimeBase) (s : State) : memOf (setTb x s) = memOf s := rfl
theorem setLocks_mem (x : Locks) (s : State) : memOf (setLocks x s) = memOf s := rfl
theorem setPulses_mem (x : List Pulse) (s : State) : memOf (setPulses x s) = memOf s := rfl
theorem setLedger_mem (x : Ledger) (s : State) : memOf (setLedger x s) = memOf s := rfl
theorem setSideDev_mem (x : List (Nat × BitVec 130)) (s : State) : memOf (setSideDev x s) = memOf s := rfl
theorem setIntegs_mem (x : List (Nat × Integ)) (s : State) : memOf (setIntegs x s) = memOf s := rfl
theorem setChans_mem (x : List (Nat × Chan)) (s : State) : memOf (setChans x s) = memOf s := rfl
theorem setEngines_mem (x : List (Nat × Engine)) (s : State) : memOf (setEngines x s) = memOf s := rfl
theorem setWakes_mem (x : List Nat) (s : State) : memOf (setWakes x s) = memOf s := rfl
theorem setThreads_mem (x : List (Nat × Thread)) (s : State) : memOf (setThreads x s) = memOf s := rfl
theorem setCells_mem (x : List (Nat × Cell)) (s : State) : memOf (setCells x s) = memOf s := rfl
theorem setBlockers_mem (x : List (Nat × Blocker)) (s : State) : memOf (setBlockers x s) = memOf s := rfl
theorem setFeeds_mem (x : List (Nat × Feed)) (s : State) : memOf (setFeeds x s) = memOf s := rfl
theorem setEpochs_mem (x : List (Nat × BitVec 8)) (s : State) : memOf (setEpochs x s) = memOf s := rfl
theorem setOut_mem (x : List Out) (s : State) : memOf (setOut x s) = memOf s := rfl
theorem setHits_mem (x : List (Nat × Nat)) (s : State) : memOf (setHits x s) = memOf s := rfl
theorem setSets_mem (x : List (Nat × Nat)) (s : State) : memOf (setSets x s) = memOf s := rfl
theorem setRegs_mem (x : List (Nat × BitVec 64)) (s : State) : memOf (setRegs x s) = memOf s := rfl
theorem setPending_mem (x : List Instr) (s : State) : memOf (setPending x s) = memOf s := rfl
theorem setMacs_mem (x : List (Nat × Mac)) (s : State) : memOf (setMacs x s) = memOf s := rfl
theorem setFabric_mem (x : Fabric) (s : State) : memOf (setFabric x s) = memOf s := rfl
theorem setMsixOpen_mem (x : List Nat) (s : State) : memOf (setMsixOpen x s) = memOf s := rfl
theorem setMsixHeld_mem (x : List Nat) (s : State) : memOf (setMsixHeld x s) = memOf s := rfl
theorem setSes_mem (x : Ses) (s : State) : memOf (setSes x s) = memOf s := rfl
theorem setGly_mem (x : Gly) (s : State) : memOf (setGly x s) = memOf s := rfl
theorem setPwr_mem (x : Pwr) (s : State) : memOf (setPwr x s) = memOf s := rfl
theorem setMetro_mem (m : Metro) (s : State) : memOf (setMetro m s) = memOf s := rfl
theorem setBez_mem (b : Bez) (s : State) : memOf (setBez b s) = memOf s := rfl
theorem setLinks_mem (l : Links) (s : State) : memOf (setLinks l s) = memOf s := rfl
theorem setDisc_mem (x : Disc) (s : State) : memOf (setDisc x s) = memOf s := rfl
theorem rset_mem (a : Nat) (v : BitVec 64) (s : State) : memOf (rset a v s) = memOf s := rfl
theorem rput_mem (a lo w v : Nat) (s : State) : memOf (rput a lo w v s) = memOf s := rfl
theorem noteHit_mem (a i : Nat) (b : Bool) (s : State) : memOf (noteHit a i b s) = memOf s := rfl
theorem rbitSet_mem (a i : Nat) (b : Bool) (s : State) : memOf (rbitSet a i b s) = memOf s := rfl
theorem rw1c_mem (a : Nat) (m v : BitVec 64) (s : State) : memOf (rw1c a m v s) = memOf s := rfl
theorem w1sWrite_mem (a i : Nat) (s : State) : memOf (w1sWrite a i s) = memOf s := rfl
theorem w1sClear_mem (a i : Nat) (s : State) : memOf (w1sClear a i s) = memOf s := by unfold w1sClear; split <;> rfl
theorem rsat_mem (a lo w v : Nat) (s : State) : memOf (rsat a lo w v s) = memOf s := rfl
theorem rclear_mem (lo hi : Nat) (s : State) : memOf (rclear lo hi s) = memOf s := rfl
theorem setFacet_mem (n : Nat) (f : Facet) (s : State) : memOf (setFacet n f s) = memOf s := rfl
theorem updFacet_mem (n : Nat) (h : Facet → Facet) (s : State) : memOf (updFacet n h s) = memOf s := rfl
theorem setIntSrc_mem (c i : Nat) (x : IntSrc) (s : State) : memOf (setIntSrc c i x s) = memOf s := rfl
theorem tellSteward_mem (a : Nat) (w : Agent) (s : State) : memOf (tellSteward a w s) = memOf s := rfl
theorem setIntCtl_mem (c : Nat) (x : IntCtl) (s : State) : memOf (setIntCtl c x s) = memOf s := rfl
theorem setTag_mem (a : Nat) (b : Bool) (s : State) : memOf (setTag a b s) = memOf s := rfl
theorem setInteg_mem (c : Nat) (x : Integ) (s : State) : memOf (setInteg c x s) = memOf s := rfl
theorem setChan_mem (k : Nat) (x : Chan) (s : State) : memOf (setChan k x s) = memOf s := rfl
theorem setEngine_mem (e : Nat) (x : Engine) (s : State) : memOf (setEngine e x s) = memOf s := rfl
theorem setCell_mem (p : Nat) (x : Cell) (s : State) : memOf (setCell p x s) = memOf s := rfl
theorem setThread_mem (t : Nat) (x : Thread) (s : State) : memOf (setThread t x s) = memOf s := rfl
theorem setBlocker_mem (b : Nat) (x : Blocker) (s : State) : memOf (setBlocker b x s) = memOf s := rfl
theorem setFeed_mem (b f : Nat) (x : Feed) (s : State) : memOf (setFeed b f x s) = memOf s := rfl
theorem setEpoch_mem (p e : Nat) (s : State) : memOf (setEpoch p e s) = memOf s := rfl
theorem setMac_mem (m : Nat) (x : Mac) (s : State) : memOf (setMac m x s) = memOf s := rfl
theorem setQpair_mem (q : Nat) (x : QPair) (s : State) : memOf (setQpair q x s) = memOf s := rfl
theorem setCmd_mem (c : Cmd) (s : State) : memOf (setCmd c s) = memOf s := rfl
end Sys2Proof.Laws
end

