-- ==== Sys2Proof/Laws/MemCore.lean ====
section
/-! SUPPORT. Memory keeps its canonical form under the operations that all blocks share: facets, flights, movers, the clock, the ledger, resets. -/
namespace Sys2Proof.Laws
open Sys2Proof.Machine
set_option maxRecDepth 20000

/-! ### Ops -/

theorem drawFree_mem (s : State)  : memOf (drawFree s).2 = memOf s := by
  fun_cases drawFree s <;>
  repeat' first | intro _ | (with_reducible first | rfl | refine pair_mem.trans ?_ | refine mem_def.trans ?_) | (fail_if_no_progress dsimp only) | split | simp +zetaDelta only [mk_mem]

theorem fdrop_mem (ctl : Nat) (s : State)  : memOf (fdrop ctl s) = memOf s := by
  fun_cases fdrop ctl s <;>
  repeat' first | intro _ | (with_reducible first | rfl | refine (setIntCtl_mem ..).trans ?_) | (fail_if_no_progress dsimp only) | split

theorem intStatSet_mem (ctl i : Nat) (s : State)  : memOf (intStatSet ctl i s) = memOf s := by
  fun_cases intStatSet ctl i s <;>
  repeat' first | intro _ | (with_reducible first | rfl | refine (noteHit_mem ..).trans ?_ | refine (setIntCtl_mem ..).trans ?_) | (fail_if_no_progress dsimp only) | split

theorem intStatClear_mem (ctl : Nat) (v : BitVec 64) (s : State)  : memOf (intStatClear ctl v s) = memOf s := by
  fun_cases intStatClear ctl v s <;>
  repeat' first | intro _ | (with_reducible first | rfl | refine (setIntCtl_mem ..).trans ?_) | (fail_if_no_progress dsimp only) | split

theorem acceptEvents_mem (ctl src m : Nat) (s : State)  : memOf (acceptEvents ctl src m s) = memOf s := by
  fun_cases acceptEvents ctl src m s <;>
  repeat' first | intro _ | (with_reducible first | rfl | assumption | refine (intStatSet_mem ..).trans ?_ | refine (setIntSrc_mem ..).trans ?_ | refine ite_eq_same ?_ ?_) | (fail_if_no_progress dsimp only) | split

theorem pulseEvent_mem (ctl src : Nat) (s : State)  : memOf (pulseEvent ctl src s) = memOf s := by
  fun_cases pulseEvent ctl src s <;>
  repeat' first | intro _ | (with_reducible first | rfl | assumption | refine (acceptEvents_mem ..).trans ?_ | refine (fdrop_mem ..).trans ?_ | refine (setIntSrc_mem ..).trans ?_) | (fail_if_no_progress dsimp only) | split

theorem setFiltered_mem (ctl src : Nat) (v : Bool) (s : State)  : memOf (setFiltered ctl src v s) = memOf s := by
  fun_cases setFiltered ctl src v s <;>
  repeat' first | intro _ | (with_reducible first | rfl | assumption | refine (setIntSrc_mem ..).trans ?_) | (fail_if_no_progress dsimp only) | split

theorem setRaw_mem (ctl src : Nat) (v : Bool) (s : State)  : memOf (setRaw ctl src v s) = memOf s := by
  fun_cases setRaw ctl src v s <;>
  repeat' first | intro _ | (with_reducible first | rfl | assumption | refine (fdrop_mem ..).trans ?_ | refine (setFiltered_mem ..).trans ?_ | refine (setIntSrc_mem ..).trans ?_ | refine ite_eq_same ?_ ?_) | (fail_if_no_progress dsimp only) | split

theorem raiseSteward_mem (src : Nat) (s : State)  : memOf (raiseSteward src s) = memOf s := by
  fun_cases raiseSteward src s <;>
  repeat' first | intro _ | (with_reducible first | rfl | refine (pulseEvent_mem ..).trans ?_) | (fail_if_no_progress dsimp only) | split

theorem raiseGirdle_mem (blk : Nat) (s : State)  : memOf (raiseGirdle blk s) = memOf s := by
  fun_cases raiseGirdle blk s <;>
  repeat' first | intro _ | (with_reducible first | rfl | refine (raiseSteward_mem ..).trans ?_ | refine (rbitSet_mem ..).trans ?_) | (fail_if_no_progress dsimp only) | split

theorem hostLost_mem (a : Nat) (s : State)  : memOf (hostLost a s) = memOf s := by
  fun_cases hostLost a s <;>
  repeat' first | intro _ | (with_reducible first | rfl | refine (rsat_mem ..).trans ?_) | (fail_if_no_progress dsimp only) | split

theorem reportLoss_mem (a : Nat) (who : Agent) (s : State)  : memOf (reportLoss a who s) = memOf s := by
  fun_cases reportLoss a who s <;>
  repeat' first | intro _ | (with_reducible first | rfl | refine (hostLost_mem ..).trans ?_ | refine (noteHit_mem ..).trans ?_ | refine (rbitSet_mem ..).trans ?_ | refine (updFacet_mem ..).trans ?_) | (fail_if_no_progress dsimp only) | split

theorem tellLoss_mem (a : Nat) (who : Agent) (id : Nat) (s : State)  : memOf (tellLoss a who id s) = memOf s := by
  fun_cases tellLoss a who id s <;>
  repeat' first | intro _ | (with_reducible first | rfl | assumption | refine (reportLoss_mem ..).trans ?_ | refine (setMarks_mem ..).trans ?_) | (fail_if_no_progress dsimp only) | split

theorem laterFclk_mem (rank w : Nat) (s : State)  : memOf (laterFclk rank w s) = memOf s := by
  fun_cases laterFclk rank w s <;>
  repeat' first | intro _ | (with_reducible first | rfl | assumption | refine (setMarks_mem ..).trans ?_) | (fail_if_no_progress dsimp only) | split

theorem dropResv_mem (w : Nat) (who : Agent) (s : State)  : memOf (dropResv w who s) = memOf s := by
  fun_cases dropResv w who s <;>
  repeat' first | intro _ | (with_reducible first | rfl | refine (setFacet_mem ..).trans ?_ | refine foldl_eq_mem ?_ ?_) | (fail_if_no_progress dsimp only) | split

theorem markRewritten_mem (w : Nat) (s : State)  : memOf (markRewritten w s) = memOf s := by
  fun_cases markRewritten w s <;>
  repeat' first | intro _ | (with_reducible first | rfl | refine (rbitSet_mem ..).trans ?_ | refine foldl_eq_mem ?_ ?_) | (fail_if_no_progress dsimp only) | split

theorem wf_girdlePut {a : Nat} {bs : List Byte} {s : State} (h : Memory.wf (memOf s) = true) : Memory.wf (memOf (girdlePut a bs s)) = true := by
  fun_cases girdlePut a bs s <;>
  repeat' first | intro _ | (with_reducible first | assumption | refine wf_poke ?_ | refine wf_of_eq (markRewritten_mem ..) ?_ | refine wf_foldl _ ?_ _ _ ?_) | (fail_if_no_progress dsimp only) | split

theorem rawWrite_mem (w : Nat) (m : BitVec 16) (tag : Bool) (s : State)  : memOf (rawWrite w m tag s) = memOf s := by
  fun_cases rawWrite w m tag s <;>
  repeat' first | intro _ | (with_reducible first | rfl | assumption | refine (setRawWords_mem ..).trans ?_) | (fail_if_no_progress dsimp only) | split

theorem dropBack_mem (w : Nat) (s : State)  : memOf (dropBack w s) = memOf s := by
  fun_cases dropBack w s <;>
  repeat' first | intro _ | (with_reducible first | rfl | refine (rput_mem ..).trans ?_ | refine (rsat_mem ..).trans ?_ | refine (setMarks_mem ..).trans ?_ | refine (setRawWords_mem ..).trans ?_) | (fail_if_no_progress dsimp only) | split

theorem wf_writeWord {who : Agent} {rank : Nat} {a : Nat} {bs : List Byte} {tag : Bool} {s : State} (h : Memory.wf (memOf s) = true) : Memory.wf (memOf (writeWord who rank a bs tag s)) = true := by
  fun_cases writeWord who rank a bs tag s <;>
  repeat' first | intro _ | (with_reducible first | assumption | refine wf_poke ?_ | refine wf_of_eq (dropBack_mem ..) ?_ | refine wf_of_eq (dropResv_mem ..) ?_ | refine wf_of_eq (laterFclk_mem ..) ?_ | refine wf_of_eq (markRewritten_mem ..) ?_ | refine wf_of_eq (rawWrite_mem ..) ?_ | refine wf_of_eq (setMarks_mem ..) ?_ | refine wf_of_eq (setTag_mem ..) ?_ | refine wf_of_eq (setVbits_mem ..) ?_ | refine wf_of_eq (tellLoss_mem ..) ?_ | refine wf_ite_same ?_ ?_ | refine wf_foldl _ ?_ _ _ ?_) | (fail_if_no_progress dsimp only) | split

theorem wf_landDram {a : Nat} {bs : List Byte} {s : State} (h : Memory.wf (memOf s) = true) : Memory.wf (memOf (landDram a bs s)) = true := by
  fun_cases landDram a bs s <;>
  repeat' first | intro _ | (with_reducible first | assumption | refine wf_poke ?_ | refine wf_of_eq (setTags_mem ..) ?_) | (fail_if_no_progress dsimp only) | split

theorem ackBytes_mem (k n : Nat) (s : State)  : memOf (ackBytes k n s) = memOf s := by
  fun_cases ackBytes k n s <;>
  repeat' first | intro _ | (with_reducible first | rfl | refine (rput_mem ..).trans ?_) | (fail_if_no_progress dsimp only) | split

theorem wf_landHeld {s : State} {w : HeldWrite} (h : Memory.wf (memOf s) = true) : Memory.wf (memOf (landHeld s w)) = true := by
  fun_cases landHeld s w <;>
  repeat' first | intro _ | (with_reducible first | assumption | refine wf_landDram ?_ | refine wf_of_eq (ackBytes_mem ..) ?_) | (fail_if_no_progress dsimp only) | split

theorem wf_fillDone {s : State} (h : Memory.wf (memOf s) = true) : Memory.wf (memOf (fillDone s)) = true := by
  fun_cases fillDone s <;>
  repeat' first | intro _ | (with_reducible first | assumption | refine wf_landHeld ?_ | refine wf_of_eq (setFills_mem ..) ?_ | refine wf_of_eq (setHeldWrites_mem ..) ?_ | refine wf_of_eq (setTouched_mem ..) ?_ | refine wf_foldl _ ?_ _ _ ?_) | (fail_if_no_progress dsimp only) | split

theorem wf_finishFills {a : Nat} : ∀ {k : Nat} {s : State}, Memory.wf (memOf s) = true → Memory.wf (memOf (finishFills a k s)) = true := by
  intro k
  induction k with
  | zero => intro s h; exact h
  | succ k ih => intro s h; unfold finishFills; split; exacts [ih (wf_fillDone h), h]

theorem wf_settleChunk {a : Nat} {s : State} (h : Memory.wf (memOf s) = true) : Memory.wf (memOf (settleChunk a s)) = true :=
  wf_finishFills h

theorem wf_writeDram {who : Agent} {a : Nat} {bs : List Byte} {s : State} (h : Memory.wf (memOf s) = true) : Memory.wf (memOf (writeDram who a bs s)) = true := by
  fun_cases writeDram who a bs s <;>
  repeat' first | intro _ | (with_reducible first | assumption | refine wf_fillDone ?_ | refine wf_landDram ?_ | refine wf_of_eq (setFills_mem ..) ?_ | refine wf_of_eq (setHeldWrites_mem ..) ?_ | refine wf_ite_same ?_ ?_) | (fail_if_no_progress dsimp only) | split

theorem wf_writeMem {who : Agent} {a : Nat} {bs : List Byte} {s : State} (h : Memory.wf (memOf s) = true) : Memory.wf (memOf (writeMem who a bs s)) = true := by
  fun_cases writeMem who a bs s <;>
  repeat' first | intro _ | (with_reducible first | assumption | refine wf_girdlePut ?_ | refine wf_writeDram ?_ | refine wf_writeWord ?_ | refine wf_foldl _ ?_ _ _ ?_) | (fail_if_no_progress dsimp only) | split

theorem raiseEvent_mem (ev : Nat) (s : State)  : memOf (raiseEvent ev s) = memOf s := by
  fun_cases raiseEvent ev s <;>
  repeat' first | intro _ | (with_reducible first | rfl | assumption | refine (setPulses_mem ..).trans ?_) | (fail_if_no_progress dsimp only) | split

theorem raiseHat_mem (src : Nat) (s : State)  : memOf (raiseHat src s) = memOf s := by
  fun_cases raiseHat src s <;>
  repeat' first | intro _ | (with_reducible first | rfl | assumption | refine (raiseEvent_mem ..).trans ?_) | (fail_if_no_progress dsimp only) | split

/-! ### IntOps -/

theorem claim_mem (ctl : Nat) (fast : Bool) (s : State)  : memOf (claim ctl fast s) = memOf s := by
  fun_cases claim ctl fast s <;>
  repeat' first | intro _ | (with_reducible first | rfl | assumption | refine (acceptEvents_mem ..).trans ?_ | refine (setIntSrc_mem ..).trans ?_) | (fail_if_no_progress dsimp only) | split

theorem intEoi_mem (ctl src : Nat) (s : State)  : memOf (intEoi ctl src s) = memOf s := by
  fun_cases intEoi ctl src s <;>
  repeat' first | intro _ | (with_reducible first | rfl | assumption | refine (intStatSet_mem ..).trans ?_ | refine (setIntSrc_mem ..).trans ?_) | (fail_if_no_progress dsimp only) | split

theorem intSetp_mem (ctl src : Nat) (s : State)  : memOf (intSetp ctl src s) = memOf s := by
  fun_cases intSetp ctl src s <;>
  repeat' first | intro _ | (with_reducible first | rfl | assumption | refine (intStatSet_mem ..).trans ?_ | refine (setIntSrc_mem ..).trans ?_ | refine ite_eq_same ?_ ?_) | (fail_if_no_progress dsimp only) | split

theorem intClrp_mem (ctl src : Nat) (s : State)  : memOf (intClrp ctl src s) = memOf s := by
  fun_cases intClrp ctl src s <;>
  repeat' first | intro _ | (with_reducible first | rfl | assumption | refine (intStatSet_mem ..).trans ?_ | refine (setIntSrc_mem ..).trans ?_) | (fail_if_no_progress dsimp only) | split

theorem pendAgain_mem (s : State) (p : Nat × IntSrc)  : memOf (pendAgain s p) = memOf s := by
  fun_cases pendAgain s p <;>
  repeat' first | intro _ | (with_reducible first | rfl | assumption | refine (setIntSrc_mem ..).trans ?_) | (fail_if_no_progress dsimp only) | split

theorem wf_intsTick {k : Nat} {s : State} (h : Memory.wf (memOf s) = true) : Memory.wf (memOf (intsTick k s)) = true := by
  delta intsTick
  repeat' first | intro _ | (with_reducible first | assumption | refine wf_of_eq (pendAgain_mem ..) ?_ | refine wf_ite_same ?_ ?_ | refine wf_foldl _ ?_ _ _ ?_ | refine wf_mem_def ?_) | simp only [mk_mem] | (fail_if_no_progress dsimp only) | split

theorem scfgWrite_mem (ctl src : Nat) (v : BitVec 64) (s : State)  : memOf (scfgWrite ctl src v s) = memOf s := by
  fun_cases scfgWrite ctl src v s <;>
  repeat' first | intro _ | (with_reducible first | rfl | assumption | refine (setFiltered_mem ..).trans ?_ | refine (setIntSrc_mem ..).trans ?_) | (fail_if_no_progress dsimp only) | split

theorem intSysWrite_mem (n num : Nat) (v : BitVec 64) (s : State)  : memOf (intSysWrite n num v s) = memOf s := by
  fun_cases intSysWrite n num v s <;>
  repeat' first | intro _ | (with_reducible first | rfl | refine (intClrp_mem ..).trans ?_ | refine (intEoi_mem ..).trans ?_ | refine (intSetp_mem ..).trans ?_ | refine (intStatClear_mem ..).trans ?_ | refine (scfgWrite_mem ..).trans ?_ | refine (setIntCtl_mem ..).trans ?_) | (fail_if_no_progress dsimp only) | split

theorem recordEvent_mem (n i : Nat) (s : State)  : memOf (recordEvent n i s) = memOf s := by
  fun_cases recordEvent n i s <;>
  repeat' first | intro _ | (with_reducible first | rfl | assumption | refine (setIntSrc_mem ..).trans ?_ | refine (setWakes_mem ..).trans ?_) | (fail_if_no_progress dsimp only) | split

theorem facetPulse_mem (n i : Nat) (s : State)  : memOf (facetPulse n i s) = memOf s := by
  fun_cases facetPulse n i s <;>
  repeat' first | intro _ | (with_reducible first | rfl | assumption | refine (pulseEvent_mem ..).trans ?_ | refine (recordEvent_mem ..).trans ?_) | (fail_if_no_progress dsimp only) | split

/-! ### LedgerOps -/

theorem ledgerFlag_mem (i : Nat) (s : State)  : memOf (ledgerFlag i s) = memOf s := by
  fun_cases ledgerFlag i s <;>
  repeat' first | intro _ | (with_reducible first | rfl | assumption | refine (noteHit_mem ..).trans ?_ | refine (raiseSteward_mem ..).trans ?_ | refine (rbitSet_mem ..).trans ?_) | (fail_if_no_progress dsimp only) | split

theorem setPendCount_mem (s : State)  : memOf (setPendCount s) = memOf s := by
  fun_cases setPendCount s <;>
  repeat' first | intro _ | (with_reducible first | rfl | refine (rput_mem ..).trans ?_) | (fail_if_no_progress dsimp only) | split

theorem wf_ledgerPut {line : Nat} {off : Nat} {bs : List Byte} {s : State} (h : Memory.wf (memOf s) = true) : Memory.wf (memOf (ledgerPut line off bs s)) = true := by
  fun_cases ledgerPut line off bs s <;>
  repeat' first | intro _ | (with_reducible first | assumption | refine wf_poke ?_ | refine wf_of_eq (rsat_mem ..) ?_ | refine wf_of_eq (setLedger_mem ..) ?_ | refine wf_of_eq (setPendCount_mem ..) ?_ | refine wf_ite_same ?_ ?_) | (fail_if_no_progress dsimp only) | split

theorem wf_audit {legal : Bool} {kind : Nat} {prin : Nat} {detail : List Byte} {s : State} (h : Memory.wf (memOf s) = true) : Memory.wf (memOf (audit legal kind prin detail s)) = true := by
  fun_cases audit legal kind prin detail s <;>
  repeat' first | intro _ | (with_reducible first | assumption | refine wf_ledgerPut ?_ | refine wf_of_eq (setLedger_mem ..) ?_) | (fail_if_no_progress dsimp only) | split

theorem trimTrails_mem (s : State)  : memOf (trimTrails s) = memOf s := by
  fun_cases trimTrails s <;>
  repeat' first | intro _ | (with_reducible first | rfl | refine (setLedger_mem ..).trans ?_) | (fail_if_no_progress dsimp only) | split

theorem metroCommitted_mem (s : State)  : memOf (metroCommitted s) = memOf s := by
  fun_cases metroCommitted s <;>
  repeat' first | intro _ | (with_reducible first | rfl | assumption | refine (rput_mem ..).trans ?_ | refine (setMetro_mem ..).trans ?_) | (fail_if_no_progress dsimp only) | split

theorem wf_cancelMetro {s : State} (h : Memory.wf (memOf s) = true) : Memory.wf (memOf (cancelMetro s)) = true := by
  fun_cases cancelMetro s <;>
  repeat' first | intro _ | (with_reducible first | assumption | refine wf_poke ?_ | refine wf_of_eq (setLedger_mem ..) ?_ | refine wf_of_eq (setMetro_mem ..) ?_ | refine wf_of_eq (setPendCount_mem ..) ?_ | refine wf_of_eq (trimTrails_mem ..) ?_ | refine wf_foldl _ ?_ _ _ ?_) | (fail_if_no_progress dsimp only) | split

theorem addRec5_mem (r : Rec5) (s : State)  : memOf (addRec5 r s) = memOf s := by
  fun_cases addRec5 r s <;>
  repeat' first | intro _ | (with_reducible first | rfl | refine (setLedger_mem ..).trans ?_) | (fail_if_no_progress dsimp only) | split

theorem logReset_mem (cause scope index : Nat) (s : State)  : memOf (logReset cause scope index s) = memOf s := by
  fun_cases logReset cause scope index s <;>
  repeat' first | intro _ | (with_reducible first | rfl | assumption | refine (addRec5_mem ..).trans ?_ | refine (rput_mem ..).trans ?_ | refine (rset_mem ..).trans ?_) | (fail_if_no_progress dsimp only) | split

/-! ### IntegrityOps -/

theorem itgEvt_mem (u i src : Nat) (s : State)  : memOf (itgEvt u i src s) = memOf s := by
  fun_cases itgEvt u i src s <;>
  repeat' first | intro _ | (with_reducible first | rfl | assumption | refine (noteHit_mem ..).trans ?_ | refine (raiseGirdle_mem ..).trans ?_ | refine (raiseSteward_mem ..).trans ?_ | refine (rbitSet_mem ..).trans ?_) | (fail_if_no_progress dsimp only) | split

theorem logDropped_mem (u srcNo : Nat) (s : State)  : memOf (logDropped u srcNo s) = memOf s := by
  fun_cases logDropped u srcNo s <;>
  repeat' first | intro _ | (with_reducible first | rfl | refine (itgEvt_mem ..).trans ?_ | refine (rsat_mem ..).trans ?_) | (fail_if_no_progress dsimp only) | split

theorem logThresh_mem (u e srcNo : Nat) (s : State)  : memOf (logThresh u e srcNo s) = memOf s := by
  fun_cases logThresh u e srcNo s <;>
  repeat' first | intro _ | (with_reducible first | rfl | assumption | refine (itgEvt_mem ..).trans ?_) | (fail_if_no_progress dsimp only) | split

theorem logOne_mem (u : Nat) (s : State) (ev : LogEvent)  : memOf (logOne u s ev) = memOf s := by
  fun_cases logOne u s ev <;>
  repeat' first | intro _ | (with_reducible first | rfl | assumption | refine (itgEvt_mem ..).trans ?_ | refine (logDropped_mem ..).trans ?_ | refine (logThresh_mem ..).trans ?_ | refine (noteHit_mem ..).trans ?_ | refine (rbitSet_mem ..).trans ?_ | refine (rput_mem ..).trans ?_ | refine (rsat_mem ..).trans ?_ | refine (rset_mem ..).trans ?_ | refine ite_eq_same ?_ ?_) | (fail_if_no_progress dsimp only) | split

theorem logEvents_mem (u : Nat) (evs : List LogEvent) (s : State)  : memOf (logEvents u evs s) = memOf s := by
  fun_cases logEvents u evs s <;>
  repeat' first | intro _ | (with_reducible first | rfl | refine (logDropped_mem ..).trans ?_ | refine (logOne_mem ..).trans ?_ | refine foldl_eq_mem ?_ ?_) | (fail_if_no_progress dsimp only) | split

theorem logFree_mem (u e : Nat) (s : State)  : memOf (logFree u e s) = memOf s := by
  fun_cases logFree u e s <;>
  repeat' first | intro _ | (with_reducible first | rfl | assumption | refine (rbitSet_mem ..).trans ?_ | refine (rput_mem ..).trans ?_) | (fail_if_no_progress dsimp only) | split

theorem pounceIdle_mem (c f : Nat) (s : State)  : memOf (pounceIdle c f s) = memOf s := by
  fun_cases pounceIdle c f s <;>
  repeat' first | intro _ | (with_reducible first | rfl | assumption | refine (rbitSet_mem ..).trans ?_ | refine (rput_mem ..).trans ?_ | refine (setInteg_mem ..).trans ?_) | (fail_if_no_progress dsimp only) | split

theorem copySwitch_mem (c : Nat) (s : State)  : memOf (copySwitch c s) = memOf s := by
  fun_cases copySwitch c s <;>
  repeat' first | intro _ | (with_reducible first | rfl | assumption | refine (pounceIdle_mem ..).trans ?_ | refine (rput_mem ..).trans ?_ | refine (setInteg_mem ..).trans ?_) | (fail_if_no_progress dsimp only) | split

theorem copiesTick_mem (s : State)  : memOf (copiesTick s) = memOf s := by
  fun_cases copiesTick s <;>
  repeat' first | intro _ | (with_reducible first | rfl | refine (copySwitch_mem ..).trans ?_ | refine foldl_eq_mem ?_ ?_) | (fail_if_no_progress dsimp only) | split

theorem copyRestart_mem (c : Nat) (s : State)  : memOf (copyRestart c s) = memOf s := by
  fun_cases copyRestart c s <;>
  repeat' first | intro _ | (with_reducible first | rfl | assumption | refine (setInteg_mem ..).trans ?_) | (fail_if_no_progress dsimp only) | split

theorem noteReads_mem (port : Nat) (words : List Nat) (s : State)  : memOf (noteReads port words s) = memOf s := by
  fun_cases noteReads port words s <;>
  repeat' first | intro _ | (with_reducible first | rfl | assumption | refine (logEvents_mem ..).trans ?_ | refine ite_eq_same ?_ ?_ | refine foldl_eq_mem ?_ ?_) | (fail_if_no_progress dsimp only) | split

theorem wf_memoryRead {a : Nat} {len : Nat} {s : State} (h : Memory.wf (memOf s) = true) : Memory.wf (memOf (memoryRead a len s).2) = true := by
  fun_cases memoryRead a len s <;>
  repeat' first | intro _ | (with_reducible first | assumption | refine wf_settleChunk ?_ | refine wf_of_eq (noteReads_mem ..) ?_ | refine wf_ite_same ?_ ?_ | refine wf_foldl _ ?_ _ _ ?_) | (fail_if_no_progress dsimp only) | split

theorem wf_putWordSym {w : Nat} {v : BitVec 130} {s : State} (h : Memory.wf (memOf s) = true) : Memory.wf (memOf (putWordSym w v s)) = true := by
  fun_cases putWordSym w v s <;>
  repeat' first | intro _ | (with_reducible first | assumption | refine wf_poke ?_ | refine wf_of_eq (setRawWords_mem ..) ?_ | refine wf_of_eq (setTags_mem ..) ?_ | refine wf_of_eq (setVbits_mem ..) ?_) | (fail_if_no_progress dsimp only) | split

theorem eraseEvent_mem (port : Nat) (rebuilt : Bool) (w : Nat) (s : State)  : memOf (eraseEvent port rebuilt w s) = memOf s := by
  fun_cases eraseEvent port rebuilt w s <;>
  repeat' first | intro _ | (with_reducible first | rfl | refine (drawFree_mem ..).trans ?_ | refine (logEvents_mem ..).trans ?_ | refine (pair_eq_mem (by assumption)).trans ?_) | (fail_if_no_progress dsimp only) | split

theorem wf_reconstructPage {page : Nat} {port : Nat} {outside : List (Fin 128)} {sideBad : Bool} {s : State} (h : Memory.wf (memOf s) = true) : Memory.wf (memOf (reconstructPage page port outside sideBad s).2) = true := by
  fun_cases reconstructPage page port outside sideBad s <;>
  repeat' first | intro _ | (with_reducible first | assumption | refine wf_putWordSym ?_ | refine wf_of_eq (drawFree_mem ..) ?_ | refine wf_of_eq (eraseEvent_mem ..) ?_ | refine wf_of_eq (itgEvt_mem ..) ?_ | refine wf_of_eq (logEvents_mem ..) ?_ | refine wf_of_eq (noteReads_mem ..) ?_ | refine wf_of_eq (rbitSet_mem ..) ?_ | refine wf_of_eq (setSideDev_mem ..) ?_ | refine wf_foldl _ ?_ _ _ ?_ | refine wf_of_eq (pair_eq_mem (by assumption)) ?_) | (fail_if_no_progress dsimp only) | split

/-! ### FacetLand -/

theorem landSys_mem (n num lvl : Nat) (v : BitVec 64) (s : State)  : memOf (landSys n num lvl v s) = memOf s := by
  fun_cases landSys n num lvl v s <;>
  repeat' first | intro _ | (with_reducible first | rfl | assumption | refine (intSysWrite_mem ..).trans ?_ | refine (setFacet_mem ..).trans ?_ | refine ite_eq_same ?_ ?_) | (fail_if_no_progress dsimp only) | split

theorem wf_land1 {n : Nat} {s0 : State} {l : Land} {s : State} (h : Memory.wf (memOf s) = true) : Memory.wf (memOf (land1 n s0 l s)) = true := by
  fun_cases land1 n s0 l s <;>
  repeat' first | intro _ | (with_reducible first | assumption | refine wf_writeWord ?_ | refine wf_of_eq (landSys_mem ..) ?_ | refine wf_of_eq (noteReads_mem ..) ?_ | refine wf_of_eq (setFacet_mem ..) ?_ | refine wf_of_eq (updFacet_mem ..) ?_) | (fail_if_no_progress dsimp only) | split

theorem wf_landAll {n : Nat} {ls : List Land} {s : State} (h : Memory.wf (memOf s) = true) : Memory.wf (memOf (landAll n ls s)) = true := by
  fun_cases landAll n ls s <;>
  repeat' first | intro _ | (with_reducible first | assumption | refine wf_land1 ?_ | refine wf_of_eq (noteHit_mem ..) ?_ | refine wf_of_eq (updFacet_mem ..) ?_ | refine wf_foldl _ ?_ _ _ ?_) | (fail_if_no_progress dsimp only) | split

theorem wf_landDue {n : Nat} {s : State} (h : Memory.wf (memOf s) = true) : Memory.wf (memOf (landDue n s)) = true := by
  fun_cases landDue n s <;>
  repeat' first | intro _ | (with_reducible first | assumption | refine wf_landAll ?_ | refine wf_of_eq (setFacet_mem ..) ?_) | (fail_if_no_progress dsimp only) | split

theorem wf_drain : ∀ {k n : Nat} {s : State}, Memory.wf (memOf s) = true → Memory.wf (memOf (drain k n s)) = true := by
  intro k n
  induction k with
  | zero => intro s h; exact h
  | succ k ih => intro s h; unfold drain; split; exacts [h, ih (wf_landDue h)]

theorem wf_drainFacet {n : Nat} {s : State} (h : Memory.wf (memOf s) = true) : Memory.wf (memOf (drainFacet n s)) = true := by
  fun_cases drainFacet n s <;>
  repeat' first | intro _ | (with_reducible first | assumption | refine wf_drain ?_) | (fail_if_no_progress dsimp only) | split

/-! ### FacetIssue -/

theorem putFlight_mem (n : Nat) (l : Nat) (x : Land) (s : State)  : memOf (putFlight n l x s) = memOf s := by
  fun_cases putFlight n l x s <;>
  repeat' first | intro _ | (with_reducible first | rfl | refine (updFacet_mem ..).trans ?_) | (fail_if_no_progress dsimp only) | split

theorem resolveBranch_mem (n : Nat) (taken : Bool) (target : BitVec 15) (s : State)  : memOf (resolveBranch n taken target s) = memOf s := by
  fun_cases resolveBranch n taken target s <;>
  repeat' first | intro _ | (with_reducible first | rfl | assumption | refine (drawFree_mem ..).trans ?_ | refine (setFacet_mem ..).trans ?_ | refine (updFacet_mem ..).trans ?_ | refine (pair_eq_mem (by assumption)).trans ?_) | (fail_if_no_progress dsimp only) | split

theorem takeBranch_mem (n : Nat) (target : BitVec 15) (s : State)  : memOf (takeBranch n target s) = memOf s := by
  fun_cases takeBranch n target s <;>
  repeat' first | intro _ | (with_reducible first | rfl | refine (resolveBranch_mem ..).trans ?_ | refine (updFacet_mem ..).trans ?_) | (fail_if_no_progress dsimp only) | split

theorem pushRs_mem (n : Nat) (v : BitVec 15) (s : State)  : memOf (pushRs n v s) = memOf s := by
  fun_cases pushRs n v s <;>
  repeat' first | intro _ | (with_reducible first | rfl | refine (updFacet_mem ..).trans ?_) | (fail_if_no_progress dsimp only) | split

theorem popRs_mem (n : Nat) (s : State)  : memOf (popRs n s).2 = memOf s := by
  fun_cases popRs n s <;>
  repeat' first | intro _ | (with_reducible first | rfl | refine (setFacet_mem ..).trans ?_) | (fail_if_no_progress dsimp only) | split

theorem issueRemote_mem (s0 : State) (n : Nat) (f : Facet) (o : Op) (s : State)  : memOf (issueRemote s0 n f o s) = memOf s := by
  fun_cases issueRemote s0 n f o s <;>
  repeat' first | intro _ | (with_reducible first | rfl | refine (updFacet_mem ..).trans ?_) | (fail_if_no_progress dsimp only) | split

theorem doControl_mem (s0 : State) (n : Nat) (f : Facet) (lits : List (BitVec 48)) (len : Nat) (o : Op) (s : State)  : memOf (doControl s0 n f lits len o s) = memOf s := by
  fun_cases doControl s0 n f lits len o s <;>
  repeat' first | intro _ | (with_reducible first | rfl | assumption | refine (claim_mem ..).trans ?_ | refine (popRs_mem ..).trans ?_ | refine (pushRs_mem ..).trans ?_ | refine (putFlight_mem ..).trans ?_ | refine (raiseHat_mem ..).trans ?_ | refine (resolveBranch_mem ..).trans ?_ | refine (setRaw_mem ..).trans ?_ | refine (takeBranch_mem ..).trans ?_ | refine (updFacet_mem ..).trans ?_ | refine foldl_eq_mem ?_ ?_ | refine (pair_eq_mem (by assumption)).trans ?_) | (fail_if_no_progress dsimp only) | split

theorem doOp_mem (s0 : State) (n : Nat) (f : Facet) (lits : List (BitVec 48)) (len : Nat) (s : State) (o : Op)  : memOf (doOp s0 n f lits len s o) = memOf s := by
  fun_cases doOp s0 n f lits len s o <;>
  repeat' first | intro _ | (with_reducible first | rfl | assumption | refine (doControl_mem ..).trans ?_ | refine (issueRemote_mem ..).trans ?_ | refine (putFlight_mem ..).trans ?_ | refine (updFacet_mem ..).trans ?_ | refine ite_eq_same ?_ ?_ | refine foldl_eq_mem ?_ ?_) | (fail_if_no_progress dsimp only) | split

theorem retire_mem (n : Nat) (f0 : Facet) (b : List Op) (s : State)  : memOf (retire n f0 b s) = memOf s := by
  fun_cases retire n f0 b s <;>
  repeat' first | intro _ | (with_reducible first | rfl | assumption | refine (drawFree_mem ..).trans ?_ | refine (setFacet_mem ..).trans ?_ | refine ite_eq_same ?_ ?_) | (fail_if_no_progress dsimp only) | split

theorem wf_doRetx {n : Nat} {s : State} (h : Memory.wf (memOf s) = true) : Memory.wf (memOf (doRetx n s)) = true := by
  fun_cases doRetx n s <;>
  repeat' first | intro _ | (with_reducible first | assumption | refine wf_drainFacet ?_ | refine wf_of_eq (updFacet_mem ..) ?_) | (fail_if_no_progress dsimp only) | split

theorem endRetx_mem (n : Nat) (s : State)  : memOf (endRetx n s) = memOf s := by
  fun_cases endRetx n s <;>
  repeat' first | intro _ | (with_reducible first | rfl | assumption | refine (setFacet_mem ..).trans ?_) | (fail_if_no_progress dsimp only) | split

theorem wf_issueBundle {n : Nat} {b : List Op} {s : State} (h : Memory.wf (memOf s) = true) : Memory.wf (memOf (issueBundle n b s)) = true := by
  fun_cases issueBundle n b s <;>
  repeat' first | intro _ | (with_reducible first | assumption | refine wf_doRetx ?_ | refine wf_landDue ?_ | refine wf_of_eq (doOp_mem ..) ?_ | refine wf_of_eq (noteReads_mem ..) ?_ | refine wf_of_eq (retire_mem ..) ?_ | refine wf_of_eq (updFacet_mem ..) ?_ | refine wf_foldl _ ?_ _ _ ?_) | (fail_if_no_progress dsimp only) | split

/-! ### FacetLong -/

theorem putA_mem (n : Nat) (ups : List (Nat × BitVec 48)) (s : State)  : memOf (putA n ups s) = memOf s := by
  fun_cases putA n ups s <;>
  repeat' first | intro _ | (with_reducible first | rfl | refine (updFacet_mem ..).trans ?_) | (fail_if_no_progress dsimp only) | split

theorem putG_mem (n r : Nat) (v : BitVec 64) (s : State)  : memOf (putG n r v s) = memOf s := by
  fun_cases putG n r v s <;>
  repeat' first | intro _ | (with_reducible first | rfl | assumption | refine (updFacet_mem ..).trans ?_) | (fail_if_no_progress dsimp only) | split

theorem wf_longElement {n : Nat} {l : LongOp} {s : State} (h : Memory.wf (memOf s) = true) : Memory.wf (memOf (longElement n l s)) = true := by
  fun_cases longElement n l s <;>
  repeat' first | intro _ | (with_reducible first | assumption | refine wf_writeWord ?_ | refine wf_of_eq (putA_mem ..) ?_ | refine wf_of_eq (putG_mem ..) ?_) | (fail_if_no_progress dsimp only) | split

theorem wf_longRun : ∀ {n k : Nat} {s : State}, Memory.wf (memOf s) = true → Memory.wf (memOf (longRun n k s)) = true := by
  intro n k
  induction k with
  | zero => intro s h; exact h
  | succ k ih =>
    intro s h
    unfold longRun
    split
    · dsimp only
      split
      · exact h
      · exact ih (wf_of_eq (updFacet_mem ..) (wf_longElement (wf_of_eq (noteReads_mem ..) h)))
    · exact h

theorem wf_longTo {n : Nat} {t : Nat} {s : State} (h : Memory.wf (memOf s) = true) : Memory.wf (memOf (longTo n t s)) = true := by
  fun_cases longTo n t s <;>
  repeat' first | intro _ | (with_reducible first | assumption | refine wf_longRun ?_ | refine wf_of_eq (updFacet_mem ..) ?_) | (fail_if_no_progress dsimp only) | split

theorem wf_longLast {n : Nat} {s : State} (h : Memory.wf (memOf s) = true) : Memory.wf (memOf (longLast n s)) = true := by
  fun_cases longLast n s <;>
  repeat' first | intro _ | (with_reducible first | assumption | refine wf_longTo ?_) | (fail_if_no_progress dsimp only) | split

theorem wf_longProgress {n : Nat} {s : State} (h : Memory.wf (memOf s) = true) : Memory.wf (memOf (longProgress n s)) = true := by
  fun_cases longProgress n s <;>
  repeat' first | intro _ | (with_reducible first | assumption | refine wf_longTo ?_ | refine wf_mem_def ?_) | simp only [mk_mem] | (fail_if_no_progress dsimp only) | split

theorem finishLong_mem (n : Nat) (s : State)  : memOf (finishLong n s) = memOf s := by
  fun_cases finishLong n s <;>
  repeat' first | intro _ | (with_reducible first | rfl | assumption | refine (retire_mem ..).trans ?_ | refine (updFacet_mem ..).trans ?_) | (fail_if_no_progress dsimp only) | split

/-! ### Movers -/

theorem setChanState_mem (k v : Nat) (s : State)  : memOf (setChanState k v s) = memOf s := by
  fun_cases setChanState k v s <;>
  repeat' first | intro _ | (with_reducible first | rfl | refine (rput_mem ..).trans ?_) | (fail_if_no_progress dsimp only) | split

theorem wf_chanIdle {k : Nat} {s : State} (h : Memory.wf (memOf s) = true) : Memory.wf (memOf (chanIdle k s)) = true := by
  delta chanIdle
  repeat' first | intro _ | (with_reducible first | assumption | refine wf_of_eq (rbitSet_mem ..) ?_ | refine wf_of_eq (rput_mem ..) ?_ | refine wf_of_eq (setChan_mem ..) ?_ | refine wf_of_eq (setChanState_mem ..) ?_ | refine wf_of_eq (w1sClear_mem ..) ?_ | refine wf_ite_same ?_ ?_) | (fail_if_no_progress dsimp only) | split

theorem wf_endError {k : Nat} {err : Nat} {s : State} (h : Memory.wf (memOf s) = true) : Memory.wf (memOf (endError k err s)) = true := by
  fun_cases endError k err s <;>
  repeat' first | intro _ | (with_reducible first | assumption | refine wf_chanIdle ?_ | refine wf_of_eq (raiseHat_mem ..) ?_ | refine wf_of_eq (raiseSteward_mem ..) ?_ | refine wf_of_eq (rput_mem ..) ?_) | (fail_if_no_progress dsimp only) | split

theorem wf_endComplete {k : Nat} {s : State} (h : Memory.wf (memOf s) = true) : Memory.wf (memOf (endComplete k s)) = true := by
  fun_cases endComplete k s <;>
  repeat' first | intro _ | (with_reducible first | assumption | refine wf_chanIdle ?_ | refine wf_of_eq (raiseHat_mem ..) ?_ | refine wf_of_eq (rput_mem ..) ?_ | refine wf_ite_same ?_ ?_) | (fail_if_no_progress dsimp only) | split

theorem wf_failChan {k : Nat} {err : Nat} {s : State} (h : Memory.wf (memOf s) = true) : Memory.wf (memOf (failChan k err s)) = true := by
  fun_cases failChan k err s <;>
  repeat' first | intro _ | (with_reducible first | assumption | refine wf_endError ?_ | refine wf_of_eq (setChan_mem ..) ?_ | refine wf_of_eq (setFabric_mem ..) ?_) | (fail_if_no_progress dsimp only) | split

theorem wf_takeStart {k : Nat} {s : State} (h : Memory.wf (memOf s) = true) : Memory.wf (memOf (takeStart k s)) = true := by
  fun_cases takeStart k s <;>
  repeat' first | intro _ | (with_reducible first | assumption | refine wf_endError ?_ | refine wf_of_eq (rbitSet_mem ..) ?_ | refine wf_of_eq (rput_mem ..) ?_ | refine wf_of_eq (setChan_mem ..) ?_ | refine wf_of_eq (setChanState_mem ..) ?_) | (fail_if_no_progress dsimp only) | split

theorem wf_movStart {k : Nat} {s : State} (h : Memory.wf (memOf s) = true) : Memory.wf (memOf (movStart k s)) = true := by
  fun_cases movStart k s <;>
  repeat' first | intro _ | (with_reducible first | assumption | refine wf_takeStart ?_ | refine wf_of_eq (rsat_mem ..) ?_ | refine wf_of_eq (setChan_mem ..) ?_) | (fail_if_no_progress dsimp only) | split

theorem wf_movCtlStart {k : Nat} {s : State} (h : Memory.wf (memOf s) = true) : Memory.wf (memOf (movCtlStart k s)) = true := by
  fun_cases movCtlStart k s <;>
  repeat' first | intro _ | (with_reducible first | assumption | refine wf_movStart ?_ | refine wf_of_eq (rbitSet_mem ..) ?_) | (fail_if_no_progress dsimp only) | split

theorem wf_movSink {k : Nat} {s : State} (h : Memory.wf (memOf s) = true) : Memory.wf (memOf (movSink k s)) = true := by
  fun_cases movSink k s <;>
  repeat' first | intro _ | (with_reducible first | assumption | refine wf_movStart ?_ | refine wf_of_eq (setChan_mem ..) ?_ | refine wf_of_eq (setWakes_mem ..) ?_) | (fail_if_no_progress dsimp only) | split

theorem movStop_mem (k : Nat) (s : State)  : memOf (movStop k s) = memOf s := by
  fun_cases movStop k s <;>
  repeat' first | intro _ | (with_reducible first | rfl | assumption | refine (setChan_mem ..).trans ?_ | refine (w1sWrite_mem ..).trans ?_) | (fail_if_no_progress dsimp only) | split

theorem settleEngine_mem (e : Nat) (x : Engine) (s : State)  : memOf (settleEngine e x s) = memOf s := by
  fun_cases settleEngine e x s <;>
  repeat' first | intro _ | (with_reducible first | rfl | assumption | refine (rbitSet_mem ..).trans ?_ | refine (setEngine_mem ..).trans ?_) | (fail_if_no_progress dsimp only) | split

theorem paceChan_mem (k : Nat) (s : State)  : memOf (paceChan k s) = memOf s := by
  fun_cases paceChan k s <;>
  repeat' first | intro _ | (with_reducible first | rfl | assumption | refine (setChanState_mem ..).trans ?_) | (fail_if_no_progress dsimp only) | split

theorem stopAgain_mem (k : Nat) (s : State)  : memOf (stopAgain k s) = memOf s := by
  fun_cases stopAgain k s <;>
  repeat' first | intro _ | (with_reducible first | rfl | refine (movStop_mem ..).trans ?_ | refine (rbitSet_mem ..).trans ?_ | refine (setChan_mem ..).trans ?_) | (fail_if_no_progress dsimp only) | split

theorem wf_moversTick {s : State} (h : Memory.wf (memOf s) = true) : Memory.wf (memOf (moversTick s)) = true := by
  fun_cases moversTick s <;>
  repeat' first | intro _ | (with_reducible first | assumption | refine wf_takeStart ?_ | refine wf_of_eq (paceChan_mem ..) ?_ | refine wf_of_eq (settleEngine_mem ..) ?_ | refine wf_of_eq (stopAgain_mem ..) ?_ | refine wf_foldl _ ?_ _ _ ?_) | (fail_if_no_progress dsimp only) | split

theorem wf_chanWrite {k : Nat} {o : Nat} {v : BitVec 64} {by_ : Agent} {s : State} (h : Memory.wf (memOf s) = true) : Memory.wf (memOf (chanWrite k o v by_ s).2) = true := by
  fun_cases chanWrite k o v by_ s <;>
  repeat' first | intro _ | (with_reducible first | assumption | refine wf_movCtlStart ?_ | refine wf_of_eq (movStop_mem ..) ?_ | refine wf_of_eq (rbitSet_mem ..) ?_ | refine wf_of_eq (rput_mem ..) ?_ | refine wf_of_eq (rset_mem ..) ?_ | refine wf_of_eq (rw1c_mem ..) ?_ | refine wf_of_eq (tellSteward_mem ..) ?_ | refine wf_ite_same ?_ ?_) | (fail_if_no_progress dsimp only) | split

/-! ### Timers -/

theorem hatRef_mem (i : Nat) (s : State)  : memOf (hatRef i s) = memOf s := by
  fun_cases hatRef i s <;>
  repeat' first | intro _ | (with_reducible first | rfl | refine (rbitSet_mem ..).trans ?_) | (fail_if_no_progress dsimp only) | split

theorem hatLockref_mem (s : State)  : memOf (hatLockref s) = memOf s := by
  fun_cases hatLockref s <;>
  repeat' first | intro _ | (with_reducible first | rfl | assumption | refine (noteHit_mem ..).trans ?_ | refine (hatRef_mem ..).trans ?_ | refine (raiseGirdle_mem ..).trans ?_) | (fail_if_no_progress dsimp only) | split

theorem lctlPut_mem (i : Nat) (v : BitVec 64) (s : State)  : memOf (lctlPut i v s) = memOf s := by
  fun_cases lctlPut i v s <;>
  repeat' first | intro _ | (with_reducible first | rfl | assumption | refine (rbitSet_mem ..).trans ?_ | refine (rset_mem ..).trans ?_) | (fail_if_no_progress dsimp only) | split

theorem lperPut_mem (i : Nat) (v : BitVec 64) (s : State)  : memOf (lperPut i v s) = memOf s := by
  fun_cases lperPut i v s <;>
  repeat' first | intro _ | (with_reducible first | rfl | assumption | refine (rbitSet_mem ..).trans ?_ | refine (rset_mem ..).trans ?_) | (fail_if_no_progress dsimp only) | split

theorem timerPut_mem (w : Nat × (Nat × BitVec 64)) (s : State)  : memOf (timerPut w s) = memOf s := by
  fun_cases timerPut w s <;>
  repeat' first | intro _ | (with_reducible first | rfl | refine (lctlPut_mem ..).trans ?_ | refine (lperPut_mem ..).trans ?_ | refine (rset_mem ..).trans ?_) | (fail_if_no_progress dsimp only) | split

theorem timerAccept_mem (i o : Nat) (v : BitVec 64) (s : State)  : memOf (timerAccept i o v s) = memOf s := by
  fun_cases timerAccept i o v s <;>
  repeat' first | intro _ | (with_reducible first | rfl | refine (setTimWrites_mem ..).trans ?_) | (fail_if_no_progress dsimp only) | split

theorem timersTick_mem (s : State)  : memOf (timersTick s) = memOf s := by
  fun_cases timersTick s <;>
  repeat' first | intro _ | (with_reducible first | rfl | refine (setTimWrites_mem ..).trans ?_ | refine (timerPut_mem ..).trans ?_ | refine foldl_eq_mem ?_ ?_) | (fail_if_no_progress dsimp only) | split

/-! ### Clock -/

theorem atE4_mem (n : Nat) (s : State)  : memOf (atE4 n s) = memOf s := by
  fun_cases atE4 n s <;>
  repeat' first | intro _ | (with_reducible first | rfl | assumption | refine (setFacet_mem ..).trans ?_) | (fail_if_no_progress dsimp only) | split

theorem atX1_mem (n : Nat) (s : State)  : memOf (atX1 n s) = memOf s := by
  fun_cases atX1 n s <;>
  repeat' first | intro _ | (with_reducible first | rfl | assumption | refine (endRetx_mem ..).trans ?_) | (fail_if_no_progress dsimp only) | split

theorem wf_facetClock {k : Nat} {n : Nat} {s : State} (h : Memory.wf (memOf s) = true) : Memory.wf (memOf (facetClock k n s)) = true := by
  fun_cases facetClock k n s <;>
  repeat' first | intro _ | (with_reducible first | assumption | refine wf_longProgress ?_ | refine wf_of_eq (atE4_mem ..) ?_ | refine wf_of_eq (atX1_mem ..) ?_ | refine wf_of_eq (setFacet_mem ..) ?_ | refine wf_of_eq (updFacet_mem ..) ?_) | (fail_if_no_progress dsimp only) | split

theorem wf_eachFacet {g : Nat → State → State} (hg : ∀ n s, Memory.wf (memOf s) = true → Memory.wf (memOf (g n s)) = true) {s : State}
    (h : Memory.wf (memOf s) = true) : Memory.wf (memOf (eachFacet g s)) = true :=
  wf_foldl _ (fun s n hs => hg n s hs) _ _ h

theorem wf_tick {k : Nat} {s : State} (h : Memory.wf (memOf s) = true) : Memory.wf (memOf (tick k s)) = true := by
  have h1 := wf_eachFacet (g := fun n s => if crownUp s (crownOf n) then longLast n s else s)
    (fun n s hs => wf_ite (wf_longLast hs) hs) h
  unfold tick
  extract_lets s1 t st s2 s3 s4
  have h2 : Memory.wf (memOf s2) = true := h1
  clear_value s2
  have h3 : Memory.wf (memOf s3) = true := wf_of_eq (copiesTick_mem ..) (wf_of_eq (timersTick_mem ..) (wf_intsTick h2))
  clear_value s3
  have h4 : Memory.wf (memOf s4) = true := by
    simp only [s4]; split
    · exact wf_of_eq ((rbitSet_mem ..).trans (rbitSet_mem ..)) h3
    · exact h3
  exact wf_moversTick (wf_eachFacet (fun n s hs => wf_facetClock hs) h4)

theorem wf_advance {k : Nat} {s : State} (h : Memory.wf (memOf s) = true) : Memory.wf (memOf (advance k s)) = true := by
  fun_cases advance k s <;>
  repeat' first | intro _ | (with_reducible first | assumption | refine wf_tick ?_) | (fail_if_no_progress dsimp only) | split

theorem wf_advanceTo {f : Nat} {s : State} (h : Memory.wf (memOf s) = true) : Memory.wf (memOf (advanceTo f s)) = true := by
  fun_cases advanceTo f s <;>
  repeat' first | intro _ | (with_reducible first | assumption | refine wf_advance ?_) | (fail_if_no_progress dsimp only) | split

theorem wf_advanceTick {t : Nat} {s : State} (h : Memory.wf (memOf s) = true) : Memory.wf (memOf (advanceTick t s)) = true := by
  fun_cases advanceTick t s <;>
  repeat' first | intro _ | (with_reducible first | assumption | refine wf_advance ?_) | (fail_if_no_progress dsimp only) | split

/-! ### FacetReset -/

theorem wf_clearRange {lo : Nat} {hi : Nat} {s : State} (h : Memory.wf (memOf s) = true) : Memory.wf (memOf (clearRange lo hi s)) = true := by
  fun_cases clearRange lo hi s <;>
  repeat' first | intro _ | (with_reducible first | assumption | refine wf_setMem ?_ | refine wf_tclear _ _ ?_ | refine wf_mem_def ?_) | (fail_if_no_progress dsimp only) | split

theorem wf_loadWords {a : Nat} {ws : List (BitVec 64)} {s : State} (h : Memory.wf (memOf s) = true) : Memory.wf (memOf (loadWords a ws s)) = true := by
  fun_cases loadWords a ws s <;>
  repeat' first | intro _ | (with_reducible first | assumption | refine wf_poke ?_ | refine wf_of_eq (setVbits_mem ..) ?_ | refine wf_foldl _ ?_ _ _ ?_) | (fail_if_no_progress dsimp only) | split

theorem wf_sealLoadFacet {conf : SealedConf} {n : Nat} {s : State} (h : Memory.wf (memOf s) = true) : Memory.wf (memOf (sealLoadFacet conf n s)) = true := by
  fun_cases sealLoadFacet conf n s <;>
  repeat' first | intro _ | (with_reducible first | assumption | refine wf_loadWords ?_ | refine wf_of_eq (updFacet_mem ..) ?_ | refine wf_ite_same ?_ ?_ | refine wf_foldl _ ?_ _ _ ?_) | (fail_if_no_progress dsimp only) | split

theorem facetRun_mem (n : Nat) (s : State)  : memOf (facetRun n s) = memOf s := by
  fun_cases facetRun n s <;>
  repeat' first | intro _ | (with_reducible first | rfl | refine (updFacet_mem ..).trans ?_) | (fail_if_no_progress dsimp only) | split

theorem latchReport_mem (n : Nat) (ws : List (BitVec 64)) (s : State)  : memOf (latchReport n ws s) = memOf s := by
  fun_cases latchReport n ws s <;>
  repeat' first | intro _ | (with_reducible first | rfl | assumption | refine (raiseSteward_mem ..).trans ?_ | refine (rbitSet_mem ..).trans ?_ | refine (rset_mem ..).trans ?_ | refine ite_eq_same ?_ ?_ | refine foldl_eq_mem ?_ ?_) | (fail_if_no_progress dsimp only) | split

theorem wf_partitionRestart {n : Nat} {reason : Nat} {cause : Nat} {idx : Nat} {s : State} (h : Memory.wf (memOf s) = true) : Memory.wf (memOf (partitionRestart n reason cause idx s)) = true := by
  fun_cases partitionRestart n reason cause idx s <;>
  repeat' first | intro _ | (with_reducible first | assumption | refine wf_audit ?_ | refine wf_clearRange ?_ | refine wf_sealLoadFacet ?_ | refine wf_of_eq (facetRun_mem ..) ?_ | refine wf_of_eq (rsat_mem ..) ?_ | refine wf_of_eq (setMetro_mem ..) ?_ | refine wf_of_eq (updFacet_mem ..) ?_) | (fail_if_no_progress dsimp only) | split

theorem clearFacet_mem (n : Nat) (s : State)  : memOf (clearFacet n s) = memOf s := by
  fun_cases clearFacet n s <;>
  repeat' first | intro _ | (with_reducible first | rfl | assumption | refine (setFacet_mem ..).trans ?_ | refine (setIntc_mem ..).trans ?_ | refine (setInts_mem ..).trans ?_ | refine (setRaw_mem ..).trans ?_) | (fail_if_no_progress dsimp only) | split

theorem wf_facetReset {n : Nat} {reason : Nat} {cause : Nat} {s : State} (h : Memory.wf (memOf s) = true) : Memory.wf (memOf (facetReset n reason cause s)) = true := by
  fun_cases facetReset n reason cause s <;>
  repeat' first | intro _ | (with_reducible first | assumption | refine wf_partitionRestart ?_ | refine wf_of_eq (clearFacet_mem ..) ?_ | refine wf_of_eq (latchReport_mem ..) ?_ | refine wf_of_eq (logReset_mem ..) ?_ | refine wf_ite_same ?_ ?_) | (fail_if_no_progress dsimp only) | split

/-! ### Resets -/

theorem forgetWrites_mem (k : Nat) (s : State)  : memOf (forgetWrites k s) = memOf s := by
  fun_cases forgetWrites k s <;>
  repeat' first | intro _ | (with_reducible first | rfl | assumption | refine (setFabric_mem ..).trans ?_ | refine (setHeldWrites_mem ..).trans ?_) | (fail_if_no_progress dsimp only) | split

theorem wf_abortChannel {err : Nat} {k : Nat} {s : State} (h : Memory.wf (memOf s) = true) : Memory.wf (memOf (abortChannel err k s)) = true := by
  fun_cases abortChannel err k s <;>
  repeat' first | intro _ | (with_reducible first | assumption | refine wf_endError ?_ | refine wf_of_eq (forgetWrites_mem ..) ?_) | (fail_if_no_progress dsimp only) | split

theorem dropCrownResv_mem (c : Nat) (s : State)  : memOf (dropCrownResv c s) = memOf s := by
  fun_cases dropCrownResv c s <;>
  repeat' first | intro _ | (with_reducible first | rfl | refine (setFacet_mem ..).trans ?_ | refine foldl_eq_mem ?_ ?_) | (fail_if_no_progress dsimp only) | split

theorem wf_crownReset {c : Nat} {cause : Nat} {s : State} (h : Memory.wf (memOf s) = true) : Memory.wf (memOf (crownReset c cause s)) = true := by
  fun_cases crownReset c cause s <;>
  repeat' first | intro _ | (with_reducible first | assumption | refine wf_abortChannel ?_ | refine wf_facetReset ?_ | refine wf_of_eq (copyRestart_mem ..) ?_ | refine wf_of_eq (dropCrownResv_mem ..) ?_ | refine wf_of_eq (logReset_mem ..) ?_ | refine wf_of_eq (setEngines_mem ..) ?_ | refine wf_foldl _ ?_ _ _ ?_) | (fail_if_no_progress dsimp only) | split

theorem wf_packageKept {aon : Bool} {s : State} (h : Memory.wf (memOf s) = true) : Memory.wf (memOf (packageKept aon s)) = true :=
  wf_filter _ h

theorem wf_packageReset {cause : Nat} {s : State} (h : Memory.wf (memOf s) = true) : Memory.wf (memOf (packageReset cause s)) = true := by
  fun_cases packageReset cause s <;>
  repeat' first | intro _ | (with_reducible first | assumption | refine wf_cancelMetro ?_ | refine wf_packageKept ?_ | refine wf_of_eq (logReset_mem ..) ?_ | refine wf_of_eq (rbitSet_mem ..) ?_ | refine wf_of_eq (rset_mem ..) ?_) | (fail_if_no_progress dsimp only) | split

theorem wf_resetOwner {a : Nat} {s : State} (h : Memory.wf (memOf s) = true) : Memory.wf (memOf (resetOwner a s)) = true := by
  fun_cases resetOwner a s <;>
  repeat' first | intro _ | (with_reducible first | assumption | refine wf_crownReset ?_ | refine wf_facetReset ?_ | refine wf_packageReset ?_ | refine wf_of_eq (addRec5_mem ..) ?_ | refine wf_of_eq (rbitSet_mem ..) ?_) | (fail_if_no_progress dsimp only) | split

theorem markDataLost_mem (ws : List Nat) (s : State)  : memOf (markDataLost ws s) = memOf s := by
  fun_cases markDataLost ws s <;>
  repeat' first | intro _ | (with_reducible first | rfl | assumption | refine (setChan_mem ..).trans ?_ | refine ite_eq_same ?_ ?_ | refine foldl_eq_mem ?_ ?_) | (fail_if_no_progress dsimp only) | split

theorem wf_reconstruct {page : Nat} {port : Nat} {outside : List (Fin 128)} {sideBad : Bool} {s : State} (h : Memory.wf (memOf s) = true) : Memory.wf (memOf (reconstruct page port outside sideBad s)) = true := by
  fun_cases reconstruct page port outside sideBad s <;>
  repeat' first | intro _ | (with_reducible first | assumption | refine wf_reconstructPage ?_ | refine wf_resetOwner ?_ | refine wf_of_eq (markDataLost_mem ..) ?_ | refine wf_of_eq (pair_eq_mem (by assumption)) ?_) | (fail_if_no_progress dsimp only) | split

theorem wf_mendWords {port : Nat} {ws : List Nat} {s : State} (h : Memory.wf (memOf s) = true) : Memory.wf (memOf (mendWords port ws s)) = true := by
  fun_cases mendWords port ws s <;>
  repeat' first | intro _ | (with_reducible first | assumption | refine wf_reconstruct ?_ | refine wf_ite_same ?_ ?_ | refine wf_foldl _ ?_ _ _ ?_) | (fail_if_no_progress dsimp only) | split

end Sys2Proof.Laws
end

