-- ==== Sys2Proof/Laws/MemUnits.lean ====
section
/-! SUPPORT. Memory keeps its canonical form under the integrity units, cells, blockers, interrupts, time, the hatband, sessions, feeds. -/
namespace Sys2Proof.Laws
open Sys2Proof.Machine
set_option maxRecDepth 20000

/-! ### Integrity -/

theorem wf_execReconstruction {page : Nat} {port : Fin 8} {erased : List (Fin 128)} {sideBad : Bool} {s : State} {t__} (hx : execReconstruction page port erased sideBad s = .next t__) (h : Memory.wf (memOf s) = true) : Memory.wf (memOf t__) = true := by
  revert hx
  fun_cases execReconstruction page port erased sideBad s <;> intro hx
  all_goals first
    | (cases hx; done)
    | (have e__ := gate_next hx; subst e__; repeat' first | intro _ | (with_reducible first | assumption | refine wf_reconstruct ?_) | (fail_if_no_progress dsimp only) | split)

theorem scrubWrite_mem (u : Nat) (v : BitVec 64) (s : State)  : memOf (scrubWrite u v s) = memOf s := by
  fun_cases scrubWrite u v s <;>
  repeat' first | intro _ | (with_reducible first | rfl | assumption | refine (itgEvt_mem ..).trans ?_ | refine (rbitSet_mem ..).trans ?_ | refine (rset_mem ..).trans ?_ | refine (setInteg_mem ..).trans ?_) | (fail_if_no_progress dsimp only) | split

theorem execItgScrubStart_mem (u : Fin 17) (v : BitVec 64) (s : State)  {t__} (h : execItgScrubStart u v s = .next t__) : memOf t__ = memOf s := by
  revert h
  fun_cases execItgScrubStart u v s <;> intro h
  all_goals first
    | (cases h; done)
    | (have e__ := next_inj h; subst e__; repeat' first | intro _ | (with_reducible first | rfl | refine (scrubWrite_mem ..).trans ?_) | (fail_if_no_progress dsimp only) | split)

theorem writeBack_mem (u w : Nat) (r : RawWord) (s : State)  : memOf (writeBack u w r s) = memOf s := by
  fun_cases writeBack u w r s <;>
  repeat' first | intro _ | (with_reducible first | rfl | assumption | refine (markRewritten_mem ..).trans ?_ | refine (rsat_mem ..).trans ?_ | refine (setMarks_mem ..).trans ?_ | refine (setRawWords_mem ..).trans ?_ | refine ite_eq_same ?_ ?_) | (fail_if_no_progress dsimp only) | split

theorem wf_scrubRead {u : Nat} {w : Nat} {s : State} (h : Memory.wf (memOf s) = true) : Memory.wf (memOf (scrubRead u w s)) = true := by
  fun_cases scrubRead u w s <;>
  repeat' first | intro _ | (with_reducible first | assumption | refine wf_reconstructPage ?_ | refine wf_resetOwner ?_ | refine wf_of_eq (noteReads_mem ..) ?_ | refine wf_of_eq (rsat_mem ..) ?_ | refine wf_of_eq (writeBack_mem ..) ?_) | (fail_if_no_progress dsimp only) | split

theorem wf_scrubWord {u : Nat} {w : Nat} {s : State} (h : Memory.wf (memOf s) = true) : Memory.wf (memOf (scrubWord u w s)) = true := by
  fun_cases scrubWord u w s <;>
  repeat' first | intro _ | (with_reducible first | assumption | refine wf_scrubRead ?_ | refine wf_of_eq (rsat_mem ..) ?_) | (fail_if_no_progress dsimp only) | split

theorem wf_scrubRange {u : Nat} {a : Nat} {n : Nat} {s : State} (h : Memory.wf (memOf s) = true) : Memory.wf (memOf (scrubRange u a n s)) = true := by
  fun_cases scrubRange u a n s <;>
  repeat' first | intro _ | (with_reducible first | assumption | refine wf_scrubWord ?_ | refine wf_of_eq (rsat_mem ..) ?_ | refine wf_foldl _ ?_ _ _ ?_) | (fail_if_no_progress dsimp only) | split

theorem wf_scrubPass {u : Nat} {st : Nat} {f : Nat} {first : Nat} {n : Nat} {s : State} (h : Memory.wf (memOf s) = true) : Memory.wf (memOf (scrubPass u st f first n s)) = true := by
  fun_cases scrubPass u st f first n s <;>
  repeat' first | intro _ | (with_reducible first | assumption | refine wf_scrubRange ?_ | refine wf_of_eq (rsat_mem ..) ?_) | (fail_if_no_progress dsimp only) | split

theorem scrubEnd_mem (u st : Nat) (s : State)  : memOf (scrubEnd u st s) = memOf s := by
  fun_cases scrubEnd u st s <;>
  repeat' first | intro _ | (with_reducible first | rfl | refine (itgEvt_mem ..).trans ?_ | refine (rbitSet_mem ..).trans ?_ | refine (setInteg_mem ..).trans ?_) | (fail_if_no_progress dsimp only) | split

theorem wf_execScrubPassDone {u : Fin 17} {s : State} {t__} (hx : execScrubPassDone u s = .next t__) (h : Memory.wf (memOf s) = true) : Memory.wf (memOf t__) = true := by
  revert hx
  fun_cases execScrubPassDone u s <;> intro hx
  all_goals first
    | (cases hx; done)
    | (have e__ := gate_next hx; subst e__; repeat' first | intro _ | (with_reducible first | assumption | refine wf_advanceTo ?_ | refine wf_scrubPass ?_ | refine wf_of_eq (scrubEnd_mem ..) ?_) | (fail_if_no_progress dsimp only) | split)

theorem showSpares_mem (c l : Nat) (s : State)  : memOf (showSpares c l s) = memOf s := by
  fun_cases showSpares c l s <;>
  repeat' first | intro _ | (with_reducible first | rfl | refine (rput_mem ..).trans ?_) | (fail_if_no_progress dsimp only) | split

theorem wf_copied {c : Nat} {l : Nat} {s : State} (h : Memory.wf (memOf s) = true) : Memory.wf (memOf (copied c l s)) = true := by
  fun_cases copied c l s <;>
  repeat' first | intro _ | (with_reducible first | assumption | refine wf_mendWords ?_ | refine wf_of_eq (noteReads_mem ..) ?_ | refine wf_of_eq (setRawWords_mem ..) ?_ | refine wf_of_eq (setSideDev_mem ..) ?_) | (fail_if_no_progress dsimp only) | split

theorem retireInto_mem (c l sp : Nat) (s : State)  : memOf (retireInto c l sp s) = memOf s := by
  fun_cases retireInto c l sp s <;>
  repeat' first | intro _ | (with_reducible first | rfl | refine (addRec5_mem ..).trans ?_ | refine (itgEvt_mem ..).trans ?_ | refine (rput_mem ..).trans ?_ | refine (setInteg_mem ..).trans ?_ | refine (showSpares_mem ..).trans ?_) | (fail_if_no_progress dsimp only) | split

theorem retireWrite_mem (c : Nat) (v : BitVec 64) (s : State)  : memOf (retireWrite c v s) = memOf s := by
  fun_cases retireWrite c v s <;>
  repeat' first | intro _ | (with_reducible first | rfl | assumption | refine (itgEvt_mem ..).trans ?_ | refine (rset_mem ..).trans ?_ | refine (setInteg_mem ..).trans ?_) | (fail_if_no_progress dsimp only) | split

theorem execItgRetireStart_mem (c : Fin 16) (v : BitVec 64) (s : State)  {t__} (h : execItgRetireStart c v s = .next t__) : memOf t__ = memOf s := by
  revert h
  fun_cases execItgRetireStart c v s <;> intro h
  all_goals first
    | (cases h; done)
    | (have e__ := next_inj h; subst e__; repeat' first | intro _ | (with_reducible first | rfl | refine (retireWrite_mem ..).trans ?_) | (fail_if_no_progress dsimp only) | split)

theorem wf_execRetirementDone {c : Fin 16} {s : State} {t__} (hx : execRetirementDone c s = .next t__) (h : Memory.wf (memOf s) = true) : Memory.wf (memOf t__) = true := by
  revert hx
  fun_cases execRetirementDone c s <;> intro hx
  all_goals first
    | (cases hx; done)
    | (have e__ := gate_next hx; subst e__; repeat' first | intro _ | (with_reducible first | assumption | refine wf_copied ?_ | refine wf_of_eq (rbitSet_mem ..) ?_ | refine wf_of_eq (retireInto_mem ..) ?_ | refine wf_of_eq (setInteg_mem ..) ?_) | (fail_if_no_progress dsimp only) | split)

theorem wf_pounceStart {c : Nat} {l : Nat} {s : State} (h : Memory.wf (memOf s) = true) : Memory.wf (memOf (pounceStart c l s)) = true := by
  fun_cases pounceStart c l s <;>
  repeat' first | intro _ | (with_reducible first | assumption | refine wf_copied ?_ | refine wf_of_eq (rset_mem ..) ?_ | refine wf_of_eq (setInteg_mem ..) ?_) | (fail_if_no_progress dsimp only) | split

theorem wf_execPounceIntervalExpiry {c : Fin 16} {s : State} {t__} (hx : execPounceIntervalExpiry c s = .next t__)
    (h : Memory.wf (memOf s) = true) : Memory.wf (memOf t__) = true := by
  unfold execPounceIntervalExpiry at hx
  dsimp only at hx
  split at hx
  · have e := gateAt_next hx
    subst e
    exact wf_pounceStart (wf_advanceTo h)
  · cases hx

theorem wf_copyBack {c : Nat} {l : Nat} {s : State} (h : Memory.wf (memOf s) = true) : Memory.wf (memOf (copyBack c l s)) = true := by
  fun_cases copyBack c l s <;>
  repeat' first | intro _ | (with_reducible first | assumption | refine wf_copied ?_ | refine wf_of_eq (rput_mem ..) ?_ | refine wf_of_eq (setInteg_mem ..) ?_) | (fail_if_no_progress dsimp only) | split

theorem wf_pounceFail {c : Nat} {l : Nat} {sp : Nat} {s : State} (h : Memory.wf (memOf s) = true) : Memory.wf (memOf (pounceFail c l sp s)) = true := by
  fun_cases pounceFail c l sp s <;>
  repeat' first | intro _ | (with_reducible first | assumption | refine wf_copied ?_ | refine wf_of_eq (itgEvt_mem ..) ?_ | refine wf_of_eq (pounceIdle_mem ..) ?_ | refine wf_of_eq (retireInto_mem ..) ?_) | (fail_if_no_progress dsimp only) | split

theorem wf_execPounceTestDone {c : Fin 16} {pass : Bool} {s : State} {t__} (hx : execPounceTestDone c pass s = .next t__) (h : Memory.wf (memOf s) = true) : Memory.wf (memOf t__) = true := by
  revert hx
  fun_cases execPounceTestDone c pass s <;> intro hx
  all_goals first
    | (cases hx; done)
    | (have e__ := gate_next hx; subst e__; repeat' first | intro _ | (with_reducible first | assumption | refine wf_advanceTo ?_ | refine wf_copyBack ?_ | refine wf_pounceFail ?_) | (fail_if_no_progress dsimp only) | split)

theorem wf_storeRaw {w : Nat} {r : RawWord} {desc : Option (BitVec 130)} {s : State} (h : Memory.wf (memOf s) = true) : Memory.wf (memOf (storeRaw w r desc s)) = true := by
  fun_cases storeRaw w r desc s <;>
  repeat' first | intro _ | (with_reducible first | assumption | refine wf_putWordSym ?_ | refine wf_of_eq (setRawWords_mem ..) ?_ | refine wf_of_eq (setSideDev_mem ..) ?_ | refine wf_ite_same ?_ ?_ | refine wf_of_eq (pair_eq_mem (by assumption)) ?_ | refine wf_mem_def ?_) | simp only [mk_mem] | (fail_if_no_progress dsimp only) | split

theorem wf_testGo {c : Nat} {v : BitVec 64} {s : State} (h : Memory.wf (memOf s) = true) : Memory.wf (memOf (testGo c v s)) = true := by
  fun_cases testGo c v s <;>
  repeat' first | intro _ | (with_reducible first | assumption | refine wf_storeRaw ?_ | refine wf_of_eq (markRewritten_mem ..) ?_ | refine wf_of_eq (rbitSet_mem ..) ?_ | refine wf_of_eq (rset_mem ..) ?_) | (fail_if_no_progress dsimp only) | split

theorem wf_testWrite {c : Nat} {v : BitVec 64} {s : State} (h : Memory.wf (memOf s) = true) : Memory.wf (memOf (testWrite c v s)) = true := by
  fun_cases testWrite c v s <;>
  repeat' first | intro _ | (with_reducible first | assumption | refine wf_testGo ?_ | refine wf_of_eq (itgEvt_mem ..) ?_ | refine wf_of_eq (rset_mem ..) ?_) | (fail_if_no_progress dsimp only) | split

theorem wf_execItgTctlGo {c : Fin 16} {v : BitVec 64} {s : State} {t__} (hx : execItgTctlGo c v s = .next t__) (h : Memory.wf (memOf s) = true) : Memory.wf (memOf t__) = true := by
  revert hx
  fun_cases execItgTctlGo c v s <;> intro hx
  all_goals first
    | (cases hx; done)
    | (have e__ := gate_next hx; subst e__; repeat' first | intro _ | (with_reducible first | assumption | refine wf_testWrite ?_) | (fail_if_no_progress dsimp only) | split)

theorem wf_itgWrite {u : Nat} {o : Nat} {v : BitVec 64} {s : State} (h : Memory.wf (memOf s) = true) : Memory.wf (memOf (itgWrite u o v s)) = true := by
  fun_cases itgWrite u o v s <;>
  repeat' first | intro _ | (with_reducible first | assumption | refine wf_testWrite ?_ | refine wf_of_eq (retireWrite_mem ..) ?_ | refine wf_of_eq (rput_mem ..) ?_ | refine wf_of_eq (rset_mem ..) ?_ | refine wf_of_eq (rw1c_mem ..) ?_ | refine wf_of_eq (scrubWrite_mem ..) ?_ | refine wf_of_eq (setInteg_mem ..) ?_) | (fail_if_no_progress dsimp only) | split

theorem logWrite_mem (u o : Nat) (v : BitVec 64) (s : State)  : memOf (logWrite u o v s) = memOf s := by
  fun_cases logWrite u o v s <;>
  repeat' first | intro _ | (with_reducible first | rfl | assumption | refine (logFree_mem ..).trans ?_) | (fail_if_no_progress dsimp only) | split

/-! ### Cells -/

theorem updCell_mem (p : Nat) (h : Cell → Cell) (s : State)  : memOf (updCell p h s) = memOf s := by
  fun_cases updCell p h s <;>
  repeat' first | intro _ | (with_reducible first | rfl | refine (setCell_mem ..).trans ?_) | (fail_if_no_progress dsimp only) | split

theorem latchEvent_mem (p i : Nat) (s : State)  : memOf (latchEvent p i s) = memOf s := by
  fun_cases latchEvent p i s <;>
  repeat' first | intro _ | (with_reducible first | rfl | assumption | refine (setThread_mem ..).trans ?_) | (fail_if_no_progress dsimp only) | split

theorem cellEvent_mem (p cond : Nat) (s : State)  : memOf (cellEvent p cond s) = memOf s := by
  fun_cases cellEvent p cond s <;>
  repeat' first | intro _ | (with_reducible first | rfl | assumption | refine (latchEvent_mem ..).trans ?_ | refine (raiseHat_mem ..).trans ?_ | refine (rput_mem ..).trans ?_ | refine (rset_mem ..).trans ?_ | refine ite_eq_same ?_ ?_ | refine foldl_eq_mem ?_ ?_) | (fail_if_no_progress dsimp only) | split

theorem cellStat_mem (p i : Nat) (s : State)  : memOf (cellStat p i s) = memOf s := by
  fun_cases cellStat p i s <;>
  repeat' first | intro _ | (with_reducible first | rfl | refine (rbitSet_mem ..).trans ?_) | (fail_if_no_progress dsimp only) | split

theorem rxPush_mem (p : Nat) (b : Byte) (s : State)  : memOf (rxPush p b s) = memOf s := by
  fun_cases rxPush p b s <;>
  repeat' first | intro _ | (with_reducible first | rfl | assumption | refine (cellEvent_mem ..).trans ?_ | refine (cellStat_mem ..).trans ?_ | refine (latchEvent_mem ..).trans ?_ | refine (setCell_mem ..).trans ?_) | (fail_if_no_progress dsimp only) | split

theorem rxPushAll_mem (p : Nat) (bs : List Byte) (s : State)  : memOf (rxPushAll p bs s) = memOf s := by
  fun_cases rxPushAll p bs s <;>
  repeat' first | intro _ | (with_reducible first | rfl | refine (rxPush_mem ..).trans ?_ | refine foldl_eq_mem ?_ ?_) | (fail_if_no_progress dsimp only) | split

theorem txAfter_mem (p before : Nat) (s : State)  : memOf (txAfter p before s) = memOf s := by
  fun_cases txAfter p before s <;>
  repeat' first | intro _ | (with_reducible first | rfl | assumption | refine (cellEvent_mem ..).trans ?_ | refine (latchEvent_mem ..).trans ?_) | (fail_if_no_progress dsimp only) | split

theorem txTake_mem (p n : Nat) (s : State)  : memOf (txTake p n s).2 = memOf s := by
  fun_cases txTake p n s <;>
  repeat' first | intro _ | (with_reducible first | rfl | refine (setCell_mem ..).trans ?_ | refine (txAfter_mem ..).trans ?_) | (fail_if_no_progress dsimp only) | split

theorem txWrite_mem (p : Nat) (bs : List Byte) (s : State)  : memOf (txWrite p bs s) = memOf s := by
  fun_cases txWrite p bs s <;>
  repeat' first | intro _ | (with_reducible first | rfl | assumption | refine (cellStat_mem ..).trans ?_ | refine (setCell_mem ..).trans ?_) | (fail_if_no_progress dsimp only) | split

theorem rxRead_mem (p n : Nat) (s : State)  : memOf (rxRead p n s).2.2 = memOf s := by
  fun_cases rxRead p n s <;>
  repeat' first | intro _ | (with_reducible first | rfl | assumption | refine (cellStat_mem ..).trans ?_ | refine (setCell_mem ..).trans ?_ | refine ite_eq_same ?_ ?_) | (fail_if_no_progress dsimp only) | split

theorem flushRxFifo_mem (p : Nat) (s : State)  : memOf (flushRxFifo p s) = memOf s := by
  fun_cases flushRxFifo p s <;>
  repeat' first | intro _ | (with_reducible first | rfl | refine (updCell_mem ..).trans ?_) | (fail_if_no_progress dsimp only) | split

theorem flushTxFifo_mem (p : Nat) (s : State)  : memOf (flushTxFifo p s) = memOf s := by
  fun_cases flushTxFifo p s <;>
  repeat' first | intro _ | (with_reducible first | rfl | refine (txTake_mem ..).trans ?_) | (fail_if_no_progress dsimp only) | split

theorem showPads_mem (p : Nat) (s : State)  : memOf (showPads p s) = memOf s := by
  fun_cases showPads p s <;>
  repeat' first | intro _ | (with_reducible first | rfl | refine (emit_mem ..).trans ?_) | (fail_if_no_progress dsimp only) | split

theorem sendBits_mem (p start n : Nat) (bits : List Bool) (s : State)  : memOf (sendBits p start n bits s) = memOf s := by
  fun_cases sendBits p start n bits s <;>
  repeat' first | intro _ | (with_reducible first | rfl | refine (emit_mem ..).trans ?_ | refine (updCell_mem ..).trans ?_ | refine foldl_eq_mem ?_ ?_) | (fail_if_no_progress dsimp only) | split

theorem startBurst_mem (n q : Nat) (s : State)  : memOf (startBurst n q s) = memOf s := by
  fun_cases startBurst n q s <;>
  repeat' first | intro _ | (with_reducible first | rfl | assumption | refine (cellStat_mem ..).trans ?_ | refine (showPads_mem ..).trans ?_ | refine (updCell_mem ..).trans ?_ | refine ite_eq_same ?_ ?_) | (fail_if_no_progress dsimp only) | split

theorem launch0_mem (p : Nat) (s : State)  : memOf (launch0 p s) = memOf s := by
  fun_cases launch0 p s <;>
  repeat' first | intro _ | (with_reducible first | rfl | assumption | refine (rsat_mem ..).trans ?_ | refine (startBurst_mem ..).trans ?_ | refine (updCell_mem ..).trans ?_ | refine foldl_eq_mem ?_ ?_) | (fail_if_no_progress dsimp only) | split

theorem setGpio_mem (p : Nat) (v : Bool) (s : State)  : memOf (setGpio p v s) = memOf s := by
  fun_cases setGpio p v s <;>
  repeat' first | intro _ | (with_reducible first | rfl | refine (rbitSet_mem ..).trans ?_ | refine (showPads_mem ..).trans ?_) | (fail_if_no_progress dsimp only) | split

theorem launch1_mem (p : Nat) (s : State)  : memOf (launch1 p s) = memOf s := by
  fun_cases launch1 p s <;>
  repeat' first | intro _ | (with_reducible first | rfl | assumption | refine (setGpio_mem ..).trans ?_ | refine (updCell_mem ..).trans ?_) | (fail_if_no_progress dsimp only) | split

theorem stopBurst_mem (q : Nat) (s : State)  : memOf (stopBurst q s) = memOf s := by
  fun_cases stopBurst q s <;>
  repeat' first | intro _ | (with_reducible first | rfl | refine (cellEvent_mem ..).trans ?_ | refine (emit_mem ..).trans ?_ | refine (sendBits_mem ..).trans ?_ | refine (showPads_mem ..).trans ?_ | refine (updCell_mem ..).trans ?_) | (fail_if_no_progress dsimp only) | split

theorem endBurst_mem (p : Nat) (s : State)  : memOf (endBurst p s) = memOf s := by
  fun_cases endBurst p s <;>
  repeat' first | intro _ | (with_reducible first | rfl | refine (stopBurst_mem ..).trans ?_ | refine foldl_eq_mem ?_ ?_) | (fail_if_no_progress dsimp only) | split

theorem stopCell_mem (p : Nat) (s : State)  : memOf (stopCell p s) = memOf s := by
  fun_cases stopCell p s <;>
  repeat' first | intro _ | (with_reducible first | rfl | refine (endBurst_mem ..).trans ?_ | refine (rbitSet_mem ..).trans ?_ | refine (showPads_mem ..).trans ?_ | refine (updCell_mem ..).trans ?_) | (fail_if_no_progress dsimp only) | split

theorem padsOff_mem (p : Nat) (s : State)  : memOf (padsOff p s) = memOf s := by
  fun_cases padsOff p s <;>
  repeat' first | intro _ | (with_reducible first | rfl | refine (showPads_mem ..).trans ?_ | refine (updCell_mem ..).trans ?_) | (fail_if_no_progress dsimp only) | split

theorem senseStart_mem (p : Nat) (v : BitVec 64) (s : State)  : memOf (senseStart p v s) = memOf s := by
  fun_cases senseStart p v s <;>
  repeat' first | intro _ | (with_reducible first | rfl | assumption | refine (cellStat_mem ..).trans ?_ | refine (rbitSet_mem ..).trans ?_ | refine (rset_mem ..).trans ?_ | refine (updCell_mem ..).trans ?_ | refine ite_eq_same ?_ ?_) | (fail_if_no_progress dsimp only) | split

theorem ctlWrite_mem (p : Nat) (v : BitVec 64) (s : State)  : memOf (ctlWrite p v s).2 = memOf s := by
  fun_cases ctlWrite p v s <;>
  repeat' first | intro _ | (with_reducible first | rfl | assumption | refine (cellStat_mem ..).trans ?_ | refine (flushRxFifo_mem ..).trans ?_ | refine (flushTxFifo_mem ..).trans ?_ | refine (rbitSet_mem ..).trans ?_ | refine (rset_mem ..).trans ?_ | refine (showPads_mem ..).trans ?_ | refine (stopCell_mem ..).trans ?_ | refine (updCell_mem ..).trans ?_ | refine ite_eq_same ?_ ?_) | (fail_if_no_progress dsimp only) | split

theorem cellWrite_mem (p o : Nat) (v : BitVec 64) (by_ : Agent) (s : State) : memOf (cellWrite p o v by_ s).2 = memOf s := by
  unfold cellWrite
  extract_lets a refuse pad ser lb ctl
  have hr : memOf (refuse s).2 = memOf s := cellStat_mem ..
  clear_value refuse
  split
  · exact hr
  split
  · exact ctlWrite_mem ..
  · exact ite_snd_mem hr ((showPads_mem ..).trans (rset_mem ..))
  · exact ite_snd_mem hr (rset_mem ..)
  · exact ite_snd_mem hr (rset_mem ..)
  · exact rput_mem ..
  · exact rset_mem ..
  · exact ite_eq_mem ((rput_mem ..).trans (rw1c_mem ..)) (rw1c_mem ..)
  · exact rset_mem ..
  · exact rset_mem ..
  · exact rset_mem ..
  · exact senseStart_mem ..
  · exact ite_snd_mem rfl (ite_snd_mem (txWrite_mem ..) hr)

theorem resetCell_mem (p : Nat) (s : State)  : memOf (resetCell p s) = memOf s := by
  fun_cases resetCell p s <;>
  repeat' first | intro _ | (with_reducible first | rfl | refine (rclear_mem ..).trans ?_ | refine (setCell_mem ..).trans ?_) | (fail_if_no_progress dsimp only) | split

theorem stopGroup_mem (g : Nat) (s : State)  : memOf (stopGroup g s) = memOf s := by
  fun_cases stopGroup g s <;>
  repeat' first | intro _ | (with_reducible first | rfl | assumption | refine (rbitSet_mem ..).trans ?_ | refine (stopCell_mem ..).trans ?_ | refine ite_eq_same ?_ ?_ | refine foldl_eq_mem ?_ ?_) | (fail_if_no_progress dsimp only) | split

theorem vioSample_mem (g mv : Nat) (s : State)  : memOf (vioSample g mv s) = memOf s := by
  fun_cases vioSample g mv s <;>
  repeat' first | intro _ | (with_reducible first | rfl | assumption | refine (padsOff_mem ..).trans ?_ | refine (raiseSteward_mem ..).trans ?_ | refine (rbitSet_mem ..).trans ?_ | refine (rput_mem ..).trans ?_ | refine (stopGroup_mem ..).trans ?_ | refine foldl_eq_mem ?_ ?_) | (fail_if_no_progress dsimp only) | split

theorem wf_execVioSample {gr : Fin 8} {mv : BitVec 16} {s : State} {t__} (hx : execVioSample gr mv s = .next t__) (h : Memory.wf (memOf s) = true) : Memory.wf (memOf t__) = true := by
  revert hx
  fun_cases execVioSample gr mv s <;> intro hx
  all_goals first
    | (cases hx; done)
    | (have e__ := gate_next hx; subst e__; repeat' first | intro _ | (with_reducible first | assumption | refine wf_advanceTo ?_ | refine wf_of_eq (vioSample_mem ..) ?_) | (fail_if_no_progress dsimp only) | split)

theorem groupWrite_mem (g : Nat) (v : BitVec 64) (s : State)  : memOf (groupWrite g v s) = memOf s := by
  fun_cases groupWrite g v s <;>
  repeat' first | intro _ | (with_reducible first | rfl | assumption | refine (rbitSet_mem ..).trans ?_ | refine (stopGroup_mem ..).trans ?_ | refine ite_eq_same ?_ ?_) | (fail_if_no_progress dsimp only) | split

theorem execGroupEnableWrite_mem (gr : Fin 8) (v : BitVec 64) (s : State)  {t__} (h : execGroupEnableWrite gr v s = .next t__) : memOf t__ = memOf s := by
  revert h
  fun_cases execGroupEnableWrite gr v s <;> intro h
  all_goals first
    | (cases h; done)
    | (have e__ := gate_next h; subst e__; repeat' first | intro _ | (with_reducible first | rfl | refine (groupWrite_mem ..).trans ?_) | (fail_if_no_progress dsimp only) | split)

theorem execCellEnable_mem (p : Fin 1024) (v : BitVec 64) (by_ : Agent) (s : State)  {t__} (h : execCellEnable p v by_ s = .next t__) : memOf t__ = memOf s := by
  revert h
  fun_cases execCellEnable p v by_ s <;> intro h
  all_goals first
    | (cases h; done)
    | (have e__ := gate_next h; subst e__; repeat' first | intro _ | (with_reducible first | rfl | refine (cellWrite_mem ..).trans ?_) | (fail_if_no_progress dsimp only) | split)

theorem execFlushrx_mem (p : Fin 1024) (s : State)  {t__} (h : execFlushrx p s = .next t__) : memOf t__ = memOf s := by
  revert h
  fun_cases execFlushrx p s <;> intro h
  all_goals first
    | (cases h; done)
    | (have e__ := gate_next h; subst e__; repeat' first | intro _ | (with_reducible first | rfl | refine (flushRxFifo_mem ..).trans ?_) | (fail_if_no_progress dsimp only) | split)

theorem execFlushtx_mem (p : Fin 1024) (s : State)  {t__} (h : execFlushtx p s = .next t__) : memOf t__ = memOf s := by
  revert h
  fun_cases execFlushtx p s <;> intro h
  all_goals first
    | (cases h; done)
    | (have e__ := gate_next h; subst e__; repeat' first | intro _ | (with_reducible first | rfl | refine (flushTxFifo_mem ..).trans ?_) | (fail_if_no_progress dsimp only) | split)

theorem padFault_mem (p : Nat) (s : State)  : memOf (padFault p s) = memOf s := by
  fun_cases padFault p s <;>
  repeat' first | intro _ | (with_reducible first | rfl | refine (cellEvent_mem ..).trans ?_ | refine (cellStat_mem ..).trans ?_ | refine (latchEvent_mem ..).trans ?_ | refine (padsOff_mem ..).trans ?_ | refine (raiseSteward_mem ..).trans ?_ | refine (stopCell_mem ..).trans ?_) | (fail_if_no_progress dsimp only) | split

theorem execPadFault_mem (p : Fin 1024) (s : State)  {t__} (h : execPadFault p s = .next t__) : memOf t__ = memOf s := by
  revert h
  fun_cases execPadFault p s <;> intro h
  all_goals first
    | (cases h; done)
    | (have e__ := gate_next h; subst e__; repeat' first | intro _ | (with_reducible first | rfl | refine (padFault_mem ..).trans ?_) | (fail_if_no_progress dsimp only) | split)

theorem execPadFaultEnd_mem (p : Fin 1024) (s : State)  {t__} (h : execPadFaultEnd p s = .next t__) : memOf t__ = memOf s := by
  revert h
  fun_cases execPadFaultEnd p s <;> intro h
  all_goals first
    | (cases h; done)
    | (have e__ := gate_next h; subst e__; repeat' first | intro _ | (with_reducible first | rfl | refine (rbitSet_mem ..).trans ?_) | (fail_if_no_progress dsimp only) | split)

theorem execTxWindowWrite_mem (p : Fin 1024) (bytes : List (BitVec 8)) (by_ : Agent) (s : State)  {t__} (h : execTxWindowWrite p bytes by_ s = .next t__) : memOf t__ = memOf s := by
  revert h
  fun_cases execTxWindowWrite p bytes by_ s <;> intro h
  all_goals first
    | (cases h; done)
    | (have e__ := next_inj h; subst e__; repeat' first | intro _ | (with_reducible first | rfl | assumption | refine (cellStat_mem ..).trans ?_ | refine (txWrite_mem ..).trans ?_ | refine ite_eq_same ?_ ?_) | (fail_if_no_progress dsimp only) | split)
    | (have e__ := gate_next h; subst e__; repeat' first | intro _ | (with_reducible first | rfl | assumption | refine (cellStat_mem ..).trans ?_ | refine (txWrite_mem ..).trans ?_ | refine ite_eq_same ?_ ?_) | (fail_if_no_progress dsimp only) | split)

theorem execRxWindowRead_mem (p : Fin 1024) (len : Nat) (by_ : Agent) (s : State)  {t__} (h : execRxWindowRead p len by_ s = .next t__) : memOf t__ = memOf s := by
  revert h
  fun_cases execRxWindowRead p len by_ s <;> intro h
  all_goals first
    | (cases h; done)
    | (have e__ := next_inj h; subst e__; repeat' first | intro _ | (with_reducible first | rfl | assumption | refine (cellStat_mem ..).trans ?_ | refine (emit_mem ..).trans ?_ | refine (rxRead_mem ..).trans ?_ | refine ite_eq_same ?_ ?_) | (fail_if_no_progress dsimp only) | split)
    | (have e__ := gate_next h; subst e__; repeat' first | intro _ | (with_reducible first | rfl | assumption | refine (cellStat_mem ..).trans ?_ | refine (emit_mem ..).trans ?_ | refine (rxRead_mem ..).trans ?_ | refine ite_eq_same ?_ ?_) | (fail_if_no_progress dsimp only) | split)

theorem burstRx_mem (p : Nat) (b : Byte) (u : Burst) (s : State)  : memOf (burstRx p b u s) = memOf s := by
  fun_cases burstRx p b u s <;>
  repeat' first | intro _ | (with_reducible first | rfl | assumption | refine (rxPush_mem ..).trans ?_ | refine (updCell_mem ..).trans ?_) | (fail_if_no_progress dsimp only) | split

theorem lineRead_mem (p i : Nat) (x : LineSt) (s : State)  : memOf (lineRead p i x s) = memOf s := by
  fun_cases lineRead p i x s <;>
  repeat' first | intro _ | (with_reducible first | rfl | refine (updCell_mem ..).trans ?_) | (fail_if_no_progress dsimp only) | split

theorem wf_execRxByteReceived {p : Fin 1024} {wave : List (Nat × Bool)} {s : State} {t__} (hx : execRxByteReceived p wave s = .next t__) (h : Memory.wf (memOf s) = true) : Memory.wf (memOf t__) = true := by
  revert hx
  fun_cases execRxByteReceived p wave s <;> intro hx
  all_goals first
    | (cases hx; done)
    | (have e__ := gate_next hx; subst e__; repeat' first | intro _ | (with_reducible first | assumption | refine wf_advanceTo ?_ | refine wf_of_eq (burstRx_mem ..) ?_ | refine wf_of_eq (lineRead_mem ..) ?_ | refine wf_of_eq (rxPush_mem ..) ?_ | refine wf_of_eq (updCell_mem ..) ?_) | (fail_if_no_progress dsimp only) | split)

theorem wf_execTxFifoByteLeaves {p : Fin 1024} {s : State} {t__} (hx : execTxFifoByteLeaves p s = .next t__) (h : Memory.wf (memOf s) = true) : Memory.wf (memOf t__) = true := by
  revert hx
  fun_cases execTxFifoByteLeaves p s <;> intro hx
  all_goals first
    | (cases hx; done)
    | (have e__ := gate_next hx; subst e__; repeat' first | intro _ | (with_reducible first | assumption | refine wf_advanceTo ?_ | refine wf_of_eq (txTake_mem ..) ?_ | refine wf_of_eq (updCell_mem ..) ?_) | (fail_if_no_progress dsimp only) | split)

theorem wf_execBurstEnd {p : Fin 1024} {s : State} {t__} (hx : execBurstEnd p s = .next t__) (h : Memory.wf (memOf s) = true) : Memory.wf (memOf t__) = true := by
  revert hx
  fun_cases execBurstEnd p s <;> intro hx
  all_goals first
    | (cases hx; done)
    | (have e__ := gate_next hx; subst e__; repeat' first | intro _ | (with_reducible first | assumption | refine wf_advanceTo ?_ | refine wf_of_eq (endBurst_mem ..) ?_) | (fail_if_no_progress dsimp only) | split)

theorem wf_execLaunchPulseEnd {p : Fin 1024} {s : State} {t__} (hx : execLaunchPulseEnd p s = .next t__) (h : Memory.wf (memOf s) = true) : Memory.wf (memOf t__) = true := by
  revert hx
  fun_cases execLaunchPulseEnd p s <;> intro hx
  all_goals first
    | (cases hx; done)
    | (have e__ := gate_next hx; subst e__; repeat' first | intro _ | (with_reducible first | assumption | refine wf_advanceTo ?_ | refine wf_of_eq (setGpio_mem ..) ?_ | refine wf_of_eq (updCell_mem ..) ?_) | (fail_if_no_progress dsimp only) | split)

theorem wf_execLaunchComparator {p : Fin 1024} {k : Fin 2} {s : State} {t__} (hx : execLaunchComparator p k s = .next t__) (h : Memory.wf (memOf s) = true) : Memory.wf (memOf t__) = true := by
  revert hx
  fun_cases execLaunchComparator p k s <;> intro hx
  all_goals first
    | (cases hx; done)
    | (have e__ := next_inj hx; subst e__; repeat' first | intro _ | (with_reducible first | assumption | refine wf_advanceTick ?_ | refine wf_of_eq (launch0_mem ..) ?_ | refine wf_of_eq (launch1_mem ..) ?_ | refine wf_of_eq (raiseHat_mem ..) ?_ | refine wf_of_eq (rbitSet_mem ..) ?_ | refine wf_ite_same ?_ ?_) | (fail_if_no_progress dsimp only) | split)

theorem padEdge_mem (p : Nat) (padB level : Bool) (s : State)  : memOf (padEdge p padB level s) = memOf s := by
  fun_cases padEdge p padB level s <;>
  repeat' first | intro _ | (with_reducible first | rfl | assumption | refine (cellEvent_mem ..).trans ?_ | refine (rbitSet_mem ..).trans ?_ | refine (updCell_mem ..).trans ?_ | refine ite_eq_same ?_ ?_) | (fail_if_no_progress dsimp only) | split

theorem execPadEdge_mem (p : Fin 1024) (padB : Bool) (level : Bool) (s : State)  {t__} (h : execPadEdge p padB level s = .next t__) : memOf t__ = memOf s := by
  revert h
  fun_cases execPadEdge p padB level s <;> intro h
  all_goals first
    | (cases h; done)
    | (have e__ := gate_next h; subst e__; repeat' first | intro _ | (with_reducible first | rfl | assumption | refine (padEdge_mem ..).trans ?_) | (fail_if_no_progress dsimp only) | split)

theorem wf_execAttachChange {p : Fin 1024} {s : State} {t__} (hx : execAttachChange p s = .next t__) (h : Memory.wf (memOf s) = true) : Memory.wf (memOf t__) = true := by
  revert hx
  fun_cases execAttachChange p s <;> intro hx
  all_goals first
    | (cases hx; done)
    | (have e__ := gate_next hx; subst e__; repeat' first | intro _ | (with_reducible first | assumption | refine wf_advanceTo ?_ | refine wf_of_eq (cellEvent_mem ..) ?_ | refine wf_of_eq (latchEvent_mem ..) ?_ | refine wf_of_eq (rbitSet_mem ..) ?_) | (fail_if_no_progress dsimp only) | split)

theorem execPrtSenseStart_mem (p : Fin 1024) (v : BitVec 64) (s : State)  {t__} (h : execPrtSenseStart p v s = .next t__) : memOf t__ = memOf s := by
  revert h
  fun_cases execPrtSenseStart p v s <;> intro h
  all_goals first
    | (cases h; done)
    | (have e__ := gate_next h; subst e__; repeat' first | intro _ | (with_reducible first | rfl | refine (cellWrite_mem ..).trans ?_) | (fail_if_no_progress dsimp only) | split)

theorem tdrNext_mem (p : Nat) (s : State) : memOf (tdrNext p s) = memOf s := by
  unfold tdrNext
  split
  · exact updCell_mem ..
  · rfl

theorem senseResult_mem (p : Nat) (v : BitVec 64) (m : Measured) (s : State) : memOf (senseResult p v m s) = memOf s := by
  fun_cases senseResult p v m s <;>
  repeat' first | intro _ | (with_reducible first | rfl | assumption | refine (tdrNext_mem ..).trans ?_ | refine (rbitSet_mem ..).trans ?_ | refine (rput_mem ..).trans ?_ | refine (rset_mem ..).trans ?_ | refine (updCell_mem ..).trans ?_ | refine ite_eq_same ?_ ?_) | (fail_if_no_progress dsimp only) | split

theorem wf_execMeasurementDone {p : Fin 1024} {m : Measured} {s : State} {t__} (hx : execMeasurementDone p m s = .next t__) (h : Memory.wf (memOf s) = true) : Memory.wf (memOf t__) = true := by
  revert hx
  fun_cases execMeasurementDone p m s <;> intro hx
  all_goals first
    | (cases hx; done)
    | (have e__ := gate_next hx; subst e__; repeat' first | intro _ | (with_reducible first | assumption | refine wf_advanceTo ?_ | refine wf_of_eq (senseResult_mem ..) ?_) | (fail_if_no_progress dsimp only) | split)

/-! ### Shifts -/

theorem queueEntry_mem (p : Nat) (e : ShiftEntry) (s : State)  : memOf (queueEntry p e s) = memOf s := by
  fun_cases queueEntry p e s <;>
  repeat' first | intro _ | (with_reducible first | rfl | assumption | refine (setCell_mem ..).trans ?_) | (fail_if_no_progress dsimp only) | split

theorem spanRx_mem (p : Nat) (bits : List Bool) (s : State)  : memOf (spanRx p bits s) = memOf s := by
  fun_cases spanRx p bits s <;>
  repeat' first | intro _ | (with_reducible first | rfl | refine (rxPushAll_mem ..).trans ?_ | refine (setCell_mem ..).trans ?_) | (fail_if_no_progress dsimp only) | split

theorem spanCheck_mem (p : Nat) (s : State)  : memOf (spanCheck p s) = memOf s := by
  fun_cases spanCheck p s <;>
  repeat' first | intro _ | (with_reducible first | rfl | assumption | refine (cellEvent_mem ..).trans ?_ | refine (cellStat_mem ..).trans ?_ | refine (rxPushAll_mem ..).trans ?_ | refine (updCell_mem ..).trans ?_) | (fail_if_no_progress dsimp only) | split

theorem spanTx_mem (p : Nat) (bits : List Bool) (s : State)  : memOf (spanTx p bits s) = memOf s := by
  fun_cases spanTx p bits s <;>
  repeat' first | intro _ | (with_reducible first | rfl | refine (updCell_mem ..).trans ?_) | (fail_if_no_progress dsimp only) | split

theorem shiftSent_mem (p : Nat) (v : BitVec 16) (r : ShiftResult) (s : State)  : memOf (shiftSent p v r s) = memOf s := by
  fun_cases shiftSent p v r s <;>
  repeat' first | intro _ | (with_reducible first | rfl | assumption | refine (cellStat_mem ..).trans ?_ | refine (emit_mem ..).trans ?_ | refine (sendBits_mem ..).trans ?_ | refine (spanTx_mem ..).trans ?_ | refine (txTake_mem ..).trans ?_ | refine (updCell_mem ..).trans ?_ | refine ite_eq_same ?_ ?_ | refine (pair_eq_mem (by assumption)).trans ?_) | (fail_if_no_progress dsimp only) | split

theorem shiftGot_mem (p : Nat) (x : List Bool × Nat × LineSt) (s : State)  : memOf (shiftGot p x s) = memOf s := by
  fun_cases shiftGot p x s <;>
  repeat' first | intro _ | (with_reducible first | rfl | refine (lineRead_mem ..).trans ?_ | refine (spanRx_mem ..).trans ?_) | (fail_if_no_progress dsimp only) | split

theorem shiftDone_mem (p : Nat) (v : BitVec 16) (r : ShiftResult) (s : State)  : memOf (shiftDone p v r s) = memOf s := by
  fun_cases shiftDone p v r s <;>
  repeat' first | intro _ | (with_reducible first | rfl | assumption | refine (shiftGot_mem ..).trans ?_ | refine (shiftSent_mem ..).trans ?_ | refine ite_eq_same ?_ ?_) | (fail_if_no_progress dsimp only) | split

theorem sendEop_mem (p : Nat) (s : State)  : memOf (sendEop p s) = memOf s := by
  fun_cases sendEop p s <;>
  repeat' first | intro _ | (with_reducible first | rfl | refine (emit_mem ..).trans ?_ | refine (updCell_mem ..).trans ?_) | (fail_if_no_progress dsimp only) | split

theorem entryEffect_mem (p : Nat) (e : ShiftEntry) (r : ShiftResult) (s : State)  : memOf (entryEffect p e r s) = memOf s := by
  fun_cases entryEffect p e r s <;>
  repeat' first | intro _ | (with_reducible first | rfl | assumption | refine (cellEvent_mem ..).trans ?_ | refine (emit_mem ..).trans ?_ | refine (sendBits_mem ..).trans ?_ | refine (sendEop_mem ..).trans ?_ | refine (shiftDone_mem ..).trans ?_ | refine (showPads_mem ..).trans ?_ | refine (spanCheck_mem ..).trans ?_ | refine (updCell_mem ..).trans ?_) | (fail_if_no_progress dsimp only) | split

theorem entryDone_mem (p : Nat) (e : ShiftEntry) (r : ShiftResult) (s : State)  : memOf (entryDone p e r s) = memOf s := by
  fun_cases entryDone p e r s <;>
  repeat' first | intro _ | (with_reducible first | rfl | assumption | refine (entryEffect_mem ..).trans ?_ | refine (latchEvent_mem ..).trans ?_ | refine (updCell_mem ..).trans ?_) | (fail_if_no_progress dsimp only) | split

theorem wf_execShiftEntryEnd {p : Fin 1024} {r : ShiftResult} {s : State} {t__} (hx : execShiftEntryEnd p r s = .next t__) (h : Memory.wf (memOf s) = true) : Memory.wf (memOf t__) = true := by
  revert hx
  fun_cases execShiftEntryEnd p r s <;> intro hx
  all_goals first
    | (cases hx; done)
    | (have e__ := gate_next hx; subst e__; repeat' first | intro _ | (with_reducible first | assumption | refine wf_advanceTo ?_ | refine wf_of_eq (entryDone_mem ..) ?_) | (fail_if_no_progress dsimp only) | split)

/-! ### Blockers -/

theorem updThread_mem (t : Nat) (h : Thread → Thread) (s : State)  : memOf (updThread t h s) = memOf s := by
  fun_cases updThread t h s <;>
  repeat' first | intro _ | (with_reducible first | rfl | refine (setThread_mem ..).trans ?_) | (fail_if_no_progress dsimp only) | split

theorem blkStat_mem (b i : Nat) (s : State)  : memOf (blkStat b i s) = memOf s := by
  fun_cases blkStat b i s <;>
  repeat' first | intro _ | (with_reducible first | rfl | refine (noteHit_mem ..).trans ?_ | assumption | refine (raiseSteward_mem ..).trans ?_ | refine (rbitSet_mem ..).trans ?_) | (fail_if_no_progress dsimp only) | split

theorem putWheel_mem (b : Nat) (v : BitVec 64) (s : State)  : memOf (putWheel b v s) = memOf s := by
  fun_cases putWheel b v s <;>
  repeat' first | intro _ | (with_reducible first | rfl | refine (setBlocker_mem ..).trans ?_) | (fail_if_no_progress dsimp only) | split

theorem rptLost_mem (t : Nat) (s : State)  : memOf (rptLost t s) = memOf s := by
  fun_cases rptLost t s <;>
  repeat' first | intro _ | (with_reducible first | rfl | refine (rsat_mem ..).trans ?_) | (fail_if_no_progress dsimp only) | split

theorem copTxb_mem (c : Nat) (v : BitVec 16) (s : State)  : memOf (copTxb c v s) = memOf s := by
  fun_cases copTxb c v s <;>
  repeat' first | intro _ | (with_reducible first | rfl | refine (txWrite_mem ..).trans ?_) | (fail_if_no_progress dsimp only) | split

theorem copRxb_mem (c : Nat) (s : State)  : memOf (copRxb c s).2 = memOf s := by
  fun_cases copRxb c s <;>
  repeat' first | intro _ | (with_reducible first | rfl | refine (rxRead_mem ..).trans ?_ | refine pair_mem.trans ?_ | refine (triple_eq_mem (by assumption)).trans ?_) | (fail_if_no_progress dsimp only) | split

theorem copCwr_mem (b c i : Nat) (v : BitVec 16) (s : State)  : memOf (copCwr b c i v s) = memOf s := by
  fun_cases copCwr b c i v s <;>
  repeat' first | intro _ | (with_reducible first | rfl | assumption | refine (cellWrite_mem ..).trans ?_) | (fail_if_no_progress dsimp only) | split

theorem copFlush_mem (c : Nat) (v : BitVec 16) (s : State)  : memOf (copFlush c v s) = memOf s := by
  fun_cases copFlush c v s <;>
  repeat' first | intro _ | (with_reducible first | rfl | assumption | refine (flushRxFifo_mem ..).trans ?_ | refine (flushTxFifo_mem ..).trans ?_ | refine (updCell_mem ..).trans ?_ | refine ite_eq_same ?_ ?_) | (fail_if_no_progress dsimp only) | split

theorem copRstamp_mem (t : Nat) (v : BitVec 16) (s : State)  : memOf (copRstamp t v s) = memOf s := by
  fun_cases copRstamp t v s <;>
  repeat' first | intro _ | (with_reducible first | rfl | refine (updThread_mem ..).trans ?_) | (fail_if_no_progress dsimp only) | split

theorem copRsend_mem (t c : Nat) (v : BitVec 16) (s : State)  : memOf (copRsend t c v s) = memOf s := by
  fun_cases copRsend t c v s <;>
  repeat' first | intro _ | (with_reducible first | rfl | assumption | refine (rptLost_mem ..).trans ?_ | refine (rput_mem ..).trans ?_ | refine (setSes_mem ..).trans ?_ | refine (setThread_mem ..).trans ?_) | (fail_if_no_progress dsimp only) | split

theorem copRput_mem (t : Nat) (v : BitVec 16) (s : State)  : memOf (copRput t v s) = memOf s := by
  fun_cases copRput t v s <;>
  repeat' first | intro _ | (with_reducible first | rfl | assumption | refine (rptLost_mem ..).trans ?_ | refine (setThread_mem ..).trans ?_) | (fail_if_no_progress dsimp only) | split

theorem copRclr_mem (t : Nat) (s : State)  : memOf (copRclr t s) = memOf s := by
  fun_cases copRclr t s <;>
  repeat' first | intro _ | (with_reducible first | rfl | refine (updThread_mem ..).trans ?_) | (fail_if_no_progress dsimp only) | split

theorem copCmdb_mem (t : Nat) (s : State)  : memOf (copCmdb t s).2 = memOf s := by
  fun_cases copCmdb t s <;>
  repeat' first | intro _ | (with_reducible first | rfl | refine (setThread_mem ..).trans ?_) | (fail_if_no_progress dsimp only) | split

theorem copTmr_mem (t : Nat) (v : BitVec 16) (s : State)  : memOf (copTmr t v s) = memOf s := by
  fun_cases copTmr t v s <;>
  repeat' first | intro _ | (with_reducible first | rfl | assumption | refine (updThread_mem ..).trans ?_) | (fail_if_no_progress dsimp only) | split

theorem copEvmask_mem (t : Nat) (v : BitVec 16) (s : State)  : memOf (copEvmask t v s) = memOf s := by
  fun_cases copEvmask t v s <;>
  repeat' first | intro _ | (with_reducible first | rfl | refine (updThread_mem ..).trans ?_) | (fail_if_no_progress dsimp only) | split

theorem copAttn_mem (t : Nat) (s : State)  : memOf (copAttn t s) = memOf s := by
  fun_cases copAttn t s <;>
  repeat' first | intro _ | (with_reducible first | rfl | refine (blkStat_mem ..).trans ?_) | (fail_if_no_progress dsimp only) | split

theorem copHsig_mem (t : Nat) (s : State)  : memOf (copHsig t s) = memOf s := by
  fun_cases copHsig t s <;>
  repeat' first | intro _ | (with_reducible first | rfl | refine (raiseHat_mem ..).trans ?_) | (fail_if_no_progress dsimp only) | split

theorem copRun_mem (k t c : Nat) (a v : BitVec 16) (imm : Nat) (s : State)  : memOf (copRun k t c a v imm s).2 = memOf s := by
  fun_cases copRun k t c a v imm s <;>
  repeat' first | intro _ | (with_reducible first | rfl | refine (copAttn_mem ..).trans ?_ | refine (copCmdb_mem ..).trans ?_ | refine (copCwr_mem ..).trans ?_ | refine (copEvmask_mem ..).trans ?_ | refine (copFlush_mem ..).trans ?_ | refine (copHsig_mem ..).trans ?_ | refine (copRclr_mem ..).trans ?_ | refine (copRput_mem ..).trans ?_ | refine (copRsend_mem ..).trans ?_ | refine (copRstamp_mem ..).trans ?_ | refine (copRxb_mem ..).trans ?_ | refine (copTmr_mem ..).trans ?_ | refine (copTxb_mem ..).trans ?_ | refine (queueEntry_mem ..).trans ?_ | refine pair_mem.trans ?_ | refine (pair_eq_mem (by assumption)).trans ?_) | (fail_if_no_progress dsimp only) | split

theorem stopped_mem (t : Nat) (s : State)  : memOf (stopped t s) = memOf s := by
  fun_cases stopped t s <;>
  repeat' first | intro _ | (with_reducible first | rfl | refine (w1sClear_mem ..).trans ?_) | (fail_if_no_progress dsimp only) | split

theorem threadFault_mem (t cause : Nat) (s : State)  : memOf (threadFault t cause s) = memOf s := by
  fun_cases threadFault t cause s <;>
  repeat' first | intro _ | (with_reducible first | rfl | refine (blkStat_mem ..).trans ?_ | refine (stopped_mem ..).trans ?_ | refine (updThread_mem ..).trans ?_) | (fail_if_no_progress dsimp only) | split

theorem swapFinish_mem (b : Nat) (s : State)  : memOf (swapFinish b s) = memOf s := by
  fun_cases swapFinish b s <;>
  repeat' first | intro _ | (with_reducible first | rfl | assumption | refine (blkStat_mem ..).trans ?_ | refine (rbitSet_mem ..).trans ?_ | refine (rset_mem ..).trans ?_) | (fail_if_no_progress dsimp only) | split

theorem switchThread_mem (t : Nat) (s : State)  : memOf (switchThread t s) = memOf s := by
  fun_cases switchThread t s <;>
  repeat' first | intro _ | (with_reducible first | rfl | assumption | refine (rbitSet_mem ..).trans ?_ | refine (swapFinish_mem ..).trans ?_ | refine (updThread_mem ..).trans ?_) | (fail_if_no_progress dsimp only) | split

theorem yieldSnap_mem (t : Nat) (s : State)  : memOf (yieldSnap t s) = memOf s := by
  fun_cases yieldSnap t s <;>
  repeat' first | intro _ | (with_reducible first | rfl | refine (updThread_mem ..).trans ?_) | (fail_if_no_progress dsimp only) | split

theorem doYield_mem (t : Nat) (w : BitVec 64) (holds : Bool) (s : State)  : memOf (doYield t w holds s) = memOf s := by
  fun_cases doYield t w holds s <;>
  repeat' first | intro _ | (with_reducible first | rfl | assumption | refine (setThread_mem ..).trans ?_ | refine (stopped_mem ..).trans ?_ | refine (switchThread_mem ..).trans ?_ | refine (yieldSnap_mem ..).trans ?_) | (fail_if_no_progress dsimp only) | split

theorem writeResult_mem (t d : Nat) (r : Option (BitVec 16)) (s : State)  : memOf (writeResult t d r s) = memOf s := by
  fun_cases writeResult t d r s <;>
  repeat' first | intro _ | (with_reducible first | rfl | refine (updThread_mem ..).trans ?_) | (fail_if_no_progress dsimp only) | split

theorem countWordErrs_mem (b errs : Nat) (s : State)  : memOf (countWordErrs b errs s) = memOf s := by
  fun_cases countWordErrs b errs s <;>
  repeat' first | intro _ | (with_reducible first | rfl | assumption | refine (rsat_mem ..).trans ?_) | (fail_if_no_progress dsimp only) | split

theorem endWord_mem (t : Nat) (w : BitVec 64) (holds : Bool) (x : Thread) (r : Option (BitVec 16)) (q : Option (BitVec 16) × State) :
    memOf (endWord t w holds x r q) = memOf q.2 := by
  unfold endWord
  dsimp only
  split
  · exact (updThread_mem ..).trans (writeResult_mem ..)
  · exact (doYield_mem ..).trans (writeResult_mem ..)

theorem wf_wordRun {t : Nat} {c : Nat} {w : BitVec 64} {x : Thread} {s : State} (h : Memory.wf (memOf s) = true) : Memory.wf (memOf (wordRun t c w x s)) = true := by
  fun_cases wordRun t c w x s <;>
  repeat' first | intro _ | (with_reducible first | assumption | refine wf_advanceTo ?_ | refine wf_of_eq (copRun_mem ..) ?_ | refine wf_of_eq (endWord_mem ..) ?_ | refine wf_of_eq (setThread_mem ..) ?_) | (fail_if_no_progress dsimp only) | split

theorem wf_issueWord {t errs : Nat} {s : State} (h : Memory.wf (memOf s) = true) : Memory.wf (memOf (issueWord t errs s)) = true := by
  unfold issueWord
  dsimp only
  have h1 := wf_of_eq (countWordErrs_mem (t / 16) errs s) h
  split
  · exact wf_wordRun h1
  · exact wf_of_eq (threadFault_mem ..) h1

theorem wf_execControlWordIssue {b : Fin 64} {errs : Fin 3} {s : State} {t__} (hx : execControlWordIssue b errs s = .next t__)
    (h : Memory.wf (memOf s) = true) : Memory.wf (memOf t__) = true := by
  unfold execControlWordIssue at hx
  split at hx
  · dsimp only at hx
    split at hx
    · cases hx
    · have e := next_inj hx
      subst e
      exact wf_issueWord (wf_of_eq (setBlocker_mem ..) (wf_advanceTo h))
  · cases hx

theorem onCell_mem (t cell : Nat) (f : State → State) (s : State) (hf : ∀ x, memOf (f x) = memOf x) {t__}
    (h : onCell t cell f s = .next t__) : memOf t__ = memOf s := by
  unfold onCell at h
  have e := gate_next h
  subst e
  split
  · exact threadFault_mem ..
  · exact hf s

theorem execTxb_mem (t : Fin 1024) (cell : Fin 16) (v : BitVec 16) (s : State) {t__} (h : execTxb t cell v s = .next t__) :
    memOf t__ = memOf s :=
  onCell_mem _ _ _ s (fun _ => copTxb_mem ..) h

theorem execRxb_mem (t : Fin 1024) (cell : Fin 16) (dst : Fin 16) (s : State) {t__} (h : execRxb t cell dst s = .next t__) :
    memOf t__ = memOf s :=
  onCell_mem _ _ _ s (fun _ => (updThread_mem ..).trans (copRxb_mem ..)) h

theorem execShift_mem (t : Fin 1024) (cell : Fin 16) (v : BitVec 16) (s : State) {t__} (h : execShift t cell v s = .next t__) :
    memOf t__ = memOf s :=
  onCell_mem _ _ _ s (fun _ => queueEntry_mem ..) h

theorem execSpan_mem (t : Fin 1024) (cell : Fin 16) (v : BitVec 16) (s : State) {t__} (h : execSpan t cell v s = .next t__) :
    memOf t__ = memOf s :=
  onCell_mem _ _ _ s (fun _ => queueEntry_mem ..) h

theorem execPadset_mem (t : Fin 1024) (cell : Fin 16) (v : BitVec 16) (s : State) {t__} (h : execPadset t cell v s = .next t__) :
    memOf t__ = memOf s :=
  onCell_mem _ _ _ s (fun _ => queueEntry_mem ..) h

theorem execCrd_mem (t : Fin 1024) (cell : Fin 16) (idx : Fin 64) (dst : Fin 16) (s : State)  {t__} (h : execCrd t cell idx dst s = .next t__) : memOf t__ = memOf s := by
  revert h
  fun_cases execCrd t cell idx dst s <;> intro h
  all_goals first
    | (cases h; done)
    | (have e__ := gate_next h; subst e__; repeat' first | intro _ | (with_reducible first | rfl | refine (updThread_mem ..).trans ?_) | (fail_if_no_progress dsimp only) | split)

theorem execCwr_mem (t : Fin 1024) (cell : Fin 16) (idx : Fin 64) (v : BitVec 16) (s : State) {t__} (h : execCwr t cell idx v s = .next t__) :
    memOf t__ = memOf s :=
  onCell_mem _ _ _ s (fun _ => copCwr_mem ..) h

theorem execFlush_mem (t : Fin 1024) (cell : Fin 16) (v : BitVec 16) (s : State) {t__} (h : execFlush t cell v s = .next t__) :
    memOf t__ = memOf s :=
  onCell_mem _ _ _ s (fun _ => copFlush_mem ..) h

theorem execRstamp_mem (t : Fin 1024) (v : BitVec 16) (s : State)  {t__} (h : execRstamp t v s = .next t__) : memOf t__ = memOf s := by
  revert h
  fun_cases execRstamp t v s <;> intro h
  all_goals first
    | (cases h; done)
    | (have e__ := gate_next h; subst e__; repeat' first | intro _ | (with_reducible first | rfl | refine (copRstamp_mem ..).trans ?_) | (fail_if_no_progress dsimp only) | split)

theorem execRsend_mem (t : Fin 1024) (cell : Fin 16) (v : BitVec 16) (s : State)  {t__} (h : execRsend t cell v s = .next t__) : memOf t__ = memOf s := by
  revert h
  fun_cases execRsend t cell v s <;> intro h
  all_goals first
    | (cases h; done)
    | (have e__ := gate_next h; subst e__; repeat' first | intro _ | (with_reducible first | rfl | refine (copRsend_mem ..).trans ?_) | (fail_if_no_progress dsimp only) | split)

theorem execRput_mem (t : Fin 1024) (v : BitVec 16) (s : State)  {t__} (h : execRput t v s = .next t__) : memOf t__ = memOf s := by
  revert h
  fun_cases execRput t v s <;> intro h
  all_goals first
    | (cases h; done)
    | (have e__ := gate_next h; subst e__; repeat' first | intro _ | (with_reducible first | rfl | refine (copRput_mem ..).trans ?_) | (fail_if_no_progress dsimp only) | split)

theorem execRclr_mem (t : Fin 1024) (s : State)  {t__} (h : execRclr t s = .next t__) : memOf t__ = memOf s := by
  revert h
  fun_cases execRclr t s <;> intro h
  all_goals first
    | (cases h; done)
    | (have e__ := gate_next h; subst e__; repeat' first | intro _ | (with_reducible first | rfl | refine (copRclr_mem ..).trans ?_) | (fail_if_no_progress dsimp only) | split)

theorem execCmdb_mem (t : Fin 1024) (dst : Fin 16) (s : State)  {t__} (h : execCmdb t dst s = .next t__) : memOf t__ = memOf s := by
  revert h
  fun_cases execCmdb t dst s <;> intro h
  all_goals first
    | (cases h; done)
    | (have e__ := gate_next h; subst e__; repeat' first | intro _ | (with_reducible first | rfl | refine (copCmdb_mem ..).trans ?_ | refine (updThread_mem ..).trans ?_) | (fail_if_no_progress dsimp only) | split)

theorem execTmr_mem (t : Fin 1024) (v : BitVec 16) (s : State)  {t__} (h : execTmr t v s = .next t__) : memOf t__ = memOf s := by
  revert h
  fun_cases execTmr t v s <;> intro h
  all_goals first
    | (cases h; done)
    | (have e__ := gate_next h; subst e__; repeat' first | intro _ | (with_reducible first | rfl | refine (copTmr_mem ..).trans ?_) | (fail_if_no_progress dsimp only) | split)

theorem execEvmask_mem (t : Fin 1024) (v : BitVec 16) (s : State)  {t__} (h : execEvmask t v s = .next t__) : memOf t__ = memOf s := by
  revert h
  fun_cases execEvmask t v s <;> intro h
  all_goals first
    | (cases h; done)
    | (have e__ := gate_next h; subst e__; repeat' first | intro _ | (with_reducible first | rfl | refine (copEvmask_mem ..).trans ?_) | (fail_if_no_progress dsimp only) | split)

theorem execAttn_mem (t : Fin 1024) (s : State)  {t__} (h : execAttn t s = .next t__) : memOf t__ = memOf s := by
  revert h
  fun_cases execAttn t s <;> intro h
  all_goals first
    | (cases h; done)
    | (have e__ := gate_next h; subst e__; repeat' first | intro _ | (with_reducible first | rfl | refine (copAttn_mem ..).trans ?_) | (fail_if_no_progress dsimp only) | split)

theorem execHsig_mem (t : Fin 1024) (s : State)  {t__} (h : execHsig t s = .next t__) : memOf t__ = memOf s := by
  revert h
  fun_cases execHsig t s <;> intro h
  all_goals first
    | (cases h; done)
    | (have e__ := gate_next h; subst e__; repeat' first | intro _ | (with_reducible first | rfl | refine (copHsig_mem ..).trans ?_) | (fail_if_no_progress dsimp only) | split)

theorem wf_unpark {t : Nat} {s : State} (h : Memory.wf (memOf s) = true) : Memory.wf (memOf (unpark t s)) = true := by
  fun_cases unpark t s <;>
  repeat' first | intro _ | (with_reducible first | assumption | refine wf_advanceTo ?_ | refine wf_of_eq (switchThread_mem ..) ?_ | refine wf_of_eq (updThread_mem ..) ?_ | refine wf_of_eq (yieldSnap_mem ..) ?_) | (fail_if_no_progress dsimp only) | split

theorem wf_execParkWake {t : Fin 1024} {s : State} {t__} (hx : execParkWake t s = .next t__) (h : Memory.wf (memOf s) = true) : Memory.wf (memOf t__) = true := by
  revert hx
  fun_cases execParkWake t s <;> intro hx
  all_goals first
    | (cases hx; done)
    | (have e__ := next_inj hx; subst e__; repeat' first | intro _ | (with_reducible first | assumption | refine wf_advanceTo ?_ | refine wf_unpark ?_ | refine wf_of_eq (setBlocker_mem ..) ?_) | (fail_if_no_progress dsimp only) | split)

theorem wf_execMicroTimerExpiry {t : Fin 1024} {s : State} {t__} (hx : execMicroTimerExpiry t s = .next t__) (h : Memory.wf (memOf s) = true) : Memory.wf (memOf t__) = true := by
  revert hx
  fun_cases execMicroTimerExpiry t s <;> intro hx
  all_goals first
    | (cases hx; done)
    | (have e__ := gate_next hx; subst e__; repeat' first | intro _ | (with_reducible first | assumption | refine wf_advanceTo ?_ | refine wf_of_eq (latchEvent_mem ..) ?_ | refine wf_of_eq (updThread_mem ..) ?_) | (fail_if_no_progress dsimp only) | split)

theorem startThread_mem (t : Nat) (s : State)  : memOf (startThread t s) = memOf s := by
  fun_cases startThread t s <;>
  repeat' first | intro _ | (with_reducible first | rfl | assumption | refine (setThread_mem ..).trans ?_) | (fail_if_no_progress dsimp only) | split

theorem stopThread_mem (t : Nat) (s : State)  : memOf (stopThread t s) = memOf s := by
  fun_cases stopThread t s <;>
  repeat' first | intro _ | (with_reducible first | rfl | refine (updThread_mem ..).trans ?_ | refine (w1sWrite_mem ..).trans ?_) | (fail_if_no_progress dsimp only) | split

theorem execBlkTstart_mem (t : Fin 1024) (s : State)  {t__} (h : execBlkTstart t s = .next t__) : memOf t__ = memOf s := by
  revert h
  fun_cases execBlkTstart t s <;> intro h
  all_goals first
    | (cases h; done)
    | (have e__ := gate_next h; subst e__; repeat' first | intro _ | (with_reducible first | rfl | assumption | refine (startThread_mem ..).trans ?_ | refine ite_eq_same ?_ ?_) | (fail_if_no_progress dsimp only) | split)

theorem execBlkTstop_mem (t : Fin 1024) (s : State)  {t__} (h : execBlkTstop t s = .next t__) : memOf t__ = memOf s := by
  revert h
  fun_cases execBlkTstop t s <;> intro h
  all_goals first
    | (cases h; done)
    | (have e__ := gate_next h; subst e__; repeat' first | intro _ | (with_reducible first | rfl | assumption | refine (stopThread_mem ..).trans ?_ | refine ite_eq_same ?_ ?_) | (fail_if_no_progress dsimp only) | split)

theorem wheelWrite_mem (b : Nat) (v : BitVec 64) (s : State)  : memOf (wheelWrite b v s) = memOf s := by
  fun_cases wheelWrite b v s <;>
  repeat' first | intro _ | (with_reducible first | rfl | assumption | refine (blkStat_mem ..).trans ?_ | refine (putWheel_mem ..).trans ?_) | (fail_if_no_progress dsimp only) | split

theorem execBlkWheelWrite_mem (b : Fin 64) (v : BitVec 64) (s : State)  {t__} (h : execBlkWheelWrite b v s = .next t__) : memOf t__ = memOf s := by
  revert h
  fun_cases execBlkWheelWrite b v s <;> intro h
  all_goals first
    | (cases h; done)
    | (have e__ := gate_next h; subst e__; repeat' first | intro _ | (with_reducible first | rfl | refine (wheelWrite_mem ..).trans ?_) | (fail_if_no_progress dsimp only) | split)

theorem wf_execWheelChange {b : Fin 64} {s : State} {t__} (hx : execWheelChange b s = .next t__) (h : Memory.wf (memOf s) = true) : Memory.wf (memOf t__) = true := by
  revert hx
  fun_cases execWheelChange b s <;> intro hx
  all_goals first
    | (cases hx; done)
    | (have e__ := gate_next hx; subst e__; repeat' first | intro _ | (with_reducible first | assumption | refine wf_advanceTo ?_ | refine wf_of_eq (rset_mem ..) ?_ | refine wf_of_eq (setBlocker_mem ..) ?_) | (fail_if_no_progress dsimp only) | split)

theorem blkCopyStart_mem (b : Nat) (s : State)  : memOf (blkCopyStart b s) = memOf s := by
  fun_cases blkCopyStart b s <;>
  repeat' first | intro _ | (with_reducible first | rfl | assumption | refine (blkStat_mem ..).trans ?_ | refine (w1sWrite_mem ..).trans ?_) | (fail_if_no_progress dsimp only) | split

theorem execBlkCopy_mem (b : Fin 64) (s : State)  {t__} (h : execBlkCopy b s = .next t__) : memOf t__ = memOf s := by
  revert h
  fun_cases execBlkCopy b s <;> intro h
  all_goals first
    | (cases h; done)
    | (have e__ := gate_next h; subst e__; repeat' first | intro _ | (with_reducible first | rfl | refine (blkCopyStart_mem ..).trans ?_) | (fail_if_no_progress dsimp only) | split)

theorem wf_execBlkCopyDone {b : Fin 64} {s : State} {t__} (hx : execBlkCopyDone b s = .next t__) (h : Memory.wf (memOf s) = true) : Memory.wf (memOf t__) = true := by
  revert hx
  fun_cases execBlkCopyDone b s <;> intro hx
  all_goals first
    | (cases hx; done)
    | (have e__ := gate_next hx; subst e__; repeat' first | intro _ | (with_reducible first | assumption | refine wf_setMem ?_ | refine wf_of_eq (w1sClear_mem ..) ?_ | refine wf_copyBytes _ _ _ ?_ | refine wf_mem_def ?_) | (fail_if_no_progress dsimp only) | split)

theorem blkArm_mem (b : Nat) (s : State)  : memOf (blkArm b s) = memOf s := by
  fun_cases blkArm b s <;>
  repeat' first | intro _ | (with_reducible first | rfl | assumption | refine (blkStat_mem ..).trans ?_ | refine (rbitSet_mem ..).trans ?_) | (fail_if_no_progress dsimp only) | split

theorem execBlkSwaparm_mem (b : Fin 64) (s : State)  {t__} (h : execBlkSwaparm b s = .next t__) : memOf t__ = memOf s := by
  revert h
  fun_cases execBlkSwaparm b s <;> intro h
  all_goals first
    | (cases h; done)
    | (have e__ := gate_next h; subst e__; repeat' first | intro _ | (with_reducible first | rfl | refine (blkArm_mem ..).trans ?_) | (fail_if_no_progress dsimp only) | split)

theorem swapPoint_mem (b : Nat) (s : State)  : memOf (swapPoint b s) = memOf s := by
  fun_cases swapPoint b s <;>
  repeat' first | intro _ | (with_reducible first | rfl | assumption | refine (rbitSet_mem ..).trans ?_ | refine (rput_mem ..).trans ?_ | refine (switchThread_mem ..).trans ?_ | refine (updThread_mem ..).trans ?_ | refine ite_eq_same ?_ ?_ | refine foldl_eq_mem ?_ ?_) | (fail_if_no_progress dsimp only) | split

theorem wf_execBlkSwapPoint {b : Fin 64} {s : State} {t__} (hx : execBlkSwapPoint b s = .next t__) (h : Memory.wf (memOf s) = true) :
    Memory.wf (memOf t__) = true := by
  unfold execBlkSwapPoint at hx
  split at hx
  · cases hx
  · have e := next_inj hx
    subst e
    exact wf_of_eq (swapPoint_mem ..) (wf_advanceTo (wf_advanceTick h))

theorem wf_blkWrite {b : Nat} {o : Nat} {v : BitVec 64} {by_ : Agent} {s : State} (h : Memory.wf (memOf s) = true) : Memory.wf (memOf (blkWrite b o v by_ s).2) = true := by
  fun_cases blkWrite b o v by_ s <;>
  repeat' first | intro _ | (with_reducible first | assumption | refine wf_poke ?_ | refine wf_of_eq (blkArm_mem ..) ?_ | refine wf_of_eq (blkCopyStart_mem ..) ?_ | refine wf_of_eq (blkStat_mem ..) ?_ | refine wf_of_eq (rput_mem ..) ?_ | refine wf_of_eq (rset_mem ..) ?_ | refine wf_of_eq (rw1c_mem ..) ?_ | refine wf_of_eq (startThread_mem ..) ?_ | refine wf_of_eq (stopThread_mem ..) ?_ | refine wf_of_eq (wheelWrite_mem ..) ?_ | refine wf_ite_same ?_ ?_) | (fail_if_no_progress dsimp only) | split

theorem groupThreadsOff_mem (g : Nat) (s : State)  : memOf (groupThreadsOff g s) = memOf s := by
  fun_cases groupThreadsOff g s <;>
  repeat' first | intro _ | (with_reducible first | rfl | assumption | refine (blkStat_mem ..).trans ?_ | refine (stopped_mem ..).trans ?_ | refine (updThread_mem ..).trans ?_ | refine ite_eq_same ?_ ?_ | refine foldl_eq_mem ?_ ?_) | (fail_if_no_progress dsimp only) | split

theorem wf_resetBlocker {b : Nat} {s : State} (h : Memory.wf (memOf s) = true) : Memory.wf (memOf (resetBlocker b s)) = true := by
  fun_cases resetBlocker b s <;>
  repeat' first | intro _ | (with_reducible first | assumption | refine wf_setMem ?_ | refine wf_of_eq (rclear_mem ..) ?_ | refine wf_of_eq (setBlocker_mem ..) ?_ | refine wf_of_eq (setThreads_mem ..) ?_ | refine wf_tclear _ _ ?_ | refine wf_mem_def ?_) | (fail_if_no_progress dsimp only) | split

/-! ### Patch -/

theorem wf_putBank {b : Nat} {k : Bool} {img : Nat → BitVec 64} {s : State} (h : Memory.wf (memOf s) = true) : Memory.wf (memOf (putBank b k img s)) = true := by
  fun_cases putBank b k img s <;>
  repeat' first | intro _ | (with_reducible first | assumption | refine wf_poke ?_ | refine wf_foldl _ ?_ _ _ ?_) | (fail_if_no_progress dsimp only) | split

theorem wf_loadBlocker {b : Nat} {s : State} (h : Memory.wf (memOf s) = true) : Memory.wf (memOf (loadBlocker b s)) = true := by
  fun_cases loadBlocker b s <;>
  repeat' first | intro _ | (with_reducible first | assumption | refine wf_putBank ?_ | refine wf_of_eq (rset_mem ..) ?_) | (fail_if_no_progress dsimp only) | split

/-! ### FabricOps -/

theorem sendFabric_mem (ty code dpkg addr : Nat) (payload : List Byte) (owner : Option (Nat × Nat)) (s : State)  : memOf (sendFabric ty code dpkg addr payload owner s) = memOf s := by
  fun_cases sendFabric ty code dpkg addr payload owner s <;>
  repeat' first | intro _ | (with_reducible first | rfl | refine (emit_mem ..).trans ?_ | refine (setFabric_mem ..).trans ?_) | (fail_if_no_progress dsimp only) | split

theorem sendControl_mem (dpkg : Nat) (c : Control) (s : State) : memOf (sendControl dpkg c s) = memOf s :=
  (emit_mem ..).trans (setFabric_mem ..)

theorem tellMember_mem (d : Option Nat) (c : Control) (s : State) : memOf (tellMember d c s) = memOf s := by
  unfold tellMember
  split
  · exact sendControl_mem ..
  · rfl

theorem heardFrom_mem (src : Nat) (s : State)  : memOf (heardFrom src s) = memOf s := by
  fun_cases heardFrom src s <;>
  repeat' first | intro _ | (with_reducible first | rfl | refine (setFabric_mem ..).trans ?_) | (fail_if_no_progress dsimp only) | split

theorem fabReplyOut_mem (src : Nat) (f : FabFrame) (q : FabFrame × Bool × State) : memOf (fabReplyOut src f q) = memOf q.2.2 := by
  unfold fabReplyOut
  extract_lets s log
  have h : memOf s = memOf q.2.2 := by
    simp only [s, ite_mem, raiseSteward_mem, ite_self]
  refine (emit_mem ..).trans ?_
  split
  · exact (setFabric_mem ..).trans h
  · exact h

theorem wf_fabReceive {tys : List Nat} {f : FabFrame} {act : State → FabFrame × Bool × State} {s : State} {t__}
    (hx : fabReceive tys f act s = .next t__) (ha : ∀ x, Memory.wf (memOf x) = true → Memory.wf (memOf (act x).2.2) = true)
    (h : Memory.wf (memOf s) = true) : Memory.wf (memOf t__) = true := by
  unfold fabReceive at hx
  dsimp only at hx
  split at hx
  · cases hx
  split at hx
  · have e := next_inj hx; subst e; exact wf_of_eq (raiseSteward_mem ..) (wf_of_eq (setFabric_mem ..) h)
  split at hx
  · cases hx
  have h1 : Memory.wf (memOf (heardFrom f.spkg.toNat s)) = true := wf_of_eq (heardFrom_mem ..) h
  split at hx
  · have e := next_inj hx; subst e; exact wf_of_eq (emit_mem ..) h1
  · have e := next_inj hx; subst e
    exact wf_of_eq (fabReplyOut_mem ..) (ha _ h1)

theorem logFabric_mem (a : Nat) (s : State)  : memOf (logFabric a s) = memOf s := by
  fun_cases logFabric a s <;>
  repeat' first | intro _ | (with_reducible first | rfl | refine (drawFree_mem ..).trans ?_ | refine (logEvents_mem ..).trans ?_ | refine (pair_eq_mem (by assumption)).trans ?_) | (fail_if_no_progress dsimp only) | split

theorem fabImport_mem (member : Bool) (e act : Nat) (s : State)  : memOf (fabImport member e act s) = memOf s := by
  fun_cases fabImport member e act s <;>
  repeat' first | intro _ | (with_reducible first | rfl | assumption | refine (logFabric_mem ..).trans ?_ | refine (raiseSteward_mem ..).trans ?_ | refine (rbitSet_mem ..).trans ?_ | refine (rsat_mem ..).trans ?_ | refine (setFabric_mem ..).trans ?_) | (fail_if_no_progress dsimp only) | split

theorem sendMsix_mem (f v : Nat) (s : State)  : memOf (sendMsix f v s) = memOf s := by
  fun_cases sendMsix f v s <;>
  repeat' first | intro _ | (with_reducible first | rfl | assumption | refine (emit_mem ..).trans ?_ | refine (setMsixHeld_mem ..).trans ?_) | (fail_if_no_progress dsimp only) | split

theorem stewardPulse_mem (src : Nat) (s : State)  : memOf (stewardPulse src s) = memOf s := by
  fun_cases stewardPulse src s <;>
  repeat' first | intro _ | (with_reducible first | rfl | assumption | refine (raiseSteward_mem ..).trans ?_ | refine (sendMsix_mem ..).trans ?_) | (fail_if_no_progress dsimp only) | split

theorem macCount_mem (m i n : Nat) (s : State)  : memOf (macCount m i n s) = memOf s := by
  fun_cases macCount m i n s <;>
  repeat' first | intro _ | (with_reducible first | rfl | assumption | refine (raiseSteward_mem ..).trans ?_ | refine (rset_mem ..).trans ?_) | (fail_if_no_progress dsimp only) | split

theorem wf_txStamp {m : Nat} {tick : Nat} {seq : Nat} {s : State} (h : Memory.wf (memOf s) = true) : Memory.wf (memOf (txStamp m tick seq s)) = true := by
  fun_cases txStamp m tick seq s <;>
  repeat' first | intro _ | (with_reducible first | assumption | refine wf_of_eq (macCount_mem ..) ?_ | refine wf_of_eq (setMacs_mem ..) ?_) | (fail_if_no_progress dsimp only) | split

/-! ### Interrupts -/

theorem execIntSourceEvent_mem (k : Fin 129) (i : Fin 1024) (s : State)  {t__} (h : execIntSourceEvent k i s = .next t__) : memOf t__ = memOf s := by
  revert h
  fun_cases execIntSourceEvent k i s <;> intro h
  all_goals first
    | (cases h; done)
    | (have e__ := next_inj h; subst e__; repeat' first | intro _ | (with_reducible first | rfl | assumption | refine (facetPulse_mem ..).trans ?_ | refine (raiseGirdle_mem ..).trans ?_ | refine (setRaw_mem ..).trans ?_ | refine (stewardPulse_mem ..).trans ?_ | refine ite_eq_same ?_ ?_) | (fail_if_no_progress dsimp only) | split)
    | (have e__ := gate_next h; subst e__; repeat' first | intro _ | (with_reducible first | rfl | assumption | refine (facetPulse_mem ..).trans ?_ | refine (raiseGirdle_mem ..).trans ?_ | refine (setRaw_mem ..).trans ?_ | refine (stewardPulse_mem ..).trans ?_ | refine ite_eq_same ?_ ?_) | (fail_if_no_progress dsimp only) | split)

theorem wf_execLevelFilterSettle {k : Fin 129} {i : Fin 1024} {s : State} {t__} (hx : execLevelFilterSettle k i s = .next t__) (h : Memory.wf (memOf s) = true) : Memory.wf (memOf t__) = true := by
  revert hx
  fun_cases execLevelFilterSettle k i s <;> intro hx
  all_goals first
    | (cases hx; done)
    | (have e__ := gate_next hx; subst e__; repeat' first | intro _ | (with_reducible first | assumption | refine wf_advanceTo ?_ | refine wf_of_eq (setFiltered_mem ..) ?_) | (fail_if_no_progress dsimp only) | split)

theorem wf_execBatchTimerExpiry {k : Fin 129} {i : Fin 1024} {s : State} {t__} (hx : execBatchTimerExpiry k i s = .next t__) (h : Memory.wf (memOf s) = true) : Memory.wf (memOf t__) = true := by
  revert hx
  fun_cases execBatchTimerExpiry k i s <;> intro hx
  all_goals first
    | (cases hx; done)
    | (have e__ := gate_next hx; subst e__; repeat' first | intro _ | (with_reducible first | assumption | refine wf_advanceTo ?_ | refine wf_of_eq (setIntSrc_mem ..) ?_) | (fail_if_no_progress dsimp only) | split)

theorem clearDfault_mem (k v : Nat) (s : State)  : memOf (clearDfault k v s) = memOf s := by
  fun_cases clearDfault k v s <;>
  repeat' first | intro _ | (with_reducible first | rfl | assumption | refine (rput_mem ..).trans ?_) | (fail_if_no_progress dsimp only) | split

theorem execIntClaim_mem (k : Fin 129) (fast : Bool) (s : State)  {t__} (h : execIntClaim k fast s = .next t__) : memOf t__ = memOf s := by
  revert h
  fun_cases execIntClaim k fast s <;> intro h
  all_goals first
    | (cases h; done)
    | (have e__ := gate_next h; subst e__; repeat' first | intro _ | (with_reducible first | rfl | refine (claim_mem ..).trans ?_ | refine (clearDfault_mem ..).trans ?_ | refine (emit_mem ..).trans ?_) | (fail_if_no_progress dsimp only) | split)

theorem execIntEoi_mem (k : Fin 129) (i : Fin 1024) (s : State)  {t__} (h : execIntEoi k i s = .next t__) : memOf t__ = memOf s := by
  revert h
  fun_cases execIntEoi k i s <;> intro h
  all_goals first
    | (cases h; done)
    | (have e__ := gate_next h; subst e__; repeat' first | intro _ | (with_reducible first | rfl | refine (intEoi_mem ..).trans ?_) | (fail_if_no_progress dsimp only) | split)

theorem execIntSetp_mem (k : Fin 129) (i : Fin 1024) (s : State)  {t__} (h : execIntSetp k i s = .next t__) : memOf t__ = memOf s := by
  revert h
  fun_cases execIntSetp k i s <;> intro h
  all_goals first
    | (cases h; done)
    | (have e__ := gate_next h; subst e__; repeat' first | intro _ | (with_reducible first | rfl | refine (intSetp_mem ..).trans ?_) | (fail_if_no_progress dsimp only) | split)

theorem execIntClrp_mem (k : Fin 129) (i : Fin 1024) (s : State)  {t__} (h : execIntClrp k i s = .next t__) : memOf t__ = memOf s := by
  revert h
  fun_cases execIntClrp k i s <;> intro h
  all_goals first
    | (cases h; done)
    | (have e__ := gate_next h; subst e__; repeat' first | intro _ | (with_reducible first | rfl | assumption | refine (intClrp_mem ..).trans ?_ | refine (tellSteward_mem ..).trans ?_ | refine ite_eq_same ?_ ?_) | (fail_if_no_progress dsimp only) | split)

theorem execIntScfgWrite_mem (k : Fin 129) (i : Fin 1024) (v : BitVec 64) (s : State)  {t__} (h : execIntScfgWrite k i v s = .next t__) : memOf t__ = memOf s := by
  revert h
  fun_cases execIntScfgWrite k i v s <;> intro h
  all_goals first
    | (cases h; done)
    | (have e__ := gate_next h; subst e__; repeat' first | intro _ | (with_reducible first | rfl | assumption | refine (scfgWrite_mem ..).trans ?_ | refine (tellSteward_mem ..).trans ?_ | refine ite_eq_same ?_ ?_) | (fail_if_no_progress dsimp only) | split)

theorem wakeSource_mem (n i : Nat) (s : State)  : memOf (wakeSource n i s) = memOf s := by
  fun_cases wakeSource n i s <;>
  repeat' first | intro _ | (with_reducible first | rfl | assumption | refine (acceptEvents_mem ..).trans ?_ | refine (setFiltered_mem ..).trans ?_ | refine (setIntSrc_mem ..).trans ?_ | refine ite_eq_same ?_ ?_) | (fail_if_no_progress dsimp only) | split

theorem wakeSources_mem (n : Nat) (s : State)  : memOf (wakeSources n s) = memOf s := by
  fun_cases wakeSources n s <;>
  repeat' first | intro _ | (with_reducible first | rfl | refine (wakeSource_mem ..).trans ?_ | refine foldl_eq_mem ?_ ?_) | (fail_if_no_progress dsimp only) | split

/-! ### Time -/

theorem timStat_mem (i : Nat) (s : State)  : memOf (timStat i s) = memOf s := by
  fun_cases timStat i s <;>
  repeat' first | intro _ | (with_reducible first | rfl | refine (rbitSet_mem ..).trans ?_) | (fail_if_no_progress dsimp only) | split

theorem wf_advanceWhile {p : State → Bool} : ∀ {k : Nat} {s : State}, Memory.wf (memOf s) = true →
    Memory.wf (memOf (advanceWhile p k s)) = true := by
  intro k
  induction k with
  | zero => intro s h; exact h
  | succ k ih =>
    intro s h
    unfold advanceWhile
    split
    · split
      · exact ih (wf_advance h)
      · exact h
    · exact h

theorem wf_execTimeStepApply {s : State} {t__} (hx : execTimeStepApply s = .next t__) (h : Memory.wf (memOf s) = true) : Memory.wf (memOf t__) = true := by
  revert hx
  fun_cases execTimeStepApply s <;> intro hx
  all_goals first
    | (cases hx; done)
    | (have e__ := gate_next hx; subst e__; repeat' first | intro _ | (with_reducible first | assumption | refine wf_advanceWhile ?_) | (fail_if_no_progress dsimp only) | split)

theorem wf_execRatePoint {s : State} {t__} (hx : execRatePoint s = .next t__) (h : Memory.wf (memOf s) = true) : Memory.wf (memOf t__) = true := by
  revert hx
  fun_cases execRatePoint s <;> intro hx
  all_goals first
    | (cases hx; done)
    | (have e__ := gate_next hx; subst e__; repeat' first | intro _ | (with_reducible first | assumption | refine wf_advanceWhile ?_) | (fail_if_no_progress dsimp only) | split)

theorem rateWrite_mem (v : Nat) (s : State)  : memOf (rateWrite v s) = memOf s := by
  fun_cases rateWrite v s <;>
  repeat' first | intro _ | (with_reducible first | rfl | assumption | refine (rset_mem ..).trans ?_ | refine (setTb_mem ..).trans ?_ | refine (timStat_mem ..).trans ?_) | (fail_if_no_progress dsimp only) | split

theorem execTimRateWrite_mem (v : BitVec 64) (s : State)  {t__} (h : execTimRateWrite v s = .next t__) : memOf t__ = memOf s := by
  revert h
  fun_cases execTimRateWrite v s <;> intro h
  all_goals first
    | (cases h; done)
    | (have e__ := next_inj h; subst e__; repeat' first | intro _ | (with_reducible first | rfl | refine (rateWrite_mem ..).trans ?_) | (fail_if_no_progress dsimp only) | split)

theorem stepArm_mem (s : State)  : memOf (stepArm s) = memOf s := by
  fun_cases stepArm s <;>
  repeat' first | intro _ | (with_reducible first | rfl | assumption | refine (rbitSet_mem ..).trans ?_ | refine (setTb_mem ..).trans ?_ | refine (timStat_mem ..).trans ?_) | (fail_if_no_progress dsimp only) | split

theorem execSteparm_mem (s : State)  {t__} (h : execSteparm s = .next t__) : memOf t__ = memOf s := by
  revert h
  fun_cases execSteparm s <;> intro h
  all_goals first
    | (cases h; done)
    | (have e__ := next_inj h; subst e__; repeat' first | intro _ | (with_reducible first | rfl | refine (stepArm_mem ..).trans ?_) | (fail_if_no_progress dsimp only) | split)

theorem dfault_mem (d : Nat) (s : State)  : memOf (dfault d s) = memOf s := by
  fun_cases dfault d s <;>
  repeat' first | intro _ | (with_reducible first | rfl | assumption | refine (addRec5_mem ..).trans ?_ | refine (raiseSteward_mem ..).trans ?_ | refine (timStat_mem ..).trans ?_) | (fail_if_no_progress dsimp only) | split

theorem checkWord_mem (d flips : Nat) (replica : Option TimeWord) (s : State)  : memOf (checkWord d flips replica s) = memOf s := by
  fun_cases checkWord d flips replica s <;>
  repeat' first | intro _ | (with_reducible first | rfl | assumption | refine (dfault_mem ..).trans ?_ | refine (rsat_mem ..).trans ?_) | (fail_if_no_progress dsimp only) | split

theorem wf_execCheckWord {d : Fin 6} {w : CheckIn} {s : State} {t__} (hx : execCheckWord d w s = .next t__) (h : Memory.wf (memOf s) = true) : Memory.wf (memOf t__) = true := by
  revert hx
  fun_cases execCheckWord d w s <;> intro hx
  all_goals first
    | (cases hx; done)
    | (have e__ := next_inj hx; subst e__; repeat' first | intro _ | (with_reducible first | assumption | refine wf_advanceTo ?_ | refine wf_of_eq (checkWord_mem ..) ?_) | (fail_if_no_progress dsimp only) | split)

theorem setTimBit_mem (i : Nat) (v : Bool) (s : State)  : memOf (setTimBit i v s) = memOf s := by
  fun_cases setTimBit i v s <;>
  repeat' first | intro _ | (with_reducible first | rfl | assumption | refine (raiseSteward_mem ..).trans ?_ | refine (rbitSet_mem ..).trans ?_) | (fail_if_no_progress dsimp only) | split

theorem servoStep_mem (d : Int) (s : State)  : memOf (servoStep d s) = memOf s := by
  fun_cases servoStep d s <;>
  repeat' first | intro _ | (with_reducible first | rfl | refine (drawFree_mem ..).trans ?_ | refine (rset_mem ..).trans ?_ | refine (stepArm_mem ..).trans ?_ | refine (pair_eq_mem (by assumption)).trans ?_) | (fail_if_no_progress dsimp only) | split

theorem servoSlew_mem (offset : Int) (s : State)  : memOf (servoSlew offset s) = memOf s := by
  fun_cases servoSlew offset s <;>
  repeat' first | intro _ | (with_reducible first | rfl | refine (drawFree_mem ..).trans ?_ | refine (rateWrite_mem ..).trans ?_ | refine (pair_eq_mem (by assumption)).trans ?_) | (fail_if_no_progress dsimp only) | split

theorem servoSample_mem (offset : Int) (s : State)  : memOf (servoSample offset s) = memOf s := by
  fun_cases servoSample offset s <;>
  repeat' first | intro _ | (with_reducible first | rfl | assumption | refine (servoSlew_mem ..).trans ?_ | refine (servoStep_mem ..).trans ?_ | refine (setDisc_mem ..).trans ?_ | refine (setTimBit_mem ..).trans ?_ | refine ite_eq_same ?_ ?_) | (fail_if_no_progress dsimp only) | split

theorem execPpsEdge_mem (rising : Bool) (s : State)  {t__} (h : execPpsEdge rising s = .next t__) : memOf t__ = memOf s := by
  revert h
  fun_cases execPpsEdge rising s <;> intro h
  all_goals first
    | (cases h; done)
    | (have e__ := next_inj h; subst e__; repeat' first | intro _ | (with_reducible first | rfl | assumption | refine (raiseHat_mem ..).trans ?_ | refine (rset_mem ..).trans ?_ | refine (servoSample_mem ..).trans ?_ | refine (setDisc_mem ..).trans ?_ | refine ite_eq_same ?_ ?_) | (fail_if_no_progress dsimp only) | split)

theorem wf_execPpsMiss {s : State} {t__} (hx : execPpsMiss s = .next t__) (h : Memory.wf (memOf s) = true) : Memory.wf (memOf t__) = true := by
  revert hx
  fun_cases execPpsMiss s <;> intro hx
  all_goals first
    | (cases hx; done)
    | (have e__ := next_inj hx; subst e__; repeat' first | intro _ | (with_reducible first | assumption | refine wf_advanceTick ?_ | refine wf_of_eq (raiseSteward_mem ..) ?_ | refine wf_of_eq (setDisc_mem ..) ?_ | refine wf_of_eq (timStat_mem ..) ?_) | (fail_if_no_progress dsimp only) | split)

theorem wf_execStoreTimeSecond {s : State} {t__} (hx : execStoreTimeSecond s = .next t__) (h : Memory.wf (memOf s) = true) : Memory.wf (memOf t__) = true := by
  revert hx
  fun_cases execStoreTimeSecond s <;> intro hx
  all_goals first
    | (cases hx; done)
    | (have e__ := next_inj hx; subst e__; repeat' first | intro _ | (with_reducible first | assumption | refine wf_advanceTick ?_ | refine wf_of_eq (emit_mem ..) ?_ | refine wf_of_eq (raiseHat_mem ..) ?_ | refine wf_of_eq (setDisc_mem ..) ?_ | refine wf_ite_same ?_ ?_) | (fail_if_no_progress dsimp only) | split)

theorem wf_execPpsOutFall {s : State} {t__} (hx : execPpsOutFall s = .next t__) (h : Memory.wf (memOf s) = true) : Memory.wf (memOf t__) = true := by
  revert hx
  fun_cases execPpsOutFall s <;> intro hx
  all_goals first
    | (cases hx; done)
    | (have e__ := next_inj hx; subst e__; repeat' first | intro _ | (with_reducible first | assumption | refine wf_advanceTick ?_ | refine wf_of_eq (emit_mem ..) ?_ | refine wf_of_eq (setDisc_mem ..) ?_) | (fail_if_no_progress dsimp only) | split)

theorem ptpSample_mem (offset : Int) (s : State)  : memOf (ptpSample offset s) = memOf s := by
  fun_cases ptpSample offset s <;>
  repeat' first | intro _ | (with_reducible first | rfl | assumption | refine (servoSample_mem ..).trans ?_ | refine (servoStep_mem ..).trans ?_) | (fail_if_no_progress dsimp only) | split

theorem delayRequest_mem (m : Nat) (s : State)  : memOf (delayRequest m s) = memOf s := by
  fun_cases delayRequest m s <;>
  repeat' first | intro _ | (with_reducible first | rfl | assumption | refine (emit_mem ..).trans ?_ | refine (setMacs_mem ..).trans ?_) | (fail_if_no_progress dsimp only) | split

theorem execPtpSample_mem (m : Fin 8) (x : PtpExchange) (s : State)  {t__} (h : execPtpSample m x s = .next t__) : memOf t__ = memOf s := by
  revert h
  fun_cases execPtpSample m x s <;> intro h
  all_goals first
    | (cases h; done)
    | (have e__ := gate_next h; subst e__; repeat' first | intro _ | (with_reducible first | rfl | refine (delayRequest_mem ..).trans ?_ | refine (ptpSample_mem ..).trans ?_ | refine (setDisc_mem ..).trans ?_) | (fail_if_no_progress dsimp only) | split)

theorem wf_execHoldoverEntry {s : State} {t__} (hx : execHoldoverEntry s = .next t__) (h : Memory.wf (memOf s) = true) : Memory.wf (memOf t__) = true := by
  revert hx
  fun_cases execHoldoverEntry s <;> intro hx
  all_goals first
    | (cases hx; done)
    | (have e__ := gate_next hx; subst e__; repeat' first | intro _ | (with_reducible first | assumption | refine wf_advanceTo ?_ | refine wf_of_eq (rateWrite_mem ..) ?_ | refine wf_of_eq (setDisc_mem ..) ?_ | refine wf_of_eq (setTimBit_mem ..) ?_) | (fail_if_no_progress dsimp only) | split)

theorem wf_execPtpSyncSend {m : Fin 8} {s : State} {t__} (hx : execPtpSyncSend m s = .next t__) (h : Memory.wf (memOf s) = true) : Memory.wf (memOf t__) = true := by
  revert hx
  fun_cases execPtpSyncSend m s <;> intro hx
  all_goals first
    | (cases hx; done)
    | (have e__ := gate_next hx; subst e__; repeat' first | intro _ | (with_reducible first | assumption | refine wf_advanceTo ?_ | refine wf_txStamp ?_ | refine wf_of_eq (emit_mem ..) ?_ | refine wf_of_eq (setDisc_mem ..) ?_ | refine wf_of_eq (setMacs_mem ..) ?_ | refine wf_ite_same ?_ ?_) | (fail_if_no_progress dsimp only) | split)

theorem timerFire_mem (i : Nat) (s : State)  : memOf (timerFire i s) = memOf s := by
  fun_cases timerFire i s <;>
  repeat' first | intro _ | (with_reducible first | rfl | assumption | refine (raiseHat_mem ..).trans ?_ | refine (rbitSet_mem ..).trans ?_ | refine (rput_mem ..).trans ?_ | refine (rsat_mem ..).trans ?_ | refine (rset_mem ..).trans ?_ | refine ite_eq_same ?_ ?_) | (fail_if_no_progress dsimp only) | split

theorem wf_execLaunchTimerFire {i : Fin 512} {s : State} {t__} (hx : execLaunchTimerFire i s = .next t__) (h : Memory.wf (memOf s) = true) : Memory.wf (memOf t__) = true := by
  revert hx
  fun_cases execLaunchTimerFire i s <;> intro hx
  all_goals first
    | (cases hx; done)
    | (have e__ := next_inj hx; subst e__; repeat' first | intro _ | (with_reducible first | assumption | refine wf_advanceTick ?_ | refine wf_of_eq (timerFire_mem ..) ?_) | (fail_if_no_progress dsimp only) | split)

theorem timerWrite_mem (i o : Nat) (v : BitVec 64) (s : State)  : memOf (timerWrite i o v s).2 = memOf s := by
  fun_cases timerWrite i o v s <;>
  repeat' first | intro _ | (with_reducible first | rfl | assumption | refine (hatLockref_mem ..).trans ?_ | refine (timerAccept_mem ..).trans ?_) | (fail_if_no_progress dsimp only) | split

theorem execTimLctlWrite_mem (i : Fin 512) (v : BitVec 64) (s : State)  {t__} (h : execTimLctlWrite i v s = .next t__) : memOf t__ = memOf s := by
  revert h
  fun_cases execTimLctlWrite i v s <;> intro h
  all_goals first
    | (cases h; done)
    | (have e__ := next_inj h; subst e__; repeat' first | intro _ | (with_reducible first | rfl | refine (timerWrite_mem ..).trans ?_) | (fail_if_no_progress dsimp only) | split)

theorem execTimLperWrite_mem (i : Fin 512) (v : BitVec 64) (s : State)  {t__} (h : execTimLperWrite i v s = .next t__) : memOf t__ = memOf s := by
  revert h
  fun_cases execTimLperWrite i v s <;> intro h
  all_goals first
    | (cases h; done)
    | (have e__ := next_inj h; subst e__; repeat' first | intro _ | (with_reducible first | rfl | refine (timerWrite_mem ..).trans ?_) | (fail_if_no_progress dsimp only) | split)

theorem timWrite_mem (o : Nat) (v : BitVec 64) (by_ : Agent) (s : State)  : memOf (timWrite o v by_ s).2 = memOf s := by
  fun_cases timWrite o v by_ s <;>
  repeat' first | intro _ | (with_reducible first | rfl | assumption | refine (hatLockref_mem ..).trans ?_ | refine (rateWrite_mem ..).trans ?_ | refine (rput_mem ..).trans ?_ | refine (rset_mem ..).trans ?_ | refine (rw1c_mem ..).trans ?_ | refine (setTimBit_mem ..).trans ?_ | refine (stepArm_mem ..).trans ?_ | refine (timerWrite_mem ..).trans ?_ | refine ite_eq_same ?_ ?_ | refine pair_mem.trans ?_) | (fail_if_no_progress dsimp only) | split

/-! ### Hatband -/

theorem setFlag_mem (n f : Nat) (s : State)  : memOf (setFlag n f s) = memOf s := by
  fun_cases setFlag n f s <;>
  repeat' first | intro _ | (with_reducible first | rfl | assumption | refine (setWakes_mem ..).trans ?_ | refine (updFacet_mem ..).trans ?_) | (fail_if_no_progress dsimp only) | split

theorem exportPulse_mem (x : Nat) (p : Pulse) (s : State)  : memOf (exportPulse x p s) = memOf s := by
  fun_cases exportPulse x p s <;>
  repeat' first | intro _ | (with_reducible first | rfl | assumption | refine (fabImport_mem ..).trans ?_ | refine (sendFabric_mem ..).trans ?_) | (fail_if_no_progress dsimp only) | split

theorem wf_deliver {p : Pulse} {n : Nat} {s : State} (h : Memory.wf (memOf s) = true) : Memory.wf (memOf (deliver p n s)) = true := by
  fun_cases deliver p n s <;>
  repeat' first | intro _ | (with_reducible first | assumption | refine wf_movSink ?_ | refine wf_of_eq (exportPulse_mem ..) ?_ | refine wf_of_eq (facetPulse_mem ..) ?_ | refine wf_of_eq (launch0_mem ..) ?_ | refine wf_of_eq (launch1_mem ..) ?_ | refine wf_of_eq (rsat_mem ..) ?_ | refine wf_of_eq (setFlag_mem ..) ?_ | refine wf_of_eq (stewardPulse_mem ..) ?_) | (fail_if_no_progress dsimp only) | split

theorem wf_execHatbandDelivery {e : Fin 4096} {lost : List (Fin 7)} {s : State} {t__} (hx : execHatbandDelivery e lost s = .next t__) (h : Memory.wf (memOf s) = true) : Memory.wf (memOf t__) = true := by
  revert hx
  fun_cases execHatbandDelivery e lost s <;> intro hx
  all_goals first
    | (cases hx; done)
    | (have e__ := next_inj hx; subst e__; repeat' first | intro _ | (with_reducible first | assumption | refine wf_advanceTo ?_ | refine wf_deliver ?_ | refine wf_of_eq (raiseSteward_mem ..) ?_ | refine wf_of_eq (rsat_mem ..) ?_ | refine wf_of_eq (setPulses_mem ..) ?_ | refine wf_ite_same ?_ ?_ | refine wf_foldl _ ?_ _ _ ?_) | (fail_if_no_progress dsimp only) | split)

theorem hatArm_mem (s : State)  : memOf (hatArm s) = memOf s := by
  fun_cases hatArm s <;>
  repeat' first | intro _ | (with_reducible first | rfl | assumption | refine (hatRef_mem ..).trans ?_ | refine (w1sWrite_mem ..).trans ?_) | (fail_if_no_progress dsimp only) | split

theorem execHatSwaparm_mem (s : State)  {t__} (h : execHatSwaparm s = .next t__) : memOf t__ = memOf s := by
  revert h
  fun_cases execHatSwaparm s <;> intro h
  all_goals first
    | (cases h; done)
    | (have e__ := next_inj h; subst e__; repeat' first | intro _ | (with_reducible first | rfl | refine (hatArm_mem ..).trans ?_) | (fail_if_no_progress dsimp only) | split)

theorem wf_execHatbandSwap {s : State} {t__} (hx : execHatbandSwap s = .next t__) (h : Memory.wf (memOf s) = true) : Memory.wf (memOf t__) = true := by
  revert hx
  fun_cases execHatbandSwap s <;> intro hx
  all_goals first
    | (cases hx; done)
    | (have e__ := next_inj hx; subst e__; repeat' first | intro _ | (with_reducible first | assumption | refine wf_advanceTick ?_ | refine wf_of_eq (hatRef_mem ..) ?_ | refine wf_of_eq (rbitSet_mem ..) ?_ | refine wf_of_eq (rput_mem ..) ?_) | (fail_if_no_progress dsimp only) | split)

theorem hatCopyStart_mem (s : State)  : memOf (hatCopyStart s) = memOf s := by
  fun_cases hatCopyStart s <;>
  repeat' first | intro _ | (with_reducible first | rfl | assumption | refine (hatRef_mem ..).trans ?_ | refine (w1sWrite_mem ..).trans ?_) | (fail_if_no_progress dsimp only) | split

theorem execHatCopy_mem (s : State)  {t__} (h : execHatCopy s = .next t__) : memOf t__ = memOf s := by
  revert h
  fun_cases execHatCopy s <;> intro h
  all_goals first
    | (cases h; done)
    | (have e__ := next_inj h; subst e__; repeat' first | intro _ | (with_reducible first | rfl | refine (hatCopyStart_mem ..).trans ?_) | (fail_if_no_progress dsimp only) | split)

theorem wf_execHatCopyDone {s : State} {t__} (hx : execHatCopyDone s = .next t__) (h : Memory.wf (memOf s) = true) : Memory.wf (memOf t__) = true := by
  revert hx
  fun_cases execHatCopyDone s <;> intro hx
  all_goals first
    | (cases hx; done)
    | (have e__ := gate_next hx; subst e__; repeat' first | intro _ | (with_reducible first | assumption | refine wf_setMem ?_ | refine wf_of_eq (w1sClear_mem ..) ?_ | refine wf_copyBytes _ _ _ ?_ | refine wf_mem_def ?_) | (fail_if_no_progress dsimp only) | split)

theorem wf_hatWrite {o : Nat} {v : BitVec 64} {by_ : Agent} {s : State} (h : Memory.wf (memOf s) = true) : Memory.wf (memOf (hatWrite o v by_ s).2) = true := by
  fun_cases hatWrite o v by_ s <;>
  repeat' first | intro _ | (with_reducible first | assumption | refine wf_girdlePut ?_ | refine wf_of_eq (hatArm_mem ..) ?_ | refine wf_of_eq (hatCopyStart_mem ..) ?_ | refine wf_of_eq (hatLockref_mem ..) ?_ | refine wf_of_eq (rput_mem ..) ?_ | refine wf_of_eq (rset_mem ..) ?_ | refine wf_of_eq (rw1c_mem ..) ?_ | refine wf_ite_same ?_ ?_) | (fail_if_no_progress dsimp only) | split

theorem wf_fabEvent {fr : FabFrame} {s : State} {t__} (hx : fabEvent fr s = .next t__) (h : Memory.wf (memOf s) = true) :
    Memory.wf (memOf t__) = true := by
  unfold fabEvent at hx
  dsimp only at hx
  refine wf_fabReceive hx (fun x hw => wf_of_eq (fabImport_mem ..) hw) ?_
  split
  · exact h
  · exact wf_of_eq (fabImport_mem ..) h

theorem wf_execFabricEventReceive {fr : FabFrame} {s : State} {t__} (hx : execFabricEventReceive fr s = .next t__) (h : Memory.wf (memOf s) = true) : Memory.wf (memOf t__) = true := by
  revert hx
  fun_cases execFabricEventReceive fr s <;> intro hx
  all_goals first
    | (cases hx; done)
    | exact wf_fabEvent hx (by repeat' first | intro _ | (with_reducible first | assumption) | (fail_if_no_progress dsimp only) | split)

theorem wf_execFabricEventAct {e : Fin 4096} {s : State} {t__} (hx : execFabricEventAct e s = .next t__) (h : Memory.wf (memOf s) = true) : Memory.wf (memOf t__) = true := by
  revert hx
  fun_cases execFabricEventAct e s <;> intro hx
  all_goals first
    | (cases hx; done)
    | (have e__ := next_inj hx; subst e__; repeat' first | intro _ | (with_reducible first | assumption | refine wf_advanceTick ?_ | refine wf_advanceTo ?_ | refine wf_of_eq (raiseEvent_mem ..) ?_ | refine wf_of_eq (setFabric_mem ..) ?_) | (fail_if_no_progress dsimp only) | split)

/-! ### Consumables -/

theorem wf_consEdit {l : Nat} {es : List (Nat × Nat × Nat)} {s : State} (h : Memory.wf (memOf s) = true) : Memory.wf (memOf (consEdit l es s)) = true := by
  fun_cases consEdit l es s <;>
  repeat' first | intro _ | (with_reducible first | assumption | refine wf_ledgerPut ?_) | (fail_if_no_progress dsimp only) | split

theorem mirrorCons_mem (l : Nat) (s : State) : memOf (mirrorCons l s) = memOf s :=
  mem_of_ite rfl (tellMember_mem ..)

theorem wf_keepRecord {bs : List Byte} {s : State} (h : Memory.wf (memOf s) = true) : Memory.wf (memOf (keepRecord bs s)) = true := by
  unfold keepRecord
  split
  · exact wf_ledgerPut h
  · exact h

theorem seatChip_mem (p dev l : Nat) (s : State)  : memOf (seatChip p dev l s) = memOf s := by
  fun_cases seatChip p dev l s <;>
  repeat' first | intro _ | (with_reducible first | rfl | refine (setGly_mem ..).trans ?_) | (fail_if_no_progress dsimp only) | split

theorem unseatChip_mem (p dev : Nat) (s : State)  : memOf (unseatChip p dev s) = memOf s := by
  fun_cases unseatChip p dev s <;>
  repeat' first | intro _ | (with_reducible first | rfl | refine (setGly_mem ..).trans ?_) | (fail_if_no_progress dsimp only) | split

theorem wf_presentChip {p dev : Nat} {cert master : List Byte} {s : State} (h : Memory.wf (memOf s) = true) :
    Memory.wf (memOf (presentChip p dev cert master s)) = true := by
  unfold presentChip
  dsimp only
  split
  · exact wf_consEdit (wf_of_eq (seatChip_mem ..) h)
  · split
    · exact wf_ledgerPut (wf_of_eq (seatChip_mem ..) (wf_of_eq (mem_of_ite rfl (tellMember_mem ..)) h))
    · exact wf_of_eq (unseatChip_mem ..) h

theorem chipNonce_mem (s : State)  : memOf (chipNonce s).2 = memOf s := by
  fun_cases chipNonce s <;>
  repeat' first | intro _ | (with_reducible first | rfl | refine (drawFree_mem ..).trans ?_ | refine pair_mem.trans ?_ | refine (pair_eq_mem (by assumption)).trans ?_) | (fail_if_no_progress dsimp only) | split

theorem wf_chipVerdict {ok : Bool} {l : Nat} {s : State} (h : Memory.wf (memOf s) = true) : Memory.wf (memOf (chipVerdict ok l s)) = true := by
  fun_cases chipVerdict ok l s <;>
  repeat' first | intro _ | (with_reducible first | assumption | refine wf_consEdit ?_ | refine wf_of_eq (mirrorCons_mem ..) ?_) | (fail_if_no_progress dsimp only) | split

theorem wf_judgeChip {p dev : Nat} {ok : Bool} {s : State} (h : Memory.wf (memOf s) = true) :
    Memory.wf (memOf (judgeChip p dev ok s).2.2) = true := by
  unfold judgeChip
  split
  · exact h
  · exact wf_chipVerdict h

theorem wf_authChip {p dev : Nat} {bs : List Byte} {s : State} (h : Memory.wf (memOf s) = true) :
    Memory.wf (memOf (authChip p dev bs s).2.2) = true := by
  delta authChip
  generalize List.take 176 (List.drop 8 bs) = x
  generalize List.drop 248 bs = y
  have h1 : Memory.wf (memOf (chipNonce (presentChip p dev x y s)).2) = true := wf_of_eq (chipNonce_mem ..) (wf_presentChip h)
  extract_lets q
  have h2 : Memory.wf (memOf q.2) = true := h1
  clear_value q
  exact wf_judgeChip h2

theorem wf_chipAttach {p dev : Nat} {ident : List Byte} {s : State} (h : Memory.wf (memOf s) = true) :
    Memory.wf (memOf (chipAttach p dev ident s)) = true := by
  unfold chipAttach
  split
  · exact h
  · exact wf_authChip h

theorem wf_chipDetach {p : Nat} {dev : Nat} {s : State} (h : Memory.wf (memOf s) = true) : Memory.wf (memOf (chipDetach p dev s)) = true := by
  fun_cases chipDetach p dev s <;>
  repeat' first | intro _ | (with_reducible first | assumption | refine wf_consEdit ?_ | refine wf_of_eq (unseatChip_mem ..) ?_) | (fail_if_no_progress dsimp only) | split

/-! ### Sessions -/

theorem sesEvt_mem (i : Nat) (s : State)  : memOf (sesEvt i s) = memOf s := by
  fun_cases sesEvt i s <;>
  repeat' first | intro _ | (with_reducible first | rfl | refine (noteHit_mem ..).trans ?_ | assumption | refine (raiseGirdle_mem ..).trans ?_ | refine (rbitSet_mem ..).trans ?_) | (fail_if_no_progress dsimp only) | split

theorem wf_ctxPut {n : Nat} {o : Nat} {lo : Nat} {w : Nat} {v : Nat} {s : State} (h : Memory.wf (memOf s) = true) : Memory.wf (memOf (ctxPut n o lo w v s)) = true := by
  fun_cases ctxPut n o lo w v s <;>
  repeat' first | intro _ | (with_reducible first | assumption | refine wf_girdlePut ?_) | (fail_if_no_progress dsimp only) | split

theorem wf_recordReport {r : Report} {n : Nat} {s : State} (h : Memory.wf (memOf s) = true) : Memory.wf (memOf (recordReport r n s)) = true := by
  fun_cases recordReport r n s <;>
  repeat' first | intro _ | (with_reducible first | assumption | refine wf_ctxPut ?_ | refine wf_writeMem ?_ | refine wf_of_eq (rsat_mem ..) ?_ | refine wf_of_eq (sesEvt_mem ..) ?_ | refine wf_of_eq (setSes_mem ..) ?_) | (fail_if_no_progress dsimp only) | split

theorem wf_unrouted {r : Report} {s : State} (h : Memory.wf (memOf s) = true) : Memory.wf (memOf (unrouted r s)) = true := by
  fun_cases unrouted r s <;>
  repeat' first | intro _ | (with_reducible first | assumption | refine wf_recordReport ?_ | refine wf_of_eq (rsat_mem ..) ?_) | (fail_if_no_progress dsimp only) | split

theorem forwardReport_mem (r : Report) (tpkg : Nat) (s : State)  : memOf (forwardReport r tpkg s) = memOf s := by
  fun_cases forwardReport r tpkg s <;>
  repeat' first | intro _ | (with_reducible first | rfl | assumption | refine (rsat_mem ..).trans ?_ | refine (sendFabric_mem ..).trans ?_) | (fail_if_no_progress dsimp only) | split

theorem wf_startReport {r : Report} {s : State} (h : Memory.wf (memOf s) = true) : Memory.wf (memOf (startReport r s)) = true := by
  fun_cases startReport r s <;>
  repeat' first | intro _ | (with_reducible first | assumption | refine wf_recordReport ?_ | refine wf_unrouted ?_ | refine wf_of_eq (forwardReport_mem ..) ?_) | (fail_if_no_progress dsimp only) | split

theorem wf_execReportStart {s : State} {t__} (hx : execReportStart s = .next t__) (h : Memory.wf (memOf s) = true) : Memory.wf (memOf t__) = true := by
  revert hx
  fun_cases execReportStart s <;> intro hx
  all_goals first
    | (cases hx; done)
    | (have e__ := gate_next hx; subst e__; repeat' first | intro _ | (with_reducible first | assumption | refine wf_advanceTo ?_ | refine wf_startReport ?_ | refine wf_of_eq (setSes_mem ..) ?_) | (fail_if_no_progress dsimp only) | split)

theorem wf_execReportPublish {n : Fin 16384} {s : State} {t__} (hx : execReportPublish n s = .next t__) (h : Memory.wf (memOf s) = true) : Memory.wf (memOf t__) = true := by
  revert hx
  fun_cases execReportPublish n s <;> intro hx
  all_goals first
    | (cases hx; done)
    | (have e__ := gate_next hx; subst e__; repeat' first | intro _ | (with_reducible first | assumption | refine wf_ctxPut ?_ | refine wf_of_eq (raiseEvent_mem ..) ?_ | refine wf_of_eq (setSes_mem ..) ?_ | refine wf_ite_same ?_ ?_) | (fail_if_no_progress dsimp only) | split)

theorem wf_fabReport {fr : FabFrame} {s : State} {t__} (hx : fabReport fr s = .next t__) (h : Memory.wf (memOf s) = true) :
    Memory.wf (memOf t__) = true := by
  unfold fabReport at hx
  refine wf_fabReceive hx (fun x hw => ?_) h
  split
  · exact wf_of_eq (setSes_mem ..) hw
  · exact hw

theorem wf_execFabricReportReceive {fr : FabFrame} {s : State} {t__} (hx : execFabricReportReceive fr s = .next t__) (h : Memory.wf (memOf s) = true) : Memory.wf (memOf t__) = true := by
  revert hx
  fun_cases execFabricReportReceive fr s <;> intro hx
  all_goals first
    | (cases hx; done)
    | exact wf_fabReport hx (by repeat' first | intro _ | (with_reducible first | assumption) | (fail_if_no_progress dsimp only) | split)

theorem sesCopyStart_mem (s : State)  : memOf (sesCopyStart s) = memOf s := by
  fun_cases sesCopyStart s <;>
  repeat' first | intro _ | (with_reducible first | rfl | assumption | refine (sesEvt_mem ..).trans ?_ | refine (w1sWrite_mem ..).trans ?_) | (fail_if_no_progress dsimp only) | split

theorem execSesCopy_mem (s : State)  {t__} (h : execSesCopy s = .next t__) : memOf t__ = memOf s := by
  revert h
  fun_cases execSesCopy s <;> intro h
  all_goals first
    | (cases h; done)
    | (have e__ := gate_next h; subst e__; repeat' first | intro _ | (with_reducible first | rfl | refine (sesCopyStart_mem ..).trans ?_) | (fail_if_no_progress dsimp only) | split)

theorem wf_syncShadow {s : State} (h : Memory.wf (memOf s) = true) : Memory.wf (memOf (syncShadow s)) = true := by
  fun_cases syncShadow s <;>
  repeat' first | intro _ | (with_reducible first | assumption | refine wf_setMem ?_ | refine wf_copyBytes _ _ _ ?_ | refine wf_mem_def ?_) | (fail_if_no_progress dsimp only) | split

theorem wf_execSesCopyDone {s : State} {t__} (hx : execSesCopyDone s = .next t__) (h : Memory.wf (memOf s) = true) : Memory.wf (memOf t__) = true := by
  revert hx
  fun_cases execSesCopyDone s <;> intro hx
  all_goals first
    | (cases hx; done)
    | (have e__ := gate_next hx; subst e__; repeat' first | intro _ | (with_reducible first | assumption | refine wf_syncShadow ?_ | refine wf_of_eq (w1sClear_mem ..) ?_) | (fail_if_no_progress dsimp only) | split)

theorem sesArm_mem (s : State)  : memOf (sesArm s) = memOf s := by
  fun_cases sesArm s <;>
  repeat' first | intro _ | (with_reducible first | rfl | assumption | refine (rbitSet_mem ..).trans ?_ | refine (sesEvt_mem ..).trans ?_) | (fail_if_no_progress dsimp only) | split

theorem execSesSwaparm_mem (s : State)  {t__} (h : execSesSwaparm s = .next t__) : memOf t__ = memOf s := by
  revert h
  fun_cases execSesSwaparm s <;> intro h
  all_goals first
    | (cases h; done)
    | (have e__ := gate_next h; subst e__; repeat' first | intro _ | (with_reducible first | rfl | refine (sesArm_mem ..).trans ?_) | (fail_if_no_progress dsimp only) | split)

theorem wf_bankWrite {a : Nat} {v : BitVec 64} {s : State} (h : Memory.wf (memOf s) = true) : Memory.wf (memOf (bankWrite a v s).2) = true := by
  fun_cases bankWrite a v s <;>
  repeat' first | intro _ | (with_reducible first | assumption | refine wf_girdlePut ?_ | refine wf_of_eq (sesEvt_mem ..) ?_) | (fail_if_no_progress dsimp only) | split

theorem pushBytes_mem (p : Nat) (bs : List Byte) (s : State)  : memOf (pushBytes p bs s) = memOf s := by
  fun_cases pushBytes p bs s <;>
  repeat' first | intro _ | (with_reducible first | rfl | refine (latchEvent_mem ..).trans ?_ | refine (setThread_mem ..).trans ?_) | (fail_if_no_progress dsimp only) | split

theorem sesPush_mem (v : BitVec 64) (s : State)  : memOf (sesPush v s).2 = memOf s := by
  fun_cases sesPush v s <;>
  repeat' first | intro _ | (with_reducible first | rfl | assumption | refine (pushBytes_mem ..).trans ?_ | refine (sesEvt_mem ..).trans ?_) | (fail_if_no_progress dsimp only) | split

theorem execSesCmdPush_mem (v : BitVec 64) (by_ : Agent) (s : State)  {t__} (h : execSesCmdPush v by_ s = .next t__) : memOf t__ = memOf s := by
  revert h
  fun_cases execSesCmdPush v by_ s <;> intro h
  all_goals first
    | (cases h; done)
    | (have e__ := gate_next h; subst e__; repeat' first | intro _ | (with_reducible first | rfl | refine (sesPush_mem ..).trans ?_) | (fail_if_no_progress dsimp only) | split)

theorem wf_ctxWrite {n : Nat} {off : Nat} {bs : List Byte} {by_ : Agent} {s : State} (h : Memory.wf (memOf s) = true) : Memory.wf (memOf (ctxWrite n off bs by_ s).2) = true := by
  fun_cases ctxWrite n off bs by_ s <;>
  repeat' first | intro _ | (with_reducible first | assumption | refine wf_girdlePut ?_ | refine wf_of_eq (sesEvt_mem ..) ?_ | refine wf_of_eq (setTags_mem ..) ?_) | (fail_if_no_progress dsimp only) | split

theorem wf_execContextWrite {n : Fin 16384} {off : Nat} {bytes : List (BitVec 8)} {by_ : Agent} {s : State} {t__} (hx : execContextWrite n off bytes by_ s = .next t__) (h : Memory.wf (memOf s) = true) : Memory.wf (memOf t__) = true := by
  revert hx
  fun_cases execContextWrite n off bytes by_ s <;> intro hx
  all_goals first
    | (cases hx; done)
    | (have e__ := gate_next hx; subst e__; repeat' first | intro _ | (with_reducible first | assumption | refine wf_ctxWrite ?_ | refine wf_of_eq (sesEvt_mem ..) ?_ | refine wf_ite_same ?_ ?_) | (fail_if_no_progress dsimp only) | split)

theorem sesCtlWrite_mem (v : BitVec 64) (s : State)  : memOf (sesCtlWrite v s) = memOf s := by
  fun_cases sesCtlWrite v s <;>
  repeat' first | intro _ | (with_reducible first | rfl | assumption | refine (rbitSet_mem ..).trans ?_ | refine (sesArm_mem ..).trans ?_ | refine (sesCopyStart_mem ..).trans ?_ | refine ite_eq_same ?_ ?_) | (fail_if_no_progress dsimp only) | split

theorem sesEvtWrite_mem (v : BitVec 64) (by_ : Agent) (s : State)  : memOf (sesEvtWrite v by_ s) = memOf s := by
  fun_cases sesEvtWrite v by_ s <;>
  repeat' first | intro _ | (with_reducible first | rfl | assumption | refine (rput_mem ..).trans ?_ | refine (rw1c_mem ..).trans ?_) | (fail_if_no_progress dsimp only) | split

theorem wf_sesWrite {o : Nat} {v : BitVec 64} {by_ : Agent} {s : State} (h : Memory.wf (memOf s) = true) :
    Memory.wf (memOf (sesWrite o v by_ s).2) = true := by
  delta sesWrite
  split
  · exact wf_of_eq (sesCtlWrite_mem ..) h
  · split
    · exact wf_of_eq (sesEvt_mem ..) h
    · exact wf_of_eq (rset_mem ..) h
  · exact wf_of_eq (sesEvtWrite_mem ..) h
  · exact wf_of_eq (sesPush_mem ..) h
  · exact h
  · split
    · exact wf_bankWrite h
    · exact h

theorem armSoon_mem (s : State)  : memOf (armSoon s) = memOf s := by
  fun_cases armSoon s <;>
  repeat' first | intro _ | (with_reducible first | rfl | assumption | refine (rbitSet_mem ..).trans ?_ | refine (rset_mem ..).trans ?_) | (fail_if_no_progress dsimp only) | split

theorem wf_prepShadow {s : State} (h : Memory.wf (memOf s) = true) : Memory.wf (memOf (prepShadow s)) = true := by
  fun_cases prepShadow s <;>
  repeat' first | intro _ | (with_reducible first | assumption | refine wf_syncShadow ?_) | (fail_if_no_progress dsimp only) | split

theorem wf_insertRoute {b k e : Nat} {s t__ : State} (hx : insertRoute b k e s = some t__) (h : Memory.wf (memOf s) = true) :
    Memory.wf (memOf t__) = true := by
  delta insertRoute at hx
  split at hx
  · have e := Option.some.inj hx
    subst e
    exact wf_girdlePut h
  · obtain ⟨p, -, e⟩ := Option.map_eq_some_iff.mp hx
    subst e
    exact wf_girdlePut (wf_girdlePut h)

theorem wf_removeRoute {b : Nat} {k : Nat} {s : State} (h : Memory.wf (memOf s) = true) : Memory.wf (memOf (removeRoute b k s)) = true := by
  fun_cases removeRoute b k s <;>
  repeat' first | intro _ | (with_reducible first | assumption | refine wf_girdlePut ?_) | (fail_if_no_progress dsimp only) | split

theorem allocate_mem (s : State) : memOf (allocate s).2 = memOf s := (tellMember_mem ..).trans (setSes_mem ..)

theorem addPool_mem (ids : List Nat) (s : State) : memOf (addPool ids s) = memOf s := setSes_mem ..

theorem fillPool_mem (s : State) : memOf (fillPool s) = memOf s := by
  unfold fillPool
  split
  · rfl
  split
  · exact (addPool_mem ..).trans (allocate_mem ..)
  split
  · rfl
  · exact (tellMember_mem ..).trans (setSes_mem ..)

theorem returnIdentity_mem (e : Nat) (s : State) : memOf (returnIdentity e s) = memOf s := by
  unfold returnIdentity
  dsimp only
  split
  · exact (tellMember_mem ..).trans (setSes_mem ..)
  · exact setSes_mem ..

theorem wf_controlAct {p : Nat} {c : Control} {s : State} (h : Memory.wf (memOf s) = true) : Memory.wf (memOf (controlAct p c s)) = true := by
  unfold controlAct
  dsimp only
  split
  · exact h
  · exact h
  · exact wf_of_eq (mem_of_ite ((sendControl_mem ..).trans (allocate_mem s)) rfl) h
  · exact wf_of_eq (mem_of_ite (addPool_mem ..) rfl) h
  · exact wf_of_eq (mem_of_ite (setSes_mem ..) rfl) h
  · exact wf_of_eq (returnIdentity_mem ..) h
  · exact wf_keepRecord h
  · split
    · exact wf_of_eq (sendControl_mem ..) h
    · exact h

theorem poolIdentity_mem (sig : Nat) (s : State) {t__} (h : poolIdentity sig s = some t__) : memOf t__.2 = memOf s := by
  delta poolIdentity at h
  split at h
  · cases h
  · have e := Option.some.inj h
    subst e
    exact setSes_mem ..

theorem takeIdentity_mem (sig : Nat) (s : State) {t__} (h : takeIdentity sig s = some t__) : memOf t__.2 = memOf s := by
  delta takeIdentity at h
  split at h
  · have e := Option.some.inj h
    subst e
    exact setSes_mem ..
  · obtain ⟨q, hq, e⟩ := Option.map_eq_some_iff.mp h
    subst e
    exact (fillPool_mem ..).trans (poolIdentity_mem (h := hq) ..)

theorem wf_openContext {n : Nat} {cell : Nat} {sub : Nat} {eid : Nat} {sig : Nat} {fresh : Bool} {s : State} (h : Memory.wf (memOf s) = true) : Memory.wf (memOf (openContext n cell sub eid sig fresh s)) = true := by
  fun_cases openContext n cell sub eid sig fresh s <;>
  repeat' first | intro _ | (with_reducible first | assumption | refine wf_ctxPut ?_ | refine wf_girdlePut ?_ | refine wf_ite_same ?_ ?_ | refine wf_mem_def ?_) | simp only [mk_mem] | (fail_if_no_progress dsimp only) | split

theorem wf_openSession {n p sub sig : Nat} {fresh : Bool} {q : Nat × State} {t__} (hx : openSession n p sub sig fresh q = some t__)
    (h : Memory.wf (memOf q.2) = true) : Memory.wf (memOf t__) = true := by
  delta openSession at hx
  extract_lets src s1 s2 k at hx
  have h2 : Memory.wf (memOf s2) = true := wf_prepShadow (wf_openContext (wf_of_eq (setSes_mem ..) h))
  clear_value s2 k
  obtain ⟨x, hi, e⟩ := Option.map_eq_some_iff.mp hx
  subst e
  exact wf_of_eq (armSoon_mem ..) (wf_of_eq (setSes_mem ..) (wf_insertRoute hi h2))

theorem wf_attach {p sub proto : Nat} {ident : List Byte} {s t__ : State} (hx : attach p sub proto ident s = some t__)
    (h : Memory.wf (memOf s) = true) : Memory.wf (memOf t__) = true := by
  delta attach at hx
  extract_lets sig old at hx
  clear_value sig old
  split at hx
  · cases hx
  · obtain ⟨q, hq, hx⟩ := Option.bind_eq_some_iff.mp hx
    exact wf_openSession hx (wf_of_eq (takeIdentity_mem (h := hq) ..) h)

theorem wf_execEndpointAttach {p : Fin 1024} {sub : BitVec 12} {proto : BitVec 8} {ident : List (BitVec 8)} {s : State} {t__}
    (hx : execEndpointAttach p sub proto ident s = .next t__) (h : Memory.wf (memOf s) = true) : Memory.wf (memOf t__) = true := by
  delta execEndpointAttach at hx
  split at hx
  · cases hx
  split at hx
  · have e := next_inj hx
    subst e
    exact wf_of_eq (sesEvt_mem ..) h
  extract_lets s1 at hx
  have h1 : Memory.wf (memOf s1) = true := wf_of_eq (fillPool_mem ..) (wf_ite_same h wf_chipAttach)
  clear_value s1
  have e := next_inj hx
  subst e
  generalize hq : attach _ _ _ _ _ = q
  cases q with
  | none => exact h1
  | some t => exact wf_attach hq h1

theorem wf_detach {n : Nat} {s : State} (h : Memory.wf (memOf s) = true) : Memory.wf (memOf (detach n s)) = true := by
  fun_cases detach n s <;>
  repeat' first | intro _ | (with_reducible first | assumption | refine wf_chipDetach ?_ | refine wf_ctxPut ?_ | refine wf_prepShadow ?_ | refine wf_removeRoute ?_ | refine wf_of_eq (armSoon_mem ..) ?_ | refine wf_of_eq (setSes_mem ..) ?_ | refine wf_ite_same ?_ ?_) | (fail_if_no_progress dsimp only) | split

theorem wf_execEndpointDetach {n : Fin 16384} {s : State} {t__} (hx : execEndpointDetach n s = .next t__) (h : Memory.wf (memOf s) = true) : Memory.wf (memOf t__) = true := by
  revert hx
  fun_cases execEndpointDetach n s <;> intro hx
  all_goals first
    | (cases hx; done)
    | (have e__ := gate_next hx; subst e__; repeat' first | intro _ | (with_reducible first | assumption | refine wf_detach ?_) | (fail_if_no_progress dsimp only) | split)

theorem wf_afterSwap {s : State} (h : Memory.wf (memOf s) = true) : Memory.wf (memOf (afterSwap s)) = true := by
  fun_cases afterSwap s <;>
  repeat' first | intro _ | (with_reducible first | assumption | refine wf_ctxPut ?_ | refine wf_of_eq (pushBytes_mem ..) ?_ | refine wf_of_eq (sesEvt_mem ..) ?_ | refine wf_of_eq (setSes_mem ..) ?_ | refine wf_ite_same ?_ ?_ | refine wf_foldl _ ?_ _ _ ?_) | (fail_if_no_progress dsimp only) | split

theorem wf_execRouteSwap {s : State} {t__} (hx : execRouteSwap s = .next t__) (h : Memory.wf (memOf s) = true) : Memory.wf (memOf t__) = true := by
  revert hx
  fun_cases execRouteSwap s <;> intro hx
  all_goals first
    | (cases hx; done)
    | (have e__ := next_inj hx; subst e__; repeat' first | intro _ | (with_reducible first | assumption | refine wf_advanceTick ?_ | refine wf_afterSwap ?_ | refine wf_of_eq (rbitSet_mem ..) ?_ | refine wf_of_eq (rput_mem ..) ?_ | refine wf_of_eq (sesEvt_mem ..) ?_) | (fail_if_no_progress dsimp only) | split)

theorem wf_execSessionHoldExpiry {n : Fin 16384} {s : State} {t__} (hx : execSessionHoldExpiry n s = .next t__) (h : Memory.wf (memOf s) = true) : Memory.wf (memOf t__) = true := by
  revert hx
  fun_cases execSessionHoldExpiry n s <;> intro hx
  all_goals first
    | (cases hx; done)
    | (have e__ := gate_next hx; subst e__; repeat' first | intro _ | (with_reducible first | assumption | refine wf_advanceTo ?_ | refine wf_ctxPut ?_ | refine wf_of_eq (setSes_mem ..) ?_) | (fail_if_no_progress dsimp only) | split)

theorem wf_execFreedIdentityReturn {eid : BitVec 18} {s : State} {t__} (hx : execFreedIdentityReturn eid s = .next t__) (h : Memory.wf (memOf s) = true) : Memory.wf (memOf t__) = true := by
  revert hx
  fun_cases execFreedIdentityReturn eid s <;> intro hx
  all_goals first
    | (cases hx; done)
    | (have e__ := next_inj hx; subst e__; repeat' first | intro _ | (with_reducible first | assumption | refine wf_advanceTo ?_ | refine wf_of_eq (setSes_mem ..) ?_ | refine wf_of_eq (tellMember_mem ..) ?_ | refine wf_of_eq (returnIdentity_mem ..) ?_ | refine wf_ite_same ?_ ?_) | (fail_if_no_progress dsimp only) | split)

theorem wf_failover {pkg : Nat} {s : State} (h : Memory.wf (memOf s) = true) : Memory.wf (memOf (failover pkg s)) = true := by
  fun_cases failover pkg s <;>
  repeat' first | intro _ | (with_reducible first | assumption | refine wf_girdlePut ?_ | refine wf_prepShadow ?_ | refine wf_of_eq (armSoon_mem ..) ?_ | refine wf_ite_same ?_ ?_ | refine wf_foldl _ ?_ _ _ ?_) | (fail_if_no_progress dsimp only) | split

/-! ### Feeds -/

theorem showGate_mem (b f : Nat) (was on : Bool) (s : State) : memOf (showGate b f was on s) = memOf s := by
  unfold showGate
  split
  · rfl
  · exact emit_mem ..

theorem setFeedState_mem (b f v : Nat) (s : State) : memOf (setFeedState b f v s) = memOf s :=
  (showGate_mem ..).trans (rput_mem ..)

theorem setAcc_mem (b f v : Nat) (s : State)  : memOf (setAcc b f v s) = memOf s := by
  fun_cases setAcc b f v s <;>
  repeat' first | intro _ | (with_reducible first | rfl | refine (rput_mem ..).trans ?_ | refine (setFeed_mem ..).trans ?_) | (fail_if_no_progress dsimp only) | split

theorem feedBlank_mem (b f : Nat) (s : State)  : memOf (feedBlank b f s) = memOf s := by
  fun_cases feedBlank b f s <;>
  repeat' first | intro _ | (with_reducible first | rfl | refine (setAcc_mem ..).trans ?_ | refine (setFeed_mem ..).trans ?_ | refine (setFeedState_mem ..).trans ?_) | (fail_if_no_progress dsimp only) | split

theorem fctlWrite_mem (b f : Nat) (v : BitVec 64) (by_ : Agent) (s : State)  : memOf (fctlWrite b f v by_ s).2 = memOf s := by
  fun_cases fctlWrite b f v by_ s <;>
  repeat' first | intro _ | (with_reducible first | rfl | assumption | refine (feedBlank_mem ..).trans ?_ | refine (rbitSet_mem ..).trans ?_ | refine (rset_mem ..).trans ?_ | refine (setFeed_mem ..).trans ?_ | refine (setFeedState_mem ..).trans ?_ | refine ite_eq_same ?_ ?_) | (fail_if_no_progress dsimp only) | split

theorem feedTrip_mem (b f cause : Nat) (s : State)  : memOf (feedTrip b f cause s) = memOf s := by
  fun_cases feedTrip b f cause s <;>
  repeat' first | intro _ | (with_reducible first | rfl | assumption | refine (raiseHat_mem ..).trans ?_ | refine (raiseSteward_mem ..).trans ?_ | refine (rbitSet_mem ..).trans ?_ | refine (rput_mem ..).trans ?_ | refine (setFeed_mem ..).trans ?_ | refine (setFeedState_mem ..).trans ?_) | (fail_if_no_progress dsimp only) | split

theorem feedRules_mem (b f i vout : Nat) (x : Feed) (s : State)  : memOf (feedRules b f i vout x s) = memOf s := by
  fun_cases feedRules b f i vout x s <;>
  repeat' first | intro _ | (with_reducible first | rfl | assumption | refine (feedTrip_mem ..).trans ?_ | refine (setAcc_mem ..).trans ?_) | (fail_if_no_progress dsimp only) | split

theorem feedSample_mem (b f i vout : Nat) (s : State)  : memOf (feedSample b f i vout s) = memOf s := by
  fun_cases feedSample b f i vout s <;>
  repeat' first | intro _ | (with_reducible first | rfl | assumption | refine (feedRules_mem ..).trans ?_ | refine (feedTrip_mem ..).trans ?_ | refine (raiseHat_mem ..).trans ?_ | refine (rbitSet_mem ..).trans ?_ | refine (rput_mem ..).trans ?_ | refine (setFeed_mem ..).trans ?_ | refine (setFeedState_mem ..).trans ?_ | refine ite_eq_same ?_ ?_) | (fail_if_no_progress dsimp only) | split

theorem execFeedSwitchOn_mem (b : Fin 64) (f : Fin 4) (v : BitVec 64) (s : State)  {t__} (h : execFeedSwitchOn b f v s = .next t__) : memOf t__ = memOf s := by
  revert h
  fun_cases execFeedSwitchOn b f v s <;> intro h
  all_goals first
    | (cases h; done)
    | (have e__ := gate_next h; subst e__; repeat' first | intro _ | (with_reducible first | rfl | refine (fctlWrite_mem ..).trans ?_) | (fail_if_no_progress dsimp only) | split)

theorem execFeedSwitchOff_mem (b : Fin 64) (f : Fin 4) (v : BitVec 64) (s : State)  {t__} (h : execFeedSwitchOff b f v s = .next t__) : memOf t__ = memOf s := by
  revert h
  fun_cases execFeedSwitchOff b f v s <;> intro h
  all_goals first
    | (cases h; done)
    | (have e__ := gate_next h; subst e__; repeat' first | intro _ | (with_reducible first | rfl | refine (fctlWrite_mem ..).trans ?_) | (fail_if_no_progress dsimp only) | split)

theorem wf_execFeedSample {b : Fin 64} {f : Fin 4} {i : BitVec 16} {vout : BitVec 16} {s : State} {t__} (hx : execFeedSample b f i vout s = .next t__) (h : Memory.wf (memOf s) = true) : Memory.wf (memOf t__) = true := by
  revert hx
  fun_cases execFeedSample b f i vout s <;> intro hx
  all_goals first
    | (cases hx; done)
    | (have e__ := gate_next hx; subst e__; repeat' first | intro _ | (with_reducible first | assumption | refine wf_advanceTo ?_ | refine wf_of_eq (feedSample_mem ..) ?_) | (fail_if_no_progress dsimp only) | split)

theorem execHardLimitTrip_mem (b : Fin 64) (f : Fin 4) (s : State)  {t__} (h : execHardLimitTrip b f s = .next t__) : memOf t__ = memOf s := by
  revert h
  fun_cases execHardLimitTrip b f s <;> intro h
  all_goals first
    | (cases h; done)
    | (have e__ := gate_next h; subst e__; repeat' first | intro _ | (with_reducible first | rfl | refine (feedTrip_mem ..).trans ?_) | (fail_if_no_progress dsimp only) | split)

theorem wf_execFeedRetry {b : Fin 64} {f : Fin 4} {s : State} {t__} (hx : execFeedRetry b f s = .next t__) (h : Memory.wf (memOf s) = true) : Memory.wf (memOf t__) = true := by
  revert hx
  fun_cases execFeedRetry b f s <;> intro hx
  all_goals first
    | (cases hx; done)
    | (have e__ := gate_next hx; subst e__; repeat' first | intro _ | (with_reducible first | assumption | refine wf_advanceTo ?_ | refine wf_of_eq (feedBlank_mem ..) ?_ | refine wf_of_eq (setFeed_mem ..) ?_) | (fail_if_no_progress dsimp only) | split)

theorem fmeasRead_mem (b f : Nat) (s : State)  : memOf (fmeasRead b f s) = memOf s := by
  fun_cases fmeasRead b f s <;>
  repeat' first | intro _ | (with_reducible first | rfl | refine (rput_mem ..).trans ?_) | (fail_if_no_progress dsimp only) | split

theorem execPfdFmeasRead_mem (b : Fin 64) (f : Fin 4) (s : State)  {t__} (h : execPfdFmeasRead b f s = .next t__) : memOf t__ = memOf s := by
  revert h
  fun_cases execPfdFmeasRead b f s <;> intro h
  all_goals first
    | (cases h; done)
    | (have e__ := gate_next h; subst e__; repeat' first | intro _ | (with_reducible first | rfl | refine (emit_mem ..).trans ?_ | refine (fmeasRead_mem ..).trans ?_) | (fail_if_no_progress dsimp only) | split)

theorem pfdWrite_mem (b o : Nat) (v : BitVec 64) (by_ : Agent) (s : State)  : memOf (pfdWrite b o v by_ s).2 = memOf s := by
  fun_cases pfdWrite b o v by_ s <;>
  repeat' first | intro _ | (with_reducible first | rfl | assumption | refine (fctlWrite_mem ..).trans ?_ | refine (rput_mem ..).trans ?_ | refine (rset_mem ..).trans ?_ | refine (rw1c_mem ..).trans ?_) | (fail_if_no_progress dsimp only) | split

theorem resetFeeds_mem (b : Nat) (s : State) : memOf (resetFeeds b s) = memOf s := by
  unfold resetFeeds
  exact (setFeeds_mem ..).trans ((rclear_mem ..).trans (foldl_mem _ (fun t f => setFeedState_mem b f 0 t) _ _))

/-! ### Restore -/

theorem wf_setupSession0 {s : State} (h : Memory.wf (memOf s) = true) : Memory.wf (memOf (setupSession0 s)) = true := by
  fun_cases setupSession0 s <;>
  repeat' first | intro _ | (with_reducible first | assumption | refine wf_ctxPut ?_ | refine wf_girdlePut ?_ | refine wf_of_eq (rbitSet_mem ..) ?_ | refine wf_of_eq (setTag_mem ..) ?_) | (fail_if_no_progress dsimp only) | split

theorem giveCredits_mem (s : State)  : memOf (giveCredits s) = memOf s := by
  fun_cases giveCredits s <;>
  repeat' first | intro _ | (with_reducible first | rfl | refine (updFacet_mem ..).trans ?_ | refine foldl_eq_mem ?_ ?_) | (fail_if_no_progress dsimp only) | split

theorem reapplyRetirements_mem (s : State)  : memOf (reapplyRetirements s) = memOf s := by
  fun_cases reapplyRetirements s <;>
  repeat' first | intro _ | (with_reducible first | rfl | refine (setInteg_mem ..).trans ?_ | refine (showSpares_mem ..).trans ?_ | refine foldl_eq_mem ?_ ?_) | (fail_if_no_progress dsimp only) | split

theorem wf_loadSpine {i : Nat} {s : State} (h : Memory.wf (memOf s) = true) : Memory.wf (memOf (loadSpine i s)) = true := by
  fun_cases loadSpine i s <;>
  repeat' first | intro _ | (with_reducible first | assumption | refine wf_loadBlocker ?_ | refine wf_foldl _ ?_ _ _ ?_) | (fail_if_no_progress dsimp only) | split

theorem setReady_mem (s : State)  : memOf (setReady s) = memOf s := by
  fun_cases setReady s <;>
  repeat' first | intro _ | (with_reducible first | rfl | refine (rbitSet_mem ..).trans ?_ | refine (rput_mem ..).trans ?_) | (fail_if_no_progress dsimp only) | split

theorem groupOff_mem (g : Nat) (s : State)  : memOf (groupOff g s) = memOf s := by
  fun_cases groupOff g s <;>
  repeat' first | intro _ | (with_reducible first | rfl | refine (groupThreadsOff_mem ..).trans ?_ | refine (rclear_mem ..).trans ?_ | refine (resetCell_mem ..).trans ?_ | refine (stopGroup_mem ..).trans ?_ | refine foldl_eq_mem ?_ ?_) | (fail_if_no_progress dsimp only) | split

theorem wf_spineOff {i : Nat} {s : State} (h : Memory.wf (memOf s) = true) : Memory.wf (memOf (spineOff i s)) = true := by
  fun_cases spineOff i s <;>
  repeat' first | intro _ | (with_reducible first | assumption | refine wf_resetBlocker ?_ | refine wf_of_eq (groupOff_mem ..) ?_ | refine wf_of_eq (resetFeeds_mem ..) ?_ | refine wf_of_eq (setGly_mem ..) ?_ | refine wf_foldl _ ?_ _ _ ?_) | (fail_if_no_progress dsimp only) | split

theorem ethernetOff_mem (s : State)  : memOf (ethernetOff s) = memOf s := by
  fun_cases ethernetOff s <;>
  repeat' first | intro _ | (with_reducible first | rfl | refine (rclear_mem ..).trans ?_ | refine (setFabric_mem ..).trans ?_ | refine (setMacs_mem ..).trans ?_) | (fail_if_no_progress dsimp only) | split

theorem wf_sessionStoreOff {s : State} (h : Memory.wf (memOf s) = true) : Memory.wf (memOf (sessionStoreOff s)) = true := by
  fun_cases sessionStoreOff s <;>
  repeat' first | intro _ | (with_reducible first | assumption | refine wf_setMem ?_ | refine wf_of_eq (rclear_mem ..) ?_ | refine wf_tclear _ _ ?_ | refine wf_mem_def ?_) | (fail_if_no_progress dsimp only) | split

theorem pcieOff_mem (s : State)  : memOf (pcieOff s) = memOf s := by
  fun_cases pcieOff s <;>
  repeat' first | intro _ | (with_reducible first | rfl | refine (rclear_mem ..).trans ?_ | refine (setGly_mem ..).trans ?_ | refine (setLinks_mem ..).trans ?_ | refine (setMsixHeld_mem ..).trans ?_ | refine (setMsixOpen_mem ..).trans ?_) | (fail_if_no_progress dsimp only) | split

end Sys2Proof.Laws
end

