-- ==== Sys2Proof/Laws/MemPower.lean ====
section
/-! SUPPORT. Memory keeps its canonical form under facet entry and events, the ledger, power. -/
namespace Sys2Proof.Laws
open Sys2Proof.Machine
set_option maxRecDepth 20000

/-! ### FacetEntry -/

theorem clearEntry_mem (n : Nat) (e : Entry) (s : State)  : memOf (clearEntry n e s) = memOf s := by
  fun_cases clearEntry n e s <;>
  repeat' first | intro _ | (with_reducible first | rfl | assumption | refine (updFacet_mem ..).trans ?_) | (fail_if_no_progress dsimp only) | split

theorem kenterRegs_mem (n : Nat) (e : Entry) (s : State)  : memOf (kenterRegs n e s) = memOf s := by
  fun_cases kenterRegs n e s <;>
  repeat' first | intro _ | (with_reducible first | rfl | refine (updFacet_mem ..).trans ?_) | (fail_if_no_progress dsimp only) | split

theorem atFault_mem (n : Nat) (e : Entry) (s : State)  : memOf (atFault n e s) = memOf s := by
  fun_cases atFault n e s <;>
  repeat' first | intro _ | (with_reducible first | rfl | refine (updFacet_mem ..).trans ?_) | (fail_if_no_progress dsimp only) | split

theorem wf_takeEntry {n : Nat} {e : Entry} {s : State} (h : Memory.wf (memOf s) = true) : Memory.wf (memOf (takeEntry n e s)) = true := by
  fun_cases takeEntry n e s <;>
  repeat' first | intro _ | (with_reducible first | assumption | refine wf_drainFacet ?_ | refine wf_facetReset ?_ | refine wf_longProgress ?_ | refine wf_of_eq (atFault_mem ..) ?_ | refine wf_of_eq (clearEntry_mem ..) ?_ | refine wf_of_eq (finishLong_mem ..) ?_ | refine wf_of_eq (kenterRegs_mem ..) ?_ | refine wf_of_eq (updFacet_mem ..) ?_) | (fail_if_no_progress dsimp only) | split

/-! ### FacetRegs -/

theorem facetRegWrite_mem (n o : Nat) (v : BitVec 64) (by_ : Agent) (s : State)  {t__} (h : facetRegWrite n o v by_ s = some t__) : memOf t__ = memOf s := by
  revert h
  fun_cases facetRegWrite n o v by_ s <;> intro h
  all_goals first
    | (cases h; done)
    | (cases h; repeat' first | intro _ | (with_reducible first | rfl | assumption | refine (setFacet_mem ..).trans ?_ | refine ite_eq_same ?_ ?_) | (fail_if_no_progress dsimp only) | split)

/-! ### FacetEvents -/

theorem wf_execExceptionEntry {n : Fin 128} {s : State} {t__} (hx : execExceptionEntry n s = .next t__) (h : Memory.wf (memOf s) = true) : Memory.wf (memOf t__) = true := by
  revert hx
  fun_cases execExceptionEntry n s <;> intro hx
  all_goals first
    | (cases hx; done)
    | (have e__ := next_inj hx; subst e__; repeat' first | intro _ | (with_reducible first | assumption | refine wf_advanceTo ?_ | refine wf_takeEntry ?_) | (fail_if_no_progress dsimp only) | split)

theorem wf_earlyLand {n : Nat} {s : State} (h : Memory.wf (memOf s) = true) : Memory.wf (memOf (earlyLand n s)) = true := by
  fun_cases earlyLand n s <;>
  repeat' first | intro _ | (with_reducible first | assumption | refine wf_landAll ?_ | refine wf_of_eq (setFacet_mem ..) ?_ | refine wf_of_eq (updFacet_mem ..) ?_) | (fail_if_no_progress dsimp only) | split

theorem wf_execResultLanding {n : Fin 128} {s : State} {t__} (hx : execResultLanding n s = .next t__) (h : Memory.wf (memOf s) = true) : Memory.wf (memOf t__) = true := by
  revert hx
  fun_cases execResultLanding n s <;> intro hx
  all_goals first
    | (cases hx; done)
    | (have e__ := gate_next hx; subst e__; repeat' first | intro _ | (with_reducible first | assumption | refine wf_advanceTo ?_ | refine wf_earlyLand ?_) | (fail_if_no_progress dsimp only) | split)

theorem execLoopEndAction_mem (n : Fin 128) (s : State)  {t__} (h : execLoopEndAction n s = .next t__) : memOf t__ = memOf s := by
  revert h
  fun_cases execLoopEndAction n s <;> intro h
  all_goals first
    | (cases h; done)
    | (have e__ := gate_next h; subst e__; repeat' first | intro _ | (with_reducible first | rfl | refine (updFacet_mem ..).trans ?_) | (fail_if_no_progress dsimp only) | split)

theorem wf_execHoldOverrun {n : Fin 128} {s : State} {t__} (hx : execHoldOverrun n s = .next t__) (h : Memory.wf (memOf s) = true) : Memory.wf (memOf t__) = true := by
  revert hx
  fun_cases execHoldOverrun n s <;> intro hx
  all_goals first
    | (cases hx; done)
    | (have e__ := gate_next hx; subst e__; repeat' first | intro _ | (with_reducible first | assumption | refine wf_advanceTo ?_ | refine wf_ite_same ?_ ?_) | (fail_if_no_progress dsimp only) | split)

theorem endWait_mem (n dst : Nat) (v : BitVec 64) (s : State)  : memOf (endWait n dst v s) = memOf s := by
  fun_cases endWait n dst v s <;>
  repeat' first | intro _ | (with_reducible first | rfl | assumption | refine (putFlight_mem ..).trans ?_ | refine (retire_mem ..).trans ?_ | refine (setFacet_mem ..).trans ?_ | refine foldl_eq_mem ?_ ?_) | (fail_if_no_progress dsimp only) | split

theorem wf_execTwaitRelease {n : Fin 128} {s : State} {t__} (hx : execTwaitRelease n s = .next t__) (h : Memory.wf (memOf s) = true) : Memory.wf (memOf t__) = true := by
  revert hx
  fun_cases execTwaitRelease n s <;> intro hx
  all_goals first
    | (cases hx; done)
    | (have e__ := next_inj hx; subst e__; repeat' first | intro _ | (with_reducible first | assumption | refine wf_advanceTick ?_ | refine wf_advanceTo ?_ | refine wf_of_eq (endWait_mem ..) ?_) | (fail_if_no_progress dsimp only) | split)

theorem wf_execEwaitRelease {n : Fin 128} {s : State} {t__} (hx : execEwaitRelease n s = .next t__) (h : Memory.wf (memOf s) = true) : Memory.wf (memOf t__) = true := by
  revert hx
  fun_cases execEwaitRelease n s <;> intro hx
  all_goals first
    | (cases hx; done)
    | (have e__ := next_inj hx; subst e__; repeat' first | intro _ | (with_reducible first | assumption | refine wf_advanceTo ?_ | refine wf_of_eq (endWait_mem ..) ?_ | refine wf_of_eq (updFacet_mem ..) ?_ | refine wf_ite_same ?_ ?_) | (fail_if_no_progress dsimp only) | split)

theorem wf_execLongOpDone {n : Fin 128} {s : State} {t__} (hx : execLongOpDone n s = .next t__) (h : Memory.wf (memOf s) = true) : Memory.wf (memOf t__) = true := by
  revert hx
  fun_cases execLongOpDone n s <;> intro hx
  all_goals first
    | (cases hx; done)
    | (have e__ := next_inj hx; subst e__; repeat' first | intro _ | (with_reducible first | assumption | refine wf_advanceTo ?_ | refine wf_longProgress ?_ | refine wf_of_eq (retire_mem ..) ?_ | refine wf_of_eq (setFacet_mem ..) ?_) | (fail_if_no_progress dsimp only) | split)

theorem wf_execReservationExpiry {n : Fin 128} {s : State} {t__} (hx : execReservationExpiry n s = .next t__) (h : Memory.wf (memOf s) = true) : Memory.wf (memOf t__) = true := by
  revert hx
  fun_cases execReservationExpiry n s <;> intro hx
  all_goals first
    | (cases hx; done)
    | (have e__ := gate_next hx; subst e__; repeat' first | intro _ | (with_reducible first | assumption | refine wf_advanceTo ?_ | refine wf_of_eq (updFacet_mem ..) ?_) | (fail_if_no_progress dsimp only) | split)

theorem wf_haltFacet {n : Nat} {s : State} (h : Memory.wf (memOf s) = true) : Memory.wf (memOf (haltFacet n s)) = true := by
  fun_cases haltFacet n s <;>
  repeat' first | intro _ | (with_reducible first | assumption | refine wf_drainFacet ?_ | refine wf_longProgress ?_ | refine wf_of_eq (finishLong_mem ..) ?_ | refine wf_of_eq (updFacet_mem ..) ?_) | (fail_if_no_progress dsimp only) | split

theorem wf_execFacetHalted {n : Fin 128} {s : State} {t__} (hx : execFacetHalted n s = .next t__) (h : Memory.wf (memOf s) = true) : Memory.wf (memOf t__) = true := by
  revert hx
  fun_cases execFacetHalted n s <;> intro hx
  all_goals first
    | (cases hx; done)
    | (have e__ := gate_next hx; subst e__; repeat' first | intro _ | (with_reducible first | assumption | refine wf_advanceTo ?_ | refine wf_haltFacet ?_) | (fail_if_no_progress dsimp only) | split)

theorem execFacCtlRun_mem (n : Fin 128) (s : State)  {t__} (h : execFacCtlRun n s = .next t__) : memOf t__ = memOf s := by
  revert h
  fun_cases execFacCtlRun n s <;> intro h
  all_goals first
    | (cases h; done)
    | (have e__ := next_inj h; subst e__; repeat' first | intro _ | (with_reducible first | rfl | assumption | refine (facetRun_mem ..).trans ?_ | refine ite_eq_same ?_ ?_) | (fail_if_no_progress dsimp only) | split)

theorem execFacCtlHalt_mem (n : Fin 128) (s : State)  {t__} (h : execFacCtlHalt n s = .next t__) : memOf t__ = memOf s := by
  revert h
  fun_cases execFacCtlHalt n s <;> intro h
  all_goals first
    | (cases h; done)
    | (have e__ := next_inj h; subst e__; repeat' first | intro _ | (with_reducible first | rfl | assumption | refine (updFacet_mem ..).trans ?_ | refine ite_eq_same ?_ ?_) | (fail_if_no_progress dsimp only) | split)

theorem execPflush_mem (n : Fin 128) (s : State)  {t__} (h : execPflush n s = .next t__) : memOf t__ = memOf s := by
  revert h
  fun_cases execPflush n s <;> intro h
  all_goals first
    | (cases h; done)
    | (have e__ := next_inj h; subst e__; repeat' first | intro _ | (with_reducible first | rfl | assumption | refine (updFacet_mem ..).trans ?_ | refine ite_eq_same ?_ ?_) | (fail_if_no_progress dsimp only) | split)

theorem execPflushDone_mem (n : Fin 128) (s : State)  {t__} (h : execPflushDone n s = .next t__) : memOf t__ = memOf s := by
  revert h
  fun_cases execPflushDone n s <;> intro h
  all_goals first
    | (cases h; done)
    | (have e__ := gate_next h; subst e__; repeat' first | intro _ | (with_reducible first | rfl | refine (updFacet_mem ..).trans ?_) | (fail_if_no_progress dsimp only) | split)

/-! ### Ledger -/

theorem wf_ledgerWrite {line : Nat} {off : Nat} {v : BitVec 64} {by_ : Agent} {s : State} (h : Memory.wf (memOf s) = true) : Memory.wf (memOf (ledgerWrite line off v by_ s).2) = true := by
  fun_cases ledgerWrite line off v by_ s <;>
  repeat' first | intro _ | (with_reducible first | assumption | refine wf_audit ?_ | refine wf_ledgerPut ?_ | refine wf_of_eq (rsat_mem ..) ?_) | (fail_if_no_progress dsimp only) | split

theorem wf_execLedgerWrite {line : Fin 262144} {off : Fin 8} {v : BitVec 64} {by_ : Agent} {s : State} {t__} (hx : execLedgerWrite line off v by_ s = .next t__) (h : Memory.wf (memOf s) = true) : Memory.wf (memOf t__) = true := by
  revert hx
  fun_cases execLedgerWrite line off v by_ s <;> intro hx
  all_goals first
    | (cases hx; done)
    | (have e__ := gate_next hx; subst e__; repeat' first | intro _ | (with_reducible first | assumption | refine wf_ledgerWrite ?_) | (fail_if_no_progress dsimp only) | split)

theorem wf_ledgerDamage {line : Nat} {bad : Nat} {s : State} (h : Memory.wf (memOf s) = true) : Memory.wf (memOf (ledgerDamage line bad s)) = true := by
  fun_cases ledgerDamage line bad s <;>
  repeat' first | intro _ | (with_reducible first | assumption | refine wf_ledgerPut ?_ | refine wf_poke ?_ | refine wf_of_eq (ledgerFlag_mem ..) ?_ | refine wf_of_eq (logEvents_mem ..) ?_ | refine wf_of_eq (rput_mem ..) ?_ | refine wf_of_eq (rsat_mem ..) ?_) | (fail_if_no_progress dsimp only) | split

theorem wf_execLedgerRead {line : Fin 262144} {by_ : Agent} {bad : Fin 3} {s : State} {t__} (hx : execLedgerRead line by_ bad s = .next t__) (h : Memory.wf (memOf s) = true) : Memory.wf (memOf t__) = true := by
  revert hx
  fun_cases execLedgerRead line by_ bad s <;> intro hx
  all_goals first
    | (cases hx; done)
    | (have e__ := next_inj hx; subst e__; repeat' first | intro _ | (with_reducible first | assumption | refine wf_ledgerDamage ?_ | refine wf_of_eq (emit_mem ..) ?_) | (fail_if_no_progress dsimp only) | split)

theorem setPend_mem (l : List PendLine) (s : State)  : memOf (setPend l s) = memOf s := by
  fun_cases setPend l s <;>
  repeat' first | intro _ | (with_reducible first | rfl | refine (setPendCount_mem ..).trans ?_ | refine mem_def.trans ?_) | simp only [mk_mem] | (fail_if_no_progress dsimp only) | split

theorem wf_stampRecord {p : PendLine} {s : State} (h : Memory.wf (memOf s) = true) : Memory.wf (memOf (stampRecord p s)) = true := by
  unfold stampRecord
  split
  · exact h
  split
  · exact h
  · exact wf_poke (wf_poke h)

theorem wf_execLineCommit {line : Fin 262144} {s : State} {t__} (hx : execLineCommit line s = .next t__) (h : Memory.wf (memOf s) = true) : Memory.wf (memOf t__) = true := by
  revert hx
  fun_cases execLineCommit line s <;> intro hx
  all_goals first
    | (cases hx; done)
    | (have e__ := gate_next hx; subst e__; repeat' first | intro _ | (with_reducible first | assumption | refine wf_advanceTo ?_ | refine wf_stampRecord ?_ | refine wf_of_eq (setLedger_mem ..) ?_ | refine wf_of_eq (setPend_mem ..) ?_) | (fail_if_no_progress dsimp only) | split)

theorem lineDone_mem (p : PendLine) (s : State)  : memOf (lineDone p s) = memOf s := by
  fun_cases lineDone p s <;>
  repeat' first | intro _ | (with_reducible first | rfl | assumption | refine (rput_mem ..).trans ?_ | refine (setLedger_mem ..).trans ?_ | refine (setPend_mem ..).trans ?_ | refine ite_eq_same ?_ ?_) | (fail_if_no_progress dsimp only) | split

theorem execPowerFailWarning_mem (s : State)  {t__} (h : execPowerFailWarning s = .next t__) : memOf t__ = memOf s := by
  revert h
  fun_cases execPowerFailWarning s <;> intro h
  all_goals first
    | (cases h; done)
    | (have e__ := gate_next h; subst e__; repeat' first | intro _ | (with_reducible first | rfl | refine (ledgerFlag_mem ..).trans ?_ | refine (rbitSet_mem ..).trans ?_ | refine (setLedger_mem ..).trans ?_ | refine (setPwr_mem ..).trans ?_) | (fail_if_no_progress dsimp only) | split)

theorem wf_execPowerFailWarningEnd {s : State} {t__} (hx : execPowerFailWarningEnd s = .next t__) (h : Memory.wf (memOf s) = true) : Memory.wf (memOf t__) = true := by
  revert hx
  fun_cases execPowerFailWarningEnd s <;> intro hx
  all_goals first
    | (cases hx; done)
    | (have e__ := gate_next hx; subst e__; repeat' first | intro _ | (with_reducible first | assumption | refine wf_advanceTo ?_ | refine wf_of_eq (rbitSet_mem ..) ?_ | refine wf_of_eq (setLedger_mem ..) ?_) | (fail_if_no_progress dsimp only) | split)

theorem wf_losePend {p : PendLine} {s : State} (h : Memory.wf (memOf s) = true) : Memory.wf (memOf (losePend p s)) = true := by
  fun_cases losePend p s <;>
  repeat' first | intro _ | (with_reducible first | assumption | refine wf_poke ?_ | refine wf_of_eq (drawFree_mem ..) ?_ | refine wf_of_eq (metroCommitted_mem ..) ?_ | refine wf_of_eq (pair_eq_mem (by assumption)) ?_) | (fail_if_no_progress dsimp only) | split

theorem wf_losePending {s : State} (h : Memory.wf (memOf s) = true) : Memory.wf (memOf (losePending s)) = true := by
  fun_cases losePending s <;>
  repeat' first | intro _ | (with_reducible first | assumption | refine wf_losePend ?_ | refine wf_of_eq (setMetro_mem ..) ?_ | refine wf_of_eq (setPend_mem ..) ?_ | refine wf_of_eq (trimTrails_mem ..) ?_ | refine wf_foldl _ ?_ _ _ ?_) | (fail_if_no_progress dsimp only) | split

theorem ldgWrite_mem (o : Nat) (v : BitVec 64) (s : State)  : memOf (ldgWrite o v s) = memOf s := by
  fun_cases ldgWrite o v s <;>
  repeat' first | intro _ | (with_reducible first | rfl | assumption | refine (rput_mem ..).trans ?_ | refine (rw1c_mem ..).trans ?_) | (fail_if_no_progress dsimp only) | split

/-! ### Power -/

theorem setDom_mem (d v : Nat) (s : State)  : memOf (setDom d v s) = memOf s := by
  fun_cases setDom d v s <;>
  repeat' first | intro _ | (with_reducible first | rfl | refine (rput_mem ..).trans ?_) | (fail_if_no_progress dsimp only) | split

theorem setBusy_mem (d : Nat) (b : Bool) (s : State)  : memOf (setBusy d b s) = memOf s := by
  fun_cases setBusy d b s <;>
  repeat' first | intro _ | (with_reducible first | rfl | refine (rbitSet_mem ..).trans ?_) | (fail_if_no_progress dsimp only) | split

theorem dRefuse_mem (d : Nat) (s : State)  : memOf (dRefuse d s) = memOf s := by
  fun_cases dRefuse d s <;>
  repeat' first | intro _ | (with_reducible first | rfl | refine (rbitSet_mem ..).trans ?_) | (fail_if_no_progress dsimp only) | split

theorem wf_askDrain {force : Bool} {ds : List Nat} {s : State} (h : Memory.wf (memOf s) = true) : Memory.wf (memOf (askDrain force ds s)) = true := by
  fun_cases askDrain force ds s <;>
  repeat' first | intro _ | (with_reducible first | assumption | refine wf_failChan ?_ | refine wf_of_eq (setChan_mem ..) ?_ | refine wf_ite_same ?_ ?_ | refine wf_foldl _ ?_ _ _ ?_) | (fail_if_no_progress dsimp only) | split

theorem unfreeze_mem (c : Nat) (s : State)  : memOf (unfreeze c s) = memOf s := by
  fun_cases unfreeze c s <;>
  repeat' first | intro _ | (with_reducible first | rfl | assumption | refine (setPwr_mem ..).trans ?_ | refine (updFacet_mem ..).trans ?_ | refine foldl_eq_mem ?_ ?_) | (fail_if_no_progress dsimp only) | split

theorem wf_stopFacet {n : Nat} {s : State} (h : Memory.wf (memOf s) = true) : Memory.wf (memOf (stopFacet n s)) = true := by
  delta stopFacet
  repeat' first | intro _ | (with_reducible first | assumption | refine wf_drainFacet ?_ | refine wf_longTo ?_ | refine wf_of_eq (endRetx_mem ..) ?_ | refine wf_of_eq (finishLong_mem ..) ?_ | refine wf_of_eq (updFacet_mem ..) ?_ | refine wf_ite_same ?_ ?_ | refine wf_mem_def ?_) | simp only [mk_mem] | (fail_if_no_progress dsimp only) | split

theorem addChange_mem (d t : Nat) (force : Bool) (s : State)  : memOf (addChange d t force s) = memOf s := by
  fun_cases addChange d t force s <;>
  repeat' first | intro _ | (with_reducible first | rfl | refine (setBusy_mem ..).trans ?_ | refine (setPwr_mem ..).trans ?_) | (fail_if_no_progress dsimp only) | split

theorem dropChange_mem (d : Nat) (s : State)  : memOf (dropChange d s) = memOf s := by
  fun_cases dropChange d s <;>
  repeat' first | intro _ | (with_reducible first | rfl | refine (setBusy_mem ..).trans ?_ | refine (setPwr_mem ..).trans ?_) | (fail_if_no_progress dsimp only) | split

theorem wf_startP2 {c : Nat} {force : Bool} {s : State} (h : Memory.wf (memOf s) = true) : Memory.wf (memOf (startP2 c force s)) = true := by
  fun_cases startP2 c force s <;>
  repeat' first | intro _ | (with_reducible first | assumption | refine wf_askDrain ?_ | refine wf_stopFacet ?_ | refine wf_of_eq (addChange_mem ..) ?_ | refine wf_of_eq (setDom_mem ..) ?_ | refine wf_of_eq (unfreeze_mem ..) ?_ | refine wf_foldl _ ?_ _ _ ?_) | (fail_if_no_progress dsimp only) | split

theorem setCompat_mem (c : Nat) (b : Bool) (s : State)  : memOf (setCompat c b s) = memOf s := by
  fun_cases setCompat c b s <;>
  repeat' first | intro _ | (with_reducible first | rfl | assumption | refine (rset_mem ..).trans ?_ | refine (setModeNext_mem ..).trans ?_) | (fail_if_no_progress dsimp only) | split

theorem enterP1_mem (c : Nat) (s : State)  : memOf (enterP1 c s) = memOf s := by
  fun_cases enterP1 c s <;>
  repeat' first | intro _ | (with_reducible first | rfl | refine (setDom_mem ..).trans ?_ | refine (setPwr_mem ..).trans ?_) | (fail_if_no_progress dsimp only) | split

theorem wf_actOn {d : Nat} {s : State} (h : Memory.wf (memOf s) = true) : Memory.wf (memOf (actOn d s)) = true := by
  fun_cases actOn d s <;>
  repeat' first | intro _ | (with_reducible first | assumption | refine wf_askDrain ?_ | refine wf_startP2 ?_ | refine wf_of_eq (addChange_mem ..) ?_ | refine wf_of_eq (dRefuse_mem ..) ?_ | refine wf_of_eq (enterP1_mem ..) ?_ | refine wf_of_eq (setWakes_mem ..) ?_) | (fail_if_no_progress dsimp only) | split

theorem wf_actAgain {d : Nat} {s : State} (h : Memory.wf (memOf s) = true) : Memory.wf (memOf (actAgain d s)) = true := by
  fun_cases actAgain d s <;>
  repeat' first | intro _ | (with_reducible first | assumption | refine wf_actOn ?_ | refine wf_of_eq (setPwr_mem ..) ?_) | (fail_if_no_progress dsimp only) | split

theorem wf_dctlWrite {d : Nat} {v : BitVec 64} {s : State} (h : Memory.wf (memOf s) = true) : Memory.wf (memOf (dctlWrite d v s)) = true := by
  fun_cases dctlWrite d v s <;>
  repeat' first | intro _ | (with_reducible first | assumption | refine wf_actOn ?_ | refine wf_of_eq (rset_mem ..) ?_ | refine wf_of_eq (setPwr_mem ..) ?_ | refine wf_of_eq (setWakes_mem ..) ?_) | (fail_if_no_progress dsimp only) | split

theorem wf_execPwrDctlWrite {d : Fin 38} {v : BitVec 64} {s : State} {t__} (hx : execPwrDctlWrite d v s = .next t__) (h : Memory.wf (memOf s) = true) : Memory.wf (memOf t__) = true := by
  revert hx
  fun_cases execPwrDctlWrite d v s <;> intro hx
  all_goals first
    | (cases hx; done)
    | (have e__ := next_inj hx; subst e__; repeat' first | intro _ | (with_reducible first | assumption | refine wf_dctlWrite ?_) | (fail_if_no_progress dsimp only) | split)

theorem wf_switchOff {d : Nat} {s : State} (h : Memory.wf (memOf s) = true) : Memory.wf (memOf (switchOff d s)) = true := by
  fun_cases switchOff d s <;>
  repeat' first | intro _ | (with_reducible first | assumption | refine wf_spineOff ?_ | refine wf_of_eq (ethernetOff_mem ..) ?_ | refine wf_of_eq (groupOff_mem ..) ?_ | refine wf_of_eq (setDom_mem ..) ?_ | refine wf_foldl _ ?_ _ _ ?_) | (fail_if_no_progress dsimp only) | split

theorem wf_switchOn {d : Nat} {s : State} (h : Memory.wf (memOf s) = true) : Memory.wf (memOf (switchOn d s)) = true := by
  fun_cases switchOn d s <;>
  repeat' first | intro _ | (with_reducible first | assumption | refine wf_loadSpine ?_ | refine wf_resetBlocker ?_ | refine wf_of_eq (setDom_mem ..) ?_ | refine wf_of_eq (startThread_mem ..) ?_ | refine wf_foldl _ ?_ _ _ ?_) | (fail_if_no_progress dsimp only) | split

theorem wf_execDomainSwitchDone {d : Fin 38} {s : State} {t__} (hx : execDomainSwitchDone d s = .next t__) (h : Memory.wf (memOf s) = true) : Memory.wf (memOf t__) = true := by
  revert hx
  fun_cases execDomainSwitchDone d s <;> intro hx
  all_goals first
    | (cases hx; done)
    | (have e__ := gate_next hx; subst e__; repeat' first | intro _ | (with_reducible first | assumption | refine wf_actAgain ?_ | refine wf_advanceTo ?_ | refine wf_switchOff ?_ | refine wf_switchOn ?_ | refine wf_of_eq (dropChange_mem ..) ?_ | refine wf_of_eq (enterP1_mem ..) ?_) | (fail_if_no_progress dsimp only) | split)

theorem wf_execCrownP2Entry {c : Fin 16} {s : State} {t__} (hx : execCrownP2Entry c s = .next t__) (h : Memory.wf (memOf s) = true) : Memory.wf (memOf t__) = true := by
  revert hx
  fun_cases execCrownP2Entry c s <;> intro hx
  all_goals first
    | (cases hx; done)
    | (have e__ := gate_next hx; subst e__; repeat' first | intro _ | (with_reducible first | assumption | refine wf_actAgain ?_ | refine wf_advanceTo ?_ | refine wf_of_eq (dropChange_mem ..) ?_ | refine wf_of_eq (dropCrownResv_mem ..) ?_ | refine wf_of_eq (setDom_mem ..) ?_ | refine wf_of_eq (setPwr_mem ..) ?_ | refine wf_of_eq (updFacet_mem ..) ?_ | refine wf_foldl _ ?_ _ _ ?_) | (fail_if_no_progress dsimp only) | split)

theorem wf_abandonP2 {c : Nat} {s : State} (h : Memory.wf (memOf s) = true) : Memory.wf (memOf (abandonP2 c s)) = true := by
  fun_cases abandonP2 c s <;>
  repeat' first | intro _ | (with_reducible first | assumption | refine wf_of_eq (dropChange_mem ..) ?_ | refine wf_of_eq (setChans_mem ..) ?_) | (fail_if_no_progress dsimp only) | split

theorem wf_execP2EntryTimeout {c : Fin 16} {s : State} {t__} (hx : execP2EntryTimeout c s = .next t__) (h : Memory.wf (memOf s) = true) : Memory.wf (memOf t__) = true := by
  revert hx
  fun_cases execP2EntryTimeout c s <;> intro hx
  all_goals first
    | (cases hx; done)
    | (have e__ := gate_next hx; subst e__; repeat' first | intro _ | (with_reducible first | assumption | refine wf_abandonP2 ?_ | refine wf_actAgain ?_ | refine wf_advance ?_ | refine wf_advanceTo ?_ | refine wf_of_eq (dRefuse_mem ..) ?_ | refine wf_of_eq (setDom_mem ..) ?_) | (fail_if_no_progress dsimp only) | split)

theorem wf_execCrownWake {c : Fin 16} {s : State} {t__} (hx : execCrownWake c s = .next t__) (h : Memory.wf (memOf s) = true) : Memory.wf (memOf t__) = true := by
  revert hx
  fun_cases execCrownWake c s <;> intro hx
  all_goals first
    | (cases hx; done)
    | (have e__ := gate_next hx; subst e__; repeat' first | intro _ | (with_reducible first | assumption | refine wf_abandonP2 ?_ | refine wf_of_eq (setBusy_mem ..) ?_ | refine wf_of_eq (setPwr_mem ..) ?_ | refine wf_of_eq (setWakes_mem ..) ?_ | refine wf_ite_same ?_ ?_) | (fail_if_no_progress dsimp only) | split)

theorem failRemotes_mem (n : Nat) (s : State)  : memOf (failRemotes n s) = memOf s := by
  fun_cases failRemotes n s <;>
  repeat' first | intro _ | (with_reducible first | rfl | assumption | refine (facetPulse_mem ..).trans ?_ | refine (updFacet_mem ..).trans ?_) | (fail_if_no_progress dsimp only) | split

theorem wakeFacet_mem (deep : Bool) (n : Nat) (s : State)  : memOf (wakeFacet deep n s) = memOf s := by
  fun_cases wakeFacet deep n s <;>
  repeat' first | intro _ | (with_reducible first | rfl | assumption | refine (failRemotes_mem ..).trans ?_ | refine (setIntSrc_mem ..).trans ?_ | refine (setPwr_mem ..).trans ?_ | refine (updFacet_mem ..).trans ?_ | refine (wakeSources_mem ..).trans ?_ | refine ite_eq_same ?_ ?_ | refine mem_def.trans ?_) | simp only [mk_mem] | (fail_if_no_progress dsimp only) | split

theorem wf_wakeStarts {c : Nat} {s : State} (h : Memory.wf (memOf s) = true) : Memory.wf (memOf (wakeStarts c s)) = true := by
  fun_cases wakeStarts c s <;>
  repeat' first | intro _ | (with_reducible first | assumption | refine wf_movSink ?_ | refine wf_of_eq (setChan_mem ..) ?_ | refine wf_ite_same ?_ ?_ | refine wf_foldl _ ?_ _ _ ?_) | (fail_if_no_progress dsimp only) | split

theorem wf_wakeDone {c : Nat} {s : State} (h : Memory.wf (memOf s) = true) : Memory.wf (memOf (wakeDone c s)) = true := by
  fun_cases wakeDone c s <;>
  repeat' first | intro _ | (with_reducible first | assumption | refine wf_actAgain ?_ | refine wf_wakeStarts ?_ | refine wf_of_eq (setBusy_mem ..) ?_ | refine wf_of_eq (setDom_mem ..) ?_ | refine wf_of_eq (setPwr_mem ..) ?_ | refine wf_of_eq (setWakes_mem ..) ?_ | refine wf_of_eq (unfreeze_mem ..) ?_ | refine wf_of_eq (wakeFacet_mem ..) ?_ | refine wf_foldl _ ?_ _ _ ?_) | (fail_if_no_progress dsimp only) | split

theorem wf_execCrownWakeDone {c : Fin 16} {s : State} {t__} (hx : execCrownWakeDone c s = .next t__) (h : Memory.wf (memOf s) = true) : Memory.wf (memOf t__) = true := by
  revert hx
  fun_cases execCrownWakeDone c s <;> intro hx
  all_goals first
    | (cases hx; done)
    | (have e__ := gate_next hx; subst e__; repeat' first | intro _ | (with_reducible first | assumption | refine wf_wakeDone ?_) | (fail_if_no_progress dsimp only) | split)

theorem wf_p3Channel {k : Nat} {s : State} (h : Memory.wf (memOf s) = true) : Memory.wf (memOf (p3Channel k s)) = true := by
  fun_cases p3Channel k s <;>
  repeat' first | intro _ | (with_reducible first | assumption | refine wf_endError ?_ | refine wf_of_eq (setChan_mem ..) ?_ | refine wf_of_eq (setChanState_mem ..) ?_ | refine wf_of_eq (setFabric_mem ..) ?_) | (fail_if_no_progress dsimp only) | split

theorem wf_p3Channels {s : State} (h : Memory.wf (memOf s) = true) : Memory.wf (memOf (p3Channels s)) = true := by
  fun_cases p3Channels s <;>
  repeat' first | intro _ | (with_reducible first | assumption | refine wf_p3Channel ?_ | refine wf_of_eq (setChans_mem ..) ?_ | refine wf_of_eq (setEngines_mem ..) ?_ | refine wf_foldl _ ?_ _ _ ?_) | (fail_if_no_progress dsimp only) | split

theorem dropRequests_mem (s : State)  : memOf (dropRequests s) = memOf s := by
  fun_cases dropRequests s <;>
  repeat' first | intro _ | (with_reducible first | rfl | refine (setRaw_mem ..).trans ?_ | refine foldl_eq_mem ?_ ?_) | (fail_if_no_progress dsimp only) | split

theorem wf_p3Crowns {s : State} (h : Memory.wf (memOf s) = true) : Memory.wf (memOf (p3Crowns s)) = true := by
  fun_cases p3Crowns s <;>
  repeat' first | intro _ | (with_reducible first | assumption | refine wf_clearRange ?_ | refine wf_of_eq (dropRequests_mem ..) ?_ | refine wf_of_eq (rclear_mem ..) ?_ | refine wf_of_eq (setFacets_mem ..) ?_ | refine wf_of_eq (setIntc_mem ..) ?_ | refine wf_of_eq (setIntegs_mem ..) ?_ | refine wf_of_eq (setInts_mem ..) ?_ | refine wf_of_eq (setSideDev_mem ..) ?_ | refine wf_of_eq (setWakes_mem ..) ?_) | (fail_if_no_progress dsimp only) | split

theorem p3Queues_mem (s : State)  : memOf (p3Queues s) = memOf s := by
  fun_cases p3Queues s <;>
  repeat' first | intro _ | (with_reducible first | rfl | refine (rclear_mem ..).trans ?_ | refine (setGly_mem ..).trans ?_) | (fail_if_no_progress dsimp only) | split

theorem p3Time_mem (s : State)  : memOf (p3Time s) = memOf s := by
  fun_cases p3Time s <;>
  repeat' first | intro _ | (with_reducible first | rfl | assumption | refine (rateWrite_mem ..).trans ?_ | refine (setDisc_mem ..).trans ?_ | refine (setTimBit_mem ..).trans ?_) | (fail_if_no_progress dsimp only) | split

theorem wf_enterP3 {s : State} (h : Memory.wf (memOf s) = true) : Memory.wf (memOf (enterP3 s)) = true := by
  fun_cases enterP3 s <;>
  repeat' first | intro _ | (with_reducible first | assumption | refine wf_p3Channels ?_ | refine wf_p3Crowns ?_ | refine wf_sessionStoreOff ?_ | refine wf_spineOff ?_ | refine wf_of_eq (addRec5_mem ..) ?_ | refine wf_of_eq (ethernetOff_mem ..) ?_ | refine wf_of_eq (p3Queues_mem ..) ?_ | refine wf_of_eq (p3Time_mem ..) ?_ | refine wf_of_eq (pcieOff_mem ..) ?_ | refine wf_of_eq (rbitSet_mem ..) ?_ | refine wf_of_eq (setBusy_mem ..) ?_ | refine wf_of_eq (setDom_mem ..) ?_ | refine wf_of_eq (setFabric_mem ..) ?_ | refine wf_of_eq (setPwr_mem ..) ?_ | refine wf_foldl _ ?_ _ _ ?_) | (fail_if_no_progress dsimp only) | split

theorem wf_execStandbyEntry {s : State} {t__} (hx : execStandbyEntry s = .next t__) (h : Memory.wf (memOf s) = true) : Memory.wf (memOf t__) = true := by
  revert hx
  fun_cases execStandbyEntry s <;> intro hx
  all_goals first
    | (cases hx; done)
    | (have e__ := gate_next hx; subst e__; repeat' first | intro _ | (with_reducible first | assumption | refine wf_advanceTo ?_ | refine wf_enterP3 ?_) | (fail_if_no_progress dsimp only) | split)

theorem wf_leaveP3 {last : Nat} {s : State} (h : Memory.wf (memOf s) = true) : Memory.wf (memOf (leaveP3 last s)) = true := by
  fun_cases leaveP3 last s <;>
  repeat' first | intro _ | (with_reducible first | assumption | refine wf_advance ?_ | refine wf_loadSpine ?_ | refine wf_resetBlocker ?_ | refine wf_setupSession0 ?_ | refine wf_of_eq (giveCredits_mem ..) ?_ | refine wf_of_eq (reapplyRetirements_mem ..) ?_ | refine wf_of_eq (rput_mem ..) ?_ | refine wf_of_eq (setDom_mem ..) ?_ | refine wf_of_eq (setPwr_mem ..) ?_ | refine wf_of_eq (setReady_mem ..) ?_ | refine wf_foldl _ ?_ _ _ ?_) | (fail_if_no_progress dsimp only) | split

theorem wf_execPackageWake {pin : Bool} {time : Bool} {s : State} {t__} (hx : execPackageWake pin time s = .next t__) (h : Memory.wf (memOf s) = true) : Memory.wf (memOf t__) = true := by
  revert hx
  fun_cases execPackageWake pin time s <;> intro hx
  all_goals first
    | (cases hx; done)
    | (have e__ := gate_next hx; subst e__; repeat' first | intro _ | (with_reducible first | assumption | refine wf_advanceTick ?_ | refine wf_leaveP3 ?_ | refine wf_ite_same ?_ ?_) | (fail_if_no_progress dsimp only) | split)

theorem wf_execPowerOn {s : State} {t__} (hx : execPowerOn s = .next t__) (h : Memory.wf (memOf s) = true) : Memory.wf (memOf t__) = true := by
  revert hx
  fun_cases execPowerOn s <;> intro hx
  all_goals first
    | (cases hx; done)
    | (have e__ := next_inj hx; subst e__; repeat' first | intro _ | (with_reducible first | assumption | refine wf_losePending ?_ | refine wf_packageReset ?_ | refine wf_of_eq (setLedger_mem ..) ?_) | (fail_if_no_progress dsimp only) | split)

theorem wf_execRstNAssert {s : State} {t__} (hx : execRstNAssert s = .next t__) (h : Memory.wf (memOf s) = true) : Memory.wf (memOf t__) = true := by
  revert hx
  fun_cases execRstNAssert s <;> intro hx
  all_goals first
    | (cases hx; done)
    | (have e__ := next_inj hx; subst e__; repeat' first | intro _ | (with_reducible first | assumption | refine wf_packageReset ?_) | (fail_if_no_progress dsimp only) | split)

theorem wf_execRefclkLoss {s : State} {t__} (hx : execRefclkLoss s = .next t__) (h : Memory.wf (memOf s) = true) : Memory.wf (memOf t__) = true := by
  revert hx
  fun_cases execRefclkLoss s <;> intro hx
  all_goals first
    | (cases hx; done)
    | (have e__ := next_inj hx; subst e__; repeat' first | intro _ | (with_reducible first | assumption | refine wf_packageReset ?_) | (fail_if_no_progress dsimp only) | split)

theorem wf_execPllLockLoss {s : State} {t__} (hx : execPllLockLoss s = .next t__) (h : Memory.wf (memOf s) = true) : Memory.wf (memOf t__) = true := by
  revert hx
  fun_cases execPllLockLoss s <;> intro hx
  all_goals first
    | (cases hx; done)
    | (have e__ := next_inj hx; subst e__; repeat' first | intro _ | (with_reducible first | assumption | refine wf_packageReset ?_) | (fail_if_no_progress dsimp only) | split)

theorem wf_execSupplyTrip {s : State} {t__} (hx : execSupplyTrip s = .next t__) (h : Memory.wf (memOf s) = true) : Memory.wf (memOf t__) = true := by
  revert hx
  fun_cases execSupplyTrip s <;> intro hx
  all_goals first
    | (cases hx; done)
    | (have e__ := next_inj hx; subst e__; repeat' first | intro _ | (with_reducible first | assumption | refine wf_packageReset ?_) | (fail_if_no_progress dsimp only) | split)

theorem wf_thermalReset {s : State} (h : Memory.wf (memOf s) = true) : Memory.wf (memOf (thermalReset s)) = true := by
  fun_cases thermalReset s <;>
  repeat' first | intro _ | (with_reducible first | assumption | refine wf_packageReset ?_ | refine wf_of_eq (setPwr_mem ..) ?_) | (fail_if_no_progress dsimp only) | split

theorem wf_execThermalTrip {s : State} {t__} (hx : execThermalTrip s = .next t__) (h : Memory.wf (memOf s) = true) : Memory.wf (memOf t__) = true := by
  revert hx
  fun_cases execThermalTrip s <;> intro hx
  all_goals first
    | (cases hx; done)
    | (have e__ := next_inj hx; subst e__; repeat' first | intro _ | (with_reducible first | assumption | refine wf_thermalReset ?_) | (fail_if_no_progress dsimp only) | split)

theorem wf_execWatchdogExpiry {s : State} {t__} (hx : execWatchdogExpiry s = .next t__) (h : Memory.wf (memOf s) = true) : Memory.wf (memOf t__) = true := by
  revert hx
  fun_cases execWatchdogExpiry s <;> intro hx
  all_goals first
    | (cases hx; done)
    | (have e__ := gate_next hx; subst e__; repeat' first | intro _ | (with_reducible first | assumption | refine wf_advanceTo ?_ | refine wf_packageReset ?_) | (fail_if_no_progress dsimp only) | split)

theorem kick_mem (s : State)  : memOf (kick s) = memOf s := by
  fun_cases kick s <;>
  repeat' first | intro _ | (with_reducible first | rfl | refine (setPwr_mem ..).trans ?_) | (fail_if_no_progress dsimp only) | split

theorem execWatchdogKick_mem (s : State)  {t__} (h : execWatchdogKick s = .next t__) : memOf t__ = memOf s := by
  revert h
  fun_cases execWatchdogKick s <;> intro h
  all_goals first
    | (cases h; done)
    | (have e__ := next_inj h; subst e__; repeat' first | intro _ | (with_reducible first | rfl | refine (kick_mem ..).trans ?_) | (fail_if_no_progress dsimp only) | split)

theorem wf_execPackageReset {cause : BitVec 8} {s : State} {t__} (hx : execPackageReset cause s = .next t__) (h : Memory.wf (memOf s) = true) : Memory.wf (memOf t__) = true := by
  revert hx
  fun_cases execPackageReset cause s <;> intro hx
  all_goals first
    | (cases hx; done)
    | (have e__ := next_inj hx; subst e__; repeat' first | intro _ | (with_reducible first | assumption | refine wf_advanceTo ?_ | refine wf_packageReset ?_ | refine wf_thermalReset ?_) | (fail_if_no_progress dsimp only) | split)
    | (have e__ := gate_next hx; subst e__; repeat' first | intro _ | (with_reducible first | assumption | refine wf_advanceTo ?_ | refine wf_packageReset ?_ | refine wf_thermalReset ?_) | (fail_if_no_progress dsimp only) | split)

theorem sensorSample_mem (i : Nat) (v : BitVec 32) (s : State)  : memOf (sensorSample i v s) = memOf s := by
  fun_cases sensorSample i v s <;>
  repeat' first | intro _ | (with_reducible first | rfl | assumption | refine (rbitSet_mem ..).trans ?_ | refine (rset_mem ..).trans ?_ | refine (setPwr_mem ..).trans ?_ | refine ite_eq_same ?_ ?_) | (fail_if_no_progress dsimp only) | split

theorem wf_execSensorSample {i : Fin 58} {v : BitVec 32} {s : State} {t__} (hx : execSensorSample i v s = .next t__) (h : Memory.wf (memOf s) = true) : Memory.wf (memOf t__) = true := by
  revert hx
  fun_cases execSensorSample i v s <;> intro hx
  all_goals first
    | (cases hx; done)
    | (have e__ := next_inj hx; subst e__; repeat' first | intro _ | (with_reducible first | assumption | refine wf_advanceTo ?_ | refine wf_of_eq (sensorSample_mem ..) ?_) | (fail_if_no_progress dsimp only) | split)

theorem wf_pwrWrite {o : Nat} {v : BitVec 64} {s : State} (h : Memory.wf (memOf s) = true) : Memory.wf (memOf (pwrWrite o v s)) = true := by
  fun_cases pwrWrite o v s <;>
  repeat' first | intro _ | (with_reducible first | assumption | refine wf_dctlWrite ?_ | refine wf_of_eq (kick_mem ..) ?_ | refine wf_of_eq (rbitSet_mem ..) ?_ | refine wf_of_eq (rput_mem ..) ?_ | refine wf_of_eq (rset_mem ..) ?_ | refine wf_of_eq (rw1c_mem ..) ?_ | refine wf_ite_same ?_ ?_) | (fail_if_no_progress dsimp only) | split

theorem wf_seamReplay {d : Nat} {s : State} (h : Memory.wf (memOf s) = true) : Memory.wf (memOf (seamReplay d s)) = true := by
  fun_cases seamReplay d s <;>
  repeat' first | intro _ | (with_reducible first | assumption | refine wf_packageReset ?_ | refine wf_of_eq (logEvents_mem ..) ?_ | refine wf_of_eq (raiseSteward_mem ..) ?_ | refine wf_of_eq (setPwr_mem ..) ?_) | (fail_if_no_progress dsimp only) | split

theorem wf_execSeamReplay {d : Fin 6} {s : State} {t__} (hx : execSeamReplay d s = .next t__) (h : Memory.wf (memOf s) = true) : Memory.wf (memOf t__) = true := by
  revert hx
  fun_cases execSeamReplay d s <;> intro hx
  all_goals first
    | (cases hx; done)
    | (have e__ := next_inj hx; subst e__; repeat' first | intro _ | (with_reducible first | assumption | refine wf_seamReplay ?_) | (fail_if_no_progress dsimp only) | split)

end Sys2Proof.Laws
end

