-- ==== Sys2Proof/Laws/MemGleby.lean ====
section
/-! SUPPORT. Memory keeps its canonical form under the commands of Gleby, the bezel, updates, the mailbox. -/
namespace Sys2Proof.Laws
open Sys2Proof.Machine
set_option maxRecDepth 20000

/-! ### GlebyOps -/

theorem fail_mem (st : Nat) (s : State)  : memOf (fail st s).2 = memOf s := by
  fun_cases fail st s <;>
  repeat' first | intro _ | (with_reducible first | rfl) | (fail_if_no_progress dsimp only) | split

theorem failWith_mem (st r : Nat) (s : State)  : memOf (failWith st r s).2 = memOf s := by
  fun_cases failWith st r s <;>
  repeat' first | intro _ | (with_reducible first | rfl) | (fail_if_no_progress dsimp only) | split

theorem done_mem (r : Nat) (s : State)  : memOf (done r s).2 = memOf s := by
  fun_cases done r s <;>
  repeat' first | intro _ | (with_reducible first | rfl) | (fail_if_no_progress dsimp only) | split

theorem doneData_mem (r : Nat) (bs : List Byte) (s : State)  : memOf (doneData r bs s).2 = memOf s := by
  fun_cases doneData r bs s <;>
  repeat' first | intro _ | (with_reducible first | rfl) | (fail_if_no_progress dsimp only) | split

theorem dropCmd_mem (id : Nat) (s : State)  : memOf (dropCmd id s) = memOf s := by
  fun_cases dropCmd id s <;>
  repeat' first | intro _ | (with_reducible first | rfl | refine (setGly_mem ..).trans ?_) | (fail_if_no_progress dsimp only) | split

theorem finishCmd_mem (c : Cmd) (st r : Nat) (s : State)  : memOf (finishCmd c st r s) = memOf s := by
  fun_cases finishCmd c st r s <;>
  repeat' first | intro _ | (with_reducible first | rfl | refine (setCmd_mem ..).trans ?_ | refine (setGly_mem ..).trans ?_) | (fail_if_no_progress dsimp only) | split

theorem abandonWait_mem (c : Cmd) (s : State)  : memOf (abandonWait c s) = memOf s := by
  fun_cases abandonWait c s <;>
  repeat' first | intro _ | (with_reducible first | rfl | refine (setGly_mem ..).trans ?_) | (fail_if_no_progress dsimp only) | split

theorem wf_putData {c : Call} {bs : List Byte} {s : State} (h : Memory.wf (memOf s) = true) : Memory.wf (memOf (putData c bs s)) = true := by
  fun_cases putData c bs s <;>
  repeat' first | intro _ | (with_reducible first | assumption | refine wf_writeMem ?_ | refine wf_of_eq (emit_mem ..) ?_) | (fail_if_no_progress dsimp only) | split

theorem touchSession_mem (c : Cmd) (s : State)  : memOf (touchSession c s) = memOf s := by
  fun_cases touchSession c s <;>
  repeat' first | intro _ | (with_reducible first | rfl | assumption | refine (setGly_mem ..).trans ?_) | (fail_if_no_progress dsimp only) | split

theorem wf_settle {c : Cmd} {call : Call} {r : Reply} {s : State} (h : Memory.wf (memOf s) = true) : Memory.wf (memOf (settle c call r s)) = true := by
  fun_cases settle c call r s <;>
  repeat' first | intro _ | (with_reducible first | assumption | refine wf_putData ?_ | refine wf_of_eq (finishCmd_mem ..) ?_ | refine wf_of_eq (setCmd_mem ..) ?_) | (fail_if_no_progress dsimp only) | split

theorem wf_runCmd {sp : CmdSpec} {bad : Call → State → Option BadAt} {deny : Call → State → Bool}
    {obs : Call → List (Nat × Nat)} {body : Call → State → Reply × State} {g : GIn} {s : State} {t__}
    (hx : runCmd sp bad deny obs body g s = .next t__)
    (hb : ∀ call x, Memory.wf (memOf x) = true → Memory.wf (memOf (body call x).2) = true)
    (h : Memory.wf (memOf s) = true) : Memory.wf (memOf t__) = true := by
  unfold runCmd at hx
  have ht : ∀ c, Memory.wf (memOf (touchSession c s)) = true := fun c => wf_of_eq (touchSession_mem ..) h
  repeat' first
    | (cases hx; done)
    | (have e := next_inj hx; subst e
       first | exact wf_of_eq (finishCmd_mem ..) (ht _) | exact wf_settle (hb _ _ (ht _)))
    | split at hx
    | dsimp only at hx

theorem listReply_mem (c : Call) (start size : Nat) (recs : List (List Byte)) (s : State)  : memOf (listReply c start size recs s).2 = memOf s := by
  fun_cases listReply c start size recs s <;>
  repeat' first | intro _ | (with_reducible first | rfl | refine (doneData_mem ..).trans ?_) | (fail_if_no_progress dsimp only) | split

theorem postEvent_mem (cls : Nat) (data : BitVec 64) (s : State)  : memOf (postEvent cls data s) = memOf s := by
  fun_cases postEvent cls data s <;>
  repeat' first | intro _ | (with_reducible first | rfl | assumption | refine (setGly_mem ..).trans ?_) | (fail_if_no_progress dsimp only) | split

/-! ### GlebySystem -/

theorem getVersion_mem (x1__ : Call) (s : State)  : memOf (getVersion x1__ s).2 = memOf s := by
  fun_cases getVersion x1__ s <;>
  repeat' first | intro _ | (with_reducible first | rfl | refine (done_mem ..).trans ?_) | (fail_if_no_progress dsimp only) | split

theorem wf_execGetVersion {g : GIn} {s : State} {t__} (hx : execGetVersion g s = .next t__) (h : Memory.wf (memOf s) = true) : Memory.wf (memOf t__) = true := by
  revert hx
  fun_cases execGetVersion g s <;> intro hx
  all_goals first
    | (cases hx; done)
    | exact wf_runCmd hx (by repeat' first | intro _ | (with_reducible first | assumption | refine wf_of_eq (getVersion_mem ..) ?_) | (fail_if_no_progress dsimp only) | split)
    | exact wf_runCmd hx (by intro _ _ _; repeat' first | intro _ | (with_reducible first | assumption | refine wf_of_eq (getVersion_mem ..) ?_) | (fail_if_no_progress dsimp only) | split) h

theorem getStatus_mem (x1__ : Call) (s : State)  : memOf (getStatus x1__ s).2 = memOf s := by
  fun_cases getStatus x1__ s <;>
  repeat' first | intro _ | (with_reducible first | rfl | refine (done_mem ..).trans ?_) | (fail_if_no_progress dsimp only) | split

theorem wf_execGetStatus {g : GIn} {s : State} {t__} (hx : execGetStatus g s = .next t__) (h : Memory.wf (memOf s) = true) : Memory.wf (memOf t__) = true := by
  revert hx
  fun_cases execGetStatus g s <;> intro hx
  all_goals first
    | (cases hx; done)
    | exact wf_runCmd hx (by repeat' first | intro _ | (with_reducible first | assumption | refine wf_of_eq (getStatus_mem ..) ?_) | (fail_if_no_progress dsimp only) | split)
    | exact wf_runCmd hx (by intro _ _ _; repeat' first | intro _ | (with_reducible first | assumption | refine wf_of_eq (getStatus_mem ..) ?_) | (fail_if_no_progress dsimp only) | split) h

theorem eventEnable_mem (c : Call) (s : State)  : memOf (eventEnable c s).2 = memOf s := by
  fun_cases eventEnable c s <;>
  repeat' first | intro _ | (with_reducible first | rfl | refine (done_mem ..).trans ?_ | refine (setGly_mem ..).trans ?_) | (fail_if_no_progress dsimp only) | split

theorem wf_execEventEnable {g : GIn} {s : State} {t__} (hx : execEventEnable g s = .next t__) (h : Memory.wf (memOf s) = true) : Memory.wf (memOf t__) = true := by
  revert hx
  fun_cases execEventEnable g s <;> intro hx
  all_goals first
    | (cases hx; done)
    | exact wf_runCmd hx (by repeat' first | intro _ | (with_reducible first | assumption | refine wf_of_eq (eventEnable_mem ..) ?_) | (fail_if_no_progress dsimp only) | split)
    | exact wf_runCmd hx (by intro _ _ _; repeat' first | intro _ | (with_reducible first | assumption | refine wf_of_eq (eventEnable_mem ..) ?_) | (fail_if_no_progress dsimp only) | split) h

theorem abortCmd_mem (c : Call) (s : State)  : memOf (abortCmd c s).2 = memOf s := by
  fun_cases abortCmd c s <;>
  repeat' first | intro _ | (with_reducible first | rfl | assumption | refine (abandonWait_mem ..).trans ?_ | refine (done_mem ..).trans ?_ | refine (drawFree_mem ..).trans ?_ | refine (fail_mem ..).trans ?_ | refine (finishCmd_mem ..).trans ?_ | refine (pair_eq_mem (by assumption)).trans ?_) | (fail_if_no_progress dsimp only) | split

theorem wf_execAbort {g : GIn} {s : State} {t__} (hx : execAbort g s = .next t__) (h : Memory.wf (memOf s) = true) : Memory.wf (memOf t__) = true := by
  revert hx
  fun_cases execAbort g s <;> intro hx
  all_goals first
    | (cases hx; done)
    | exact wf_runCmd hx (by repeat' first | intro _ | (with_reducible first | assumption | refine wf_of_eq (abortCmd_mem ..) ?_) | (fail_if_no_progress dsimp only) | split)
    | exact wf_runCmd hx (by intro _ _ _; repeat' first | intro _ | (with_reducible first | assumption | refine wf_of_eq (abortCmd_mem ..) ?_) | (fail_if_no_progress dsimp only) | split) h

theorem wf_resetBody {c : Call} {s : State} (h : Memory.wf (memOf s) = true) : Memory.wf (memOf (resetBody c s).2) = true := by
  fun_cases resetBody c s <;>
  repeat' first | intro _ | (with_reducible first | assumption | refine wf_crownReset ?_ | refine wf_facetReset ?_ | refine wf_wakeDone ?_ | refine wf_of_eq (done_mem ..) ?_ | refine wf_of_eq (fail_mem ..) ?_ | refine wf_ite_same ?_ ?_) | (fail_if_no_progress dsimp only) | split

theorem wf_execResetCmd {g : GIn} {s : State} {t__} (hx : execResetCmd g s = .next t__) (h : Memory.wf (memOf s) = true) : Memory.wf (memOf t__) = true := by
  revert hx
  fun_cases execResetCmd g s <;> intro hx
  all_goals first
    | (cases hx; done)
    | exact wf_runCmd hx (by repeat' first | intro _ | (with_reducible first | assumption | refine wf_resetBody ?_) | (fail_if_no_progress dsimp only) | split)
    | exact wf_runCmd hx (by intro _ _ _; repeat' first | intro _ | (with_reducible first | assumption | refine wf_resetBody ?_) | (fail_if_no_progress dsimp only) | split) h

theorem freeBytes_mem : ∀ (x1__ : Nat) (x2__ : State), memOf (freeBytes x1__ x2__).2 = memOf x2__
  | 0, s => rfl
  | k + 1, s => (freeBytes_mem k _).trans (drawFree_mem ..)

theorem authChallenge_mem (c : Call) (s : State) : memOf (authChallenge c s).2 = memOf s := by
  delta authChallenge
  split
  · rfl
  split
  · rfl
  generalize hq : freeBytes 6 s = q
  have h : memOf q.2 = memOf s := by rw [← hq]; exact freeBytes_mem ..
  exact (setGly_mem ..).trans h

theorem wf_execAuthChallenge {g : GIn} {s : State} {t__} (hx : execAuthChallenge g s = .next t__) (h : Memory.wf (memOf s) = true) : Memory.wf (memOf t__) = true := by
  revert hx
  fun_cases execAuthChallenge g s <;> intro hx
  all_goals first
    | (cases hx; done)
    | exact wf_runCmd hx (by repeat' first | intro _ | (with_reducible first | assumption | refine wf_of_eq (authChallenge_mem ..) ?_) | (fail_if_no_progress dsimp only) | split)
    | exact wf_runCmd hx (by intro _ _ _; repeat' first | intro _ | (with_reducible first | assumption | refine wf_of_eq (authChallenge_mem ..) ?_) | (fail_if_no_progress dsimp only) | split) h

theorem wf_authOpen {c : Call} {s : State} (h : Memory.wf (memOf s) = true) : Memory.wf (memOf (authOpen c s).2) = true := by
  fun_cases authOpen c s <;>
  repeat' first | intro _ | (with_reducible first | assumption | refine wf_audit ?_ | refine wf_of_eq (fail_mem ..) ?_ | refine wf_of_eq (setGly_mem ..) ?_) | (fail_if_no_progress dsimp only) | split

theorem wf_execAuthOpen {g : GIn} {s : State} {t__} (hx : execAuthOpen g s = .next t__) (h : Memory.wf (memOf s) = true) : Memory.wf (memOf t__) = true := by
  revert hx
  fun_cases execAuthOpen g s <;> intro hx
  all_goals first
    | (cases hx; done)
    | exact wf_runCmd hx (by repeat' first | intro _ | (with_reducible first | assumption | refine wf_authOpen ?_) | (fail_if_no_progress dsimp only) | split)
    | exact wf_runCmd hx (by intro _ _ _; repeat' first | intro _ | (with_reducible first | assumption | refine wf_authOpen ?_) | (fail_if_no_progress dsimp only) | split) h

theorem authClose_mem (c : Call) (s : State)  : memOf (authClose c s).2 = memOf s := by
  fun_cases authClose c s <;>
  repeat' first | intro _ | (with_reducible first | rfl | refine (done_mem ..).trans ?_ | refine (setGly_mem ..).trans ?_) | (fail_if_no_progress dsimp only) | split

theorem wf_execAuthClose {g : GIn} {s : State} {t__} (hx : execAuthClose g s = .next t__) (h : Memory.wf (memOf s) = true) : Memory.wf (memOf t__) = true := by
  revert hx
  fun_cases execAuthClose g s <;> intro hx
  all_goals first
    | (cases hx; done)
    | exact wf_runCmd hx (by repeat' first | intro _ | (with_reducible first | assumption | refine wf_of_eq (authClose_mem ..) ?_) | (fail_if_no_progress dsimp only) | split)
    | exact wf_runCmd hx (by intro _ _ _; repeat' first | intro _ | (with_reducible first | assumption | refine wf_of_eq (authClose_mem ..) ?_) | (fail_if_no_progress dsimp only) | split) h

theorem wf_execPrincipalSessionExpiry {h : BitVec 16} {s : State} {t__} (hx : execPrincipalSessionExpiry h s = .next t__)
    (hw : Memory.wf (memOf s) = true) : Memory.wf (memOf t__) = true := by
  unfold execPrincipalSessionExpiry at hx
  split at hx
  · have e := gateAt_next hx
    subst e
    exact wf_of_eq (setGly_mem ..) (wf_advanceTo hw)
  · cases hx

theorem wf_execNonceExpiry {id : BitVec 32} {s : State} {t__} (hx : execNonceExpiry id s = .next t__) (h : Memory.wf (memOf s) = true) : Memory.wf (memOf t__) = true := by
  revert hx
  fun_cases execNonceExpiry id s <;> intro hx
  all_goals first
    | (cases hx; done)
    | (have e__ := gate_next hx; subst e__; repeat' first | intro _ | (with_reducible first | assumption | refine wf_advanceTo ?_ | refine wf_of_eq (setGly_mem ..) ?_) | (fail_if_no_progress dsimp only) | split)

/-! ### GlebyPower -/

theorem wf_crownPower {c : Call} {s : State} (h : Memory.wf (memOf s) = true) : Memory.wf (memOf (crownPower c s).2) = true := by
  fun_cases crownPower c s <;>
  repeat' first | intro _ | (with_reducible first | assumption | refine wf_dctlWrite ?_ | refine wf_of_eq (fail_mem ..) ?_) | (fail_if_no_progress dsimp only) | split

theorem wf_execCrownPower {g : GIn} {s : State} {t__} (hx : execCrownPower g s = .next t__) (h : Memory.wf (memOf s) = true) : Memory.wf (memOf t__) = true := by
  revert hx
  fun_cases execCrownPower g s <;> intro hx
  all_goals first
    | (cases hx; done)
    | exact wf_runCmd hx (by repeat' first | intro _ | (with_reducible first | assumption | refine wf_crownPower ?_) | (fail_if_no_progress dsimp only) | split)
    | exact wf_runCmd hx (by intro _ _ _; repeat' first | intro _ | (with_reducible first | assumption | refine wf_crownPower ?_) | (fail_if_no_progress dsimp only) | split) h

theorem wf_domainPower {c : Call} {s : State} (h : Memory.wf (memOf s) = true) : Memory.wf (memOf (domainPower c s).2) = true := by
  fun_cases domainPower c s <;>
  repeat' first | intro _ | (with_reducible first | assumption | refine wf_dctlWrite ?_ | refine wf_of_eq (fail_mem ..) ?_) | (fail_if_no_progress dsimp only) | split

theorem wf_execDomainPower {g : GIn} {s : State} {t__} (hx : execDomainPower g s = .next t__) (h : Memory.wf (memOf s) = true) : Memory.wf (memOf t__) = true := by
  revert hx
  fun_cases execDomainPower g s <;> intro hx
  all_goals first
    | (cases hx; done)
    | exact wf_runCmd hx (by repeat' first | intro _ | (with_reducible first | assumption | refine wf_domainPower ?_) | (fail_if_no_progress dsimp only) | split)
    | exact wf_runCmd hx (by intro _ _ _; repeat' first | intro _ | (with_reducible first | assumption | refine wf_domainPower ?_) | (fail_if_no_progress dsimp only) | split) h

theorem standbyBody_mem (c : Call) (s : State)  : memOf (standbyBody c s).2 = memOf s := by
  fun_cases standbyBody c s <;>
  repeat' first | intro _ | (with_reducible first | rfl | assumption | refine (done_mem ..).trans ?_ | refine (fail_mem ..).trans ?_ | refine (rput_mem ..).trans ?_ | refine (rset_mem ..).trans ?_) | (fail_if_no_progress dsimp only) | split

theorem wf_execStandby {g : GIn} {s : State} {t__} (hx : execStandby g s = .next t__) (h : Memory.wf (memOf s) = true) : Memory.wf (memOf t__) = true := by
  revert hx
  fun_cases execStandby g s <;> intro hx
  all_goals first
    | (cases hx; done)
    | exact wf_runCmd hx (by repeat' first | intro _ | (with_reducible first | assumption | refine wf_of_eq (standbyBody_mem ..) ?_) | (fail_if_no_progress dsimp only) | split)
    | exact wf_runCmd hx (by intro _ _ _; repeat' first | intro _ | (with_reducible first | assumption | refine wf_of_eq (standbyBody_mem ..) ?_) | (fail_if_no_progress dsimp only) | split) h

theorem powerStatus_mem (x1__ : Call) (s : State)  : memOf (powerStatus x1__ s).2 = memOf s := by
  fun_cases powerStatus x1__ s <;>
  repeat' first | intro _ | (with_reducible first | rfl | refine (doneData_mem ..).trans ?_) | (fail_if_no_progress dsimp only) | split

theorem wf_execPowerStatus {g : GIn} {s : State} {t__} (hx : execPowerStatus g s = .next t__) (h : Memory.wf (memOf s) = true) : Memory.wf (memOf t__) = true := by
  revert hx
  fun_cases execPowerStatus g s <;> intro hx
  all_goals first
    | (cases hx; done)
    | exact wf_runCmd hx (by repeat' first | intro _ | (with_reducible first | assumption | refine wf_of_eq (powerStatus_mem ..) ?_) | (fail_if_no_progress dsimp only) | split)
    | exact wf_runCmd hx (by intro _ _ _; repeat' first | intro _ | (with_reducible first | assumption | refine wf_of_eq (powerStatus_mem ..) ?_) | (fail_if_no_progress dsimp only) | split) h

theorem sensors_mem (c : Call) (s : State)  : memOf (sensors c s).2 = memOf s := by
  fun_cases sensors c s <;>
  repeat' first | intro _ | (with_reducible first | rfl | refine (listReply_mem ..).trans ?_) | (fail_if_no_progress dsimp only) | split

theorem wf_execSensors {g : GIn} {s : State} {t__} (hx : execSensors g s = .next t__) (h : Memory.wf (memOf s) = true) : Memory.wf (memOf t__) = true := by
  revert hx
  fun_cases execSensors g s <;> intro hx
  all_goals first
    | (cases hx; done)
    | exact wf_runCmd hx (by repeat' first | intro _ | (with_reducible first | assumption | refine wf_of_eq (sensors_mem ..) ?_) | (fail_if_no_progress dsimp only) | split)
    | exact wf_runCmd hx (by intro _ _ _; repeat' first | intro _ | (with_reducible first | assumption | refine wf_of_eq (sensors_mem ..) ?_) | (fail_if_no_progress dsimp only) | split) h

/-! ### GlebyTime -/

theorem refusedFree_mem (s : State)  : memOf (refusedFree s).2 = memOf s := by
  fun_cases refusedFree s <;>
  repeat' first | intro _ | (with_reducible first | rfl | refine (drawFree_mem ..).trans ?_ | refine (failWith_mem ..).trans ?_ | refine (pair_eq_mem (by assumption)).trans ?_) | (fail_if_no_progress dsimp only) | split

theorem timeGet_mem (x1__ : Call) (s : State)  : memOf (timeGet x1__ s).2 = memOf s := by
  fun_cases timeGet x1__ s <;>
  repeat' first | intro _ | (with_reducible first | rfl | refine (done_mem ..).trans ?_) | (fail_if_no_progress dsimp only) | split

theorem wf_execTimeGet {g : GIn} {s : State} {t__} (hx : execTimeGet g s = .next t__) (h : Memory.wf (memOf s) = true) : Memory.wf (memOf t__) = true := by
  revert hx
  fun_cases execTimeGet g s <;> intro hx
  all_goals first
    | (cases hx; done)
    | exact wf_runCmd hx (by repeat' first | intro _ | (with_reducible first | assumption | refine wf_of_eq (timeGet_mem ..) ?_) | (fail_if_no_progress dsimp only) | split)
    | exact wf_runCmd hx (by intro _ _ _; repeat' first | intro _ | (with_reducible first | assumption | refine wf_of_eq (timeGet_mem ..) ?_) | (fail_if_no_progress dsimp only) | split) h

theorem timeSource_mem (c : Call) (s : State)  : memOf (timeSource c s).2 = memOf s := by
  fun_cases timeSource c s <;>
  repeat' first | intro _ | (with_reducible first | rfl | refine (done_mem ..).trans ?_ | refine (rput_mem ..).trans ?_ | refine (setDisc_mem ..).trans ?_) | (fail_if_no_progress dsimp only) | split

theorem wf_execTimeSource {g : GIn} {s : State} {t__} (hx : execTimeSource g s = .next t__) (h : Memory.wf (memOf s) = true) : Memory.wf (memOf t__) = true := by
  revert hx
  fun_cases execTimeSource g s <;> intro hx
  all_goals first
    | (cases hx; done)
    | exact wf_runCmd hx (by repeat' first | intro _ | (with_reducible first | assumption | refine wf_of_eq (timeSource_mem ..) ?_) | (fail_if_no_progress dsimp only) | split)
    | exact wf_runCmd hx (by intro _ _ _; repeat' first | intro _ | (with_reducible first | assumption | refine wf_of_eq (timeSource_mem ..) ?_) | (fail_if_no_progress dsimp only) | split) h

theorem timeStep_mem (c : Call) (s : State)  : memOf (timeStep c s).2 = memOf s := by
  fun_cases timeStep c s <;>
  repeat' first | intro _ | (with_reducible first | rfl | assumption | refine (fail_mem ..).trans ?_ | refine (rset_mem ..).trans ?_ | refine (stepArm_mem ..).trans ?_) | (fail_if_no_progress dsimp only) | split

theorem wf_execTimeStep {g : GIn} {s : State} {t__} (hx : execTimeStep g s = .next t__) (h : Memory.wf (memOf s) = true) : Memory.wf (memOf t__) = true := by
  revert hx
  fun_cases execTimeStep g s <;> intro hx
  all_goals first
    | (cases hx; done)
    | exact wf_runCmd hx (by repeat' first | intro _ | (with_reducible first | assumption | refine wf_of_eq (timeStep_mem ..) ?_) | (fail_if_no_progress dsimp only) | split)
    | exact wf_runCmd hx (by intro _ _ _; repeat' first | intro _ | (with_reducible first | assumption | refine wf_of_eq (timeStep_mem ..) ?_) | (fail_if_no_progress dsimp only) | split) h

theorem timeRate_mem (c : Call) (s : State)  : memOf (timeRate c s).2 = memOf s := by
  fun_cases timeRate c s <;>
  repeat' first | intro _ | (with_reducible first | rfl | assumption | refine (done_mem ..).trans ?_ | refine (fail_mem ..).trans ?_ | refine (rateWrite_mem ..).trans ?_ | refine (refusedFree_mem ..).trans ?_) | (fail_if_no_progress dsimp only) | split

theorem wf_execTimeRate {g : GIn} {s : State} {t__} (hx : execTimeRate g s = .next t__) (h : Memory.wf (memOf s) = true) : Memory.wf (memOf t__) = true := by
  revert hx
  fun_cases execTimeRate g s <;> intro hx
  all_goals first
    | (cases hx; done)
    | exact wf_runCmd hx (by repeat' first | intro _ | (with_reducible first | assumption | refine wf_of_eq (timeRate_mem ..) ?_) | (fail_if_no_progress dsimp only) | split)
    | exact wf_runCmd hx (by intro _ _ _; repeat' first | intro _ | (with_reducible first | assumption | refine wf_of_eq (timeRate_mem ..) ?_) | (fail_if_no_progress dsimp only) | split) h

theorem ptpConfig_mem (c : Call) (s : State)  : memOf (ptpConfig c s).2 = memOf s := by
  fun_cases ptpConfig c s <;>
  repeat' first | intro _ | (with_reducible first | rfl | assumption | refine (done_mem ..).trans ?_ | refine (setDisc_mem ..).trans ?_) | (fail_if_no_progress dsimp only) | split

theorem wf_execPtpConfig {g : GIn} {s : State} {t__} (hx : execPtpConfig g s = .next t__) (h : Memory.wf (memOf s) = true) : Memory.wf (memOf t__) = true := by
  revert hx
  fun_cases execPtpConfig g s <;> intro hx
  all_goals first
    | (cases hx; done)
    | exact wf_runCmd hx (by repeat' first | intro _ | (with_reducible first | assumption | refine wf_of_eq (ptpConfig_mem ..) ?_) | (fail_if_no_progress dsimp only) | split)
    | exact wf_runCmd hx (by intro _ _ _; repeat' first | intro _ | (with_reducible first | assumption | refine wf_of_eq (ptpConfig_mem ..) ?_) | (fail_if_no_progress dsimp only) | split) h

theorem ptpStatus_mem (x1__ : Call) (s : State)  : memOf (ptpStatus x1__ s).2 = memOf s := by
  fun_cases ptpStatus x1__ s <;>
  repeat' first | intro _ | (with_reducible first | rfl | refine (done_mem ..).trans ?_ | refine (drawFree_mem ..).trans ?_ | refine (pair_eq_mem (by assumption)).trans ?_) | (fail_if_no_progress dsimp only) | split

theorem wf_execPtpStatus {g : GIn} {s : State} {t__} (hx : execPtpStatus g s = .next t__) (h : Memory.wf (memOf s) = true) : Memory.wf (memOf t__) = true := by
  revert hx
  fun_cases execPtpStatus g s <;> intro hx
  all_goals first
    | (cases hx; done)
    | exact wf_runCmd hx (by repeat' first | intro _ | (with_reducible first | assumption | refine wf_of_eq (ptpStatus_mem ..) ?_) | (fail_if_no_progress dsimp only) | split)
    | exact wf_runCmd hx (by intro _ _ _; repeat' first | intro _ | (with_reducible first | assumption | refine wf_of_eq (ptpStatus_mem ..) ?_) | (fail_if_no_progress dsimp only) | split) h

theorem timerSet_mem (c : Call) (s : State)  : memOf (timerSet c s).2 = memOf s := by
  fun_cases timerSet c s <;>
  repeat' first | intro _ | (with_reducible first | rfl | assumption | refine (done_mem ..).trans ?_ | refine (fail_mem ..).trans ?_ | refine (refusedFree_mem ..).trans ?_ | refine (timerAccept_mem ..).trans ?_) | (fail_if_no_progress dsimp only) | split

theorem wf_execTimerSet {g : GIn} {s : State} {t__} (hx : execTimerSet g s = .next t__) (h : Memory.wf (memOf s) = true) : Memory.wf (memOf t__) = true := by
  revert hx
  fun_cases execTimerSet g s <;> intro hx
  all_goals first
    | (cases hx; done)
    | exact wf_runCmd hx (by repeat' first | intro _ | (with_reducible first | assumption | refine wf_of_eq (timerSet_mem ..) ?_) | (fail_if_no_progress dsimp only) | split)
    | exact wf_runCmd hx (by intro _ _ _; repeat' first | intro _ | (with_reducible first | assumption | refine wf_of_eq (timerSet_mem ..) ?_) | (fail_if_no_progress dsimp only) | split) h

theorem wf_putHatRec {b : Nat} {r : HatRec} {s : State} (h : Memory.wf (memOf s) = true) : Memory.wf (memOf (putHatRec b r s)) = true := by
  fun_cases putHatRec b r s <;>
  repeat' first | intro _ | (with_reducible first | assumption | refine wf_girdlePut ?_) | (fail_if_no_progress dsimp only) | split

theorem wf_hatWriteBody {c : Call} {s : State} (h : Memory.wf (memOf s) = true) : Memory.wf (memOf (hatWriteBody c s).2) = true := by
  fun_cases hatWriteBody c s <;>
  repeat' first | intro _ | (with_reducible first | assumption | refine wf_putHatRec ?_ | refine wf_setMem ?_ | refine wf_of_eq (done_mem ..) ?_ | refine wf_of_eq (fail_mem ..) ?_ | refine wf_ite_same ?_ ?_ | refine wf_foldl _ ?_ _ _ ?_ | refine wf_copyBytes _ _ _ ?_ | refine wf_mem_def ?_) | (fail_if_no_progress dsimp only) | split

theorem wf_execHatWrite {g : GIn} {s : State} {t__} (hx : execHatWrite g s = .next t__) (h : Memory.wf (memOf s) = true) : Memory.wf (memOf t__) = true := by
  revert hx
  fun_cases execHatWrite g s <;> intro hx
  all_goals first
    | (cases hx; done)
    | exact wf_runCmd hx (by repeat' first | intro _ | (with_reducible first | assumption | refine wf_hatWriteBody ?_) | (fail_if_no_progress dsimp only) | split)
    | exact wf_runCmd hx (by intro _ _ _; repeat' first | intro _ | (with_reducible first | assumption | refine wf_hatWriteBody ?_) | (fail_if_no_progress dsimp only) | split) h

theorem hatSwapBody_mem (c : Call) (s : State)  : memOf (hatSwapBody c s).2 = memOf s := by
  fun_cases hatSwapBody c s <;>
  repeat' first | intro _ | (with_reducible first | rfl | assumption | refine (fail_mem ..).trans ?_ | refine (hatArm_mem ..).trans ?_ | refine (rset_mem ..).trans ?_) | (fail_if_no_progress dsimp only) | split

theorem wf_execHatSwap {g : GIn} {s : State} {t__} (hx : execHatSwap g s = .next t__) (h : Memory.wf (memOf s) = true) : Memory.wf (memOf t__) = true := by
  revert hx
  fun_cases execHatSwap g s <;> intro hx
  all_goals first
    | (cases hx; done)
    | exact wf_runCmd hx (by repeat' first | intro _ | (with_reducible first | assumption | refine wf_of_eq (hatSwapBody_mem ..) ?_) | (fail_if_no_progress dsimp only) | split)
    | exact wf_runCmd hx (by intro _ _ _; repeat' first | intro _ | (with_reducible first | assumption | refine wf_of_eq (hatSwapBody_mem ..) ?_) | (fail_if_no_progress dsimp only) | split) h

/-! ### GlebyPorts -/

theorem groupSet_mem (c : Call) (s : State)  : memOf (groupSet c s).2 = memOf s := by
  fun_cases groupSet c s <;>
  repeat' first | intro _ | (with_reducible first | rfl | assumption | refine (done_mem ..).trans ?_ | refine (fail_mem ..).trans ?_ | refine (failWith_mem ..).trans ?_ | refine (groupWrite_mem ..).trans ?_) | (fail_if_no_progress dsimp only) | split

theorem wf_execGroupSet {g : GIn} {s : State} {t__} (hx : execGroupSet g s = .next t__) (h : Memory.wf (memOf s) = true) : Memory.wf (memOf t__) = true := by
  revert hx
  fun_cases execGroupSet g s <;> intro hx
  all_goals first
    | (cases hx; done)
    | exact wf_runCmd hx (by repeat' first | intro _ | (with_reducible first | assumption | refine wf_of_eq (groupSet_mem ..) ?_) | (fail_if_no_progress dsimp only) | split)
    | exact wf_runCmd hx (by intro _ _ _; repeat' first | intro _ | (with_reducible first | assumption | refine wf_of_eq (groupSet_mem ..) ?_) | (fail_if_no_progress dsimp only) | split) h

theorem startMeasure_mem (p kind : Nat) (v : BitVec 64) (s : State)  : memOf (startMeasure p kind v s).2 = memOf s := by
  fun_cases startMeasure p kind v s <;>
  repeat' first | intro _ | (with_reducible first | rfl | assumption | refine (cellWrite_mem ..).trans ?_ | refine (refusedFree_mem ..).trans ?_ | refine (fail_mem ..).trans ?_) | (fail_if_no_progress dsimp only) | split

theorem probeBody_mem (c : Call) (s : State)  : memOf (probeBody c s).2 = memOf s := by
  fun_cases probeBody c s <;>
  repeat' first | intro _ | (with_reducible first | rfl | refine (fail_mem ..).trans ?_ | refine (startMeasure_mem ..).trans ?_) | (fail_if_no_progress dsimp only) | split

theorem wf_execProbe {g : GIn} {s : State} {t__} (hx : execProbe g s = .next t__) (h : Memory.wf (memOf s) = true) : Memory.wf (memOf t__) = true := by
  revert hx
  fun_cases execProbe g s <;> intro hx
  all_goals first
    | (cases hx; done)
    | exact wf_runCmd hx (by repeat' first | intro _ | (with_reducible first | assumption | refine wf_of_eq (probeBody_mem ..) ?_) | (fail_if_no_progress dsimp only) | split)
    | exact wf_runCmd hx (by intro _ _ _; repeat' first | intro _ | (with_reducible first | assumption | refine wf_of_eq (probeBody_mem ..) ?_) | (fail_if_no_progress dsimp only) | split) h

theorem cableBody_mem (c : Call) (s : State)  : memOf (cableBody c s).2 = memOf s := by
  fun_cases cableBody c s <;>
  repeat' first | intro _ | (with_reducible first | rfl | refine (fail_mem ..).trans ?_ | refine (startMeasure_mem ..).trans ?_) | (fail_if_no_progress dsimp only) | split

theorem wf_execCable {g : GIn} {s : State} {t__} (hx : execCable g s = .next t__) (h : Memory.wf (memOf s) = true) : Memory.wf (memOf t__) = true := by
  revert hx
  fun_cases execCable g s <;> intro hx
  all_goals first
    | (cases hx; done)
    | exact wf_runCmd hx (by repeat' first | intro _ | (with_reducible first | assumption | refine wf_of_eq (cableBody_mem ..) ?_) | (fail_if_no_progress dsimp only) | split)
    | exact wf_runCmd hx (by intro _ _ _; repeat' first | intro _ | (with_reducible first | assumption | refine wf_of_eq (cableBody_mem ..) ?_) | (fail_if_no_progress dsimp only) | split) h

theorem bindBody_mem (c : Call) (s : State)  : memOf (bindBody c s).2 = memOf s := by
  fun_cases bindBody c s <;>
  repeat' first | intro _ | (with_reducible first | rfl | assumption | refine (fail_mem ..).trans ?_ | refine (setGly_mem ..).trans ?_ | refine (startMeasure_mem ..).trans ?_ | refine (pair_eq_mem (by assumption)).trans ?_) | (fail_if_no_progress dsimp only) | split

theorem wf_execBind {g : GIn} {s : State} {t__} (hx : execBind g s = .next t__) (h : Memory.wf (memOf s) = true) : Memory.wf (memOf t__) = true := by
  revert hx
  fun_cases execBind g s <;> intro hx
  all_goals first
    | (cases hx; done)
    | exact wf_runCmd hx (by repeat' first | intro _ | (with_reducible first | assumption | refine wf_of_eq (bindBody_mem ..) ?_) | (fail_if_no_progress dsimp only) | split)
    | exact wf_runCmd hx (by intro _ _ _; repeat' first | intro _ | (with_reducible first | assumption | refine wf_of_eq (bindBody_mem ..) ?_) | (fail_if_no_progress dsimp only) | split) h

theorem bindFinish_mem (p : Nat) (s : State)  : memOf (bindFinish p s).2 = memOf s := by
  fun_cases bindFinish p s <;>
  repeat' first | intro _ | (with_reducible first | rfl | assumption | refine (rbitSet_mem ..).trans ?_ | refine (rput_mem ..).trans ?_ | refine (startThread_mem ..).trans ?_ | refine ite_eq_same ?_ ?_ | refine foldl_eq_mem ?_ ?_) | (fail_if_no_progress dsimp only) | split

theorem unbindBody_mem (c : Call) (s : State)  : memOf (unbindBody c s).2 = memOf s := by
  fun_cases unbindBody c s <;>
  repeat' first | intro _ | (with_reducible first | rfl | assumption | refine (fail_mem ..).trans ?_ | refine (stopThread_mem ..).trans ?_) | (fail_if_no_progress dsimp only) | split

theorem wf_execUnbind {g : GIn} {s : State} {t__} (hx : execUnbind g s = .next t__) (h : Memory.wf (memOf s) = true) : Memory.wf (memOf t__) = true := by
  revert hx
  fun_cases execUnbind g s <;> intro hx
  all_goals first
    | (cases hx; done)
    | exact wf_runCmd hx (by repeat' first | intro _ | (with_reducible first | assumption | refine wf_of_eq (unbindBody_mem ..) ?_) | (fail_if_no_progress dsimp only) | split)
    | exact wf_runCmd hx (by intro _ _ _; repeat' first | intro _ | (with_reducible first | assumption | refine wf_of_eq (unbindBody_mem ..) ?_) | (fail_if_no_progress dsimp only) | split) h

theorem wf_unbindFinish {p : Nat} {s : State} (h : Memory.wf (memOf s) = true) : Memory.wf (memOf (unbindFinish p s)) = true := by
  fun_cases unbindFinish p s <;>
  repeat' first | intro _ | (with_reducible first | assumption | refine wf_detach ?_ | refine wf_of_eq (rbitSet_mem ..) ?_ | refine wf_of_eq (setGly_mem ..) ?_ | refine wf_foldl _ ?_ _ _ ?_) | (fail_if_no_progress dsimp only) | split

theorem wheelBody_mem (c : Call) (s : State)  : memOf (wheelBody c s).2 = memOf s := by
  fun_cases wheelBody c s <;>
  repeat' first | intro _ | (with_reducible first | rfl | assumption | refine (done_mem ..).trans ?_ | refine (fail_mem ..).trans ?_ | refine (wheelWrite_mem ..).trans ?_) | (fail_if_no_progress dsimp only) | split

theorem wf_execWheel {g : GIn} {s : State} {t__} (hx : execWheel g s = .next t__) (h : Memory.wf (memOf s) = true) : Memory.wf (memOf t__) = true := by
  revert hx
  fun_cases execWheel g s <;> intro hx
  all_goals first
    | (cases hx; done)
    | exact wf_runCmd hx (by repeat' first | intro _ | (with_reducible first | assumption | refine wf_of_eq (wheelBody_mem ..) ?_) | (fail_if_no_progress dsimp only) | split)
    | exact wf_runCmd hx (by intro _ _ _; repeat' first | intro _ | (with_reducible first | assumption | refine wf_of_eq (wheelBody_mem ..) ?_) | (fail_if_no_progress dsimp only) | split) h

theorem threadStatus_mem (c : Call) (s : State)  : memOf (threadStatus c s).2 = memOf s := by
  fun_cases threadStatus c s <;>
  repeat' first | intro _ | (with_reducible first | rfl | refine (doneData_mem ..).trans ?_) | (fail_if_no_progress dsimp only) | split

theorem wf_execThreadStatus {g : GIn} {s : State} {t__} (hx : execThreadStatus g s = .next t__) (h : Memory.wf (memOf s) = true) : Memory.wf (memOf t__) = true := by
  revert hx
  fun_cases execThreadStatus g s <;> intro hx
  all_goals first
    | (cases hx; done)
    | exact wf_runCmd hx (by repeat' first | intro _ | (with_reducible first | assumption | refine wf_of_eq (threadStatus_mem ..) ?_) | (fail_if_no_progress dsimp only) | split)
    | exact wf_runCmd hx (by intro _ _ _; repeat' first | intro _ | (with_reducible first | assumption | refine wf_of_eq (threadStatus_mem ..) ?_) | (fail_if_no_progress dsimp only) | split) h

theorem boundEntry_mem (t : Nat) (s : State)  : memOf (boundEntry t s) = memOf s := by
  fun_cases boundEntry t s <;>
  repeat' first | intro _ | (with_reducible first | rfl | refine (rput_mem ..).trans ?_) | (fail_if_no_progress dsimp only) | split

theorem threadRestart_mem (c : Call) (s : State)  : memOf (threadRestart c s).2 = memOf s := by
  fun_cases threadRestart c s <;>
  repeat' first | intro _ | (with_reducible first | rfl | assumption | refine (boundEntry_mem ..).trans ?_ | refine (done_mem ..).trans ?_ | refine (fail_mem ..).trans ?_ | refine (startThread_mem ..).trans ?_) | (fail_if_no_progress dsimp only) | split

theorem wf_execThreadRestart {g : GIn} {s : State} {t__} (hx : execThreadRestart g s = .next t__) (h : Memory.wf (memOf s) = true) : Memory.wf (memOf t__) = true := by
  revert hx
  fun_cases execThreadRestart g s <;> intro hx
  all_goals first
    | (cases hx; done)
    | exact wf_runCmd hx (by repeat' first | intro _ | (with_reducible first | assumption | refine wf_of_eq (threadRestart_mem ..) ?_) | (fail_if_no_progress dsimp only) | split)
    | exact wf_runCmd hx (by intro _ _ _; repeat' first | intro _ | (with_reducible first | assumption | refine wf_of_eq (threadRestart_mem ..) ?_) | (fail_if_no_progress dsimp only) | split) h

theorem feedSet_mem (c : Call) (s : State)  : memOf (feedSet c s).2 = memOf s := by
  fun_cases feedSet c s <;>
  repeat' first | intro _ | (with_reducible first | rfl | assumption | refine (done_mem ..).trans ?_ | refine (fail_mem ..).trans ?_ | refine (failWith_mem ..).trans ?_ | refine (fctlWrite_mem ..).trans ?_ | refine (rput_mem ..).trans ?_ | refine (rset_mem ..).trans ?_) | (fail_if_no_progress dsimp only) | split

theorem wf_execFeedSet {g : GIn} {s : State} {t__} (hx : execFeedSet g s = .next t__) (h : Memory.wf (memOf s) = true) : Memory.wf (memOf t__) = true := by
  revert hx
  fun_cases execFeedSet g s <;> intro hx
  all_goals first
    | (cases hx; done)
    | exact wf_runCmd hx (by repeat' first | intro _ | (with_reducible first | assumption | refine wf_of_eq (feedSet_mem ..) ?_) | (fail_if_no_progress dsimp only) | split)
    | exact wf_runCmd hx (by intro _ _ _; repeat' first | intro _ | (with_reducible first | assumption | refine wf_of_eq (feedSet_mem ..) ?_) | (fail_if_no_progress dsimp only) | split) h

theorem feedStatus_mem (c : Call) (s : State)  : memOf (feedStatus c s).2 = memOf s := by
  fun_cases feedStatus c s <;>
  repeat' first | intro _ | (with_reducible first | rfl | refine (done_mem ..).trans ?_ | refine (fmeasRead_mem ..).trans ?_) | (fail_if_no_progress dsimp only) | split

theorem wf_execFeedStatus {g : GIn} {s : State} {t__} (hx : execFeedStatus g s = .next t__) (h : Memory.wf (memOf s) = true) : Memory.wf (memOf t__) = true := by
  revert hx
  fun_cases execFeedStatus g s <;> intro hx
  all_goals first
    | (cases hx; done)
    | exact wf_runCmd hx (by repeat' first | intro _ | (with_reducible first | assumption | refine wf_of_eq (feedStatus_mem ..) ?_) | (fail_if_no_progress dsimp only) | split)
    | exact wf_runCmd hx (by intro _ _ _; repeat' first | intro _ | (with_reducible first | assumption | refine wf_of_eq (feedStatus_mem ..) ?_) | (fail_if_no_progress dsimp only) | split) h

/-! ### GlebySessions -/

theorem sesConfig_mem (c : Call) (s : State)  : memOf (sesConfig c s).2 = memOf s := by
  fun_cases sesConfig c s <;>
  repeat' first | intro _ | (with_reducible first | rfl | refine (done_mem ..).trans ?_ | refine (setSes_mem ..).trans ?_) | (fail_if_no_progress dsimp only) | split

theorem wf_execSesConfig {g : GIn} {s : State} {t__} (hx : execSesConfig g s = .next t__) (h : Memory.wf (memOf s) = true) : Memory.wf (memOf t__) = true := by
  revert hx
  fun_cases execSesConfig g s <;> intro hx
  all_goals first
    | (cases hx; done)
    | exact wf_runCmd hx (by repeat' first | intro _ | (with_reducible first | assumption | refine wf_of_eq (sesConfig_mem ..) ?_) | (fail_if_no_progress dsimp only) | split)
    | exact wf_runCmd hx (by intro _ _ _; repeat' first | intro _ | (with_reducible first | assumption | refine wf_of_eq (sesConfig_mem ..) ?_) | (fail_if_no_progress dsimp only) | split) h

theorem sesInfo_mem (c : Call) (s : State)  : memOf (sesInfo c s).2 = memOf s := by
  fun_cases sesInfo c s <;>
  repeat' first | intro _ | (with_reducible first | rfl | assumption | refine (doneData_mem ..).trans ?_ | refine (fail_mem ..).trans ?_) | (fail_if_no_progress dsimp only) | split

theorem wf_execSesInfo {g : GIn} {s : State} {t__} (hx : execSesInfo g s = .next t__) (h : Memory.wf (memOf s) = true) : Memory.wf (memOf t__) = true := by
  revert hx
  fun_cases execSesInfo g s <;> intro hx
  all_goals first
    | (cases hx; done)
    | exact wf_runCmd hx (by repeat' first | intro _ | (with_reducible first | assumption | refine wf_of_eq (sesInfo_mem ..) ?_) | (fail_if_no_progress dsimp only) | split)
    | exact wf_runCmd hx (by intro _ _ _; repeat' first | intro _ | (with_reducible first | assumption | refine wf_of_eq (sesInfo_mem ..) ?_) | (fail_if_no_progress dsimp only) | split) h

theorem wf_forwardRecord {n : Nat} {a : Nat} {s : State} (h : Memory.wf (memOf s) = true) : Memory.wf (memOf (forwardRecord n a s)) = true := by
  fun_cases forwardRecord n a s <;>
  repeat' first | intro _ | (with_reducible first | assumption | refine wf_ctxPut ?_ | refine wf_writeMem ?_ | refine wf_of_eq (raiseEvent_mem ..) ?_) | (fail_if_no_progress dsimp only) | split

theorem wf_forwardZero {n : Nat} {s : State} (h : Memory.wf (memOf s) = true) : Memory.wf (memOf (forwardZero n s)) = true := by
  fun_cases forwardZero n s <;>
  repeat' first | intro _ | (with_reducible first | assumption | refine wf_forwardRecord ?_ | refine wf_foldl _ ?_ _ _ ?_) | (fail_if_no_progress dsimp only) | split

theorem wf_sesRing {c : Call} {s : State} (h : Memory.wf (memOf s) = true) : Memory.wf (memOf (sesRing c s).2) = true := by
  fun_cases sesRing c s <;>
  repeat' first | intro _ | (with_reducible first | assumption | refine wf_ctxPut ?_ | refine wf_forwardZero ?_ | refine wf_girdlePut ?_ | refine wf_of_eq (done_mem ..) ?_ | refine wf_of_eq (fail_mem ..) ?_ | refine wf_of_eq (setTag_mem ..) ?_) | (fail_if_no_progress dsimp only) | split

theorem wf_execSesRing {g : GIn} {s : State} {t__} (hx : execSesRing g s = .next t__) (h : Memory.wf (memOf s) = true) : Memory.wf (memOf t__) = true := by
  revert hx
  fun_cases execSesRing g s <;> intro hx
  all_goals first
    | (cases hx; done)
    | exact wf_runCmd hx (by repeat' first | intro _ | (with_reducible first | assumption | refine wf_sesRing ?_) | (fail_if_no_progress dsimp only) | split)
    | exact wf_runCmd hx (by intro _ _ _; repeat' first | intro _ | (with_reducible first | assumption | refine wf_sesRing ?_) | (fail_if_no_progress dsimp only) | split) h

theorem wf_sesClose {c : Call} {s : State} (h : Memory.wf (memOf s) = true) : Memory.wf (memOf (sesClose c s).2) = true := by
  fun_cases sesClose c s <;>
  repeat' first | intro _ | (with_reducible first | assumption | refine wf_detach ?_ | refine wf_of_eq (fail_mem ..) ?_ | refine wf_ite_same ?_ ?_) | (fail_if_no_progress dsimp only) | split

theorem wf_execSesClose {g : GIn} {s : State} {t__} (hx : execSesClose g s = .next t__) (h : Memory.wf (memOf s) = true) : Memory.wf (memOf t__) = true := by
  revert hx
  fun_cases execSesClose g s <;> intro hx
  all_goals first
    | (cases hx; done)
    | exact wf_runCmd hx (by repeat' first | intro _ | (with_reducible first | assumption | refine wf_sesClose ?_) | (fail_if_no_progress dsimp only) | split)
    | exact wf_runCmd hx (by intro _ _ _; repeat' first | intro _ | (with_reducible first | assumption | refine wf_sesClose ?_) | (fail_if_no_progress dsimp only) | split) h

theorem sesList_mem (c : Call) (s : State)  : memOf (sesList c s).2 = memOf s := by
  fun_cases sesList c s <;>
  repeat' first | intro _ | (with_reducible first | rfl | refine (listReply_mem ..).trans ?_) | (fail_if_no_progress dsimp only) | split

theorem wf_execSesList {g : GIn} {s : State} {t__} (hx : execSesList g s = .next t__) (h : Memory.wf (memOf s) = true) : Memory.wf (memOf t__) = true := by
  revert hx
  fun_cases execSesList g s <;> intro hx
  all_goals first
    | (cases hx; done)
    | exact wf_runCmd hx (by repeat' first | intro _ | (with_reducible first | assumption | refine wf_of_eq (sesList_mem ..) ?_) | (fail_if_no_progress dsimp only) | split)
    | exact wf_runCmd hx (by intro _ _ _; repeat' first | intro _ | (with_reducible first | assumption | refine wf_of_eq (sesList_mem ..) ?_) | (fail_if_no_progress dsimp only) | split) h

/-! ### GlebyFacets -/

theorem wf_facetLoad {c : Call} {s : State} (h : Memory.wf (memOf s) = true) : Memory.wf (memOf (facetLoad c s).2) = true := by
  unfold facetLoad
  extract_lets n
  refine wf_ite_snd (wf_of_eq (fail_mem ..) h) (wf_ite_snd (wf_of_eq (fail_mem ..) h) (wf_ite_snd (wf_of_eq (fail_mem ..) h) ?_))
  refine wf_of_eq (done_mem ..) (wf_writeMem (wf_of_eq (nextWrite_mem ..) ?_))
  exact wf_ite_snd (a := (c.data, s)) h (wf_memoryRead (wf_mendWords h))

theorem wf_execFacetLoad {g : GIn} {s : State} {t__} (hx : execFacetLoad g s = .next t__) (h : Memory.wf (memOf s) = true) : Memory.wf (memOf t__) = true := by
  revert hx
  fun_cases execFacetLoad g s <;> intro hx
  all_goals first
    | (cases hx; done)
    | exact wf_runCmd hx (by repeat' first | intro _ | (with_reducible first | assumption | refine wf_facetLoad ?_) | (fail_if_no_progress dsimp only) | split)
    | exact wf_runCmd hx (by intro _ _ _; repeat' first | intro _ | (with_reducible first | assumption | refine wf_facetLoad ?_) | (fail_if_no_progress dsimp only) | split) h

theorem facetRunBody_mem (c : Call) (s : State)  : memOf (facetRunBody c s).2 = memOf s := by
  fun_cases facetRunBody c s <;>
  repeat' first | intro _ | (with_reducible first | rfl | assumption | refine (done_mem ..).trans ?_ | refine (drawFree_mem ..).trans ?_ | refine (facetRun_mem ..).trans ?_ | refine (fail_mem ..).trans ?_ | refine (updFacet_mem ..).trans ?_ | refine (pair_eq_mem (by assumption)).trans ?_) | (fail_if_no_progress dsimp only) | split

theorem wf_execFacetRun {g : GIn} {s : State} {t__} (hx : execFacetRun g s = .next t__) (h : Memory.wf (memOf s) = true) : Memory.wf (memOf t__) = true := by
  revert hx
  fun_cases execFacetRun g s <;> intro hx
  all_goals first
    | (cases hx; done)
    | exact wf_runCmd hx (by repeat' first | intro _ | (with_reducible first | assumption | refine wf_of_eq (facetRunBody_mem ..) ?_) | (fail_if_no_progress dsimp only) | split)
    | exact wf_runCmd hx (by intro _ _ _; repeat' first | intro _ | (with_reducible first | assumption | refine wf_of_eq (facetRunBody_mem ..) ?_) | (fail_if_no_progress dsimp only) | split) h

theorem facetHalt_mem (c : Call) (s : State)  : memOf (facetHalt c s).2 = memOf s := by
  fun_cases facetHalt c s <;>
  repeat' first | intro _ | (with_reducible first | rfl | assumption | refine (fail_mem ..).trans ?_ | refine (updFacet_mem ..).trans ?_) | (fail_if_no_progress dsimp only) | split

theorem wf_execFacetHalt {g : GIn} {s : State} {t__} (hx : execFacetHalt g s = .next t__) (h : Memory.wf (memOf s) = true) : Memory.wf (memOf t__) = true := by
  revert hx
  fun_cases execFacetHalt g s <;> intro hx
  all_goals first
    | (cases hx; done)
    | exact wf_runCmd hx (by repeat' first | intro _ | (with_reducible first | assumption | refine wf_of_eq (facetHalt_mem ..) ?_) | (fail_if_no_progress dsimp only) | split)
    | exact wf_runCmd hx (by intro _ _ _; repeat' first | intro _ | (with_reducible first | assumption | refine wf_of_eq (facetHalt_mem ..) ?_) | (fail_if_no_progress dsimp only) | split) h

theorem facetReport_mem (c : Call) (s : State)  : memOf (facetReport c s).2 = memOf s := by
  fun_cases facetReport c s <;>
  repeat' first | intro _ | (with_reducible first | rfl | assumption | refine (doneData_mem ..).trans ?_ | refine (fail_mem ..).trans ?_ | refine (rw1c_mem ..).trans ?_) | (fail_if_no_progress dsimp only) | split

theorem wf_execFacetReport {g : GIn} {s : State} {t__} (hx : execFacetReport g s = .next t__) (h : Memory.wf (memOf s) = true) : Memory.wf (memOf t__) = true := by
  revert hx
  fun_cases execFacetReport g s <;> intro hx
  all_goals first
    | (cases hx; done)
    | exact wf_runCmd hx (by repeat' first | intro _ | (with_reducible first | assumption | refine wf_of_eq (facetReport_mem ..) ?_) | (fail_if_no_progress dsimp only) | split)
    | exact wf_runCmd hx (by intro _ _ _; repeat' first | intro _ | (with_reducible first | assumption | refine wf_of_eq (facetReport_mem ..) ?_) | (fail_if_no_progress dsimp only) | split) h

theorem writeImage_mem (n : Nat) (bs : List Byte) : ∀ (l : List Nat) (s : State), memOf (writeImage n bs l s).2 = memOf s
  | [], s => rfl
  | o :: t, s => by
    unfold writeImage
    split
    · exact writeImage_mem n bs t s
    · split
      · exact (writeImage_mem n bs t _).trans (facetRegWrite_mem (h := by assumption) ..)
      · rfl

theorem facetRegs_mem (c : Call) (s : State) : memOf (facetRegs c s).2 = memOf s := by
  delta facetRegs
  generalize regImage = image
  dsimp only
  split
  · exact doneData_mem ..
  split
  · exact fail_mem ..
  split
  · exact fail_mem ..
  split
  · exact fail_mem ..
  generalize List.map _ _ = l
  have h := writeImage_mem (c.p 0 1) c.data l s
  revert h
  generalize writeImage (c.p 0 1) c.data l s = q
  intro h
  obtain ⟨o, t⟩ := q
  cases o with
  | none => exact (done_mem ..).trans h
  | some o => exact (failWith_mem ..).trans h

theorem wf_execFacetRegs {g : GIn} {s : State} {t__} (hx : execFacetRegs g s = .next t__) (h : Memory.wf (memOf s) = true) : Memory.wf (memOf t__) = true := by
  revert hx
  fun_cases execFacetRegs g s <;> intro hx
  all_goals first
    | (cases hx; done)
    | exact wf_runCmd hx (by repeat' first | intro _ | (with_reducible first | assumption | refine wf_of_eq (facetRegs_mem ..) ?_) | (fail_if_no_progress dsimp only) | split)
    | exact wf_runCmd hx (by intro _ _ _; repeat' first | intro _ | (with_reducible first | assumption | refine wf_of_eq (facetRegs_mem ..) ?_) | (fail_if_no_progress dsimp only) | split) h

theorem crownMode_mem (c : Call) (s : State)  : memOf (crownMode c s).2 = memOf s := by
  fun_cases crownMode c s <;>
  repeat' first | intro _ | (with_reducible first | rfl | assumption | refine (done_mem ..).trans ?_ | refine (fail_mem ..).trans ?_ | refine (setCompat_mem ..).trans ?_) | (fail_if_no_progress dsimp only) | split

theorem wf_execCrownMode {g : GIn} {s : State} {t__} (hx : execCrownMode g s = .next t__) (h : Memory.wf (memOf s) = true) : Memory.wf (memOf t__) = true := by
  revert hx
  fun_cases execCrownMode g s <;> intro hx
  all_goals first
    | (cases hx; done)
    | exact wf_runCmd hx (by repeat' first | intro _ | (with_reducible first | assumption | refine wf_of_eq (crownMode_mem ..) ?_) | (fail_if_no_progress dsimp only) | split)
    | exact wf_runCmd hx (by intro _ _ _; repeat' first | intro _ | (with_reducible first | assumption | refine wf_of_eq (crownMode_mem ..) ?_) | (fail_if_no_progress dsimp only) | split) h

theorem itgRefused_mem (u : Nat) (s : State)  : memOf (itgRefused u s).2 = memOf s := by
  fun_cases itgRefused u s <;>
  repeat' first | intro _ | (with_reducible first | rfl | refine (failWith_mem ..).trans ?_) | (fail_if_no_progress dsimp only) | split

theorem scrubBody_mem (c : Call) (s : State)  : memOf (scrubBody c s).2 = memOf s := by
  fun_cases scrubBody c s <;>
  repeat' first | intro _ | (with_reducible first | rfl | assumption | refine (fail_mem ..).trans ?_ | refine (itgRefused_mem ..).trans ?_ | refine (scrubWrite_mem ..).trans ?_) | (fail_if_no_progress dsimp only) | split

theorem wf_execScrub {g : GIn} {s : State} {t__} (hx : execScrub g s = .next t__) (h : Memory.wf (memOf s) = true) : Memory.wf (memOf t__) = true := by
  revert hx
  fun_cases execScrub g s <;> intro hx
  all_goals first
    | (cases hx; done)
    | exact wf_runCmd hx (by repeat' first | intro _ | (with_reducible first | assumption | refine wf_of_eq (scrubBody_mem ..) ?_) | (fail_if_no_progress dsimp only) | split)
    | exact wf_runCmd hx (by intro _ _ _; repeat' first | intro _ | (with_reducible first | assumption | refine wf_of_eq (scrubBody_mem ..) ?_) | (fail_if_no_progress dsimp only) | split) h

theorem wf_patrolBody {c : Call} {s : State} (h : Memory.wf (memOf s) = true) : Memory.wf (memOf (patrolBody c s).2) = true := by
  fun_cases patrolBody c s <;>
  repeat' first | intro _ | (with_reducible first | assumption | refine wf_itgWrite ?_ | refine wf_of_eq (done_mem ..) ?_ | refine wf_of_eq (setGly_mem ..) ?_ | refine wf_foldl _ ?_ _ _ ?_) | (fail_if_no_progress dsimp only) | split

theorem wf_execPatrol {g : GIn} {s : State} {t__} (hx : execPatrol g s = .next t__) (h : Memory.wf (memOf s) = true) : Memory.wf (memOf t__) = true := by
  revert hx
  fun_cases execPatrol g s <;> intro hx
  all_goals first
    | (cases hx; done)
    | exact wf_runCmd hx (by repeat' first | intro _ | (with_reducible first | assumption | refine wf_patrolBody ?_) | (fail_if_no_progress dsimp only) | split)
    | exact wf_runCmd hx (by intro _ _ _; repeat' first | intro _ | (with_reducible first | assumption | refine wf_patrolBody ?_) | (fail_if_no_progress dsimp only) | split) h

theorem policyRetire_mem (c : Nat) (s : State)  : memOf (policyRetire c s) = memOf s := by
  fun_cases policyRetire c s <;>
  repeat' first | intro _ | (with_reducible first | rfl | assumption | refine (postEvent_mem ..).trans ?_ | refine (retireWrite_mem ..).trans ?_ | refine ite_eq_same ?_ ?_ | refine foldl_eq_mem ?_ ?_ | refine mem_def.trans ?_) | simp only [mk_mem] | (fail_if_no_progress dsimp only) | split

theorem wf_patrolUnit {u : Nat} {s : State} (h : Memory.wf (memOf s) = true) : Memory.wf (memOf (patrolUnit u s)) = true := by
  fun_cases patrolUnit u s <;>
  repeat' first | intro _ | (with_reducible first | assumption | refine wf_scrubPass ?_ | refine wf_scrubRange ?_ | refine wf_foldl _ ?_ _ _ ?_) | (fail_if_no_progress dsimp only) | split

theorem wf_patrolScrub {s : State} (h : Memory.wf (memOf s) = true) : Memory.wf (memOf (patrolScrub s)) = true := by
  fun_cases patrolScrub s <;>
  repeat' first | intro _ | (with_reducible first | assumption | refine wf_patrolUnit ?_ | refine wf_of_eq (itgEvt_mem ..) ?_ | refine wf_of_eq (policyRetire_mem ..) ?_ | refine wf_of_eq (rset_mem ..) ?_ | refine wf_of_eq (setGly_mem ..) ?_ | refine wf_ite_same ?_ ?_ | refine wf_foldl _ ?_ _ _ ?_) | (fail_if_no_progress dsimp only) | split

theorem wf_execPatrolScrub {s : State} {t__} (hx : execPatrolScrub s = .next t__) (h : Memory.wf (memOf s) = true) : Memory.wf (memOf t__) = true := by
  revert hx
  fun_cases execPatrolScrub s <;> intro hx
  all_goals first
    | (cases hx; done)
    | (have e__ := gate_next hx; subst e__; repeat' first | intro _ | (with_reducible first | assumption | refine wf_advanceTo ?_ | refine wf_patrolScrub ?_) | (fail_if_no_progress dsimp only) | split)

theorem logRead_mem (c : Call) (s : State)  : memOf (logRead c s).2 = memOf s := by
  fun_cases logRead c s <;>
  repeat' first | intro _ | (with_reducible first | rfl | assumption | refine (logFree_mem ..).trans ?_ | refine ite_eq_same ?_ ?_ | refine foldl_eq_mem ?_ ?_) | (fail_if_no_progress dsimp only) | split

theorem wf_execLogRead {g : GIn} {s : State} {t__} (hx : execLogRead g s = .next t__) (h : Memory.wf (memOf s) = true) : Memory.wf (memOf t__) = true := by
  revert hx
  fun_cases execLogRead g s <;> intro hx
  all_goals first
    | (cases hx; done)
    | exact wf_runCmd hx (by repeat' first | intro _ | (with_reducible first | assumption | refine wf_of_eq (logRead_mem ..) ?_) | (fail_if_no_progress dsimp only) | split)
    | exact wf_runCmd hx (by intro _ _ _; repeat' first | intro _ | (with_reducible first | assumption | refine wf_of_eq (logRead_mem ..) ?_) | (fail_if_no_progress dsimp only) | split) h

theorem retireBody_mem (c : Call) (s : State)  : memOf (retireBody c s).2 = memOf s := by
  fun_cases retireBody c s <;>
  repeat' first | intro _ | (with_reducible first | rfl | assumption | refine (fail_mem ..).trans ?_ | refine (itgRefused_mem ..).trans ?_ | refine (retireWrite_mem ..).trans ?_) | (fail_if_no_progress dsimp only) | split

theorem wf_execRetire {g : GIn} {s : State} {t__} (hx : execRetire g s = .next t__) (h : Memory.wf (memOf s) = true) : Memory.wf (memOf t__) = true := by
  revert hx
  fun_cases execRetire g s <;> intro hx
  all_goals first
    | (cases hx; done)
    | exact wf_runCmd hx (by repeat' first | intro _ | (with_reducible first | assumption | refine wf_of_eq (retireBody_mem ..) ?_) | (fail_if_no_progress dsimp only) | split)
    | exact wf_runCmd hx (by intro _ _ _; repeat' first | intro _ | (with_reducible first | assumption | refine wf_of_eq (retireBody_mem ..) ?_) | (fail_if_no_progress dsimp only) | split) h

theorem wf_testWord {c : Call} {s : State} (h : Memory.wf (memOf s) = true) : Memory.wf (memOf (testWord c s).2) = true := by
  fun_cases testWord c s <;>
  repeat' first | intro _ | (with_reducible first | assumption | refine wf_audit ?_ | refine wf_itgWrite ?_ | refine wf_testWrite ?_ | refine wf_of_eq (doneData_mem ..) ?_ | refine wf_of_eq (fail_mem ..) ?_ | refine wf_foldl _ ?_ _ _ ?_) | (fail_if_no_progress dsimp only) | split

theorem wf_execTestWord {g : GIn} {s : State} {t__} (hx : execTestWord g s = .next t__) (h : Memory.wf (memOf s) = true) : Memory.wf (memOf t__) = true := by
  revert hx
  fun_cases execTestWord g s <;> intro hx
  all_goals first
    | (cases hx; done)
    | exact wf_runCmd hx (by repeat' first | intro _ | (with_reducible first | assumption | refine wf_testWord ?_) | (fail_if_no_progress dsimp only) | split)
    | exact wf_runCmd hx (by intro _ _ _; repeat' first | intro _ | (with_reducible first | assumption | refine wf_testWord ?_) | (fail_if_no_progress dsimp only) | split) h

theorem dramTouch_mem (c : Call) (s : State)  : memOf (dramTouch c s).2 = memOf s := by
  fun_cases dramTouch c s <;>
  repeat' first | intro _ | (with_reducible first | rfl | refine (setFills_mem ..).trans ?_) | (fail_if_no_progress dsimp only) | split

theorem wf_execDramTouch {g : GIn} {s : State} {t__} (hx : execDramTouch g s = .next t__) (h : Memory.wf (memOf s) = true) : Memory.wf (memOf t__) = true := by
  revert hx
  fun_cases execDramTouch g s <;> intro hx
  all_goals first
    | (cases hx; done)
    | exact wf_runCmd hx (by repeat' first | intro _ | (with_reducible first | assumption | refine wf_of_eq (dramTouch_mem ..) ?_) | (fail_if_no_progress dsimp only) | split)
    | exact wf_runCmd hx (by intro _ _ _; repeat' first | intro _ | (with_reducible first | assumption | refine wf_of_eq (dramTouch_mem ..) ?_) | (fail_if_no_progress dsimp only) | split) h

theorem wf_releaseChunks {lo : Nat} {n : Nat} {s : State} (h : Memory.wf (memOf s) = true) : Memory.wf (memOf (releaseChunks lo n s)) = true := by
  fun_cases releaseChunks lo n s <;>
  repeat' first | intro _ | (with_reducible first | assumption | refine wf_setMem ?_ | refine wf_tclear _ _ ?_ | refine wf_mem_def ?_) | (fail_if_no_progress dsimp only) | split

theorem dramRelease_mem (c : Call) (s : State)  : memOf (dramRelease c s).2 = memOf s := by
  fun_cases dramRelease c s <;>
  repeat' first | intro _ | (with_reducible first | rfl) | (fail_if_no_progress dsimp only) | split

theorem wf_execDramRelease {g : GIn} {s : State} {t__} (hx : execDramRelease g s = .next t__) (h : Memory.wf (memOf s) = true) : Memory.wf (memOf t__) = true := by
  revert hx
  fun_cases execDramRelease g s <;> intro hx
  all_goals first
    | (cases hx; done)
    | exact wf_runCmd hx (by repeat' first | intro _ | (with_reducible first | assumption | refine wf_of_eq (dramRelease_mem ..) ?_) | (fail_if_no_progress dsimp only) | split)
    | exact wf_runCmd hx (by intro _ _ _; repeat' first | intro _ | (with_reducible first | assumption | refine wf_of_eq (dramRelease_mem ..) ?_) | (fail_if_no_progress dsimp only) | split) h

/-! ### GlebyCaps -/

theorem capGrant_mem (c : Call) (s : State)  : memOf (capGrant c s).2 = memOf s := by
  fun_cases capGrant c s <;>
  repeat' first | intro _ | (with_reducible first | rfl | assumption | refine (done_mem ..).trans ?_ | refine (fail_mem ..).trans ?_ | refine (updFacet_mem ..).trans ?_) | (fail_if_no_progress dsimp only) | split

theorem wf_execCapGrant {g : GIn} {s : State} {t__} (hx : execCapGrant g s = .next t__) (h : Memory.wf (memOf s) = true) : Memory.wf (memOf t__) = true := by
  revert hx
  fun_cases execCapGrant g s <;> intro hx
  all_goals first
    | (cases hx; done)
    | exact wf_runCmd hx (by repeat' first | intro _ | (with_reducible first | assumption | refine wf_of_eq (capGrant_mem ..) ?_) | (fail_if_no_progress dsimp only) | split)
    | exact wf_runCmd hx (by intro _ _ _; repeat' first | intro _ | (with_reducible first | assumption | refine wf_of_eq (capGrant_mem ..) ?_) | (fail_if_no_progress dsimp only) | split) h

theorem wf_capRevoke {c : Call} {s : State} (h : Memory.wf (memOf s) = true) : Memory.wf (memOf (capRevoke c s).2) = true := by
  fun_cases capRevoke c s <;>
  repeat' first | intro _ | (with_reducible first | assumption | refine wf_audit ?_ | refine wf_of_eq (fail_mem ..) ?_ | refine wf_of_eq (setEpoch_mem ..) ?_) | (fail_if_no_progress dsimp only) | split

theorem wf_execCapRevoke {g : GIn} {s : State} {t__} (hx : execCapRevoke g s = .next t__) (h : Memory.wf (memOf s) = true) : Memory.wf (memOf t__) = true := by
  revert hx
  fun_cases execCapRevoke g s <;> intro hx
  all_goals first
    | (cases hx; done)
    | exact wf_runCmd hx (by repeat' first | intro _ | (with_reducible first | assumption | refine wf_capRevoke ?_) | (fail_if_no_progress dsimp only) | split)
    | exact wf_runCmd hx (by intro _ _ _; repeat' first | intro _ | (with_reducible first | assumption | refine wf_capRevoke ?_) | (fail_if_no_progress dsimp only) | split) h

theorem putChanCap_mem (k : Nat) (dst : Bool) (v : KReg) (s : State)  : memOf (putChanCap k dst v s) = memOf s := by
  fun_cases putChanCap k dst v s <;>
  repeat' first | intro _ | (with_reducible first | rfl | assumption | refine (rbitSet_mem ..).trans ?_ | refine (rset_mem ..).trans ?_) | (fail_if_no_progress dsimp only) | split

theorem putFout_mem (k : Nat) (dst rem : Bool) (pkg : Nat) (s : State)  : memOf (putFout k dst rem pkg s) = memOf s := by
  fun_cases putFout k dst rem pkg s <;>
  repeat' first | intro _ | (with_reducible first | rfl | assumption | refine (rbitSet_mem ..).trans ?_ | refine (rput_mem ..).trans ?_) | (fail_if_no_progress dsimp only) | split

theorem movBind_mem (c : Call) (s : State)  : memOf (movBind c s).2 = memOf s := by
  fun_cases movBind c s <;>
  repeat' first | intro _ | (with_reducible first | rfl | assumption | refine (done_mem ..).trans ?_ | refine (fail_mem ..).trans ?_ | refine (failWith_mem ..).trans ?_ | refine (putChanCap_mem ..).trans ?_ | refine (putFout_mem ..).trans ?_ | refine ite_eq_same ?_ ?_) | (fail_if_no_progress dsimp only) | split

theorem wf_execMovBind {g : GIn} {s : State} {t__} (hx : execMovBind g s = .next t__) (h : Memory.wf (memOf s) = true) : Memory.wf (memOf t__) = true := by
  revert hx
  fun_cases execMovBind g s <;> intro hx
  all_goals first
    | (cases hx; done)
    | exact wf_runCmd hx (by repeat' first | intro _ | (with_reducible first | assumption | refine wf_of_eq (movBind_mem ..) ?_) | (fail_if_no_progress dsimp only) | split)
    | exact wf_runCmd hx (by intro _ _ _; repeat' first | intro _ | (with_reducible first | assumption | refine wf_of_eq (movBind_mem ..) ?_) | (fail_if_no_progress dsimp only) | split) h

theorem windowOpen_mem (c : Call) (s : State)  : memOf (windowOpen c s).2 = memOf s := by
  fun_cases windowOpen c s <;>
  repeat' first | intro _ | (with_reducible first | rfl | assumption | refine (done_mem ..).trans ?_ | refine (fail_mem ..).trans ?_ | refine (setGly_mem ..).trans ?_) | (fail_if_no_progress dsimp only) | split

theorem wf_execWindowOpen {g : GIn} {s : State} {t__} (hx : execWindowOpen g s = .next t__) (h : Memory.wf (memOf s) = true) : Memory.wf (memOf t__) = true := by
  revert hx
  fun_cases execWindowOpen g s <;> intro hx
  all_goals first
    | (cases hx; done)
    | exact wf_runCmd hx (by repeat' first | intro _ | (with_reducible first | assumption | refine wf_of_eq (windowOpen_mem ..) ?_) | (fail_if_no_progress dsimp only) | split)
    | exact wf_runCmd hx (by intro _ _ _; repeat' first | intro _ | (with_reducible first | assumption | refine wf_of_eq (windowOpen_mem ..) ?_) | (fail_if_no_progress dsimp only) | split) h

theorem windowClose_mem (c : Call) (s : State)  : memOf (windowClose c s).2 = memOf s := by
  fun_cases windowClose c s <;>
  repeat' first | intro _ | (with_reducible first | rfl | assumption | refine (done_mem ..).trans ?_ | refine (fail_mem ..).trans ?_ | refine (setGly_mem ..).trans ?_) | (fail_if_no_progress dsimp only) | split

theorem wf_execWindowClose {g : GIn} {s : State} {t__} (hx : execWindowClose g s = .next t__) (h : Memory.wf (memOf s) = true) : Memory.wf (memOf t__) = true := by
  revert hx
  fun_cases execWindowClose g s <;> intro hx
  all_goals first
    | (cases hx; done)
    | exact wf_runCmd hx (by repeat' first | intro _ | (with_reducible first | assumption | refine wf_of_eq (windowClose_mem ..) ?_) | (fail_if_no_progress dsimp only) | split)
    | exact wf_runCmd hx (by intro _ _ _; repeat' first | intro _ | (with_reducible first | assumption | refine wf_of_eq (windowClose_mem ..) ?_) | (fail_if_no_progress dsimp only) | split) h

theorem capQuery_mem (c : Call) (s : State)  : memOf (capQuery c s).2 = memOf s := by
  fun_cases capQuery c s <;>
  repeat' first | intro _ | (with_reducible first | rfl | assumption | refine (doneData_mem ..).trans ?_ | refine (fail_mem ..).trans ?_) | (fail_if_no_progress dsimp only) | split

theorem wf_execCapQuery {g : GIn} {s : State} {t__} (hx : execCapQuery g s = .next t__) (h : Memory.wf (memOf s) = true) : Memory.wf (memOf t__) = true := by
  revert hx
  fun_cases execCapQuery g s <;> intro hx
  all_goals first
    | (cases hx; done)
    | exact wf_runCmd hx (by repeat' first | intro _ | (with_reducible first | assumption | refine wf_of_eq (capQuery_mem ..) ?_) | (fail_if_no_progress dsimp only) | split)
    | exact wf_runCmd hx (by intro _ _ _; repeat' first | intro _ | (with_reducible first | assumption | refine wf_of_eq (capQuery_mem ..) ?_) | (fail_if_no_progress dsimp only) | split) h

/-! ### Bezel -/

theorem quiesce_mem (c : SealedConf) (s : State)  : memOf (quiesce c s) = memOf s := by
  fun_cases quiesce c s <;>
  repeat' first | intro _ | (with_reducible first | rfl | refine (movStop_mem ..).trans ?_ | refine (rbitSet_mem ..).trans ?_ | refine (stopThread_mem ..).trans ?_ | refine foldl_eq_mem ?_ ?_) | (fail_if_no_progress dsimp only) | split

theorem wf_clearPartition {s : State} (h : Memory.wf (memOf s) = true) : Memory.wf (memOf (clearPartition s)) = true := by
  fun_cases clearPartition s <;>
  repeat' first | intro _ | (with_reducible first | assumption | refine wf_clearRange ?_) | (fail_if_no_progress dsimp only) | split

theorem wf_haltPartition {s : State} (h : Memory.wf (memOf s) = true) : Memory.wf (memOf (haltPartition s)) = true := by
  fun_cases haltPartition s <;>
  repeat' first | intro _ | (with_reducible first | assumption | refine wf_haltFacet ?_) | (fail_if_no_progress dsimp only) | split

theorem raiseEpoch4_mem (s : State)  : memOf (raiseEpoch4 s) = memOf s := by
  fun_cases raiseEpoch4 s <;>
  repeat' first | intro _ | (with_reducible first | rfl | assumption | refine (setEpoch_mem ..).trans ?_) | (fail_if_no_progress dsimp only) | split

theorem runWrites_mem (ws : List (State → Bool × State)) (s : State) (hw : ∀ w ∈ ws, ∀ x, memOf (w x).2 = memOf x) :
    memOf (runWrites ws s).2 = memOf s := by
  unfold runWrites
  generalize true = b
  induction ws generalizing s b with
  | nil => rfl
  | cons w t ih =>
    rw [List.foldl_cons]
    exact (ih _ (fun v hv => hw v (List.mem_cons_of_mem _ hv)) _).trans (hw w List.mem_cons_self s)

theorem wf_runWrites {ws : List (State → Bool × State)} {s : State}
    (hw : ∀ w ∈ ws, ∀ x, Memory.wf (memOf x) = true → Memory.wf (memOf (w x).2) = true) (h : Memory.wf (memOf s) = true) :
    Memory.wf (memOf (runWrites ws s).2) = true := by
  have go : ∀ (b : Bool) (s : State), Memory.wf (memOf s) = true →
      Memory.wf (memOf (ws.foldl (fun acc w => let r := w acc.2; (acc.1 && r.1, r.2)) (b, s)).2) = true := by
    induction ws with
    | nil => exact fun b s h => h
    | cons w t ih =>
      intro b s h
      rw [List.foldl_cons]
      exact ih (fun v hv => hw v (List.mem_cons_of_mem _ hv)) _ _ (hw w List.mem_cons_self s h)
  exact go true s h

theorem loadCell_mem (c : SealRegs) (s : State) : memOf (loadCell c s).2 = memOf s := by
  unfold loadCell
  have h : memOf (runWrites (c.regs.map fun w => cellWrite c.num w.1 w.2 .loader) s).2 = memOf s := by
    refine runWrites_mem _ _ fun w hw x => ?_
    obtain ⟨a, -, rfl⟩ := List.mem_map.mp hw
    exact cellWrite_mem ..
  dsimp only
  split
  · exact h
  · exact (txWrite_mem ..).trans h

theorem loadFeed_mem (f : SealFeed) (s : State) : memOf (loadFeed f s).2 = memOf s := by
  delta loadFeed
  refine runWrites_mem _ _ fun w hw x => ?_
  simp only [List.mem_cons, List.not_mem_nil, or_false] at hw
  rcases hw with rfl | rfl | rfl <;> exact pfdWrite_mem ..

theorem wf_loadChan {c : SealRegs} {s : State} (h : Memory.wf (memOf s) = true) : Memory.wf (memOf (loadChan c s).2) = true := by
  delta loadChan
  refine wf_runWrites (fun w hw x hx => ?_) h
  obtain ⟨a, -, rfl⟩ := List.mem_map.mp hw
  exact wf_chanWrite hx

theorem loadTimer_mem (t : SealTimer) (s : State)  : memOf (loadTimer t s) = memOf s := by
  fun_cases loadTimer t s <;>
  repeat' first | intro _ | (with_reducible first | rfl | assumption | refine (rset_mem ..).trans ?_) | (fail_if_no_progress dsimp only) | split

theorem wf_loadRoutine {r : SealRoutine} {s : State} (h : Memory.wf (memOf s) = true) : Memory.wf (memOf (loadRoutine r s).2) = true := by
  fun_cases loadRoutine r s <;>
  repeat' first | intro _ | (with_reducible first | assumption | refine wf_poke ?_ | refine wf_of_eq (putWheel_mem ..) ?_ | refine wf_of_eq (rput_mem ..) ?_ | refine wf_foldl _ ?_ _ _ ?_) | (fail_if_no_progress dsimp only) | split

theorem wf_putHat {table : Nat} {num : Nat} {v : BitVec 128} {s : State} (h : Memory.wf (memOf s) = true) : Memory.wf (memOf (putHat table num v s)) = true := by
  fun_cases putHat table num v s <;>
  repeat' first | intro _ | (with_reducible first | assumption | refine wf_poke ?_) | (fail_if_no_progress dsimp only) | split

theorem wf_loadHat {c : SealedConf} {s : State} (h : Memory.wf (memOf s) = true) : Memory.wf (memOf (loadHat c s)) = true := by
  fun_cases loadHat c s <;>
  repeat' first | intro _ | (with_reducible first | assumption | refine wf_putHat ?_ | refine wf_foldl _ ?_ _ _ ?_) | (fail_if_no_progress dsimp only) | split

theorem loadChanCap_mem (c : SealCap) (s : State)  : memOf (loadChanCap c s) = memOf s := by
  fun_cases loadChanCap c s <;>
  repeat' first | intro _ | (with_reducible first | rfl | refine (putChanCap_mem ..).trans ?_) | (fail_if_no_progress dsimp only) | split

theorem wf_sealLoad {c : SealedConf} {s : State} (h : Memory.wf (memOf s) = true) : Memory.wf (memOf (sealLoad c s).2) = true := by
  delta sealLoad
  extract_lets s1 r s2 s3
  have h1 : Memory.wf (memOf s1) = true := wf_sealLoadFacet (wf_sealLoadFacet h)
  have hr : Memory.wf (memOf r.2) = true := by
    refine wf_runWrites (fun w hw x hx => ?_) h1
    simp only [List.mem_append, List.mem_map] at hw
    rcases hw with ((⟨a, -, rfl⟩ | ⟨a, -, rfl⟩) | ⟨a, -, rfl⟩) | ⟨a, -, rfl⟩
    exacts [wf_of_eq (loadCell_mem ..) hx, wf_of_eq (loadFeed_mem ..) hx, wf_loadChan hx, wf_loadRoutine hx]
  have h2 : Memory.wf (memOf s2) = true := wf_loadHat (wf_of_eq (foldl_eq_mem (fun _ _ => loadTimer_mem ..) rfl) hr)
  have h3 : Memory.wf (memOf s3) = true := wf_of_eq (foldl_eq_mem (fun _ _ => loadChanCap_mem ..) rfl) h2
  exact wf_of_eq (setLocks_mem ..) (wf_of_eq (setMetro_mem ..) h3)

theorem wf_stayAwake {s : State} (h : Memory.wf (memOf s) = true) : Memory.wf (memOf (stayAwake s)) = true := by
  fun_cases stayAwake s <;>
  repeat' first | intro _ | (with_reducible first | assumption | refine wf_abandonP2 ?_ | refine wf_actAgain ?_ | refine wf_of_eq (setDom_mem ..) ?_) | (fail_if_no_progress dsimp only) | split

theorem wf_sealSteps {c : SealedConf} {s : State} (h : Memory.wf (memOf s) = true) : Memory.wf (memOf (sealSteps c s).2) = true := by
  delta sealSteps
  exact wf_sealLoad (wf_of_eq (raiseEpoch4_mem ..) (wf_clearPartition (wf_of_eq (setBez_mem ..) (wf_haltPartition (wf_stayAwake h)))))

theorem sealStart_mem (s : State)  : memOf (sealStart s) = memOf s := by
  fun_cases sealStart s <;>
  repeat' first | intro _ | (with_reducible first | rfl | assumption | refine (facetRun_mem ..).trans ?_ | refine (lctlPut_mem ..).trans ?_ | refine (rset_mem ..).trans ?_ | refine (startThread_mem ..).trans ?_ | refine foldl_eq_mem ?_ ?_) | (fail_if_no_progress dsimp only) | split

theorem releaseLocks_mem (s : State)  : memOf (releaseLocks s) = memOf s := by
  fun_cases releaseLocks s <;>
  repeat' first | intro _ | (with_reducible first | rfl | refine (setLocks_mem ..).trans ?_ | refine (setMetro_mem ..).trans ?_) | (fail_if_no_progress dsimp only) | split

theorem metroEvent_mem (s : State)  : memOf (metroEvent s) = memOf s := by
  fun_cases metroEvent s <;>
  repeat' first | intro _ | (with_reducible first | rfl | refine (postEvent_mem ..).trans ?_) | (fail_if_no_progress dsimp only) | split

theorem wf_metroRecord {kind : Nat} {prin : Nat} {detail : List Byte} {s : State} (h : Memory.wf (memOf s) = true) : Memory.wf (memOf (metroRecord kind prin detail s).2) = true := by
  fun_cases metroRecord kind prin detail s <;>
  repeat' first | intro _ | (with_reducible first | assumption | refine wf_audit ?_ | refine wf_of_eq (setMetro_mem ..) ?_) | (fail_if_no_progress dsimp only) | split

theorem wf_metrLoad {c : Call} {s : State} (h : Memory.wf (memOf s) = true) : Memory.wf (memOf (metrLoad c s).2) = true := by
  fun_cases metrLoad c s <;>
  repeat' first | intro _ | (with_reducible first | assumption | refine wf_metroRecord ?_ | refine wf_of_eq (fail_mem ..) ?_ | refine wf_of_eq (failWith_mem ..) ?_ | refine wf_of_eq (setMetro_mem ..) ?_ | refine wf_of_eq (pair_eq_mem (by assumption)) ?_) | (fail_if_no_progress dsimp only) | split

theorem wf_execMetrLoad {g : GIn} {s : State} {t__} (hx : execMetrLoad g s = .next t__) (h : Memory.wf (memOf s) = true) : Memory.wf (memOf t__) = true := by
  revert hx
  fun_cases execMetrLoad g s <;> intro hx
  all_goals first
    | (cases hx; done)
    | exact wf_runCmd hx (by repeat' first | intro _ | (with_reducible first | assumption | refine wf_metrLoad ?_) | (fail_if_no_progress dsimp only) | split)
    | exact wf_runCmd hx (by intro _ _ _; repeat' first | intro _ | (with_reducible first | assumption | refine wf_metrLoad ?_) | (fail_if_no_progress dsimp only) | split) h

theorem metrSeal_mem (c : Call) (s : State)  : memOf (metrSeal c s).2 = memOf s := by
  fun_cases metrSeal c s <;>
  repeat' first | intro _ | (with_reducible first | rfl | assumption | refine (fail_mem ..).trans ?_ | refine (quiesce_mem ..).trans ?_ | refine (setMetro_mem ..).trans ?_) | (fail_if_no_progress dsimp only) | split

theorem wf_sealBegin {c : Cmd} {conf : SealedConf} {s : State} (h : Memory.wf (memOf s) = true) :
    Memory.wf (memOf (sealBegin c conf s)) = true := by
  delta sealBegin
  extract_lets e r q
  have hr : Memory.wf (memOf r.2) = true := wf_sealSteps h
  split
  · exact wf_of_eq (setCmd_mem ..) (wf_metroRecord hr)
  · exact wf_of_eq (finishCmd_mem ..) (wf_of_eq (setEpoch_mem ..) (wf_of_eq (releaseLocks_mem ..) hr))

theorem wf_execMetrSeal {g : GIn} {s : State} {t__} (hx : execMetrSeal g s = .next t__) (h : Memory.wf (memOf s) = true) : Memory.wf (memOf t__) = true := by
  revert hx
  fun_cases execMetrSeal g s <;> intro hx
  all_goals first
    | (cases hx; done)
    | (have e__ := gate_next hx; subst e__; repeat' first | intro _ | (with_reducible first | assumption | refine wf_sealBegin ?_ | refine wf_of_eq (metrSeal_mem ..) ?_) | (fail_if_no_progress dsimp only) | split)
    | exact wf_runCmd hx (by repeat' first | intro _ | (with_reducible first | assumption | refine wf_sealBegin ?_ | refine wf_of_eq (metrSeal_mem ..) ?_) | (fail_if_no_progress dsimp only) | split)
    | exact wf_runCmd hx (by intro _ _ _; repeat' first | intro _ | (with_reducible first | assumption | refine wf_sealBegin ?_ | refine wf_of_eq (metrSeal_mem ..) ?_) | (fail_if_no_progress dsimp only) | split) h

theorem wf_metrBreak {c : Call} {s : State} (h : Memory.wf (memOf s) = true) : Memory.wf (memOf (metrBreak c s).2) = true := by
  fun_cases metrBreak c s <;>
  repeat' first | intro _ | (with_reducible first | assumption | refine wf_metroRecord ?_ | refine wf_of_eq (fail_mem ..) ?_ | refine wf_of_eq pair_mem ?_ | refine wf_of_eq (pair_eq_mem (by assumption)) ?_) | (fail_if_no_progress dsimp only) | split

theorem wf_breakSteps {conf : SealedConf} {s : State} (h : Memory.wf (memOf s) = true) : Memory.wf (memOf (breakSteps conf s)) = true := by
  fun_cases breakSteps conf s <;>
  repeat' first | intro _ | (with_reducible first | assumption | refine wf_clearPartition ?_ | refine wf_haltPartition ?_ | refine wf_of_eq (raiseEpoch4_mem ..) ?_ | refine wf_of_eq (rbitSet_mem ..) ?_ | refine wf_of_eq (releaseLocks_mem ..) ?_ | refine wf_of_eq (setMetro_mem ..) ?_ | refine wf_of_eq (updFacet_mem ..) ?_ | refine wf_foldl _ ?_ _ _ ?_) | (fail_if_no_progress dsimp only) | split

theorem wf_execMetrBreak {g : GIn} {s : State} {t__} (hx : execMetrBreak g s = .next t__) (h : Memory.wf (memOf s) = true) : Memory.wf (memOf t__) = true := by
  revert hx
  fun_cases execMetrBreak g s <;> intro hx
  all_goals first
    | (cases hx; done)
    | (have e__ := gate_next hx; subst e__; repeat' first | intro _ | (with_reducible first | assumption | refine wf_breakSteps ?_ | refine wf_metrBreak ?_ | refine wf_of_eq (finishCmd_mem ..) ?_) | (fail_if_no_progress dsimp only) | split)
    | exact wf_runCmd hx (by repeat' first | intro _ | (with_reducible first | assumption | refine wf_breakSteps ?_ | refine wf_metrBreak ?_ | refine wf_of_eq (finishCmd_mem ..) ?_) | (fail_if_no_progress dsimp only) | split)
    | exact wf_runCmd hx (by intro _ _ _; repeat' first | intro _ | (with_reducible first | assumption | refine wf_breakSteps ?_ | refine wf_metrBreak ?_ | refine wf_of_eq (finishCmd_mem ..) ?_) | (fail_if_no_progress dsimp only) | split) h

theorem metroFollow_mem (kind : Nat) (s : State)  : memOf (metroFollow kind s) = memOf s := by
  fun_cases metroFollow kind s <;>
  repeat' first | intro _ | (with_reducible first | rfl | assumption | refine (metroEvent_mem ..).trans ?_ | refine (quiesce_mem ..).trans ?_ | refine (sealStart_mem ..).trans ?_) | (fail_if_no_progress dsimp only) | split

theorem execLineCommitDone_mem (line : Fin 262144) (s : State)  {t__} (h : execLineCommitDone line s = .next t__) : memOf t__ = memOf s := by
  revert h
  fun_cases execLineCommitDone line s <;> intro h
  all_goals first
    | (cases h; done)
    | (have e__ := next_inj h; subst e__; repeat' first | intro _ | (with_reducible first | rfl | assumption | refine (lineDone_mem ..).trans ?_ | refine (metroCommitted_mem ..).trans ?_ | refine (metroFollow_mem ..).trans ?_ | refine ite_eq_same ?_ ?_) | (fail_if_no_progress dsimp only) | split)

theorem metrStatus_mem (x1__ : Call) (s : State)  : memOf (metrStatus x1__ s).2 = memOf s := by
  fun_cases metrStatus x1__ s <;>
  repeat' first | intro _ | (with_reducible first | rfl | refine (doneData_mem ..).trans ?_) | (fail_if_no_progress dsimp only) | split

theorem wf_execMetrStatus {g : GIn} {s : State} {t__} (hx : execMetrStatus g s = .next t__) (h : Memory.wf (memOf s) = true) : Memory.wf (memOf t__) = true := by
  revert hx
  fun_cases execMetrStatus g s <;> intro hx
  all_goals first
    | (cases hx; done)
    | exact wf_runCmd hx (by repeat' first | intro _ | (with_reducible first | assumption | refine wf_of_eq (metrStatus_mem ..) ?_) | (fail_if_no_progress dsimp only) | split)
    | exact wf_runCmd hx (by intro _ _ _; repeat' first | intro _ | (with_reducible first | assumption | refine wf_of_eq (metrStatus_mem ..) ?_) | (fail_if_no_progress dsimp only) | split) h

theorem metrAudit_mem (c : Call) (s : State)  : memOf (metrAudit c s).2 = memOf s := by
  fun_cases metrAudit c s <;>
  repeat' first | intro _ | (with_reducible first | rfl | refine (listReply_mem ..).trans ?_) | (fail_if_no_progress dsimp only) | split

theorem wf_execMetrAudit {g : GIn} {s : State} {t__} (hx : execMetrAudit g s = .next t__) (h : Memory.wf (memOf s) = true) : Memory.wf (memOf t__) = true := by
  revert hx
  fun_cases execMetrAudit g s <;> intro hx
  all_goals first
    | (cases hx; done)
    | exact wf_runCmd hx (by repeat' first | intro _ | (with_reducible first | assumption | refine wf_of_eq (metrAudit_mem ..) ?_) | (fail_if_no_progress dsimp only) | split)
    | exact wf_runCmd hx (by intro _ _ _; repeat' first | intro _ | (with_reducible first | assumption | refine wf_of_eq (metrAudit_mem ..) ?_) | (fail_if_no_progress dsimp only) | split) h

theorem wf_sealBroken {step : Nat} {s : State} (h : Memory.wf (memOf s) = true) : Memory.wf (memOf (sealBroken step s).2) = true :=
  wf_of_eq (metroEvent_mem ..) (wf_of_eq (rput_mem ..) (wf_audit h))

theorem wf_sealAgain {conf : SealedConf} {s : State} (h : Memory.wf (memOf s) = true) : Memory.wf (memOf (sealAgain conf s).2) = true := by
  delta sealAgain
  extract_lets r
  have hr : Memory.wf (memOf r.2) = true := wf_sealSteps (wf_of_eq (quiesce_mem ..) h)
  split
  · exact wf_audit (wf_of_eq (setMetro_mem ..) hr)
  · exact wf_sealBroken (wf_of_eq (releaseLocks_mem ..) hr)

theorem wf_restoreSeal {s : State} (h : Memory.wf (memOf s) = true) : Memory.wf (memOf (restoreSeal s).2) = true := by
  delta restoreSeal
  split
  · exact h
  · split
    · split
      · exact wf_sealBroken h
      · exact wf_sealAgain h
    · exact wf_sealBroken h

theorem execDbgchal_mem (s : State)  {t__} (h : execDbgchal s = .next t__) : memOf t__ = memOf s := by
  revert h
  fun_cases execDbgchal s <;> intro h
  all_goals first
    | (cases h; done)
    | (have e__ := next_inj h; subst e__; repeat' first | intro _ | (with_reducible first | rfl | refine (emit_mem ..).trans ?_ | refine (freeBytes_mem ..).trans ?_ | refine (setBez_mem ..).trans ?_ | refine (pair_eq_mem (by assumption)).trans ?_) | (fail_if_no_progress dsimp only) | split)

theorem wf_execDbgresp {scope : BitVec 32} {signer : BitVec 8} {sig : List (BitVec 8)} {s : State} {t__} (hx : execDbgresp scope signer sig s = .next t__) (h : Memory.wf (memOf s) = true) : Memory.wf (memOf t__) = true := by
  revert hx
  fun_cases execDbgresp scope signer sig s <;> intro hx
  all_goals first
    | (cases hx; done)
    | (have e__ := next_inj hx; subst e__; repeat' first | intro _ | (with_reducible first | assumption | refine wf_audit ?_ | refine wf_of_eq (setBez_mem ..) ?_ | refine wf_ite_same ?_ ?_) | (fail_if_no_progress dsimp only) | split)

theorem execJtagInstruction_mem (j : Jtag) (s : State)  {t__} (h : execJtagInstruction j s = .next t__) : memOf t__ = memOf s := by
  revert h
  fun_cases execJtagInstruction j s <;> intro h
  all_goals first
    | (cases h; done)
    | (have e__ := next_inj h; subst e__; repeat' first | intro _ | (with_reducible first | rfl | assumption | refine (setBez_mem ..).trans ?_) | (fail_if_no_progress dsimp only) | split)

theorem execTrstAssert_mem (s : State)  {t__} (h : execTrstAssert s = .next t__) : memOf t__ = memOf s := by
  revert h
  fun_cases execTrstAssert s <;> intro h
  all_goals first
    | (cases h; done)
    | (have e__ := next_inj h; subst e__; repeat' first | intro _ | (with_reducible first | rfl | refine (setBez_mem ..).trans ?_) | (fail_if_no_progress dsimp only) | split)

/-! ### GlebyUpdate -/

theorem updStage_mem (c : Call) (s : State)  : memOf (updStage c s).2 = memOf s := by
  fun_cases updStage c s <;>
  repeat' first | intro _ | (with_reducible first | rfl | assumption | refine (done_mem ..).trans ?_ | refine (fail_mem ..).trans ?_ | refine (setGly_mem ..).trans ?_) | (fail_if_no_progress dsimp only) | split

theorem wf_execUpdStage {g : GIn} {s : State} {t__} (hx : execUpdStage g s = .next t__) (h : Memory.wf (memOf s) = true) : Memory.wf (memOf t__) = true := by
  revert hx
  fun_cases execUpdStage g s <;> intro hx
  all_goals first
    | (cases hx; done)
    | exact wf_runCmd hx (by repeat' first | intro _ | (with_reducible first | assumption | refine wf_of_eq (updStage_mem ..) ?_) | (fail_if_no_progress dsimp only) | split)
    | exact wf_runCmd hx (by intro _ _ _; repeat' first | intro _ | (with_reducible first | assumption | refine wf_of_eq (updStage_mem ..) ?_) | (fail_if_no_progress dsimp only) | split) h

theorem wf_applyGleby {c : Call} {bs : List Byte} {s : State} (h : Memory.wf (memOf s) = true) : Memory.wf (memOf (applyGleby c bs s).2) = true := by
  fun_cases applyGleby c bs s <;>
  repeat' first | intro _ | (with_reducible first | assumption | refine wf_audit ?_ | refine wf_of_eq (fail_mem ..) ?_ | refine wf_of_eq (setBez_mem ..) ?_) | (fail_if_no_progress dsimp only) | split

theorem wf_writeShadow {p : Patch} {b : Nat} {s : State} (h : Memory.wf (memOf s) = true) : Memory.wf (memOf (writeShadow p b s)) = true := by
  fun_cases writeShadow p b s <;>
  repeat' first | intro _ | (with_reducible first | assumption | refine wf_putBank ?_ | refine wf_of_eq (rput_mem ..) ?_) | (fail_if_no_progress dsimp only) | split

theorem armAll_mem (t : Nat) : ∀ (l : List Nat) (s : State), memOf (armAll t l s).2 = memOf s
  | [], s => rfl
  | b :: l, s => by
    unfold armAll
    extract_lets x
    have h : memOf x = memOf s := (rbitSet_mem ..).trans (by split; exacts [rfl, rset_mem ..])
    clear_value x
    split
    · exact (blkArm_mem ..).trans h
    · exact (armAll_mem t l _).trans ((blkArm_mem ..).trans h)

theorem wf_installPatch {c : Call} {bs : List Byte} {p : Patch} {s : State} (h : Memory.wf (memOf s) = true) :
    Memory.wf (memOf (installPatch c bs p s).2) = true := by
  delta installPatch
  extract_lets bl t s1 l src s2 q
  have h1 : Memory.wf (memOf s1) = true := wf_foldl _ (fun _ _ hx => wf_writeShadow hx) _ _ h
  have h2 : Memory.wf (memOf s2) = true := wf_audit (wf_of_eq (addRec5_mem ..) (wf_of_eq (setLedger_mem ..) h1))
  have hq : Memory.wf (memOf q.2) = true := wf_of_eq (armAll_mem ..) h2
  clear_value q
  split
  · exact wf_of_eq (failWith_mem ..) hq
  · exact hq

theorem wf_applyPatch {c : Call} {bs : List Byte} {s : State} (h : Memory.wf (memOf s) = true) :
    Memory.wf (memOf (applyPatch c bs s).2) = true := by
  delta applyPatch
  split
  · exact wf_of_eq (failWith_mem ..) h
  · split
    · exact wf_of_eq (fail_mem ..) h
    · exact wf_of_eq (fail_mem ..) h
    · exact wf_of_eq (failWith_mem ..) h
    · split
      · exact wf_of_eq (fail_mem ..) h
      · split
        · exact wf_of_eq (fail_mem ..) h
        · exact wf_installPatch h

theorem wf_updApply {c : Call} {s : State} (h : Memory.wf (memOf s) = true) : Memory.wf (memOf (updApply c s).2) = true := by
  fun_cases updApply c s <;>
  repeat' first | intro _ | (with_reducible first | assumption | refine wf_applyGleby ?_ | refine wf_applyPatch ?_ | refine wf_of_eq (fail_mem ..) ?_) | (fail_if_no_progress dsimp only) | split

theorem wf_execUpdApply {g : GIn} {s : State} {t__} (hx : execUpdApply g s = .next t__) (h : Memory.wf (memOf s) = true) : Memory.wf (memOf t__) = true := by
  revert hx
  fun_cases execUpdApply g s <;> intro hx
  all_goals first
    | (cases hx; done)
    | exact wf_runCmd hx (by repeat' first | intro _ | (with_reducible first | assumption | refine wf_updApply ?_) | (fail_if_no_progress dsimp only) | split)
    | exact wf_runCmd hx (by intro _ _ _; repeat' first | intro _ | (with_reducible first | assumption | refine wf_updApply ?_) | (fail_if_no_progress dsimp only) | split) h

theorem updStatus_mem (x1__ : Call) (s : State)  : memOf (updStatus x1__ s).2 = memOf s := by
  fun_cases updStatus x1__ s <;>
  repeat' first | intro _ | (with_reducible first | rfl | refine (done_mem ..).trans ?_) | (fail_if_no_progress dsimp only) | split

theorem wf_execUpdStatus {g : GIn} {s : State} {t__} (hx : execUpdStatus g s = .next t__) (h : Memory.wf (memOf s) = true) : Memory.wf (memOf t__) = true := by
  revert hx
  fun_cases execUpdStatus g s <;> intro hx
  all_goals first
    | (cases hx; done)
    | exact wf_runCmd hx (by repeat' first | intro _ | (with_reducible first | assumption | refine wf_of_eq (updStatus_mem ..) ?_) | (fail_if_no_progress dsimp only) | split)
    | exact wf_runCmd hx (by intro _ _ _; repeat' first | intro _ | (with_reducible first | assumption | refine wf_of_eq (updStatus_mem ..) ?_) | (fail_if_no_progress dsimp only) | split) h

theorem updDiscard_mem (c : Call) (s : State)  : memOf (updDiscard c s).2 = memOf s := by
  fun_cases updDiscard c s <;>
  repeat' first | intro _ | (with_reducible first | rfl | assumption | refine (done_mem ..).trans ?_ | refine (fail_mem ..).trans ?_ | refine (setGly_mem ..).trans ?_) | (fail_if_no_progress dsimp only) | split

theorem wf_execUpdDiscard {g : GIn} {s : State} {t__} (hx : execUpdDiscard g s = .next t__) (h : Memory.wf (memOf s) = true) : Memory.wf (memOf t__) = true := by
  revert hx
  fun_cases execUpdDiscard g s <;> intro hx
  all_goals first
    | (cases hx; done)
    | exact wf_runCmd hx (by repeat' first | intro _ | (with_reducible first | assumption | refine wf_of_eq (updDiscard_mem ..) ?_) | (fail_if_no_progress dsimp only) | split)
    | exact wf_runCmd hx (by intro _ _ _; repeat' first | intro _ | (with_reducible first | assumption | refine wf_of_eq (updDiscard_mem ..) ?_) | (fail_if_no_progress dsimp only) | split) h

/-! ### GlebyFabric -/

theorem fabJoin_mem (c : Call) (s : State)  : memOf (fabJoin c s).2 = memOf s := by
  fun_cases fabJoin c s <;>
  repeat' first | intro _ | (with_reducible first | rfl | assumption | refine (done_mem ..).trans ?_ | refine (fail_mem ..).trans ?_ | refine (failWith_mem ..).trans ?_ | refine (postEvent_mem ..).trans ?_ | refine (rput_mem ..).trans ?_ | refine (sendControl_mem ..).trans ?_ | refine (setFabric_mem ..).trans ?_) | (fail_if_no_progress dsimp only) | split

theorem wf_execFabJoin {g : GIn} {s : State} {t__} (hx : execFabJoin g s = .next t__) (h : Memory.wf (memOf s) = true) : Memory.wf (memOf t__) = true := by
  revert hx
  fun_cases execFabJoin g s <;> intro hx
  all_goals first
    | (cases hx; done)
    | exact wf_runCmd hx (by repeat' first | intro _ | (with_reducible first | assumption | refine wf_of_eq (fabJoin_mem ..) ?_) | (fail_if_no_progress dsimp only) | split)
    | exact wf_runCmd hx (by intro _ _ _; repeat' first | intro _ | (with_reducible first | assumption | refine wf_of_eq (fabJoin_mem ..) ?_) | (fail_if_no_progress dsimp only) | split) h

theorem fabLeave_mem (x1__ : Call) (s : State)  : memOf (fabLeave x1__ s).2 = memOf s := by
  fun_cases fabLeave x1__ s <;>
  repeat' first | intro _ | (with_reducible first | rfl | assumption | refine (done_mem ..).trans ?_ | refine (fail_mem ..).trans ?_ | refine (postEvent_mem ..).trans ?_ | refine (setFabric_mem ..).trans ?_) | (fail_if_no_progress dsimp only) | split

theorem wf_execFabLeave {g : GIn} {s : State} {t__} (hx : execFabLeave g s = .next t__) (h : Memory.wf (memOf s) = true) : Memory.wf (memOf t__) = true := by
  revert hx
  fun_cases execFabLeave g s <;> intro hx
  all_goals first
    | (cases hx; done)
    | exact wf_runCmd hx (by repeat' first | intro _ | (with_reducible first | assumption | refine wf_of_eq (fabLeave_mem ..) ?_) | (fail_if_no_progress dsimp only) | split)
    | exact wf_runCmd hx (by intro _ _ _; repeat' first | intro _ | (with_reducible first | assumption | refine wf_of_eq (fabLeave_mem ..) ?_) | (fail_if_no_progress dsimp only) | split) h

theorem fabStatus_mem (x1__ : Call) (s : State)  : memOf (fabStatus x1__ s).2 = memOf s := by
  fun_cases fabStatus x1__ s <;>
  repeat' first | intro _ | (with_reducible first | rfl | refine (doneData_mem ..).trans ?_) | (fail_if_no_progress dsimp only) | split

theorem wf_execFabStatus {g : GIn} {s : State} {t__} (hx : execFabStatus g s = .next t__) (h : Memory.wf (memOf s) = true) : Memory.wf (memOf t__) = true := by
  revert hx
  fun_cases execFabStatus g s <;> intro hx
  all_goals first
    | (cases hx; done)
    | exact wf_runCmd hx (by repeat' first | intro _ | (with_reducible first | assumption | refine wf_of_eq (fabStatus_mem ..) ?_) | (fail_if_no_progress dsimp only) | split)
    | exact wf_runCmd hx (by intro _ _ _; repeat' first | intro _ | (with_reducible first | assumption | refine wf_of_eq (fabStatus_mem ..) ?_) | (fail_if_no_progress dsimp only) | split) h

theorem fabConfig_mem (c : Call) (s : State)  : memOf (fabConfig c s).2 = memOf s := by
  fun_cases fabConfig c s <;>
  repeat' first | intro _ | (with_reducible first | rfl | refine (done_mem ..).trans ?_ | refine (setFabric_mem ..).trans ?_) | (fail_if_no_progress dsimp only) | split

theorem wf_execFabConfig {g : GIn} {s : State} {t__} (hx : execFabConfig g s = .next t__) (h : Memory.wf (memOf s) = true) : Memory.wf (memOf t__) = true := by
  revert hx
  fun_cases execFabConfig g s <;> intro hx
  all_goals first
    | (cases hx; done)
    | exact wf_runCmd hx (by repeat' first | intro _ | (with_reducible first | assumption | refine wf_of_eq (fabConfig_mem ..) ?_) | (fail_if_no_progress dsimp only) | split)
    | exact wf_runCmd hx (by intro _ _ _; repeat' first | intro _ | (with_reducible first | assumption | refine wf_of_eq (fabConfig_mem ..) ?_) | (fail_if_no_progress dsimp only) | split) h

theorem fabWindow_mem (c : Call) (s : State)  : memOf (fabWindow c s).2 = memOf s := by
  fun_cases fabWindow c s <;>
  repeat' first | intro _ | (with_reducible first | rfl | assumption | refine (done_mem ..).trans ?_ | refine (setFabric_mem ..).trans ?_) | (fail_if_no_progress dsimp only) | split

theorem wf_execFabWindow {g : GIn} {s : State} {t__} (hx : execFabWindow g s = .next t__) (h : Memory.wf (memOf s) = true) : Memory.wf (memOf t__) = true := by
  revert hx
  fun_cases execFabWindow g s <;> intro hx
  all_goals first
    | (cases hx; done)
    | exact wf_runCmd hx (by repeat' first | intro _ | (with_reducible first | assumption | refine wf_of_eq (fabWindow_mem ..) ?_) | (fail_if_no_progress dsimp only) | split)
    | exact wf_runCmd hx (by intro _ _ _; repeat' first | intro _ | (with_reducible first | assumption | refine wf_of_eq (fabWindow_mem ..) ?_) | (fail_if_no_progress dsimp only) | split) h

theorem fabStandby_mem (c : Call) (s : State)  : memOf (fabStandby c s).2 = memOf s := by
  fun_cases fabStandby c s <;>
  repeat' first | intro _ | (with_reducible first | rfl | assumption | refine (done_mem ..).trans ?_ | refine (fail_mem ..).trans ?_ | refine (setSes_mem ..).trans ?_) | (fail_if_no_progress dsimp only) | split

theorem wf_execFabStandby {g : GIn} {s : State} {t__} (hx : execFabStandby g s = .next t__) (h : Memory.wf (memOf s) = true) : Memory.wf (memOf t__) = true := by
  revert hx
  fun_cases execFabStandby g s <;> intro hx
  all_goals first
    | (cases hx; done)
    | exact wf_runCmd hx (by repeat' first | intro _ | (with_reducible first | assumption | refine wf_of_eq (fabStandby_mem ..) ?_) | (fail_if_no_progress dsimp only) | split)
    | exact wf_runCmd hx (by intro _ _ _; repeat' first | intro _ | (with_reducible first | assumption | refine wf_of_eq (fabStandby_mem ..) ?_) | (fail_if_no_progress dsimp only) | split) h

theorem wf_fabExport {c : Call} {s : State} (h : Memory.wf (memOf s) = true) : Memory.wf (memOf (fabExport c s).2) = true := by
  fun_cases fabExport c s <;>
  repeat' first | intro _ | (with_reducible first | assumption | refine wf_girdlePut ?_ | refine wf_of_eq (done_mem ..) ?_ | refine wf_of_eq (fail_mem ..) ?_) | (fail_if_no_progress dsimp only) | split

theorem wf_execFabExport {g : GIn} {s : State} {t__} (hx : execFabExport g s = .next t__) (h : Memory.wf (memOf s) = true) : Memory.wf (memOf t__) = true := by
  revert hx
  fun_cases execFabExport g s <;> intro hx
  all_goals first
    | (cases hx; done)
    | exact wf_runCmd hx (by repeat' first | intro _ | (with_reducible first | assumption | refine wf_fabExport ?_) | (fail_if_no_progress dsimp only) | split)
    | exact wf_runCmd hx (by intro _ _ _; repeat' first | intro _ | (with_reducible first | assumption | refine wf_fabExport ?_) | (fail_if_no_progress dsimp only) | split) h

theorem wf_fabImportSet {c : Call} {s : State} (h : Memory.wf (memOf s) = true) : Memory.wf (memOf (fabImportSet c s).2) = true := by
  fun_cases fabImportSet c s <;>
  repeat' first | intro _ | (with_reducible first | assumption | refine wf_hatWrite ?_ | refine wf_of_eq (done_mem ..) ?_ | refine wf_of_eq (fail_mem ..) ?_) | (fail_if_no_progress dsimp only) | split

theorem wf_execFabImport {g : GIn} {s : State} {t__} (hx : execFabImport g s = .next t__) (h : Memory.wf (memOf s) = true) : Memory.wf (memOf t__) = true := by
  revert hx
  fun_cases execFabImport g s <;> intro hx
  all_goals first
    | (cases hx; done)
    | exact wf_runCmd hx (by repeat' first | intro _ | (with_reducible first | assumption | refine wf_fabImportSet ?_) | (fail_if_no_progress dsimp only) | split)
    | exact wf_runCmd hx (by intro _ _ _; repeat' first | intro _ | (with_reducible first | assumption | refine wf_fabImportSet ?_) | (fail_if_no_progress dsimp only) | split) h

/-! ### Mailbox -/

theorem qSet_mem (q i : Nat) (b : Bool) (s : State)  : memOf (qSet q i b s) = memOf s := by
  fun_cases qSet q i b s <;>
  repeat' first | intro _ | (with_reducible first | rfl | refine (rbitSet_mem ..).trans ?_) | (fail_if_no_progress dsimp only) | split

theorem settleQueue_mem (q : Nat) (s : State)  : memOf (settleQueue q s) = memOf s := by
  fun_cases settleQueue q s <;>
  repeat' first | intro _ | (with_reducible first | rfl | assumption | refine (qSet_mem ..).trans ?_ | refine (rclear_mem ..).trans ?_ | refine (setQpair_mem ..).trans ?_) | (fail_if_no_progress dsimp only) | split

theorem qcfgWrite_mem (q : Nat) (v : BitVec 64) (s : State)  : memOf (qcfgWrite q v s) = memOf s := by
  fun_cases qcfgWrite q v s <;>
  repeat' first | intro _ | (with_reducible first | rfl | assumption | refine (qSet_mem ..).trans ?_ | refine (rset_mem ..).trans ?_ | refine (setQpair_mem ..).trans ?_ | refine (settleQueue_mem ..).trans ?_ | refine ite_eq_same ?_ ?_) | (fail_if_no_progress dsimp only) | split

theorem execQueueEnable_mem (q : Fin 16) (v : BitVec 64) (s : State)  {t__} (h : execQueueEnable q v s = .next t__) : memOf t__ = memOf s := by
  revert h
  fun_cases execQueueEnable q v s <;> intro h
  all_goals first
    | (cases h; done)
    | (have e__ := next_inj h; subst e__; repeat' first | intro _ | (with_reducible first | rfl | refine (qcfgWrite_mem ..).trans ?_) | (fail_if_no_progress dsimp only) | split)

theorem execQueueDisable_mem (q : Fin 16) (v : BitVec 64) (s : State)  {t__} (h : execQueueDisable q v s = .next t__) : memOf t__ = memOf s := by
  revert h
  fun_cases execQueueDisable q v s <;> intro h
  all_goals first
    | (cases h; done)
    | (have e__ := next_inj h; subst e__; repeat' first | intro _ | (with_reducible first | rfl | refine (qcfgWrite_mem ..).trans ?_) | (fail_if_no_progress dsimp only) | split)

theorem qbaseWrite_mem (q o : Nat) (v : BitVec 64) (s : State)  : memOf (qbaseWrite q o v s) = memOf s := by
  fun_cases qbaseWrite q o v s <;>
  repeat' first | intro _ | (with_reducible first | rfl | assumption | refine (qSet_mem ..).trans ?_ | refine (rset_mem ..).trans ?_) | (fail_if_no_progress dsimp only) | split

theorem qStop_mem (q i : Nat) (s : State)  : memOf (qStop q i s) = memOf s := by
  fun_cases qStop q i s <;>
  repeat' first | intro _ | (with_reducible first | rfl | refine (qSet_mem ..).trans ?_) | (fail_if_no_progress dsimp only) | split

theorem sqtailWrite_mem (q v : Nat) (s : State)  : memOf (sqtailWrite q v s) = memOf s := by
  fun_cases sqtailWrite q v s <;>
  repeat' first | intro _ | (with_reducible first | rfl | assumption | refine (qSet_mem ..).trans ?_ | refine (qStop_mem ..).trans ?_ | refine (raiseSteward_mem ..).trans ?_ | refine (setQpair_mem ..).trans ?_) | (fail_if_no_progress dsimp only) | split

theorem execMbxSqtail_mem (q : Fin 16) (v : BitVec 64) (s : State)  {t__} (h : execMbxSqtail q v s = .next t__) : memOf t__ = memOf s := by
  revert h
  fun_cases execMbxSqtail q v s <;> intro h
  all_goals first
    | (cases h; done)
    | (have e__ := next_inj h; subst e__; repeat' first | intro _ | (with_reducible first | rfl | refine (sqtailWrite_mem ..).trans ?_) | (fail_if_no_progress dsimp only) | split)

theorem cqheadWrite_mem (q v : Nat) (s : State)  : memOf (cqheadWrite q v s) = memOf s := by
  fun_cases cqheadWrite q v s <;>
  repeat' first | intro _ | (with_reducible first | rfl | assumption | refine (qSet_mem ..).trans ?_ | refine (qStop_mem ..).trans ?_ | refine (raiseSteward_mem ..).trans ?_ | refine (setQpair_mem ..).trans ?_) | (fail_if_no_progress dsimp only) | split

theorem execMbxCqhead_mem (q : Fin 16) (v : BitVec 64) (s : State)  {t__} (h : execMbxCqhead q v s = .next t__) : memOf t__ = memOf s := by
  revert h
  fun_cases execMbxCqhead q v s <;> intro h
  all_goals first
    | (cases h; done)
    | (have e__ := next_inj h; subst e__; repeat' first | intro _ | (with_reducible first | rfl | refine (cqheadWrite_mem ..).trans ?_) | (fail_if_no_progress dsimp only) | split)

theorem addCmd_mem (src : CmdSrc) (entry : BitVec 512) (s : State)  : memOf (addCmd src entry s) = memOf s := by
  fun_cases addCmd src entry s <;>
  repeat' first | intro _ | (with_reducible first | rfl | refine (setGly_mem ..).trans ?_) | (fail_if_no_progress dsimp only) | split

theorem fetchBurst_mem (q : Nat) (es : List (BitVec 512)) (s : State)  : memOf (fetchBurst q es s) = memOf s := by
  fun_cases fetchBurst q es s <;>
  repeat' first | intro _ | (with_reducible first | rfl | refine (addCmd_mem ..).trans ?_ | refine (rput_mem ..).trans ?_ | refine (setGly_mem ..).trans ?_ | refine foldl_eq_mem ?_ ?_) | (fail_if_no_progress dsimp only) | split

theorem execCommandFetch_mem (q : Fin 16) (entries : List (BitVec 512)) (ok : Bool) (s : State)  {t__} (h : execCommandFetch q entries ok s = .next t__) : memOf t__ = memOf s := by
  revert h
  fun_cases execCommandFetch q entries ok s <;> intro h
  all_goals first
    | (cases h; done)
    | (have e__ := next_inj h; subst e__; repeat' first | intro _ | (with_reducible first | rfl | assumption | refine (fetchBurst_mem ..).trans ?_ | refine (qStop_mem ..).trans ?_ | refine ite_eq_same ?_ ?_) | (fail_if_no_progress dsimp only) | split)

theorem waitData_mem (c : Cmd) (bs : List Byte) (s : State)  : memOf (waitData c bs s) = memOf s := by
  fun_cases waitData c bs s <;>
  repeat' first | intro _ | (with_reducible first | rfl | assumption | refine (emit_mem ..).trans ?_) | (fail_if_no_progress dsimp only) | split

theorem wf_waitEnd {s : State} {c : Cmd} {t__} (hx : waitEnd s c = some t__) (h : Memory.wf (memOf s) = true) :
    Memory.wf (memOf t__.2.2) = true := by
  delta waitEnd at hx
  extract_lets ended at hx
  have he : ∀ {b : Bool} {r : Nat} {y : State} {x}, ended b r y = some x → Memory.wf (memOf y) = true → Memory.wf (memOf x.2.2) = true := by
    intro b r y x e hy
    simp only [ended] at e
    split at e
    · have e := Option.some.inj e
      subst e
      exact hy
    · cases e
  clear_value ended
  repeat' split at hx
  all_goals first
    | (cases hx; done)
    | exact he hx h
    | exact he hx (wf_of_eq (waitData_mem ..) h)
    | exact he hx (wf_unbindFinish h)
    | exact he hx (wf_releaseChunks h)
    | (have e := Option.some.inj hx
       subst e
       first | exact h | exact wf_of_eq (bindFinish_mem ..) h)

theorem wf_readyCmd {s : State} {p : Cmd → Bool} {t__} (hx : readyCmd s p = some t__) (h : Memory.wf (memOf s) = true) :
    Memory.wf (memOf t__.2) = true := by
  delta readyCmd at hx
  split at hx
  · have e := Option.some.inj hx
    subst e
    exact h
  · obtain ⟨c, -, hc⟩ := List.exists_of_findSome?_eq_some hx
    split at hc
    · cases hc
    · obtain ⟨r, hr, e⟩ := Option.map_eq_some_iff.mp hc
      subst e
      exact wf_of_eq (finishCmd_mem ..) (wf_waitEnd hr h)

theorem qMessage_mem (q : Nat) (s : State)  : memOf (qMessage q s) = memOf s := by
  fun_cases qMessage q s <;>
  repeat' first | intro _ | (with_reducible first | rfl | refine (sendMsix_mem ..).trans ?_ | refine (setQpair_mem ..).trans ?_) | (fail_if_no_progress dsimp only) | split

theorem qCount_mem (q : Nat) (s : State)  : memOf (qCount q s) = memOf s := by
  fun_cases qCount q s <;>
  repeat' first | intro _ | (with_reducible first | rfl | assumption | refine (qMessage_mem ..).trans ?_ | refine (setQpair_mem ..).trans ?_) | (fail_if_no_progress dsimp only) | split

theorem cqWrite_mem (q cid status : Nat) (result : BitVec 64) (s : State)  : memOf (cqWrite q cid status result s) = memOf s := by
  fun_cases cqWrite q cid status result s <;>
  repeat' first | intro _ | (with_reducible first | rfl | assumption | refine (emit_mem ..).trans ?_ | refine (qCount_mem ..).trans ?_ | refine (rput_mem ..).trans ?_ | refine (setQpair_mem ..).trans ?_ | refine ite_eq_same ?_ ?_) | (fail_if_no_progress dsimp only) | split

theorem afterPost_mem (c : Cmd) (st : Nat) (s : State)  : memOf (afterPost c st s) = memOf s := by
  fun_cases afterPost c st s <;>
  repeat' first | intro _ | (with_reducible first | rfl | assumption | refine (setPwr_mem ..).trans ?_) | (fail_if_no_progress dsimp only) | split

theorem postCmd_mem (q : Nat) (c : Cmd) (ok : Bool) (s : State)  : memOf (postCmd q c ok s) = memOf s := by
  fun_cases postCmd q c ok s <;>
  repeat' first | intro _ | (with_reducible first | rfl | assumption | refine (afterPost_mem ..).trans ?_ | refine (cqWrite_mem ..).trans ?_ | refine (dropCmd_mem ..).trans ?_ | refine (qStop_mem ..).trans ?_ | refine (settleQueue_mem ..).trans ?_ | refine ite_eq_same ?_ ?_) | (fail_if_no_progress dsimp only) | split

theorem postQueued_mem (ok : Bool) (e : Nat × BitVec 64) (t : List (Nat × BitVec 64)) (s : State)  : memOf (postQueued ok e t s) = memOf s := by
  fun_cases postQueued ok e t s <;>
  repeat' first | intro _ | (with_reducible first | rfl | assumption | refine (cqWrite_mem ..).trans ?_ | refine (qStop_mem ..).trans ?_ | refine (setGly_mem ..).trans ?_ | refine ite_eq_same ?_ ?_) | (fail_if_no_progress dsimp only) | split

theorem wf_execCompletionPost {q : Fin 16} {ok : Bool} {s : State} {t__} (hx : execCompletionPost q ok s = .next t__)
    (h : Memory.wf (memOf s) = true) : Memory.wf (memOf t__) = true := by
  delta execCompletionPost at hx
  split at hx
  · cases hx
  split at hx
  · have e := next_inj hx
    subst e
    exact wf_of_eq (postCmd_mem ..) (wf_readyCmd (by assumption) h)
  · split at hx
    · split at hx
      · have e := next_inj hx
        subst e
        exact wf_of_eq (postQueued_mem ..) h
      · cases hx
    · cases hx

theorem wf_execInterruptTimeExpiry {q : Fin 16} {s : State} {t__} (hx : execInterruptTimeExpiry q s = .next t__) (h : Memory.wf (memOf s) = true) : Memory.wf (memOf t__) = true := by
  revert hx
  fun_cases execInterruptTimeExpiry q s <;> intro hx
  all_goals first
    | (cases hx; done)
    | (have e__ := gate_next hx; subst e__; repeat' first | intro _ | (with_reducible first | assumption | refine wf_advanceTo ?_ | refine wf_of_eq (qMessage_mem ..) ?_) | (fail_if_no_progress dsimp only) | split)

theorem execAsyncEventPost_mem (cls : Fin 256) (data : BitVec 64) (s : State)  {t__} (h : execAsyncEventPost cls data s = .next t__) : memOf t__ = memOf s := by
  revert h
  fun_cases execAsyncEventPost cls data s <;> intro h
  all_goals first
    | (cases h; done)
    | (have e__ := gate_next h; subst e__; repeat' first | intro _ | (with_reducible first | rfl | assumption | refine (postEvent_mem ..).trans ?_ | refine (setGly_mem ..).trans ?_) | (fail_if_no_progress dsimp only) | split)

theorem postWarnings_mem (s : State)  : memOf (postWarnings s) = memOf s := by
  fun_cases postWarnings s <;>
  repeat' first | intro _ | (with_reducible first | rfl | refine (postEvent_mem ..).trans ?_ | refine (setGly_mem ..).trans ?_ | refine foldl_eq_mem ?_ ?_) | (fail_if_no_progress dsimp only) | split

theorem wf_execHeartbeat {s : State} {t__} (hx : execHeartbeat s = .next t__) (h : Memory.wf (memOf s) = true) : Memory.wf (memOf t__) = true := by
  revert hx
  fun_cases execHeartbeat s <;> intro hx
  all_goals first
    | (cases hx; done)
    | (have e__ := gate_next hx; subst e__; repeat' first | intro _ | (with_reducible first | assumption | refine wf_advanceTo ?_ | refine wf_of_eq (kick_mem ..) ?_ | refine wf_of_eq (postWarnings_mem ..) ?_ | refine wf_of_eq (rput_mem ..) ?_ | refine wf_of_eq (setGly_mem ..) ?_ | refine wf_ite_same ?_ ?_) | (fail_if_no_progress dsimp only) | split)

theorem wf_execCommandTimeout {id : Nat} {s : State} {t__} (hx : execCommandTimeout id s = .next t__) (h : Memory.wf (memOf s) = true) : Memory.wf (memOf t__) = true := by
  revert hx
  fun_cases execCommandTimeout id s <;> intro hx
  all_goals first
    | (cases hx; done)
    | (have e__ := gate_next hx; subst e__; repeat' first | intro _ | (with_reducible first | assumption | refine wf_advanceTo ?_ | refine wf_of_eq (abandonWait_mem ..) ?_ | refine wf_of_eq (drawFree_mem ..) ?_ | refine wf_of_eq (finishCmd_mem ..) ?_) | (fail_if_no_progress dsimp only) | split)

theorem requestTake_mem (n : Nat) (r : BitVec 256 × KReg) (t : List (BitVec 256 × KReg)) (s : State)  : memOf (requestTake n r t s) = memOf s := by
  fun_cases requestTake n r t s <;>
  repeat' first | intro _ | (with_reducible first | rfl | refine (addCmd_mem ..).trans ?_ | refine (facetPulse_mem ..).trans ?_ | refine (setRaw_mem ..).trans ?_ | refine (updFacet_mem ..).trans ?_) | (fail_if_no_progress dsimp only) | split

theorem execRequestTake_mem (n : Fin 128) (s : State)  {t__} (h : execRequestTake n s = .next t__) : memOf t__ = memOf s := by
  revert h
  fun_cases execRequestTake n s <;> intro h
  all_goals first
    | (cases h; done)
    | (have e__ := gate_next h; subst e__; repeat' first | intro _ | (with_reducible first | rfl | refine (requestTake_mem ..).trans ?_) | (fail_if_no_progress dsimp only) | split)

theorem collectResp_mem (n : Nat) (c : Cmd) (s : State)  : memOf (collectResp n c s) = memOf s := by
  fun_cases collectResp n c s <;>
  repeat' first | intro _ | (with_reducible first | rfl | assumption | refine (dropCmd_mem ..).trans ?_ | refine (updFacet_mem ..).trans ?_) | (fail_if_no_progress dsimp only) | split

theorem forwardResp_mem (n : Nat) (s : State)  : memOf (forwardResp n s) = memOf s := by
  fun_cases forwardResp n s <;>
  repeat' first | intro _ | (with_reducible first | rfl | assumption | refine (recordEvent_mem ..).trans ?_ | refine (setFacet_mem ..).trans ?_ | refine (setRaw_mem ..).trans ?_) | (fail_if_no_progress dsimp only) | split

theorem wf_execResponseForward {n : Fin 128} {s : State} {t__} (hx : execResponseForward n s = .next t__)
    (h : Memory.wf (memOf s) = true) : Memory.wf (memOf t__) = true := by
  delta execResponseForward at hx
  split at hx
  · have e := next_inj hx
    subst e
    exact wf_of_eq (forwardResp_mem ..) (wf_of_eq (collectResp_mem ..) (wf_readyCmd (by assumption) h))
  · have e := gate_next hx
    subst e
    exact wf_of_eq (forwardResp_mem ..) h

theorem mbxWrite_mem (o : Nat) (v : BitVec 64) (s : State)  : memOf (mbxWrite o v s) = memOf s := by
  fun_cases mbxWrite o v s <;>
  repeat' first | intro _ | (with_reducible first | rfl | assumption | refine (cqheadWrite_mem ..).trans ?_ | refine (qbaseWrite_mem ..).trans ?_ | refine (qcfgWrite_mem ..).trans ?_ | refine (rw1c_mem ..).trans ?_ | refine (sqtailWrite_mem ..).trans ?_) | (fail_if_no_progress dsimp only) | split

end Sys2Proof.Laws
end

