-- ==== Sys2Proof/Laws/MemLinks.lean ====
section
/-! SUPPORT. Memory keeps its canonical form under accesses, requests, bursts, links, boot, consumables. -/
namespace Sys2Proof.Laws
open Sys2Proof.Machine
set_option maxRecDepth 20000

/-! ### Access -/

theorem regRead_mem (a perm : Nat) (s : State)  : memOf (regRead a perm s).2 = memOf s := by
  fun_cases regRead a perm s <;>
  repeat' first | intro _ | (with_reducible first | rfl | assumption | refine (fmeasRead_mem ..).trans ?_ | refine ite_eq_same ?_ ?_) | (fail_if_no_progress dsimp only) | split

theorem wf_regWrite {a : Nat} {v : BitVec 64} {perm : Nat} {by_ : Agent} {s : State} (h : Memory.wf (memOf s) = true) : Memory.wf (memOf (regWrite a v perm by_ s).2) = true := by
  fun_cases regWrite a v perm by_ s <;>
  repeat' first | intro _ | (with_reducible first | assumption | refine wf_blkWrite ?_ | refine wf_chanWrite ?_ | refine wf_hatWrite ?_ | refine wf_ledgerWrite ?_ | refine wf_sesWrite ?_ | refine wf_of_eq (cellWrite_mem ..) ?_ | refine wf_of_eq (facetRegWrite_mem (h := by assumption) ..) ?_ | refine wf_of_eq (pfdWrite_mem ..) ?_ | refine wf_of_eq (timWrite_mem ..) ?_) | (fail_if_no_progress dsimp only) | split

theorem intBlockWrite_mem (o : Nat) (v : BitVec 64) (s : State)  : memOf (intBlockWrite o v s) = memOf s := by
  fun_cases intBlockWrite o v s <;>
  repeat' first | intro _ | (with_reducible first | rfl | assumption | refine (intClrp_mem ..).trans ?_ | refine (intEoi_mem ..).trans ?_ | refine (intSetp_mem ..).trans ?_ | refine (intStatClear_mem ..).trans ?_ | refine (rw1c_mem ..).trans ?_ | refine (scfgWrite_mem ..).trans ?_ | refine (setIntCtl_mem ..).trans ?_ | refine ite_eq_same ?_ ?_) | (fail_if_no_progress dsimp only) | split

theorem crownIntWrite_mem (n num : Nat) (v : BitVec 64) (s : State)  : memOf (crownIntWrite n num v s).2 = memOf s := by
  fun_cases crownIntWrite n num v s <;>
  repeat' first | intro _ | (with_reducible first | rfl | assumption | refine (intSysWrite_mem ..).trans ?_ | refine (setIntCtl_mem ..).trans ?_ | refine (tellSteward_mem ..).trans ?_ | refine ite_eq_same ?_ ?_) | (fail_if_no_progress dsimp only) | split

theorem wf_crownRegWrite {c : Nat} {o : Nat} {v : BitVec 64} {s : State} (h : Memory.wf (memOf s) = true) : Memory.wf (memOf (crownRegWrite c o v s).2) = true := by
  fun_cases crownRegWrite c o v s <;>
  repeat' first | intro _ | (with_reducible first | assumption | refine wf_itgWrite ?_ | refine wf_of_eq (crownIntWrite_mem ..) ?_ | refine wf_of_eq (logWrite_mem ..) ?_ | refine wf_of_eq (rset_mem ..) ?_ | refine wf_of_eq (rw1c_mem ..) ?_ | refine wf_of_eq (setCompat_mem ..) ?_ | refine wf_ite_same ?_ ?_) | (fail_if_no_progress dsimp only) | split

theorem macCfgWrite_mem (m : Nat) (v : BitVec 64) (s : State) : memOf (macCfgWrite m v s) = memOf s :=
  (mem_of_ite ((raiseSteward_mem ..).trans (rput_mem ..)) rfl).trans (rset_mem ..)

theorem ethWrite_mem (o : Nat) (v : BitVec 64) (s : State)  : memOf (ethWrite o v s) = memOf s := by
  fun_cases ethWrite o v s <;>
  repeat' first | intro _ | (with_reducible first | rfl | assumption | refine (macCfgWrite_mem ..).trans ?_ | refine (rset_mem ..).trans ?_) | (fail_if_no_progress dsimp only) | split

theorem wf_stewardWrite {a : Nat} {v : BitVec 64} {s : State} (h : Memory.wf (memOf s) = true) : Memory.wf (memOf (stewardWrite a v s).2) = true := by
  fun_cases stewardWrite a v s <;>
  repeat' first | intro _ | (with_reducible first | assumption | refine wf_chanWrite ?_ | refine wf_crownRegWrite ?_ | refine wf_ctxWrite ?_ | refine wf_itgWrite ?_ | refine wf_ledgerWrite ?_ | refine wf_pwrWrite ?_ | refine wf_regWrite ?_ | refine wf_sesWrite ?_ | refine wf_of_eq (ethWrite_mem ..) ?_ | refine wf_of_eq (groupWrite_mem ..) ?_ | refine wf_of_eq (intBlockWrite_mem ..) ?_ | refine wf_of_eq (ldgWrite_mem ..) ?_ | refine wf_of_eq (logWrite_mem ..) ?_ | refine wf_of_eq (mbxWrite_mem ..) ?_ | refine wf_of_eq (rw1c_mem ..) ?_ | refine wf_ite_same ?_ ?_) | (fail_if_no_progress dsimp only) | split

theorem intBlockRead_mem (o : Nat) (s : State)  : memOf (intBlockRead o s).2 = memOf s := by
  fun_cases intBlockRead o s <;>
  repeat' first | intro _ | (with_reducible first | rfl | assumption | refine (claim_mem ..).trans ?_) | (fail_if_no_progress dsimp only) | split

theorem stewardRead_mem (a : Nat) (s : State)  : memOf (stewardRead a s).2 = memOf s := by
  fun_cases stewardRead a s <;>
  repeat' first | intro _ | (with_reducible first | rfl | assumption | refine (intBlockRead_mem ..).trans ?_ | refine (regRead_mem ..).trans ?_) | (fail_if_no_progress dsimp only) | split

theorem wf_execFillDone {s : State} {t__} (hx : execFillDone s = .next t__) (h : Memory.wf (memOf s) = true) : Memory.wf (memOf t__) = true := by
  revert hx
  fun_cases execFillDone s <;> intro hx
  all_goals first
    | (cases hx; done)
    | (have e__ := gate_next hx; subst e__; repeat' first | intro _ | (with_reducible first | assumption | refine wf_fillDone ?_) | (fail_if_no_progress dsimp only) | split)

theorem macPop_mem (m n : Nat) (s : State)  : memOf (macPop m n s).2 = memOf s := by
  fun_cases macPop m n s <;>
  repeat' first | intro _ | (with_reducible first | rfl | assumption | refine (drawFree_mem ..).trans ?_ | refine (setMacs_mem ..).trans ?_ | refine pair_mem.trans ?_ | refine (pair_eq_mem (by assumption)).trans ?_) | (fail_if_no_progress dsimp only) | split

theorem macPush_mem (m : Nat) (bs : List Byte) (s : State)  : memOf (macPush m bs s) = memOf s := by
  fun_cases macPush m bs s <;>
  repeat' first | intro _ | (with_reducible first | rfl | refine (setMacs_mem ..).trans ?_) | (fail_if_no_progress dsimp only) | split

theorem cellWindowRead_mem (by_ : Agent) (p a len : Nat) (s : State) : memOf (cellWindowRead by_ p a len s).2 = memOf s := by
  delta cellWindowRead
  split
  · rfl
  · extract_lets q
    have h : memOf q.2.2 = memOf s := rxRead_mem ..
    clear_value q
    dsimp only
    split
    · split
      · exact (rbitSet_mem ..).trans h
      · exact h
    all_goals exact h

theorem macWindowRead_mem (a len : Nat) (s : State) : memOf (macWindowRead a len s).2 = memOf s := by
  delta macWindowRead
  split
  · rfl
  · exact macPop_mem ..

theorem wf_readAt {by_ : Agent} {perm a len : Nat} {s : State} (h : Memory.wf (memOf s) = true) :
    Memory.wf (memOf (readAt by_ perm a len s).2) = true := by
  delta readAt
  split
  · dsimp only
    split
    · exact h
    · split
      · exact wf_of_eq (cellStat_mem ..) h
      · exact wf_of_eq (cellWindowRead_mem ..) h
  · split
    · split
      · split
        · exact h
        · exact wf_of_eq (macWindowRead_mem ..) h
      · exact h
    · split
      · split
        · exact h
        · exact wf_of_eq (regRead_mem ..) h
      · split
        · exact h
        · exact wf_memoryRead h

theorem wf_writeAt {by_ : Agent} {perm : Nat} {a : Nat} {bs : List Byte} {s : State} (h : Memory.wf (memOf s) = true) : Memory.wf (memOf (writeAt by_ perm a bs s).2) = true := by
  fun_cases writeAt by_ perm a bs s <;>
  repeat' first | intro _ | (with_reducible first | assumption | refine wf_ctxWrite ?_ | refine wf_regWrite ?_ | refine wf_writeMem ?_ | refine wf_of_eq (cellStat_mem ..) ?_ | refine wf_of_eq (macPush_mem ..) ?_ | refine wf_of_eq (nextWrite_mem ..) ?_ | refine wf_of_eq (txWrite_mem ..) ?_ | refine wf_ite_same ?_ ?_ | refine wf_of_eq pair_mem ?_ | refine wf_foldl _ ?_ _ _ ?_) | (fail_if_no_progress dsimp only) | split

theorem dramUe_mem (a : Nat) (s : State)  : memOf (dramUe a s) = memOf s := by
  fun_cases dramUe a s <;>
  repeat' first | intro _ | (with_reducible first | rfl | refine (drawFree_mem ..).trans ?_ | refine (logEvents_mem ..).trans ?_ | refine (raiseSteward_mem ..).trans ?_ | refine (pair_eq_mem (by assumption)).trans ?_) | (fail_if_no_progress dsimp only) | split

theorem noteUe_mem (a : Nat) (s : State)  : memOf (noteUe a s) = memOf s := by
  fun_cases noteUe a s <;>
  repeat' first | intro _ | (with_reducible first | rfl | refine (dramUe_mem ..).trans ?_) | (fail_if_no_progress dsimp only) | split

/-! ### Requests -/

theorem endRemote_mem (n : Nat) (r : Remote) (done fail : Bool) (s : State)  : memOf (endRemote n r done fail s) = memOf s := by
  fun_cases endRemote n r done fail s <;>
  repeat' first | intro _ | (with_reducible first | rfl | assumption | refine (facetPulse_mem ..).trans ?_ | refine (noteHit_mem ..).trans ?_ | refine (updFacet_mem ..).trans ?_) | (fail_if_no_progress dsimp only) | split

theorem wf_landLocal {n : Nat} {r : Remote} {bs : List Byte} {s : State} (h : Memory.wf (memOf s) = true) : Memory.wf (memOf (landLocal n r bs s)) = true := by
  fun_cases landLocal n r bs s <;>
  repeat' first | intro _ | (with_reducible first | assumption | refine wf_writeMem ?_ | refine wf_of_eq (endRemote_mem ..) ?_) | (fail_if_no_progress dsimp only) | split

theorem wf_remoteStore {n : Nat} {r : Remote} {bs : List Byte} {s : State} (h : Memory.wf (memOf s) = true) :
    Memory.wf (memOf (remoteStore n r bs s).2) = true :=
  wf_settleChunk (wf_writeAt h)

theorem refuseRemote_mem (n : Nat) (r : Remote) (s : State)  : memOf (refuseRemote n r s) = memOf s := by
  fun_cases refuseRemote n r s <;>
  repeat' first | intro _ | (with_reducible first | rfl | refine (endRemote_mem ..).trans ?_) | (fail_if_no_progress dsimp only) | split

theorem wf_actStore {n : Nat} {r : Remote} {s : State} (h : Memory.wf (memOf s) = true) : Memory.wf (memOf (actStore n r s)) = true := by
  delta actStore
  extract_lets q
  have hq : Memory.wf (memOf q.2) = true := wf_remoteStore h
  clear_value q
  split
  · exact wf_of_eq (endRemote_mem ..) hq
  · exact wf_of_eq (refuseRemote_mem ..) hq

theorem wf_actStc {n : Nat} {r : Remote} {s : State} (h : Memory.wf (memOf s) = true) : Memory.wf (memOf (actStc n r s)) = true := by
  fun_cases actStc n r s <;>
  repeat' first | intro _ | (with_reducible first | assumption | refine wf_remoteStore ?_ | refine wf_of_eq (endRemote_mem ..) ?_ | refine wf_of_eq (refuseRemote_mem ..) ?_ | refine wf_of_eq (updFacet_mem ..) ?_) | (fail_if_no_progress dsimp only) | split

theorem wf_actAtomic {n : Nat} {r : Remote} {old new : List Byte} {s : State} (h : Memory.wf (memOf s) = true) :
    Memory.wf (memOf (actAtomic n r old new s)) = true := by
  delta actAtomic
  extract_lets q
  have hq : Memory.wf (memOf q.2) = true := wf_remoteStore h
  clear_value q
  split
  · exact wf_landLocal hq
  · exact wf_of_eq (refuseRemote_mem ..) hq

theorem wf_actOld {n : Nat} {r : Remote} {old : List Byte} {s : State} (h : Memory.wf (memOf s) = true) : Memory.wf (memOf (actOld n r old s)) = true := by
  fun_cases actOld n r old s <;>
  repeat' first | intro _ | (with_reducible first | assumption | refine wf_actAtomic ?_ | refine wf_landLocal ?_ | refine wf_of_eq (updFacet_mem ..) ?_ | refine wf_ite_same ?_ ?_) | (fail_if_no_progress dsimp only) | split

theorem wf_actRead {n : Nat} {r : Remote} {s : State} (h : Memory.wf (memOf s) = true) : Memory.wf (memOf (actRead n r s)) = true := by
  delta actRead
  split
  · exact wf_of_eq (refuseRemote_mem ..) h
  · extract_lets q
    have hq : Memory.wf (memOf q.2) = true := wf_readAt h
    clear_value q
    split
    · exact wf_of_eq (refuseRemote_mem ..) hq
    · exact wf_actOld hq

theorem wf_remoteAct {n : Nat} {r : Remote} {s : State} (h : Memory.wf (memOf s) = true) : Memory.wf (memOf (remoteAct n r s)) = true := by
  delta remoteAct
  split
  exacts [wf_actStore h, wf_actStc h, wf_actRead h]

theorem wf_execRemoteCompletion {n : Fin 128} {i : Fin 16} {uncorrectable : Bool} {s : State} {t__}
    (hx : execRemoteCompletion n i uncorrectable s = .next t__) (h : Memory.wf (memOf s) = true) : Memory.wf (memOf t__) = true := by
  delta execRemoteCompletion at hx
  split at hx
  · cases hx
  · dsimp only at hx
    split at hx
    · cases hx
    · have e := next_inj hx
      subst e
      split
      · exact wf_of_eq (endRemote_mem ..) (wf_of_eq (noteUe_mem ..) h)
      · exact wf_remoteAct h

theorem execFacetRegisterBlockWrite_mem (n : Fin 128) (off : Nat) (v : BitVec 64) (by_ : Agent) (s : State) {t__}
    (h : execFacetRegisterBlockWrite n off v by_ s = .next t__) : memOf t__ = memOf s := by
  delta execFacetRegisterBlockWrite at h
  have e := gate_next h
  subst e
  generalize hq : facetRegWrite _ _ _ _ _ = q
  cases q with
  | none => rfl
  | some x => exact facetRegWrite_mem (h := hq) ..

theorem wf_execRegisterWrite {a : Nat} {v : BitVec 64} {by_ : Agent} {s : State} {t__}
    (hx : execRegisterWrite a v by_ s = .next t__) (h : Memory.wf (memOf s) = true) : Memory.wf (memOf t__) = true := by
  delta execRegisterWrite at hx
  dsimp only at hx
  repeat' split at hx
  all_goals first
    | (cases hx; done)
    | (have e := next_inj hx; subst e; exact h)
    | (have e := gate_next hx; subst e; first | exact wf_stewardWrite h | exact wf_writeAt h | exact wf_of_eq (cellWrite_mem ..) h)

theorem wf_execCounterClearWrite {a : Nat} {s : State} {t__} (hx : execCounterClearWrite a s = .next t__) (h : Memory.wf (memOf s) = true) : Memory.wf (memOf t__) = true := by
  revert hx
  fun_cases execCounterClearWrite a s <;> intro hx
  all_goals first
    | (cases hx; done)
    | (have e__ := gate_next hx; subst e__; repeat' first | intro _ | (with_reducible first | assumption | refine wf_stewardWrite ?_) | (fail_if_no_progress dsimp only) | split)

theorem aerError_mem (s : State)  : memOf (aerError s) = memOf s := by
  fun_cases aerError s <;>
  repeat' first | intro _ | (with_reducible first | rfl | refine (raiseSteward_mem ..).trans ?_ | refine (setLinks_mem ..).trans ?_) | (fail_if_no_progress dsimp only) | split

theorem wf_hostServe {write : Bool} {a perm len : Nat} {data : List Byte} {s : State} (h : Memory.wf (memOf s) = true) :
    Memory.wf (memOf (hostServe write a perm len data s)) = true := by
  delta hostServe
  split
  · extract_lets q
    have hq : Memory.wf (memOf q.2) = true := wf_writeAt h
    clear_value q
    split
    · exact hq
    · exact wf_of_eq (aerError_mem ..) hq
  · extract_lets q
    have hq : Memory.wf (memOf q.2) = true := wf_readAt h
    clear_value q
    split
    · exact wf_of_eq (emit_mem ..) hq
    · exact wf_of_eq (emit_mem ..) (wf_of_eq (aerError_mem ..) hq)

theorem wf_execHostWindowRequest {write : Bool} {o : Nat} {len : Nat} {data : List (BitVec 8)} {uncorrectable : Bool} {s : State}
    {t__} (hx : execHostWindowRequest write o len data uncorrectable s = .next t__) (h : Memory.wf (memOf s) = true) :
    Memory.wf (memOf t__) = true := by
  delta execHostWindowRequest at hx
  extract_lets n at hx
  split at hx
  · cases hx
  split at hx
  · have e := next_inj hx
    subst e
    exact wf_ite (wf_of_eq (aerError_mem ..) h) (wf_of_eq (emit_mem ..) (wf_of_eq (aerError_mem ..) h))
  · extract_lets ue at hx
    split at hx
    · have e := next_inj hx
      subst e
      exact wf_ite h (wf_of_eq (emit_mem ..) h)
    split at hx
    · cases hx
    · have e := next_inj hx
      subst e
      exact wf_ite (wf_of_eq (emit_mem ..) (wf_of_eq (aerError_mem ..) (wf_of_eq (noteUe_mem ..) h))) (wf_hostServe h)

theorem fabRefuse_mem (a code : Nat) (s : State) : memOf (fabRefuse a code s).2 = memOf s := logFabric_mem ..

theorem wf_fabRead {a n perm : Nat} {s : State} (h : Memory.wf (memOf s) = true) : Memory.wf (memOf (fabRead a n perm s).2) = true := by
  delta fabRead
  extract_lets q
  have hq : Memory.wf (memOf q.2) = true := wf_readAt h
  clear_value q
  split
  · exact hq
  · exact wf_of_eq (fabRefuse_mem ..) hq

theorem wf_fabWrite {a perm : Nat} {bs : List Byte} {s : State} (h : Memory.wf (memOf s) = true) :
    Memory.wf (memOf (fabWrite a perm bs s).2) = true := by
  delta fabWrite
  extract_lets q
  have hq : Memory.wf (memOf q.2) = true := wf_writeAt h
  clear_value q
  split
  · exact wf_settleChunk hq
  · exact wf_of_eq (fabRefuse_mem ..) hq

theorem wf_fabServe {f : FabFrame} {ue : Bool} {s : State} (h : Memory.wf (memOf s) = true) :
    Memory.wf (memOf (fabServe f ue s).2) = true := by
  delta fabServe
  extract_lets a n wins need
  split
  · exact wf_of_eq (fabRefuse_mem ..) h
  split
  · exact wf_of_eq (fabRefuse_mem ..) h
  split
  · exact wf_of_eq (fabRefuse_mem ..) h
  split
  · exact wf_of_eq (fabRefuse_mem ..) h
  split
  · exact wf_of_eq (fabRefuse_mem ..) (wf_of_eq (noteUe_mem ..) h)
  split
  · exact wf_fabRead h
  · exact wf_fabWrite h

theorem wf_fabRequest {fr : FabFrame} {uncorrectable : Bool} {s : State} {t__} (hx : fabRequest fr uncorrectable s = .next t__)
    (h : Memory.wf (memOf s) = true) : Memory.wf (memOf t__) = true := by
  delta fabRequest at hx
  split at hx
  · cases hx
  · exact wf_fabReceive hx (fun x hw => wf_fabServe hw) h

theorem wf_execFabricRequestReceive {fr : FabFrame} {uncorrectable : Bool} {s : State} {t__}
    (hx : execFabricRequestReceive fr uncorrectable s = .next t__) (h : Memory.wf (memOf s) = true) : Memory.wf (memOf t__) = true :=
  wf_fabRequest hx h

/-! ### Bursts -/

theorem wf_destWrite {k : Nat} {bs : List Byte} {s : State} (h : Memory.wf (memOf s) = true) : Memory.wf (memOf (destWrite k bs s)) = true := by
  fun_cases destWrite k bs s <;>
  repeat' first | intro _ | (with_reducible first | assumption | refine wf_failChan ?_ | refine wf_writeAt ?_ | refine wf_of_eq (ackBytes_mem ..) ?_ | refine wf_of_eq (sendFabric_mem ..) ?_ | refine wf_of_eq (setChan_mem ..) ?_) | (fail_if_no_progress dsimp only) | split

theorem wf_pump : ∀ {fuel k : Nat} {s : State}, Memory.wf (memOf s) = true → Memory.wf (memOf (pump fuel k s)) = true := by
  intro fuel k
  induction fuel with
  | zero => intro s h; exact h
  | succ fuel ih =>
    intro s h
    unfold pump
    dsimp only
    split
    · exact h
    · exact ih (wf_destWrite (wf_of_eq (setChan_mem ..) h))

theorem wf_pushElem {k : Nat} {bs : List Byte} {s : State} (h : Memory.wf (memOf s) = true) :
    Memory.wf (memOf (pushElem k bs s)) = true := by
  delta pushElem
  exact wf_pump (wf_of_eq (setChan_mem ..) h)

theorem wf_takeBack : ∀ {fuel k : Nat} {s : State}, Memory.wf (memOf s) = true → Memory.wf (memOf (takeBack fuel k s)) = true := by
  intro fuel k
  induction fuel with
  | zero => intro s h; exact h
  | succ fuel ih =>
    intro s h
    unfold takeBack
    dsimp only
    split
    · split
      · exact ih (wf_pushElem (wf_of_eq (setChan_mem ..) h))
      · exact h
    · exact h

theorem wf_elemBack {k j : Nat} {bs : List Byte} {s : State} (h : Memory.wf (memOf s) = true) :
    Memory.wf (memOf (elemBack k j bs s)) = true := by
  delta elemBack
  split
  · exact h
  · exact wf_takeBack (wf_of_eq (setChan_mem ..) h)

theorem wf_srcRead {k : Nat} {bad : Bool} {s : State} (h : Memory.wf (memOf s) = true) : Memory.wf (memOf (srcRead k bad s)) = true := by
  delta srcRead
  extract_lets x j a src s1 q
  have h1 : Memory.wf (memOf s1) = true := wf_of_eq (setChan_mem ..) h
  have hq : Memory.wf (memOf q.2) = true := wf_readAt h1
  clear_value q s1
  split
  · exact wf_of_eq (sendFabric_mem ..) h1
  · split
    · exact wf_failChan (wf_of_eq (noteUe_mem ..) h1)
    · split
      · exact wf_pushElem hq
      · exact wf_failChan hq

theorem wf_beats {k : Nat} {bad : Option Nat} : ∀ {n i : Nat} {s : State}, Memory.wf (memOf s) = true →
    Memory.wf (memOf (beats k bad n i s)) = true := by
  intro n
  induction n with
  | zero => intro i s h; exact h
  | succ n ih =>
    intro i s h
    unfold beats
    split
    · exact h
    · exact ih (wf_srcRead h)

theorem wf_engineFree {e : Nat} : ∀ {n : Nat} {s : State}, Memory.wf (memOf s) = true →
    Memory.wf (memOf (engineFree e n s)) = true := by
  intro n
  induction n with
  | zero => intro s h; exact h
  | succ n ih =>
    intro s h
    unfold engineFree
    split
    · exact h
    · exact ih (wf_advanceTo h)

theorem suspendCur_mem (e : Nat) (s : State)  : memOf (suspendCur e s) = memOf s := by
  fun_cases suspendCur e s <;>
  repeat' first | intro _ | (with_reducible first | rfl | refine (rbitSet_mem ..).trans ?_ | refine (setEngine_mem ..).trans ?_) | (fail_if_no_progress dsimp only) | split

theorem wf_issueBurst {k b : Nat} {bad : Option Nat} {s : State} (h : Memory.wf (memOf s) = true) :
    Memory.wf (memOf (issueBurst k b bad s)) = true := by
  delta issueBurst
  exact wf_beats (wf_of_eq (setChan_mem ..) (wf_of_eq (setChanState_mem ..) (wf_of_eq (setEngine_mem ..) h)))

theorem wf_execBurstIssue {k : Fin 288} {bad : Option (Fin 512)} {s : State} {t__} (hx : execBurstIssue k bad s = .next t__)
    (h : Memory.wf (memOf s) = true) : Memory.wf (memOf t__) = true := by
  delta execBurstIssue at hx
  extract_lets e pre s1 b at hx
  have h1 : Memory.wf (memOf s1) = true := wf_ite_same (wf_engineFree h) fun _ => h
  clear_value s1
  split at hx
  · cases hx
  · have e := next_inj hx
    subst e
    exact wf_issueBurst (wf_ite_same h1 fun hh => wf_of_eq (suspendCur_mem ..) hh)

theorem wf_execMovCtlStart {k : Fin 288} {sink : Bool} {s : State} {t__} (hx : execMovCtlStart k sink s = .next t__) (h : Memory.wf (memOf s) = true) : Memory.wf (memOf t__) = true := by
  revert hx
  fun_cases execMovCtlStart k sink s <;> intro hx
  all_goals first
    | (cases hx; done)
    | (have e__ := next_inj hx; subst e__; repeat' first | intro _ | (with_reducible first | assumption | refine wf_movCtlStart ?_ | refine wf_movSink ?_) | (fail_if_no_progress dsimp only) | split)
    | (have e__ := gate_next hx; subst e__; repeat' first | intro _ | (with_reducible first | assumption | refine wf_movCtlStart ?_ | refine wf_movSink ?_) | (fail_if_no_progress dsimp only) | split)

theorem execMovCtlStop_mem (k : Fin 288) (s : State)  {t__} (h : execMovCtlStop k s = .next t__) : memOf t__ = memOf s := by
  revert h
  fun_cases execMovCtlStop k s <;> intro h
  all_goals first
    | (cases h; done)
    | (have e__ := gate_next h; subst e__; repeat' first | intro _ | (with_reducible first | rfl | assumption | refine (movStop_mem ..).trans ?_ | refine (tellSteward_mem ..).trans ?_ | refine ite_eq_same ?_ ?_) | (fail_if_no_progress dsimp only) | split)

theorem wf_execTransferCompletion {k : Fin 288} {s : State} {t__} (hx : execTransferCompletion k s = .next t__) (h : Memory.wf (memOf s) = true) : Memory.wf (memOf t__) = true := by
  revert hx
  fun_cases execTransferCompletion k s <;> intro hx
  all_goals first
    | (cases hx; done)
    | (have e__ := gate_next hx; subst e__; repeat' first | intro _ | (with_reducible first | assumption | refine wf_advanceTo ?_ | refine wf_endComplete ?_) | (fail_if_no_progress dsimp only) | split)

theorem wf_execTransferEndEarly {k : Fin 288} {s : State} {t__} (hx : execTransferEndEarly k s = .next t__) (h : Memory.wf (memOf s) = true) : Memory.wf (memOf t__) = true := by
  revert hx
  fun_cases execTransferEndEarly k s <;> intro hx
  all_goals first
    | (cases hx; done)
    | (have e__ := gate_next hx; subst e__; repeat' first | intro _ | (with_reducible first | assumption | refine wf_advanceTo ?_ | refine wf_endError ?_) | (fail_if_no_progress dsimp only) | split)

theorem wf_execChannelDrainHeld {k : Fin 288} {s : State} {t__} (hx : execChannelDrainHeld k s = .next t__) (h : Memory.wf (memOf s) = true) : Memory.wf (memOf t__) = true := by
  revert hx
  fun_cases execChannelDrainHeld k s <;> intro hx
  all_goals first
    | (cases hx; done)
    | (have e__ := gate_next hx; subst e__; repeat' first | intro _ | (with_reducible first | assumption | refine wf_advanceTo ?_ | refine wf_of_eq (setChan_mem ..) ?_ | refine wf_of_eq (setChanState_mem ..) ?_) | (fail_if_no_progress dsimp only) | split)

theorem wf_execChannelResume {k : Fin 288} {s : State} {t__} (hx : execChannelResume k s = .next t__) (h : Memory.wf (memOf s) = true) : Memory.wf (memOf t__) = true := by
  revert hx
  fun_cases execChannelResume k s <;> intro hx
  all_goals first
    | (cases hx; done)
    | (have e__ := gate_next hx; subst e__; repeat' first | intro _ | (with_reducible first | assumption | refine wf_of_eq (setChan_mem ..) ?_ | refine wf_of_eq (setChanState_mem ..) ?_) | (fail_if_no_progress dsimp only) | split)

theorem wf_execDrainTimeout {k : Fin 288} {s : State} {t__} (hx : execDrainTimeout k s = .next t__) (h : Memory.wf (memOf s) = true) : Memory.wf (memOf t__) = true := by
  revert hx
  fun_cases execDrainTimeout k s <;> intro hx
  all_goals first
    | (cases hx; done)
    | (have e__ := gate_next hx; subst e__; repeat' first | intro _ | (with_reducible first | assumption | refine wf_advanceTo ?_ | refine wf_failChan ?_) | (fail_if_no_progress dsimp only) | split)

/-! ### Links -/

theorem linkEvent_mem (s : State)  : memOf (linkEvent s) = memOf s := by
  fun_cases linkEvent s <;>
  repeat' first | intro _ | (with_reducible first | rfl | refine (raiseSteward_mem ..).trans ?_) | (fail_if_no_progress dsimp only) | split

theorem execPcieLinkUp_mem (s : State)  {t__} (h : execPcieLinkUp s = .next t__) : memOf t__ = memOf s := by
  revert h
  fun_cases execPcieLinkUp s <;> intro h
  all_goals first
    | (cases h; done)
    | (have e__ := gate_next h; subst e__; repeat' first | intro _ | (with_reducible first | rfl | refine (linkEvent_mem ..).trans ?_ | refine (setLinks_mem ..).trans ?_) | (fail_if_no_progress dsimp only) | split)

theorem execSpeedOrWidthChange_mem (speed : Fin 4) (width : Fin 4) (s : State)  {t__} (h : execSpeedOrWidthChange speed width s = .next t__) : memOf t__ = memOf s := by
  revert h
  fun_cases execSpeedOrWidthChange speed width s <;> intro h
  all_goals first
    | (cases h; done)
    | (have e__ := gate_next h; subst e__; repeat' first | intro _ | (with_reducible first | rfl | refine (linkEvent_mem ..).trans ?_ | refine (setLinks_mem ..).trans ?_) | (fail_if_no_progress dsimp only) | split)

theorem maskAll_mem (f : Nat) (s : State)  : memOf (maskAll f s) = memOf s := by
  fun_cases maskAll f s <;>
  repeat' first | intro _ | (with_reducible first | rfl | refine (setMsixHeld_mem ..).trans ?_ | refine (setMsixOpen_mem ..).trans ?_) | (fail_if_no_progress dsimp only) | split

theorem flrQueue_mem (s : State) (q : Nat)  : memOf (flrQueue s q) = memOf s := by
  fun_cases flrQueue s q <;>
  repeat' first | intro _ | (with_reducible first | rfl | assumption | refine (rbitSet_mem ..).trans ?_ | refine (rclear_mem ..).trans ?_ | refine (setQpair_mem ..).trans ?_ | refine (settleQueue_mem ..).trans ?_ | refine ite_eq_same ?_ ?_) | (fail_if_no_progress dsimp only) | split

theorem flr_mem (f : Nat) (s : State)  : memOf (flr f s) = memOf s := by
  fun_cases flr f s <;>
  repeat' first | intro _ | (with_reducible first | rfl | assumption | refine (flrQueue_mem ..).trans ?_ | refine (linkEvent_mem ..).trans ?_ | refine (maskAll_mem ..).trans ?_ | refine foldl_eq_mem ?_ ?_) | (fail_if_no_progress dsimp only) | split

theorem execFunctionLevelReset_mem (f : Fin 2) (s : State)  {t__} (h : execFunctionLevelReset f s = .next t__) : memOf t__ = memOf s := by
  revert h
  fun_cases execFunctionLevelReset f s <;> intro h
  all_goals first
    | (cases h; done)
    | (have e__ := gate_next h; subst e__; repeat' first | intro _ | (with_reducible first | rfl | refine (flr_mem ..).trans ?_) | (fail_if_no_progress dsimp only) | split)

theorem execLinkDown_mem (s : State)  {t__} (h : execLinkDown s = .next t__) : memOf t__ = memOf s := by
  revert h
  fun_cases execLinkDown s <;> intro h
  all_goals first
    | (cases h; done)
    | (have e__ := gate_next h; subst e__; repeat' first | intro _ | (with_reducible first | rfl | refine (flr_mem ..).trans ?_ | refine (setLinks_mem ..).trans ?_) | (fail_if_no_progress dsimp only) | split)

theorem execPerst_mem (s : State)  {t__} (h : execPerst s = .next t__) : memOf t__ = memOf s := by
  revert h
  fun_cases execPerst s <;> intro h
  all_goals first
    | (cases h; done)
    | (have e__ := next_inj h; subst e__; repeat' first | intro _ | (with_reducible first | rfl | refine (flr_mem ..).trans ?_ | refine (setLinks_mem ..).trans ?_) | (fail_if_no_progress dsimp only) | split)

theorem execCompletionTimeout_mem (q : Fin 16) (s : State)  {t__} (h : execCompletionTimeout q s = .next t__) : memOf t__ = memOf s := by
  revert h
  fun_cases execCompletionTimeout q s <;> intro h
  all_goals first
    | (cases h; done)
    | (have e__ := gate_next h; subst e__; repeat' first | intro _ | (with_reducible first | rfl | refine (aerError_mem ..).trans ?_ | refine (qStop_mem ..).trans ?_) | (fail_if_no_progress dsimp only) | split)

theorem execMsiXMaskClear_mem (f : Fin 2) (vec : Fin 64) (s : State)  {t__} (h : execMsiXMaskClear f vec s = .next t__) : memOf t__ = memOf s := by
  revert h
  fun_cases execMsiXMaskClear f vec s <;> intro h
  all_goals first
    | (cases h; done)
    | (have e__ := next_inj h; subst e__; repeat' first | intro _ | (with_reducible first | rfl | assumption | refine (emit_mem ..).trans ?_ | refine (setMsixHeld_mem ..).trans ?_ | refine (setMsixOpen_mem ..).trans ?_ | refine ite_eq_same ?_ ?_) | (fail_if_no_progress dsimp only) | split)

theorem execSerdesReferenceLoss_mem (eth : Bool) (s : State)  {t__} (h : execSerdesReferenceLoss eth s = .next t__) : memOf t__ = memOf s := by
  revert h
  fun_cases execSerdesReferenceLoss eth s <;> intro h
  all_goals first
    | (cases h; done)
    | (have e__ := gate_next h; subst e__; repeat' first | intro _ | (with_reducible first | rfl | refine (rbitSet_mem ..).trans ?_) | (fail_if_no_progress dsimp only) | split)

theorem execSerdesReferenceReturn_mem (eth : Bool) (s : State)  {t__} (h : execSerdesReferenceReturn eth s = .next t__) : memOf t__ = memOf s := by
  revert h
  fun_cases execSerdesReferenceReturn eth s <;> intro h
  all_goals first
    | (cases h; done)
    | (have e__ := gate_next h; subst e__; repeat' first | intro _ | (with_reducible first | rfl | refine (rbitSet_mem ..).trans ?_) | (fail_if_no_progress dsimp only) | split)

theorem execMacLinkUp_mem (m : Fin 8) (s : State)  {t__} (h : execMacLinkUp m s = .next t__) : memOf t__ = memOf s := by
  revert h
  fun_cases execMacLinkUp m s <;> intro h
  all_goals first
    | (cases h; done)
    | (have e__ := gate_next h; subst e__; repeat' first | intro _ | (with_reducible first | rfl | assumption | refine (raiseSteward_mem ..).trans ?_ | refine (rbitSet_mem ..).trans ?_ | refine (tellSteward_mem ..).trans ?_ | refine ite_eq_same ?_ ?_) | (fail_if_no_progress dsimp only) | split)

theorem execMacLinkDown_mem (m : Fin 8) (s : State)  {t__} (h : execMacLinkDown m s = .next t__) : memOf t__ = memOf s := by
  revert h
  fun_cases execMacLinkDown m s <;> intro h
  all_goals first
    | (cases h; done)
    | (have e__ := gate_next h; subst e__; repeat' first | intro _ | (with_reducible first | rfl | refine (raiseSteward_mem ..).trans ?_ | refine (rput_mem ..).trans ?_) | (fail_if_no_progress dsimp only) | split)

theorem execRsFecLossOfLock_mem (m : Fin 8) (s : State)  {t__} (h : execRsFecLossOfLock m s = .next t__) : memOf t__ = memOf s := by
  revert h
  fun_cases execRsFecLossOfLock m s <;> intro h
  all_goals first
    | (cases h; done)
    | (have e__ := gate_next h; subst e__; repeat' first | intro _ | (with_reducible first | rfl | refine (raiseSteward_mem ..).trans ?_ | refine (rbitSet_mem ..).trans ?_) | (fail_if_no_progress dsimp only) | split)

theorem wf_fabFailed {o : FabOut} {last : Bool} {s : State} (h : Memory.wf (memOf s) = true) : Memory.wf (memOf (fabFailed o last s)) = true := by
  fun_cases fabFailed o last s <;>
  repeat' first | intro _ | (with_reducible first | assumption | refine wf_failChan ?_ | refine wf_of_eq (raiseSteward_mem ..) ?_ | refine wf_of_eq (rsat_mem ..) ?_ | refine wf_of_eq (setFabric_mem ..) ?_ | refine wf_ite_same ?_ ?_) | (fail_if_no_progress dsimp only) | split

theorem wf_fabDone {o : FabOut} {f : FabFrame} {s : State} (h : Memory.wf (memOf s) = true) : Memory.wf (memOf (fabDone o f s)) = true := by
  delta fabDone
  extract_lets src s1
  have h1 : Memory.wf (memOf s1) = true := wf_of_eq (setFabric_mem ..) h
  clear_value s1
  split
  · split
    · exact wf_elemBack h1
    · exact wf_of_eq (ackBytes_mem ..) h1
  · exact h1

theorem wf_fabReply {f : FabFrame} {s : State} {t__} (hx : fabReply f s = .next t__) (h : Memory.wf (memOf s) = true) :
    Memory.wf (memOf t__) = true := by
  delta fabReply at hx
  split at hx
  · cases hx
  split at hx
  · have e := next_inj hx
    subst e
    exact wf_of_eq (raiseSteward_mem ..) (wf_of_eq (setFabric_mem ..) h)
  split at hx
  · cases hx
  extract_lets src s1 at hx
  have h1 : Memory.wf (memOf s1) = true := wf_of_eq (setFabric_mem ..) h
  clear_value s1
  split at hx
  · have e := next_inj hx
    subst e
    exact h1
  split at hx
  · have e := next_inj hx
    subst e
    split
    · exact wf_of_eq (raiseSteward_mem ..) (wf_of_eq (setFabric_mem ..) h1)
    · exact wf_fabFailed h1
  · have e := next_inj hx
    subst e
    exact wf_fabDone h1

theorem wf_execFabricResponseReceive {fr : FabFrame} {s : State} {t__} (hx : execFabricResponseReceive fr s = .next t__)
    (h : Memory.wf (memOf s) = true) : Memory.wf (memOf t__) = true :=
  wf_fabReply hx h

theorem wf_execFabricRetransmit {dpkg : BitVec 8} {seq : BitVec 32} {s : State} {t__} (hx : execFabricRetransmit dpkg seq s = .next t__) (h : Memory.wf (memOf s) = true) : Memory.wf (memOf t__) = true := by
  revert hx
  fun_cases execFabricRetransmit dpkg seq s <;> intro hx
  all_goals first
    | (cases hx; done)
    | (have e__ := gate_next hx; subst e__; repeat' first | intro _ | (with_reducible first | assumption | refine wf_advanceTo ?_ | refine wf_fabFailed ?_ | refine wf_of_eq (emit_mem ..) ?_ | refine wf_of_eq (raiseSteward_mem ..) ?_ | refine wf_of_eq (setFabric_mem ..) ?_ | refine wf_ite_same ?_ ?_) | (fail_if_no_progress dsimp only) | split)

theorem wf_execFabricHeartbeat {s : State} {t__} (hx : execFabricHeartbeat s = .next t__) (h : Memory.wf (memOf s) = true) : Memory.wf (memOf t__) = true := by
  have e := gate_next hx
  subst e
  exact wf_foldl (fun s p => sendControl p .beat s) (fun _ _ h => wf_of_eq (sendControl_mem ..) h) _ _ (wf_of_eq (setFabric_mem ..) (wf_advanceTo h))

theorem wf_loseMember {pkg : Nat} {s : State} (h : Memory.wf (memOf s) = true) : Memory.wf (memOf (loseMember pkg s)) = true := by
  unfold loseMember
  dsimp only
  exact wf_of_eq (postEvent_mem ..) (wf_failover (wf_of_eq (mem_of_ite ((fillPool_mem ..).trans (setSes_mem ..)) rfl)
    (wf_of_eq (setFabric_mem ..) h)))

theorem wf_execPackageLost {pkg : BitVec 8} {s : State} {t__} (hx : execPackageLost pkg s = .next t__) (h : Memory.wf (memOf s) = true) : Memory.wf (memOf t__) = true := by
  revert hx
  fun_cases execPackageLost pkg s <;> intro hx
  all_goals first
    | (cases hx; done)
    | (have e__ := gate_next hx; subst e__; repeat' first | intro _ | (with_reducible first | assumption | refine wf_advanceTo ?_ | refine wf_loseMember ?_) | (fail_if_no_progress dsimp only) | split)

theorem wf_fabControl {f : FabFrame} {s : State} (h : Memory.wf (memOf s) = true) : Memory.wf (memOf (fabControl f s)) = true := by
  unfold fabControl
  dsimp only
  split
  · exact wf_of_eq (raiseSteward_mem ..) (wf_of_eq (setFabric_mem ..) h)
  split
  · split
    · exact wf_controlAct (wf_of_eq (setFabric_mem ..) h)
    · exact wf_of_eq (setFabric_mem ..) h
  split
  · exact wf_of_eq (postEvent_mem ..) (wf_of_eq (setFabric_mem ..) h)
  · exact wf_of_eq (raiseSteward_mem ..) (wf_of_eq (setFabric_mem ..) h)

theorem wf_fabIn {f : FabFrame} {s : State} {t__} (hx : fabIn f s = .next t__) (h : Memory.wf (memOf s) = true) :
    Memory.wf (memOf t__) = true := by
  delta fabIn at hx
  split at hx
  · have e := next_inj hx
    subst e
    exact wf_fabControl h
  · exact wf_fabRequest hx h
  · exact wf_fabRequest hx h
  · exact wf_fabEvent hx h
  · exact wf_fabReport hx h
  · exact wf_fabReply hx h

theorem rxQueue_mem (m : Nat) (fr : Frame) (s : State)  : memOf (rxQueue m fr s) = memOf s := by
  fun_cases rxQueue m fr s <;>
  repeat' first | intro _ | (with_reducible first | rfl | assumption | refine (macCount_mem ..).trans ?_ | refine (raiseHat_mem ..).trans ?_ | refine (setMac_mem ..).trans ?_) | (fail_if_no_progress dsimp only) | split

theorem rxPause_mem (m : Nat) (fr : Frame) (s : State)  : memOf (rxPause m fr s) = memOf s := by
  fun_cases rxPause m fr s <;>
  repeat' first | intro _ | (with_reducible first | rfl | assumption | refine (rbitSet_mem ..).trans ?_ | refine (setMac_mem ..).trans ?_) | (fail_if_no_progress dsimp only) | split

theorem wf_execFrameReceive {m : Fin 8} {fr : Frame} {s : State} {t__} (hx : execFrameReceive m fr s = .next t__)
    (h : Memory.wf (memOf s) = true) : Memory.wf (memOf t__) = true := by
  delta execFrameReceive at hx
  extract_lets n et cfg s1 at hx
  split at hx
  · cases hx
  iterate 3
    split at hx
    · have e := next_inj hx
      subst e
      exact wf_of_eq (macCount_mem ..) h
  have h1 : Memory.wf (memOf s1) = true := wf_of_eq ((macCount_mem ..).trans (macCount_mem ..)) h
  clear_value s1
  split at hx
  · exact wf_fabIn hx h1
  split at hx
  · have e := next_inj hx
    subst e
    exact wf_of_eq (rxPause_mem ..) h1
  · have e := next_inj hx
    subst e
    exact wf_of_eq (rxQueue_mem ..) h1

theorem wf_txFrame {m : Nat} {bs : List Byte} {s : State} (h : Memory.wf (memOf s) = true) : Memory.wf (memOf (txFrame m bs s)) = true := by
  fun_cases txFrame m bs s <;>
  repeat' first | intro _ | (with_reducible first | assumption | refine wf_txStamp ?_ | refine wf_of_eq (drawFree_mem ..) ?_ | refine wf_of_eq (emit_mem ..) ?_ | refine wf_of_eq (pair_eq_mem (by assumption)) ?_) | (fail_if_no_progress dsimp only) | split

theorem wf_execFrameTransmit {m : Fin 8} {s : State} {t__} (hx : execFrameTransmit m s = .next t__) (h : Memory.wf (memOf s) = true) : Memory.wf (memOf t__) = true := by
  revert hx
  fun_cases execFrameTransmit m s <;> intro hx
  all_goals first
    | (cases hx; done)
    | (have e__ := gate_next hx; subst e__; repeat' first | intro _ | (with_reducible first | assumption | refine wf_advanceTo ?_ | refine wf_txFrame ?_ | refine wf_of_eq (macCount_mem ..) ?_ | refine wf_of_eq (rbitSet_mem ..) ?_ | refine wf_of_eq (setMac_mem ..) ?_ | refine wf_ite_same ?_ ?_) | (fail_if_no_progress dsimp only) | split)

theorem dramCorrected_mem (a : Nat) (s : State)  : memOf (dramCorrected a s) = memOf s := by
  fun_cases dramCorrected a s <;>
  repeat' first | intro _ | (with_reducible first | rfl | assumption | refine (drawFree_mem ..).trans ?_ | refine (logEvents_mem ..).trans ?_ | refine (raiseSteward_mem ..).trans ?_ | refine (setLinks_mem ..).trans ?_ | refine (pair_eq_mem (by assumption)).trans ?_) | (fail_if_no_progress dsimp only) | split

theorem wf_execDramPatrol {chunk : Fin 131072} {corrected : Bool} {uncorrectable : Bool} {s : State} {t__} (hx : execDramPatrol chunk corrected uncorrectable s = .next t__) (h : Memory.wf (memOf s) = true) : Memory.wf (memOf t__) = true := by
  revert hx
  fun_cases execDramPatrol chunk corrected uncorrectable s <;> intro hx
  all_goals first
    | (cases hx; done)
    | (have e__ := gate_next hx; subst e__; repeat' first | intro _ | (with_reducible first | assumption | refine wf_advanceTo ?_ | refine wf_of_eq (dramCorrected_mem ..) ?_ | refine wf_of_eq (dramUe_mem ..) ?_ | refine wf_of_eq (drawFree_mem ..) ?_ | refine wf_of_eq (setLinks_mem ..) ?_ | refine wf_ite_same ?_ ?_) | (fail_if_no_progress dsimp only) | split)

/-! ### Boot -/

theorem bootStep_mem (n : Nat) (s : State)  : memOf (bootStep n s) = memOf s := by
  fun_cases bootStep n s <;>
  repeat' first | intro _ | (with_reducible first | rfl | refine (rput_mem ..).trans ?_) | (fail_if_no_progress dsimp only) | split

theorem bootErr_mem (e : Nat) (s : State)  : memOf (bootErr e s) = memOf s := by
  fun_cases bootErr e s <;>
  repeat' first | intro _ | (with_reducible first | rfl | refine (rput_mem ..).trans ?_) | (fail_if_no_progress dsimp only) | split

theorem wf_acceptManifest {b : BootIn} {s : State} (h : Memory.wf (memOf s) = true) : Memory.wf (memOf (acceptManifest b s)) = true := by
  fun_cases acceptManifest b s <;>
  repeat' first | intro _ | (with_reducible first | assumption | refine wf_audit ?_ | refine wf_of_eq (setBez_mem ..) ?_) | (fail_if_no_progress dsimp only) | split

theorem wf_inspectorSlot {s : State} (h : Memory.wf (memOf s) = true) : Memory.wf (memOf (inspectorSlot s)) = true := by
  fun_cases inspectorSlot s <;>
  repeat' first | intro _ | (with_reducible first | assumption | refine wf_audit ?_ | refine wf_of_eq (setBez_mem ..) ?_) | (fail_if_no_progress dsimp only) | split

theorem takeRoots_mem (s : State)  : memOf (takeRoots s) = memOf s := by
  fun_cases takeRoots s <;>
  repeat' first | intro _ | (with_reducible first | rfl | refine (setBez_mem ..).trans ?_) | (fail_if_no_progress dsimp only) | split

theorem wf_manifestStep {b : BootIn} {s : State} (h : Memory.wf (memOf s) = true) : Memory.wf (memOf (manifestStep b s)) = true := by
  fun_cases manifestStep b s <;>
  repeat' first | intro _ | (with_reducible first | assumption | refine wf_acceptManifest ?_ | refine wf_inspectorSlot ?_ | refine wf_of_eq (bootErr_mem ..) ?_ | refine wf_of_eq (rbitSet_mem ..) ?_ | refine wf_of_eq (takeRoots_mem ..) ?_ | refine wf_ite_same ?_ ?_) | (fail_if_no_progress dsimp only) | split

theorem bindMacs_mem (s : State)  : memOf (bindMacs s) = memOf s := by
  fun_cases bindMacs s <;>
  repeat' first | intro _ | (with_reducible first | rfl | refine (putChanCap_mem ..).trans ?_ | refine foldl_eq_mem ?_ ?_) | (fail_if_no_progress dsimp only) | split

theorem wf_stewardStep {s : State} (h : Memory.wf (memOf s) = true) : Memory.wf (memOf (stewardStep s)) = true := by
  fun_cases stewardStep s <;>
  repeat' first | intro _ | (with_reducible first | assumption | refine wf_loadSpine ?_ | refine wf_setupSession0 ?_ | refine wf_of_eq (bindMacs_mem ..) ?_ | refine wf_of_eq (bootErr_mem ..) ?_ | refine wf_of_eq (kick_mem ..) ?_ | refine wf_of_eq (reapplyRetirements_mem ..) ?_ | refine wf_of_eq (setPwr_mem ..) ?_ | refine wf_ite_same ?_ ?_) | (fail_if_no_progress dsimp only) | split

theorem ddrReport_mem (b : BootIn) (s : State)  : memOf (ddrReport b s) = memOf s := by
  fun_cases ddrReport b s <;>
  repeat' first | intro _ | (with_reducible first | rfl | refine (setPwr_mem ..).trans ?_) | (fail_if_no_progress dsimp only) | split

theorem ddrTrained_mem (top : Nat) (s : State)  : memOf (ddrTrained top s) = memOf s := by
  fun_cases ddrTrained top s <;>
  repeat' first | intro _ | (with_reducible first | rfl | assumption | refine (raiseSteward_mem ..).trans ?_ | refine (rset_mem ..).trans ?_) | (fail_if_no_progress dsimp only) | split

theorem recordResets_mem (s : State)  : memOf (recordResets s) = memOf s := by
  fun_cases recordResets s <;>
  repeat' first | intro _ | (with_reducible first | rfl | assumption | refine (addRec5_mem ..).trans ?_ | refine (rbitSet_mem ..).trans ?_ | refine ite_eq_same ?_ ?_ | refine foldl_eq_mem ?_ ?_) | (fail_if_no_progress dsimp only) | split

theorem readyStep_mem (roll : Nat) (s : State)  : memOf (readyStep roll s) = memOf s := by
  fun_cases readyStep roll s <;>
  repeat' first | intro _ | (with_reducible first | rfl | assumption | refine (bootStep_mem ..).trans ?_ | refine (giveCredits_mem ..).trans ?_ | refine (recordResets_mem ..).trans ?_ | refine (sealStart_mem ..).trans ?_ | refine (setBez_mem ..).trans ?_ | refine (setGly_mem ..).trans ?_ | refine (setReady_mem ..).trans ?_ | refine ite_eq_same ?_ ?_) | (fail_if_no_progress dsimp only) | split

theorem wf_bootRun {b : BootIn} {k : Nat} {rel : Nat} {roll : Nat} {s : State} (h : Memory.wf (memOf s) = true) : Memory.wf (memOf (bootRun b k rel roll s)) = true := by
  delta bootRun
  repeat' first | intro _ | (with_reducible first | assumption | refine wf_advance ?_ | refine wf_audit ?_ | refine wf_manifestStep ?_ | refine wf_restoreSeal ?_ | refine wf_stewardStep ?_ | refine wf_of_eq (bootErr_mem ..) ?_ | refine wf_of_eq (bootStep_mem ..) ?_ | refine wf_of_eq (ddrReport_mem ..) ?_ | refine wf_of_eq (ddrTrained_mem ..) ?_ | refine wf_of_eq (rbitSet_mem ..) ?_ | refine wf_of_eq (readyStep_mem ..) ?_ | refine wf_of_eq (rput_mem ..) ?_ | refine wf_ite_same ?_ ?_) | (fail_if_no_progress dsimp only) | split

theorem flashSlots_mem (b : BootIn) (s : State)  : memOf (flashSlots b s) = memOf s := by
  fun_cases flashSlots b s <;>
  repeat' first | intro _ | (with_reducible first | rfl | assumption | refine (setBez_mem ..).trans ?_) | (fail_if_no_progress dsimp only) | split

theorem wf_bootChain {b : BootIn} {s : State} (h : Memory.wf (memOf s) = true) : Memory.wf (memOf (bootChain b s)) = true := by
  fun_cases bootChain b s <;>
  repeat' first | intro _ | (with_reducible first | assumption | refine wf_bootRun ?_ | refine wf_of_eq (bootErr_mem ..) ?_ | refine wf_of_eq (bootStep_mem ..) ?_ | refine wf_of_eq (flashSlots_mem ..) ?_ | refine wf_of_eq (rbitSet_mem ..) ?_ | refine wf_of_eq (rput_mem ..) ?_ | refine wf_of_eq (setPwr_mem ..) ?_) | (fail_if_no_progress dsimp only) | split

theorem wf_execBoot {b : BootIn} {s : State} {t__} (hx : execBoot b s = .next t__) (h : Memory.wf (memOf s) = true) : Memory.wf (memOf t__) = true := by
  revert hx
  fun_cases execBoot b s <;> intro hx
  all_goals first
    | (cases hx; done)
    | (have e__ := gate_next hx; subst e__; repeat' first | intro _ | (with_reducible first | assumption | refine wf_advanceTo ?_ | refine wf_bootChain ?_) | (fail_if_no_progress dsimp only) | split)

/-! ### Present -/

theorem wf_presentNow {n : Nat} {o : Op} {s : State} {t__} (hx : presentNow n o s = .next t__) (h : Memory.wf (memOf s) = true) : Memory.wf (memOf t__) = true := by
  revert hx
  fun_cases presentNow n o s <;> intro hx
  all_goals first
    | (cases hx; done)
    | (have e__ := next_inj hx; subst e__; repeat' first | intro _ | (with_reducible first | assumption | refine wf_issueBundle ?_ | refine wf_of_eq (updFacet_mem ..) ?_) | (fail_if_no_progress dsimp only) | split)
    | (have e__ := gate_next hx; subst e__; repeat' first | intro _ | (with_reducible first | assumption | refine wf_issueBundle ?_ | refine wf_of_eq (updFacet_mem ..) ?_) | (fail_if_no_progress dsimp only) | split)

theorem wf_presentOp {n : Nat} {o : Op} {s : State} {t__} (hx : presentOp n o s = .next t__) (h : Memory.wf (memOf s) = true) : Memory.wf (memOf t__) = true := by
  revert hx
  fun_cases presentOp n o s <;> intro hx
  all_goals first
    | (cases hx; done)
    | exact wf_presentNow hx (by repeat' first | intro _ | (with_reducible first | assumption | refine wf_advanceTo ?_) | (fail_if_no_progress dsimp only) | split)

/-! ### GlebyCons -/

theorem consList_mem (c : Call) (s : State)  : memOf (consList c s).2 = memOf s := by
  fun_cases consList c s <;>
  repeat' first | intro _ | (with_reducible first | rfl | refine (listReply_mem ..).trans ?_) | (fail_if_no_progress dsimp only) | split

theorem wf_execConsList {g : GIn} {s : State} {t__} (hx : execConsList g s = .next t__) (h : Memory.wf (memOf s) = true) : Memory.wf (memOf t__) = true := by
  revert hx
  fun_cases execConsList g s <;> intro hx
  all_goals first
    | (cases hx; done)
    | exact wf_runCmd hx (by repeat' first | intro _ | (with_reducible first | assumption | refine wf_of_eq (consList_mem ..) ?_) | (fail_if_no_progress dsimp only) | split)
    | exact wf_runCmd hx (by intro _ _ _; repeat' first | intro _ | (with_reducible first | assumption | refine wf_of_eq (consList_mem ..) ?_) | (fail_if_no_progress dsimp only) | split) h

theorem wf_consAuth {c : Call} {s : State} (h : Memory.wf (memOf s) = true) : Memory.wf (memOf (consAuth c s).2) = true := by
  have key : ∀ (b : List Byte) (n : Nat), Memory.wf (memOf (if pfw s then fail stLedger s else if b.length < n then fail stNotFound s
      else if !(authChip (c.p 0 2) (c.p 2 1) b s).1 then fail stSignature (authChip (c.p 0 2) (c.p 2 1) b s).2.2
      else ({ wait := .lines (authChip (c.p 0 2) (c.p 2 1) b s).2.1.toList (1 + leAt b 16 1 * 2 ^ 8) },
        (authChip (c.p 0 2) (c.p 2 1) b s).2.2)).2) = true := by
    intro b n
    have hq : Memory.wf (memOf (authChip (c.p 0 2) (c.p 2 1) b s).2.2) = true := wf_authChip h
    generalize authChip (c.p 0 2) (c.p 2 1) b s = q at hq ⊢
    split
    · exact wf_of_eq (fail_mem ..) h
    split
    · exact wf_of_eq (fail_mem ..) h
    split
    · exact wf_of_eq (fail_mem ..) hq
    · exact hq
  exact key _ _

theorem wf_execConsAuth {g : GIn} {s : State} {t__} (hx : execConsAuth g s = .next t__) (h : Memory.wf (memOf s) = true) : Memory.wf (memOf t__) = true := by
  revert hx
  fun_cases execConsAuth g s <;> intro hx
  all_goals first
    | (cases hx; done)
    | exact wf_runCmd hx (by repeat' first | intro _ | (with_reducible first | assumption | refine wf_consAuth ?_) | (fail_if_no_progress dsimp only) | split)
    | exact wf_runCmd hx (by intro _ _ _; repeat' first | intro _ | (with_reducible first | assumption | refine wf_consAuth ?_) | (fail_if_no_progress dsimp only) | split) h

theorem consLife_mem (c : Call) (s : State)  : memOf (consLife c s).2 = memOf s := by
  fun_cases consLife c s <;>
  repeat' first | intro _ | (with_reducible first | rfl | refine (done_mem ..).trans ?_ | refine (fail_mem ..).trans ?_) | (fail_if_no_progress dsimp only) | split

theorem wf_execConsLife {g : GIn} {s : State} {t__} (hx : execConsLife g s = .next t__) (h : Memory.wf (memOf s) = true) : Memory.wf (memOf t__) = true := by
  revert hx
  fun_cases execConsLife g s <;> intro hx
  all_goals first
    | (cases hx; done)
    | exact wf_runCmd hx (by repeat' first | intro _ | (with_reducible first | assumption | refine wf_of_eq (consLife_mem ..) ?_) | (fail_if_no_progress dsimp only) | split)
    | exact wf_runCmd hx (by intro _ _ _; repeat' first | intro _ | (with_reducible first | assumption | refine wf_of_eq (consLife_mem ..) ?_) | (fail_if_no_progress dsimp only) | split) h

theorem wf_consUse {c : Call} {s : State} (h : Memory.wf (memOf s) = true) : Memory.wf (memOf (consUse c s).2) = true := by
  fun_cases consUse c s <;>
  repeat' first | intro _ | (with_reducible first | assumption | refine wf_consEdit ?_ | refine wf_of_eq (fail_mem ..) ?_ | refine wf_of_eq (mirrorCons_mem ..) ?_ | refine wf_of_eq (postEvent_mem ..) ?_ | refine wf_ite_same ?_ ?_) | (fail_if_no_progress dsimp only) | split

theorem wf_execConsUse {g : GIn} {s : State} {t__} (hx : execConsUse g s = .next t__) (h : Memory.wf (memOf s) = true) : Memory.wf (memOf t__) = true := by
  revert hx
  fun_cases execConsUse g s <;> intro hx
  all_goals first
    | (cases hx; done)
    | exact wf_runCmd hx (by repeat' first | intro _ | (with_reducible first | assumption | refine wf_consUse ?_) | (fail_if_no_progress dsimp only) | split)
    | exact wf_runCmd hx (by intro _ _ _; repeat' first | intro _ | (with_reducible first | assumption | refine wf_consUse ?_) | (fail_if_no_progress dsimp only) | split) h

theorem wf_consPolicy {c : Call} {s : State} (h : Memory.wf (memOf s) = true) : Memory.wf (memOf (consPolicy c s).2) = true := by
  fun_cases consPolicy c s <;>
  repeat' first | intro _ | (with_reducible first | assumption | refine wf_consEdit ?_ | refine wf_ledgerPut ?_ | refine wf_of_eq (fail_mem ..) ?_ | refine wf_of_eq pair_mem ?_ | refine wf_foldl _ ?_ _ _ ?_) | (fail_if_no_progress dsimp only) | split

theorem wf_execConsPolicy {g : GIn} {s : State} {t__} (hx : execConsPolicy g s = .next t__) (h : Memory.wf (memOf s) = true) : Memory.wf (memOf t__) = true := by
  revert hx
  fun_cases execConsPolicy g s <;> intro hx
  all_goals first
    | (cases hx; done)
    | exact wf_runCmd hx (by repeat' first | intro _ | (with_reducible first | assumption | refine wf_consPolicy ?_) | (fail_if_no_progress dsimp only) | split)
    | exact wf_runCmd hx (by intro _ _ _; repeat' first | intro _ | (with_reducible first | assumption | refine wf_consPolicy ?_) | (fail_if_no_progress dsimp only) | split) h

/-! ### GlebyLedger -/

theorem ldgRead_mem (c : Call) (s : State)  : memOf (ldgRead c s).2 = memOf s := by
  fun_cases ldgRead c s <;>
  repeat' first | intro _ | (with_reducible first | rfl | assumption | refine (doneData_mem ..).trans ?_ | refine (fail_mem ..).trans ?_ | refine (freeBytes_mem ..).trans ?_ | refine (pair_eq_mem (by assumption)).trans ?_) | (fail_if_no_progress dsimp only) | split

theorem wf_execLdgRead {g : GIn} {s : State} {t__} (hx : execLdgRead g s = .next t__) (h : Memory.wf (memOf s) = true) : Memory.wf (memOf t__) = true := by
  revert hx
  fun_cases execLdgRead g s <;> intro hx
  all_goals first
    | (cases hx; done)
    | exact wf_runCmd hx (by repeat' first | intro _ | (with_reducible first | assumption | refine wf_of_eq (ldgRead_mem ..) ?_) | (fail_if_no_progress dsimp only) | split)
    | exact wf_runCmd hx (by intro _ _ _; repeat' first | intro _ | (with_reducible first | assumption | refine wf_of_eq (ldgRead_mem ..) ?_) | (fail_if_no_progress dsimp only) | split) h

theorem wf_ldgAppend {c : Call} {s : State} (h : Memory.wf (memOf s) = true) : Memory.wf (memOf (ldgAppend c s).2) = true := by
  fun_cases ldgAppend c s <;>
  repeat' first | intro _ | (with_reducible first | assumption | refine wf_ledgerPut ?_ | refine wf_of_eq (fail_mem ..) ?_ | refine wf_of_eq (setLedger_mem ..) ?_) | (fail_if_no_progress dsimp only) | split

theorem wf_execLdgAppend {g : GIn} {s : State} {t__} (hx : execLdgAppend g s = .next t__) (h : Memory.wf (memOf s) = true) : Memory.wf (memOf t__) = true := by
  revert hx
  fun_cases execLdgAppend g s <;> intro hx
  all_goals first
    | (cases hx; done)
    | exact wf_runCmd hx (by repeat' first | intro _ | (with_reducible first | assumption | refine wf_ldgAppend ?_) | (fail_if_no_progress dsimp only) | split)
    | exact wf_runCmd hx (by intro _ _ _; repeat' first | intro _ | (with_reducible first | assumption | refine wf_ldgAppend ?_) | (fail_if_no_progress dsimp only) | split) h

theorem ldgStatus_mem (x1__ : Call) (s : State)  : memOf (ldgStatus x1__ s).2 = memOf s := by
  fun_cases ldgStatus x1__ s <;>
  repeat' first | intro _ | (with_reducible first | rfl | refine (done_mem ..).trans ?_) | (fail_if_no_progress dsimp only) | split

theorem wf_execLdgStatus {g : GIn} {s : State} {t__} (hx : execLdgStatus g s = .next t__) (h : Memory.wf (memOf s) = true) : Memory.wf (memOf t__) = true := by
  revert hx
  fun_cases execLdgStatus g s <;> intro hx
  all_goals first
    | (cases hx; done)
    | exact wf_runCmd hx (by repeat' first | intro _ | (with_reducible first | assumption | refine wf_of_eq (ldgStatus_mem ..) ?_) | (fail_if_no_progress dsimp only) | split)
    | exact wf_runCmd hx (by intro _ _ _; repeat' first | intro _ | (with_reducible first | assumption | refine wf_of_eq (ldgStatus_mem ..) ?_) | (fail_if_no_progress dsimp only) | split) h

end Sys2Proof.Laws
end

