-- ==== Sys2Proof/Laws/PerInstr.lean ====
section
/-! SUPPORT. The family `Named`: what holds of each command as syntax. The table gives no row bits, so no word spells a command, and a
command stands in the queue only where it was put there. -/
namespace Sys2Proof.Laws

/-- No word of bits spells the command. -/
def Named.Statement (i : Instr) : Prop := ∀ nbits w, decodeTableWord nbits w ≠ some i

theorem not_spelled (i : Instr) : Named.Statement i := fun _ _ h => by simp [decodeTableWord] at h

theorem Named.resultLanding (n : Fin 128) : Named.Statement (.resultLanding n) := not_spelled _
theorem Named.loopEndAction (n : Fin 128) : Named.Statement (.loopEndAction n) := not_spelled _
theorem Named.exceptionEntry (n : Fin 128) : Named.Statement (.exceptionEntry n) := not_spelled _
theorem Named.holdOverrun (n : Fin 128) : Named.Statement (.holdOverrun n) := not_spelled _
theorem Named.twaitRelease (n : Fin 128) : Named.Statement (.twaitRelease n) := not_spelled _
theorem Named.ewaitRelease (n : Fin 128) : Named.Statement (.ewaitRelease n) := not_spelled _
theorem Named.longOpDone (n : Fin 128) : Named.Statement (.longOpDone n) := not_spelled _
theorem Named.remoteCompletion (n : Fin 128) (i : Fin 16) (uncorrectable : Bool) : Named.Statement (.remoteCompletion n i uncorrectable) := not_spelled _
theorem Named.reservationExpiry (n : Fin 128) : Named.Statement (.reservationExpiry n) := not_spelled _
theorem Named.facetHalted (n : Fin 128) : Named.Statement (.facetHalted n) := not_spelled _
theorem Named.facCtlRun (n : Fin 128) : Named.Statement (.facCtlRun n) := not_spelled _
theorem Named.facCtlHalt (n : Fin 128) : Named.Statement (.facCtlHalt n) := not_spelled _
theorem Named.pflush (n : Fin 128) : Named.Statement (.pflush n) := not_spelled _
theorem Named.pflushDone (n : Fin 128) : Named.Statement (.pflushDone n) := not_spelled _
theorem Named.facetRegisterBlockWrite (n : Fin 128) (off : Nat) (v : BitVec 64) (by_ : Agent) : Named.Statement (.facetRegisterBlockWrite n off v by_) := not_spelled _
theorem Named.vmulMac (n : Fin 128) (o : OpW) : Named.Statement (.vmulMac n o) := not_spelled _
theorem Named.vmac (n : Fin 128) (o : OpW) : Named.Statement (.vmac n o) := not_spelled _
theorem Named.vmsu (n : Fin 128) (o : OpW) : Named.Statement (.vmsu n o) := not_spelled _
theorem Named.vmacu (n : Fin 128) (o : OpW) : Named.Statement (.vmacu n o) := not_spelled _
theorem Named.vsad (n : Fin 128) (o : OpW) : Named.Statement (.vsad n o) := not_spelled _
theorem Named.vmov (n : Fin 128) (o : OpW) : Named.Statement (.vmov n o) := not_spelled _
theorem Named.vadd (n : Fin 128) (o : OpW) : Named.Statement (.vadd n o) := not_spelled _
theorem Named.vsub (n : Fin 128) (o : OpW) : Named.Statement (.vsub n o) := not_spelled _
theorem Named.vadds (n : Fin 128) (o : OpW) : Named.Statement (.vadds n o) := not_spelled _
theorem Named.vsubs (n : Fin 128) (o : OpW) : Named.Statement (.vsubs n o) := not_spelled _
theorem Named.vmulAlu (n : Fin 128) (o : OpW) : Named.Statement (.vmulAlu n o) := not_spelled _
theorem Named.vfma (n : Fin 128) (o : OpW) : Named.Statement (.vfma n o) := not_spelled _
theorem Named.vmin (n : Fin 128) (o : OpW) : Named.Statement (.vmin n o) := not_spelled _
theorem Named.vmax (n : Fin 128) (o : OpW) : Named.Statement (.vmax n o) := not_spelled _
theorem Named.vminu (n : Fin 128) (o : OpW) : Named.Statement (.vminu n o) := not_spelled _
theorem Named.vmaxu (n : Fin 128) (o : OpW) : Named.Statement (.vmaxu n o) := not_spelled _
theorem Named.vabs (n : Fin 128) (o : OpW) : Named.Statement (.vabs n o) := not_spelled _
theorem Named.vneg (n : Fin 128) (o : OpW) : Named.Statement (.vneg n o) := not_spelled _
theorem Named.vand (n : Fin 128) (o : OpW) : Named.Statement (.vand n o) := not_spelled _
theorem Named.vor (n : Fin 128) (o : OpW) : Named.Statement (.vor n o) := not_spelled _
theorem Named.vxor (n : Fin 128) (o : OpW) : Named.Statement (.vxor n o) := not_spelled _
theorem Named.vandn (n : Fin 128) (o : OpW) : Named.Statement (.vandn n o) := not_spelled _
theorem Named.vshl (n : Fin 128) (o : OpW) : Named.Statement (.vshl n o) := not_spelled _
theorem Named.vshr (n : Fin 128) (o : OpW) : Named.Statement (.vshr n o) := not_spelled _
theorem Named.vshru (n : Fin 128) (o : OpW) : Named.Statement (.vshru n o) := not_spelled _
theorem Named.vcmpeq (n : Fin 128) (o : OpW) : Named.Statement (.vcmpeq n o) := not_spelled _
theorem Named.vcmplt (n : Fin 128) (o : OpW) : Named.Statement (.vcmplt n o) := not_spelled _
theorem Named.vcmple (n : Fin 128) (o : OpW) : Named.Statement (.vcmple n o) := not_spelled _
theorem Named.vcmpltu (n : Fin 128) (o : OpW) : Named.Statement (.vcmpltu n o) := not_spelled _
theorem Named.vsel (n : Fin 128) (o : OpW) : Named.Statement (.vsel n o) := not_spelled _
theorem Named.vcvt (n : Fin 128) (o : OpW) : Named.Statement (.vcvt n o) := not_spelled _
theorem Named.accst (n : Fin 128) (o : OpW) : Named.Statement (.accst n o) := not_spelled _
theorem Named.accsv (n : Fin 128) (o : OpW) : Named.Statement (.accsv n o) := not_spelled _
theorem Named.accrs (n : Fin 128) (o : OpW) : Named.Statement (.accrs n o) := not_spelled _
theorem Named.mov (n : Fin 128) (o : OpW) : Named.Statement (.mov n o) := not_spelled _
theorem Named.add (n : Fin 128) (o : OpW) : Named.Statement (.add n o) := not_spelled _
theorem Named.sub (n : Fin 128) (o : OpW) : Named.Statement (.sub n o) := not_spelled _
theorem Named.and (n : Fin 128) (o : OpW) : Named.Statement (.and n o) := not_spelled _
theorem Named.or (n : Fin 128) (o : OpW) : Named.Statement (.or n o) := not_spelled _
theorem Named.xor (n : Fin 128) (o : OpW) : Named.Statement (.xor n o) := not_spelled _
theorem Named.shl (n : Fin 128) (o : OpW) : Named.Statement (.shl n o) := not_spelled _
theorem Named.shr (n : Fin 128) (o : OpW) : Named.Statement (.shr n o) := not_spelled _
theorem Named.min (n : Fin 128) (o : OpW) : Named.Statement (.min n o) := not_spelled _
theorem Named.max (n : Fin 128) (o : OpW) : Named.Statement (.max n o) := not_spelled _
theorem Named.cmpeq (n : Fin 128) (o : OpW) : Named.Statement (.cmpeq n o) := not_spelled _
theorem Named.cmpne (n : Fin 128) (o : OpW) : Named.Statement (.cmpne n o) := not_spelled _
theorem Named.cmplt (n : Fin 128) (o : OpW) : Named.Statement (.cmplt n o) := not_spelled _
theorem Named.cmple (n : Fin 128) (o : OpW) : Named.Statement (.cmple n o) := not_spelled _
theorem Named.lea (n : Fin 128) (o : OpW) : Named.Statement (.lea n o) := not_spelled _
theorem Named.movw (n : Fin 128) (o : OpW) : Named.Statement (.movw n o) := not_spelled _
theorem Named.tas (n : Fin 128) (o : OpW) : Named.Statement (.tas n o) := not_spelled _
theorem Named.mul (n : Fin 128) (o : OpW) : Named.Statement (.mul n o) := not_spelled _
theorem Named.mulh (n : Fin 128) (o : OpW) : Named.Statement (.mulh n o) := not_spelled _
theorem Named.div (n : Fin 128) (o : OpW) : Named.Statement (.div n o) := not_spelled _
theorem Named.rem (n : Fin 128) (o : OpW) : Named.Statement (.rem n o) := not_spelled _
theorem Named.fdiv (n : Fin 128) (o : OpW) : Named.Statement (.fdiv n o) := not_spelled _
theorem Named.fsqrt (n : Fin 128) (o : OpW) : Named.Statement (.fsqrt n o) := not_spelled _
theorem Named.frcp (n : Fin 128) (o : OpW) : Named.Statement (.frcp n o) := not_spelled _
theorem Named.frsqrt (n : Fin 128) (o : OpW) : Named.Statement (.frsqrt n o) := not_spelled _
theorem Named.fexp2 (n : Fin 128) (o : OpW) : Named.Statement (.fexp2 n o) := not_spelled _
theorem Named.flog2 (n : Fin 128) (o : OpW) : Named.Statement (.flog2 n o) := not_spelled _
theorem Named.fsin (n : Fin 128) (o : OpW) : Named.Statement (.fsin n o) := not_spelled _
theorem Named.fcos (n : Fin 128) (o : OpW) : Named.Statement (.fcos n o) := not_spelled _
theorem Named.crc (n : Fin 128) (o : OpW) : Named.Statement (.crc n o) := not_spelled _
theorem Named.extr (n : Fin 128) (o : OpW) : Named.Statement (.extr n o) := not_spelled _
theorem Named.ins (n : Fin 128) (o : OpW) : Named.Statement (.ins n o) := not_spelled _
theorem Named.clz (n : Fin 128) (o : OpW) : Named.Statement (.clz n o) := not_spelled _
theorem Named.popc (n : Fin 128) (o : OpW) : Named.Statement (.popc n o) := not_spelled _
theorem Named.rld (n : Fin 128) (o : OpW) : Named.Statement (.rld n o) := not_spelled _
theorem Named.rst (n : Fin 128) (o : OpW) : Named.Statement (.rst n o) := not_spelled _
theorem Named.radd (n : Fin 128) (o : OpW) : Named.Statement (.radd n o) := not_spelled _
theorem Named.rtas (n : Fin 128) (o : OpW) : Named.Statement (.rtas n o) := not_spelled _
theorem Named.ldr (n : Fin 128) (o : OpW) : Named.Statement (.ldr n o) := not_spelled _
theorem Named.stc (n : Fin 128) (o : OpW) : Named.Statement (.stc n o) := not_spelled _
theorem Named.bmove (n : Fin 128) (o : OpW) : Named.Statement (.bmove n o) := not_spelled _
theorem Named.bfill (n : Fin 128) (o : OpW) : Named.Statement (.bfill n o) := not_spelled _
theorem Named.bcrc (n : Fin 128) (o : OpW) : Named.Statement (.bcrc n o) := not_spelled _
theorem Named.bfir (n : Fin 128) (o : OpW) : Named.Statement (.bfir n o) := not_spelled _
theorem Named.nop (n : Fin 128) (o : OpW) : Named.Statement (.nop n o) := not_spelled _
theorem Named.br (n : Fin 128) (o : OpW) : Named.Statement (.br n o) := not_spelled _
theorem Named.brc (n : Fin 128) (o : OpW) : Named.Statement (.brc n o) := not_spelled _
theorem Named.call (n : Fin 128) (o : OpW) : Named.Statement (.call n o) := not_spelled _
theorem Named.ret (n : Fin 128) (o : OpW) : Named.Statement (.ret n o) := not_spelled _
theorem Named.loop (n : Fin 128) (o : OpW) : Named.Statement (.loop n o) := not_spelled _
theorem Named.rep (n : Fin 128) (o : OpW) : Named.Statement (.rep n o) := not_spelled _
theorem Named.twait (n : Fin 128) (o : OpW) : Named.Statement (.twait n o) := not_spelled _
theorem Named.ewait (n : Fin 128) (o : OpW) : Named.Statement (.ewait n o) := not_spelled _
theorem Named.efclr (n : Fin 128) (o : OpW) : Named.Statement (.efclr n o) := not_spelled _
theorem Named.eftst (n : Fin 128) (o : OpW) : Named.Statement (.eftst n o) := not_spelled _
theorem Named.syscall (n : Fin 128) (o : OpW) : Named.Statement (.syscall n o) := not_spelled _
theorem Named.retx (n : Fin 128) (o : OpW) : Named.Statement (.retx n o) := not_spelled _
theorem Named.brk (n : Fin 128) (o : OpW) : Named.Statement (.brk n o) := not_spelled _
theorem Named.kenter (n : Fin 128) (o : OpW) : Named.Statement (.kenter n o) := not_spelled _
theorem Named.mfs (n : Fin 128) (o : OpW) : Named.Statement (.mfs n o) := not_spelled _
theorem Named.mts (n : Fin 128) (o : OpW) : Named.Statement (.mts n o) := not_spelled _
theorem Named.sig (n : Fin 128) (o : OpW) : Named.Statement (.sig n o) := not_spelled _
theorem Named.mbxput (n : Fin 128) (o : OpW) : Named.Statement (.mbxput n o) := not_spelled _
theorem Named.mbxget (n : Fin 128) (o : OpW) : Named.Statement (.mbxget n o) := not_spelled _
theorem Named.kld (n : Fin 128) (o : OpW) : Named.Statement (.kld n o) := not_spelled _
theorem Named.kst (n : Fin 128) (o : OpW) : Named.Statement (.kst n o) := not_spelled _
theorem Named.kmov (n : Fin 128) (o : OpW) : Named.Statement (.kmov n o) := not_spelled _
theorem Named.kbnd (n : Fin 128) (o : OpW) : Named.Statement (.kbnd n o) := not_spelled _
theorem Named.kmask (n : Fin 128) (o : OpW) : Named.Statement (.kmask n o) := not_spelled _
theorem Named.kseal (n : Fin 128) (o : OpW) : Named.Statement (.kseal n o) := not_spelled _
theorem Named.kunseal (n : Fin 128) (o : OpW) : Named.Statement (.kunseal n o) := not_spelled _
theorem Named.kget (n : Fin 128) (o : OpW) : Named.Statement (.kget n o) := not_spelled _
theorem Named.kclr (n : Fin 128) (o : OpW) : Named.Statement (.kclr n o) := not_spelled _
theorem Named.lit (n : Fin 128) (o : LitW) : Named.Statement (.lit n o) := not_spelled _
theorem Named.intSourceEvent (k : Fin 129) (i : Fin 1024) : Named.Statement (.intSourceEvent k i) := not_spelled _
theorem Named.levelFilterSettle (k : Fin 129) (i : Fin 1024) : Named.Statement (.levelFilterSettle k i) := not_spelled _
theorem Named.batchTimerExpiry (k : Fin 129) (i : Fin 1024) : Named.Statement (.batchTimerExpiry k i) := not_spelled _
theorem Named.intClaim (k : Fin 129) (fast : Bool) : Named.Statement (.intClaim k fast) := not_spelled _
theorem Named.intEoi (k : Fin 129) (i : Fin 1024) : Named.Statement (.intEoi k i) := not_spelled _
theorem Named.intSetp (k : Fin 129) (i : Fin 1024) : Named.Statement (.intSetp k i) := not_spelled _
theorem Named.intClrp (k : Fin 129) (i : Fin 1024) : Named.Statement (.intClrp k i) := not_spelled _
theorem Named.intScfgWrite (k : Fin 129) (i : Fin 1024) (v : BitVec 64) : Named.Statement (.intScfgWrite k i v) := not_spelled _
theorem Named.fillDone : Named.Statement (.fillDone) := not_spelled _
theorem Named.reconstruction (page : Nat) (port : Fin 8) (erased : List (Fin 128)) (sideBad : Bool) : Named.Statement (.reconstruction page port erased sideBad) := not_spelled _
theorem Named.itgScrubStart (u : Fin 17) (v : BitVec 64) : Named.Statement (.itgScrubStart u v) := not_spelled _
theorem Named.scrubPassDone (u : Fin 17) : Named.Statement (.scrubPassDone u) := not_spelled _
theorem Named.itgRetireStart (c : Fin 16) (v : BitVec 64) : Named.Statement (.itgRetireStart c v) := not_spelled _
theorem Named.retirementDone (c : Fin 16) : Named.Statement (.retirementDone c) := not_spelled _
theorem Named.pounceIntervalExpiry (c : Fin 16) : Named.Statement (.pounceIntervalExpiry c) := not_spelled _
theorem Named.pounceTestDone (c : Fin 16) (pass : Bool) : Named.Statement (.pounceTestDone c pass) := not_spelled _
theorem Named.itgTctlGo (c : Fin 16) (v : BitVec 64) : Named.Statement (.itgTctlGo c v) := not_spelled _
theorem Named.movCtlStart (k : Fin 288) (sink : Bool) : Named.Statement (.movCtlStart k sink) := not_spelled _
theorem Named.burstIssue (k : Fin 288) (bad : Option (Fin 512)) : Named.Statement (.burstIssue k bad) := not_spelled _
theorem Named.transferCompletion (k : Fin 288) : Named.Statement (.transferCompletion k) := not_spelled _
theorem Named.movCtlStop (k : Fin 288) : Named.Statement (.movCtlStop k) := not_spelled _
theorem Named.transferEndEarly (k : Fin 288) : Named.Statement (.transferEndEarly k) := not_spelled _
theorem Named.channelDrainHeld (k : Fin 288) : Named.Statement (.channelDrainHeld k) := not_spelled _
theorem Named.channelResume (k : Fin 288) : Named.Statement (.channelResume k) := not_spelled _
theorem Named.drainTimeout (k : Fin 288) : Named.Statement (.drainTimeout k) := not_spelled _
theorem Named.seamReplay (d : Fin 6) : Named.Statement (.seamReplay d) := not_spelled _
theorem Named.timeStepApply : Named.Statement (.timeStepApply) := not_spelled _
theorem Named.ratePoint : Named.Statement (.ratePoint) := not_spelled _
theorem Named.timRateWrite (v : BitVec 64) : Named.Statement (.timRateWrite v) := not_spelled _
theorem Named.steparm : Named.Statement (.steparm) := not_spelled _
theorem Named.checkWord (d : Fin 6) (w : CheckIn) : Named.Statement (.checkWord d w) := not_spelled _
theorem Named.ppsEdge (rising : Bool) : Named.Statement (.ppsEdge rising) := not_spelled _
theorem Named.ppsMiss : Named.Statement (.ppsMiss) := not_spelled _
theorem Named.storeTimeSecond : Named.Statement (.storeTimeSecond) := not_spelled _
theorem Named.ppsOutFall : Named.Statement (.ppsOutFall) := not_spelled _
theorem Named.ptpSample (m : Fin 8) (x : PtpExchange) : Named.Statement (.ptpSample m x) := not_spelled _
theorem Named.holdoverEntry : Named.Statement (.holdoverEntry) := not_spelled _
theorem Named.launchTimerFire (i : Fin 512) : Named.Statement (.launchTimerFire i) := not_spelled _
theorem Named.timLctlWrite (i : Fin 512) (v : BitVec 64) : Named.Statement (.timLctlWrite i v) := not_spelled _
theorem Named.timLperWrite (i : Fin 512) (v : BitVec 64) : Named.Statement (.timLperWrite i v) := not_spelled _
theorem Named.hatbandDelivery (e : Fin 4096) (lost : List (Fin 7)) : Named.Statement (.hatbandDelivery e lost) := not_spelled _
theorem Named.hatSwaparm : Named.Statement (.hatSwaparm) := not_spelled _
theorem Named.hatbandSwap : Named.Statement (.hatbandSwap) := not_spelled _
theorem Named.hatCopy : Named.Statement (.hatCopy) := not_spelled _
theorem Named.hatCopyDone : Named.Statement (.hatCopyDone) := not_spelled _
theorem Named.fabricEventReceive (fr : FabFrame) : Named.Statement (.fabricEventReceive fr) := not_spelled _
theorem Named.fabricEventAct (e : Fin 4096) : Named.Statement (.fabricEventAct e) := not_spelled _
theorem Named.vioSample (gr : Fin 8) (mv : BitVec 16) : Named.Statement (.vioSample gr mv) := not_spelled _
theorem Named.groupEnableWrite (gr : Fin 8) (v : BitVec 64) : Named.Statement (.groupEnableWrite gr v) := not_spelled _
theorem Named.cellEnable (p : Fin 1024) (v : BitVec 64) (by_ : Agent) : Named.Statement (.cellEnable p v by_) := not_spelled _
theorem Named.flushrx (p : Fin 1024) : Named.Statement (.flushrx p) := not_spelled _
theorem Named.flushtx (p : Fin 1024) : Named.Statement (.flushtx p) := not_spelled _
theorem Named.padFault (p : Fin 1024) : Named.Statement (.padFault p) := not_spelled _
theorem Named.txWindowWrite (p : Fin 1024) (bytes : List (BitVec 8)) (by_ : Agent) : Named.Statement (.txWindowWrite p bytes by_) := not_spelled _
theorem Named.rxWindowRead (p : Fin 1024) (len : Nat) (by_ : Agent) : Named.Statement (.rxWindowRead p len by_) := not_spelled _
theorem Named.rxByteReceived (p : Fin 1024) (wave : List (Nat × Bool)) : Named.Statement (.rxByteReceived p wave) := not_spelled _
theorem Named.burstEnd (p : Fin 1024) : Named.Statement (.burstEnd p) := not_spelled _
theorem Named.launchPulseEnd (p : Fin 1024) : Named.Statement (.launchPulseEnd p) := not_spelled _
theorem Named.launchComparator (p : Fin 1024) (k : Fin 2) : Named.Statement (.launchComparator p k) := not_spelled _
theorem Named.padEdge (p : Fin 1024) (padB : Bool) (level : Bool) : Named.Statement (.padEdge p padB level) := not_spelled _
theorem Named.prtSenseStart (p : Fin 1024) (v : BitVec 64) : Named.Statement (.prtSenseStart p v) := not_spelled _
theorem Named.measurementDone (p : Fin 1024) (m : Measured) : Named.Statement (.measurementDone p m) := not_spelled _
theorem Named.attachChange (p : Fin 1024) : Named.Statement (.attachChange p) := not_spelled _
theorem Named.shiftEntryEnd (p : Fin 1024) (r : ShiftResult) : Named.Statement (.shiftEntryEnd p r) := not_spelled _
theorem Named.feedSwitchOn (b : Fin 64) (f : Fin 4) (v : BitVec 64) : Named.Statement (.feedSwitchOn b f v) := not_spelled _
theorem Named.feedSwitchOff (b : Fin 64) (f : Fin 4) (v : BitVec 64) : Named.Statement (.feedSwitchOff b f v) := not_spelled _
theorem Named.feedSample (b : Fin 64) (f : Fin 4) (i : BitVec 16) (vout : BitVec 16) : Named.Statement (.feedSample b f i vout) := not_spelled _
theorem Named.hardLimitTrip (b : Fin 64) (f : Fin 4) : Named.Statement (.hardLimitTrip b f) := not_spelled _
theorem Named.feedRetry (b : Fin 64) (f : Fin 4) : Named.Statement (.feedRetry b f) := not_spelled _
theorem Named.controlWordIssue (b : Fin 64) (errs : Fin 3) : Named.Statement (.controlWordIssue b errs) := not_spelled _
theorem Named.txb (t : Fin 1024) (cell : Fin 16) (v : BitVec 16) : Named.Statement (.txb t cell v) := not_spelled _
theorem Named.rxb (t : Fin 1024) (cell : Fin 16) (dst : Fin 16) : Named.Statement (.rxb t cell dst) := not_spelled _
theorem Named.shift (t : Fin 1024) (cell : Fin 16) (v : BitVec 16) : Named.Statement (.shift t cell v) := not_spelled _
theorem Named.span (t : Fin 1024) (cell : Fin 16) (v : BitVec 16) : Named.Statement (.span t cell v) := not_spelled _
theorem Named.padset (t : Fin 1024) (cell : Fin 16) (v : BitVec 16) : Named.Statement (.padset t cell v) := not_spelled _
theorem Named.crd (t : Fin 1024) (cell : Fin 16) (idx : Fin 64) (dst : Fin 16) : Named.Statement (.crd t cell idx dst) := not_spelled _
theorem Named.cwr (t : Fin 1024) (cell : Fin 16) (idx : Fin 64) (v : BitVec 16) : Named.Statement (.cwr t cell idx v) := not_spelled _
theorem Named.flush (t : Fin 1024) (cell : Fin 16) (v : BitVec 16) : Named.Statement (.flush t cell v) := not_spelled _
theorem Named.rstamp (t : Fin 1024) (v : BitVec 16) : Named.Statement (.rstamp t v) := not_spelled _
theorem Named.rsend (t : Fin 1024) (cell : Fin 16) (v : BitVec 16) : Named.Statement (.rsend t cell v) := not_spelled _
theorem Named.rput (t : Fin 1024) (v : BitVec 16) : Named.Statement (.rput t v) := not_spelled _
theorem Named.rclr (t : Fin 1024) : Named.Statement (.rclr t) := not_spelled _
theorem Named.cmdb (t : Fin 1024) (dst : Fin 16) : Named.Statement (.cmdb t dst) := not_spelled _
theorem Named.tmr (t : Fin 1024) (v : BitVec 16) : Named.Statement (.tmr t v) := not_spelled _
theorem Named.evmask (t : Fin 1024) (v : BitVec 16) : Named.Statement (.evmask t v) := not_spelled _
theorem Named.attn (t : Fin 1024) : Named.Statement (.attn t) := not_spelled _
theorem Named.hsig (t : Fin 1024) : Named.Statement (.hsig t) := not_spelled _
theorem Named.parkWake (t : Fin 1024) : Named.Statement (.parkWake t) := not_spelled _
theorem Named.microTimerExpiry (t : Fin 1024) : Named.Statement (.microTimerExpiry t) := not_spelled _
theorem Named.blkTstart (t : Fin 1024) : Named.Statement (.blkTstart t) := not_spelled _
theorem Named.blkTstop (t : Fin 1024) : Named.Statement (.blkTstop t) := not_spelled _
theorem Named.blkWheelWrite (b : Fin 64) (v : BitVec 64) : Named.Statement (.blkWheelWrite b v) := not_spelled _
theorem Named.wheelChange (b : Fin 64) : Named.Statement (.wheelChange b) := not_spelled _
theorem Named.blkCopy (b : Fin 64) : Named.Statement (.blkCopy b) := not_spelled _
theorem Named.blkCopyDone (b : Fin 64) : Named.Statement (.blkCopyDone b) := not_spelled _
theorem Named.blkSwaparm (b : Fin 64) : Named.Statement (.blkSwaparm b) := not_spelled _
theorem Named.blkSwapPoint (b : Fin 64) : Named.Statement (.blkSwapPoint b) := not_spelled _
theorem Named.reportStart : Named.Statement (.reportStart) := not_spelled _
theorem Named.reportPublish (n : Fin 16384) : Named.Statement (.reportPublish n) := not_spelled _
theorem Named.fabricReportReceive (fr : FabFrame) : Named.Statement (.fabricReportReceive fr) := not_spelled _
theorem Named.sesCopy : Named.Statement (.sesCopy) := not_spelled _
theorem Named.sesCopyDone : Named.Statement (.sesCopyDone) := not_spelled _
theorem Named.sesSwaparm : Named.Statement (.sesSwaparm) := not_spelled _
theorem Named.routeSwap : Named.Statement (.routeSwap) := not_spelled _
theorem Named.sesCmdPush (v : BitVec 64) (by_ : Agent) : Named.Statement (.sesCmdPush v by_) := not_spelled _
theorem Named.contextWrite (n : Fin 16384) (off : Nat) (bytes : List (BitVec 8)) (by_ : Agent) : Named.Statement (.contextWrite n off bytes by_) := not_spelled _
theorem Named.endpointAttach (p : Fin 1024) (sub : BitVec 12) (proto : BitVec 8) (ident : List (BitVec 8)) : Named.Statement (.endpointAttach p sub proto ident) := not_spelled _
theorem Named.endpointDetach (n : Fin 16384) : Named.Statement (.endpointDetach n) := not_spelled _
theorem Named.sessionHoldExpiry (n : Fin 16384) : Named.Statement (.sessionHoldExpiry n) := not_spelled _
theorem Named.packageLost (pkg : BitVec 8) : Named.Statement (.packageLost pkg) := not_spelled _
theorem Named.queueEnable (q : Fin 16) (v : BitVec 64) : Named.Statement (.queueEnable q v) := not_spelled _
theorem Named.queueDisable (q : Fin 16) (v : BitVec 64) : Named.Statement (.queueDisable q v) := not_spelled _
theorem Named.mbxSqtail (q : Fin 16) (v : BitVec 64) : Named.Statement (.mbxSqtail q v) := not_spelled _
theorem Named.mbxCqhead (q : Fin 16) (v : BitVec 64) : Named.Statement (.mbxCqhead q v) := not_spelled _
theorem Named.commandFetch (q : Fin 16) (entries : List (BitVec 512)) (ok : Bool) : Named.Statement (.commandFetch q entries ok) := not_spelled _
theorem Named.completionPost (q : Fin 16) (ok : Bool) : Named.Statement (.completionPost q ok) := not_spelled _
theorem Named.interruptTimeExpiry (q : Fin 16) : Named.Statement (.interruptTimeExpiry q) := not_spelled _
theorem Named.asyncEventPost (cls : Fin 256) (data : BitVec 64) : Named.Statement (.asyncEventPost cls data) := not_spelled _
theorem Named.heartbeat : Named.Statement (.heartbeat) := not_spelled _
theorem Named.commandTimeout (id : Nat) : Named.Statement (.commandTimeout id) := not_spelled _
theorem Named.requestTake (n : Fin 128) : Named.Statement (.requestTake n) := not_spelled _
theorem Named.responseForward (n : Fin 128) : Named.Statement (.responseForward n) := not_spelled _
theorem Named.getVersion (g : GIn) : Named.Statement (.getVersion g) := not_spelled _
theorem Named.getStatus (g : GIn) : Named.Statement (.getStatus g) := not_spelled _
theorem Named.eventEnable (g : GIn) : Named.Statement (.eventEnable g) := not_spelled _
theorem Named.abort (g : GIn) : Named.Statement (.abort g) := not_spelled _
theorem Named.resetCmd (g : GIn) : Named.Statement (.resetCmd g) := not_spelled _
theorem Named.authChallenge (g : GIn) : Named.Statement (.authChallenge g) := not_spelled _
theorem Named.authOpen (g : GIn) : Named.Statement (.authOpen g) := not_spelled _
theorem Named.authClose (g : GIn) : Named.Statement (.authClose g) := not_spelled _
theorem Named.principalSessionExpiry (h : BitVec 16) : Named.Statement (.principalSessionExpiry h) := not_spelled _
theorem Named.nonceExpiry (id : BitVec 32) : Named.Statement (.nonceExpiry id) := not_spelled _
theorem Named.crownPower (g : GIn) : Named.Statement (.crownPower g) := not_spelled _
theorem Named.domainPower (g : GIn) : Named.Statement (.domainPower g) := not_spelled _
theorem Named.standby (g : GIn) : Named.Statement (.standby g) := not_spelled _
theorem Named.powerStatus (g : GIn) : Named.Statement (.powerStatus g) := not_spelled _
theorem Named.sensors (g : GIn) : Named.Statement (.sensors g) := not_spelled _
theorem Named.timeGet (g : GIn) : Named.Statement (.timeGet g) := not_spelled _
theorem Named.timeSource (g : GIn) : Named.Statement (.timeSource g) := not_spelled _
theorem Named.timeStep (g : GIn) : Named.Statement (.timeStep g) := not_spelled _
theorem Named.timeRate (g : GIn) : Named.Statement (.timeRate g) := not_spelled _
theorem Named.ptpConfig (g : GIn) : Named.Statement (.ptpConfig g) := not_spelled _
theorem Named.ptpStatus (g : GIn) : Named.Statement (.ptpStatus g) := not_spelled _
theorem Named.timerSet (g : GIn) : Named.Statement (.timerSet g) := not_spelled _
theorem Named.hatWrite (g : GIn) : Named.Statement (.hatWrite g) := not_spelled _
theorem Named.hatSwap (g : GIn) : Named.Statement (.hatSwap g) := not_spelled _
theorem Named.groupSet (g : GIn) : Named.Statement (.groupSet g) := not_spelled _
theorem Named.probe (g : GIn) : Named.Statement (.probe g) := not_spelled _
theorem Named.cable (g : GIn) : Named.Statement (.cable g) := not_spelled _
theorem Named.bind (g : GIn) : Named.Statement (.bind g) := not_spelled _
theorem Named.unbind (g : GIn) : Named.Statement (.unbind g) := not_spelled _
theorem Named.wheel (g : GIn) : Named.Statement (.wheel g) := not_spelled _
theorem Named.threadStatus (g : GIn) : Named.Statement (.threadStatus g) := not_spelled _
theorem Named.threadRestart (g : GIn) : Named.Statement (.threadRestart g) := not_spelled _
theorem Named.feedSet (g : GIn) : Named.Statement (.feedSet g) := not_spelled _
theorem Named.feedStatus (g : GIn) : Named.Statement (.feedStatus g) := not_spelled _
theorem Named.sesConfig (g : GIn) : Named.Statement (.sesConfig g) := not_spelled _
theorem Named.sesInfo (g : GIn) : Named.Statement (.sesInfo g) := not_spelled _
theorem Named.sesRing (g : GIn) : Named.Statement (.sesRing g) := not_spelled _
theorem Named.sesClose (g : GIn) : Named.Statement (.sesClose g) := not_spelled _
theorem Named.sesList (g : GIn) : Named.Statement (.sesList g) := not_spelled _
theorem Named.facetLoad (g : GIn) : Named.Statement (.facetLoad g) := not_spelled _
theorem Named.facetRun (g : GIn) : Named.Statement (.facetRun g) := not_spelled _
theorem Named.facetHalt (g : GIn) : Named.Statement (.facetHalt g) := not_spelled _
theorem Named.facetReport (g : GIn) : Named.Statement (.facetReport g) := not_spelled _
theorem Named.facetRegs (g : GIn) : Named.Statement (.facetRegs g) := not_spelled _
theorem Named.crownMode (g : GIn) : Named.Statement (.crownMode g) := not_spelled _
theorem Named.scrub (g : GIn) : Named.Statement (.scrub g) := not_spelled _
theorem Named.patrol (g : GIn) : Named.Statement (.patrol g) := not_spelled _
theorem Named.patrolScrub : Named.Statement (.patrolScrub) := not_spelled _
theorem Named.logRead (g : GIn) : Named.Statement (.logRead g) := not_spelled _
theorem Named.retire (g : GIn) : Named.Statement (.retire g) := not_spelled _
theorem Named.testWord (g : GIn) : Named.Statement (.testWord g) := not_spelled _
theorem Named.dramTouch (g : GIn) : Named.Statement (.dramTouch g) := not_spelled _
theorem Named.dramRelease (g : GIn) : Named.Statement (.dramRelease g) := not_spelled _
theorem Named.capGrant (g : GIn) : Named.Statement (.capGrant g) := not_spelled _
theorem Named.capRevoke (g : GIn) : Named.Statement (.capRevoke g) := not_spelled _
theorem Named.movBind (g : GIn) : Named.Statement (.movBind g) := not_spelled _
theorem Named.windowOpen (g : GIn) : Named.Statement (.windowOpen g) := not_spelled _
theorem Named.windowClose (g : GIn) : Named.Statement (.windowClose g) := not_spelled _
theorem Named.capQuery (g : GIn) : Named.Statement (.capQuery g) := not_spelled _
theorem Named.fabJoin (g : GIn) : Named.Statement (.fabJoin g) := not_spelled _
theorem Named.fabLeave (g : GIn) : Named.Statement (.fabLeave g) := not_spelled _
theorem Named.fabStatus (g : GIn) : Named.Statement (.fabStatus g) := not_spelled _
theorem Named.fabConfig (g : GIn) : Named.Statement (.fabConfig g) := not_spelled _
theorem Named.fabWindow (g : GIn) : Named.Statement (.fabWindow g) := not_spelled _
theorem Named.fabStandby (g : GIn) : Named.Statement (.fabStandby g) := not_spelled _
theorem Named.fabExport (g : GIn) : Named.Statement (.fabExport g) := not_spelled _
theorem Named.fabImport (g : GIn) : Named.Statement (.fabImport g) := not_spelled _
theorem Named.consList (g : GIn) : Named.Statement (.consList g) := not_spelled _
theorem Named.consAuth (g : GIn) : Named.Statement (.consAuth g) := not_spelled _
theorem Named.consLife (g : GIn) : Named.Statement (.consLife g) := not_spelled _
theorem Named.consUse (g : GIn) : Named.Statement (.consUse g) := not_spelled _
theorem Named.consPolicy (g : GIn) : Named.Statement (.consPolicy g) := not_spelled _
theorem Named.metrStatus (g : GIn) : Named.Statement (.metrStatus g) := not_spelled _
theorem Named.metrLoad (g : GIn) : Named.Statement (.metrLoad g) := not_spelled _
theorem Named.metrSeal (g : GIn) : Named.Statement (.metrSeal g) := not_spelled _
theorem Named.metrBreak (g : GIn) : Named.Statement (.metrBreak g) := not_spelled _
theorem Named.metrAudit (g : GIn) : Named.Statement (.metrAudit g) := not_spelled _
theorem Named.ldgRead (g : GIn) : Named.Statement (.ldgRead g) := not_spelled _
theorem Named.ldgAppend (g : GIn) : Named.Statement (.ldgAppend g) := not_spelled _
theorem Named.ldgStatus (g : GIn) : Named.Statement (.ldgStatus g) := not_spelled _
theorem Named.updStage (g : GIn) : Named.Statement (.updStage g) := not_spelled _
theorem Named.updApply (g : GIn) : Named.Statement (.updApply g) := not_spelled _
theorem Named.updStatus (g : GIn) : Named.Statement (.updStatus g) := not_spelled _
theorem Named.updDiscard (g : GIn) : Named.Statement (.updDiscard g) := not_spelled _
theorem Named.ledgerWrite (line : Fin 262144) (off : Fin 8) (v : BitVec 64) (by_ : Agent) : Named.Statement (.ledgerWrite line off v by_) := not_spelled _
theorem Named.ledgerRead (line : Fin 262144) (by_ : Agent) (bad : Fin 3) : Named.Statement (.ledgerRead line by_ bad) := not_spelled _
theorem Named.lineCommit (line : Fin 262144) : Named.Statement (.lineCommit line) := not_spelled _
theorem Named.lineCommitDone (line : Fin 262144) : Named.Statement (.lineCommitDone line) := not_spelled _
theorem Named.powerFailWarning : Named.Statement (.powerFailWarning) := not_spelled _
theorem Named.powerFailWarningEnd : Named.Statement (.powerFailWarningEnd) := not_spelled _
theorem Named.dbgchal : Named.Statement (.dbgchal) := not_spelled _
theorem Named.dbgresp (scope : BitVec 32) (signer : BitVec 8) (sig : List (BitVec 8)) : Named.Statement (.dbgresp scope signer sig) := not_spelled _
theorem Named.jtagInstruction (j : Jtag) : Named.Statement (.jtagInstruction j) := not_spelled _
theorem Named.trstAssert : Named.Statement (.trstAssert) := not_spelled _
theorem Named.hostWindowRequest (write : Bool) (o : Nat) (len : Nat) (data : List (BitVec 8)) (uncorrectable : Bool) : Named.Statement (.hostWindowRequest write o len data uncorrectable) := not_spelled _
theorem Named.functionLevelReset (f : Fin 2) : Named.Statement (.functionLevelReset f) := not_spelled _
theorem Named.linkDown : Named.Statement (.linkDown) := not_spelled _
theorem Named.perst : Named.Statement (.perst) := not_spelled _
theorem Named.frameReceive (m : Fin 8) (fr : Frame) : Named.Statement (.frameReceive m fr) := not_spelled _
theorem Named.frameTransmit (m : Fin 8) : Named.Statement (.frameTransmit m) := not_spelled _
theorem Named.fabricRequestReceive (fr : FabFrame) (uncorrectable : Bool) : Named.Statement (.fabricRequestReceive fr uncorrectable) := not_spelled _
theorem Named.fabricResponseReceive (fr : FabFrame) : Named.Statement (.fabricResponseReceive fr) := not_spelled _
theorem Named.fabricRetransmit (dpkg : BitVec 8) (seq : BitVec 32) : Named.Statement (.fabricRetransmit dpkg seq) := not_spelled _
theorem Named.fabricHeartbeat : Named.Statement (.fabricHeartbeat) := not_spelled _
theorem Named.dramPatrol (chunk : Fin 131072) (corrected : Bool) (uncorrectable : Bool) : Named.Statement (.dramPatrol chunk corrected uncorrectable) := not_spelled _
theorem Named.pwrDctlWrite (d : Fin 38) (v : BitVec 64) : Named.Statement (.pwrDctlWrite d v) := not_spelled _
theorem Named.domainSwitchDone (d : Fin 38) : Named.Statement (.domainSwitchDone d) := not_spelled _
theorem Named.crownP2Entry (c : Fin 16) : Named.Statement (.crownP2Entry c) := not_spelled _
theorem Named.p2EntryTimeout (c : Fin 16) : Named.Statement (.p2EntryTimeout c) := not_spelled _
theorem Named.crownWake (c : Fin 16) : Named.Statement (.crownWake c) := not_spelled _
theorem Named.crownWakeDone (c : Fin 16) : Named.Statement (.crownWakeDone c) := not_spelled _
theorem Named.standbyEntry : Named.Statement (.standbyEntry) := not_spelled _
theorem Named.packageWake (pin : Bool) (time : Bool) : Named.Statement (.packageWake pin time) := not_spelled _
theorem Named.powerOn : Named.Statement (.powerOn) := not_spelled _
theorem Named.rstNAssert : Named.Statement (.rstNAssert) := not_spelled _
theorem Named.refclkLoss : Named.Statement (.refclkLoss) := not_spelled _
theorem Named.pllLockLoss : Named.Statement (.pllLockLoss) := not_spelled _
theorem Named.sensorSample (i : Fin 58) (v : BitVec 32) : Named.Statement (.sensorSample i v) := not_spelled _
theorem Named.supplyTrip : Named.Statement (.supplyTrip) := not_spelled _
theorem Named.thermalTrip : Named.Statement (.thermalTrip) := not_spelled _
theorem Named.watchdogExpiry : Named.Statement (.watchdogExpiry) := not_spelled _
theorem Named.watchdogKick : Named.Statement (.watchdogKick) := not_spelled _
theorem Named.packageReset (cause : BitVec 8) : Named.Statement (.packageReset cause) := not_spelled _
theorem Named.boot (b : BootIn) : Named.Statement (.boot b) := not_spelled _
theorem Named.counterClearWrite (a : Nat) : Named.Statement (.counterClearWrite a) := not_spelled _
theorem Named.registerWrite (a : Nat) (v : BitVec 64) (by_ : Agent) : Named.Statement (.registerWrite a v by_) := not_spelled _
theorem Named.macLinkUp (m : Fin 8) : Named.Statement (.macLinkUp m) := not_spelled _
theorem Named.macLinkDown (m : Fin 8) : Named.Statement (.macLinkDown m) := not_spelled _
theorem Named.rsFecLossOfLock (m : Fin 8) : Named.Statement (.rsFecLossOfLock m) := not_spelled _
theorem Named.pcieLinkUp : Named.Statement (.pcieLinkUp) := not_spelled _
theorem Named.speedOrWidthChange (speed : Fin 4) (width : Fin 4) : Named.Statement (.speedOrWidthChange speed width) := not_spelled _
theorem Named.completionTimeout (q : Fin 16) : Named.Statement (.completionTimeout q) := not_spelled _
theorem Named.serdesReferenceLoss (eth : Bool) : Named.Statement (.serdesReferenceLoss eth) := not_spelled _
theorem Named.serdesReferenceReturn (eth : Bool) : Named.Statement (.serdesReferenceReturn eth) := not_spelled _
theorem Named.txFifoByteLeaves (p : Fin 1024) : Named.Statement (.txFifoByteLeaves p) := not_spelled _
theorem Named.padFaultEnd (p : Fin 1024) : Named.Statement (.padFaultEnd p) := not_spelled _
theorem Named.pfdFmeasRead (b : Fin 64) (f : Fin 4) : Named.Statement (.pfdFmeasRead b f) := not_spelled _
theorem Named.msiXMaskClear (f : Fin 2) (vec : Fin 64) : Named.Statement (.msiXMaskClear f vec) := not_spelled _
theorem Named.freedIdentityReturn (eid : BitVec 18) : Named.Statement (.freedIdentityReturn eid) := not_spelled _
theorem Named.ptpSyncSend (m : Fin 8) : Named.Statement (.ptpSyncSend m) := not_spelled _

end Sys2Proof.Laws
end

