-- ==== Sys2Proof/Machine/Balls.lean ====
section
/-! DEFINITION. The ball map (R572, R574, R575): where on the package a pad, a feed or a single-function pin lies, and which balls an output
of State.out drives. -/
namespace Sys2Proof.Machine

/-- The letter set of R572. -/
def rowLetters : List String := ["A", "B", "C", "D", "E", "F", "G", "H", "J", "K", "L", "M", "N", "P", "T", "U", "V", "W", "Y"]
/-- The name of a row from 1 to 72 (R572). -/
def rowName (n : Nat) : String :=
  if n ≤ 19 then rowLetters.getD (n - 1) "" else rowLetters.getD ((n - 20) / 19) "" ++ rowLetters.getD ((n - 20) % 19) ""
/-- A ball is named by its row and then its column. -/
def ballName (row col : Nat) : String := rowName row ++ Nat.repr col

/-- The ball at a band row and a column of port group g: brim die 1 mirrors the columns (R574). -/
def bandBall (g r c : Nat) : String := ballName (18 * (g % 4) + r) (if g < 4 then c else 73 - c)
/-- Pad A or B of cell p (R574). -/
def padBall (p : Nat) (b : Bool) : String :=
  let i := p % 128
  bandBall (p / 128) (2 + i / 8) ((if b then 2 else 1) + 2 * (i % 8))
/-- FDG, FDP or FDN (0 to 2) of feed f of controller b, whose blocker's cells lie in group b / 8 (R570, R574). -/
def feedBall (b f k : Nat) : String := bandBall (b / 8) (2 + 2 * (b % 8) + f / 2) (17 + 3 * (f % 2) + k)
/-- The single-function balls (R575). -/
def singleBalls : List (String × String) :=
  [("REFCLK", "D36"), ("RST_N", "D37"), ("PFW_N", "D38"), ("WAKE_IN", "D39"), ("PPS_IN", "D40"), ("PPS_OUT", "D41"), ("TCK", "E36"),
   ("TMS", "E37"), ("TDI", "E38"), ("TDO", "E39"), ("TRST_N", "E40"), ("PERST_N", "E41")]

/-- The balls whose level an output gives. -/
def outBalls : Out → List String
  | .pin _ _ => ["D41"]
  | .gate b f _ => [feedBall b f 0]
  | .pads p _ _ => [padBall p false, padBall p true]
  | .wave x _ _ => [padBall (x / 2) (x % 2 == 1)]
  | _ => []

end Sys2Proof.Machine
end

