-- ==== Sys2Proof/Tests/Slice0.lean ====
section
/-! SUPPORT. Tests: for each statement concrete states and commands that meet its hypotheses, single steps and the manual's worked examples, and for
each check of WellFormed a command that it refuses. -/

namespace Sys2Proof.Tests
open Sys2Proof Sys2Proof.Machine Sys2Proof.Claims
set_option Elab.async false

/-- A facet with RUN = 1 and window 0 over its first store through K1. K2 is a sealing authority, K3 is sealed, K4 and K5 are a sealed pair. -/
def readyFacet : Facet :=
  { ctl := 1,
    g := [(1, 7), (2, 9), (3, 5), (4, 0x010000000100), (5, 0x010000000000), (6, 1), (7, 2)],
    a := [(1, 0x010000000200), (2, 0x010000000400), (4, 0x010000000110), (8, 0x011000000000)],
    w := [(0, 0x1001010000000000)],
    k := [(1, ⟨mkCap 1 1 0 0x0C1B 0x8000 0x010000000000, true⟩), (2, ⟨mkCap 1 1 0 0x0060 0 0, true⟩),
      (3, ⟨mkCap 1 1 0x0105 0x0003 1 0x010000000000, true⟩), (4, ⟨mkCap 1 1 0x8105 0x0004 1 0x010000080000, true⟩),
      (5, ⟨mkCap 1 1 0x0105 0x0003 1 0x010000000000, true⟩),
      (6, ⟨mkCap 1 1 0 0x0003 16 0x011000000000, true⟩)] }
def ready : State := setFacet 0 readyFacet State.reset

/-- An operand that fits a role. -/
def sampleSpec (r : Role) (d : DT) (i : Nat) : BitVec 16 :=
  match r with
  | .none => 0
  | .src | .dst | .both => match d with
    | .vec _ => BitVec.ofNat 16 (2 * i)
    | .sc 16 _ _ => BitVec.ofNat 16 (2 * i)
    | _ => BitVec.ofNat 16 (0x2001 + i)
  | .memSrc | .memDst | .memBoth => 6
  | .gSrc | .gDst | .gBoth => if i = 2 then 0x2006 else if i = 0 then 0x2003 else 0x2002
  | .gaSrc => 0x2004
  | .gaDst => 0x2001
  | .accSrc | .accDst => 0x3001
  | .imm => 0xE000
  | .pSrc | .pDst => if i = 0 then 0x4041 else 0x4081
  | .target | .pushOrTarget => 0xE005
  | .leaSrc => 2
  | .gOrImm | .gOrMem => 0x2002
def sampleC (k : OpKind) (x : BitVec 16) : BitVec 16 :=
  match k with
  | .rld | .rst | .radd => 0xE211
  | .rtas => 0xE011
  | .ldr | .stc => 0xE316
  | .extr | .ins => 0xE204
  | .ret => 0xE002
  | .mfs | .mts => 0xE004
  | .mbxput | .mbxget => 0xE001
  | .kenter => 0xE054
  | .kseal => 0xE216
  | .kunseal => 0xE236
  | .kmov | .kclr | .kbnd | .kmask | .kget | .kld | .kst => 0xE016
  | _ => x
/-- An operation word that fits an operation. -/
def sample (k : OpKind) : OpW :=
  let z : BitVec 3 := BitVec.ofNat 3 (((List.range 8).find? fun z => tzAllowed k z).getD 0)
  let w : OpW := ⟨true, 0, z, 0, 0, 0⟩
  let c := sampleC k (sampleSpec (roles k).2.2 (operandDT k w 2) 2)
  let w := { w with c := c }
  { w with
    a := if k = .kbnd then 0x2005 else sampleSpec (roles k).1 (operandDT k w 0) 0
    b := if k = .loop then 0xE401 else if k = .kbnd then 0x2006 else if k = .ldr ∨ k = .stc then 0x2808 else sampleSpec (roles k).2.1 (operandDT k w 1) 1 }

def issuesAlone (n : Fin 128) (o : Op) (s : State) : Bool :=
  canIssue s n && o.w.stop && (facet s n).bundle.isEmpty && !((issueReads s n [o]).any (wordBad s))
    && (bundleCause (landDue n s) n (dueLands (facet s n)) [o]).isNone && !suppressed (facet (landDue n s) n) o


theorem issuesAlone_of {n : Fin 128} {o : Op} {s : State} (h : issuesAlone n o s = true) : IssuesAlone n o s := by
  simp only [issuesAlone, Bool.and_eq_true, Bool.not_eq_true', List.isEmpty_iff, Option.isNone_iff_eq_none] at h
  obtain ⟨⟨⟨⟨⟨h1, h2⟩, h3⟩, h4⟩, h5⟩, h6⟩ := h
  exact ⟨h1, h2, h3, h4, h5, h6⟩

/-- A facet in an exception handler at level 1, which a RETX leaves for operation 9 at level 0. -/
def inHandler (st : BitVec 64) : State :=
  setFacet 0 { readyFacet with fs := 0x102, xst := [(1, st)], xpc := [(1, 0x48)] } State.reset
/-- Source 5 of facet 0 requests. -/
def requested (cfg : BitVec 64) (s : State) : State := { setIntSrc 0 5 { cfg := cfg, pending := true } s with intWas := [] }

/-- The hypotheses of the statements on facet operations are met, by every operation but RETX in one state. -/
theorem witness_facet_operations : ∀ p ∈ facetOps, p.1 ≠ .retx → IssuesAlone 0 (op p.1 (sample p.1)) ready := by
  intro p hp hr
  have h : (facetOps.filter (·.1 ≠ .retx)).all (fun p => issuesAlone 0 (op p.1 (sample p.1)) ready) = true := by decide +kernel
  exact issuesAlone_of (List.all_eq_true.mp h p (by simp [hp, hr]))

/-- The facet in its handler that a RETX has drained, at X1. -/
def atReturn (fs st : BitVec 64) : State :=
  setFacet 0 { readyFacet with fs := fs, xst := [(1, st)], xpc := [(1, 0x48)], wait := .retx 0 } State.reset
/-- ReturnFromException: the drain; at X1 without and with a level 1 request in the way. -/
theorem witness_ReturnFromException :
    IssuesAlone 0 (op .retx (sample .retx)) (inHandler 0x100) ∧ (facet (atReturn 0x102 0x100) 0).wait = .retx 0 ∧ 0 ≤ (atReturn 0x102 0x100).fclk ∧
    request (atReturn 0x102 0x101) 0 false = false ∧
    (let x := requested 1 (atReturn 0x102 0x101)
     (facet x 0).wait = .retx 0 ∧ request x 0 false = true ∧ request x 0 true = false ∧ fsLVL (facet x 0).fs = 1 ∧
      fsLVL (tget 0 (facet x 0).xst 1) = 0 ∧ fsIE (tget 0 (facet x 0).xst 1) = true) :=
  ⟨issuesAlone_of (by decide +kernel), by decide +kernel, by decide +kernel, by decide +kernel, by decide +kernel⟩

/-- OperationJoinsBundle and LiteralJoinsOrIssues: an operation without STOP; a LIT that issues. -/
theorem witness_joins : canIssue ready 0 = true ∧ (facet ready 0).bundle.length < 7 ∧ IssuesAlone 0 ⟨.lit, ⟨true, 0, 0, 0, 0, 0⟩, 5⟩ ready :=
  ⟨by decide +kernel, by decide +kernel, issuesAlone_of (by decide +kernel)⟩

/-- FailingBundlePresentsCause: a division by G0; an operation that stores through the sealed K3. -/
theorem witness_FailingBundlePresentsCause :
    bundleCause (landDue 0 ready) 0 (dueLands (facet ready 0)) [op .div { sample .div with c := 0x2000 }] = some 12 ∧
    bundleCause (landDue 0 ready) 0 (dueLands (facet ready 0)) [op .rst { sample .rst with c := 0xE213 }] = some 5 := by decide +kernel

/-- ZeroRegister: an addition into G0. -/
theorem witness_ZeroRegister : IssuesAlone 0 (op .add { sample .add with a := 0x2000 }) ready := issuesAlone_of (by decide +kernel)

/-- BranchTaken: BRC taken with C = 0 on G6 = 1, and not taken with C = 1. CallAndReturn: each form. -/
theorem witness_branches : (seen 0 ready).repeating = false ∧ branchTarget (seen 0 ready) [] 0xE005 = .ok 5 ∧
    IssuesAlone 0 (op .brc { sample .brc with a := 0x2006, c := 0xE000 }) ready ∧ gRead (seen 0 ready) (spReg 0x2006) = 1 ∧
    IssuesAlone 0 (op .brc { sample .brc with a := 0x2006, c := 0xE001 }) ready ∧
    IssuesAlone 0 (op .call { sample .call with c := 0xE000 }) ready ∧ IssuesAlone 0 (op .call { sample .call with b := 0x2001, c := 0xE001 }) ready ∧
    IssuesAlone 0 (op .ret { sample .ret with a := 0, c := 0xE000 }) (setFacet 0 { readyFacet with depth := 1 } ready) ∧
    IssuesAlone 0 (op .ret { sample .ret with a := 0x2001, c := 0xE001 }) (setFacet 0 { readyFacet with depth := 16 } ready) ∧
    IssuesAlone 0 (op .ret { sample .ret with a := 0x2001, c := 0xE002 }) ready := by
  refine ⟨by decide +kernel, rfl, issuesAlone_of ?_, by decide +kernel, issuesAlone_of ?_, issuesAlone_of ?_, issuesAlone_of ?_,
    issuesAlone_of ?_, issuesAlone_of ?_, issuesAlone_of ?_⟩ <;> decide +kernel

/-- SystemRegisterMoves: a claim; MailboxOperations: a credit and a staged response; BRK with C = 1; EFTST and EWAIT that clear. -/
theorem witness_control_forms : IssuesAlone 0 (op .mfs { sample .mfs with c := 0xE040 }) ready ∧ IssuesAlone 0 (op .mfs { sample .mfs with c := 0xE041 }) ready ∧
    IssuesAlone 0 (op .mbxput (sample .mbxput)) (setFacet 0 { readyFacet with credits := 1 } ready) ∧
    IssuesAlone 0 (op .mbxget (sample .mbxget)) (setFacet 0 { readyFacet with staging := [5] } ready) ∧
    IssuesAlone 0 (op .brk { sample .brk with c := 0xE001 }) ready ∧ IssuesAlone 0 (op .eftst { sample .eftst with c := 0xE001 }) ready := by
  refine ⟨issuesAlone_of ?_, issuesAlone_of ?_, issuesAlone_of ?_, issuesAlone_of ?_, issuesAlone_of ?_, issuesAlone_of ?_⟩ <;> decide +kernel


def withFacet (f : Facet) : State := setFacet 0 f State.reset
/-- A facet whose vectors are enabled, with an entry due. -/
def entering (fs : BitVec 64) : State := withFacet { ctl := 1, fs := fs, xvb := 0x1001, due := some .syscall }

/-- EventFlags, waits, landing, loop ends: the facet events of the facet statements come about. -/
theorem witness_facet_landing :
    dueLands (facet (withFacet { ctl := 1, flights := [⟨1, .g 7 5⟩] }) 0) = [.g 7 5] ∧
    dueLands (facet (withFacet { ctl := 1, flights := [⟨1, .a 15 5⟩] }) 0) = [.a 15 5] ∧
    dueLands (facet (withFacet { ctl := 1, flights := [⟨1, .k 0 15 {}⟩, ⟨2, .g 1 1⟩] }) 0) = [.k 0 15 {}] ∧
    crownUp (withFacet {}) (crownOf 0) = true := by decide +kernel

/-- LoopEndActionTaken: level 3 ends and goes back; level 0 ends for the last time; no level ends. -/
theorem witness_LoopEndActionTaken :
    let f : Facet := { loopAct := true, lastEnd := 9, lc := [(0, 1), (3, 2)], le := [(0, 0x48), (3, 0x48)], ls := [(3, 0x20)] }
    let g : Facet := { loopAct := true, lastEnd := 9, lc := [(0, 1)], le := [(0, 0x48)] }
    loopEndsAt f 9 3 = true ∧ fld (tget 0 f.lc 3) 0 17 = 2 ∧ loopEndsAt g 9 0 = true ∧ (∀ k ∈ [1, 2, 3], loopEndsAt g 9 k = false) ∧
    (∀ l ∈ List.range 4, loopEndsAt ({ loopAct := true, lastEnd := 9 } : Facet) 9 l = false) := by decide +kernel

/-- ExceptionEntryTaken at level 1 and level 3; ExceptionEntryResets at level 3 and with XVB.V = 0. -/
theorem witness_ExceptionEntry :
    let atB (s : State) : State := advanceTo (boundaryAt s 0) s
    let noVectors : State := withFacet { ctl := 1, due := some .brk }
    (canEnter (atB (entering 0x100)) 0 = true ∧ firstEntry (atB (entering 0x100)) 0 = some (.after .syscall) ∧
      entryLevel (.after .syscall) (fsLVL (facet (boundary 0 (atB (entering 0x100))) 0).fs) = some 1 ∧
      bit (facet (drainFacet 0 (boundary 0 (atB (entering 0x100)))) 0).xvb 0 = true) ∧
    (canEnter (atB (entering 0x102)) 0 = true ∧ firstEntry (atB (entering 0x102)) 0 = some (.after .syscall) ∧
      entryLevel (.after .syscall) (fsLVL (facet (boundary 0 (atB (entering 0x102))) 0).fs) = some 3) ∧
    (canEnter (atB (entering 0x106)) 0 = true ∧ entryLevel (.after .syscall) (fsLVL (facet (boundary 0 (atB (entering 0x106))) 0).fs) = none) ∧
    (canEnter (atB noVectors) 0 = true ∧ firstEntry (atB noVectors) 0 = some (.after .brk) ∧
      bit (facet (drainFacet 0 (boundary 0 (atB noVectors))) 0).xvb 0 = false) := by decide +kernel

/-- StoreLandsAtItsBytes: 16 bytes at a word, and the last byte of one. FacetResetClears, FacetEventsHappen: outside and inside a partition. -/
theorem witness_store_and_partition :
    (∀ k ∈ State.reset.marks, k.word ≠ wordOf 0x010000000010) ∧ 0x010000000010 % 16 + 16 ≤ 16 ∧ 0x01000000001F % 16 + 1 ≤ 16 ∧
    inPartition State.reset 0 = false ∧ inPartition { State.reset with locks := { facets := [0] } } 0 = true := by decide +kernel

/-- WaitsEnd: a TWAIT, an EWAIT with a flag set and one with mask 0, a finished BFILL. -/
theorem witness_WaitsEnd :
    (let s := withFacet { ctl := 1, wait := .time 0 5 3 }
     mayEnd s 0 = true ∧ mayEnd (advanceTick 5 (advanceTo 1 s)) 0 = true) ∧
    (let s := withFacet { ctl := 1, ef := 8, wait := .event 0 8 true 3 }
     mayEnd s 0 = true ∧ mayEnd (advanceTo 1 s) 0 = true ∧ (facet (advanceTo 1 s) 0).ef &&& 8 ≠ 0) ∧
    mayEnd (advanceTo 1 (withFacet { ctl := 1, wait := .event 0 0 true 3 })) 0 = true ∧
    (let s := withFacet { ctl := 1, wait := .long ⟨op .bfill (sample .bfill), 0, 0, 7⟩ }
     let u := longProgress 0 (advanceTo (longEnd (facet s 0) ⟨op .bfill (sample .bfill), 0, 0, 7⟩) s)
     mayEnd s 0 = true ∧ mayEnd u 0 = true ∧ longCount (facet u 0) (op .bfill (sample .bfill)) = 0) := by decide +kernel

/-- FacetEventsHappen: a halt, a flush under way, a hold overrun due and one that counts. FacetRegisterBlockTakesWrites: a halted and a
running facet. -/
theorem witness_FacetEvents :
    (let s := withFacet { ctl := 0 }
     canHalt (advanceTo (boundaryAt s 0) s) 0 = true) ∧
    bit (facet (withFacet { ctl := 6 }) 0).ctl 2 = true ∧
    (let s := requested 1 (withFacet { ctl := 1, fs := 0 })
     holdCounts s 0 (facet s 0) = true ∧ (facet s 0).holdDue = false) ∧
    domServes State.reset (crownOf 127) = true ∧ bit (facet State.reset 127).ctl 1 = true ∧ bit (facet (withFacet { ctl := 1 }) 0).ctl 1 = false := by
  decide +kernel

def aRemote (k : OpKind) : Remote := ⟨3, k, 8, 0x011000000040, 0x010000000060, [1, 2, 3, 4, 5, 6, 7, 8], 0x0003, false⟩
def remoteOut (k : OpKind) : State := withFacet { ctl := 1, remotes := [aRemote k] }

/-- RemoteOperationCompletes: each operation on a word of a crown store; a store to a place that refuses it. -/
theorem witness_RemoteOperationCompletes :
    (∀ k ∈ [OpKind.rld, .rst, .radd, .rtas, .ldr, .stc], ((facet (remoteOut k) 0).remotes.find? fun q => q.idx == 3) = some (aRemote k) ∧
      ((facet (remoteOut k) 0).remotes.find? fun q => q.target == (aRemote k).target) = some (aRemote k) ∧
      rangeServed (remoteOut k) (aRemote k).target ((aRemote k).target + 8) = true ∧ domServes (remoteOut k) (crownOf 0) = true ∧
      rangeBad (remoteOut k) (aRemote k).target 8 = false ∧ partitionRefuses (remoteOut k) (aRemote k).target (.facet 0) = false ∧
      (readAt (.facet 0) 3 (aRemote k).target 8 (remoteOut k)).1 = some [0, 0, 0, 0, 0, 0, 0, 0]) ∧
    (writeAt (.facet 0) 3 (aRemote .rst).target (aRemote .rst).data (remoteOut .rst)).1 = true ∧
    (let s : State := { State.reset with locks := { facets := [1] } }
     (writeAt (.facet 0) 3 (facetBase 1) [1] s).1 = false) ∧
    holdsResv (withFacet { resv := some (0x011000000040, 4096) }) 0 0x011000000040 = true := by decide +kernel

def srcState (k i : Nat) (x : IntSrc) : State := { setIntSrc k i x State.reset with intWas := [] }

/-- InterruptClaimAndEnd: nothing to claim and a source to claim; sources active, level, locked. -/
theorem witness_InterruptClaimAndEnd :
    ctlUp State.reset 128 = true ∧ ctlUp State.reset 0 = true ∧ claimPick State.reset 0 false = none ∧
    ((claimPick (srcState 0 63 { cfg := 1, pending := true, evcnt := 1023 }) 0 false).map (·.1)) = some 63 ∧
    ((claimPick (srcState 0 0 { cfg := 3, pending := true }) 0 true).map (·.1)) = some 0 ∧
    isSource 128 1022 = true ∧ isSource 128 1023 = false ∧ isSource 0 63 = true ∧ isSource 0 64 = false ∧ isLevelSrc 0 48 = true ∧ isLevelSrc 128 255 = true ∧
    isLevelSrc 128 256 = false ∧ srcLocked { State.reset with locks := { srcs := [5] } } 0 5 = true ∧ srcLocked State.reset 0 5 = false := by
  decide +kernel

/-- InterruptSourcesTakeEvents: at the end of the filter time and one clock before it; a level that settles; a batch timer. -/
theorem witness_InterruptSources :
    (let x : IntSrc := { cfg := 0x300, lastAcc := some 10 }
     fltLen x = 4 ∧ 10 + fltLen x ≤ 14 ∧ 13 < 10 + fltLen x) ∧
    intClock { State.reset with fclk := 14 } 0 = 14 ∧
    (let s := srcState 0 48 { raw := true, cfg := 0x400 }
     isLevelSrc 0 48 = true ∧ (intSrc s 0 48).raw ≠ (intSrc s 0 48).flevel) ∧
    (intSrc (srcState 0 7 { deadline := some 64 }) 0 7).deadline = some 64 := by decide +kernel


/-- Registers that differ from their reset values. -/
def withRegs (l : List (Nat × Nat)) (s : State) : State := l.foldl (fun s p => rset p.1 (BitVec.ofNat 64 p.2) s) s
/-- A domain in a state of R537. -/
def inDom (d st : Nat) (s : State) : State := rput (girdle (0x1000 + 8 * d)) 0 3 st s

/-- Dram: a chunk that fills with a write held for it; a touched chunk whose channels are on. -/
theorem witness_Dram :
    (let s : State := { State.reset with fills := [1], heldWrites := [⟨0x200000, [7], .steward⟩] }
     s.fills = [1] ∧ (s.heldWrites.filter fun w => chunkOf w.addr == 1) = [⟨0x200000, [7], .steward⟩]) ∧
    (let s : State := { State.reset with touched := [0] }
     s.touched.contains 0 = true ∧ domState s 37 = 1) := by decide +kernel

def storePage : Nat := 0x010000000000 / 2048

/-- ReconstructionAndSeams: two erased words are rebuilt, three are not; a bad side byte alone, and beside an erased word; the eighth replay. -/
theorem witness_ReconstructionAndSeams :
    isCoded (storePage * 2048) = true ∧ erasedIn State.reset (storePage * 2048) [3, 127] = [3, 127] ∧
    (reconstructPage storePage 0 [] true State.reset).1 = true ∧ (reconstructPage storePage 0 [3] true State.reset).1 = false ∧
    (erasedIn State.reset (storePage * 2048) [0, 1, 2]).length = 3 ∧
    (let s : State := { State.reset with fclk := 48, pwr := { seams := [(0, (7, 0))] } }
     tget (0, 0) s.pwr.seams 0 = (7, 0) ∧ s.fclk ≤ 0 + 48) := by decide +kernel

/-- ScrubAndChecker: the whole store and one page beyond; a pass under way; the checker on a halted and on a running facet. -/
theorem witness_ScrubAndChecker :
    (scrubBadStore 0 0 = false ∧ fld (started 0x10000000000) 0 11 + fld (started 0x10000000000) 32 12 ≤ scrubPages 0 0) ∧
    ¬ (fld (started 0x10000000001) 0 11 + fld (started 0x10000000001) 32 12 ≤ scrubPages 0 0) ∧ scrubBadStore 0 3 = true ∧
    (let s : State := { State.reset with integ := [(0, { scrub := some (0, 0, 0, 1) })] }
     (integ s 0).scrub = some (0, 0, 0, 1) ∧ crownUp s 0 = true ∧ retireCopies s 0 = false) ∧
    testRefused State.reset 0 (started 0) = false ∧ testRefused (withFacet { ctl := 1 }) 0 (started 0) = true := by decide +kernel

/-- RetirementAndPounce: page 0 of facet store 0 may be retired; a page retired already; a retirement and a test under way; a test due. -/
theorem witness_RetirementAndPounce :
    (fld (started 0) 60 2 ≠ 3 ∧ fld (started 0) 0 11 < storePages 0 ∧ (integ State.reset 0).redir.any (fun r => r.1 == pageLin 0 0 0) = false ∧
      1 < (freeSpares State.reset 0 (pageLin 0 0 0)).length ∧ (integ State.reset 0).retiring = none) ∧
    (let s : State := { State.reset with integ := [(0, { redir := [(2080, 0)] })] }
     (integ s 0).redir.any (fun r => r.1 == pageLin 0 0 0) = true) ∧
    (let s : State := { State.reset with integ := [(0, { retiring := some 2080 })] }
     ((freeSpares s 0 2080).head?) = some 0 ∧ copyServed s 0 = true ∧ retireCopies s 0 = true ∧
       ((linAddr 0 2080).all fun a => (devWords s a).isEmpty) = true) ∧
    (let s : State := withRegs [(itgU 0 0, 1)] State.reset
     nextTest s 0 (integ s 0).next = some 0 ∧ rbit s (itgU 0 0) 0 = true ∧ (integ s 0).test = none ∧ (integ s 0).retiring = none ∧ crownUp s 0 = true ∧
       ((linAddr 0 0).all fun a => (devWords (advanceTo (integ s 0).due s) a).isEmpty) = true) ∧
    (∀ st ∈ [1, 3], let s : State := rput (itgU 0 0x40) 60 3 st { State.reset with fclk := 9, integ := [(0, { test := some (0, 3), copy := some 9 })] }
     (integ s 0).copy = some 9 ∧ rfld s (itgU 0 0x40) 60 3 = st) ∧
    (let s : State := rput (itgU 0 0x40) 60 3 1 { State.reset with integ := [(0, { test := some (0, 3), copy := some 9 })] }
     (integ s 0).test = some (0, 3) ∧ (integ s 0).scrub = none ∧ crownUp s 0 = true ∧ rfld s (itgU 0 0x40) 60 3 ≠ 3 ∧
       ((linAddr 0 0).all fun a => (devWords (advanceTo (copyEnd s 0) s) a).isEmpty) = true) := by decide +kernel

/-- Channel 0 copies two elements of 8 bytes from the store of facet 0 to 0x100 further on. -/
def mover : State :=
  let cap := (mkCap 1 1 0 0x0003 0x8000 0x010000000000).toNat
  withRegs [(chanReg 0 0x20, 0x010000000000), (chanReg 0 0x28, 3 * 2 ^ 32 + 2 ^ 16 + 2), (chanReg 0 0x30, 8),
    (chanReg 0 0x40, 0x010000000100), (chanReg 0 0x48, 3 * 2 ^ 32 + 2 ^ 16 + 2), (chanReg 0 0x50, 8),
    (chanReg 0 0x80, cap % 2 ^ 64), (chanReg 0 0x88, cap / 2 ^ 64), (chanReg 0 0x90, cap % 2 ^ 64), (chanReg 0 0x98, cap / 2 ^ 64), (chanReg 0 0xA0, 3)]
    State.reset
/-- The channel in a state with bytes left. -/
def moving (st : Nat) (c : Chan) : State := setChan 0 c (setChanState 0 st mover)

/-- MoversStart and MoverBurst: a start that passes, one that fails (no capability), one of a busy channel; a burst of 16 bytes granted. -/
theorem witness_MoversStart :
    (domServes mover (chanDomain 0) = true ∧ chanState mover 0 = 0 ∧ startCheck mover 0 = 0 ∧ (chan mover 0).startAt ≠ some mover.fclk) ∧
    (chan mover 0).missAt = none ∧ (chan mover 0).startNext = false ∧ (chan mover 0).idleAt ≠ some mover.fclk ∧
    (chan (setChan 0 { idleAt := some mover.fclk } mover) 0).idleAt = some mover.fclk ∧ crownUp (inDom 0 2 State.reset) 0 = false ∧
    domServes (inDom 0 2 State.reset) (chanDomain 0) = true ∧
    startCheck State.reset 0 ≠ 0 ∧ chanState (moving 2 { rem := 16 }) 0 ≠ 0 ∧
    (let s := moving 2 { rem := 16 }
     (engine s (engineOf 0)).busy ≤ s.fclk ∧ burstSize s 0 = 16 ∧ nextGrant s (engineOf 0) = some 0 ∧ burstBad s 0 16 = false ∧
       (chanDomains s 0).any (domGone s) = false) := by decide +kernel

/-- MoverBeatCopies, at the first and at the last element. -/
theorem witness_MoverBeatCopies :
    ∀ j ∈ [0, 1], let s := moving 3 { rem := 0, rpos := j, took := j, wpos := j }
    let x := side s 0 false
    let y := side s 0 true
    x.ew = y.ew ∧ x.ew ≤ 4 ∧ x.elem j % 8 = 0 ∧ y.elem j % 8 = 0 ∧ isOnDie (x.elem j) = true ∧ isOnDie (y.elem j) = true ∧
    partitionRefuses s (x.elem j) (.mover 0) = false ∧ partitionRefuses s (y.elem j) (.mover 0) = false ∧ remoteSide s 0 false = none ∧
    remoteSide s 0 true = none ∧ chanGoes s 0 = true ∧ (chan s 0).hold = [] ∧ s.marks = [] ∧ s.fills = [] := by decide +kernel

/-- MoverEnds: complete, stopped, drained, resumed, timed out. -/
theorem witness_MoverEnds :
    (let s := moving 3 { rem := 0, rpos := 2, took := 2, wpos := 2 }
     chanState s 0 = 3 ∧ (chan s 0).ending = 0 ∧ chanWaits s 0 = false) ∧
    (let s := moving 3 { rem := 8, ending := 13 }
     chanState s 0 ≠ 0 ∧ (chan s 0).ending ≠ 0 ∧ chanWaits s 0 = false) ∧
    (let s := moving 2 { rem := 8, drain := some 0 }
     domServes s (chanDomain 0) = true ∧ (0 : Nat) ∉ s.locks.chans ∧ 2 ≤ chanState s 0 ∧ (chan s 0).drain.isSome = true ∧ chanWaits s 0 = false ∧
       (∀ w ∈ s.heldWrites, w.who ≠ .mover 0) ∧ (chanDomains s 0).any (domGone s) = false) ∧
    (let s := moving 1 { rem := 8 }
     chanState s 0 = 1 ∧ ∀ d ∈ chanDomains s 0, domState s d = 1) := by decide +kernel

/-- TimeStepsAndCheckWords: a step and a rate point reached; rates at the bounds; a step armed at the earliest tick. -/
theorem witness_TimeSteps :
    (let t : TimeBase := { tick := 100, step := some (5, 200) }
     200 ≤ (runTb (fclkTo t 200) t).tick) ∧
    (let t : TimeBase := { tick := 100, pend := some (1000, 1024) }
     1024 ≤ (runTb (fclkTo t 1024) t).tick) ∧
    (sgn 32 2147483 = 2147483 ∧ sgn 32 (2 ^ 32 - 2147483) = -2147483 ∧ 2147483 < sgn 32 2147484) ∧
    State.reset.tb.tick + 4096 ≤ (rget (withRegs [(timReg 0x30, 4096)] State.reset) (timReg 0x30)).toNat ∧
    (rget (withRegs [(timReg 0x30, 4095)] State.reset) (timReg 0x30)).toNat < State.reset.tb.tick + 4096 := by decide +kernel

/-- PulsesAndServo: an edge, a missing edge, PPS_OUT high; PTP on with a link and a sample behind it. -/
theorem witness_PulsesAndServo :
    true ≠ rbit State.reset (timReg 0) 6 ∧ false = rbit State.reset (timReg 0) 6 ∧
    (let s : State := withRegs [(timReg 0, 2)] { State.reset with disc := { ppsFrom := some 7, ppsHigh := some 9 } }
     s.disc.ppsFrom = some 7 ∧ 2 ≤ timSrc s ∧ s.disc.ppsHigh = some 9) ∧
    (let s : State := withRegs [(timReg 0, 1), (macReg 0 0, 1)] { State.reset with disc := { enabled := 1, lastAt := some 5 } }
     timSrc s = 1 ∧ s.disc.enabled.getLsbD 0 = true ∧ domState s 36 = 1 ∧ s.disc.lastAt = some 5 ∧ rbit s (timReg 0x40) 1 = false ∧
       rbit s (macReg 0 0) 0 = true) := by decide +kernel

/-- LaunchTimers: an armed timer, a locked one, a period at the bound. -/
theorem witness_LaunchTimers :
    rbit (withRegs [(ltim 511 16, 3), (ltim 511 8, 2)] State.reset) (ltim 511 16) 0 = true ∧
    0 < rfld (withRegs [(ltim 511 16, 3), (ltim 511 8, 2)] State.reset) (ltim 511 8) 0 32 ∧ timerLocked State.reset 0 = false ∧
    timerLocked { State.reset with locks := { timers := [0] } } 0 = true ∧
    (∀ o ∈ [16, 8], (setTimWrites [(0, (o, 3))] State.reset).timWrites = [(0, (o, 3))]) := by decide +kernel

/-- A hatband whose sink `n` of the live bank listens to event 5. -/
def listening (n : Nat) : State := poke (hatBankBase 0 + 0x7000 + 2 * n) [5, 0x80] State.reset
def fired : State := { listening 0x800 with pulses := [⟨0, 5, 0, 0⟩] }

/-- Hatband: a pulse due at a facet's event flag; a sink of a domain that is off; banks free, armed and copying; a member's fabric event. -/
theorem witness_Hatband :
    (let u := advanceTo 16 (setPulses [] fired)
     (fired.pulses.find? fun p => p.ev == 5) = some ⟨0, 5, 0, 0⟩ ∧ sinksOf u 0 5 = [0x800] ∧ sinkOff u 0x800 = false) ∧
    (let u := advanceTo 16 (setPulses [] (inDom 0 4 fired))
     sinkOff u 0x800 = true) ∧
    (let s := withRegs [(hatReg 8, 4096)] State.reset
     rbit s (hatReg 0) 2 = false ∧ rbit s (hatReg 0) 1 = false ∧ s.tb.tick + 4096 ≤ (rget s (hatReg 8)).toNat) ∧
    rbit (withRegs [(hatReg 0, 4)] State.reset) (hatReg 0) 2 = true ∧
    (rbit (withRegs [(hatReg 0, 2)] State.reset) (hatReg 0) 1 = true ∧ Memory.wf State.reset.mem = true) := by decide +kernel

/-- A fabric with package 2 in it, seen from package 1. -/
def joined : State := withRegs [(macReg 0 0, 0x81), (hatReg 0x18, 2 ^ 63 + 7 * 2 ^ 16 + 5)]
  { State.reset with fabric := { joined := true, fabid := 9, macs := 1, present := [2], stations := [(2, 0x10)] } }
def eventFrame (ty : BitVec 4) (code : BitVec 16) (payload : List Byte) : FabFrame :=
  let f : FabFrame := ⟨0x10, 1, ty, 0, 2, BitVec.ofNat 8 (localPkg joined), 9, 1, code, 0, payload, 0⟩
  { f with crc := fabCrc f }


/-- FabricEvents: an event in the permitted range, at both its ends; a frame whose CRC fails; a frame answered before; a due event. -/
theorem witness_FabricEvents :
    (∀ e ∈ [5, 7], let fr := eventFrame 6 0 (natBytes 8 e)
      domState joined 36 = 1 ∧ fabBad joined fr = false ∧ (tget [] joined.fabric.seen fr.spkg.toNat).find? (fun p => p.1 == fr.seq.toNat) = none ∧
      bit (rget joined (hatReg 0x18)) 63 = true ∧ fld (rget joined (hatReg 0x18)) 0 12 ≤ bytesNat fr.payload % 4096 ∧
      bytesNat fr.payload % 4096 ≤ fld (rget joined (hatReg 0x18)) 16 12) ∧
    (let fr := { eventFrame 6 0 (natBytes 8 5) with crc := 0 }
     fabMember joined fr = true ∧ fabBad joined fr = true) ∧
    fabMember joined { eventFrame 6 0 (natBytes 8 5) with fabid := 8 } = false ∧
    (let s := setFabric { joined.fabric with seen := [(2, [(1, eventFrame 4 0 [])])], events := [(5, 100, 7)] } joined
     ((tget [] s.fabric.seen 2).find? (fun p => p.1 == 1)) = some (1, eventFrame 4 0 []) ∧ nextFabricEvent s 5 = some (5, 100, 7)) := by
  decide +kernel

def withCell (c : Cell) : State := setCell 0 c State.reset
/-- Cell 0 with pads of FUNC 4, bytes of 8 bits of 100 FCLK and a burst format of 4 bytes of which 2 are kept. -/
def cellSet (c : Cell) : State := withRegs [(cellReg 0 8, 4 * 2 ^ 12), (cellReg 0 0x10, 100), (cellReg 0 0x18, 2 * 2 ^ 16 + 1 * 2 ^ 32 + 4)] (withCell c)

/-- GroupsAndFeeds: voltages at the bounds of both windows and beyond; a group and a cell that may be enabled; a locked cell. -/
theorem witness_Groups :
    (vioIn 3000 false = true ∧ vioIn 3600 false = true ∧ vioIn 3601 false = false ∧ vioIn 1620 true = true ∧ vioIn 1980 true = true ∧ vioIn 1619 true = false) ∧
    groupUp State.reset 7 = true ∧ (let s := withRegs [(grpReg 7 0, 1)] State.reset
      rbit s (grpReg 7 8) 19 = false ∧ rbit s (grpReg 7 0) 0 = true) ∧
    (let s := withRegs [(grpReg 7 8, 3300)] State.reset
     rbit s (grpReg 7 0) 0 = false ∧ vioIn (rfld s (grpReg 7 8) 0 16) (bit (1 : BitVec 64) 1) = true) ∧
    (let s := withRegs [(grpReg 0 0, 1), (cellReg 0 0x10, 100)] State.reset
     cellOn s 0 = true ∧ rbit s (cellReg 0 0) 6 = false ∧ rbit s (cellReg 0 0) 0 = false ∧ rbit s (grpReg (groupOf 0) 0) 0 = true ∧
       cellBad s 0 (ctlFields (rget s (cellReg 0 0)) 1 (cellBusy s 0)) (rget s (cellReg 0 8)) (rget s (cellReg 0 0x10)) (rget s (cellReg 0 0x18)) = false) ∧
    (0 : Nat) ∈ ({ State.reset with locks := { cells := [0] } } : State).locks.cells := by decide +kernel

/-- CellData and CellInputs: a full FIFO; a burst with bytes to receive and to send, and one that is done; a measurement; a shift queue. -/
theorem witness_Cells :
    cellOn State.reset 1023 = true ∧ windowOk State.reset 0 .steward = true ∧ windowOk { State.reset with locks := { cells := [0] } } 0 .steward = false ∧
    (cell (withCell { tx := List.replicate 256 0 }) 0).tx.length = 256 ∧
    (let s := cellSet { tx := [9], burst := some ⟨0, [1, 2, 3, 4], 4, 0, 1⟩ }
     (cell s 0).burst = some ⟨0, [1, 2, 3, 4], 4, 0, 1⟩ ∧ hasInput s 0 = true ∧ rbit s (cellReg 0 0x18) 48 = false ∧ 0 < rfld s (cellReg 0 0x18) 0 9 ∧ (cell s 0).tx ≠ [] ∧
       fld (rget s (cellReg 0 0x18)) 32 8 ≤ 1 ∧ 1 < fld (rget s (cellReg 0 0x18)) 32 8 + fld (rget s (cellReg 0 0x18)) 16 9 ∧
       ¬ (fld (rget s (cellReg 0 0x18)) 32 8 ≤ 0)) ∧
    (let s := cellSet { burst := some ⟨0, [1, 2, 3, 4], 4, 4, 4⟩ }
     (pairCells s 0).all (burstDone s) = true) ∧
    (rbit (withRegs [(cellReg 0 0x30, 0x100)] State.reset) (cellReg 0 0x30) 8 = true ∧ (cell State.reset 0).padA ≠ true ∧ (cell State.reset 0).padB ≠ true ∧
      (cell (withCell { pulseEnd := some (5, true) }) 0).pulseEnd = some (5, true)) ∧
    (let s := withRegs [(cellReg 0 0x58, 5), (cellReg 0 0, 0x20)] State.reset
     rbit s (cellReg 0 0x58) 0 = true ∧ rbit s (cellReg 0 0x58) 2 = true ∧ rbit s (cellReg 0 0) 5 = true ∧ presMatch s 0 ≠ rbit s (cellReg 0 0x30) 11) ∧
    (rbit State.reset (cellReg 0 0x60) 62 = false ∧ cellEn State.reset 0 = false ∧ (cell (withCell { sense := some (0, 0) }) 0).sense = some (0, 0) ∧
      fld (0 : BitVec 64) 56 4 ≠ 5 ∧ fld (0x8500000000000000 : BitVec 64) 56 4 = 5 ∧ tdrFree State.reset 0 = true ∧
      (cell (withCell { sense := some (0, 0x8500000000000000), tdr := true }) 0).tdr = true) ∧
    (let s := cellSet { queue := [.shift 0x2008, .span 1] }
     (cell s 0).queue = [.shift 0x2008, .span 1] ∧ (cell s 0).burst = none ∧ bit (0x2008 : BitVec 16) 12 = false ∧ bit (0x2008 : BitVec 16) 13 = true ∧
       hasInput s 0 = true ∧ (cell s 0).span = none ∧ (cell s 0).entryGot = 0) := by decide +kernel

/-- Feeds: limits that may be switched on and that may not; a feed blanking and one waiting to retry; a locked feed. -/
theorem witness_PowerFeeds :
    feedOn State.reset 63 = true ∧ feedState State.reset 0 0 = 0 ∧ feedLocked State.reset 0 0 = false ∧
    feedRefused (withRegs [(flim 0 0, 100 + 200 * 2 ^ 16 + 300 * 2 ^ 32), (fi2t 0 0, 1)] State.reset) 0 0 = false ∧ feedRefused State.reset 0 0 = true ∧
    feedState (withRegs [(fmeas 0 0, 2 ^ 48)] State.reset) 0 0 = 1 ∧ feedState (withRegs [(fmeas 0 0, 3 * 2 ^ 48)] State.reset) 0 0 = 3 ∧
    feedLocked { State.reset with locks := { feeds := [0] } } 0 0 = true := by decide +kernel

/-- Thread 0 of blocker 0, which owns slot 0, with this control word at its address. -/
def threadAt (w : BitVec 64) (x : Thread) : State := poke (blkReg 0 0x4000) (natBytes 8 w.toNat) { State.reset with threads := tset {} [] 0 x }
/-- M1 := M1 + 5. -/
def addWord : BitVec 64 := BitVec.ofNat 64 (5 + 1 * 2 ^ 20 + 1 * 2 ^ 24 + 2 * 2 ^ 28)

/-- ThreadOperations: a thread that may act on its cell, and one whose cell is locked. -/
theorem witness_Coprocessor :
    (let s := threadAt 0 { state := 1 }
     mayTouch 0 0 s ∧ (cell s (copCell 0 0)).queue.length < 8 ∧ (thread s 0).report.length < 64) ∧
    cellEn (withRegs [(cellReg 0 0, 1)] (threadAt 0 { state := 1 })) 0 = true ∧
    (let s : State := { threadAt 0 { state := 1 } with locks := { cells := [0] } }
     copGate s 0 = true ∧ ¬ mayTouch 0 0 s) ∧
    (64 ≤ (thread (threadAt 0 { state := 1, report := List.replicate 64 0 }) 0).report.length) ∧
    sesAccepts (withRegs [(sesReg 0, 8)] State.reset) 0 = true ∧ sesAccepts State.reset 0 = false := by
  simp only [mayTouch]
  decide +kernel

/-- Blockers: an addition due in slot 0; parked, waiting and idle threads; wheel, copy and swap of the banks. -/
theorem witness_Blockers :
    (let s := threadAt addWord { state := 1 }
     spineOn s 0 = true ∧ nextOwned s 0 (freeSlot s 0) (fun t => (thread s (16 * 0 + t)).state == 1) = some 0 ∧ slotOwner s 0 0 = 0 ∧
       wordReserved (wordAt s 0 (thread s 0)) = false ∧ (let u := advanceTo (bclkFclk s 0 0) s
         let w := wordAt u 0 (thread u 0)
         fld w 28 4 = 2 ∧ fld w 32 5 = 0 ∧ fld w 53 6 = 0 ∧ fld w 59 3 = 0 ∧ fld w 62 2 = 0)) ∧
    (let s := threadAt 0 { state := 2, wake := true }
     nextOwned s 0 (max (freeSlot s 0) (bclkAt s 0 ((thread s 0).latchAt + 7))) (· == 0) = some 16) ∧
    (thread (threadAt 0 { timer := some 9 }) 0).timer = some 9 ∧ threadLocked State.reset 0 = false ∧ (thread State.reset 0).state = 0 ∧
    threadLocked { State.reset with locks := { threads := [0] } } 0 = true ∧
    wheelLocked State.reset 0 0 = false ∧ wheelLocked { State.reset with locks := { threads := [1] } } 0 0 = true ∧
    (blocker { State.reset with blockers := [(0, { wheel := some 7 })] } 0).wheel = some 7 ∧
    (let s := withRegs [(blkReg 0 0, 4)] State.reset
     rbit s (blkReg 0 0) 2 = true) ∧
    (let s := withRegs [(blkReg 0 8, 4096)] State.reset
     s.tb.tick + 4096 ≤ (rget s (blkReg 0 8)).toNat ∧ rbit s (blkReg 0 0) 1 = false) ∧
    (let s := withRegs [(blkReg 0 0, 2)] State.reset
     let u := advanceTick (rget s (blkReg 0 8)).toNat s
     rbit s (blkReg 0 0) 1 = true ∧ rbit s (blkReg 0 0x10) 1 = false ∧ rfld u (blkReg 0 0x10) 16 16 = 0 ∧ ∀ i ∈ List.range 16, (thread u (16 * 0 + i)).state ≠ 1) := by
  decide +kernel

end Sys2Proof.Tests

namespace Sys2Proof.Tests
open Sys2Proof Sys2Proof.Machine Sys2Proof.Claims Sys2Proof.Laws
set_option Elab.async false

def aReport (sub : Nat) : Report := ⟨0, 5, sub, none, 0, [1], 0, false, 0⟩
/-- The session engine runs, with a report in its queue and these bytes of sessions and routes. -/
def reporting (sub : Nat) (s : State) : State := withRegs [(sesReg 0, 8)] (setSes { s.ses with queue := [aReport sub] } s)
/-- Session 7 is OPEN with a ring of 8 records in a crown store; the live bank routes cell 5, sub-address 2 to it. -/
def openSession7 (s : State) : State :=
  let s := { poke (ctxAddr 7 0x30) (natBytes 16 (mkCap 1 1 0 0x0003 0x400 0x011000000000).toNat) s with tags := [ctxAddr 7 0x30] }
  let s := poke (ctxAddr 7 8) (natBytes 8 (3 * 2 ^ 60 + 0x011000000000)) (ctxPut 7 0 61 3 1 s)
  poke (bankAddr 0 (routeH1 (routeKey 0 5 2)) 0) (natBytes 8 (routeEntry (routeKey 0 5 2) 0 7)) s

/-- ReportsStart and ReportsPublish: routed to session 7, whose ring has room and then none; to no session; a record to publish. -/
theorem witness_Reports :
    (let s := reporting 2 (openSession7 State.reset)
     let u := advanceTo (max 0 (s.ses.last + 64)) s
     let v := setSes { u.ses with queue := u.ses.queue.erase (aReport 2), last := u.fclk } u
     firstReport s = some (aReport 2) ∧ rbit s (sesReg 0) 3 = true ∧ sesOn s = true ∧ lookup v (routeKey 0 5 2) = some (localPkg v, 7) ∧ ctxState v 7 = 1 ∧
       ringOk v 7 (recordAddr v 7) = true ∧ ringFull v 7 = false ∧ ringFull (ctxPut 7 0x10 0 32 8 v) 7 = true) ∧
    (let s := reporting 3 State.reset
     firstReport s = some (aReport 3) ∧ lookup s (routeKey 0 5 3) = none) ∧
    (let s := reporting 2 (openSession7 (withRegs [(sesReg 0x20, 4)] joined))
     s.fabric.joined = true ∧ domState s 36 = 1 ∧ localPkg s ≠ 0) ∧
    (let s := setSes { State.reset.ses with pubs := [⟨7, 9, 0x011000000000⟩] } State.reset
     (s.ses.pubs.find? fun p => p.sess == 7) = some ⟨7, 9, 0x011000000000⟩ ∧ recordWaits s 0x011000000000 = false) := by decide +kernel

/-- ReportFrames, RouteBanks, CommandsAndContexts: a frame of a member; banks copying, armed and due; pushes to a thread. -/
theorem witness_SessionEngine :
    (fabBad joined (eventFrame 7 0 (List.replicate 8 0)) = false ∧ (joined.ses.queue.filter fun r => r.fab).length < 32 ∧ sesOn joined = true) ∧
    (let s := withRegs [(sesReg 0, 4)] State.reset
     rbit s (sesReg 0) 2 = true ∧ rbit s (sesReg 0) 1 = false) ∧
    (let s := withRegs [(sesReg 8, 4096)] State.reset
     s.tb.tick + 4096 ≤ (rget s (sesReg 8)).toNat) ∧
    (let s := withRegs [(sesReg 0, 2)] State.reset
     let u := advanceTick (rget s (sesReg 8)).toNat s
     rbit s (sesReg 0) 1 = true ∧ u.ses.opening = [] ∧ u.ses.closing = []) ∧
    pushRefused State.reset (BitVec.ofNat 64 (6 * 2 ^ 61)) = false ∧ pushRefused State.reset (BitVec.ofNat 64 (7 * 2 ^ 61)) = true ∧
    pushRefused State.reset 0 = true := by decide +kernel

/-- The attach of an endpoint whose signature is bound to identity 3, while a swap is armed. -/
def attaching : State :=
  withRegs [(sesReg 0, 2)] (setSes { State.reset.ses with known := [(endpointSig 0 5 1 [], 3)] } State.reset)

theorem entryAt_poke {a b : Nat} (bs : List Byte) (s : State) (h : a + 8 ≤ b) : entryAt (poke b bs s) a = entryAt s a := by
  have e : ∀ i ∈ List.range 8, byteAt (poke b bs s) (a + i) = byteAt s (a + i) := fun i hi => by
    have := List.mem_range.mp hi
    simp only [byteAt, poke_fields, mget_mputs]
    rw [if_neg (by omega)]
  simp only [entryAt, natAt, bytesAt, List.map_congr_left e]

theorem insertRoute_free {s : State} {b k e : Nat} (h : (freeWay s b (routeH1 k)).isSome = true) : (insertRoute b k e s).isSome = true := by
  obtain ⟨a, h⟩ := Option.isSome_iff_exists.mp h
  unfold insertRoute
  cases findRoute s b k <;> simp [h]

/-- No entry of an error log is in use, so a write marks none. -/
theorem girdlePut_attaching (a : Nat) (bs : List Byte) (s : State) (h : s.regs = attaching.regs) : girdlePut a bs s = poke a bs s := by
  have hr : (poke a bs s).regs = attaching.regs := (poke_fields a bs s).2.2.2.2.1.trans h
  have hl : ∀ w, markRewritten w (poke a bs s) = poke a bs s := by
    intro w
    have : loggedAt w (poke a bs s) = [] := by
      simp only [loggedAt, hr]
      have e : attaching.regs = [(sesReg 0, 2)] := by decide +kernel
      simp [e, bit]
    rw [markRewritten, this]; rfl
  rw [girdlePut]
  generalize wordsIn a bs.length = l
  induction l with
  | nil => rfl
  | cons w l ih => rw [List.foldl_cons, hl]; exact ih

theorem way_free (sig : Nat) (v : State) (k : Nat) (hm : v.mem = []) (hr : v.regs = attaching.regs) :
    (freeWay (prepShadow (openContext 1 5 2 3 sig true v)) (1 - sesLive (prepShadow (openContext 1 5 2 3 sig true v))) (routeH1 k)).isSome = true := by
  have hg : (openContext 1 5 2 3 sig true v).regs = attaching.regs := by
    simp (disch := simp only [poke_fields, hr]) only [openContext, ctxPut, if_true, girdlePut_attaching, poke_fields, hr]
  have hp : prepShadow (openContext 1 5 2 3 sig true v) = openContext 1 5 2 3 sig true v := by
    refine if_pos ?_
    rw [rbit, rget, hg]; decide +kernel
  have hl : sesLive (openContext 1 5 2 3 sig true v) = 0 := by
    rw [sesLive, rfld, rget, hg]; decide +kernel
  have hh : routeH1 k < 4096 := by unfold routeH1; omega
  rw [hp, hl]
  have ha : bankAddr 1 (routeH1 k) 0 + 8 ≤ ctxAddr 1 0 := by simp only [bankAddr, ctxAddr, sesReg, girdle]; omega
  have h40 : bankAddr 1 (routeH1 k) 0 + 8 ≤ ctxAddr 1 0x40 := by simp only [ctxAddr, girdle] at *; omega
  have h48 : bankAddr 1 (routeH1 k) 0 + 8 ≤ ctxAddr 1 0x48 := by simp only [ctxAddr, girdle] at *; omega
  have ht : ∀ (w : State) (l : List Nat) a, entryAt { w with tags := l } a = entryAt w a := fun _ _ _ => rfl
  have he : entryAt (openContext 1 5 2 3 sig true v) (bankAddr 1 (routeH1 k) 0) = 0 := by
    simp (disch := simp only [poke_fields, hr]) only [openContext, ctxPut, if_true, girdlePut_attaching]
    rw [entryAt_poke _ _ h48, entryAt_poke _ _ h40, entryAt_poke _ _ ha, entryAt_poke _ _ ha, ht, entryAt_poke _ _ ha]
    simp only [entryAt, natAt, bytesAt, byteAt, hm, mget, tget]
    decide +kernel
  rw [freeWay, List.find?_isSome]
  exact ⟨bankAddr 1 (routeH1 k) 0, List.mem_map.mpr ⟨0, by decide, rfl⟩, by rw [he]; decide +kernel⟩

/-- EndpointSessions: an attach that opens session 1. -/
theorem witness_attach : ∃ t, attach 5 2 1 [] attaching = some t := by
  have hl : localPkg attaching = 0 := by decide +kernel
  have hd : detachedOf attaching (endpointSig 0 5 1 []) = none := rfl
  have hf : freeSession attaching = some 1 := by decide +kernel
  have hk : takeIdentity (endpointSig 0 5 1 []) attaching = some (3, setSes { attaching.ses with freed := [] } attaching) := by
    simp [takeIdentity, attaching, withRegs, setSes, rset, State.reset]
  refine Option.isSome_iff_exists.mp ?_
  simp only [attach, hl, hd, hf, hk, Option.orElse, Option.bind, openSession, Option.isNone, Option.isSome_map]
  exact insertRoute_free (way_free _ _ _ rfl rfl)

/-- EndpointSessions: a detach, a hold time and a return of an identity; a member that falls silent. -/
theorem witness_EndpointSessions :
    (sesOn (openSession7 State.reset) = true ∧ rbit (openSession7 State.reset) (sesReg 0) 2 = false ∧ ctxState (openSession7 State.reset) 7 = 1 ∧
      Memory.wf (openSession7 State.reset).mem = true) ∧
    (let s := setSes { State.reset.ses with detached := [(7, 0)], freed := [(3, 0)] } State.reset
     (s.ses.detached.find? fun p => p.1 == 7) = some (7, 0) ∧ (s.ses.freed.find? fun p => p.1 == 3) = some (3, 0)) ∧
    (let s : State := { joined with pwr := { running := true } }
     s.fabric.joined = true ∧ (2 : Nat) ∈ s.fabric.present ∧ s.pwr.running = true) := by decide +kernel

/-- Queue 0 is enabled with 16 entries in each ring, and Gleby runs. -/
def queueSet : State :=
  withRegs [(mbxReg 0x800, 2 ^ 32), (qreg 0 0, 0x1000), (qreg 0 8, 0x2000), (qreg 0 0x10, 1 + 4 * 2 ^ 8 + 4 * 2 ^ 16), (qreg 0 0x18, 1)]
    { State.reset with pwr := { running := true } }
def finished0 : Cmd := { id := 0, src := .host 0, entry := 1, at_ := 0, start := some 0, done := some (0, 5) }

/-- MailboxQueues: a queue that may be enabled; a full one, a doorbell in and out of range; entries to fetch; completions, events, messages. -/
theorem witness_MailboxQueues :
    (let s := withRegs [(mbxReg 0x800, 2 ^ 32), (qreg 15 0, 0x1000), (qreg 15 8, 0x2000)] State.reset
     qEn s 15 = false ∧ enableRefused s 15 (BitVec.ofNat 64 (1 + 12 * 2 ^ 8 + 1 * 2 ^ 16)) = false ∧ enableRefused s 15 (BitVec.ofNat 64 (13 * 2 ^ 8)) = true) ∧
    (qEn queueSet 0 = true ∧ qActive queueSet 0 = true ∧ (qpair queueSet 0).flr = false ∧ qCmds queueSet 0 = [] ∧ sqSize queueSet 0 = 16 ∧ cqSize queueSet 0 = 16) ∧
    (let s := setQpair 0 { tail := 9 } queueSet
     nextQueue s = some 0 ∧ burstLength s 0 = 8 ∧ glebyReady s = true ∧ s.pwr.running = true) ∧
    (let s : State := { queueSet with gly := { queueSet.gly with cmds := [finished0], finished := [0], evq := [(2, 7)] } }
     cqFull (setQpair 0 { chead := 15 } s) 0 = false ∧ ((readyCmd (setQpair 0 { chead := 15 } s) fun c => c.src == .host 0).map (·.1)) = some finished0) ∧
    (let s : State := setQpair 0 { chead := 15 } { queueSet with gly := { queueSet.gly with evq := [(2, 7)] } }
     cqFull s 0 = false ∧ (readyCmd s fun c => c.src == .host 0) = none ∧ s.gly.evq = [(2, 7)] ∧ bit (qcfg s 0) 3 = false ∧ s.gly.dropped = 0) ∧
    (let s := setQpair 0 { firstAt := some 4, count := 1 } (withRegs [(qreg 0 0x10, 9 + 2 ^ 40)] queueSet)
     (qpair s 0).firstAt = some 4 ∧ bit (qcfg s 0) 3 = true ∧ fld (qcfg s 0) 40 16 ≠ 0) := by decide +kernel

def aRequest : BitVec 256 × KReg := (1, ⟨mkCap 1 1 0 0x0402 0 0, true⟩)
/-- MailboxEventsAndRequests: an enabled class, a full event queue, drops; a request to take; responses to forward; a command past its time. -/
theorem witness_MailboxEventsAndRequests :
    (let s : State := { queueSet with gly := { mask := 0x1004, evq := List.replicate 256 (2, 0), dropped := 3 } }
     bit s.gly.mask 2 = true ∧ bit s.gly.mask 12 = true ∧ bit s.gly.mask 0 = false ∧ 256 ≤ s.gly.evq.length ∧ s.gly.dropped ≠ 0) ∧
    (let s := setFacet 0 { reqRing := [aRequest], credits := 3 } queueSet
     (facet s 0).reqRing = [aRequest] ∧ facetBusy s 0 = false ∧ (facet s 0).respRing.length < 4 ∧ glebyReady s = true) ∧
    (let c : Cmd := { id := 0, src := .facet 0 aRequest.2, entry := 1, at_ := 0, start := some 0, done := some (0, 5) }
     let s : State := { queueSet with gly := { queueSet.gly with cmds := [c], finished := [0] } }
     ((readyCmd s fun c => c.ofFacet == some 0).map (·.1)) = some c ∧ (facet s 0).dropResp = 0 ∧ (facet s 0).respRing = [] ∧ (facet s 0).staging.length < 4) ∧
    (let s := setFacet 0 { respRing := [5] } queueSet
     (readyCmd s fun c => c.ofFacet == some 0) = none ∧ (facet s 0).respRing = [5]) ∧
    (let s : State := { queueSet with gly := { queueSet.gly with cmds := [{ finished0 with done := none }] } }
     (s.gly.cmds.find? fun c => c.id == 0) = some { finished0 with done := none } ∧ s.pwr.running = true) := by decide +kernel


/-- A host command with AUTH 1, or 0 for principal 0, its buffer at 0x1000. -/
def cmdOf (sp : CmdSpec) (prin par dlen : Nat) : Cmd :=
  { id := 0, src := .host 0, at_ := 0, entry := BitVec.ofNat 512 (sp.code + sp.endField * 2 ^ 24 + (if prin = 0 then 0 else 2 ^ 48)
      + (if dlen = 0 then 0 else 0x1000 * 2 ^ 64) + dlen * 2 ^ 128 + par * 2 ^ 192) }
/-- The steward runs, the command waits, and the principal's session is open. -/
def asked (sp : CmdSpec) (prin par dlen : Nat) (s : State) : State :=
  { s with pwr := { s.pwr with running := true }, gly := { s.gly with cmds := [cmdOf sp prin par dlen], prins := [⟨1, prin, 0⟩] } }
def given (sp : CmdSpec) (dlen : Nat) : GIn := ⟨0, if sp.input then List.replicate dlen 0 else [], true, []⟩
def callOf (sp : CmdSpec) (prin par dlen : Nat) : Call :=
  { prin := if prin = 0 then none else some prin, facet := none, par := (cmdOf sp prin par dlen).param, dptr := if dlen = 0 then 0 else 0x1000, dlen := dlen,
    data := (given sp dlen).data, linkOk := true, ext := [], id := 0, auth := if prin = 0 then 0 else 1 }
/-- The hypotheses of a statement on a command are met. -/
def HasStart (sp : CmdSpec) (ok : Call → State → Prop) (obs : Call → State → List (Nat × Nat)) : Prop :=
  ∃ g s c call, Starts sp obs g s c call ∧ ok call s

def startsB (sp : CmdSpec) (obs : Call → State → List (Nat × Nat)) (prin par dlen : Nat) (s0 : State) : Bool :=
  let s := asked sp prin par dlen s0
  let c := cmdOf sp prin par dlen
  let call := callOf sp prin par dlen
  c.code == sp.code && mayStart s c && (!sp.input || (given sp dlen).data.length == c.dlen) && decide (checkEntry sp c (given sp dlen) s = .inr call)
    && sp.mayIssue c call.prin && objectsFree s c (obs call s)

theorem hasStart {sp : CmdSpec} {ok : Call → State → Prop} {obs : Call → State → List (Nat × Nat)} (prin par dlen : Nat) (s0 : State)
    (h : startsB sp obs prin par dlen s0 = true) (hk : ok (callOf sp prin par dlen) (asked sp prin par dlen s0)) : HasStart sp ok obs := by
  simp only [startsB, Bool.and_eq_true, decide_eq_true_eq, beq_iff_eq, Bool.or_eq_true, Bool.not_eq_true'] at h
  obtain ⟨⟨⟨⟨⟨h1, h2⟩, h3⟩, h4⟩, h5⟩, h6⟩ := h
  refine ⟨given sp dlen, asked sp prin par dlen s0, cmdOf sp prin par dlen, callOf sp prin par dlen, ⟨⟨?_, h1, h2, rfl, ?_, rfl⟩, h4, h5, ?_, rfl, h6⟩, hk⟩
  · simp [asked, given, cmdOf]
  · intro hi; rcases h3 with h3 | h3
    · simp [hi] at h3
    · exact h3
  · simp [bufferOk, callOf]

/-- System commands: each starts, with fields that its statement admits. -/
theorem witness_SystemCommands :
    HasStart { code := 0x0001, who := [], zero := true, facets := true }
      (fun _ _ => True) none' ∧
    HasStart { code := 0x0002, who := [], zero := true, facets := true }
      (fun _ _ => True) none' ∧
    HasStart { code := 0x0003, who := [pM, pO], fields := [(0, 8)] }
      (fun _ _ => True) none' ∧
    HasStart { code := 0x0004, who := [pM, pO], fields := [(0, 1), (2, 2)] }
      (fun call s => call.p 0 1 ≤ 15 ∧ ∀ d, abortTarget call s = some d → call.prin = some pM ∨ call.prin = (session s d.auth).map (·.prin)) none' ∧
    HasStart { code := 0x0005, who := [pH, pM], fields := [(0, 1), (1, 1)] }
      (fun call _ => call.p 0 1 ≤ 2 ∧ (call.p 0 1 = 0 → call.p 1 1 ≤ 127) ∧ (call.p 0 1 = 1 → call.p 1 1 ≤ 15)) (fun call _ => if call.p 0 1 = 0 then [(obFacet, call.p 1 1)] else if call.p 0 1 = 1 then [(obCrown, call.p 1 1)] else []) ∧
    HasStart { code := 0x0005, who := [pH, pM], fields := [(0, 1), (1, 1)] }
      (fun call _ => call.p 0 1 ≤ 2 ∧ (call.p 0 1 = 0 → call.p 1 1 ≤ 127) ∧ (call.p 0 1 = 1 → call.p 1 1 ≤ 15)) (fun call _ => if call.p 0 1 = 0 then [(obFacet, call.p 1 1)] else if call.p 0 1 = 1 then [(obCrown, call.p 1 1)] else []) ∧
    HasStart { code := 0x0005, who := [pH, pM], fields := [(0, 1), (1, 1)] }
      (fun call _ => call.p 0 1 ≤ 2 ∧ (call.p 0 1 = 0 → call.p 1 1 ≤ 127) ∧ (call.p 0 1 = 1 → call.p 1 1 ≤ 15)) (fun call _ => if call.p 0 1 = 0 then [(obFacet, call.p 1 1)] else if call.p 0 1 = 1 then [(obCrown, call.p 1 1)] else []) ∧
    HasStart { code := 0x0008, who := [], zero := true, fields := [(0, 1)], buffer := some (48, 48, 1) }
      (fun _ _ => True) none' ∧
    HasStart { code := 0x0009, who := [], zero := true, fields := [(0, 1), (4, 4)], buffer := some (96, 96, 1), input := true }
      (fun _ _ => True) none' ∧
    HasStart { code := 0x000A, who := [pH, pM, pO, pI], issuers := true }
      (fun _ _ => True) none' :=
  ⟨hasStart 0 0x0 0 State.reset (by decide +kernel) trivial,
   hasStart 0 0x0 0 State.reset (by decide +kernel) trivial,
   hasStart 1 0x0 0 State.reset (by decide +kernel) trivial,
   hasStart 1 0xf 0 State.reset (by decide +kernel) ⟨by decide +kernel, fun d _ => .inl (by decide +kernel)⟩,
   hasStart 1 0x7f00 0 State.reset (by decide +kernel) (by decide +kernel),
   hasStart 1 0xf01 0 State.reset (by decide +kernel) (by decide +kernel),
   hasStart 1 0x2 0 State.reset (by decide +kernel) (by decide +kernel),
   hasStart 0 0x1 48 State.reset (by decide +kernel) trivial,
   hasStart 0 0x100000001 96 State.reset (by decide +kernel) trivial,
   hasStart 1 0x0 0 State.reset (by decide +kernel) trivial⟩

/-- Power commands: each starts, with fields that its statement admits. -/
theorem witness_PowerCommands :
    HasStart { code := 0x0101, who := [pM, pO], fields := [(0, 1), (1, 1), (2, 1)] }
      (fun call _ => call.p 0 1 ≤ 15 ∧ call.p 1 1 ≤ 2 ∧ call.p 2 1 ≤ 1) (fun call _ => [(obCrown, call.p 0 1)]) ∧
    HasStart { code := 0x0102, who := [pM, pO], fields := [(0, 1), (1, 1), (2, 1)] }
      (fun call _ => call.p 0 1 ≤ 10 ∧ call.p 1 1 ≤ 1 ∧ call.p 2 1 ≤ 1) (fun call _ => (withGroups (domainOf (call.p 0 1))).map fun d => (obGroup, d)) ∧
    HasStart { code := 0x0103, who := [pM, pO], fields := [(0, 1), (8, 8)] }
      (fun call _ => 1 ≤ call.p 0 1 ∧ call.p 0 1 ≤ 3) none' ∧
    HasStart { code := 0x0103, who := [pM, pO], fields := [(0, 1), (8, 8)] }
      (fun call _ => 1 ≤ call.p 0 1 ∧ call.p 0 1 ≤ 3) none' ∧
    HasStart { code := 0x0104, who := [pM, pO, pI], facets := true, buffer := some (64, 64, 1) }
      (fun _ _ => True) none' ∧
    HasStart { code := 0x0105, who := [pH, pM, pO], fields := [(0, 2)], buffer := some (8, 1048576, 1) }
      (fun _ _ => True) none' :=
  ⟨hasStart 1 0x20f 0 State.reset (by decide +kernel) (by decide +kernel),
   hasStart 1 0x10a 0 State.reset (by decide +kernel) (by decide +kernel),
   hasStart 1 0x1 0 State.reset (by decide +kernel) (by decide +kernel),
   hasStart 1 0x3 0 State.reset (by decide +kernel) (by decide +kernel),
   hasStart 1 0x0 64 State.reset (by decide +kernel) trivial,
   hasStart 1 0x0 8 State.reset (by decide +kernel) trivial⟩

/-- Time commands: each starts, with fields that its statement admits. -/
theorem witness_TimeCommands :
    HasStart { code := 0x0201, who := [pM, pO, pI], facets := true }
      (fun _ _ => True) none' ∧
    HasStart { code := 0x0202, who := [pM, pO], fields := [(0, 1), (1, 1), (2, 1), (4, 4)] }
      (fun call _ => call.p 0 1 ≤ 3 ∧ call.p 1 1 ≤ 1 ∧ call.p 2 1 ≤ 1) (fun _ _ => [(obTime, 0)]) ∧
    HasStart { code := 0x0203, who := [pM, pO], fields := [(8, 8), (16, 8)] }
      (fun call s => s.tb.tick + 6000 ≤ atOf (call.p 16 8) s ∧ atOf (call.p 16 8) s ≤ s.tb.tick + 9 * secondTicks) (fun _ _ => [(obTime, 0)]) ∧
    HasStart { code := 0x0204, who := [pM, pO], fields := [(0, 4)] }
      (fun _ _ => True) (fun _ _ => [(obTime, 0)]) ∧
    HasStart { code := 0x0205, who := [pM, pO], fields := [(0, 1), (1, 1), (2, 1), (3, 1), (4, 1), (5, 1), (6, 2), (8, 2), (10, 1), (11, 1), (12, 4), (16, 4)] }
      (fun call _ => call.p 1 1 ≤ 1 ∧ -7 ≤ sgn 8 (call.p 5 1) ∧ sgn 8 (call.p 5 1) ≤ 0 ∧ 100 ≤ call.p 6 2 ∧ call.p 6 2 ≤ 1000 ∧ 10 ≤ call.p 8 2 ∧ call.p 8 2 ≤ 1000 ∧ 4 ≤ call.p 10 1 ∧ 2 ≤ call.p 11 1 ∧ call.p 11 1 ≤ 64 ∧ 1000 ≤ call.p 12 4 ∧ call.p 12 4 ≤ 1000000000 ∧ 10 ≤ call.p 16 4 ∧ call.p 16 4 ≤ 10000) (fun _ _ => [(obTime, 0)]) ∧
    HasStart { code := 0x0206, who := [pM, pO, pI] }
      (fun _ _ => True) none' ∧
    HasStart { code := 0x0208, who := [pM, pO], fields := [(0, 2), (2, 1), (3, 1), (4, 4), (8, 8), (16, 4)] }
      (fun call _ => call.p 0 2 ≤ 511 ∧ call.p 2 1 ≤ 1 ∧ call.p 3 1 ≤ 1) (fun _ _ => [(obTime, 0)]) ∧
    HasStart { code := 0x0209, who := [pM, pO], fields := [(0, 1)], buffer := some (8, 524288, 8), input := true }
      (fun call s => rbit s (hatReg 0) 1 = false ∧ call.p 0 1 ≤ 1 ∧ ∀ r ∈ hatRecs call.data, hatRecOut r = false) (fun _ _ => [(obHat, 0)]) ∧
    HasStart { code := 0x020A, who := [pM, pO], fields := [(0, 8)] }
      (fun call s => rbit s (hatReg 0) 1 = false ∧ s.tb.tick + 6000 ≤ atOf (call.p 0 8) s) (fun _ _ => [(obHat, 0)]) :=
  ⟨hasStart 1 0x0 0 State.reset (by decide +kernel) trivial,
   hasStart 1 0x103 0 State.reset (by decide +kernel) (by decide +kernel),
   hasStart 1 0x177000000000000000050000000000000000 0 State.reset (by decide +kernel) (by decide +kernel),
   hasStart 1 0x0 0 State.reset (by decide +kernel) trivial,
   hasStart 1 0xa000003e80204000a0064f90000000000 0 State.reset (by decide +kernel) (by decide +kernel),
   hasStart 1 0x0 0 State.reset (by decide +kernel) trivial,
   hasStart 1 0x2000001ff 0 State.reset (by decide +kernel) (by decide +kernel),
   hasStart 1 0x0 8 State.reset (by decide +kernel) (by decide +kernel),
   hasStart 1 0x1770 0 State.reset (by decide +kernel) (by decide +kernel)⟩

/-- Port commands: each starts, with fields that its statement admits. -/
theorem witness_PortCommands :
    HasStart { code := 0x0301, who := [pM, pO], fields := [(0, 1), (1, 1), (2, 1)] }
      (fun call _ => call.p 0 1 ≤ 7 ∧ call.p 1 1 ≤ 1 ∧ call.p 2 1 ≤ 1) (fun call _ => [(obGroup, 22 + call.p 0 1)]) ∧
    HasStart { code := 0x0302, who := [pM, pO], fields := [(0, 2)] }
      (fun call _ => call.p 0 2 ≤ 1023) (fun call _ => [(obCell, call.p 0 2)]) ∧
    HasStart { code := 0x0303, who := [pM, pO], fields := [(0, 2), (2, 1), (3, 1)] }
      (fun call _ => call.p 0 2 ≤ 1023 ∧ call.p 2 1 ≤ 1) (fun call _ => [(obCell, call.p 0 2)]) ∧
    HasStart { code := 0x0304, who := [pM, pO], fields := [(0, 2), (2, 1), (8, 8), (16, 8)], buffer := some (1, 4096, 1), orNone := true, input := true }
      (fun call _ => call.p 0 2 ≤ 1023 ∧ 1 ≤ call.p 2 1 ∧ call.p 2 1 ≤ 10 ∧ (isPairProto (call.p 2 1) = true → call.p 0 2 % 2 = 0) ∧ rateOk (call.p 2 1) (call.p 8 8) (call.p 16 8) = true ∧ fmtOk (call.p 2 1) (call.p 16 8) = true) (fun call _ => bindObs call) ∧
    HasStart { code := 0x0305, who := [pM, pO], fields := [(0, 2)] }
      (fun call _ => call.p 0 2 ≤ 1023) (fun call _ => [(obCell, call.p 0 2)]) ∧
    HasStart { code := 0x0306, who := [pM, pO], fields := [(0, 1), (8, 8)] }
      (fun call _ => call.p 0 1 ≤ 63) (fun call _ => [(obBlocker, call.p 0 1)]) ∧
    HasStart { code := 0x0307, who := [pH, pM, pO], fields := [(0, 1), (1, 1)], buffer := some (64, 64, 1), orNone := true }
      (fun call _ => call.p 0 1 ≤ 63 ∧ call.p 1 1 ≤ 15) none' ∧
    HasStart { code := 0x0308, who := [pM, pO], fields := [(0, 1), (1, 1)] }
      (fun call _ => call.p 0 1 ≤ 63 ∧ call.p 1 1 ≤ 15) (fun call _ => [(obBlocker, call.p 0 1)]) ∧
    HasStart { code := 0x0309, who := [pM, pO], fields := [(0, 1), (1, 1), (4, 4), (8, 2), (10, 2), (12, 2), (16, 4)] }
      (fun call _ => call.p 0 1 ≤ 63 ∧ call.p 1 1 ≤ 3) (fun call _ => [(obBlocker, call.p 0 1)]) ∧
    HasStart { code := 0x030A, who := [pM, pO, pI], facets := true, fields := [(0, 1), (1, 1)] }
      (fun call _ => call.p 0 1 ≤ 63 ∧ call.p 1 1 ≤ 3) none' :=
  ⟨hasStart 1 0x7 0 State.reset (by decide +kernel) (by decide +kernel),
   hasStart 1 0x3ff 0 State.reset (by decide +kernel) (by decide +kernel),
   hasStart 1 0x0 0 State.reset (by decide +kernel) (by decide +kernel),
   hasStart 1 0x800000000000025800000000000010000 0 State.reset (by decide +kernel) (by decide +kernel),
   hasStart 1 0x0 0 State.reset (by decide +kernel) (by decide +kernel),
   hasStart 1 0x0 0 State.reset (by decide +kernel) (by decide +kernel),
   hasStart 1 0x0 0 State.reset (by decide +kernel) (by decide +kernel),
   hasStart 1 0x0 0 State.reset (by decide +kernel) (by decide +kernel),
   hasStart 1 0x0 0 State.reset (by decide +kernel) (by decide +kernel),
   hasStart 1 0x0 0 State.reset (by decide +kernel) (by decide +kernel)⟩

/-- Session commands: each starts, with fields that its statement admits. -/
theorem witness_SessionCommands :
    HasStart { code := 0x0401, who := [pM, pO], fields := [(0, 4)] }
      (fun call _ => call.p 0 4 ≤ 3600) none' ∧
    HasStart { code := 0x0402, who := [pM, pO, pI], facets := true, fields := [(0, 2)], buffer := some (136, 136, 1), orNone := true }
      (fun call _ => 1 ≤ call.p 0 2 ∧ call.p 0 2 ≤ 16383) none' ∧
    HasStart { code := 0x0403, who := [pM, pO], fields := [(0, 2), (2, 1), (3, 1), (4, 2), (8, 8)] }
      (fun call s => 1 ≤ call.p 0 2 ∧ call.p 0 2 ≤ 16383 ∧ 3 ≤ call.p 2 1 ∧ call.p 2 1 ≤ 15 ∧ call.p 3 1 ≤ 1 ∧ call.p 4 2 ≤ 4095 ∧ call.p 8 8 % 128 = 0 ∧ grantable s (2 ^ permW) (call.p 8 8) (2 ^ call.p 2 1 * 128) = true) (fun call _ => [(obSession, call.p 0 2)]) ∧
    HasStart { code := 0x0404, who := [pM, pO], fields := [(0, 2)] }
      (fun call s => 1 ≤ call.p 0 2 ∧ call.p 0 2 ≤ 16383 ∧ rbit s (sesReg 0) 2 = false) (fun call _ => [(obSession, call.p 0 2)]) ∧
    HasStart { code := 0x0405, who := [pM, pO, pI], fields := [(0, 2)], buffer := some (16, 1048576, 1) }
      (fun _ _ => True) none' :=
  ⟨hasStart 1 0x0 0 State.reset (by decide +kernel) (by decide +kernel),
   hasStart 1 0x1 0 State.reset (by decide +kernel) (by decide +kernel),
   hasStart 1 0x110000000000000000000033fff 0 State.reset (by decide +kernel) (by decide +kernel),
   hasStart 1 0x1 0 State.reset (by decide +kernel) (by decide +kernel),
   hasStart 1 0x0 16 State.reset (by decide +kernel) trivial⟩

/-- Fabric commands: each starts, with fields that its statement admits. -/
theorem witness_FabricCommands :
    HasStart { code := 0x0701, who := [pM], fields := [(0, 1), (1, 1), (4, 4)] }
      (fun _ _ => True) (fun _ _ => [(obFabric, 0)]) ∧
    HasStart { code := 0x0702, who := [pM] }
      (fun _ _ => True) (fun _ _ => [(obFabric, 0)]) ∧
    HasStart { code := 0x0703, who := [pM, pO, pI], buffer := some (40, 40, 1) }
      (fun _ _ => True) none' ∧
    HasStart { code := 0x0704, who := [pM], fields := [(0, 2)] }
      (fun call _ => 5 ≤ call.p 0 2 ∧ call.p 0 2 ≤ 1000) (fun _ _ => [(obFabric, 0)]) ∧
    HasStart { code := 0x0704, who := [pM], fields := [(0, 2)] }
      (fun call _ => 5 ≤ call.p 0 2 ∧ call.p 0 2 ≤ 1000) (fun _ _ => [(obFabric, 0)]) ∧
    HasStart { code := 0x0705, who := [pM, pO], fields := [(0, 1), (1, 1), (2, 1), (4, 2), (8, 8), (16, 4)] }
      (fun call s => call.p 0 1 ≤ 15 ∧ call.p 2 1 ≤ 1 ∧ permBad (call.p 4 2) (call.p 16 4) = false ∧ call.p 8 8 < 2 ^ 48 ∧ mintDenied s call (call.p 4 2) (call.p 8 8) (call.p 16 4) = false) (fun _ _ => [(obFabric, 0)]) ∧
    HasStart { code := 0x0706, who := [pM, pO], buffer := some (16, 65536, 16), input := true }
      (fun _ _ => True) (fun _ _ => [(obRoutes, 0)]) ∧
    HasStart { code := 0x0707, who := [pM, pO], fields := [(0, 1), (1, 1), (2, 2), (4, 1), (8, 4)] }
      (fun call s => call.p 0 1 ≤ 63 ∧ call.p 1 1 ≤ 1 ∧ call.p 2 2 ≤ 4095 ∧ rbit s (hatReg 0) 1 = false) (fun _ _ => [(obHat, 0)]) ∧
    HasStart { code := 0x0708, who := [pM, pO], fields := [(0, 1), (2, 2), (4, 2)] }
      (fun call _ => call.p 0 1 ≤ 1 ∧ call.p 2 2 ≤ 4095 ∧ call.p 4 2 ≤ 4095) (fun _ _ => [(obFabric, 0)]) :=
  ⟨hasStart 1 0x900000101 0 State.reset (by decide +kernel) trivial,
   hasStart 1 0x0 0 State.reset (by decide +kernel) trivial,
   hasStart 1 0x0 40 State.reset (by decide +kernel) trivial,
   hasStart 1 0x5 0 State.reset (by decide +kernel) (by decide +kernel),
   hasStart 1 0x3e8 0 State.reset (by decide +kernel) (by decide +kernel),
   hasStart 1 0x10000011000000000000000030000000f 0 State.reset (by decide +kernel) (by decide +kernel),
   hasStart 1 0x0 16 State.reset (by decide +kernel) trivial,
   hasStart 1 0x3f 0 State.reset (by decide +kernel) (by decide +kernel),
   hasStart 1 0x0 0 State.reset (by decide +kernel) (by decide +kernel)⟩

/-- Facet commands: each starts, with fields that its statement admits. -/
theorem witness_FacetCommands :
    HasStart { code := 0x0501, who := [pM, pO], fields := [(0, 1), (4, 4), (8, 8), (16, 4)], buffer := some (16, 262144, 1), orNone := true, input := true, load := true }
      (fun call s => call.p 0 1 ≤ 127 ∧ call.p 4 4 % 16 = 0 ∧ call.p 16 4 % 16 = 0 ∧ call.p 4 4 + call.p 16 4 ≤ 0x40000 ∧ (call.p 8 8 = 0 ∨ grantable s (2 ^ permR) (call.p 8 8) (call.p 16 4) = true)) facetOb ∧
    HasStart { code := 0x0502, who := [pM, pO], fields := [(0, 1), (2, 2), (4, 2), (8, 8)] }
      (fun call _ => call.p 0 1 ≤ 127 ∧ call.p 2 2 ≤ 4095 ∧ (call.p 4 2 = 0 ∨ 64 ≤ call.p 4 2)) facetOb ∧
    HasStart { code := 0x0503, who := [pM, pO], fields := [(0, 1)] }
      (fun call _ => call.p 0 1 ≤ 127) facetOb ∧
    HasStart { code := 0x0504, who := [pM, pO, pI], fields := [(0, 1)], buffer := some (64, 64, 1) }
      (fun call _ => call.p 0 1 ≤ 127) none' ∧
    HasStart { code := 0x0506, who := [pM], fields := [(0, 1), (1, 1)] }
      (fun call _ => call.p 0 1 ≤ 15 ∧ call.p 1 1 ≤ 1) crownOb ∧
    HasStart { code := 0x0508, who := [pH, pM, pO], fields := [(0, 1), (1, 1), (2, 1), (4, 2), (6, 2)], buffer := some (16, 16, 1), orNone := true }
      (fun call _ => call.p 0 1 ≤ 16 ∧ call.p 1 1 ≤ (if call.p 0 1 = 16 then 31 else 3) ∧ call.p 2 1 ≤ 7 ∧ call.p 4 2 ≤ 2047 ∧ call.p 6 2 ≤ 4095) crownOb ∧
    HasStart { code := 0x0509, who := [pM], fields := [(0, 4), (4, 2), (6, 1), (7, 1), (8, 2)] }
      (fun call _ => (call.p 0 4 = 0 ∨ (60 ≤ call.p 0 4 ∧ call.p 0 4 ≤ 86400)) ∧ call.p 6 1 ≤ 1 ∧ call.p 7 1 ≤ 1) none' ∧
    HasStart { code := 0x050A, who := [pH, pM, pO, pI], fields := [(0, 1), (1, 1), (2, 2)], buffer := some (32, 1048576, 1) }
      (fun call _ => call.p 0 1 ≤ 16 ∧ call.p 1 1 ≤ 1) none' ∧
    HasStart { code := 0x050B, who := [pH, pM], fields := [(0, 1), (1, 1), (2, 1), (4, 2)] }
      (fun call _ => call.p 0 1 ≤ 15 ∧ call.p 1 1 ≤ 3 ∧ call.p 2 1 ≤ 7 ∧ call.p 4 2 ≤ 2047) crownOb ∧
    HasStart { code := 0x050D, who := [pM, pO], fields := [(0, 8), (8, 8)] }
      (fun call s => call.p 0 8 % 0x200000 = 0 ∧ call.p 8 8 % 0x200000 = 0 ∧ call.p 0 8 + call.p 8 8 ≤ ddrTop s) none' ∧
    HasStart { code := 0x050E, who := [pM, pO], fields := [(0, 8), (8, 8)] }
      (fun call s => (call.p 0 8 % 0x200000 = 0 ∧ call.p 8 8 % 0x200000 = 0 ∧ call.p 0 8 + call.p 8 8 ≤ ddrTop s) ∧ (call.p 8 8 = 0 ∨ 0x10000000 ≤ call.p 0 8)) none' :=
  ⟨hasStart 1 0x100000000000000000000000000000007f 16 State.reset (by decide +kernel) (by decide +kernel),
   hasStart 1 0x400fff007f 0 State.reset (by decide +kernel) (by decide +kernel),
   hasStart 1 0x0 0 State.reset (by decide +kernel) (by decide +kernel),
   hasStart 1 0x0 64 State.reset (by decide +kernel) (by decide +kernel),
   hasStart 1 0x0 0 State.reset (by decide +kernel) (by decide +kernel),
   hasStart 1 0x38000000000210 0 State.reset (by decide +kernel) (by decide +kernel),
   hasStart 1 0x3c 0 State.reset (by decide +kernel) (by decide +kernel),
   hasStart 1 0x0 32 State.reset (by decide +kernel) (by decide +kernel),
   hasStart 1 0xf 0 State.reset (by decide +kernel) (by decide +kernel),
   hasStart 1 0x0 0 State.reset (by decide +kernel) (by decide +kernel),
   hasStart 1 0x0 0 State.reset (by decide +kernel) (by decide +kernel)⟩

/-- The state in which a command of the Maker acts. -/
def acting (sp : CmdSpec) (par dlen : Nat) (s : State) : State := touchSession (cmdOf sp 1 par dlen) (asked sp 1 par dlen s)

/-- FacetLoadCompletes, FacetRunCompletes, FacetStateCommands, LogAndTestCommands: an open facet, one of a partition, one that is asleep, one that
runs; a report there and none; a quiet crown and one that is not; a test that is refused and one that is not. -/
theorem witness_FacetStates :
    (let u := acting { code := 0x0501, who := [] } 127 16 State.reset
     inPartition u 127 = false ∧ domGone u (crownOf 127) = false ∧ bit (facet u 127).ctl 1 = true) ∧
    inPartition (acting { code := 0x0502, who := [] } 0 0 { State.reset with locks := { facets := [0] } }) 0 = true ∧
    (let u := acting { code := 0x0502, who := [] } 0 0 (inDom 0 3 State.reset)
     inPartition u 0 = false ∧ domGone u (crownOf 0) = true) ∧
    (let u := acting { code := 0x0502, who := [] } 0 0 (withFacet { ctl := 1 })
     inPartition u 0 = false ∧ domGone u (crownOf 0) = false ∧ bit (facet u 0).ctl 1 = false ∧ crownQuiet u 0 = false ∧ testRefused u 0 (started 0) = true) ∧
    rbit (acting { code := 0x0504, who := [] } 0 64 State.reset) (crownReg 0 0x300) 0 = false ∧
    rbit (acting { code := 0x0504, who := [] } 0 64 (withRegs [(crownReg 0 0x300, 1)] State.reset)) (crownReg 0 0x300) 0 = true ∧
    crownQuiet (acting { code := 0x0506, who := [] } 0 0 State.reset) 0 = true ∧ sealActive (acting { code := 0x0506, who := [] } 0 0 (inDom 0 1 State.reset)) = false ∧
    pfw (acting { code := 0x050C, who := [] } 0 0 State.reset) = false ∧ testRefused (acting { code := 0x050C, who := [] } 0 0 State.reset) 0 (started 0) = false := by
  decide +kernel

/-- Capability commands: each starts, with fields that its statement admits. -/
theorem witness_CapabilityCommands :
    HasStart { code := 0x0601, who := [pM, pO], fields := [(0, 1), (1, 1), (2, 1), (4, 2), (6, 2), (8, 8), (16, 4)] }
      (fun call s => call.p 0 1 ≤ 127 ∧ call.p 1 1 ≤ 1 ∧ call.p 2 1 ≤ 15 ∧ (call.p 1 1 = 1 → call.p 2 1 < 14) ∧ permBad (call.p 4 2) (call.p 16 4) = false ∧ (call.p 6 2 = 0 ∨ (0x8000 < call.p 6 2 ∧ (call.p 4 2).testBit permX = true) ∨ (0 < call.p 6 2 ∧ call.p 6 2 < 0x8000 ∧ (call.p 4 2).testBit permX = false)) ∧ call.p 8 8 < 2 ^ 48 ∧ mintDenied s call (call.p 4 2) (call.p 8 8) (call.p 16 4) = false ∧ (call.p 6 2 = 0 ∨ ownerCode call.who = some (call.p 6 2 / 256 % 128))) (fun call _ => [(obFacet, call.p 0 1), (obEpoch, call.who)]) ∧
    HasStart { code := 0x0602, who := [pM, pO, pI], fields := [(0, 1)] }
      (fun call _ => call.prin = some (call.p 0 1) ∨ (call.prin = some pM ∧ call.p 0 1 = pO)) (fun call _ => [(obEpoch, call.p 0 1)]) ∧
    HasStart { code := 0x0603, who := [pM, pO], facets := true, fields := [(0, 2), (2, 1), (4, 2), (8, 8), (16, 4)] }
      (fun call s => call.p 0 2 ≤ 287 ∧ call.p 2 1 ≤ 1 ∧ permBad (call.p 4 2) (call.p 16 4) = false ∧ call.p 8 8 < (if 272 ≤ call.p 0 2 then 2 ^ 56 else 2 ^ 48) ∧ movBindDeny call s = false) (fun call _ => [(obChan, call.p 0 2), (obEpoch, call.who)]) ∧
    HasStart { code := 0x0604, who := [pM, pO], fields := [(0, 1), (4, 2), (8, 8), (16, 4)] }
      (fun call s => call.p 0 1 ≤ 15 ∧ permBad (call.p 4 2) (call.p 16 4) = false ∧ call.p 8 8 < 2 ^ 48 ∧ mintDenied s call (call.p 4 2) (call.p 8 8) (call.p 16 4) = false) (fun call _ => [(obEpoch, call.who)]) ∧
    HasStart { code := 0x0605, who := [pM, pO], fields := [(0, 1)] }
      (fun call _ => call.p 0 1 ≤ 15) none' ∧
    HasStart { code := 0x0606, who := [pM, pO], fields := [(0, 1), (1, 1), (2, 1)], buffer := some (16, 16, 1) }
      (fun call _ => call.p 0 1 ≤ 127 ∧ call.p 1 1 ≤ 1 ∧ call.p 2 1 ≤ 15) none' :=
  ⟨hasStart 1 0x10000011000000000000000030000007f 0 State.reset (by decide +kernel) (by decide +kernel),
   hasStart 1 0x1 0 State.reset (by decide +kernel) (by decide +kernel),
   hasStart 1 0x10000011000000000000000030000010f 0 State.reset (by decide +kernel) (by decide +kernel),
   hasStart 1 0x10000011000000000000000030000000f 0 State.reset (by decide +kernel) (by decide +kernel),
   hasStart 1 0x0 0 State.reset (by decide +kernel) (by decide +kernel),
   hasStart 1 0x0 16 State.reset (by decide +kernel) (by decide +kernel)⟩

/-- Consumable commands: each starts, with fields that its statement admits. -/
theorem witness_ConsumableCommands :
    HasStart { code := 0x0801, who := [pM, pO, pI], issuers := true, fields := [(0, 2)], buffer := some (32, 1048576, 1) }
      (fun _ _ => True) none' ∧
    HasStart { code := 0x0802, who := [pM, pO], facets := true, fields := [(0, 2), (2, 1)] }
      (fun call _ => (call.p 0 2 ≤ 1023 ∧ call.p 2 1 ≤ 7)) (fun _ _ => [(obLedger, 7)]) ∧
    HasStart { code := 0x0803, who := [pM, pO], issuers := true, facets := true, fields := [(0, 2), (2, 1)] }
      (fun call s => (call.p 0 2 ≤ 1023 ∧ call.p 2 1 ≤ 7) ∧ ((call.prin.any fun p => decide (16 ≤ p ∧ p ≤ 31)) = true → ∀ l, chipLine s (call.p 0 2) (call.p 2 1) = some l → consAt s l 8 1 = call.who)) none' ∧
    HasStart { code := 0x0804, who := [pO], facets := true, fields := [(0, 2), (2, 1), (4, 4)] }
      (fun call _ => (call.p 0 2 ≤ 1023 ∧ call.p 2 1 ≤ 7)) (fun _ _ => [(obLedger, 7)]) ∧
    HasStart { code := 0x0805, who := [], issuers := true, fields := [(0, 1), (1, 1), (4, 4)] }
      (fun call _ => call.p 1 1 ≤ 1) (fun _ _ => [(obLedger, 7)]) :=
  ⟨hasStart 1 0x0 32 State.reset (by decide +kernel) trivial,
   hasStart 1 0x703ff 0 State.reset (by decide +kernel) (by decide +kernel),
   hasStart 1 0x0 0 State.reset (by decide +kernel) ⟨by decide +kernel, fun h => absurd h (by decide +kernel)⟩,
   hasStart 2 0x0 0 State.reset (by decide +kernel) (by decide +kernel),
   hasStart 16 0x0 0 State.reset (by decide +kernel) (by decide +kernel)⟩

/-- Metrology commands: each starts, with fields that its statement admits. -/
theorem witness_MetrologyCommands :
    HasStart { code := 0x0901, who := [], zero := true, facets := true, buffer := some (128, 128, 1), orNone := true }
      (fun _ _ => True) none' ∧
    HasStart { code := 0x0902, who := [pM], buffer := some (16, 65536, 1), input := true }
      (fun _ _ => True) (fun _ _ => [(obMetro, 0)]) ∧
    HasStart { code := 0x0905, who := [], zero := true, fields := [(0, 4)], buffer := some (64, 1048576, 1) }
      (fun _ _ => True) none' :=
  ⟨hasStart 0 0x0 0 State.reset (by decide +kernel) trivial,
   hasStart 1 0x0 16 State.reset (by decide +kernel) trivial,
   hasStart 0 0x0 64 State.reset (by decide +kernel) trivial⟩

/-- Ledger commands: each starts, with fields that its statement admits. -/
theorem witness_LedgerCommands :
    HasStart { code := 0x0A01, who := [pH, pM, pO, pI], issuers := true, fields := [(0, 1), (4, 4)], buffer := some (64, 1048576, 64) }
      (fun call s => call.p 0 1 ≤ 8 ∧ call.p 4 4 % 64 = 0 ∧ ldgReadDeny call s = false) none' ∧
    HasStart { code := 0x0A02, who := [pM, pO], fields := [(0, 2), (2, 1), (8, 32)] }
      (fun call _ => 1 ≤ call.p 2 1 ∧ call.p 2 1 ≤ 32) (fun _ _ => [(obLedger, 0)]) ∧
    HasStart { code := 0x0A03, who := [pM, pO, pI] }
      (fun _ _ => True) none' :=
  ⟨hasStart 1 0x1 64 State.reset (by decide +kernel) (by decide +kernel),
   hasStart 1 0x200000 0 State.reset (by decide +kernel) (by decide +kernel),
   hasStart 1 0x0 0 State.reset (by decide +kernel) trivial⟩

/-- Update commands: each starts, with fields that its statement admits. -/
theorem witness_UpdateCommands :
    HasStart { code := 0x0B01, who := [pH, pM], fields := [(0, 1), (4, 4), (8, 4)], buffer := some (16, 1048576, 1), input := true }
      (fun call s => call.p 0 1 ≤ 1 ∧ call.p 4 4 % 16 = 0 ∧ call.p 4 4 + call.dlen ≤ call.p 8 4 ∧ call.p 8 4 % 16 = 0 ∧ call.p 8 4 ≤ 0x1000000 ∧ ∀ g, s.gly.stage = some g → g.kind = call.p 0 1 → g.total = call.p 8 4) (fun _ _ => [(obUpdate, 0)]) ∧
    HasStart { code := 0x0B02, who := [pH, pM], fields := [(0, 1), (8, 8)] }
      (fun call _ => call.p 0 1 ≤ 1) (fun _ s => applyObs s) ∧
    HasStart { code := 0x0B03, who := [pH, pM, pO, pI] }
      (fun _ _ => True) none' ∧
    HasStart { code := 0x0B04, who := [pH, pM], fields := [(0, 1)] }
      (fun call _ => call.p 0 1 ≤ 1) (fun _ _ => [(obUpdate, 0)]) :=
  ⟨hasStart 1 0x100000000000000000 16 State.reset (by decide +kernel) ⟨by decide +kernel, by decide +kernel, by decide +kernel, by decide +kernel, by decide +kernel, fun g h => by cases h⟩,
   hasStart 1 0x0 0 State.reset (by decide +kernel) (by decide +kernel),
   hasStart 1 0x0 0 State.reset (by decide +kernel) trivial,
   hasStart 1 0x0 0 State.reset (by decide +kernel) (by decide +kernel)⟩


theorem startsOf {sp : CmdSpec} {obs : Call → State → List (Nat × Nat)} (prin par dlen : Nat) (s0 : State) (h : startsB sp obs prin par dlen s0 = true) :
    Starts sp obs (given sp dlen) (asked sp prin par dlen s0) (cmdOf sp prin par dlen) (callOf sp prin par dlen) := by
  simp only [startsB, Bool.and_eq_true, decide_eq_true_eq, beq_iff_eq, Bool.or_eq_true, Bool.not_eq_true'] at h
  obtain ⟨⟨⟨⟨⟨h1, h2⟩, h3⟩, h4⟩, h5⟩, h6⟩ := h
  refine ⟨⟨?_, h1, h2, rfl, ?_, rfl⟩, h4, h5, ?_, rfl, h6⟩
  · simp [asked, given, cmdOf]
  · intro hi; rcases h3 with h3 | h3
    · simp [hi] at h3
    · exact h3
  · simp [bufferOk, callOf]

theorem entry_data (sp : CmdSpec) (c : Cmd) (d : List Byte) (s : State) :
    checkEntry sp c ⟨0, d, true, []⟩ s = (checkEntry sp c ⟨0, [], true, []⟩ s).map id fun call => { call with data := d } := by
  unfold checkEntry
  cases c.reservedAt <;> cases sp.strayByte c <;> try rfl
  dsimp only
  rw [apply_ite (Sum.map id _)]
  refine ite_congr rfl (fun _ => rfl) fun _ => ?_
  cases c.src with
  | facet n k => dsimp only; cases capLive s k <;> rfl
  | host q =>
    dsimp only
    by_cases h : c.auth = 0
    · rw [if_pos h, if_pos h]; cases sp.zero <;> rfl
    · rw [if_neg h, if_neg h]; cases session s c.auth with
      | none => rfl
      | some p => dsimp only; split <;> rfl

def regsSpec (b : Bool) : CmdSpec := { code := 0x0505, who := [pM], fields := [(0, 1), (1, 1)], buffer := some (8192, 8192, 1), input := b }
def regsObs (call : Call) (_ : State) : List (Nat × Nat) := if call.p 1 1 = 1 then [(obFacet, call.p 0 1)] else []
/-- FACET_REGS reads and writes, at its last facet. -/
theorem witness_FacetRegs :
    ∀ w ∈ [0, 1], ∃ g s c call, call.p 0 1 ≤ 127 ∧ call.p 1 1 = w ∧ ∃ b, b = (paramByte s g.id 1 == 1) ∧ Starts (regsSpec b) regsObs g s c call := by
  have write : Starts (regsSpec true) regsObs ⟨0, List.replicate 8192 0, true, []⟩ (asked (regsSpec true) 1 383 8192 State.reset)
        (cmdOf (regsSpec true) 1 383 8192) { callOf (regsSpec false) 1 383 8192 with data := List.replicate 8192 0 } := by
    refine ⟨⟨by simp only [asked]; decide +kernel, by decide +kernel, by decide +kernel, rfl, fun _ => List.length_replicate.trans (by decide +kernel), rfl⟩, ?_,
      by decide +kernel, by decide +kernel, by decide +kernel, by decide +kernel⟩
    have h : checkEntry (regsSpec true) (cmdOf (regsSpec true) 1 383 8192) ⟨0, [], true, []⟩ (asked (regsSpec true) 1 383 8192 State.reset)
      = .inr (callOf (regsSpec false) 1 383 8192) := by decide +kernel
    rw [entry_data, h]; rfl
  intro w hw
  simp only [List.mem_cons, List.not_mem_nil, or_false] at hw
  rcases hw with rfl | rfl
  · exact ⟨_, _, _, _, by decide +kernel, by decide +kernel, false, by decide +kernel,
      startsOf (sp := regsSpec false) (obs := regsObs) 1 127 8192 State.reset (by decide +kernel)⟩
  · exact ⟨_, _, _, _, by decide +kernel, by decide +kernel, true, by decide +kernel, write⟩

/-- TEST_WORD reads and writes, at the last word of a store of its last crown. -/
theorem witness_TestWord :
    ∀ w ∈ [0, 3], ∃ g s c call, call.p 0 1 ≤ 15 ∧ call.p 1 1 = w ∧ call.p 2 1 ≤ 2 ∧ call.p 3 1 ≤ 7 ∧ call.p 4 4 < 128 * storePages (call.p 2 1) ∧
    call.p 8 1 ≤ 1 ∧ ∃ b, b = (paramByte s g.id 1 != 0) ∧
    Starts { code := 0x050C, who := [pH, pM], fields := [(0, 1), (1, 1), (2, 1), (3, 1), (4, 4), (8, 1)], buffer := some (40, 40, 1), input := b }
      crownOb g s c call := by
  have aux (b : Bool) (w : Nat) (hw : (w = 0 ∧ b = false) ∨ (w = 3 ∧ b = true)) := by
    exact startsOf (sp := { code := 0x050C, who := [pH, pM], fields := [(0, 1), (1, 1), (2, 1), (3, 1), (4, 4), (8, 1)], buffer := some (40, 40, 1), input := b })
      (obs := crownOb) 1 (15 + w * 256 + 7 * 2 ^ 24 + (128 * storePages 0 - 1) * 2 ^ 32) 40 State.reset
      (by rcases hw with ⟨rfl, rfl⟩ | ⟨rfl, rfl⟩ <;> decide +kernel)
  intro w hw
  simp only [List.mem_cons, List.not_mem_nil, or_false] at hw
  rcases hw with rfl | rfl
  · exact ⟨_, _, _, _, by decide +kernel, by decide +kernel, by decide +kernel, by decide +kernel, by decide +kernel, by decide +kernel, false,
      by decide +kernel, aux false 0 (.inl ⟨rfl, rfl⟩)⟩
  · exact ⟨_, _, _, _, by decide +kernel, by decide +kernel, by decide +kernel, by decide +kernel, by decide +kernel, by decide +kernel, true,
      by decide +kernel, aux true 3 (.inr ⟨rfl, rfl⟩)⟩

/-- A sealed configuration that names nothing but its two facets. -/
def noConf : SealedConf := ⟨List.replicate 32 0x20, [], [⟨0, 1, 0, 0⟩, ⟨1, 1, 0, 0⟩], [], [], [], [], [], [], [], []⟩
/-- The metrology state. -/
def inMetro (m : Nat) (s : State) : State := rput (bezReg 0x100) 32 2 m s
def sealSpec : CmdSpec := { code := 0x0903, who := [pI], fields := [(0, 16)] }
def breakSpec : CmdSpec := { code := 0x0904, who := [pI], fields := [(0, 4)] }
/-- The command of the record that waits. -/
def waiting (sp : CmdSpec) (w : CmdWait) (s : State) : State :=
  { s with gly := { s.gly with cmds := [{ cmdOf sp 3 0 0 with wait := w }] } }

/-- METR_SEAL in a state without a staged image; with an image staged, for every image that the loader parses as a configuration that names
nothing; its later step. METR_BREAK in a state without a seal, with one, and its later step. -/
theorem witness_Metrology :
    HasStart sealSpec (fun _ s => metroState s = 0 ∧ (s.gly.cmds.find? fun c => c.id == 0 && c.wait == .sealing) = none) (fun _ _ => [(obMetro, 0)]) ∧
    (∀ img, Config.parseSealed img = some noConf →
      let s := waiting sealSpec .sealing (setMetro { staged := img } (inMetro 1 State.reset))
      (s.gly.cmds.find? fun c => c.id == 0 && c.wait == .sealing) = some { cmdOf sealSpec 3 0 0 with wait := .sealing } ∧ stagedConf s = some noConf ∧ quiet noConf s = true) ∧
    HasStart breakSpec (fun _ s => metroState s = 2 ∧ pfw s = false ∧ legalFull s = false ∧
      (s.gly.cmds.find? fun c => c.id == 0 && c.wait == .breaking) = none) (fun _ s => (obMetro, 0) :: (match s.metro.conf with | some conf => confObjects conf | none => [])) ∧
    (let s := waiting breakSpec .breaking (setMetro { conf := some noConf } (inMetro 3 State.reset))
     (s.gly.cmds.find? fun c => c.id == 0 && c.wait == .breaking) = some { cmdOf breakSpec 3 0 0 with wait := .breaking } ∧ s.metro.conf = some noConf ∧
       metroState s = 3 ∧ quiet noConf s = true) := by
  refine ⟨hasStart 3 0 0 State.reset (by decide +kernel) (by decide +kernel), fun img h => ⟨by rfl, by
      show (Config.parseSealed img).filter confOk = some noConf
      rw [h]; decide +kernel, by rfl⟩,
    hasStart 3 0 0 (setMetro { conf := some noConf } (inMetro 2 State.reset)) (by decide +kernel) (by decide +kernel), by decide +kernel⟩

/-- ChecksInOrder: EVENT_ENABLE with a reserved bit, with PLEN 0, with AUTH 0, and of a principal that may not issue it. -/
theorem witness_Checks :
    let sp : CmdSpec := { code := 0x0003, who := [pM, pO], fields := [(0, 8)] }
    let turn (c : Cmd) (prin : Nat) : Prop :=
      Turn sp (given sp 0) { asked sp prin 0 0 State.reset with gly := { cmds := [c], prins := [⟨1, prin, 0⟩] } } c
    (let c := { cmdOf sp 1 0 0 with entry := (cmdOf sp 1 0 0).entry + BitVec.ofNat 512 (2 ^ 17) }
     turn c 1 ∧ c.reservedAt = some 2) ∧
    (let c := { cmdOf sp 1 0 0 with entry := BitVec.ofNat 512 (3 + 2 ^ 48) }
     turn c 1 ∧ c.reservedAt = none ∧ c.plen < 8 ∧ (∀ i ∈ List.range 40, c.param / 2 ^ (8 * i) % 256 = 0)) ∧
    (let c := { cmdOf sp 0 0 0 with entry := BitVec.ofNat 512 (3 + 8 * 2 ^ 24) }
     turn c 1 ∧ c.auth = 0 ∧ c.plen = 8 ∧ c.dlen = 0 ∧ c.dptr = 0) ∧
    (turn (cmdOf sp 3 0 0) 3 ∧ (cmdOf sp 3 0 0).auth ≠ 0 ∧
      (session { State.reset with gly := { prins := [⟨1, 3, 0⟩] } } (cmdOf sp 3 0 0).auth).map (·.prin) = some 3) := by
  have t (c : Cmd) (prin : Nat) (h : (c.id == 0 && c.code == 3) = true)
      (h2 : mayStart { asked { code := 0x0003, who := [pM, pO], fields := [(0, 8)] } prin 0 0 State.reset with
        gly := { cmds := [c], prins := [⟨1, prin, 0⟩] } } c = true) :
      Turn { code := 0x0003, who := [pM, pO], fields := [(0, 8)] } (given { code := 0x0003, who := [pM, pO], fields := [(0, 8)] } 0)
        { asked { code := 0x0003, who := [pM, pO], fields := [(0, 8)] } prin 0 0 State.reset with gly := { cmds := [c], prins := [⟨1, prin, 0⟩] } } c := by
    simp only [Bool.and_eq_true, beq_iff_eq] at h
    exact ⟨by simp [given, h.1], h.2, h2, rfl, fun h => absurd h (by decide), rfl⟩
  exact ⟨⟨t _ _ (by decide +kernel) (by decide +kernel), by decide +kernel⟩, ⟨t _ _ (by decide +kernel) (by decide +kernel), by decide +kernel⟩,
    ⟨t _ _ (by decide +kernel) (by decide +kernel), by decide +kernel⟩, t _ _ (by decide +kernel) (by decide +kernel), by decide +kernel⟩


/-- DebugPort: a response that grants its scope is one whose signature verifies, for the Maker and for another signer with a root; one whose scope
has a bit without a meaning is none. An instruction of the debug unit in an open scope, and one that is not allowed. -/
theorem witness_DebugPort :
    (∀ sig, Config.verify 0 0 ([0x43, 0x48, 0x4E, 0x2D, 0x44, 0x42, 0x55, 0x47] ++ ([7] ++ shaBytes Config.deviceKey 48) ++ natBytes 4 15) sig = true →
      GoodResponse 15 0 sig (setBez { nonce := some [7] } State.reset)) ∧
    (∀ sig s, ¬ GoodResponse 16 0 sig s) ∧
    sealActive State.reset = false ∧ bit (8 : BitVec 32) 3 = true ∧ Jtag.debugPrivate ∉ [Jtag.bypass, Jtag.idcode, Jtag.samplePreload, Jtag.dbgchal, Jtag.dbgresp] := by
  refine ⟨fun sig h => ⟨[7], rfl, by decide, by decide, by decide +kernel, by decide, .inl rfl, h⟩, ?_, by decide +kernel⟩
  rintro sig s ⟨n, _, _, h, _⟩
  exact absurd h (by decide)

/-- A sealed partition whose active configuration grants calibration line 3. -/
def calSealed : State :=
  setMetro { conf := some { noConf with cal := [(3, 1)] } } (inMetro 2 { State.reset with locks := { facets := [0, 1] } })
def fullLegal (s : State) : State := { s with ledger := { s.ledger with legal := 8128 } }

/-- LedgerWindow: the first and the last line; a calibration line granted, its neighbours, and the legal trail one record below full and full. -/
theorem witness_LedgerWindow :
    ledgerRoom State.reset 0 = true ∧ ledgerRoom State.reset 262143 = true ∧ State.reset.ledger.flush = false ∧
    (let s : State := { State.reset with ledger := { flush := true } }
     s.ledger.flush = true ∧ ledgerRoom s 0 = true) ∧
    calGranted calSealed (regionLine 4 + 3) = true ∧ legalFull calSealed = false ∧ ledgerRoom calSealed (regionLine 4 + 3) = true ∧
    calGranted calSealed (regionLine 4 + 2) = false ∧ calGranted calSealed (regionLine 4 + 4) = false ∧
    legalFull { State.reset with ledger := { legal := 8127 } } = false ∧ legalFull (fullLegal calSealed) = true ∧ calGranted (fullLegal calSealed) (regionLine 4 + 3) = true := by
  decide +kernel

/-- A pending line. -/
def pendingLine (busy : Bool) (s : State) : State := { s with ledger := { s.ledger with pend := [⟨1024, List.replicate 64 7, 480, busy, false⟩] } }

/-- LedgerCommits: a line due; a line that commits, with no change of the metrology state and with each. -/
theorem witness_LedgerCommits :
    (let s := pendingLine false State.reset
     (s.ledger.pend.find? fun p => p.line == 1024 && !p.busy) = some ⟨1024, List.replicate 64 7, 480, false, false⟩ ∧
       commitFirst s ⟨1024, List.replicate 64 7, 480, false, false⟩ = true ∧ ∀ q ∈ s.ledger.pend, q.line = 1024 → q.busy = false) ∧
    (let s := pendingLine true State.reset
     (s.ledger.pend.find? fun p => p.line == 1024 && p.busy) = some ⟨1024, List.replicate 64 7, 480, true, false⟩ ∧ s.metro.change = none) ∧
    ∀ k ∈ [1, 2, 3], let s := setMetro { change := some (1024, k) } (pendingLine true State.reset)
      (s.ledger.pend.find? fun p => p.line == 1024 && p.busy) = some ⟨1024, List.replicate 64 7, 480, true, false⟩ ∧ s.metro.change = some (1024, k) := by
  decide +kernel

/-- PowerFail: no warning, and a warning with a pending line. -/
theorem witness_PowerFail :
    rbit (pendingLine false State.reset) (girdle 0x120) 63 = false ∧
    rbit (withRegs [(girdle 0x120, 2 ^ 63)] (pendingLine false State.reset)) (girdle 0x120) 63 = true := by decide +kernel

/-- Facet 0 holds a capability with every permission over 1,024 bytes from `a`. -/
def holding (a : Nat) : State := setFacet 0 { k := [(kKey 0 1, ⟨mkCap 1 1 0 0x0FFF 0x400 a, true⟩)] } State.reset

/-- RegisterWrites: registers of the steward at both ends of a block, an address without a register, a register that no capability reaches. -/
theorem witness_RegisterWrites :
    stewardReg 8 = false ∧ stewardReg (girdle 0x118) = true ∧ rangeServed State.reset (girdle 0x118) (girdle 0x120) = true ∧
    rangeServed State.reset (girdle 0x120) (girdle 0x128) = true ∧ rangeServed State.reset (macReg 7 0) (macReg 7 0 + 8) = true ∧
    rangeServed State.reset (crownReg 15 0) (crownReg 15 0 + 16) = true ∧
    (let a := crownReg 15 8; a % 8 = 0 ∧ isRegister a = true ∧ rangeServed State.reset a (a + 8) = true ∧ capReaches a = false ∧ writePerms (holding a) a (.facet 0) ≠ []) ∧
    (let a := ltim 0 0; let s := holding a
     a % 8 = 0 ∧ isRegister a = true ∧ rangeServed s a (a + 8) = true ∧ cellWindow a = false ∧ macWindow a = false ∧ ctxAt a = none ∧
       (writePerms s a (.facet 0)).find? (fun p => (accessPerms a true).all fun q => p.testBit q) = some 0x0FFF) ∧
    rangeServed State.reset (cellReg 1023 0x3F8) (cellReg 1023 0x3F8 + 8) = true := by decide +kernel

/-- Window 0 of PF1 over the first 32,768 words of the store of crown 0. -/
def hosted : State :=
  { State.reset with links := { up := true }, gly := { wins := [(0, ⟨mkCap 1 1 0 0x0003 0x8000 0x011000000000, true⟩)] } }

/-- HostRequests: no window; a read and a write at both ends of a window, a read beyond its end. -/
theorem witness_HostRequests :
    hosted.links.up = true ∧ windowCheck hosted false 0x40000000 1 = none ∧ windowCheck hosted true 0x40000000 1 = none ∧
    windowCheck hosted false 0x80000 1 = none ∧ windowCheck hosted false 0x7FFFF 1 = some (0x01100007FFFF, 3) ∧
    windowCheck hosted true 0 16 = some (0x011000000000, 3) ∧ rangeServed hosted 0x011000000000 0x011000000010 = true ∧
    rangeServed hosted 0x01100007FFFF 0x011000080000 = true ∧ isRegister 0x01100007FFFF = false ∧ (∀ x, chunkBusy hosted x = false) ∧
    rangeBad hosted 0x01100007FFFF 1 = false ∧ region 0x011000000000 = .crown 0 ∧ hosted.marks = [] := by
  refine ⟨?_, ?_, ?_, ?_, ?_, ?_, ?_, ?_, ?_, fun x => ?_, ?_, ?_, ?_⟩
  case refine_10 => simp [chunkBusy, hosted, State.reset]
  all_goals decide +kernel

/-- PcieLinks: the reference is there, or lost; the link down and up. -/
theorem witness_PcieLinks :
    (let s := withRegs [(girdle 0, 2)] State.reset
     s.links.up = false ∧ rbit s (girdle 0) 1 = true ∧ domState s 35 = 1 ∧ rbit s (girdle 0) 2 = false) ∧
    hosted.links.up = true ∧ hosted.links.speed ≠ 3 ∧ hosted.links.width ≠ 3 := by decide +kernel

/-- MAC 7 up, with RS-FEC. -/
def linked : State := withRegs [(macReg 7 0, 0xA9), (macReg 7 8, 3), (girdle 0, 4)] State.reset
def ethFrame (n et : Nat) : Frame := ⟨List.replicate 12 0 ++ natBytes 1 (et / 256) ++ natBytes 1 et ++ List.replicate (n - 14) 1, 0, true, false, false⟩
/-- A pause frame of 1 quantum. -/
def pauseFrame : Frame := ⟨List.replicate 12 0 ++ [0x88, 8, 0, 1, 0, 1] ++ List.replicate 46 0, 0, true, false, false⟩
/-- A heartbeat of package 2 in an Ethernet frame. -/
def beatFrame : FabFrame := eventFrame 0 0 []
def wire (f : FabFrame) : Frame :=
  ⟨List.replicate 11 0 ++ [0x10, 0x88, 0xB5] ++ fabBytes f ++ natBytes 4 f.crc.toNat ++ List.replicate 40 0, 0, true, false, false⟩
/-- The fabric of package 1 and 2 over MAC 7. -/
def fabLinked : State := withRegs [(macReg 7 0, 0xA9), (macReg 7 8, 3), (girdle 0, 4)] joined

/-- MacsReceive: a link that comes up, one that is up with RS-FEC; frames at the bounds of the lengths, a pause frame, a heartbeat of another package. -/
theorem witness_MacsReceive :
    (let s := withRegs [(macReg 7 0, 1), (girdle 0, 4)] State.reset
     rbit s (macReg 7 0) 0 = true ∧ rbit s (girdle 0) 2 = true ∧ domState s 36 = 1 ∧ rbit s (macReg 7 8) 0 = false ∧ macCfgBad (macCfg s 7) = false ∧
       macCfgBad (macCfg (withRegs [(macReg 7 0, 7)] s) 7) = true) ∧
    macUp linked 7 = true ∧ rbit linked (macReg 7 8) 1 = true ∧
    (∀ n ∈ [63, 64, 1500], (ethFrame n 0x0800).bytes.length = n ∧ etherType (ethFrame n 0x0800).bytes false = 0x0800 ∧
      (mac linked 7).rx.length + recordLen n ≤ 65535) ∧
    (etherType pauseFrame.bytes false = 0x8808 ∧ 64 ≤ pauseFrame.bytes.length ∧ rbit linked (macReg 7 0) 5 = true ∧ beAt pauseFrame.bytes 14 2 = 1) ∧
    (let fr := wire beatFrame
     let f := fabParse fr.bytes false
     macUp fabLinked 7 = true ∧ 64 ≤ fr.bytes.length ∧ fr.bytes.length ≤ 9600 ∧ etherType fr.bytes false = 0x88B5 ∧ rbit fabLinked (macReg 7 0) 7 = true ∧ f.ty = 0 ∧
       fabCrc f = f.crc ∧ f.ver = 1 ∧ fabMember fabLinked f = true) := by decide +kernel

/-- A receive queue that has no place for a frame of 1,500 bytes. -/
theorem witness_queueFull (l : List Byte) (h : l.length = 65000) : 65535 < (mac (setMac 7 { rx := l } linked) 7).rx.length + recordLen 1500 := by
  have e : (mac (setMac 7 { rx := l } linked) 7).rx = l := by simp [mac, setMac]
  rw [e, h]; decide

/-- A record of a frame of `n` bytes in the transmit queue of MAC 7. -/
def sending (n : Nat) (bs : List Byte) : State := setMac 7 { tx := natBytes 2 n ++ List.replicate 30 0 ++ padTo (recordLen n - 32) bs } linked

/-- MacsTransmit: a frame at the least length, one below it, a PTP frame. -/
theorem witness_MacsTransmit :
    (∀ n ∈ [59, 60], macUp (sending n []) 7 = true ∧ 32 ≤ (mac (sending n []) 7).tx.length ∧ leAt (mac (sending n []) 7).tx 0 2 = n ∧
      recordLen n ≤ (mac (sending n []) 7).tx.length ∧ ptpAt (((mac (sending n []) 7).tx.drop 32).take n) = none ∧ rbit (sending n []) (macReg 7 0) 6 = false ∧
      fld (macCfg (sending n []) 7) 8 8 ≠ 1) ∧
    (let s := sending 60 (List.replicate 12 0 ++ [0x88, 0xF7])
     ptpAt (((mac s 7).tx.drop 32).take 60) = some (14, none) ∧ rbit s (macReg 7 0) 6 = false ∧ (mac s 7).ts.length < 16) := by decide +kernel

/-- A window of package 2 over the store of crown 0, for reading and writing. -/
def windowed : State := setFabric { joined.fabric with wins := [⟨0, 2, 3, 0x011000000000, 0x80000⟩] } joined
def request (ty : BitVec 4) (n a : Nat) (payload : List Byte) : FabFrame :=
  let f := { eventFrame ty (BitVec.ofNat 16 n) payload with addr := BitVec.ofNat 64 a }
  { f with crc := fabCrc f }

/-- FabricRequests: a read at the end of a window and one beyond it, a write, a length that no request has, a request answered before, a window that
does not allow it. -/
theorem witness_FabricRequests :
    (∀ fr ∈ [request 1 8 0x01100007FFF8 [], request 2 0 0x011000000000 (List.replicate 8 1)],
      domState windowed 36 = 1 ∧ fabBad windowed fr = false ∧ fabWaits fr false windowed = false ∧ fabShape fr = true ∧
      (tget [] windowed.fabric.seen 2).find? (fun p => p.1 == fr.seq.toNat) = none ∧
      (fabWindows windowed 2 (fr.addr.toNat % 2 ^ 48) (fabLen fr)).find? (fun w => ((if fr.ty = 1 then permR else permW) ::
        blockPerms (fr.ty != 1) (fr.addr.toNat % 2 ^ 48) (fr.addr.toNat % 2 ^ 48 + fabLen fr)).all fun p => w.perm.testBit p) = some ⟨0, 2, 3, 0x011000000000, 0x80000⟩ ∧
      rangeBacked windowed (fr.addr.toNat % 2 ^ 48) (fr.addr.toNat % 2 ^ 48 + fabLen fr) = true ∧ region (fr.addr.toNat % 2 ^ 48) = .crown 0 ∧
      chunkBusy windowed (fr.addr.toNat % 2 ^ 48) = false) ∧ windowed.marks = [] ∧
    (let fr := request 1 8 0x011000080000 []
     fabBad windowed fr = false ∧ fabWaits fr false windowed = false ∧ fabWindows windowed 2 0x011000080000 8 = []) ∧
    (let fr := request 1 4 0x011000000000 []
     fabBad windowed fr = false ∧ fabWaits fr false windowed = false ∧ fabShape fr = false) ∧
    (let s := setFabric { joined.fabric with wins := [⟨0, 2, 1, 0x011000000000, 0x80000⟩] } joined
     fabWindows s 2 0x011000000000 8 ≠ [] ∧ (fabWindows s 2 0x011000000000 8).find? (fun w => (permW :: blockPerms true 0x011000000000 0x011000000008).all fun p =>
       w.perm.testBit p) = none) ∧
    (let s := setFabric { windowed.fabric with seen := [(2, [(1, eventFrame 4 0 [])])] } windowed
     let fr := request 1 8 0x011000000000 []
     fabBad s fr = false ∧ fabWaits fr false s = false ∧ ((tget [] s.fabric.seen fr.spkg.toNat).find? fun p => p.1 == fr.seq.toNat) = some (1, eventFrame 4 0 [])) := by
  decide +kernel

/-- An outstanding write to package 2. -/
def outstanding (tries : Nat) (chan : Option (Nat × Nat)) : State :=
  setFabric { joined.fabric with out := [⟨{ request 2 0 0 (List.replicate 8 1) with dpkg := 2, spkg := 1 }, tries, 0, chan, false⟩] } joined

/-- FabricAnswers: an answer that matches nothing, an acknowledgement and a refusal of a frame of the package and of a channel; the eighth
retransmission and the end after it; a heartbeat. -/
theorem witness_FabricAnswers :
    (∀ ty ∈ [4, 5], let fr := eventFrame ty 3 []
      domState joined 36 = 1 ∧ fabBad joined fr = false ∧ fabMatch joined fr = none ∧ fabBad (outstanding 0 none) fr = false ∧
      fabMatch (outstanding 0 none) fr = (outstanding 0 none).fabric.out.head? ∧ fabMatch (outstanding 0 (some (0, 1))) fr = (outstanding 0 (some (0, 1))).fabric.out.head? ∧
      (outstanding 0 none).fabric.out ≠ [] ∧ (outstanding 0 (some (0, 1))).fabric.out ≠ []) ∧
    (∀ n ∈ [7, 8], ((outstanding n none).fabric.out.find? fun o => o.fr.dpkg == 2 && o.fr.seq == 1).map (fun o => (o.tries, o.chan)) = some (n, none)) ∧
    joined.fabric.joined = true := by decide +kernel

/-- Resets: a line pending at power-on; a steward that runs; a reset that RESET has announced. -/
theorem witness_Resets :
    (let s := pendingLine false State.reset
     s.ledger.pend = [⟨1024, List.replicate 64 7, 480, false, false⟩] ∧ s.metro.change = none) ∧
    (setPwr { running := true } State.reset).pwr.running = true ∧ (setPwr { resetAt := some 7 } State.reset).pwr.resetAt = some 7 := by decide +kernel

/-- A change of a domain under way. -/
def switching (d t : Nat) (force : Bool) : State := setBusy d true (setPwr { changes := [⟨d, t, 0, force⟩] } State.reset)

/-- DomainWrites: every change that the power controller makes, one that it refuses, one that waits. -/
theorem witness_DomainWrites :
    (let s := switching 3 3 false
     changeOf s 3 = some ⟨3, 3, 0, false⟩ ∧ dBusy s 3 = true) ∧
    dLegal 0 4 = false ∧ dLegal 15 3 = true ∧ dLocked State.reset 15 3 = false ∧ dBusy State.reset 15 = false ∧ domState State.reset 15 = 1 ∧
    copying State.reset 15 = false ∧ dLegal 15 2 = true ∧ dLegal 20 4 = true ∧ dLegal 36 4 = true ∧ dLegal 37 4 = false ∧ domState State.reset 20 = 1 ∧
    dLocked (inMetro 2 { State.reset with locks := { facets := [0, 1] } }) 0 3 = true ∧ domState (inDom 15 3 State.reset) 15 = 3 := by decide +kernel

/-- DomainChanges: a crown to P1, a group off and on, a crown to P2 with FORCE and without, with a remote operation outstanding; a crown that wakes. -/
theorem witness_DomainChanges :
    (changeOf (switching 3 2 false) 3 = some ⟨3, 2, 0, false⟩ ∧ retireCopies (switching 3 2 false) 3 = false ∧
      (3 : Nat) ∉ (advanceTo (copyEnd (switching 3 2 false) 3) (switching 3 2 false)).pwr.again) ∧
    (changeOf (switching 20 4 false) 20 = some ⟨20, 4, 0, false⟩ ∧ affected (switching 20 4 false) (withGroups 20) = []) ∧
    (changeOf (switching 22 1 false) 22 = some ⟨22, 1, 0, false⟩ ∧ domState (switching 22 1 false) 20 = 1) ∧
    (remoteFacets (switching 15 3 false) 15 = [] ∧ retireCopies (switching 15 3 false) 15 = false ∧ copyEnd (switching 15 3 false) 15 = 0 ∧ affected (switching 15 3 false) [15] = [] ∧ (15 : Nat) ∉ (advanceTo 1200 (switching 15 3 false)).pwr.again) ∧
    (let s := setFacet 120 { remotes := [⟨0, .rld, 8, 0x011000000000, 0x010000000000, [], 0, false⟩] } (switching 15 3 false)
     remoteFacets s 15 ≠ []) ∧
    (let s := setWakes [15] (inDom 15 3 State.reset)
     (15 : Nat) ∈ s.wakes ∧ s.pwr.waking = [] ∧ domState s 15 ≠ 1 ∧ domState s 15 ≠ 4) ∧
    (let s := setPwr { waking := [(15, 0)] } (inDom 15 3 State.reset)
     (∃ w ∈ s.pwr.waking, w.1 = 15) ∧ (15 : Nat) ∉ s.pwr.again ∧ domState s 15 = 3) := by decide +kernel

/-- StandbyAndSensors: a STANDBY announced; a package in P3 that both causes may wake. -/
theorem witness_Standby :
    ((setPwr { standby := some 5 } State.reset).pwr.standby = some 5 ∧ sealActive (setPwr { standby := some 5 } State.reset) = false) ∧
    (let s := withRegs [(girdle 0x110, 3)] (setPwr { asleep := true } State.reset)
     s.pwr.asleep = true ∧ rbit s (girdle 0x110) 0 = true ∧ rbit s (girdle 0x110) 1 = true) := by decide +kernel

/-- Two slots of the same release, a valid manifest, 1 GiB of DRAM on each channel. -/
def booting : BootIn := ⟨true, true, 5, 0, true, 5, 0, true, 0, 1, [1, 2, 3, 16, 31], 1, 0, 0, 1, 1⟩

/-- Boots: both slots usable, one of them, none, a self-test that fails, no DRAM; the hold of a thermal reset over. -/
theorem witness_Boots :
    bootTop booting ≠ 0 ∧ bootTop { booting with ddr0 := 0 } = 0 ∧
    State.reset.pwr.running = false ∧ State.reset.pwr.asleep = false ∧ rfld State.reset (bezReg 0) 0 8 = 0 ∧ State.reset.pwr.holdReset = false ∧ fuseRoll State.reset = 0 ∧
    (setPwr { holdReset := true, coolAt := some 0 } State.reset).pwr.coolAt ≠ none ∧ railOut State.reset = false ∧
    railOut (setPwr { railAt := some 5 } State.reset) = false ∧ railOut (sensorSample 39 1290 { State.reset with fclk := 120000 }) = true := by
  decide +kernel

/-- IdleStepIsOneFclk and MemoryStaysCanonical: the state after reset, whose step goes on; a listed byte of memory. -/
theorem witness_everyState :
    State.reset.pending = [] ∧ State.reset.tb.step = none ∧ State.reset.tb.pend = none ∧ Memory.wf State.reset.mem = true ∧ State.reset.goesOn ∧
    Memory.wf (poke 0x010000000000 [1, 2] State.reset).mem = true := by
  exact ⟨rfl, rfl, rfl, rfl, ⟨_, rfl⟩, by decide +kernel⟩

/-- Expiries and the patrol of SystemCommands and IntegrityCommands: an open session, an open nonce, a patrol period and no pass under way. -/
theorem witness_glebyEvents :
    (let s : State := { State.reset with pwr := { running := true }, gly := { prins := [⟨7, 1, 0⟩], nonces := [⟨3, 1, [], 0⟩] } }
     (s.gly.prins.find? fun p => p.handle == 7) = some ⟨7, 1, 0⟩ ∧ (s.gly.nonces.find? fun n => n.id == 3) = some ⟨3, 1, [], 0⟩ ∧ s.pwr.running = true ∧
       s.gly.period ≠ 0 ∧ ∀ u ∈ List.range 17, (integ s u).scrub = none) := by decide +kernel

/-! ### One step, with results by hand from R38, R74, R108, R303 and R549 -/

/-- The lane-17 balls of R574: cells 274 and 275, feed 1 of controller 17; and one on brim die 1. -/
theorem test_balls :
    [padBall 274 false, padBall 274 true, padBall 275 false, padBall 275 true] = ["BB5", "BB6", "BB7", "BB8"] ∧
    [feedBall 17 1 0, feedBall 17 1 1, feedBall 17 1 2] = ["BB20", "BB21", "BB22"] ∧ padBall 512 false = "B72" ∧ rowName 72 = "CT" := by decide +kernel

/-- G1 := G2 + G3 = 9 + 5, one bundle later. -/
theorem test_add : (match exec (.add 0 ⟨true, 0, 3, 0x2001, 0x2002, 0x2003⟩) ready with | .next t => (facet t 0).flights | _ => []) = [⟨1, .g 1 14⟩] := by
  decide +kernel
/-- -1 + 1 = 0: the sum wraps. -/
theorem test_add_wraps : (match exec (.add 0 ⟨true, 0, 3, 0x2001, 0xEFFF, 0x2006⟩) ready with | .next t => (facet t 0).flights | _ => []) = [⟨1, .g 1 0⟩] := by
  decide +kernel
/-- An FCLK is a tick. -/
theorem test_idle : (match step State.reset with | .next t => t.tb.tick | _ => 0) = 1 := by decide +kernel
/-- The reset cause 9 is recorded; store time goes on. -/
theorem test_packageReset :
    (match exec (.packageReset 9) { State.reset with tb := { tick := 77 } } with | .next t => (rfld t (girdle 0x100) 0 8, t.tb.tick) | _ => (0, 0)) = (9, 77) := by
  decide +kernel

/-! ### The worked examples of the manual -/

/-- Chapters 1 and 8: where the units of lane 17 lie. -/
theorem test_lane17 :
    cellReg 274 0 = 0x013000044800 ∧ blkReg 17 0 = 0x013000210000 ∧ pfdReg 17 0 = 0x013000501100 ∧ chanReg 3 0 = 0x012008004C00 ∧
    ctxAddr 0x441 0 = 0x012000444100 ∧ blockerOf 272 = 17 ∧ groupOf 272 = 2 ∧ crownOf 40 = 5 ∧ dieOfCrown 5 = 1 := by decide +kernel
/-- Chapter 4: a Q30 accumulator stored as Q15, with rounding and without. -/
theorem test_accst :
    (let v := accStore 3 (2 ^ 30 + 0xFFFFE0000000 * 2 ^ 48 + 2 ^ 14 * 2 ^ 96) (15 + 2 ^ 7)
     lane 16 v 0 = 0x7FFF ∧ lane 16 v 1 = 0xC000 ∧ lane 16 v 2 = 1) ∧ lane 16 (accStore 3 (2 ^ 14 * 2 ^ 96) 15) 2 = 0 := by decide +kernel
/-- Chapter 11: T0 as ticks and as a PTP time; the tables of bank 1. -/
theorem test_storeTime :
    ptpTick 1800000000 347000000 0 = 2160000000416400000 ∧ ptpSec 2160000000416400000 = 1800000000 ∧ ptpNs 2160000000416400000 = 347000000 ∧
    ptpFrac 2160000000416400000 = 0 ∧ hatBankBase 1 = 0x012000032000 := by decide +kernel
/-- Chapter 12: the cable of cell 276, 15.15 ns. -/
theorem test_cable : tdrLen 606 0 = 30 := by decide +kernel
/-- Chapter 14: the buckets of the scanner's key and its entry. -/
theorem test_route :
    routeH1 0x110011 = 0x967 ∧ routeH2 0x110011 = 0x845 ∧ bankAddr 0 0x967 0 = 0x0120001659C0 ∧ routeEntry 0x110011 0 0x441 = 0x8022002200220800 := by
  decide +kernel

/-! ### Ill-formed commands, which the checks of WellFormed refuse -/

theorem test_facetRegisterOffset : wellFormed (.facetRegisterBlockWrite 0 4 0 .steward) = false := by decide +kernel
theorem test_typeCodeOfUntyped : wellFormed (.nop 0 ⟨true, 0, 1, 0, 0, 0⟩) = false ∧ wellFormed (.nop 0 ⟨true, 0, 0, 0, 0, 0⟩) = true := by decide +kernel
theorem test_reconstructionPage : wellFormed (.reconstruction (2 ^ 37) 0 [] false) = false := by decide +kernel
theorem test_windowLengths : wellFormed (.txWindowWrite 0 [1, 2, 3] .steward) = false ∧ wellFormed (.rxWindowRead 0 5 .steward) = false := by decide +kernel
theorem test_contextBounds : wellFormed (.contextWrite 0 255 [1, 2] .steward) = false ∧ wellFormed (.contextWrite 0 0 [] .steward) = false := by decide +kernel
theorem test_debugSignature : wellFormed (.dbgresp 0 0 [1]) = false := by decide +kernel
theorem test_hostWindowLength :
    wellFormed (.hostWindowRequest false 0 0 [] false) = false ∧ wellFormed (.hostWindowRequest false 0 4097 [] false) = false ∧
    wellFormed (.hostWindowRequest false (2 ^ 34) 1 [] false) = false ∧ wellFormed (.hostWindowRequest true 0 0 [1] true) = false := by decide +kernel
theorem test_resetCause : wellFormed (.packageReset 0) = false ∧ wellFormed (.packageReset 11) = false := by decide +kernel
theorem test_registerAddress :
    wellFormed (.counterClearWrite 4) = false ∧ wellFormed (.counterClearWrite (2 ^ 48)) = false ∧ wellFormed (.registerWrite 4 0 .steward) = false ∧
    wellFormed (.registerWrite (2 ^ 48) 0 .steward) = false := by decide +kernel
theorem test_msixVector : wellFormed (.msiXMaskClear 0 48) = false ∧ wellFormed (.msiXMaskClear 1 16) = false ∧ wellFormed (.msiXMaskClear 0 47) = true := by decide +kernel

end Sys2Proof.Tests
end

/-! The steward's write of ETH_MCFG, and why the statement on register writes fails: it says that such a write changes ETH_MCFG alone, but one that
clears EN of a MAC whose link is up takes the link down (R523), which ETH_MSTAT shows. -/
namespace Sys2Proof.Proofs
open Sys2Proof Sys2Proof.Machine Sys2Proof.Claims Sys2Proof.Laws

/-! ### Registers after an operation -/

theorem rget_rset_same (a : Nat) (v : BitVec 64) (s : State) : rget (rset a v s) a = v := tget_tset_self ..
theorem rget_rput_same (a lo w v : Nat) (s : State) : rget (rput a lo w v s) a = setFld (rget s a) lo w v := rget_rset_same ..
theorem rget_rset_ne {a b : Nat} (h : b ≠ a) (v : BitVec 64) (s : State) : rget (rset a v s) b = rget s b := by
  unfold rget rset tset
  dsimp only
  split
  · exact tget_tdel_ne _ _ h
  · exact tget_tput_ne _ _ _ h

/-- Registers are read from the register table alone. -/
theorem rget_congr {s t : State} (h : s.regs = t.regs) (a : Nat) : rget s a = rget t a := by simp [rget, h]

theorem acceptEvents_regs (ctl src m : Nat) (s : State) : (acceptEvents ctl src m s).regs = s.regs := by
  unfold acceptEvents intStatSet
  simp only [setIntSrc]
  split <;> simp
theorem pulseEvent_regs (ctl src : Nat) (s : State) : (pulseEvent ctl src s).regs = s.regs := by
  unfold pulseEvent fdrop
  dsimp only
  repeat' split
  all_goals simp [acceptEvents_regs]
theorem raiseSteward_regs (src : Nat) (s : State) : (raiseSteward src s).regs = s.regs := pulseEvent_regs ..

/-! ### ETH_MCFG -/

theorem macReg_region : ∀ m : Fin 8, region (macReg m 0) = .girdle (0xB0000 + m.val * 0x1000) := by decide
theorem macReg_isStewardReg : ∀ m : Fin 8, stewardReg (macReg m 0) = true := by decide
theorem macReg_ne (m : Nat) : macReg m 8 ≠ macReg m 0 := by simp [macReg, ethReg, girdle]

/-- A steward write of ETH_MCFG goes to the MAC's configuration. -/
theorem stewardWrite_macCfg (m : Fin 8) (v : BitVec 64) (s : State) : stewardWrite (macReg m 0) v s = (true, macCfgWrite m v s) := by
  have hm := m.isLt
  have h1 : ¬ 0xB0000 + m.val * 0x1000 < 0xA0000 := by omega
  have h2 : 0xB0000 + m.val * 0x1000 < 0xC0000 := by omega
  have h3 : 0xB0000 + m.val * 0x1000 - 0xB0000 = m.val * 0x1000 := by omega
  have h4 : m.val * 0x1000 < 0x8000 := by omega
  unfold stewardWrite
  rw [macReg_region]
  dsimp only
  rw [if_neg (by omega), if_neg (by omega), if_neg (by omega), if_neg (by omega), if_neg (by omega), if_neg (by omega), if_neg (by omega),
    if_neg h1, if_pos h2, h3]
  unfold ethWrite
  rw [if_pos h4, if_pos (Nat.mul_mod_left ..), Nat.mul_div_cancel _ (by norm_num)]

/-- A configuration without EN takes a link that is up down. -/
theorem macCfgWrite_linkDown (m : Nat) {v : BitVec 64} {s : State} (hv : bit v 0 = false) (hup : rbit s (macReg m 8) 0 = true) :
    rbit (macCfgWrite m v s) (macReg m 8) 0 = false := by
  have hup' : rbit (rset (macReg m 0) (v &&& 0xFFFF) s) (macReg m 8) 0 = true := by
    unfold rbit; rwa [rget_rset_ne (macReg_ne m)]
  unfold macCfgWrite
  dsimp only
  rw [if_pos (by rw [hv, hup']; rfl)]
  unfold rbit bit
  rw [rget_congr (raiseSteward_regs ..), rget_rput_same, getLsbD_setFld]
  simp

/-- The write as a command: the link is down in the state that it answers. -/
theorem registerWrite_macCfg_linkDown (m : Fin 8) {v : BitVec 64} {s : State} (hserved : rangeServed s (macReg m 0) (macReg m 0 + 8) = true)
    (hv : bit v 0 = false) (hup : rbit s (macReg m 8) 0 = true) :
    ∃ t, exec (.registerWrite (macReg m 0) v .steward) s = .next t ∧ rbit t (macReg m 8) 0 = false := by
  refine ⟨macCfgWrite m v s, ?_, macCfgWrite_linkDown m hv hup⟩
  change execRegisterWrite (macReg m 0) v .steward s = _
  simp [execRegisterWrite, macReg_isStewardReg, hserved, stewardWrite_macCfg, gate]

/-! ### The counterexample -/

/-- From reset: the Ethernet reference returns, the steward enables MAC 0, its link comes up. Not compiled: `Instr` has more constructors than
a compiled literal can tag. -/
noncomputable def linkUpCommands : List Instr := [.serdesReferenceReturn true, .registerWrite (macReg 0 0) 1 .steward, .macLinkUp 0]

/-- The Ethernet block is served, and the link of MAC 0 is up. -/
def macZeroUp (s : State) : Bool := rangeServed s (macReg 0 0) (macReg 0 0 + 8) && rbit s (macReg 0 8) 0

/-- The commands lead from reset to a state with the link up. -/
theorem linkUpCommands_run : ∃ s, core.run 3 { State.reset with pending := linkUpCommands } = .next s ∧ macZeroUp s = true := by
  have h : (match core.run 3 { State.reset with pending := linkUpCommands } with | .next s => macZeroUp s | _ => false) = true := by
    decide +kernel
  split at h
  · exact ⟨_, ‹_›, h⟩
  · exact absurd h (by simp)

/-- Refutes O58: after reset and `linkUpCommands` the link of MAC 0 is up, and a steward write of 0 to its ETH_MCFG takes it down (R523; log entry
84), so that ETH_MSTAT changes too, where RegisterWrites says that no register but ETH_MCFG does. -/
theorem not_registersAndHost : ¬ Obligations.RegistersAndHost := by
  unfold Obligations.RegistersAndHost RegisterWrites
  rintro ⟨⟨-, -, -, -, hmac, -⟩, -⟩
  obtain ⟨s, -, hs⟩ := linkUpCommands_run
  obtain ⟨hserved, hup⟩ := Bool.and_eq_true_iff.1 hs
  obtain ⟨t, ht, -, hothers, -⟩ := hmac 0 0 s hserved
  obtain ⟨t', ht', hdown⟩ := registerWrite_macCfg_linkDown 0 (v := 0) hserved (by decide) hup
  obtain rfl : t = t' := Host.Outcome.next.inj (ht.symm.trans ht')
  have hsame : rbit t (macReg 0 8) 0 = rbit s (macReg 0 8) 0 := congrArg (bit · 0) (hothers (macReg 0 8) (macReg_ne 0))
  exact absurd (hdown.symm.trans (hsame.trans hup)) (by decide)

end Sys2Proof.Proofs

/-! Reconstruction of a page and seam replays (R15, R262 to R266): what the error log and the interrupt sources leave of the state, and from it
what these two commands do. -/
namespace Sys2Proof.Proofs
open Sys2Proof Sys2Proof.Machine Sys2Proof.Claims Sys2Proof.Laws

/-! ### The error log -/

/-- The state without its registers and interrupt tables, the only fields that the error log and the steward's sources write. -/
def offLog (s : State) : State := { s with regs := [], hits := [], ints := [], intc := [], intWas := [] }

/-- A loop whose steps keep a part of the state keeps it. -/
theorem foldl_keeps {α β γ : Type} {part : α → γ} {g : α → β → α} (h : ∀ s x, part (g s x) = part s) (l : List β) (s : α) :
    part (l.foldl g s) = part s := by
  induction l generalizing s with
  | nil => rfl
  | cons x l ih => rw [List.foldl_cons, ih, h]

theorem rset_offLog (a : Nat) (v : BitVec 64) (s : State) : offLog (rset a v s) = offLog s := by simp [offLog]
theorem rput_offLog (a lo w v : Nat) (s : State) : offLog (rput a lo w v s) = offLog s := by simp [offLog]
theorem rsat_offLog (a lo w v : Nat) (s : State) : offLog (rsat a lo w v s) = offLog s := by simp [offLog]
theorem noteHit_offLog (a i : Nat) (b : Bool) (s : State) : offLog (noteHit a i b s) = offLog s := by simp [offLog]
theorem rbitSet_offLog (a i : Nat) (b : Bool) (s : State) : offLog (rbitSet a i b s) = offLog s := by simp [offLog]
theorem setIntSrc_offLog (ctl src : Nat) (x : IntSrc) (s : State) : offLog (setIntSrc ctl src x s) = offLog s := by simp [offLog]
theorem setIntCtl_offLog (ctl : Nat) (x : IntCtl) (s : State) : offLog (setIntCtl ctl x s) = offLog s := by simp [offLog]
theorem intStatSet_offLog (ctl i : Nat) (s : State) : offLog (intStatSet ctl i s) = offLog s :=
  (noteHit_offLog ..).trans (setIntCtl_offLog ..)
theorem acceptEvents_offLog (ctl src m : Nat) (s : State) : offLog (acceptEvents ctl src m s) = offLog s := by
  unfold acceptEvents
  simp only [setIntSrc_offLog, intStatSet_offLog, apply_ite offLog, ite_self]
theorem raiseSteward_offLog (src : Nat) (s : State) : offLog (raiseSteward src s) = offLog s := by
  unfold raiseSteward pulseEvent fdrop
  simp only [acceptEvents_offLog, setIntCtl_offLog, setIntSrc_offLog, apply_ite offLog, ite_self]
theorem raiseGirdle_offLog (blk : Nat) (s : State) : offLog (raiseGirdle blk s) = offLog s :=
  (raiseSteward_offLog ..).trans (rbitSet_offLog ..)
theorem itgEvt_offLog (u i src : Nat) (s : State) : offLog (itgEvt u i src s) = offLog s := by
  unfold itgEvt
  simp only [apply_ite offLog, raiseSteward_offLog, raiseGirdle_offLog, noteHit_offLog, rbitSet_offLog, ite_self]
theorem logDropped_offLog (u src : Nat) (s : State) : offLog (logDropped u src s) = offLog s :=
  (itgEvt_offLog ..).trans (rsat_offLog ..)
theorem logThresh_offLog (u e src : Nat) (s : State) : offLog (logThresh u e src s) = offLog s := by
  unfold logThresh
  simp only [apply_ite offLog, itgEvt_offLog, ite_self]
theorem logOne_offLog (u : Nat) (s : State) (ev : LogEvent) : offLog (logOne u s ev) = offLog s := by
  unfold logOne
  dsimp only
  split
  · simp only [apply_ite offLog, logThresh_offLog, itgEvt_offLog, rbitSet_offLog, rset_offLog, rput_offLog, rsat_offLog, ite_self]
  · split
    · exact logDropped_offLog ..
    · simp only [logThresh_offLog, rput_offLog, rset_offLog, noteHit_offLog]
theorem logEvents_offLog (u : Nat) (evs : List LogEvent) (s : State) : offLog (logEvents u evs s) = offLog s :=
  (foldl_keeps (fun s ev => logDropped_offLog u (evSource ev) s) ..).trans (foldl_keeps (logOne_offLog u) ..)

/-! ### Reconstruction -/

theorem reconstruct_eq (page port : Nat) (erased : List (Fin 128)) (sideBad : Bool) (s : State) :
    reconstruct page port erased sideBad s =
      if (reconstructPage page port erased sideBad s).1 then (reconstructPage page port erased sideBad s).2
      else resetOwner (page * 2048) (markDataLost ((erasedIn s (page * 2048) erased).map fun k => page * 2048 + 16 * k)
        (reconstructPage page port erased sideBad s).2) := rfl

/-- A page with something to rebuild is reconstructed. -/
theorem exec_reconstruction {page : Nat} {port : Fin 8} {erased : List (Fin 128)} {sideBad : Bool} {s : State} (hcoded : isCoded (page * 2048) = true)
    (h : sideBad = true ∨ erasedIn s (page * 2048) erased ≠ []) :
    exec (.reconstruction page port erased sideBad) s = .next (reconstruct page port erased sideBad s) := by
  have hgate : (isCoded (page * 2048) && (sideBad || !(erasedIn s (page * 2048) erased).isEmpty)) = true := by simpa [hcoded] using h
  change gate _ _ = _
  rw [hgate]
  rfl

/-- A page with an erased word, and a third one or a bad side byte, is lost. -/
theorem reconstructPage_lost {page port : Nat} {erased : List (Fin 128)} {sideBad : Bool} {s : State} (hne : erasedIn s (page * 2048) erased ≠ [])
    (h : ¬ ((erasedIn s (page * 2048) erased).length ≤ 2 ∧ (!sideBad) = true)) : (reconstructPage page port erased sideBad s).1 = false := by
  unfold reconstructPage
  simp only [List.isEmpty_iff, hne, if_neg h, if_false]

/-- Without an erased word the side bytes alone are written again: no word and no facet changes. -/
theorem reconstructPage_noErasure {page port : Nat} {erased : List (Fin 128)} {sideBad : Bool} {s : State}
    (h : erasedIn s (page * 2048) erased = []) :
    (reconstructPage page port erased sideBad s).1 = true ∧ (reconstructPage page port erased sideBad s).2.mem = s.mem ∧
      (reconstructPage page port erased sideBad s).2.facets = s.facets := by
  unfold reconstructPage
  simp only [h, List.isEmpty_nil, if_true]
  cases sideBad
  · exact ⟨rfl, noteReads_mem .., noteReads_facets ..⟩
  · exact ⟨rfl, (logEvents_mem ..).trans (noteReads_mem ..), (logEvents_facets ..).trans (noteReads_facets ..)⟩

theorem reconstructionOutcome : ReconstructionOutcome := by
  intro page port erased sideBad s hcoded es q run hwork
  have hrun : run = .next (reconstruct page port erased sideBad s) := exec_reconstruction hcoded hwork
  rw [reconstruct_eq] at hrun
  refine ⟨fun hq => ?_, fun hq => ?_, fun h3 => ?_, fun hne hbad => ?_, fun h => reconstructPage_noErasure h⟩
  · exact hrun.trans (by rw [if_pos hq])
  · exact hrun.trans (by rw [if_neg (by rw [show (reconstructPage _ _ _ _ _).1 = false from hq]; simp)])
  · exact reconstructPage_lost (List.ne_nil_of_length_pos (Nat.lt_of_lt_of_le (by decide) h3)) (fun h => absurd (h3.trans h.1) (by decide))
  · exact reconstructPage_lost hne (by simp [hbad])

/-! ### Seam replays -/

/-- The replay is the `n`-th of its flit: it is counted and logged, and the steward is told. -/
def seamCounted (d n : Nat) (s : State) : State :=
  logEvents 16 [⟨6, 6, d, 0, 0, 0, false, false⟩] (raiseSteward 316 (setPwr { s.pwr with seams := tset (0, 0) s.pwr.seams d (n, s.fclk) } s))

theorem seamCounted_offLog (d n : Nat) (s : State) :
    offLog (seamCounted d n s) = offLog (setPwr { s.pwr with seams := tset (0, 0) s.pwr.seams d (n, s.fclk) } s) :=
  (logEvents_offLog ..).trans (raiseSteward_offLog ..)
theorem seamCounted_pwr (d n : Nat) (s : State) : (seamCounted d n s).pwr = { s.pwr with seams := tset (0, 0) s.pwr.seams d (n, s.fclk) } := by
  simpa [offLog] using congrArg State.pwr (seamCounted_offLog d n s)
theorem seamCounted_mem (d n : Nat) (s : State) : (seamCounted d n s).mem = s.mem := by
  simpa [offLog] using congrArg State.mem (seamCounted_offLog d n s)
theorem seamCounted_facets (d n : Nat) (s : State) : (seamCounted d n s).facets = s.facets := by
  simpa [offLog] using congrArg State.facets (seamCounted_offLog d n s)
theorem seamCounted_tb (d n : Nat) (s : State) : (seamCounted d n s).tb = s.tb := by
  simpa [offLog] using congrArg State.tb (seamCounted_offLog d n s)

/-- The eighth replay of a flit resets the package (R15). -/
theorem seamReplay_eq {d n a : Nat} {s : State} (h : tget (0, 0) s.pwr.seams d = (n, a)) :
    seamReplay d s =
      let k := if n ≠ 0 ∧ s.fclk ≤ a + 48 then n + 1 else 1
      if 8 ≤ k then packageReset 9 (seamCounted d k s) else seamCounted d k s := by
  unfold seamReplay
  rw [h]
  rfl

theorem seamReplayCounts : SeamReplayCounts := by
  intro d n a s h more
  have hexec : exec (.seamReplay d) s = .next (seamReplay d s) := rfl
  rw [seamReplay_eq h] at hexec
  dsimp only at hexec
  refine ⟨fun hfew => ?_, fun hmore h7 => ?_⟩
  · rw [if_neg (c := 8 ≤ _) (by split <;> omega)] at hexec
    exact ⟨_, hexec, by rw [seamCounted_pwr, tget_tset_self], seamCounted_mem .., seamCounted_facets .., seamCounted_tb ..⟩
  · rw [if_pos (c := _ ∧ _) hmore, if_pos (by omega)] at hexec
    exact ⟨_, hexec, seamCounted_mem .., seamCounted_facets ..⟩

/-- Settles O32, by what the error log leaves alone and by the number of erased words that the page code can bear. -/
theorem reconstructionAndSeams : Obligations.ReconstructionAndSeams := ⟨reconstructionOutcome, seamReplayCounts⟩

end Sys2Proof.Proofs

/-! Gleby's commands on sessions and the fabric (R25 to R27, R394, R422, R440, R441, R451, R452, R530): what a command that starts does with the
reply of its body, and the bodies of these commands. -/
namespace Sys2Proof.Proofs
open Sys2Proof Sys2Proof.Machine Sys2Proof.Claims Sys2Proof.Laws

/-! ### A command that starts -/

/-- What Gleby makes of the reply of a body and the state that comes with it. -/
def answer (c : Cmd) (call : Call) (p : Reply × State) : State := settle c call p.1 p.2

section
variable {c : Cmd} {call : Call}

theorem answer_fail (st : Nat) (u : State) : answer c call (fail st u) = fails c st 0 u := by
  simp [answer, settle, fail, fails, putData]
theorem answer_failWith (st r : Nat) (u : State) : answer c call (failWith st r u) = fails c st r u := by
  simp [answer, settle, failWith, fails, putData]
theorem answer_done (r : Nat) (u : State) : answer c call (done r u) = succeeds c call r [] u := by
  simp [answer, settle, done, Claims.succeeds]
theorem answer_doneData (hlink : call.linkOk = true) (r : Nat) (bs : List Byte) (u : State) :
    answer c call (doneData r bs u) = succeeds c call r bs u := by
  simp [answer, settle, doneData, Claims.succeeds, hlink]
theorem answer_listReply (hlink : call.linkOk = true) (start size : Nat) (recs : List (List Byte)) (u : State) :
    answer c call (listReply call start size recs u) = lists c call start size recs u := answer_doneData hlink ..
theorem answer_wait {w : CmdWait} (hw : w ≠ .none) (held : List (Nat × Nat)) (u : State) :
    answer c call ({ wait := w, held := held }, u) = begins c w held u := by
  simp [answer, settle, begins, hw]

/-- A call takes its link from what the row brings. -/
theorem checkEntry_linkOk {sp : CmdSpec} {g : GIn} {s : State} (h : checkEntry sp c g s = .inr call) : call.linkOk = g.linkOk := by
  unfold checkEntry at h
  dsimp only at h
  repeat' split at h
  all_goals cases h <;> rfl

/-- A buffer that has arrived whole is neither padded nor cut. -/
theorem padTo_length (bs : List Byte) : padTo bs.length bs = bs := List.take_left

/-- What the row brings is taken as it is. -/
theorem turn_input_eq {sp : CmdSpec} {g : GIn} {s : State} (h : Turn sp g s c) :
    (if sp.input then { g with data := padTo c.dlen g.data } else g) = g := by
  split
  · rw [← h.data ‹_›, padTo_length]
  · rfl

/-- Where a command starts and no check of its own fails, its body acts. -/
theorem runCmd_of_starts {sp : CmdSpec} {obs : Call → List (Nat × Nat)} {g : GIn} {s : State} {bad : Call → State → Option BadAt}
    {deny : Call → State → Bool} {body : Call → State → Reply × State} (h : Starts sp (fun call _ => obs call) g s c call)
    (hbad : bad call s = none) (hdeny : deny call s = false) :
    runCmd sp bad deny obs body g s = .next (answer c call (body call (touchSession c s))) := by
  unfold runCmd
  rw [h.found]
  dsimp only
  rw [if_neg (by simp [h.code, h.turn, h.running]), turn_input_eq h.toTurn, h.entry]
  dsimp only
  rw [h.awake, h.link, hbad, h.allowed, h.buffer, hdeny, h.free]
  simp [answer]

/-- A row of Gleby's table: `P` follows from what the row's body answers. -/
theorem runs_of_body {x : GIn → Instr} {sp : CmdSpec} {ok : Call → State → Prop} {obs : Call → List (Nat × Nat)} {bad : Call → State → Option BadAt}
    {deny : Call → State → Bool} {body : Call → State → Reply × State} {P : Cmd → Call → State → State → Prop}
    (hexec : ∀ g s call, ok call s → exec (x g) s = runCmd sp bad deny obs body g s)
    (hbad : ∀ call s, ok call s → bad call s = none) (hdeny : ∀ call s, ok call s → deny call s = false)
    (hbody : ∀ c call s u, ok call s → call.linkOk = true → P c call u (answer c call (body call u))) :
    Runs x sp ok (fun call _ => obs call) P := by
  intro g s c call hstart hok
  have hlink : call.linkOk = true := (checkEntry_linkOk hstart.entry).trans hstart.link
  exact ⟨_, (hexec g s call hok).trans (runCmd_of_starts hstart (hbad _ _ hok) (hdeny _ _ hok)), hbody _ _ s _ hok hlink⟩

/-- No field has an excluded value where none of the conditions holds. -/
theorem firstBad_none {l : List (Bool × Nat)} (h : ∀ p ∈ l, p.1 = false) : firstBad l = none := by
  simpa [firstBad] using h

/-- PARAM bytes as a number are bounded. -/
theorem callP_lt (call : Call) (o n : Nat) : call.p o n < 2 ^ (8 * n) := Nat.mod_lt _ (by positivity)

/-- An event goes to Gleby's queues alone. -/
theorem postEvent_eq (cls : Nat) (data : BitVec 64) (s : State) : ∃ g, postEvent cls data s = setGly g s := by
  unfold postEvent
  split
  · exact ⟨s.gly, rfl⟩
  · split <;> exact ⟨_, rfl⟩

/-! ### Girdle memory -/

theorem natBytes_length (k v : Nat) : (natBytes k v).length = k := by
  induction k generalizing v with
  | zero => rfl
  | succ k ih => rw [natBytes, List.length_cons, ih]

theorem bytesNat_natBytes (k v : Nat) : bytesNat (natBytes k v) = v % 256 ^ k := by
  induction k generalizing v with
  | zero => simp [natBytes, bytesNat, Nat.mod_one]
  | succ k ih =>
    rw [natBytes, bytesNat, ih, BitVec.toNat_ofNat, pow_succ' 256 k, Nat.mod_mul]

theorem bytesNat_lt (bs : List Byte) : bytesNat bs < 256 ^ bs.length := by
  induction bs with
  | nil => simp [bytesNat]
  | cons b bs ih =>
    have hb : b.toNat < 256 := b.isLt
    rw [bytesNat, List.length_cons, Nat.pow_succ]
    omega

theorem natAt_lt (s : State) (a len : Nat) : natAt s a len < 256 ^ len := by
  simpa [natAt, bytesAt] using bytesNat_lt (bytesAt s a len)

/-- A number is read from the memory alone. -/
theorem natAt_congr {s t : State} (h : s.mem = t.mem) (a len : Nat) : natAt s a len = natAt t a len := by
  simp [natAt, bytesAt, byteAt, h]

theorem natAt_poke_same (a k v : Nat) (s : State) : natAt (poke a (natBytes k v) s) a k = v % 256 ^ k := by
  have hbytes : bytesAt (poke a (natBytes k v) s) a k = natBytes k v := by
    refine List.ext_getElem (by simp [bytesAt, natBytes_length]) fun i h1 h2 => ?_
    rw [natBytes_length] at h2
    simp [bytesAt, byteAt, mget_mputs, natBytes_length, h2, List.getD_eq_getElem?_getD]
  rw [natAt, hbytes, bytesNat_natBytes]

theorem natAt_poke_apart {a b len : Nat} {bs : List Byte} (h : b + len ≤ a ∨ a + bs.length ≤ b) (s : State) :
    natAt (poke a bs s) b len = natAt s b len := by
  unfold natAt bytesAt
  refine congrArg bytesNat (List.map_congr_left fun i hi => ?_)
  have hi' := List.mem_range.1 hi
  simp only [byteAt, poke_fields, mget_mputs]
  exact if_neg (by omega)

/-- A write to a girdle memory is one to memory, but for the rewritten bits of the error log. -/
theorem girdlePut_offRegs (a : Nat) (bs : List Byte) (s : State) : offRegs (girdlePut a bs s) = offRegs (poke a bs s) := by
  have hbit : ∀ (s : State) (r : Nat), offRegs (rbitSet r 59 true s) = offRegs s := fun s r => by simp [offRegs]
  exact foldl_keeps (fun s w => foldl_keeps hbit (loggedAt w s) s) ..
theorem girdlePut_mem (a : Nat) (bs : List Byte) (s : State) : (girdlePut a bs s).mem = (poke a bs s).mem := by
  simpa [offRegs] using congrArg State.mem (girdlePut_offRegs a bs s)
theorem girdlePut_tags (a : Nat) (bs : List Byte) (s : State) : (girdlePut a bs s).tags = s.tags := by
  simpa [offRegs] using congrArg State.tags (girdlePut_offRegs a bs s)
theorem girdlePut_epochs (a : Nat) (bs : List Byte) (s : State) : (girdlePut a bs s).epochs = s.epochs := by
  simpa [offRegs] using congrArg State.epochs (girdlePut_offRegs a bs s)
theorem natAt_girdlePut_same (a k v : Nat) (s : State) : natAt (girdlePut a (natBytes k v) s) a k = v % 256 ^ k :=
  (natAt_congr (girdlePut_mem ..) ..).trans (natAt_poke_same ..)
theorem natAt_girdlePut_apart {a b len : Nat} {bs : List Byte} (h : b + len ≤ a ∨ a + bs.length ≤ b) (s : State) :
    natAt (girdlePut a bs s) b len = natAt s b len :=
  (natAt_congr (girdlePut_mem ..) ..).trans (natAt_poke_apart h s)

theorem mem_sadd_self (l : List Nat) (i : Nat) : i ∈ sadd l i := by
  induction l with
  | nil => simp [sadd]
  | cons k l ih =>
    unfold sadd
    split
    · simp
    · split
      · simp [*]
      · simp [ih]

theorem tagAt_setTag_true (a : Nat) (s : State) : tagAt (setTag a true s) a = true := by
  simpa [tagAt, sput] using mem_sadd_self s.tags (wordOf a)

/-! ### Fields of a context -/

theorem ctxFld_eq (s : State) (n o lo w : Nat) : ctxFld s n o lo w = fld (BitVec.ofNat 64 (natAt s (ctxAddr n o) 8)) lo w := by
  have h : natAt s (ctxAddr n o) 8 < 2 ^ 64 := natAt_lt s (ctxAddr n o) 8
  rw [fld, BitVec.toNat_ofNat, Nat.mod_eq_of_lt h, ctxFld]

/-- A field is read from its register alone. -/
theorem ctxFld_congr {s t : State} {n o : Nat} (h : natAt s (ctxAddr n o) 8 = natAt t (ctxAddr n o) 8) (lo w : Nat) :
    ctxFld s n o lo w = ctxFld t n o lo w := by rw [ctxFld, ctxFld, h]

theorem natAt_ctxPut_same (n o lo w v : Nat) (s : State) :
    natAt (ctxPut n o lo w v s) (ctxAddr n o) 8 = (setFld (BitVec.ofNat 64 (natAt s (ctxAddr n o) 8)) lo w v).toNat :=
  (natAt_girdlePut_same ..).trans (Nat.mod_eq_of_lt (BitVec.isLt _))
theorem natAt_ctxPut_apart {n o o' len : Nat} (h : o' + len ≤ o ∨ o + 8 ≤ o') (lo w v : Nat) (s : State) :
    natAt (ctxPut n o lo w v s) (ctxAddr n o') len = natAt s (ctxAddr n o') len :=
  natAt_girdlePut_apart (by rw [natBytes_length]; unfold ctxAddr girdle; omega) s

theorem ctxFld_ctxPut_same {lo w : Nat} (h : lo + w ≤ 64) (n o v : Nat) (s : State) : ctxFld (ctxPut n o lo w v s) n o lo w = v % 2 ^ w := by
  rw [ctxFld_eq, natAt_ctxPut_same, BitVec.ofNat_toNat, BitVec.setWidth_eq, fld_setFld_same _ _ _ _ h]
theorem ctxFld_ctxPut_field {lo w lo' w' : Nat} (h : lo' + w' ≤ lo ∨ lo + w ≤ lo') (n o v : Nat) (s : State) :
    ctxFld (ctxPut n o lo w v s) n o lo' w' = ctxFld s n o lo' w' := by
  rw [ctxFld_eq, natAt_ctxPut_same, BitVec.ofNat_toNat, BitVec.setWidth_eq, fld_setFld_apart _ h, ← ctxFld_eq]
theorem ctxFld_ctxPut_apart {o o' : Nat} (h : o' + 8 ≤ o ∨ o + 8 ≤ o') (n lo w v lo' w' : Nat) (s : State) :
    ctxFld (ctxPut n o lo w v s) n o' lo' w' = ctxFld s n o' lo' w' := ctxFld_congr (natAt_ctxPut_apart h ..) ..

/-! ### SES_RING -/

/-- Session `n` with the ring that SES_RING gives it: base, size and event of the ring. -/
def ringPlaced (call : Call) (n : Nat) (u : State) : State :=
  ctxPut n 0 60 1 (call.p 3 1) (ctxPut n 0 48 12 (call.p 4 2) (ctxPut n 8 7 41 (call.p 8 8 / 128) (ctxPut n 8 60 4 (call.p 2 1) u)))
/-- The capability of the ring, for the caller. -/
def ringCapFor (call : Call) (u : State) : BitVec 128 :=
  mkCap (epochOf u call.who) call.who 0 (2 ^ permW) (2 ^ call.p 2 1 * 8) (call.p 8 8)
/-- A capability stored in the context. -/
def ringCapStored (k : BitVec 128) (n : Nat) (u : State) : State :=
  setTag (ctxAddr n 0x30) true (girdlePut (ctxAddr n 0x30) (natBytes 16 k.toNat) u)
/-- The ring is empty: CONS := PROD. -/
def ringEmptied (n : Nat) (u : State) : State := ctxPut n 0x18 0 32 (ctxFld u n 0x10 0 32) u
/-- What SES_RING makes of the session before Gleby forwards what waits in session 0. -/
def ringSet (call : Call) (n : Nat) (u : State) : State := ringEmptied n (ringCapStored (ringCapFor call u) n (ringPlaced call n u))

theorem ringPlaced_epochOf (call : Call) (n : Nat) (u : State) (p : Nat) : epochOf (ringPlaced call n u) p = epochOf u p := by
  simp only [epochOf, ringPlaced, ctxPut, girdlePut_epochs]

theorem sesRing_sets {u : State} (hfree : ctxState u (call.p 0 2) ≠ 0) (hlock : ¬ (call.p 3 1 = 1 ∧ call.p 4 2 ∈ u.locks.events)) :
    sesRing call u = done 0 (forwardZero (call.p 0 2) (ringSet call (call.p 0 2) u)) := by
  unfold sesRing
  rw [if_neg hfree, if_neg (by simpa using hlock)]
  simp only [ringSet, ringEmptied, ringCapStored, ringCapFor, ← ringPlaced_epochOf call (call.p 0 2) u]
  rfl

theorem ctxFld_ringCapStored {o : Nat} (h : o + 8 ≤ 0x30) (k : BitVec 128) (n lo w : Nat) (u : State) :
    ctxFld (ringCapStored k n u) n o lo w = ctxFld u n o lo w :=
  ctxFld_congr (natAt_girdlePut_apart (by unfold ctxAddr girdle; omega) u) ..
theorem ctxFld_ringEmptied {o : Nat} (h : o + 8 ≤ 0x18) (n lo w : Nat) (u : State) : ctxFld (ringEmptied n u) n o lo w = ctxFld u n o lo w :=
  ctxFld_ctxPut_apart (.inl h) ..
/-- Placing the ring leaves the context from its third register on. -/
theorem ctxFld_ringPlaced {o : Nat} (h : 0x10 ≤ o) (n lo w : Nat) (u : State) : ctxFld (ringPlaced call n u) n o lo w = ctxFld u n o lo w := by
  unfold ringPlaced
  rw [ctxFld_ctxPut_apart (by omega), ctxFld_ctxPut_apart (by omega), ctxFld_ctxPut_apart (by omega), ctxFld_ctxPut_apart (by omega)]
/-- The registers before CONS are those of the ring as placed. -/
theorem ctxFld_ringSet {o : Nat} (h : o + 8 ≤ 0x18) (n lo w : Nat) (u : State) : ctxFld (ringSet call n u) n o lo w = ctxFld (ringPlaced call n u) n o lo w :=
  (ctxFld_ringEmptied h ..).trans (ctxFld_ringCapStored (by omega) ..)

theorem ringBase_ringSet (n : Nat) (u : State) (h : call.p 8 8 % 128 = 0) : ringBase (ringSet call n u) n = call.p 8 8 % 2 ^ 48 := by
  rw [ringBase, ctxFld_ringSet (by decide), ringPlaced, ctxFld_ctxPut_apart (by decide), ctxFld_ctxPut_apart (by decide), ctxFld_ctxPut_same (by decide)]
  omega
theorem ringLog_ringSet (n : Nat) (u : State) (h : call.p 2 1 ≤ 15) : ringLog (ringSet call n u) n = call.p 2 1 := by
  rw [ringLog, ctxFld_ringSet (by decide), ringPlaced, ctxFld_ctxPut_apart (by decide), ctxFld_ctxPut_apart (by decide), ctxFld_ctxPut_field (by decide),
    ctxFld_ctxPut_same (by decide)]
  omega
theorem ctxFld_ringSet_notify (n : Nat) (u : State) (h : call.p 3 1 ≤ 1) : ctxFld (ringSet call n u) n 0 60 1 = call.p 3 1 := by
  rw [ctxFld_ringSet (by decide), ringPlaced, ctxFld_ctxPut_same (by decide)]
  omega
theorem ctxFld_ringSet_event (n : Nat) (u : State) (h : call.p 4 2 ≤ 4095) : ctxFld (ringSet call n u) n 0 48 12 = call.p 4 2 := by
  rw [ctxFld_ringSet (by decide), ringPlaced, ctxFld_ctxPut_field (by decide), ctxFld_ctxPut_same (by decide)]
  omega
theorem ctxFld_ringSet_cons (n : Nat) (u : State) : ctxFld (ringSet call n u) n 0x18 0 32 = ctxFld u n 0x10 0 32 := by
  rw [ringSet, ringEmptied, ctxFld_ctxPut_same (by decide), ctxFld_ringCapStored (by decide), ctxFld_ringPlaced (by decide)]
  exact Nat.mod_mod ..
theorem ringCap_ringSet (n : Nat) (u : State) : ringCap (ringSet call n u) n = ⟨ringCapFor call u, true⟩ := by
  have hcap : natAt (ringSet call n u) (ctxAddr n 0x30) 16 = (ringCapFor call u).toNat :=
    (natAt_ctxPut_apart (.inr (by decide)) ..).trans ((natAt_girdlePut_same ..).trans (Nat.mod_eq_of_lt (BitVec.isLt _)))
  have htag : tagAt (ringSet call n u) (ctxAddr n 0x30) = true :=
    (congrArg (List.contains · _) (girdlePut_tags ..)).trans (tagAt_setTag_true ..)
  rw [ringCap, hcap, htag, BitVec.ofNat_toNat, BitVec.setWidth_eq]

/-- A session number that a command may name. -/
theorem sessionBad_none {s : State} (h1 : 1 ≤ call.p 0 2) (h2 : call.p 0 2 ≤ 16383) : sessionBad call s = none :=
  firstBad_none (by simp; omega)

theorem sesRingBad_none {s : State} (h : 1 ≤ call.p 0 2 ∧ call.p 0 2 ≤ 16383) (hlog : 3 ≤ call.p 2 1 ∧ call.p 2 1 ≤ 15) (hnotify : call.p 3 1 ≤ 1)
    (hevent : call.p 4 2 ≤ 4095) (hbase : call.p 8 8 % 128 = 0) : sesRingBad call s = none := by
  rw [sesRingBad, sessionBad_none h.1 h.2]
  exact firstBad_none (by simp [hbase]; omega)

/-! ### Membership of the fabric -/

/-- The package number is read from the registers alone. -/
theorem localPkg_congr {s t : State} (h : s.regs = t.regs) : localPkg s = localPkg t := by simp only [localPkg, rfld, rget_congr h]

/-- Gleby's queues do not enter into the membership. -/
theorem localPkg_setGly (g : Gly) (s : State) : localPkg (setGly g s) = localPkg s := localPkg_congr (by simp)
theorem members_setGly (g : Gly) (s : State) : members (setGly g s) = members s := by simp [members, localPkg_setGly]

theorem registrar_setGly (g : Gly) (s : State) : registrar (setGly g s) = registrar s := by
  rw [registrar, members_setGly, localPkg_setGly, registrar]
theorem deputy_setGly (g : Gly) (s : State) : deputy (setGly g s) = deputy s := by
  rw [deputy, members_setGly, registrar_setGly, deputy]

/-- The packages that answered FAB_JOIN. -/
def joinPeers (call : Call) : List (Nat × BitVec 48) := call.ext.map fun w => (fld w 0 8, BitVec.ofNat 48 (fld w 16 48))
/-- FAB_JOIN has sent its frame, under the fabric identity and the MACs that it asks for. -/
def joinSent (call : Call) (u : State) : State :=
  sendControl 0xFF .join (setFabric { u.fabric with fabid := BitVec.ofNat 32 (call.p 4 4), macs := BitVec.ofNat 8 (call.p 1 1) } u)
/-- A join that fails: identity and MACs as before. -/
def joinUndone (call : Call) (u : State) : State :=
  setFabric { (joinSent call u).fabric with fabid := u.fabric.fabid, macs := u.fabric.macs } (joinSent call u)
/-- A join that succeeds. -/
def joinMade (call : Call) (u : State) : State :=
  let v := rput (sesReg 0x20) 0 8 (call.p 0 1) (joinSent call u)
  setFabric { v.fabric with
    joined := true, present := (joinPeers call).foldl (fun l p => sadd l p.1) [], stations := (joinPeers call).foldl (fun t p => tput t p.1 p.2) [],
    heard := (joinPeers call).foldl (fun t p => tput t p.1 v.fclk) [], seqs := [], seen := [], beat := v.fclk } v

theorem fabJoin_eq {u : State} (hout : u.fabric.joined = false) (hon : domGone u 36 = false) :
    fabJoin call u =
      if (joinPeers call).isEmpty then failWith stFabric 0 (joinUndone call u)
      else if (joinPeers call).any fun p => p.1 == call.p 0 1 then failWith stFabric 1 (joinUndone call u)
      else done (registrar (joinMade call u) + deputy (joinMade call u) * 2 ^ 8)
        (postEvent 9 (BitVec.ofNat 64 (call.p 0 1 + 2 ^ 8)) (joinMade call u)) := by
  unfold fabJoin
  rw [if_neg (by simp [hout]), if_neg (by simp [hon])]
  rfl

theorem joinUndone_joined (call : Call) (u : State) : (joinUndone call u).fabric.joined = u.fabric.joined := by
  simp [joinUndone, joinSent, sendControl]
theorem joinUndone_localPkg (call : Call) (u : State) : localPkg (joinUndone call u) = localPkg u :=
  localPkg_congr (by simp [joinUndone, joinSent, sendControl])
theorem joinMade_joined (call : Call) (u : State) : (joinMade call u).fabric.joined = true := by simp [joinMade]
theorem joinMade_fabid (call : Call) (u : State) : (joinMade call u).fabric.fabid = BitVec.ofNat 32 (call.p 4 4) := by
  simp [joinMade, joinSent, sendControl]
theorem joinMade_present (call : Call) (u : State) : (joinMade call u).fabric.present = (call.ext.map fun w => fld w 0 8).foldl sadd [] := by
  simp [joinMade, joinPeers, List.foldl_map]
theorem joinMade_localPkg (call : Call) (u : State) : localPkg (joinMade call u) = call.p 0 1 := by
  have hreg : localPkg (joinMade call u) = localPkg (rput (sesReg 0x20) 0 8 (call.p 0 1) (joinSent call u)) := localPkg_congr (by simp [joinMade])
  rw [hreg, localPkg, rfld, rget_rput_same, fld_setFld_same _ _ _ _ (by decide)]
  exact Nat.mod_eq_of_lt (callP_lt call 0 1)

/-- The package has left the fabric. -/
def fabricLeft (u : State) : State := setFabric { u.fabric with joined := false, present := [], stations := [], heard := [], seen := [] } u
theorem fabLeave_eq {u : State} (h : u.fabric.joined = true) :
    fabLeave call u = done 0 (postEvent 9 (BitVec.ofNat 64 (localPkg (fabricLeft u))) (fabricLeft u)) := by
  unfold fabLeave
  rw [if_neg (by simp [h])]
  rfl

/-- The value of HAT_IMP: window on or off, its last and its first event. -/
def importValue (on hi lo : Nat) : BitVec 64 := BitVec.ofNat 64 (on * 2 ^ 63 + hi * 2 ^ 16 + lo)

theorem getLsbD_importValue {hi lo : Nat} (on : Nat) (hhi : hi ≤ 4095) (hlo : lo ≤ 4095) {i : Nat} (h : i < 64) :
    (importValue on hi lo).getLsbD i = if i < 63 then if i < 16 then lo.testBit i else hi.testBit (i - 16) else on.testBit (i - 63) := by
  rw [importValue, BitVec.getLsbD_ofNat, decide_eq_true h, Bool.true_and, Nat.add_assoc, Nat.mul_comm on, Nat.mul_comm hi,
    Nat.testBit_two_pow_mul_add _ (by omega), Nat.testBit_two_pow_mul_add _ (by omega)]

theorem testBit_and_ones {x y : Nat} (h : x < 2 ^ y) (i : Nat) : (x.testBit i && (2 ^ y - 1).testBit i) = x.testBit i := by
  rw [← Nat.testBit_and, Nat.and_two_pow_sub_one_of_lt_two_pow h]

/-- HAT_IMP stores every bit that a window has. -/
theorem importValue_stored {on hi lo : Nat} (hon : on ≤ 1) (hhi : hi ≤ 4095) (hlo : lo ≤ 4095) :
    importValue on hi lo &&& 0x800000000FFF0FFF = importValue on hi lo := by
  refine BitVec.eq_of_getLsbD_eq fun i hi64 => ?_
  rw [show (0x800000000FFF0FFF : BitVec 64) = importValue (2 ^ 1 - 1) (2 ^ 12 - 1) (2 ^ 12 - 1) from rfl, BitVec.getLsbD_and,
    getLsbD_importValue _ hhi hlo hi64, getLsbD_importValue _ (by decide) (by decide) hi64]
  split
  · split <;> exact testBit_and_ones (by omega) _
  · exact testBit_and_ones (by omega) _

/-- A write of HAT_IMP that covers no locked event changes that register alone. -/
theorem hatWrite_import {v : BitVec 64} {s : State} (h : impLocked s v = false) :
    (hatWrite 0x18 v .steward s).2 = rset (hatReg 0x18) (v &&& 0x800000000FFF0FFF) s := by
  have hrow : hatWrite 0x18 v .steward s =
      if impLocked s v then (false, hatLockref s) else (true, rset (hatReg 0x18) (v &&& 0x800000000FFF0FFF) s) := rfl
  rw [hrow, h]
  rfl

end

/-! ### The rows -/

theorem sessionCommands : SessionCommands := by
  refine ⟨?config, ?info, ?ring, ?close, ?list⟩
  case config =>
    refine runs_of_body (bad := fun c _ => firstBad [(decide (3600 < c.p 0 4), 0)]) (deny := noDeny) (body := sesConfig)
      (fun _ _ _ _ => rfl) (fun call s hok => firstBad_none ?_) (fun _ _ _ => rfl) fun c call s u _ _ => answer_done ..
    simpa using hok
  case info =>
    refine runs_of_body (bad := sessionBad) (deny := noDeny) (body := sesInfo) (fun _ _ _ _ => rfl)
      (fun call s ⟨hlo, hhi⟩ => sessionBad_none hlo hhi) (fun _ _ _ => rfl) fun c call s u _ hlink => ⟨fun hfree => ?_, fun hfree => ?_⟩
    · rw [sesInfo, if_pos hfree, answer_fail]
    · rw [sesInfo, if_neg hfree, answer_doneData hlink]
      rfl
  case ring =>
    refine runs_of_body (bad := sesRingBad) (deny := sesRingDeny) (body := sesRing) (fun _ _ _ _ => rfl)
      (fun call s ⟨h1, h2, h3, h4, h5, h6, h7, _⟩ => sesRingBad_none ⟨h1, h2⟩ ⟨h3, h4⟩ h5 h6 h7)
      (fun call s ⟨_, _, _, _, _, _, _, hgrant⟩ => by simp [sesRingDeny, hgrant])
      fun c call s u ⟨_, _, _, hlog, hnotify, hevent, hbase, _⟩ _ => ⟨fun hfree => ?_, fun hfree hev hlock => ?_, fun hfree hlock => ?_⟩
    · rw [sesRing, if_pos hfree, answer_fail]
    · rw [sesRing, if_neg hfree, if_pos ⟨hev, by simpa using hlock⟩, answer_fail]
    · rw [sesRing_sets hfree hlock, answer_done]
      exact ⟨_, rfl, ringBase_ringSet _ _ hbase, ringLog_ringSet _ _ hlog, ctxFld_ringSet_notify _ _ hnotify, ctxFld_ringSet_event _ _ hevent,
        ctxFld_ringSet_cons .., ringCap_ringSet ..⟩
  case close =>
    refine runs_of_body (bad := sessionBad) (deny := noDeny) (body := sesClose)
      (fun g s call ⟨_, _, hcopy⟩ => by change execSesClose g s = _; rw [execSesClose, hcopy]; rfl)
      (fun call s ⟨hlo, hhi, _⟩ => sessionBad_none hlo hhi) (fun _ _ _ => rfl)
      fun c call s u _ _ => ⟨fun hfree => ?_, fun hfree hlock => ?_, fun hopen hlock => ?_, fun hfree hopen hlock => ?_⟩
    · rw [sesClose, if_pos hfree, answer_fail]
    · rw [sesClose, if_neg hfree, if_pos (by simpa using hlock), answer_fail]
    · rw [sesClose, if_neg (by rw [hopen]; decide), if_neg (by simpa using hlock), if_pos hopen, answer_wait (by simp)]
    · rw [sesClose, if_neg hfree, if_neg (by simpa using hlock), if_neg hopen, answer_wait (by simp)]
  case list =>
    exact runs_of_body (bad := noBad) (deny := noDeny) (body := sesList) (fun _ _ _ _ => rfl) (fun _ _ _ => rfl) (fun _ _ _ => rfl)
      fun c call s u _ hlink => answer_listReply hlink ..

theorem fabricCommands : FabricCommands := by
  refine ⟨?join, ?leave, ?status, ?config, ?window, ?standby, ?outgoing, ?incoming⟩
  case join =>
    refine runs_of_body (bad := noBad) (deny := noDeny) (body := fabJoin) (fun _ _ _ _ => rfl) (fun _ _ _ => rfl) (fun _ _ _ => rfl)
      fun c call s u _ _ => ⟨fun hin => ?_, fun hout hon hnone => ?_, fun hout hon hsame => ?_, fun hout hon hsome hother => ?_⟩
    · rw [fabJoin, if_pos hin, answer_fail]
    · have hempty : (joinPeers call).isEmpty = true := by simpa [joinPeers] using hnone
      rw [fabJoin_eq hout hon, if_pos hempty, answer_failWith]
      exact ⟨_, rfl, (joinUndone_joined ..).trans hout, joinUndone_localPkg ..⟩
    · have hfull : (joinPeers call).isEmpty = false := by
        simpa [joinPeers] using fun h : call.ext = [] => by simp [h] at hsame
      have hany : ((joinPeers call).any fun p => p.1 == call.p 0 1) = true := by simpa [joinPeers] using hsame
      rw [fabJoin_eq hout hon, if_neg (by simp [hfull]), if_pos hany, answer_failWith]
      exact ⟨_, rfl, (joinUndone_joined ..).trans hout, joinUndone_localPkg ..⟩
    · have hfull : (joinPeers call).isEmpty = false := by simpa [joinPeers] using hsome
      have hany : ((joinPeers call).any fun p => p.1 == call.p 0 1) = false := by simpa [joinPeers] using hother
      rw [fabJoin_eq hout hon, if_neg (by simp [hfull]), if_neg (by simp [hany]), answer_done]
      obtain ⟨g, hg⟩ := postEvent_eq 9 (BitVec.ofNat 64 (call.p 0 1 + 2 ^ 8)) (joinMade call u)
      rw [hg]
      exact ⟨_, _, rfl, joinMade_joined .., (localPkg_setGly ..).trans (joinMade_localPkg ..), joinMade_fabid .., joinMade_present ..,
        by rw [registrar_setGly, deputy_setGly]⟩
  case leave =>
    refine runs_of_body (bad := noBad) (deny := noDeny) (body := fabLeave) (fun _ _ _ _ => rfl) (fun _ _ _ => rfl) (fun _ _ _ => rfl)
      fun c call s u _ _ => ⟨fun hout => ?_, fun hin => ?_⟩
    · rw [fabLeave, if_pos (by simp [hout]), answer_fail]
    · rw [fabLeave_eq hin, answer_done]
      obtain ⟨g, hg⟩ := postEvent_eq 9 (BitVec.ofNat 64 (localPkg (fabricLeft u))) (fabricLeft u)
      rw [hg]
      exact ⟨_, rfl, rfl, rfl, rfl, rfl⟩
  case status =>
    exact runs_of_body (bad := noBad) (deny := noDeny) (body := fabStatus) (fun _ _ _ _ => rfl) (fun _ _ _ => rfl) (fun _ _ _ => rfl)
      fun c call s u _ hlink => answer_doneData hlink ..
  case config =>
    refine runs_of_body (bad := fun c _ => firstBad [(decide (c.p 0 2 < 5 ∨ 1000 < c.p 0 2), 0)]) (deny := noDeny) (body := fabConfig)
      (fun _ _ _ _ => rfl) (fun call s ⟨hlo, hhi⟩ => firstBad_none ?_) (fun _ _ _ => rfl) fun c call s u _ _ => answer_done ..
    simp
    omega
  case window =>
    refine runs_of_body (bad := fabWindowBad) (deny := fun c s => mintDenied s c (c.p 4 2) (c.p 8 8) (c.p 16 4)) (body := fabWindow)
      (fun _ _ _ _ => rfl) (fun call s ⟨hwin, hall, hperm, hbase, _⟩ => firstBad_none ?_) (fun call s ⟨_, _, _, _, hdeny⟩ => hdeny)
      fun c call s u _ _ => ⟨fun hzero => ?_, fun hlen => ?_⟩
    · simp only [List.forall_mem_cons, decide_eq_false_iff_not]
      exact ⟨by omega, by omega, hperm, by omega, by simp⟩
    · rw [fabWindow, if_pos hzero, answer_done]
    · rw [fabWindow, if_neg hlen, answer_done]
  case standby =>
    refine runs_of_body (bad := noBad) (deny := noDeny) (body := fabStandby) (fun _ _ _ _ => rfl) (fun _ _ _ => rfl) (fun _ _ _ => rfl)
      fun c call s u _ _ => ⟨fun hlock => ?_, fun hlock => ?_⟩
    · rw [fabStandby, if_pos hlock, answer_fail]
    · rw [fabStandby, if_neg (by rw [hlock]; simp), answer_done]
  case outgoing =>
    refine runs_of_body (bad := fabExportBad) (deny := noDeny) (body := fabExport)
      (fun g s call ⟨_, _, _, hcopy⟩ => by change execFabExport g s = _; rw [execFabExport, hcopy]; rfl)
      (fun call s ⟨hexp, hon, hev, _⟩ => firstBad_none ?_) (fun _ _ _ => rfl) fun c call s u _ _ => ⟨fun hlock => ?_, fun hlock => ?_⟩
    · simp
      omega
    · rw [fabExport, if_pos (by simpa using hlock), answer_fail]
    · rw [fabExport, if_neg (by simpa using hlock), answer_done]
  case incoming =>
    refine runs_of_body (bad := fabImportBad) (deny := noDeny) (body := fabImportSet) (fun _ _ _ _ => rfl)
      (fun call s ⟨hon, hlo, hhi⟩ => firstBad_none ?_) (fun _ _ _ => rfl)
      fun c call s u ⟨hon, hlo, hhi⟩ _ => ⟨fun hlock => ?_, fun hlock => ?_⟩
    · simp
      omega
    · rw [fabImportSet, if_pos hlock, answer_fail]
    · rw [fabImportSet, if_neg (by rw [hlock]; simp), answer_done, hatWrite_import hlock]
      exact ⟨_, rfl, (rget_rset_same ..).trans (importValue_stored hon hhi hlo), by simp [offRegs]⟩

/-- Settles O53, row by row, from what each command's body answers. -/
theorem sessionAndFabricCommands : Obligations.SessionAndFabricCommands := ⟨sessionCommands, fabricCommands⟩

end Sys2Proof.Proofs

namespace Sys2Proof.Proofs
open Sys2Proof Sys2Proof.Machine Sys2Proof.Claims Sys2Proof.Laws

/-! ### What a change of one facet leaves -/

theorem onlyFacet_refl (n : Nat) (s : State) : onlyFacet n s s := ⟨fun _ _ => rfl, rfl⟩
theorem onlyFacet_trans {n : Nat} {s t u : State} (h : onlyFacet n s t) (h' : onlyFacet n t u) : onlyFacet n s u :=
  ⟨fun m hm => (h'.1 m hm).trans (h.1 m hm), h'.2.trans h.2⟩
theorem onlyFacet_setFacet (n : Nat) (f : Facet) (s : State) : onlyFacet n s (setFacet n f s) := ⟨fun _ hm => facet_setFacet_ne hm f s, rfl⟩
theorem onlyFacet_updFacet (n : Nat) (h : Facet → Facet) (s : State) : onlyFacet n s (updFacet n h s) := onlyFacet_setFacet ..

/-- Nothing but facet `n`, the free values drawn and the marks differs. -/
def elsewhereSame (n : Nat) (s t : State) : Prop := (∀ m, m ≠ n → facet t m = facet s m) ∧ besides t = besides s

theorem elsewhereSame_trans {n : Nat} {s t u : State} (h : elsewhereSame n s t) (h' : elsewhereSame n t u) : elsewhereSame n s u :=
  ⟨fun m hm => (h'.1 m hm).trans (h.1 m hm), h'.2.trans h.2⟩
theorem elsewhereSame_of_onlyFacet {n : Nat} {s t : State} (h : onlyFacet n s t) : elsewhereSame n s t :=
  ⟨h.1, congrArg (fun u : State => { u with free := 0, marks := [] }) h.2⟩
theorem elsewhereSame_setFacet (n : Nat) (f : Facet) (s : State) : elsewhereSame n s (setFacet n f s) :=
  elsewhereSame_of_onlyFacet (onlyFacet_setFacet n f s)
theorem elsewhereSame_updFacet (n : Nat) (h : Facet → Facet) (s : State) : elsewhereSame n s (updFacet n h s) := elsewhereSame_setFacet ..
theorem elsewhereSame_drawFree (n : Nat) (s : State) : elsewhereSame n s (drawFree s).2 := ⟨fun _ _ => rfl, rfl⟩

/-! ### Landing results: what they leave of the facet -/

/-- The facet without the registers and shadows that a landing result can write. -/
def offLand (f : Facet) : Facet :=
  { f with g := [], a := [], w := [], k := [], acc := [], fs := 0, xpc := [], xst := [], pbt := [], lc := [], ls := [], le := [], repc := 0,
           xvb := 0, ctx := 0, holdmax := 0, arf := 0, shadows := [] }

theorem rbitSet_fold_facets (i : Nat) (l : List Nat) (s : State) : (l.foldl (fun s a => rbitSet a i true s) s).facets = s.facets :=
  foldl_keeps (part := State.facets) (fun s a => rbitSet_facets a i true s) l s
theorem markRewritten_facets (w : Nat) (s : State) : (markRewritten w s).facets = s.facets := rbitSet_fold_facets ..
theorem setTag_facets (a : Nat) (b : Bool) (s : State) : (setTag a b s).facets = s.facets := rfl
theorem laterFclk_facets (rank w : Nat) (s : State) : (laterFclk rank w s).facets = s.facets := by unfold laterFclk; split <;> rfl
theorem dropBack_facets (w : Nat) (s : State) : (dropBack w s).facets = s.facets := by
  unfold dropBack; split <;> simp
theorem rawWrite_facets (w : Nat) (m : BitVec 16) (tag : Bool) (s : State) : (rawWrite w m tag s).facets = s.facets := by
  unfold rawWrite; split <;> simp
theorem hostLost_facets (a : Nat) (s : State) : (hostLost a s).facets = s.facets := by unfold hostLost; split <;> rfl

theorem setIntSrc_facets (ctl src : Nat) (x : IntSrc) (s : State) : (setIntSrc ctl src x s).facets = s.facets := rfl
theorem intStatSet_facets (ctl i : Nat) (s : State) : (intStatSet ctl i s).facets = s.facets := rfl
theorem setFiltered_facets (ctl src : Nat) (v : Bool) (s : State) : (setFiltered ctl src v s).facets = s.facets := by
  unfold setFiltered; dsimp only; simp only [setIntSrc_facets]
theorem intEoi_facets (ctl src : Nat) (s : State) : (intEoi ctl src s).facets = s.facets := by
  unfold intEoi; dsimp only; split <;> rfl
theorem intSetp_facets (ctl src : Nat) (s : State) : (intSetp ctl src s).facets = s.facets := by
  unfold intSetp; dsimp only; simp only [setIntSrc_facets, intStatSet_facets, apply_ite State.facets, ite_self]
theorem intClrp_facets (ctl src : Nat) (s : State) : (intClrp ctl src s).facets = s.facets := by
  unfold intClrp; dsimp only; split <;> rfl
theorem scfgWrite_facets (ctl src : Nat) (v : BitVec 64) (s : State) : (scfgWrite ctl src v s).facets = s.facets := by
  unfold scfgWrite; dsimp only; simp only [setIntSrc_facets, setFiltered_facets, apply_ite State.facets, ite_self]
theorem intStatClear_facets (ctl : Nat) (v : BitVec 64) (s : State) : (intStatClear ctl v s).facets = s.facets := rfl
/-- A write to a facet's interrupt controller leaves the facets. -/
theorem intSysWrite_facets (n num : Nat) (v : BitVec 64) (s : State) : (intSysWrite n num v s).facets = s.facets := by
  unfold intSysWrite
  dsimp only
  split
  · exact intEoi_facets ..
  · exact intSetp_facets ..
  · exact intClrp_facets ..
  · rfl
  · exact scfgWrite_facets ..
  · exact intStatClear_facets ..
  · rfl

theorem offLand_setFacet {n m : Nat} {f : Facet} {s : State} (h : n = m → offLand f = offLand (facet s n)) :
    offLand (facet (setFacet n f s) m) = offLand (facet s m) := by
  by_cases hm : m = n
  · subst hm; rw [facet_setFacet_same, h rfl]
  · rw [facet_setFacet_ne hm]
theorem offLand_updFacet {n m : Nat} {h : Facet → Facet} {s : State} (hh : offLand (h (facet s n)) = offLand (facet s n)) :
    offLand (facet (updFacet n h s) m) = offLand (facet s m) := offLand_setFacet fun _ => hh
theorem offLand_fs (f : Facet) (x : BitVec 64) : offLand { f with fs := x } = offLand f := rfl
theorem offLand_acc (f : Facet) (x : List (Nat × BitVec 768)) : offLand { f with acc := x } = offLand f := rfl
theorem offLand_congr {s t : State} (h : s.facets = t.facets) (m : Nat) : offLand (facet s m) = offLand (facet t m) := by rw [facet_congr h]

theorem reportLoss_offLand (a : Nat) (who : Agent) (s : State) (m : Nat) : offLand (facet (reportLoss a who s) m) = offLand (facet s m) := by
  cases who with
  | facet n => exact offLand_setFacet fun _ => offLand_fs ..
  | host => exact offLand_congr (hostLost_facets ..) m
  | fabric => exact offLand_congr (hostLost_facets ..) m
  | mover k => exact offLand_congr (rbitSet_facets ..) m
  | steward => rfl
  | blocker b => rfl
  | loader => rfl
theorem tellLoss_offLand (a : Nat) (who : Agent) (id : Nat) (s : State) (m : Nat) :
    offLand (facet (tellLoss a who id s) m) = offLand (facet s m) := by
  unfold tellLoss
  split
  · rfl
  · exact reportLoss_offLand ..

/-- A facet's write ends no reservation of its own. -/
theorem facet_dropResv_self (w n : Nat) (s : State) : facet (dropResv w (.facet (Fin.ofNat 128 n)) s) n = facet s n := by
  unfold dropResv
  generalize hl : s.facets.filter _ = l
  have hne : ∀ p ∈ l, n ≠ p.1 := by
    rintro p hp rfl
    rw [← hl, List.mem_filter, Bool.and_eq_true, decide_eq_true_eq] at hp
    exact hp.2.2 rfl
  clear hl
  induction l generalizing s with
  | nil => rfl
  | cons p l ih =>
    rw [List.foldl_cons, ih _ fun q hq => hne q (List.mem_cons_of_mem _ hq), facet_setFacet_ne (hne p List.mem_cons_self)]

theorem writeWord_offLand (rank n a : Nat) (bs : List Byte) (tag : Bool) (s : State) :
    offLand (facet (writeWord (.facet (Fin.ofNat 128 n)) rank a bs tag s) n) = offLand (facet s n) := by
  have hstart : offLand (facet (laterFclk rank (wordOf a) (dropBack (wordOf a) s)) n) = offLand (facet s n) :=
    offLand_congr ((laterFclk_facets ..).trans (dropBack_facets ..)) n
  unfold writeWord
  extract_lets w s1 m before new here higher lower taken compat eff s2 s3 told mark base s4 s5 s6 s7
  have h5 : s5.facets = s4.facets := rawWrite_facets ..
  have h6 : s6.facets = s5.facets := by simp [s6]
  have h7 : s7.facets = s6.facets := (markRewritten_facets ..).trans (setTag_facets ..)
  have hput : s4.facets = s3.facets := by simp [s4, poke]
  have h2 : offLand (facet s2 n) = offLand (facet s n) := by
    unfold s2
    split
    · exact (tellLoss_offLand ..).trans hstart
    · exact hstart
  have h3 : offLand (facet s3 n) = offLand (facet s n) :=
    (foldl_keeps (part := fun s => offLand (facet s n)) (fun s k => by split; exacts [tellLoss_offLand .., rfl]) lower s2).trans h2
  clear_value s7 s6 s5 s4 s3 eff
  split
  · exact h3
  · rw [facet_dropResv_self]
    exact (offLand_congr (h7.trans (h6.trans (h5.trans hput))) n).trans h3

theorem landSys_offLand (n num lvl : Nat) (v : BitVec 64) (s : State) : offLand (facet (landSys n num lvl v s) n) = offLand (facet s n) := by
  have hput : ∀ f : Facet, offLand f = offLand (facet s n) → offLand (facet (setFacet n f s) n) = offLand (facet s n) :=
    fun f h => offLand_setFacet fun _ => h
  unfold landSys
  dsimp only
  split <;> try exact hput _ rfl
  split; · exact hput _ rfl
  split; · exact hput _ rfl
  split; · exact hput _ rfl
  split; · exact hput _ rfl
  exact offLand_congr (intSysWrite_facets ..) n

/-- A landing result of facet `n` writes registers and shadows of the facet and nothing else of it. -/
theorem land1_offLand (n : Nat) (s0 : State) (l : Land) (s : State) : offLand (facet (land1 n s0 l s) n) = offLand (facet s n) := by
  cases l with
  | g r v =>
    unfold land1
    dsimp only
    split
    · rfl
    · exact offLand_setFacet fun _ => rfl
  | mem a b t => simp only [land1]; exact writeWord_offLand ..
  | tas a r =>
    have h := (writeWord_offLand 1 n a [1] false (noteReads 0 [wordOf a] s)).trans (by rw [facet_noteReads])
    unfold land1
    dsimp only
    split
    · exact h
    · exact (offLand_updFacet rfl).trans h
  | sys num lvl v => simp only [land1]; exact landSys_offLand ..
  | w i v => simp only [land1]; exact landSys_offLand ..
  | a r v => simp only [land1]; exact offLand_setFacet fun _ => rfl
  | mac i k t b c => simp only [land1]; exact offLand_setFacet fun _ => offLand_acc ..
  | accPart i p v => simp only [land1]; exact offLand_setFacet fun _ => offLand_acc ..
  | repCount v => simp only [land1]; exact offLand_setFacet fun _ => rfl
  | k b i v => simp only [land1]; exact offLand_setFacet fun _ => rfl
  | kclr b i => simp only [land1]; exact offLand_setFacet fun _ => rfl

theorem landAll_offLand (n : Nat) (ls : List Land) (s : State) : offLand (facet (landAll n ls s) n) = offLand (facet s n) := by
  have h := foldl_keeps (part := fun s => offLand (facet s n)) (fun t l => land1_offLand n s l t) ls s
  unfold landAll
  dsimp only
  split
  · exact ((offLand_congr (noteHit_facets ..) n).trans (offLand_updFacet (offLand_fs ..))).trans h
  · exact h

/-- Landing at the start of a bundle changes no stall of the facet. -/
theorem seen_wait (n : Fin 128) (s : State) : (seen n s).wait = (facet s n).wait := by
  unfold seen landDue
  dsimp only
  refine (congrArg Facet.wait (landAll_offLand n ..)).trans ?_
  rw [facet_setFacet_same]
  rfl

end Sys2Proof.Proofs

namespace Sys2Proof.Proofs
open Sys2Proof Sys2Proof.Machine Sys2Proof.Claims Sys2Proof.Laws

/-! ### Presenting an operation -/

/-- Every facet operation's command presents its operation. -/
theorem exec_facetOps : ∀ p ∈ facetOps, ∀ (n : Fin 128) (w : OpW) (s : State), exec (p.2 n w) s = presentOp n ⟨p.1, w, 0⟩ s := by
  simp only [facetOps, scalarOps, floatOps, laneOps, macOps, transferOps, longOps, remoteOps, capOps, controlOps, otherOps,
    List.forall_mem_append, List.forall_mem_cons, List.not_mem_nil, false_imp_iff, implies_true, and_true]
  and_intros <;> exact fun _ _ _ => rfl

theorem codeless_w_stop (o : Op) : (codeless o).w.stop = o.w.stop := by unfold codeless; split <;> rfl
theorem op_kind (k : OpKind) (w : OpW) : (op k w).kind = k := by unfold op codeless; split <;> rfl

/-- At a boundary an operation of every kind that ends no bundle of eight joins the bundle. -/
theorem presentOp_joins {n : Fin 128} {o : Op} {s : State} (hcan : canIssue s n = true) (hstop : o.w.stop = false)
    (hlen : (facet s n).bundle.length < 7) :
    presentOp n o s = .next (setFacet n { facet s n with bundle := (facet s n).bundle ++ [codeless o] } s) := by
  rw [presentOp_now hcan, presentNow, if_neg (by simp [hcan])]
  dsimp only
  rw [if_neg (by simp [codeless_w_stop, hstop]; omega)]
  rfl

/-- A bundle whose check fails presents its cause. -/
theorem presentOp_fails {n : Fin 128} {o : Op} {s : State} {c : Nat} (hcan : canIssue s n = true) (hstop : o.w.stop = true)
    (hread : (issueReads s n ((facet s n).bundle ++ [codeless o])).any (wordBad s) = false)
    (hcause : bundleCause (landDue n s) n (dueLands (facet s n)) ((facet s n).bundle ++ [codeless o]) = some c) :
    presentOp n o s = .next (setFacet n { facet s n with bundle := [], presented := some c } s) := by
  rw [presentOp_now hcan, presentNow, if_neg (by simp [hcan])]
  dsimp only
  rw [if_pos (by simp [codeless_w_stop, hstop]), hread]
  simp only [gate, Bool.not_false, if_true, issueBundle, hcause]
  rfl

theorem operationJoinsBundle : OperationJoinsBundle := fun p hp n w s hcan hstop hlen =>
  (exec_facetOps p hp n w s).trans (presentOp_joins hcan hstop hlen)

/-- Settles O6: the check comes before every effect. -/
theorem failingBundlePresentsCause : Obligations.FailingBundlePresentsCause := fun p hp n w s _ hcan hstop hread hcause =>
  (exec_facetOps p hp n w s).trans (presentOp_fails hcan hstop hread hcause)

/-! ### A bundle of one operation, issued and retired -/

/-- The state once the operation of a bundle of one has acted. -/
def acted (n : Fin 128) (o : Op) (s : State) : State := doOp (landDue n s) n (seen n s) [] 1 (acting n o s) o

theorem exec_alone {p : OpKind × (Fin 128 → OpW → Instr)} (hp : p ∈ facetOps) {n : Fin 128} {w : OpW} {s : State}
    (h : IssuesAlone n (op p.1 w) s) : exec (p.2 n w) s = .next (afterAct n (op p.1 w) (seen n s) (acted n (op p.1 w) s)) := by
  have hl : (op p.1 w).kind ≠ .lit := by
    rw [op_kind]
    have : ∀ p ∈ facetOps, p.1 ≠ .lit := by decide +kernel
    exact this p hp
  rw [exec_facetOps p hp, presentOp_now h.boundary]
  exact presentNow_alone hl h.boundary h.stop h.first h.readable h.passes h.unguarded

theorem acting_facet (n : Fin 128) (o : Op) (s : State) : ∃ landed replay ready,
    facet (acting n o s) n = { seen n s with landed := landed, replay := replay, ready := ready } :=
  ⟨_, _, _, (facet_updFacet_same ..).trans (by rw [show facet (atIssue n o s) n = seen n s from facet_noteReads ..])⟩
theorem acting_others (n : Fin 128) (o : Op) (s : State) (m : Nat) (hm : m ≠ n.val) : facet (acting n o s) m = facet (landDue n s) m :=
  (facet_updFacet_ne hm ..).trans (facet_noteReads ..)
theorem acting_rest (n : Fin 128) (o : Op) (s : State) : besides (acting n o s) = besides (atIssue n o s) := rfl

theorem acting_wait {n : Fin 128} {o : Op} {s : State} (h : IssuesAlone n o s) : (facet (acting n o s) n).wait = .none := by
  obtain ⟨_, _, _, hf⟩ := acting_facet n o s
  have hcan := h.boundary
  unfold canIssue at hcan
  simp only [Bool.and_eq_true, beq_iff_eq] at hcan
  rw [hf]
  exact (seen_wait n s).trans hcan.1.1.1.1.1.2

theorem afterAct_retires {n : Fin 128} {o : Op} {f : Facet} {x : State} (hk : o.kind ≠ .retx) (hw : (facet x n).wait = .none) :
    afterAct n o f x = retire n f [o] x := by
  rw [afterAct, if_neg hk, if_neg (by simp [hw])]

/-- Retiring keeps what `kept` shows. -/
theorem Retired.kept_eq {n : Nat} {f0 : Facet} {b : List Op} {x t : State} (h : Retired n f0 b x t) : kept (facet t n) = kept (facet x n) := by
  obtain ⟨pc, fs, rf, lo, lw, la, le, li, re, bu, co, rc, rp, hs⟩ := h.same
  have hfs : setFld (facet t n).fs 4 2 0 = setFld (facet x n).fs 4 2 0 := by
    rw [h.fs]
    split
    · rfl
    · split
      · rfl
      · exact setFld_setFld ..
  rw [hs] at hfs ⊢
  unfold kept
  dsimp only at hfs ⊢
  rw [hfs]

/-- Results put in flight for facet `n`, in their order. -/
def flyAll (n l : Nat) (ls : List Land) (s : State) : State := ls.foldl (fun s x => putFlight n l x s) s

theorem flyAll_onlyFacet (n l : Nat) (ls : List Land) (s : State) : onlyFacet n s (flyAll n l ls s) := by
  induction ls generalizing s with
  | nil => exact onlyFacet_refl n s
  | cons x ls ih => exact onlyFacet_trans (onlyFacet_updFacet ..) (ih _)
theorem facet_flyAll (n l : Nat) (ls : List Land) (s : State) :
    facet (flyAll n l ls s) n = { facet s n with flights := (facet s n).flights ++ ls.map fun x => ⟨l, x⟩ } := by
  induction ls generalizing s with
  | nil => simp [flyAll]
  | cons x ls ih =>
    rw [flyAll, List.foldl_cons, ← flyAll, ih, putFlight, facet_updFacet_same]
    simp

/-- A bundle of one that has only put results in flight, `x` being the state once it has acted, flies them. -/
theorem flies_retire {n : Fin 128} {o : Op} {s x : State} {lat : Nat} {ls : List Land}
    (hx : facet x n = { facet (acting n o s) n with
      flights := (seen n s).flights ++ ((opUpdates (seen n s) o).map fun l => ⟨1, l⟩) ++ ls.map fun l => ⟨lat, l⟩ })
    (helse : elsewhereSame n (acting n o s) x) : Flies n o s lat ls (retire n (seen n s) [o] x) := by
  have hr := retired n (seen n s) [o] x
  obtain ⟨landed, replay, ready, hact⟩ := acting_facet n o s
  rw [hact] at hx
  have hpc : (facet x n).pc = (seen n s).pc := by rw [hx]
  have hpbt : (facet x n).pbt = (seen n s).pbt := by rw [hx]
  refine ⟨?_, ?_, ?_, ?_, ?_, fun m hm => ?_, ?_⟩
  · obtain ⟨_, _, _, _, _, _, _, _, _, _, _, _, _, hs⟩ := hr.same
    rw [hs, hx]
  · rw [Retired.kept_eq hr, hx]
    rfl
  · exact hr.pc hpc hpbt
  · rw [hr.bundles, hx]
  · obtain ⟨_, _, _, _, _, _, _, _, _, _, _, _, _, hs⟩ := hr.same
    rw [hs]
  · exact (hr.others m hm).trans ((helse.1 m hm).trans (acting_others n o s m hm))
  · exact (congrArg (fun u : State => { u with marks := [] }) hr.rest).trans (helse.2.trans (acting_rest n o s))

/-- An operation that only puts results in flight: it flies them. -/
theorem exec_flies {p : OpKind × (Fin 128 → OpW → Instr)} (hp : p ∈ facetOps) (hk : p.1 ≠ .retx) {n : Fin 128} {w : OpW} {s : State}
    {lat : Nat} {ls : List Land} (h : IssuesAlone n (op p.1 w) s)
    (hact : acted n (op p.1 w) s = flyAll n lat ls (flyAll n 1 (opUpdates (seen n s) (op p.1 w)) (acting n (op p.1 w) s))) :
    ∃ t, exec (p.2 n w) s = .next t ∧ Flies n (op p.1 w) s lat ls t := by
  have hx : facet (acted n (op p.1 w) s) n = { facet (acting n (op p.1 w) s) n with
      flights := (seen n s).flights ++ ((opUpdates (seen n s) (op p.1 w)).map fun l => ⟨1, l⟩) ++ ls.map fun l => ⟨lat, l⟩ } := by
    obtain ⟨_, _, _, hf⟩ := acting_facet n (op p.1 w) s
    rw [hact, facet_flyAll, facet_flyAll, hf]
  have helse : elsewhereSame n (acting n (op p.1 w) s) (acted n (op p.1 w) s) := by
    rw [hact]
    exact elsewhereSame_of_onlyFacet (onlyFacet_trans (flyAll_onlyFacet ..) (flyAll_onlyFacet ..))
  refine ⟨_, exec_alone hp h, ?_⟩
  rw [afterAct_retires (by rwa [op_kind]) (by rw [hx]; exact acting_wait h)]
  exact flies_retire hx helse

/-! ### LIT -/

/-- A LIT as an operation of its bundle. -/
def litOp (l : LitW) : Op := ⟨.lit, ⟨l.stop, l.guard, 0, 0, 0, 0⟩, l.value⟩

/-- A LIT that is a whole bundle does nothing but retire. -/
theorem exec_lit_alone {n : Fin 128} {l : LitW} {s : State} (h : IssuesAlone n (litOp l) s) :
    exec (.lit n l) s = .next (retire n (seen n s) [litOp l] (acting n (litOp l) s)) := by
  have hwait := acting_wait h
  have hslots : slotOrder [litOp l] = [] := rfl
  have hlong : runsLong (facet (landDue n s) n) [litOp l] = false := by simp [runsLong, litOp, isLong]
  change presentOp n (litOp l) s = _
  rw [presentOp_now h.boundary, show codeless (litOp l) = litOp l from rfl, presentNow, if_neg (by simp [h.boundary])]
  simp only [h.first, List.nil_append, h.stop, Bool.true_or, if_true, h.readable, Bool.not_false, gate]
  congr 1
  unfold issueBundle
  simp only [h.passes, hslots, List.foldl_nil, hlong, Bool.false_eq_true, if_false]
  exact (if_neg (by simp [litOp])).trans (if_neg (not_not.2 hwait))

theorem literalJoinsOrIssues : LiteralJoinsOrIssues := fun n l s =>
  ⟨fun hcan hstop hlen => presentOp_joins (o := litOp l) hcan hstop hlen, fun h =>
    ⟨_, exec_lit_alone h, flies_retire (o := litOp l)
      (by obtain ⟨_, _, _, hf⟩ := acting_facet n (litOp l) s; rw [hf]; simp [opUpdates, litOp, roles, isMemRole])
      (elsewhereSame_of_onlyFacet (onlyFacet_refl ..))⟩⟩

/-- Settles O5: an operation without STOP only joins its bundle; a LIT of its own has no slot to act in. -/
theorem bundleForms : Obligations.BundleForms := ⟨operationJoinsBundle, literalJoinsOrIssues⟩

end Sys2Proof.Proofs

namespace Sys2Proof.Proofs
open Sys2Proof Sys2Proof.Machine Sys2Proof.Claims Sys2Proof.Laws

/-! ### Operations that only put results in flight -/

theorem not_wait_of_opClass {k : OpKind} (hc : opClass k ≠ 4) : ¬ (decide (k = .twait) || decide (k = .ewait)) = true := by
  rw [Bool.or_eq_true, decide_eq_true_eq, decide_eq_true_eq]
  rintro (rfl | rfl) <;> exact hc rfl

theorem acted_vectorLands {n : Fin 128} {o : Op} {s : State} (h : IssuesAlone n o s) (hc : opClass o.kind = 0) :
    acted n o s = flyAll n (latency o.kind) (vectorLands (landDue n s) (seen n s) [] o) (flyAll n 1 (opUpdates (seen n s) o) (acting n o s)) := by
  rw [acted, doOp, if_neg (by simp [seen, h.unguarded]), if_neg (not_wait_of_opClass (by omega))]
  simp only [hc]
  rfl

theorem acted_scalarLands {n : Fin 128} {o : Op} {s : State} (h : IssuesAlone n o s) (hc : opClass o.kind = 2 ∨ opClass o.kind = 3)
    (hr : isRemote o.kind = false) :
    acted n o s = flyAll n (latency o.kind) (scalarLands (landDue n s) (seen n s) [] o) (flyAll n 1 (opUpdates (seen n s) o) (acting n o s)) := by
  rw [acted, doOp, if_neg (by simp [seen, h.unguarded]), if_neg (not_wait_of_opClass (by omega))]
  rcases hc with hc | hc
  · simp only [hc, hr]
    rfl
  · simp only [hc]
    rfl

/-! ### Vector MAC operations at issue -/

theorem macOps_subset : ∀ p ∈ macOps, p ∈ facetOps := by
  intro p hp
  simp only [facetOps, List.mem_append]
  tauto
theorem macOps_kind : ∀ p ∈ macOps, opClass p.1 = 0 ∧ latency p.1 = 4 ∧ p.1 ≠ .retx := by decide
theorem vectorLands_mac : ∀ p ∈ macOps, ∀ (s : State) (f : Facet) (w : OpW), vectorLands s f [] (op p.1 w) =
    [.mac (spReg w.a) p.1 w.tz.toNat (BitVec.ofNat 256 (rawOperand s f [] (op p.1 w) 1)) (BitVec.ofNat 256 (rawOperand s f [] (op p.1 w) 2))] := by
  simp only [macOps, List.forall_mem_cons, List.not_mem_nil, false_imp_iff, implies_true, and_true]
  and_intros <;> exact fun _ _ _ => rfl

theorem macInFlight : MacInFlight := by
  intro p hp n w s h o
  obtain ⟨hclass, hlat, hret⟩ := macOps_kind p hp
  have hact := acted_vectorLands h (by rwa [op_kind])
  rw [op_kind, hlat, vectorLands_mac p hp] at hact
  exact exec_flies (macOps_subset p hp) hret h hact

/-! ### Scalar operations at issue -/

theorem scalarOps_subset : ∀ p ∈ scalarOps, p ∈ facetOps := by
  intro p hp
  simp only [facetOps, List.mem_append]
  tauto
theorem scalarOps_kind : ∀ p ∈ scalarOps, (opClass p.1 = 2 ∨ opClass p.1 = 3) ∧ isRemote p.1 = false ∧ p.1 ≠ .retx := by decide
theorem operandDT_scalar : ∀ p ∈ scalarOps, ∀ (w : OpW) (i : Nat),
    operandDT p.1 w i = .sc (szBytes w.tz.toNat) false (decide (4 ≤ w.tz.toNat)) := by
  simp only [scalarOps, List.forall_mem_cons, List.not_mem_nil, false_imp_iff, implies_true, and_true]
  and_intros <;> exact fun _ _ => rfl
/-- The value that a scalar operation forms of its operands. -/
def scalarValue (k : OpKind) (w : OpW) (b c : Nat) : Nat :=
  scalarAlu k (szBytes w.tz.toNat) (decide (4 ≤ w.tz.toNat)) 0 b (if (roles k).2.2 = .src then c else 0) (spImm w.c)
theorem scalarLands_eq : ∀ p ∈ scalarOps, ∀ (s : State) (f : Facet) (w : OpW), scalarLands s f [] (op p.1 w) =
    destLands f w.a (operandDT p.1 w 0) (scalarValue p.1 w (rawOperand s f [] (op p.1 w) 1) (rawOperand s f [] (op p.1 w) 2)) := by
  simp only [scalarOps, List.forall_mem_cons, List.not_mem_nil, false_imp_iff, implies_true, and_true]
  and_intros <;> exact fun _ _ _ => rfl

/-- A scalar operation flies its value to its destination. -/
theorem exec_scalar {p : OpKind × (Fin 128 → OpW → Instr)} (hp : p ∈ scalarOps) {n : Fin 128} {w : OpW} {s : State}
    (h : IssuesAlone n (op p.1 w) s) : ∃ t, exec (p.2 n w) s = .next t ∧ Flies n (op p.1 w) s (latency p.1)
      (destLands (seen n s) w.a (operandDT p.1 w 0) (scalarValue p.1 w (operand n (op p.1 w) s 1) (operand n (op p.1 w) s 2))) t := by
  obtain ⟨hclass, hrem, hret⟩ := scalarOps_kind p hp
  have hact := acted_scalarLands h (by rwa [op_kind]) (by rwa [op_kind])
  rw [op_kind, scalarLands_eq p hp] at hact
  exact exec_flies (scalarOps_subset p hp) hret h hact

/-! ### G0 -/

theorem landsMeet_g0 {ls : List Land} (h : ∀ l ∈ ls, ∃ v, l = .g 0 v) : landsMeet ls = false := by
  induction ls with
  | nil => rfl
  | cons x ls ih =>
    obtain ⟨v, rfl⟩ := h x List.mem_cons_self
    simp [landsMeet, landRange, rangesMeet, ih fun l hl => h l (List.mem_cons_of_mem _ hl)]
theorem foldl_land1_g0 {n : Nat} {ls : List Land} {s : State} (h : ∀ l ∈ ls, ∃ v, l = .g 0 v) (t : State) :
    ls.foldl (fun t l => land1 n s l t) t = t := by
  induction ls with
  | nil => rfl
  | cons x ls ih =>
    obtain ⟨v, rfl⟩ := h x List.mem_cons_self
    exact ih fun l hl => h l (List.mem_cons_of_mem _ hl)

/-- Results for G0 land without a trace. -/
theorem landAll_g0 (n : Nat) (ls : List Land) (s : State) (h : ∀ l ∈ ls, ∃ v, l = .g 0 v) : landAll n ls s = s := by
  simp [landAll, landsMeet_g0 h, foldl_land1_g0 h]

theorem destLands_g0 {f : Facet} {x : BitVec 16} {sz : Nat} {fp uns : Bool} {v : Nat} (hmode : spMode x = 1) (hfile : spFile x = 0)
    (hreg : spReg x = 0) : destLands f x (.sc sz fp uns) v = [.g 0 (scExt sz uns v)] := by
  simp [destLands, hmode, hfile, hreg]

/-- Settles O7: a result for G0 is a landing at G register 0, which `land1` drops and no other landing meets. -/
theorem zeroRegister : Obligations.ZeroRegister := by
  refine ⟨fun f => by simp [gRead], landAll_g0, fun p hp n w s h hmode hfile hreg => ?_⟩
  obtain ⟨t, ht, hflies⟩ := exec_scalar hp h
  have hflights := hflies.flights
  rw [operandDT_scalar p hp, destLands_g0 hmode hfile hreg] at hflights
  exact ⟨t, _, ht, hflights⟩

end Sys2Proof.Proofs

namespace Sys2Proof.Proofs
open Sys2Proof Sys2Proof.Machine Sys2Proof.Claims Sys2Proof.Laws

/-! ### Reservations, halts, runs, flushes, hold overruns -/

theorem execReservationExpiry_next {n : Fin 128} {s : State} {w d : Nat} (hresv : (facet s n).resv = some (w, d))
    (hup : crownUp s (crownOf n) = true) : exec (.reservationExpiry n) s =
      .next (setFacet n { facet (advanceTo d s) n with resv := none } (advanceTo d s)) := by
  change execReservationExpiry n s = _
  rw [execReservationExpiry, hresv]
  dsimp only
  rw [gateAt, if_pos hup]
  rfl

/-- The facet once it has halted: its stall, what was presented, its shadows and its hold counter are gone (R64, R198). -/
def halted (f : Facet) : Facet :=
  { f with ctl := setBit (setBit f.ctl 1 true) 0 false, hold := 0, holdDue := false, wait := .none, bundle := [], presented := none,
           shadows := [], landed := [], lpWas := [] }

theorem exec_facetHalted {n : Fin 128} {s : State} (hcan : canHalt (advanceTo (boundaryAt s n) s) n = true) :
    exec (.facetHalted n) s = .next (updFacet n halted (drainFacet n (boundary n (advanceTo (boundaryAt s n) s)))) := by
  change execFacetHalted n s = _
  rw [execFacetHalted, hcan]
  rfl

theorem exec_facCtlRun {n : Fin 128} {s : State} : exec (.facCtlRun n) s =
    .next (if inPartition s n then s else updFacet n (fun f => { f with ctl := (f.ctl ||| 1) &&& ~~~2 }) s) := rfl
theorem exec_facCtlHalt {n : Fin 128} {s : State} :
    exec (.facCtlHalt n) s = .next (if inPartition s n then s else updFacet n (fun f => { f with ctl := setBit f.ctl 0 false }) s) := rfl
theorem exec_pflush {n : Fin 128} {s : State} : exec (.pflush n) s = .next (if inPartition s n then s else updFacet n (startFlush s.fclk) s) := rfl

/-- The predictor once it is flushed (R57). -/
def flushed (f : Facet) : Facet := { f with btb := [], ctl := setBit f.ctl 2 false, predTaken := [] }
theorem exec_pflushDone {n : Fin 128} {s : State} (h : bit (facet s n).ctl 2 = true) : exec (.pflushDone n) s = .next (updFacet n flushed s) := by
  change execPflushDone n s = _
  rw [execPflushDone, h]
  rfl

theorem exec_holdOverrun_due {n : Fin 128} {s : State} (h : (facet s n).holdDue = true) : exec (.holdOverrun n) s = .next s := by
  change execHoldOverrun n s = _
  simp [execHoldOverrun, h, gate]
theorem exec_holdOverrun_counts {n : Fin 128} {s : State} (h : (facet s n).holdDue = false) (hcounts : holdCounts s n (facet s n) = true)
    (hup : crownUp s (crownOf n) = true) : exec (.holdOverrun n) s =
      .next (advanceTo (max (match (facet s n).e4 with | some e => e - 2 | none => 0) s.fclk +
        (fld (effHoldmax (facet s n)) 0 16 - (facet s n).hold)) s) := by
  change execHoldOverrun n s = _
  simp only [execHoldOverrun, h, hcounts, hup, Bool.and_self, Bool.or_true, gate, if_true, Bool.false_eq_true, if_false] <;> rfl

/-- Settles O28, event by event. -/
theorem facetEventsHappen : Obligations.FacetEventsHappen := by
  intro n s f
  refine ⟨fun w d hresv hup => execReservationExpiry_next hresv hup, fun hcan => ?_, fun hpart => ?_, fun hpart => ?_, fun hpart => ?_,
    fun hpart => ?_, fun hbit => ?_, exec_holdOverrun_due, exec_holdOverrun_counts⟩
  · refine ⟨_, exec_facetHalted hcan, ?_, ?_, ?_, ?_, ?_, ?_, ?_, onlyFacet_updFacet ..⟩ <;> rw [facet_updFacet_same]
    · exact (bit_setBit_ne _ _ (by decide)).trans (bit_setBit_same _ _ (by decide))
    · exact bit_setBit_same _ _ (by decide)
    all_goals rfl
  · rw [exec_facCtlRun, hpart, if_neg Bool.false_ne_true]
    exact ⟨_, rfl, facet_updFacet_same .., onlyFacet_updFacet ..⟩
  · rw [exec_facCtlHalt, hpart, if_neg Bool.false_ne_true]
    exact ⟨_, rfl, facet_updFacet_same .., onlyFacet_updFacet ..⟩
  · rw [exec_facCtlRun, exec_facCtlHalt, exec_pflush, hpart]
    exact ⟨rfl, rfl, rfl⟩
  · rw [exec_pflush, hpart, if_neg Bool.false_ne_true]
    refine ⟨_, rfl, ?_, ?_, ?_, onlyFacet_updFacet ..⟩ <;> rw [facet_updFacet_same]
    · exact bit_setBit_same _ _ (by decide)
    all_goals rfl
  · refine ⟨_, exec_pflushDone hbit, ?_, ?_, ?_, onlyFacet_updFacet ..⟩ <;> rw [facet_updFacet_same]
    · rfl
    · exact bit_setBit_same _ _ (by decide)
    · rfl

end Sys2Proof.Proofs

namespace Sys2Proof.Proofs
open Sys2Proof Sys2Proof.Machine Sys2Proof.Claims Sys2Proof.Laws

/-! ### The loop-end action -/

/-- The count of level `l` after its loop end; one that a move wrote with the bundle stands (R150). -/
def putCount (l c : Nat) (f : Facet) : Facet :=
  if f.lpWas.any fun h => h.level == l && h.left == 1 then f else { f with lc := tset 0 f.lc l (setFld (loopLevel f l).1 0 17 c) }

theorem putCount_eq (l c : Nat) (f : Facet) : ∃ lc, putCount l c f = { f with lc := lc } := by
  unfold putCount
  split
  · exact ⟨f.lc, rfl⟩
  · exact ⟨_, rfl⟩
theorem putCount_moved {l : Nat} (c k : Nat) {f : Facet} (h : f.lpWas.any (fun h => h.level == l && h.left == 1) = true) :
    tget 0 (putCount k c f).lc l = tget 0 f.lc l := by
  unfold putCount
  split
  · rfl
  · refine tget_tset_ne _ _ _ ?_
    rintro rfl
    contradiction
theorem putCount_ne {l k : Nat} (h : k ≠ l) (c : Nat) (f : Facet) : tget 0 (putCount l c f).lc k = tget 0 f.lc k := by
  unfold putCount
  split
  · rfl
  · exact tget_tset_ne _ _ _ h

/-- Where no LOOP is recent, a level that does not end is passed over; one that ends goes back or gives way to the levels below. -/
theorem loopEnd_cons {f : Facet} (hold : f.loopOld = []) (l : Nat) (ls : List Nat) : loopEnd (l :: ls) f =
    if loopEndsAt f f.lastEnd l = true then
      if 1 < fld (loopLevel f l).1 0 17 then
        { putCount l (fld (loopLevel f l).1 0 17 - 1) f with pc := BitVec.ofNat 15 (fld (loopLevel f l).2.1 3 15) }
      else loopEnd ls (putCount l 0 f)
    else loopEnd ls f := by
  have hany : (f.loopOld.any fun h => h.level == l) = false := by rw [hold]; rfl
  simp only [loopEnd, hany, Bool.false_eq_true, if_false]
  rfl

/-- The loop ends write counts and the program counter. -/
theorem loopEnd_eq (ls : List Nat) {f : Facet} (hold : f.loopOld = []) : ∃ lc pc, loopEnd ls f = { f with lc := lc, pc := pc } := by
  induction ls generalizing f with
  | nil => exact ⟨_, _, rfl⟩
  | cons l ls ih =>
    rw [loopEnd_cons hold]
    split
    · obtain ⟨lc, hput⟩ := putCount_eq l (fld (loopLevel f l).1 0 17 - 1) f
      obtain ⟨lc', hput'⟩ := putCount_eq l 0 f
      split
      · exact ⟨lc, _, by rw [hput]⟩
      · obtain ⟨lc2, pc2, h2⟩ := ih (f := putCount l 0 f) (by rw [hput']; exact hold)
        exact ⟨lc2, pc2, by rw [h2, hput']⟩
    · exact ih hold

/-- A property of facets that a count of any of these levels and the program counter leave holds after the loop ends. -/
theorem loopEnd_induction {P : Facet → Prop} (ls : List Nat) (hput : ∀ l ∈ ls, ∀ c f, P f → P (putCount l c f))
    (hpc : ∀ f pc, P f → P { f with pc := pc }) {f : Facet} (hold : f.loopOld = []) (h : P f) : P (loopEnd ls f) := by
  induction ls generalizing f with
  | nil => exact h
  | cons l ls ih =>
    have ih' := fun {f} => ih (f := f) fun k hk => hput k (List.mem_cons_of_mem _ hk)
    rw [loopEnd_cons hold]
    split
    · split
      · exact hpc _ _ (hput l List.mem_cons_self _ _ h)
      · obtain ⟨lc, hlc⟩ := putCount_eq l 0 f
        exact ih' (by rw [hlc]; exact hold) (hput l List.mem_cons_self _ _ h)
    · exact ih' hold h

theorem loopEnd_moved (ls : List Nat) {f : Facet} (hold : f.loopOld = []) {l : Nat}
    (h : f.lpWas.any (fun h => h.level == l && h.left == 1) = true) : tget 0 (loopEnd ls f).lc l = tget 0 f.lc l :=
  (loopEnd_induction (P := fun g => g.lpWas = f.lpWas ∧ tget 0 g.lc l = tget 0 f.lc l) ls
    (fun k _ c g hg => by
      obtain ⟨lc, hlc⟩ := putCount_eq k c g
      exact ⟨by rw [hlc]; exact hg.1, (putCount_moved c k (by rw [hg.1]; exact h)).trans hg.2⟩)
    (fun _ _ hg => hg) hold ⟨rfl, rfl⟩).2
theorem loopEnd_ne (ls : List Nat) {f : Facet} (hold : f.loopOld = []) {k : Nat} (hk : k ∉ ls) : tget 0 (loopEnd ls f).lc k = tget 0 f.lc k :=
  loopEnd_induction (P := fun g => tget 0 g.lc k = tget 0 f.lc k) ls
    (fun l hl c g hg => (putCount_ne (by rintro rfl; exact hk hl) c g).trans hg) (fun _ _ hg => hg) hold rfl

/-- Levels that do not end are passed over. -/
theorem loopEnd_skip {f : Facet} (hold : f.loopOld = []) {hi : List Nat} (lo : List Nat) (h : ∀ k ∈ hi, loopEndsAt f f.lastEnd k = false) :
    loopEnd (hi ++ lo) f = loopEnd lo f := by
  induction hi with
  | nil => rfl
  | cons k hi ih =>
    rw [List.cons_append, loopEnd_cons hold, if_neg (by simp [h k List.mem_cons_self])]
    exact ih fun j hj => h j (List.mem_cons_of_mem _ hj)

theorem loopAction_eq {f : Facet} (hold : f.loopOld = []) : loopAction f = { loopEnd [3, 2, 1, 0] f with loopAct := false, lpWas := [] } := by
  obtain ⟨lc, pc, h⟩ := loopEnd_eq [3, 2, 1, 0] hold
  simp [loopAction, ageLoops, h, hold]

theorem loopLevel_registers {f : Facet} (hold : f.loopOld = []) (hwas : f.lpWas = []) (l : Nat) :
    loopLevel f l = (tget 0 f.lc l, tget 0 f.ls l, tget 0 f.le l) := by simp [loopLevel, hold, hwas]

/-- The levels from the highest down, cut at level `l`. -/
theorem levels_split : ∀ l < 4,
    [3, 2, 1, 0] = [3, 2, 1, 0].filter (fun k => decide (l < k)) ++ l :: [3, 2, 1, 0].filter (fun k => decide (k < l)) := by
  decide

/-- The innermost level that ends. -/
theorem loopEnd_innermost {f : Facet} (hold : f.loopOld = []) (hwas : f.lpWas = []) {l : Nat} (hl : l < 4)
    (hends : loopEndsAt f f.lastEnd l = true) (hinner : ∀ k, l < k → k < 4 → loopEndsAt f f.lastEnd k = false) :
    let c := fld (tget 0 f.lc l) 0 17
    let g := loopEnd [3, 2, 1, 0] f
    fld (tget 0 g.lc l) 0 17 = c - 1 ∧
      (1 < c → g.pc = BitVec.ofNat 15 (fld (tget 0 f.ls l) 3 15) ∧ ∀ k, k ≠ l → tget 0 g.lc k = tget 0 f.lc k) := by
  intro c g
  have hreg := loopLevel_registers hold hwas l
  have hcount : ∀ v, (putCount l v f).lc = tset 0 f.lc l (setFld (tget 0 f.lc l) 0 17 v) := fun v => by simp [putCount, hwas, hreg]
  have hfld : ∀ v, v ≤ c → fld (tget 0 (putCount l v f).lc l) 0 17 = v := fun v hv => by
    rw [hcount, tget_tset_self, fld_setFld_same _ _ _ _ (by decide), Nat.mod_eq_of_lt (Nat.lt_of_le_of_lt hv (fld_lt ..))]
  have hg : g = loopEnd (l :: [3, 2, 1, 0].filter fun k => decide (k < l)) f := by
    unfold g
    conv_lhs => rw [levels_split l hl]
    refine loopEnd_skip hold _ fun k hk => ?_
    rw [List.mem_filter, decide_eq_true_eq] at hk
    refine hinner k hk.2 ?_
    have : k ∈ [3, 2, 1, 0] := hk.1
    simp only [List.mem_cons, List.not_mem_nil, or_false] at this
    omega
  rw [hg, loopEnd_cons hold, if_pos hends, hreg]
  dsimp only
  by_cases hc : 1 < fld (tget 0 f.lc l) 0 17
  · rw [if_pos hc]
    exact ⟨hfld _ (Nat.sub_le ..), fun _ => ⟨rfl, fun k hk => putCount_ne hk ..⟩⟩
  · rw [if_neg hc]
    obtain ⟨lc, hlc⟩ := putCount_eq l 0 f
    refine ⟨?_, fun h => absurd h hc⟩
    rw [loopEnd_ne _ (by rw [hlc]; exact hold) (by simp), hfld 0 (Nat.zero_le _)]
    omega

theorem loopEndActionTaken : LoopEndActionTaken := by
  intro n s hact hold f
  obtain ⟨lc, pc, hend⟩ := loopEnd_eq [3, 2, 1, 0] hold
  have hexec : exec (.loopEndAction n) s = .next (updFacet n loopAction s) := by
    change execLoopEndAction n s = _
    rw [execLoopEndAction, hact]
    rfl
  refine ⟨_, hexec, onlyFacet_updFacet .., ?_⟩
  rw [facet_updFacet_same, loopAction_eq hold]
  refine ⟨rfl, ?_, ?_, fun l _ hmoved => loopEnd_moved _ hold hmoved, fun l hwas hl hends hinner => loopEnd_innermost hold hwas hl hends hinner,
    fun hwas hnone => ?_⟩
  · rw [hend]
  · rw [hend]
  · have hskip := loopEnd_skip hold (hi := [3, 2, 1, 0]) [] fun k hk =>
      hnone k (by simp only [List.mem_cons, List.not_mem_nil, or_false] at hk; omega)
    rw [List.append_nil] at hskip
    rw [hskip]
    unfold f
    rw [← hwas]
    rfl

end Sys2Proof.Proofs

namespace Sys2Proof.Proofs
open Sys2Proof Sys2Proof.Machine Sys2Proof.Claims Sys2Proof.Laws

/-! ### Results that land before the bundle that reads them -/

theorem advanceTo_past {f : Nat} {s : State} (h : f ≤ s.fclk) : advanceTo f s = s := by
  rw [advanceTo, Nat.sub_eq_zero_of_le h]
  rfl

/-- The facet as its due results have left flight: their words are noted, and what the loop-end logic keeps of the loop registers. -/
def dueGone (f : Facet) : Facet :=
  { f with flights := f.flights.filter (fun x => decide (1 < x.left)), landed := f.landed ++ landWords (dueLands f),
           lpWas := f.lpWas ++ loopWas f (dueLands f) }
/-- The shadows beyond the first `old` last a bundle longer (R49). -/
def stretchShadows (old : Nat) (f : Facet) : Facet :=
  { f with shadows := f.shadows.take old ++ (f.shadows.drop old).map fun x => { x with left := x.left + 1 } }
theorem earlyLand_eq (n : Nat) (s : State) : earlyLand n s = updFacet n (stretchShadows (facet s n).shadows.length)
    (landAll n (dueLands (facet s n)) (setFacet n (dueGone (facet s n)) s)) := rfl

theorem exec_resultLanding {n : Fin 128} {s : State} (hcan : canLand s n = true) (hready : (facet s n).ready ≤ s.fclk) :
    exec (.resultLanding n) s = .next (earlyLand n s) := by
  change execResultLanding n s = _
  rw [execResultLanding, gateAt, if_pos hcan, advanceTo_past hready]

/-- What landing leaves of the facet is as it was once the due results had left flight. -/
theorem earlyLand_offLand (n : Nat) (s : State) : offLand (facet (earlyLand n s) n) = offLand (dueGone (facet s n)) := by
  rw [earlyLand_eq]
  refine (offLand_updFacet rfl).trans ((landAll_offLand ..).trans ?_)
  rw [facet_setFacet_same]

theorem landAll_single (n : Nat) (l : Land) (s : State) : landAll n [l] s = land1 n s l s := by simp [landAll, landsMeet]
theorem stretchShadows_none {f : Facet} {old : Nat} (h : f.shadows.length = old) : stretchShadows old f = f := by
  simp [stretchShadows, ← h]

/-- One result that writes no memory and moves no loop register lands alone. -/
theorem earlyLand_single {n : Nat} {s : State} {l : Land} (hdue : dueLands (facet s n) = [l]) (hwords : landWords [l] = [])
    (hwas : loopWas (facet s n) [l] = []) : earlyLand n s = updFacet n (stretchShadows (facet s n).shadows.length)
      (land1 n (setFacet n { facet s n with flights := (facet s n).flights.filter fun x => decide (1 < x.left) } s) l
        (setFacet n { facet s n with flights := (facet s n).flights.filter fun x => decide (1 < x.left) } s)) := by
  rw [earlyLand_eq, hdue, landAll_single, dueGone, hdue, hwords, hwas, List.append_nil, List.append_nil]

theorem facet_land1_g (n r : Nat) (v : BitVec 64) (s0 s : State) :
    facet (land1 n s0 (.g r v) s) n = { facet s n with g := if r = 0 then (facet s n).g else tset 0 (facet s n).g r v } ∧
      onlyFacet n s (land1 n s0 (.g r v) s) := by
  simp only [land1]
  split
  · exact ⟨rfl, onlyFacet_refl ..⟩
  · exact ⟨facet_setFacet_same .., onlyFacet_setFacet ..⟩
theorem facet_land1_a (n r : Nat) (v : BitVec 48) (s0 s : State) :
    facet (land1 n s0 (.a r v) s) n = { facet s n with a := tset 0 (facet s n).a r v } ∧ onlyFacet n s (land1 n s0 (.a r v) s) :=
  ⟨facet_setFacet_same .., onlyFacet_setFacet ..⟩
theorem facet_land1_k (n b i : Nat) (v : KReg) (s0 s : State) :
    facet (land1 n s0 (.k b i v) s) n = { facet s n with
      k := tset {} (facet s n).k (kKey b i) v, shadows := (facet s n).shadows ++ [⟨2, .k b i (kReg (facet s n) b i)⟩] } ∧
      onlyFacet n s (land1 n s0 (.k b i v) s) :=
  ⟨facet_setFacet_same .., onlyFacet_setFacet ..⟩

/-- A result that lands alone, and whose landing is the write `h` of its facet. -/
theorem earlyLand_write {n : Nat} {s : State} {l : Land} {h : Facet → Facet} (hdue : dueLands (facet s n) = [l]) (hwords : landWords [l] = [])
    (hwas : loopWas (facet s n) [l] = []) (hland : ∀ u, facet (land1 n u l u) n = h (facet u n) ∧ onlyFacet n u (land1 n u l u)) :
    facet (earlyLand n s) n = stretchShadows (facet s n).shadows.length
      (h { facet s n with flights := (facet s n).flights.filter fun x => decide (1 < x.left) }) ∧ onlyFacet n s (earlyLand n s) := by
  rw [earlyLand_single hdue hwords hwas, facet_updFacet_same, (hland _).1, facet_setFacet_same]
  exact ⟨rfl, onlyFacet_trans (onlyFacet_trans (onlyFacet_setFacet ..) (hland _).2) (onlyFacet_updFacet ..)⟩

theorem resultLandsEarly : ResultLandsEarly := by
  intro n s hcan hready f rest
  have hoff := earlyLand_offLand n s
  have hpc := congrArg Facet.pc hoff
  refine ⟨_, exec_resultLanding hcan hready, congrArg Facet.flights hoff, hpc, congrArg Facet.landed hoff,
    fun r v hdue => ?_, fun r v hdue => ?_, fun b i v hdue => ?_⟩
  · obtain ⟨hfacet, honly⟩ := earlyLand_write (h := fun g => { g with g := if r = 0 then g.g else tset 0 g.g r v }) hdue rfl rfl
      fun u => facet_land1_g ..
    exact ⟨hfacet.trans (stretchShadows_none rfl), honly⟩
  · obtain ⟨hfacet, honly⟩ := earlyLand_write (h := fun g => { g with a := tset 0 g.a r v }) hdue rfl rfl fun u => facet_land1_a ..
    exact ⟨hfacet.trans (stretchShadows_none rfl), honly⟩
  · obtain ⟨hfacet, honly⟩ := earlyLand_write
      (h := fun g => { g with k := tset {} g.k (kKey b i) v, shadows := g.shadows ++ [⟨2, .k b i (kReg g b i)⟩] }) hdue rfl rfl
      fun u => facet_land1_k ..
    refine ⟨honly, hfacet.trans ?_⟩
    simp only [stretchShadows, List.take_left, List.drop_left]
    rfl

/-- Settles O15: what a landing leaves of its facet, and an induction over the loop levels from the highest down. -/
theorem landingAndLoopEnd : Obligations.LandingAndLoopEnd := ⟨resultLandsEarly, loopEndActionTaken⟩

end Sys2Proof.Proofs

namespace Sys2Proof.Proofs
open Sys2Proof Sys2Proof.Machine Sys2Proof.Claims Sys2Proof.Laws

/-! ### A write on a word that no other write of its FCLK has met -/

theorem mem_sadd {l : List Nat} {i j : Nat} : j ∈ sadd l i ↔ j = i ∨ j ∈ l := by
  induction l with
  | nil => simp [sadd]
  | cons k l ih =>
    unfold sadd
    split
    · simp
    · split
      · subst_vars; simp
      · simp only [List.mem_cons, ih]; tauto
theorem contains_sput_self (l : List Nat) (i : Nat) (b : Bool) : (sput l i b).contains i = b := by
  cases b
  · simp [sput, sdel]
  · simp [sput, mem_sadd]
theorem contains_sput_ne (l : List Nat) {i j : Nat} (h : j ≠ i) (b : Bool) : (sput l i b).contains j = l.contains j := by
  rw [Bool.eq_iff_iff, List.contains_iff_mem, List.contains_iff_mem]
  cases b
  · simp [sput, sdel, h]
  · simp [sput, mem_sadd, h]

theorem wordOf_wordOf (a : Nat) : wordOf (wordOf a) = wordOf a := by unfold wordOf; omega

/-- The bits of a byte mask. -/
theorem getLsbD_wordMask {o len j : Nat} (hj : j < 16) : (wordMask o len).getLsbD j = decide (o ≤ j ∧ j < o + len) := by
  rw [wordMask, BitVec.getLsbD_ofNat, Nat.testBit_mul_two_pow, Nat.testBit_two_pow_sub_one]
  simp only [hj, decide_true, Bool.true_and, ← Bool.decide_and]
  exact decide_eq_decide.2 (by omega)
theorem wordMask_ne_zero {o len : Nat} (hlen : 0 < len) (hfit : o + len ≤ 16) : wordMask o len ≠ 0 := by
  intro h
  have hbit := getLsbD_wordMask (o := o) (len := len) (j := o) (by omega)
  rw [h] at hbit
  simp [hlen] at hbit
theorem wordMask_full {o len : Nat} (hfit : o + len ≤ 16) : (wordMask o len == 0xFFFF) = (len == 16) := by
  rw [Bool.eq_iff_iff, beq_iff_eq, beq_iff_eq]
  constructor
  · intro h
    by_contra hlen
    have hbit : ∀ j < 16, o ≤ j ∧ j < o + len := fun j hj => by
      have hb := getLsbD_wordMask (o := o) (len := len) hj
      rw [h, show (0xFFFF : BitVec 16) = BitVec.allOnes 16 from rfl, BitVec.getLsbD_allOnes] at hb
      simpa [hj] using hb.symm
    have := hbit 0 (by decide)
    have := hbit 15 (by decide)
    omega
  · rintro rfl
    obtain rfl : o = 0 := by omega
    rfl

theorem maskBytes_getD (m : BitVec 16) (new old : List Byte) {j : Nat} (hj : j < 16) :
    (maskBytes m new old).getD j 0 = if m.getLsbD j then new.getD j 0 else old.getD j 0 := by
  simp [maskBytes, List.getD_eq_getElem?_getD, hj]

theorem dropBack_unmarked {w : Nat} {s : State} (h : marksOn s w = []) : dropBack w s = s := by simp [dropBack, h]
theorem laterFclk_unmarked {rank w : Nat} {s : State} (h : marksOn s w = []) : laterFclk rank w s = s := by simp [laterFclk, h]

theorem rawWrite_tags (w : Nat) (m : BitVec 16) (tag : Bool) (s : State) : (rawWrite w m tag s).tags = s.tags := by
  unfold rawWrite; split <;> simp
theorem markRewritten_tags (w : Nat) (s : State) : (markRewritten w s).tags = s.tags :=
  foldl_keeps (part := State.tags) (fun s a => by simp) (loggedAt w s) s
theorem dropResv_tags (w : Nat) (who : Agent) (s : State) : (dropResv w who s).tags = s.tags := by
  unfold dropResv
  exact foldl_keeps (part := State.tags) (fun s p => by simp) _ s

/-- Such a write puts the bytes of its mask and the tag of its word. -/
theorem writeWord_unmarked {who : Agent} {rank a : Nat} {bs : List Byte} {tag : Bool} {s : State} {m : BitVec 16}
    (hm : wordMask (a - wordOf a) bs.length = m) (hmarks : marksOn s (wordOf a) = []) (hmask : m ≠ 0) :
    ∃ marks vbits, writeWord who rank a bs tag s =
      dropResv (wordOf a) who (markRewritten (wordOf a) (setTag (wordOf a) (tag && m == 0xFFFF) (setVbits vbits (setMarks marks
        (rawWrite (wordOf a) m (tag && m == 0xFFFF)
          (poke (wordOf a) (maskBytes m (List.replicate (a - wordOf a) 0 ++ bs) (bytesAt s (wordOf a) 16)) s)))))) := by
  unfold writeWord
  extract_lets w s1 m' before new here higher lower taken compat eff s2 s3 told mark base s4 s5 s6 s7
  have hs1 : s1 = s := by unfold s1; rw [dropBack_unmarked hmarks, laterFclk_unmarked hmarks]
  have hhere : here = [] := by unfold here; rw [hs1]; exact hmarks
  have hhigher : higher = [] := by simp [higher, hhere]
  have hlower : lower = [] := by simp [lower, hhere]
  have heff : eff = m := by
    simp only [eff, taken, hhigher, m', w, hm, List.isEmpty_nil, if_true, List.foldl_nil]
    split
    · rfl
    · exact BitVec.and_allOnes
  have hs3 : s3 = s := by simp [s3, s2, hlower, heff, m', w, hm, hs1]
  have hbase : base = bytesAt s w 16 := by simp [base, hlower, before, hs1]
  rw [if_neg (by rwa [heff])]
  refine ⟨s5.marks ++ [mark], sadd s5.vbits w, ?_⟩
  change dropResv w who (markRewritten w (setTag w (tag && eff == 0xFFFF) (setVbits _ (setMarks _
    (rawWrite w eff (tag && eff == 0xFFFF) (poke w (maskBytes eff new base) s3)))))) = _
  rw [heff, hs3, hbase]

/-- Its bytes change, no other; its tag is set where it covers its word. -/
theorem writeWord_bytes {who : Agent} {rank a : Nat} {bs : List Byte} {tag : Bool} {s : State} (hne : bs ≠ []) (hfit : a % 16 + bs.length ≤ 16)
    (hmarks : marksOn s (wordOf a) = []) :
    (∀ x, byteAt (writeWord who rank a bs tag s) x = if a ≤ x ∧ x < a + bs.length then bs.getD (x - a) 0 else byteAt s x) ∧
      (writeWord who rank a bs tag s).tags = sput s.tags (wordOf a) (tag && bs.length == 16) := by
  have hlen : 0 < bs.length := List.length_pos_iff.2 hne
  have hoff : a - wordOf a = a % 16 := by unfold wordOf; omega
  obtain ⟨marks, vbits, hw⟩ := writeWord_unmarked (who := who) (rank := rank) (tag := tag) rfl hmarks (wordMask_ne_zero hlen (by omega))
  constructor
  · intro x
    have hmem : (writeWord who rank a bs tag s).mem = mputs s.mem (wordOf a)
        (maskBytes (wordMask (a - wordOf a) bs.length) (List.replicate (a - wordOf a) 0 ++ bs) (bytesAt s (wordOf a) 16)) := by
      rw [hw]
      exact (dropResv_mem ..).trans ((markRewritten_mem ..).trans (rawWrite_mem ..))
    rw [byteAt, hmem, mget_mputs]
    have hword : a = wordOf a + a % 16 := by unfold wordOf; omega
    by_cases hx : wordOf a ≤ x ∧ x < wordOf a + 16
    · rw [if_pos (by simpa [maskBytes] using hx), maskBytes_getD _ _ _ (by omega), getLsbD_wordMask (by omega), hoff]
      by_cases hin : a ≤ x ∧ x < a + bs.length
      · rw [if_pos hin, if_pos (by simp; omega)]
        simp only [List.getD_eq_getElem?_getD]
        rw [List.getElem?_append_right (by simp; omega), List.length_replicate, show x - wordOf a - a % 16 = x - a by omega]
      · rw [if_neg hin, if_neg (by simp; omega)]
        simp only [bytesAt, List.getD_eq_getElem?_getD]
        simp [show x - wordOf a < 16 by omega, show wordOf a + (x - wordOf a) = x by omega]
    · rw [if_neg (by simpa [maskBytes] using hx), if_neg (by omega)]
      rfl
  · rw [hw, dropResv_tags, markRewritten_tags]
    simp only [setTag, setVbits_fields, setMarks_fields, rawWrite_tags, poke_fields, wordOf_wordOf, hoff, wordMask_full hfit]

/-- Settles O14: with no mark on its word a write meets nothing, and its mask selects its bytes. -/
theorem storeLandsAtItsBytes : Obligations.StoreLandsAtItsBytes := by
  intro n a bs tag s0 s hne hfit hmarks t
  have hnone : marksOn s (wordOf a) = [] := by
    rw [marksOn, List.filter_eq_nil_iff]
    intro k hk
    simp [hmarks k hk]
  obtain ⟨hbytes, htags⟩ := writeWord_bytes (who := .facet (Fin.ofNat 128 n.val)) (rank := 1) (tag := tag) hne hfit hnone
  have ht : t = writeWord (.facet (Fin.ofNat 128 n.val)) 1 a bs tag s := rfl
  rw [ht]
  refine ⟨fun i hi => ?_, fun x hx => ?_, ?_, fun x hx => ?_⟩
  · rw [hbytes, if_pos (by omega), Nat.add_sub_cancel_left]
  · rw [hbytes, if_neg (by omega)]
  · rw [tagAt, htags, contains_sput_self]
  · rw [tagAt, htags, contains_sput_ne _ hx, tagAt]

end Sys2Proof.Proofs

namespace Sys2Proof.Proofs
open Sys2Proof Sys2Proof.Machine Sys2Proof.Claims Sys2Proof.Laws

/-! ### What a branch writes -/

/-- Resolving a branch trains the predictor and counts what is discarded. -/
theorem resolveBranch_facet (n : Nat) (taken : Bool) (target : BitVec 15) (s : State) :
    (∃ pred disc btb, facet (resolveBranch n taken target s) n = { facet s n with predTaken := pred, discard := disc, btb := btb }) ∧
      elsewhereSame n s (resolveBranch n taken target s) := by
  have hdraw := elsewhereSame_drawFree n s
  have hsame : facet (drawFree s).2 n = facet s n := rfl
  unfold resolveBranch
  rw [show drawFree s = ((drawFree s).1, (drawFree s).2) from rfl]
  dsimp only
  generalize (drawFree s).2 = u at hdraw hsame
  have hset : ∀ pred disc btb, let v := setFacet n { facet s n with predTaken := pred, discard := disc, btb := btb } u
      (∃ pred disc btb, facet v n = { facet s n with predTaken := pred, discard := disc, btb := btb }) ∧ elsewhereSame n s v :=
    fun pred disc btb => ⟨⟨pred, disc, btb, facet_setFacet_same ..⟩, elsewhereSame_trans hdraw (elsewhereSame_setFacet ..)⟩
  simp only [updFacet, hsame]
  split
  · split
    · exact hset _ _ _
    · split
      · exact hset _ _ _
      · split
        · exact hset _ _ _
        · split
          · exact hset _ _ _
          · exact hset _ _ _
  · exact hset _ _ _

/-- A taken branch writes its target and three delay bundles besides. -/
theorem takeBranch_facet (n : Nat) (target : BitVec 15) (s : State) :
    (∃ pred disc btb, facet (takeBranch n target s) n = { facet s n with
      predTaken := pred, discard := disc, btb := btb, fs := setFld (facet s n).fs 4 2 3,
      pbt := tset 0 (facet s n).pbt (fsLVL (facet s n).fs) (target.setWidth 64 <<< 3) }) ∧ elsewhereSame n s (takeBranch n target s) := by
  obtain ⟨⟨pred, disc, btb, hf⟩, helse⟩ := resolveBranch_facet n true target s
  refine ⟨⟨pred, disc, btb, ?_⟩, elsewhereSame_trans helse (elsewhereSame_updFacet ..)⟩
  rw [takeBranch, facet_updFacet_same, hf]

/-! ### A branch that issues alone -/

/-- No operation that R48 bars issues while delay bundles are outstanding. -/
theorem noDelay_of_barred {n : Fin 128} {o : Op} {s : State} (h : IssuesAlone n o s) (hbar : barredInDelay o.kind = true) :
    fsDS (seen n s).fs = 0 := by
  have hpass := h.passes
  unfold bundleCause at hpass
  dsimp only at hpass
  split at hpass
  · cases hpass
  · rename_i hok
    by_contra hds
    refine hok ?_
    simp only [bundleMisuse, List.filter_cons, h.unguarded, List.filter_nil, Bool.not_false, if_true, List.any_cons, hbar, Bool.true_or,
      Bool.and_true, Bool.or_eq_true, bne_iff_ne]
    exact .inr (.inl (.inl (.inl (.inl hds))))

/-- The bundle of a branch, which acted on `x`, has retired at a plain index: the facet goes on behind it. -/
structure BranchRetired (n : Fin 128) (o : Op) (s x t : State) : Prop where
  flights : (facet t n).flights = (facet x n).flights
  fs : (facet t n).fs = (facet x n).fs
  pbt : (facet t n).pbt = (facet x n).pbt
  rstack : (facet t n).rstack = (facet x n).rstack
  top : (facet t n).top = (facet x n).top
  depth : (facet t n).depth = (facet x n).depth
  pc : (facet t n).pc = (seen n s).pc + 1
  unbranched : unbranched (facet t n) = unbranched (facet x n)
  others : ∀ m, m ≠ n.val → facet t m = facet (landDue n s) m
  rest : besides t = besides (atIssue n o s)

theorem unbranched_of_kept {f g : Facet} (h : kept f = kept g) : unbranched f = unbranched g :=
  congrArg (fun k : Facet =>
    { k with fs := setFld 0 4 2 0, pbt := [], btb := [], predTaken := [], discard := 0, rstack := [], top := 0, depth := 0, lc := [],
             ls := [], le := [] }) h

theorem branchRetired {n : Fin 128} {o : Op} {s x : State} (hrep : (seen n s).repeating = false) (hds : fsDS (seen n s).fs = 0)
    (helse : elsewhereSame n (acting n o s) x) : BranchRetired n o s x (retire n (seen n s) [o] x) := by
  have hr := retired n (seen n s) [o] x
  obtain ⟨_, _, _, _, _, _, _, _, _, _, _, _, _, hs⟩ := hr.same
  have hfs := hr.fs
  rw [hrep, hds] at hfs
  exact {
    flights := by rw [hs]
    fs := hfs
    pbt := by rw [hs]
    rstack := by rw [hs]
    top := by rw [hs]
    depth := by rw [hs]
    pc := hr.plain hrep hds
    unbranched := unbranched_of_kept (Retired.kept_eq hr)
    others := fun m hm => (hr.others m hm).trans ((helse.1 m hm).trans (acting_others n o s m hm))
    rest := (congrArg (fun u : State => { u with marks := [] }) hr.rest).trans (helse.2.trans (acting_rest n o s)) }

/-- The kinds of branches, calls and returns. -/
def branchOps : Ops := [(.br, .br), (.brc, .brc), (.call, .call), (.ret, .ret)]

theorem acted_branch : ∀ p ∈ branchOps, ∀ {n : Fin 128} {w : OpW} {s : State}, IssuesAlone n (op p.1 w) s →
    acted n (op p.1 w) s = doControl (landDue n s) n (seen n s) [] 1 (op p.1 w) (acting n (op p.1 w) s) := by
  have hacts : ∀ p ∈ branchOps, ∀ (s0 : State) (n : Nat) (f : Facet) (w : OpW) (s : State), suppressed f (op p.1 w) = false →
      doOp s0 n f [] 1 s (op p.1 w) = doControl s0 n f [] 1 (op p.1 w) s := by
    simp only [branchOps, List.forall_mem_cons, List.not_mem_nil, false_imp_iff, implies_true, and_true]
    and_intros <;> (intro s0 n f w s hs; rw [doOp, if_neg (by simp [hs])]; rfl)
  exact fun p hp n w s h => hacts p hp _ _ _ _ _ h.unguarded

theorem exec_branch {p : OpKind × (Fin 128 → OpW → Instr)} (hp : p ∈ branchOps) {n : Fin 128} {w : OpW} {s x : State}
    (h : IssuesAlone n (op p.1 w) s) (hrep : (seen n s).repeating = false)
    (hx : doControl (landDue n s) n (seen n s) [] 1 (op p.1 w) (acting n (op p.1 w) s) = x) (hwait : (facet x n).wait = .none)
    (helse : elsewhereSame n (acting n (op p.1 w) s) x) : ∃ t, exec (p.2 n w) s = .next t ∧ BranchRetired n (op p.1 w) s x t := by
  have hfacts : ∀ p ∈ branchOps, barredInDelay p.1 = true ∧ p.1 ≠ .retx := by decide
  have hmem : p ∈ facetOps := by
    have : ∀ p ∈ branchOps, p ∈ controlOps := by simp [branchOps, controlOps]
    have := this p hp
    simp only [facetOps, List.mem_append]
    tauto
  obtain ⟨hbar, hret⟩ := hfacts p hp
  have hds := noDelay_of_barred h (by rwa [op_kind])
  refine ⟨_, exec_alone hmem h, ?_⟩
  rw [acted_branch p hp h, hx, afterAct_retires (by rwa [op_kind]) hwait]
  exact branchRetired hrep hds helse

end Sys2Proof.Proofs

namespace Sys2Proof.Proofs
open Sys2Proof Sys2Proof.Machine Sys2Proof.Claims Sys2Proof.Laws

/-! ### Branches, calls and returns by operation -/

theorem gSpec_eq_one (f : Facet) (x : BitVec 16) : (gSpec f x == 1) = decide (gRead f (spReg x) = 1) := by
  rw [Bool.eq_iff_iff, beq_iff_eq, decide_eq_true_eq, gSpec, ← BitVec.toNat_inj]
  rfl

theorem decide_bne_decide (p q : Prop) [Decidable p] [Decidable q] : (decide p != decide q) = true ↔ (p ↔ ¬ q) := by
  by_cases p <;> by_cases q <;> simp [*]

section
variable {s0 s : State} {n : Nat} {f : Facet} {w : OpW} {target : BitVec 15}

theorem doControl_br (ht : branchTarget f [] w.b = .ok target) : doControl s0 n f [] 1 (op .br w) s = takeBranch n target s := by
  change (match branchTarget f [] w.b with | .ok t => takeBranch n t s | .error _ => s) = _
  rw [ht]
theorem doControl_brc (ht : branchTarget f [] w.b = .ok target) : doControl s0 n f [] 1 (op .brc w) s =
    if gRead f (spReg w.a) = 1 ↔ spImm w.c ≠ 1 then takeBranch n target s else resolveBranch n false target s := by
  change (match branchTarget f [] w.b with
    | .ok t => if (gSpec f w.a == 1) != (spImm w.c == 1) then takeBranch n t s else resolveBranch n false t s
    | .error _ => s) = _
  rw [ht, gSpec_eq_one]
  exact if_congr (decide_bne_decide _ _) rfl rfl
theorem doControl_brc_taken (ht : branchTarget f [] w.b = .ok target) (hc : gRead f (spReg w.a) = 1 ↔ spImm w.c ≠ 1) :
    doControl s0 n f [] 1 (op .brc w) s = takeBranch n target s :=
  (doControl_brc ht).trans (if_pos hc)
theorem doControl_brc_untaken (ht : branchTarget f [] w.b = .ok target) (hc : gRead f (spReg w.a) = 1 ↔ spImm w.c = 1) :
    doControl s0 n f [] 1 (op .brc w) s = resolveBranch n false target s :=
  (doControl_brc ht).trans (if_neg (by tauto))
theorem doControl_call_branch (hc : spImm w.c = 0) (ht : branchTarget f [] w.b = .ok target) : doControl s0 n f [] 1 (op .call w) s =
    takeBranch n target (pushRs n (skipBundles s0 n 3 (f.pc + 1)) s) := by
  change (if spImm w.c = 1 then pushRs n (BitVec.ofNat 15 (gSpec f w.b / 8)) s else match branchTarget f [] w.b with
    | .ok t => takeBranch n t (pushRs n (skipBundles s0 n 3 (f.pc + 1)) s)
    | .error _ => s) = _
  rw [ht, hc, if_neg (by decide)]
theorem doControl_call_push (hc : spImm w.c = 1) : doControl s0 n f [] 1 (op .call w) s = pushRs n (BitVec.ofNat 15 (gSpec f w.b / 8)) s :=
  if_pos hc
theorem doControl_ret_branch {v : BitVec 15} (hc : spImm w.c = 0) (hv : (popRs n s).1 = v) :
    doControl s0 n f [] 1 (op .ret w) s = takeBranch n v (popRs n s).2 := by
  rw [← hv]
  exact (if_neg (by simp [op, codeless, hasTypeCode, ctlC, hc])).trans (if_pos hc)
theorem doControl_ret_register {v : BitVec 15} (hc : spImm w.c = 1) (hv : (popRs n s).1 = v) :
    doControl s0 n f [] 1 (op .ret w) s = putFlight n 1 (gLand f w.a (v.setWidth 64 <<< 3)) (popRs n s).2 := by
  rw [← hv]
  exact (if_neg (by simp [op, codeless, hasTypeCode, ctlC, hc])).trans (if_neg (by simp [op, codeless, hasTypeCode, ctlC, hc]))
theorem doControl_ret_depth (hc : spImm w.c = 2) : doControl s0 n f [] 1 (op .ret w) s = putFlight n 1 (gLand f w.a (BitVec.ofNat 64 f.depth)) s :=
  if_pos hc

end

/-- A state that differs from the one in which a branch acts in what branches write: `unbranched` hides it, and the facet does not wait. -/
structure BranchActs (n : Fin 128) (o : Op) (s x : State) (g : Facet) : Prop where
  flights : (facet x n).flights = g.flights
  fs : (facet x n).fs = g.fs
  pbt : (facet x n).pbt = g.pbt
  rstack : (facet x n).rstack = g.rstack
  top : (facet x n).top = g.top
  depth : (facet x n).depth = g.depth
  unbranched : unbranched (facet x n) = unbranched (facet (acting n o s) n)
  wait : (facet x n).wait = (facet (acting n o s) n).wait
  elsewhere : elsewhereSame n (acting n o s) x

/-- The facet behind a taken branch. -/
def branched (target : BitVec 15) (f : Facet) : Facet :=
  { f with fs := setFld f.fs 4 2 3, pbt := tset 0 f.pbt (fsLVL f.fs) (target.setWidth 64 <<< 3) }
/-- The facet with an index pushed on its return stack, and with its top index popped. -/
def pushed (v : BitVec 15) (f : Facet) : Facet :=
  { f with top := f.top + 1, rstack := tset 0 f.rstack (f.top + 1).toNat v, depth := min (f.depth + 1) 16 }
def popped (f : Facet) : Facet := { f with top := f.top - 1, depth := f.depth - 1 }

section
variable {n : Fin 128} {o : Op} {s x : State} {g : Facet}

theorem branchActs_acting (n : Fin 128) (o : Op) (s : State) : BranchActs n o s (acting n o s) (seen n s) := by
  obtain ⟨_, _, _, hact⟩ := acting_facet n o s
  constructor
  case elsewhere => exact elsewhereSame_of_onlyFacet (onlyFacet_refl ..)
  case unbranched => rfl
  case wait => rfl
  all_goals rw [hact]

theorem BranchActs.resolve (h : BranchActs n o s x g) (taken : Bool) (target : BitVec 15) :
    BranchActs n o s (resolveBranch n taken target x) g := by
  obtain ⟨⟨pred, disc, btb, hx⟩, helse⟩ := resolveBranch_facet n taken target x
  constructor <;> try rw [hx]
  exacts [h.flights, h.fs, h.pbt, h.rstack, h.top, h.depth, h.unbranched, h.wait, elsewhereSame_trans h.elsewhere helse]
theorem BranchActs.take (h : BranchActs n o s x g) (target : BitVec 15) : BranchActs n o s (takeBranch n target x) (branched target g) := by
  obtain ⟨⟨pred, disc, btb, hx⟩, helse⟩ := takeBranch_facet n target x
  constructor <;> try rw [hx]
  exacts [h.flights, by rw [h.fs]; rfl, by rw [h.pbt, h.fs]; rfl, h.rstack, h.top, h.depth, h.unbranched, h.wait,
    elsewhereSame_trans h.elsewhere helse]
theorem BranchActs.push (h : BranchActs n o s x g) (v : BitVec 15) : BranchActs n o s (pushRs n v x) (pushed v g) := by
  have hx : facet (pushRs n v x) n = pushed v (facet x n) := facet_updFacet_same ..
  constructor <;> try rw [hx]
  exacts [h.flights, h.fs, h.pbt, by simp only [pushed, h.top, h.rstack], by simp only [pushed, h.top], by simp only [pushed, h.depth],
    h.unbranched, h.wait, elsewhereSame_trans h.elsewhere (elsewhereSame_updFacet ..)]
theorem BranchActs.pop (h : BranchActs n o s x g) : BranchActs n o s (popRs n x).2 (popped g) := by
  have hx : facet (popRs n x).2 n = popped (facet x n) := facet_setFacet_same ..
  constructor <;> try rw [hx]
  exacts [h.flights, h.fs, h.pbt, h.rstack, by simp only [popped, h.top], by simp only [popped, h.depth], h.unbranched, h.wait,
    elsewhereSame_trans h.elsewhere (elsewhereSame_setFacet ..)]
theorem BranchActs.popRs_fst (h : BranchActs n o s x g) : (popRs n x).1 = tget 0 g.rstack g.top.toNat := by
  rw [← h.rstack, ← h.top]
  rfl
theorem BranchActs.fly (h : BranchActs n o s x g) (l : Land) :
    BranchActs n o s (putFlight n 1 l x) { g with flights := g.flights ++ [⟨1, l⟩] } := by
  have hx : facet (putFlight n 1 l x) n = { facet x n with flights := (facet x n).flights ++ [⟨1, l⟩] } := facet_updFacet_same ..
  constructor <;> try rw [hx]
  exacts [by rw [h.flights], h.fs, h.pbt, h.rstack, h.top, h.depth, h.unbranched, h.wait,
    elsewhereSame_trans h.elsewhere (elsewhereSame_updFacet ..)]

/-- A branch, call or return that issues alone: the facet is as `g` shows in what branches write and goes on at the next index. -/
structure Branches (n : Fin 128) (o : Op) (s : State) (g : Facet) (t : State) : Prop where
  flights : (facet t n).flights = g.flights
  fs : (facet t n).fs = g.fs
  pbt : (facet t n).pbt = g.pbt
  rstack : (facet t n).rstack = g.rstack
  top : (facet t n).top = g.top
  depth : (facet t n).depth = g.depth
  pc : (facet t n).pc = (seen n s).pc + 1
  unbranched : unbranched (facet t n) = unbranched (seen n s)
  others : ∀ m, m ≠ n.val → facet t m = facet (landDue n s) m
  rest : besides t = besides (atIssue n o s)

end

theorem exec_branches {p : OpKind × (Fin 128 → OpW → Instr)} (hp : p ∈ branchOps) {n : Fin 128} {w : OpW} {s x : State} {g : Facet}
    (h : IssuesAlone n (op p.1 w) s) (hrep : (seen n s).repeating = false)
    (hx : doControl (landDue n s) n (seen n s) [] 1 (op p.1 w) (acting n (op p.1 w) s) = x) (hacts : BranchActs n (op p.1 w) s x g) :
    ∃ t, exec (p.2 n w) s = .next t ∧ Branches n (op p.1 w) s g t := by
  obtain ⟨t, ht, hb⟩ := exec_branch hp h hrep hx (hacts.wait.trans (acting_wait h)) hacts.elsewhere
  obtain ⟨_, _, _, hfacet⟩ := acting_facet n (op p.1 w) s
  have hseen : unbranched (facet (acting n (op p.1 w) s) n) = unbranched (seen n s) := by
    rw [hfacet]
    rfl
  exact ⟨t, ht, hb.flights.trans hacts.flights, hb.fs.trans hacts.fs, hb.pbt.trans hacts.pbt, hb.rstack.trans hacts.rstack,
    hb.top.trans hacts.top, hb.depth.trans hacts.depth, hb.pc, (hb.unbranched.trans hacts.unbranched).trans hseen, hb.others, hb.rest⟩

theorem branchTaken : BranchTaken := by
  intro n w s target hrep ht
  refine ⟨fun h => ?_, fun h hc => ?_, fun h hc => ?_⟩
  case refine_1 =>
    obtain ⟨t, hexec, hb⟩ := exec_branches (p := (.br, .br)) (by simp [branchOps]) h hrep (doControl_br ht) ((branchActs_acting ..).take target)
    exact ⟨t, hexec, ⟨hb.fs, by rw [hb.pbt]; exact tget_tset_self ..⟩, hb.flights, hb.pc, hb.unbranched, hb.rstack, hb.depth,
      hb.others, hb.rest⟩
  case refine_2 =>
    obtain ⟨t, hexec, hb⟩ := exec_branches (p := (.brc, .brc)) (by simp [branchOps]) h hrep (doControl_brc_taken ht hc)
      ((branchActs_acting ..).take target)
    exact ⟨t, hexec, ⟨hb.fs, by rw [hb.pbt]; exact tget_tset_self ..⟩, hb.flights, hb.pc, hb.unbranched, hb.rstack, hb.depth,
      hb.others, hb.rest⟩
  case refine_3 =>
    obtain ⟨t, hexec, hb⟩ := exec_branches (p := (.brc, .brc)) (by simp [branchOps]) h hrep (doControl_brc_untaken ht hc)
      ((branchActs_acting ..).resolve false target)
    exact ⟨t, hexec, hb.fs, hb.pbt, hb.flights, hb.pc, hb.unbranched, hb.rstack, hb.depth, hb.others, hb.rest⟩

theorem callAndReturn : CallAndReturn := by
  intro n w s hrep
  refine ⟨fun target h hc ht => ?_, fun h hc => ?_, fun h hc => ?_, fun h hc => ?_, fun h hc => ?_⟩
  case refine_1 =>
    obtain ⟨t, hexec, hb⟩ := exec_branches (p := (.call, .call)) (by simp [branchOps]) h hrep (doControl_call_branch hc ht)
      (((branchActs_acting ..).push _).take target)
    exact ⟨t, hexec, ⟨hb.top, by rw [hb.rstack]; exact tget_tset_self .., hb.depth⟩, ⟨hb.fs, by rw [hb.pbt]; exact tget_tset_self ..⟩,
      hb.flights.trans (List.append_nil _).symm, hb.pc, hb.unbranched, hb.others, hb.rest⟩
  case refine_2 =>
    obtain ⟨t, hexec, hb⟩ := exec_branches (p := (.call, .call)) (by simp [branchOps]) h hrep (doControl_call_push hc)
      ((branchActs_acting ..).push _)
    exact ⟨t, hexec, ⟨hb.top, by rw [hb.rstack]; exact tget_tset_self .., hb.depth⟩, hb.fs,
      hb.flights.trans (List.append_nil _).symm, hb.pc, hb.unbranched, hb.others, hb.rest⟩
  case refine_3 =>
    obtain ⟨t, hexec, hb⟩ := exec_branches (p := (.ret, .ret)) (by simp [branchOps]) h hrep
      (doControl_ret_branch hc (branchActs_acting ..).popRs_fst) ((branchActs_acting ..).pop.take _)
    exact ⟨t, hexec, ⟨hb.top, hb.rstack, hb.depth⟩, ⟨hb.fs, by rw [hb.pbt]; exact tget_tset_self ..⟩,
      hb.flights.trans (List.append_nil _).symm, hb.pc, hb.unbranched, hb.others, hb.rest⟩
  case refine_4 =>
    obtain ⟨t, hexec, hb⟩ := exec_branches (p := (.ret, .ret)) (by simp [branchOps]) h hrep
      (doControl_ret_register hc (branchActs_acting ..).popRs_fst) ((branchActs_acting ..).pop.fly _)
    exact ⟨t, hexec, ⟨hb.top, hb.rstack, hb.depth⟩, hb.fs, hb.flights, hb.pc, hb.unbranched, hb.others, hb.rest⟩
  case refine_5 =>
    obtain ⟨t, hexec, hb⟩ := exec_branches (p := (.ret, .ret)) (by simp [branchOps]) h hrep (doControl_ret_depth hc)
      ((branchActs_acting ..).fly _)
    exact ⟨t, hexec, hb.depth, hb.fs, hb.rstack, hb.flights, hb.pc, hb.unbranched, hb.others, hb.rest⟩

/-- Settles O18: each form of a branch, call or return, as a sequence of pushes, pops, jumps and flights on the facet that the bundle sees. -/
theorem branchesAndCalls : Obligations.BranchesAndCalls := ⟨branchTaken, callAndReturn⟩

end Sys2Proof.Proofs

namespace Sys2Proof.Proofs
open Sys2Proof Sys2Proof.Machine Sys2Proof.Claims Sys2Proof.Laws

/-! ### Numbers of the model as words -/

theorem wrapN_eq_toNat (w : Nat) (i : Int) : wrapN w i = (BitVec.ofInt w i).toNat := (BitVec.toNat_ofInt i).symm
theorem ofNat_wrapN (w : Nat) (i : Int) : BitVec.ofNat w (wrapN w i) = BitVec.ofInt w i := by
  rw [wrapN_eq_toNat, BitVec.ofNat_toNat, BitVec.setWidth_eq]
theorem sgn_eq_toInt {w : Nat} (hw : 0 < w) (x : Nat) : sgn w x = (BitVec.ofNat w x).toInt := by
  obtain ⟨v, rfl⟩ := Nat.exists_eq_add_of_lt hw
  rw [BitVec.toInt_eq_toNat_cond, BitVec.toNat_ofNat, sgn]
  exact if_congr (by rw [Nat.add_sub_cancel, Nat.pow_succ]; omega) rfl rfl
theorem ofInt_sub (w : Nat) (x y : Int) : BitVec.ofInt w (x - y) = BitVec.ofInt w x - BitVec.ofInt w y := by
  rw [Int.sub_eq_add_neg, BitVec.ofInt_add, BitVec.ofInt_neg, BitVec.sub_eq_add_neg]

/-! ### Lanes -/

theorem fromLanes_succ (w n : Nat) (h : Nat → Nat) : fromLanes w (n + 1) h = fromLanes w n h + h n % 2 ^ w * 2 ^ (n * w) := by
  simp [fromLanes, List.range_succ]
theorem fromLanes_lt (w n : Nat) (h : Nat → Nat) : fromLanes w n h < 2 ^ (n * w) := by
  induction n with
  | zero => simp [fromLanes]
  | succ n ih =>
    rw [fromLanes_succ]
    calc fromLanes w n h + h n % 2 ^ w * 2 ^ (n * w)
      _ < 2 ^ (n * w) + h n % 2 ^ w * 2 ^ (n * w) := by omega
      _ = (h n % 2 ^ w + 1) * 2 ^ (n * w) := by ring
      _ ≤ 2 ^ w * 2 ^ (n * w) := Nat.mul_le_mul_right _ (Nat.mod_lt _ (Nat.two_pow_pos w))
      _ = 2 ^ ((n + 1) * w) := by ring
theorem lane_fromLanes (w n : Nat) (h : Nat → Nat) (j : Nat) (hj : j < n) : lane w (fromLanes w n h) j = h j % 2 ^ w := by
  induction n with
  | zero => omega
  | succ n ih =>
    rw [fromLanes_succ, lane]
    by_cases hn : j < n
    · obtain ⟨d, rfl⟩ := Nat.exists_eq_add_of_lt hn
      have hpow : 2 ^ ((j + d + 1) * w) = 2 ^ (d * w) * 2 ^ w * 2 ^ (j * w) := by ring
      rw [hpow, ← Nat.mul_assoc, ← Nat.mul_assoc, Nat.add_mul_div_right _ _ (Nat.two_pow_pos _), Nat.add_mul_mod_self_right]
      exact ih hn
    · obtain rfl : j = n := by omega
      rw [Nat.add_mul_div_right _ _ (Nat.two_pow_pos _), Nat.div_eq_of_lt (fromLanes_lt ..), Nat.zero_add, Nat.mod_mod]
theorem lane_ofNat_fromLanes {w n : Nat} (h : Nat → Nat) {j : Nat} (hj : j < n) :
    lane w (BitVec.ofNat (n * w) (fromLanes w n h)).toNat j = h j % 2 ^ w := by
  rw [BitVec.toNat_ofNat, Nat.mod_eq_of_lt (fromLanes_lt ..), lane_fromLanes _ _ _ _ hj]

theorem setWidth_shift_eq_lane {m : Nat} (x : BitVec m) (w j : Nat) : (x >>> (w * j)).setWidth w = BitVec.ofNat w (lane w x.toNat j) :=
  BitVec.eq_of_toNat_eq (by simp [lane, Nat.shiftRight_eq_div_pow, Nat.mul_comm])
theorem setWidth_lane {w v : Nat} (h : w ≤ v) (x j : Nat) : (BitVec.ofNat w (lane w x j)).setWidth v = BitVec.ofNat v (lane w x j) :=
  BitVec.setWidth_ofNat_of_le_of_lt h (Nat.mod_lt _ (Nat.two_pow_pos w))
theorem signExtend_lane {w : Nat} (hw : 0 < w) (v x j : Nat) :
    (BitVec.ofNat w (lane w x j)).signExtend v = BitVec.ofInt v (sgn w (lane w x j)) := by
  rw [sgn_eq_toInt hw]
  rfl

/-! ### Vector MAC operations as they land -/

theorem macLand_vmac_i16 (old b c : Nat) : macLand .vmac 1 old b c =
    fromLanes 48 16 fun j => wrapN 48 (lane 48 old j + sgn 16 (lane 16 b j) * sgn 16 (lane 16 c j)) := rfl
theorem macLand_vmsu_i16 (old b c : Nat) : macLand .vmsu 1 old b c =
    fromLanes 48 16 fun j => wrapN 48 (lane 48 old j - sgn 16 (lane 16 b j) * sgn 16 (lane 16 c j)) := rfl
theorem macLand_vmacu_u8 (old b c : Nat) : macLand .vmacu 0 old b c =
    fromLanes 48 16 fun j => wrapN 48 (lane 48 old j +
      ((lane 8 b (2 * j) : Int) * lane 8 c (2 * j) + (lane 8 b (2 * j + 1) : Int) * lane 8 c (2 * j + 1))) := rfl

theorem acc_land1_mac (k : OpKind) (t n i : Nat) (b c : BitVec 256) (s : State) : tget 0 (facet (land1 n s (.mac i k t b c) s) n).acc i =
    BitVec.ofNat 768 (macLand k t (tget 0 (facet s n).acc i).toNat b.toNat c.toNat) := by
  simp only [land1, facet_setFacet_same]
  exact tget_tset_self ..
/-- The lanes of an accumulator on which a MAC operation has landed. -/
theorem acc_lane_of_mac {k : OpKind} {t n i j : Nat} {b c : BitVec 256} {s : State} {h : Nat → Int} (hj : j < 16)
    (hland : macLand k t (tget 0 (facet s n).acc i).toNat b.toNat c.toNat = fromLanes 48 16 fun j => wrapN 48 (h j)) :
    ((tget 0 (facet (land1 n s (.mac i k t b c) s) n).acc i) >>> (48 * j)).setWidth 48 = BitVec.ofInt 48 (h j) := by
  have hacc : tget 0 (facet (land1 n s (.mac i k t b c) s) n).acc i = BitVec.ofNat 768 (fromLanes 48 16 fun j => wrapN 48 (h j)) := by
    rw [acc_land1_mac, hland]
  have hlane : lane 48 (BitVec.ofNat 768 (fromLanes 48 16 fun j => wrapN 48 (h j))).toNat j = wrapN 48 (h j) % 2 ^ 48 :=
    lane_ofNat_fromLanes (n := 16) _ hj
  rw [setWidth_shift_eq_lane, hacc, hlane, ← BitVec.toNat_ofNat, ofNat_wrapN, BitVec.ofNat_toNat, BitVec.setWidth_eq]

theorem macLandsOnAccumulator : MacLandsOnAccumulator := by
  intro b c n i s
  refine ⟨fun j hj => ?_, fun j hj => ?_, fun j hj => ?_⟩
  case refine_1 =>
    rw [acc_lane_of_mac hj (macLand_vmac_i16 ..)]
    simp only [setWidth_shift_eq_lane, signExtend_lane, BitVec.ofInt_add, BitVec.ofInt_mul, BitVec.ofInt_natCast, Nat.reduceLT]
  case refine_2 =>
    rw [acc_lane_of_mac hj (macLand_vmsu_i16 ..)]
    simp only [setWidth_shift_eq_lane, signExtend_lane, ofInt_sub, BitVec.ofInt_mul, BitVec.ofInt_natCast, Nat.reduceLT]
  case refine_3 =>
    rw [acc_lane_of_mac hj (macLand_vmacu_u8 ..), show 16 * j + 8 = 8 * (2 * j + 1) by ring, show 16 * j = 8 * (2 * j) by ring]
    simp only [setWidth_shift_eq_lane, setWidth_lane, BitVec.ofInt_add, BitVec.ofInt_mul, BitVec.ofInt_natCast, Nat.reduceLeDiff, BitVec.add_assoc]

/-- Settles O11: what a MAC flies carries its operands, and `macLand` is read lane by lane as arithmetic on 48-bit words. -/
theorem macResult : Obligations.MacResult := ⟨macInFlight, macLandsOnAccumulator⟩

end Sys2Proof.Proofs

namespace Sys2Proof.Proofs
open Sys2Proof Sys2Proof.Machine Sys2Proof.Claims Sys2Proof.Laws

/-! ### Scalar operands are 64-bit words -/

theorem szBytes_le (z : Nat) : szBytes z ≤ 8 :=
  (Nat.pow_le_pow_right (by decide) (show z % 4 ≤ 3 by omega) : 2 ^ (z % 4) ≤ 2 ^ 3)
theorem two_pow_le_word {s : Nat} (hs : s ≤ 8) : 2 ^ (8 * s) ≤ 2 ^ 64 := Nat.pow_le_pow_right (by decide) (by omega)
theorem wrapN_lt (w : Nat) (i : Int) : wrapN w i < 2 ^ w := by
  rw [wrapN_eq_toNat]
  exact BitVec.isLt _
theorem scRead_lt {s : Nat} (hs : s ≤ 8) (uns : Bool) (x : Nat) : scRead s false uns x < 2 ^ 64 := by
  rw [scRead]
  split
  · exact (Nat.mod_lt _ (Nat.two_pow_pos _)).trans_le (two_pow_le_word hs)
  · exact wrapN_lt ..
theorem readOperand_lt {sz : Nat} (hs : sz ≤ 8) (s : State) (f : Facet) (lits : List (BitVec 48)) (x : BitVec 16) (uns : Bool) :
    readOperand s f lits x (.sc sz false uns) < 2 ^ 64 := by
  rw [readOperand]
  split
  · split
    · exact scRead_lt hs ..
    · exact (BitVec.isLt _).trans (by decide)
  · exact scRead_lt hs ..
  · exact scRead_lt hs ..
theorem operand_lt {p : OpKind × (Fin 128 → OpW → Instr)} (hp : p ∈ scalarOps) (n : Fin 128) (w : OpW) (s : State) (i : Nat) :
    operand n (op p.1 w) s i < 2 ^ 64 := by
  rw [operand, rawOperand, op_kind, operandDT_scalar p hp]
  exact readOperand_lt (szBytes_le _) ..

/-! ### Words as the numbers that R94 makes of them -/

theorem scVal_unsigned (x : BitVec 64) : scVal true x.toNat = x.toNat := congrArg Nat.cast (Nat.mod_eq_of_lt x.isLt)
theorem scVal_signed (x : BitVec 64) : scVal false x.toNat = x.toInt := by
  rw [scVal, if_neg Bool.false_ne_true, sgn_eq_toInt (by decide), BitVec.ofNat_toNat, BitVec.setWidth_eq]
theorem ofInt_scVal (uns : Bool) (x : BitVec 64) : BitVec.ofInt 64 (scVal uns x.toNat) = x := by
  cases uns
  · rw [scVal_signed, BitVec.ofInt_toInt]
  · rw [scVal_unsigned, BitVec.ofInt_natCast, BitVec.ofNat_toNat, BitVec.setWidth_eq]
theorem scVal_eq_iff (uns : Bool) (x y : BitVec 64) : scVal uns x.toNat = scVal uns y.toNat ↔ x = y :=
  ⟨fun h => by rw [← ofInt_scVal uns x, h, ofInt_scVal], fun h => by rw [h]⟩
theorem less_eq_decide (uns : Bool) (x y : BitVec 64) :
    (if uns then x.ult y else x.slt y) = decide (scVal uns x.toNat < scVal uns y.toNat) := by
  cases uns
  · rw [scVal_signed, scVal_signed, if_neg Bool.false_ne_true, BitVec.slt_eq_decide]
  · rw [scVal_unsigned, scVal_unsigned, if_pos rfl, BitVec.ult]
    exact decide_eq_decide.mpr Int.ofNat_lt.symm
/-- A number is right when it stands for the word, as `wrapN` takes it back. -/
theorem wrapN_word {i : Int} {v : BitVec 64} (h : BitVec.ofInt 64 i = v) : wrapN 64 i = v.toNat := by
  rw [wrapN_eq_toNat, h]
theorem cmp01_eq_toNat (b : Bool) : cmp01 b = (if b then 1 else 0 : BitVec 64).toNat := by cases b <;> rfl

/-! ### Scalar operations by kind -/

section
variable (s z : Nat) (uns : Bool) (x y : BitVec 64) (a c : Nat) (ctl : BitVec 12)

theorem scalarAlu_mov : scalarAlu .mov s uns a x.toNat c ctl = (scalarSpec .mov z uns x y ctl).toNat := rfl
theorem scalarAlu_add : scalarAlu .add s uns a x.toNat y.toNat ctl = (scalarSpec .add z uns x y ctl).toNat :=
  wrapN_word (by rw [BitVec.ofInt_add, ofInt_scVal, ofInt_scVal]; rfl)
theorem scalarAlu_sub : scalarAlu .sub s uns a x.toNat y.toNat ctl = (scalarSpec .sub z uns x y ctl).toNat :=
  wrapN_word (by rw [ofInt_sub, ofInt_scVal, ofInt_scVal]; rfl)
theorem scalarAlu_and : scalarAlu .and s uns a x.toNat y.toNat ctl = (scalarSpec .and z uns x y ctl).toNat := (BitVec.toNat_and ..).symm
theorem scalarAlu_or : scalarAlu .or s uns a x.toNat y.toNat ctl = (scalarSpec .or z uns x y ctl).toNat := (BitVec.toNat_or ..).symm
theorem scalarAlu_xor : scalarAlu .xor s uns a x.toNat y.toNat ctl = (scalarSpec .xor z uns x y ctl).toNat := (BitVec.toNat_xor ..).symm

theorem scalarAlu_min : scalarAlu .min s uns a x.toNat y.toNat ctl = (scalarSpec .min z uns x y ctl).toNat := by
  refine wrapN_word ?_
  change _ = if (if uns then x.ult y else x.slt y) then x else y
  rw [less_eq_decide]
  by_cases h : scVal uns x.toNat < scVal uns y.toNat
  · simp [min_eq_left h.le, h, ofInt_scVal]
  · simp [min_eq_right (not_lt.mp h), h, ofInt_scVal]
theorem scalarAlu_max : scalarAlu .max s uns a x.toNat y.toNat ctl = (scalarSpec .max z uns x y ctl).toNat := by
  refine wrapN_word ?_
  change _ = if (if uns then x.ult y else x.slt y) then y else x
  rw [less_eq_decide]
  by_cases h : scVal uns x.toNat < scVal uns y.toNat
  · simp [max_eq_right h.le, h, ofInt_scVal]
  · simp [max_eq_left (not_lt.mp h), h, ofInt_scVal]

theorem scalarAlu_cmpeq : scalarAlu .cmpeq s uns a x.toNat y.toNat ctl = (scalarSpec .cmpeq z uns x y ctl).toNat := by
  refine Eq.trans (congrArg cmp01 ?_) (cmp01_eq_toNat (x == y))
  rw [Bool.eq_iff_iff, decide_eq_true_eq, beq_iff_eq, scVal_eq_iff]
theorem scalarAlu_cmpne : scalarAlu .cmpne s uns a x.toNat y.toNat ctl = (scalarSpec .cmpne z uns x y ctl).toNat := by
  refine Eq.trans (congrArg cmp01 ?_) (cmp01_eq_toNat (x != y))
  rw [Bool.eq_iff_iff, decide_eq_true_eq, bne_iff_ne, Ne, Ne, scVal_eq_iff]
theorem scalarAlu_cmplt : scalarAlu .cmplt s uns a x.toNat y.toNat ctl = (scalarSpec .cmplt z uns x y ctl).toNat :=
  (congrArg cmp01 (less_eq_decide uns x y).symm).trans (cmp01_eq_toNat _)
theorem scalarAlu_cmple : scalarAlu .cmple s uns a x.toNat y.toNat ctl = (scalarSpec .cmple z uns x y ctl).toNat := by
  refine Eq.trans (congrArg cmp01 ?_) (cmp01_eq_toNat (!if uns then y.ult x else y.slt x))
  rw [less_eq_decide, ← decide_not]
  exact decide_eq_decide.mpr not_lt.symm

end

end Sys2Proof.Proofs

namespace Sys2Proof.Proofs
open Sys2Proof Sys2Proof.Machine Sys2Proof.Claims Sys2Proof.Laws

/-! ### Products, quotients and remainders -/

theorem highWord_ofInt (p : Int) : ((BitVec.ofInt 128 p) >>> 64).setWidth 64 = BitVec.ofInt 64 (p / (2 ^ 64 : Nat)) := by
  apply BitVec.eq_of_toNat_eq
  simp only [BitVec.toNat_setWidth, BitVec.toNat_ushiftRight, BitVec.toNat_ofInt, Nat.shiftRight_eq_div_pow]
  omega
theorem sdiv_eq_ofInt (x y : BitVec 64) : x.sdiv y = BitVec.ofInt 64 (Int.tdiv x.toInt y.toInt) :=
  BitVec.eq_of_toInt_eq (by rw [BitVec.toInt_sdiv, BitVec.toInt_ofInt])
theorem udiv_eq_ofInt (x y : BitVec 64) : x.udiv y = BitVec.ofInt 64 (Int.tdiv x.toNat y.toNat) := by
  rw [← Int.ofNat_tdiv, BitVec.ofInt_natCast]
  exact BitVec.eq_of_toNat_eq (by rw [BitVec.toNat_ofNat, BitVec.udiv_eq, ← BitVec.toNat_udiv, Nat.mod_eq_of_lt (BitVec.isLt _)])
theorem srem_eq_ofInt (x y : BitVec 64) : x.srem y = BitVec.ofInt 64 (Int.tmod x.toInt y.toInt) := by
  rw [← BitVec.toInt_srem, BitVec.ofInt_toInt]
theorem umod_eq_ofInt (x y : BitVec 64) : x.umod y = BitVec.ofInt 64 (Int.tmod x.toNat y.toNat) := by
  rw [← Int.ofNat_tmod, BitVec.ofInt_natCast]
  exact BitVec.eq_of_toNat_eq (by rw [BitVec.toNat_ofNat, BitVec.umod_eq, ← BitVec.toNat_umod, Nat.mod_eq_of_lt (BitVec.isLt _)])

section
variable (s z : Nat) (uns : Bool) (x y : BitVec 64) (a c : Nat) (ctl : BitVec 12)

theorem scalarAlu_mul : scalarAlu .mul s uns a x.toNat y.toNat ctl = (scalarSpec .mul z uns x y ctl).toNat :=
  wrapN_word (by rw [BitVec.ofInt_mul, ofInt_scVal, ofInt_scVal]; rfl)
theorem scalarAlu_mulh : scalarAlu .mulh s uns a x.toNat y.toNat ctl = (scalarSpec .mulh z uns x y ctl).toNat := by
  refine wrapN_word ?_
  rw [← highWord_ofInt, BitVec.ofInt_mul]
  cases uns
  · rw [scVal_signed, scVal_signed]
    rfl
  · rw [scVal_unsigned, scVal_unsigned, BitVec.ofInt_natCast, BitVec.ofInt_natCast, BitVec.ofNat_toNat, BitVec.ofNat_toNat]
    rfl
theorem scalarAlu_div : scalarAlu .div s uns a x.toNat y.toNat ctl = (scalarSpec .div z uns x y ctl).toNat := by
  refine wrapN_word ?_
  cases uns
  · rw [scVal_signed, scVal_signed, ← sdiv_eq_ofInt]
    rfl
  · rw [scVal_unsigned, scVal_unsigned, ← udiv_eq_ofInt]
    rfl
theorem scalarAlu_rem : scalarAlu .rem s uns a x.toNat y.toNat ctl = (scalarSpec .rem z uns x y ctl).toNat := by
  refine wrapN_word ?_
  rw [← Int.tmod_def]
  cases uns
  · rw [scVal_signed, scVal_signed, ← srem_eq_ofInt]
    rfl
  · rw [scVal_unsigned, scVal_unsigned, ← umod_eq_ofInt]
    rfl

end

/-! ### Shifts -/

section
variable (s : Nat) (uns : Bool) (x y : BitVec 64) (a c : Nat) (ctl : BitVec 12)

/-- A left shift is right in the bytes of its operation, and only there: the model drops the bits above them at once. -/
theorem scalarAlu_shl (hs : s ≤ 8) : scalarAlu .shl s uns a x.toNat y.toNat ctl % 2 ^ (8 * s) =
    (scalarSpec .shl (8 * s) uns x y ctl).toNat % 2 ^ (8 * s) := by
  change (if 8 * s ≤ y.toNat then 0 else x.toNat * 2 ^ y.toNat % 2 ^ (8 * s)) % 2 ^ (8 * s) =
    (if 8 * s ≤ y.toNat then 0 else x <<< y.toNat).toNat % 2 ^ (8 * s)
  split
  · rfl
  · have hdvd : 2 ^ (8 * s) ∣ 2 ^ 64 := Nat.pow_dvd_pow 2 (by omega)
    rw [BitVec.toNat_shiftLeft, Nat.shiftLeft_eq, Nat.mod_mod, Nat.mod_mod_of_dvd _ hdvd]

theorem ofInt_div_pow (i : Nat) : BitVec.ofInt 64 (x.toInt / (2 ^ i : Nat)) = x.sshiftRight i := by
  rw [BitVec.sshiftRight_eq, Int.shiftRight_eq_div_pow]
theorem sshiftRight_word : x.sshiftRight 64 = if 0 ≤ x.toInt then 0 else -1 := by
  have hlo := BitVec.le_toInt x
  have hhi := BitVec.toInt_lt (x := x)
  rw [← ofInt_div_pow]
  split
  · rw [Int.ediv_eq_zero_of_lt (by omega) (by omega)]
    rfl
  · rw [show x.toInt / (2 ^ 64 : Nat) = -1 by omega]
    rfl
theorem scalarAlu_shr : scalarAlu .shr s uns a x.toNat y.toNat ctl = (scalarSpec .shr (8 * s) uns x y ctl).toNat := by
  change scShr (8 * s) uns x.toNat y.toNat = _
  rw [scShr]
  cases uns
  · change _ = (x.sshiftRight (if 8 * s ≤ y.toNat then 64 else y.toNat)).toNat
    rw [scVal_signed]
    by_cases h : 8 * s ≤ y.toNat
    · rw [if_pos h, if_pos h, sshiftRight_word]
      by_cases hx : 0 ≤ x.toInt <;> simp [hx]
    · rw [if_neg h, if_neg h]
      exact wrapN_word (ofInt_div_pow ..)
  · change _ = (if 8 * s ≤ y.toNat then 0 else x >>> y.toNat).toNat
    by_cases h : 8 * s ≤ y.toNat
    · simp [h]
    · rw [if_neg h, if_neg h, scVal_unsigned]
      refine wrapN_word ?_
      rw [← Int.natCast_ediv, ← Nat.shiftRight_eq_div_pow, ← BitVec.toNat_ushiftRight, BitVec.ofInt_natCast, BitVec.ofNat_toNat,
        BitVec.setWidth_eq]

end

end Sys2Proof.Proofs

namespace Sys2Proof.Proofs
open Sys2Proof Sys2Proof.Machine Sys2Proof.Claims Sys2Proof.Laws

/-! ### Bit counts and bit fields -/

theorem length_takeWhile_range {p : Nat → Bool} {m w : Nat} (hm : m < w) (hall : ∀ i < m, p i = true) (hstop : p m = false) :
    ((List.range w).takeWhile p).length = m := by
  obtain ⟨d, rfl⟩ := Nat.exists_eq_add_of_lt hm
  rw [Nat.add_assoc, List.range_add, List.takeWhile_append_of_pos fun i hi => hall i (List.mem_range.mp hi), List.range_succ_eq_map]
  simp [hstop]
theorem clzN_eq_length (w x : Nat) : clzN w x = ((List.range w).takeWhile fun i => !x.testBit (w - 1 - i)).length := by
  have hbit : ∀ j < w, x.testBit j = (x % 2 ^ w).testBit j := fun j hj => by simp [Nat.testBit_mod_two_pow, hj]
  rw [clzN]
  split
  · next hzero =>
    rw [List.takeWhile_eq_self_iff.mpr, List.length_range]
    intro i hi
    have := List.mem_range.mp hi
    simp [hbit (w - 1 - i) (by omega), hzero]
  · next hne =>
    have hlog : Nat.log2 (x % 2 ^ w) < w := (Nat.log2_lt hne).mpr (Nat.mod_lt _ (Nat.two_pow_pos w))
    refine (length_takeWhile_range (by omega) (fun i hi => ?_) ?_).symm
    · rw [hbit _ (by omega), Nat.testBit_lt_two_pow ((Nat.log2_lt hne).mp (by omega))]
      rfl
    · rw [show w - 1 - (w - 1 - Nat.log2 (x % 2 ^ w)) = Nat.log2 (x % 2 ^ w) by omega, hbit _ hlog, Nat.testBit_log2 hne]
      rfl

theorem popcN_eq_length (w x : Nat) : popcN w x = ((List.range w).filter x.testBit).length := by
  induction w generalizing x with
  | zero => rfl
  | succ w ih =>
    have htail : x.testBit ∘ Nat.succ = (x / 2).testBit := funext fun i => Nat.testBit_succ ..
    rw [popcN, ih, List.range_succ_eq_map, List.filter_cons, Nat.testBit_zero]
    rcases Nat.mod_two_eq_zero_or_one x with h | h <;> simp [h, List.filter_map, htail, Nat.add_comm]

/-- The width of the field that EXTR takes (R112). -/
def fieldWidth (ctl : BitVec 12) : Nat := if ctl >>> 6 = 0 then 64 else (ctl >>> 6).toNat

section
variable (s : Nat) (uns : Bool) (x y : BitVec 64) (a c : Nat) (ctl : BitVec 12)

theorem scalarAlu_clz (hs : s ≤ 8) : scalarAlu .clz s uns a x.toNat c ctl = (scalarSpec .clz (8 * s) uns x y ctl).toNat := by
  change clzN (8 * s) x.toNat = (BitVec.ofNat 64 ((List.range (8 * s)).takeWhile fun i => !x.toNat.testBit (8 * s - 1 - i)).length).toNat
  have hlen := (List.takeWhile_sublist (l := List.range (8 * s)) fun i => !x.toNat.testBit (8 * s - 1 - i)).length_le
  rw [List.length_range] at hlen
  rw [clzN_eq_length, BitVec.toNat_ofNat, Nat.mod_eq_of_lt (by omega)]
theorem scalarAlu_popc (hs : s ≤ 8) : scalarAlu .popc s uns a x.toNat c ctl = (scalarSpec .popc (8 * s) uns x y ctl).toNat := by
  change popcN (8 * s) x.toNat = (BitVec.ofNat 64 ((List.range (8 * s)).filter x.toNat.testBit).length).toNat
  have hlen := List.length_filter_le x.toNat.testBit (List.range (8 * s))
  rw [List.length_range] at hlen
  rw [popcN_eq_length, BitVec.toNat_ofNat, Nat.mod_eq_of_lt (by omega)]

theorem toNat_fieldPos : (ctl &&& 0x3F).toNat = (ctl.setWidth 6).toNat := by
  rw [BitVec.toNat_and, BitVec.toNat_setWidth]
  exact Nat.and_two_pow_sub_one_eq_mod _ 6
theorem fieldWidth_eq : (if (ctl >>> 6).toNat = 0 then 64 else (ctl >>> 6).toNat) = fieldWidth ctl :=
  if_congr (BitVec.toNat_inj (y := 0)) rfl rfl
theorem fieldWidth_pos : 0 < fieldWidth ctl := by
  rw [← fieldWidth_eq]
  split <;> omega
theorem ofNat_field (pos len : Nat) : BitVec.ofNat len (x.toNat / 2 ^ pos % 2 ^ len) = (x >>> pos).setWidth len :=
  BitVec.eq_of_toNat_eq (by simp [Nat.shiftRight_eq_div_pow])
theorem unsigned_field (pos len : Nat) : x.toNat / 2 ^ pos % 2 ^ len = (((x >>> pos).setWidth len).setWidth 64).toNat := by
  have hlt : x.toNat / 2 ^ pos % 2 ^ len < 2 ^ 64 := (Nat.mod_le ..).trans_lt ((Nat.div_le_self ..).trans_lt x.isLt)
  rw [BitVec.toNat_setWidth, ← ofNat_field, BitVec.toNat_ofNat, Nat.mod_mod, Nat.mod_eq_of_lt hlt]
theorem scalarAlu_extr : scalarAlu .extr s uns a x.toNat c ctl = (scalarSpec .extr (8 * s) uns x y ctl).toNat := by
  change (let v := x.toNat / 2 ^ (ctl &&& 0x3F).toNat % 2 ^ (if (ctl >>> 6).toNat = 0 then 64 else (ctl >>> 6).toNat)
      if uns then v else wrapN 64 (sgn (if (ctl >>> 6).toNat = 0 then 64 else (ctl >>> 6).toNat) v)) =
    (if uns then ((x >>> (ctl.setWidth 6).toNat).setWidth (fieldWidth ctl)).setWidth 64
      else ((x >>> (ctl.setWidth 6).toNat).setWidth (fieldWidth ctl)).signExtend 64).toNat
  rw [toNat_fieldPos, fieldWidth_eq]
  cases uns
  · refine wrapN_word ?_
    rw [sgn_eq_toInt (fieldWidth_pos ctl), ofNat_field]
    rfl
  · exact unsigned_field ..

end

/-! ### The result in flight -/

/-- The model's result and the result that the rules give agree in the bytes of the operation. -/
theorem scalarAlu_scalarSpec : ∀ p ∈ scalarOps, ∀ (s : Nat), s ≤ 8 → ∀ (uns : Bool) (x y : BitVec 64) (ctl : BitVec 12),
    scalarAlu p.1 s uns 0 x.toNat (if (roles p.1).2.2 = .src then y.toNat else 0) ctl % 2 ^ (8 * s) =
      (scalarSpec p.1 (8 * s) uns x y ctl).toNat % 2 ^ (8 * s) := by
  simp only [scalarOps, List.forall_mem_cons, List.not_mem_nil, false_imp_iff, implies_true, and_true]
  refine ⟨?mov, ?add, ?sub, ?and, ?or, ?xor, ?shl, ?shr, ?min, ?max, ?cmpeq, ?cmpne, ?cmplt, ?cmple, ?mul, ?mulh, ?div, ?rem, ?clz, ?popc,
    ?extr⟩
  all_goals intro s hs uns x y ctl
  case shl => exact scalarAlu_shl s uns x y 0 ctl hs
  all_goals refine congrArg (· % 2 ^ (8 * s)) ?_
  case mov => exact scalarAlu_mov ..
  case add => exact scalarAlu_add ..
  case sub => exact scalarAlu_sub ..
  case and => exact scalarAlu_and ..
  case or => exact scalarAlu_or ..
  case xor => exact scalarAlu_xor ..
  case shr => exact scalarAlu_shr ..
  case min => exact scalarAlu_min ..
  case max => exact scalarAlu_max ..
  case cmpeq => exact scalarAlu_cmpeq ..
  case cmpne => exact scalarAlu_cmpne ..
  case cmplt => exact scalarAlu_cmplt ..
  case cmple => exact scalarAlu_cmple ..
  case mul => exact scalarAlu_mul ..
  case mulh => exact scalarAlu_mulh ..
  case div => exact scalarAlu_div ..
  case rem => exact scalarAlu_rem ..
  case clz => exact scalarAlu_clz s uns x y 0 _ ctl hs
  case popc => exact scalarAlu_popc s uns x y 0 _ ctl hs
  case extr => exact scalarAlu_extr ..

/-- Settles O8: a scalar operation flies `scalarValue`, and kind by kind that is the rules' result on words. -/
theorem scalarOperationResult : Obligations.ScalarOperationResult := by
  intro p hp n w s h
  obtain ⟨t, ht, hflies⟩ := exec_scalar hp h
  refine ⟨t, _, ht, hflies, ?_⟩
  have hword : ∀ i, (BitVec.ofNat 64 (operand n (op p.1 w) s i)).toNat = operand n (op p.1 w) s i :=
    fun i => Nat.mod_eq_of_lt (operand_lt hp ..)
  have hspec := scalarAlu_scalarSpec p hp _ (szBytes_le w.tz.toNat) (decide (4 ≤ w.tz.toNat)) (BitVec.ofNat 64 (operand n (op p.1 w) s 1))
    (BitVec.ofNat 64 (operand n (op p.1 w) s 2)) (spImm w.c)
  rwa [hword, hword] at hspec

end Sys2Proof.Proofs

namespace Sys2Proof.Proofs
open Sys2Proof Sys2Proof.Machine Sys2Proof.Claims Sys2Proof.Laws

/-! ### What the checks of a bundle of one operation say of it -/

section
variable {n : Fin 128} {o : Op} {s : State}

theorem bundleLits_single (hk : o.kind ≠ .lit) : bundleLits [o] = [] := by simp [bundleLits, hk]

/-- An operation that issues alone keeps to its encoding. -/
theorem opEncOk_single (h : IssuesAlone n o s) (hk : o.kind ≠ .lit) : opEncOk o [] = true := by
  have hpass := h.passes
  unfold bundleCause at hpass
  dsimp only at hpass
  split at hpass
  · cases hpass
  · next hok =>
    simp only [Bool.or_eq_true, Bool.not_eq_true', not_or, Bool.not_eq_false, bundleEncOk, bundleLits_single hk, Bool.and_eq_true,
      List.all_cons, List.all_nil, Bool.and_true] at hok
    obtain ⟨⟨⟨-, henc⟩, -⟩, -⟩ := hok
    exact henc

theorem opEncOk_of_issuesAlone (h : IssuesAlone n o s) (hk : o.kind ≠ .lit) :
    tzAllowed o.kind o.w.tz.toNat = true ∧ (o.kind ≠ .ret → specOk (roles o.kind).1 o.w.a (operandDT o.kind o.w 0) [] = true) ∧
      specOk (roles o.kind).2.1 o.w.b (operandDT o.kind o.w 1) [] = true := by
  have henc := opEncOk_single h hk
  unfold opEncOk at henc
  dsimp only at henc
  rw [if_neg hk] at henc
  simp only [Bool.and_eq_true, Bool.or_eq_true, decide_eq_true_eq] at henc
  obtain ⟨⟨⟨⟨⟨⟨htz, ha⟩, hb⟩, -⟩, -⟩, -⟩, -⟩ := henc
  exact ⟨htz, fun hret => ha.resolve_left hret, hb⟩

end

/-! ### Addresses -/

/-- A scalar operand in memory is one access. -/
theorem segments_scalar {f : Facet} {x : BitVec 16} {z : Nat} {fp uns : Bool} (hx : memSpecOk x = true) :
    ∃ e, segments f x (.sc z fp uns) = [(e, z)] := by
  have hmode : spMode x ∈ [0, 2, 3, 4, 5, 6] := by
    unfold memSpecOk at hx
    split at hx <;> simp_all
  simp only [List.mem_cons, List.not_mem_nil, or_false] at hmode
  rcases hmode with h | h | h | h | h | h <;> exact ⟨_, by simp only [segments, h]; rfl⟩
theorem segments_lea {f : Facet} {x : BitVec 16} {z : Nat} {d : DT} {fp uns : Bool} (hx : specOk .leaSrc x d [] = true) :
    ∃ e, segments f x (.sc z fp uns) = [(e, z)] :=
  segments_scalar (by
    simp only [specOk, Bool.or_eq_true, beq_iff_eq] at hx
    rcases hx with h | h <;> simp [memSpecOk, h])

/-! ### Classes of operations -/

theorem mem_facetOps_of_class {l : Ops} (hl : l ∈ [floatOps, laneOps, transferOps, longOps, remoteOps, capOps, controlOps, otherOps])
    {p : OpKind × (Fin 128 → OpW → Instr)} (hp : p ∈ l) : p ∈ facetOps := by
  simp only [List.mem_cons, List.not_mem_nil, or_false] at hl
  simp only [facetOps, List.mem_append]
  rcases hl with rfl | rfl | rfl | rfl | rfl | rfl | rfl | rfl <;> simp only [hp, true_or, or_true]

theorem facetOps_kind_ne_lit : ∀ p ∈ facetOps, p.1 ≠ .lit := by decide +kernel

end Sys2Proof.Proofs

namespace Sys2Proof.Proofs
open Sys2Proof Sys2Proof.Machine Sys2Proof.Claims Sys2Proof.Laws

/-! ### Division, square root and the special functions -/

/-- The free value that R113 admits lies within 2.5 units in the last place of the reference; otherwise the reference is the result. -/
theorem within2_near {v : BitVec 32} {r : Nat} {a b : Int} (ha : v149 (within2 v r) = some a) (hb : v149 r = some b) :
    2 * (a - b).natAbs ≤ 5 * ulp149 r := by
  have hself : v149 r = some a → 2 * (a - b).natAbs ≤ 5 * ulp149 r := by
    intro h
    obtain rfl : a = b := Option.some.inj (h.symm.trans hb)
    simp
  unfold within2 at ha
  split at ha
  · next x y hx hy =>
    split at ha
    · next hnear =>
      obtain rfl : x = a := Option.some.inj (hx.symm.trans ha)
      obtain rfl : y = b := Option.some.inj (hy.symm.trans hb)
      exact hnear
    · exact hself ha
  · exact hself ha

theorem fRcp_cases (x : Nat) : fRcp x = fDiv fmt32 0x3F800000 x ∨ ∃ v, fRcp x = within2 v (fDiv fmt32 0x3F800000 x) := by
  unfold fRcp
  split
  · split
    · exact .inl rfl
    · exact .inr ⟨_, rfl⟩
  · exact .inl rfl
theorem fRcp_near {x : Nat} {a r : Int} (ha : v149 (fRcp x) = some a) (hr : v149 (fDiv fmt32 0x3F800000 x) = some r) :
    2 * (a - r).natAbs ≤ 5 * ulp149 (fDiv fmt32 0x3F800000 x) := by
  rcases fRcp_cases x with h | ⟨v, h⟩ <;> rw [h] at ha
  · obtain rfl : a = r := Option.some.inj (ha.symm.trans hr)
    simp
  · exact within2_near ha hr

theorem fDiv_one_nan {x : Nat} (h : unpack fmt32 x = .nan) : fDiv fmt32 0x3F800000 x = fmt32.defNaN := by
  unfold fDiv
  rw [h]
  split <;> simp_all
theorem special_of_nan {x : Nat} (h : unpack fmt32 x = .nan) : fRcp x = fmt32.defNaN ∧ fRsqrt x = fmt32.defNaN ∧ fExp2 x = fmt32.defNaN ∧
    fLog2 x = fmt32.defNaN ∧ fSin x = fmt32.defNaN ∧ fCos x = fmt32.defNaN := by
  refine ⟨?_, ?_, ?_, ?_, ?_, ?_⟩
  · rw [fRcp, h]
    exact fDiv_one_nan h
  · rw [fRsqrt, h]
  · rw [fExp2, h]
  · rw [fLog2, h]
  · rw [fSin, fTurn, h]
  · rw [fCos, fTurn, h]
theorem special_of_negative {x m : Nat} {e : Int} (h : unpack fmt32 x = .fin true m e) (hm : m ≠ 0) :
    fRsqrt x = fmt32.defNaN ∧ fLog2 x = fmt32.defNaN := by
  constructor
  · rw [fRsqrt, h]
    exact (if_neg hm).trans (if_pos rfl)
  · rw [fLog2, h]
    exact (if_neg hm).trans (if_pos rfl)
theorem special_of_infinity {x : Nat} {g : Bool} (h : unpack fmt32 x = .inf g) : fSin x = fmt32.defNaN ∧ fCos x = fmt32.defNaN := by
  constructor
  · rw [fSin, fTurn, h]
  · rw [fCos, fTurn, h]

theorem floatOps_kind : ∀ p ∈ floatOps, opClass p.1 = 3 ∧ isRemote p.1 = false ∧ p.1 ≠ .retx := by decide
/-- A special function's result is the value that its kind names; only FDIV looks at its third operand. -/
theorem scalarLands_float : ∀ p ∈ floatOps, ∀ (s : State) (f : Facet) (w : OpW), scalarLands s f [] (op p.1 w) =
    destLands f w.a (operandDT p.1 w 0) (floatSpec p.1 (rawOperand s f [] (op p.1 w) 1) (rawOperand s f [] (op p.1 w) 2)) := by
  simp only [floatOps, List.forall_mem_cons, List.not_mem_nil, false_imp_iff, implies_true, and_true]
  and_intros <;> exact fun _ _ _ => rfl
theorem exec_float {p : OpKind × (Fin 128 → OpW → Instr)} (hp : p ∈ floatOps) {n : Fin 128} {w : OpW} {s : State}
    (h : IssuesAlone n (op p.1 w) s) : ∃ t, exec (p.2 n w) s = .next t ∧ Flies n (op p.1 w) s (latency p.1)
      (destLands (seen n s) w.a (operandDT p.1 w 0) (floatSpec p.1 (operand n (op p.1 w) s 1) (operand n (op p.1 w) s 2))) t := by
  obtain ⟨hclass, hrem, hret⟩ := floatOps_kind p hp
  have hact := acted_scalarLands h (by rw [op_kind]; exact .inr hclass) (by rwa [op_kind])
  rw [op_kind, scalarLands_float p hp] at hact
  exact exec_flies (mem_facetOps_of_class (l := floatOps) (by simp) hp) hret h hact

/-- Settles O9: R113's free values pass through `within2`, and every case without a number is a branch of its function. -/
theorem floatFunctionResult : Obligations.FloatFunctionResult :=
  ⟨fun _ _ _ => fRcp_near, fun _ => special_of_nan, fun _ _ _ => special_of_negative, fun _ _ => special_of_infinity,
    fun _ hp _ _ _ => exec_float hp⟩

end Sys2Proof.Proofs

namespace Sys2Proof.Proofs
open Sys2Proof Sys2Proof.Machine Sys2Proof.Claims Sys2Proof.Laws

/-! ### Lanes as words -/

section
variable {w : Nat}

theorem ofNat_mod_two_pow (w x : Nat) : BitVec.ofNat w (x % 2 ^ w) = BitVec.ofNat w x := by
  rw [← BitVec.toNat_ofNat, BitVec.ofNat_toNat, BitVec.setWidth_eq]
theorem toNat_ofNat_lane (w x j : Nat) : (BitVec.ofNat w (lane w x j)).toNat = lane w x j :=
  Nat.mod_eq_of_lt (Nat.mod_lt _ (Nat.two_pow_pos w))
theorem sgn_toNat (hw : 0 < w) (x : BitVec w) : sgn w x.toNat = x.toInt := by
  rw [sgn_eq_toInt hw, BitVec.ofNat_toNat, BitVec.setWidth_eq]
theorem ofInt_natCast_toNat (x : BitVec w) : BitVec.ofInt w (x.toNat : Int) = x := by
  rw [BitVec.ofInt_natCast, BitVec.ofNat_toNat, BitVec.setWidth_eq]

/-- The nearest number of `w` signed bits (R98). -/
def clampS (w : Nat) (x : Int) : BitVec w := BitVec.ofInt w (max (-2 ^ (w - 1)) (min (2 ^ (w - 1) - 1) x))
theorem ofNat_satS (w : Nat) (x : Int) : BitVec.ofNat w (satS w x) = clampS w x := by
  have hpos : (0 : Int) < 2 ^ (w - 1) := by positivity
  rw [satS, ofNat_wrapN, clampS]
  generalize (2 : Int) ^ (w - 1) = m at hpos
  refine congrArg _ ?_
  split
  · omega
  · split <;> omega
theorem ofNat_cmp01 (w : Nat) (b : Bool) : BitVec.ofNat w (cmp01 b) = if b then 1 else 0 := by cases b <;> rfl

end

/-! ### Vector ALU operations by kind -/

section
variable {w : Nat} (t : Nat) (a b c : BitVec w)

theorem laneAlu_vmov : BitVec.ofNat w (laneAlu .vmov t w a.toNat b.toNat c.toNat) = laneSpec .vmov t w a b c := by
  rw [laneAlu, BitVec.ofNat_toNat, BitVec.setWidth_eq]
  rfl

/-- An operation with a floating-point form and a form on words. -/
theorem ofNat_fp_or {t : Nat} {x y : Nat} {v : BitVec w} (h : isFp t = false → BitVec.ofNat w y = v) :
    BitVec.ofNat w (if isFp t then x else y) = if isFp t then BitVec.ofNat w x else v := by
  cases hfp : isFp t
  · exact h hfp
  · rfl

theorem laneAlu_vadd : BitVec.ofNat w (laneAlu .vadd t w a.toNat b.toNat c.toNat) = laneSpec .vadd t w a b c :=
  ofNat_fp_or fun _ => by rw [ofNat_wrapN, BitVec.ofInt_add, ofInt_natCast_toNat, ofInt_natCast_toNat]
theorem laneAlu_vsub : BitVec.ofNat w (laneAlu .vsub t w a.toNat b.toNat c.toNat) = laneSpec .vsub t w a b c :=
  ofNat_fp_or fun _ => by rw [ofNat_wrapN, ofInt_sub, ofInt_natCast_toNat, ofInt_natCast_toNat]
theorem laneAlu_vfma : BitVec.ofNat w (laneAlu .vfma t w a.toNat b.toNat c.toNat) = laneSpec .vfma t w a b c := rfl

theorem laneAlu_vand : BitVec.ofNat w (laneAlu .vand t w a.toNat b.toNat c.toNat) = laneSpec .vand t w a b c := by
  change BitVec.ofNat w (b.toNat &&& c.toNat) = b &&& c
  rw [← BitVec.toNat_and, BitVec.ofNat_toNat, BitVec.setWidth_eq]
theorem laneAlu_vor : BitVec.ofNat w (laneAlu .vor t w a.toNat b.toNat c.toNat) = laneSpec .vor t w a b c := by
  change BitVec.ofNat w (b.toNat ||| c.toNat) = b ||| c
  rw [← BitVec.toNat_or, BitVec.ofNat_toNat, BitVec.setWidth_eq]
theorem laneAlu_vxor : BitVec.ofNat w (laneAlu .vxor t w a.toNat b.toNat c.toNat) = laneSpec .vxor t w a b c := by
  change BitVec.ofNat w (b.toNat ^^^ c.toNat) = b ^^^ c
  rw [← BitVec.toNat_xor, BitVec.ofNat_toNat, BitVec.setWidth_eq]
theorem laneAlu_vandn : BitVec.ofNat w (laneAlu .vandn t w a.toNat b.toNat c.toNat) = laneSpec .vandn t w a b c := by
  change BitVec.ofNat w (b.toNat &&& (2 ^ w - 1 - c.toNat)) = b &&& ~~~c
  rw [← BitVec.toNat_not, ← BitVec.toNat_and, BitVec.ofNat_toNat, BitVec.setWidth_eq]

theorem laneAlu_vminu : BitVec.ofNat w (laneAlu .vminu t w a.toNat b.toNat c.toNat) = laneSpec .vminu t w a b c := by
  change BitVec.ofNat w (min b.toNat c.toNat) = if decide (b.toNat < c.toNat) then b else c
  by_cases h : b.toNat < c.toNat
  · simp [min_eq_left h.le, h]
  · simp [min_eq_right (not_lt.mp h), h]
theorem laneAlu_vmaxu : BitVec.ofNat w (laneAlu .vmaxu t w a.toNat b.toNat c.toNat) = laneSpec .vmaxu t w a b c := by
  change BitVec.ofNat w (max b.toNat c.toNat) = if decide (b.toNat < c.toNat) then c else b
  by_cases h : b.toNat < c.toNat
  · simp [max_eq_right h.le, h]
  · simp [max_eq_left (not_lt.mp h), h]

theorem laneAlu_vshl : BitVec.ofNat w (laneAlu .vshl t w a.toNat b.toNat c.toNat) = laneSpec .vshl t w a b c := by
  change BitVec.ofNat w (shlN w b.toNat c.toNat) = b <<< min c.toNat w
  rw [shlN]
  split
  · next h =>
    rw [min_eq_right h]
    exact (BitVec.shiftLeft_eq_zero le_rfl).symm
  · next h =>
    refine BitVec.eq_of_toNat_eq ?_
    rw [min_eq_left (not_le.mp h).le, ofNat_mod_two_pow, BitVec.toNat_ofNat, BitVec.toNat_shiftLeft, Nat.shiftLeft_eq]
theorem laneAlu_vshru : BitVec.ofNat w (laneAlu .vshru t w a.toNat b.toNat c.toNat) = laneSpec .vshru t w a b c := by
  change BitVec.ofNat w (shrN w b.toNat c.toNat) = b >>> c.toNat
  rw [shrN]
  split
  · next h => exact (BitVec.ushiftRight_eq_zero h).symm
  · rw [Nat.mod_eq_of_lt b.isLt, ← Nat.shiftRight_eq_div_pow, ← BitVec.toNat_ushiftRight, BitVec.ofNat_toNat, BitVec.setWidth_eq]

theorem laneAlu_vsel : BitVec.ofNat w (laneAlu .vsel t w a.toNat b.toNat c.toNat) = laneSpec .vsel t w a b c := by
  change BitVec.ofNat w (if a.toNat ≠ 0 then b.toNat else c.toNat) = if (a != 0) = true then b else c
  rw [apply_ite (BitVec.ofNat w), BitVec.ofNat_toNat, BitVec.ofNat_toNat, BitVec.setWidth_eq, BitVec.setWidth_eq]
  exact if_congr (by simp [← BitVec.toNat_inj]) rfl rfl

theorem laneAlu_vcmpeq : BitVec.ofNat w (laneAlu .vcmpeq t w a.toNat b.toNat c.toNat) = laneSpec .vcmpeq t w a b c := by
  refine (ofNat_cmp01 ..).trans (congrArg (fun p : Bool => if p then (1 : BitVec w) else 0) ?_)
  rw [show decide (b.toNat = c.toNat) = (b == c) by rw [Bool.eq_iff_iff, decide_eq_true_eq, beq_iff_eq, BitVec.toNat_inj]]
theorem laneAlu_vcmpltu : BitVec.ofNat w (laneAlu .vcmpltu t w a.toNat b.toNat c.toNat) = laneSpec .vcmpltu t w a b c := ofNat_cmp01 ..

section
variable (hw : 0 < w)
include hw

theorem laneAlu_vadds : BitVec.ofNat w (laneAlu .vadds t w a.toNat b.toNat c.toNat) = laneSpec .vadds t w a b c := by
  rw [laneAlu, ofNat_satS, sgn_toNat hw, sgn_toNat hw]
  rfl
theorem laneAlu_vsubs : BitVec.ofNat w (laneAlu .vsubs t w a.toNat b.toNat c.toNat) = laneSpec .vsubs t w a b c := by
  rw [laneAlu, ofNat_satS, sgn_toNat hw, sgn_toNat hw]
  rfl
theorem laneAlu_vmulAlu : BitVec.ofNat w (laneAlu .vmulAlu t w a.toNat b.toNat c.toNat) = laneSpec .vmulAlu t w a b c := by
  refine ofNat_fp_or fun _ => ?_
  rw [sgn_toNat hw, sgn_toNat hw, apply_ite (BitVec.ofNat w), ofNat_satS, ofNat_wrapN, BitVec.ofInt_mul, BitVec.ofInt_toInt,
    BitVec.ofInt_toInt]
  rfl
theorem laneAlu_vabs : BitVec.ofNat w (laneAlu .vabs t w a.toNat b.toNat c.toNat) = laneSpec .vabs t w a b c :=
  ofNat_fp_or fun _ => by rw [ofNat_satS, sgn_toNat hw]; rfl
theorem laneAlu_vneg : BitVec.ofNat w (laneAlu .vneg t w a.toNat b.toNat c.toNat) = laneSpec .vneg t w a b c :=
  ofNat_fp_or fun _ => by rw [ofNat_satS, sgn_toNat hw]; rfl

theorem laneAlu_vmin : BitVec.ofNat w (laneAlu .vmin t w a.toNat b.toNat c.toNat) = laneSpec .vmin t w a b c := by
  refine ofNat_fp_or fun _ => ?_
  rw [ofNat_wrapN, sgn_toNat hw, sgn_toNat hw, BitVec.slt_eq_decide]
  by_cases h : b.toInt < c.toInt
  · simp [min_eq_left h.le, h]
  · simp [min_eq_right (not_lt.mp h), h]
theorem laneAlu_vmax : BitVec.ofNat w (laneAlu .vmax t w a.toNat b.toNat c.toNat) = laneSpec .vmax t w a b c := by
  refine ofNat_fp_or fun _ => ?_
  rw [ofNat_wrapN, sgn_toNat hw, sgn_toNat hw, BitVec.slt_eq_decide]
  by_cases h : b.toInt < c.toInt
  · simp [max_eq_right h.le, h]
  · simp [max_eq_left (not_lt.mp h), h]

theorem laneAlu_vcmplt : BitVec.ofNat w (laneAlu .vcmplt t w a.toNat b.toNat c.toNat) = laneSpec .vcmplt t w a b c := by
  refine (ofNat_cmp01 ..).trans (congrArg (fun p : Bool => if p then (1 : BitVec w) else 0) ?_)
  rw [sgn_toNat hw, sgn_toNat hw, BitVec.slt_eq_decide]
theorem laneAlu_vcmple : BitVec.ofNat w (laneAlu .vcmple t w a.toNat b.toNat c.toNat) = laneSpec .vcmple t w a b c := by
  refine (ofNat_cmp01 ..).trans (congrArg (fun p : Bool => if p then (1 : BitVec w) else 0) ?_)
  rw [sgn_toNat hw, sgn_toNat hw, BitVec.slt_eq_decide, ← decide_not, decide_eq_decide.mpr not_lt]

/-- A shift by the lane's width or more leaves the sign, as one by a bit less does. -/
theorem sshiftRight_min (n : Nat) : b.sshiftRight (min n (w - 1)) = b.sshiftRight n := by
  rcases Nat.lt_or_ge n w with h | h
  · rw [min_eq_left (by omega)]
  · rw [min_eq_right (by omega)]
    refine BitVec.eq_of_getLsbD_eq fun i hi => ?_
    rw [BitVec.getLsbD_sshiftRight, BitVec.getLsbD_sshiftRight, if_neg (show ¬ n + i < w by omega)]
    refine congrArg _ (ite_eq_right_iff.mpr fun hlt => ?_)
    rw [show w - 1 + i = w - 1 by omega, BitVec.msb_eq_getLsbD_last]
theorem laneAlu_vshr : BitVec.ofNat w (laneAlu .vshr t w a.toNat b.toNat c.toNat) = laneSpec .vshr t w a b c := by
  change BitVec.ofNat w (sarN w b.toNat c.toNat) = b.sshiftRight c.toNat
  rw [sarN, ofNat_wrapN, sgn_toNat hw, ← Int.shiftRight_eq_div_pow, ← BitVec.sshiftRight_eq, sshiftRight_min b hw]

end
end

/-- The model's lane and the lane that the rules give are the same word. -/
theorem laneAlu_laneSpec : ∀ p ∈ laneOps, ∀ (t w : Nat), 0 < w → ∀ a b c : BitVec w,
    BitVec.ofNat w (laneAlu p.1 t w a.toNat b.toNat c.toNat) = laneSpec p.1 t w a b c := by
  simp only [laneOps, List.forall_mem_cons, List.not_mem_nil, false_imp_iff, implies_true, and_true]
  refine ⟨?vmov, ?vadd, ?vsub, ?vadds, ?vsubs, ?vmulAlu, ?vfma, ?vmin, ?vmax, ?vminu, ?vmaxu, ?vabs, ?vneg, ?vand, ?vor, ?vxor, ?vandn,
    ?vshl, ?vshr, ?vshru, ?vcmpeq, ?vcmplt, ?vcmple, ?vcmpltu, ?vsel⟩
  all_goals intro t w hw a b c
  case vmov => exact laneAlu_vmov ..
  case vadd => exact laneAlu_vadd ..
  case vsub => exact laneAlu_vsub ..
  case vadds => exact laneAlu_vadds t a b c hw
  case vsubs => exact laneAlu_vsubs t a b c hw
  case vmulAlu => exact laneAlu_vmulAlu t a b c hw
  case vfma => exact laneAlu_vfma ..
  case vmin => exact laneAlu_vmin t a b c hw
  case vmax => exact laneAlu_vmax t a b c hw
  case vminu => exact laneAlu_vminu ..
  case vmaxu => exact laneAlu_vmaxu ..
  case vabs => exact laneAlu_vabs t a b c hw
  case vneg => exact laneAlu_vneg t a b c hw
  case vand => exact laneAlu_vand ..
  case vor => exact laneAlu_vor ..
  case vxor => exact laneAlu_vxor ..
  case vandn => exact laneAlu_vandn ..
  case vshl => exact laneAlu_vshl ..
  case vshr => exact laneAlu_vshr t a b c hw
  case vshru => exact laneAlu_vshru ..
  case vcmpeq => exact laneAlu_vcmpeq ..
  case vcmplt => exact laneAlu_vcmplt t a b c hw
  case vcmple => exact laneAlu_vcmple t a b c hw
  case vcmpltu => exact laneAlu_vcmpltu ..
  case vsel => exact laneAlu_vsel ..

/-! ### Vector ALU operations at issue -/

/-- An operation of the vector class that is not long puts its lands in flight. -/
theorem acted_vectorAluLands {n : Fin 128} {o : Op} {s : State} (h : IssuesAlone n o s) (hc : opClass o.kind = 1) (hl : isLong o.kind = false) :
    acted n o s = flyAll n 2 (vectorLands (landDue n s) (seen n s) [] o) (flyAll n 1 (opUpdates (seen n s) o) (acting n o s)) := by
  have hlat : latency o.kind = 2 := by simp [latency, hc]
  rw [acted, doOp, if_neg (by simp [seen, h.unguarded]), if_neg (not_wait_of_opClass (by omega))]
  simp only [hc, hl, hlat]
  rfl
theorem exec_vector {p : OpKind × (Fin 128 → OpW → Instr)} (hp : p ∈ facetOps) (hc : opClass p.1 = 1) (hl : isLong p.1 = false) {n : Fin 128}
    {w : OpW} {s : State} {ls : List Land} (h : IssuesAlone n (op p.1 w) s)
    (hlands : vectorLands (landDue n s) (seen n s) [] (op p.1 w) = ls) : ∃ t, exec (p.2 n w) s = .next t ∧ Flies n (op p.1 w) s 2 ls t := by
  have hact := acted_vectorAluLands h (by rwa [op_kind]) (by rwa [op_kind])
  rw [hlands] at hact
  exact exec_flies hp (by rintro hk; rw [hk] at hc; cases hc) h hact

/-- The vector that a vector ALU operation forms of its operands. -/
def laneVector (k : OpKind) (t a b c : Nat) : Nat :=
  fromLanes (8 * laneBytes t) (256 / (8 * laneBytes t)) fun j =>
    laneAlu k t (8 * laneBytes t) (lane (8 * laneBytes t) a j) (lane (8 * laneBytes t) b j) (lane (8 * laneBytes t) c j)
theorem laneOps_kind : ∀ p ∈ laneOps, opClass p.1 = 1 ∧ isLong p.1 = false := by decide
theorem vectorLands_lane : ∀ p ∈ laneOps, ∀ (s : State) (f : Facet) (w : OpW), vectorLands s f [] (op p.1 w) =
    destLands f w.a (.vec w.tz.toNat) (laneVector p.1 w.tz.toNat (rawOperand s f [] (op p.1 w) 0) (rawOperand s f [] (op p.1 w) 1)
      (rawOperand s f [] (op p.1 w) 2)) := by
  simp only [laneOps, List.forall_mem_cons, List.not_mem_nil, false_imp_iff, implies_true, and_true]
  and_intros <;> exact fun _ _ _ => rfl

theorem laneBytes_pos (t : Nat) : 0 < laneBytes t := by
  rw [laneBytes]
  split
  · decide
  · split <;> decide
theorem lane_laneVector {p : OpKind × (Fin 128 → OpW → Instr)} (hp : p ∈ laneOps) (t a b c : Nat) {z j : Nat} (hz : 8 * laneBytes t = z)
    (hj : j < 256 / z) : BitVec.ofNat z (lane z (laneVector p.1 t a b c) j) =
      laneSpec p.1 t z (BitVec.ofNat z (lane z a j)) (BitVec.ofNat z (lane z b j)) (BitVec.ofNat z (lane z c j)) := by
  have hpos := laneBytes_pos t
  have hspec := laneAlu_laneSpec p hp t z (by omega) (BitVec.ofNat z (lane z a j)) (BitVec.ofNat z (lane z b j)) (BitVec.ofNat z (lane z c j))
  rw [toNat_ofNat_lane, toNat_ofNat_lane, toNat_ofNat_lane] at hspec
  rw [laneVector, hz, lane_fromLanes _ _ _ _ hj, ofNat_mod_two_pow, hspec]

/-- Settles O10: kind by kind the lane of numbers is the rules' lane of words, and a vector is read back lane by lane. -/
theorem vectorLaneResult : Obligations.VectorLaneResult := by
  intro p hp n w s h
  obtain ⟨hclass, hlong⟩ := laneOps_kind p hp
  obtain ⟨t, ht, hflies⟩ := exec_vector (mem_facetOps_of_class (l := laneOps) (by simp) hp) hclass hlong h (vectorLands_lane p hp ..)
  exact ⟨t, _, ht, hflies, fun j hj => lane_laneVector hp _ _ _ _ rfl hj⟩

end Sys2Proof.Proofs

namespace Sys2Proof.Proofs
open Sys2Proof Sys2Proof.Machine Sys2Proof.Claims Sys2Proof.Laws

/-! ### LEA, MOVW, TAS, CRC and INS -/

section
variable {n : Fin 128} {w : OpW} {s : State}

theorem exec_scalarLands {p : OpKind × (Fin 128 → OpW → Instr)} (hp : p ∈ facetOps) (hc : opClass p.1 = 2 ∨ opClass p.1 = 3)
    (hr : isRemote p.1 = false) {ls : List Land} (h : IssuesAlone n (op p.1 w) s)
    (hlands : scalarLands (landDue n s) (seen n s) [] (op p.1 w) = ls) :
    ∃ t, exec (p.2 n w) s = .next t ∧ Flies n (op p.1 w) s (latency p.1) ls t := by
  have hact := acted_scalarLands h (by rwa [op_kind]) (by rwa [op_kind])
  rw [op_kind, hlands] at hact
  exact exec_flies hp (by rintro hk; rw [hk] at hc; rcases hc with hc | hc <;> cases hc) h hact

theorem exec_lea (h : IssuesAlone n (op .lea w) s) : ∃ t e, exec (.lea n w) s = .next t ∧
    (segments (seen n s) w.b (.sc 8 false true)).head? = some (e, 8) ∧ Flies n (op .lea w) s 1
      [if spFile w.a = 0 then gLand (seen n s) w.a (BitVec.ofNat 64 e) else .a (aKey (seen n s) (spReg w.a)) (BitVec.ofNat 48 e)] t := by
  obtain ⟨-, -, hb⟩ := opEncOk_of_issuesAlone h (by simp [op_kind])
  obtain ⟨e, he⟩ := segments_lea (f := seen n s) (z := 8) (fp := false) (uns := true) hb
  have hlands : scalarLands (landDue n s) (seen n s) [] (op .lea w) =
      [if spFile w.a = 0 then gLand (seen n s) w.a (BitVec.ofNat 64 e) else .a (aKey (seen n s) (spReg w.a)) (BitVec.ofNat 48 e)] := by
    change (match segments (seen n s) w.b (.sc 8 false true) with
      | p :: _ => if spFile w.a = 0 then [gLand (seen n s) w.a (BitVec.ofNat 64 p.1)]
        else [Land.a (aKey (seen n s) (spReg w.a)) (BitVec.ofNat 48 p.1)]
      | [] => []) = _
    rw [show segments (seen n s) w.b (.sc 8 false true) = [(e, 8)] from he]
    exact (apply_ite (fun l => [l]) _ _ _).symm
  obtain ⟨t, ht, hflies⟩ := exec_scalarLands (p := (.lea, .lea)) (mem_facetOps_of_class (l := otherOps) (by simp) (by simp [otherOps]))
    (.inl rfl) rfl h hlands
  exact ⟨t, e, ht, by rw [show segments (seen n s) w.b (.sc 8 false true) = [(e, 8)] from he]; rfl, hflies⟩

theorem exec_movw (h : IssuesAlone n (op .movw w) s) : ∃ t, exec (.movw n w) s = .next t ∧
    Flies n (op .movw w) s 1 [.w (spImm w.c).toNat (gRead (seen n s) (spReg w.b) &&& 0xFFFDFFFFFFFFFFF0)] t := by
  refine exec_scalarLands (p := (.movw, .movw)) (mem_facetOps_of_class (l := otherOps) (by simp) (by simp [otherOps])) (.inl rfl) rfl h ?_
  change [Land.w (spImm w.c).toNat (BitVec.ofNat 64 (gRead (seen n s) (spReg w.b)).toNat &&& winMask)] = _
  rw [BitVec.ofNat_toNat, BitVec.setWidth_eq]
  rfl

theorem exec_tas (h : IssuesAlone n (op .tas w) s) : ∃ t e, exec (.tas n w) s = .next t ∧
    (segments (seen n s) w.b (.sc 1 false true)).head? = some (e, 1) ∧
    Flies n (op .tas w) s 1 [.tas e (if spReg w.a = 0 then 0 else gKey (seen n s) (spReg w.a))] t := by
  obtain ⟨-, -, hb⟩ := opEncOk_of_issuesAlone h (by simp [op_kind])
  obtain ⟨e, he⟩ := segments_scalar (f := seen n s) (x := w.b) (z := 1) (fp := false) (uns := true) hb
  have hlands : scalarLands (landDue n s) (seen n s) [] (op .tas w) =
      [.tas e (if spReg w.a = 0 then 0 else gKey (seen n s) (spReg w.a))] := by
    change (match segments (seen n s) w.b (.sc 1 false true) with
      | p :: _ => [Land.tas p.1 (if spReg w.a = 0 then 0 else gKey (seen n s) (spReg w.a))]
      | [] => []) = _
    rw [he]
  obtain ⟨t, ht, hflies⟩ := exec_scalarLands (p := (.tas, .tas)) (mem_facetOps_of_class (l := otherOps) (by simp) (by simp [otherOps]))
    (.inl rfl) rfl h hlands
  exact ⟨t, e, ht, by rw [he]; rfl, hflies⟩

theorem exec_crc (h : IssuesAlone n (op .crc w) s) : ∃ t, exec (.crc n w) s = .next t ∧
    Flies n (op .crc w) s 6 [gLand (seen n s) w.a (BitVec.ofNat 64 (crcAdvance (spImm w.c &&& 7).toNat (gRead (seen n s) (spReg w.a)).toNat
      (natBytes (szBytes w.tz.toNat) (operand n (op .crc w) s 1))))] t :=
  exec_scalarLands (p := (.crc, .crc)) (mem_facetOps_of_class (l := otherOps) (by simp) (by simp [otherOps])) (.inr rfl) rfl h rfl

/-- The bits of a value into which INS has inserted a field (R115). -/
theorem testBit_insert {a : Nat} (ha : a < 2 ^ 64) (b pos len : Nat) {i : Nat} (hi : i < 64) :
    (a - a / 2 ^ pos % 2 ^ len * 2 ^ pos + b % 2 ^ len * 2 ^ pos).testBit i =
      if pos ≤ i ∧ i < pos + len then b.testBit (i - pos) else a.testBit i := by
  have hset := getLsbD_setFld (BitVec.ofNat 64 a) pos len b i
  rw [setFld, BitVec.getLsbD_ofNat, BitVec.getLsbD_ofNat, BitVec.toNat_ofNat, Nat.mod_eq_of_lt ha] at hset
  simpa only [hi, decide_true, Bool.true_and] using hset

/-- The value that INS forms of its destination's old value and its source. -/
def insValue (ctl : BitVec 12) (a b : Nat) : Nat := scalarAlu .ins 8 false a b 0 ctl
theorem testBit_insValue (ctl : BitVec 12) {a : Nat} (ha : a < 2 ^ 64) (b : Nat) {i : Nat} (hi : i < 64) : (insValue ctl a b).testBit i =
    if (ctl.setWidth 6).toNat ≤ i ∧ i < (ctl.setWidth 6).toNat + fieldWidth ctl then b.testBit (i - (ctl.setWidth 6).toNat)
    else a.testBit i := by
  rw [← toNat_fieldPos, ← fieldWidth_eq]
  exact testBit_insert ha _ _ _ hi
theorem exec_ins (h : IssuesAlone n (op .ins w) s) : ∃ t, exec (.ins n w) s = .next t ∧ Flies n (op .ins w) s 6
    (destLands (seen n s) w.a (operandDT .ins w 0) (insValue (spImm w.c) (operand n (op .ins w) s 0) (operand n (op .ins w) s 1))) t :=
  exec_scalarLands (p := (.ins, .ins)) (mem_facetOps_of_class (l := otherOps) (by simp) (by simp [otherOps])) (.inr rfl) rfl h rfl

end

/-- Settles O12, operation by operation; the bits of INS are those of a replaced field. -/
theorem addressAndFieldResult : Obligations.AddressAndFieldResult := by
  intro n w s
  refine ⟨exec_lea, exec_movw, exec_tas, exec_crc, fun h => ?_⟩
  obtain ⟨t, ht, hflies⟩ := exec_ins h
  have hold : operand n (op .ins w) s 0 < 2 ^ 64 := readOperand_lt (szBytes_le w.tz.toNat) ..
  exact ⟨t, _, ht, hflies, fun i hi => testBit_insValue _ hold _ hi⟩

end Sys2Proof.Proofs

namespace Sys2Proof.Proofs
open Sys2Proof Sys2Proof.Machine Sys2Proof.Claims Sys2Proof.Laws

/-! ### Fields of a control value -/

theorem toNat_and_7 (c : BitVec 12) : (c &&& 7).toNat = (c.setWidth 3).toNat := by
  rw [BitVec.toNat_and, BitVec.toNat_setWidth]
  exact Nat.and_two_pow_sub_one_eq_mod _ 3
theorem toNat_and_3 (c : BitVec 12) : (c &&& 3).toNat = (c.setWidth 2).toNat := by
  rw [BitVec.toNat_and, BitVec.toNat_setWidth]
  exact Nat.and_two_pow_sub_one_eq_mod _ 2

/-! ### Lanes of a stored accumulator and of a converted vector -/

/-- The lane of an accumulator that ACCST stores as lane `j` of `z` bits (R106). -/
def accLane (acc : BitVec 768) (c : BitVec 12) (z j : Nat) : Int :=
  ((acc >>> (48 * ((if 256 / z = 8 ∧ c.getLsbD 6 then 8 else 0) + j))).setWidth 48).toInt
/-- A number shifted right, rounded to nearest where C says so (R106). -/
def accShift (c : BitVec 12) (a : Int) : Int :=
  if c.getLsbD 7 ∧ (c.setWidth 6).toNat ≠ 0 then (a + 2 ^ ((c.setWidth 6).toNat - 1)) / 2 ^ (c.setWidth 6).toNat
  else a / 2 ^ (c.setWidth 6).toNat

theorem accShift_eq (c : BitVec 12) (a : Int) :
    (if c.getLsbD 7 && (c.setWidth 6).toNat != 0 then a + (2 ^ ((c.setWidth 6).toNat - 1) : Nat) else a) / (2 ^ (c.setWidth 6).toNat : Nat) =
      accShift c a := by
  rw [accShift]
  push_cast
  by_cases h : c.getLsbD 7 ∧ (c.setWidth 6).toNat ≠ 0
  · rw [if_pos (by simpa using h), if_pos h]
  · rw [if_neg (by simpa using h), if_neg h]
theorem sgn_accLane (acc : BitVec 768) (c : BitVec 12) (z j : Nat) :
    sgn 48 (lane 48 acc.toNat ((if 256 / z = 8 then 8 * b2n (c.getLsbD 6) else 0) + j)) = accLane acc c z j := by
  rw [sgn_eq_toInt (by decide), ← setWidth_shift_eq_lane, accLane]
  cases hc : c.getLsbD 6 <;> by_cases hz : 256 / z = 8 <;> simp [hz, b2n]

theorem lane_accStore {t : Nat} (hfp : isFp t = false) (acc : BitVec 768) (c : BitVec 12) {z j : Nat} (hz : 8 * laneBytes t = z)
    (hj : j < 256 / z) : BitVec.ofNat z (lane z (accStore t acc.toNat c) j) = clampS z (accShift c (accLane acc c z j)) := by
  unfold accStore
  dsimp only
  rw [hz, lane_fromLanes _ _ _ _ hj, ofNat_mod_two_pow, if_neg (by simp [hfp]), ofNat_satS, toNat_fieldPos, sgn_accLane, accShift_eq]

theorem lane_mod (w x j : Nat) : lane w x j % 2 ^ w = lane w x j := Nat.mod_mod ..
/-- The lanes of VCVT: converted ones, and where lanes get wider or fewer the old ones of the other parts (R104). -/
theorem lane_vecCvt (t d p a b : Nat) {z y j : Nat} (hz : 8 * laneBytes t = z) (hy : 8 * laneBytes d = y) (hj : j < 256 / y) :
    lane y (vecCvt t d p a b) j =
      if 256 / y ≤ 256 / z then laneCvt t d (lane z b (p * (256 / y) + j)) % 2 ^ y
      else if p * (256 / z) ≤ j ∧ j < (p + 1) * (256 / z) then laneCvt t d (lane z b (j - p * (256 / z))) % 2 ^ y
      else lane y a j := by
  unfold vecCvt
  dsimp only
  rw [hz, hy]
  split
  · rw [lane_fromLanes _ _ _ _ hj]
  · rw [lane_fromLanes _ _ _ _ hj, apply_ite (· % 2 ^ y), lane_mod, Nat.succ_mul]

/-! ### Accumulator transfers and conversions at issue -/

section
variable {n : Fin 128} {w : OpW} {s : State}

theorem exec_accsv (h : IssuesAlone n (op .accsv w) s) : ∃ t, exec (.accsv n w) s = .next t ∧ Flies n (op .accsv w) s 2
    (destLands (seen n s) w.a (.vec 0) ((tget 0 (seen n s).acc (spReg w.b) >>> (256 * (spImm w.c).toNat)).setWidth 256).toNat) t := by
  obtain ⟨htz, -, -⟩ := opEncOk_of_issuesAlone h (by simp [op_kind])
  refine exec_vector (p := (.accsv, .accsv)) (mem_facetOps_of_class (l := transferOps) (by simp) (by simp [transferOps])) rfl rfl h ?_
  have ht : w.tz.toNat = 0 := beq_iff_eq.mp htz
  change destLands (seen n s) w.a (.vec w.tz.toNat) ((tget 0 (seen n s).acc (spReg w.b)).toNat / 2 ^ (256 * (spImm w.c).toNat) % 2 ^ 256) = _
  rw [ht, BitVec.toNat_setWidth, BitVec.toNat_ushiftRight, Nat.shiftRight_eq_div_pow]

theorem exec_accrs (h : IssuesAlone n (op .accrs w) s) : ∃ t, exec (.accrs n w) s = .next t ∧ Flies n (op .accrs w) s 2
    [.accPart (spReg w.a) (spImm w.c).toNat (BitVec.ofNat 256 (operand n (op .accrs w) s 1))] t :=
  exec_vector (p := (.accrs, .accrs)) (mem_facetOps_of_class (l := transferOps) (by simp) (by simp [transferOps])) rfl rfl h rfl

theorem exec_accst (h : IssuesAlone n (op .accst w) s) : ∃ t, exec (.accst n w) s = .next t ∧ Flies n (op .accst w) s 2
    (destLands (seen n s) w.a (.vec w.tz.toNat) (accStore w.tz.toNat (tget 0 (seen n s).acc (spReg w.b)).toNat (spImm w.c))) t :=
  exec_vector (p := (.accst, .accst)) (mem_facetOps_of_class (l := transferOps) (by simp) (by simp [transferOps])) rfl rfl h rfl

theorem exec_vcvt (h : IssuesAlone n (op .vcvt w) s) : ∃ t, exec (.vcvt n w) s = .next t ∧ Flies n (op .vcvt w) s 2
    (destLands (seen n s) w.a (.vec w.tz.toNat) (vecCvt w.tz.toNat ((spImm w.c).setWidth 3).toNat ((spImm w.c >>> 3).setWidth 2).toNat
      (operand n (op .vcvt w) s 0) (operand n (op .vcvt w) s 1))) t := by
  refine exec_vector (p := (.vcvt, .vcvt)) (mem_facetOps_of_class (l := transferOps) (by simp) (by simp [transferOps])) rfl rfl h ?_
  rw [← toNat_and_7, ← toNat_and_3]
  rfl

end

/-- Settles O13: a transfer flies its part of the accumulator, and a conversion is read back lane by lane. -/
theorem accumulatorTransferResult : Obligations.AccumulatorTransferResult := by
  intro n w s
  refine ⟨exec_accsv, exec_accrs, fun h => ?_, fun h => ?_⟩
  · obtain ⟨t, ht, hflies⟩ := exec_accst h
    exact ⟨t, _, ht, hflies, fun hfp j hj => lane_accStore hfp _ _ rfl hj⟩
  · obtain ⟨t, ht, hflies⟩ := exec_vcvt h
    exact ⟨t, _, ht, hflies, fun j hj => lane_vecCvt _ _ _ _ _ rfl rfl hj⟩

end Sys2Proof.Proofs

namespace Sys2Proof.Proofs
open Sys2Proof Sys2Proof.Machine Sys2Proof.Claims Sys2Proof.Laws

/-! ### Landing takes no FCLK -/

theorem logEvents_fclk (u : Nat) (evs : List LogEvent) (s : State) : (logEvents u evs s).fclk = s.fclk :=
  (congrArg State.fclk (logEvents_offLog u evs s) :)
theorem noteReads_fclk (port : Nat) (words : List Nat) (s : State) : (noteReads port words s).fclk = s.fclk := by
  unfold noteReads
  refine foldl_keeps (part := State.fclk) (fun s w => ?_) words s
  split
  · split
    · rfl
    · exact logEvents_fclk ..
  · rfl

theorem laterFclk_fclk (rank w : Nat) (s : State) : (laterFclk rank w s).fclk = s.fclk := by unfold laterFclk; split <;> rfl
theorem dropBack_fclk (w : Nat) (s : State) : (dropBack w s).fclk = s.fclk := by
  unfold dropBack; split <;> simp
theorem rawWrite_fclk (w : Nat) (m : BitVec 16) (tag : Bool) (s : State) : (rawWrite w m tag s).fclk = s.fclk := by
  unfold rawWrite; split <;> simp
theorem hostLost_fclk (a : Nat) (s : State) : (hostLost a s).fclk = s.fclk := by unfold hostLost; split <;> simp
theorem reportLoss_fclk (a : Nat) (who : Agent) (s : State) : (reportLoss a who s).fclk = s.fclk := by
  cases who with
  | host => exact hostLost_fclk ..
  | fabric => exact hostLost_fclk ..
  | facet n => simp [reportLoss]
  | mover k => simp [reportLoss]
  | steward => rfl
  | blocker b => rfl
  | loader => rfl
theorem tellLoss_fclk (a : Nat) (who : Agent) (id : Nat) (s : State) : (tellLoss a who id s).fclk = s.fclk := by
  unfold tellLoss
  split
  · rfl
  · exact (reportLoss_fclk ..).trans (by simp)
theorem markRewritten_fclk (w : Nat) (s : State) : (markRewritten w s).fclk = s.fclk := foldl_keeps (part := State.fclk) (fun _ _ => by simp) ..
theorem dropResv_fclk (w : Nat) (who : Agent) (s : State) : (dropResv w who s).fclk = s.fclk :=
  foldl_keeps (part := State.fclk) (g := fun s (p : Nat × Facet) => setFacet p.1 { p.2 with resv := none } s) (fun _ _ => by simp) _ s
theorem writeWord_fclk (who : Agent) (rank a : Nat) (bs : List Byte) (tag : Bool) (s : State) : (writeWord who rank a bs tag s).fclk = s.fclk := by
  unfold writeWord
  extract_lets w s1 m before new here higher lower taken compat eff s2 s3 told mark base s4 s5 s6 s7
  have h1 : s1.fclk = s.fclk := (laterFclk_fclk ..).trans (dropBack_fclk ..)
  have h2 : s2.fclk = s1.fclk := by
    unfold s2
    split
    · exact tellLoss_fclk ..
    · rfl
  have h3 : s3.fclk = s2.fclk := foldl_keeps (part := State.fclk) (fun s k => by split; exacts [tellLoss_fclk .., rfl]) lower s2
  have h7 : s7.fclk = s3.fclk := by
    simp only [s7, markRewritten_fclk, setTag_fields, s6, setVbits_fields, setMarks_fields, s5, rawWrite_fclk, s4, poke_fields]
  have hstart := h3.trans (h2.trans h1)
  split
  · exact hstart
  · exact (dropResv_fclk ..).trans (h7.trans hstart)

theorem intSysWrite_fclk (n num : Nat) (v : BitVec 64) (s : State) : (intSysWrite n num v s).fclk = s.fclk := by
  unfold intSysWrite
  dsimp only
  split
  · unfold intEoi; dsimp only; split <;> rfl
  · unfold intSetp; dsimp only; split <;> [rfl; (split <;> [rfl; (split <;> rfl)])]
  · unfold intClrp; dsimp only; split <;> rfl
  · rfl
  · unfold scfgWrite; dsimp only; split <;> [rfl; (split <;> [rfl; (split <;> rfl)])]
  · rfl
  · rfl
theorem landSys_fclk (n num lvl : Nat) (v : BitVec 64) (s : State) : (landSys n num lvl v s).fclk = s.fclk := by
  unfold landSys
  dsimp only
  split <;> try rfl
  repeat (split; · rfl)
  exact intSysWrite_fclk ..
theorem land1_fclk (n : Nat) (s0 : State) (l : Land) (s : State) : (land1 n s0 l s).fclk = s.fclk := by
  cases l with
  | g r v => simp only [land1]; split <;> rfl
  | mem a b t => exact writeWord_fclk ..
  | tas a r =>
    have h := (writeWord_fclk (.facet (Fin.ofNat 128 n)) 1 a [1] false (noteReads 0 [wordOf a] s)).trans (noteReads_fclk ..)
    simp only [land1]
    split
    · exact h
    · exact h
  | sys num lvl v => exact landSys_fclk ..
  | w i v => exact landSys_fclk ..
  | a r v => rfl
  | mac i k t b c => rfl
  | accPart i p v => rfl
  | repCount v => rfl
  | k b i v => rfl
  | kclr b i => rfl
theorem landAll_fclk (n : Nat) (ls : List Land) (s : State) : (landAll n ls s).fclk = s.fclk := by
  have h := foldl_keeps (part := State.fclk) (fun t l => land1_fclk n s l t) ls s
  unfold landAll
  dsimp only
  split
  · exact h
  · exact h
theorem acting_fclk (n : Fin 128) (o : Op) (s : State) : (acting n o s).fclk = s.fclk :=
  (noteReads_fclk ..).trans (landAll_fclk ..)

end Sys2Proof.Proofs

namespace Sys2Proof.Proofs
open Sys2Proof Sys2Proof.Machine Sys2Proof.Claims Sys2Proof.Laws

/-! ### Operations that wait -/

section
variable {n : Fin 128} {o : Op} {s x : State}

/-- FS.RES put aside, as `Waits` compares facets. -/
theorem setBit_setBit {m : Nat} (x : BitVec m) (i : Nat) (b c : Bool) : setBit (setBit x i b) i c = setBit x i c := setFld_setFld ..

theorem afterAct_waits {f : Facet} (hk : o.kind ≠ .retx) (hw : (facet x n).wait ≠ .none) :
    afterAct n o f x = updFacet n (fun f => { f with bundle := [o] }) x := by
  rw [afterAct, if_neg hk, if_pos hw]

/-- An operation that has set the facet's stall, and at most FS.RES and results in flight besides, waits. -/
theorem waits_of_acted {wt : Wait} {fs : BitVec 64} {fl : List Flight}
    (hx : facet x n = { facet (acting n o s) n with flights := (seen n s).flights ++ fl, wait := wt, fs := fs })
    (hfl : fl = if o.kind = .twait ∨ o.kind = .ewait then [] else (opUpdates (seen n s) o).map fun l => ⟨1, l⟩)
    (hfs : setBit fs 6 false = setBit (seen n s).fs 6 false) (helse : elsewhereSame n (acting n o s) x) :
    Waits n o s wt (updFacet n (fun f => { f with bundle := [o] }) x) := by
  obtain ⟨landed, replay, ready, hact⟩ := acting_facet n o s
  rw [hact] at hx
  have ht : facet (updFacet n (fun f => { f with bundle := [o] }) x) n = { facet x n with bundle := [o] } := facet_updFacet_same ..
  refine ⟨?_, ?_, ?_, ?_, ?_, fun m hm => ?_, ?_⟩
  · rw [ht, hx]
  · rw [ht]
  · rw [ht, hx]
  · rw [ht, hx, hfl]
  · rw [ht, hx]
    dsimp only
    rw [hfs]
    rfl
  · exact (facet_updFacet_ne hm ..).trans ((helse.1 m hm).trans (acting_others n o s m hm))
  · exact helse.2.trans (acting_rest n o s)

end

/-! ### Long operations -/

theorem longOps_kind : ∀ p ∈ longOps, opClass p.1 = 1 ∧ isLong p.1 = true ∧ p.1 ≠ .retx ∧ ¬ (p.1 = .twait ∨ p.1 = .ewait) := by decide

/-- The facet as a long operation starts on it. -/
def startLong (l : LongOp) (f : Facet) : Facet := { f with wait := .long l, fs := setBit f.fs 6 false }
/-- The word with which BFILL fills; other long operations carry none. -/
def longValue (n : Fin 128) (o : Op) (s : State) : BitVec 64 := BitVec.ofNat 64 (if o.kind = .bfill then operand n o s 1 else 0)

theorem acted_long {n : Fin 128} {o : Op} {s : State} (h : IssuesAlone n o s) (hc : opClass o.kind = 1) (hl : isLong o.kind = true) :
    acted n o s = updFacet n (startLong ⟨o, s.fclk, 0, longValue n o s⟩) (flyAll n 1 (opUpdates (seen n s) o) (acting n o s)) := by
  have hclock : (flyAll n 1 (opUpdates (seen n s) o) (acting n o s)).fclk = s.fclk :=
    (congrArg State.fclk (flyAll_onlyFacet n 1 (opUpdates (seen n s) o) (acting n o s)).2 :).trans (acting_fclk n o s)
  rw [acted, doOp, if_neg (by simp [seen, h.unguarded]), if_neg (not_wait_of_opClass (by omega))]
  simp only [hc, hl, if_true]
  rw [← hclock]
  rfl

/-- Settles O16: a long operation puts only its stall, and RES = 0, into the facet. -/
theorem longOperationStarts : Obligations.LongOperationStarts := by
  intro p hp n w s h o v
  obtain ⟨hclass, hlong, hret, hnowait⟩ := longOps_kind p hp
  have hv : longValue n o s = v := by
    unfold longValue v
    rw [op_kind]
    split <;> rfl
  have hx : facet (acted n o s) n = { facet (acting n o s) n with
      flights := (seen n s).flights ++ (opUpdates (seen n s) o).map fun l => ⟨1, l⟩, wait := .long ⟨o, s.fclk, 0, v⟩,
      fs := setBit (seen n s).fs 6 false } := by
    obtain ⟨_, _, _, hact⟩ := acting_facet n o s
    rw [acted_long h (by rwa [op_kind]) (by rwa [op_kind]), facet_updFacet_same, facet_flyAll, hv, hact]
    rfl
  have helse : elsewhereSame n (acting n o s) (acted n o s) := by
    rw [acted_long h (by rwa [op_kind]) (by rwa [op_kind])]
    exact elsewhereSame_of_onlyFacet (onlyFacet_trans (flyAll_onlyFacet ..) (onlyFacet_updFacet ..))
  refine ⟨_, exec_alone (mem_facetOps_of_class (l := longOps) (by simp) hp) h, ?_⟩
  rw [afterAct_waits (by rwa [op_kind]) (by rw [hx]; exact Wait.noConfusion)]
  refine ⟨waits_of_acted hx (by rw [op_kind, if_neg hnowait]) (setBit_setBit ..) helse, ?_⟩
  rw [facet_updFacet_same, hx]
  exact bit_setBit_same _ _ (by decide)

/-! ### Operations of the control class -/

section
variable {n : Fin 128} {o : Op} {s : State}

theorem isWait_eq_false {k : OpKind} (h : ¬ (k = .twait ∨ k = .ewait)) : ¬ (decide (k = .twait) || decide (k = .ewait)) = true := by
  simpa using h
theorem latency_control {k : OpKind} (hc : opClass k = 4) : latency k = 1 := by simp [latency, hc]

/-- A control operation that is no wait: its pointers move, the results of a capability operation fly, and it does what it does. -/
theorem acted_control (h : IssuesAlone n o s) (hc : opClass o.kind = 4) (hw : ¬ (o.kind = .twait ∨ o.kind = .ewait)) :
    acted n o s = doControl (landDue n s) n (seen n s) [] 1 o
      (flyAll n 1 (capLands (landDue n s) (seen n s) [] o) (flyAll n 1 (opUpdates (seen n s) o) (acting n o s))) := by
  rw [acted, doOp, if_neg (by simp [seen, h.unguarded]), if_neg (isWait_eq_false hw)]
  simp only [hc, latency_control hc]
  rfl
theorem acted_wait (h : IssuesAlone n o s) (hc : opClass o.kind = 4) (hw : o.kind = .twait ∨ o.kind = .ewait) :
    acted n o s = doControl (landDue n s) n (seen n s) [] 1 o (acting n o s) := by
  have hcap : capLands (landDue n s) (seen n s) [] o = [] := by rcases hw with hw | hw <;> simp [capLands, hw]
  rw [acted, doOp, if_neg (by simp [seen, h.unguarded]), if_pos (by simpa using hw)]
  simp only [hc, hcap]
  rfl

/-- An operation that puts results in flight with latency 1 and writes nothing else. -/
theorem controls_of_flies {ls : List Land} {t : State} (h : Flies n o s 1 ls t) : Controls n o s ls (seen n s) t :=
  ⟨h.flights, h.registers, h.pc, h.bundle, h.others, h.rest⟩

end

section
variable {n : Fin 128} {w : OpW} {s : State}

theorem exec_nop (h : IssuesAlone n (op .nop w) s) : ∃ t, exec (.nop n w) s = .next t ∧ Controls n (op .nop w) s [] (seen n s) t := by
  obtain ⟨t, ht, hflies⟩ := exec_flies (p := (.nop, .nop)) (lat := 1) (ls := [])
    (mem_facetOps_of_class (l := controlOps) (by simp) (by simp [controlOps])) (by decide) h (acted_control h rfl (by simp [op_kind]))
  exact ⟨t, ht, controls_of_flies hflies⟩

/-- TWAIT and EWAIT set the facet's stall. -/
theorem exec_wait {p : OpKind × (Fin 128 → OpW → Instr)} (hp : p ∈ controlOps) (hk : p.1 = .twait ∨ p.1 = .ewait) {wt : Wait}
    (h : IssuesAlone n (op p.1 w) s) (hwt : wt ≠ .none) (hact : doControl (landDue n s) n (seen n s) [] 1 (op p.1 w) (acting n (op p.1 w) s) =
      updFacet n (fun g => { g with wait := wt }) (acting n (op p.1 w) s)) :
    ∃ t, exec (p.2 n w) s = .next t ∧ Waits n (op p.1 w) s wt t := by
  have hk' : (op p.1 w).kind = .twait ∨ (op p.1 w).kind = .ewait := by rwa [op_kind]
  have hclass : opClass (op p.1 w).kind = 4 := by rcases hk' with hk' | hk' <;> rw [hk'] <;> rfl
  have hacted := (acted_wait h hclass hk').trans hact
  have hx : facet (acted n (op p.1 w) s) n = { facet (acting n (op p.1 w) s) n with
      flights := (seen n s).flights ++ [], wait := wt, fs := (seen n s).fs } := by
    obtain ⟨_, _, _, hf⟩ := acting_facet n (op p.1 w) s
    rw [hacted, facet_updFacet_same, hf, List.append_nil]
  have helse : elsewhereSame n (acting n (op p.1 w) s) (acted n (op p.1 w) s) := by
    rw [hacted]
    exact elsewhereSame_updFacet ..
  refine ⟨_, exec_alone (mem_facetOps_of_class (l := controlOps) (by simp) hp) h, ?_⟩
  rw [afterAct_waits (by rcases hk' with hk' | hk' <;> simp [hk']) (by rw [hx]; exact hwt)]
  exact waits_of_acted hx (by rw [if_pos hk']) rfl helse

theorem exec_twait (h : IssuesAlone n (op .twait w) s) : ∃ t, exec (.twait n w) s = .next t ∧
    Waits n (op .twait w) s (.time s.fclk (BitVec.ofNat 64 (operand n (op .twait w) s 1)) (spReg w.a)) t := by
  refine exec_wait (p := (.twait, .twait)) (by simp [controlOps]) (.inl rfl) h Wait.noConfusion ?_
  conv_rhs => rw [← acting_fclk n (op .twait w) s]
  rfl
theorem exec_ewait (h : IssuesAlone n (op .ewait w) s) : ∃ t, exec (.ewait n w) s = .next t ∧
    Waits n (op .ewait w) s (.event s.fclk (BitVec.ofNat 16 (operand n (op .ewait w) s 1)) (spImm w.c == 1) (spReg w.a)) t := by
  refine exec_wait (p := (.ewait, .ewait)) (by simp [controlOps]) (.inr rfl) h Wait.noConfusion ?_
  conv_rhs => rw [← acting_fclk n (op .ewait w) s]
  rfl

theorem waitingOperations : WaitingOperations := fun _ _ _ => ⟨exec_nop, exec_twait, exec_ewait⟩

end
end Sys2Proof.Proofs

namespace Sys2Proof.Proofs
open Sys2Proof Sys2Proof.Machine Sys2Proof.Claims Sys2Proof.Laws

/-! ### The ends of waits -/

/-- The waiting bundle of facet `f` has retired from state `u`, and `fl` are in flight behind what was. -/
structure WaitEnded (n : Fin 128) (f : Facet) (fl : List Flight) (u t : State) : Prop where
  wait : (facet t n).wait = .none
  bundle : (facet t n).bundle = []
  flights : (facet t n).flights = f.flights ++ fl
  g : (facet t n).g = f.g
  ef : (facet t n).ef = f.ef
  bundles : (facet t n).bundles = f.bundles + 1
  rest : besides t = besides u

theorem waitEnded_retire {n : Fin 128} {f : Facet} {fl : List Flight} {ready : Nat} {u x : State}
    (hx : facet x n = { f with wait := .none, ready := ready, flights := f.flights ++ fl }) (hrest : besides x = besides u) :
    WaitEnded n f fl u (retire n f f.bundle x) := by
  have hr := retired n f f.bundle x
  obtain ⟨_, _, _, _, _, _, _, _, _, _, _, _, _, hs⟩ := hr.same
  exact {
    wait := by rw [hs, hx]
    bundle := by rw [hs]
    flights := by rw [hs, hx]
    g := by rw [hs, hx]
    ef := by rw [hs, hx]
    bundles := by rw [hr.bundles, hx]
    rest := (congrArg (fun u : State => { u with marks := [] }) hr.rest).trans hrest }

/-- The moves of its pointers that a waiting bundle has held back (R163). -/
def heldMoves (f : Facet) : List Flight := (f.bundle.flatMap (opUpdates f)).map fun l => ⟨1, l⟩
/-- The register for which the result of a wait flies. -/
def waitKey (f : Facet) (d : Nat) : Nat := if d = 0 then 0 else gKey f d

theorem waitEnded_endWait (n : Fin 128) (d : Nat) (v : BitVec 64) (u : State) :
    WaitEnded n (facet u n) (heldMoves (facet u n) ++ [⟨1, .g (waitKey (facet u n) d) v⟩]) u (endWait n d v u) := by
  let freed : Facet := { facet u n with wait := .none, ready := u.fclk }
  let x := putFlight n 1 (.g (waitKey (facet u n) d) v) (flyAll n 1 ((facet u n).bundle.flatMap (opUpdates (facet u n))) (setFacet n freed u))
  have hx : facet x n = { facet u n with
      wait := .none, ready := u.fclk,
      flights := (facet u n).flights ++ (heldMoves (facet u n) ++ [⟨1, .g (waitKey (facet u n) d) v⟩]) } := by
    unfold x
    rw [putFlight, facet_updFacet_same, facet_flyAll, facet_setFacet_same, ← List.append_assoc]
    rfl
  have helse : onlyFacet n u x := onlyFacet_trans (onlyFacet_trans (onlyFacet_setFacet ..) (flyAll_onlyFacet ..)) (onlyFacet_updFacet ..)
  exact waitEnded_retire hx (elsewhereSame_of_onlyFacet helse).2

section
variable {n : Fin 128} {s : State}

theorem exec_twaitRelease {f0 d : Nat} {b : BitVec 64} {u : State} (hs : mayEnd s n = true) (hwait : (facet s n).wait = .time f0 b d)
    (hu : advanceTick b.toNat (advanceTo (f0 + 1) s) = u) (hend : mayEnd u n = true) :
    exec (.twaitRelease n) s = .next (endWait n d (BitVec.ofNat 64 u.tb.tick - b) u) := by
  change execTwaitRelease n s = _
  rw [execTwaitRelease, hwait]
  dsimp only
  rw [hu, hs, hend]
  rfl

/-- The state in which an EWAIT has cleared the flags `got`, where it asks for that. -/
def flagsTaken (n : Nat) (clr : Bool) (got : BitVec 16) (u : State) : State :=
  if clr then updFacet n (fun f => { f with ef := f.ef &&& ~~~got }) u else u
theorem facet_flagsTaken (n : Nat) (clr : Bool) (got : BitVec 16) (u : State) :
    facet (flagsTaken n clr got u) n = { facet u n with ef := if clr then (facet u n).ef &&& ~~~got else (facet u n).ef } := by
  cases clr
  · rfl
  · rw [flagsTaken, if_pos rfl, facet_updFacet_same]
    rfl
theorem flagsTaken_rest (n : Nat) (clr : Bool) (got : BitVec 16) (u : State) : besides (flagsTaken n clr got u) = besides u := by
  cases clr <;> rfl

theorem exec_ewaitRelease {f0 d : Nat} {m : BitVec 16} {clr : Bool} {u : State} (hs : mayEnd s n = true)
    (hwait : (facet s n).wait = .event f0 m clr d) (hu : advanceTo (f0 + 1) s = u) (hend : mayEnd u n = true)
    (hgot : m = 0 ∨ (facet u n).ef &&& m ≠ 0) : exec (.ewaitRelease n) s =
      .next (endWait n d (((facet u n).ef &&& m).setWidth 64) (flagsTaken n clr ((facet u n).ef &&& m) u)) := by
  change execEwaitRelease n s = _
  rw [execEwaitRelease, hwait]
  dsimp only
  rw [hu, hs, hend]
  exact if_pos (by simpa [or_comm] using hgot)

theorem exec_longOpDone {l : LongOp} {u : State} (hs : mayEnd s n = true) (hwait : (facet s n).wait = .long l)
    (hu : longProgress n (advanceTo (longEnd (facet s n) l) s) = u) (hend : mayEnd u n = true) (hcount : longCount (facet u n) l.op = 0) :
    exec (.longOpDone n) s =
      .next (retire n (facet u n) (facet u n).bundle (setFacet n { facet u n with wait := .none, ready := u.fclk } u)) := by
  change execLongOpDone n s = _
  rw [execLongOpDone, hwait]
  dsimp only
  rw [hu, hs, hend, hcount]
  rfl

end

theorem waitsEnd : WaitsEnd := by
  intro n s hs key moved
  refine ⟨?twait, ?ewait, ?long⟩
  case twait =>
    intro f0 b d hwait u hend
    have h := waitEnded_endWait n d (BitVec.ofNat 64 u.tb.tick - b) u
    exact ⟨_, exec_twaitRelease hs hwait rfl hend, h.wait, h.bundle, h.flights.trans (List.append_assoc ..).symm, h.g, h.bundles, h.rest⟩
  case ewait =>
    intro f0 m clr d hwait u got hend hgot
    have h := waitEnded_endWait n d (got.setWidth 64) (flagsTaken n clr got u)
    rw [facet_flagsTaken] at h
    exact ⟨_, exec_ewaitRelease hs hwait rfl hend hgot, h.wait, h.bundle, h.flights.trans (List.append_assoc ..).symm, h.ef, h.g,
      h.rest.trans (flagsTaken_rest ..)⟩
  case long =>
    intro l hwait u hend hcount
    have h := waitEnded_retire (n := n) (f := facet u n) (fl := []) (ready := u.fclk) (u := u)
      (x := setFacet n { facet u n with wait := .none, ready := u.fclk } u) (by rw [facet_setFacet_same, List.append_nil]) rfl
    exact ⟨_, exec_longOpDone hs hwait rfl hend hcount, h.wait, h.bundle, h.g, h.bundles, h.rest⟩

/-- Settles O21: a wait puts its stall into the facet at issue; at its end what it held back flies, and the bundle retires. -/
theorem waitingAndWaits : Obligations.WaitingAndWaits := ⟨waitingOperations, waitsEnd⟩

end Sys2Proof.Proofs

namespace Sys2Proof.Proofs
open Sys2Proof Sys2Proof.Machine Sys2Proof.Claims Sys2Proof.Laws

/-! ### Control operations that put results in flight -/

section
variable {n : Fin 128} {w : OpW} {s : State}

theorem exec_controlLands {p : OpKind × (Fin 128 → OpW → Instr)} (hp : p ∈ facetOps) (hc : opClass p.1 = 4)
    (hk : ¬ (p.1 = .twait ∨ p.1 = .ewait)) (hr : p.1 ≠ .retx) {ls : List Land} (h : IssuesAlone n (op p.1 w) s)
    (hacts : ∀ x, doControl (landDue n s) n (seen n s) [] 1 (op p.1 w)
      (flyAll n 1 (capLands (landDue n s) (seen n s) [] (op p.1 w)) x) = flyAll n 1 ls x) :
    ∃ t, exec (p.2 n w) s = .next t ∧ Flies n (op p.1 w) s 1 ls t :=
  exec_flies hp hr h ((acted_control h (by rwa [op_kind]) (by rwa [op_kind])).trans (hacts _))

/-! ### MFS, MTS and SIG -/

theorem toNat_and_255 (c : BitVec 12) : (c &&& 0xFF).toNat = (c.setWidth 8).toNat := by
  rw [BitVec.toNat_and, BitVec.toNat_setWidth]
  exact Nat.and_two_pow_sub_one_eq_mod _ 8

/-- The results of an MFS of register `num`. -/
def mfsLands (n : Fin 128) (w : OpW) (s : State) (num : Nat) : List Land :=
  destLands (seen n s) w.a (.sc 8 false true) (sysRead (landDue n s) n num).toNat
theorem doControl_mfs (num : Nat) (hnum : ((spImm w.c).setWidth 8).toNat = num) (x : State) :
    doControl (landDue n s) n (seen n s) [] 1 (op .mfs w) x =
      if num = 0x40 then claim n false (flyAll n 1 (mfsLands n w s num) x)
      else if num = 0x41 then claim n true (flyAll n 1 (mfsLands n w s num) x) else flyAll n 1 (mfsLands n w s num) x := by
  rw [← hnum, ← toNat_and_255]
  rfl
theorem exec_mfs (h : IssuesAlone n (op .mfs w) s) {num : Nat} (hnum : ((spImm w.c).setWidth 8).toNat = num) (h40 : num ≠ 0x40)
    (h41 : num ≠ 0x41) : ∃ t, exec (.mfs n w) s = .next t ∧ Flies n (op .mfs w) s 1 (mfsLands n w s num) t :=
  exec_controlLands (p := (.mfs, .mfs)) (mem_facetOps_of_class (l := controlOps) (by simp) (by simp [controlOps])) rfl (by decide) (by decide) h
    fun x => (doControl_mfs num hnum x).trans (by rw [if_neg h40, if_neg h41])

theorem ofNat_setWidth_16 (x : Nat) : (BitVec.ofNat 64 x).setWidth 16 = BitVec.ofNat 16 x := by
  refine BitVec.eq_of_toNat_eq ?_
  rw [BitVec.toNat_setWidth, BitVec.toNat_ofNat, BitVec.toNat_ofNat, Nat.mod_mod_of_dvd _ (by decide)]
theorem exec_mts (h : IssuesAlone n (op .mts w) s) {num : Nat} (hnum : ((spImm w.c).setWidth 8).toNat = num) :
    ∃ t, exec (.mts n w) s = .next t ∧ Flies n (op .mts w) s 1
      [if num = 5 ∧ (seen n s).repeating = true then .repCount (BitVec.ofNat 16 (operand n (op .mts w) s 1))
        else .sys num (fsLVL (seen n s).fs) (BitVec.ofNat 64 (operand n (op .mts w) s 1))] t := by
  refine exec_controlLands (p := (.mts, .mts)) (mem_facetOps_of_class (l := controlOps) (by simp) (by simp [controlOps])) rfl (by decide)
    (by decide) h fun x => ?_
  rw [← hnum, ← toNat_and_255, ← ofNat_setWidth_16]
  exact congrArg (putFlight n 1 · x) (if_congr (by rw [Bool.and_eq_true, decide_eq_true_eq]; rfl) rfl rfl)

end

/-! ### Claims and hatband sources -/

theorem claim_facets (ctl : Nat) (fast : Bool) (s : State) : (claim ctl fast s).facets = s.facets := by
  unfold claim
  split
  · dsimp only
    split
    · rfl
    · exact acceptEvents_facets ..
  · rfl

theorem setIntSrc_ints_congr {s t : State} (hi : s.ints = t.ints) (ctl src : Nat) (x : IntSrc) :
    (setIntSrc ctl src x s).ints = (setIntSrc ctl src x t).ints := by simp only [setIntSrc, hi]
/-- What an accepted event makes of the sources depends on the sources and the clock alone. -/
theorem acceptEvents_ints_congr {s t : State} (hi : s.ints = t.ints) (hf : s.fclk = t.fclk) (ctl src m : Nat) :
    (acceptEvents ctl src m s).ints = (acceptEvents ctl src m t).ints := by
  have hx : intSrc s ctl src = intSrc t ctl src := by rw [intSrc, intSrc, hi]
  have hc : intClock s ctl = intClock t ctl := by rw [intClock, intClock, hf]
  have hput : ∀ (u : State) (x : IntSrc), u.ints = s.ints → (setIntSrc ctl src x u).ints = tset {} s.ints (srcKey ctl src) x :=
    fun u x hu => by rw [← hu]; rfl
  have hput' : ∀ (u : State) (x : IntSrc), u.ints = t.ints → (setIntSrc ctl src x u).ints = tset {} s.ints (srcKey ctl src) x :=
    fun u x hu => by rw [hi, ← hu]; rfl
  unfold acceptEvents
  dsimp only
  rw [hput _ _ (by split <;> rfl), hput' _ _ (by split <;> rfl), hx, hc]
theorem claim_ints_congr {s t : State} (hi : s.ints = t.ints) (hw : s.intWas = t.intWas) (hf : s.fclk = t.fclk) (ctl : Nat) (fast : Bool) :
    (claim ctl fast s).ints = (claim ctl fast t).ints := by
  have hwas : ∀ k, srcWas s k = srcWas t k := fun k => by rw [srcWas, srcWas, hi, hw]
  have hpick : claimPick s ctl fast = claimPick t ctl fast := by simp only [claimPick, requests, hi, hwas]
  unfold claim
  rw [hpick]
  split
  · next k x _ =>
    have hnew : newEvents s k x = newEvents t k x := by rw [newEvents, newEvents, hwas, intClock, intClock, hf]
    dsimp only
    rw [hnew]
    split
    · exact setIntSrc_ints_congr hi ..
    · exact acceptEvents_ints_congr (setIntSrc_ints_congr hi ..) (by simp only [setIntSrc, hf]) ..
  · exact hi

theorem raiseHat_facets (src : Nat) (s : State) : (raiseHat src s).facets = s.facets := by
  unfold raiseHat raiseEvent
  dsimp only
  split
  · split <;> rfl
  · rfl
theorem raiseHat_updFacet (src n : Nat) (h : Facet → Facet) (s : State) :
    besides (raiseHat src (updFacet n h s)) = besides (raiseHat src s) := by
  have hraise : ∀ ev, besides (raiseEvent ev (updFacet n h s)) = besides (raiseEvent ev s) := by
    intro ev
    unfold raiseEvent
    change besides (if s.pulses.any (fun p => p.at_ == s.fclk && p.ev == ev % 4096) then updFacet n h s else _) = _
    split <;> rfl
  unfold raiseHat
  change besides (if hatSource s (hatLive s) src / 2 ^ 15 % 2 = 1 then raiseEvent _ (updFacet n h s) else updFacet n h s) = _
  dsimp only
  split
  · exact hraise _
  · rfl

/-! ### MFS of a claim register, and SIG, at issue -/

section
variable {n : Fin 128} {o : Op} {w : OpW} {s x : State}

theorem flyAll_wait (n l : Nat) (ls : List Land) (s : State) : (facet (flyAll n l ls s) n).wait = (facet s n).wait := by rw [facet_flyAll]
/-- A bundle of one has retired in whose facet only results have been put in flight, whatever it did elsewhere. -/
theorem retire_flown {ls : List Land} (hx : facet x n = facet (flyAll n 1 ls (flyAll n 1 (opUpdates (seen n s) o) (acting n o s))) n) :
    (facet (retire n (seen n s) [o] x) n).flights =
        (seen n s).flights ++ ((opUpdates (seen n s) o).map fun l => ⟨1, l⟩) ++ ls.map (fun l => ⟨1, l⟩) ∧
      kept (facet (retire n (seen n s) [o] x) n) = kept (seen n s) ∧ (facet (retire n (seen n s) [o] x) n).pc = goesOnAt (seen n s) := by
  have hr := retired n (seen n s) [o] x
  obtain ⟨_, _, _, hact⟩ := acting_facet n o s
  rw [facet_flyAll, facet_flyAll, hact] at hx
  obtain ⟨_, _, _, _, _, _, _, _, _, _, _, _, _, hs⟩ := hr.same
  refine ⟨by rw [hs, hx], ?_, hr.pc (by rw [hx]) (by rw [hx])⟩
  rw [Retired.kept_eq hr, hx]
  rfl

/-- An operation of the control class that puts results in flight, and besides acts outside the facets. -/
theorem exec_flown {p : OpKind × (Fin 128 → OpW → Instr)} (hp : p ∈ facetOps) (hk : p.1 ≠ .retx) {ls : List Land}
    (h : IssuesAlone n (op p.1 w) s) (hx : acted n (op p.1 w) s = x)
    (hfacets : x.facets = (flyAll n 1 ls (flyAll n 1 (opUpdates (seen n s) (op p.1 w)) (acting n (op p.1 w) s))).facets) :
    ∃ t, exec (p.2 n w) s = .next t ∧ (facet t n).flights =
        (seen n s).flights ++ ((opUpdates (seen n s) (op p.1 w)).map fun l => ⟨1, l⟩) ++ ls.map (fun l => ⟨1, l⟩) ∧
      kept (facet t n) = kept (seen n s) ∧ (facet t n).pc = goesOnAt (seen n s) ∧
      { t with facets := [], free := 0 } = { x with facets := [], free := 0 } := by
  have hfacet := facet_congr hfacets n
  have hwait : (facet x n).wait = .none := by
    rw [hfacet, flyAll_wait, flyAll_wait]
    exact acting_wait h
  refine ⟨_, exec_alone hp h, ?_⟩
  rw [hx, afterAct_retires (by rwa [op_kind]) hwait]
  obtain ⟨hflights, hkept, hpc⟩ := retire_flown (o := op p.1 w) hfacet
  exact ⟨hflights, hkept, hpc, (retired ..).rest⟩

theorem exec_mfs_claim (h : IssuesAlone n (op .mfs w) s) {num : Nat} (hnum : ((spImm w.c).setWidth 8).toNat = num)
    (hclaim : num = 0x40 ∨ num = 0x41) : ∃ t, exec (.mfs n w) s = .next t ∧
      (facet t n).flights = (seen n s).flights ++ ((opUpdates (seen n s) (op .mfs w)).map fun l => ⟨1, l⟩) ++
        ((mfsLands n w s num).map fun l => ⟨1, l⟩) ∧
      kept (facet t n) = kept (seen n s) ∧ t.mem = (landDue n s).mem ∧ t.ints = (claim n (num == 0x41) (atIssue n (op .mfs w) s)).ints := by
  let flown := flyAll n 1 (mfsLands n w s num) (flyAll n 1 (opUpdates (seen n s) (op .mfs w)) (acting n (op .mfs w) s))
  have hacted : acted n (op .mfs w) s = claim n (num == 0x41) flown := by
    refine (acted_control h rfl (by simp [op_kind])).trans ((doControl_mfs num hnum _).trans ?_)
    rcases hclaim with rfl | rfl <;> rfl
  have hact : onlyFacet n (atIssue n (op .mfs w) s) (acting n (op .mfs w) s) := onlyFacet_updFacet ..
  have hflown : onlyFacet n (acting n (op .mfs w) s) flown := onlyFacet_trans (flyAll_onlyFacet ..) (flyAll_onlyFacet ..)
  have honly := onlyFacet_trans hact hflown
  have hints : flown.ints = (atIssue n (op .mfs w) s).ints := (congrArg State.ints honly.2 :)
  have hwas : flown.intWas = (atIssue n (op .mfs w) s).intWas := (congrArg State.intWas honly.2 :)
  have hclock : flown.fclk = (atIssue n (op .mfs w) s).fclk := (congrArg State.fclk honly.2 :)
  obtain ⟨t, ht, hflights, hkept, -, hrest⟩ := exec_flown (p := (.mfs, .mfs))
    (mem_facetOps_of_class (l := controlOps) (by simp) (by simp [controlOps])) (by decide) h hacted (claim_facets ..)
  refine ⟨t, ht, hflights, hkept, ?_, ?_⟩
  · calc t.mem = (claim n (num == 0x41) flown).mem := (congrArg State.mem hrest :)
      _ = flown.mem := claim_mem ..
      _ = (atIssue n (op .mfs w) s).mem := (congrArg State.mem honly.2 :)
      _ = (landDue n s).mem := noteReads_mem ..
  · calc t.ints = (claim n (num == 0x41) flown).ints := (congrArg State.ints hrest :)
      _ = (claim n (num == 0x41) (atIssue n (op .mfs w) s)).ints := claim_ints_congr hints hwas hclock ..

theorem exec_sig (h : IssuesAlone n (op .sig w) s) : ∃ t, exec (.sig n w) s = .next t ∧ kept (facet t n) = kept (seen n s) ∧
    (facet t n).flights = (seen n s).flights ∧ (facet t n).pc = goesOnAt (seen n s) ∧
    besides t = besides (raiseHat (0x0800 + 16 * n + (spImm w.c).toNat) (atIssue n (op .sig w) s)) := by
  have hacted : acted n (op .sig w) s = raiseHat (0x0800 + 16 * n + (spImm w.c).toNat) (acting n (op .sig w) s) :=
    acted_control h rfl (by simp [op_kind])
  obtain ⟨t, ht, hflights, hkept, hpc, hrest⟩ := exec_flown (p := (.sig, .sig)) (ls := [])
    (mem_facetOps_of_class (l := controlOps) (by simp) (by simp [controlOps])) (by decide) h hacted (raiseHat_facets ..)
  have hnone : opUpdates (seen n s) (op .sig w) = [] := rfl
  rw [hnone] at hflights
  refine ⟨t, ht, hkept, hflights.trans (by simp), hpc, ?_⟩
  exact (congrArg (fun u : State => { u with marks := [] }) hrest).trans (raiseHat_updFacet ..)

end

/-- Settles O24: a move only flies its result; a claim works on the sources and SIG on the hatband, which no facet shows. -/
theorem systemRegisterMoves : Obligations.SystemRegisterMoves := by
  intro n w s f num
  refine ⟨fun h h40 h41 => exec_mfs h rfl h40 h41, fun h hclaim => exec_mfs_claim h rfl hclaim, fun h => exec_mts h rfl, exec_sig⟩

end Sys2Proof.Proofs

namespace Sys2Proof.Proofs
open Sys2Proof Sys2Proof.Machine Sys2Proof.Claims Sys2Proof.Laws

/-! ### Remote operations at issue -/

theorem remoteOps_kind : ∀ p ∈ remoteOps, opClass p.1 = 2 ∧ isRemote p.1 = true ∧ p.1 ≠ .retx ∧ p.1 ≠ .ret ∧
    (roles p.1).1 ∈ [Role.memSrc, .memDst, .memBoth] := by decide
theorem op_operands : ∀ p ∈ remoteOps, ∀ w : OpW, (op p.1 w).w = w := by
  simp only [remoteOps, List.forall_mem_cons, List.not_mem_nil, false_imp_iff, implies_true, and_true]
  and_intros <;> exact fun _ => rfl

section
variable {n : Fin 128} {o : Op} {s : State}

theorem specOk_memory {r : Role} {x : BitVec 16} {d : DT} {lits : List (BitVec 48)} (hr : r ∈ [Role.memSrc, .memDst, .memBoth])
    (h : specOk r x d lits = true) : memSpecOk x = true := by
  simp only [List.mem_cons, List.not_mem_nil, or_false] at hr
  rcases hr with rfl | rfl | rfl <;> exact h

/-- The remote operation that an operation of the facet starts, its store operand being at `e`. -/
def remoteOf (n : Fin 128) (o : Op) (s : State) (e : Nat) : Remote :=
  ⟨remoteN o, o.kind, remoteSize o.w.c, gaSpec (seen n s) o.w.b % 2 ^ 48, e, readBytes (landDue n s) 1 e (remoteSize o.w.c),
    capPerm (effK (seen n s) (kdOf o)).cap, false⟩
/-- The facet with a remote operation outstanding, DONE and FAIL of its index cleared. -/
def startRemote (r : Remote) (f : Facet) : Facet :=
  { f with arf := setBit (setBit f.arf r.idx false) (16 + r.idx) false, remotes := f.remotes ++ [r] }

theorem acted_remote {e : Nat} (h : IssuesAlone n o s) (hc : opClass o.kind = 2) (hr : isRemote o.kind = true)
    (he : segments (seen n s) o.w.a (.sc (remoteSize o.w.c) false true) = [(e, remoteSize o.w.c)]) :
    acted n o s = updFacet n (startRemote (remoteOf n o s e)) (flyAll n 1 (opUpdates (seen n s) o) (acting n o s)) := by
  rw [acted, doOp, if_neg (by simp [seen, h.unguarded]), if_neg (not_wait_of_opClass (by omega))]
  simp only [hc, hr, if_true, issueRemote, he]
  rfl

/-- A bundle of one whose operation has done `g` on its facet, which neither stalls nor branches, behind its address updates. -/
theorem exec_updates {p : OpKind × (Fin 128 → OpW → Instr)} (hp : p ∈ facetOps) (hk : p.1 ≠ .retx) {w : OpW} {g : Facet → Facet} {f : Facet}
    (h : IssuesAlone n (op p.1 w) s)
    (hact : acted n (op p.1 w) s = updFacet n g (flyAll n 1 (opUpdates (seen n s) (op p.1 w)) (acting n (op p.1 w) s)))
    (hg : ∀ u : Facet, (g u).flights = u.flights ∧ (g u).pc = u.pc ∧ (g u).pbt = u.pbt ∧ (g u).wait = u.wait)
    (hkept : ∀ landed replay ready flights,
      kept (g { seen n s with landed := landed, replay := replay, ready := ready, flights := flights }) = kept f) :
    ∃ t, exec (p.2 n w) s = .next t ∧ Controls n (op p.1 w) s [] f t := by
  obtain ⟨landed, replay, ready, hfacet⟩ := acting_facet n (op p.1 w) s
  let fl := (seen n s).flights ++ (opUpdates (seen n s) (op p.1 w)).map fun l => ⟨1, l⟩
  have hx : facet (acted n (op p.1 w) s) n =
      g { seen n s with landed := landed, replay := replay, ready := ready, flights := fl } := by
    rw [hact, facet_updFacet_same, facet_flyAll, hfacet]
  obtain ⟨hflights, hpc, hpbt, hwait⟩ := hg { seen n s with landed := landed, replay := replay, ready := ready, flights := fl }
  have hfree : (seen n s).wait = .none := by
    have hwait := acting_wait h
    rwa [hfacet] at hwait
  have helse : elsewhereSame n (acting n (op p.1 w) s) (acted n (op p.1 w) s) := by
    rw [hact]
    exact elsewhereSame_of_onlyFacet (onlyFacet_trans (flyAll_onlyFacet ..) (onlyFacet_updFacet ..))
  have hr := retired n (seen n s) [op p.1 w] (acted n (op p.1 w) s)
  obtain ⟨_, _, _, _, _, _, _, _, _, _, _, _, _, hs⟩ := hr.same
  refine ⟨_, exec_alone hp h, ?_⟩
  rw [afterAct_retires (by rwa [op_kind]) (by rw [hx, hwait]; exact hfree)]
  exact {
    flights := by rw [hs, hx]; exact hflights.trans (List.append_nil _).symm
    registers := by rw [Retired.kept_eq hr, hx, hkept]
    pc := hr.pc (by rw [hx, hpc]) (by rw [hx, hpbt])
    bundle := by rw [hs]
    others := fun m hm => (hr.others m hm).trans ((helse.1 m hm).trans (acting_others n _ s m hm))
    rest := (congrArg (fun u : State => { u with marks := [] }) hr.rest).trans (helse.2.trans (acting_rest n _ s)) }

end

/-- The store operand of a remote operation is one access. -/
theorem segments_remote {p : OpKind × (Fin 128 → OpW → Instr)} (hp : p ∈ remoteOps) {n : Fin 128} {w : OpW} {s : State}
    (h : IssuesAlone n (op p.1 w) s) : ∃ e, segments (seen n s) w.a (.sc (remoteSize w.c) false true) = [(e, remoteSize w.c)] := by
  obtain ⟨-, -, -, hret, hrole⟩ := remoteOps_kind p hp
  have hlit : (op p.1 w).kind ≠ .lit := by
    rw [op_kind]
    exact facetOps_kind_ne_lit p (mem_facetOps_of_class (l := remoteOps) (by simp) hp)
  have ha := (opEncOk_of_issuesAlone h hlit).2.1 (by rwa [op_kind])
  rw [op_kind, op_operands p hp] at ha
  exact segments_scalar (specOk_memory hrole ha)

theorem remoteOperationIssues : RemoteOperationIssues := by
  intro p hp n w s h o f i z
  obtain ⟨hclass, hremote, hretx, -, -⟩ := remoteOps_kind p hp
  have hw : o.w = w := op_operands p hp w
  have hk : o.kind = p.1 := op_kind ..
  obtain ⟨e, he⟩ := segments_remote hp h
  have hidx : remoteN o = i := by
    rw [remoteN, ctlC, hw, BitVec.toNat_and, show i = ((spImm w.c >>> 4).setWidth 4).toNat from rfl, BitVec.toNat_setWidth]
    exact Nat.and_two_pow_sub_one_eq_mod _ 4
  have hstarted : remoteOf n o s e =
      ⟨i, p.1, z, gaSpec f w.b % 2 ^ 48, e, readBytes (landDue n s) 1 e z, capPerm (effK f (kdOf o)).cap, false⟩ := by
    rw [remoteOf, hidx, hw, hk]
  have hacted := acted_remote h (by rwa [op_kind]) (by rwa [op_kind]) (e := e) (by rw [hw]; exact he)
  rw [hstarted] at hacted
  obtain ⟨t, ht, hcontrols⟩ := exec_updates (mem_facetOps_of_class (l := remoteOps) (by simp) hp) hretx h hacted
    (f := startRemote (remoteOf n o s e) f) (fun _ => ⟨rfl, rfl, rfl, rfl⟩) (fun _ _ _ _ => by rw [hstarted]; rfl)
  rw [hstarted] at hcontrols
  exact ⟨t, e, ht, by rw [he]; rfl, hcontrols⟩

end Sys2Proof.Proofs

namespace Sys2Proof.Proofs
open Sys2Proof Sys2Proof.Machine Sys2Proof.Claims Sys2Proof.Laws

/-! ### Remote operations at their targets -/

section
variable {n : Fin 128} {i : Fin 16} {r : Remote} {s : State}

theorem exec_remoteCompletion (hr : ((facet s n).remotes.find? fun q => q.idx == i.val) = some r)
    (hfirst : ((facet s n).remotes.find? fun q => q.target == r.target) = some r)
    (hserved : rangeServed s r.target (r.target + r.size) = true) (hdom : domServes s (crownOf n) = true)
    (hgood : rangeBad s r.target r.size = false) : exec (.remoteCompletion n i false) s = .next (remoteAct n r s) := by
  change execRemoteCompletion n i false s = _
  simp [execRemoteCompletion, hr, hfirst, hserved, hdom, hgood]

/-- The write of a remote operation at its target, what it answers and what it leaves. -/
theorem remoteStore_eq (bs : List Byte) (u : State) : remoteStore n r bs u =
    ((writeAt (.facet n) r.perm r.target bs u).1, settleChunk r.target (writeAt (.facet n) r.perm r.target bs u).2) := by
  rw [remoteStore, Fin.ofNat_val_eq_self]
theorem landLocal_eq (bs : List Byte) (u : State) :
    landLocal n r bs u = endRemote n r true false (writeMem (.facet n) r.locl bs u) := by rw [landLocal, Fin.ofNat_val_eq_self]

theorem remoteAct_store (hk : r.kind = .rst) : remoteAct n r s =
    if (writeAt (.facet n) r.perm r.target r.data s).1 = true then
      endRemote n r true false (settleChunk r.target (writeAt (.facet n) r.perm r.target r.data s).2)
    else endRemote n r false true (settleChunk r.target (writeAt (.facet n) r.perm r.target r.data s).2) := by
  simp only [remoteAct, hk, actStore, remoteStore_eq, refuseRemote]
theorem remoteAct_conditional (hk : r.kind = .stc) (hp : partitionRefuses s r.target (.facet n) = false) :
    let u := updFacet n (fun f => { f with resv := none }) s
    remoteAct n r s = if holdsResv s n (wordOf r.target) then
      endRemote n r true false (settleChunk r.target (writeAt (.facet n) r.perm r.target r.data u).2) else endRemote n r true true u := by
  have hkeeps : partitionRefuses (updFacet n (fun f => { f with resv := none }) s) r.target (.facet n) = false := hp
  simp only [remoteAct, hk, actStc, Fin.ofNat_val_eq_self, hkeeps, remoteStore_eq, Bool.false_eq_true, if_false]
theorem remoteAct_read {old : List Byte} {u : State} (hk : r.kind ≠ .rst ∧ r.kind ≠ .stc) (hreg : r.kind = .rld ∨ isRegister r.target = false)
    (hgot : readAt (.facet n) r.perm r.target r.size s = (some old, u)) : remoteAct n r s = actOld n r old u := by
  have hread : remoteAct n r s = actRead n r s := by
    unfold remoteAct
    split
    · exact absurd ‹_› hk.1
    · exact absurd ‹_› hk.2
    · rfl
  rw [hread, actRead, if_neg (by rcases hreg with h | h <;> simp [h]), Fin.ofNat_val_eq_self, hgot]
theorem actOld_atomic {old : List Byte} {u : State} (hk : r.kind = .radd ∨ r.kind = .rtas) :
    actOld n r old u = actAtomic n r old (if r.kind = .rtas then [1] else natBytes r.size (bytesNat old + bytesNat r.data)) u := by
  rcases hk with hk | hk <;> simp [actOld, hk]
theorem actAtomic_of_taken {old new : List Byte} {u : State} (hok : (writeAt (.facet n) r.perm r.target new u).1 = true) :
    actAtomic n r old new u = endRemote n r true false
      (writeMem (.facet n) r.locl old (settleChunk r.target (writeAt (.facet n) r.perm r.target new u).2)) := by
  rw [actAtomic, remoteStore_eq]
  simp only [hok, if_true, landLocal_eq]

end

/-! ### The end of a remote operation -/

/-- The facet with the outcome of a remote operation: DONE and FAIL of the index, and the remote error pending of a refusal. -/
def tookOutcome (r : Remote) (done fail : Bool) (f : Facet) : Facet :=
  { f with
    remotes := f.remotes.erase r
    arf := setBit (setBit f.arf r.idx done) (16 + r.idx) fail
    remErr := f.remErr || (fail && !done) }
/-- The state with the outcome taken, before its event. -/
def outcomeTaken (n : Nat) (r : Remote) (done fail : Bool) (s : State) : State :=
  updFacet n (tookOutcome r done fail) (noteHit (arfReg n) r.idx done (noteHit (arfReg n) (16 + r.idx) fail s))
theorem endRemote_done (n : Nat) (r : Remote) (x : State) : endRemote n r true false x =
    if bit (facet x n).arf r.idx = true then outcomeTaken n r true false x else facetPulse n 50 (outcomeTaken n r true false x) := by
  cases h : bit (facet x n).arf r.idx <;> simp only [endRemote, h] <;> rfl

theorem recordEvent_keeps (n i : Nat) (s : State) : (recordEvent n i s).facets = s.facets ∧ (recordEvent n i s).regs = s.regs := by
  unfold recordEvent
  dsimp only
  split_ifs <;> exact ⟨rfl, rfl⟩
theorem facetPulse_keeps (n i : Nat) (s : State) : (facetPulse n i s).facets = s.facets ∧ (facetPulse n i s).regs = s.regs := by
  unfold facetPulse
  split
  · exact ⟨pulseEvent_facets .., pulseEvent_regs ..⟩
  · exact recordEvent_keeps ..
/-- What a pulse makes of the sources depends on the sources and the clock alone. -/
theorem pulseEvent_ints_congr {s t : State} (hi : s.ints = t.ints) (hf : s.fclk = t.fclk) (ctl src : Nat) :
    (pulseEvent ctl src s).ints = (pulseEvent ctl src t).ints := by
  have hx : intSrc s ctl src = intSrc t ctl src := by rw [intSrc, intSrc, hi]
  have hc : intClock s ctl = intClock t ctl := by rw [intClock, intClock, hf]
  have hdrop : ∀ u : State, (fdrop ctl u).ints = u.ints := fun _ => rfl
  unfold pulseEvent
  dsimp only
  rw [hx, hc]
  split_ifs
  · exact hi
  · rw [hdrop, hdrop]
    exact setIntSrc_ints_congr hi ..
  · exact acceptEvents_ints_congr hi hf ..

/-- The end of an operation that was done: its facet has the outcome, and nothing else of the facets, the registers or the memory moves. -/
theorem endRemote_done_keeps (n : Nat) (r : Remote) (x : State) : (endRemote n r true false x).facets = (outcomeTaken n r true false x).facets ∧
    (endRemote n r true false x).mem = x.mem ∧ (endRemote n r true false x).regs = x.regs := by
  have hmem : (endRemote n r true false x).mem = x.mem := endRemote_mem ..
  rw [endRemote_done] at hmem ⊢
  split_ifs at hmem ⊢
  · exact ⟨rfl, hmem, rfl⟩
  · obtain ⟨hfacets, hregs⟩ := facetPulse_keeps n 50 (outcomeTaken n r true false x)
    exact ⟨hfacets, hmem, hregs⟩
theorem facet_endRemote_done (n : Nat) (r : Remote) (x : State) :
    facet (endRemote n r true false x) n = tookOutcome r true false (facet x n) := by
  rw [facet_congr (endRemote_done_keeps n r x).1, outcomeTaken, facet_updFacet_same]
  rfl
theorem facet_endRemote_done_other {n m : Nat} (hm : m ≠ n) (r : Remote) (x : State) :
    facet (endRemote n r true false x) m = facet x m := by
  rw [facet_congr (endRemote_done_keeps n r x).1, outcomeTaken, facet_updFacet_ne hm]
  rfl
/-- The rise of DONE is an event of source 50. -/
theorem endRemote_done_ints {n : Nat} {r : Remote} {x : State} (h : bit (facet x n).arf r.idx = false) (hup : crownUp x (crownOf n) = true) :
    (endRemote n r true false x).ints = (pulseEvent n 50 x).ints := by
  have hup' : crownUp (outcomeTaken n r true false x) (crownOf n) = true := hup
  rw [endRemote_done, if_neg (by simp [h]), facetPulse, if_pos hup']
  exact pulseEvent_ints_congr (s := outcomeTaken n r true false x) (t := x) rfl rfl ..

theorem remoteOperationCompletes : RemoteOperationCompletes := by
  intro n i r s hr hfirst hserved hdom hgood who run got put ok
  have hrun : run = .next (remoteAct n r s) := exec_remoteCompletion hr hfirst hserved hdom hgood
  refine ⟨fun hk hok => ?_, fun hk hok => ?_, fun hk hp => ?_, fun old u hk hgot => ?_, fun old u hk hreg hgot => ?_,
    fun old u hk hreg hgot => ?_, fun x => ?_⟩
  · rw [hrun, remoteAct_store hk, if_pos hok]
  · rw [hrun, remoteAct_store hk, if_neg hok]
  · rw [hrun, remoteAct_conditional hk hp]
  · rw [hrun, remoteAct_read (by simp [hk]) (.inl hk) hgot, ← landLocal_eq]
    simp only [actOld, hk]
  · rw [hrun, remoteAct_read (by simp [hk]) (.inr hreg) hgot, ← landLocal_eq]
    simp only [actOld, hk]
  · intro new hok
    rw [hrun, remoteAct_read (by rcases hk with hk | hk <;> simp [hk]) (.inr hreg) hgot, actOld_atomic hk, actAtomic_of_taken hok]
  · obtain ⟨-, hmem, hregs⟩ := endRemote_done_keeps n r x
    intro t
    have ht : facet t n = tookOutcome r true false (facet x n) := facet_endRemote_done n r x
    refine ⟨by rw [ht]; rfl, by rw [ht]; rfl, by rw [ht]; exact Bool.or_false _, fun m hm => facet_endRemote_done_other hm r x, hmem, hregs,
      fun hdone => ?_, endRemote_done_ints⟩
    change (endRemote n r true false x).ints = _
    rw [endRemote_done, if_pos hdone]
    rfl

/-- Settles O17: at issue the one access of the store operand is the local address; at the target each kind is a case of `remoteAct`. -/
theorem remoteOperations : Obligations.RemoteOperations := ⟨remoteOperationIssues, remoteOperationCompletes⟩

end Sys2Proof.Proofs

namespace Sys2Proof.Proofs
open Sys2Proof Sys2Proof.Machine Sys2Proof.Claims Sys2Proof.Laws

/-! ### KLD at issue -/

section
variable {n : Fin 128} {w : OpW} {s : State}

/-- What a KLD of the word at `e` has in flight, `tag` being the tag that the word gives. -/
def kldLand (n : Fin 128) (w : OpW) (s : State) (tag : Bool) : Land :=
  .k (fsKB (seen n s).fs) (spImm w.c &&& 15).toNat ⟨BitVec.ofNat 128 (operand n (op .kld w) s 1),
    tag && capHas (effK (seen n s) (wKsel (effW (seen n s) (spWin w.b)))).cap permLC⟩
theorem kldLand_inj {tag tag' : Bool} (hlc : capHas (effK (seen n s) (wKsel (effW (seen n s) (spWin w.b)))).cap permLC = true)
    (h : kldLand n w s tag = kldLand n w s tag') : tag = tag' := by simpa [kldLand, hlc] using h

/-- The tag in flight is the one that a read in this FCLK gives, with the collision mode of the crown (R232). -/
theorem exec_kld (h : IssuesAlone n (op .kld w) s) {e : Nat} (he : segments (seen n s) w.b (.sc 16 false true) = [(e, 16)]) :
    ∃ t, exec (.kld n w) s = .next t ∧ Flies n (op .kld w) s 1 [kldLand n w s (readTag (landDue n s) e)] t := by
  have hlands : capLands (landDue n s) (seen n s) [] (op .kld w) = [kldLand n w s (readTag (landDue n s) e)] := by
    have hb : (op .kld w).w.b = w.b := rfl
    rw [capLands]
    simp only [op_kind, hb, he]
    rfl
  refine exec_controlLands (p := (.kld, .kld)) (mem_facetOps_of_class (l := capOps) (by simp) (by simp [capOps])) rfl (by decide) (by decide) h
    fun x => ?_
  rw [hlands]
  rfl

/-- The obligation makes the tag of the word itself the tag that a read in this FCLK gives. -/
theorem readTag_eq_tagAt_of_claim (hclaim : Obligations.CapabilityOperationResult) (h : IssuesAlone n (op .kld w) s)
    (hlc : capHas (effK (seen n s) (wKsel (effW (seen n s) (spWin w.b)))).cap permLC = true) {e : Nat}
    (he : segments (seen n s) w.b (.sc 16 false true) = [(e, 16)]) : readTag (landDue n s) e = tagAt (landDue n s) e := by
  obtain ⟨-, -, -, -, -, -, -, hkld, -⟩ := hclaim n w s
  obtain ⟨t, e', ht, he', hflies⟩ := hkld h
  obtain ⟨u, hu, hmodel⟩ := exec_kld h he
  obtain rfl : u = t := by simpa [hu] using ht
  obtain rfl : e = e' := by simpa [he] using he'
  have hflights := hmodel.flights.symm.trans hflies.flights
  have hland : kldLand n w s (readTag (landDue n s) e) = kldLand n w s (tagAt (landDue n s) e) := by
    have hlist := List.append_cancel_left hflights
    simp only [List.map_cons, List.map_nil, List.cons.injEq, and_true, Flight.mk.injEq, true_and] at hlist
    exact hlist
  exact kldLand_inj hlc hland

end

/-- A facet about to issue a KLD of a tagged word whose crown is in compatibility mode (CRN_CTL.COMPAT), and which the shared port has written
in this FCLK: the write clears the tag, and reads of the facet's port still find the old word (R232). -/
def writtenUnderKld : State :=
  writeWord .steward 2 0x010000000060 (List.replicate 16 0) false { rset (crownReg 0 0) 1 Tests.ready with tags := [0x010000000060] }

theorem issuesAlone_writtenUnderKld : IssuesAlone 0 (op .kld (Tests.sample .kld)) writtenUnderKld := Tests.issuesAlone_of (by decide +kernel)
theorem segments_writtenUnderKld :
    segments (seen 0 writtenUnderKld) (Tests.sample .kld).b (.sc 16 false true) = [(0x010000000060, 16)] := by decide +kernel
theorem readTag_writtenUnderKld : readTag (landDue 0 writtenUnderKld) 0x010000000060 = true := by decide +kernel
theorem tagAt_writtenUnderKld : tagAt (landDue 0 writtenUnderKld) 0x010000000060 = false := by decide +kernel

/-- Refutes O26: the clause on KLD takes the tag as the word stands, but in compatibility mode a KLD that meets a write of the same FCLK by
another port reads the old word with its old tag (R232), as `exec_kld` says. -/
theorem not_capabilityOperationResult : ¬ Obligations.CapabilityOperationResult := by
  intro hclaim
  have h := readTag_eq_tagAt_of_claim hclaim issuesAlone_writtenUnderKld (by decide +kernel) segments_writtenUnderKld
  rw [show ((0 : Fin 128) : Nat) = 0 from rfl, readTag_writtenUnderKld, tagAt_writtenUnderKld] at h
  cases h

end Sys2Proof.Proofs

namespace Sys2Proof.Proofs
open Sys2Proof Sys2Proof.Machine Sys2Proof.Claims Sys2Proof.Laws

/-! ### Control operations that write their facet at issue -/

section
variable {n : Fin 128} {o : Op} {w : OpW} {s x : State} {ls : List Land} {wr : Facet → Facet}

/-- The state once a control operation has put `ls` in flight behind its pointer moves and written its facet by `wr`. -/
def wrote (n : Fin 128) (o : Op) (s : State) (ls : List Land) (wr : Facet → Facet) : State :=
  updFacet n wr (flyAll n 1 ls (flyAll n 1 (opUpdates (seen n s) o) (acting n o s)))

theorem facet_wrote (n : Fin 128) (o : Op) (s : State) (ls : List Land) (wr : Facet → Facet) : ∃ landed replay ready,
    facet (wrote n o s ls wr) n = wr { seen n s with
      landed := landed, replay := replay, ready := ready,
      flights := (seen n s).flights ++ ((opUpdates (seen n s) o).map fun l => ⟨1, l⟩) ++ ls.map fun l => ⟨1, l⟩ } := by
  obtain ⟨landed, replay, ready, hact⟩ := acting_facet n o s
  exact ⟨landed, replay, ready, by rw [wrote, facet_updFacet_same, facet_flyAll, facet_flyAll, hact]⟩
theorem elsewhereSame_wrote (n : Fin 128) (o : Op) (s : State) (ls : List Land) (wr : Facet → Facet) :
    elsewhereSame n (acting n o s) (wrote n o s ls wr) :=
  elsewhereSame_of_onlyFacet (onlyFacet_trans (onlyFacet_trans (flyAll_onlyFacet ..) (flyAll_onlyFacet ..)) (onlyFacet_updFacet ..))
theorem wrote_wait (h : IssuesAlone n o s) (hwait : ∀ f, (wr f).wait = f.wait) : (facet (wrote n o s ls wr) n).wait = .none := by
  rw [wrote, facet_updFacet_same, hwait, flyAll_wait, flyAll_wait]
  exact acting_wait h

/-- A control operation that sets no stall retires. -/
theorem exec_wrote {k : OpKind} {i : Fin 128 → OpW → Instr} (hi : (k, i) ∈ controlOps) (hk : k ≠ .retx) (h : IssuesAlone n (op k w) s)
    (hacted : acted n (op k w) s = wrote n (op k w) s ls wr) (hwait : ∀ f, (wr f).wait = f.wait) :
    exec (i n w) s = .next (retire n (seen n s) [op k w] (wrote n (op k w) s ls wr)) := by
  refine (exec_alone (mem_facetOps_of_class (l := controlOps) (by simp) hi) h).trans ?_
  rw [hacted, afterAct_retires (by rwa [op_kind]) (wrote_wait h hwait)]

/-- A retired bundle of one, whose operation wrote its facet so that it differs from `g` in what is in flight and counted only. -/
theorem controls_retire {g : Facet} {landed : List Nat} {replay : BitVec 64} {ready : Nat}
    (hx : facet x n = { g with
      landed := landed, replay := replay, ready := ready,
      flights := (seen n s).flights ++ ((opUpdates (seen n s) o).map fun l => ⟨1, l⟩) ++ ls.map fun l => ⟨1, l⟩ })
    (hpc : g.pc = (seen n s).pc) (hpbt : g.pbt = (seen n s).pbt) (helse : elsewhereSame n (acting n o s) x) :
    Controls n o s ls g (retire n (seen n s) [o] x) := by
  have hr := retired n (seen n s) [o] x
  obtain ⟨_, _, _, _, _, _, _, _, _, _, _, _, _, hs⟩ := hr.same
  exact {
    flights := by rw [hs, hx]
    registers := by rw [Retired.kept_eq hr, hx]; rfl
    pc := hr.pc (by rw [hx]; exact hpc) (by rw [hx]; exact hpbt)
    bundle := by rw [hs]
    others := fun m hm => (hr.others m hm).trans ((helse.1 m hm).trans (acting_others n o s m hm))
    rest := (congrArg (fun u : State => { u with marks := [] }) hr.rest).trans (helse.2.trans (acting_rest n o s)) }

end

/-! ### Event flags -/

/-- The facet without the event flags of a mask. -/
def withoutFlags (m : BitVec 16) (f : Facet) : Facet := { f with ef := f.ef &&& ~~~m }

section
variable {n : Fin 128} {o : Op} {w : OpW} {s : State} {ls : List Land} {m : BitVec 16}

theorem controls_withoutFlags :
    Controls n o s ls (withoutFlags m (seen n s)) (retire n (seen n s) [o] (wrote n o s ls (withoutFlags m))) := by
  obtain ⟨_, _, _, hx⟩ := facet_wrote n o s ls (withoutFlags m)
  exact controls_retire hx rfl rfl (elsewhereSame_wrote ..)

theorem exec_efclr (h : IssuesAlone n (op .efclr w) s) : ∃ t, exec (.efclr n w) s = .next t ∧
    Controls n (op .efclr w) s [] (withoutFlags (BitVec.ofNat 16 (operand n (op .efclr w) s 1)) (seen n s)) t :=
  ⟨_, exec_wrote (k := .efclr) (by simp [controlOps]) (by decide) h (acted_control h rfl (by simp [op_kind])) fun _ => rfl,
    controls_withoutFlags⟩

/-- The result of an EFTST: the flags of its mask that are set. -/
def flagLand (n : Fin 128) (w : OpW) (s : State) : Land :=
  gLand (seen n s) w.a (((seen n s).ef &&& BitVec.ofNat 16 (operand n (op .eftst w) s 1)).setWidth 64)
theorem doControl_eftst (x : State) : doControl (landDue n s) n (seen n s) [] 1 (op .eftst w) x =
    if spImm w.c = 1 then updFacet n (withoutFlags (BitVec.ofNat 16 (operand n (op .eftst w) s 1))) (putFlight n 1 (flagLand n w s) x)
    else putFlight n 1 (flagLand n w s) x := rfl

theorem exec_eftst_clearing (h : IssuesAlone n (op .eftst w) s) (hclr : spImm w.c = 1) : ∃ t, exec (.eftst n w) s = .next t ∧
    Controls n (op .eftst w) s [flagLand n w s] (withoutFlags (BitVec.ofNat 16 (operand n (op .eftst w) s 1)) (seen n s)) t := by
  have hacted : acted n (op .eftst w) s =
      wrote n (op .eftst w) s [flagLand n w s] (withoutFlags (BitVec.ofNat 16 (operand n (op .eftst w) s 1))) :=
    (acted_control h rfl (by simp [op_kind])).trans ((doControl_eftst _).trans (if_pos hclr))
  exact ⟨_, exec_wrote (k := .eftst) (by simp [controlOps]) (by decide) h hacted fun _ => rfl, controls_withoutFlags⟩
theorem exec_eftst_reading (h : IssuesAlone n (op .eftst w) s) (hclr : spImm w.c ≠ 1) :
    ∃ t, exec (.eftst n w) s = .next t ∧ Controls n (op .eftst w) s [flagLand n w s] (seen n s) t := by
  obtain ⟨t, ht, hflies⟩ := exec_controlLands (p := (.eftst, .eftst)) (ls := [flagLand n w s])
    (mem_facetOps_of_class (l := controlOps) (by simp) (by simp [controlOps])) rfl (by decide) (by decide) h
    fun x => (doControl_eftst x).trans (if_neg hclr)
  exact ⟨t, ht, controls_of_flies hflies⟩

end

/-- Settles O20: EFCLR only clears flags of its facet; EFTST flies what it reads of them, with CLR = 1 before it clears them. -/
theorem eventFlagOperations : Obligations.EventFlagOperations := by
  intro n w s f mask
  refine ⟨exec_efclr, fun h => ?eftst⟩
  by_cases hclr : spImm w.c = 1
  · obtain ⟨t, ht, hcontrols⟩ := exec_eftst_clearing h hclr
    exact ⟨t, ht, by rw [if_pos hclr]; exact hcontrols⟩
  · obtain ⟨t, ht, hcontrols⟩ := exec_eftst_reading h hclr
    exact ⟨t, ht, by rw [if_neg hclr]; exact hcontrols⟩

end Sys2Proof.Proofs

namespace Sys2Proof.Proofs
open Sys2Proof Sys2Proof.Machine Sys2Proof.Claims Sys2Proof.Laws

/-! ### Counts and specifier fields of LOOP and REP -/

/-- A count field of LOOP or REP, where 0 stands for 65,536 (R144, R153). -/
def countOf (c : Nat) : Nat := if c = 0 then 65536 else c

theorem countOf_lt {c : Nat} (h : c ≤ 65536) : countOf c < 2 ^ 17 := by
  unfold countOf
  split <;> omega

theorem fld_loopCount {l c : Nat} (hc : c < 2 ^ 17) : fld (BitVec.ofNat 64 (l * 2 ^ 17 + c)) 0 17 = c := by
  rw [fld, BitVec.toNat_ofNat]
  omega
theorem fld_loopStatus {l c : Nat} (hl : l < 4) (hc : c < 2 ^ 17) : fld (BitVec.ofNat 64 (l * 2 ^ 17 + c)) 17 2 = l := by
  rw [fld, BitVec.toNat_ofNat]
  omega

theorem setWidth_and_0x3FF (b : BitVec 12) : (b &&& 0x3FF).setWidth 15 = (b.setWidth 10).setWidth 15 := by
  refine BitVec.eq_of_toNat_eq ?_
  have hmask : (b &&& 0x3FF).toNat = (b.setWidth 10).toNat := by
    rw [BitVec.toNat_and, BitVec.toNat_setWidth]
    exact Nat.and_two_pow_sub_one_eq_mod _ 10
  rw [BitVec.toNat_setWidth, hmask, BitVec.toNat_setWidth _ (b.setWidth 10)]
theorem toNat_and_0x7FF (c : BitVec 12) : (c &&& 0x7FF).toNat = (c.setWidth 11).toNat := by
  rw [BitVec.toNat_and, BitVec.toNat_setWidth]
  exact Nat.and_two_pow_sub_one_eq_mod _ 11

/-! ### LOOP -/

/-- The facet with its loop registers, and the values that the loop-end logic still uses, replaced. -/
def withLoops (old : List LoopOld) (ls le lc : List (Nat × BitVec 64)) (f : Facet) : Facet := { f with loopOld := old, ls := ls, le := le, lc := lc }

section
variable (old : List LoopOld) (ls le lc : List (Nat × BitVec 64)) (f : Facet)

theorem withLoops_wait : (withLoops old ls le lc f).wait = f.wait := rfl
theorem withLoops_fs : (withLoops old ls le lc f).fs = f.fs := rfl
theorem unbranched_withLoops : unbranched (withLoops old ls le lc f) = unbranched f := rfl

end

/-- The facet with a LOOP of level `l` set up; the loop-end logic still uses the level's values of before (R145). -/
def loopSet (l : Nat) (start stop : BitVec 15) (cnt : BitVec 64) (f : Facet) : Facet :=
  withLoops (f.loopOld ++ [⟨2, l, tget 0 f.lc l, tget 0 f.ls l, tget 0 f.le l⟩]) (tset 0 f.ls l (start.setWidth 64 <<< 3))
    (tset 0 f.le l (stop.setWidth 64 <<< 3)) (tset 0 f.lc l cnt) f

section
variable {n : Fin 128} {o : Op} {w : OpW} {s : State}

/-- The check of an operation's own comes last, behind those of its operands (R83). -/
theorem opCheck_eq_none_of_opCause {x : State} {m : Nat} {f : Facet} {lits : List (BitVec 48)} {earlier : List Nat}
    (h : opCause x m f lits earlier o = none) : opCheck x m f lits earlier o = none := by
  unfold opCause at h
  dsimp only at h
  split at h; · cases h
  split at h; · cases h
  split at h; · cases h
  split at h; · cases h
  exact h

/-- No check of an operation that issues alone fails. -/
theorem opCause_eq_none (h : IssuesAlone n o s) : opCause (landDue n s) n (seen n s) (bundleLits [o]) [] o = none := by
  have hpass := h.passes
  unfold bundleCause at hpass
  dsimp only at hpass
  split at hpass; · cases hpass
  split at hpass; · cases hpass
  rename_i hops
  rw [opsCause, if_neg (by simp [h.unguarded])] at hops
  split at hops; · cases hops
  assumption

/-- A LOOP whose count is above 65,536 does not issue (R144). -/
theorem loopCount_le (h : IssuesAlone n (op .loop w) s) : operand n (op .loop w) s 0 ≤ 65536 := by
  have hcheck := opCheck_eq_none_of_opCause (opCause_eq_none h)
  change (if 65536 < operand n (op .loop w) s 0 then some 3 else none) = none at hcheck
  by_contra hlarge
  rw [if_pos (by omega)] at hcheck
  cases hcheck

/-- The operation indices of the first and the last body bundle of a LOOP. -/
def loopStart (n : Fin 128) (w : OpW) (s : State) : BitVec 15 := (seen n s).pc + ((spImm w.b).setWidth 10).setWidth 15
def loopStop (n : Fin 128) (w : OpW) (s : State) : BitVec 15 := loopStart n w s + (spImm w.c).setWidth 15
/-- LC of a LOOP: its count, and the handler level as OWN. -/
def loopLC (n : Fin 128) (w : OpW) (s : State) : BitVec 64 :=
  BitVec.ofNat 64 (fsLVL (seen n s).fs * 2 ^ 17 + countOf (operand n (op .loop w) s 0))
/-- What a LOOP writes. -/
def loopWrites (n : Fin 128) (w : OpW) (s : State) : Facet → Facet :=
  loopSet (spImm w.b >>> 10).toNat (loopStart n w s) (loopStop n w s) (loopLC n w s)

theorem doControl_loop (x : State) : doControl (landDue n s) n (seen n s) [] 1 (op .loop w) x = updFacet n (loopWrites n w s) x := by
  rw [loopWrites, loopStop, loopStart, ← setWidth_and_0x3FF]
  rfl
theorem acted_loop (h : IssuesAlone n (op .loop w) s) : acted n (op .loop w) s = wrote n (op .loop w) s [] (loopWrites n w s) :=
  (acted_control h rfl (by simp [op_kind])).trans (doControl_loop _)

theorem exec_loop (h : IssuesAlone n (op .loop w) s) :
    exec (.loop n w) s = .next (retire n (seen n s) [op .loop w] (wrote n (op .loop w) s [] (loopWrites n w s))) :=
  exec_wrote (k := .loop) (by simp [controlOps]) (by decide) h (acted_loop h) fun _ => withLoops_wait ..

/-- The loop registers behind a LOOP. -/
theorem loopRegisters (n : Fin 128) (w : OpW) (s : State) :
    let t := retire n (seen n s) [op .loop w] (wrote n (op .loop w) s [] (loopWrites n w s))
    let l := (spImm w.b >>> 10).toNat
    (facet t n).ls = tset 0 (seen n s).ls l ((loopStart n w s).setWidth 64 <<< 3) ∧
      (facet t n).le = tset 0 (seen n s).le l ((loopStop n w s).setWidth 64 <<< 3) ∧
      (facet t n).lc = tset 0 (seen n s).lc l (loopLC n w s) := by
  obtain ⟨_, _, _, hx⟩ := facet_wrote n (op .loop w) s [] (loopWrites n w s)
  obtain ⟨_, _, _, _, _, _, _, _, _, _, _, _, _, ht⟩ :=
    (retired n (seen n s) [op .loop w] (wrote n (op .loop w) s [] (loopWrites n w s))).same
  refine ⟨?_, ?_, ?_⟩ <;> (rw [ht, hx]; rfl)

end

/-! ### REP -/

/-- REPC with `c` issues to come of the bundle at index `i`. -/
def repLatched (c : Nat) (i : BitVec 15) (r : BitVec 64) : BitVec 64 := setFld (setFld r 32 17 c) 49 15 i.toNat

theorem fld_repLatched_left {c : Nat} (hc : c < 2 ^ 17) (i : BitVec 15) (r : BitVec 64) : fld (repLatched c i r) 32 17 = c := by
  rw [repLatched, fld_setFld_apart _ (by omega), fld_setFld_same _ _ _ _ (by omega), Nat.mod_eq_of_lt hc]
theorem fld_repLatched_index (c : Nat) (i : BitVec 15) (r : BitVec 64) : fld (repLatched c i r) 49 15 = i.toNat := by
  rw [repLatched, fld_setFld_same _ _ _ _ (by omega), Nat.mod_eq_of_lt i.isLt]

/-- The facet about to issue a repeated bundle first, with REPC `r`. -/
def repeatsWith (r : BitVec 64) (f : Facet) : Facet := { f with repc := r, repeating := true, repFirst := true }

theorem repeatsWith_wait (r : BitVec 64) (f : Facet) : (repeatsWith r f).wait = f.wait := rfl
theorem repeatsWith_repc (r : BitVec 64) (f : Facet) : (repeatsWith r f).repc = r := rfl
theorem repeatsWith_repeating (r : BitVec 64) (f : Facet) : (repeatsWith r f).repeating = true := rfl
theorem kept_repeatsWith (r : BitVec 64) (f : Facet) : kept (repeatsWith r f) = kept f := rfl

section
variable {n : Fin 128} {w : OpW} {s : State}

/-- The count that a REP names. -/
def repCount (n : Fin 128) (w : OpW) (s : State) : Nat :=
  if (spImm w.c).getLsbD 11 then fld (seen n s).repc 0 16 else ((spImm w.c).setWidth 11).toNat
theorem repCount_le (n : Fin 128) (w : OpW) (s : State) : repCount n w s ≤ 65536 := by
  unfold repCount
  split
  · exact (fld_lt ..).le
  · have := ((spImm w.c).setWidth 11).isLt
    omega

/-- What a REP writes. -/
def repWrites (n : Fin 128) (w : OpW) (s : State) (f : Facet) : Facet :=
  repeatsWith (repLatched (countOf (repCount n w s)) ((seen n s).pc + 1) f.repc) f

theorem doControl_rep (x : State) : doControl (landDue n s) n (seen n s) [] 1 (op .rep w) x = updFacet n (repWrites n w s) x := by
  unfold repWrites repCount
  rw [← toNat_and_0x7FF]
  rfl
theorem acted_rep (h : IssuesAlone n (op .rep w) s) : acted n (op .rep w) s = wrote n (op .rep w) s [] (repWrites n w s) :=
  (acted_control h rfl (by simp [op_kind])).trans (doControl_rep _)

theorem exec_rep (h : IssuesAlone n (op .rep w) s) :
    exec (.rep n w) s = .next (retire n (seen n s) [op .rep w] (wrote n (op .rep w) s [] (repWrites n w s))) :=
  exec_wrote (k := .rep) (by simp [controlOps]) (by decide) h (acted_rep h) fun _ => repeatsWith_wait ..

end

/-- Settles O19: what a LOOP or REP writes stands when its bundle, which is no delay bundle and not repeated, has retired. -/
theorem loopAndRepeat : Obligations.LoopAndRepeat := by
  intro n w s hrep f
  refine ⟨fun h => ?loop, fun h => ?rep⟩
  case loop =>
    intro l start x
    have hcount := countOf_lt (loopCount_le h)
    obtain ⟨hls, hle, hlc⟩ := loopRegisters n w s
    obtain ⟨_, _, _, hx⟩ := facet_wrote n (op .loop w) s [] (loopWrites n w s)
    have hb := branchRetired hrep (noDelay_of_barred h rfl) (elsewhereSame_wrote n (op .loop w) s [] (loopWrites n w s))
    refine ⟨_, exec_loop h, ?_, ?_, ?_, ?_, hb.pc, ?_, ?_, fun k hk => ⟨?_, ?_, ?_⟩, hb.rest⟩
    · rw [hls]; exact tget_tset_self ..
    · rw [hle]; exact tget_tset_self ..
    · rw [hlc, tget_tset_self]; exact fld_loopCount hcount
    · rw [hlc, tget_tset_self]; exact fld_loopStatus (fld_lt ..) hcount
    · rw [hb.unbranched, hx, loopWrites, loopSet, unbranched_withLoops]; rfl
    · rw [hb.fs, hx, loopWrites, loopSet, withLoops_fs]
    · rw [hlc]; exact tget_tset_ne _ _ _ hk
    · rw [hls]; exact tget_tset_ne _ _ _ hk
    · rw [hle]; exact tget_tset_ne _ _ _ hk
  case rep =>
    intro c
    have hr := retired n (seen n s) [op .rep w] (wrote n (op .rep w) s [] (repWrites n w s))
    obtain ⟨_, _, _, hx⟩ := facet_wrote n (op .rep w) s [] (repWrites n w s)
    obtain ⟨hrepc, hrepeating⟩ := hr.repc hrep
    have hb := branchRetired hrep (noDelay_of_barred h rfl) (elsewhereSame_wrote n (op .rep w) s [] (repWrites n w s))
    refine ⟨_, exec_rep h, ?_, ?_, ?_, hb.pc, ?_, hb.rest⟩
    · rw [hrepeating, hx, repWrites, repeatsWith_repeating]
    · rw [hrepc, hx, repWrites, repeatsWith_repc]; exact fld_repLatched_left (countOf_lt (repCount_le n w s)) ..
    · rw [hrepc, hx, repWrites, repeatsWith_repc]; exact fld_repLatched_index ..
    · rw [Retired.kept_eq hr, hx, repWrites, kept_repeatsWith]; rfl

end Sys2Proof.Proofs

namespace Sys2Proof.Proofs
open Sys2Proof Sys2Proof.Machine Sys2Proof.Claims Sys2Proof.Laws

/-! ### Exception entry: the facet that stands at its handler -/

/-- FS in a handler of level `l`: KB = 1, IE = DS = RES = 0, and its cause in CAUSE (R185). -/
def handlerFs (l cause : Nat) (fs : BitVec 64) : BitVec 64 :=
  setFld (setFld (setFld (setFld (setFld (setFld fs 1 2 l) 3 1 1) 0 1 0) 16 6 cause) 4 2 0) 6 1 0

theorem bit_setFld_zero {m i : Nat} (x : BitVec m) (h : i < m) : bit (setFld x i 1 0) i = false := bit_setBit_same x false h

section
variable (l cause : Nat) (fs : BitVec 64)

theorem fsLVL_handlerFs {l : Nat} (hl : l < 4) : fsLVL (handlerFs l cause fs) = l := by
  rw [fsLVL, handlerFs, fld_setFld_apart _ (by omega), fld_setFld_apart _ (by omega), fld_setFld_apart _ (by omega),
    fld_setFld_apart _ (by omega), fld_setFld_apart _ (by omega), fld_setFld_same _ _ _ _ (by omega)]
  exact Nat.mod_eq_of_lt hl
theorem fsKB_handlerFs : fsKB (handlerFs l cause fs) = 1 := by
  rw [fsKB, handlerFs, fld_setFld_apart _ (by omega), fld_setFld_apart _ (by omega), fld_setFld_apart _ (by omega),
    fld_setFld_apart _ (by omega), fld_setFld_same _ _ _ _ (by omega)]
  rfl
theorem fsIE_handlerFs : fsIE (handlerFs l cause fs) = false := by
  rw [fsIE, handlerFs, bit_setFld_apart _ (by omega), bit_setFld_apart _ (by omega), bit_setFld_apart _ (by omega),
    bit_setFld_zero _ (by omega)]
theorem fsCAUSE_handlerFs : fsCAUSE (handlerFs l cause fs) = cause % 64 := by
  rw [fsCAUSE, handlerFs, fld_setFld_apart _ (by omega), fld_setFld_apart _ (by omega), fld_setFld_same _ _ _ _ (by omega)]
  rfl
theorem fsDS_handlerFs : fsDS (handlerFs l cause fs) = 0 := by
  rw [fsDS, handlerFs, fld_setFld_apart _ (by omega), fld_setFld_same _ _ _ _ (by omega)]
  rfl
theorem fsRES_handlerFs : fsRES (handlerFs l cause fs) = false := by
  rw [fsRES, handlerFs, bit_setFld_zero _ (by omega)]

end

/-- What FS.CAUSE and the vector of an entry into level `l` take as its cause: 0x10 at level 3 (R199). -/
def handlerCause (l cause : Nat) : Nat := if l = 3 then 0x10 else cause

/-- What an entry into level `l` makes of the facet, field by field. -/
theorem enterLevel_eq (e1 l cause : Nat) (target : Option (BitVec 15)) (f : Facet) : enterLevel e1 l cause target f =
    { f with xpc := tset 0 f.xpc l (f.pc.setWidth 64 <<< 3), xst := tset 0 f.xst l f.fs, fs := handlerFs l (handlerCause l cause) f.fs,
             resv := none, remotes := f.remotes.map (fun (r : Remote) => { r with stale := true }), repeating := false, repFirst := false,
             hold := 0, shadows := [], landed := [], loopOld := [], lpWas := [], ready := e1 + 4, e4 := some (e1 + 3), second := false,
             g := if l = 3 then tset 0 f.g 95 (BitVec.ofNat 64 cause) else f.g, pc := target.getD (vectorIdx f (handlerCause l cause)) } := by
  by_cases hl : l = 3 <;> cases target <;>
    simp only [enterLevel, handlerFs, handlerCause, vectorIdx, hl, if_true, if_false, Option.getD_none, Option.getD_some]

/-- The facet with nothing presented or due; `e` is the entry that is taken. -/
def discarded (e : Entry) (f : Facet) : Facet :=
  { f with fs := savedFs f f.fs, wait := .none, bundle := [], presented := none, due := none,
           holdDue := if e = .hold then false else f.holdDue, remErr := if e = .remote then false else f.remErr }
theorem clearEntry_eq (n : Nat) (e : Entry) (s : State) : clearEntry n e s = updFacet n (discarded e) s := by
  unfold clearEntry updFacet discarded savedFs
  cases (facet s n).wait <;> rfl

/-- A KENTER writes K registers of its facet and nothing else. -/
theorem facet_kenterRegs (n : Nat) (e : Entry) (s : State) : ∃ k, facet (kenterRegs n e s) n = { facet s n with k := k } := by
  unfold kenterRegs
  split
  · exact ⟨_, facet_updFacet_same ..⟩
  · exact ⟨_, rfl⟩
theorem onlyFacet_kenterRegs (n : Nat) (e : Entry) (s : State) : onlyFacet n s (kenterRegs n e s) := by
  unfold kenterRegs
  split
  · exact onlyFacet_updFacet ..
  · exact onlyFacet_refl ..

theorem drain_wait (n : Fin 128) (k : Nat) (s : State) : (facet (drain k n s) n).wait = (facet s n).wait := by
  induction k generalizing s with
  | zero => rfl
  | succ k ih =>
    rw [drain]
    split
    · rfl
    · exact (ih _).trans (seen_wait n s)

/-- An entry goes to a handler of level 1, 2 or 3. -/
theorem entryLevel_lt {e : Entry} {lvl l : Nat} (h : entryLevel e lvl = some l) : l < 4 := by
  unfold entryLevel at h
  split at h
  · split at h <;> cases h <;> decide
  · split at h
    · cases h; decide
    · split at h <;> cases h; decide

section
variable {n : Fin 128} {e : Entry} {s u : State} {l : Nat}

/-- The state in which the facet, drained and with nothing left due, has entered level `l`; its long operation stood at `u`. -/
def handling (n : Fin 128) (e : Entry) (l : Nat) (u : State) : State :=
  kenterRegs n e (updFacet n (enterLevel (u.fclk + drainLen (facet u n)) l (entryCause e) (entryTarget n e)) (clearEntry n e (drainFacet n u)))

theorem onlyFacet_handling : onlyFacet n (drainFacet n u) (handling n e l u) := by
  rw [handling, clearEntry_eq]
  exact onlyFacet_trans (onlyFacet_trans (onlyFacet_updFacet ..) (onlyFacet_updFacet ..)) (onlyFacet_kenterRegs ..)
theorem facet_handling : ∃ k, facet (handling n e l u) n =
    { enterLevel (u.fclk + drainLen (facet u n)) l (entryCause e) (entryTarget n e) (discarded e (facet (drainFacet n u) n)) with k := k } := by
  obtain ⟨k, hk⟩ := facet_kenterRegs n e
    (updFacet n (enterLevel (u.fclk + drainLen (facet u n)) l (entryCause e) (entryTarget n e)) (clearEntry n e (drainFacet n u)))
  exact ⟨k, by rw [handling, hk, clearEntry_eq, facet_updFacet_same, facet_updFacet_same]⟩

/-- FS as it is saved says whether a long operation waited before the drain (R130). -/
theorem savedFs_drainFacet (fs : BitVec 64) : savedFs (facet (drainFacet n u) n) fs = savedFs (facet u n) fs := by
  unfold savedFs
  rw [drainFacet, drain_wait]

/-- The state at the boundary at which facet `n` takes an entry. -/
abbrev entryBoundary (n : Fin 128) (s : State) : State := advanceTo (boundaryAt s n) s

theorem exec_exceptionEntry (hcan : canEnter (entryBoundary n s) n = true) (hfirst : firstEntry (entryBoundary n s) n = some e) :
    exec (.exceptionEntry n) s = .next (takeEntry n e (entryBoundary n s)) := by
  change execExceptionEntry n s = _
  rw [execExceptionEntry, if_pos hcan, hfirst]

theorem takeEntry_enters (hlvl : entryLevel e (fsLVL (facet (boundary n s) n).fs) = some l)
    (hxvb : bit (facet (drainFacet n (boundary n s)) n).xvb 0 = true) : takeEntry n e s = handling n e l (boundary n s) := by
  rw [boundary] at hlvl hxvb ⊢
  simp only [takeEntry, hlvl, hxvb, Bool.not_true, Bool.false_eq_true, if_false, handling]
theorem takeEntry_thirdFault (hlvl : entryLevel e (fsLVL (facet (boundary n s) n).fs) = none) :
    takeEntry n e s = facetReset n 1 (entryCause e) (atFault n e (boundary n s)) := by
  rw [boundary] at hlvl ⊢
  simp only [takeEntry, hlvl]
theorem takeEntry_noVectors (hlvl : entryLevel e (fsLVL (facet (boundary n s) n).fs) ≠ none)
    (hxvb : bit (facet (drainFacet n (boundary n s)) n).xvb 0 = false) :
    takeEntry n e s = facetReset n 2 (entryCause e) (atFault n e (drainFacet n (boundary n s))) := by
  obtain ⟨l, hl⟩ := Option.ne_none_iff_exists'.1 hlvl
  rw [boundary] at hl hxvb ⊢
  simp only [takeEntry, hl, hxvb, Bool.not_false, if_true]

end

theorem exceptionEntryTaken : ExceptionEntryTaken := by
  intro n s e l v hcan hfirst u d fs cause hlvl hxvb
  obtain ⟨k, hk⟩ := facet_handling (n := n) (e := e) (l := l) (u := u)
  rw [enterLevel_eq] at hk
  have hl : l < 4 := entryLevel_lt hlvl
  have hsaved : savedFs (facet d n) (facet d n).fs = fs := savedFs_drainFacet ..
  refine ⟨handling n e l u, (exec_exceptionEntry hcan hfirst).trans (congrArg _ (takeEntry_enters hlvl hxvb)), onlyFacet_handling, ?xpc, ?xst,
    ?lvl, ?kb, ?ie, ?causeField, ?ds, ?res, ?pc, ?resv, ?repeating, ?bundle, ?presented, ?wait, ?due, ?ready, fun i hi => ⟨?otherXpc, ?otherXst⟩,
    ?w, ?a, ?acc, fun r hr => ?g, fun h3 => ?g95⟩ <;> simp only [hk]
  case xpc => exact tget_tset_self ..
  case xst => exact (tget_tset_self ..).trans hsaved
  case lvl => exact fsLVL_handlerFs _ _ hl
  case kb => exact fsKB_handlerFs ..
  case ie => exact fsIE_handlerFs ..
  case causeField => exact fsCAUSE_handlerFs ..
  case ds => exact fsDS_handlerFs ..
  case res => exact fsRES_handlerFs ..
  case otherXpc => exact tget_tset_ne _ _ _ hi
  case otherXst => exact tget_tset_ne _ _ _ hi
  case g =>
    split
    · exact tget_tset_ne _ _ _ fun h => hr ⟨‹_›, h⟩
    · rfl
  case g95 =>
    rw [if_pos h3]
    exact tget_tset_self ..
  all_goals rfl

theorem exceptionEntryResets : ExceptionEntryResets := by
  intro n s e v hcan hfirst u
  exact ⟨fun hlvl => (exec_exceptionEntry hcan hfirst).trans (congrArg _ (takeEntry_thirdFault hlvl)),
    fun hlvl hxvb => (exec_exceptionEntry hcan hfirst).trans (congrArg _ (takeEntry_noVectors hlvl hxvb))⟩

/-- Settles O23, from what `enterLevel` writes and the three ways in which `takeEntry` ends. -/
theorem exceptionEntry : Obligations.ExceptionEntry := ⟨exceptionEntryTaken, exceptionEntryResets⟩

end Sys2Proof.Proofs

namespace Sys2Proof.Proofs
open Sys2Proof Sys2Proof.Machine Sys2Proof.Claims Sys2Proof.Laws

/-! ### What landing results leave of the state -/

/-- The state without what landing results can write: stores and their records, registers, facets, interrupt sources. -/
def offLandings (s : State) : State :=
  { s with regs := [], hits := [], mem := [], tags := [], vbits := [], raw := [], marks := [], facets := [], ints := [], intc := [], intWas := [] }

theorem logEvents_offLandings (u : Nat) (evs : List LogEvent) (s : State) : offLandings (logEvents u evs s) = offLandings s := by
  have h := congrArg offLandings (logEvents_offLog u evs s)
  simpa only [offLandings, offLog] using h
theorem noteReads_offLandings (port : Nat) (words : List Nat) (s : State) : offLandings (noteReads port words s) = offLandings s := by
  unfold noteReads
  refine foldl_keeps (part := offLandings) (fun s w => ?_) words s
  split
  · split
    · rfl
    · exact logEvents_offLandings ..
  · rfl
theorem dropBack_offLandings (w : Nat) (s : State) : offLandings (dropBack w s) = offLandings s := by unfold dropBack; split <;> simp [offLandings]
theorem laterFclk_offLandings (rank w : Nat) (s : State) : offLandings (laterFclk rank w s) = offLandings s := by
  unfold laterFclk; split <;> simp [offLandings]
theorem rawWrite_offLandings (w : Nat) (m : BitVec 16) (tag : Bool) (s : State) : offLandings (rawWrite w m tag s) = offLandings s := by
  unfold rawWrite; split <;> simp [offLandings]
theorem hostLost_offLandings (a : Nat) (s : State) : offLandings (hostLost a s) = offLandings s := by unfold hostLost; split <;> simp [offLandings]
theorem reportLoss_offLandings (a : Nat) (who : Agent) (s : State) : offLandings (reportLoss a who s) = offLandings s := by
  cases who with
  | host => exact hostLost_offLandings ..
  | fabric => exact hostLost_offLandings ..
  | facet n => simp [offLandings, reportLoss]
  | mover k => simp [offLandings, reportLoss]
  | steward => rfl
  | blocker b => rfl
  | loader => rfl
theorem tellLoss_offLandings (a : Nat) (who : Agent) (id : Nat) (s : State) : offLandings (tellLoss a who id s) = offLandings s := by
  unfold tellLoss
  split
  · rfl
  · exact (reportLoss_offLandings ..).trans (by simp [offLandings])
theorem markRewritten_offLandings (w : Nat) (s : State) : offLandings (markRewritten w s) = offLandings s :=
  foldl_keeps (part := offLandings) (fun _ _ => by simp [offLandings]) ..
theorem dropResv_offLandings (w : Nat) (who : Agent) (s : State) : offLandings (dropResv w who s) = offLandings s :=
  foldl_keeps (part := offLandings) (g := fun s (p : Nat × Facet) => setFacet p.1 { p.2 with resv := none } s) (fun _ _ => by simp [offLandings]) _ s
theorem writeWord_offLandings (who : Agent) (rank a : Nat) (bs : List Byte) (tag : Bool) (s : State) :
    offLandings (writeWord who rank a bs tag s) = offLandings s := by
  unfold writeWord
  extract_lets w s1 m before new here higher lower taken compat eff s2 s3 told mark base s4 s5 s6 s7
  have h1 : offLandings s1 = offLandings s := (laterFclk_offLandings ..).trans (dropBack_offLandings ..)
  have h2 : offLandings s2 = offLandings s1 := by
    unfold s2
    split
    · exact tellLoss_offLandings ..
    · rfl
  have h3 : offLandings s3 = offLandings s2 :=
    foldl_keeps (part := offLandings) (fun s k => by split; exacts [tellLoss_offLandings .., rfl]) lower s2
  have h5 : offLandings s5 = offLandings s3 := (rawWrite_offLandings ..).trans (by simp [offLandings, s4])
  have h7 : offLandings s7 = offLandings s5 := (markRewritten_offLandings ..).trans (by simp [offLandings, s6])
  have hstart := h3.trans (h2.trans h1)
  split
  · exact hstart
  · exact (dropResv_offLandings ..).trans (h7.trans (h5.trans hstart))

theorem intStatSet_offLandings (ctl i : Nat) (s : State) : offLandings (intStatSet ctl i s) = offLandings s := by
  simp [offLandings, intStatSet]
theorem intSysWrite_offLandings (n num : Nat) (v : BitVec 64) (s : State) : offLandings (intSysWrite n num v s) = offLandings s := by
  have hsrc : ∀ (src : Nat) (x : IntSrc) (s : State), offLandings (setIntSrc n src x s) = offLandings s := fun _ _ _ => by simp [offLandings]
  have hctl : ∀ (c : IntCtl) (s : State), offLandings (setIntCtl n c s) = offLandings s := fun _ _ => by simp [offLandings]
  unfold intSysWrite
  dsimp only
  split
  · simp only [intEoi, apply_ite offLandings, hsrc, intStatSet_offLandings, ite_self]
  · simp only [intSetp, apply_ite offLandings, hsrc, intStatSet_offLandings, ite_self]
  · simp only [intClrp, apply_ite offLandings, hsrc, intStatSet_offLandings, ite_self]
  · exact hctl ..
  · simp only [scfgWrite, setFiltered, apply_ite offLandings, hsrc, ite_self]
  · exact hctl ..
  · rfl
theorem landSys_offLandings (n num lvl : Nat) (v : BitVec 64) (s : State) : offLandings (landSys n num lvl v s) = offLandings s := by
  have hput : ∀ (g : Facet) (s : State), offLandings (setFacet n g s) = offLandings s := fun _ _ => by simp [offLandings]
  unfold landSys
  dsimp only
  split <;> simp only [apply_ite offLandings, hput, intSysWrite_offLandings, ite_self]
theorem land1_offLandings (n : Nat) (s0 : State) (l : Land) (s : State) : offLandings (land1 n s0 l s) = offLandings s := by
  have hput : ∀ (g : Facet) (s : State), offLandings (setFacet n g s) = offLandings s := fun _ _ => by simp [offLandings]
  cases l with
  | g r v => simp only [land1, apply_ite offLandings, hput, ite_self]
  | mem a b t => exact writeWord_offLandings ..
  | tas a r =>
    simp only [land1, apply_ite offLandings, updFacet, hput, ite_self]
    exact (writeWord_offLandings ..).trans (noteReads_offLandings ..)
  | sys num lvl v => exact landSys_offLandings ..
  | w i v => exact landSys_offLandings ..
  | a r v => exact hput ..
  | mac i k t b c => exact hput ..
  | accPart i p v => exact hput ..
  | repCount v => exact hput ..
  | k b i v => exact hput ..
  | kclr b i => exact hput ..
theorem landAll_offLandings (n : Nat) (ls : List Land) (s : State) : offLandings (landAll n ls s) = offLandings s := by
  have h := foldl_keeps (part := offLandings) (fun t l => land1_offLandings n s l t) ls s
  unfold landAll
  dsimp only
  split
  · exact Eq.trans (by simp [offLandings]) h
  · exact h

theorem landDue_offLandings (n : Nat) (s : State) : offLandings (landDue n s) = offLandings s :=
  (landAll_offLandings ..).trans (by simp [offLandings])

theorem locks_of_onlyFacet {n : Nat} {s t : State} (h : onlyFacet n s t) : t.locks = s.locks := (congrArg State.locks h.2 :)
theorem locks_of_offLandings {s t : State} (h : offLandings s = offLandings t) : s.locks = t.locks := (congrArg State.locks h :)
/-- The locks of the sealed configuration stand while results land and reads are logged. -/
theorem acting_locks (n : Fin 128) (o : Op) (s : State) : (acting n o s).locks = s.locks := by
  have h : offLandings (atIssue n o s) = offLandings s := (noteReads_offLandings ..).trans (landDue_offLandings n s)
  calc (acting n o s).locks = (atIssue n o s).locks := rfl
    _ = s.locks := locks_of_offLandings h

end Sys2Proof.Proofs

namespace Sys2Proof.Proofs
open Sys2Proof Sys2Proof.Machine Sys2Proof.Claims Sys2Proof.Laws

/-! ### SYSCALL, BRK and KENTER -/

/-- The facet with an entry due at its next boundary. -/
def withDue (d : Due) (f : Facet) : Facet := { f with due := some d }
/-- The facet with RUN = 0: it halts at its next boundary (R194). -/
def withoutRun (f : Facet) : Facet := { f with ctl := setBit f.ctl 0 false }

section
variable {n : Fin 128} {w : OpW} {s : State}

theorem controls_withDue {o : Op} (d : Due) :
    Controls n o s [] (withDue d (seen n s)) (retire n (seen n s) [o] (wrote n o s [] (withDue d))) := by
  obtain ⟨_, _, _, hx⟩ := facet_wrote n o s [] (withDue d)
  exact controls_retire hx rfl rfl (elsewhereSame_wrote ..)
theorem controls_withoutRun {o : Op} :
    Controls n o s [] (withoutRun (seen n s)) (retire n (seen n s) [o] (wrote n o s [] withoutRun)) := by
  obtain ⟨_, _, _, hx⟩ := facet_wrote n o s [] withoutRun
  exact controls_retire hx rfl rfl (elsewhereSame_wrote ..)

/-- An operation that does nothing but make an entry due. -/
theorem exec_withDue {k : OpKind} {i : Fin 128 → OpW → Instr} (hi : (k, i) ∈ controlOps) (hk : k ≠ .retx) {d : Due}
    (h : IssuesAlone n (op k w) s) (hacted : acted n (op k w) s = wrote n (op k w) s [] (withDue d)) :
    ∃ t, exec (i n w) s = .next t ∧ Controls n (op k w) s [] (withDue d (seen n s)) t :=
  ⟨_, exec_wrote hi hk h hacted fun _ => rfl, controls_withDue d⟩

theorem exec_syscall (h : IssuesAlone n (op .syscall w) s) :
    ∃ t, exec (.syscall n w) s = .next t ∧ Controls n (op .syscall w) s [] (withDue .syscall (seen n s)) t :=
  exec_withDue (k := .syscall) (by simp [controlOps]) (by decide) h (acted_control h rfl (by simp [op_kind]))

/-- The entry that a KENTER makes due: its Ks and Kt as they stand when it issues (R195). -/
def kenterDue (n : Fin 128) (w : OpW) (s : State) : Due :=
  .kenter (effK (seen n s) (spImm w.c &&& 15).toNat) (effK (seen n s) ((spImm w.c >>> 4) &&& 15).toNat)
theorem exec_kenter (h : IssuesAlone n (op .kenter w) s) :
    ∃ t, exec (.kenter n w) s = .next t ∧ Controls n (op .kenter w) s [] (withDue (kenterDue n w s) (seen n s)) t :=
  exec_withDue (k := .kenter) (by simp [controlOps]) (by decide) h (acted_control h rfl (by simp [op_kind]))

/-- BRK with C = 1 stops a facet that no sealed configuration locks; else it makes an entry due (R194). -/
theorem doControl_brk (x : State) : doControl (landDue n s) n (seen n s) [] 1 (op .brk w) x =
    if spImm w.c = 1 ∧ n.val ∉ x.locks.facets then updFacet n withoutRun x else updFacet n (withDue .brk) x :=
  if_congr (by rw [Bool.and_eq_true, decide_eq_true_eq, Bool.not_eq_true', List.contains_eq_mem, decide_eq_false_iff_not]; rfl) rfl rfl
theorem acted_brk (h : IssuesAlone n (op .brk w) s) : acted n (op .brk w) s =
    if spImm w.c = 1 ∧ n.val ∉ s.locks.facets then wrote n (op .brk w) s [] withoutRun else wrote n (op .brk w) s [] (withDue .brk) := by
  refine (acted_control h rfl (by simp [op_kind])).trans ((doControl_brk _).trans (if_congr ?_ rfl rfl))
  have hlocks := locks_of_onlyFacet (onlyFacet_trans (flyAll_onlyFacet n 1 (opUpdates (seen n s) (op .brk w)) (acting n (op .brk w) s))
    (flyAll_onlyFacet n 1 (capLands (landDue n s) (seen n s) [] (op .brk w)) _))
  rw [hlocks, acting_locks]

theorem exec_brk (h : IssuesAlone n (op .brk w) s) : ∃ t, exec (.brk n w) s = .next t ∧ Controls n (op .brk w) s []
    (if spImm w.c = 1 ∧ n.val ∉ s.locks.facets then withoutRun (seen n s) else withDue .brk (seen n s)) t := by
  have hacted := acted_brk h
  split
  · rw [if_pos ‹_›] at hacted
    exact ⟨_, exec_wrote (k := .brk) (by simp [controlOps]) (by decide) h hacted fun _ => rfl, controls_withoutRun⟩
  · rw [if_neg ‹_›] at hacted
    exact exec_withDue (k := .brk) (by simp [controlOps]) (by decide) h hacted

end

theorem entryBecomesDue : EntryBecomesDue := fun _ _ _ => ⟨exec_syscall, exec_brk, exec_kenter⟩

/-! ### RETX -/

/-- A RETX that has drained waits for X1. -/
def returning (x1 : Nat) (f : Facet) : Facet := { f with bundles := f.bundles + 1, bundle := [], wait := .retx x1, ready := x1 + 3 }

/-- A RETX acts by its drain alone. -/
theorem exec_retx {n : Fin 128} {w : OpW} {s : State} (h : IssuesAlone n (op .retx w) s) : exec (.retx n w) s =
    .next (updFacet n (returning (s.fclk + drainLen (facet (acting n (op .retx w) s) n) + 1)) (drainFacet n (acting n (op .retx w) s))) := by
  have hacted : acted n (op .retx w) s = acting n (op .retx w) s := acted_control h rfl (by simp [op_kind])
  refine (exec_alone (p := (.retx, .retx)) (mem_facetOps_of_class (l := controlOps) (by simp) (by simp [controlOps])) h).trans ?_
  rw [afterAct, if_pos (op_kind ..), hacted, doRetx, acting_fclk]
  rfl

/-- K14 and K15 of bank 1 lose their tags where the status that returns has KB = 0 (R191). -/
def returnKeys (st : BitVec 64) (f : Facet) : List (Nat × KReg) :=
  if fsKB st = 0 then
    tset {} (tset {} f.k (kKey 1 14) { kReg f 1 14 with tag := false }) (kKey 1 15) { kReg f 1 15 with tag := false }
  else f.k
theorem returnKeys_untagged {st : BitVec 64} (h : fsKB st = 0) (f : Facet) :
    (tget {} (returnKeys st f) (kKey 1 14)).tag = false ∧ (tget {} (returnKeys st f) (kKey 1 15)).tag = false := by
  rw [returnKeys, if_pos h]
  exact ⟨by rw [tget_tset_ne _ _ _ (by decide), tget_tset_self], by rw [tget_tset_self]⟩

/-- FS where a RETX goes straight to the handler of cause 0x20 (R190). -/
def chainedFs (fs : BitVec 64) : BitVec 64 := setFld (setFld (setFld (setFld fs 16 6 0x20) 4 2 0) 6 1 0) 0 1 0
theorem fsLVL_chainedFs (fs : BitVec 64) : fsLVL (chainedFs fs) = fsLVL fs := by
  rw [fsLVL, chainedFs, fld_setFld_apart _ (by omega), fld_setFld_apart _ (by omega), fld_setFld_apart _ (by omega),
    fld_setFld_apart _ (by omega), fsLVL]
theorem fsIE_chainedFs (fs : BitVec 64) : fsIE (chainedFs fs) = false := bit_setFld_zero _ (by omega)
theorem fsCAUSE_chainedFs (fs : BitVec 64) : fsCAUSE (chainedFs fs) = 0x20 := by
  rw [fsCAUSE, chainedFs, fld_setFld_apart _ (by omega), fld_setFld_apart _ (by omega), fld_setFld_apart _ (by omega),
    fld_setFld_same _ _ _ _ (by omega)]
  rfl

/-- The status that the facet's level saved. -/
def savedStatus (f : Facet) : BitVec 64 := tget 0 f.xst (fsLVL f.fs)

/-- A RETX of level 1 goes to the next level 1 handler: the status that returns would take the request, and none of level 2 waits (R190). -/
def chains (n : Nat) (x : State) : Prop :=
  let f := facet x n
  fsLVL f.fs = 1 ∧ fsLVL (savedStatus f) = 0 ∧ fsIE (savedStatus f) = true ∧ request x n false = true ∧ request x n true = false

/-- The facet as a RETX leaves it at X1, with FS, the program counter and the repeat marks given. -/
def returned (fs : BitVec 64) (pc : BitVec 15) (rep first : Bool) (f : Facet) : Facet :=
  { f with wait := .none, shadows := [], k := returnKeys (savedStatus f) f, loopOld := [], lpWas := [], landed := [], fs := fs, pc := pc,
           repeating := rep, repFirst := first }

/-- What X1 of a RETX does (R189 to R191). -/
theorem endRetx_eq (n : Nat) (x : State) : ∃ fs pc rep first, endRetx n x = setFacet n (returned fs pc rep first (facet x n)) x ∧
    (¬ chains n x → fs = savedStatus (facet x n) ∧ pc = BitVec.ofNat 15 (fld (tget 0 (facet x n).xpc (fsLVL (facet x n).fs)) 3 15)) ∧
    (chains n x → fs = chainedFs (facet x n).fs ∧ pc = BitVec.ofNat 15 (fld (facet x n).xvb 12 6 * 512 + 0x20 * 8)) := by
  unfold endRetx
  dsimp only
  split
  case isTrue hchain => exact ⟨_, _, _, _, rfl, fun h => absurd hchain h, fun _ => ⟨rfl, rfl⟩⟩
  case isFalse hchain => exact ⟨_, _, _, _, rfl, fun _ => ⟨rfl, rfl⟩, fun h => absurd h hchain⟩

theorem atX1_eq {n x1 : Nat} {x : State} (hwait : (facet x n).wait = .retx x1) (h : x1 ≤ x.fclk) : atX1 n x = endRetx n x := by
  rw [atX1, hwait]
  exact if_pos h

theorem returnFromException : ReturnFromException := by
  refine ⟨?drain, ?atX1⟩
  case drain =>
    intro n w s h a x x1
    have helse := elsewhereSame_updFacet n (returning x1) x
    exact ⟨updFacet n (returning x1) x, exec_retx h, helse.2, helse.1, facet_updFacet_same n _ x⟩
  case atX1 =>
    intro n x1 x hwait hx1 f l st chain t
    obtain ⟨fs, pc, rep, first, hend, hreturns, hchains⟩ := endRetx_eq n x
    have ht : t = setFacet n (returned fs pc rep first f) x := (atX1_eq hwait hx1).trans hend
    have hf : facet t n = returned fs pc rep first f := by rw [ht, facet_setFacet_same]
    refine ⟨?wait, ?shadows, ?g, ?xst, ?xpc, ?rest, fun m hm => ?others, fun hc => ?returns, fun hc => ?chained, fun hkb => ?keys⟩
    case wait | shadows | g | xst | xpc => rw [hf]; rfl
    case rest => rw [ht]; rfl
    case others => rw [ht]; exact facet_setFacet_ne hm ..
    case returns => rw [hf]; exact hreturns hc
    case chained =>
      obtain ⟨rfl, rfl⟩ := hchains hc
      rw [hf]
      exact ⟨(fsLVL_chainedFs _).trans hc.1, fsIE_chainedFs _, fsCAUSE_chainedFs _, rfl⟩
    case keys => rw [hf]; exact returnKeys_untagged hkb f

/-- Settles O22: SYSCALL, BRK and KENTER only write what is due or RUN, and X1 of a RETX either restores the saved status or chains. -/
theorem exceptionRequestsAndReturn : Obligations.ExceptionRequestsAndReturn := ⟨entryBecomesDue, returnFromException⟩

end Sys2Proof.Proofs

namespace Sys2Proof.Proofs
open Sys2Proof Sys2Proof.Machine Sys2Proof.Claims Sys2Proof.Laws

/-! ### KBND and KMASK -/

/-- A capability with the base `a` and the length `b` (R172). -/
def bounded (a b : Nat) (c : BitVec 128) : BitVec 128 := setFld (setFld c 0 48 a) 48 32 b
theorem capBase_bounded {a : Nat} (ha : a < 2 ^ 48) (b : Nat) (c : BitVec 128) : capBase (bounded a b c) = a := by
  rw [capBase, bounded, fld_setFld_apart _ (by omega), fld_setFld_same _ _ _ _ (by omega), Nat.mod_eq_of_lt ha]
theorem capLen_bounded (a : Nat) {b : Nat} (hb : b < 2 ^ 32) (c : BitVec 128) : capLen (bounded a b c) = b := by
  rw [capLen, bounded, fld_setFld_same _ _ _ _ (by omega), Nat.mod_eq_of_lt hb]

/-- A capability with the permissions that it shares with `m` (R172). -/
def masked (m : Nat) (c : BitVec 128) : BitVec 128 := setFld c 80 16 (capPerm c &&& m)
theorem capBase_masked (m : Nat) (c : BitVec 128) : capBase (masked m c) = capBase c := fld_setFld_apart c (by omega)
theorem capLen_masked (m : Nat) (c : BitVec 128) : capLen (masked m c) = capLen c := fld_setFld_apart c (by omega)
theorem capHas_of_masked {m p : Nat} {c : BitVec 128} (hp : p < 16) (h : capHas (masked m c) p = true) : capHas c p = true := by
  rw [capHas, bit, masked, getLsbD_setFld, if_pos (by omega), Nat.add_sub_cancel_left, Nat.testBit_and, capPerm, testBit_fld] at h
  simp only [Bool.and_eq_true] at h
  obtain ⟨-, ⟨-, hsource⟩, -⟩ := h
  exact hsource

section
variable {n : Fin 128} {w : OpW} {s : State}

/-- The source capability of KBND and KMASK. -/
def capSource (n : Fin 128) (w : OpW) (s : State) : KReg := effK (seen n s) ((spImm w.c >>> 4) &&& 15).toNat

/-- A K register with the capability `c`, valid, as KBND and KMASK have it in flight. -/
def capLand (n : Fin 128) (w : OpW) (s : State) (c : BitVec 128) : Land := .k (fsKB (seen n s).fs) (spImm w.c &&& 15).toNat ⟨c, true⟩

theorem exec_kbnd (h : IssuesAlone n (op .kbnd w) s) : ∃ t, exec (.kbnd n w) s = .next t ∧
    Flies n (op .kbnd w) s 1 [capLand n w s (bounded (gSpec (seen n s) w.a) (gSpec (seen n s) w.b) (capSource n w s).cap)] t :=
  exec_controlLands (p := (.kbnd, .kbnd)) (mem_facetOps_of_class (l := capOps) (by simp) (by simp [capOps])) rfl (by decide) (by decide) h
    fun _ => rfl
theorem exec_kmask (h : IssuesAlone n (op .kmask w) s) : ∃ t, exec (.kmask n w) s = .next t ∧
    Flies n (op .kmask w) s 1 [capLand n w s (masked (gSpec (seen n s) w.a % 2 ^ 16) (capSource n w s).cap)] t :=
  exec_controlLands (p := (.kmask, .kmask)) (mem_facetOps_of_class (l := capOps) (by simp) (by simp [capOps])) rfl (by decide) (by decide) h
    fun _ => rfl

/-- A KBND issues of a live, unsealed source only, and of bounds within the source's (R172). -/
theorem kbnd_checked (h : IssuesAlone n (op .kbnd w) s) :
    let k := capSource n w s
    let a := gSpec (seen n s) w.a
    let b := gSpec (seen n s) w.b
    capLive (landDue n s) k = true ∧ capOtype k.cap = 0 ∧ a < 2 ^ 48 ∧ b < 2 ^ 32 ∧ capBase k.cap ≤ a ∧
      a + 16 * b ≤ capBase k.cap + 16 * capLen k.cap := by
  intro k a b
  have hcheck := opCheck_eq_none_of_opCause (opCause_eq_none h)
  change (if !capLive (landDue n s) k then some 2 else if capOtype k.cap ≠ 0 then some 5
    else if 2 ^ 48 ≤ a ∨ 2 ^ 32 ≤ b ∨ a < capBase k.cap ∨ capBase k.cap + 16 * capLen k.cap < a + 16 * b then some 3
    else none) = none at hcheck
  split at hcheck; · cases hcheck
  split at hcheck; · cases hcheck
  split at hcheck; · cases hcheck
  rename_i hlive htype hbounds
  exact ⟨by simpa using hlive, by simpa using htype, by omega⟩
/-- A KMASK issues of a live, unsealed source only (R172). -/
theorem kmask_checked (h : IssuesAlone n (op .kmask w) s) :
    capLive (landDue n s) (capSource n w s) = true ∧ capOtype (capSource n w s).cap = 0 := by
  have hcheck := opCheck_eq_none_of_opCause (opCause_eq_none h)
  change (if !capLive (landDue n s) (capSource n w s) then some 2 else if capOtype (capSource n w s).cap ≠ 0 then some 5 else none) = none at hcheck
  split at hcheck; · cases hcheck
  split at hcheck; · cases hcheck
  rename_i hlive htype
  exact ⟨by simpa using hlive, by simpa using htype⟩

end

/-- Settles O27: the check of KBND bounds what it names, and KMASK keeps permissions of the source only. -/
theorem capabilityNeverGrows : Obligations.CapabilityNeverGrows := by
  intro n w s f d k
  refine ⟨fun h => ?kbnd, fun h => ?kmask⟩
  case kbnd =>
    obtain ⟨t, ht, hflies⟩ := exec_kbnd h
    obtain ⟨hlive, htype, ha, hb, hlo, hhi⟩ := kbnd_checked h
    refine ⟨t, _, ht, hflies, ?_, ?_, hlive, htype⟩
    · rwa [capBase_bounded ha]
    · rwa [capBase_bounded ha, capLen_bounded _ hb]
  case kmask =>
    obtain ⟨t, ht, hflies⟩ := exec_kmask h
    obtain ⟨hlive, htype⟩ := kmask_checked h
    exact ⟨t, _, ht, hflies, fun p hp => capHas_of_masked hp, capBase_masked .., capLen_masked .., hlive, htype⟩

end Sys2Proof.Proofs

namespace Sys2Proof.Proofs
open Sys2Proof Sys2Proof.Machine Sys2Proof.Claims Sys2Proof.Laws

/-! ### A source after an operation of its controller -/

section
variable {ctl src : Nat} {s : State}

@[simp] theorem intSrc_setIntSrc_same (ctl src : Nat) (x : IntSrc) (s : State) : intSrc (setIntSrc ctl src x s) ctl src = x :=
  tget_tset_self ..
theorem ints_setIntSrc_ne (x : IntSrc) {q : Nat} (h : q ≠ srcKey ctl src) :
    tget {} (setIntSrc ctl src x s).ints q = tget {} s.ints q := tget_tset_ne _ _ _ h

/-- A level source whose filtered level has become `v` (R208, R211, R213). -/
def filtered (v : Bool) (x : IntSrc) : IntSrc :=
  if v then (if x.active then { x with flevel := true } else { x with flevel := true, pending := true, evcnt := 1 })
  else { x with flevel := false, pending := false, evcnt := 0 }
theorem setFiltered_eq (ctl src : Nat) (v : Bool) (s : State) :
    setFiltered ctl src v s = setIntSrc ctl src (filtered v (intSrc s ctl src)) s := by
  cases v <;> rfl
theorem filtered_keeps (v : Bool) (x : IntSrc) :
    (filtered v x).flevel = v ∧ (filtered v x).cfg = x.cfg ∧ (filtered v x).active = x.active := by
  cases v with
  | false => exact ⟨rfl, rfl, rfl⟩
  | true => cases hactive : x.active <;> simp [filtered, hactive]

/-- A pulse source that has counted `m` events in clock `now`: the threshold of CCNT makes it pending, else its batch timer runs (R209). -/
def counted (now m : Nat) (x : IntSrc) : IntSrc :=
  let x := { x with evcnt := x.evcnt + m, lastAcc := some now }
  if fld x.cfg 16 8 = 0 then { x with pending := true }
  else
    let x := if !x.pending && x.deadline.isNone && fld x.cfg 24 8 != 0 then { x with deadline := some (now + fld x.cfg 24 8 * 64) } else x
    if fld x.cfg 16 8 ≤ x.evcnt then { x with pending := true, deadline := none } else x
theorem counted_keeps (now m : Nat) (x : IntSrc) :
    (counted now m x).evcnt = x.evcnt + m ∧ (counted now m x).lastAcc = some now ∧ (counted now m x).active = x.active := by
  unfold counted
  dsimp only
  split_ifs <;> exact ⟨rfl, rfl, rfl⟩
theorem counted_pending (now m : Nat) (x : IntSrc) :
    (counted now m x).pending = true ↔ x.pending = true ∨ fld x.cfg 16 8 ≤ x.evcnt + m := by
  unfold counted
  dsimp only
  split_ifs <;> simp_all
/-- Events within the range of EVCNT only change their source. -/
theorem acceptEvents_eq {m : Nat} (h : (intSrc s ctl src).evcnt + m ≤ 1023) :
    acceptEvents ctl src m s = setIntSrc ctl src (counted (intClock s ctl) m (intSrc s ctl src)) s := by
  unfold acceptEvents counted
  dsimp only
  rw [if_neg (Nat.not_lt.2 h), Nat.min_eq_right h]
  split_ifs <;> rfl

theorem intEoi_of_active (hsource : isSource ctl src = true) (hactive : (intSrc s ctl src).active = true) :
    intEoi ctl src s = setIntSrc ctl src
      (if isLevelSrc ctl src = true ∧ (intSrc s ctl src).flevel = true then { intSrc s ctl src with active := false, pending := true, evcnt := 1 }
        else { intSrc s ctl src with active := false }) s := by
  simp [intEoi, hsource, hactive]
theorem intEoi_of_idle (h : isSource ctl src = false ∨ (intSrc s ctl src).active = false) : intEoi ctl src s = intStatSet ctl 2 s := by
  simp only [intEoi]
  rw [if_neg (by rcases h with h | h <;> simp [h])]

theorem intSetp_of_level (hsource : isSource ctl src = true) (hlevel : isLevelSrc ctl src = true) :
    intSetp ctl src s = setIntSrc ctl src { intSrc s ctl src with pending := true, evcnt := 1, deadline := none } s := by
  simp [intSetp, hsource, hlevel]
theorem intSetp_of_pulse (hsource : isSource ctl src = true) (hlevel : isLevelSrc ctl src = false) (hroom : (intSrc s ctl src).evcnt < 1023) :
    intSetp ctl src s = setIntSrc ctl src
      { intSrc s ctl src with pending := true, evcnt := (intSrc s ctl src).evcnt + 1, deadline := none } s := by
  have hmin : min 1023 ((intSrc s ctl src).evcnt + 1) = (intSrc s ctl src).evcnt + 1 := Nat.min_eq_right hroom
  simp [intSetp, hsource, hlevel, hroom.ne, hmin]

theorem intClrp_of_source (hsource : isSource ctl src = true) :
    intClrp ctl src s = setIntSrc ctl src { intSrc s ctl src with
      pending := false, evcnt := 0, deadline := none,
      again := if isLevelSrc ctl src = true ∧ (intSrc s ctl src).flevel = true ∧ (intSrc s ctl src).active = false
        then some (intClock s ctl) else none } s := by
  simp [intClrp, hsource, and_assoc]

/-! ### Claims -/

theorem claimPick_none_claim {fast : Bool} (h : claimPick s ctl fast = none) : claim ctl fast s = s ∧ claimValue s ctl fast = 0x3FF := by
  rw [claim, claimValue, h]
  exact ⟨rfl, rfl⟩
theorem claimPick_some_claim {fast : Bool} {q : Nat} {y : IntSrc} (h : claimPick s ctl fast = some (q, y)) :
    claim ctl fast s =
        (let u := setIntSrc ctl (q % 1024) { y with active := true, pending := false, evcnt := 0, deadline := none } s
         if newEvents s q y = 0 then u else acceptEvents ctl (q % 1024) (newEvents s q y) u) ∧
      claimValue s ctl fast = BitVec.ofNat 64 ((srcWas s q).evcnt * 2 ^ 16 + q % 1024) := by
  rw [claim, claimValue, h]
  exact ⟨rfl, rfl⟩
/-- A claim writes to interrupt tables and INT_STAT alone. -/
theorem claim_offLog (ctl : Nat) (fast : Bool) (s : State) : offLog (claim ctl fast s) = offLog s := by
  unfold claim
  split
  · simp only [apply_ite offLog, acceptEvents_offLog, setIntSrc_offLog, ite_self]
  · rfl
theorem clearDfault_offLog (k v : Nat) (s : State) : offLog (clearDfault k v s) = offLog s := by
  unfold clearDfault
  simp only [apply_ite offLog, rput_offLog, ite_self]
theorem clearDfault_ints (k v : Nat) (s : State) : (clearDfault k v s).ints = s.ints := by
  unfold clearDfault
  split
  · simp
  · rfl

/-! ### The clock after a clear, and INT_SCFG -/

/-- The clock after a clear: a level that still stands makes its source, which is not active, pending (R214). -/
theorem intSrc_pendAgain (ctl : Nat) (i : Fin 1024) (x : IntSrc) (s : State) :
    intSrc (pendAgain s (srcKey ctl i, x)) ctl i =
      if x.flevel = true ∧ x.active = false then { x with again := none, pending := true, evcnt := 1 } else { x with again := none } := by
  have hctl : srcKey ctl i / 1024 = ctl := by rw [srcKey]; omega
  have hsrc : srcKey ctl i % 1024 = i := by rw [srcKey]; omega
  simp only [pendAgain, hctl, hsrc, intSrc_setIntSrc_same]
  simp

/-- What a write of INT_SCFG makes of its source (R208, R215). -/
def configured (ctl src : Nat) (v : BitVec 64) (s : State) : IntSrc :=
  let x := intSrc s ctl src
  if fld (v &&& scfgMask ctl) 8 4 = fld x.cfg 8 4 then { x with cfg := v &&& scfgMask ctl }
  else
    let y : IntSrc := { x with cfg := v &&& scfgMask ctl, lastAcc := none, rawAt := intClock s ctl }
    if isLevelSrc ctl src = true ∧ fltLen y ≤ 1 ∧ x.raw ≠ x.flevel then filtered x.raw y else y

theorem intSrc_scfgWrite (hsource : isSource ctl src = true) (v : BitVec 64) :
    intSrc (scfgWrite ctl src v s) ctl src = configured ctl src v s := by
  unfold scfgWrite configured
  simp only [hsource, Bool.not_true, Bool.false_eq_true, if_false, Bool.and_eq_true, decide_eq_true_eq, bne_iff_ne, and_assoc]
  split
  · rw [intSrc_setIntSrc_same]
  · refine (apply_ite (intSrc · ctl src) ..).trans ?_
    rw [setFiltered_eq, intSrc_setIntSrc_same, intSrc_setIntSrc_same]
    rfl
theorem ints_scfgWrite_ne {q : Nat} (h : q ≠ srcKey ctl src) (v : BitVec 64) :
    tget {} (scfgWrite ctl src v s).ints q = tget {} s.ints q := by
  unfold scfgWrite
  dsimp only
  split_ifs
  · rfl
  · exact ints_setIntSrc_ne _ h
  · rw [setFiltered_eq, ints_setIntSrc_ne _ h, ints_setIntSrc_ne _ h]
  · exact ints_setIntSrc_ne _ h

theorem configured_keeps (ctl src : Nat) (v : BitVec 64) (s : State) :
    (configured ctl src v s).cfg = v &&& scfgMask ctl ∧ (configured ctl src v s).active = (intSrc s ctl src).active := by
  unfold configured
  dsimp only
  split_ifs
  · exact ⟨rfl, rfl⟩
  · exact (filtered_keeps ..).2
  · exact ⟨rfl, rfl⟩
/-- Without a new filter length, or at a pulse source, what is pending stays. -/
theorem configured_pending {v : BitVec 64} (h : fld (v &&& scfgMask ctl) 8 4 = fld (intSrc s ctl src).cfg 8 4 ∨ isLevelSrc ctl src = false) :
    (configured ctl src v s).pending = (intSrc s ctl src).pending ∧ (configured ctl src v s).evcnt = (intSrc s ctl src).evcnt := by
  unfold configured
  dsimp only
  split_ifs with hlen hlevel
  · exact ⟨rfl, rfl⟩
  · rw [h.resolve_left hlen] at hlevel
    exact absurd hlevel.1 Bool.false_ne_true
  · exact ⟨rfl, rfl⟩
/-- With a new filter length of at most one clock the filtered level is the raw one (R208). -/
theorem configured_flevel {v : BitVec 64} (hlen : fld (v &&& scfgMask ctl) 8 4 ≠ fld (intSrc s ctl src).cfg 8 4)
    (hlevel : isLevelSrc ctl src = true) (hshort : fltLen (configured ctl src v s) ≤ 1) :
    (configured ctl src v s).flevel = (intSrc s ctl src).raw := by
  rw [fltLen, (configured_keeps ..).1] at hshort
  unfold configured
  dsimp only
  rw [if_neg hlen]
  split_ifs with hfollow
  · exact (filtered_keeps ..).1
  · exact not_not.1 fun hne => hfollow ⟨hlevel, hshort, Ne.symm hne⟩

/-! ### Pulses -/

/-- The filter lets a pulse pass that no other of its clock comes before and that comes Lf clocks after the last (R207, R208). -/
theorem pulseEvent_accepted
    (hclear : ∀ a, (intSrc s ctl src).lastAcc = some a → a + fltLen (intSrc s ctl src) ≤ intClock s ctl ∧ a ≠ intClock s ctl)
    (hdrop : (intSrc s ctl src).lastDrop ≠ some (intClock s ctl)) (hroom : (intSrc s ctl src).evcnt < 1023) :
    pulseEvent ctl src s = setIntSrc ctl src (counted (intClock s ctl) 1 (intSrc s ctl src)) s := by
  have hfirst : ¬ ((intSrc s ctl src).lastAcc = some (intClock s ctl) ∨ (intSrc s ctl src).lastDrop = some (intClock s ctl)) :=
    fun h => h.elim (fun hacc => (hclear _ hacc).2 rfl) hdrop
  rw [← acceptEvents_eq hroom]
  unfold pulseEvent
  dsimp only
  rw [if_neg hfirst, if_neg]
  split
  · next a hacc => simpa using (hclear a hacc).1
  · exact Bool.false_ne_true
/-- A pulse within the filter time of the last is dropped and counted (R208). -/
theorem pulseEvent_dropped {a : Nat} (hacc : (intSrc s ctl src).lastAcc = some a) (hpast : a < intClock s ctl)
    (hnear : intClock s ctl < a + fltLen (intSrc s ctl src)) (hdrop : (intSrc s ctl src).lastDrop ≠ some (intClock s ctl)) :
    pulseEvent ctl src s = fdrop ctl (setIntSrc ctl src { intSrc s ctl src with lastDrop := some (intClock s ctl) } s) := by
  have hfirst : ¬ ((intSrc s ctl src).lastAcc = some (intClock s ctl) ∨ (intSrc s ctl src).lastDrop = some (intClock s ctl)) := by
    rw [hacc, Option.some.injEq]
    exact fun h => h.elim hpast.ne hdrop
  unfold pulseEvent
  dsimp only
  rw [if_neg hfirst, hacc]
  exact if_pos (decide_eq_true hnear)
/-- Pulses of one clock are one event (R207). -/
theorem pulseEvent_again
    (h : (intSrc s ctl src).lastAcc = some (intClock s ctl) ∨ (intSrc s ctl src).lastDrop = some (intClock s ctl)) :
    pulseEvent ctl src s = s := if_pos h

end

/-! ### The commands of a controller that runs -/

theorem gate_of_true {c : Bool} (h : c = true) (s : State) : gate c s = .next s := if_pos h

section
variable {k : Fin 129} {i : Fin 1024} {s : State} (hup : ctlUp s k = true)
include hup

theorem exec_intClaim (fast : Bool) : exec (.intClaim k fast) s =
    .next (clearDfault k (claimValue s k fast).toNat (claim k fast (emit (.value (claimValue s k fast).toNat) s))) := gate_of_true hup _
theorem exec_intEoi : exec (.intEoi k i) s = .next (intEoi k i s) := gate_of_true hup _
theorem exec_intSetp : exec (.intSetp k i) s = .next (intSetp k i s) := gate_of_true hup _
theorem exec_intClrp (hlock : srcLocked s k i = false) : exec (.intClrp k i) s = .next (intClrp k i s) :=
  (gate_of_true hup _).trans (by rw [hlock]; rfl)
theorem exec_intClrp_locked (hlock : srcLocked s k i = true) : exec (.intClrp k i) s = .next (tellSteward (crownIntReg k 0x44) .steward s) :=
  (gate_of_true hup _).trans (by rw [hlock]; rfl)
theorem exec_intScfgWrite (hlock : srcLocked s k i = false) (v : BitVec 64) :
    exec (.intScfgWrite k i v) s = .next (scfgWrite k i v s) := (gate_of_true hup _).trans (by rw [hlock]; rfl)
theorem exec_intScfgWrite_locked (hlock : srcLocked s k i = true) (v : BitVec 64) :
    exec (.intScfgWrite k i v) s = .next (tellSteward (crownIntReg k 0x46) .steward s) := (gate_of_true hup _).trans (by rw [hlock]; rfl)

/-- An event of a pulse source that a facet's own hardware raises. -/
theorem exec_intSourceEvent_pulse (hsource : isSource k i = true) (hk : k.val < 128) (hi : i.val < 48) :
    exec (.intSourceEvent k i) s = .next (pulseEvent k i s) := by
  have hctl : k.val ≠ stewardCtl := hk.ne
  have hcrown : crownUp s (crownOf k) = true := by simpa [ctlUp, hctl] using hup
  have hpulse : isLevelSrc k i = false := by simpa [isLevelSrc, hctl] using hi.ne
  change execIntSourceEvent k i s = _
  rw [execIntSourceEvent, hsource, hpulse, if_neg (by decide), if_neg (by decide), if_neg hctl,
    gate_of_true (decide_eq_true (by omega)), facetPulse, if_pos hcrown]
theorem exec_intSourceEvent_level (hsource : isSource k i = true) (hlevel : isLevelSrc k i = true) :
    exec (.intSourceEvent k i) s = .next (setRaw k i (levelOf s k i) s) := by
  change execIntSourceEvent k i s = _
  rw [execIntSourceEvent, hsource, hlevel, if_neg (by decide), if_pos rfl, gate_of_true hup]
theorem exec_levelFilterSettle (hsource : isSource k i = true) (hlevel : isLevelSrc k i = true)
    (hmoved : (intSrc s k i).raw ≠ (intSrc s k i).flevel) : exec (.levelFilterSettle k i) s =
      .next (setFiltered k i (intSrc s k i).raw (advanceTo (clockFclk k ((intSrc s k i).rawAt + fltLen (intSrc s k i) - 1)) s)) :=
  if_pos (by simpa [hsource, hlevel, hup] using hmoved)
theorem exec_batchTimerExpiry {d : Nat} (hdue : (intSrc s k i).deadline = some d) : exec (.batchTimerExpiry k i) s =
    .next (setIntSrc k i { intSrc (advanceTo (clockFclk k d) s) k i with pending := true, deadline := none } (advanceTo (clockFclk k d) s)) := by
  change execBatchTimerExpiry k i s = _
  rw [execBatchTimerExpiry, hdue]
  exact if_pos hup

/-- A claim gives its value to the reader and changes the sources as `claim` does (R212). -/
theorem exec_intClaim_effect (fast : Bool) : ∃ t, exec (.intClaim k fast) s = .next t ∧
    t.out = s.out ++ [.value (claimValue s k fast).toNat] ∧ t.ints = (claim k fast s).ints := by
  refine ⟨_, exec_intClaim hup fast, ?_, ?_⟩
  · exact (congrArg State.out ((clearDfault_offLog ..).trans (claim_offLog ..)) :)
  · rw [clearDfault_ints]
    exact claim_ints_congr (s := emit _ s) (t := s) rfl rfl rfl ..

end

theorem interruptClaimAndEnd : InterruptClaimAndEnd := by
  intro k i s hup x lv
  refine ⟨fun fast => ?claim, fun hsource hactive => ?eoi, fun hidle => ?eoiIdle, fun hsource hlevel hroom => ?setPulse,
    fun hsource hlevel => ?setLevel, fun hsource hlock => ?clear, intSrc_pendAgain k i x s,
    fun hlock => ⟨exec_intClrp_locked hup hlock, exec_intScfgWrite_locked hup hlock⟩, fun v hsource hlock => ?config⟩
  case claim =>
    obtain ⟨t, ht, hout, hints⟩ := exec_intClaim_effect hup fast
    refine ⟨t, ht, hout, fun hnone => ?_, fun q y hsome => ?_⟩
    · obtain ⟨hsame, hvalue⟩ := claimPick_none_claim hnone
      exact ⟨hvalue, by rw [hints, hsame]⟩
    · obtain ⟨hclaim, hvalue⟩ := claimPick_some_claim hsome
      rw [hclaim] at hints
      exact ⟨hvalue, fun hm => hints.trans (congrArg State.ints (if_pos hm)), fun hm => hints.trans (congrArg State.ints (if_neg hm))⟩
  case eoi => rw [exec_intEoi hup, intEoi_of_active hsource hactive]
  case eoiIdle => rw [exec_intEoi hup, intEoi_of_idle hidle]
  case setPulse => rw [exec_intSetp hup, intSetp_of_pulse hsource hlevel hroom]
  case setLevel => rw [exec_intSetp hup, intSetp_of_level hsource hlevel]
  case clear =>
    intro again
    rw [exec_intClrp hup hlock, intClrp_of_source hsource]
  case config =>
    refine ⟨_, exec_intScfgWrite hup hlock v, ?_⟩
    rw [intSrc_scfgWrite hsource v]
    obtain ⟨hcfg, hactive⟩ := configured_keeps k i v s
    exact ⟨hcfg, hactive, configured_pending, configured_flevel, fun q hq => ints_scfgWrite_ne hq v⟩

theorem interruptSourcesTakeEvents : InterruptSourcesTakeEvents := by
  intro k i s hsource hup x now
  refine ⟨fun hk hi hclear hdrop hroom => ?accepted, fun hk hi hnear hdrop => ?dropped, fun hk hi hsame => ?again,
    exec_intSourceEvent_level hup hsource, fun hlevel hmoved => ?settle, fun d hdue => exec_batchTimerExpiry hup hdue⟩
  case accepted =>
    refine ⟨_, exec_intSourceEvent_pulse hup hsource hk hi, ?_⟩
    rw [pulseEvent_accepted hclear hdrop hroom, intSrc_setIntSrc_same]
    obtain ⟨hcount, hlast, hactive⟩ := counted_keeps now 1 x
    exact ⟨hcount, hlast, hactive, counted_pending now 1 x, rfl⟩
  case dropped =>
    obtain ⟨a, hacc, hpast, hnear⟩ := hnear
    rw [exec_intSourceEvent_pulse hup hsource hk hi, pulseEvent_dropped hacc hpast hnear hdrop]
    rfl
  case again => rw [exec_intSourceEvent_pulse hup hsource hk hi, pulseEvent_again hsame]
  case settle =>
    intro u y
    rw [exec_levelFilterSettle hup hsource hlevel hmoved, setFiltered_eq]
    rfl

/-- Settles O30: a command of a running controller is one operation, and each operation leaves its source as a function of what it was. -/
theorem interrupts : Obligations.Interrupts := ⟨interruptClaimAndEnd, interruptSourcesTakeEvents⟩

end Sys2Proof.Proofs

/-! First-touch fills and patrol reads of DRAM (R241 to R243, R524): what a held write changes when it lands, and what a patrol read keeps. -/
namespace Sys2Proof.Proofs
open Sys2Proof Sys2Proof.Machine Sys2Proof.Claims Sys2Proof.Laws

/-! ### Held writes -/

/-- The state without the memory, its tags and the registers, the only fields that a held write changes. -/
def offLanded (s : State) : State := { s with mem := [], tags := [], regs := [] }

theorem landHeld_offLanded (s : State) (w : HeldWrite) : offLanded (landHeld s w) = offLanded s := by
  unfold landHeld
  dsimp only
  split <;> rfl
theorem landHeld_mem (s : State) (w : HeldWrite) : (landHeld s w).mem = mputs s.mem w.addr w.bytes := by
  unfold landHeld
  dsimp only
  split <;> rfl

theorem byteAt_landHeld_inside (s : State) (w : HeldWrite) {i : Nat} (h : i < w.bytes.length) :
    byteAt (landHeld s w) (w.addr + i) = w.bytes.getD i 0 := by
  rw [byteAt, landHeld_mem, mget_mputs, if_pos (by omega), Nat.add_sub_cancel_left]
theorem byteAt_landHeld_outside (s : State) (w : HeldWrite) {x : Nat} (h : x < w.addr ∨ w.addr + w.bytes.length ≤ x) :
    byteAt (landHeld s w) x = byteAt s x := by
  rw [byteAt, landHeld_mem, mget_mputs, if_neg (by omega), byteAt]

/-- A byte outside every write that lands is as before. -/
theorem byteAt_landHeld_fold_outside {ws : List HeldWrite} {x : Nat} (h : ∀ w ∈ ws, x < w.addr ∨ w.addr + w.bytes.length ≤ x) (s : State) :
    byteAt (ws.foldl landHeld s) x = byteAt s x := by
  induction ws generalizing s with
  | nil => rfl
  | cons w ws ih =>
    obtain ⟨hw, hws⟩ := List.forall_mem_cons.1 h
    rw [List.foldl_cons, ih hws, byteAt_landHeld_outside s w hw]

/-! ### The end of a fill -/

/-- Chunk `c` is touched, and the writes held for it wait no longer. -/
def chunkFilled (c : Nat) (rest : List Nat) (s : State) : State :=
  setFills rest (setTouched (sadd s.touched c) (setHeldWrites (s.heldWrites.filter fun w => chunkOf w.addr != c) s))

/-- The fill of the first chunk ends, and the writes held for it land in arrival order (R242, R243). -/
theorem exec_fillDone {c : Nat} {rest : List Nat} {s : State} (h : s.fills = c :: rest) :
    exec .fillDone s = .next ((s.heldWrites.filter fun w => chunkOf w.addr == c).foldl landHeld (chunkFilled c rest s)) := by
  change gate (!s.fills.isEmpty) (fillDone s) = _
  unfold fillDone
  rw [h]
  rfl

theorem dramFillEnds : DramFillEnds := by
  intro c rest s hfills
  refine ⟨_, exec_fillDone hfills, ?_⟩
  have hkeep := foldl_keeps landHeld_offLanded (s.heldWrites.filter fun w => chunkOf w.addr == c) (chunkFilled c rest s)
  refine ⟨(congrArg State.fills hkeep :), ?touched, (congrArg State.heldWrites hkeep :), (congrArg State.facets hkeep :),
    fun x hx => ?outside, fun w hw i hi => ?inside⟩
  case touched => exact (congrArg (fun t : State => c ∈ t.touched) hkeep).mpr (mem_sadd_self ..)
  case outside =>
    refine byteAt_landHeld_fold_outside (fun w hw => ?_) _
    obtain ⟨hmem, hchunk⟩ := List.mem_filter.1 hw
    exact hx w hmem (beq_iff_eq.1 hchunk)
  case inside =>
    rw [hw]
    exact byteAt_landHeld_inside _ w hi

/-! ### Patrol reads -/

/-- What a patrol read keeps when it logs what it found: memory, facets, the clock and the days of the patrol reads. -/
def patrolKept (s : State) : List Host.Cell × List (Nat × Facet) × Nat × List (Nat × Nat) := (s.mem, s.facets, s.fclk, s.links.patrolled)

theorem logEvents_patrolKept (u : Nat) (evs : List LogEvent) (s : State) : patrolKept (logEvents u evs s) = patrolKept s :=
  (congrArg patrolKept (logEvents_offLog u evs s) :)
theorem raiseSteward_patrolKept (src : Nat) (s : State) : patrolKept (raiseSteward src s) = patrolKept s :=
  (congrArg patrolKept (raiseSteward_offLog src s) :)
theorem dramUe_patrolKept (a : Nat) (s : State) : patrolKept (dramUe a s) = patrolKept s :=
  (raiseSteward_patrolKept ..).trans (logEvents_patrolKept ..)
theorem dramCorrected_patrolKept (a : Nat) (s : State) : patrolKept (dramCorrected a s) = patrolKept s := by
  unfold dramCorrected
  dsimp only
  split
  · exact (raiseSteward_patrolKept ..).trans (logEvents_patrolKept ..)
  · exact logEvents_patrolKept ..

/-- A patrol read of a chunk at this FCLK has drawn the line that it may find bad. -/
def patrolRead (chunk : Nat) (u : State) : State :=
  (drawFree (setLinks { u.links with patrolled := tput u.links.patrolled chunk u.fclk } u)).2
/-- What it found is logged: a corrected line, an uncorrectable one. -/
def patrolLogged (chunk : Nat) (corrected uncorrectable : Bool) (u : State) : State :=
  let v := (drawFree u).1
  let w := if corrected then dramCorrected (chunk * 0x200000 + fld v 0 15 * 64) (patrolRead chunk u) else patrolRead chunk u
  if uncorrectable then dramUe (chunk * 0x200000 + fld v 15 15 * 64) w else w

theorem patrolLogged_patrolKept (chunk : Nat) (corrected uncorrectable : Bool) (u : State) :
    patrolKept (patrolLogged chunk corrected uncorrectable u) = patrolKept (patrolRead chunk u) := by
  unfold patrolLogged
  cases corrected <;> cases uncorrectable <;> simp [dramCorrected_patrolKept, dramUe_patrolKept]

/-- When the next patrol read of a chunk is due: a day after the last one (R524). -/
def patrolDue (chunk : Nat) (s : State) : Nat :=
  match s.links.patrolled.find? fun p => p.1 == chunk with
  | some p => p.2 + dayFclk
  | none => s.fclk

theorem exec_dramPatrol {chunk : Fin 131072} {s : State} (htouched : s.touched.contains chunk.val = true) (hon : domState s 37 = 1)
    (corrected uncorrectable : Bool) : exec (.dramPatrol chunk corrected uncorrectable) s =
      .next (patrolLogged chunk corrected uncorrectable (advanceTo (patrolDue chunk s) s)) :=
  if_pos (by rw [htouched, hon]; rfl)

theorem dramPatrolLogs : DramPatrolLogs := by
  intro chunk corrected uncorrectable s htouched hon due u
  refine ⟨_, exec_dramPatrol htouched hon corrected uncorrectable, ?_⟩
  have hkeep := patrolLogged_patrolKept chunk corrected uncorrectable u
  obtain ⟨hmem, hfacets, hfclk, hpatrolled⟩ : _ ∧ _ ∧ _ ∧ _ := by simpa only [patrolKept, Prod.mk.injEq] using hkeep
  refine ⟨hmem, hfacets, hfclk, hpatrolled, ?_⟩
  rintro rfl rfl
  rfl

/-- Settles O31: the held writes of a chunk land at their bytes alone when its fill ends, and what a patrol read logs keeps memory, facets and the clock. -/
theorem dram : Obligations.Dram := ⟨dramFillEnds, dramPatrolLogs⟩

end Sys2Proof.Proofs

/-! The patrol scrub (R446), and why the statement on Gleby's facet and integrity commands fails: it says that every integrity engine shows SCRUBDONE
after a patrol, but a page of a girdle memory that the patrol finds beyond repair resets the package (R266), and with it the ITG_EVT of every crown. -/
namespace Sys2Proof.Proofs
open Sys2Proof Sys2Proof.Machine Sys2Proof.Claims Sys2Proof.Laws

/-! ### Registers of the crowns -/

section
variable {b : Nat} {s : State}

theorem rget_rsat_ne {a : Nat} (h : b ≠ a) (lo w v : Nat) (s : State) : rget (rsat a lo w v s) b = rget s b := rget_rset_ne h ..
theorem rget_rbitSet_ne {a : Nat} (h : b ≠ a) (i : Nat) (x : Bool) (s : State) : rget (rbitSet a i x s) b = rget s b := rget_rset_ne h ..

/-- An event of an integrity engine writes its ITG_EVT and, for the central engine, INT_SGSUM (R221, R271). -/
theorem rget_itgEvt_ne {u : Nat} (hevt : b ≠ itgU u 8) (hsrc : b ≠ intReg 0x38) (i src : Nat) (s : State) :
    rget (itgEvt u i src s) b = rget s b := by
  have hraise (n : Nat) (t : State) : rget (raiseSteward n t) b = rget t b := rget_congr (raiseSteward_regs ..) b
  unfold itgEvt
  split
  · rfl
  · split
    · exact (hraise ..).trans (rget_rbitSet_ne hevt ..)
    · split
      · exact (hraise ..).trans ((rget_rbitSet_ne hsrc ..).trans (rget_rbitSet_ne hevt ..))
      · exact (hraise ..).trans (rget_rbitSet_ne hevt ..)

/-! ### A pass over memories without deviating words -/

/-- Such a pass only counts its words. -/
theorem scrubPass_of_clean (h : s.raw = []) (u st f first n : Nat) :
    scrubPass u st f first n s = rsat (itgU u 0x28) 32 32 (128 * n) s := by
  unfold scrubPass scrubRange
  split
  · rw [h]
    rfl
  · rfl

theorem rget_scrubPass_fold_of_clean (h : s.raw = []) (hb : b ≠ itgU 16 0x28) (ms : List Nat) :
    rget (ms.foldl (fun s m => scrubPass 16 m 0 0 (scrubPages 16 m) s) s) b = rget s b := by
  induction ms generalizing s with
  | nil => rfl
  | cons m ms ih => rw [List.foldl_cons, scrubPass_of_clean h, ih (by simpa using h), rget_rsat_ne hb]

/-- Gleby retires no page of a crown whose log is empty. -/
theorem policyRetire_of_unlogged {c : Nat} (h : ∀ e < 64, rbit s (logEntry c e) 63 = false) : policyRetire c s = s := by
  unfold policyRetire
  dsimp only
  rw [List.filter_eq_nil_iff.2 fun e he => by simp [h e (List.mem_range.1 he)]]
  rfl
theorem policyRetire_fold_of_unlogged {cs : List Nat} (h : ∀ c ∈ cs, ∀ e < 64, rbit s (logEntry c e) 63 = false) :
    cs.foldl (fun s c => policyRetire c s) s = s := by
  induction cs with
  | nil => rfl
  | cons c cs ih =>
    obtain ⟨hc, hcs⟩ := List.forall_mem_cons.1 h
    rw [List.foldl_cons, policyRetire_of_unlogged hc, ih hcs]

/-! ### The patrol -/

/-- The patrol of one engine, from the clearing of its counts to SCRUBDONE. -/
def enginePatrolled (u : Nat) (s : State) : State := itgEvt u 5 318 (patrolUnit u (rset (itgU u 0x30) 0 (rset (itgU u 0x28) 0 s)))
/-- The patrol has gone through the crowns, and through the session contexts, the first of the girdle memories. -/
def contextsPatrolled (s : State) : State :=
  scrubPass 16 0 0 0 (scrubPages 16 0) (rset (itgU 16 0x30) 0 (rset (itgU 16 0x28) 0 ((List.range 16).foldl (fun s u => enginePatrolled u s) s)))
/-- It has gone through the other girdle memories too. -/
def girdlePatrolled (s : State) : State :=
  itgEvt 16 5 318 ([1, 2, 3, 4, 5].foldl (fun s m => scrubPass 16 m 0 0 (scrubPages 16 m) s) (contextsPatrolled s))

/-- Engine 16 scrubs the girdle memories in their order. -/
theorem patrolUnit_girdle (s : State) :
    patrolUnit 16 s = [1, 2, 3, 4, 5].foldl (fun s m => scrubPass 16 m 0 0 (scrubPages 16 m) s) (scrubPass 16 0 0 0 (scrubPages 16 0) s) := by
  unfold patrolUnit
  rw [if_neg (by decide), show List.range 6 = [0, 1, 2, 3, 4, 5] from rfl, List.foldl_cons]
theorem enginePatrolled_fold (s : State) : (List.range 17).foldl (fun s u => enginePatrolled u s) s = girdlePatrolled s := by
  rw [List.range_succ, List.foldl_append, List.foldl_cons, List.foldl_nil, enginePatrolled, patrolUnit_girdle,
    girdlePatrolled, contextsPatrolled]
theorem exec_patrolScrub (h : (s.pwr.running && s.gly.period != 0 && (List.range 17).all fun u => (integ s u).scrub.isNone) = true) :
    exec .patrolScrub s = .next (patrolScrub (advanceTo (s.gly.patrolAt + s.gly.period * 1000 * msFclk) s)) := if_pos h
theorem patrolScrub_eq (s : State) : patrolScrub s =
    let t := if (girdlePatrolled s).gly.policy = 1 then (List.range 16).foldl (fun s c => policyRetire c s) (girdlePatrolled s) else girdlePatrolled s
    setGly { t.gly with patrolAt := t.fclk } t := by
  rw [← enginePatrolled_fold]
  rfl

/-- Where the memories after the session contexts have no deviating words, what follows leaves the registers of the crowns. -/
theorem rget_girdlePatrolled (hclean : (contextsPatrolled s).raw = []) (hb : crownReg 0 0 ≤ b) :
    rget (girdlePatrolled s) b = rget (contextsPatrolled s) b := by
  have hlow : intReg 0x38 < crownReg 0 0 ∧ itgU 16 8 < crownReg 0 0 ∧ itgU 16 0x28 < crownReg 0 0 := by decide
  rw [girdlePatrolled, rget_itgEvt_ne (by omega) (by omega), rget_scrubPass_fold_of_clean hclean (by omega)]
theorem rget_patrolScrub (hclean : (contextsPatrolled s).raw = [])
    (hunlogged : ∀ c ∈ List.range 16, ∀ e < 64, rbit (contextsPatrolled s) (logEntry c e) 63 = false) (hb : crownReg 0 0 ≤ b) :
    rget (patrolScrub s) b = rget (contextsPatrolled s) b := by
  have hretire : (List.range 16).foldl (fun s c => policyRetire c s) (girdlePatrolled s) = girdlePatrolled s :=
    policyRetire_fold_of_unlogged fun c hc e he => by
      have hc16 := List.mem_range.1 hc
      rw [rbit, rget_girdlePatrolled hclean (by simp only [logEntry, if_pos hc16, crownReg, girdle]; omega)]
      exact hunlogged c hc e he
  rw [patrolScrub_eq, hretire, ite_self]
  exact (rget_congr (by simp) b).trans (rget_girdlePatrolled hclean hb)

end

/-! ### The counterexample -/

/-- Stored bits with an uncorrectable lane 0. -/
def lostWord : RawWord := ⟨1, false, true, 0⟩
/-- The steward runs with the patrol's period over, and three words of the first page of session contexts are uncorrectable, one more than the page
code bears (R264). -/
def contextPageLost : State :=
  { State.reset with
    pwr := { running := true }
    gly := { period := 60, policy := 0 }
    fclk := 60 * 1000 * msFclk
    raw := [(ctxAddr 0 0, lostWord), (ctxAddr 0 16, lostWord), (ctxAddr 0 32, lostWord)] }
/-- The state in which its patrol acts. -/
def patrolDueOnLostPage : State := advanceTo (contextPageLost.gly.patrolAt + contextPageLost.gly.period * 1000 * msFclk) contextPageLost

theorem contextPageLost_noPass : ∀ u, u < 17 → (integ contextPageLost u).scrub = none := by decide +kernel
theorem contextPageLost_policy : patrolDueOnLostPage.gly.policy = 0 := by decide +kernel

/-- The patrol reset the package: no deviating words, no log entries, and no SCRUBDONE in crown 0. -/
theorem contextsPatrolled_lostPage :
    (contextsPatrolled patrolDueOnLostPage).raw = [] ∧
    (∀ c ∈ List.range 16, ∀ e < 64, rbit (contextsPatrolled patrolDueOnLostPage) (logEntry c e) 63 = false) ∧
    rbit (contextsPatrolled patrolDueOnLostPage) (itgU 0 8) 5 = false := by decide +kernel

theorem rbit_patrolScrub_lostPage : rbit (patrolScrub patrolDueOnLostPage) (itgU 0 8) 5 = false := by
  obtain ⟨hclean, hunlogged, hbit⟩ := contextsPatrolled_lostPage
  rw [rbit, rget_patrolScrub hclean hunlogged (by decide)]
  exact hbit

/-- Refutes O54: its clause on the patrol scrub fails in `contextPageLost`. The engines of the crowns show SCRUBDONE before the session contexts are
scrubbed, whose lost page then resets the package (R266), so that crown 0 no longer shows it. The clause speaks of every state and does not exclude
a girdle memory with a page beyond repair, although the model has no command that stores such bits: its test mode reaches the stores of crowns alone
(R284). -/
theorem not_facetAndIntegrityCommands : ¬ Obligations.FacetAndIntegrityCommands := by
  rintro ⟨-, ⟨-, -, hpatrol⟩, -, -⟩
  obtain ⟨t, ht, -, hdone⟩ := hpatrol contextPageLost rfl (by decide) contextPageLost_noPass
  obtain rfl : patrolScrub patrolDueOnLostPage = t := Host.Outcome.next.inj ((exec_patrolScrub (by decide +kernel)).symm.trans ht)
  exact absurd (hdone contextPageLost_policy 0 (by decide)) (by rw [rbit_patrolScrub_lostPage]; decide)

end Sys2Proof.Proofs

/-! Scrub passes and the checker's test mode (R271 to R273, R282, R283), with what the integrity engine's events leave of its registers: a pass by the
state in which it starts and the one in which it ends, the test mode by what READ shows. -/
namespace Sys2Proof.Proofs
open Sys2Proof Sys2Proof.Machine Sys2Proof.Claims Sys2Proof.Laws

/-! ### An integrity engine and its registers -/

@[simp] theorem itgU_inj {u o o' : Nat} : itgU u o = itgU u o' ↔ o = o' := by
  simp only [itgU, crownReg, itgReg, girdle]
  split <;> omega
theorem itgU_ne_sgsum (u : Nat) {o : Nat} (h : o < 0x20000) : itgU u o ≠ intReg 0x38 := by
  simp only [itgU, crownReg, itgReg, intReg, girdle]
  split <;> omega

@[simp] theorem integ_setInteg_same (c : Nat) (x : Integ) (s : State) : integ (setInteg c x s) c = x := tget_tset_self ..
/-- The engines are read from their table alone. -/
theorem integ_congr {s t : State} (h : s.integ = t.integ) (c : Nat) : integ s c = integ t c := by simp [integ, h]
theorem integ_rset (a : Nat) (v : BitVec 64) (s : State) (c : Nat) : integ (rset a v s) c = integ s c := integ_congr (by simp) c
theorem integ_rput (a lo w v : Nat) (s : State) (c : Nat) : integ (rput a lo w v s) c = integ s c := integ_congr (by simp) c
theorem integ_rbitSet (a i : Nat) (b : Bool) (s : State) (c : Nat) : integ (rbitSet a i b s) c = integ s c := integ_congr (by simp) c

theorem rget_setInteg (c : Nat) (x : Integ) (s : State) (a : Nat) : rget (setInteg c x s) a = rget s a := rget_congr (by simp) a
theorem rget_rbitSet_same (a i : Nat) (b : Bool) (s : State) : rget (rbitSet a i b s) a = setBit (rget s a) i b := rget_rset_same ..
theorem rget_rput_ne {a b : Nat} (h : b ≠ a) (lo w v : Nat) (s : State) : rget (rput a lo w v s) b = rget s b := rget_rset_ne h ..

theorem bit_started (v : BitVec 64) : bit (started v) 63 = true := by simp [bit, started]

section
variable (u i src : Nat) (s : State)

theorem itgEvt_integ : (itgEvt u i src s).integ = s.integ := (congrArg State.integ (itgEvt_offLog u i src s) :)
theorem itgEvt_raw : (itgEvt u i src s).raw = s.raw := (congrArg State.raw (itgEvt_offLog u i src s) :)
theorem integ_itgEvt (c : Nat) : integ (itgEvt u i src s) c = integ s c := integ_congr (itgEvt_integ ..) c
/-- An event leaves every other register of its engine. -/
theorem rget_itgEvt_other {o : Nat} (h : o ≠ 8) (ho : o < 0x20000) : rget (itgEvt u i src s) (itgU u o) = rget s (itgU u o) :=
  rget_itgEvt_ne (mt itgU_inj.1 h) (itgU_ne_sgsum u ho) i src s
/-- An event shows in ITG_EVT, whether it rose now or stood already. -/
theorem rbit_itgEvt_same {i : Nat} (hi : i < 64) : rbit (itgEvt u i src s) (itgU u 8) i = true := by
  have hrise : bit (rget (rbitSet (itgU u 8) i true s) (itgU u 8)) i = true := by
    rw [rget_rbitSet_same, bit_setBit_same _ _ hi]
  have hraise (n : Nat) (t : State) : rget (raiseSteward n t) (itgU u 8) = rget t (itgU u 8) := rget_congr (raiseSteward_regs ..) _
  unfold itgEvt rbit
  split
  · assumption
  · split
    · rwa [hraise]
    · split
      · rwa [raiseGirdle, hraise, rget_rbitSet_ne (itgU_ne_sgsum u (by decide))]
      · rwa [hraise]

end

/-! ### Scrub passes (R272, R273) -/

/-- The pass that a value of ITG_SCRUB asks for: store, facet, first page, pages. -/
def scrubAsked (u : Nat) (w : BitVec 64) : Nat × Nat × Nat × Nat := (scrubStore u w, if u < 16 then fld w 57 3 else 0, fld w 0 11, fld w 32 12)
/-- The pass has started: BUSY stands, START reads 0 (log entry 74), and the counts of the last pass are cleared. -/
def scrubBegun (u : Nat) (w : BitVec 64) (s : State) : State :=
  setInteg u { integ s u with scrub := some (scrubAsked u w) }
    (rbitSet (itgU u 0x20) 62 true (rset (itgU u 0x30) 0 (rset (itgU u 0x28) 0 (rset (itgU u 0x20) (w &&& scrubMask) s))))

section
variable {u : Nat} {w : BitVec 64} {s : State}

theorem scrubWrite_begins (hstart : bit w 63 = true) (hrange : scrubRangeOk u w) (hidle : (integ s u).scrub = none) (hpages : fld w 32 12 ≠ 0) :
    scrubWrite u w s = scrubBegun u w s := by
  obtain ⟨hstore, hfits⟩ := hrange
  unfold scrubWrite
  simp only [hstart, hstore, hidle, Nat.not_lt.mpr hfits, hpages, decide_false, Option.isSome_none, Bool.or_self, Bool.not_true, Bool.false_eq_true, if_false]
  rfl
theorem scrubWrite_refused (hstart : bit w 63 = true) (h : ¬ scrubRangeOk u w ∨ (integ s u).scrub ≠ none) : scrubWrite u w s = itgEvt u 7 318 s := by
  have hbad : (scrubBadStore u (scrubStore u w) || decide (scrubPages u (scrubStore u w) < fld w 0 11 + fld w 32 12) || (integ s u).scrub.isSome) = true := by
    rw [Bool.or_eq_true, Bool.or_eq_true, decide_eq_true_eq, Option.isSome_iff_ne_none, ← Nat.not_le]
    refine h.imp_left fun hrange => ?_
    by_cases hstore : scrubBadStore u (scrubStore u w) = true
    · exact .inl hstore
    · exact .inr fun hfits => hrange ⟨Bool.eq_false_iff.mpr hstore, hfits⟩
  unfold scrubWrite
  simp only [hstart, hbad, Bool.not_true, Bool.false_eq_true, if_false, if_true]

theorem scrubBegun_kept : (scrubBegun u w s).mem = s.mem ∧ (scrubBegun u w s).facets = s.facets := by simp [scrubBegun]
theorem rget_scrubBegun_counts {o : Nat} (ho : o = 0x28 ∨ o = 0x30) : rget (scrubBegun u w s) (itgU u o) = 0 := by
  obtain rfl | rfl := ho
  · rw [scrubBegun, rget_setInteg, rget_rbitSet_ne (by simp), rget_rset_ne (by simp), rget_rset_same]
  · rw [scrubBegun, rget_setInteg, rget_rbitSet_ne (by simp), rget_rset_same]
theorem integ_scrubBegun : (integ (scrubBegun u w s) u).scrub = some (scrubAsked u w) := by rw [scrubBegun, integ_setInteg_same]
theorem rbit_scrubBegun_busy : rbit (scrubBegun u w s) (itgU u 0x20) 62 = true := by
  rw [rbit, scrubBegun, rget_setInteg, rget_rbitSet_same, bit_setBit_same _ _ (by decide)]

end

theorem exec_itgScrubStart (u : Fin 17) (v : BitVec 64) (s : State) : exec (.itgScrubStart u v) s = .next (scrubWrite u (started v) s) := rfl
theorem exec_scrubPassDone {u : Fin 17} {s : State} {st f first n : Nat} (hpass : (integ s u).scrub = some (st, f, first, n))
    (hup : 16 ≤ u.val ∨ crownUp s u = true) (hcopies : retireCopies s u = false) :
    exec (.scrubPassDone u) s = .next (scrubEnd u st (scrubPass u st f first n (advanceTo (copyEnd s u) s))) := by
  have hgate : ((decide (16 ≤ u.val) || crownUp s u) && !retireCopies s u) = true := by simpa [hcopies] using hup
  change execScrubPassDone u s = _
  simp only [execScrubPassDone, hpass, gateAt, hgate, if_true]

theorem scrubEnd_idle (u st : Nat) (s : State) : (integ (scrubEnd u st s) u).scrub = none := by
  rw [scrubEnd, integ_itgEvt, integ_rbitSet, integ_setInteg_same]
theorem rbit_scrubEnd_busy (u st : Nat) (s : State) : rbit (scrubEnd u st s) (itgU u 0x20) 62 = false := by
  rw [rbit, scrubEnd, rget_itgEvt_other _ _ _ _ (by decide) (by decide), rget_rbitSet_same, bit_setBit_same _ _ (by decide)]

theorem scrubPasses : ScrubPasses := by
  intro u v s w
  refine ⟨fun hrange hidle hpages => ?begins, fun hbad => ?refused, fun st f first n hpass hup hcopies => ?ends⟩
  case begins =>
    obtain ⟨hmem, hfacets⟩ := scrubBegun_kept (u := u) (w := w) (s := s)
    have hexec := exec_itgScrubStart u v s
    rw [scrubWrite_begins (bit_started v) hrange hidle hpages] at hexec
    exact ⟨_, hexec, hmem, hfacets, rbit_scrubBegun_busy,
      rget_scrubBegun_counts (.inl rfl), rget_scrubBegun_counts (.inr rfl), integ_scrubBegun⟩
  case refused => rw [exec_itgScrubStart, scrubWrite_refused (bit_started v) hbad]
  case ends => exact ⟨_, exec_scrubPassDone hpass hup hcopies, rfl, scrubEnd_idle .., rbit_scrubEnd_busy .., rbit_itgEvt_same _ _ _ (by decide)⟩

/-! ### The checker's test mode (R282, R283) -/

/-- The fields of a value written to ITG_TCTL are stored. -/
def testFields (c : Nat) (w : BitVec 64) (s : State) : State := rset (itgU c 0x80) (w &&& testMask ||| rget s (itgU c 0x80) &&& 0x200000000) s
/-- READ puts the stored bits of a word into the test registers. -/
def testShows (c : Nat) (r : RawWord) (s : State) : State :=
  rset (itgU c 0xA0) (chkOut r.chk 1) (rset (itgU c 0x98) (chkOut r.chk 0) (rset (itgU c 0x90) ((r.data >>> 64).setWidth 64)
    (rset (itgU c 0x88) (r.data.setWidth 64) (rbitSet (itgU c 0x80) 32 r.v (rbitSet (itgU c 0x80) 33 r.tag s)))))

section
variable {c : Nat} {w : BitVec 64} {s : State}

theorem testWrite_refused (hgo : bit w 63 = true) (h : testRefused s c w = true) : testWrite c w s = itgEvt c 7 318 s := by
  simp only [testWrite, hgo, h, Bool.not_true, Bool.false_eq_true, if_false, if_true]
theorem testWrite_taken (hgo : bit w 63 = true) (h : testRefused s c w = false) : testWrite c w s = testGo c w (testFields c w s) := by
  simp only [testWrite, hgo, h, Bool.not_true, Bool.false_eq_true, if_false]
  rfl
theorem testGo_read (hmode : fld w 60 2 = 0) :
    testGo c w s = testShows c (storedWord s (storeBase c (fld w 58 2) (fld w 55 3) + 16 * fld w 0 18)) s := by
  simp only [testGo, hmode, testShows]

theorem storedWord_rset (a b : Nat) (v : BitVec 64) (s : State) : storedWord (rset a v s) b = storedWord s b := rfl
theorem offRegs_rset (a : Nat) (v : BitVec 64) (s : State) : offRegs (rset a v s) = offRegs s := by simp [offRegs]
theorem offRegs_rbitSet (a i : Nat) (b : Bool) (s : State) : offRegs (rbitSet a i b s) = offRegs s := by simp [offRegs]
theorem testShows_offRegs (c : Nat) (r : RawWord) (s : State) : offRegs (testShows c r s) = offRegs s := by
  simp only [testShows, offRegs_rset, offRegs_rbitSet]

theorem putWordSym_facets (a : Nat) (v : BitVec 130) (s : State) : (putWordSym a v s).facets = s.facets := by simp [putWordSym]
theorem storeRaw_facets (a : Nat) (r : RawWord) (desc : Option (BitVec 130)) (s : State) : (storeRaw a r desc s).facets = s.facets := by
  fun_cases storeRaw a r desc s with
  | case1 _ d => exact putWordSym_facets a d s
  | case2 _ => simp
  | case3 _ _ _ _ _ _ _ _ _ written deviating =>
    have hraw : deviating.facets = written.facets := by
      unfold deviating
      split
      · rfl
      · simp
    simp [hraw, written, putWordSym_facets]
/-- No mode of the test reaches a facet. -/
theorem testGo_facets : (testGo c w s).facets = s.facets := by
  fun_cases testGo c w s with
  | case1 => simp +zetaDelta
  | case2 => exact storeRaw_facets ..
  | case3 => exact (markRewritten_facets ..).trans (storeRaw_facets ..)
  | case4 => exact (markRewritten_facets ..).trans (storeRaw_facets ..)

variable {r : RawWord}

theorem rget_testShows_low : rget (testShows c r s) (itgU c 0x88) = r.data.setWidth 64 := by
  rw [testShows, rget_rset_ne (by simp), rget_rset_ne (by simp), rget_rset_ne (by simp), rget_rset_same]
theorem rget_testShows_high : rget (testShows c r s) (itgU c 0x90) = (r.data >>> 64).setWidth 64 := by
  rw [testShows, rget_rset_ne (by simp), rget_rset_ne (by simp), rget_rset_same]
theorem rget_testShows_control :
    rget (testShows c r s) (itgU c 0x80) = setBit (setBit (rget s (itgU c 0x80)) 33 r.tag) 32 r.v := by
  rw [testShows, rget_rset_ne (by simp), rget_rset_ne (by simp), rget_rset_ne (by simp), rget_rset_ne (by simp)]
  rw [rget_rbitSet_same, rget_rbitSet_same]

end

theorem exec_itgTctlGo {c : Fin 16} {s : State} (hup : crownUp s c = true) (v : BitVec 64) :
    exec (.itgTctlGo c v) s = .next (testWrite c (started v) s) := if_pos hup

theorem checkerTestMode : CheckerTestMode := by
  intro c v s hup w
  have hexec : exec (.itgTctlGo c v) s = .next (testWrite c w s) := exec_itgTctlGo hup v
  refine ⟨fun hbad => ?refused, fun hok hmode => ?read, fun hok => ?facets⟩
  case refused => rw [hexec, testWrite_refused (bit_started v) hbad]
  case read =>
    rw [testWrite_taken (bit_started v) hok, testGo_read hmode, testFields, storedWord_rset] at hexec
    refine ⟨_, hexec, (testShows_offRegs ..).trans (offRegs_rset ..), rget_testShows_low, rget_testShows_high, ?_, ?_⟩
    · rw [rbit, rget_testShows_control, bit_setBit_same _ _ (by decide)]
    · rw [rbit, rget_testShows_control, bit_setBit_ne _ _ (by decide), bit_setBit_same _ _ (by decide)]
  case facets =>
    rw [testWrite_taken (bit_started v) hok] at hexec
    exact ⟨_, hexec, testGo_facets.trans (rset_facets ..)⟩

/-- Settles O33: a scrub pass by what it writes at its start and at its end, the test mode by the registers that a read fills. -/
theorem scrubAndChecker : Obligations.ScrubAndChecker := ⟨scrubPasses, checkerTestMode⟩

end Sys2Proof.Proofs

/-! Retirement of pages and the pounce (R277 to R281): a copy of a page without deviating words changes the stored codes alone, and a retirement into
a spare is the same whether a command or a failed test asked for it. -/
namespace Sys2Proof.Proofs
open Sys2Proof Sys2Proof.Machine Sys2Proof.Laws
open Sys2Proof.Claims (started)

/-! ### Copies of clean pages (R277) -/

/-- The page holds no word whose stored bits deviate. -/
def cleanPage (c l : Nat) (s : State) : Prop := ∀ a, linAddr c l = some a → devWords s a = []
/-- The state without the stored bits that deviate and the deviations of side bytes. -/
def offCodes (s : State) : State := { s with raw := [], sideDev := [] }

theorem cleanPage_congr {s t : State} (h : s.raw = t.raw) (c l : Nat) : cleanPage c l s ↔ cleanPage c l t := by
  simp only [cleanPage, devWords, h]

section
variable {c l : Nat} {s : State} (h : cleanPage c l s)
include h

/-- A copy of a clean page reads nothing that is logged or mended: only the codes are fresh. -/
theorem copied_offCodes : offCodes (copied c l s) = offCodes s := by
  unfold copied
  split
  · rfl
  · next a ha =>
    have hreads : noteReads 4 (devWords s a) s = s := by rw [h a ha]; rfl
    have hmends : mendWords 4 (devWords s a) s = s := by rw [h a ha]; rfl
    dsimp only
    rw [hreads, hmends]
    rfl
theorem copied_mem : (copied c l s).mem = s.mem := (congrArg State.mem (copied_offCodes h) :)
theorem integ_copied (u : Nat) : integ (copied c l s) u = integ s u := integ_congr (congrArg State.integ (copied_offCodes h) :) u
theorem rget_copied (a : Nat) : rget (copied c l s) a = rget s a := rget_congr (congrArg State.regs (copied_offCodes h) :) a

end

/-! ### Retirement into a spare (R278, R280) -/

theorem storeSpares_le (st : Nat) : storeSpares st ≤ 32 := by
  unfold storeSpares
  split <;> decide
theorem lt_of_mem_freeSpares {c l sp : Nat} {s : State} (h : sp ∈ freeSpares s c l) : sp < 64 :=
  calc sp < storeSpares (linPage l).1 := List.mem_range.1 (List.mem_filter.1 h).1
    _ ≤ 32 := storeSpares_le _
    _ < 64 := by decide

/-- The count of free spares goes to a field of ITG_SPARES. -/
theorem showSpares_eq (c l : Nat) (s : State) : ∃ lo w, showSpares c l s = rput (itgU c 0x18) lo w (freeSpares s c l).length s := by
  unfold showSpares
  dsimp only
  split
  · exact ⟨_, _, rfl⟩
  · exact ⟨_, _, rfl⟩
  · exact ⟨_, _, rfl⟩

theorem integ_addRec5 (r : Rec5) (s : State) (c : Nat) : integ (addRec5 r s) c = integ s c := integ_congr (by simp [addRec5]) c
theorem rget_addRec5 (r : Rec5) (s : State) (a : Nat) : rget (addRec5 r s) a = rget s a := rget_congr (by simp [addRec5]) a

/-- The redirection is made and recorded, and SPARE names the spare. -/
def redirected (c l sp : Nat) (s : State) : State :=
  addRec5 (.retirement c l sp) (rput (itgU c 0x38) 40 6 sp (setInteg c { integ s c with redir := tput (integ s c).redir l sp } s))
theorem integ_redirected (c l sp : Nat) (s : State) :
    integ (redirected c l sp s) c = { integ s c with redir := tput (integ s c).redir l sp } := by
  rw [redirected, integ_addRec5, integ_rput, integ_setInteg_same]
theorem redirected_kept (c l sp : Nat) (s : State) : (redirected c l sp s).mem = s.mem ∧ (redirected c l sp s).raw = s.raw := by
  simp [redirected, addRec5]
theorem rget_redirected (c l sp : Nat) (s : State) : rget (redirected c l sp s) (itgU c 0x38) = setFld (rget s (itgU c 0x38)) 40 6 sp := by
  rw [redirected, rget_addRec5, rget_rput_same, rget_setInteg]

section
variable (c l sp : Nat) (s : State)

theorem retireInto_eq : ∃ lo w n, retireInto c l sp s = itgEvt c 6 318 (rput (itgU c 0x18) lo w n (redirected c l sp s)) := by
  obtain ⟨lo, w, hshow⟩ := showSpares_eq c l (redirected c l sp s)
  exact ⟨lo, w, _, congrArg (itgEvt c 6 318) hshow⟩
theorem retireInto_kept : (retireInto c l sp s).mem = s.mem ∧ (retireInto c l sp s).raw = s.raw := by
  obtain ⟨lo, w, n, heq⟩ := retireInto_eq c l sp s
  obtain ⟨-, hraw⟩ := redirected_kept c l sp s
  exact ⟨retireInto_mem .., by rw [heq, itgEvt_raw, ← hraw]; simp⟩
theorem integ_retireInto : integ (retireInto c l sp s) c = { integ s c with redir := tput (integ s c).redir l sp } := by
  obtain ⟨lo, w, n, heq⟩ := retireInto_eq c l sp s
  rw [heq, integ_itgEvt, integ_rput, integ_redirected]
theorem rget_retireInto : rget (retireInto c l sp s) (itgU c 0x38) = setFld (rget s (itgU c 0x38)) 40 6 sp := by
  obtain ⟨lo, w, n, heq⟩ := retireInto_eq c l sp s
  rw [heq, rget_itgEvt_other _ _ _ _ (by decide) (by decide), rget_rput_ne (by simp), rget_redirected]
theorem rbit_retireInto : rbit (retireInto c l sp s) (itgU c 8) 6 = true := rbit_itgEvt_same c 318 _ (by decide)

end

/-! ### ITG_RETIRE (R278) -/

/-- The page that a value of ITG_RETIRE names. -/
def retireAsked (w : BitVec 64) : Nat := pageLin (fld w 60 2) (fld w 57 3) (fld w 0 11)
/-- The retirement that it asks for is not refused. -/
def mayRetire (c : Nat) (w : BitVec 64) (s : State) : Prop :=
  fld w 60 2 ≠ 3 ∧ fld w 0 11 < storePages (fld w 60 2) ∧ (integ s c).redir.any (fun r => r.1 == retireAsked w) = false ∧
    1 < (freeSpares s c (retireAsked w)).length ∧ (integ s c).retiring = none
/-- The retirement runs: BUSY stands, and START reads 0 (log entry 74). -/
def retireBegun (c : Nat) (w : BitVec 64) (s : State) : State :=
  setInteg c { integ s c with retiring := some (retireAsked w) }
    (rset (itgU c 0x38) (w &&& retireMask ||| rget s (itgU c 0x38) &&& 0x40003F0000000000 ||| 0x4000000000000000) s)

section
variable {c : Nat} {w : BitVec 64} {s : State}

theorem retireWrite_started (hstart : bit w 63 = true) :
    (mayRetire c w s → retireWrite c w s = retireBegun c w s) ∧ (¬ mayRetire c w s → retireWrite c w s = itgEvt c 7 318 s) := by
  have hrefuse : (fld w 60 2 = 3 ∨ storePages (fld w 60 2) ≤ fld w 0 11 ∨ (integ s c).redir.any (fun r => r.1 == retireAsked w) = true ∨
      (freeSpares s c (retireAsked w)).length ≤ 1 ∨ (integ s c).retiring.isSome = true) ↔ ¬ mayRetire c w s := by
    simp only [mayRetire, not_and_or, not_not, Nat.not_lt, Bool.not_eq_false, ← Option.isSome_iff_ne_none]
  unfold retireWrite
  simp only [hstart, Bool.not_true, Bool.false_eq_true, if_false]
  exact ⟨fun hok => if_neg fun h => hrefuse.1 h hok, fun hbad => if_pos (hrefuse.2 hbad)⟩

theorem retireBegun_kept : (retireBegun c w s).mem = s.mem ∧ (retireBegun c w s).facets = s.facets := by simp [retireBegun]
theorem integ_retireBegun : integ (retireBegun c w s) c = { integ s c with retiring := some (retireAsked w) } := integ_setInteg_same ..
theorem rbit_retireBegun_busy : rbit (retireBegun c w s) (itgU c 0x38) 62 = true := by
  rw [rbit, retireBegun, rget_setInteg, rget_rset_same]
  simp [bit]

end

theorem exec_itgRetireStart (c : Fin 16) (v : BitVec 64) (s : State) : exec (.itgRetireStart c v) s = .next (retireWrite c (started v) s) := rfl

/-! ### The end of a retirement (R277, R278) -/

/-- The retirement no longer runs, and the page stands in its spare. -/
def retirementEnded (c l sp : Nat) (s : State) : State :=
  retireInto c l sp (rbitSet (itgU c 0x38) 62 false (setInteg c { integ s c with retiring := none } s))

theorem exec_retirementDone {c : Fin 16} {s : State} {l sp : Nat} {rest : List Nat} (hl : (integ s c).retiring = some l)
    (hfree : freeSpares s c l = sp :: rest) (hserved : copyServed s c = true) (hcopies : retireCopies s c = true) :
    exec (.retirementDone c) s = .next (copied c l (retirementEnded c l sp s)) := by
  change execRetirementDone c s = _
  simp only [execRetirementDone, hl, Option.bind_some, hfree, List.head?_cons, hserved, hcopies, Bool.and_self, gate, if_true]
  rfl

section
variable (c l sp : Nat) (s : State)

theorem retirementEnded_kept : (retirementEnded c l sp s).mem = s.mem ∧ (retirementEnded c l sp s).raw = s.raw := by
  simp [retirementEnded, retireInto_kept]
theorem integ_retirementEnded :
    integ (retirementEnded c l sp s) c = { integ s c with retiring := none, redir := tput (integ s c).redir l sp } := by
  rw [retirementEnded, integ_retireInto, integ_rbitSet, integ_setInteg_same]
theorem rget_retirementEnded :
    rget (retirementEnded c l sp s) (itgU c 0x38) = setFld (setBit (rget s (itgU c 0x38)) 62 false) 40 6 sp := by
  rw [retirementEnded, rget_retireInto, rget_rbitSet_same, rget_setInteg]

end

/-! ### The pounce (R279, R280) -/

theorem fld_pounceStat_step (l count : Nat) : fld (pounceStat l count) 60 3 = 1 := by
  rw [pounceStat, fld_setFld_apart _ (by decide), fld_setFld_same _ _ _ _ (by decide), Nat.mod_eq_of_lt (by decide)]

/-- The test of page `l` in the spare `sp` has begun with its copy out, which ends after the 96 FCLK that R277 allows (log entry 24). -/
def pounceBegun (c l sp : Nat) (s : State) : State :=
  rset (itgU c 0x40) (pounceStat l (rfld s (itgU c 0x40) 0 32))
    (setInteg c { integ s c with test := some (l, sp), copy := some (s.fclk + copyFclk), next := (l + 1) % linTotal } s)
theorem pounceStart_eq (c l : Nat) (s : State) : pounceStart c l s = copied c l (pounceBegun c l ((heldSpare s c l).getD 0) s) := rfl

/-- The copy back has begun: STEP reads 3. -/
def backBegun (c : Nat) (s : State) : State := rput (itgU c 0x40) 60 3 3 (setInteg c { integ s c with copy := some (s.fclk + copyFclk) } s)
theorem copyBack_eq (c l : Nat) (s : State) : copyBack c l s = copied c l (backBegun c s) := rfl

/-- After a test the engine has no page under test, and its redirections stand. -/
theorem integ_pounceIdle (c f : Nat) (s : State) :
    integ (pounceIdle c f s) c = { integ s c with test := none, copy := none, due := f + rfld s (itgU c 0) 32 16 * usFclk } := by
  simp only [pounceIdle, integ_rput, integ_rbitSet, integ_setInteg_same]
theorem pounceIdle_kept (c f : Nat) (s : State) : (pounceIdle c f s).mem = s.mem ∧ (pounceIdle c f s).raw = s.raw := by simp [pounceIdle]

section
variable {c : Fin 16} {s : State} {l sp : Nat}

theorem exec_pounceIntervalExpiry (hnext : nextTest s c (integ s c).next = some l) (hon : rbit s (itgU c 0) 0 = true) (hidle : (integ s c).test = none)
    (hup : crownUp s c = true) (hretire : ∀ r, (integ s c).retiring = some r → sameStore r l = false) :
    exec (.pounceIntervalExpiry c) s = .next (pounceStart c l (advanceTo (integ s c).due s)) := by
  have hapart : (integ s c).retiring.any (fun r => sameStore r l) = false := by
    cases hr : (integ s c).retiring with
    | none => rfl
    | some r => exact hretire r hr
  have hgate : (rbit s (itgU c 0) 0 && (integ s c).test.isNone && crownUp s c && !(integ s c).retiring.any fun r => sameStore r l) = true := by
    simp only [hon, hidle, hup, hapart, Option.isNone_none, Bool.not_false, Bool.and_self]
  change execPounceIntervalExpiry c s = _
  unfold execPounceIntervalExpiry
  dsimp only
  rw [hnext]
  exact if_pos hgate

theorem exec_pounceTestDone (htest : (integ s c).test = some (l, sp)) (hscrub : (integ s c).scrub = none) (hup : crownUp s c = true)
    (hstep : rfld s (itgU c 0x40) 60 3 ≠ 3) (pass : Bool) : exec (.pounceTestDone c pass) s =
      .next (if pass then copyBack c l (advanceTo (copyEnd s c) s) else pounceFail c l sp (advanceTo (copyEnd s c) s)) := by
  change execPounceTestDone c pass s = _
  simp only [execPounceTestDone, htest, gateAt, hup, hscrub, bne_iff_ne.2 hstep, Option.isNone_none, Bool.and_self, if_true]
  cases pass <;> rfl

end

section
variable {c l : Nat} {s : State}

/-- The copy out has switched: the page is tested in its spare. -/
theorem copySwitch_out {f : Nat} (hcopy : (integ s c).copy = some f) (hf : f ≤ s.fclk) (hstep : rfld s (itgU c 0x40) 60 3 ≠ 3) :
    copySwitch c s = rput (itgU c 0x40) 60 3 2 (setInteg c { integ s c with copy := none } s) := by
  simp only [copySwitch, hcopy, Nat.not_lt.2 hf, hstep, if_false]
/-- The copy back has switched: the test is over. -/
theorem copySwitch_back {f : Nat} (hcopy : (integ s c).copy = some f) (hf : f ≤ s.fclk) (hstep : rfld s (itgU c 0x40) 60 3 = 3) :
    copySwitch c s = pounceIdle c f s := by
  simp only [copySwitch, hcopy, Nat.not_lt.2 hf, hstep, if_false, if_true]

theorem pounceStart_of_clean (h : cleanPage c l s) :
    (integ (pounceStart c l s) c).test = some (l, (heldSpare s c l).getD 0) ∧ (integ (pounceStart c l s) c).copy = some (s.fclk + copyFclk) ∧
      rfld (pounceStart c l s) (itgU c 0x40) 60 3 = 1 ∧ (pounceStart c l s).mem = s.mem := by
  have hclean : cleanPage c l (pounceBegun c l ((heldSpare s c l).getD 0) s) := (cleanPage_congr (by simp [pounceBegun]) c l).2 h
  rw [pounceStart_eq, integ_copied hclean, rfld, rget_copied hclean, copied_mem hclean]
  rw [pounceBegun, integ_rset, integ_setInteg_same, rget_rset_same]
  exact ⟨rfl, rfl, fld_pounceStat_step .., by simp⟩
theorem copyBack_of_clean (h : cleanPage c l s) :
    (integ (copyBack c l s) c).test = (integ s c).test ∧ (integ (copyBack c l s) c).redir = (integ s c).redir ∧
      rfld (copyBack c l s) (itgU c 0x40) 60 3 = 3 ∧ (copyBack c l s).mem = s.mem := by
  have hclean : cleanPage c l (backBegun c s) := (cleanPage_congr (by simp [backBegun]) c l).2 h
  rw [copyBack_eq, integ_copied hclean, rfld, rget_copied hclean, copied_mem hclean]
  rw [backBegun, integ_rput, integ_setInteg_same, rget_rput_same, fld_setFld_same _ _ _ _ (by decide)]
  exact ⟨rfl, rfl, rfl, by simp⟩
theorem pounceFail_of_clean (h : cleanPage c l s) (sp : Nat) :
    (integ (pounceFail c l sp s) c).test = none ∧ (integ (pounceFail c l sp s) c).redir = tput (integ s c).redir l sp ∧
      rfld (pounceFail c l sp s) (itgU c 0x38) 40 6 = sp % 64 ∧ rbit (pounceFail c l sp s) (itgU c 8) 4 = true ∧ (pounceFail c l sp s).mem = s.mem := by
  obtain ⟨hmem, hraw⟩ := retireInto_kept c l sp (pounceIdle c s.fclk s)
  obtain ⟨hmem', hraw'⟩ := pounceIdle_kept c s.fclk s
  have hclean : cleanPage c l (retireInto c l sp (pounceIdle c s.fclk s)) := (cleanPage_congr (hraw.trans hraw') c l).2 h
  have hinteg : integ (pounceFail c l sp s) c = _ :=
    (integ_itgEvt ..).trans ((integ_copied hclean c).trans ((integ_retireInto ..).trans (by rw [integ_pounceIdle])))
  refine ⟨by rw [hinteg], by rw [hinteg], ?spare, rbit_itgEvt_same _ _ _ (by decide), ?mem⟩
  case spare =>
    rw [rfld, pounceFail, rget_itgEvt_other _ _ _ _ (by decide) (by decide), rget_copied hclean, rget_retireInto]
    exact fld_setFld_same _ 40 6 sp (by decide)
  case mem => exact (itgEvt_mem ..).trans ((copied_mem hclean).trans (hmem.trans hmem'))

end

/-! ### The statement -/

/-- Settles O34: each command by the state that it answers, each step of the pounce by its copy of a clean page. -/
theorem retirementAndPounce : Obligations.RetirementAndPounce := by
  intro c v s w st l x ok clean
  refine ⟨fun hok => ?begins, fun hbad => ?refused, fun l sp rest hl hfree hserved hcopies h => ?ends, fun l hnext hon hidle hup hretire => ?expiry,
    fun f hcopy hf => ⟨fun hstep => ?out, fun hstep => ?back⟩, fun l sp htest hscrub hup hstep h => ⟨?passes, ?fails⟩⟩
  case begins =>
    obtain ⟨hmem, hfacets⟩ := retireBegun_kept (c := c) (w := w) (s := s)
    refine ⟨_, exec_itgRetireStart c v s, ?_⟩
    rw [(retireWrite_started (bit_started v)).1 hok]
    exact ⟨integ_retireBegun, rbit_retireBegun_busy, hmem, hfacets⟩
  case refused => rw [exec_itgRetireStart, (retireWrite_started (bit_started v)).2 hbad]
  case ends =>
    obtain ⟨hmem, hraw⟩ := retirementEnded_kept c l sp s
    have hclean : cleanPage c l (retirementEnded c l sp s) := (cleanPage_congr hraw c l).2 h
    have hsp : sp < 2 ^ 6 := lt_of_mem_freeSpares (hfree ▸ List.mem_cons_self)
    refine ⟨_, exec_retirementDone hl hfree hserved hcopies, ?_⟩
    rw [integ_copied hclean, integ_retirementEnded, copied_mem hclean, rbit, rbit, rfld, rget_copied hclean, rget_copied hclean, rget_retirementEnded]
    refine ⟨rfl, hmem, ?_, ?_, rbit_retireInto ..⟩
    · rw [bit_setFld_apart _ (by decide), bit_setBit_same _ _ (by decide)]
    · rw [fld_setFld_same _ _ _ _ (by decide), Nat.mod_eq_of_lt hsp]
  case expiry => exact ⟨_, exec_pounceIntervalExpiry hnext hon hidle hup hretire, rfl, pounceStart_of_clean⟩
  case out =>
    rw [copySwitch_out hcopy hf hstep, rfld, rget_rput_same, integ_rput, integ_setInteg_same, fld_setFld_same _ _ _ _ (by decide)]
    exact ⟨rfl, rfl⟩
  case back =>
    rw [copySwitch_back hcopy hf hstep, integ_pounceIdle]
    exact ⟨rfl, rfl⟩
  case passes => exact ⟨_, exec_pounceTestDone htest hscrub hup hstep true, copyBack_of_clean h⟩
  case fails => exact ⟨_, exec_pounceTestDone htest hscrub hup hstep false, pounceFail_of_clean h sp⟩

end Sys2Proof.Proofs

/-! The stream movers (R285 to R302, R531, R582): a channel's registers and what its sides depend on; then what reads and writes of on-die stores
leave of the registers, and from it what one beat does. -/
namespace Sys2Proof.Proofs
open Sys2Proof Sys2Proof.Machine Sys2Proof.Claims Sys2Proof.Laws

/-! ### A channel and its registers -/

@[simp] theorem chanReg_inj {k o o' : Nat} : chanReg k o = chanReg k o' ↔ o = o' := by
  simp only [chanReg, crownReg, girdle]
  split <;> omega

@[simp] theorem chan_setChan_same (k : Nat) (x : Chan) (s : State) : chan (setChan k x s) k = x := tget_tset_self ..
/-- The channels are read from their table alone. -/
theorem chan_congr {s t : State} (h : s.chans = t.chans) (k : Nat) : chan s k = chan t k := by simp [chan, h]
theorem rget_setChan (k : Nat) (x : Chan) (s : State) (a : Nat) : rget (setChan k x s) a = rget s a := rget_congr (by simp) a

section
variable {k : Nat} {s t : State}

theorem side_congr (h : ∀ o, 0x20 ≤ o → o < 0x60 → rget t (chanReg k o) = rget s (chanReg k o)) (dst : Bool) : side t k dst = side s k dst := by
  cases dst <;> simp [side, rfld, h]
theorem remoteSide_congr (heth : rget t (ethReg (0x8000 + 8 * (k - 272))) = rget s (ethReg (0x8000 + 8 * (k - 272))))
    (hses : rget t (sesReg 0x20) = rget s (sesReg 0x20)) (dst : Bool) : remoteSide t k dst = remoteSide s k dst := by
  unfold remoteSide rfld
  rw [heth, hses]
theorem partitionRefuses_congr (h : t.locks = s.locks) (a : Nat) (who : Agent) : partitionRefuses t a who = partitionRefuses s a who := by
  unfold partitionRefuses inPartition
  rw [h]

end

/-! ### Registers of the integrity engines -/

/-- A register of an integrity engine or of its error log (R269 to R271, R284), or INT_SGSUM, where its events show too (R221). -/
def integReg (b : Nat) : Prop :=
  (girdle 0x40000 ≤ b ∧ b < girdle 0x50000) ∨ b = intReg 0x38 ∨
    (girdle 0x8000000 ≤ b ∧ 0x2000 ≤ (b - girdle 0x8000000) % 0x10000 ∧ (b - girdle 0x8000000) % 0x10000 < 0x4000)

theorem crownReg_integReg (c : Nat) {o : Nat} (h : 0x2000 ≤ o) (h' : o < 0x4000) : integReg (crownReg c o) := by
  simp only [integReg, crownReg, girdle, intReg]
  omega
theorem itgReg_integReg {o : Nat} (h : o < 0x10000) : integReg (itgReg o) := by
  simp only [integReg, itgReg, girdle, intReg]
  omega
theorem itgU_integReg (u : Nat) {o : Nat} (h : o < 0x1000) : integReg (itgU u o) := by
  unfold itgU
  split
  · exact crownReg_integReg _ (by omega) (by omega)
  · exact itgReg_integReg (by omega)
theorem logEntry_integReg {u e o : Nat} (he : e < logSize u) (ho : o < 32) : integReg (logEntry u e + o) := by
  unfold logSize at he
  unfold logEntry
  split at he
  · have h := crownReg_integReg u (o := 0x2000 + 32 * e + o) (by omega) (by omega)
    simpa [*, crownReg, girdle, Nat.add_assoc] using h
  · have h := itgReg_integReg (o := 0x1000 + 32 * e + o) (by omega)
    simpa [*, itgReg, girdle, Nat.add_assoc] using h
theorem logBase_integReg {w a : Nat} (hlo : (logBase w).1 ≤ a) (hhi : a < (logBase w).1 + 32 * (logBase w).2) : integReg a := by
  unfold logBase at hlo hhi
  simp only [integReg, girdle, intReg]
  split at hlo
  · simp_all only [crownReg, girdle]
    omega
  · simp_all only [itgReg, girdle]
    omega
theorem loggedAt_integReg {w a : Nat} {s : State} (h : a ∈ loggedAt w s) : integReg a := by
  obtain ⟨p, hp, rfl⟩ := List.mem_map.1 h
  have hused := (List.mem_filter.1 hp).2
  simp only [Bool.and_eq_true, decide_eq_true_eq] at hused
  obtain ⟨⟨⟨⟨⟨hlo, hhi⟩, -⟩, -⟩, -⟩, -⟩ := hused
  exact logBase_integReg hlo hhi

/-- A channel's registers, the Ethernet block's and the sessions' are not among them. -/
theorem chanReg_not_integReg {k o : Nat} (hk : k < 288) (ho : o < 0x400) : ¬ integReg (chanReg k o) := by
  simp only [integReg, chanReg, crownReg, girdle, intReg]
  split <;> omega
theorem ethReg_not_integReg {o : Nat} (h : o < 0x10000) : ¬ integReg (ethReg o) := by
  simp only [integReg, ethReg, girdle, intReg]
  omega
theorem sesReg_not_integReg {o : Nat} (h : o < 0x100000) : ¬ integReg (sesReg o) := by
  simp only [integReg, sesReg, girdle, intReg]
  omega

theorem rget_rbitSet_fold_ne {l : List Nat} {b : Nat} (h : ∀ a ∈ l, b ≠ a) (i : Nat) (x : Bool) (s : State) :
    rget (l.foldl (fun s a => rbitSet a i x s) s) b = rget s b := by
  induction l generalizing s with
  | nil => rfl
  | cons a l ih =>
    obtain ⟨ha, hl⟩ := List.forall_mem_cons.1 h
    rw [List.foldl_cons, ih hl, rget_rbitSet_ne ha]

section
variable {b : Nat} (hb : ¬ integReg b)
include hb

theorem ne_of_not_integReg {a : Nat} (ha : integReg a) : b ≠ a := fun h => hb (h ▸ ha)
theorem rget_itgEvt_apart (u i src : Nat) (s : State) : rget (itgEvt u i src s) b = rget s b :=
  rget_itgEvt_ne (ne_of_not_integReg hb (itgU_integReg u (by decide))) (fun h => hb (.inr (.inl h))) i src s
theorem rget_logDropped_apart (u src : Nat) (s : State) : rget (logDropped u src s) b = rget s b :=
  (rget_itgEvt_apart hb ..).trans (rget_rsat_ne (ne_of_not_integReg hb (itgU_integReg u (by decide))) ..)
theorem rget_logThresh_apart (u e src : Nat) (s : State) : rget (logThresh u e src s) b = rget s b := by
  unfold logThresh
  dsimp only
  split
  · exact rget_itgEvt_apart hb ..
  · rfl
theorem rget_logOne_apart (u : Nat) (s : State) (ev : LogEvent) : rget (logOne u s ev) b = rget s b := by
  have hentry {e : Nat} (he : e ∈ List.range (logSize u)) {o : Nat} (ho : o < 32) : b ≠ logEntry u e + o :=
    ne_of_not_integReg hb (logEntry_integReg (List.mem_range.1 he) ho)
  have hcount : b ≠ itgU u 0x10 := ne_of_not_integReg hb (itgU_integReg u (by decide))
  unfold logOne
  dsimp only
  split
  · next e he =>
    have hmem := List.mem_of_find?_eq_some he
    have h0 : b ≠ logEntry u e := hentry hmem (o := 0) (by decide)
    have h8 : b ≠ logEntry u e + 8 := hentry hmem (by decide)
    have h24 : b ≠ logEntry u e + 24 := hentry hmem (by decide)
    simp only [apply_ite (rget · b), rget_logThresh_apart hb, rget_itgEvt_apart hb, rget_rbitSet_ne h0, rget_rset_ne h24, rget_rput_ne h8,
      rget_rsat_ne h8, ite_self]
  · split
    · exact rget_logDropped_apart hb ..
    · next e he =>
      have hmem := List.mem_of_find?_eq_some he
      have h0 : b ≠ logEntry u e := hentry hmem (o := 0) (by decide)
      rw [rget_logThresh_apart hb, rget_rput_ne hcount, rget_rset_ne (hentry hmem (by decide)), rget_rset_ne (hentry hmem (by decide)),
        rget_rset_ne (hentry hmem (by decide)), rget_rset_ne h0]
      exact rget_congr (by simp) b
theorem rget_noteReads_apart (port : Nat) (words : List Nat) (s : State) : rget (noteReads port words s) b = rget s b := by
  unfold noteReads
  refine foldl_keeps (part := (rget · b)) (fun s w => ?_) words s
  split
  · split
    · rfl
    · exact (foldl_keeps (part := (rget · b)) (fun s ev => rget_logDropped_apart hb _ (evSource ev) s) _ _).trans
        (foldl_keeps (part := (rget · b)) (rget_logOne_apart hb _) ..)
  · rfl
theorem rget_markRewritten_apart (w : Nat) (s : State) : rget (markRewritten w s) b = rget s b :=
  rget_rbitSet_fold_ne (fun _ ha => ne_of_not_integReg hb (loggedAt_integReg ha)) 59 true s

end

theorem noteReads_marks (port : Nat) (words : List Nat) (s : State) : (noteReads port words s).marks = s.marks := by
  unfold noteReads
  refine foldl_keeps (part := State.marks) (fun s w => ?_) words s
  split
  · split
    · rfl
    · exact (congrArg State.marks (logEvents_offLog ..) :)
  · rfl

/-! ### Memory accesses of a channel at on-die stores (R228 to R235) -/

/-- An on-die store is neither a register block, a FIFO window nor a session context. -/
theorem onDie_plain {a : Nat} (h : isOnDie a = true) : cellWindow a = false ∧ macWindow a = false ∧ ctxAt a = none ∧ isRegister a = false := by
  unfold isOnDie crownAt at h
  unfold cellWindow macWindow ctxAt isRegister
  split at h <;> simp_all
theorem onDie_not_dram {a : Nat} (h : isOnDie a = true) : (region a == .dram) = false := by
  unfold isOnDie crownAt at h
  split at h <;> simp_all

section
variable {who : Agent} {perm a : Nat} {s : State}

/-- While no chunk fills, a read waits for nothing. -/
theorem memoryRead_of_noFills (len : Nat) (h : s.fills = []) : memoryRead a len s = (readBytes s 2 a len, noteReads 2 (wordsIn a len) s) := by
  have hsettle (x : Nat) : settleChunk x s = s := by simp [settleChunk, h, finishFills]
  have hfold : ∀ l : List Nat, l.foldl (fun s i => if len ≤ i * 0x200000 - a % 0x200000 then s else settleChunk (a + i * 0x200000) s) s = s := by
    intro l
    induction l with
    | nil => rfl
    | cons i l ih => rw [List.foldl_cons, hsettle, ite_self, ih]
  unfold memoryRead
  dsimp only
  rw [hfold]
/-- In an FCLK without writes a read finds the bytes that stand. -/
theorem readBytes_unmarked (rank len : Nat) (h : s.marks = []) : readBytes s rank a len = bytesAt s a len := by
  have hbyte (x : Nat) : readByte s rank x = byteAt s x := by simp [readByte, marksOn, h]
  simp only [readBytes, bytesAt, hbyte]
theorem readAt_onDie (len : Nat) (hdie : isOnDie a = true) (hserved : partitionRefuses s a who = false) (hfills : s.fills = [])
    (hmarks : s.marks = []) : readAt who perm a len s = (some (bytesAt s a len), noteReads 2 (wordsIn a len) s) := by
  obtain ⟨hcell, hmac, -, hreg⟩ := onDie_plain hdie
  unfold readAt
  simp only [hcell, hmac, hreg, hserved, Bool.false_eq_true, if_false, memoryRead_of_noFills len hfills, readBytes_unmarked 2 len hmarks]

variable {bs : List Byte} (hne : bs ≠ []) (hfit : a % 16 + bs.length ≤ 16)
include hne hfit

/-- Bytes within one word are one piece. -/
theorem pieces_within : pieces (bs.length + 1) a bs = [(a, bs)] := by
  obtain ⟨n, hn⟩ : ∃ n, bs.length = n + 1 := Nat.exists_eq_succ_of_ne_zero (mt List.length_eq_zero_iff.1 hne)
  rw [pieces, if_neg (by simpa using hne)]
  dsimp only
  rw [List.take_of_length_le (by omega), List.drop_of_length_le (by omega), hn]
  rfl
theorem writeAt_onDie (hdie : isOnDie a = true) (hserved : partitionRefuses s a who = false) :
    writeAt who perm a bs s = (true, writeWord who 2 a bs false (nextWrite s)) := by
  obtain ⟨hcell, hmac, hctx, hreg⟩ := onDie_plain hdie
  have hmem (t : State) : writeMem who a bs t = writeWord who 2 a bs false t := by
    unfold isOnDie crownAt at hdie
    unfold writeMem
    split at hdie <;> simp_all [pieces_within hne hfit]
  unfold writeAt
  simp only [hcell, hmac, hctx, hreg, hserved, pieces_within hne hfit, hmem, Bool.false_eq_true, if_false, List.foldl_cons, List.foldl_nil]

theorem rget_writeWord_apart {b : Nat} (hb : ¬ integReg b) {rank : Nat} {tag : Bool} (hmarks : marksOn s (wordOf a) = []) :
    rget (writeWord who rank a bs tag s) b = rget s b := by
  have hmask := wordMask_ne_zero (o := a - wordOf a) (List.length_pos_iff.2 hne) (by unfold wordOf; omega)
  obtain ⟨marks, vbits, hw⟩ := writeWord_unmarked (who := who) (rank := rank) (tag := tag) rfl hmarks hmask
  have hraw (w : Nat) (m : BitVec 16) (x : Bool) (t : State) : (rawWrite w m x t).regs = t.regs := by unfold rawWrite; split <;> simp
  have hresv (w : Nat) (t : State) : (dropResv w who t).regs = t.regs :=
    foldl_keeps (part := State.regs) (fun t p => by simp) _ t
  rw [hw, rget_congr (hresv ..), rget_markRewritten_apart hb]
  exact rget_congr (by simp [hraw]) b

end

/-! ### One beat (R290) -/

/-- What a beat relies on, from the state in which it begins to the one in which it writes: memory without writes of this FCLK, and every register
outside the integrity engines. -/
structure BeatKeeps (s t : State) : Prop where
  mem : t.mem = s.mem
  marks : t.marks = s.marks
  locks : t.locks = s.locks
  regs : ∀ b, ¬ integReg b → rget t b = rget s b

namespace BeatKeeps
theorem refl (s : State) : BeatKeeps s s := ⟨rfl, rfl, rfl, fun _ _ => rfl⟩

variable {k : Nat} {s t : State}

theorem after_setChan (h : BeatKeeps s t) (x : Chan) : BeatKeeps s (setChan k x t) :=
  ⟨by simpa using h.mem, by simpa using h.marks, by simpa using h.locks, fun b hb => (rget_setChan ..).trans (h.regs b hb)⟩
theorem after_noteReads (h : BeatKeeps s t) (port : Nat) (words : List Nat) : BeatKeeps s (noteReads port words t) where
  mem := (noteReads_mem ..).trans h.mem
  marks := (noteReads_marks ..).trans h.marks
  locks := (locks_of_offLandings (noteReads_offLandings ..)).trans h.locks
  regs b hb := (rget_noteReads_apart hb ..).trans (h.regs b hb)

variable (h : BeatKeeps s t)
include h

theorem rget_chanReg {o : Nat} (hk : k < 288) (ho : o < 0x400) : rget t (chanReg k o) = rget s (chanReg k o) := h.regs _ (chanReg_not_integReg hk ho)
theorem chanState_eq (hk : k < 288) : chanState t k = chanState s k := by rw [chanState, chanState, rfld, rfld, h.rget_chanReg hk (by decide)]
theorem side_eq (hk : k < 288) (dst : Bool) : side t k dst = side s k dst := side_congr (fun o _ ho => h.rget_chanReg hk (by omega)) dst
theorem remoteSide_eq (hk : k < 288) (dst : Bool) : remoteSide t k dst = remoteSide s k dst :=
  remoteSide_congr (h.regs _ (ethReg_not_integReg (by omega))) (h.regs _ (sesReg_not_integReg (by decide))) dst

end BeatKeeps

theorem moverOf_val (k : Fin 288) : moverOf k = .mover k := by simp [moverOf]
theorem remoteSide_setChan (k : Nat) (x : Chan) (s : State) (j : Nat) (dst : Bool) : remoteSide (setChan k x s) j dst = remoteSide s j dst :=
  remoteSide_congr (rget_setChan ..) (rget_setChan ..) dst
theorem chan_noteReads (port : Nat) (words : List Nat) (s : State) (k : Nat) : chan (noteReads port words s) k = chan s k :=
  chan_congr (congrArg State.chans (noteReads_offLandings port words s) :) k

/-- With an empty holding register nothing is written. -/
theorem pump_empty {k : Nat} {s : State} (h : (chan s k).hold = []) : ∀ fuel, pump fuel k s = s
  | 0 => rfl
  | fuel + 1 => by
    unfold pump
    simp [h]
/-- A holding register with one destination element in it is written and then empty. -/
theorem pump_one {k : Nat} {s t : State} (hgoes : chanGoes s k = true) (hlen : (chan s k).hold.length = 2 ^ (side s k true).ew)
    (hwrite : destWrite k (chan s k).hold (setChan k { chan s k with hold := [] } s) = t) (hempty : (chan t k).hold = []) (fuel : Nat) :
    pump (fuel + 1) k s = t := by
  unfold pump
  simp only [hgoes, hlen, Nat.lt_irrefl, decide_false, Bool.not_true, Bool.or_self, Bool.false_eq_true, if_false]
  rw [List.take_of_length_le hlen.le, List.drop_of_length_le hlen.le, hwrite, pump_empty hempty]

/-- Where the next source element lies. -/
def beatFrom (s : State) (k : Nat) : Nat := (side s k false).elem (chan s k).rpos
/-- Where the next destination element lies. -/
def beatTo (s : State) (k : Nat) : Nat := (side s k true).elem (chan s k).wpos
/-- The bytes of the next source element. -/
def beatBytes (s : State) (k : Nat) : List Byte := bytesAt s (beatFrom s k) (2 ^ (side s k false).ew)

theorem length_beatBytes (s : State) (k : Nat) : (beatBytes s k).length = 2 ^ (side s k false).ew := by simp [beatBytes, bytesAt]

/-- A beat from one on-die store to another, of one element for one, in an FCLK without writes. -/
structure LocalBeat (k : Fin 288) (s : State) : Prop where
  width_eq : (side s k false).ew = (side s k true).ew
  width_le : (side s k false).ew ≤ 4
  aligned : beatTo s k % 2 ^ (side s k false).ew = 0
  onDie_from : isOnDie (beatFrom s k) = true
  onDie_to : isOnDie (beatTo s k) = true
  served_from : partitionRefuses s (beatFrom s k) (.mover k) = false
  served_to : partitionRefuses s (beatTo s k) (.mover k) = false
  local_from : remoteSide s k false = none
  local_to : remoteSide s k true = none
  goes : chanGoes s k = true
  hold : (chan s k).hold = []
  marks : s.marks = []
  fills : s.fills = []

/-- The source element is in the holding register. -/
def elemHeld (k : Nat) (s : State) : State :=
  setChan k { chan s k with rpos := (chan s k).rpos + 1, took := (chan s k).took + 1, hold := (chan s k).hold ++ beatBytes s k }
    (noteReads 2 (wordsIn (beatFrom s k) (2 ^ (side s k false).ew)) (setChan k { chan s k with rpos := (chan s k).rpos + 1 } s))
/-- It has left the holding register for its destination. -/
def elemPlaced (k : Nat) (s : State) : State :=
  setChan k { chan (elemHeld k s) k with hold := [], wpos := (chan s k).wpos + 1 } (setChan k { chan (elemHeld k s) k with hold := [] } (elemHeld k s))
/-- It is written and acknowledged. -/
def elemWritten (k : Fin 288) (s : State) : State :=
  ackBytes k (beatBytes s k).length (writeWord (.mover k) 2 (beatTo s k) (beatBytes s k) false (nextWrite (elemPlaced k s)))

theorem elemHeld_keeps (k : Nat) (s : State) : BeatKeeps s (elemHeld k s) := (((BeatKeeps.refl s).after_setChan ..).after_noteReads ..).after_setChan _
theorem elemPlaced_keeps (k : Nat) (s : State) : BeatKeeps s (elemPlaced k s) := ((elemHeld_keeps k s).after_setChan _).after_setChan _
theorem chan_elemHeld (k : Nat) (s : State) : chan (elemHeld k s) k = { chan s k with
    rpos := (chan s k).rpos + 1, took := (chan s k).took + 1, hold := (chan s k).hold ++ beatBytes s k } := chan_setChan_same ..
theorem chan_elemPlaced (k : Nat) (s : State) : chan (elemPlaced k s) k = { chan s k with
    rpos := (chan s k).rpos + 1, took := (chan s k).took + 1, wpos := (chan s k).wpos + 1, hold := [] } := by
  rw [elemPlaced, chan_setChan_same, chan_elemHeld]
theorem chan_elemWritten (k : Fin 288) (s : State) : chan (elemWritten k s) k = chan (elemPlaced k s) k := by
  have hkeep := congrArg State.chans (writeWord_offLandings (.mover k) 2 (beatTo s k) (beatBytes s k) false (nextWrite (elemPlaced k s)))
  exact chan_congr (by simpa [elemWritten, ackBytes, offLandings] using hkeep) k

theorem srcRead_of_readAt {k : Fin 288} {s u : State} {bs : List Byte} (hlocal : remoteSide s k false = none)
    (hread : readAt (.mover k) (chanPerm s k false) (beatFrom s k) (2 ^ (side s k false).ew)
      (setChan k { chan s k with rpos := (chan s k).rpos + 1 } s) = (some bs, u)) : srcRead k false s = pushElem k bs u := by
  have hperm (x : Chan) : chanPerm (setChan k x s) k false = chanPerm s k false := rfl
  rw [beatFrom] at hread
  unfold srcRead
  dsimp only
  rw [remoteSide_setChan, hlocal, moverOf_val, hperm, hread]
  rfl
theorem destWrite_onDie {k : Fin 288} {s : State} {bs : List Byte} (hne : bs ≠ []) (hfit : beatTo s k % 16 + bs.length ≤ 16)
    (hdie : isOnDie (beatTo s k) = true) (hserved : partitionRefuses s (beatTo s k) (.mover k) = false) (hlocal : remoteSide s k true = none) :
    destWrite k bs s = ackBytes k bs.length (writeWord (.mover k) 2 (beatTo s k) bs false
      (nextWrite (setChan k { chan s k with wpos := (chan s k).wpos + 1 } s))) := by
  rw [beatTo] at *
  unfold destWrite
  dsimp only
  rw [remoteSide_setChan, hlocal, moverOf_val]
  dsimp only
  rw [writeAt_onDie hne hfit hdie ((partitionRefuses_congr (by simp) ..).trans hserved), onDie_not_dram hdie]
  rfl

theorem getD_beatBytes {s : State} {k i : Nat} (h : i < 2 ^ (side s k false).ew) : (beatBytes s k).getD i 0 = byteAt s (beatFrom s k + i) := by
  simp [beatBytes, bytesAt, h]
theorem beatBytes_ne (s : State) (k : Nat) : beatBytes s k ≠ [] := by
  rw [← List.length_pos_iff, length_beatBytes]
  positivity
theorem aligned_within {a e : Nat} (he : e ≤ 4) (h : a % 2 ^ e = 0) : a % 16 + 2 ^ e ≤ 16 := by
  interval_cases e <;> omega

namespace LocalBeat
variable {k : Fin 288} {s : State} (h : LocalBeat k s)
include h

theorem beatBytes_fit : beatTo s k % 16 + (beatBytes s k).length ≤ 16 := by
  rw [length_beatBytes]
  exact aligned_within h.width_le h.aligned

theorem srcRead_eq_pump : srcRead k false s = pump (2 ^ (side s k false).ew) k (elemHeld k s) := by
  have hread : readAt (.mover k) (chanPerm s k false) (beatFrom s k) (2 ^ (side s k false).ew)
      (setChan k { chan s k with rpos := (chan s k).rpos + 1 } s) = (some (beatBytes s k), _) :=
    readAt_onDie _ h.onDie_from ((partitionRefuses_congr (by simp) ..).trans h.served_from) (by simpa using h.fills) (by simpa using h.marks)
  rw [srcRead_of_readAt h.local_from hread, pushElem, chan_noteReads, chan_setChan_same, length_beatBytes]
  dsimp only
  rw [List.length_eq_zero_iff.2 h.hold, Nat.zero_add]
  rfl
/-- The element that a beat reads is written in the same beat. -/
theorem srcRead_eq : srcRead k false s = elemWritten k s := by
  have hkeep := elemHeld_keeps k s
  have hgoes : chanGoes (elemHeld k s) k = true := by
    rw [chanGoes, hkeep.chanState_eq k.isLt, chan_elemHeld]
    exact h.goes
  have hheld : (chan (elemHeld k s) k).hold = beatBytes s k := by rw [chan_elemHeld, h.hold, List.nil_append]
  have hwrite : destWrite k (chan (elemHeld k s) k).hold (setChan k { chan (elemHeld k s) k with hold := [] } (elemHeld k s)) = elemWritten k s := by
    have hkeep' := hkeep.after_setChan (k := k) { chan (elemHeld k s) k with hold := [] }
    have hto : beatTo (setChan k { chan (elemHeld k s) k with hold := [] } (elemHeld k s)) k = beatTo s k := by
      rw [beatTo, hkeep'.side_eq k.isLt, chan_setChan_same, chan_elemHeld, beatTo]
    rw [hheld, destWrite_onDie (beatBytes_ne s k) (hto ▸ h.beatBytes_fit) (hto ▸ h.onDie_to)
      (hto ▸ (partitionRefuses_congr hkeep'.locks ..).trans h.served_to) ((hkeep'.remoteSide_eq k.isLt true).trans h.local_to), hto]
    rw [elemWritten, elemPlaced, chan_setChan_same, chan_elemHeld]
  obtain ⟨fuel, hfuel⟩ : ∃ fuel, 2 ^ (side s k false).ew = fuel + 1 := Nat.exists_eq_succ_of_ne_zero (by positivity)
  rw [h.srcRead_eq_pump, hfuel]
  refine pump_one hgoes ?_ hwrite (by rw [chan_elemWritten, chan_elemPlaced]) fuel
  rw [hheld, hkeep.side_eq k.isLt, ← h.width_eq, length_beatBytes]

theorem marksOn_elemPlaced (w : Nat) : marksOn (nextWrite (elemPlaced k s)) w = [] := by
  simp [marksOn, (elemPlaced_keeps k s).marks, h.marks]
theorem byteAt_elemWritten (x : Nat) : byteAt (elemWritten k s) x =
    if beatTo s k ≤ x ∧ x < beatTo s k + 2 ^ (side s k false).ew then (beatBytes s k).getD (x - beatTo s k) 0 else byteAt s x := by
  have hbytes := (writeWord_bytes (who := .mover k) (rank := 2) (tag := false) (beatBytes_ne s k) h.beatBytes_fit (h.marksOn_elemPlaced _)).1 x
  have hmem : byteAt (nextWrite (elemPlaced k s)) x = byteAt s x := congrArg (mget · x) (elemPlaced_keeps k s).mem
  rw [hmem, length_beatBytes] at hbytes
  exact hbytes
theorem moved_elemWritten : rfld (elemWritten k s) (chanReg k 0x108) 0 40 =
    (rfld s (chanReg k 0x108) 0 40 + 2 ^ (side s k false).ew) % 2 ^ 40 := by
  have hreg := rget_writeWord_apart (who := .mover k) (rank := 2) (tag := false) (beatBytes_ne s k) h.beatBytes_fit
    (chanReg_not_integReg k.isLt (o := 0x108) (by decide)) (h.marksOn_elemPlaced _)
  have hnext : rget (nextWrite (elemPlaced k s)) (chanReg k 0x108) = rget s (chanReg k 0x108) :=
    (rget_congr (by simp) _).trans ((elemPlaced_keeps k s).rget_chanReg k.isLt (by decide))
  rw [elemWritten, ackBytes, rfld, rget_rput_same, fld_setFld_same _ _ _ _ (by decide), rfld, hreg, hnext, length_beatBytes, rfld]

end LocalBeat

/-- Settles O36: a beat between on-die stores is one read and one write of the same bytes, and the write is within one word. -/
theorem moverBeatCopies : Obligations.MoverBeatCopies := by
  intro k s x y a d w hew hew4 _ halign hsrc hdst hread hwrite hnear hfar hgoes hhold hmarks hfills t
  have h : LocalBeat k s := ⟨hew, hew4, halign, hsrc, hdst, hread, hwrite, hnear, hfar, hgoes, hhold, hmarks, hfills⟩
  have ht : t = elemWritten k s := h.srcRead_eq
  have hchan : chan t k = _ := ht ▸ (chan_elemWritten k s).trans (chan_elemPlaced k s)
  refine ⟨?copied, fun z hz => ?others, by rw [hchan], by rw [hchan], by rw [hchan], ht ▸ h.moved_elemWritten⟩
  case copied =>
    refine List.map_congr_left fun i hi => ?_
    have hi : i < w := List.mem_range.1 hi
    rw [ht, h.byteAt_elemWritten, if_pos ⟨Nat.le_add_right .., Nat.add_lt_add_left hi _⟩]
    exact (congrArg ((beatBytes s k).getD · 0) (Nat.add_sub_cancel_left d i)).trans (getD_beatBytes hi)
  case others =>
    rw [ht, h.byteAt_elemWritten, if_neg]
    change ¬ (d ≤ z ∧ z < d + w)
    omega

end Sys2Proof.Proofs

/-! How a transfer ends (R288, R291, R295, R299 to R302, R582): what going back to IDLE writes, and the gates of the commands that end, hold and
resume it. -/
namespace Sys2Proof.Proofs
open Sys2Proof Sys2Proof.Machine Sys2Proof.Claims Sys2Proof.Laws

/-! ### Back to IDLE (R291) -/

/-- What the channel keeps in mind when it becomes IDLE: the start of this FCLK, a start or STOP that came too early. -/
def idleChan (k : Nat) (s : State) : Chan :=
  let c := chan s k
  { ({} : Chan) with startAt := c.startAt, idleAt := some s.fclk, startNext := c.startNext || c.missAt.any fun m => m.1 == s.fclk,
                     stopNext := s.sets.contains (chanReg k 0, 1), sleepStart := c.sleepStart }
/-- A start that is taken in the next FCLK after all is not counted as missed. -/
def missUndone (k : Nat) (s : State) : State :=
  match (chan s k).missAt with
  | some m =>
    if ((chan s k).missAt.any fun m => m.1 == s.fclk) ∧ rfld s (chanReg k 0x100) 48 16 = min 65535 (m.2 + 1) then
      rput (chanReg k 0x100) 48 16 m.2 s else s
  | none => s

theorem missUndone_cases (k : Nat) (s : State) : missUndone k s = s ∨ ∃ v, missUndone k s = rput (chanReg k 0x100) 48 16 v s := by
  unfold missUndone
  split
  · split
    · exact .inr ⟨_, rfl⟩
    · exact .inl rfl
  · exact .inl rfl

theorem chanIdle_eq (k : Nat) (s : State) : chanIdle k s = rbitSet (chanReg k 0x100) 18 false (w1sClear (chanReg k 0) 1
    (setChanState k 0 (setChan k (idleChan k s) (missUndone k s)))) := by
  have hidle : idleChan k s = { ({} : Chan) with
      startAt := (chan s k).startAt, idleAt := some (missUndone k s).fclk,
      startNext := (chan s k).startNext || (chan s k).missAt.any fun m => m.1 == s.fclk,
      stopNext := (missUndone k s).sets.contains (chanReg k 0, 1), sleepStart := (chan s k).sleepStart } := by
    obtain h | ⟨v, h⟩ := missUndone_cases k s <;> simp [h, idleChan]
  rw [hidle]
  rfl

theorem rget_w1sClear_ne {a b : Nat} (h : b ≠ a) (i : Nat) (s : State) : rget (w1sClear a i s) b = rget s b := by
  unfold w1sClear
  split
  · rfl
  · exact rget_rbitSet_ne h ..

section
variable (k : Nat) (s : State)

theorem chanIdle_kept : (chanIdle k s).mem = s.mem ∧ (chanIdle k s).facets = s.facets := by
  obtain h | ⟨v, h⟩ := missUndone_cases k s <;>
    simp [chanIdle_eq, h, w1sClear, setChanState, apply_ite State.facets, apply_ite State.mem]
theorem chan_chanIdle : chan (chanIdle k s) k = idleChan k s := by
  rw [chanIdle_eq, ← chan_setChan_same k (idleChan k s) (missUndone k s)]
  exact chan_congr (by simp [w1sClear, setChanState, apply_ite State.chans]) k

/-- MOV_STAT shows IDLE. -/
theorem chanState_chanIdle : chanState (chanIdle k s) k = 0 := by
  rw [chanIdle_eq, chanState, rfld, rget_rbitSet_same, fld_setBit_apart _ _ (by decide), rget_w1sClear_ne (by simp), setChanState, rget_rput_same,
    fld_setFld_same _ _ _ _ (by decide), Nat.zero_mod]
/-- ERR stands (R292, R299). -/
theorem err_chanIdle : rfld (chanIdle k s) (chanReg k 0x100) 8 4 = rfld s (chanReg k 0x100) 8 4 := by
  have hmiss : rfld (missUndone k s) (chanReg k 0x100) 8 4 = rfld s (chanReg k 0x100) 8 4 := by
    obtain h | ⟨v, h⟩ := missUndone_cases k s <;> rw [h]
    rw [rfld, rget_rput_same, fld_setFld_apart _ (by decide), rfld]
  rw [chanIdle_eq, rfld, rget_rbitSet_same, fld_setBit_apart _ _ (by decide), rget_w1sClear_ne (by simp), setChanState, rget_rput_same,
    fld_setFld_apart _ (by decide), rget_setChan, ← rfld, hmiss]
/-- MOVED and the configuration stand. -/
theorem rget_chanIdle_ne {a : Nat} (hctl : a ≠ chanReg k 0) (hstat : a ≠ chanReg k 0x100) : rget (chanIdle k s) a = rget s a := by
  have hmiss : rget (missUndone k s) a = rget s a := by
    obtain h | ⟨v, h⟩ := missUndone_cases k s <;> rw [h]
    rw [rget_rput_ne hstat]
  rw [chanIdle_eq, rget_rbitSet_ne hstat, rget_w1sClear_ne hctl, setChanState, rget_rput_ne hstat, rget_setChan, hmiss]

end

/-! ### Pulses and steward sources -/

/-- The state without its registers, interrupt tables and pulses, the only fields that the end of a transfer writes beside its channel. -/
def offRaised (s : State) : State := { offLog s with pulses := [] }

theorem raiseHat_eq_setPulses (src : Nat) (s : State) : ∃ x, raiseHat src s = setPulses x s := by
  unfold raiseHat raiseEvent
  dsimp only
  split
  · split
    · exact ⟨s.pulses, rfl⟩
    · exact ⟨_, rfl⟩
  · exact ⟨s.pulses, rfl⟩
theorem raiseHat_regs (src : Nat) (s : State) : (raiseHat src s).regs = s.regs := by
  obtain ⟨x, h⟩ := raiseHat_eq_setPulses src s
  simp [h]
theorem raiseHat_offRaised (src : Nat) (s : State) : offRaised (raiseHat src s) = offRaised s := by
  obtain ⟨x, h⟩ := raiseHat_eq_setPulses src s
  simp [h, offRaised, offLog]
theorem raiseSteward_offRaised (src : Nat) (s : State) : offRaised (raiseSteward src s) = offRaised s :=
  congrArg (fun t : State => { t with pulses := [] }) (raiseSteward_offLog src s)
theorem rput_offRaised (a lo w v : Nat) (s : State) : offRaised (rput a lo w v s) = offRaised s := by simp [offRaised, offLog]

/-! ### The ends of a transfer -/

/-- The error is shown and told (R299). -/
def errTold (k err : Nat) (s : State) : State := raiseSteward (chanSource k) (raiseHat (0x400 + k) (rput (chanReg k 0x100) 8 4 err s))
/-- Completion is shown and told, and a continuing transfer's positions are kept (R288, R295). -/
def doneTold (k : Nat) (s : State) : State :=
  let x := side s k false
  let y := side s k true
  let cont := rbit s (chanReg k 8) 5
  let s := if cont ∧ x.wrap ≠ 0 then rput (chanReg k 0x38) 32 28 x.nextPos s else s
  let s := if cont ∧ y.wrap ≠ 0 then rput (chanReg k 0x58) 32 28 y.nextPos s else s
  raiseHat (0x200 + k) (rput (chanReg k 0x108) 0 40 x.total s)

theorem endError_eq (k err : Nat) (s : State) : endError k err s = chanIdle k (errTold k err s) := rfl
theorem endComplete_eq (k : Nat) (s : State) : endComplete k s = chanIdle k (doneTold k s) := rfl
theorem errTold_offRaised (k err : Nat) (s : State) : offRaised (errTold k err s) = offRaised s :=
  (raiseSteward_offRaised ..).trans ((raiseHat_offRaised ..).trans (rput_offRaised ..))
theorem doneTold_offRaised (k : Nat) (s : State) : offRaised (doneTold k s) = offRaised s := by
  unfold doneTold
  simp only [raiseHat_offRaised, rput_offRaised, apply_ite offRaised, ite_self]

theorem endError_kept (k err : Nat) (s : State) : (endError k err s).mem = s.mem ∧ (endError k err s).facets = s.facets := by
  obtain ⟨hmem, hfacets⟩ := chanIdle_kept k (errTold k err s)
  exact ⟨hmem.trans (congrArg State.mem (errTold_offRaised k err s) :), hfacets.trans (congrArg State.facets (errTold_offRaised k err s) :)⟩
theorem endComplete_kept (k : Nat) (s : State) : (endComplete k s).mem = s.mem ∧ (endComplete k s).facets = s.facets := by
  obtain ⟨hmem, hfacets⟩ := chanIdle_kept k (doneTold k s)
  exact ⟨hmem.trans (congrArg State.mem (doneTold_offRaised k s) :), hfacets.trans (congrArg State.facets (doneTold_offRaised k s) :)⟩
theorem err_endError (k err : Nat) (s : State) : rfld (endError k err s) (chanReg k 0x100) 8 4 = err % 16 := by
  rw [endError_eq, err_chanIdle, errTold, rfld, rget_congr (raiseSteward_regs ..), rget_congr (raiseHat_regs ..), rget_rput_same]
  exact fld_setFld_same _ 8 4 err (by decide)
theorem moved_endComplete (k : Nat) (s : State) : rfld (endComplete k s) (chanReg k 0x108) 0 40 = (side s k false).total % 2 ^ 40 := by
  rw [endComplete_eq, rfld, rget_chanIdle_ne _ _ (by simp) (by simp), doneTold, rget_congr (raiseHat_regs ..), rget_rput_same]
  exact fld_setFld_same _ 0 40 _ (by decide)

/-! ### The commands -/

section
variable {k : Fin 288} {s : State}

theorem exec_transferCompletion (hst : chanState s k = 3 ∨ chanState s k = 4) (hrem : (chan s k).rem = 0) (hending : (chan s k).ending = 0)
    (hhold : (chan s k).hold = []) (hback : (chan s k).back = []) (hwaits : chanWaits s k = false) :
    exec (.transferCompletion k) s = .next (endComplete k (advanceTo (burstEndAt s k) s)) :=
  if_pos (by simpa [hrem, hending, hhold, hback, hwaits] using hst)
theorem exec_transferEndEarly (hst : chanState s k ≠ 0) (hending : (chan s k).ending ≠ 0) (hwaits : chanWaits s k = false) :
    exec (.transferEndEarly k) s = .next (endError k (chan s k).ending
      (advanceTo (if (chan s k).ending = 13 ∧ chanState s k = 3 then burstEndAt s k else s.fclk) s)) :=
  if_pos (by simp [hst, hending, hwaits])
theorem exec_movCtlStop (hserved : domServes s (chanDomain k) = true) :
    exec (.movCtlStop k) s = .next (if s.locks.chans.contains k.val then tellSteward (chanReg k 0) .steward s else movStop k s) := if_pos hserved
theorem exec_channelDrainHeld (hdrain : (chan s k).drain.isSome = true) (hst : 2 ≤ chanState s k) (hending : (chan s k).ending = 0)
    (hrem : (chan s k).rem ≠ 0) (hwaits : chanWaits s k = false) :
    exec (.channelDrainHeld k) s = .next (setChanState k 1 (setChan k { chan (advanceTo (burstEndAt s k) s) k with drain := none }
      (advanceTo (burstEndAt s k) s))) :=
  if_pos (by simp [hdrain, hst, hending, hrem, hwaits])
theorem exec_channelResume (hst : chanState s k = 1) (hending : (chan s k).ending = 0)
    (hback : ∀ d ∈ chanDomains s k, (domState s d = 1 ∨ (d < 16 ∧ domState s d = 2)) ∧ domLeaving s d = false) :
    exec (.channelResume k) s = .next (setChanState k 2 (setChan k { chan s k with drain := none } s)) := by
  refine if_pos ?_
  simpa [hst, hending] using hback
theorem exec_drainTimeout {f : Nat} (hdrain : (chan s k).drain = some f) (hst : chanState s k ≠ 0)
    (hheld : ∀ w ∈ s.heldWrites, w.who ≠ .mover k) (hgone : (chanDomains s k).any (domGone s) = false) :
    exec (.drainTimeout k) s = .next (failChan k 11 (advanceTo (f + 2 * usFclk) s)) := by
  have hanswered : s.heldWrites.any (fun w => w.who == moverOf k) = false := by
    rw [moverOf_val]
    simpa using hheld
  change execDrainTimeout k s = _
  simp [execDrainTimeout, hdrain, gateAt, hst, hanswered, hgone]

end

/-- Settles O37: each end goes back to IDLE with what it shows, and each command's gate is the condition that the rules give. -/
theorem moverEnds : Obligations.MoverEnds := by
  intro k s c st
  refine ⟨fun hst hrem hending hhold hback hwaits => ?complete, fun hst hending hwaits => ?early, fun hserved hfree hst => ?stop,
    fun hserved hlocked => ?locked, exec_channelDrainHeld, exec_channelResume, fun f => exec_drainTimeout⟩
  case complete =>
    obtain ⟨hmem, hfacets⟩ := endComplete_kept k (advanceTo (burstEndAt s k) s)
    exact ⟨_, exec_transferCompletion hst hrem hending hhold hback hwaits, rfl, chanState_chanIdle .., hmem, hfacets, moved_endComplete ..⟩
  case early => exact ⟨_, exec_transferEndEarly hst hending hwaits, chanState_chanIdle .., err_endError .., (endError_kept ..).1⟩
  case stop =>
    rw [exec_movCtlStop hserved, if_neg (by simpa using hfree), movStop, if_neg hst]
  case locked => rw [exec_movCtlStop hserved, if_pos (by simpa using hlocked)]

end Sys2Proof.Proofs

/-! How a transfer starts and issues its bursts (R291 to R294, R296): a start writes MOV_CTL, MOV_STAT and MOV_PROG alone, on which nothing that the
start check reads depends. -/
namespace Sys2Proof.Proofs
open Sys2Proof Sys2Proof.Machine Sys2Proof.Claims Sys2Proof.Laws

/-! ### What the start check reads (R292) -/

/-- The states agree on what a start check reads: the facets, the epochs, and every register but the channel's MOV_CTL, MOV_STAT and MOV_PROG. -/
structure SameSetup (k : Nat) (s t : State) : Prop where
  regs : ∀ a, a ≠ chanReg k 0 → a ≠ chanReg k 0x100 → a ≠ chanReg k 0x108 → rget t a = rget s a
  facets : t.facets = s.facets
  epochs : t.epochs = s.epochs

/-- A register of the girdle that is in no channel block. -/
theorem chanReg_ne_girdle {k o b : Nat} (hk : k < 288) (ho : o < 0x400) (hb : b < 0x50000 ∨ 0x58000 ≤ b ∧ b < 0x8000000) :
    girdle b ≠ chanReg k o := by
  simp only [chanReg, crownReg, girdle]
  split <;> omega

theorem chanDomains_lt {k d : Nat} {s : State} (hk : k < 288) (h : d ∈ chanDomains s k) : d < 38 := by
  have hside (dst : Bool) : ∀ d ∈ (match remoteSide s k dst with
      | some _ => [36]
      | none => rangeDomains (side s k dst).range.1.toNat (side s k dst).range.2.toNat), d < 38 := by
    intro d hd
    split at hd
    · simp_all
    · exact List.mem_range.1 (List.mem_filter.1 hd).1
  unfold chanDomains at h
  simp only [List.mem_append, List.mem_cons] at h
  obtain (rfl | h) | h := h
  · unfold chanDomain
    split <;> omega
  · exact hside false d h
  · exact hside true d h

namespace SameSetup
variable {k : Nat} {s t : State} (h : SameSetup k s t)
include h

theorem rget_chanReg {o : Nat} (h0 : o ≠ 0) (h1 : o ≠ 0x100) (h2 : o ≠ 0x108) : rget t (chanReg k o) = rget s (chanReg k o) :=
  h.regs _ (by simpa) (by simpa) (by simpa)
theorem rget_girdle (hk : k < 288) {b : Nat} (hb : b < 0x50000 ∨ 0x58000 ≤ b ∧ b < 0x8000000) : rget t (girdle b) = rget s (girdle b) :=
  h.regs _ (chanReg_ne_girdle hk (by decide) hb) (chanReg_ne_girdle hk (by decide) hb) (chanReg_ne_girdle hk (by decide) hb)
theorem side_eq (dst : Bool) : side t k dst = side s k dst :=
  side_congr (fun o _ _ => h.rget_chanReg (by omega) (by omega) (by omega)) dst
theorem remoteSide_eq (hk : k < 288) (dst : Bool) : remoteSide t k dst = remoteSide s k dst :=
  remoteSide_congr (h.rget_girdle hk (by omega)) (h.rget_girdle hk (by omega)) dst
theorem chanCap_eq (dst : Bool) : chanCap t k dst = chanCap s k dst := by
  have hcap {o : Nat} (ho : 0x80 ≤ o ∧ o < 0x100) : rget t (chanReg k o) = rget s (chanReg k o) :=
    h.rget_chanReg (by omega) (by omega) (by omega)
  cases dst <;> simp [chanCap, rbit, hcap]
theorem rangeBacked_eq (hk : k < 288) (lo hi : Nat) : rangeBacked t lo hi = rangeBacked s lo hi := by
  have htop : ddrTop t = ddrTop s := congrArg (fld · 0 48) (h.rget_girdle hk (by decide))
  unfold rangeBacked
  rw [htop]
theorem capLive_eq (c : KReg) : capLive t c = capLive s c := by
  rw [capLive, capLive, epochOf, epochOf, h.epochs]
theorem chanDomains_eq (hk : k < 288) : chanDomains t k = chanDomains s k := by
  unfold chanDomains
  simp only [h.remoteSide_eq hk, h.side_eq]
theorem anyGone_eq (hk : k < 288) : (chanDomains t k).any (domGone t) = (chanDomains s k).any (domGone s) := by
  rw [h.chanDomains_eq hk, Bool.eq_iff_iff, List.any_eq_true, List.any_eq_true]
  refine exists_congr fun d => and_congr_right fun hd => ?_
  have hlt := chanDomains_lt hk hd
  have hstate : domState t d = domState s d := congrArg (fld · 0 3) (h.rget_girdle hk (by omega))
  rw [domGone, domGone, hstate]
/-- The check has the same outcome. -/
theorem startCheck_eq (hk : k < 288) : startCheck t k = startCheck s k := by
  have hfacet (n : Nat) : facet t n = facet s n := facet_congr h.facets n
  unfold startCheck
  simp only [h.side_eq, h.remoteSide_eq hk, h.chanCap_eq, h.capLive_eq, h.rangeBacked_eq hk, hfacet,
    h.rget_chanReg (o := 8) (by decide) (by decide) (by decide), h.rget_chanReg (o := 0x10) (by decide) (by decide) (by decide)]

end SameSetup

/-! ### A start (R291, R292) -/

/-- The start is taken: START, ERR and MOVED read 0. -/
def startTaken (k : Nat) (s : State) : State :=
  let s := rbitSet (chanReg k 0) 0 false (rput (chanReg k 0x108) 0 40 0 (rput (chanReg k 0x100) 8 4 0 s))
  setChan k { chan s k with startAt := some s.fclk, startNext := false, ending := 0 } s
/-- The transfer is loaded; MOV_STAT does not show it yet. -/
def startLoaded (k : Nat) (s : State) : State :=
  setChan k { chan s k with rem := (side s k false).total, drain := if (chanDomains s k).any (domLeaving s) then some s.fclk else none } s

theorem domGone_setChan (k : Nat) (x : Chan) (s : State) : domGone (setChan k x s) = domGone s := by
  funext d
  simp only [domGone, domState, rfld, rget_setChan]
theorem takeStart_eq (k : Nat) (s : State) : takeStart k s =
    let t := startTaken k s
    if startCheck t k = 0 then setChanState k (if (chanDomains t k).any (domGone (startLoaded k t)) then 1 else 2) (startLoaded k t)
    else endError k (startCheck t k) t := by
  unfold takeStart
  extract_lets s1 c1 s2 ds c2 s3 t
  split
  · next h => exact (if_pos h).symm
  · next h => exact (if_neg h).symm

theorem startTaken_setup (k : Nat) (s : State) : SameSetup k s (startTaken k s) where
  regs a h0 h1 h2 := by rw [startTaken, rget_setChan, rget_rbitSet_ne h0, rget_rput_ne h2, rget_rput_ne h1]
  facets := by simp [startTaken]
  epochs := by simp [startTaken]
theorem takeStart_passes {k : Nat} {s : State} (hk : k < 288) (hcheck : startCheck s k = 0) :
    takeStart k s = setChanState k (if (chanDomains s k).any (domGone s) then 1 else 2) (startLoaded k (startTaken k s)) := by
  have h := startTaken_setup k s
  rw [takeStart_eq]
  dsimp only
  rw [h.startCheck_eq hk, if_pos hcheck, startLoaded, domGone_setChan, h.anyGone_eq hk]
theorem takeStart_fails {k : Nat} {s : State} (hk : k < 288) (hcheck : startCheck s k ≠ 0) :
    takeStart k s = endError k (startCheck s k) (startTaken k s) := by
  rw [takeStart_eq]
  dsimp only
  rw [(startTaken_setup k s).startCheck_eq hk, if_neg hcheck]

theorem startTaken_kept (k : Nat) (s : State) :
    (startTaken k s).mem = s.mem ∧ (startTaken k s).facets = s.facets ∧ (startTaken k s).fclk = s.fclk := by
  simp [startTaken]
theorem chan_startTaken (k : Nat) (s : State) :
    chan (startTaken k s) k = { chan s k with startAt := some s.fclk, startNext := false, ending := 0 } := by
  rw [startTaken, chan_setChan_same]
  simp [chan]
theorem rget_startTaken_stat (k : Nat) (s : State) : rget (startTaken k s) (chanReg k 0x100) = setFld (rget s (chanReg k 0x100)) 8 4 0 := by
  rw [startTaken, rget_setChan, rget_rbitSet_ne (by simp), rget_rput_ne (by simp), rget_rput_same]
theorem rget_startTaken_prog (k : Nat) (s : State) : rget (startTaken k s) (chanReg k 0x108) = setFld (rget s (chanReg k 0x108)) 0 40 0 := by
  rw [startTaken, rget_setChan, rget_rbitSet_ne (by simp), rget_rput_same, rget_rput_ne (by simp)]

theorem chanState_setChanState (k : Nat) {v : Nat} (hv : v < 2 ^ 3) (s : State) : chanState (setChanState k v s) k = v := by
  rw [chanState, rfld, setChanState, rget_rput_same, fld_setFld_same _ _ _ _ (by decide), Nat.mod_eq_of_lt hv]
theorem chan_loaded (k v : Nat) (s : State) : chan (setChanState k v (startLoaded k s)) k = { chan s k with
    rem := (side s k false).total, drain := if (chanDomains s k).any (domLeaving s) then some s.fclk else none } :=
  chan_setChan_same ..
theorem loaded_kept (k v : Nat) (s : State) :
    (setChanState k v (startLoaded k s)).mem = s.mem ∧ (setChanState k v (startLoaded k s)).facets = s.facets := by
  simp [setChanState, startLoaded]
theorem moved_loaded (k v : Nat) (s : State) : rfld (setChanState k v (startLoaded k (startTaken k s))) (chanReg k 0x108) 0 40 = 0 := by
  rw [rfld, setChanState, rget_rput_ne (by simp), startLoaded, rget_setChan, rget_startTaken_prog, fld_setFld_same _ _ _ _ (by decide), Nat.zero_mod]
theorem err_loaded (k v : Nat) (s : State) : rfld (setChanState k v (startLoaded k (startTaken k s))) (chanReg k 0x100) 8 4 = 0 := by
  rw [rfld, setChanState, rget_rput_same, fld_setFld_apart _ (by decide), startLoaded, rget_setChan, rget_startTaken_stat,
    fld_setFld_same _ _ _ _ (by decide), Nat.zero_mod]
/-- After a start that failed, the next FCLK takes a start only where one came too early. -/
theorem startNext_endError (k err : Nat) (s : State) :
    (chan (endError k err s) k).startNext = ((chan s k).startNext || (chan s k).missAt.any fun m => m.1 == s.fclk) := by
  have hchan : chan (errTold k err s) k = chan s k := chan_congr (congrArg State.chans (errTold_offRaised k err s) :) k
  have hfclk : (errTold k err s).fclk = s.fclk := (congrArg State.fclk (errTold_offRaised k err s) :)
  rw [endError_eq, chan_chanIdle, idleChan, hchan, hfclk]
/-- The errors of a start (R292). -/
theorem startCheck_lt (s : State) (k : Nat) : startCheck s k < 16 := by
  unfold startCheck
  dsimp only
  repeat' split
  all_goals decide

/-! ### MOV_CTL.START and the start sink (R291) -/

theorem exec_movCtlStart {k : Fin 288} {s : State} (hserved : domServes s (chanDomain k) = true) :
    exec (.movCtlStart k false) s = .next (movCtlStart k s) := if_pos hserved

/-- No start of the channel has come in this FCLK. -/
def freshStart (k : Nat) (s : State) : Prop :=
  (chan s k).startAt ≠ some s.fclk ∧ (chan s k).missAt.any (fun m => m.1 == s.fclk) = false ∧ (chan s k).startNext = false
/-- The first start of an FCLK is decided by the state of its channel. -/
theorem movStart_fresh {k : Nat} {s : State} (hfresh : freshStart k s) : movStart k s =
    if chanState s k ≠ 0 then
      setChan k { chan s k with missAt := some (s.fclk, rfld s (chanReg k 0x100) 48 16) } (rsat (chanReg k 0x100) 48 16 1 s)
    else if (chan s k).idleAt = some s.fclk then setChan k { chan s k with startNext := true } s
    else takeStart k s := by
  obtain ⟨hstart, hmiss, hnext⟩ := hfresh
  unfold movStart
  dsimp only
  rw [if_neg (by simp [hstart, hmiss, hnext])]
/-- START reads 1 only while a start waits for the next FCLK. -/
theorem movCtlStart_of_taken {k : Nat} {s : State} (h : (chan (movStart k s) k).startNext = false) : movCtlStart k s = movStart k s := by
  simp [movCtlStart, h]
theorem movCtlStart_of_waiting {k : Nat} {s : State} (h : (chan (movStart k s) k).startNext = true) :
    movCtlStart k s = rbitSet (chanReg k 0) 0 true (movStart k s) := by
  simp [movCtlStart, h]

theorem moverStarts : MoverStarts := by
  intro k s hserved c fresh run
  have hrun : run = .next (movCtlStart k s) := exec_movCtlStart hserved
  refine ⟨fun hfresh hidle hst hcheck => ?passes, fun hfresh hidle hst hcheck => ?fails, fun hfresh hidle hst => ?waits, fun hfresh hst => ?missed,
    fun hawake => ?sink, fun hcrown hasleep => ?asleep⟩
  case passes =>
    have hmov := movStart_fresh hfresh
    rw [if_neg (not_not.2 hst), if_neg hidle, takeStart_passes k.isLt hcheck] at hmov
    obtain ⟨hmem, hfacets, -⟩ := startTaken_kept k s
    obtain ⟨hmem', hfacets'⟩ := loaded_kept k (if (chanDomains s k).any (domGone s) then 1 else 2) (startTaken k s)
    have hnext : (chan (movStart k s) k).startNext = false := by rw [hmov, chan_loaded, chan_startTaken]
    rw [movCtlStart_of_taken hnext, hmov] at hrun
    refine ⟨_, hrun, ?_⟩
    rw [chanState_setChanState _ (by split <;> decide), chan_loaded, (startTaken_setup k s).side_eq]
    exact ⟨rfl, rfl, moved_loaded .., err_loaded .., hmem'.trans hmem, hfacets'.trans hfacets⟩
  case fails =>
    have hmov := movStart_fresh hfresh
    rw [if_neg (not_not.2 hst), if_neg hidle, takeStart_fails k.isLt hcheck] at hmov
    obtain ⟨hmem, hfacets, hfclk⟩ := startTaken_kept k s
    obtain ⟨hmem', hfacets'⟩ := endError_kept k (startCheck s k) (startTaken k s)
    have hnext : (chan (movStart k s) k).startNext = false := by
      obtain ⟨-, hmiss, -⟩ := hfresh
      rw [hmov, startNext_endError, chan_startTaken, hfclk, Bool.false_or]
      exact hmiss
    rw [movCtlStart_of_taken hnext, hmov] at hrun
    refine ⟨_, hrun, ?_⟩
    rw [err_endError, Nat.mod_eq_of_lt (startCheck_lt s k)]
    exact ⟨chanState_chanIdle .., rfl, hmem'.trans hmem, hfacets'.trans hfacets⟩
  case waits =>
    have hmov := movStart_fresh hfresh
    rw [if_neg (not_not.2 hst), if_pos hidle] at hmov
    rw [hrun, movCtlStart_of_waiting (by rw [hmov, chan_setChan_same]), hmov]
  case missed =>
    have hmov := movStart_fresh hfresh
    rw [if_pos hst] at hmov
    obtain ⟨-, -, hnone⟩ := hfresh
    have hnext : (chan (movStart k s) k).startNext = false := by rw [hmov, chan_setChan_same, hnone]
    rw [hrun, movCtlStart_of_taken hnext, hmov]
  case sink =>
    have hawake' : ¬ (k.val < 256 ∧ (!crownUp s (k / 16)) = true) := by
      rintro ⟨hlt, hdown⟩
      exact hawake.elim (fun hge => absurd hlt (Nat.not_lt.2 hge)) fun hup => by simp [hup] at hdown
    exact congrArg Host.Outcome.next (if_neg hawake')
  case asleep =>
    refine ⟨_, congrArg Host.Outcome.next (if_pos ⟨hcrown, by simp [hasleep]⟩), ?_, by simp, by simp, by simp⟩
    exact chan_setChan_same ..

/-! ### Bursts (R293, R294, R296) -/

/-- A channel does not preempt an engine that issues no burst. -/
theorem preempts_idle {k : Nat} {s : State} (h : (engine s (engineOf k)).busy ≤ s.fclk) : preempts s k = false := by
  have hbusy : ¬ s.fclk + 1 < (engine s (engineOf k)).busy := by omega
  simp [preempts, hbusy]
theorem engineFree_idle {e : Nat} {s : State} (h : (engine s e).busy ≤ s.fclk) (fuel : Nat) : engineFree e (fuel + 1) s = s := if_pos h

theorem exec_burstIssue {k : Fin 288} {s : State} (hbusy : (engine s (engineOf k)).busy ≤ s.fclk) (hsize : burstSize s k ≠ 0)
    (hgrant : nextGrant s (engineOf k) = some k.val) (hbad : burstBad s k (burstSize s k) = false)
    (hgone : (chanDomains s k).any (domGone s) = false) : exec (.burstIssue k none) s = .next (issueBurst k (burstSize s k) none s) := by
  have hfree := engineFree_idle hbusy (engine s (engineOf k)).susp.length
  change execBurstIssue k none s = _
  unfold execBurstIssue
  simp [preempts_idle hbusy, hfree, hsize, hgrant, hbad, hgone]
/-- The beats of a burst of an idle engine begin in this FCLK. -/
theorem issueBurst_idle {k : Nat} {s : State} (hbusy : (engine s (engineOf k)).busy ≤ s.fclk) (b : Nat) (bad : Option Nat) :
    issueBurst k b bad s = beats k bad (b / 2 ^ (side s k false).ew) 0 (setChan k { chan s k with rem := (chan s k).rem - b } (setChanState k 3
      (setEngine (engineOf k) { engine s (engineOf k) with
        last := tset 300 (engine s (engineOf k)).last (chanPri s k) k, cur := k, busy := s.fclk + b / 2 ^ (side s k false).ew } s))) := by
  unfold issueBurst
  dsimp only
  rw [max_eq_left hbusy]
  rfl

theorem moverBurst : MoverBurst := fun _ _ hbusy hsize hgrant hbad hgone =>
  (exec_burstIssue hbusy hsize hgrant hbad hgone).trans (congrArg Host.Outcome.next (issueBurst_idle hbusy ..))

/-- Settles O35: a start is decided by the state of its channel and by a check that the start itself leaves as it was, and a burst of an idle
engine begins at once. -/
theorem moversStart : Obligations.MoversStart := ⟨moverStarts, moverBurst⟩

end Sys2Proof.Proofs

/-! Gleby's commands on time, the hatband, ports, blockers and feeds (R318, R422, R424, R434 to R439): what the body of each answers. -/
namespace Sys2Proof.Proofs
open Sys2Proof Sys2Proof.Machine Sys2Proof.Claims Sys2Proof.Laws

section
variable {c : Cmd} {call : Call}

/-- A row of Gleby's table whose `ok` reads what naming a session leaves alone: its body acts where `ok` still holds. -/
theorem runs_of_kept_body {x : GIn → Instr} {sp : CmdSpec} {ok : Call → State → Prop} {obs : Call → List (Nat × Nat)}
    {bad : Call → State → Option BadAt} {deny : Call → State → Bool} {body : Call → State → Reply × State} {P : Cmd → Call → State → State → Prop}
    (hexec : ∀ g s call, ok call s → exec (x g) s = runCmd sp bad deny obs body g s)
    (hbad : ∀ call s, ok call s → bad call s = none) (hdeny : ∀ call s, ok call s → deny call s = false)
    (hkept : ∀ call g s, ok call s → ok call (setGly g s))
    (hbody : ∀ c call u, ok call u → call.linkOk = true → P c call u (answer c call (body call u))) :
    Runs x sp ok (fun call _ => obs call) P := by
  intro g s c call hstart hok
  have hlink : call.linkOk = true := (checkEntry_linkOk hstart.entry).trans hstart.link
  exact ⟨_, (hexec g s call hok).trans (runCmd_of_starts hstart (hbad _ _ hok) (hdeny _ _ hok)), hbody _ _ _ (hkept _ _ _ hok) hlink⟩

/-! ### The time commands -/

theorem servoOwns_iff {u : State} : servoOwns u = true ↔ timSrc u = 1 ∨ timSrc u = 3 := by simp [servoOwns]

theorem answer_refusedFree (u : State) : answer c call (refusedFree u) = refusedWith c u := answer_failWith ..

/-- An arm at a tick far enough away stands. -/
theorem stepArm_far {s : State} (h : s.tb.tick + 4096 ≤ (rget s (timReg 0x30)).toNat) :
    stepArm s = rbitSet (timReg 0) 8 true
      (setTb { s.tb with step := some ((rget s (timReg 0x28)).toInt, (rget s (timReg 0x30)).toNat) } s) := if_neg (by omega)

/-- The amount and the tick of a step in their registers. -/
def stepSet (d a : Nat) (u : State) : State := rset (timReg 0x30) (BitVec.ofNat 64 a) (rset (timReg 0x28) (BitVec.ofNat 64 d) u)

theorem stepArm_stepSet {a : Nat} {u : State} (d : Nat) (hfar : u.tb.tick + 6000 ≤ a) (ha : a < 2 ^ 64) :
    stepArm (stepSet d a u) = rbitSet (timReg 0) 8 true
      (setTb { (stepSet d a u).tb with step := some ((rget (stepSet d a u) (timReg 0x28)).toInt, a) } (stepSet d a u)) := by
  have hat : (rget (stepSet d a u) (timReg 0x30)).toNat = a := by
    rw [stepSet, rget_rset_same, BitVec.toNat_ofNat, Nat.mod_eq_of_lt ha]
  have htick : (stepSet d a u).tb.tick = u.tb.tick := by simp [stepSet]
  rw [stepArm_far (by omega), hat]

theorem putHatRec_unlisted {b : Nat} {r : HatRec} (h : (if r.sink then snkListed r.num else srcListed r.num) = false) (s : State) :
    putHatRec b r s = s := by simp [putHatRec, h]

/-- The address of the entry that a record of HAT_WRITE names, in bank `b`. -/
def hatRecAt (b : Nat) (r : HatRec) : Nat := hatBankBase b + (if r.sink then 0x7000 else 0) + 2 * r.num

theorem putHatRec_listed {r : HatRec} (h : (if r.sink then snkListed r.num else srcListed r.num) = true) (b : Nat) (s : State) :
    putHatRec b r s = girdlePut (hatRecAt b r) (natBytes 2 (r.val / 0x8000 * 0x8000 + r.val % 4096)) s := by simp [putHatRec, h, hatRecAt]

/-- A record changes the two bytes of its entry alone. -/
theorem byteAt_putHatRec_apart {b a : Nat} {r : HatRec} (h : a < hatRecAt b r ∨ hatRecAt b r + 2 ≤ a) (s : State) :
    byteAt (putHatRec b r s) a = byteAt s a := by
  cases hlist : (if r.sink then snkListed r.num else srcListed r.num)
  · rw [putHatRec_unlisted hlist]
  · rw [putHatRec_listed hlist, byteAt, girdlePut_mem]
    simp only [poke_fields, mget_mputs, natBytes_length]
    exact if_neg (by omega)

/-- A record's value has 16 bits, so that its entry reads as it was written. -/
theorem hatRecs_val_lt {bs : List Byte} {r : HatRec} (h : r ∈ hatRecs bs) : r.val < 2 ^ 16 := by
  obtain ⟨i, -, rfl⟩ := List.mem_map.1 h
  exact Nat.mod_lt _ (by decide)

/-- The records of a HAT_WRITE written into bank `b`. -/
def hatRecsPut (b : Nat) (rs : List HatRec) (s : State) : State := rs.foldl (fun s r => putHatRec b r s) s
/-- HAT_WRITE's copy of the live bank, where it asks for one. -/
def hatCopied (call : Call) (u : State) : State :=
  if call.p 0 1 = 1 then setMem (copyBytes (hatBankBase (hatLive u)) (hatBankBase (1 - hatLive u)) 0xD800 u.mem) u else u

theorem byteAt_hatRecsPut_apart {b a : Nat} {rs : List HatRec} (h : ∀ r ∈ rs, a < hatRecAt b r ∨ hatRecAt b r + 2 ≤ a) (s : State) :
    byteAt (hatRecsPut b rs s) a = byteAt s a := by
  induction rs generalizing s with
  | nil => rfl
  | cons r rs ih =>
    exact (ih (fun q hq => h q (List.mem_cons_of_mem _ hq)) _).trans (byteAt_putHatRec_apart (h r List.mem_cons_self) s)

theorem natAt_putHatRec {b : Nat} {r : HatRec} (hlist : (if r.sink then snkListed r.num else srcListed r.num) = true) (hval : r.val < 2 ^ 16)
    (s : State) : natAt (putHatRec b r s) (hatRecAt b r) 2 = r.val / 0x8000 * 0x8000 + r.val % 4096 := by
  rw [putHatRec_listed hlist, natAt_girdlePut_same]
  omega

theorem hatWriteBody_eq {u : State} (hlock : (hatRecs call.data).any (hatRecLocked u) = false) (harm : rbit u (hatReg 0) 2 = false) :
    hatWriteBody call u = done ((hatRecs call.data).length + (hatRecs call.data).length * 2 ^ 32)
      (hatRecsPut (1 - hatLive u) (hatRecs call.data) (hatCopied call u)) := by
  unfold hatWriteBody
  rw [if_neg (by simp [hlock]), if_neg (by simp [harm])]
  rfl

/-- An arm far enough away stands where no swap is armed and no copy runs. -/
theorem hatArm_far {s : State} (hfar : s.tb.tick + 4096 ≤ (rget s (hatReg 8)).toNat) (harm : rbit s (hatReg 0) 2 = false)
    (hcopy : rbit s (hatReg 0) 1 = false) : hatArm s = w1sWrite (hatReg 0) 2 s := if_neg (by simp [harm, hcopy]; omega)

theorem rbit_rset_ne {a b : Nat} (h : b ≠ a) (v : BitVec 64) (s : State) (i : Nat) : rbit (rset a v s) b i = rbit s b i :=
  congrArg (bit · i) (rget_rset_ne h v s)

theorem hatArm_hatSet {a : Nat} {u : State} (hfar : u.tb.tick + 6000 ≤ a) (ha : a < 2 ^ 64) (harm : rbit u (hatReg 0) 2 = false)
    (hcopy : rbit u (hatReg 0) 1 = false) :
    hatArm (rset (hatReg 8) (BitVec.ofNat 64 a) u) = w1sWrite (hatReg 0) 2 (rset (hatReg 8) (BitVec.ofNat 64 a) u) := by
  refine hatArm_far ?_ ((rbit_rset_ne (by decide) ..).trans harm) ((rbit_rset_ne (by decide) ..).trans hcopy)
  rw [rget_rset_same, BitVec.toNat_ofNat, Nat.mod_eq_of_lt ha]
  exact Nat.le_trans (Nat.add_le_add_left (by decide) u.tb.tick) hfar

theorem timerSet_eq {u : State} (hlock : timerLocked u (call.p 0 2) = false) (hper : 2 ≤ call.p 4 4) :
    timerSet call u = done 0 (setTimWrites (u.timWrites ++ [(call.p 0 2, (0, BitVec.ofNat 64 (call.p 8 8))),
      (call.p 0 2, (8, BitVec.ofNat 64 (call.p 4 4))),
      (call.p 0 2, (16, BitVec.ofNat 64 (call.p 16 4 * 2 ^ 32 + call.p 2 1 * 2 + call.p 3 1)))]) u) := by
  have hlong : ¬ call.p 4 4 ≤ 1 := by omega
  simp [timerSet, hlock, hlong, timerAccept, setTimWrites]

theorem timeCommands : TimeCommands := by
  refine ⟨?get, ?source, ?step, ?rate, ?config, ?status, ?timer, ?write, ?swap⟩
  case get =>
    exact runs_of_body (bad := noBad) (deny := noDeny) (body := timeGet) (fun _ _ _ _ => rfl) (fun _ _ _ => rfl) (fun _ _ _ => rfl)
      fun c call s u _ _ => answer_done ..
  case source =>
    refine runs_of_body (bad := timeSourceBad) (deny := noDeny) (body := timeSource) (fun _ _ _ _ => rfl)
      (fun call s ⟨hsrc, hedge, hout⟩ => firstBad_none ?_) (fun _ _ _ => rfl) fun c call s u _ _ => answer_done ..
    simp
    omega
  case step =>
    refine runs_of_kept_body (bad := timeStepBad) (deny := noDeny) (body := timeStep) (fun _ _ _ _ => rfl)
      (fun call s ⟨hnear, hfar⟩ => firstBad_none ?_) (fun _ _ _ => rfl) (fun _ _ _ h => h)
      fun c call u ⟨hnear, _⟩ _ => ⟨fun howns => ?_, fun h1 h3 ha => ?_⟩
    · simp
      omega
    · rw [timeStep, if_pos (servoOwns_iff.2 howns), answer_fail]
    · rw [timeStep, if_neg (by simp [servoOwns_iff, h1, h3])]
      exact (answer_wait (by simp) ..).trans (congrArg _ (stepArm_stepSet _ hnear ha))
  case rate =>
    refine runs_of_body (bad := noBad) (deny := noDeny) (body := timeRate) (fun _ _ _ _ => rfl) (fun _ _ _ => rfl) (fun _ _ _ => rfl)
      fun c call s u _ _ => ⟨fun howns => ?_, fun h1 h3 hlo hhi => ?_, fun h1 h3 hout => ?_⟩
    · rw [timeRate, if_pos (servoOwns_iff.2 howns), answer_fail]
    · rw [timeRate, if_neg (by simp [servoOwns_iff, h1, h3])]
      exact (congrArg (answer c call) (if_neg (by omega))).trans (answer_done ..)
    · rw [timeRate, if_neg (by simp [servoOwns_iff, h1, h3])]
      exact (congrArg (answer c call) (if_pos hout)).trans (answer_refusedFree ..)
  case config =>
    refine runs_of_body (bad := ptpConfigBad) (deny := noDeny) (body := ptpConfig) (fun _ _ _ _ => rfl)
      (fun call s ⟨hprof, hsync0, hsync1, hkp0, hkp1, hki0, hki1, hlock, hhold0, hhold1, hstep0, hstep1, hns0, hns1⟩ => firstBad_none ?_)
      (fun _ _ _ => rfl) fun c call s u _ _ => answer_done ..
    have hlock1 := callP_lt call 10 1
    simp only [List.forall_mem_cons, decide_eq_false_iff_not]
    exact ⟨by omega, by omega, by omega, by omega, by omega, by omega, by omega, by omega, by simp⟩
  case status =>
    exact runs_of_body (bad := noBad) (deny := noDeny) (body := ptpStatus) (fun _ _ _ _ => rfl) (fun _ _ _ => rfl) (fun _ _ _ => rfl)
      fun c call s u _ _ => answer_done ..
  case timer =>
    refine runs_of_body (bad := timerSetBad) (deny := noDeny) (body := timerSet) (fun _ _ _ _ => rfl)
      (fun call s ⟨hnum, hmode, hen⟩ => firstBad_none ?_) (fun _ _ _ => rfl) fun c call s u _ _ => ⟨fun hlock => ?_, fun hlock hper => ?_⟩
    · simp
      omega
    · rw [timerSet, if_pos hlock, answer_fail]
    · rw [timerSet_eq hlock hper, answer_done]
  case write =>
    refine runs_of_body (bad := hatWriteBad) (deny := noDeny) (body := hatWriteBody)
      (fun g s call ⟨hcopy, _⟩ => by change execHatWrite g s = _; rw [execHatWrite, hcopy]; rfl)
      (fun call s ⟨_, hmode, hrecs⟩ => ?_) (fun _ _ _ => rfl)
      fun c call s u _ _ => ⟨fun hlock => ?_, fun hlock harm => ?_, fun hlock harm _ => ?_⟩
    · have hin : (hatRecs call.data).findIdx? hatRecOut = none := List.findIdx?_eq_none_iff.2 hrecs
      rw [hatWriteBad, hin]
      exact firstBad_none (by simpa using hmode)
    · rw [hatWriteBody, if_pos hlock, answer_fail]
    · rw [hatWriteBody, if_neg (by simp [hlock]), if_pos harm, answer_fail]
    · rw [hatWriteBody_eq hlock harm, answer_done]
      refine ⟨_, rfl, fun hmode a hapart => ?_, fun r hrs hlist => ?_⟩
      · rw [byteAt_hatRecsPut_apart hapart, hatCopied, if_neg (by omega)]
      · have hval : r.val < 2 ^ 16 := hatRecs_val_lt (bs := call.data) (by simp [hrs])
        rw [hrs]
        exact natAt_putHatRec hlist hval _
  case swap =>
    refine runs_of_kept_body (bad := hatSwapBad) (deny := noDeny) (body := hatSwapBody)
      (fun g s call ⟨hcopy, _⟩ => by change execHatSwap g s = _; rw [execHatSwap, hcopy]; rfl)
      (fun call s ⟨_, hfar⟩ => firstBad_none ?_) (fun _ _ _ => rfl) (fun _ _ _ h => h)
      fun c call u ⟨hcopy, hfar⟩ _ => ⟨fun harm => ?_, fun harm ha => ?_⟩
    · simpa using hfar
    · rw [hatSwapBody, if_pos harm, answer_fail]
    · rw [hatSwapBody, if_neg (by simp [harm])]
      exact (answer_wait (by simp) ..).trans (congrArg _ (hatArm_hatSet hfar ha harm hcopy))

/-! ### The port, blocker and feed commands -/

/-- A measurement starts where none runs in the cell and the cell takes the start, `w` being what is written. -/
theorem startMeasure_starts {p kind : Nat} {v w : BitVec 64} {u : State} (hw : v ||| 0x8000000000000000 = w)
    (hidle : rbit u (cellReg p 0x60) 62 = false) (htaken : rbit (cellWrite p 0x60 w .steward u).2 (cellReg p 0x60) 62 = true) :
    startMeasure p kind v u = ({ wait := .measured p kind, held := [(obCell, p)] }, (cellWrite p 0x60 w .steward u).2) := by
  subst hw
  rw [startMeasure, if_neg (by simp [hidle])]
  exact if_pos htaken

/-- PROBE's start bits with GO. -/
theorem probeStart_go : (0x0400000000000000 : BitVec 64) ||| 0x8000000000000000 = 0x8400000000000000 := by decide

theorem probeBody_denied {u : State} (h : senseDenied u (call.p 0 2) ≠ 0) : probeBody call u = fail (senseDenied u (call.p 0 2)) u := by
  unfold probeBody
  split
  · contradiction
  · rfl
theorem cableBody_denied {u : State} (h : senseDenied u (call.p 0 2) ≠ 0) : cableBody call u = fail (senseDenied u (call.p 0 2)) u := by
  unfold cableBody
  split
  · contradiction
  · rfl

/-- A measurement that nothing denies is one of a cell that is on. -/
theorem cellOn_of_not_senseDenied {u : State} {p : Nat} (h : senseDenied u p = 0) : cellOn u p = true := by
  unfold senseDenied at h
  split at h
  · cases h
  · split at h
    · cases h
    · simpa using ‹¬ (!cellOn u p) = true›

theorem cellBadField_none {s : State} (h : call.p 0 2 ≤ 1023) : cellBadField call s = none := firstBad_none (by simpa using h)
theorem blkBad_none {s : State} (h : call.p 0 1 ≤ 63) : blkBad call s = none := firstBad_none (by simpa using h)
theorem threadBad_none {s : State} (hblk : call.p 0 1 ≤ 63) (hthread : call.p 1 1 ≤ 15) : threadBad call s = none :=
  firstBad_none (by simp; omega)
theorem feedBad_none {s : State} (hblk : call.p 0 1 ≤ 63) (hfeed : call.p 1 1 ≤ 3) : feedBad call s = none :=
  firstBad_none (by simp; omega)

theorem bindBad_none {s : State} (hcell : call.p 0 2 ≤ 1023) (hlo : 1 ≤ call.p 2 1) (hhi : call.p 2 1 ≤ 10)
    (heven : isPairProto (call.p 2 1) = true → call.p 0 2 % 2 = 0) (hrate : rateOk (call.p 2 1) (call.p 8 8) (call.p 16 8) = true)
    (hfmt : fmtOk (call.p 2 1) (call.p 16 8) = true) : bindBad call s = none := by
  refine firstBad_none ?_
  have hpair : (isPairProto (call.p 2 1) && call.p 0 2 % 2 == 1) = false := by
    cases hproto : isPairProto (call.p 2 1)
    · rfl
    · simp [heven hproto]
  simp [hpair, hrate, hfmt]
  omega

theorem portCommands : PortCommands := by
  refine ⟨?group, ?probe, ?cable, ?bind, ?unbind, ?wheel, ?threadStatus, ?restart, ?feedSet, ?feedStatus⟩
  case group =>
    refine runs_of_body (bad := groupSetBad) (deny := noDeny) (body := groupSet) (fun _ _ _ _ => rfl)
      (fun call s ⟨hg, hv, he⟩ => firstBad_none ?_) (fun _ _ _ => rfl)
      fun c call s u _ _ => ⟨fun hlock => ?_, fun hlock hoff => ?_, fun hlock hup hverr => ?_, fun hlock hup hok => ?_⟩
    · simp
      omega
    · rw [groupSet, if_pos hlock, answer_fail]
    · rw [groupSet, if_neg (by simp [hlock]), if_pos (by simp [hoff]), answer_fail]
    · rw [groupSet, if_neg (by simp [hlock]), if_neg (by simp [hup])]
      exact (congrArg (answer c call) (if_pos hverr)).trans (answer_failWith ..)
    · rw [groupSet, if_neg (by simp [hlock]), if_neg (by simp [hup])]
      exact (congrArg (answer c call) (if_neg (by simp [hok]))).trans (answer_done ..)
  case probe =>
    refine runs_of_body (bad := cellBadField) (deny := noDeny) (body := probeBody) (fun _ _ _ _ => rfl)
      (fun call s hcell => cellBadField_none hcell) (fun _ _ _ => rfl) fun c call s u _ _ => ⟨fun hdeny => ?_, fun hfree hidle htaken => ?_⟩
    · rw [probeBody_denied hdeny, answer_fail]
    · rw [probeBody, hfree]
      exact (congrArg (answer c call) (startMeasure_starts probeStart_go hidle htaken)).trans (answer_wait (by simp) ..)
  case cable =>
    refine runs_of_body (bad := cableBad) (deny := noDeny) (body := cableBody) (fun _ _ _ _ => rfl)
      (fun call s ⟨hcell, hend⟩ => firstBad_none ?_) (fun _ _ _ => rfl) fun c call s u _ _ => ⟨fun hdeny => ?_, fun hfree hidle htaken => ?_⟩
    · simp
      omega
    · rw [cableBody_denied hdeny, answer_fail]
    · rw [cableBody, hfree]
      exact (congrArg (answer c call) (startMeasure_starts rfl hidle htaken)).trans (answer_wait (by simp) ..)
  case bind =>
    refine runs_of_body (bad := bindBad) (deny := noDeny) (body := bindBody) (fun _ _ _ _ => rfl)
      (fun call s ⟨hcell, hlo, hhi, heven, hrate, hfmt⟩ => bindBad_none hcell hlo hhi heven hrate hfmt) (fun _ _ _ => rfl)
      fun c call s u _ _ => ⟨fun hlock => ?_, fun hcells hthread hoff => ?_, fun hcells hthread hon hbound => ?_,
        fun hcells hthread hbound hslots hver hfree hidle htaken => ?_⟩
    · rw [bindBody, if_pos (by simpa using hlock), answer_fail]
    · rw [bindBody, if_neg (by simp [hcells, hthread]), if_pos (by simp [hoff]), answer_fail]
    · rw [bindBody, if_neg (by simp [hcells, hthread]), if_neg (by simp [hon]), if_pos hbound, answer_fail]
    · rw [bindBody, if_neg (by simp [hcells, hthread]), if_neg (by simp [cellOn_of_not_senseDenied hfree]), if_neg (by simp [hbound]),
        if_neg (by omega), if_neg (by omega), hfree]
      dsimp only
      rw [startMeasure_starts probeStart_go hidle htaken]
      exact answer_wait (by simp) ..
  case unbind =>
    refine runs_of_body (bad := cellBadField) (deny := noDeny) (body := unbindBody) (fun _ _ _ _ => rfl)
      (fun call s hcell => cellBadField_none hcell) (fun _ _ _ => rfl)
      fun c call s u _ _ => ⟨fun hlock => ?_, fun hlock hnone => ?_, fun hlock hbound => ?_⟩
    · rw [unbindBody, if_pos hlock, answer_fail]
    · rw [unbindBody, if_neg (by simp [hlock]), hnone]
      exact answer_fail ..
    · obtain ⟨b, hb⟩ := Option.ne_none_iff_exists'.1 hbound
      rw [unbindBody, if_neg (by simp [hlock]), hb]
      exact answer_wait (by simp) ..
  case wheel =>
    refine runs_of_body (bad := blkBad) (deny := noDeny) (body := wheelBody) (fun _ _ _ _ => rfl)
      (fun call s hblk => blkBad_none hblk) (fun _ _ _ => rfl)
      fun c call s u _ _ => ⟨fun hlock => ?_, fun hlock hon hshort => ?_, fun hlock hon hlong => ?_⟩
    · rw [wheelBody, if_pos hlock, answer_fail]
    · rw [wheelBody, if_neg (by simp [hlock]), if_neg (by simp [hon]), if_pos hshort, answer_fail]
    · rw [wheelBody, if_neg (by simp [hlock]), if_neg (by simp [hon]), if_neg (by simp [hlong]), answer_done]
  case threadStatus =>
    exact runs_of_body (bad := threadBad) (deny := noDeny) (body := threadStatus) (fun _ _ _ _ => rfl)
      (fun call s ⟨hblk, hthread⟩ => threadBad_none hblk hthread) (fun _ _ _ => rfl) fun c call s u _ hlink => answer_doneData hlink ..
  case restart =>
    refine runs_of_body (bad := threadBad) (deny := noDeny) (body := threadRestart) (fun _ _ _ _ => rfl)
      (fun call s ⟨hblk, hthread⟩ => threadBad_none hblk hthread) (fun _ _ _ => rfl)
      fun c call s u _ _ => ⟨fun hlock => ?_, fun hlock hon hruns => ?_, fun hlock hon hidle => ?_⟩
    · rw [threadRestart, if_pos hlock, answer_fail]
    · rw [threadRestart, if_neg (by simp [hlock]), if_neg (by simp [hon]), if_pos (not_or.1 hruns), answer_fail]
    · rw [threadRestart, if_neg (by simp [hlock]), if_neg (by simp [hon]), if_neg (fun h => hidle.elim h.1 h.2), answer_done]
  case feedSet =>
    refine runs_of_body (bad := feedBad) (deny := noDeny) (body := feedSet) (fun _ _ _ _ => rfl)
      (fun call s ⟨hblk, hfeed⟩ => feedBad_none hblk hfeed) (fun _ _ _ => rfl)
      fun c call s u _ _ => ⟨fun hlock => ?_, fun hlock hoff => ?_, fun hlock hon hbad => ?_, fun hlock hon hok => ?_⟩
    · rw [feedSet, if_pos hlock, answer_fail]
    · rw [feedSet, if_neg (by simp [hlock]), if_pos (by simp [hoff]), answer_fail]
    · rw [feedSet, if_neg (by simp [hlock]), if_neg (by simp [hon])]
      exact (congrArg (answer c call) (if_pos hbad)).trans (answer_failWith ..)
    · rw [feedSet, if_neg (by simp [hlock]), if_neg (by simp [hon])]
      exact (congrArg (answer c call) (if_neg (by simp [hok]))).trans (answer_done ..)
  case feedStatus =>
    exact runs_of_body (bad := feedBad) (deny := noDeny) (body := feedStatus) (fun _ _ _ _ => rfl)
      (fun call s ⟨hblk, hfeed⟩ => feedBad_none hblk hfeed) (fun _ _ _ => rfl) fun c call s u _ _ => answer_done ..

end

/-- Settles O52, row by row, from what each command's body answers. -/
theorem timeAndPortCommands : Obligations.TimeAndPortCommands := ⟨timeCommands, portCommands⟩

end Sys2Proof.Proofs

/-! The passing of an FCLK (R303, R304, log entry 1): what leaves the queue of commands, the clock and the time base alone, and the step on an empty queue. -/
namespace Sys2Proof.Proofs
open Sys2Proof Sys2Proof.Machine Sys2Proof.Claims Sys2Proof.Laws

/-! ### What an FCLK leaves to the clock itself -/

/-- The queue of commands, the model's clock and the time base: what passing time changes in `tick` alone. -/
def clocks (s : State) : List Instr × Nat × TimeBase := (s.pending, s.fclk, s.tb)

theorem clocks_of_offLog {s t : State} (h : offLog t = offLog s) : clocks t = clocks s :=
  (congrArg (fun x : State => (x.pending, x.fclk, x.tb)) h :)
theorem clocks_of_offRaised {s t : State} (h : offRaised t = offRaised s) : clocks t = clocks s :=
  (congrArg (fun x : State => (x.pending, x.fclk, x.tb)) h :)

theorem noteReads_clocks (port : Nat) (words : List Nat) (s : State) : clocks (noteReads port words s) = clocks s := by
  unfold noteReads
  refine foldl_keeps (part := clocks) (fun s w => ?_) words s
  split
  · split
    · rfl
    · exact clocks_of_offLog (logEvents_offLog ..)
  · rfl

theorem laterFclk_clocks (rank w : Nat) (s : State) : clocks (laterFclk rank w s) = clocks s := by
  unfold laterFclk; split <;> simp [clocks]
theorem dropBack_clocks (w : Nat) (s : State) : clocks (dropBack w s) = clocks s := by
  unfold dropBack; split <;> simp [clocks]
theorem rawWrite_clocks (w : Nat) (m : BitVec 16) (tag : Bool) (s : State) : clocks (rawWrite w m tag s) = clocks s := by
  unfold rawWrite; split <;> simp [clocks]
theorem hostLost_clocks (a : Nat) (s : State) : clocks (hostLost a s) = clocks s := by unfold hostLost; split <;> simp [clocks]
theorem reportLoss_clocks (a : Nat) (who : Agent) (s : State) : clocks (reportLoss a who s) = clocks s := by
  cases who with
  | host => exact hostLost_clocks ..
  | fabric => exact hostLost_clocks ..
  | facet n => simp [clocks, reportLoss]
  | mover k => simp [clocks, reportLoss]
  | steward => rfl
  | blocker b => rfl
  | loader => rfl
theorem tellLoss_clocks (a : Nat) (who : Agent) (id : Nat) (s : State) : clocks (tellLoss a who id s) = clocks s := by
  unfold tellLoss
  split
  · rfl
  · exact (reportLoss_clocks ..).trans (by simp [clocks])
theorem markRewritten_clocks (w : Nat) (s : State) : clocks (markRewritten w s) = clocks s :=
  foldl_keeps (part := clocks) (fun _ _ => by simp [clocks]) ..
theorem dropResv_clocks (w : Nat) (who : Agent) (s : State) : clocks (dropResv w who s) = clocks s :=
  foldl_keeps (part := clocks) (g := fun s (p : Nat × Facet) => setFacet p.1 { p.2 with resv := none } s) (fun _ _ => by simp [clocks]) _ s
theorem writeWord_clocks (who : Agent) (rank a : Nat) (bs : List Byte) (tag : Bool) (s : State) :
    clocks (writeWord who rank a bs tag s) = clocks s := by
  unfold writeWord
  extract_lets w s1 m before new here higher lower taken compat eff s2 s3 told mark base s4 s5 s6 s7
  have h1 : clocks s1 = clocks s := (laterFclk_clocks ..).trans (dropBack_clocks ..)
  have h2 : clocks s2 = clocks s1 := by
    unfold s2
    split
    · exact tellLoss_clocks ..
    · rfl
  have h3 : clocks s3 = clocks s2 := foldl_keeps (part := clocks) (fun s k => by split; exacts [tellLoss_clocks .., rfl]) lower s2
  have h5 : clocks s5 = clocks s3 := (rawWrite_clocks ..).trans (by simp [clocks, s4])
  have h7 : clocks s7 = clocks s3 := (markRewritten_clocks ..).trans (Eq.trans (by simp [clocks, s6]) h5)
  have hstart := h3.trans (h2.trans h1)
  split
  · exact hstart
  · exact (dropResv_clocks ..).trans (h7.trans hstart)

theorem putG_clocks (n r : Nat) (v : BitVec 64) (s : State) : clocks (putG n r v s) = clocks s := by 
  unfold putG; split <;> simp [clocks]
theorem putA_clocks (n : Nat) (ups : List (Nat × BitVec 48)) (s : State) : clocks (putA n ups s) = clocks s := by simp [clocks, putA]
theorem updFacet_clocks (n : Nat) (h : Facet → Facet) (s : State) : clocks (updFacet n h s) = clocks s := by simp [clocks]
theorem longElement_clocks (n : Nat) (l : LongOp) (s : State) : clocks (longElement n l s) = clocks s := by
  unfold longElement
  dsimp only
  split <;> simp only [putG_clocks, putA_clocks, writeWord_clocks]
theorem longRun_clocks (n : Nat) : ∀ (k : Nat) (s : State), clocks (longRun n k s) = clocks s
  | 0, _ => rfl
  | k + 1, s => by
    unfold longRun
    split
    · dsimp only
      split
      · rfl
      · exact (longRun_clocks n k _).trans ((updFacet_clocks ..).trans ((longElement_clocks ..).trans (noteReads_clocks ..)))
    · rfl
theorem longTo_clocks (n t : Nat) (s : State) : clocks (longTo n t s) = clocks s := by
  unfold longTo
  split
  · rename_i l _
    have hrun := longRun_clocks n ((t - l.start - 4) / longPer (facet s n) l.op - l.done) s
    dsimp only
    split
    · split
      · exact Eq.trans (by simp [clocks]) hrun
      · exact hrun
    · exact hrun
  · rfl
theorem longProgress_clocks (n : Nat) (s : State) : clocks (longProgress n s) = clocks s := by
  unfold longProgress
  split
  · exact longTo_clocks ..
  · rfl

theorem eachFacet_clocks {h : Nat → State → State} (hstep : ∀ n s, clocks (h n s) = clocks s) (s : State) :
    clocks (eachFacet h s) = clocks s := foldl_keeps (part := clocks) (fun s n => hstep n s) ..

theorem intsTick_clocks (k : Nat) (s : State) : clocks (intsTick k s) = clocks s := by
  unfold intsTick
  extract_lets t
  exact (foldl_keeps (part := clocks) (fun _ _ => by simp [clocks, pendAgain]) _ t).trans rfl

theorem timerPut_clocks (w : Nat × (Nat × BitVec 64)) (s : State) : clocks (timerPut w s) = clocks s := by
  unfold timerPut
  split
  · simp [clocks]
  · unfold lperPut; split <;> simp [clocks]
  · unfold lctlPut; dsimp only; split <;> simp [clocks]
theorem timersTick_clocks (s : State) : clocks (timersTick s) = clocks s :=
  foldl_keeps (part := clocks) (fun s w => timerPut_clocks w s) s.timWrites (setTimWrites [] s)

theorem copySwitch_clocks (c : Nat) (s : State) : clocks (copySwitch c s) = clocks s := by
  unfold copySwitch
  split
  · split
    · rfl
    · split <;> simp [clocks, pounceIdle]
  · rfl
theorem copiesTick_clocks (s : State) : clocks (copiesTick s) = clocks s := foldl_keeps (part := clocks) (fun s c => copySwitch_clocks c s) ..

theorem chanIdle_clocks (k : Nat) (s : State) : clocks (chanIdle k s) = clocks s := by
  rw [chanIdle_eq]
  obtain h | ⟨v, h⟩ := missUndone_cases k s <;> rw [h] <;> unfold w1sClear <;> split <;> simp [clocks, setChanState]
theorem endError_clocks (k err : Nat) (s : State) : clocks (endError k err s) = clocks s := by
  rw [endError_eq]
  exact (chanIdle_clocks ..).trans (clocks_of_offRaised (errTold_offRaised ..))
theorem takeStart_clocks (k : Nat) (s : State) : clocks (takeStart k s) = clocks s := by
  unfold takeStart
  dsimp only
  split
  · simp [clocks, setChanState]
  · exact (endError_clocks ..).trans (by simp [clocks])
theorem stopAgain_clocks (k : Nat) (s : State) : clocks (stopAgain k s) = clocks s := by
  unfold stopAgain movStop
  split <;> simp [clocks]
theorem settleEngine_clocks (e : Nat) (x : Engine) (s : State) : clocks (settleEngine e x s) = clocks s := by
  unfold settleEngine
  split
  · split <;> simp [clocks]
  · rfl
theorem paceChan_clocks (k : Nat) (s : State) : clocks (paceChan k s) = clocks s := by
  unfold paceChan
  dsimp only
  split
  · rfl
  · split <;> simp [clocks, setChanState]
theorem moversTick_clocks (s : State) : clocks (moversTick s) = clocks s := by
  unfold moversTick
  extract_lets s1 s2 s3
  have h1 : clocks s1 = clocks s := 
    foldl_keeps (part := clocks) (g := fun s (p : Nat × Chan) => takeStart p.1 s) (fun s p => takeStart_clocks p.1 s) _ s
  have h2 : clocks s2 = clocks s1 := 
    foldl_keeps (part := clocks) (g := fun s (p : Nat × Chan) => stopAgain p.1 s) (fun s p => stopAgain_clocks p.1 s) _ s1
  have h3 : clocks s3 = clocks s2 := 
    foldl_keeps (part := clocks) (g := fun s (p : Nat × Engine) => settleEngine p.1 p.2 s) (fun s p => settleEngine_clocks p.1 p.2 s) _ s2
  exact (foldl_keeps (part := clocks) (g := fun s (p : Nat × Chan) => paceChan p.1 s) (fun s p => paceChan_clocks p.1 s) _ s3).trans
    (h3.trans (h2.trans h1))

theorem atE4_clocks (n : Nat) (s : State) : clocks (atE4 n s) = clocks s := by
  unfold atE4; dsimp only; split <;> simp [clocks]
theorem endRetx_clocks (n : Nat) (s : State) : clocks (endRetx n s) = clocks s := by
  unfold endRetx; dsimp only; split <;> simp [clocks]
theorem atX1_clocks (n : Nat) (s : State) : clocks (atX1 n s) = clocks s := by
  unfold atX1
  split
  · split
    · exact endRetx_clocks ..
    · rfl
  · rfl
theorem facetClock_clocks (k n : Nat) (s : State) : clocks (facetClock k n s) = clocks s := by
  unfold facetClock
  dsimp only
  split
  · rfl
  · exact (longProgress_clocks ..).trans ((atX1_clocks ..).trans ((atE4_clocks ..).trans (by simp [clocks])))

/-- `k` FCLK at once: the clock and the time base go on, the queue stays. -/
theorem tick_clocks (k : Nat) (s : State) : clocks (tick k s) = (s.pending, s.fclk + k, advTb 4 k s.tb) := by
  unfold tick
  extract_lets s1 tb stepped s2 s3 s4
  have h1 : clocks s1 = clocks s := eachFacet_clocks (fun n s => by split; exacts [longTo_clocks .., rfl]) s
  have h2 : clocks s2 = (s.pending, s.fclk + k, advTb 4 k s.tb) := by
    simp only [clocks, Prod.mk.injEq] at h1
    obtain ⟨hpend, hfclk, htb⟩ := h1
    simp [clocks, s2, tb, hpend, hfclk, htb]
  have h3 : clocks s3 = clocks s2 := (copiesTick_clocks ..).trans ((timersTick_clocks ..).trans (intsTick_clocks ..))
  have h4 : clocks s4 = clocks s3 := by
    unfold s4
    split <;> simp [clocks]
  exact (moversTick_clocks ..).trans ((eachFacet_clocks (facetClock_clocks k) s4).trans (h4.trans (h3.trans h2)))

theorem tick_pending (k : Nat) (s : State) : (tick k s).pending = s.pending := congrArg (·.1) (tick_clocks k s)
theorem tick_fclk (k : Nat) (s : State) : (tick k s).fclk = s.fclk + k := congrArg (·.2.1) (tick_clocks k s)
theorem tick_tb (k : Nat) (s : State) : (tick k s).tb = advTb 4 k s.tb := congrArg (·.2.2) (tick_clocks k s)

/-- Without a step or rate point the count runs at one rate. -/
theorem advTb_idle (fuel k : Nat) {t : TimeBase} (hstep : t.step = none) (hpend : t.pend = none) : advTb fuel k t = runTb k t := by
  cases fuel with
  | zero => rfl
  | succ fuel => simp [advTb, nextTbEvent, hstep, hpend]

/-- The rate stays in force. -/
theorem runTb_rate (k : Nat) (t : TimeBase) : (runTb k t).rate = t.rate := by
  obtain ⟨tick, frac, rate, pend, step⟩ := t
  exact (rfl : rate = rate)

/-- A count runs on modulo 2^64 ticks. -/
theorem total_runTb (k : Nat) (t : TimeBase) : (runTb k t).total = (t.total + k * (2 ^ 32 + t.rate).toNat) % 2 ^ 96 := by
  unfold runTb TimeBase.total
  dsimp only
  omega

theorem advance_one (s : State) : advance 1 s = tick 1 s := by simp [advance]

/-- Settles O2: the queue and the clock are what `tick` leaves of them, and without a step or rate point the time base runs on. -/
theorem idleStepIsOneFclk : Obligations.IdleStepIsOneFclk := by
  intro s hidle
  have hnext : step s = .next (tick 1 s) := by
    unfold step
    rw [hidle]
    simp only [advance_one]
  refine ⟨tick 1 s, hnext, tick_fclk 1 s, (tick_pending 1 s).trans hidle, fun hstep hpend => ?_⟩
  rw [tick_tb, advTb_idle 4 1 hstep hpend]
  have htotal := total_runTb 1 s.tb
  rw [Nat.one_mul, TimeBase.total, TimeBase.total] at htotal
  exact ⟨htotal, runTb_rate 1 s.tb⟩

end Sys2Proof.Proofs

/-! Steps, rate points and check words of store time (R305 to R308): the time base up to the point that is armed, and what a rate, an arm and a check word write. -/
namespace Sys2Proof.Proofs
open Sys2Proof Sys2Proof.Machine Sys2Proof.Claims Sys2Proof.Laws

/-! ### The time base up to a step or rate point -/

/-- A count at a rate leaves the armed step and the rate point. -/
theorem runTb_armed (k : Nat) (t : TimeBase) : (runTb k t).step = t.step ∧ (runTb k t).pend = t.pend := by
  obtain ⟨tick, frac, rate, pend, step⟩ := t
  exact ⟨(rfl : step = step), (rfl : pend = pend)⟩
theorem runTb_tick_lt (k : Nat) (t : TimeBase) : (runTb k t).tick < 2 ^ 64 := Nat.mod_lt _ (by decide)
theorem runTb_frac_lt (k : Nat) (t : TimeBase) : (runTb k t).frac < 2 ^ 32 := Nat.mod_lt _ (by decide)

theorem runTb_zero {t : TimeBase} (htick : t.tick < 2 ^ 64) (hfrac : t.frac < 2 ^ 32) : runTb 0 t = t := by
  obtain ⟨tick, frac, rate, pend, step⟩ := t
  simp only [runTb, TimeBase.total, TimeBase.mk.injEq, and_true] at *
  omega

/-- A point that is more than one FCLK away lies ahead of the next FCLK, and is then one FCLK nearer. -/
theorem fclkTo_runTb_one {t : TimeBase} {x : Nat} (hx : x < 2 ^ 64) (hfar : 1 < fclkTo t x) :
    (runTb 1 t).total = t.total + (2 ^ 32 + t.rate).toNat ∧ fclkTo (runTb 1 t) x = fclkTo t x - 1 := by
  have htotal := total_runTb 1 t
  unfold fclkTo at hfar ⊢
  rw [runTb_rate]
  generalize (2 ^ 32 + t.rate).toNat = r at *
  dsimp only at hfar ⊢
  split at hfar
  · omega
  next hahead =>
    have hq : 2 ≤ (x * 2 ^ 32 - t.total + r - 1) / r := by omega
    have hr : 0 < r := Nat.pos_of_ne_zero fun h => by simp [h] at hq
    have hroom : 2 * r ≤ x * 2 ^ 32 - t.total + r - 1 := (Nat.le_div_iff_mul_le hr).1 hq
    have hsum : (runTb 1 t).total = t.total + r := by omega
    refine ⟨hsum, ?_⟩
    have hnear : x * 2 ^ 32 - t.total + r - 1 = x * 2 ^ 32 - (t.total + r) + r - 1 + r := by omega
    rw [hsum, if_neg (by omega), if_neg hahead, hnear, Nat.add_div_right _ hr]
    have hone : 1 ≤ (x * 2 ^ 32 - (t.total + r) + r - 1) / r := (Nat.le_div_iff_mul_le hr).2 (by omega)
    rw [Nat.max_eq_right hone, Nat.max_eq_right (Nat.le_add_left ..), Nat.add_sub_cancel]

/-- FCLK by FCLK or at once, the count is the same as long as it has not wrapped in between. -/
theorem runTb_runTb_one {t : TimeBase} {j : Nat} (hj : 1 ≤ j) (h : (runTb 1 t).total = t.total + (2 ^ 32 + t.rate).toNat) :
    runTb (j - 1) (runTb 1 t) = runTb j t := by
  have hn : (runTb 1 t).total + (j - 1) * (2 ^ 32 + (runTb 1 t).rate).toNat = t.total + j * (2 ^ 32 + t.rate).toNat := by
    obtain ⟨i, rfl⟩ := Nat.exists_eq_add_of_le' hj
    rw [h, runTb_rate, Nat.add_sub_cancel, Nat.succ_mul]
    omega
  have hrate := runTb_rate 1 t
  rw [hrate] at hn
  obtain ⟨hstep, hpend⟩ := runTb_armed 1 t
  generalize runTb 1 t = u at *
  simp only [runTb, hn, hrate, hstep, hpend]

theorem fclkTo_pos (t : TimeBase) (x : Nat) : 1 ≤ fclkTo t x := by
  unfold fclkTo
  dsimp only
  split
  · exact Nat.le_refl 1
  · exact Nat.le_max_left ..

theorem advTb_event {fuel j k : Nat} {t : TimeBase} (h : nextTbEvent t = some j) (hj : j ≤ k) :
    advTb (fuel + 1) k t = advTb fuel (k - j) (tbCompare (runTb j t)) := by simp [advTb, h, hj]
theorem advTb_before {fuel j k : Nat} {t : TimeBase} (h : nextTbEvent t = some j) (hj : k < j) : advTb (fuel + 1) k t = runTb k t := by
  simp [advTb, h, Nat.not_le.2 hj]

theorem advance_fclk (k : Nat) (s : State) : (advance k s).fclk = s.fclk + k := by
  unfold advance
  split
  · omega
  · split
    · rw [tick_fclk]; omega
    · rw [tick_fclk, tick_fclk]; omega

/-- The one point that is armed lies at tick `x`. -/
def pointAt (t : TimeBase) (x : Nat) : Prop :=
  (∃ d, t.step = some (d, x)) ∧ t.pend = none ∨ t.step = none ∧ ∃ r, t.pend = some (r, x)
theorem pointAt_runTb {t : TimeBase} {x : Nat} (k : Nat) (h : pointAt t x) : pointAt (runTb k t) x := by
  obtain ⟨hstep, hpend⟩ := runTb_armed k t
  rwa [pointAt, hstep, hpend]
theorem nextTbEvent_pointAt {t : TimeBase} {x : Nat} (h : pointAt t x) : nextTbEvent t = some (fclkTo t x) := by
  obtain ⟨⟨d, hstep⟩, hpend⟩ | ⟨hstep, r, hpend⟩ := h <;> simp [nextTbEvent, hstep, hpend]

/-- Where the one armed point lies ahead and is due when the count first reaches it, the time base is compared in that FCLK. -/
theorem advance_tb_point {s : State} {x : Nat} (hpoint : pointAt s.tb x) (hdue : x ≤ (runTb (fclkTo s.tb x) s.tb).tick)
    (hdone : (tbCompare (runTb (fclkTo s.tb x) s.tb)).step = none ∧ (tbCompare (runTb (fclkTo s.tb x) s.tb)).pend = none) :
    (advance (fclkTo s.tb x) s).tb = runTb 0 (tbCompare (runTb (fclkTo s.tb x) s.tb)) := by
  have hpos := fclkTo_pos s.tb x
  have hx : x < 2 ^ 64 := Nat.lt_of_le_of_lt hdue (runTb_tick_lt ..)
  obtain hone | hfar : fclkTo s.tb x = 1 ∨ 1 < fclkTo s.tb x := by omega
  · rw [hone] at hdone ⊢
    rw [advance_one, tick_tb, advTb_event ((nextTbEvent_pointAt hpoint).trans (congrArg some hone)) (Nat.le_refl 1),
      advTb_idle _ _ hdone.1 hdone.2]
  · obtain ⟨htotal, hnear⟩ := fclkTo_runTb_one hx hfar
    have hfirst : (tick 1 s).tb = runTb 1 s.tb := (tick_tb 1 s).trans (advTb_before (nextTbEvent_pointAt hpoint) hfar)
    have hrest := nextTbEvent_pointAt (pointAt_runTb 1 hpoint)
    rw [hnear] at hrest
    rw [advance, if_neg (by omega), if_neg (by omega), tick_tb, hfirst, advTb_event hrest (Nat.le_refl _), runTb_runTb_one hpos htotal,
      Nat.sub_self, advTb_idle _ _ hdone.1 hdone.2]

/-! ### Steps and rates (R305 to R307) -/

theorem runTb_zero_stepped {b : TimeBase} {x : Nat} (hx : x < 2 ^ 64) (hfrac : b.frac < 2 ^ 32) :
    runTb 0 { b with tick := x, step := none } = { b with tick := x, step := none } := by
  obtain ⟨tick, frac, rate, pend, step⟩ := b
  exact runTb_zero hx hfrac
theorem runTb_zero_rated {b : TimeBase} {r : Int} (htick : b.tick < 2 ^ 64) (hfrac : b.frac < 2 ^ 32) :
    runTb 0 { b with rate := r, pend := none } = { b with rate := r, pend := none } := by
  obtain ⟨tick, frac, rate, pend, step⟩ := b
  exact runTb_zero htick hfrac

theorem tbCompare_step {t : TimeBase} {d : Int} {a : Nat} (hstep : t.step = some (d, a)) (hpend : t.pend = none) (hdue : a ≤ t.tick) :
    tbCompare t = { t with tick := wrapN 64 (t.tick + d), step := none } := by
  obtain ⟨tick, frac, rate, pend, step⟩ := t
  subst hstep hpend
  simp only [tbCompare, if_pos hdue]
theorem tbCompare_pend {t : TimeBase} {r : Int} {m : Nat} (hstep : t.step = none) (hpend : t.pend = some (r, m)) (hdue : m ≤ t.tick) :
    tbCompare t = { t with rate := r, pend := none } := by
  obtain ⟨tick, frac, rate, pend, step⟩ := t
  subst hstep hpend
  simp only [tbCompare, if_pos hdue]

theorem advanceWhile_ends {p : State → Bool} {s : State} (h : p s = false) (fuel : Nat) : advanceWhile p fuel s = s := by
  cases fuel with
  | zero => rfl
  | succ fuel => rw [advanceWhile, if_neg (by simp [h])]
theorem advanceWhile_goes {p : State → Bool} {s : State} {j : Nat} (hp : p s = true) (hj : nextTbEvent s.tb = some j) (fuel : Nat) :
    advanceWhile p (fuel + 1) s = advanceWhile p fuel (advance j s) := by
  rw [advanceWhile, if_pos hp, hj]
/-- One point, and then none: the wait for it is one advance. -/
theorem advanceWhile_point {p : State → Bool} {s : State} {x : Nat} (hp : p s = true) (hpoint : pointAt s.tb x)
    (hend : p (advance (fclkTo s.tb x) s) = false) (fuel : Nat) : advanceWhile p (fuel + 1) s = advance (fclkTo s.tb x) s :=
  (advanceWhile_goes hp (nextTbEvent_pointAt hpoint) fuel).trans (advanceWhile_ends hend fuel)

theorem exec_timeStepApply (s : State) :
    exec .timeStepApply s = gate s.tb.step.isSome (advanceWhile (fun s => s.tb.step.isSome) 3 s) := rfl
theorem exec_ratePoint (s : State) : exec .ratePoint s = gate s.tb.pend.isSome (advanceWhile (fun s => s.tb.pend.isSome) 3 s) := rfl

/-- An armed step, with no rate point, is applied where the count first reaches its tick. -/
theorem timeStep_applied {s : State} {d : Int} {a : Nat} (hstep : s.tb.step = some (d, a)) (hpend : s.tb.pend = none)
    (hdue : a ≤ (runTb (fclkTo s.tb a) s.tb).tick) :
    exec .timeStepApply s = .next (advance (fclkTo s.tb a) s) ∧ (advance (fclkTo s.tb a) s).tb =
      { runTb (fclkTo s.tb a) s.tb with tick := wrapN 64 ((runTb (fclkTo s.tb a) s.tb).tick + d), step := none } := by
  have hpoint : pointAt s.tb a := .inl ⟨⟨d, hstep⟩, hpend⟩
  obtain ⟨hstep', hpend'⟩ := runTb_armed (fclkTo s.tb a) s.tb
  have hcmp := tbCompare_step (hstep'.trans hstep) (hpend'.trans hpend) hdue
  have htb := advance_tb_point hpoint hdue (by rw [hcmp]; exact ⟨rfl, hpend'.trans hpend⟩)
  rw [hcmp, runTb_zero_stepped (wrapN_lt 64 _) (runTb_frac_lt ..)] at htb
  refine ⟨?_, htb⟩
  rw [exec_timeStepApply, advanceWhile_point (by simp [hstep]) hpoint (by rw [htb]; rfl), gate, hstep]
  rfl

/-- A rate point, with no step armed, puts its rate into force where the count first reaches it. -/
theorem ratePoint_applied {s : State} {r : Int} {m : Nat} (hstep : s.tb.step = none) (hpend : s.tb.pend = some (r, m))
    (hdue : m ≤ (runTb (fclkTo s.tb m) s.tb).tick) :
    exec .ratePoint s = .next (advance (fclkTo s.tb m) s) ∧
      (advance (fclkTo s.tb m) s).tb = { runTb (fclkTo s.tb m) s.tb with rate := r, pend := none } := by
  have hpoint : pointAt s.tb m := .inr ⟨hstep, r, hpend⟩
  obtain ⟨hstep', hpend'⟩ := runTb_armed (fclkTo s.tb m) s.tb
  have hcmp := tbCompare_pend (hstep'.trans hstep) (hpend'.trans hpend) hdue
  have htb := advance_tb_point hpoint hdue (by rw [hcmp]; exact ⟨hstep'.trans hstep, rfl⟩)
  rw [hcmp, runTb_zero_rated (runTb_tick_lt ..) (runTb_frac_lt ..)] at htb
  refine ⟨?_, htb⟩
  rw [exec_ratePoint, advanceWhile_point (by simp [hpend]) hpoint (by rw [htb]; rfl), gate, hpend]
  rfl

theorem rateWrite_taken {v : Nat} {s : State} (hlo : -2147483 ≤ sgn 32 v) (hhi : sgn 32 v ≤ 2147483) :
    rateWrite v s = rset (timReg 0x20) (BitVec.ofNat 64 (v % 2 ^ 32))
      (setTb { s.tb with pend := some (sgn 32 v, (s.tb.tick + 2048 + 1023) / 1024 * 1024) } s) := if_neg (by omega)
theorem rateWrite_refused {v : Nat} {s : State} (h : 2147483 < sgn 32 v ∨ sgn 32 v < -2147483) : rateWrite v s = timStat 2 s := if_pos h
theorem stepArm_near {s : State} (h : (rget s (timReg 0x30)).toNat < s.tb.tick + 4096) : stepArm s = timStat 2 s := if_pos h

theorem offRegs_noteHit (a i : Nat) (b : Bool) (s : State) : offRegs (noteHit a i b s) = offRegs s := by simp [offRegs]
theorem rbit_rbitSet_same {i : Nat} (hi : i < 64) (a : Nat) (b : Bool) (s : State) : rbit (rbitSet a i b s) a i = b := by
  rw [rbit, rget_rbitSet_same, bit_setBit_same _ _ hi]

theorem stepsAndRates : StepsAndRates := by
  refine fun s => ⟨fun d a hstep hpend hdue => ?_, fun r m hpend hstep hdue => ?_, fun v => ⟨fun hlo hhi => ?_, fun hout => ?_⟩,
    ⟨fun hfar => ?_, fun hnear => ?_⟩⟩
  · obtain ⟨hexec, htb⟩ := timeStep_applied hstep hpend hdue
    exact ⟨_, hexec, advance_fclk .., htb⟩
  · obtain ⟨hexec, htb⟩ := ratePoint_applied hstep hpend hdue
    exact ⟨_, hexec, advance_fclk .., htb⟩
  · have hexec : exec (.timRateWrite v) s = .next (rateWrite v.toNat s) := rfl
    rw [rateWrite_taken hlo hhi] at hexec
    refine ⟨_, hexec, rget_rset_same .., by simp, ?_⟩
    rw [offRegs_rset]
    simp [setTb]
  · exact congrArg Host.Outcome.next (rateWrite_refused hout)
  · have hexec : exec .steparm s = .next (stepArm s) := rfl
    rw [stepArm_far hfar] at hexec
    refine ⟨_, hexec, by simp, rbit_rbitSet_same (by decide) .., ?_⟩
    rw [offRegs_rbitSet]
    simp [setTb]
  · exact congrArg Host.Outcome.next (stepArm_near hnear)

/-! ### Check words (R308) -/

/-- A steward source that takes an event writes the interrupt tables alone. -/
@[simp] theorem raiseSteward_fields (src : Nat) (s : State) :
    (raiseSteward src s).regs = s.regs ∧ (raiseSteward src s).fclk = s.fclk ∧ (raiseSteward src s).free = s.free ∧
    (raiseSteward src s).out = s.out ∧ (raiseSteward src s).mem = s.mem ∧ (raiseSteward src s).facets = s.facets ∧
    (raiseSteward src s).tb = s.tb ∧ (raiseSteward src s).locks = s.locks ∧ (raiseSteward src s).pulses = s.pulses ∧
    (raiseSteward src s).ledger = s.ledger ∧ (raiseSteward src s).macs = s.macs ∧ (raiseSteward src s).fabric = s.fabric ∧
    (raiseSteward src s).disc = s.disc ∧ (raiseSteward src s).msixOpen = s.msixOpen ∧ (raiseSteward src s).gly = s.gly ∧
    (raiseSteward src s).links = s.links := by
  have h := raiseSteward_offLog src s
  exact ⟨raiseSteward_regs .., (congrArg State.fclk h :), (congrArg State.free h :), (congrArg State.out h :), (congrArg State.mem h :),
    (congrArg State.facets h :), (congrArg State.tb h :), (congrArg State.locks h :), (congrArg State.pulses h :), (congrArg State.ledger h :),
    (congrArg State.macs h :), (congrArg State.fabric h :), (congrArg State.disc h :), (congrArg State.msixOpen h :), (congrArg State.gly h :),
    (congrArg State.links h :)⟩

theorem rfld_rsat_same {lo w : Nat} (h : lo + w ≤ 64) (a v : Nat) (s : State) :
    rfld (rsat a lo w v s) a lo w = min (2 ^ w - 1) (rfld s a lo w + v) := by
  have hpos : 0 < 2 ^ w := Nat.two_pow_pos w
  rw [rsat, rfld, rget_rput_same, fld_setFld_same _ _ _ _ h]
  exact Nat.mod_eq_of_lt (by omega)
theorem offRegs_rsat (a lo w v : Nat) (s : State) : offRegs (rsat a lo w v s) = offRegs s := by simp [offRegs]

theorem exec_checkWord (d : Fin 6) (w : CheckIn) (s : State) :
    exec (.checkWord d w) s = .next (checkWord d w.flips w.replica (advanceTo ((s.fclk + 1023) / 1024 * 1024) s)) := rfl

theorem checkWord_dropped (d : Nat) (w : Option TimeWord) (s : State) : checkWord d 2 w s = rsat (timReg 0x48) 0 32 1 s := if_pos rfl
/-- A word that arrives is held against the replica. -/
theorem checkWord_compared {d n : Nat} (hn : n ≠ 2) (w : Option TimeWord) (s : State) :
    checkWord d n w s = if w.getD (timeWord s) = timeWord s then s else dfault d s := if_neg hn

/-- DFAULT shows and is recorded; the time base, the memory and the facets stay. -/
theorem dfault_told {d : Nat} (hd : d < 6) (s : State) : rbit (dfault d s) (timReg 0x40) (8 + d) = true ∧
    (dfault d s).ledger.rec5 = s.ledger.rec5 ++ [.timeFault d s.tb.tick] ∧ (dfault d s).tb = s.tb ∧ (dfault d s).mem = s.mem ∧
    (dfault d s).facets = s.facets ∧ (rbit s (timReg 0x40) (8 + d) = true → (dfault d s).ints = s.ints) := by
  have hbit : rbit (addRec5 (.timeFault d s.tb.tick) (timStat (8 + d) s)) (timReg 0x40) (8 + d) = true :=
    rbit_rbitSet_same (by omega) (timReg 0x40) true s
  unfold dfault
  cases hrise : rbit s (timReg 0x40) (8 + d)
  · simp only [Bool.not_false, if_true]
    refine ⟨?_, by simp [addRec5, timStat], by simp [addRec5, timStat], by simp [addRec5, timStat], by simp [addRec5, timStat], by simp⟩
    rw [rbit, rget_congr (raiseSteward_regs ..), ← rbit, hbit]
  · simp only [Bool.not_true, Bool.false_eq_true, if_false]
    exact ⟨hbit, by simp [addRec5, timStat], by simp [addRec5, timStat], by simp [addRec5, timStat], by simp [addRec5, timStat],
      by simp [addRec5, timStat]⟩

theorem checkWords : CheckWords := by
  refine fun d s => ⟨fun w => ?_, fun e he => ?_⟩
  · exact ⟨_, (exec_checkWord ..).trans (congrArg _ (checkWord_dropped ..)), rfld_rsat_same (by decide) .., offRegs_rsat ..⟩
  · have hone : (e : Nat) ≠ 2 := fun h => he (Fin.ext h)
    have hexec := fun w => (exec_checkWord d ⟨e, w⟩ s).trans (congrArg Host.Outcome.next (checkWord_compared hone w _))
    refine ⟨(hexec _).trans ?_, (hexec _).trans ?_, fun w hw => ?_⟩
    · exact congrArg _ (if_pos rfl)
    · exact congrArg _ (if_pos rfl)
    · exact ⟨_, (hexec _).trans (congrArg _ (if_neg hw)), dfault_told d.isLt _⟩

/-- Settles O38: the time base is compared in the FCLK in which its count first reaches the one point that is armed. -/
theorem timeStepsAndCheckWords : Obligations.TimeStepsAndCheckWords := ⟨stepsAndRates, checkWords⟩

end Sys2Proof.Proofs

/-! Launch timers (R316 to R318, R327): what a firing writes, and the writes that wait for the next FCLK. -/
namespace Sys2Proof.Proofs
open Sys2Proof Sys2Proof.Machine Sys2Proof.Claims Sys2Proof.Laws

/-! ### Fields and bits of a register after a write -/

theorem rfld_congr {s t : State} {a : Nat} (h : rget s a = rget t a) (lo w : Nat) : rfld s a lo w = rfld t a lo w := by rw [rfld, rfld, h]
theorem rbit_congr {s t : State} {a : Nat} (h : rget s a = rget t a) (i : Nat) : rbit s a i = rbit t a i := by rw [rbit, rbit, h]
theorem rfld_rput_same {lo w : Nat} (h : lo + w ≤ 64) (a v : Nat) (s : State) : rfld (rput a lo w v s) a lo w = v % 2 ^ w := by
  rw [rfld, rget_rput_same, fld_setFld_same _ _ _ _ h]
theorem rfld_rput_apart {lo w lo' w' : Nat} (h : lo' + w' ≤ lo ∨ lo + w ≤ lo') (a v : Nat) (s : State) :
    rfld (rput a lo w v s) a lo' w' = rfld s a lo' w' := by
  rw [rfld, rget_rput_same, fld_setFld_apart _ h, rfld]
theorem rbit_rbitSet_ne {i j : Nat} (h : j ≠ i) (a : Nat) (b : Bool) (s : State) : rbit (rbitSet a i b s) a j = rbit s a j := by
  rw [rbit, rget_rbitSet_same, bit_setBit_ne _ _ h, rbit]
theorem rbit_rput_apart {lo w i : Nat} (h : i < lo ∨ lo + w ≤ i) (a v : Nat) (s : State) : rbit (rput a lo w v s) a i = rbit s a i := by
  rw [rbit, rget_rput_same, bit_setFld_apart _ h, rbit]

/-! ### Launch timers (R316 to R318, R327) -/

@[simp] theorem ltim_inj {i o o' : Nat} : ltim i o = ltim i o' ↔ o = o' := by
  simp only [ltim, timReg, girdle]
  omega

/-- The firing is counted, and a limit counts down and disarms the timer when it reaches 0 (R317). -/
def timerCounted (i : Nat) (s : State) : State :=
  let limit := rfld s (ltim i 16) 32 32
  let u := rput (ltim i 24) 32 32 (rfld s (ltim i 24) 32 32 + 1) (raiseHat i s)
  let u := if limit ≠ 0 then rput (ltim i 16) 32 32 (limit - 1) u else u
  if limit = 1 then rbitSet (ltim i 16) 0 false u else u

theorem raiseHat_rget (src : Nat) (s : State) (a : Nat) : rget (raiseHat src s) a = rget s a := rget_congr (raiseHat_regs ..) a

theorem timerFire_oneShot {i : Nat} {s : State} (h : rbit s (ltim i 16) 1 = false) :
    timerFire i s = rbitSet (ltim i 16) 0 false (timerCounted i s) := by
  unfold timerFire
  dsimp only
  rw [if_pos (by simpa [rbit] using h), rfld_congr (raiseHat_rget i s _)]
  rfl

theorem timerFire_periodic {i : Nat} {s : State} (h : rbit s (ltim i 16) 1 = true) :
    timerFire i s = rset (ltim i 0) (BitVec.ofNat 64 ((rget s (ltim i 0)).toNat +
        (((timerCounted i s).tb.tick - (rget s (ltim i 0)).toNat) / max 1 (rfld s (ltim i 8) 0 32) + 1) * rfld s (ltim i 8) 0 32))
      (rsat (ltim i 24) 0 31 (((timerCounted i s).tb.tick - (rget s (ltim i 0)).toNat) / max 1 (rfld s (ltim i 8) 0 32) + 1 - 1)
        (timerCounted i s)) := by
  unfold timerFire
  dsimp only
  rw [if_neg (by simpa [rbit] using h), rfld_congr (raiseHat_rget i s _)]
  rfl

/-- What the counting of a firing changes: its pulse, its two counters and its arm. -/
theorem timerCounted_kept (i : Nat) (s : State) : (timerCounted i s).pulses = (raiseHat i s).pulses ∧ (timerCounted i s).mem = s.mem ∧
    (timerCounted i s).facets = s.facets ∧ (timerCounted i s).tb = s.tb := by
  obtain ⟨x, hx⟩ := raiseHat_eq_setPulses i s
  unfold timerCounted
  rw [hx]
  dsimp only
  split <;> split <;> simp
theorem rfld_timerCounted (i : Nat) (s : State) :
    rfld (timerCounted i s) (ltim i 24) 32 32 = (rfld s (ltim i 24) 32 32 + 1) % 2 ^ 32 := by
  have hcount : rfld (rput (ltim i 24) 32 32 (rfld s (ltim i 24) 32 32 + 1) (raiseHat i s)) (ltim i 24) 32 32 =
      (rfld s (ltim i 24) 32 32 + 1) % 2 ^ 32 := rfld_rput_same (by decide) ..
  unfold timerCounted
  dsimp only
  split <;> split <;> simp only [rfld, rget_rbitSet_ne (show ltim i 24 ≠ ltim i 16 by simp), rget_rput_ne (show ltim i 24 ≠ ltim i 16 by simp)] <;>
    exact hcount
theorem rget_timerCounted_next (i : Nat) (s : State) : rget (timerCounted i s) (ltim i 0) = rget s (ltim i 0) := by
  have hstat : ltim i 0 ≠ ltim i 24 := by simp
  have hctl : ltim i 0 ≠ ltim i 16 := by simp
  unfold timerCounted
  dsimp only
  split <;> split <;> simp only [rget_rbitSet_ne hctl, rget_rput_ne hctl, rget_rput_ne hstat, raiseHat_rget]

theorem exec_launchTimerFire {i : Fin 512} {s : State} (h : rbit s (ltim i 16) 0 = true) :
    exec (.launchTimerFire i) s = .next (timerFire i (advanceTick (rget s (ltim i 0)).toNat s)) := if_neg (by simp [h])

/-- A firing raises its source and is counted; a one-shot timer disarms, a periodic one goes on at the first of its times after now. -/
theorem timerFire_fires (i : Nat) (u : State) : (timerFire i u).pulses = (raiseHat i u).pulses ∧ (timerFire i u).mem = u.mem ∧
    (timerFire i u).facets = u.facets ∧ rfld (timerFire i u) (ltim i 24) 32 32 = (rfld u (ltim i 24) 32 32 + 1) % 2 ^ 32 ∧
    (rbit u (ltim i 16) 1 = false → rbit (timerFire i u) (ltim i 16) 0 = false ∧ rget (timerFire i u) (ltim i 0) = rget u (ltim i 0)) ∧
    (rbit u (ltim i 16) 1 = true → 0 < rfld u (ltim i 8) 0 32 → rget (timerFire i u) (ltim i 0) = BitVec.ofNat 64 ((rget u (ltim i 0)).toNat +
      ((u.tb.tick - (rget u (ltim i 0)).toNat) / rfld u (ltim i 8) 0 32 + 1) * rfld u (ltim i 8) 0 32)) := by
  obtain ⟨hpulses, hmem, hfacets, htb⟩ := timerCounted_kept i u
  have hcount := rfld_timerCounted i u
  have hstat : ltim i 24 ≠ ltim i 16 := by simp
  have hnext : ltim i 24 ≠ ltim i 0 := by simp
  cases hmode : rbit u (ltim i 16) 1
  · rw [timerFire_oneShot hmode]
    refine ⟨by simpa, by simpa, by simpa, ?_, fun _ => ⟨rbit_rbitSet_same (by decide) .., ?_⟩, by simp⟩
    · exact (rfld_congr (rget_rbitSet_ne hstat ..) ..).trans hcount
    · rw [rget_rbitSet_ne (by simp), rget_timerCounted_next]
  · rw [timerFire_periodic hmode, htb]
    refine ⟨by simpa, by simpa, by simpa, ?_, by simp, fun _ hper => ?_⟩
    · rw [rfld_congr (rget_rset_ne hnext ..), rsat, rfld_rput_apart (by decide), hcount]
    · rw [rget_rset_same, Nat.max_eq_right hper]

theorem exec_timLctlWrite (i : Fin 512) (v : BitVec 64) (s : State) : exec (.timLctlWrite i v) s = .next (timerWrite i 16 v s).2 := rfl
theorem exec_timLperWrite (i : Fin 512) (v : BitVec 64) (s : State) : exec (.timLperWrite i v) s = .next (timerWrite i 8 v s).2 := rfl
theorem timerWrite_locked {i : Nat} {s : State} (h : timerLocked s i = true) (o : Nat) (v : BitVec 64) :
    timerWrite i o v s = (false, hatLockref s) := if_pos h
theorem timerWrite_taken {i : Nat} {s : State} (h : timerLocked s i = false) (o : Nat) (v : BitVec 64) :
    timerWrite i o v s = (true, timerAccept i o v s) := if_neg (by simp [h])

/-- One write that waits takes its place (R318). -/
theorem timersTick_single {w : Nat × (Nat × BitVec 64)} {s : State} (h : s.timWrites = [w]) : timersTick s = timerPut w (setTimWrites [] s) := by
  rw [timersTick, h]
  rfl

/-- TIM_LCTL stores LIMIT, MODE and EN. -/
theorem lctl_stored (v : BitVec 64) : setBit (v &&& 0xFFFFFFFF00000003) 0 (bit v 0) = v &&& 0xFFFFFFFF00000003 := by
  refine BitVec.eq_of_getLsbD_eq fun i hi => ?_
  rw [setBit, getLsbD_setFld]
  by_cases h0 : i = 0
  · subst h0
    cases hv : bit v 0 <;> simp [bit] at hv <;> simp [hv]
  · rw [if_neg (by omega)]
    simp [hi]

section
variable {i : Nat} {v : BitVec 64} {s : State}

theorem lctlPut_good (h : ¬ (bit v 0 = true ∧ bit v 1 = true ∧ rfld s (ltim i 8) 0 32 < 2)) :
    lctlPut i v s = rset (ltim i 16) (v &&& 0xFFFFFFFF00000003) s := by
  have hgood : (bit v 0 && bit v 1 && decide (rfld s (ltim i 8) 0 32 < 2)) = false := by
    simpa [Bool.and_eq_true, and_assoc] using h
  rw [lctlPut, hgood, Bool.not_false, Bool.and_true, lctl_stored]
  rfl
theorem lctlPut_bad (h : bit v 0 = true ∧ bit v 1 = true ∧ rfld s (ltim i 8) 0 32 < 2) :
    lctlPut i v s = rbitSet (ltim i 24) 31 true (rset (ltim i 16) (setBit (v &&& 0xFFFFFFFF00000003) 0 false) s) := by
  obtain ⟨hen, hmode, hper⟩ := h
  simp [lctlPut, hen, hmode, hper]

theorem lperPut_good (h : ¬ (fld v 0 32 < 2 ∧ rfld s (ltim i 16) 0 2 = 3)) : lperPut i v s = rset (ltim i 8) (v &&& 0xFFFFFFFF) s := if_neg h
theorem lperPut_bad (h : fld v 0 32 < 2 ∧ rfld s (ltim i 16) 0 2 = 3) : lperPut i v s = rbitSet (ltim i 24) 31 true s := if_pos h

theorem lctlPut_kept : (lctlPut i v s).timWrites = s.timWrites ∧ offRegs (lctlPut i v s) = offRegs s := by
  unfold lctlPut
  dsimp only
  split <;> simp [offRegs]
theorem lperPut_kept : (lperPut i v s).timWrites = s.timWrites ∧ offRegs (lperPut i v s) = offRegs s := by
  unfold lperPut
  split <;> simp [offRegs]

end

/-- Settles O40: a firing is one counted pulse and a choice by the mode; a write goes through the list of writes that wait. -/
theorem launchTimers : Obligations.LaunchTimers := by
  refine fun i v s => ⟨fun hen => ?_, fun hlock => ⟨?_, ?_⟩, fun hfree => ⟨?_, ?_⟩, fun hwait => ?_, fun hwait => ?_⟩
  · exact ⟨_, exec_launchTimerFire hen, timerFire_fires ..⟩
  · rw [exec_timLctlWrite, timerWrite_locked hlock]
  · rw [exec_timLperWrite, timerWrite_locked hlock]
  · rw [exec_timLctlWrite, timerWrite_taken hfree]
    rfl
  · rw [exec_timLperWrite, timerWrite_taken hfree]
    rfl
  · have htick : timersTick s = lctlPut i v (setTimWrites [] s) := timersTick_single hwait
    obtain ⟨hlist, hoff⟩ := lctlPut_kept (i := i) (v := v) (s := setTimWrites [] s)
    rw [htick]
    refine ⟨hlist, hoff, fun hgood => ?_, fun hbad => ⟨?_, ?_⟩⟩
    · rw [lctlPut_good (s := setTimWrites [] s) hgood, rget_rset_same]
    · rw [lctlPut_bad (s := setTimWrites [] s) hbad, rbit, rget_rbitSet_ne (by simp), rget_rset_same, bit_setBit_same _ _ (by decide)]
    · rw [lctlPut_bad (s := setTimWrites [] s) hbad, rbit_rbitSet_same (by decide)]
  · have htick : timersTick s = lperPut i v (setTimWrites [] s) := timersTick_single hwait
    obtain ⟨hlist, hoff⟩ := lperPut_kept (i := i) (v := v) (s := setTimWrites [] s)
    rw [htick]
    refine ⟨hlist, hoff, fun hgood => ?_, fun hbad => ?_⟩
    · rw [lperPut_good (s := setTimWrites [] s) hgood, rget_rset_same]
    · rw [lperPut_bad (s := setTimWrites [] s) hbad]
      exact ⟨rget_rbitSet_ne (by simp) .., rbit_rbitSet_same (by decide) ..⟩

end Sys2Proof.Proofs

/-! The hatband and its banks (R319, R321, R323 to R326): where a pulse is delivered, and what a copy and a swap leave. -/
namespace Sys2Proof.Proofs
open Sys2Proof Sys2Proof.Machine Sys2Proof.Claims Sys2Proof.Laws

/-! ### Delivery (R319, R321, R323) -/

section
variable {p : Pulse} {u : State}

theorem deliver_off {n : Nat} (h : sinkOff u n = true) : deliver p n u = rsat (hatReg 0x10) 32 16 1 u := if_pos h
/-- The sinks from 0x800 on are the event flags of the facets, 16 each. -/
theorem deliver_flag {n f : Nat} (hn : n < 128) (hf : f < 16) (hon : sinkOff u (0x800 + 16 * n + f) = false) :
    deliver p (0x800 + 16 * n + f) u = setFlag n f u := by
  have hfacet : (0x800 + 16 * n + f - 0x800) / 16 = n := by omega
  have hflag : (0x800 + 16 * n + f - 0x800) % 16 = f := by omega
  rw [deliver, if_neg (by simp [hon]), if_neg (by omega), if_pos (by omega), hfacet, hflag]

/-- An event flag reads set from the next FCLK; nothing else of its facet, no other facet and no byte changes. -/
theorem setFlag_flag (n f : Nat) (u : State) : (facet (setFlag n f u) n).efNext = (facet u n).efNext ||| BitVec.ofNat 16 (2 ^ f) ∧
    (facet (setFlag n f u) n).ef = (facet u n).ef ∧ (facet (setFlag n f u) n).g = (facet u n).g ∧
    (∀ m, m ≠ n → facet (setFlag n f u) m = facet u m) ∧ (setFlag n f u).mem = u.mem := by
  have hset : (setFlag n f u).facets = (updFacet n (fun x => { x with efNext := x.efNext ||| BitVec.ofNat 16 (2 ^ f) }) u).facets ∧
      (setFlag n f u).mem = u.mem := by
    unfold setFlag
    dsimp only
    split <;> simp
  obtain ⟨hfacets, hmem⟩ := hset
  rw [facet_congr hfacets n, facet_updFacet_same]
  exact ⟨rfl, rfl, rfl, fun m hm => (facet_congr hfacets m).trans (facet_updFacet_ne hm ..), hmem⟩

end

section
variable {e : Fin 4096} {p : Pulse} {s : State}

theorem exec_hatbandDelivery_all (hp : (s.pulses.find? fun p => p.ev == e.val) = some p) :
    exec (.hatbandDelivery e []) s = .next ((sinksOf (advanceTo (p.at_ + 16) (setPulses (s.pulses.erase p) s)) p.bank p.ev).foldl
      (fun s n => deliver p n s) (advanceTo (p.at_ + 16) (setPulses (s.pulses.erase p) s))) := by
  change execHatbandDelivery e [] s = _
  unfold execHatbandDelivery
  rw [hp]
  simp
theorem exec_hatbandDelivery_none (hp : (s.pulses.find? fun p => p.ev == e.val) = some p) :
    exec (.hatbandDelivery e [6]) s = .next (raiseSteward 315 (rsat (hatReg 0x10) 48 16 1 (advanceTo (p.at_ + 16) (setPulses (s.pulses.erase p) s)))) := by
  change execHatbandDelivery e [6] s = _
  unfold execHatbandDelivery
  rw [hp]
  simp

theorem hatbandDelivers : HatbandDelivers := by
  intro e p s hp
  have hall := exec_hatbandDelivery_all hp
  refine ⟨hall, exec_hatbandDelivery_none hp, fun n f hn hf hone hon => ?_, fun n hone hoff => ?_⟩
  · rw [hone] at hall
    refine ⟨_, hall, ?_⟩
    rw [List.foldl_cons, List.foldl_nil, deliver_flag hn hf hon]
    exact setFlag_flag ..
  · rw [hone] at hall
    exact hall.trans (congrArg _ (deliver_off hoff))

end

/-! ### The banks (R324 to R326) -/

theorem tget_cons {α : Type} (d : α) (k : Nat) (v : α) (t : List (Nat × α)) (i : Nat) : tget d ((k, v) :: t) i = if k = i then v else tget d t i := rfl
theorem tget_unlisted {α : Type} (d : α) {t : List (Nat × α)} {i : Nat} (h : ∀ p ∈ t, p.1 ≠ i) : tget d t i = d := by
  induction t with
  | nil => rfl
  | cons p t ih =>
    rw [tget_cons, if_neg (h p List.mem_cons_self), ih fun q hq => h q (List.mem_cons_of_mem _ hq)]
theorem tget_filter {α : Type} (d : α) (f : Nat → Bool) (t : List (Nat × α)) (i : Nat) :
    tget d (t.filter fun p => f p.1) i = if f i then tget d t i else d := by
  induction t with
  | nil => simp [tget]
  | cons p t ih =>
    obtain ⟨k, v⟩ := p
    rw [List.filter_cons]
    by_cases hk : k = i
    · subst hk
      split
      next h => simp only [tget_cons, if_true]
      next h => rw [ih, if_neg h]
    · split
      · rw [tget_cons, if_neg hk, ih, tget_cons, if_neg hk]
      · rw [ih, tget_cons, if_neg hk]

/-- Entries put from one place to another: an address reads the entry that comes to it, or what it read before. -/
theorem mget_moved {l : List Host.Cell} {fr dst : Nat} (hrise : (l.map (·.1)).Pairwise (· < ·)) (hfrom : ∀ c ∈ l, fr ≤ c.1)
    (m : List Host.Cell) (a : Nat) : mget (l.foldl (fun m c => mput m (c.1 - fr + dst) c.2) m) a =
      if (∃ c ∈ l, c.1 - fr + dst = a) then tget 0 l (a - dst + fr) else mget m a := by
  induction l generalizing m with
  | nil => simp
  | cons c l ih =>
    rw [List.map_cons, List.pairwise_cons] at hrise
    have hc := hfrom c List.mem_cons_self
    rw [List.foldl_cons, ih hrise.2 fun q hq => hfrom q (List.mem_cons_of_mem _ hq)]
    obtain ⟨k, v⟩ := c
    by_cases hrest : ∃ q ∈ l, q.1 - fr + dst = a
    · obtain ⟨q, hq, hqa⟩ := hrest
      have hkq : k < q.1 := hrise.1 _ (List.mem_map_of_mem hq)
      have hne : k ≠ a - dst + fr := by omega
      rw [if_pos ⟨q, hq, hqa⟩, if_pos ⟨q, List.mem_cons_of_mem _ hq, hqa⟩, tget_cons, if_neg hne]
    · rw [if_neg hrest, mget, mput, tget_tset]
      by_cases hk : k - fr + dst = a
      · have hka : k = a - dst + fr := by simp only at hc; omega
        rw [if_pos hk.symm, if_pos ⟨_, List.mem_cons_self, hk⟩, tget_cons, if_pos hka]
      · rw [if_neg (Ne.symm hk), if_neg (by simpa [hk] using hrest), mget]

/-- The bytes of a run copied to another place: there they read as at the first place, elsewhere as before. -/
theorem mget_copyBytes {m : List Host.Cell} (hwf : Memory.wf m = true) (fr dst len a : Nat) :
    mget (copyBytes fr dst len m) a = if dst ≤ a ∧ a < dst + len then mget m (a - dst + fr) else mget m a := by
  have hrise := ((twf_iff _ _).1 hwf).1
  have hlisted : ∀ c ∈ m.filter fun c => decide (fr ≤ c.1) && decide (c.1 < fr + len), fr ≤ c.1 ∧ c.1 < fr + len := by
    intro c hc
    simpa using (List.mem_filter.1 hc).2
  have hread := fun x => tget_filter (0 : Byte) (fun k => decide (fr ≤ k) && decide (k < fr + len)) m x
  have hclear := tget_filter (0 : Byte) (fun k => decide (k < dst) || decide (dst + len ≤ k)) m a
  rw [copyBytes, mget_moved (hrise.sublist (List.filter_sublist.map _)) fun c hc => (hlisted c hc).1]
  by_cases ha : dst ≤ a ∧ a < dst + len
  · have hin : (decide (fr ≤ a - dst + fr) && decide (a - dst + fr < fr + len)) = true := by simp; omega
    have hmoved := hread (a - dst + fr)
    rw [if_pos hin] at hmoved
    rw [if_pos ha]
    split
    · exact hmoved
    next hnone =>
      have hzero : mget m (a - dst + fr) = 0 := by
        refine hmoved.symm.trans (tget_unlisted _ fun c hc heq => hnone ⟨c, hc, ?_⟩)
        omega
      rw [hzero]
      exact hclear.trans (if_neg (by simp; omega))
  · rw [if_neg ha, if_neg ?_]
    · exact hclear.trans (if_pos (by simp; omega))
    · rintro ⟨c, hc, rfl⟩
      have := hlisted c hc
      omega

section
variable {s : State}

theorem exec_hatCopyDone (h : rbit s (hatReg 0) 1 = true) : exec .hatCopyDone s = .next (w1sClear (hatReg 0) 1
    (setMem (copyBytes (hatBankBase (hatLive s)) (hatBankBase (1 - hatLive s)) 0xD800 s.mem) s)) := if_pos h

theorem w1sClear_mem_eq (a i : Nat) (s : State) : (w1sClear a i s).mem = s.mem := by unfold w1sClear; split <;> simp
/-- A W1S bit that stands ends clear, unless software wrote it again in this FCLK (R7). -/
theorem rbit_w1sClear {a i : Nat} (hi : i < 64) (h : rbit s a i = true) : rbit (w1sClear a i s) a i = s.sets.contains (a, i) := by
  unfold w1sClear
  split
  next hset => rw [h, hset]
  next hset => rw [rbit_rbitSet_same hi, Bool.eq_false_iff.2 hset]

theorem exec_hatbandSwap (h : rbit s (hatReg 0) 2 = true) :
    exec .hatbandSwap s = .next (hatRef 0 (rbitSet (hatReg 0) 2 false (rput (hatReg 0) 0 1
      (1 - hatLive (advanceTick (rget s (hatReg 8)).toNat s)) (advanceTick (rget s (hatReg 8)).toNat s)))) := by
  change execHatbandSwap s = _
  rw [execHatbandSwap, if_neg (by simp [h])]

theorem offRegs_rput (a lo w v : Nat) (s : State) : offRegs (rput a lo w v s) = offRegs s := by simp [offRegs]

/-- The swap writes the live bank, the arm and SWAPPED. -/
theorem swapped_kept (u : State) : hatLive (hatRef 0 (rbitSet (hatReg 0) 2 false (rput (hatReg 0) 0 1 (1 - hatLive u) u))) = 1 - hatLive u ∧
    rbit (hatRef 0 (rbitSet (hatReg 0) 2 false (rput (hatReg 0) 0 1 (1 - hatLive u) u))) (hatReg 0) 2 = false ∧
    rbit (hatRef 0 (rbitSet (hatReg 0) 2 false (rput (hatReg 0) 0 1 (1 - hatLive u) u))) (hatReg 0x10) 0 = true ∧
    offRegs (hatRef 0 (rbitSet (hatReg 0) 2 false (rput (hatReg 0) 0 1 (1 - hatLive u) u))) = offRegs u := by
  have hne : hatReg 0 ≠ hatReg 0x10 := by decide
  refine ⟨?_, ?_, rbit_rbitSet_same (by decide) .., ?_⟩
  · rw [hatRef, hatLive, rfld, rget_rbitSet_ne hne, rget_rbitSet_same, fld_setBit_apart _ _ (by decide), ← rfld, rfld_rput_same (by decide)]
    exact Nat.mod_eq_of_lt (by omega)
  · rw [hatRef, rbit_congr (rget_rbitSet_ne hne ..), rbit_rbitSet_same (by decide)]
  · rw [hatRef, offRegs_rbitSet, offRegs_rbitSet, offRegs_rput]

theorem hatbandBanks : HatbandBanks := by
  refine fun s => ⟨fun harm hcopy hfar => ?_, fun hno => ?_, fun harm => ?_, fun harm => ?_, fun harm => ?_, fun hcopy hwf => ?_⟩
  · exact congrArg Host.Outcome.next (hatArm_far hfar harm hcopy)
  · exact congrArg Host.Outcome.next (if_pos (by tauto))
  · exact ⟨_, exec_hatbandSwap harm, swapped_kept _⟩
  · exact congrArg Host.Outcome.next (if_neg (by simp [harm]))
  · exact congrArg Host.Outcome.next (if_pos harm)
  · refine ⟨_, exec_hatCopyDone hcopy, ?_, fun i hi => ?_, fun a ha => ?_⟩
    · exact rbit_w1sClear (s := setMem _ s) (by decide) hcopy
    · rw [byteAt, w1sClear_mem_eq]
      exact (mget_copyBytes hwf ..).trans ((if_pos (by omega)).trans (congrArg (mget s.mem) (by omega)))
    · rw [byteAt, w1sClear_mem_eq]
      exact (mget_copyBytes hwf ..).trans (if_neg (by omega))

end

/-- Settles O41: a pulse goes through the list of its sinks, and a copy moves the bytes of one bank over those of the other. -/
theorem hatband : Obligations.Hatband := ⟨hatbandDelivers, hatbandBanks⟩

end Sys2Proof.Proofs

/-! The pulse per second and the PTP servo. -/
namespace Sys2Proof.Proofs
open Sys2Proof Sys2Proof.Machine Sys2Proof.Claims Sys2Proof.Laws

/-! ### What the servo writes (R306, R307, R311, R312) -/

/-- The state without what the servo writes when it steps, slews, locks or holds over: registers, interrupt tables, free values, the armed step
and the rate point. -/
def offServo (s : State) : State := { offLog s with free := 0, tb := { s.tb with pend := none, step := none } }

theorem offServo_of_offLog {s t : State} (h : offLog t = offLog s) : offServo t = offServo s :=
  (congrArg (fun x : State => { x with free := 0, tb := { x.tb with pend := none, step := none } }) h :)
theorem rset_offServo (a : Nat) (v : BitVec 64) (s : State) : offServo (rset a v s) = offServo s := offServo_of_offLog (rset_offLog ..)
theorem rbitSet_offServo (a i : Nat) (b : Bool) (s : State) : offServo (rbitSet a i b s) = offServo s := offServo_of_offLog (rbitSet_offLog ..)
theorem raiseSteward_offServo (src : Nat) (s : State) : offServo (raiseSteward src s) = offServo s := offServo_of_offLog (raiseSteward_offLog ..)
theorem setTimBit_offServo (i : Nat) (v : Bool) (s : State) : offServo (setTimBit i v s) = offServo s := by
  unfold setTimBit
  split
  · rfl
  · exact (raiseSteward_offServo ..).trans (rbitSet_offServo ..)
theorem rateWrite_offServo (v : Nat) (s : State) : offServo (rateWrite v s) = offServo s := by
  unfold rateWrite timStat
  dsimp only
  split
  · exact rbitSet_offServo ..
  · exact (rset_offServo ..).trans (by simp [offServo, offLog, setTb])
theorem stepArm_offServo (s : State) : offServo (stepArm s) = offServo s := by
  unfold stepArm timStat
  dsimp only
  split
  · exact rbitSet_offServo ..
  · exact (rbitSet_offServo ..).trans (by simp [offServo, offLog, setTb])
theorem drawFree_offServo (s : State) : offServo (drawFree s).2 = offServo s := rfl
theorem servoStep_offServo (d : Int) (s : State) : offServo (servoStep d s) = offServo s :=
  (stepArm_offServo ..).trans ((rset_offServo ..).trans ((rset_offServo ..).trans (drawFree_offServo s)))
theorem servoSlew_offServo (offset : Int) (s : State) : offServo (servoSlew offset s) = offServo s :=
  (rateWrite_offServo ..).trans (drawFree_offServo s)

/-- The registers that the servo writes. -/
def servoRegs : List Nat := [timReg 0, timReg 0x20, timReg 0x28, timReg 0x30, timReg 0x40]

section
variable {a : Nat} (ha : a ∉ servoRegs)
include ha

theorem rget_setTimBit_apart (i : Nat) (v : Bool) (s : State) : rget (setTimBit i v s) a = rget s a := by
  simp only [servoRegs, List.mem_cons, not_or] at ha
  unfold setTimBit
  split
  · rfl
  · exact (rget_congr (raiseSteward_regs ..) a).trans (rget_rbitSet_ne ha.2.2.2.2.1 ..)
theorem rget_rateWrite_apart (v : Nat) (s : State) : rget (rateWrite v s) a = rget s a := by
  simp only [servoRegs, List.mem_cons, not_or] at ha
  unfold rateWrite timStat
  dsimp only
  split
  · exact rget_rbitSet_ne ha.2.2.2.2.1 ..
  · exact rget_rset_ne ha.2.1 ..
theorem rget_stepArm_apart (s : State) : rget (stepArm s) a = rget s a := by
  simp only [servoRegs, List.mem_cons, not_or] at ha
  unfold stepArm timStat
  dsimp only
  split
  · exact rget_rbitSet_ne ha.2.2.2.2.1 ..
  · exact rget_rbitSet_ne ha.1 ..
theorem rget_servoStep_apart (d : Int) (s : State) : rget (servoStep d s) a = rget s a := by
  have hregs := ha
  simp only [servoRegs, List.mem_cons, not_or] at hregs
  exact (rget_stepArm_apart ha _).trans ((rget_rset_ne hregs.2.2.2.1 ..).trans (rget_rset_ne hregs.2.2.1 ..))
theorem rget_servoSlew_apart (offset : Int) (s : State) : rget (servoSlew offset s) a = rget s a := rget_rateWrite_apart ha ..

end

/-! ### LOCK and HOLDOVER -/

theorem rbit_setTimBit_same {i : Nat} (hi : i < 64) (v : Bool) (s : State) : rbit (setTimBit i v s) (timReg 0x40) i = v := by
  unfold setTimBit
  split
  · assumption
  · exact (rbit_congr (rget_congr (raiseSteward_regs ..) _) i).trans (rbit_rbitSet_same hi ..)
theorem rbit_setTimBit_ne {i j : Nat} (h : j ≠ i) (v : Bool) (s : State) :
    rbit (setTimBit i v s) (timReg 0x40) j = rbit s (timReg 0x40) j := by
  unfold setTimBit
  split
  · rfl
  · exact (rbit_congr (rget_congr (raiseSteward_regs ..) _) j).trans (rbit_rbitSet_ne h ..)
/-- A rate or an arm that is refused shows in bit 2 alone. -/
theorem rbit_rateWrite {j : Nat} (h : j ≠ 2) (v : Nat) (s : State) : rbit (rateWrite v s) (timReg 0x40) j = rbit s (timReg 0x40) j := by
  unfold rateWrite timStat
  dsimp only
  split
  · exact rbit_rbitSet_ne h ..
  · exact rbit_rset_ne (by decide) ..
theorem rbit_stepArm {j : Nat} (h : j ≠ 2) (s : State) : rbit (stepArm s) (timReg 0x40) j = rbit s (timReg 0x40) j := by
  unfold stepArm timStat
  dsimp only
  split
  · exact rbit_rbitSet_ne h ..
  · exact rbit_congr (rget_rbitSet_ne (by decide) ..) j
theorem rbit_servoStep {j : Nat} (h : j ≠ 2) (d : Int) (s : State) : rbit (servoStep d s) (timReg 0x40) j = rbit s (timReg 0x40) j :=
  (rbit_stepArm h _).trans ((rbit_rset_ne (by decide) ..).trans (rbit_rset_ne (by decide) ..))
theorem rbit_servoSlew {j : Nat} (h : j ≠ 2) (offset : Int) (s : State) : rbit (servoSlew offset s) (timReg 0x40) j = rbit s (timReg 0x40) j :=
  rbit_rateWrite h ..

/-! ### A sample -/

/-- How many offsets in a row are below the lock bound, with this one. -/
def goodAfter (offset : Int) (x : Disc) : Nat := if belowNs offset x.lockNs then min (x.good + 1) 255 else 0
/-- What the servo remembers of a sample. -/
def sampled (offset : Int) (s : State) : Disc :=
  { s.disc with good := goodAfter offset s.disc, lastAt := some s.fclk,
                rates := (s.disc.rates ++ [s.tb.rate]).drop (s.disc.rates.length + 1 - 16) }
/-- The servo has taken a sample, and steps or slews. -/
def servoActs (offset : Int) (wasHold : Bool) (s : State) : State :=
  if aboveNs offset s.disc.stepNs && !wasHold then servoStep (0 - offset) s else servoSlew offset s

theorem setTimBit_fields (i : Nat) (v : Bool) (s : State) : (setTimBit i v s).disc = s.disc ∧ (setTimBit i v s).fclk = s.fclk ∧
    (setTimBit i v s).tb = s.tb ∧ (setTimBit i v s).mem = s.mem := by
  unfold setTimBit
  split <;> simp

theorem servoSample_eq (offset : Int) (s : State) : servoSample offset s =
    setTimBit 0 (decide (s.disc.lockN ≤ goodAfter offset s.disc))
      (servoActs offset (rbit s (timReg 0x40) 1) (setDisc (sampled offset s) (setTimBit 1 false s))) := by
  obtain ⟨hdisc, hfclk, htb, -⟩ := setTimBit_fields 1 false s
  unfold servoSample
  dsimp only
  rw [hdisc, hfclk, htb]
  rfl

theorem servoActs_offServo (offset : Int) (wasHold : Bool) (s : State) : offServo (servoActs offset wasHold s) = offServo s := by
  unfold servoActs
  split
  · exact servoStep_offServo ..
  · exact servoSlew_offServo ..
theorem rget_servoActs_apart {a : Nat} (ha : a ∉ servoRegs) (offset : Int) (wasHold : Bool) (s : State) :
    rget (servoActs offset wasHold s) a = rget s a := by
  unfold servoActs
  split
  · exact rget_servoStep_apart ha ..
  · exact rget_servoSlew_apart ha ..
theorem rbit_servoActs {j : Nat} (h : j ≠ 2) (offset : Int) (wasHold : Bool) (s : State) :
    rbit (servoActs offset wasHold s) (timReg 0x40) j = rbit s (timReg 0x40) j := by
  unfold servoActs
  split
  · exact rbit_servoStep h ..
  · exact rbit_servoSlew h ..

/-- The state without what the servo writes has taken the sample down. -/
theorem servoSample_offServo (offset : Int) (s : State) : offServo (servoSample offset s) = offServo (setDisc (sampled offset s) s) := by
  have hfirst := setTimBit_offServo 1 false s
  rw [servoSample_eq, setTimBit_offServo, servoActs_offServo]
  exact (congrArg (fun x : State => { x with disc := sampled offset s }) hfirst :)

section
variable (offset : Int) (s : State)

theorem servoSample_kept : (servoSample offset s).disc = sampled offset s ∧ (servoSample offset s).mem = s.mem ∧
    (servoSample offset s).facets = s.facets ∧ (servoSample offset s).tb.tick = s.tb.tick := by
  have h := servoSample_offServo offset s
  exact ⟨(congrArg State.disc h :), (congrArg State.mem h :), (congrArg State.facets h :), (congrArg (fun x : State => x.tb.tick) h :)⟩
theorem rget_servoSample_apart {a : Nat} (ha : a ∉ servoRegs) : rget (servoSample offset s) a = rget s a := by
  rw [servoSample_eq, rget_setTimBit_apart ha, rget_servoActs_apart ha]
  exact rget_setTimBit_apart ha ..
theorem rbit_servoSample_lock : rbit (servoSample offset s) (timReg 0x40) 0 = decide (s.disc.lockN ≤ goodAfter offset s.disc) := by
  rw [servoSample_eq, rbit_setTimBit_same (by decide)]
theorem rbit_servoSample_holdover : rbit (servoSample offset s) (timReg 0x40) 1 = false := by
  rw [servoSample_eq, rbit_setTimBit_ne (by decide), rbit_servoActs (by decide)]
  exact rbit_setTimBit_same (by decide) false s

end

/-! ### The pulse per second (R309, R310, R320) -/

section
variable {s : State}

/-- The active edge is stamped and raises its source. -/
def ppsStamped (s : State) : State :=
  raiseHat 0x20A8 (rset (timReg 0x38) (BitVec.ofNat 64 s.tb.tick) (setDisc { s.disc with ppsFrom := some s.tb.tick } s))

theorem ppsStamped_kept (s : State) : (ppsStamped s).disc = { s.disc with ppsFrom := some s.tb.tick } ∧ (ppsStamped s).mem = s.mem ∧
    (ppsStamped s).facets = s.facets ∧ (ppsStamped s).tb = s.tb ∧ (ppsStamped s).fclk = s.fclk := by
  obtain ⟨x, hx⟩ := raiseHat_eq_setPulses 0x20A8 (rset (timReg 0x38) (BitVec.ofNat 64 s.tb.tick) (setDisc { s.disc with ppsFrom := some s.tb.tick } s))
  rw [ppsStamped, hx]
  simp
theorem rget_ppsStamped_same (s : State) : rget (ppsStamped s) (timReg 0x38) = BitVec.ofNat 64 s.tb.tick := by
  rw [ppsStamped, raiseHat_rget, rget_rset_same]
theorem timSrc_ppsStamped (s : State) : timSrc (ppsStamped s) = timSrc s :=
  rfld_congr ((raiseHat_rget ..).trans (rget_rset_ne (by decide) ..)) 0 2

theorem exec_ppsEdge_active {rising : Bool} (h : rising ≠ rbit s (timReg 0) 6) : exec (.ppsEdge rising) s =
    .next (if 2 ≤ timSrc s then servoSample (ppsOffset s.tb.tick s.disc.delay) (ppsStamped s) else ppsStamped s) := by
  obtain ⟨hdisc, -, -, htb, -⟩ := ppsStamped_kept s
  have hexec : exec (.ppsEdge rising) s = .next (if rising != rbit s (timReg 0) 6 then
      if 2 ≤ timSrc (ppsStamped s) then servoSample (ppsOffset (ppsStamped s).tb.tick (ppsStamped s).disc.delay) (ppsStamped s) else ppsStamped s
    else s) := rfl
  rw [hexec, if_pos (by simpa using h), timSrc_ppsStamped, htb, hdisc]

theorem ppsEdge_active {rising : Bool} (h : rising ≠ rbit s (timReg 0) 6) : ∃ t, exec (.ppsEdge rising) s = .next t ∧
    rget t (timReg 0x38) = BitVec.ofNat 64 s.tb.tick ∧ t.disc.ppsFrom = some s.tb.tick ∧ t.mem = s.mem ∧ t.facets = s.facets ∧
    (timSrc s < 2 → t.disc.good = s.disc.good ∧ t.tb = s.tb) ∧
    (2 ≤ timSrc s → t.disc.lastAt = some s.fclk ∧ rbit t (timReg 0x40) 1 = false ∧ t.disc.good =
      if belowNs (ppsOffset s.tb.tick s.disc.delay) s.disc.lockNs then min (s.disc.good + 1) 255 else 0) := by
  obtain ⟨hdisc, hmem, hfacets, htb, hfclk⟩ := ppsStamped_kept s
  by_cases hsrc : 2 ≤ timSrc s
  · refine ⟨_, (exec_ppsEdge_active h).trans (congrArg _ (if_pos hsrc)), ?_⟩
    obtain ⟨hdisc', hmem', hfacets', -⟩ := servoSample_kept (ppsOffset s.tb.tick s.disc.delay) (ppsStamped s)
    refine ⟨?_, ?_, hmem'.trans hmem, hfacets'.trans hfacets, by omega, fun _ => ⟨?_, rbit_servoSample_holdover .., ?_⟩⟩
    · rw [rget_servoSample_apart _ _ (by decide), rget_ppsStamped_same]
    · rw [hdisc', sampled, hdisc]
    · rw [hdisc', sampled, hfclk]
    · rw [hdisc', sampled, hdisc, goodAfter]
  · refine ⟨_, (exec_ppsEdge_active h).trans (congrArg _ (if_neg hsrc)), ?_⟩
    exact ⟨rget_ppsStamped_same s, by rw [hdisc], hmem, hfacets, fun _ => ⟨by rw [hdisc], htb⟩, fun h => absurd h hsrc⟩

theorem exec_ppsEdge_other {rising : Bool} (h : rising = rbit s (timReg 0) 6) : exec (.ppsEdge rising) s = .next s :=
  congrArg Host.Outcome.next (if_neg (by simp [h]))

theorem exec_ppsMiss {a : Nat} (ha : s.disc.ppsFrom = some a) (hsrc : 2 ≤ timSrc s) : exec .ppsMiss s =
    .next (raiseSteward 317 (timStat 4 (setDisc { (advanceTick (a + 1200600001) s).disc with ppsFrom := none } (advanceTick (a + 1200600001) s)))) := by
  change execPpsMiss s = _
  unfold execPpsMiss
  rw [ha]
  exact if_pos hsrc

/-- A whole second has been reached and raises its source. -/
def secondReached (u : State) : State := raiseHat 0x20A9 (setDisc { u.disc with secDone := u.tb.tick / secondTicks } u)

theorem exec_storeTimeSecond (u : State) (hu : u = advanceTick ((min s.disc.secDone (s.tb.tick / secondTicks) + 1) * secondTicks) s) :
    exec .storeTimeSecond s = .next (if rbit (secondReached u) (timReg 0) 7 then
      emit (.pin 4096 true) (setDisc { (secondReached u).disc with ppsHigh := some ((secondReached u).tb.tick / secondTicks * secondTicks) }
        (secondReached u)) else secondReached u) := by
  subst hu
  rfl

theorem secondReached_kept (u : State) : (secondReached u).disc = { u.disc with secDone := u.tb.tick / secondTicks } ∧
    (secondReached u).mem = u.mem ∧ (secondReached u).out = u.out ∧ rbit (secondReached u) (timReg 0) 7 = rbit u (timReg 0) 7 := by
  obtain ⟨x, hx⟩ := raiseHat_eq_setPulses 0x20A9 (setDisc { u.disc with secDone := u.tb.tick / secondTicks } u)
  refine ⟨?_, ?_, ?_, rbit_congr (raiseHat_rget ..) 7⟩ <;> simp [secondReached, hx]

theorem storeTimeSecond_does (u : State) (hu : u = advanceTick ((min s.disc.secDone (s.tb.tick / secondTicks) + 1) * secondTicks) s) :
    ∃ t, exec .storeTimeSecond s = .next t ∧ t.disc.secDone = u.tb.tick / secondTicks ∧ t.mem = u.mem ∧
      t.out = u.out ++ (if rbit u (timReg 0) 7 then [.pin 4096 true] else []) := by
  obtain ⟨hdisc, hmem, hout, hball⟩ := secondReached_kept u
  refine ⟨_, exec_storeTimeSecond u hu, ?_⟩
  rw [hball]
  split
  · simp [emit, hdisc, hmem, hout]
  · simp [hdisc, hmem, hout]

theorem exec_ppsOutFall {a : Nat} (ha : s.disc.ppsHigh = some a) : exec .ppsOutFall s = .next (emit (.pin 4096 false)
    (setDisc { (advanceTick (a + 12000000) s).disc with ppsHigh := none } (advanceTick (a + 12000000) s))) := by
  change execPpsOutFall s = _
  unfold execPpsOutFall
  rw [ha]

end

theorem pulsePerSecond : PulsePerSecond := by
  refine fun rising s => ⟨ppsEdge_active, exec_ppsEdge_other, fun a ha hsrc => ?_, storeTimeSecond_does _ rfl, fun a ha => exec_ppsOutFall ha⟩
  refine ⟨_, exec_ppsMiss ha hsrc, (rbit_congr (rget_congr (raiseSteward_regs ..) _) 4).trans (rbit_rbitSet_same (by decide) ..), ?_, ?_⟩ <;>
    simp [timStat]

/-! ### PTP (R304, R309, R311, R312, R520) -/

section
variable {m : Fin 8} {s : State}

/-- An exchange is noted, and the next request is sent. -/
def exchanged (m : Nat) (x : PtpExchange) (s : State) : State :=
  delayRequest m (setDisc { s.disc with lastOffset := ptpOffset x, lastMac := m, lastAt := some s.fclk } s)

theorem exchanged_kept (m : Nat) (x : PtpExchange) (s : State) :
    (exchanged m x s).disc = { s.disc with lastOffset := ptpOffset x, lastMac := m, lastAt := some s.fclk } ∧ (exchanged m x s).mem = s.mem ∧
    (exchanged m x s).facets = s.facets ∧ (exchanged m x s).tb = s.tb ∧ (exchanged m x s).fclk = s.fclk ∧ (exchanged m x s).regs = s.regs := by
  simp [exchanged, delayRequest, emit]

theorem exec_ptpSample {x : PtpExchange} (hsrc : timSrc s = 1 ∨ timSrc s = 3) (hon : s.disc.enabled.getLsbD m = true) (hup : domState s 36 = 1) :
    exec (.ptpSample m x) s = .next (ptpSample (ptpOffset x) (exchanged m x s)) := by
  exact if_pos (by simpa [hon, hup] using hsrc)

/-- Under SRC 3 an exchange steps whole seconds or does nothing. -/
theorem ptpSample_seconds {offset : Int} {u : State} (h : timSrc u = 3) : offServo (ptpSample offset u) = offServo u := by
  unfold ptpSample
  rw [if_pos h]
  dsimp only
  split
  · exact servoStep_offServo ..
  · rfl

theorem ptpSample_counts {x : PtpExchange} (hsrc : timSrc s = 1 ∨ timSrc s = 3) (hon : s.disc.enabled.getLsbD m = true) (hup : domState s 36 = 1) :
    ∃ t, exec (.ptpSample m x) s = .next t ∧ t.disc.lastAt = some s.fclk ∧ t.disc.lastOffset = ptpOffset x ∧ t.tb.tick = s.tb.tick ∧
      t.mem = s.mem ∧ t.facets = s.facets ∧ (timSrc s = 3 → t.disc.good = s.disc.good) ∧
      (timSrc s = 1 → t.disc.good = (if belowNs (ptpOffset x) s.disc.lockNs then min (s.disc.good + 1) 255 else 0) ∧
        rbit t (timReg 0x40) 0 = decide (s.disc.lockN ≤ t.disc.good) ∧ rbit t (timReg 0x40) 1 = false) := by
  obtain ⟨hdisc, hmem, hfacets, htb, hfclk, hregs⟩ := exchanged_kept m x s
  have hsame : timSrc (exchanged m x s) = timSrc s := rfld_congr (rget_congr hregs _) 0 2
  refine ⟨_, exec_ptpSample hsrc hon hup, ?_⟩
  rcases hsrc with h1 | h3
  · have hservo : ptpSample (ptpOffset x) (exchanged m x s) = servoSample (ptpOffset x) (exchanged m x s) := if_neg (by omega)
    obtain ⟨hdisc', hmem', hfacets', htick'⟩ := servoSample_kept (ptpOffset x) (exchanged m x s)
    have hlock := rbit_servoSample_lock (ptpOffset x) (exchanged m x s)
    rw [hdisc] at hlock
    rw [hservo]
    refine ⟨?_, ?_, htick'.trans (by rw [htb]), hmem'.trans hmem, hfacets'.trans hfacets, by omega, fun _ => ⟨?_, ?_, rbit_servoSample_holdover ..⟩⟩
    · rw [hdisc', sampled, hfclk]
    · rw [hdisc', sampled, hdisc]
    · rw [hdisc', sampled, hdisc, goodAfter]
    · rw [hlock, hdisc', sampled, hdisc]
  · have hoff := ptpSample_seconds (offset := ptpOffset x) (hsame.trans h3)
    have hdisc' : (ptpSample (ptpOffset x) (exchanged m x s)).disc = (exchanged m x s).disc := (congrArg State.disc hoff :)
    refine ⟨by rw [hdisc', hdisc], by rw [hdisc', hdisc], ?_, ?_, ?_, fun _ => by rw [hdisc', hdisc], by omega⟩
    · have htick : (ptpSample (ptpOffset x) (exchanged m x s)).tb.tick = (exchanged m x s).tb.tick := (congrArg (fun x : State => x.tb.tick) hoff :)
      rw [htick, htb]
    · exact (congrArg State.mem hoff :).trans hmem
    · exact (congrArg State.facets hoff :).trans hfacets

/-- Holdover begins: LOCK falls, HOLDOVER rises and no offset counts. -/
def heldOver (u : State) : State := setTimBit 1 true (setTimBit 0 false (setDisc { u.disc with good := 0 } u))
def meanRate (u : State) : Nat := wrapN 32 (u.disc.rates.foldl (· + ·) (0 : Int) / (max 1 u.disc.rates.length : Nat))

theorem exec_holdoverEntry {f : Nat} (hf : s.disc.lastAt = some f) (hsrc : timSrc s = 1 ∨ timSrc s = 3) (hhold : rbit s (timReg 0x40) 1 = false)
    (u : State) (hu : u = advanceTo (f + s.disc.holdN * nsFclk s.disc.sync) s) :
    exec .holdoverEntry s = .next (rateWrite (meanRate u) (heldOver u)) := by
  subst hu
  change execHoldoverEntry s = _
  unfold execHoldoverEntry
  rw [hf]
  exact if_pos (by simpa [hhold] using hsrc)

theorem holdoverEntry_holds (u : State) : rbit (rateWrite (meanRate u) (heldOver u)) (timReg 0x40) 1 = true ∧
    rbit (rateWrite (meanRate u) (heldOver u)) (timReg 0x40) 0 = false ∧ (rateWrite (meanRate u) (heldOver u)).disc.good = 0 ∧
    (rateWrite (meanRate u) (heldOver u)).mem = u.mem := by
  have hoff : offServo (rateWrite (meanRate u) (heldOver u)) = offServo (setDisc { u.disc with good := 0 } u) :=
    (rateWrite_offServo ..).trans ((setTimBit_offServo ..).trans (setTimBit_offServo ..))
  refine ⟨?_, ?_, (congrArg (fun x : State => x.disc.good) hoff :), (congrArg State.mem hoff :)⟩
  · rw [rbit_rateWrite (by decide), heldOver, rbit_setTimBit_same (by decide)]
  · rw [rbit_rateWrite (by decide), heldOver, rbit_setTimBit_ne (by decide), rbit_setTimBit_same (by decide)]

theorem ptpFrame_congr {t : State} (h : t.disc = s.disc) (m kind flags corr seq : Nat) (stamp : Option Nat) (tail : Nat) :
    ptpFrame t m kind flags corr seq stamp tail = ptpFrame s m kind flags corr seq stamp tail := by
  unfold ptpFrame
  rw [h]

theorem macCount_kept (m i n : Nat) (s : State) : (macCount m i n s).mem = s.mem ∧ (macCount m i n s).out = s.out ∧
    (macCount m i n s).disc = s.disc ∧ (macCount m i n s).fclk = s.fclk := by
  unfold macCount
  dsimp only
  split <;> simp
theorem txStamp_kept (m tick seq : Nat) (s : State) : (txStamp m tick seq s).mem = s.mem ∧ (txStamp m tick seq s).out = s.out ∧
    (txStamp m tick seq s).disc = s.disc ∧ (txStamp m tick seq s).fclk = s.fclk := by
  unfold txStamp
  dsimp only
  split
  · exact macCount_kept ..
  · simp

/-- The sequence of a MAC's PTP messages goes on. -/
def nextPtpSeq (m : Nat) (u : State) : State :=
  setMacs (tset {} u.macs m { tget ({} : Mac) u.macs m with seq := ((tget ({} : Mac) u.macs m).seq + 1) % 65536 }) u
/-- A Sync with its stamp in it, or a Sync and the Follow_Up that carries its stamp. -/
def syncSent (m stamp seq : Nat) (u : State) : State :=
  if rbit u (macReg m 0) 6 then emit (.frame m (ptpFrame u m 0 0 0 seq (some stamp) 0)) u
  else
    let t := txStamp m stamp seq (emit (.frame m (ptpFrame u m 0 0x200 0 seq none 0)) u)
    emit (.frame m (ptpFrame t m 8 0 (ptpFrac stamp) seq (some stamp) 0)) t

theorem exec_ptpSyncSend (hon : s.disc.enabled.getLsbD m = true) (hrole : slaveMac s ≠ some m.val) (hmac : rbit s (macReg m 0) 0 = true)
    (hup : domState s 36 = 1) (u : State)
    (hu : u = advanceTo (if tget 0 s.disc.synced m = 0 then s.fclk else tget 0 s.disc.synced m + nsFclk s.disc.sync) s) :
    exec (.ptpSyncSend m) s =
      let t := syncSent m (u.tb.tick + txDelay u m) (tget ({} : Mac) u.macs m).seq (nextPtpSeq m u)
      .next (setDisc { t.disc with synced := tset 0 t.disc.synced m t.fclk } t) := by
  subst hu
  exact if_pos (by simp [hon, hrole, hmac, hup])

theorem nextPtpSeq_kept (m : Nat) (u : State) : (nextPtpSeq m u).mem = u.mem ∧ (nextPtpSeq m u).out = u.out ∧ (nextPtpSeq m u).disc = u.disc ∧
    (nextPtpSeq m u).fclk = u.fclk ∧ (nextPtpSeq m u).regs = u.regs := by
  simp [nextPtpSeq]

theorem syncSent_kept (m stamp seq : Nat) (u : State) : (syncSent m stamp seq u).mem = u.mem ∧ (syncSent m stamp seq u).fclk = u.fclk ∧
    (rbit u (macReg m 0) 6 = true → (syncSent m stamp seq u).out = u.out ++ [.frame m (ptpFrame u m 0 0 0 seq (some stamp) 0)]) ∧
    (rbit u (macReg m 0) 6 = false → (syncSent m stamp seq u).out = u.out ++ [.frame m (ptpFrame u m 0 0x200 0 seq none 0),
      .frame m (ptpFrame u m 8 0 (ptpFrac stamp) seq (some stamp) 0)]) := by
  unfold syncSent
  split
  next hone => simp [emit, hone]
  next htwo =>
    obtain ⟨hmem, hout, hdisc, hfclk⟩ := txStamp_kept m stamp seq (emit (.frame m (ptpFrame u m 0 0x200 0 seq none 0)) u)
    have hframe := ptpFrame_congr (s := u) hdisc m 8 0 (ptpFrac stamp) seq (some stamp) 0
    refine ⟨hmem, hfclk, fun h => absurd h htwo, fun _ => ?_⟩
    dsimp only [emit] at hout hframe ⊢
    rw [hout, hframe, List.append_assoc]
    rfl

theorem ptpServo : PtpServo := by
  refine fun m s => ⟨fun x hsrc hon hup => ptpSample_counts hsrc hon hup, fun f hf hsrc hhold => ?_, fun hon hrole hmac hup => ?_⟩
  · exact ⟨_, exec_holdoverEntry hf hsrc hhold _ rfl, holdoverEntry_holds _⟩
  · refine ⟨_, exec_ptpSyncSend hon hrole hmac hup _ rfl, ?_⟩
    generalize advanceTo (if tget 0 s.disc.synced m = 0 then s.fclk else tget 0 s.disc.synced m + nsFclk s.disc.sync) s = u
    obtain ⟨hmem, hout, hdisc, hfclk, hregs⟩ := nextPtpSeq_kept m u
    obtain ⟨hmem', hfclk', hone, htwo⟩ := syncSent_kept m (u.tb.tick + txDelay u m) (tget ({} : Mac) u.macs m).seq (nextPtpSeq m u)
    rw [rbit_congr (rget_congr hregs _) 6] at hone htwo
    simp only [ptpFrame_congr hdisc, hout] at hone htwo
    refine ⟨?_, hmem'.trans hmem, hone, htwo⟩
    exact (tget_tset_self ..).trans (hfclk'.trans hfclk)

end

/-- Settles O39: what the servo writes is told once; a sample of either source goes through it. -/
theorem pulsesAndServo : Obligations.PulsesAndServo := ⟨pulsePerSecond, ptpServo⟩

end Sys2Proof.Proofs

/-! A transmitted frame that is no PTP frame (R520): where its stamp goes under ONESTEP = 1 and STFILT = 1. -/
namespace Sys2Proof.Proofs
open Sys2Proof Sys2Proof.Machine Sys2Proof.Claims Sys2Proof.Laws

/-! ### A frame that is no PTP frame leaves with STFILT = 1 (R520, log entry 32) -/

section
variable {m : Nat} {bs : List Byte} {s : State}

/-- With STFILT = 1 a stamp is kept for every frame that is not a PTP frame, whether ONESTEP is set or not. -/
theorem txFrame_stampsPlain (hplain : ptpAt bs = none) (hfilt : fld (macCfg s m) 8 8 = 1) : txFrame m bs s =
    emit (.frame m bs) (txStamp m ((s.tb.tick + txDelay s m) % 2 ^ 64) ((drawFree s).1.toNat % 65536) (drawFree s).2) := by
  have honestep : (bit (macCfg s m) 6 && (ptpAt bs).any fun p => beAt bs p.1 1 % 16 == 0) = false := by
    rw [hplain, Option.any_none, Bool.and_false]
  unfold txFrame
  dsimp only
  rw [honestep, if_neg Bool.false_ne_true, hplain]
  exact if_pos hfilt

/-- A stamp that finds a place enters the queue behind those that stand there. -/
theorem mac_txStamp (hroom : (mac s m).ts.length < 16) (tick seq : Nat) :
    mac (txStamp m tick seq s) m = { mac s m with ts := (mac s m).ts ++ [(BitVec.ofNat 64 tick, seq)] } := by
  rw [txStamp, if_neg (by simpa [mac] using hroom)]
  exact tget_tset_self ..

theorem mac_setMac_same (m : Nat) (x : Mac) (s : State) : mac (setMac m x s) m = x := tget_tset_self ..
theorem rget_setMac (m : Nat) (x : Mac) (s : State) (a : Nat) : rget (setMac m x s) a = rget s a := rget_congr rfl a

/-- A whole record of a lawful length leaves the queue when no pause holds the MAC. -/
theorem exec_frameTransmit {m : Fin 8} {n : Nat} (hup : macUp s m = true) (hhead : 32 ≤ (mac s m).tx.length) (hn : leAt (mac s m).tx 0 2 = n)
    (hlawful : 60 ≤ n ∧ n ≤ 9596) (hwhole : recordLen n ≤ (mac s m).tx.length) (hpause : (mac s m).pauseEnd ≤ s.fclk) :
    exec (.frameTransmit m) s = .next (txFrame m (((mac s m).tx.drop 32).take n)
      (setMac m { mac s m with tx := (mac s m).tx.drop (recordLen n) } (rbitSet (macReg m 8) 2 false s))) := by
  have hgood : decide (n < 60 ∨ 9596 < n) = false := by simp; omega
  change execFrameTransmit m s = _
  unfold execFrameTransmit
  dsimp only
  rw [hn, hgood, gateAt, if_pos (by simp [hup, hhead, hwhole])]
  simp only [Bool.false_eq_true, if_false]
  rw [advanceTo_past hpause, if_pos hpause]

end

/-- MAC 7 is up with ONESTEP = 1 and STFILT = 1, and its transmit queue holds one frame of 60 zero bytes, which is no PTP frame. -/
def plainFrameQueued : State :=
  setMac (7 : Fin 8) { tx := natBytes 2 60 ++ List.replicate 94 0 } (rset (macReg (7 : Fin 8) 0) 0x141 (rset (macReg (7 : Fin 8) 8) 1 State.reset))

theorem plainFrameQueued_mac : mac plainFrameQueued (7 : Fin 8) = { tx := natBytes 2 60 ++ List.replicate 94 0 } := mac_setMac_same ..
theorem plainFrameQueued_up : macUp plainFrameQueued (7 : Fin 8) = true := by decide +kernel
theorem plainFrameQueued_cfg : macCfg plainFrameQueued (7 : Fin 8) = 0x141 := by decide +kernel
theorem plainFrame_noPtp : ptpAt (((natBytes 2 60 ++ List.replicate 94 0).drop 32).take 60) = none := by decide +kernel

/-- The frame leaves, and a stamp of it stands in the queue. -/
theorem plainFrameQueued_sent : ∃ t, exec (.frameTransmit 7) plainFrameQueued = .next t ∧ (mac t (7 : Fin 8)).ts.length = 1 := by
  have hexec := exec_frameTransmit (n := 60) plainFrameQueued_up (by rw [plainFrameQueued_mac]; decide) (by rw [plainFrameQueued_mac]; decide)
    (by decide) (by rw [plainFrameQueued_mac]; decide) (by rw [plainFrameQueued_mac]; exact Nat.zero_le _)
  refine ⟨_, hexec, ?_⟩
  rw [plainFrameQueued_mac]
  generalize hv : setMac _ _ _ = v
  have hmac : mac v (7 : Fin 8) = { tx := List.drop (recordLen 60) (natBytes 2 60 ++ List.replicate 94 0) } := by
    rw [← hv]
    exact mac_setMac_same ..
  have hcfg : macCfg v (7 : Fin 8) = 0x141 := by
    rw [← hv]
    rw [macCfg, rget_setMac, rget_rbitSet_ne (by decide)]
    exact plainFrameQueued_cfg
  have hdrawn : mac (drawFree v).2 (7 : Fin 8) = mac v (7 : Fin 8) := rfl
  rw [txFrame_stampsPlain plainFrame_noPtp (by rw [hcfg]; decide)]
  have hstamp := mac_txStamp (m := (7 : Fin 8)) (s := (drawFree v).2) (by rw [hdrawn, hmac]; decide) ((v.tb.tick + txDelay v (7 : Fin 8)) % 2 ^ 64)
    ((drawFree v).1.toNat % 65536)
  exact (congrArg (fun x : Mac => x.ts.length) hstamp).trans (by rw [hdrawn, hmac]; rfl)

theorem not_macsTransmit : ¬ MacsTransmit := by
  intro h
  obtain ⟨t, hexec, hone⟩ := plainFrameQueued_sent
  obtain ⟨-, hlawful⟩ := h 7 plainFrameQueued plainFrameQueued_up (by rw [plainFrameQueued_mac]; decide)
  rw [plainFrameQueued_mac] at hlawful
  obtain ⟨t', hexec', -, -, hplain, -⟩ := hlawful (by decide) (by decide) (by decide)
  obtain rfl : t = t' := Host.Outcome.next.inj (hexec.symm.trans hexec')
  have honestep : rbit plainFrameQueued (macReg (7 : Fin 8) 0) 6 = true := (congrArg (bit · 6) plainFrameQueued_cfg).trans (by decide)
  rw [advanceTo_past (Nat.zero_le _)] at hplain
  obtain ⟨-, hnone⟩ := hplain plainFrame_noPtp (Or.inl honestep)
  rw [hnone] at hone
  exact absurd hone (by decide)

/-- Refutes O59: with ONESTEP = 1 and STFILT = 1 the model stamps every transmitted frame (log entry 32), so a frame that is no PTP frame leaves
a stamp in ETH_TXTS, where the statement lets ONESTEP = 1 alone keep the queue as it was. -/
theorem not_linksAndFabric : ¬ Obligations.LinksAndFabric := fun ⟨_, _, htransmit, _⟩ => not_macsTransmit htransmit

end Sys2Proof.Proofs

namespace Sys2Proof.Proofs

open Sys2Proof Sys2Proof.Machine Sys2Proof.Claims Sys2Proof.Laws

/-! ### The canonical form of the memory (O4) -/

section

set_option maxRecDepth 20000

/-- Every command keeps the canonical form of the memory: a facet operation by what presenting it does, any other by the lemma about its row. -/
theorem wf_exec {i : Instr} {s t : State} (hx : exec i s = .next t) (h : Memory.wf (memOf s) = true) : Memory.wf (memOf t) = true := by
  cases i with
  | vmulMac | vmac | vmsu | vmacu | vsad | vmov | vadd | vsub | vadds | vsubs | vmulAlu | vfma | vmin | vmax | vminu | vmaxu | vabs | vneg | vand
   | vor | vxor | vandn | vshl | vshr | vshru | vcmpeq | vcmplt | vcmple | vcmpltu | vsel | vcvt | accst | accsv | accrs | mov | add | sub | and
   | or | xor | shl | shr | min | max | cmpeq | cmpne | cmplt | cmple | lea | movw | tas | mul | mulh | div | rem | fdiv | fsqrt | frcp | frsqrt
   | fexp2 | flog2 | fsin | fcos | crc | extr | ins | clz | popc | rld | rst | radd | rtas | ldr | stc | bmove | bfill | bcrc | bfir | nop | br
   | brc | call | ret | loop | rep | twait | ewait | efclr | eftst | syscall | retx | brk | kenter | mfs | mts | sig | mbxput | mbxget | kld
   | kst | kmov | kbnd | kmask | kseal | kunseal | kget | kclr | lit => exact wf_presentOp hx h
  | resultLanding => exact wf_execResultLanding hx h
  | loopEndAction => exact wf_of_eq (execLoopEndAction_mem _ _ hx) h
  | exceptionEntry => exact wf_execExceptionEntry hx h
  | holdOverrun => exact wf_execHoldOverrun hx h
  | twaitRelease => exact wf_execTwaitRelease hx h
  | ewaitRelease => exact wf_execEwaitRelease hx h
  | longOpDone => exact wf_execLongOpDone hx h
  | remoteCompletion => exact wf_execRemoteCompletion hx h
  | reservationExpiry => exact wf_execReservationExpiry hx h
  | facetHalted => exact wf_execFacetHalted hx h
  | facCtlRun => exact wf_of_eq (execFacCtlRun_mem _ _ hx) h
  | facCtlHalt => exact wf_of_eq (execFacCtlHalt_mem _ _ hx) h
  | pflush => exact wf_of_eq (execPflush_mem _ _ hx) h
  | pflushDone => exact wf_of_eq (execPflushDone_mem _ _ hx) h
  | facetRegisterBlockWrite => exact wf_of_eq (execFacetRegisterBlockWrite_mem _ _ _ _ _ hx) h
  | intSourceEvent => exact wf_of_eq (execIntSourceEvent_mem _ _ _ hx) h
  | levelFilterSettle => exact wf_execLevelFilterSettle hx h
  | batchTimerExpiry => exact wf_execBatchTimerExpiry hx h
  | intClaim => exact wf_of_eq (execIntClaim_mem _ _ _ hx) h
  | intEoi => exact wf_of_eq (execIntEoi_mem _ _ _ hx) h
  | intSetp => exact wf_of_eq (execIntSetp_mem _ _ _ hx) h
  | intClrp => exact wf_of_eq (execIntClrp_mem _ _ _ hx) h
  | intScfgWrite => exact wf_of_eq (execIntScfgWrite_mem _ _ _ _ hx) h
  | fillDone => exact wf_execFillDone hx h
  | reconstruction => exact wf_execReconstruction hx h
  | itgScrubStart => exact wf_of_eq (execItgScrubStart_mem _ _ _ hx) h
  | scrubPassDone => exact wf_execScrubPassDone hx h
  | itgRetireStart => exact wf_of_eq (execItgRetireStart_mem _ _ _ hx) h
  | retirementDone => exact wf_execRetirementDone hx h
  | pounceIntervalExpiry => exact wf_execPounceIntervalExpiry hx h
  | pounceTestDone => exact wf_execPounceTestDone hx h
  | itgTctlGo => exact wf_execItgTctlGo hx h
  | movCtlStart => exact wf_execMovCtlStart hx h
  | burstIssue => exact wf_execBurstIssue hx h
  | transferCompletion => exact wf_execTransferCompletion hx h
  | movCtlStop => exact wf_of_eq (execMovCtlStop_mem _ _ hx) h
  | transferEndEarly => exact wf_execTransferEndEarly hx h
  | channelDrainHeld => exact wf_execChannelDrainHeld hx h
  | channelResume => exact wf_execChannelResume hx h
  | drainTimeout => exact wf_execDrainTimeout hx h
  | seamReplay => exact wf_execSeamReplay hx h
  | timeStepApply => exact wf_execTimeStepApply hx h
  | ratePoint => exact wf_execRatePoint hx h
  | timRateWrite => exact wf_of_eq (execTimRateWrite_mem _ _ hx) h
  | steparm => exact wf_of_eq (execSteparm_mem _ hx) h
  | checkWord => exact wf_execCheckWord hx h
  | ppsEdge => exact wf_of_eq (execPpsEdge_mem _ _ hx) h
  | ppsMiss => exact wf_execPpsMiss hx h
  | storeTimeSecond => exact wf_execStoreTimeSecond hx h
  | ppsOutFall => exact wf_execPpsOutFall hx h
  | ptpSample => exact wf_of_eq (execPtpSample_mem _ _ _ hx) h
  | holdoverEntry => exact wf_execHoldoverEntry hx h
  | launchTimerFire => exact wf_execLaunchTimerFire hx h
  | timLctlWrite => exact wf_of_eq (execTimLctlWrite_mem _ _ _ hx) h
  | timLperWrite => exact wf_of_eq (execTimLperWrite_mem _ _ _ hx) h
  | hatbandDelivery => exact wf_execHatbandDelivery hx h
  | hatSwaparm => exact wf_of_eq (execHatSwaparm_mem _ hx) h
  | hatbandSwap => exact wf_execHatbandSwap hx h
  | hatCopy => exact wf_of_eq (execHatCopy_mem _ hx) h
  | hatCopyDone => exact wf_execHatCopyDone hx h
  | fabricEventReceive => exact wf_execFabricEventReceive hx h
  | fabricEventAct => exact wf_execFabricEventAct hx h
  | vioSample => exact wf_execVioSample hx h
  | groupEnableWrite => exact wf_of_eq (execGroupEnableWrite_mem _ _ _ hx) h
  | cellEnable => exact wf_of_eq (execCellEnable_mem _ _ _ _ hx) h
  | flushrx => exact wf_of_eq (execFlushrx_mem _ _ hx) h
  | flushtx => exact wf_of_eq (execFlushtx_mem _ _ hx) h
  | padFault => exact wf_of_eq (execPadFault_mem _ _ hx) h
  | txWindowWrite => exact wf_of_eq (execTxWindowWrite_mem _ _ _ _ hx) h
  | rxWindowRead => exact wf_of_eq (execRxWindowRead_mem _ _ _ _ hx) h
  | rxByteReceived => exact wf_execRxByteReceived hx h
  | burstEnd => exact wf_execBurstEnd hx h
  | launchPulseEnd => exact wf_execLaunchPulseEnd hx h
  | launchComparator => exact wf_execLaunchComparator hx h
  | padEdge => exact wf_of_eq (execPadEdge_mem _ _ _ _ hx) h
  | prtSenseStart => exact wf_of_eq (execPrtSenseStart_mem _ _ _ hx) h
  | measurementDone => exact wf_execMeasurementDone hx h
  | attachChange => exact wf_execAttachChange hx h
  | shiftEntryEnd => exact wf_execShiftEntryEnd hx h
  | feedSwitchOn => exact wf_of_eq (execFeedSwitchOn_mem _ _ _ _ hx) h
  | feedSwitchOff => exact wf_of_eq (execFeedSwitchOff_mem _ _ _ _ hx) h
  | feedSample => exact wf_execFeedSample hx h
  | hardLimitTrip => exact wf_of_eq (execHardLimitTrip_mem _ _ _ hx) h
  | feedRetry => exact wf_execFeedRetry hx h
  | controlWordIssue => exact wf_execControlWordIssue hx h
  | txb => exact wf_of_eq (execTxb_mem _ _ _ _ hx) h
  | rxb => exact wf_of_eq (execRxb_mem _ _ _ _ hx) h
  | shift => exact wf_of_eq (execShift_mem _ _ _ _ hx) h
  | span => exact wf_of_eq (execSpan_mem _ _ _ _ hx) h
  | padset => exact wf_of_eq (execPadset_mem _ _ _ _ hx) h
  | crd => exact wf_of_eq (execCrd_mem _ _ _ _ _ hx) h
  | cwr => exact wf_of_eq (execCwr_mem _ _ _ _ _ hx) h
  | flush => exact wf_of_eq (execFlush_mem _ _ _ _ hx) h
  | rstamp => exact wf_of_eq (execRstamp_mem _ _ _ hx) h
  | rsend => exact wf_of_eq (execRsend_mem _ _ _ _ hx) h
  | rput => exact wf_of_eq (execRput_mem _ _ _ hx) h
  | rclr => exact wf_of_eq (execRclr_mem _ _ hx) h
  | cmdb => exact wf_of_eq (execCmdb_mem _ _ _ hx) h
  | tmr => exact wf_of_eq (execTmr_mem _ _ _ hx) h
  | evmask => exact wf_of_eq (execEvmask_mem _ _ _ hx) h
  | attn => exact wf_of_eq (execAttn_mem _ _ hx) h
  | hsig => exact wf_of_eq (execHsig_mem _ _ hx) h
  | parkWake => exact wf_execParkWake hx h
  | microTimerExpiry => exact wf_execMicroTimerExpiry hx h
  | blkTstart => exact wf_of_eq (execBlkTstart_mem _ _ hx) h
  | blkTstop => exact wf_of_eq (execBlkTstop_mem _ _ hx) h
  | blkWheelWrite => exact wf_of_eq (execBlkWheelWrite_mem _ _ _ hx) h
  | wheelChange => exact wf_execWheelChange hx h
  | blkCopy => exact wf_of_eq (execBlkCopy_mem _ _ hx) h
  | blkCopyDone => exact wf_execBlkCopyDone hx h
  | blkSwaparm => exact wf_of_eq (execBlkSwaparm_mem _ _ hx) h
  | blkSwapPoint => exact wf_execBlkSwapPoint hx h
  | reportStart => exact wf_execReportStart hx h
  | reportPublish => exact wf_execReportPublish hx h
  | fabricReportReceive => exact wf_execFabricReportReceive hx h
  | sesCopy => exact wf_of_eq (execSesCopy_mem _ hx) h
  | sesCopyDone => exact wf_execSesCopyDone hx h
  | sesSwaparm => exact wf_of_eq (execSesSwaparm_mem _ hx) h
  | routeSwap => exact wf_execRouteSwap hx h
  | sesCmdPush => exact wf_of_eq (execSesCmdPush_mem _ _ _ hx) h
  | contextWrite => exact wf_execContextWrite hx h
  | endpointAttach => exact wf_execEndpointAttach hx h
  | endpointDetach => exact wf_execEndpointDetach hx h
  | sessionHoldExpiry => exact wf_execSessionHoldExpiry hx h
  | packageLost => exact wf_execPackageLost hx h
  | queueEnable => exact wf_of_eq (execQueueEnable_mem _ _ _ hx) h
  | queueDisable => exact wf_of_eq (execQueueDisable_mem _ _ _ hx) h
  | mbxSqtail => exact wf_of_eq (execMbxSqtail_mem _ _ _ hx) h
  | mbxCqhead => exact wf_of_eq (execMbxCqhead_mem _ _ _ hx) h
  | commandFetch => exact wf_of_eq (execCommandFetch_mem _ _ _ _ hx) h
  | completionPost => exact wf_execCompletionPost hx h
  | interruptTimeExpiry => exact wf_execInterruptTimeExpiry hx h
  | asyncEventPost => exact wf_of_eq (execAsyncEventPost_mem _ _ _ hx) h
  | heartbeat => exact wf_execHeartbeat hx h
  | commandTimeout => exact wf_execCommandTimeout hx h
  | requestTake => exact wf_of_eq (execRequestTake_mem _ _ hx) h
  | responseForward => exact wf_execResponseForward hx h
  | getVersion => exact wf_execGetVersion hx h
  | getStatus => exact wf_execGetStatus hx h
  | eventEnable => exact wf_execEventEnable hx h
  | abort => exact wf_execAbort hx h
  | resetCmd => exact wf_execResetCmd hx h
  | authChallenge => exact wf_execAuthChallenge hx h
  | authOpen => exact wf_execAuthOpen hx h
  | authClose => exact wf_execAuthClose hx h
  | principalSessionExpiry => exact wf_execPrincipalSessionExpiry hx h
  | nonceExpiry => exact wf_execNonceExpiry hx h
  | crownPower => exact wf_execCrownPower hx h
  | domainPower => exact wf_execDomainPower hx h
  | standby => exact wf_execStandby hx h
  | powerStatus => exact wf_execPowerStatus hx h
  | sensors => exact wf_execSensors hx h
  | timeGet => exact wf_execTimeGet hx h
  | timeSource => exact wf_execTimeSource hx h
  | timeStep => exact wf_execTimeStep hx h
  | timeRate => exact wf_execTimeRate hx h
  | ptpConfig => exact wf_execPtpConfig hx h
  | ptpStatus => exact wf_execPtpStatus hx h
  | timerSet => exact wf_execTimerSet hx h
  | hatWrite => exact wf_execHatWrite hx h
  | hatSwap => exact wf_execHatSwap hx h
  | groupSet => exact wf_execGroupSet hx h
  | probe => exact wf_execProbe hx h
  | cable => exact wf_execCable hx h
  | bind => exact wf_execBind hx h
  | unbind => exact wf_execUnbind hx h
  | wheel => exact wf_execWheel hx h
  | threadStatus => exact wf_execThreadStatus hx h
  | threadRestart => exact wf_execThreadRestart hx h
  | feedSet => exact wf_execFeedSet hx h
  | feedStatus => exact wf_execFeedStatus hx h
  | sesConfig => exact wf_execSesConfig hx h
  | sesInfo => exact wf_execSesInfo hx h
  | sesRing => exact wf_execSesRing hx h
  | sesClose => exact wf_execSesClose hx h
  | sesList => exact wf_execSesList hx h
  | facetLoad => exact wf_execFacetLoad hx h
  | facetRun => exact wf_execFacetRun hx h
  | facetHalt => exact wf_execFacetHalt hx h
  | facetReport => exact wf_execFacetReport hx h
  | facetRegs => exact wf_execFacetRegs hx h
  | crownMode => exact wf_execCrownMode hx h
  | scrub => exact wf_execScrub hx h
  | patrol => exact wf_execPatrol hx h
  | patrolScrub => exact wf_execPatrolScrub hx h
  | logRead => exact wf_execLogRead hx h
  | retire => exact wf_execRetire hx h
  | testWord => exact wf_execTestWord hx h
  | dramTouch => exact wf_execDramTouch hx h
  | dramRelease => exact wf_execDramRelease hx h
  | capGrant => exact wf_execCapGrant hx h
  | capRevoke => exact wf_execCapRevoke hx h
  | movBind => exact wf_execMovBind hx h
  | windowOpen => exact wf_execWindowOpen hx h
  | windowClose => exact wf_execWindowClose hx h
  | capQuery => exact wf_execCapQuery hx h
  | fabJoin => exact wf_execFabJoin hx h
  | fabLeave => exact wf_execFabLeave hx h
  | fabStatus => exact wf_execFabStatus hx h
  | fabConfig => exact wf_execFabConfig hx h
  | fabWindow => exact wf_execFabWindow hx h
  | fabStandby => exact wf_execFabStandby hx h
  | fabExport => exact wf_execFabExport hx h
  | fabImport => exact wf_execFabImport hx h
  | consList => exact wf_execConsList hx h
  | consAuth => exact wf_execConsAuth hx h
  | consLife => exact wf_execConsLife hx h
  | consUse => exact wf_execConsUse hx h
  | consPolicy => exact wf_execConsPolicy hx h
  | metrStatus => exact wf_execMetrStatus hx h
  | metrLoad => exact wf_execMetrLoad hx h
  | metrSeal => exact wf_execMetrSeal hx h
  | metrBreak => exact wf_execMetrBreak hx h
  | metrAudit => exact wf_execMetrAudit hx h
  | ldgRead => exact wf_execLdgRead hx h
  | ldgAppend => exact wf_execLdgAppend hx h
  | ldgStatus => exact wf_execLdgStatus hx h
  | updStage => exact wf_execUpdStage hx h
  | updApply => exact wf_execUpdApply hx h
  | updStatus => exact wf_execUpdStatus hx h
  | updDiscard => exact wf_execUpdDiscard hx h
  | ledgerWrite => exact wf_execLedgerWrite hx h
  | ledgerRead => exact wf_execLedgerRead hx h
  | lineCommit => exact wf_execLineCommit hx h
  | lineCommitDone => exact wf_of_eq (execLineCommitDone_mem _ _ hx) h
  | powerFailWarning => exact wf_of_eq (execPowerFailWarning_mem _ hx) h
  | powerFailWarningEnd => exact wf_execPowerFailWarningEnd hx h
  | dbgchal => exact wf_of_eq (execDbgchal_mem _ hx) h
  | dbgresp => exact wf_execDbgresp hx h
  | jtagInstruction => exact wf_of_eq (execJtagInstruction_mem _ _ hx) h
  | trstAssert => exact wf_of_eq (execTrstAssert_mem _ hx) h
  | hostWindowRequest => exact wf_execHostWindowRequest hx h
  | functionLevelReset => exact wf_of_eq (execFunctionLevelReset_mem _ _ hx) h
  | linkDown => exact wf_of_eq (execLinkDown_mem _ hx) h
  | perst => exact wf_of_eq (execPerst_mem _ hx) h
  | frameReceive => exact wf_execFrameReceive hx h
  | frameTransmit => exact wf_execFrameTransmit hx h
  | fabricRequestReceive => exact wf_execFabricRequestReceive hx h
  | fabricResponseReceive => exact wf_execFabricResponseReceive hx h
  | fabricRetransmit => exact wf_execFabricRetransmit hx h
  | fabricHeartbeat => exact wf_execFabricHeartbeat hx h
  | dramPatrol => exact wf_execDramPatrol hx h
  | pwrDctlWrite => exact wf_execPwrDctlWrite hx h
  | domainSwitchDone => exact wf_execDomainSwitchDone hx h
  | crownP2Entry => exact wf_execCrownP2Entry hx h
  | p2EntryTimeout => exact wf_execP2EntryTimeout hx h
  | crownWake => exact wf_execCrownWake hx h
  | crownWakeDone => exact wf_execCrownWakeDone hx h
  | standbyEntry => exact wf_execStandbyEntry hx h
  | packageWake => exact wf_execPackageWake hx h
  | powerOn => exact wf_execPowerOn hx h
  | rstNAssert => exact wf_execRstNAssert hx h
  | refclkLoss => exact wf_execRefclkLoss hx h
  | pllLockLoss => exact wf_execPllLockLoss hx h
  | sensorSample => exact wf_execSensorSample hx h
  | supplyTrip => exact wf_execSupplyTrip hx h
  | thermalTrip => exact wf_execThermalTrip hx h
  | watchdogExpiry => exact wf_execWatchdogExpiry hx h
  | watchdogKick => exact wf_of_eq (execWatchdogKick_mem _ hx) h
  | packageReset => exact wf_execPackageReset hx h
  | boot => exact wf_execBoot hx h
  | counterClearWrite => exact wf_execCounterClearWrite hx h
  | registerWrite => exact wf_execRegisterWrite hx h
  | macLinkUp => exact wf_of_eq (execMacLinkUp_mem _ _ hx) h
  | macLinkDown => exact wf_of_eq (execMacLinkDown_mem _ _ hx) h
  | rsFecLossOfLock => exact wf_of_eq (execRsFecLossOfLock_mem _ _ hx) h
  | pcieLinkUp => exact wf_of_eq (execPcieLinkUp_mem _ hx) h
  | speedOrWidthChange => exact wf_of_eq (execSpeedOrWidthChange_mem _ _ _ hx) h
  | completionTimeout => exact wf_of_eq (execCompletionTimeout_mem _ _ hx) h
  | serdesReferenceLoss => exact wf_of_eq (execSerdesReferenceLoss_mem _ _ hx) h
  | serdesReferenceReturn => exact wf_of_eq (execSerdesReferenceReturn_mem _ _ hx) h
  | txFifoByteLeaves => exact wf_execTxFifoByteLeaves hx h
  | padFaultEnd => exact wf_of_eq (execPadFaultEnd_mem _ _ hx) h
  | pfdFmeasRead => exact wf_of_eq (execPfdFmeasRead_mem _ _ _ hx) h
  | msiXMaskClear => exact wf_of_eq (execMsiXMaskClear_mem _ _ _ hx) h
  | freedIdentityReturn => exact wf_execFreedIdentityReturn hx h
  | ptpSyncSend => exact wf_execPtpSyncSend hx h

end

/-- Settles O4: the queue is no part of the memory, and a step is one FCLK or one command. -/
theorem memoryStaysCanonical : Obligations.MemoryStaysCanonical := by
  intro s t h hstep
  unfold step at hstep
  split at hstep
  · exact next_inj hstep ▸ wf_advance h
  · exact wf_exec hstep h

/-- Settles O1: by the definition of a step. -/
theorem stepRunsFrontCommand : Obligations.StepRunsFrontCommand := fun _ _ _ => rfl

end Sys2Proof.Proofs

namespace Sys2Proof.Proofs

open Sys2Proof Sys2Proof.Machine Sys2Proof.Claims Sys2Proof.Laws

/-! ### Gates -/

theorem gateAt_of_true {c : Bool} (h : c = true) (f : Nat) (s : State) (e : State → State) : gateAt c f s e = .next (e (advanceTo f s)) := if_pos h

/-! ### Cells -/

@[simp] theorem cell_setCell_same (p : Nat) (x : Cell) (s : State) : cell (setCell p x s) p = x := tget_tset_self ..
theorem cell_setCell_ne {p q : Nat} (h : q ≠ p) (x : Cell) (s : State) : cell (setCell p x s) q = cell s q := tget_tset_ne _ _ _ h
@[simp] theorem cell_updCell_same (p : Nat) (g : Cell → Cell) (s : State) : cell (updCell p g s) p = g (cell s p) := cell_setCell_same ..
theorem cell_updCell_ne {p q : Nat} (h : q ≠ p) (g : Cell → Cell) (s : State) : cell (updCell p g s) q = cell s q := cell_setCell_ne h ..
theorem cell_congr {s t : State} (h : s.cells = t.cells) (p : Nat) : cell s p = cell t p := by simp only [cell, h]
theorem onlyCell_setCell (p : Nat) (x : Cell) (s : State) : onlyCell p s (setCell p x s) := ⟨fun _ h => cell_setCell_ne h .., rfl⟩

@[simp] theorem cellReg_inj {p o o' : Nat} : cellReg p o = cellReg p o' ↔ o = o' := by
  simp only [cellReg, brim]
  omega

/-! ### What a signal leaves

A signal of a cell is a status bit, an event of R345, a hatband pulse or a source of the steward. -/

/-- The state without its registers, interrupt tables, pulses and threads, the only fields that a signal writes. -/
def offSignal (s : State) : State := { offRaised s with threads := [] }

theorem offSignal_of_offRaised {s t : State} (h : offRaised t = offRaised s) : offSignal t = offSignal s :=
  congrArg (fun u : State => { u with threads := [] }) h
theorem rset_offSignal (a : Nat) (v : BitVec 64) (s : State) : offSignal (rset a v s) = offSignal s := by simp [offSignal, offRaised, offLog]
theorem rput_offSignal (a lo w v : Nat) (s : State) : offSignal (rput a lo w v s) = offSignal s := rset_offSignal ..
theorem rbitSet_offSignal (a i : Nat) (b : Bool) (s : State) : offSignal (rbitSet a i b s) = offSignal s := by simp [offSignal, offRaised, offLog]
theorem raiseHat_offSignal (src : Nat) (s : State) : offSignal (raiseHat src s) = offSignal s := offSignal_of_offRaised (raiseHat_offRaised ..)
theorem raiseSteward_offSignal (src : Nat) (s : State) : offSignal (raiseSteward src s) = offSignal s := offSignal_of_offRaised (raiseSteward_offRaised ..)
theorem setThread_offSignal (i : Nat) (x : Thread) (s : State) : offSignal (setThread i x s) = offSignal s := by simp [offSignal, offRaised, offLog]
theorem latchEvent_offSignal (p i : Nat) (s : State) : offSignal (latchEvent p i s) = offSignal s := setThread_offSignal ..

/-- Event `e` of cell p, where it selects the condition that occurs (R345). -/
def eventTaken (p cond e : Nat) (s : State) : State :=
  if rfld s (cellReg p 0x28) (4 * e) 4 = cond then
    let s := raiseHat (0x1000 + 2 * p + e) s
    let s := rset (cellReg p (0x38 + 8 * e)) (BitVec.ofNat 64 s.tb.tick) s
    let s := rput (cellReg p 0x30) (48 + 8 * e) 8 (rfld s (cellReg p 0x30) (48 + 8 * e) 8 + 1) s
    latchEvent p e s
  else s
theorem cellEvent_eq (p cond : Nat) (s : State) : cellEvent p cond s = eventTaken p cond 1 (eventTaken p cond 0 s) := rfl

theorem eventTaken_offSignal (p cond e : Nat) (s : State) : offSignal (eventTaken p cond e s) = offSignal s := by
  unfold eventTaken
  split
  · simp only [latchEvent_offSignal, rput_offSignal, rset_offSignal, raiseHat_offSignal]
  · rfl
theorem cellEvent_offSignal (p cond : Nat) (s : State) : offSignal (cellEvent p cond s) = offSignal s :=
  (eventTaken_offSignal ..).trans (eventTaken_offSignal ..)
theorem cellStat_offSignal (p i : Nat) (s : State) : offSignal (cellStat p i s) = offSignal s := rbitSet_offSignal ..

theorem mem_of_offSignal {s t : State} (h : offSignal t = offSignal s) : t.mem = s.mem := (congrArg State.mem h :)
theorem out_of_offSignal {s t : State} (h : offSignal t = offSignal s) : t.out = s.out := (congrArg State.out h :)
theorem cell_of_offSignal {s t : State} (h : offSignal t = offSignal s) (p : Nat) : cell t p = cell s p := cell_congr (congrArg State.cells h :) p

/-- A latched event of a thread touches no register. -/
theorem rget_latchEvent (p i : Nat) (s : State) (a : Nat) : rget (latchEvent p i s) a = rget s a := rget_congr (by simp [latchEvent]) a

section
variable {p : Nat}

theorem rget_eventTaken_ne {a : Nat} (e : Nat) (h : ∀ o, 0x30 ≤ o → o ≤ 0x38 + 8 * e → a ≠ cellReg p o) (cond : Nat) (s : State) :
    rget (eventTaken p cond e s) a = rget s a := by
  unfold eventTaken
  split
  · dsimp only
    rw [rget_latchEvent, rget_rput_ne (h _ (by omega) (by omega)), rget_rset_ne (h _ (by omega) (by omega)), raiseHat_rget]
  · rfl
theorem rget_cellEvent_ne {a : Nat} (h : ∀ o, 0x30 ≤ o → o ≤ 0x40 → a ≠ cellReg p o) (cond : Nat) (s : State) :
    rget (cellEvent p cond s) a = rget s a := by
  rw [cellEvent_eq, rget_eventTaken_ne 1 h, rget_eventTaken_ne 0 fun o h1 h2 => h o h1 (by omega)]
theorem rget_cellEvent_low {o : Nat} (h : o < 0x30) (cond : Nat) (s : State) : rget (cellEvent p cond s) (cellReg p o) = rget s (cellReg p o) :=
  rget_cellEvent_ne (fun o' h' _ => by simp; omega) ..

theorem rbit_eventTaken {i : Nat} (hi : i < 48) (cond e : Nat) (s : State) :
    rbit (eventTaken p cond e s) (cellReg p 0x30) i = rbit s (cellReg p 0x30) i := by
  unfold eventTaken
  split
  · dsimp only
    rw [rbit_congr (rget_latchEvent ..), rbit_rput_apart (by omega), rbit_rset_ne (by simp; omega), rbit_congr (raiseHat_rget ..)]
  · rfl
/-- An event counts in the upper bits of PRT_STAT only. -/
theorem rbit_cellEvent {i : Nat} (hi : i < 48) (cond : Nat) (s : State) :
    rbit (cellEvent p cond s) (cellReg p 0x30) i = rbit s (cellReg p 0x30) i := by
  rw [cellEvent_eq, rbit_eventTaken hi, rbit_eventTaken hi]

end

/-! ### FIFOs (R339, R340) -/

theorem txAfter_offSignal (p before : Nat) (s : State) : offSignal (txAfter p before s) = offSignal s := by
  unfold txAfter
  split
  · exact (latchEvent_offSignal ..).trans (cellEvent_offSignal ..)
  · rfl
theorem txTake_offSignal (p n : Nat) (s : State) :
    offSignal (txTake p n s).2 = offSignal (setCell p { cell s p with tx := (cell s p).tx.drop n } s) := txAfter_offSignal ..
theorem cell_txTake (p n : Nat) (s : State) : cell (txTake p n s).2 p = { cell s p with tx := (cell s p).tx.drop n } :=
  (cell_of_offSignal (txTake_offSignal ..) p).trans (cell_setCell_same ..)
theorem cell_txTake_ne {p q : Nat} (h : q ≠ p) (n : Nat) (s : State) : cell (txTake p n s).2 q = cell s q :=
  (cell_of_offSignal (txTake_offSignal ..) q).trans (cell_setCell_ne h ..)
theorem txTake_mem_eq (p n : Nat) (s : State) : (txTake p n s).2.mem = s.mem := (mem_of_offSignal (txTake_offSignal p n s) :)

theorem txWrite_offSignal (p : Nat) (bs : List Byte) (s : State) :
    offSignal (txWrite p bs s) = offSignal (setCell p { cell s p with tx := (cell s p).tx ++ bs.take (256 - (cell s p).tx.length) } s) := by
  unfold txWrite
  dsimp only
  split
  · exact cellStat_offSignal ..
  · rfl
theorem txWrite_fits {p : Nat} {bs : List Byte} {s : State} (h : bs.length ≤ 256 - (cell s p).tx.length) :
    txWrite p bs s = setCell p { cell s p with tx := (cell s p).tx ++ bs.take (256 - (cell s p).tx.length) } s := if_neg (by omega)
theorem rbit_txWrite_full {p : Nat} {bs : List Byte} {s : State} (h : 256 - (cell s p).tx.length < bs.length) :
    rbit (txWrite p bs s) (cellReg p 0x30) 2 = true := by
  unfold txWrite
  dsimp only
  rw [if_pos h]
  exact rbit_rbitSet_same (by decide) ..

theorem rxRead_offSignal (p n : Nat) (s : State) :
    offSignal (rxRead p n s).2.2 = offSignal (setCell p { cell s p with rx := (cell s p).rx.drop n } s) := by
  unfold rxRead
  dsimp only
  split
  · exact cellStat_offSignal ..
  · rfl
theorem rbit_rxRead_short {p n : Nat} {s : State} (h : ((cell s p).rx.take n).length < n) : rbit (rxRead p n s).2.2 (cellReg p 0x30) 1 = true := by
  unfold rxRead
  dsimp only
  rw [if_pos h]
  exact rbit_rbitSet_same (by decide) ..

theorem cellFifos : CellFifos := by
  intro p s hon
  refine ⟨gate_of_true hon _, ⟨_, gate_of_true hon _, ?_, ?_, txTake_mem_eq .., fun q hq => cell_txTake_ne hq ..⟩, ?_, ?_, ?_⟩
  · exact (congrArg Cell.tx (cell_txTake p 256 s) :)
  · exact (congrArg Cell.rx (cell_txTake p 256 s) :)
  · intro bs a hlen hwin
    have hexec : exec (.txWindowWrite p bs a) s = .next (txWrite p bs s) := by
      show execTxWindowWrite p bs a s = _
      rw [execTxWindowWrite, if_neg (not_not_intro hlen), hwin, if_pos rfl, gate_of_true hon]
    have hoff := txWrite_offSignal p bs s
    refine ⟨_, hexec, (cell_of_offSignal hoff p).trans (cell_setCell_same ..), fun q hq => (cell_of_offSignal hoff q).trans (cell_setCell_ne hq ..),
      (mem_of_offSignal hoff :), rbit_txWrite_full, fun h => ?_⟩
    rw [txWrite_fits h]
    exact onlyCell_setCell ..
  · intro n a hlen hwin
    have hexec : exec (.rxWindowRead p n a) s = .next (emit (.value (bytesNat (rxRead p n s).1)) (rxRead p n s).2.2) := by
      show execRxWindowRead p n a s = _
      rw [execRxWindowRead, if_neg (not_not_intro hlen), hwin, if_pos rfl, gate_of_true hon]
    have hoff := rxRead_offSignal p n s
    refine ⟨_, hexec, ?_, ?_, fun h => ?_, ?_⟩
    · exact (cell_congr (by simp) p).trans ((cell_of_offSignal hoff p).trans (cell_setCell_same ..))
    · show (rxRead p n s).2.2.out ++ _ = _
      rw [out_of_offSignal hoff]
      rfl
    · exact (rbit_congr (rget_congr (by simp) _) _).trans (rbit_rxRead_short h)
    · exact (mem_of_offSignal hoff :)
  · intro bs a n hbs hn hwin
    constructor
    · show execTxWindowWrite p bs a s = _
      rw [execTxWindowWrite, if_neg (not_not_intro hbs), hwin, gate_of_true hon]
      rfl
    · show execRxWindowRead p n a s = _
      rw [execRxWindowRead, if_neg (not_not_intro hn), hwin, gate_of_true hon]
      rfl

end Sys2Proof.Proofs

namespace Sys2Proof.Proofs

open Sys2Proof Sys2Proof.Machine Sys2Proof.Claims Sys2Proof.Laws

/-! ### What a cell's actions leave

Apart from cells and registers, an action of a cell gives outputs and signals. -/

/-- The state without its cells and outputs and what a signal writes. -/
def offCells (s : State) : State := { offSignal s with cells := [], out := [] }

theorem offCells_of_offSignal {s t : State} (h : offSignal t = offSignal s) : offCells t = offCells s :=
  congrArg (fun u : State => { u with cells := [], out := [] }) h
theorem mem_of_offCells {s t : State} (h : offCells t = offCells s) : t.mem = s.mem := (congrArg State.mem h :)
theorem facets_of_offCells {s t : State} (h : offCells t = offCells s) : t.facets = s.facets := (congrArg State.facets h :)

theorem setCell_offCells (p : Nat) (x : Cell) (s : State) : offCells (setCell p x s) = offCells s := by simp [offCells, offSignal, offRaised, offLog]
theorem updCell_offCells (p : Nat) (g : Cell → Cell) (s : State) : offCells (updCell p g s) = offCells s := setCell_offCells ..
theorem emit_offCells (o : Out) (s : State) : offCells (emit o s) = offCells s := by simp [offCells, offSignal, offRaised, offLog]
theorem showPads_offCells (p : Nat) (s : State) : offCells (showPads p s) = offCells s := emit_offCells ..
theorem rset_offCells (a : Nat) (v : BitVec 64) (s : State) : offCells (rset a v s) = offCells s := offCells_of_offSignal (rset_offSignal ..)
theorem rput_offCells (a lo w v : Nat) (s : State) : offCells (rput a lo w v s) = offCells s := rset_offCells ..
theorem rsat_offCells (a lo w v : Nat) (s : State) : offCells (rsat a lo w v s) = offCells s := rset_offCells ..
theorem rbitSet_offCells (a i : Nat) (b : Bool) (s : State) : offCells (rbitSet a i b s) = offCells s := offCells_of_offSignal (rbitSet_offSignal ..)
theorem cellStat_offCells (p i : Nat) (s : State) : offCells (cellStat p i s) = offCells s := rbitSet_offCells ..
theorem cellEvent_offCells (p c : Nat) (s : State) : offCells (cellEvent p c s) = offCells s := offCells_of_offSignal (cellEvent_offSignal ..)
theorem latchEvent_offCells (p i : Nat) (s : State) : offCells (latchEvent p i s) = offCells s := offCells_of_offSignal (latchEvent_offSignal ..)
theorem raiseHat_offCells (x : Nat) (s : State) : offCells (raiseHat x s) = offCells s := offCells_of_offSignal (raiseHat_offSignal ..)
theorem raiseSteward_offCells (x : Nat) (s : State) : offCells (raiseSteward x s) = offCells s := offCells_of_offSignal (raiseSteward_offSignal ..)
theorem txTake_offCells (p n : Nat) (s : State) : offCells (txTake p n s).2 = offCells s :=
  (offCells_of_offSignal (txTake_offSignal ..)).trans (setCell_offCells ..)
theorem txWrite_offCells (p : Nat) (bs : List Byte) (s : State) : offCells (txWrite p bs s) = offCells s :=
  (offCells_of_offSignal (txWrite_offSignal ..)).trans (setCell_offCells ..)
theorem rxRead_offCells (p n : Nat) (s : State) : offCells (rxRead p n s).2.2 = offCells s :=
  (offCells_of_offSignal (rxRead_offSignal ..)).trans (setCell_offCells ..)

/-! Outputs, registers and signals leave the cells; outputs and cells leave the registers. -/

@[simp] theorem cell_emit (o : Out) (s : State) (q : Nat) : cell (emit o s) q = cell s q := rfl
@[simp] theorem cell_showPads (p : Nat) (s : State) (q : Nat) : cell (showPads p s) q = cell s q := rfl
@[simp] theorem cell_rset (a : Nat) (v : BitVec 64) (s : State) (q : Nat) : cell (rset a v s) q = cell s q := rfl
@[simp] theorem cell_rput (a lo w v : Nat) (s : State) (q : Nat) : cell (rput a lo w v s) q = cell s q := rfl
@[simp] theorem cell_rbitSet (a i : Nat) (b : Bool) (s : State) (q : Nat) : cell (rbitSet a i b s) q = cell s q := rfl
@[simp] theorem cell_cellStat (p i : Nat) (s : State) (q : Nat) : cell (cellStat p i s) q = cell s q := rfl
@[simp] theorem cell_cellEvent (p c : Nat) (s : State) (q : Nat) : cell (cellEvent p c s) q = cell s q := cell_of_offSignal (cellEvent_offSignal ..) q
@[simp] theorem cell_latchEvent (p i : Nat) (s : State) (q : Nat) : cell (latchEvent p i s) q = cell s q := rfl
@[simp] theorem cell_raiseHat (x : Nat) (s : State) (q : Nat) : cell (raiseHat x s) q = cell s q := cell_of_offSignal (raiseHat_offSignal ..) q
@[simp] theorem cell_raiseSteward (x : Nat) (s : State) (q : Nat) : cell (raiseSteward x s) q = cell s q :=
  cell_of_offSignal (raiseSteward_offSignal ..) q
@[simp] theorem rget_emit (o : Out) (s : State) (a : Nat) : rget (emit o s) a = rget s a := rfl
@[simp] theorem rget_showPads (p : Nat) (s : State) (a : Nat) : rget (showPads p s) a = rget s a := rfl
@[simp] theorem rget_setCell (p : Nat) (x : Cell) (s : State) (a : Nat) : rget (setCell p x s) a = rget s a := rfl
@[simp] theorem rget_updCell (p : Nat) (g : Cell → Cell) (s : State) (a : Nat) : rget (updCell p g s) a = rget s a := rfl

/-! ### A byte enters the RX FIFO -/

theorem rxPush_full_offSignal {p : Nat} {s : State} (h : 256 ≤ (cell s p).rx.length) (b : Byte) : offSignal (rxPush p b s) = offSignal s := by
  unfold rxPush
  dsimp only
  rw [if_pos h]
  exact (cellEvent_offSignal ..).trans (cellStat_offSignal ..)
theorem rxPush_room_offSignal {p : Nat} {s : State} (h : (cell s p).rx.length < 256) (b : Byte) :
    offSignal (rxPush p b s) = offSignal (setCell p { cell s p with rx := (cell s p).rx ++ [b] } s) := by
  unfold rxPush
  dsimp only
  rw [if_neg (by omega)]
  split
  · exact (cellEvent_offSignal ..).trans (latchEvent_offSignal ..)
  · exact latchEvent_offSignal ..
theorem rxPush_offCells (p : Nat) (b : Byte) (s : State) : offCells (rxPush p b s) = offCells s := by
  by_cases h : 256 ≤ (cell s p).rx.length
  · exact offCells_of_offSignal (rxPush_full_offSignal h b)
  · exact (offCells_of_offSignal (rxPush_room_offSignal (by omega) b)).trans (setCell_offCells ..)
theorem cell_rxPush_room {p : Nat} {s : State} (h : (cell s p).rx.length < 256) (b : Byte) :
    cell (rxPush p b s) p = { cell s p with rx := (cell s p).rx ++ [b] } :=
  (cell_of_offSignal (rxPush_room_offSignal h b) p).trans (cell_setCell_same ..)
/-- A byte changes no more of its cell than the RX FIFO, into which it goes where there is room. -/
theorem cell_rxPush (p : Nat) (b : Byte) (s : State) : ∃ q, cell (rxPush p b s) p = { cell s p with rx := q } := by
  by_cases h : 256 ≤ (cell s p).rx.length
  · exact ⟨_, cell_of_offSignal (rxPush_full_offSignal h b) p⟩
  · exact ⟨_, cell_rxPush_room (by omega) b⟩

/-! ### The serializer sends (R336, R341) -/

theorem sendBits_eq (p start n : Nat) (bits : List Bool) (s : State) : ∃ (u : State) (l : Cell → LineSt), offCells u = offCells s ∧ u.cells = s.cells ∧ u.regs = s.regs ∧
    sendBits p start n bits s = updCell p (fun x => { x with txLine := l x }) u := by
  refine ⟨_, fun x => bits.foldl (fun y b => y.after (lineCfg s p) b) x.txLine, ?_, ?_, ?_, rfl⟩
  · exact foldl_keeps (fun _ _ => by split <;> simp [emit_offCells]) _ _
  · exact foldl_keeps (fun _ _ => by split <;> simp) _ _
  · exact foldl_keeps (fun _ _ => by split <;> simp) _ _
theorem sendBits_offCells (p start n : Nat) (bits : List Bool) (s : State) : offCells (sendBits p start n bits s) = offCells s := by
  obtain ⟨u, l, hu, _, _, h⟩ := sendBits_eq p start n bits s
  rw [h, updCell_offCells, hu]
theorem cell_sendBits (p start n : Nat) (bits : List Bool) (s : State) : ∃ l, cell (sendBits p start n bits s) p = { cell s p with txLine := l } := by
  obtain ⟨u, l, _, hc, _, h⟩ := sendBits_eq p start n bits s
  exact ⟨l (cell s p), by rw [h, cell_updCell_same, cell_congr hc]⟩
theorem cell_sendBits_ne {p q : Nat} (hq : q ≠ p) (start n : Nat) (bits : List Bool) (s : State) : cell (sendBits p start n bits s) q = cell s q := by
  obtain ⟨u, l, _, hc, _, h⟩ := sendBits_eq p start n bits s
  rw [h, cell_updCell_ne hq, cell_congr hc]
theorem sendBits_regs (p start n : Nat) (bits : List Bool) (s : State) : (sendBits p start n bits s).regs = s.regs := by
  obtain ⟨u, l, _, _, hr, h⟩ := sendBits_eq p start n bits s
  simp [h, hr, updCell]

/-! ### A burst ends (R341) -/

/-- A burst that ends: what it did until now goes out, and the cell has none. -/
theorem stopBurst_eq {q : Nat} {s : State} {u : Burst} (h : (cell s q).burst = some u) : ∃ v, offCells v = offCells s ∧ v.regs = s.regs ∧
    (∃ l, cell v q = { cell s q with burst := none, txLine := l, entryAt := v.fclk, lineGot := 0 }) ∧ (∀ p, p ≠ q → cell v p = cell s p) ∧
    stopBurst q s = showPads q (cellEvent q 3 v) := by
  unfold stopBurst
  rw [h]
  refine ⟨_, ?_, ?_, ?_, fun p hp => ?_, rfl⟩
  · rw [updCell_offCells, emit_offCells, sendBits_offCells]
  · simp [updCell, sendBits_regs]
  · obtain ⟨l, hl⟩ := cell_sendBits q u.start (s.fclk - u.start) (u.bytes.flatMap (byteBits (cellMsbf s q))) s
    refine ⟨l, ?_⟩
    rw [cell_updCell_same, cell_emit, hl]
    rfl
  · rw [cell_updCell_ne hp, cell_emit, cell_sendBits_ne hp]

theorem stopBurst_offCells (q : Nat) (s : State) : offCells (stopBurst q s) = offCells s := by
  cases h : (cell s q).burst with
  | none => rw [stopBurst, h]
  | some u =>
    obtain ⟨v, hv, _, _, _, ht⟩ := stopBurst_eq h
    rw [ht, showPads_offCells, cellEvent_offCells, hv]
theorem cell_stopBurst_ne {p q : Nat} (hp : p ≠ q) (s : State) : cell (stopBurst q s) p = cell s p := by
  cases h : (cell s q).burst with
  | none => rw [stopBurst, h]
  | some u =>
    obtain ⟨v, _, _, _, hc, ht⟩ := stopBurst_eq h
    rw [ht, cell_showPads, cell_cellEvent, hc p hp]
/-- Of its cell, the end of a burst changes the burst, the line and where the next entry starts. -/
theorem cell_stopBurst (q : Nat) (s : State) : ∃ l e g, cell (stopBurst q s) q = { cell s q with burst := none, txLine := l, entryAt := e, lineGot := g } := by
  cases h : (cell s q).burst with
  | none => exact ⟨_, _, _, by rw [stopBurst, h]; simp [← h]; rfl⟩
  | some u =>
    obtain ⟨v, _, _, ⟨l, hl⟩, _, ht⟩ := stopBurst_eq h
    exact ⟨l, v.fclk, 0, by rw [ht, cell_showPads, cell_cellEvent, hl]⟩
theorem rget_stopBurst {q a : Nat} (h : ∀ o, 0x30 ≤ o → o ≤ 0x40 → a ≠ cellReg q o) (s : State) : rget (stopBurst q s) a = rget s a := by
  cases hb : (cell s q).burst with
  | none => rw [stopBurst, hb]
  | some u =>
    obtain ⟨v, _, hr, _, _, ht⟩ := stopBurst_eq hb
    rw [ht, rget_showPads, rget_cellEvent_ne h, rget_congr hr]

theorem mem_pairCells (s : State) (p : Nat) : p ∈ pairCells s p := by
  unfold pairCells
  split
  · simp
  · split <;> simp
theorem pairCells_lt {s : State} {p q : Nat} (hp : p < 1024) (hq : q ∈ pairCells s p) : q < 1024 := by
  unfold pairCells leaderOf at hq
  grind

theorem endBurst_offCells (p : Nat) (s : State) : offCells (endBurst p s) = offCells s := foldl_keeps (fun _ _ => stopBurst_offCells ..) _ _

/-- What no end of a burst changes of a cell. -/
def offBurst (c : Cell) : Cell := { c with burst := none, txLine := {}, entryAt := 0, lineGot := 0 }

theorem offBurst_stopBurst (q p : Nat) (s : State) : offBurst (cell (stopBurst q s) p) = offBurst (cell s p) := by
  by_cases h : p = q
  · obtain ⟨l, e, g, hc⟩ := cell_stopBurst q s
    rw [h, hc]
    rfl
  · rw [cell_stopBurst_ne h]
theorem offBurst_endBurst (p q : Nat) (s : State) : offBurst (cell (endBurst p s) q) = offBurst (cell s q) :=
  foldl_keeps (part := fun s => offBurst (cell s q)) (fun _ _ => offBurst_stopBurst ..) _ _
theorem burst_foldl_stopBurst {p : Nat} (qs : List Nat) (s : State) (h : p ∈ qs ∨ (cell s p).burst = none) :
    (cell (qs.foldl (fun s q => stopBurst q s) s) p).burst = none := by
  induction qs generalizing s with
  | nil => simpa using h
  | cons q qs ih =>
    refine ih _ ?_
    by_cases hq : p = q
    · obtain ⟨l, e, g, hc⟩ := cell_stopBurst q s
      exact .inr (by rw [hq, hc])
    · rw [cell_stopBurst_ne hq]
      simpa [hq] using h
theorem burst_endBurst (p : Nat) (s : State) : (cell (endBurst p s) p).burst = none := burst_foldl_stopBurst _ _ (.inl (mem_pairCells s p))

/-! ### Bursts on the line -/

theorem bursts_receive (p : Fin 1024) (wave : List (Nat × Bool)) {u : Burst} {s : State} (hon : cellOn s p = true) (hb : (cell s p).burst = some u)
    (hgot : u.got < u.bytes.length) :
    exec (.rxByteReceived p wave) s = .next (burstRx p ((packBits (cellMsbf (advanceTo (u.start + (u.got + 1) * byteFclk s p) s) p) 2 (readBits s p 0 wave (cell s p).lineGot 8).1).getD 0 0) u
      (lineRead p (readBits s p 0 wave (cell s p).lineGot 8).2.1 (readBits s p 0 wave (cell s p).lineGot 8).2.2 (advanceTo (u.start + (u.got + 1) * byteFclk s p) s))) := by
  show execRxByteReceived p wave s = _
  unfold execRxByteReceived
  dsimp only
  rw [hb]
  exact gateAt_of_true (by simp [hgot, hon]) ..

/-- A byte of a burst: kept inside the range of LB_CFG, else dropped. -/
theorem burstRx_offCells (p : Nat) (b : Byte) (u : Burst) (s : State) : offCells (burstRx p b u s) = offCells s := by
  unfold burstRx
  dsimp only
  split
  · rw [rxPush_offCells, updCell_offCells]
  · rw [updCell_offCells]
theorem cell_burstRx (p : Nat) (b : Byte) (u : Burst) (s : State) : ∃ q, cell (burstRx p b u s) p = { cell s p with burst := some { u with got := u.got + 1 }, rx := q } := by
  unfold burstRx
  dsimp only
  split
  · obtain ⟨q, hq⟩ := cell_rxPush p b (updCell p (fun c => { c with burst := some { u with got := u.got + 1 } }) s)
    exact ⟨q, by rw [hq, cell_updCell_same]⟩
  · exact ⟨_, cell_updCell_same ..⟩
theorem cell_burstRx_inside {p : Nat} {u : Burst} {s : State} (b : Byte) (hin : fld (rget s (cellReg p 0x18)) 32 8 ≤ u.got ∧
    u.got < fld (rget s (cellReg p 0x18)) 32 8 + fld (rget s (cellReg p 0x18)) 16 9) (hroom : (cell s p).rx.length < 256) :
    (cell (burstRx p b u s) p).rx = (cell s p).rx ++ [b] := by
  unfold burstRx
  dsimp only
  rw [if_pos hin, cell_rxPush_room (by simpa using hroom)]
  simp
theorem cell_burstRx_outside {p : Nat} {u : Burst} {s : State} (b : Byte) (hin : ¬ (fld (rget s (cellReg p 0x18)) 32 8 ≤ u.got ∧
    u.got < fld (rget s (cellReg p 0x18)) 32 8 + fld (rget s (cellReg p 0x18)) 16 9)) : (cell (burstRx p b u s) p).rx = (cell s p).rx := by
  unfold burstRx
  dsimp only
  rw [if_neg hin]
  simp

theorem cellBursts : CellBursts := by
  intro p wave u s hon hb
  refine ⟨fun hgot => ?_, fun hsent htx => ?_, fun hdone => ?_⟩
  · intro v lb inside r
    refine ⟨_, bursts_receive p wave hon hb hgot, mem_of_offCells ((burstRx_offCells ..).trans (updCell_offCells ..)), ?_⟩
    obtain ⟨q, hq⟩ := cell_burstRx p ((packBits (cellMsbf v p) 2 r.1).getD 0 0) u (lineRead p r.2.1 r.2.2 v)
    refine ⟨by rw [hq], by rw [hq]; simp [lineRead], by rw [hq]; simp [lineRead], by rw [hq]; simp [lineRead], fun hin hroom => ?_, fun hout => ?_⟩
    · rw [cell_burstRx_inside (s := lineRead p r.2.1 r.2.2 v) _ hin (by simpa [lineRead] using hroom)]
      simp [lineRead, v, r]
    · rw [cell_burstRx_outside (s := lineRead p r.2.1 r.2.2 v) _ hout]
      simp [lineRead]
  · intro v
    have hexec : exec (.txFifoByteLeaves p) s = .next (txTake p 1 (updCell p (fun c => { c with burst := some { u with sent := u.sent + 1 } }) v)).2 := by
      show execTxFifoByteLeaves p s = _
      unfold execTxFifoByteLeaves
      dsimp only
      rw [hb]
      exact gateAt_of_true (by simp [hsent, htx, hon]) ..
    exact ⟨_, hexec, by rw [cell_txTake]; simp, by rw [cell_txTake]; simp, by rw [cell_txTake]; simp,
      mem_of_offCells ((txTake_offCells ..).trans (updCell_offCells ..))⟩
  · intro v
    have hexec : exec (.burstEnd p) s = .next (endBurst p v) := by
      show execBurstEnd p s = _
      unfold execBurstEnd
      rw [hb]
      exact gateAt_of_true (by simp [hdone, hon]) ..
    have hkeep := offBurst_endBurst p p v
    exact ⟨_, hexec, burst_endBurst .., (congrArg Cell.rx hkeep :), (congrArg Cell.tx hkeep :), mem_of_offCells (endBurst_offCells ..)⟩

/-- Settles O43. -/
theorem cellData : Obligations.CellData := ⟨cellFifos, cellBursts⟩

end Sys2Proof.Proofs

namespace Sys2Proof.Proofs

open Sys2Proof Sys2Proof.Machine Sys2Proof.Claims Sys2Proof.Laws

/-! ### Pads, launches and comparators (R335, R342, R344, R345, R349) -/

theorem stopCell_offCells (p : Nat) (s : State) : offCells (stopCell p s) = offCells s := by
  unfold stopCell
  rw [showPads_offCells, rbitSet_offCells, updCell_offCells, endBurst_offCells]
theorem rbit_rbitSet_off {a b : Nat} (h : b ≠ a) (i : Nat) (x : Bool) (s : State) (j : Nat) : rbit (rbitSet a i x s) b j = rbit s b j :=
  rbit_congr (rget_rbitSet_ne h ..) j
theorem rbit_cellStat_off {p a : Nat} (h : a ≠ cellReg p 0x30) (i : Nat) (s : State) (j : Nat) : rbit (cellStat p i s) a j = rbit s a j :=
  rbit_rbitSet_off h ..
theorem cellEn_stopCell (p : Nat) (s : State) : cellEn (stopCell p s) p = false := by
  unfold cellEn stopCell
  rw [rbit_congr (rget_showPads ..)]
  exact rbit_rbitSet_same (by decide) ..
theorem rget_foldl_stopBurst {a : Nat} {qs : List Nat} (h : ∀ q ∈ qs, ∀ o, 0x30 ≤ o → o ≤ 0x40 → a ≠ cellReg q o) (s : State) :
    rget (qs.foldl (fun s q => stopBurst q s) s) a = rget s a := by
  induction qs generalizing s with
  | nil => rfl
  | cons q qs ih => rw [List.foldl_cons, ih (fun q' hq' => h q' (by simp [hq'])), rget_stopBurst (h q (by simp))]
/-- The end of a cell's work writes no register outside the cells. -/
theorem rget_stopCell {p a : Nat} (hp : p < 1024) (h : ∀ q o, q < 1024 → o < 0x400 → a ≠ cellReg q o) (s : State) :
    rget (stopCell p s) a = rget s a := by
  unfold stopCell
  dsimp only
  rw [rget_showPads, rget_rbitSet_ne (h _ _ hp (by decide)), rget_updCell]
  exact rget_foldl_stopBurst (fun q hq o h1 h2 => h q o (pairCells_lt hp hq) (by omega)) s

theorem rget_raiseSteward (x : Nat) (s : State) (a : Nat) : rget (raiseSteward x s) a = rget s a := rget_congr (raiseSteward_regs ..) a
theorem padFault_offCells (p : Nat) (s : State) : offCells (padFault p s) = offCells s := by
  unfold padFault padsOff
  simp only [raiseSteward_offCells, latchEvent_offCells, cellEvent_offCells, cellStat_offCells, showPads_offCells, updCell_offCells, stopCell_offCells]

theorem rbit_padFault {i : Nat} (hi : i < 48) (p : Nat) (s : State) :
    rbit (padFault p s) (cellReg p 0x30) i = rbit (cellStat p 8 (cellStat p 7 (padsOff p (stopCell p s)))) (cellReg p 0x30) i := by
  unfold padFault
  dsimp only
  rw [rbit_congr (rget_raiseSteward ..), rbit_congr (rget_latchEvent ..), rbit_cellEvent hi]
theorem cellEn_padFault (p : Nat) (s : State) : cellEn (padFault p s) p = false := by
  have hoff : cellReg p 0 ≠ cellReg p 0x30 := by simp
  unfold cellEn padFault padsOff
  dsimp only
  rw [rbit_congr (rget_raiseSteward ..), rbit_congr (rget_latchEvent ..), rbit_congr (rget_cellEvent_low (by decide) ..), rbit_cellStat_off hoff,
    rbit_cellStat_off hoff, rbit_congr (rget_showPads ..), rbit_congr (rget_updCell ..)]
  exact cellEn_stopCell p s

theorem launch0_offCells (p : Nat) (s : State) : offCells (launch0 p s) = offCells s := by
  unfold launch0
  dsimp only
  split
  · rfl
  split
  · rfl
  split
  · rw [updCell_offCells, rsat_offCells]
  split
  · rfl
  · refine foldl_keeps (fun s q => ?_) _ _
    unfold startBurst
    dsimp only
    rw [showPads_offCells, updCell_offCells]
    split
    · exact cellStat_offCells ..
    · rfl
theorem launch1_offCells (p : Nat) (s : State) : offCells (launch1 p s) = offCells s := by
  unfold launch1 setGpio
  dsimp only
  split
  · rfl
  split <;> simp only [showPads_offCells, updCell_offCells, rbitSet_offCells]

/-- A pad has a level: in the cell and in its bit of PRT_STAT. -/
def padMoved (p : Nat) (b level : Bool) (s : State) : State :=
  rbitSet (cellReg p 0x30) (if b then 10 else 9) level (updCell p (fun c => if b then { c with padB := level } else { c with padA := level }) s)
theorem padEdge_eq (p : Nat) (b level : Bool) (s : State) : padEdge p b level s = cellEvent p (if b then 11 else 10)
    (if presMatch (padMoved p b level s) p != presMatch s p then updCell p (fun c => { c with attSince := (padMoved p b level s).fclk }) (padMoved p b level s)
      else padMoved p b level s) := rfl
theorem padEdge_offCells (p : Nat) (b level : Bool) (s : State) : offCells (padEdge p b level s) = offCells s := by
  rw [padEdge_eq, cellEvent_offCells, apply_ite offCells, updCell_offCells, ite_self, padMoved, rbitSet_offCells, updCell_offCells]
theorem rbit_padEdge (p : Nat) (b level : Bool) (s : State) : rbit (padEdge p b level s) (cellReg p 0x30) (if b then 10 else 9) = level := by
  rw [padEdge_eq, rbit_cellEvent (by split <;> decide), apply_ite (rbit · _ _), rbit_congr (rget_updCell ..), ite_self]
  exact rbit_rbitSet_same (by split <;> decide) ..
theorem pads_padEdge (p : Nat) (b level : Bool) (s : State) : (cell (padEdge p b level s) p).padA = (if b then (cell s p).padA else level) ∧
    (cell (padEdge p b level s) p).padB = (if b then level else (cell s p).padB) := by
  rw [padEdge_eq, cell_cellEvent]
  cases b <;> split <;> simp [padMoved]

theorem padEdge_takes (p : Fin 1024) (b level : Bool) (s : State) (hon : cellOn s p = true) (h : (if b then (cell s p).padB else (cell s p).padA) ≠ level) :
    exec (.padEdge p b level) s = .next (padEdge p b level s) := gate_of_true (by simpa [hon] using h) _

theorem launchComparator_takes {p : Fin 1024} {k : Fin 2} {s : State} (hon : cellOn s p = true) (h : rbit s (cellReg p 0x58) (2 * k.val) = true) :
    let u := advanceTick (rget s (cellReg p (0x48 + 8 * k.val))).toNat s
    ∃ v, offCells v = offCells u ∧ (rbit u (cellReg p 0x58) (2 * k.val + 1) = false → v = raiseHat (0x1800 + 2 * p.val + k.val) u) ∧
      exec (.launchComparator p k) s = .next (rbitSet (cellReg p 0x58) (2 * k.val) false v) := by
  intro u
  have hexec : exec (.launchComparator p k) s = execLaunchComparator p k s := rfl
  rw [hexec, execLaunchComparator, if_neg (by simp [h, hon])]
  refine ⟨_, ?_, fun hact => ?_, rfl⟩
  · split
    · split
      · rw [launch0_offCells, raiseHat_offCells]
      · rw [launch1_offCells, raiseHat_offCells]
    · exact raiseHat_offCells ..
  · exact if_neg (by simp [hact, u])

theorem cellEvents : CellEvents := by
  intro p s hon
  refine ⟨?_, fun h => gate_of_true h _, fun level h => ?_, fun level h => ?_, fun f v h => ?_, fun k h => ?_, fun h5 h11 => ?_⟩
  · refine ⟨_, gate_of_true hon _, ?_, ?_, ?_, ?_, mem_of_offCells (padFault_offCells ..)⟩
    · exact cellEn_padFault ..
    · simp [padFault, padsOff]
    · exact (rbit_padFault (by decide) ..).trans ((rbit_rbitSet_ne (by decide) ..).trans (rbit_rbitSet_same (by decide) ..))
    · exact (rbit_padFault (by decide) ..).trans (rbit_rbitSet_same (by decide) ..)
  · have hpads := pads_padEdge p false level s
    exact ⟨_, padEdge_takes p false level s hon h, hpads.1, hpads.2, rbit_padEdge p false level s, mem_of_offCells (padEdge_offCells ..)⟩
  · have hpads := pads_padEdge p true level s
    exact ⟨_, padEdge_takes p true level s hon h, hpads.2, hpads.1, rbit_padEdge p true level s, mem_of_offCells (padEdge_offCells ..)⟩
  · show execLaunchPulseEnd p s = _
    unfold execLaunchPulseEnd
    rw [h]
    exact gateAt_of_true hon ..
  · obtain ⟨v, hv, hidle, hexec⟩ := launchComparator_takes hon h
    exact ⟨_, hexec, rbit_rbitSet_same (by omega) .., mem_of_offCells ((rbitSet_offCells ..).trans hv), fun hact => by rw [hidle hact]⟩
  · have hexec : exec (.attachChange p) s = .next (latchEvent p 7 (cellEvent p (if presMatch s p then 6 else 7) (rbitSet (cellReg p 0x30) 11 (presMatch s p)
        (advanceTo ((cell s p).attSince + 2 ^ rfld s (cellReg p 0) 12 4 * 1200) s)))) := by
      show execAttachChange p s = _
      unfold execAttachChange
      exact gateAt_of_true (by simpa [h5, hon] using h11) _ _ _
    refine ⟨_, hexec, ?_, ?_, ?_⟩
    · rw [rbit_congr (rget_latchEvent ..), rbit_cellEvent (by decide)]
      exact rbit_rbitSet_same (by decide) ..
    · exact mem_of_offCells (by rw [latchEvent_offCells, cellEvent_offCells, rbitSet_offCells])
    · simp

/-! ### Measurements (R346, R347, R350) -/

theorem tdrFree_congr {s t : State} (h : s.cells = t.cells) (p : Nat) : tdrFree s p = tdrFree t p := by simp only [tdrFree, cell_congr h]

/-- The fields of a write to PRT_SENSE. -/
def senseFields (p : Nat) (v : BitVec 64) (s : State) : State :=
  rset (cellReg p 0x60) (setFld (rget s (cellReg p 0x60) &&& 0x4000000000000000) 48 14 (fld v 48 14)) s
theorem rbit_senseFields (p : Nat) (v : BitVec 64) (s : State) : rbit (senseFields p v s) (cellReg p 0x60) 62 = rbit s (cellReg p 0x60) 62 := by
  rw [rbit, senseFields, rget_rset_same, bit_setFld_apart _ (by omega)]
  simp [bit, rbit]
theorem rbit_senseFields_ne {p a : Nat} (h : a ≠ cellReg p 0x60) (v : BitVec 64) (s : State) (i : Nat) : rbit (senseFields p v s) a i = rbit s a i :=
  rbit_rset_ne h ..

/-- A start that PRT_SENSE refuses. -/
def senseRefused (p : Nat) (v : BitVec 64) (s : State) : Bool :=
  rbit s (cellReg p 0x60) 62 || decide (5 < fld v 56 4) || fld v 60 2 == 3 || (fld v 56 4 == 5 && fld v 60 2 == 2)
    || (fld v 56 4 != 0 && (cellEn s p || rbit s (cellReg p 0) 6 || s.locks.cells.contains p))
/-- The fields are written, and the result of a cable measurement waits. -/
def senseReady (p : Nat) (v : BitVec 64) (s : State) : State :=
  if fld v 56 4 = 5 then rbitSet (cellReg p 0x70) 63 false (senseFields p v s) else senseFields p v s
theorem senseStart_eq (p : Nat) (v : BitVec 64) (s : State) : senseStart p v s =
    if !bit v 63 then senseFields p v s else if senseRefused p v (senseFields p v s) then cellStat p 6 (senseFields p v s)
    else updCell p (fun c => { c with sense := some ((senseReady p v s).fclk, v), tdr := fld v 56 4 == 5 && tdrFree (senseReady p v s) p })
      (rbitSet (cellReg p 0x60) 62 true (senseReady p v s)) := by
  unfold senseStart senseRefused senseReady senseFields
  rfl
theorem senseReady_fclk (p : Nat) (v : BitVec 64) (s : State) : (senseReady p v s).fclk = s.fclk := by
  unfold senseReady senseFields
  split <;> simp
theorem senseReady_cells (p : Nat) (v : BitVec 64) (s : State) : (senseReady p v s).cells = s.cells := by
  unfold senseReady senseFields
  split <;> simp
theorem senseReady_offCells (p : Nat) (v : BitVec 64) (s : State) : offCells (senseReady p v s) = offCells s := by
  unfold senseReady senseFields
  split
  · rw [rbitSet_offCells, rset_offCells]
  · exact rset_offCells ..
theorem senseRefused_good {p : Nat} {v : BitVec 64} {s : State} (hbusy : rbit s (cellReg p 0x60) 62 = false) (hmode : fld v 56 4 ≤ 5) (hpad : fld v 60 2 ≠ 3)
    (hboth : ¬ (fld v 56 4 = 5 ∧ fld v 60 2 = 2)) (hlock : p ∉ s.locks.cells) (hfree : fld v 56 4 = 0 ∨ (cellEn s p = false ∧ rbit s (cellReg p 0) 6 = false)) :
    senseRefused p v (senseFields p v s) = false := by
  have hlocks : (senseFields p v s).locks = s.locks := by simp [senseFields]
  have hoff : cellReg p 0 ≠ cellReg p 0x60 := by simp
  unfold senseRefused
  rw [rbit_senseFields, cellEn, rbit_senseFields_ne hoff, rbit_senseFields_ne hoff, hlocks]
  simp only [hbusy, Bool.or_eq_false_iff, decide_eq_false_iff_not, Nat.not_lt, beq_eq_false_iff_ne, Bool.and_eq_false_iff]
  refine ⟨⟨⟨⟨trivial, hmode⟩, hpad⟩, by simpa [Classical.or_iff_not_imp_left] using hboth⟩, ?_⟩
  rcases hfree with h | ⟨h1, h2⟩
  · exact .inl (by simp [h])
  · exact .inr (by simpa [cellEn] using ⟨⟨h1, h2⟩, hlock⟩)

theorem prtSenseStart_takes {p : Fin 1024} {v : BitVec 64} {s : State} (hon : cellOn s p = true) (hlock : p.val ∉ s.locks.cells) :
    exec (.prtSenseStart p v) s = .next (senseStart p (v ||| 0x8000000000000000) s) := by
  show execPrtSenseStart p v s = _
  unfold execPrtSenseStart
  rw [gate_of_true hon, cellWrite, if_neg (by simp [hlock, ownedReg])]
  rfl

/-! #### The end of a measurement -/

/-- A measurement is over: BUSY falls, and the request and the reflectometer are free. -/
def senseOver (p : Nat) (s : State) : State := rbitSet (cellReg p 0x60) 62 false (updCell p (fun c => { c with sense := none, tdr := false }) s)
/-- The voltages of the pads that PAD selects. -/
def sensePut (p pad : Nat) (a b : Int) (s : State) : State :=
  let s := if pad = 1 then s else rput (cellReg p 0x68) 0 16 (wrapN 16 a) s
  if pad = 0 then s else rput (cellReg p 0x68) 32 16 (wrapN 16 b) s
/-- The voltages and classes of both pads. -/
def senseProbe (p : Nat) (m : Measured) (vio : Int) (s : State) : State :=
  let a := cellReg p 0x68
  let s := rput a 32 16 (wrapN 16 m.v0b) (rput a 0 16 (wrapN 16 m.v0a) s)
  rput a 28 4 (probeClass vio m.v0b m.v1b m.v2b) (rput a 24 4 (probeClass vio m.v0a m.v1a m.v2a) s)

/-- What a measurement shows, by its mode. -/
def senseShown (mode p : Nat) (v : BitVec 64) (m : Measured) (vio : Int) (s : State) : State :=
  match mode with
  | 0 => sensePut p (fld v 60 2) m.v0a m.v0b s
  | 1 | 2 => sensePut p (fld v 60 2) m.v1a m.v1b s
  | 3 => sensePut p (fld v 60 2) m.v2a m.v2b s
  | 4 => senseProbe p m vio s
  | _ => tdrNext p (rset (cellReg p 0x70) (tdrResult m (fld v 48 8)) s)
theorem senseResult_eq (p : Nat) (v : BitVec 64) (m : Measured) (s : State) :
    senseResult p v m s = senseShown (fld v 56 4) p v m (rfld s (grpReg (groupOf p) 8) 0 16) (senseOver p s) := by
  unfold senseResult senseShown sensePut senseProbe senseOver
  generalize fld v 56 4 = mode
  match mode with
  | 0 | 1 | 2 | 3 | 4 | _ + 5 => rfl

/-- What a step of the result leaves: the cell, and every register but PRT_VOLT and PRT_TDR. -/
def sensed (p : Nat) (s t : State) : Prop :=
  cell t p = cell s p ∧ offCells t = offCells s ∧ rget t (cellReg p 0x60) = rget s (cellReg p 0x60)

theorem sensed_rput (p lo w v : Nat) (s : State) : sensed p s (rput (cellReg p 0x68) lo w v s) :=
  ⟨rfl, rput_offCells .., rget_rput_ne (by simp) ..⟩
theorem sensed_rset_tdr (p : Nat) (v : BitVec 64) (s : State) : sensed p s (rset (cellReg p 0x70) v s) :=
  ⟨rfl, rset_offCells .., rget_rset_ne (by simp) ..⟩
theorem cell_senseOver (p : Nat) (s : State) : cell (senseOver p s) p = { cell s p with sense := none, tdr := false } := by
  rw [senseOver, cell_rbitSet, cell_updCell_same]
theorem sensed_trans {p : Nat} {s t u : State} : sensed p s t → sensed p t u → sensed p s u
  | ⟨hc, ho, hr⟩, ⟨hc', ho', hr'⟩ => ⟨hc'.trans hc, ho'.trans ho, hr'.trans hr⟩
theorem sensed_sensePut (p pad : Nat) (a b : Int) (s : State) : sensed p s (sensePut p pad a b s) := by
  unfold sensePut
  dsimp only
  split <;> split
  · exact ⟨rfl, rfl, rfl⟩
  · exact sensed_rput ..
  · exact sensed_rput ..
  · exact sensed_trans (sensed_rput ..) (sensed_rput ..)
theorem sensed_senseProbe (p : Nat) (m : Measured) (vio : Int) (s : State) : sensed p s (senseProbe p m vio s) :=
  sensed_trans (sensed_trans (sensed_trans (sensed_rput ..) (sensed_rput ..)) (sensed_rput ..)) (sensed_rput ..)
/-- The reflectometer goes to another cell than one that waits for nothing. -/
theorem sensed_tdrNext {p : Nat} {s : State} (h : (cell s p).sense = none) : sensed p s (tdrNext p s) := by
  unfold tdrNext
  split
  · rename_i i hi
    have hwait := List.find?_some hi
    have hne : p ≠ p / 16 * 16 + i := by
      intro hp
      rw [← hp, h] at hwait
      simp at hwait
    exact ⟨cell_updCell_ne hne .., updCell_offCells .., rfl⟩
  · exact ⟨rfl, rfl, rfl⟩
theorem tdrNext_rget (p : Nat) (s : State) (a : Nat) : rget (tdrNext p s) a = rget s a := by
  unfold tdrNext
  split <;> rfl
theorem sensed_senseShown (mode : Nat) {p : Nat} (v : BitVec 64) (m : Measured) (vio : Int) {s : State} (h : (cell s p).sense = none) :
    sensed p s (senseShown mode p v m vio s) := by
  match mode with
  | 0 | 1 | 2 | 3 => exact sensed_sensePut ..
  | 4 => exact sensed_senseProbe ..
  | _ + 5 =>
    have hwaits : (cell (rset (cellReg p 0x70) (tdrResult m (fld v 48 8)) s) p).sense = none := by rw [cell_rset, h]
    exact sensed_trans (sensed_rset_tdr ..) (sensed_tdrNext hwaits)

theorem rfld_sensePut_a {pad : Nat} (h : pad ≠ 1) (p : Nat) (a b : Int) (s : State) : rfld (sensePut p pad a b s) (cellReg p 0x68) 0 16 = wrapN 16 a := by
  have hsame : rfld (rput (cellReg p 0x68) 0 16 (wrapN 16 a) s) (cellReg p 0x68) 0 16 = wrapN 16 a := by
    rw [rfld_rput_same (by decide), Nat.mod_eq_of_lt (wrapN_lt ..)]
  unfold sensePut
  dsimp only
  rw [if_neg h]
  split
  · exact hsame
  · rw [rfld_rput_apart (by omega), hsame]
theorem rfld_sensePut_b {pad : Nat} (h : pad ≠ 0) (p : Nat) (a b : Int) (s : State) : rfld (sensePut p pad a b s) (cellReg p 0x68) 32 16 = wrapN 16 b := by
  unfold sensePut
  dsimp only
  rw [if_neg h, rfld_rput_same (by decide), Nat.mod_eq_of_lt (wrapN_lt ..)]

theorem cellMeasurement : CellMeasurement := by
  intro p v m s hon w
  have hw : bit w 63 = true := by simp [bit, w]
  have htakes (hlock : p.val ∉ s.locks.cells) : exec (.prtSenseStart p v) s = .next (senseStart p w s) := prtSenseStart_takes hon hlock
  clear_value w
  refine ⟨fun hlock hbusy hmode hpad hboth hfree => ?_, fun f r hs htdr => ?_⟩
  · refine ⟨_, htakes hlock, ?_⟩
    rw [senseStart_eq, if_neg (by simp [hw]), if_neg (by simp [senseRefused_good hbusy hmode hpad hboth hlock hfree])]
    refine ⟨?_, ?_, mem_of_offCells ?_⟩
    · rw [cell_updCell_same, cell_rbitSet, cell_congr (senseReady_cells ..), senseReady_fclk, tdrFree_congr (senseReady_cells ..)]
    · rw [rbit_congr (rget_updCell ..)]
      exact rbit_rbitSet_same (by decide) ..
    · rw [updCell_offCells, rbitSet_offCells, senseReady_offCells]
  · intro u
    have hexec : exec (.measurementDone p m) s = .next (senseResult p r m u) := by
      show execMeasurementDone p m s = _
      unfold execMeasurementDone
      rw [hs]
      exact gateAt_of_true (by simpa [hon] using htdr) _ _ _
    have hidle : (cell (senseOver p u) p).sense = none := by rw [cell_senseOver]
    obtain ⟨hcell, hoff, hreg⟩ := sensed_senseShown (fld r 56 4) r m (rfld u (grpReg (groupOf p) 8) 0 16) hidle
    rw [senseResult_eq] at hexec
    refine ⟨_, hexec, hcell.trans (cell_senseOver ..), ?_, ?_, fun h0 hpad => ?_, fun h0 hpad => ?_, fun h5 => ?_⟩
    · rw [rbit_congr hreg]
      exact rbit_rbitSet_same (by decide) ..
    · exact mem_of_offCells (hoff.trans ((rbitSet_offCells ..).trans (updCell_offCells ..)))
    · rw [h0]
      exact rfld_sensePut_a hpad ..
    · rw [h0]
      exact rfld_sensePut_b hpad ..
    · rw [h5]
      exact (tdrNext_rget ..).trans (rget_rset_same ..)

/-- Settles O44. -/
theorem cellInputs : Obligations.CellInputs := ⟨cellEvents, cellMeasurement⟩

end Sys2Proof.Proofs

namespace Sys2Proof.Proofs

open Sys2Proof Sys2Proof.Machine Sys2Proof.Claims Sys2Proof.Laws

/-! ### Port groups (R331, R332, R334) -/

theorem grpReg_ne_cellReg {g o q o' : Nat} (hq : q < 1024) (ho : o' < 0x400) : grpReg g o ≠ cellReg q o' := by
  simp only [grpReg, cellReg, brim]
  omega
theorem grpReg_inj {g o o' : Nat} : grpReg g o = grpReg g o' ↔ o = o' := by
  simp only [grpReg, brim]
  omega

theorem mem_groupCells {g p : Nat} : p ∈ groupCells g ↔ 128 * g ≤ p ∧ p < 128 * g + 128 := by
  simp only [groupCells, List.mem_map, List.mem_range]
  exact ⟨fun ⟨i, hi, h⟩ => by omega, fun ⟨h1, h2⟩ => ⟨p - 128 * g, by omega, by omega⟩⟩

theorem padsOff_offCells (p : Nat) (s : State) : offCells (padsOff p s) = offCells s := by rw [padsOff, showPads_offCells, updCell_offCells]
theorem stopGroup_offCells (g : Nat) (s : State) : offCells (stopGroup g s) = offCells s := by
  refine (foldl_keeps (fun s p => ?_) _ _).trans (rbitSet_offCells ..)
  split
  · exact stopCell_offCells ..
  · rfl
theorem foldl_padsOff_offCells (ps : List Nat) (s : State) : offCells (ps.foldl (fun s p => padsOff p s) s) = offCells s :=
  foldl_keeps (fun _ _ => padsOff_offCells ..) _ _

/-- Stopping a group writes of the group's registers only the enable. -/
theorem rget_stopGroup {g : Nat} (hg : g < 8) (o : Nat) (s : State) : rget (stopGroup g s) (grpReg g o) = rget (rbitSet (grpReg g 0) 0 false s) (grpReg g o) := by
  have hstep (ps : List Nat) (hps : ∀ p ∈ ps, p < 1024) (s : State) :
      rget (ps.foldl (fun s p => if cellEn s p then stopCell p s else s) s) (grpReg g o) = rget s (grpReg g o) := by
    induction ps generalizing s with
    | nil => rfl
    | cons p ps ih =>
      rw [List.foldl_cons, ih (fun q hq => hps q (by simp [hq]))]
      split
      · exact rget_stopCell (hps p (by simp)) (fun _ _ hq ho => grpReg_ne_cellReg hq ho) s
      · rfl
  exact hstep _ (fun p hp => by have := mem_groupCells.mp hp; omega) _
theorem rget_foldl_padsOff (ps : List Nat) (s : State) (a : Nat) : rget (ps.foldl (fun s p => padsOff p s) s) a = rget s a :=
  foldl_keeps (part := (rget · a)) (fun s p => (rfl : rget (padsOff p s) a = rget s a)) _ _
theorem hiz_padsOff (p q : Nat) (s : State) : (cell (padsOff p s) q).hiz = (decide (q = p) || (cell s q).hiz) := by
  by_cases h : q = p
  · simp [padsOff, h]
  · simp [padsOff, h, cell_updCell_ne h]
theorem hiz_foldl_padsOff (ps : List Nat) (s : State) {p : Nat} (h : p ∈ ps ∨ (cell s p).hiz = true) :
    (cell (ps.foldl (fun s p => padsOff p s) s) p).hiz = true := by
  induction ps generalizing s with
  | nil => simpa using h
  | cons q ps ih =>
    refine ih _ ?_
    rw [hiz_padsOff]
    simp only [List.mem_cons, Bool.or_eq_true, decide_eq_true_eq] at h ⊢
    tauto

/-- The sources of a group's blockers (R332). -/
def raiseGroup (g : Nat) (s : State) : State := (List.range 8).foldl (fun s i => raiseSteward (8 * g + i) s) s
theorem raiseGroup_offSignal (g : Nat) (s : State) : offSignal (raiseGroup g s) = offSignal s := foldl_keeps (fun _ _ => raiseSteward_offSignal ..) _ _
theorem rget_raiseGroup (g : Nat) (s : State) (a : Nat) : rget (raiseGroup g s) a = rget s a :=
  foldl_keeps (part := (rget · a)) (fun _ _ => rget_raiseSteward ..) _ _

/-- A sample of VIO is shown. -/
def vioShown (g mv : Nat) (s : State) : State := rbitSet (grpReg g 8) 19 (vioIn mv (rbit s (grpReg g 0) 1)) (rput (grpReg g 8) 0 16 mv s)
/-- A group that a sample stops, its pads off. -/
def vioTripped (g mv : Nat) (s : State) : State :=
  rbitSet (grpReg g 8) (if (if rbit s (grpReg g 0) 1 then 1980 else 3600) < mv then 17 else 16) true
    ((groupCells g).foldl (fun s p => padsOff p s) (stopGroup g (vioShown g mv s)))
theorem vioSample_eq (g mv : Nat) (s : State) : vioSample g mv s =
    if !vioIn mv (rbit s (grpReg g 0) 1) && !rbit s (grpReg g 8) 19 && rbit s (grpReg g 0) 0 then raiseGroup g (vioTripped g mv s) else vioShown g mv s := rfl

theorem vioTripped_offCells (g mv : Nat) (s : State) : offCells (vioTripped g mv s) = offCells s := by
  unfold vioTripped vioShown
  rw [rbitSet_offCells, foldl_padsOff_offCells, stopGroup_offCells, rbitSet_offCells, rput_offCells]
theorem rbit_vioTripped {g : Nat} (hg : g < 8) (mv : Nat) (s : State) : rbit (vioTripped g mv s) (grpReg g 0) 0 = false := by
  unfold vioTripped
  rw [rbit_rbitSet_off (by simp [grpReg_inj]), rbit_congr (rget_foldl_padsOff ..), rbit_congr (rget_stopGroup hg ..)]
  exact rbit_rbitSet_same (by decide) ..
theorem rfld_rbitSet_apart {lo w i : Nat} (h : i < lo ∨ lo + w ≤ i) (a : Nat) (b : Bool) (s : State) : rfld (rbitSet a i b s) a lo w = rfld s a lo w := by
  rw [rfld, rget_rbitSet_same, fld_setBit_apart _ _ h, rfld]
theorem rfld_vioTripped {g mv : Nat} (hg : g < 8) (hmv : mv < 2 ^ 16) (s : State) : rfld (vioTripped g mv s) (grpReg g 8) 0 16 = mv := by
  have hoff : grpReg g 8 ≠ grpReg g 0 := by simp [grpReg_inj]
  unfold vioTripped vioShown
  rw [rfld_rbitSet_apart (by split <;> split <;> omega), rfld_congr (rget_foldl_padsOff ..), rfld_congr (rget_stopGroup hg ..), rfld_congr (rget_rbitSet_ne hoff ..),
    rfld_rbitSet_apart (by omega), rfld_rput_same (by decide), Nat.mod_eq_of_lt hmv]

theorem vioSample_takes {g : Fin 8} (mv : BitVec 16) {s : State} (h : groupUp s g = true) :
    exec (.vioSample g mv) s = .next (vioSample g mv.toNat (advanceTo (nextMultiple sampleFclk s.fclk) s)) := by
  show execVioSample g mv s = _
  exact gateAt_of_true h _ _ _

theorem groupSamples (g : Fin 8) (mv : BitVec 16) (s : State) (hup : groupUp s g = true) :
    let u := advanceTo (nextMultiple sampleFclk s.fclk) s
    let ok := vioIn mv.toNat (rbit u (grpReg g 0) 1)
    (ok = true ∨ rbit u (grpReg g 8) 19 = true ∨ rbit u (grpReg g 0) 0 = false →
      exec (.vioSample g mv) s = .next (rbitSet (grpReg g 8) 19 ok (rput (grpReg g 8) 0 16 mv.toNat u))) ∧
    (ok = false → rbit u (grpReg g 8) 19 = false → rbit u (grpReg g 0) 0 = true →
      ∃ t, exec (.vioSample g mv) s = .next t ∧ rbit t (grpReg g 0) 0 = false ∧ rfld t (grpReg g 8) 0 16 = mv.toNat ∧
        (∀ i, i < 128 → (cell t (128 * g + i)).hiz = true) ∧ t.mem = u.mem) := by
  intro u ok
  rw [vioSample_takes mv hup, vioSample_eq]
  refine ⟨fun h => ?_, fun h1 h2 h3 => ⟨_, rfl, ?_⟩⟩
  · rw [if_neg (by rcases h with h | h | h <;> simp [ok, u] at h <;> simp [h])]
    rfl
  · rw [if_pos (by simp [ok, u] at h1 h2 h3; simp [h1, h2, h3]), rbit_congr (rget_raiseGroup ..), rfld_congr (rget_raiseGroup ..)]
    have hoff := raiseGroup_offSignal g (vioTripped g mv.toNat u)
    refine ⟨rbit_vioTripped g.isLt .., rfld_vioTripped g.isLt mv.isLt _, fun i hi => ?_, (mem_of_offSignal hoff).trans (mem_of_offCells (vioTripped_offCells ..))⟩
    rw [cell_of_offSignal hoff, vioTripped, cell_rbitSet]
    exact hiz_foldl_padsOff _ _ (.inl (mem_groupCells.mpr ⟨by omega, by omega⟩))

theorem groupEnables (g : Fin 8) (v : BitVec 64) (s : State) (hup : groupUp s g = true) (hen : rbit s (grpReg g 0) 0 = false) (hv : bit v 0 = true)
    (hin : vioIn (rfld s (grpReg g 8) 0 16) (bit v 1) = true) :
    ∃ t, exec (.groupEnableWrite g v) s = .next t ∧ rbit t (grpReg g 0) 0 = true ∧ offRegs t = offRegs s := by
  have heq : groupWrite g v s = rbitSet (grpReg g 0) 0 true (rbitSet (grpReg g 8) 19 true (rbitSet (grpReg g 0) 1 (bit v 1) s)) := by
    unfold groupWrite
    simp only [hen, hv, hin, Bool.false_eq_true, if_false, if_true]
    exact if_pos (rbit_rbitSet_same (by decide) ..)
  refine ⟨_, gate_of_true hup _, ?_, ?_⟩
  · rw [heq]
    exact rbit_rbitSet_same (by decide) ..
  · rw [heq]
    simp only [offRegs_rbitSet]

/-! #### A cell is enabled (R334) -/

/-- PRT_CTL takes the fields of a write, EN apart. -/
def ctlTaken (p : Nat) (v : BitVec 64) (s : State) : State :=
  rset (cellReg p 0) (setBit (ctlFields (rget s (cellReg p 0)) v (cellBusy s p)) 0 (bit (rget s (cellReg p 0)) 0 && bit v 0))
    (if cellBusy s p && bit v 1 != bit (rget s (cellReg p 0)) 1 then cellStat p 5 s else s)
/-- The cell starts. -/
def ctlStarted (p : Nat) (v : BitVec 64) (s : State) : State :=
  rbitSet (cellReg p 0) 0 true (updCell p (fun c => { c with hiz := false }) (ctlTaken p v s))
/-- What a write of PRT_CTL does when EN is settled: ATTACHED, the pads, the FIFOs. -/
def ctlTail (p : Nat) (v old : BitVec 64) (was : Bool) (s : State) : State :=
  let s := if !bit v 5 then rbitSet (cellReg p 0x30) 11 false s else s
  let s := if (bit v 5 && !bit old 5) || presMatch s p != was then updCell p (fun c => { c with attSince := s.fclk }) s else s
  let s := showPads p (if bit v 3 then flushRxFifo p s else s)
  if bit v 2 then flushTxFifo p s else s

theorem flushRxFifo_offCells (p : Nat) (s : State) : offCells (flushRxFifo p s) = offCells s := updCell_offCells ..
theorem flushTxFifo_offCells (p : Nat) (s : State) : offCells (flushTxFifo p s) = offCells s := txTake_offCells ..
theorem ctlTail_offCells (p : Nat) (v old : BitVec 64) (was : Bool) (s : State) : offCells (ctlTail p v old was s) = offCells s := by
  unfold ctlTail
  dsimp only
  rw [apply_ite offCells, flushTxFifo_offCells, ite_self, showPads_offCells, apply_ite offCells, flushRxFifo_offCells, ite_self,
    apply_ite offCells, updCell_offCells, ite_self, apply_ite offCells, rbitSet_offCells, ite_self]
theorem rget_txAfter_low {o : Nat} (h : o < 0x30) (p n : Nat) (s : State) : rget (txAfter p n s) (cellReg p o) = rget s (cellReg p o) := by
  unfold txAfter
  split
  · rw [rget_latchEvent, rget_cellEvent_low h]
  · rfl
theorem rget_flushTxFifo_low {o : Nat} (h : o < 0x30) (p : Nat) (s : State) : rget (flushTxFifo p s) (cellReg p o) = rget s (cellReg p o) :=
  (rget_txAfter_low h ..).trans (rget_setCell ..)
theorem rget_flushRxFifo (p : Nat) (s : State) (a : Nat) : rget (flushRxFifo p s) a = rget s a := rfl
theorem cellEn_ctlTail (p : Nat) (v old : BitVec 64) (was : Bool) (s : State) : cellEn (ctlTail p v old was s) p = cellEn s p := by
  unfold cellEn ctlTail
  dsimp only
  refine rbit_congr ?_ 0
  rw [apply_ite (rget · (cellReg p 0)), rget_flushTxFifo_low (by decide), ite_self, rget_showPads, apply_ite (rget · (cellReg p 0)), rget_flushRxFifo, ite_self,
    apply_ite (rget · (cellReg p 0)), rget_updCell, ite_self, apply_ite (rget · (cellReg p 0)), rget_rbitSet_ne (by simp), ite_self]

theorem ctlTaken_offCells (p : Nat) (v : BitVec 64) (s : State) : offCells (ctlTaken p v s) = offCells s := by
  rw [ctlTaken, rset_offCells, apply_ite offCells, cellStat_offCells, ite_self]
/-- The other configuration of a cell, and its group's, stand as they were. -/
theorem rget_ctlTaken {p a : Nat} (h0 : a ≠ cellReg p 0) (h30 : a ≠ cellReg p 0x30) (v : BitVec 64) (s : State) : rget (ctlTaken p v s) a = rget s a := by
  rw [ctlTaken, rget_rset_ne h0, apply_ite (rget · a), cellStat, rget_rbitSet_ne h30, ite_self]
theorem cellReserved_ctlTaken (p : Nat) (v : BitVec 64) (s : State) : cellReserved (ctlTaken p v s) p = cellReserved s p := by
  unfold cellReserved rfld
  rw [rget_ctlTaken (by simp) (by simp), rget_ctlTaken (by simp) (by simp)]

/-- PAIR falls only where a follower cannot stand alone. -/
def ctlFollower (p : Nat) (v : BitVec 64) (s : State) : Bool :=
  p % 2 == 0 && bit (rget s (cellReg p 0)) 1 && !bit (ctlFields (rget s (cellReg p 0)) v (cellBusy s p)) 1 && cellEn s (p + 1)
    && (decide (4 < rfld s (cellReg (p + 1) 0x10) 24 3) || decide (rfld s (cellReg (p + 1) 0x10) 0 22 < 4))
theorem bit_ctlFields (old v : BitVec 64) (busy : Bool) : bit (ctlFields old v busy) 1 = if busy then bit old 1 else bit v 1 := by
  unfold ctlFields bit
  cases busy <;> simp
theorem ctlFollower_false {p : Nat} {v : BitVec 64} {s : State} (h : rbit s (cellReg p 0) 1 = false ∨ bit v 1 = true ∨ cellEn s (p + 1) = false ∨
    (rfld s (cellReg (p + 1) 0x10) 24 3 ≤ 4 ∧ 4 ≤ rfld s (cellReg (p + 1) 0x10) 0 22)) : ctlFollower p v s = false := by
  unfold ctlFollower
  rw [bit_ctlFields]
  unfold rbit at h
  rcases h with h | h | h | ⟨h1, h2⟩
  · simp [h]
  · cases hb : bit (rget s (cellReg p 0)) 1 <;> simp [h]
  · simp [h]
  · simp [Nat.not_lt.mpr h1, Nat.not_lt.mpr h2]

theorem ctlWrite_starts {p : Nat} {v : BitVec 64} {s : State} (hen : rbit s (cellReg p 0) 0 = false) (hv : bit v 0 = true)
    (hgrp : rbit s (grpReg (groupOf p) 0) 0 = true) (hp : p < 1024) (hres : cellReserved s p = false) (hfol : ctlFollower p v s = false)
    (hbad : cellBad s p (ctlFields (rget s (cellReg p 0)) v (cellBusy s p)) (rget s (cellReg p 8)) (rget s (cellReg p 0x10)) (rget s (cellReg p 0x18)) = false) :
    ∃ was, (ctlWrite p v s).2 = ctlTail p v (rget s (cellReg p 0)) was (ctlStarted p v s) := by
  have hen' : bit (rget s (cellReg p 0)) 0 = false := hen
  have hstart : (cellBad s p (ctlFields (rget s (cellReg p 0)) v (cellBusy s p)) (rget s (cellReg p 8)) (rget s (cellReg p 0x10)) (rget s (cellReg p 0x18)) ||
      cellReserved (ctlTaken p v s) p || !rbit (ctlTaken p v s) (grpReg (groupOf p) 0) 0) = false := by
    rw [hbad, cellReserved_ctlTaken, hres, rbit_congr (rget_ctlTaken (grpReg_ne_cellReg hp (by decide)) (grpReg_ne_cellReg hp (by decide)) ..), hgrp]
    rfl
  unfold ctlFollower at hfol
  unfold ctlWrite
  dsimp only
  rw [hfol, if_neg (by simp [hen']), if_neg (c := (bit (rget s (cellReg p 0)) 0 && !bit v 0) = true) (by simp [hen']),
    if_pos (c := (!bit (rget s (cellReg p 0)) 0 && bit v 0) = true) (by simp [hen', hv])]
  rw [ctlTaken] at hstart
  rw [if_neg (Bool.eq_false_iff.mp hstart)]
  exact ⟨_, rfl⟩

theorem cellEnables (p : Fin 1024) (v : BitVec 64) (a : Agent) (s : State) (hon : cellOn s p = true)
    (hmay : isBlockerAgent p a = true ∨ (p.val ∉ s.locks.cells ∧ rbit s (cellReg p 0) 6 = false)) (hen : rbit s (cellReg p 0) 0 = false)
    (hv : bit v 0 = true) (hgrp : rbit s (grpReg (groupOf p) 0) 0 = true) (hres : cellReserved s p = false) (hfol : ctlFollower p v s = false)
    (hbad : cellBad s p (ctlFields (rget s (cellReg p 0)) v (cellBusy s p)) (rget s (cellReg p 8)) (rget s (cellReg p 0x10)) (rget s (cellReg p 0x18)) = false) :
    ∃ t, exec (.cellEnable p v a) s = .next t ∧ cellEn t p = true ∧ t.mem = s.mem ∧ t.facets = s.facets := by
  have hexec : exec (.cellEnable p v a) s = .next (ctlWrite p v s).2 := by
    show execCellEnable p v a s = _
    rw [execCellEnable, gate_of_true hon, cellWrite, if_neg]
    · rfl
    · rcases hmay with h | ⟨h1, h2⟩
      · simp [h]
      · simp [h1, h2]
  obtain ⟨was, heq⟩ := ctlWrite_starts hen hv hgrp p.isLt hres hfol hbad
  rw [heq] at hexec
  have hoff : offCells (ctlTail p v (rget s (cellReg p 0)) was (ctlStarted p v s)) = offCells s := by
    rw [ctlTail_offCells, ctlStarted, rbitSet_offCells, updCell_offCells, ctlTaken_offCells]
  refine ⟨_, hexec, ?_, mem_of_offCells hoff, facets_of_offCells hoff⟩
  rw [cellEn_ctlTail]
  exact rbit_rbitSet_same (by decide) ..

theorem groupAndCellEnable : GroupAndCellEnable := by
  refine ⟨fun g mv s hup => groupSamples g mv s hup, fun g v s hup hen hv hin => groupEnables g v s hup hen hv hin, ?_, ?_⟩
  · intro p v a s hon hmay hen hv hgrp hres hfol hbad
    exact cellEnables p v a s hon hmay hen hv hgrp hres (ctlFollower_false hfol) hbad
  · intro p v a s hon hagent hlock
    show execCellEnable p v a s = _
    rw [execCellEnable, gate_of_true hon, cellWrite, if_pos (by simp [hagent, hlock])]
    rfl

end Sys2Proof.Proofs

namespace Sys2Proof.Proofs

open Sys2Proof Sys2Proof.Machine Sys2Proof.Claims Sys2Proof.Laws

/-! ### Power feeds (R353 to R355) -/

theorem pfdReg_inj {b o o' : Nat} : pfdReg b o = pfdReg b o' ↔ o = o' := by
  simp only [pfdReg, brim]
  omega
theorem fmeas_ne_fctl {b f : Nat} : fmeas b f ≠ fctl b f := by simp [fmeas, fctl, pfdReg_inj]
theorem fctl_ne_fmeas {b f : Nat} : fctl b f ≠ fmeas b f := fmeas_ne_fctl.symm
theorem fmeas_ne_fi2t {b f : Nat} : fmeas b f ≠ fi2t b f := by simp [fmeas, fi2t, pfdReg_inj]
theorem fctl_ne_fi2t {b f : Nat} : fctl b f ≠ fi2t b f := by simp [fctl, fi2t, pfdReg_inj]
theorem fmeas_ne_summary {b f : Nat} : fmeas b f ≠ pfdReg b 0 := by simp [fmeas, pfdReg_inj]
theorem fctl_ne_summary {b f : Nat} : fctl b f ≠ pfdReg b 0 := by simp [fctl, pfdReg_inj]
theorem summary_ne_fmeas {b f : Nat} : pfdReg b 0 ≠ fmeas b f := fmeas_ne_summary.symm

@[simp] theorem feed_setFeed_same (b f : Nat) (x : Feed) (s : State) : feed (setFeed b f x s) b f = x := tget_tset_self ..
theorem feed_congr {s t : State} (h : s.feeds = t.feeds) (b f : Nat) : feed s b f = feed t b f := by simp only [feed, h]
theorem feedState_congr {s t : State} {b f : Nat} (h : rget s (fmeas b f) = rget t (fmeas b f)) : feedState s b f = feedState t b f := rfld_congr h ..

/-! #### The state of a feed and its gate -/

section
variable (b f v : Nat) (s : State)

theorem showGate_regs (was on : Bool) : (showGate b f was on s).regs = s.regs := by
  unfold showGate
  split <;> simp
theorem showGate_feeds (was on : Bool) : (showGate b f was on s).feeds = s.feeds := by
  unfold showGate
  split <;> simp
theorem showGate_out (was on : Bool) : (showGate b f was on s).out = s.out ++ if was = on then [] else [.gate b f on] := by
  unfold showGate
  split <;> simp
theorem rget_setFeedState (a : Nat) : rget (setFeedState b f v s) a = rget (rput (fmeas b f) 48 3 v s) a := rget_congr (showGate_regs ..) a
theorem rget_setFeedState_ne {a : Nat} (h : a ≠ fmeas b f) : rget (setFeedState b f v s) a = rget s a := by
  rw [rget_setFeedState, rget_rput_ne h]
theorem feedState_setFeedState (hv : v < 8) : feedState (setFeedState b f v s) b f = v := by
  rw [feedState, rfld_congr (rget_setFeedState ..), rfld_rput_same (by decide)]
  exact Nat.mod_eq_of_lt hv
theorem feed_setFeedState : feed (setFeedState b f v s) b f = feed s b f := feed_congr ((showGate_feeds ..).trans (by simp)) b f
theorem setFeedState_out : (setFeedState b f v s).out = s.out ++ if gateLevel (feedState s b f) = gateLevel v then [] else [.gate b f (gateLevel v)] := by
  rw [setFeedState, showGate_out]
  simp

/-- The state without its registers, outputs and feeds and what a raised source writes. -/
def offFeeds (s : State) : State := { offRaised s with out := [], feeds := [] }
variable {s} in
theorem mem_of_offFeeds {t : State} (h : offFeeds t = offFeeds s) : t.mem = s.mem := (congrArg State.mem h :)
variable {s} in
theorem offFeeds_of_offRaised {t : State} (h : offRaised t = offRaised s) : offFeeds t = offFeeds s :=
  congrArg (fun u : State => { u with out := [], feeds := [] }) h
theorem rset_offFeeds (a : Nat) (w : BitVec 64) : offFeeds (rset a w s) = offFeeds s := by simp [offFeeds, offRaised, offLog]
theorem rput_offFeeds (a lo w x : Nat) : offFeeds (rput a lo w x s) = offFeeds s := rset_offFeeds ..
theorem rbitSet_offFeeds (a i : Nat) (x : Bool) : offFeeds (rbitSet a i x s) = offFeeds s := by simp [offFeeds, offRaised, offLog]
theorem setFeed_offFeeds (x : Feed) : offFeeds (setFeed b f x s) = offFeeds s := by simp [offFeeds, offRaised, offLog]
theorem setFeedState_offFeeds : offFeeds (setFeedState b f v s) = offFeeds s := by
  unfold setFeedState showGate
  split
  · exact rput_offFeeds ..
  · simp [offFeeds, offRaised, offLog]
theorem setAcc_offFeeds : offFeeds (setAcc b f v s) = offFeeds s := by rw [setAcc, rput_offFeeds, setFeed_offFeeds]

end

theorem feed_setAcc (b f v : Nat) (s : State) : feed (setAcc b f v s) b f = { feed s b f with acc := v } :=
  (feed_congr (t := setFeed b f { feed s b f with acc := v } s) (by simp [setAcc]) b f).trans (feed_setFeed_same ..)
theorem rget_setAcc_ne {a b f : Nat} (h : a ≠ fi2t b f) (v : Nat) (s : State) : rget (setAcc b f v s) a = rget s a := by
  rw [setAcc, rget_rput_ne h]
  exact rget_congr (by simp) a

/-! #### Gate on, into blanking -/

/-- The accumulator is cleared and blanking starts. -/
def feedCharged (b f : Nat) (s : State) : State :=
  setFeed b f { feed (setAcc b f 0 s) b f with till := (setAcc b f 0 s).fclk + rfld (setAcc b f 0 s) (fctl b f) 16 16 * msFclk } (setAcc b f 0 s)
theorem feedBlank_eq (b f : Nat) (s : State) : feedBlank b f s = setFeedState b f 1 (feedCharged b f s) := rfl
theorem feed_feedBlank (b f : Nat) (s : State) : feed (feedBlank b f s) b f =
    { feed s b f with acc := 0, till := s.fclk + rfld s (fctl b f) 16 16 * msFclk } := by
  rw [feedBlank_eq, feed_setFeedState, feedCharged, feed_setFeed_same, feed_setAcc, rfld_congr (rget_setAcc_ne fctl_ne_fi2t ..)]
  simp [setAcc]
theorem feedState_feedBlank (b f : Nat) (s : State) : feedState (feedBlank b f s) b f = 1 := feedState_setFeedState _ _ _ _ (by decide)
theorem feedState_feedCharged (b f : Nat) (s : State) : feedState (feedCharged b f s) b f = feedState s b f := by
  refine feedState_congr ((rget_congr ?_ _).trans (rget_setAcc_ne fmeas_ne_fi2t 0 s))
  simp [feedCharged]
theorem feedBlank_out {b f : Nat} {s : State} (h : gateLevel (feedState s b f) = false) : (feedBlank b f s).out = s.out ++ [.gate b f true] := by
  rw [feedBlank_eq, setFeedState_out, feedState_feedCharged, h]
  simp [feedCharged, setAcc, gateLevel]
theorem feedBlank_offFeeds (b f : Nat) (s : State) : offFeeds (feedBlank b f s) = offFeeds s := by
  rw [feedBlank_eq, setFeedState_offFeeds, feedCharged, setFeed_offFeeds, setAcc_offFeeds]
theorem rget_feedBlank_fctl (b f : Nat) (s : State) : rget (feedBlank b f s) (fctl b f) = rget s (fctl b f) := by
  rw [feedBlank_eq, rget_setFeedState_ne _ _ _ _ fctl_ne_fmeas]
  exact (rget_congr (by simp [feedCharged]) _).trans (rget_setAcc_ne fctl_ne_fi2t 0 s)

/-! #### Switching (R354) -/

/-- PFD_FCTL takes the fields of a write. -/
def fctlTaken (b f : Nat) (v : BitVec 64) (s : State) : State :=
  rset (fctl b f) (setBit (v &&& 0xFFFFFFFE) 0 (rbit s (fctl b f) 0 && bit v 0)) s

/-- A write of PFD_FCTL takes bits 31 to 1 as they are. -/
theorem fld_fctl_mask {v y : BitVec 64} {lo w : Nat} (hy : y = v ∨ y = v ||| 1) (hlo : 1 ≤ lo) (hw : lo + w ≤ 32) :
    fld (y &&& 0xFFFFFFFE) lo w = fld v lo w := by
  have hmask : ∀ i < 32, 1 ≤ i → (0xFFFFFFFE : BitVec 64).getLsbD i = true ∧ (1 : BitVec 64).getLsbD i = false := by decide
  refine Nat.eq_of_testBit_eq fun i => ?_
  rw [testBit_fld, testBit_fld]
  by_cases hi : i < w
  · obtain ⟨h1, h2⟩ := hmask (lo + i) (by omega) (by omega)
    rcases hy with rfl | rfl <;> simp only [BitVec.getLsbD_and, BitVec.getLsbD_or, h1, h2, Bool.and_true, Bool.or_false]
  · simp [hi]
theorem fld_fctlTaken {v y : BitVec 64} {lo w : Nat} (hy : y = v ∨ y = v ||| 1) (hlo : 1 ≤ lo) (hw : lo + w ≤ 32) (b f : Nat) (s : State) :
    fld (rget (fctlTaken b f y s) (fctl b f)) lo w = fld v lo w := by
  rw [fctlTaken, rget_rset_same, fld_setBit_apart _ _ (.inl (by omega)), fld_fctl_mask hy hlo hw]
theorem rget_fctlTaken_ne {a b f : Nat} (h : a ≠ fctl b f) (v : BitVec 64) (s : State) : rget (fctlTaken b f v s) a = rget s a := rget_rset_ne h ..
/-- Whether a switch-on is refused turns on the limits and on the fields that are written. -/
theorem feedRefused_congr {s t : State} {b f : Nat} (hreg : ∀ a, a ≠ fctl b f → rget t a = rget s a)
    (hfld : ∀ lo w, 1 ≤ lo → lo + w ≤ 32 → fld (rget t (fctl b f)) lo w = fld (rget s (fctl b f)) lo w) : feedRefused t b f = feedRefused s b f := by
  unfold feedRefused
  dsimp only
  rw [hreg (flim b f) (by simp [flim, fctl, pfdReg_inj]), rfld_congr (hreg (fi2t b f) fctl_ne_fi2t.symm), hfld 2 2 (by decide) (by decide),
    hfld 4 4 (by decide) (by decide), hfld 8 8 (by decide) (by decide)]
theorem feedRefused_fctlTaken (b f : Nat) (v : BitVec 64) (s : State) :
    feedRefused (fctlTaken b f (v ||| 1) s) b f = feedRefused (rset (fctl b f) (v &&& 0xFFFFFFFE) s) b f := by
  refine feedRefused_congr (fun a ha => ?_) (fun lo w hlo hw => ?_)
  · rw [fctlTaken, rget_rset_ne ha, rget_rset_ne ha]
  · rw [fld_fctlTaken (.inr rfl) hlo hw, rget_rset_same, fld_fctl_mask (.inl rfl) hlo hw]

/-- A switch-on that stays: the retries are set and the feed blanks. -/
def feedStarted (b f : Nat) (v : BitVec 64) (s : State) : State :=
  feedBlank b f (setFeed b f { feed (fctlTaken b f v s) b f with retries := fld v 4 4 } (rbitSet (fctl b f) 0 true (fctlTaken b f v s)))

theorem fctlWrite_on {b f : Nat} {v : BitVec 64} {s : State} (hlock : feedLocked s b f = false) (hst : feedState s b f = 0 ∨ feedState s b f = 4)
    (hv : bit v 0 = true) : (fctlWrite b f v .steward s).2 = if feedRefused (fctlTaken b f v s) b f
      then rbitSet (pfdReg b 0) 24 true (rbitSet (fctl b f) 0 false (fctlTaken b f v s)) else feedStarted b f v s := by
  unfold fctlWrite
  dsimp only
  rw [if_neg (by simp [hlock]), if_pos hv, if_pos hst]
  rfl
theorem fctlWrite_off {b f : Nat} {v : BitVec 64} {s : State} (hlock : feedLocked s b f = false) (hv : bit v 0 = false) :
    (fctlWrite b f v .steward s).2 = setFeedState b f 0 (fctlTaken b f v s) := by
  unfold fctlWrite
  dsimp only
  rw [if_neg (by simp [hlock]), if_neg (by simp [hv])]
  rfl
theorem fctlWrite_locked {b f : Nat} {s : State} (hlock : feedLocked s b f = true) (v : BitVec 64) : (fctlWrite b f v .steward s).2 = s := by
  unfold fctlWrite
  rw [if_pos (by simp [hlock])]

/-! #### A trip (R355) -/

/-- The cause and the mark of a trip, and its events. -/
def tripShown (b f cause : Nat) (s : State) : State :=
  raiseSteward (64 + b) (raiseHat (0x2040 + b) (rput (pfdReg b 0) (4 * f) 4 cause (rbitSet (pfdReg b 0) (16 + f) true s)))
/-- The feed waits for its retry. -/
def tripWait (b f : Nat) (s : State) : State :=
  setFeed b f { feed s b f with till := s.fclk + rfld s (fctl b f) 8 8 * 100 * msFclk } s
theorem feedTrip_eq (b f cause : Nat) (s : State) : feedTrip b f cause s = if 0 < (feed (tripShown b f cause s) b f).retries
    then setFeedState b f 3 (tripWait b f (tripShown b f cause s)) else setFeedState b f 4 (tripShown b f cause s) := rfl
theorem rget_tripWait (b f : Nat) (s : State) (a : Nat) : rget (tripWait b f s) a = rget s a := rget_congr (by simp [tripWait]) a

theorem tripShown_offRaised (b f cause : Nat) (s : State) :
    offRaised (tripShown b f cause s) = offRaised (rput (pfdReg b 0) (4 * f) 4 cause (rbitSet (pfdReg b 0) (16 + f) true s)) :=
  (raiseSteward_offRaised ..).trans (raiseHat_offRaised ..)
theorem tripShown_offFeeds (b f cause : Nat) (s : State) : offFeeds (tripShown b f cause s) = offFeeds s := by
  rw [offFeeds_of_offRaised (tripShown_offRaised ..), rput_offFeeds, rbitSet_offFeeds]
theorem rget_tripShown (b f cause : Nat) (s : State) (a : Nat) :
    rget (tripShown b f cause s) a = rget (rput (pfdReg b 0) (4 * f) 4 cause (rbitSet (pfdReg b 0) (16 + f) true s)) a :=
  (rget_raiseSteward ..).trans (raiseHat_rget ..)
theorem rget_tripShown_ne {a b : Nat} (h : a ≠ pfdReg b 0) (f cause : Nat) (s : State) : rget (tripShown b f cause s) a = rget s a := by
  rw [rget_tripShown, rget_rput_ne h, rget_rbitSet_ne h]
theorem feed_tripShown (b f cause : Nat) (s : State) : feed (tripShown b f cause s) b f = feed s b f :=
  feed_congr ((congrArg State.feeds (tripShown_offRaised b f cause s) :).trans (by simp : (rput (pfdReg b 0) (4 * f) 4 cause (rbitSet (pfdReg b 0) (16 + f) true s)).feeds = s.feeds)) b f
theorem tripShown_out (b f cause : Nat) (s : State) : (tripShown b f cause s).out = s.out :=
  (congrArg State.out (tripShown_offRaised b f cause s) :).trans (by simp : (rput (pfdReg b 0) (4 * f) 4 cause (rbitSet (pfdReg b 0) (16 + f) true s)).out = s.out)

theorem rget_feedTrip_ne {a b f : Nat} (h : a ≠ fmeas b f) (cause : Nat) (s : State) : rget (feedTrip b f cause s) a = rget (tripShown b f cause s) a := by
  rw [feedTrip_eq]
  split
  · rw [rget_setFeedState_ne _ _ _ _ h, rget_tripWait]
  · rw [rget_setFeedState_ne _ _ _ _ h]
theorem feedState_feedTrip (b f cause : Nat) (s : State) : feedState (feedTrip b f cause s) b f = if 0 < (feed s b f).retries then 3 else 4 := by
  rw [feedTrip_eq, feed_tripShown]
  split
  · exact feedState_setFeedState _ _ 3 _ (by decide)
  · exact feedState_setFeedState _ _ 4 _ (by decide)
theorem feedTrip_offFeeds (b f cause : Nat) (s : State) : offFeeds (feedTrip b f cause s) = offFeeds s := by
  rw [feedTrip_eq]
  split
  · rw [setFeedState_offFeeds, tripWait, setFeed_offFeeds, tripShown_offFeeds]
  · rw [setFeedState_offFeeds, tripShown_offFeeds]
theorem feedTrip_out {b f : Nat} {s : State} (h : gateLevel (feedState s b f) = true) (cause : Nat) :
    (feedTrip b f cause s).out = s.out ++ [.gate b f false] := by
  have hshown : gateLevel (feedState (tripShown b f cause s) b f) = true := by
    rw [feedState_congr (rget_tripShown_ne fmeas_ne_summary ..), h]
  rw [feedTrip_eq]
  split
  · rw [setFeedState_out, feedState_congr (rget_tripWait ..), hshown]
    simp [tripWait, tripShown_out, gateLevel]
  · rw [setFeedState_out, hshown]
    simp [tripShown_out, gateLevel]

/-! #### A sample (R355) -/

/-- Shown measurements and everything outside the feeds stand. -/
def keepsShown (b f : Nat) (s t : State) : Prop :=
  (∀ lo w, lo + w ≤ 48 → rfld t (fmeas b f) lo w = rfld s (fmeas b f) lo w) ∧ offFeeds t = offFeeds s

section
variable {b f : Nat} {s t u : State}

theorem keepsShown_refl : keepsShown b f s s := ⟨fun _ _ _ => rfl, rfl⟩
theorem keepsShown_trans : keepsShown b f s t → keepsShown b f t u → keepsShown b f s u
  | ⟨h1, h2⟩, ⟨h3, h4⟩ => ⟨fun lo w h => (h3 lo w h).trans (h1 lo w h), h4.trans h2⟩
theorem keepsShown_of_rget (h : rget t (fmeas b f) = rget s (fmeas b f)) (ho : offFeeds t = offFeeds s) : keepsShown b f s t :=
  ⟨fun lo w _ => rfld_congr h lo w, ho⟩
theorem keepsShown_setFeedState (v : Nat) : keepsShown b f s (setFeedState b f v s) :=
  ⟨fun lo w h => by rw [rfld_congr (rget_setFeedState ..), rfld_rput_apart (.inl h)], setFeedState_offFeeds ..⟩
theorem keepsShown_setFeed (x : Feed) : keepsShown b f s (setFeed b f x s) := keepsShown_of_rget (rget_congr (by simp) _) (setFeed_offFeeds ..)
theorem keepsShown_setAcc (v : Nat) : keepsShown b f s (setAcc b f v s) := keepsShown_of_rget (rget_setAcc_ne fmeas_ne_fi2t ..) (setAcc_offFeeds ..)
theorem keepsShown_tripShown (cause : Nat) : keepsShown b f s (tripShown b f cause s) :=
  keepsShown_of_rget (rget_tripShown_ne fmeas_ne_summary ..) (tripShown_offFeeds ..)
theorem keepsShown_feedTrip (cause : Nat) : keepsShown b f s (feedTrip b f cause s) := by
  rw [feedTrip_eq]
  split
  · exact keepsShown_trans (keepsShown_tripShown cause) (keepsShown_trans (keepsShown_setFeed _) (keepsShown_setFeedState 3))
  · exact keepsShown_trans (keepsShown_tripShown cause) (keepsShown_setFeedState 4)
theorem keepsShown_accTrip (v cause : Nat) : keepsShown b f s (feedTrip b f cause (setAcc b f v s)) :=
  keepsShown_trans (keepsShown_setAcc v) (keepsShown_feedTrip cause)
theorem keepsShown_ite {c : Prop} [Decidable c] (ht : keepsShown b f s t) (hu : keepsShown b f s u) : keepsShown b f s (if c then t else u) := by
  split
  · exact ht
  · exact hu
theorem keepsShown_feedRules (i vout : Nat) (x : Feed) : keepsShown b f s (feedRules b f i vout x s) :=
  keepsShown_ite (keepsShown_accTrip ..) (keepsShown_ite (keepsShown_accTrip ..) (keepsShown_ite (keepsShown_accTrip ..) (keepsShown_setAcc _)))

end

/-- A sample is shown, with its peak. -/
def sampleShown (b f i vout : Nat) (s : State) : State :=
  rput (fmeas b f) 32 16 vout (rput (fmeas b f) 16 16 (max i (rfld s (fmeas b f) 16 16)) (rput (fmeas b f) 0 16 i s))

/-- VGOOD is written, and its rise told. -/
def sampleMarked (b f : Nat) (good rise : Bool) (s : State) : State :=
  let s := rbitSet (pfdReg b 0) (20 + f) good s
  if rise then raiseHat (0x2040 + b) s else s
/-- Blanking ends. -/
def sampleBlanked (b f vout : Nat) (s : State) : State :=
  if feedState s b f = 1 ∧ (feed s b f).till ≤ s.fclk then
    let s := setFeedState b f 2 s
    if 10 * vout < 9 * nominal s b f then feedTrip b f 4 s else s
  else s
/-- The sample rules. -/
def sampleRuled (b f i vout : Nat) (s : State) : State :=
  let x := feed s b f
  let s := setFeed b f { x with fast := decide (rfld s (flim b f) 16 16 ≤ i), low := if 10 * vout < 8 * nominal s b f then x.low + 1 else 0 } s
  if feedState s b f = 2 then feedRules b f i vout x s else s
theorem feedSample_eq (b f i vout : Nat) (s : State) : ∃ good rise,
    feedSample b f i vout s = sampleRuled b f i vout (sampleBlanked b f vout (sampleMarked b f good rise (sampleShown b f i vout s))) := ⟨_, _, rfl⟩

theorem keepsShown_sampleMarked (b f : Nat) (good rise : Bool) (s : State) : keepsShown b f s (sampleMarked b f good rise s) := by
  have hmark : keepsShown b f s (rbitSet (pfdReg b 0) (20 + f) good s) := keepsShown_of_rget (rget_rbitSet_ne fmeas_ne_summary ..) (rbitSet_offFeeds ..)
  unfold sampleMarked
  dsimp only
  split
  · exact keepsShown_trans hmark (keepsShown_of_rget (raiseHat_rget ..) (offFeeds_of_offRaised (raiseHat_offRaised ..)))
  · exact hmark
theorem keepsShown_sampleBlanked (b f vout : Nat) (s : State) : keepsShown b f s (sampleBlanked b f vout s) := by
  unfold sampleBlanked
  dsimp only
  split
  · split
    · exact keepsShown_trans (keepsShown_setFeedState 2) (keepsShown_feedTrip 4)
    · exact keepsShown_setFeedState 2
  · exact keepsShown_refl
theorem keepsShown_setRules (b f i vout : Nat) (x y : Feed) (s : State) : keepsShown b f s (feedRules b f i vout x (setFeed b f y s)) :=
  keepsShown_trans (keepsShown_setFeed y) (keepsShown_feedRules i vout x)
theorem keepsShown_sampleRuled (b f i vout : Nat) (s : State) : keepsShown b f s (sampleRuled b f i vout s) :=
  keepsShown_ite (keepsShown_setRules ..) (keepsShown_setFeed _)
theorem keepsShown_feedSample (b f i vout : Nat) (s : State) : keepsShown b f (sampleShown b f i vout s) (feedSample b f i vout s) := by
  obtain ⟨good, rise, h⟩ := feedSample_eq b f i vout s
  rw [h]
  exact keepsShown_trans (keepsShown_sampleMarked ..) (keepsShown_trans (keepsShown_sampleBlanked ..) (keepsShown_sampleRuled ..))

theorem rfld_sampleShown {i vout : Nat} (hi : i < 2 ^ 16) (hv : vout < 2 ^ 16) (b f : Nat) (s : State) :
    rfld (sampleShown b f i vout s) (fmeas b f) 0 16 = i ∧ rfld (sampleShown b f i vout s) (fmeas b f) 32 16 = vout ∧
      rfld (sampleShown b f i vout s) (fmeas b f) 16 16 = max i (rfld s (fmeas b f) 16 16) := by
  have hpeak : max i (rfld s (fmeas b f) 16 16) < 2 ^ 16 := max_lt hi (fld_lt ..)
  unfold sampleShown
  refine ⟨?_, ?_, ?_⟩
  · rw [rfld_rput_apart (by omega), rfld_rput_apart (by omega), rfld_rput_same (by decide), Nat.mod_eq_of_lt hi]
  · rw [rfld_rput_same (by decide), Nat.mod_eq_of_lt hv]
  · rw [rfld_rput_apart (by omega), rfld_rput_same (by decide), Nat.mod_eq_of_lt hpeak]

/-! #### The commands -/

/-- The feed as a switch-on leaves it before it blanks. -/
def feedArmed (b f : Nat) (v : BitVec 64) (s : State) : State :=
  setFeed b f { feed (fctlTaken b f v s) b f with retries := fld v 4 4 } (rbitSet (fctl b f) 0 true (fctlTaken b f v s))
theorem feedStarted_eq (b f : Nat) (v : BitVec 64) (s : State) : feedStarted b f v s = feedBlank b f (feedArmed b f v s) := rfl
theorem rget_feedArmed_fctl (b f : Nat) (v : BitVec 64) (s : State) :
    rget (feedArmed b f v s) (fctl b f) = setBit (rget (fctlTaken b f v s) (fctl b f)) 0 true :=
  (rget_congr (by simp [feedArmed]) _).trans (rget_rbitSet_same ..)
theorem rget_feedArmed_fmeas (b f : Nat) (v : BitVec 64) (s : State) : rget (feedArmed b f v s) (fmeas b f) = rget s (fmeas b f) :=
  (rget_congr (t := rbitSet (fctl b f) 0 true (fctlTaken b f v s)) (by simp [feedArmed]) _).trans
    ((rget_rbitSet_ne fmeas_ne_fctl ..).trans (rget_fctlTaken_ne fmeas_ne_fctl ..))
theorem feedArmed_offFeeds (b f : Nat) (v : BitVec 64) (s : State) : offFeeds (feedArmed b f v s) = offFeeds s := by
  rw [feedArmed, setFeed_offFeeds, rbitSet_offFeeds, fctlTaken, rset_offFeeds]
theorem feed_feedArmed (b f : Nat) (v : BitVec 64) (s : State) : (feed (feedArmed b f v s) b f).retries = fld v 4 4 := by
  rw [feedArmed, feed_setFeed_same]

theorem fld_or_one {lo w : Nat} (hlo : 1 ≤ lo) (hw : lo + w ≤ 32) (v : BitVec 64) : fld (v ||| 1) lo w = fld v lo w :=
  (fld_fctl_mask (.inl rfl) hlo hw).symm.trans (fld_fctl_mask (.inr rfl) hlo hw)
theorem feedSwitchOn_starts {b : Fin 64} {f : Fin 4} {v : BitVec 64} {s : State} (hon : feedOn s b = true) (hlock : feedLocked s b f = false)
    (hst : feedState s b f = 0 ∨ feedState s b f = 4) (hok : feedRefused (rset (fctl b f) (v &&& 0xFFFFFFFE) s) b f = false) :
    exec (.feedSwitchOn b f v) s = .next (feedBlank b f (feedArmed b f (v ||| 1) s)) := by
  have hv : bit (v ||| 1) 0 = true := by simp [bit]
  show execFeedSwitchOn b f v s = _
  rw [execFeedSwitchOn, gate_of_true hon, fctlWrite_on hlock hst hv, feedRefused_fctlTaken, hok, ← feedStarted_eq, if_neg Bool.false_ne_true]

theorem feedStarts {b : Fin 64} {f : Fin 4} {v : BitVec 64} {s : State} (hon : feedOn s b = true) (hlock : feedLocked s b f = false)
    (hst : feedState s b f = 0 ∨ feedState s b f = 4) (hok : feedRefused (rset (fctl b f) (v &&& 0xFFFFFFFE) s) b f = false) :
    ∃ t, exec (.feedSwitchOn b f v) s = .next t ∧ feedState t b f = 1 ∧ rbit t (fctl b f) 0 = true ∧ (feed t b f).acc = 0 ∧
      (feed t b f).retries = fld v 4 4 ∧ (feed t b f).till = s.fclk + fld v 16 16 * msFclk ∧ t.out = s.out ++ [.gate b f true] ∧ t.mem = s.mem := by
  have hretries : fld (v ||| 1) 4 4 = fld v 4 4 := fld_or_one (by decide) (by decide) v
  have hdelay : fld (rget (fctlTaken b f (v ||| 1) s) (fctl b f)) 16 16 = fld v 16 16 := fld_fctlTaken (.inr rfl) (by decide) (by decide) ..
  have hgate : gateLevel (feedState s b f) = false := by rcases hst with h | h <;> simp [h, gateLevel]
  have hexec := feedSwitchOn_starts hon hlock hst hok
  generalize v ||| 1 = y at hretries hdelay hexec
  refine ⟨_, hexec, feedState_feedBlank .., ?_, ?_, ?_, ?_, ?_, ?_⟩
  · rw [rbit, rget_feedBlank_fctl, rget_feedArmed_fctl, bit_setBit_same _ _ (by decide)]
  · rw [feed_feedBlank]
  · rw [feed_feedBlank, feed_feedArmed, hretries]
  · rw [feed_feedBlank, rfld, rget_feedArmed_fctl, fld_setBit_apart _ _ (by omega), hdelay]
    simp [feedArmed, fctlTaken]
  · rw [feedBlank_out (by rw [feedState_congr (rget_feedArmed_fmeas ..), hgate])]
    simp [feedArmed, fctlTaken]
  · exact mem_of_offFeeds ((feedBlank_offFeeds ..).trans (feedArmed_offFeeds ..))
theorem feedStays {b : Fin 64} {f : Fin 4} {v : BitVec 64} {s : State} (hon : feedOn s b = true) (hlock : feedLocked s b f = false)
    (hst : feedState s b f = 0 ∨ feedState s b f = 4) (hbad : feedRefused (rset (fctl b f) (v &&& 0xFFFFFFFE) s) b f = true) :
    ∃ t, exec (.feedSwitchOn b f v) s = .next t ∧ feedState t b f = feedState s b f ∧ rbit t (fctl b f) 0 = false ∧ rbit t (pfdReg b 0) 24 = true := by
  have hv : bit (v ||| 1) 0 = true := by simp [bit]
  have hexec : exec (.feedSwitchOn b f v) s = .next (rbitSet (pfdReg b 0) 24 true (rbitSet (fctl b f) 0 false (fctlTaken b f (v ||| 1) s))) := by
    show execFeedSwitchOn b f v s = _
    rw [execFeedSwitchOn, gate_of_true hon, fctlWrite_on hlock hst hv, feedRefused_fctlTaken, hbad]
    rfl
  refine ⟨_, hexec, feedState_congr ?_, ?_, rbit_rbitSet_same (by decide) ..⟩
  · rw [rget_rbitSet_ne fmeas_ne_summary, rget_rbitSet_ne fmeas_ne_fctl, fctlTaken, rget_rset_ne fmeas_ne_fctl]
  · rw [rbit_rbitSet_off fctl_ne_summary]
    exact rbit_rbitSet_same (by decide) ..
theorem feedStops {b : Fin 64} {f : Fin 4} (v : BitVec 64) {s : State} (hon : feedOn s b = true) (hlock : feedLocked s b f = false) :
    ∃ t, exec (.feedSwitchOff b f v) s = .next t ∧ feedState t b f = 0 ∧ rbit t (fctl b f) 0 = false ∧
      t.out = s.out ++ (if gateLevel (feedState s b f) then [.gate b f false] else []) ∧ offRegs { t with out := [] } = offRegs { s with out := [] } := by
  have hv : bit (v &&& ~~~1) 0 = false := by simp [bit]
  have hexec : exec (.feedSwitchOff b f v) s = .next (setFeedState b f 0 (fctlTaken b f (v &&& ~~~1) s)) := by
    show execFeedSwitchOff b f v s = _
    rw [execFeedSwitchOff, gate_of_true hon, fctlWrite_off hlock hv]
  refine ⟨_, hexec, feedState_setFeedState _ _ 0 _ (by decide), ?_, ?_, ?_⟩
  · rw [rbit, rget_setFeedState_ne _ _ _ _ fctl_ne_fmeas, fctlTaken, rget_rset_same, bit_setBit_same _ _ (by decide), hv, Bool.and_false]
  · rw [setFeedState_out, feedState_congr (rget_fctlTaken_ne fmeas_ne_fctl ..)]
    cases h : gateLevel (feedState s b f) <;> simp [gateLevel, fctlTaken]
  · unfold setFeedState showGate fctlTaken
    split <;> simp [offRegs]

theorem powerFeeds : PowerFeeds := by
  intro b f s hon
  refine ⟨fun v hlock hst hok => feedStarts hon hlock hst hok, fun v hlock hst hbad => feedStays hon hlock hst hbad, fun v hlock => feedStops v hon hlock,
    fun v hlock => ⟨?_, ?_⟩, fun i vout => ?_, fun hst => ?_, fun hst => ?_, ?_⟩
  · show execFeedSwitchOn b f v s = _
    rw [execFeedSwitchOn, gate_of_true hon, fctlWrite_locked hlock]
  · show execFeedSwitchOff b f v s = _
    rw [execFeedSwitchOff, gate_of_true hon, fctlWrite_locked hlock]
  · intro u
    have hexec : exec (.feedSample b f i vout) s = .next (feedSample b f i.toNat vout.toNat u) := by
      show execFeedSample b f i vout s = _
      exact gateAt_of_true hon _ _ _
    obtain ⟨hkeep, hoff⟩ := keepsShown_feedSample b f i.toNat vout.toNat u
    obtain ⟨hi, hv, hpeak⟩ := rfld_sampleShown i.isLt vout.isLt b f u
    refine ⟨_, hexec, (hkeep 0 16 (by decide)).trans hi, (hkeep 32 16 (by decide)).trans hv, (hkeep 16 16 (by decide)).trans hpeak, mem_of_offFeeds (hoff.trans ?_)⟩
    rw [sampleShown, rput_offFeeds, rput_offFeeds, rput_offFeeds]
  · have hexec : exec (.hardLimitTrip b f) s = .next (feedTrip b f 1 s) := by
      show execHardLimitTrip b f s = _
      rw [execHardLimitTrip, gate_of_true (by rcases hst with h | h <;> simp [hon, h])]
    have hgate : gateLevel (feedState s b f) = true := by rcases hst with h | h <;> simp [h, gateLevel]
    have hf := f.isLt
    refine ⟨_, hexec, ?_, ?_, feedState_feedTrip .., feedTrip_out hgate 1, mem_of_offFeeds (feedTrip_offFeeds ..)⟩
    · rw [rfld_congr ((rget_feedTrip_ne summary_ne_fmeas ..).trans (rget_tripShown ..)), rfld_rput_same (by omega)]
      rfl
    · rw [rbit_congr ((rget_feedTrip_ne summary_ne_fmeas ..).trans (rget_tripShown ..)), rbit_rput_apart (by omega)]
      exact rbit_rbitSet_same (by omega) ..
  · intro u
    have hexec : exec (.feedRetry b f) s = .next (feedBlank b f (setFeed b f { feed u b f with retries := (feed u b f).retries - 1 } u)) := by
      show execFeedRetry b f s = _
      exact gateAt_of_true (by simp [hon, hst]) _ _ _
    have hstate : feedState (setFeed b f { feed u b f with retries := (feed u b f).retries - 1 } u) b f = feedState u b f := feedState_congr (rget_congr (by simp) _)
    refine ⟨_, hexec, feedState_feedBlank .., ?_, ?_, fun h3 => ?_, mem_of_offFeeds ((feedBlank_offFeeds ..).trans (setFeed_offFeeds ..))⟩
    · rw [feed_feedBlank, feed_setFeed_same]
    · rw [feed_feedBlank]
    · rw [feedBlank_out (by rw [hstate, h3]; rfl)]
      simp
  · refine ⟨_, gate_of_true hon _, ?_, ?_, ?_, ?_⟩
    · simp [fmeasRead]
    · rw [fmeasRead, rfld_rput_same (by decide)]
      rfl
    · rw [fmeasRead, rfld_rput_apart (by omega), rfld_congr (rget_emit ..)]
    · simp [fmeasRead]

/-- Settles O42. -/
theorem groupsAndFeeds : Obligations.GroupsAndFeeds := ⟨groupAndCellEnable, powerFeeds⟩

end Sys2Proof.Proofs

namespace Sys2Proof.Proofs

open Sys2Proof Sys2Proof.Machine Sys2Proof.Claims Sys2Proof.Laws

/-! ### Threads -/

@[simp] theorem thread_setThread_same (i : Nat) (x : Thread) (s : State) : thread (setThread i x s) i = x := tget_tset_self ..
theorem thread_setThread_ne {i j : Nat} (h : j ≠ i) (x : Thread) (s : State) : thread (setThread i x s) j = thread s j := tget_tset_ne _ _ _ h
@[simp] theorem thread_updThread_same (i : Nat) (g : Thread → Thread) (s : State) : thread (updThread i g s) i = g (thread s i) := thread_setThread_same ..
theorem thread_congr {s t : State} (h : s.threads = t.threads) (i : Nat) : thread s i = thread t i := by simp only [thread, h]
theorem onlyThread_setThread (i : Nat) (x : Thread) (s : State) : onlyThread i s (setThread i x s) := ⟨fun _ h => thread_setThread_ne h .., rfl⟩
theorem onlyThread_updThread (i : Nat) (g : Thread → Thread) (s : State) : onlyThread i s (updThread i g s) := onlyThread_setThread ..
theorem onlyThread_trans {i : Nat} {s t u : State} : onlyThread i s t → onlyThread i t u → onlyThread i s u
  | ⟨h1, h2⟩, ⟨h3, h4⟩ => ⟨fun j hj => (h3 j hj).trans (h1 j hj), h4.trans h2⟩
theorem thread_of_offRaised {s t : State} (h : offRaised t = offRaised s) (i : Nat) : thread t i = thread s i := thread_congr (congrArg State.threads h :) i
theorem mreg_setM (d : Nat) (v : BitVec 16) (x : Thread) : mreg (setM d v x) d = if d = 0 then 0 else v := by
  unfold mreg setM
  split
  · rfl
  · exact tget_tset_self ..
/-- A result leaves all but the registers of a thread. -/
theorem setM_eq (d : Nat) (v : BitVec 16) (x : Thread) : ∃ m, setM d v x = { x with m := m } := by
  unfold setM
  split
  · exact ⟨x.m, rfl⟩
  · exact ⟨_, rfl⟩

theorem blkReg_inj {b o o' : Nat} : blkReg b o = blkReg b o' ↔ o = o' := by
  simp only [blkReg, brim]
  omega

/-! #### BLK_STAT (R375) -/

theorem blkStat_offRaised (b i : Nat) (s : State) : offRaised (blkStat b i s) = offRaised s := by
  unfold blkStat
  dsimp only
  split
  · simp [offRaised, offLog]
  split
  · rw [raiseSteward_offRaised]
    simp [offRaised, offLog]
  · simp [offRaised, offLog]
theorem rbit_noteHit (a i : Nat) (x : Bool) (s : State) (b j : Nat) : rbit (noteHit a i x s) b j = rbit s b j := rbit_congr (rget_congr (by simp) b) j
theorem rbit_blkStat {i : Nat} (hi : i < 64) (b : Nat) (s : State) : rbit (blkStat b i s) (blkReg b 0x10) i = true := by
  unfold blkStat
  dsimp only
  split
  · rwa [rbit_noteHit]
  split
  · rw [rbit_congr (rget_raiseSteward ..), rbit_rbitSet_same hi]
  · exact rbit_rbitSet_same hi ..
theorem rbit_blkStat_ne {i j : Nat} (h : j ≠ i) (b : Nat) (s : State) : rbit (blkStat b i s) (blkReg b 0x10) j = rbit s (blkReg b 0x10) j := by
  unfold blkStat
  dsimp only
  split
  · exact rbit_noteHit ..
  split
  · rw [rbit_congr (rget_raiseSteward ..), rbit_rbitSet_ne h]
  · exact rbit_rbitSet_ne h ..
theorem rget_blkStat_ne {a b : Nat} (h : a ≠ blkReg b 0x10) (i : Nat) (s : State) : rget (blkStat b i s) a = rget s a := by
  unfold blkStat
  dsimp only
  split
  · exact rget_congr (by simp) a
  split
  · rw [rget_raiseSteward, rget_rbitSet_ne h]
  · exact rget_rbitSet_ne h ..

theorem w1sClear_offRaised (a i : Nat) (s : State) : offRaised (w1sClear a i s) = offRaised s := by
  unfold w1sClear
  split
  · rfl
  · simp [offRaised, offLog]
theorem threadFault_offRaised (t cause : Nat) (s : State) :
    offRaised (threadFault t cause s) = offRaised (updThread t (fun x => { x with state := 3, fcause := cause }) s) :=
  (blkStat_offRaised ..).trans (w1sClear_offRaised ..)
theorem thread_threadFault (t cause : Nat) (s : State) : thread (threadFault t cause s) t = { thread s t with state := 3, fcause := cause } :=
  (thread_of_offRaised (threadFault_offRaised ..) t).trans (thread_updThread_same ..)

/-! ### Operations on the thread (R364, R367, R369, R370) -/

theorem thread_rput (a lo w v : Nat) (s : State) (i : Nat) : thread (rput a lo w v s) i = thread s i := rfl
theorem thread_rptLost (t : Nat) (s : State) (i : Nat) : thread (rptLost t s) i = thread s i := rfl
theorem offRegs_rptLost (t : Nat) (s : State) : offRegs (rptLost t s) = offRegs s := offRegs_rsat ..

/-- The report that RSEND sends. -/
def rsendReport (t c : Nat) (v : BitVec 16) (s : State) : Report :=
  { pkg := rfld s (sesReg 0x20) 0 8, cell := c, sub := fld v 0 12, stamp := (thread s t).stamp.map (·.1), sseq := ((thread s t).stamp.map (·.2)).getD 0,
    data := (thread s t).report, at_ := s.fclk + 36, fab := false, blk := t / 16 }
theorem rsendAccepted {t c : Nat} {v : BitVec 16} {s : State} (h : sesAccepts s (t / 16) = true) :
    ∃ u, copRsend t c v s = u ∧ u.ses = { s.ses with queue := s.ses.queue ++ [rsendReport t c v s] } ∧
      thread u t = { thread s t with report := [], stamp := none } ∧ u.mem = s.mem := by
  have haccepts : sesAccepts (setThread t { thread s t with report := [], stamp := none } s) (t / 16) = true := h
  unfold copRsend
  dsimp only
  rw [if_pos haccepts]
  refine ⟨_, rfl, ?_, ?_, ?_⟩
  · simp [rsendReport]
    rfl
  · rw [thread_rput]
    exact thread_setThread_same ..
  · simp
theorem rsendDropped {t c : Nat} {v : BitVec 16} {s : State} (h : sesAccepts s (t / 16) = false) :
    (copRsend t c v s).ses = s.ses ∧ thread (copRsend t c v s) t = { thread s t with report := [], stamp := none } := by
  have haccepts : ¬ sesAccepts (setThread t { thread s t with report := [], stamp := none } s) (t / 16) = true := Bool.eq_false_iff.mp h
  unfold copRsend
  dsimp only
  rw [if_neg haccepts]
  exact ⟨by simp [rptLost], thread_setThread_same ..⟩

theorem coprocessorThreadOperations : CoprocessorThreadOperations := by
  intro i v s hgate
  refine ⟨⟨_, gate_of_true hgate _, onlyThread_updThread .., ?_, fun q hq => ?_, fun hq => ?_⟩, fun hlen => ?_, fun hlen => ?_,
    ⟨_, gate_of_true hgate _, onlyThread_updThread .., thread_updThread_same ..⟩, fun d => ?_,
    ⟨_, gate_of_true hgate _, onlyThread_updThread .., thread_updThread_same ..⟩, ⟨_, gate_of_true hgate _, onlyThread_updThread .., thread_updThread_same ..⟩,
    ?_, gate_of_true hgate _, fun k hacc => ?_, fun k hacc => ?_⟩
  · rw [copRstamp, thread_updThread_same]
  · rw [copRstamp, thread_updThread_same, hq]
    rfl
  · rw [copRstamp, thread_updThread_same, hq]
    rfl
  · have hrun : copRput i v s = setThread i { thread s i with report := (thread s i).report ++ [v.setWidth 8] } s := if_neg (by omega)
    refine ⟨_, gate_of_true hgate _, ?_, ?_⟩
    · rw [hrun]
      exact onlyThread_setThread ..
    · rw [hrun, thread_setThread_same]
  · have hrun : copRput i v s = rptLost i s := if_pos hlen
    refine ⟨_, gate_of_true hgate _, ?_, ?_⟩
    · rw [hrun, offRegs_rptLost]
    · rw [hrun, rptLost, rfld_rsat_same (by decide)]
  · have hrest : (copCmdb i s).2 = setThread i { thread s i with cmds := (thread s i).cmds.drop 1 } s := rfl
    obtain ⟨m, hm⟩ := setM_eq d (copCmdb i s).1 (thread (copCmdb i s).2 i)
    refine ⟨updThread i (setM d (copCmdb i s).1) (copCmdb i s).2, gate_of_true hgate _, ?_, ?_, ?_⟩
    · exact onlyThread_trans (hrest ▸ onlyThread_setThread ..) (onlyThread_updThread ..)
    · rw [thread_updThread_same, hm, hrest, thread_setThread_same]
    · rw [thread_updThread_same, mreg_setM]
      simp only [Fin.ext_iff, Fin.val_zero]
      rfl
  · have hoff := blkStat_offRaised (i / 16) (32 + i % 16) s
    exact ⟨_, gate_of_true hgate _, rbit_blkStat (by omega) .., (congrArg State.threads hoff :), (congrArg State.mem hoff :)⟩
  · obtain ⟨u, hu, hses, hthread, hmem⟩ := rsendAccepted (c := copCell i k) (v := v) hacc
    exact ⟨u, _, hu ▸ gate_of_true hgate _, hses, rfl, rfl, rfl, rfl, rfl, hthread, hmem⟩
  · exact ⟨_, gate_of_true hgate _, rsendDropped hacc⟩

end Sys2Proof.Proofs

namespace Sys2Proof.Proofs

open Sys2Proof Sys2Proof.Machine Sys2Proof.Claims Sys2Proof.Laws

/-! ### Operations on a cell (R360, R364, R365, R378) -/

section
variable {i : Fin 1024} {k : Fin 16} {s : State}

theorem onCell_takes (h : mayTouch i k s) (g : State → State) : onCell i k g s = .next (g s) := by
  obtain ⟨hgate, hlock⟩ := h
  rw [onCell, gate_of_true hgate, if_neg (by rw [hlock]; exact Bool.false_ne_true)]
theorem onCell_faults (hgate : copGate s i = true) (h : ¬ mayTouch i k s) (g : State → State) : onCell i k g s = .next (threadFault i 3 s) := by
  rw [onCell, gate_of_true hgate, if_pos]
  exact Bool.not_eq_false _ ▸ fun hlock => h ⟨hgate, hlock⟩

end

/-- An entry joins a shift queue that has room (R365). -/
theorem queueEntry_joins {p : Nat} {e : ShiftEntry} {s : State} (hen : cellEn s p = true) (hroom : (cell s p).queue.length < 8)
    (he : ∀ v, e = .shift v → fld v 0 12 ≠ 0) :
    (cell (queueEntry p e s) p).queue = (cell s p).queue ++ [e] ∧ onlyCell p s (queueEntry p e s) := by
  have hkeep : ¬ ((match e with | .shift v => fld v 0 12 == 0 | _ => false) || decide (8 ≤ (cell s p).queue.length) || !cellEn s p) = true := by
    cases e with
    | shift v => simp [hen, hroom, he v rfl]
    | span v => simp [hen, hroom]
    | pads v => simp [hen, hroom]
  have heq : queueEntry p e s = setCell p { cell s p with queue := (cell s p).queue ++ [e], entryAt := if (cell s p).queue.isEmpty then s.fclk else (cell s p).entryAt } s := by
    unfold queueEntry
    cases e <;> exact if_neg hkeep
  rw [heq, cell_setCell_same]
  exact ⟨rfl, onlyCell_setCell ..⟩

theorem rxRead_one (p : Nat) (s : State) : bytesNat (rxRead p 1 s).1 = ((cell s p).rx.head?.getD 0).toNat := by
  unfold rxRead
  dsimp only
  cases (cell s p).rx with
  | nil => rfl
  | cons b bs => simp [bytesNat]

theorem cell_flushTxFifo (p : Nat) (s : State) : cell (flushTxFifo p s) p = { cell s p with tx := (cell s p).tx.drop 256 } := cell_txTake ..
theorem cell_flushRxFifo (p : Nat) (s : State) : cell (flushRxFifo p s) p = { cell s p with rx := [] } := cell_updCell_same ..

theorem copFlush_empties (c : Nat) (v : BitVec 16) (s : State) :
    (bit v 0 = true → (cell (copFlush c v s) c).tx = (cell s c).tx.drop 256) ∧ (bit v 0 = false → (cell (copFlush c v s) c).tx = (cell s c).tx) ∧
    (cell (copFlush c v s) c).rx = (if bit v 1 then [] else (cell s c).rx) ∧ (cell (copFlush c v s) c).queue = (if bit v 2 then [] else (cell s c).queue) ∧
    (copFlush c v s).mem = s.mem := by
  have hoff : offCells (copFlush c v s) = offCells s := by
    unfold copFlush
    dsimp only
    rw [apply_ite offCells, updCell_offCells, ite_self, apply_ite offCells, flushRxFifo_offCells, ite_self, apply_ite offCells, flushTxFifo_offCells, ite_self]
  refine ⟨fun h0 => ?_, fun h0 => ?_, ?_, ?_, mem_of_offCells hoff⟩
  · cases h1 : bit v 1 <;> cases h2 : bit v 2 <;> simp [copFlush, h0, h1, h2, cell_flushTxFifo, cell_flushRxFifo]
  · cases h1 : bit v 1 <;> cases h2 : bit v 2 <;> simp [copFlush, h0, h1, h2, cell_flushRxFifo]
  · cases h0 : bit v 0 <;> cases h1 : bit v 1 <;> cases h2 : bit v 2 <;> simp [copFlush, h0, h1, h2, cell_flushTxFifo, cell_flushRxFifo]
  · cases h0 : bit v 0 <;> cases h1 : bit v 1 <;> cases h2 : bit v 2 <;> simp [copFlush, h0, h1, h2, cell_flushTxFifo, cell_flushRxFifo]

theorem cell_updThread (i : Nat) (g : Thread → Thread) (s : State) (p : Nat) : cell (updThread i g s) p = cell s p := rfl
theorem rbit_updThread (i : Nat) (g : Thread → Thread) (s : State) (a j : Nat) : rbit (updThread i g s) a j = rbit s a j := rfl
theorem thread_rxRead (p n : Nat) (s : State) (i : Nat) : thread (rxRead p n s).2.2 i = thread s i := by
  unfold rxRead
  dsimp only
  split <;> rfl

theorem coprocessorCellOperations : CoprocessorCellOperations := by
  intro i k v s p c
  refine ⟨fun hmay => ⟨?_, fun d => ?_, fun hen hroom => ⟨fun hv => ?_, ?_, ?_⟩, fun x => onCell_takes hmay _, ?_⟩, fun hgate x d => ?_, fun hgate hno => ?_⟩
  · have hoff := txWrite_offSignal p [v.setWidth 8] s
    refine ⟨txWrite p [v.setWidth 8] s, onCell_takes hmay _, (cell_of_offSignal hoff p).trans (cell_setCell_same ..), fun (h : (cell s p).tx.length < 256) => ?_,
      fun (h : 256 ≤ (cell s p).tx.length) => rbit_txWrite_full (by simp; omega)⟩
    rw [txWrite_fits (by simp; omega)]
    exact onlyCell_setCell ..
  · have hoff := rxRead_offSignal p 1 s
    refine ⟨updThread i (setM d (BitVec.ofNat 16 (bytesNat (rxRead p 1 s).1))) (rxRead p 1 s).2.2, onCell_takes hmay (fun s => let (r, s) := copRxb p s; updThread i (setM d r) s), ?_, ?_, ?_, fun h => ?_⟩
    · rw [cell_updThread]
      exact (cell_of_offSignal hoff p).trans (cell_setCell_same ..)
    · rw [thread_updThread_same, mreg_setM, rxRead_one]
      simp only [Fin.ext_iff, Fin.val_zero]
      rfl
    · exact mem_of_offCells (rxRead_offCells ..)
    · rw [rbit_updThread]
      exact rbit_rxRead_short (by rw [h]; decide)
  · exact ⟨_, onCell_takes hmay _, queueEntry_joins hen hroom fun w hw => by cases hw; exact hv⟩
  · exact ⟨_, onCell_takes hmay _, queueEntry_joins hen hroom fun w hw => by cases hw⟩
  · exact ⟨_, onCell_takes hmay _, queueEntry_joins hen hroom fun w hw => by cases hw⟩
  · exact ⟨_, onCell_takes hmay _, copFlush_empties ..⟩
  · refine ⟨_, gate_of_true hgate _, onlyThread_updThread .., ?_⟩
    rw [thread_updThread_same, mreg_setM]
    simp only [Fin.ext_iff, Fin.val_zero]
    rfl
  · exact ⟨_, onCell_faults hgate hno _, thread_threadFault .., (congrArg State.cells (threadFault_offRaised i 3 s) :)⟩

end Sys2Proof.Proofs

namespace Sys2Proof.Proofs

open Sys2Proof Sys2Proof.Machine Sys2Proof.Claims Sys2Proof.Laws

/-! ### Entries of the shift queue (R365, R366) -/

/-! #### Bytes in line order -/

theorem packBits_length (msbf : Bool) (fuel : Nat) (bits : List Bool) : (packBits msbf fuel bits).length ≤ (bits.length + 7) / 8 := by
  induction fuel generalizing bits with
  | zero => simp [packBits]
  | succ fuel ih =>
    rw [packBits]
    dsimp only
    split
    · simp
    · rename_i h
      have hpos : 0 < bits.length := List.length_pos_iff.mpr (by simpa using h)
      have hrest := ih (bits.drop 8)
      simp only [List.length_cons, List.length_drop] at hrest ⊢
      omega

theorem rxPushAll_offCells (p : Nat) (bs : List Byte) (s : State) : offCells (rxPushAll p bs s) = offCells s := foldl_keeps (fun _ _ => rxPush_offCells ..) _ _
theorem cell_rxPushAll_room {p : Nat} (bs : List Byte) {s : State} (h : (cell s p).rx.length + bs.length ≤ 256) :
    cell (rxPushAll p bs s) p = { cell s p with rx := (cell s p).rx ++ bs } := by
  induction bs generalizing s with
  | nil => simp [rxPushAll]
  | cons b bs ih =>
    have hb := cell_rxPush_room (p := p) (s := s) (by simp at h; omega) b
    have hrest := ih (s := rxPush p b s) (by rw [hb]; simp at h ⊢; omega)
    rw [hb] at hrest
    simpa [rxPushAll] using hrest
theorem cell_rxPushAll (p : Nat) (bs : List Byte) (s : State) : ∃ q, cell (rxPushAll p bs s) p = { cell s p with rx := q } := by
  induction bs generalizing s with
  | nil => exact ⟨_, rfl⟩
  | cons b bs ih =>
    obtain ⟨q, hq⟩ := cell_rxPush p b s
    obtain ⟨r, hr⟩ := ih (rxPush p b s)
    exact ⟨r, by rw [hq] at hr; exact hr⟩

/-! #### What an entry leaves of its queue -/

/-- The shift queue and everything outside the cells stand. -/
def keepsQueue (p : Nat) (s t : State) : Prop := (cell t p).queue = (cell s p).queue ∧ offCells t = offCells s

section
variable {p : Nat} {s t u : State}

theorem keepsQueue_refl : keepsQueue p s s := ⟨rfl, rfl⟩
theorem keepsQueue_trans : keepsQueue p s t → keepsQueue p t u → keepsQueue p s u
  | ⟨h1, h2⟩, ⟨h3, h4⟩ => ⟨h3.trans h1, h4.trans h2⟩
theorem keepsQueue_ite {c : Prop} [Decidable c] (ht : keepsQueue p s t) (hu : keepsQueue p s u) : keepsQueue p s (if c then t else u) := by
  split
  · exact ht
  · exact hu
theorem keepsQueue_updCell {g : Cell → Cell} (h : ∀ c, (g c).queue = c.queue) : keepsQueue p s (updCell p g s) :=
  ⟨by rw [cell_updCell_same, h], updCell_offCells ..⟩
theorem keepsQueue_of_signal (h : offSignal t = offSignal s) : keepsQueue p s t := ⟨by rw [cell_of_offSignal h], offCells_of_offSignal h⟩
theorem keepsQueue_emit (o : Out) : keepsQueue p s (emit o s) := ⟨rfl, emit_offCells ..⟩
theorem keepsQueue_rxPushAll (bs : List Byte) : keepsQueue p s (rxPushAll p bs s) := by
  obtain ⟨q, hq⟩ := cell_rxPushAll p bs s
  exact ⟨by rw [hq], rxPushAll_offCells ..⟩
theorem keepsQueue_setPush {x : Cell} (h : x.queue = (cell s p).queue) (bs : List Byte) : keepsQueue p s (rxPushAll p bs (setCell p x s)) :=
  keepsQueue_trans ⟨by rw [cell_setCell_same, h], setCell_offCells ..⟩ (keepsQueue_rxPushAll bs)
theorem keepsQueue_showPads (q : Nat) : keepsQueue p s (showPads q s) := keepsQueue_emit _
theorem keepsQueue_txTake (n : Nat) : keepsQueue p s (txTake p n s).2 := ⟨by rw [cell_txTake], txTake_offCells ..⟩
theorem keepsQueue_sendBits (start n : Nat) (bits : List Bool) : keepsQueue p s (sendBits p start n bits s) := by
  obtain ⟨l, hl⟩ := cell_sendBits p start n bits s
  exact ⟨by rw [hl], sendBits_offCells ..⟩
theorem keepsQueue_spanTx (bits : List Bool) : keepsQueue p s (spanTx p bits s) := by
  unfold spanTx
  split
  · exact keepsQueue_updCell fun _ => rfl
  · exact keepsQueue_refl
theorem keepsQueue_spanRx (bits : List Bool) : keepsQueue p s (spanRx p bits s) := by
  unfold spanRx
  dsimp only
  split
  · exact keepsQueue_setPush (by rfl) _
  · exact keepsQueue_rxPushAll _
theorem keepsQueue_spanCheck : keepsQueue p s (spanCheck p s) := by
  unfold spanCheck
  dsimp only
  split
  · exact keepsQueue_trans (keepsQueue_trans (keepsQueue_rxPushAll _) (keepsQueue_updCell (by intro; rfl)))
      (keepsQueue_ite keepsQueue_refl (keepsQueue_of_signal ((cellEvent_offSignal ..).trans (cellStat_offSignal ..))))
  · exact keepsQueue_refl

end

/-- The bytes that a transmit shift still takes, and what it puts on the line. -/
def shiftTaken (p : Nat) (v : BitVec 16) (s : State) : State := (txTake p ((fld v 0 12 + 7) / 8 - (cell s p).entryTx.length) s).2
/-- A transmit shift once its bytes are taken and missing ones told: the line, the CRC, whether arbitration was lost. -/
def shiftLined (p : Nat) (v : BitVec 16) (o : Out) (start n : Nat) (sent bits : List Bool) (lost : Bool) (s : State) : State :=
  let s := emit o (sendBits p start n sent s)
  let s := if bit v 13 then s else spanTx p bits s
  updCell p (fun c => { c with lost := lost }) s
theorem shiftSent_eq (p : Nat) (v : BitVec 16) (r : ShiftResult) (s : State) : ∃ (short : Prop) (_ : Decidable short) (o : Out) (start n : Nat) (sent bits : List Bool),
    shiftSent p v r s = shiftLined p v o start n sent bits (shiftLost s p v r).isSome (if short then cellStat p 3 (shiftTaken p v s) else shiftTaken p v s) :=
  ⟨_, _, _, _, _, _, _, rfl⟩

theorem cell_spanTx (p : Nat) (bits : List Bool) (s : State) : ∃ x, cell (spanTx p bits s) p = { cell s p with span := x } := by
  unfold spanTx
  split
  · exact ⟨_, cell_updCell_same ..⟩
  · exact ⟨_, rfl⟩
theorem cell_shiftLined (p : Nat) (v : BitVec 16) (o : Out) (start n : Nat) (sent bits : List Bool) (lost : Bool) (s : State) :
    ∃ l x, cell (shiftLined p v o start n sent bits lost s) p = { cell s p with txLine := l, span := x, lost := lost } := by
  obtain ⟨l, hl⟩ := cell_sendBits p start n sent s
  unfold shiftLined
  dsimp only
  split
  · exact ⟨l, _, by rw [cell_updCell_same, cell_emit, hl]⟩
  · obtain ⟨x, hx⟩ := cell_spanTx p bits (emit o (sendBits p start n sent s))
    exact ⟨l, x, by rw [cell_updCell_same, hx, cell_emit, hl]⟩
theorem keepsQueue_shiftLined (p : Nat) (v : BitVec 16) (o : Out) (start n : Nat) (sent bits : List Bool) (lost : Bool) (s : State) :
    keepsQueue p s (shiftLined p v o start n sent bits lost s) :=
  have hline := keepsQueue_trans (keepsQueue_sendBits start n sent) (keepsQueue_emit o)
  keepsQueue_trans (keepsQueue_ite hline (keepsQueue_trans hline (keepsQueue_spanTx bits))) (keepsQueue_updCell (by intro; rfl))
/-- A transmit shift takes its bytes from the TX FIFO and tells whether arbitration was lost. -/
theorem cell_shiftSent (p : Nat) (v : BitVec 16) (r : ShiftResult) (s : State) : ∃ l x, cell (shiftSent p v r s) p =
    { cell s p with tx := (cell s p).tx.drop ((fld v 0 12 + 7) / 8 - (cell s p).entryTx.length), txLine := l, span := x, lost := (shiftLost s p v r).isSome } := by
  obtain ⟨short, _, o, start, n, sent, bits, h⟩ := shiftSent_eq p v r s
  obtain ⟨l, x, hc⟩ := cell_shiftLined p v o start n sent bits (shiftLost s p v r).isSome (if short then cellStat p 3 (shiftTaken p v s) else shiftTaken p v s)
  refine ⟨l, x, ?_⟩
  rw [h, hc, apply_ite (cell · p), cell_cellStat, ite_self, shiftTaken, cell_txTake]
theorem keepsQueue_shiftSent (p : Nat) (v : BitVec 16) (r : ShiftResult) (s : State) : keepsQueue p s (shiftSent p v r s) := by
  obtain ⟨short, _, o, start, n, sent, bits, h⟩ := shiftSent_eq p v r s
  rw [h]
  refine keepsQueue_trans (keepsQueue_trans (keepsQueue_txTake ((fld v 0 12 + 7) / 8 - (cell s p).entryTx.length)) ?_) (keepsQueue_shiftLined ..)
  exact keepsQueue_ite (keepsQueue_of_signal (cellStat_offSignal ..)) keepsQueue_refl

theorem keepsQueue_lineRead (p i : Nat) (x : LineSt) (s : State) : keepsQueue p s (lineRead p i x s) := keepsQueue_updCell fun _ => rfl
theorem keepsQueue_shiftGot (p : Nat) (x : List Bool × Nat × LineSt) (s : State) : keepsQueue p s (shiftGot p x s) :=
  keepsQueue_trans (keepsQueue_lineRead ..) (keepsQueue_spanRx _)
theorem keepsQueue_shiftDone (p : Nat) (v : BitVec 16) (r : ShiftResult) (s : State) : keepsQueue p s (shiftDone p v r s) := by
  have hsent : keepsQueue p s (if bit v 12 then shiftSent p v r s else s) := keepsQueue_ite (keepsQueue_shiftSent ..) keepsQueue_refl
  exact keepsQueue_ite (keepsQueue_trans hsent (keepsQueue_shiftGot ..)) hsent

theorem keepsQueue_entryEffect (p : Nat) (e : ShiftEntry) (r : ShiftResult) (s : State) : keepsQueue p s (entryEffect p e r s) := by
  cases e with
  | shift v => exact keepsQueue_shiftDone ..
  | span v =>
    unfold entryEffect
    dsimp only
    split
    · exact keepsQueue_updCell fun _ => rfl
    · exact keepsQueue_updCell fun _ => rfl
    · exact keepsQueue_updCell fun _ => rfl
    · exact keepsQueue_trans (keepsQueue_trans (keepsQueue_emit _) (keepsQueue_sendBits ..)) (keepsQueue_updCell (by intro; rfl))
    · exact keepsQueue_spanCheck
    · exact keepsQueue_of_signal (cellEvent_offSignal ..)
    · exact keepsQueue_trans (keepsQueue_trans (keepsQueue_emit _) (keepsQueue_emit _)) (keepsQueue_updCell (by intro; rfl))
    · exact keepsQueue_refl
  | pads v =>
    unfold entryEffect
    dsimp only
    exact keepsQueue_trans (keepsQueue_updCell (by intro; rfl)) (keepsQueue_showPads p)

/-! #### The end of an entry -/

theorem entryDone_cell (p : Nat) (e : ShiftEntry) (r : ShiftResult) (s : State) : cell (entryDone p e r s) p =
    { cell (entryEffect p e r s) p with queue := (cell s p).queue.drop 1, entryAt := s.fclk, entryGot := 0, entryTx := [], lineGot := 0 } := by
  obtain ⟨hqueue, hoff⟩ := keepsQueue_entryEffect p e r s
  have hfclk : (entryEffect p e r s).fclk = s.fclk := (congrArg State.fclk hoff :)
  unfold entryDone
  dsimp only
  rw [apply_ite (cell · p), cell_latchEvent, ite_self, cell_updCell_same, hqueue, hfclk]
theorem entryDone_offCells (p : Nat) (e : ShiftEntry) (r : ShiftResult) (s : State) : offCells (entryDone p e r s) = offCells s := by
  unfold entryDone
  dsimp only
  rw [apply_ite offCells, latchEvent_offCells, ite_self, updCell_offCells, (keepsQueue_entryEffect p e r s).2]

theorem shiftGot_room {p : Nat} {x : List Bool × Nat × LineSt} {s : State} (hspan : (cell s p).span = none)
    (hroom : (cell s p).rx.length + x.1.length / 8 + 1 ≤ 256) : cell (shiftGot p x s) p =
      { cell s p with lineGot := x.2.1, rxLine := x.2.2, rx := (cell s p).rx ++ packBits (cellMsbf s p) (x.1.length + 1) x.1 } := by
  have hline : cell (lineRead p x.2.1 x.2.2 s) p = { cell s p with lineGot := x.2.1, rxLine := x.2.2 } := cell_updCell_same ..
  have hmsbf : cellMsbf (lineRead p x.2.1 x.2.2 s) p = cellMsbf s p := rfl
  have hlen := packBits_length (cellMsbf s p) (x.1.length + 1) x.1
  have hrx : spanRx p x.1 (lineRead p x.2.1 x.2.2 s) = rxPushAll p (packBits (cellMsbf s p) (x.1.length + 1) x.1) (lineRead p x.2.1 x.2.2 s) := by
    unfold spanRx
    dsimp only
    rw [hline, hmsbf]
    dsimp only
    rw [hspan]
  rw [shiftGot, hrx, cell_rxPushAll_room _ (by rw [hline]; dsimp only; omega), hline]

theorem shiftEntryEnds : ShiftEntryEnds := by
  intro p r e rest s hon hqueue hburst u
  have hexec : exec (.shiftEntryEnd p r) s = .next (entryDone p e r u) := by
    show execShiftEntryEnd p r s = _
    unfold execShiftEntryEnd
    rw [hqueue]
    exact gateAt_of_true (by simp [hburst, hon]) _ _ _
  have hcell := entryDone_cell p e r u
  have hoff := entryDone_offCells p e r u
  refine ⟨_, hexec, by rw [hcell], by rw [hcell], by rw [hcell], by rw [hcell], by rw [hcell], mem_of_offCells hoff, facets_of_offCells hoff, ?_, ?_, ?_⟩
  · intro v he h12 h13 hspan bits hroom
    have heff : entryEffect p e r u = shiftGot p (shiftRead u p v r) u := by
      subst he
      simp only [entryEffect, shiftDone, h12, h13, if_true, Bool.false_eq_true, if_false]
    rw [hcell, heff, shiftGot_room hspan hroom]
    exact ⟨rfl, rfl⟩
  · intro v he h12 h13
    have heff : entryEffect p e r u = shiftSent p v r u := by
      subst he
      simp only [entryEffect, shiftDone, h12, h13, if_true, Bool.false_eq_true, if_false]
    obtain ⟨l, x, hsent⟩ := cell_shiftSent p v r u
    rw [hcell, heff, hsent]
    exact ⟨rfl, rfl, rfl⟩
  · intro v he hv
    subst he
    have hcases : fld v 0 4 = 0 ∨ fld v 0 4 = 1 := by omega
    rcases hcases with h | h
    · have heff : entryEffect p (.span v) r u = updCell p (fun c => { c with stuff := true }) u := by
        unfold entryEffect
        dsimp only
        rw [h]
        rfl
      rw [hcell, heff, cell_updCell_same, h]
      exact ⟨rfl, rfl⟩
    · have heff : entryEffect p (.span v) r u = updCell p (fun c => { c with stuff := false }) u := by
        unfold entryEffect
        dsimp only
        rw [h]
        rfl
      rw [hcell, heff, cell_updCell_same, h]
      exact ⟨rfl, rfl⟩

/-- Settles O45. -/
theorem threadOperations : Obligations.ThreadOperations := ⟨shiftEntryEnds, coprocessorCellOperations, coprocessorThreadOperations⟩

end Sys2Proof.Proofs

namespace Sys2Proof.Proofs

open Sys2Proof Sys2Proof.Machine Sys2Proof.Claims Sys2Proof.Laws

/-! ### Control words and yields (R358 to R363, R367, R368, R371, R372) -/

theorem slotOwner_lt (s : State) (b n : Nat) : slotOwner s b n < 16 := fld_lt ..

theorem controlWordIssue_takes {b : Fin 64} {errs : Fin 3} {n : Nat} {s : State}
    (hn : nextOwned s b (freeSlot s b) (fun t => (thread s (16 * b.val + t)).state == 1) = some n) (hon : spineOn s b = true)
    (hword : wordReserved (wordAt s b (thread s (16 * b.val + slotOwner s b n))) = false) : exec (.controlWordIssue b errs) s =
      .next (issueWord (16 * b.val + slotOwner s b n) errs
        (setBlocker b { blocker (advanceTo (bclkFclk s b n) s) b with nextSlot := n + 1 } (advanceTo (bclkFclk s b n) s))) := by
  show execControlWordIssue b errs s = _
  unfold execControlWordIssue
  rw [hn]
  dsimp only
  rw [if_neg (by simp [hon, hword])]

theorem thread_countWordErrs (b errs : Nat) (s : State) (i : Nat) : thread (countWordErrs b errs s) i = thread s i := by
  unfold countWordErrs
  split
  · rfl
  split <;> rfl

/-- An uncorrectable control word stops the thread. -/
theorem issueWord_uncorrectable (t : Nat) (s : State) : thread (issueWord t 2 s) t = { thread s t with state := 3, fcause := 4 } := by
  have hword : issueWord t 2 s = threadFault t 4 (countWordErrs (t / 16) 2 s) := rfl
  rw [hword, thread_threadFault, thread_countWordErrs]

/-- What an addition makes of a thread: the result, the flags, the next address. -/
def added (d : Nat) (l r : BitVec 16) (x : Thread) : Thread :=
  let y := setM d (l + r) { x with z := l + r == 0, n := (l + r).getLsbD 15, c := decide (65536 ≤ l.toNat + r.toNat) }
  { y with pc := y.pc + 1 }
/-- The second operand of a word: the immediate, or a register. -/
def wordOperand (w : BitVec 64) (x : Thread) : BitVec 16 := if fld w 16 4 = 0 then BitVec.ofNat 16 (fld w 0 16) else mreg x (fld w 16 4)

/-- A plain addition word, which does nothing else (R361 to R364). -/
def plainAdd (w : BitVec 64) : Prop := fld w 28 4 = 2 ∧ fld w 32 5 = 0 ∧ fld w 53 6 = 0 ∧ fld w 59 3 = 0 ∧ fld w 62 2 = 0

theorem wordFault_plainAdd {w : BitVec 64} (h : plainAdd w) (t c : Nat) (s : State) : wordFault s t c w 0 = 0 := by
  obtain ⟨_, hcop, _, hnext, _⟩ := h
  unfold wordFault
  simp [hcop, hnext]
theorem thread_wordRun_plainAdd {w : BitVec 64} (h : plainAdd w) (t c : Nat) (x : Thread) (s : State) :
    thread (wordRun t c w x s) t = added (fld w 24 4) (mreg x (fld w 20 4)) (wordOperand w x) (thread (advanceTo (s.fclk + 4) s) t) := by
  obtain ⟨haop, hcop, _, hnext, hyield⟩ := h
  unfold wordRun endWord
  simp only [haop, hcop, hyield, if_true, copRun, aopRun, writeResult]
  rw [thread_updThread_same]
  unfold nextPc
  dsimp only
  rw [hnext]
  dsimp only [Option.orElse]
  rw [thread_updThread_same, thread_setThread_same]
  rfl
theorem thread_issueWord_plainAdd {t : Nat} {s : State} (h : plainAdd (wordAt s (t / 16) (thread s t))) :
    thread (issueWord t 0 s) t = added (fld (wordAt s (t / 16) (thread s t)) 24 4) (mreg (thread s t) (fld (wordAt s (t / 16) (thread s t)) 20 4))
      (wordOperand (wordAt s (t / 16) (thread s t)) (thread s t)) (thread (advanceTo (s.fclk + 4) s) t) := by
  unfold issueWord
  dsimp only
  rw [show countWordErrs (t / 16) 0 s = s from rfl, wordFault_plainAdd h]
  exact thread_wordRun_plainAdd h ..

theorem mreg_added (d : Nat) (l r : BitVec 16) (x : Thread) : mreg (added d l r x) d = if d = 0 then 0 else l + r := mreg_setM ..
theorem added_rest (d : Nat) (l r : BitVec 16) (x : Thread) : (added d l r x).pc = x.pc + 1 ∧ (added d l r x).z = (l + r == 0) ∧
    (added d l r x).c = decide (65536 ≤ l.toNat + r.toNat) ∧ (added d l r x).stack = x.stack := by
  obtain ⟨m, hm⟩ := setM_eq d (l + r) { x with z := l + r == 0, n := (l + r).getLsbD 15, c := decide (65536 ≤ l.toNat + r.toNat) }
  unfold added
  dsimp only
  rw [hm]
  exact ⟨rfl, rfl, rfl, rfl⟩

/-! #### A bank switch leaves all but the bank of a thread (R374) -/

theorem swapFinish_offRaised (b : Nat) (s : State) : offRaised (swapFinish b s) = offRaised s := by
  have hrset (a : Nat) (v : BitVec 64) (s : State) : offRaised (rset a v s) = offRaised s := by simp [offRaised, offLog]
  have hbit (a i : Nat) (x : Bool) (s : State) : offRaised (rbitSet a i x s) = offRaised s := by simp [offRaised, offLog]
  unfold swapFinish
  dsimp only
  split
  · rw [hrset, blkStat_offRaised, hbit, hbit, hbit]
  · rfl
theorem mem_of_offRaised {s t : State} (h : offRaised t = offRaised s) : t.mem = s.mem := (congrArg State.mem h :)
theorem thread_rbitSet (a i : Nat) (x : Bool) (s : State) (j : Nat) : thread (rbitSet a i x s) j = thread s j := rfl
theorem thread_switchThread (t : Nat) (s : State) : ∃ k, thread (switchThread t s) t = { thread s t with bank := k } := by
  unfold switchThread
  dsimp only
  split
  · refine ⟨!blkLive s (t / 16), (thread_of_offRaised (swapFinish_offRaised ..) t).trans ?_⟩
    rw [thread_rbitSet, thread_updThread_same]
  · exact ⟨_, rfl⟩
theorem thread_switchThread_ne {t j : Nat} (h : j ≠ t) (s : State) : thread (switchThread t s) j = thread s j := by
  unfold switchThread
  dsimp only
  split
  · exact (thread_of_offRaised (swapFinish_offRaised ..) j).trans (thread_setThread_ne h ..)
  · rfl
theorem switchThread_mem_eq (t : Nat) (s : State) : (switchThread t s).mem = s.mem := by
  unfold switchThread
  dsimp only
  split
  · exact (mem_of_offRaised (swapFinish_offRaised ..)).trans (by simp [updThread])
  · rfl

/-! #### Parking, the micro-timer, START and STOP -/

theorem thread_yieldSnap (t : Nat) (s : State) : mreg (thread (yieldSnap t s) t) 15 = (thread s t).latch &&& (thread s t).mask := by
  unfold yieldSnap
  rw [thread_updThread_same]
  exact (mreg_setM 15 ((thread s t).latch &&& (thread s t).mask) (thread s t)).trans (if_neg (by decide))
/-- The next address leaves the registers of a thread. -/
theorem nextPc_m (w : BitVec 64) (holds : Bool) (r x : Thread) : (nextPc w holds r x).m = x.m := by
  unfold nextPc
  dsimp only
  split
  case h_7 => split <;> rfl
  all_goals rfl
theorem unpark_wakes (t : Nat) (s : State) : (thread (unpark t s) t).state = 1 ∧ (thread (unpark t s) t).wake = false ∧
    mreg (thread (unpark t s) t) 15 = (thread (advanceTo (s.fclk + 4) s) t).latch &&& (thread (advanceTo (s.fclk + 4) s) t).mask ∧
    (unpark t s).mem = (advanceTo (s.fclk + 4) s).mem := by
  obtain ⟨k, hk⟩ := thread_switchThread t (yieldSnap t (advanceTo (s.fclk + 4) s))
  unfold unpark
  dsimp only
  rw [thread_updThread_same]
  refine ⟨rfl, rfl, ?_, ?_⟩
  · rw [← thread_yieldSnap]
    unfold mreg
    dsimp only
    rw [nextPc_m, hk]
  · exact (switchThread_mem_eq ..).trans (by simp [yieldSnap, updThread])

theorem parkWake_takes {i : Fin 1024} {n : Nat} {s : State} (hon : spineOn s (i / 16) = true)
    (hn : nextOwned s (i / 16) (max (freeSlot s (i / 16)) (bclkAt s (i / 16) ((thread s i).latchAt + 7))) (· == i.val % 16) = some n)
    (hst : (thread s i).state = 2) (hev : (thread s i).latch &&& (thread s i).mask ≠ 0 ∨ (thread s i).wake = true) : exec (.parkWake i) s =
      .next (unpark i (setBlocker (i / 16) { blocker (advanceTo (bclkFclk s (i / 16) n) s) (i / 16) with nextSlot := n + 1 }
        (advanceTo (bclkFclk s (i / 16) n) s))) := by
  show execParkWake i s = _
  unfold execParkWake
  dsimp only
  rw [hn]
  dsimp only
  rw [if_pos (by simpa [hst, hon] using hev)]

theorem thread_latchEvent (t i : Nat) (s : State) : thread (latchEvent t i s) t =
    { thread s t with latch := (thread s t).latch ||| BitVec.ofNat 16 (2 ^ i), latchAt := if (thread s t).latch &&& (thread s t).mask = 0 then s.fclk else (thread s t).latchAt } :=
  thread_setThread_same ..

theorem blockerThreads : BlockerThreads := by
  intro i s hon
  refine ⟨fun b errs n hn hi hword => ?_, fun n hn hst hev => ?_, fun d hd => ?_, fun hlock hst => ?_, fun hlock hst => ?_, fun hlock hst => ?_, fun hlock => ?_⟩
  · have howner := slotOwner_lt s b n
    have hb : i.val / 16 = b.val := by omega
    rw [hb] at hon
    have hexec := controlWordIssue_takes (errs := errs) hn hon (by rw [← hi]; exact hword)
    rw [← hi] at hexec
    intro a u w x l r
    refine ⟨_, hexec, rfl, fun herr => ?_, fun herr h1 h2 h3 h4 h5 => ?_⟩
    · subst herr
      have hthread := issueWord_uncorrectable i u
      exact ⟨(congrArg Thread.state hthread :), (congrArg Thread.fcause hthread :), (congrArg Thread.m hthread :)⟩
    · subst herr
      intro y
      have hw : wordAt u (i / 16) (thread u i) = w := by rw [hb]
      have hplain : plainAdd (wordAt u (i / 16) (thread u i)) := by
        rw [hw]
        exact ⟨h1, h2, h3, h4, h5⟩
      have hthread := thread_issueWord_plainAdd hplain
      rw [hw] at hthread
      obtain ⟨hpc, hz, hc, hstack⟩ := added_rest (fld w 24 4) l r y
      exact ⟨(congrArg Thread.pc hthread).trans hpc, (congrArg (mreg · (fld w 24 4)) hthread).trans (mreg_added ..), (congrArg Thread.z hthread).trans hz,
        (congrArg Thread.c hthread).trans hc, (congrArg Thread.stack hthread).trans hstack⟩
  · intro b a
    exact ⟨_, parkWake_takes hon hn hst hev, unpark_wakes ..⟩
  · intro u
    have hexec : exec (.microTimerExpiry i) s = .next (latchEvent i 6 (updThread i (fun x =>
        { x with timer := none, expired := true, wake := x.wake || x.state == 2 }) u)) := by
      show execMicroTimerExpiry i s = _
      unfold execMicroTimerExpiry
      rw [hd]
      exact gateAt_of_true hon _ _ _
    refine ⟨_, hexec, ?_⟩
    rw [thread_latchEvent, thread_updThread_same]
    exact ⟨rfl, rfl, rfl, rfl⟩
  · have hrun : ¬ ((thread s i).state = 1 ∨ (thread s i).state = 2) := by omega
    have hexec : exec (.blkTstart i) s = .next (startThread i s) := by
      show execBlkTstart i s = _
      rw [execBlkTstart, gate_of_true hon, if_neg (by simp [hlock])]
    unfold startThread at hexec
    dsimp only at hexec
    rw [if_neg hrun] at hexec
    refine ⟨_, hexec, onlyThread_setThread .., ?_⟩
    rw [thread_setThread_same]
    exact ⟨rfl, rfl, rfl, rfl⟩
  · show execBlkTstop i s = _
    rw [execBlkTstop, gate_of_true hon, if_neg (by simp [hlock]), stopThread, hst]
    rfl
  · refine ⟨updThread i (fun x => { x with state := 0 }) s, ?_, onlyThread_updThread .., thread_updThread_same ..⟩
    show execBlkTstop i s = _
    rw [execBlkTstop, gate_of_true hon, if_neg (by simp [hlock]), stopThread, hst]
    rfl
  · constructor
    · show execBlkTstart i s = _
      rw [execBlkTstart, gate_of_true hon, if_pos hlock]
    · show execBlkTstop i s = _
      rw [execBlkTstop, gate_of_true hon, if_pos hlock]

/-! ### Wheel, copies and swaps (R358, R373, R374, R378) -/

/-- All 16 threads have switched. -/
theorem fld_all_ones (x : BitVec 64) : fld x 16 16 = 0xFFFF ↔ ∀ j < 16, bit x (16 + j) = true := by
  have hones : ∀ j < 16, (0xFFFF).testBit j = true := by decide
  constructor
  · intro h j hj
    have hj' := testBit_fld x 16 16 j
    rw [h, hones j hj] at hj'
    simpa [bit, hj] using hj'.symm
  · intro h
    refine Nat.eq_of_testBit_eq fun j => ?_
    rw [testBit_fld]
    by_cases hj : j < 16
    · rw [hones j hj]
      simpa [hj, bit] using h j hj
    · have hhigh : (0xFFFF).testBit j = false := Nat.testBit_lt_two_pow (Nat.lt_of_lt_of_le (by decide) (Nat.pow_le_pow_right (by decide) (Nat.le_of_not_lt hj)))
      rw [hhigh]
      simp [hj]

/-- After `k` of the 16 threads of blocker b have switched in a swap from `u`. -/
def switched (b k : Nat) (u s : State) : Prop :=
  (∀ j, j < 16 → rbit s (blkReg b 0x10) (16 + j) = decide (j < k)) ∧ rbit s (blkReg b 0x10) 1 = true ∧ rget s (blkReg b 0) = rget u (blkReg b 0) ∧
  ∀ j, j < 16 → (thread s (16 * b + j)).state = (thread u (16 * b + j)).state

/-- One thread that does not run switches. -/
def switchStep (b i : Nat) (s : State) : State :=
  if (thread s (16 * b + i)).state = 1 then s
  else switchThread (16 * b + i) (updThread (16 * b + i) (fun x => { x with wake := x.wake || x.state == 2 }) s)
/-- The point of a swap. -/
def swapBegun (b : Nat) (s : State) : State := rbitSet (blkReg b 0x10) 1 true (rput (blkReg b 0x10) 16 16 0 s)
theorem swapPoint_eq (b : Nat) (s : State) : swapPoint b s = (List.range 16).foldl (fun s i => switchStep b i s) (swapBegun b s) := rfl

theorem switchStep_mem_eq (b i : Nat) (s : State) : (switchStep b i s).mem = s.mem := by
  unfold switchStep
  split
  · rfl
  · exact (switchThread_mem_eq ..).trans (by simp [updThread])

theorem switched_swapBegun (b : Nat) (s : State) : switched b 0 s (swapBegun b s) := by
  have hoff : blkReg b 0 ≠ blkReg b 0x10 := by simp [blkReg_inj]
  refine ⟨fun j hj => ?_, rbit_rbitSet_same (by decide) .., ?_, fun j hj => rfl⟩
  · rw [swapBegun, rbit_rbitSet_ne (by omega), rbit, rget_rput_same, bit, getLsbD_setFld, if_pos (by omega)]
    simp
  · rw [swapBegun, rget_rbitSet_ne hoff, rget_rput_ne hoff]

/-- The bank of one thread switches, in a swap that has come to thread i. -/
def switchMarked (b i : Nat) (s : State) : State :=
  rbitSet (blkReg b 0x10) (16 + i) true (updThread (16 * b + i) (fun x => { x with bank := !blkLive s b }) s)
theorem switchStep_eq {b i : Nat} {u s : State} (h : switched b i u s) (hi : i < 16) (hst : (thread u (16 * b + i)).state ≠ 1) :
    switchStep b i s = swapFinish b (switchMarked b i (updThread (16 * b + i) (fun x => { x with wake := x.wake || x.state == 2 }) s)) := by
  obtain ⟨hbits, hone, hctl, hstates⟩ := h
  have hb : (16 * b + i) / 16 = b := by omega
  have hm : (16 * b + i) % 16 = i := by omega
  have hgo : rbit (updThread (16 * b + i) (fun x => { x with wake := x.wake || x.state == 2 }) s) (blkReg b 0x10) 1 = true := hone
  have hnot : rbit (updThread (16 * b + i) (fun x => { x with wake := x.wake || x.state == 2 }) s) (blkReg b 0x10) (16 + i) = false := by
    rw [rbit_updThread, hbits i hi, decide_eq_false (Nat.lt_irrefl i)]
  rw [switchStep, if_neg (by rw [hstates i hi]; exact hst), switchThread]
  dsimp only
  rw [hb, hm, hgo, hnot]
  rfl
theorem switched_switchMarked {b i : Nat} {u s : State} (h : switched b i u s) (hi : i < 16) :
    switched b (i + 1) u (switchMarked b i (updThread (16 * b + i) (fun x => { x with wake := x.wake || x.state == 2 }) s)) := by
  obtain ⟨hbits, hone, hctl, hstates⟩ := h
  unfold switchMarked
  refine ⟨fun j hj => ?_, ?_, ?_, fun j hj => ?_⟩
  · by_cases hji : j = i
    · rw [hji, rbit_rbitSet_same (by omega), decide_eq_true (Nat.lt_succ_self i)]
    · rw [rbit_rbitSet_ne (by omega), rbit_updThread, rbit_updThread, hbits j hj]
      exact decide_eq_decide.mpr (by omega)
  · rw [rbit_rbitSet_ne (by omega), rbit_updThread, rbit_updThread, hone]
  · rw [rget_rbitSet_ne (by simp [blkReg_inj])]
    exact hctl
  · rw [thread_rbitSet]
    by_cases hji : j = i
    · rw [hji, thread_updThread_same, thread_updThread_same]
      exact hstates i hi
    · exact (congrArg Thread.state ((thread_setThread_ne (by omega) ..).trans (thread_setThread_ne (by omega) ..))).trans (hstates j hj)
theorem swapFinish_waits {b k : Nat} {u s : State} (h : switched b k u s) (hk : k < 16) : swapFinish b s = s := by
  obtain ⟨hbits, _, _, _⟩ := h
  unfold swapFinish
  refine if_neg fun hall => ?_
  have hone := (fld_all_ones _).mp hall.1 k hk
  rw [← rbit, hbits k hk] at hone
  exact absurd (of_decide_eq_true hone) (Nat.lt_irrefl k)
theorem swapFinish_ends {b : Nat} {u s : State} (h : switched b 16 u s) : blkLive (swapFinish b s) b = (!blkLive u b) ∧
    rbit (swapFinish b s) (blkReg b 0) 1 = false ∧ rbit (swapFinish b s) (blkReg b 0x10) 1 = false ∧ rbit (swapFinish b s) (blkReg b 0x10) 0 = true := by
  obtain ⟨hbits, hone, hctl, _⟩ := h
  have hall : rfld s (blkReg b 0x10) 16 16 = 0xFFFF := (fld_all_ones _).mpr fun j hj => (hbits j hj).trans (decide_eq_true hj)
  have hoff : blkReg b 0 ≠ blkReg b 0x18 ∧ blkReg b 0 ≠ blkReg b 0x10 ∧ blkReg b 0x10 ≠ blkReg b 0x18 ∧ blkReg b 0x10 ≠ blkReg b 0 := by simp [blkReg_inj]
  obtain ⟨h1, h2, h3, h4⟩ := hoff
  unfold swapFinish
  rw [if_pos ⟨hall, hone⟩]
  dsimp only
  refine ⟨?_, ?_, ?_, ?_⟩
  · rw [blkLive, rbit_rset_ne h1, rbit_congr (rget_blkStat_ne h2 ..), rbit_rbitSet_off h2, rbit_rbitSet_ne (by decide), rbit_rbitSet_same (by decide), blkLive,
      rbit_congr hctl, blkLive]
  · rw [rbit_rset_ne h1, rbit_congr (rget_blkStat_ne h2 ..), rbit_rbitSet_off h2, rbit_rbitSet_same (by decide)]
  · rw [rbit_rset_ne h3, rbit_blkStat_ne (by decide), rbit_rbitSet_same (by decide)]
  · rw [rbit_rset_ne h3, rbit_blkStat (by decide)]

theorem switched_range {b : Nat} {u : State} (hst : ∀ i, i < 16 → (thread u (16 * b + i)).state ≠ 1) (k : Nat) (hk : k < 16) :
    switched b k u ((List.range k).foldl (fun s i => switchStep b i s) (swapBegun b u)) := by
  induction k with
  | zero => exact switched_swapBegun b u
  | succ k ih =>
    have hprev := ih (by omega)
    have hnext := switched_switchMarked hprev (by omega)
    rw [List.range_succ, List.foldl_append, List.foldl_cons, List.foldl_nil, switchStep_eq hprev (by omega) (hst k (by omega)), swapFinish_waits hnext hk]
    exact hnext
theorem swapPoint_ends {b : Nat} {u : State} (hst : ∀ i, i < 16 → (thread u (16 * b + i)).state ≠ 1) : blkLive (swapPoint b u) b = (!blkLive u b) ∧
    rbit (swapPoint b u) (blkReg b 0) 1 = false ∧ rbit (swapPoint b u) (blkReg b 0x10) 1 = false ∧ rbit (swapPoint b u) (blkReg b 0x10) 0 = true := by
  have hprev := switched_range hst 15 (by decide)
  have hlast : swapPoint b u = swapFinish b (switchMarked b 15 (updThread (16 * b + 15) (fun x => { x with wake := x.wake || x.state == 2 })
      ((List.range 15).foldl (fun s i => switchStep b i s) (swapBegun b u)))) := by
    rw [swapPoint_eq, List.range_succ (n := 15), List.foldl_append, List.foldl_cons, List.foldl_nil, switchStep_eq hprev (by decide) (hst 15 (by decide))]
  rw [hlast]
  exact swapFinish_ends (switched_switchMarked hprev (by decide))
theorem swapPoint_mem_eq (b : Nat) (s : State) : (swapPoint b s).mem = s.mem := by
  rw [swapPoint_eq]
  refine (foldl_keeps (part := State.mem) (fun _ _ => switchStep_mem_eq ..) _ _).trans ?_
  simp [swapBegun]

theorem blockerBanks : BlockerBanks := by
  intro b s hon
  have hstat : blkReg b 0 ≠ blkReg b 0x10 := by simp [blkReg_inj]
  refine ⟨fun v hv => ?_, fun v hv => ?_, fun v hv => ?_, fun harm => ?_, fun hcopy hwf => ?_, fun hfar harm hcopy => ?_, fun harm hswap => ?_⟩
  · show execBlkWheelWrite b v s = _
    rw [execBlkWheelWrite, gate_of_true hon, wheelWrite, if_neg (by simp [hv])]
    rfl
  · refine ⟨blkStat b 3 s, ?_, (congrArg State.blockers (blkStat_offRaised b 3 s) :), rbit_blkStat (by decide) ..⟩
    show execBlkWheelWrite b v s = _
    rw [execBlkWheelWrite, gate_of_true hon, wheelWrite, if_pos hv]
  · intro u
    have hexec : exec (.wheelChange b) s = .next (rset (blkReg b 0x20) v (setBlocker b { blocker u b with wheel := none } u)) := by
      show execWheelChange b s = _
      unfold execWheelChange
      rw [hv]
      exact gateAt_of_true hon _ _ _
    have hblocker : blocker (rset (blkReg b 0x20) v (setBlocker b { blocker u b with wheel := none } u)) b = { blocker u b with wheel := none } := tget_tset_self ..
    exact ⟨_, hexec, rget_rset_same .., by rw [hblocker], by simp, by simp⟩
  · show execBlkCopy b s = _
    rw [execBlkCopy, gate_of_true hon, blkCopyStart, if_neg (by simp [harm])]
  · refine ⟨_, gate_of_true hcopy _, rbit_w1sClear (s := setMem _ s) (by decide) hcopy, fun i hi => ?_, fun a ha => ?_⟩
    · rw [byteAt, w1sClear_mem_eq]
      exact (mget_copyBytes hwf ..).trans ((if_pos (by omega)).trans (congrArg (mget s.mem) (by omega)))
    · rw [byteAt, w1sClear_mem_eq]
      exact (mget_copyBytes hwf ..).trans (if_neg (by omega))
  · refine ⟨rbitSet (blkReg b 0) 1 true s, ?_, rbit_rbitSet_same (by decide) .., offRegs_rbitSet ..⟩
    show execBlkSwaparm b s = _
    rw [execBlkSwaparm, gate_of_true hon, blkArm, if_neg (by simp [harm, hcopy]; omega)]
  · intro a u
    refine ⟨swapPoint b u, ?_, swapPoint_mem_eq .., swapPoint_ends⟩
    show execBlkSwapPoint b s = _
    rw [execBlkSwapPoint, if_neg (by simp [harm, hswap, hon])]

/-- Settles O46. -/
theorem blockers : Obligations.Blockers := ⟨blockerThreads, blockerBanks⟩

end Sys2Proof.Proofs

namespace Sys2Proof.Proofs

open Sys2Proof Sys2Proof.Machine Sys2Proof.Claims Sys2Proof.Laws

/-! ### What a write to a girdle memory leaves -/

theorem rget_girdlePut_apart {b : Nat} (hb : ¬ integReg b) (a : Nat) (bs : List Byte) (s : State) : rget (girdlePut a bs s) b = rget s b := by
  refine (foldl_keeps (part := (rget · b)) (fun _ _ => rget_markRewritten_apart hb ..) _ _).trans ?_
  exact rget_congr (by simp) b
theorem rget_ctxPut_apart {b : Nat} (hb : ¬ integReg b) (n o lo w v : Nat) (s : State) : rget (ctxPut n o lo w v s) b = rget s b := rget_girdlePut_apart hb ..
theorem hatReg_not_integReg {o : Nat} (h : o < 0x20000) : ¬ integReg (hatReg o) := by
  simp only [integReg, hatReg, girdle, intReg]
  omega

/-- The state without its registers and its memory. -/
def offStore (s : State) : State := { offRegs s with mem := [] }
theorem offStore_of_offRegs {s t : State} (h : offRegs t = offRegs s) : offStore t = offStore s := congrArg (fun u : State => { u with mem := [] }) h
theorem girdlePut_offStore (a : Nat) (bs : List Byte) (s : State) : offStore (girdlePut a bs s) = offStore s :=
  (offStore_of_offRegs (girdlePut_offRegs ..)).trans (by simp [offStore, offRegs])
theorem ctxPut_offStore (n o lo w v : Nat) (s : State) : offStore (ctxPut n o lo w v s) = offStore s := girdlePut_offStore ..
theorem rput_offStore (a lo w v : Nat) (s : State) : offStore (rput a lo w v s) = offStore s := offStore_of_offRegs (offRegs_rput ..)
theorem rbitSet_offStore (a i : Nat) (x : Bool) (s : State) : offStore (rbitSet a i x s) = offStore s := offStore_of_offRegs (offRegs_rbitSet ..)
theorem ses_of_offStore {s t : State} (h : offStore t = offStore s) : t.ses = s.ses := (congrArg State.ses h :)
theorem facets_of_offStore {s t : State} (h : offStore t = offStore s) : t.facets = s.facets := (congrArg State.facets h :)
theorem fclk_of_offStore {s t : State} (h : offStore t = offStore s) : t.fclk = s.fclk := (congrArg State.fclk h :)
theorem girdlePut_stores (a : Nat) (bs : List Byte) (s : State) : stored a bs s (girdlePut a bs s) := by
  have hbyte (x : Nat) : byteAt (girdlePut a bs s) x = if a ≤ x ∧ x < a + bs.length then bs.getD (x - a) 0 else byteAt s x := by
    rw [byteAt, girdlePut_mem]
    simp only [poke_fields, mget_mputs, byteAt]
  refine ⟨fun i hi => ?_, fun x hx => ?_⟩
  · rw [hbyte, if_pos (by omega), Nat.add_sub_cancel_left]
  · rw [hbyte, if_neg (by omega)]

/-! ### Events of the session engine -/

theorem raiseGirdle_offRaised (b : Nat) (s : State) : offRaised (raiseGirdle b s) = offRaised s :=
  (raiseSteward_offRaised ..).trans (by simp [offRaised, offLog])
theorem sesEvt_offRaised (i : Nat) (s : State) : offRaised (sesEvt i s) = offRaised s := by
  unfold sesEvt
  split
  · simp [offRaised, offLog]
  · rw [raiseGirdle_offRaised]
    simp [offRaised, offLog]
theorem sesReg_inj {o o' : Nat} : sesReg o = sesReg o' ↔ o = o' := by
  simp only [sesReg, girdle]
  omega
theorem sesReg_ne_intReg {o o' : Nat} (h : o' < 0x10000) : sesReg o ≠ intReg o' := by
  simp only [sesReg, intReg, girdle]
  omega
theorem rget_raiseGirdle_ne {a : Nat} (h : a ≠ intReg 0x38) (b : Nat) (s : State) : rget (raiseGirdle b s) a = rget s a := by
  rw [raiseGirdle, rget_raiseSteward, rget_rbitSet_ne h]
theorem rbit_sesEvt {i : Nat} (hi : i < 64) (s : State) : rbit (sesEvt i s) (sesReg 0x10) i = true := by
  unfold sesEvt
  split
  · rwa [rbit_noteHit]
  · rw [rbit_congr (rget_raiseGirdle_ne (sesReg_ne_intReg (by decide)) ..), rbit_rbitSet_same hi]
theorem rget_sesEvt_ne {o : Nat} (h : o ≠ 0x10) (i : Nat) (s : State) : rget (sesEvt i s) (sesReg o) = rget s (sesReg o) := by
  unfold sesEvt
  split
  · exact rget_congr (by simp) _
  · rw [rget_raiseGirdle_ne (sesReg_ne_intReg (by decide)), rget_rbitSet_ne (by simpa [sesReg_inj] using h)]

/-! ### Reports start (R381 to R383, R387, R388) -/

theorem recordReport_records (r : Report) (n : Nat) (v : State) : Recorded r n v (recordReport r n v) := by
  intro hok
  refine ⟨fun hfull => ?_, fun hfull => ?_⟩
  · unfold recordReport
    dsimp only
    rw [if_neg (by simp [hok, hfull])]
    rfl
  · unfold recordReport
    dsimp only
    rw [if_pos (by simp [hfull]), if_pos hok]

theorem reportStart_takes {r : Report} {s : State} (hr : firstReport s = some r) (hen : rbit s (sesReg 0) 3 = true) (hon : sesOn s = true) :
    let u := advanceTo (max r.at_ (s.ses.last + 64)) s
    exec .reportStart s = .next (startReport r (setSes { u.ses with queue := u.ses.queue.erase r, last := u.fclk } u)) := by
  intro u
  show execReportStart s = _
  unfold execReportStart
  rw [hr]
  exact gateAt_of_true (by simp [hen, hon]) _ _ _

theorem startReport_lost {r : Report} {s : State} (h : r.sub = 0xFFF) : startReport r s = recordReport r 0 s := if_pos h
theorem startReport_none {r : Report} {s : State} (h : r.sub ≠ 0xFFF) (hroute : lookup s (routeKey r.pkg r.cell r.sub) = none) :
    startReport r s = unrouted r s := by
  rw [startReport, if_neg h, hroute]
theorem startReport_some {r : Report} {s : State} {d n : Nat} (h : r.sub ≠ 0xFFF) (hroute : lookup s (routeKey r.pkg r.cell r.sub) = some (d, n)) :
    startReport r s = if d = localPkg s then (if ctxState s n = 1 then recordReport r n s else unrouted r s)
      else if r.fab then unrouted r s else forwardReport r d s := by
  rw [startReport, if_neg h, hroute]

theorem reportsStart : ReportsStart := by
  intro r s hr hen hon u v route
  refine ⟨_, reportStart_takes hr hen hon, fun hsub => ?_, fun hsub hroute => ?_, fun n hsub hroute hopen => ?_, fun n hsub hroute hopen => ?_,
    fun d n hsub hroute hother hfab hjoin hdom => ?_⟩
  · rw [startReport_lost hsub]
    exact recordReport_records _ _ _
  · rw [startReport_none hsub hroute]
    exact recordReport_records _ _ _
  · rw [startReport_some hsub hroute, if_pos rfl, if_pos hopen]
    exact recordReport_records _ _ _
  · rw [startReport_some hsub hroute, if_pos rfl, if_neg hopen]
    exact recordReport_records _ _ _
  · rw [startReport_some hsub hroute, if_neg hother, if_neg (by simp [hfab]), forwardReport]
    exact if_pos (by simp only [hjoin, hdom, BEq.rfl, Bool.and_self])

/-! ### A record is published (R381) -/

/-- The record of a publication counts: PROD and the last stamp. -/
def published (n : Nat) (p : Publish) (s : State) : State :=
  let s := setSes { s.ses with pubs := s.ses.pubs.erase p } s
  ctxPut n 0x10 0 32 (ctxFld s n 0x10 0 32 + 1) (ctxPut n 0x28 0 64 p.stamp.toNat s)

theorem ctxFld_setSes (x : Ses) (s : State) (n o lo w : Nat) : ctxFld (setSes x s) n o lo w = ctxFld s n o lo w :=
  ctxFld_congr (natAt_congr (by simp) ..) ..
theorem published_offStore (n : Nat) (p : Publish) (s : State) :
    offStore (published n p s) = offStore (setSes { s.ses with pubs := s.ses.pubs.erase p } s) := (ctxPut_offStore ..).trans (ctxPut_offStore ..)
theorem ctxFld_published_prod (n : Nat) (p : Publish) (s : State) : ctxFld (published n p s) n 0x10 0 32 = (ctxFld s n 0x10 0 32 + 1) % 2 ^ 32 := by
  unfold published
  dsimp only
  rw [ctxFld_ctxPut_same (by decide), ctxFld_setSes]
theorem ctxFld_published_stamp (n : Nat) (p : Publish) (s : State) : ctxFld (published n p s) n 0x28 0 64 = p.stamp.toNat := by
  unfold published
  dsimp only
  rw [ctxFld_ctxPut_apart (by decide), ctxFld_ctxPut_same (by decide), Nat.mod_eq_of_lt p.stamp.isLt]
theorem ctxFld_published_control (n lo w : Nat) (p : Publish) (s : State) : ctxFld (published n p s) n 0 lo w = ctxFld s n 0 lo w := by
  unfold published
  dsimp only
  rw [ctxFld_ctxPut_apart (by decide), ctxFld_ctxPut_apart (by decide), ctxFld_setSes]
theorem hatLive_published (n : Nat) (p : Publish) (s : State) : hatLive (published n p s) = hatLive s := by
  have hreg : rget (published n p s) (hatReg 0) = rget s (hatReg 0) := by
    unfold published
    dsimp only
    rw [rget_ctxPut_apart (hatReg_not_integReg (by decide)), rget_ctxPut_apart (hatReg_not_integReg (by decide))]
    exact rget_congr (by simp) _
  exact rfld_congr hreg ..

theorem raiseEvent_eq_setPulses (ev : Nat) (s : State) : ∃ x, raiseEvent ev s = setPulses x s := by
  unfold raiseEvent
  split
  · exact ⟨s.pulses, rfl⟩
  · exact ⟨_, rfl⟩
theorem raiseEvent_pulses_congr {s t : State} (hp : t.pulses = s.pulses) (hf : t.fclk = s.fclk) (hl : hatLive t = hatLive s) (htb : t.tb = s.tb) (ev : Nat) :
    (raiseEvent ev t).pulses = (raiseEvent ev s).pulses := by
  unfold raiseEvent
  rw [hp, hf, hl, htb]
  split <;> simp [hp]

theorem reportsPublish : ReportsPublish := by
  intro n p s hp hwait
  have hexec : exec (.reportPublish n) s = .next (if ctxFld (published n p s) n 0 60 1 = 1 then raiseEvent (ctxFld (published n p s) n 0 48 12) (published n p s)
      else published n p s) := by
    show execReportPublish n s = _
    unfold execReportPublish
    rw [hp]
    exact gate_of_true (by simp [hwait]) _
  have hoff := published_offStore n p s
  have hkeep : ∃ x, (if ctxFld (published n p s) n 0 60 1 = 1 then raiseEvent (ctxFld (published n p s) n 0 48 12) (published n p s) else published n p s) =
      setPulses x (published n p s) := by
    split
    · exact raiseEvent_eq_setPulses ..
    · exact ⟨(published n p s).pulses, rfl⟩
  have hpulses : (if ctxFld (published n p s) n 0 60 1 = 1 then raiseEvent (ctxFld (published n p s) n 0 48 12) (published n p s) else published n p s).pulses =
      if ctxFld s n 0 60 1 = 1 then (raiseEvent (ctxFld s n 0 48 12) s).pulses else s.pulses := by
    have hsame : (published n p s).pulses = s.pulses := (congrArg State.pulses hoff :).trans (by simp [offStore, offRegs])
    rw [ctxFld_published_control, ctxFld_published_control]
    split
    · refine raiseEvent_pulses_congr hsame ?_ (hatLive_published ..) ?_ _
      · exact (congrArg State.fclk hoff :).trans (by simp [offStore, offRegs])
      · exact (congrArg State.tb hoff :).trans (by simp [offStore, offRegs])
    · exact hsame
  obtain ⟨x, hx⟩ := hkeep
  rw [hx] at hexec hpulses
  have hctx (o lo w : Nat) : ctxFld (setPulses x (published n p s)) n o lo w = ctxFld (published n p s) n o lo w := ctxFld_congr (natAt_congr (by simp) ..) ..
  refine ⟨_, hexec, ?_, ?_, ?_, ?_, hpulses⟩
  · rw [hctx, ctxFld_published_prod]
  · rw [hctx, ctxFld_published_stamp]
  · have hses : (published n p s).ses = { s.ses with pubs := s.ses.pubs.erase p } := (ses_of_offStore hoff).trans (by simp)
    simp [hses]
  · have hfac : (published n p s).facets = s.facets := (facets_of_offStore hoff).trans (by simp)
    simp [hfac]

end Sys2Proof.Proofs

namespace Sys2Proof.Proofs

open Sys2Proof Sys2Proof.Machine Sys2Proof.Claims Sys2Proof.Laws

/-! ### Report frames (R388, R529) -/

theorem fabAnswer_congr {s t : State} (hr : t.regs = s.regs) (hf : t.fabric.fabid = s.fabric.fabid) (f : FabFrame) (ty code : Nat) (bs : List Byte) :
    fabAnswer t f ty code bs = fabAnswer s f ty code bs := by
  unfold fabAnswer mkFrame
  rw [localPkg_congr hr, hf]
theorem fabAnswer_heardFrom (src : Nat) (s : State) (f : FabFrame) (ty code : Nat) (bs : List Byte) :
    fabAnswer (heardFrom src s) f ty code bs = fabAnswer s f ty code bs := fabAnswer_congr (by simp [heardFrom]) (by simp [heardFrom]) ..

/-- A frame of one of the given types that is no repeat is acted on. -/
theorem fabReceive_acts {tys : List Nat} {f : FabFrame} {s : State} (act : State → FabFrame × Bool × State) (hdom : domState s 36 = 1) (hgood : fabBad s f = false)
    (hty : f.ty.toNat ∈ tys) (hnew : (tget [] s.fabric.seen f.spkg.toNat).find? (fun p => p.1 == f.seq.toNat) = none) :
    fabReceive tys f act s = .next (fabReplyOut f.spkg.toNat f (act (heardFrom f.spkg.toNat s))) := by
  have hseen : (heardFrom f.spkg.toNat s).fabric.seen = s.fabric.seen := by simp [heardFrom]
  unfold fabReceive
  dsimp only
  rw [if_neg (by simp [hdom]), if_neg (by simp [hgood]), if_neg (by simpa using hty), hseen, hnew]

theorem fabReplyOut_ok {src : Nat} {f : FabFrame} {q : FabFrame × Bool × State} (h : q.1.ty ≠ 5) :
    (fabReplyOut src f q).ses = q.2.2.ses ∧ (fabReplyOut src f q).out = q.2.2.out ++ [.fabric q.1] ∧ (fabReplyOut src f q).mem = q.2.2.mem := by
  unfold fabReplyOut
  dsimp only
  rw [if_neg h]
  split <;> simp
theorem fabReplyOut_refusal {src : Nat} {f : FabFrame} {q : FabFrame × Bool × State} (h : q.1.ty = 5) :
    (fabReplyOut src f q).ses = q.2.2.ses ∧ (fabReplyOut src f q).out = q.2.2.out ++ [.fabric q.1] ∧ (fabReplyOut src f q).mem = q.2.2.mem := by
  have hoff := raiseSteward_offRaised (fabSource src) q.2.2
  have hses : (raiseSteward (fabSource src) q.2.2).ses = q.2.2.ses := (congrArg State.ses hoff :)
  unfold fabReplyOut
  dsimp only
  rw [if_pos h]
  split
  · simp [hses]
  · simp [hses]

/-- What a report frame does: a place of the input queue, or refusal CODE 7. -/
def reportAct (fr : FabFrame) (s : State) : FabFrame × Bool × State :=
  if (s.ses.queue.filter fun r => r.fab).length < 32 ∧ sesOn s then
    (fabAnswer s fr 4 0 [], true, setSes { s.ses with queue := s.ses.queue ++ [frameReport fr s] } s)
  else (fabAnswer s fr 5 7 [], false, s)
theorem fabReport_eq (fr : FabFrame) (s : State) : fabReport fr s = fabReceive [7] fr (reportAct fr) s := rfl
theorem reportAct_room {fr : FabFrame} {s : State} (h : (s.ses.queue.filter fun r => r.fab).length < 32 ∧ sesOn s = true) :
    reportAct fr s = (fabAnswer s fr 4 0 [], true, setSes { s.ses with queue := s.ses.queue ++ [frameReport fr s] } s) := if_pos h
theorem reportAct_full {fr : FabFrame} {s : State} (h : ¬ ((s.ses.queue.filter fun r => r.fab).length < 32 ∧ sesOn s = true)) :
    reportAct fr s = (fabAnswer s fr 5 7 [], false, s) := if_neg h

theorem reportFrames : ReportFrames := by
  intro fr s hdom hgood hty hnew room
  have hmem : (heardFrom fr.spkg.toNat s).mem = s.mem := by simp [heardFrom]
  have hses : (heardFrom fr.spkg.toNat s).ses = s.ses := by simp [heardFrom]
  have hout : (heardFrom fr.spkg.toNat s).out = s.out := by simp [heardFrom]
  have hon : sesOn (heardFrom fr.spkg.toNat s) = sesOn s := rfl
  have hty7 : fr.ty.toNat ∈ [7] := by
    rw [hty]
    decide
  have hexec : exec (.fabricReportReceive fr) s = .next (fabReplyOut fr.spkg.toNat fr (reportAct fr (heardFrom fr.spkg.toNat s))) := by
    show fabReport fr s = _
    rw [fabReport_eq, fabReceive_acts _ hdom hgood hty7 hnew]
  by_cases hroom : room
  · obtain ⟨h1, h2, h3⟩ := fabReplyOut_ok (src := fr.spkg.toNat) (f := fr) (q := (fabAnswer s fr 4 0 [], true, setSes { s.ses with
      queue := s.ses.queue ++ [frameReport fr (heardFrom fr.spkg.toNat s)] } (heardFrom fr.spkg.toNat s))) (by simp [fabAnswer, mkFrame])
    rw [reportAct_room (by rw [hses, hon]; exact hroom), hses, fabAnswer_heardFrom] at hexec
    refine ⟨_, hexec, h3.trans (by simp [hmem]), fun _ => ⟨h1.trans ?_, h2.trans (by simp [hout])⟩, fun hno => absurd hroom hno⟩
    simp [frameReport, heardFrom]
  · obtain ⟨h1, h2, h3⟩ := fabReplyOut_refusal (src := fr.spkg.toNat) (f := fr) (q := (fabAnswer s fr 5 7 [], false, heardFrom fr.spkg.toNat s))
      (by simp [fabAnswer, mkFrame])
    rw [reportAct_full (by rw [hses, hon]; exact hroom), fabAnswer_heardFrom] at hexec
    exact ⟨_, hexec, h3.trans hmem, fun hyes => absurd hyes hroom, fun _ => ⟨h1.trans hses, h2.trans (by rw [hout])⟩⟩

/-! ### Banks of routes (R389) -/

theorem sesLive_lt (s : State) : sesLive s < 2 := fld_lt ..
theorem copied_copyBytes {s t : State} {fr dst : Nat} (hwf : Memory.wf s.mem = true) (ht : t.mem = copyBytes fr dst 0x40000 s.mem) : copied fr dst 0x40000 s t := by
  refine ⟨fun i hi => ?_, fun x hx => ?_⟩
  · rw [byteAt, ht]
    exact (mget_copyBytes hwf ..).trans ((if_pos (by omega)).trans (congrArg (mget s.mem) (by omega)))
  · rw [byteAt, ht]
    exact (mget_copyBytes hwf ..).trans (if_neg (by omega))

/-- The shadow bank becomes the live one. -/
def routesSwapped (u : State) : State := sesEvt 0 (rbitSet (sesReg 0) 1 false (rput (sesReg 0) 0 1 (1 - sesLive u) u))
theorem routesSwapped_offRaised (u : State) : offRaised (routesSwapped u) = offRaised u :=
  (sesEvt_offRaised ..).trans (by simp [offRaised, offLog])
theorem routesSwapped_regs (u : State) : sesLive (routesSwapped u) = 1 - sesLive u ∧ rbit (routesSwapped u) (sesReg 0) 1 = false ∧
    rbit (routesSwapped u) (sesReg 0x10) 0 = true := by
  have hlive := sesLive_lt u
  refine ⟨?_, ?_, rbit_sesEvt (by decide) _⟩
  · rw [sesLive, routesSwapped, rfld_congr (rget_sesEvt_ne (by decide) ..), rfld_rbitSet_apart (by omega), rfld_rput_same (by decide)]
    exact Nat.mod_eq_of_lt (by omega)
  · rw [routesSwapped, rbit_congr (rget_sesEvt_ne (by decide) ..), rbit_rbitSet_same (by decide)]

/-- What the end of a swap leaves where no session opens. -/
theorem afterSwap_quiet {s : State} (ho : s.ses.opening = []) (hc : s.ses.closing = []) : afterSwap s = setSes { s.ses with opening := [], closing := [] } s := by
  unfold afterSwap
  rw [ho, hc]
  rfl
theorem afterSwap_closes {s : State} {n : Nat} (ho : s.ses.opening = []) (hc : s.ses.closing = [n]) : afterSwap s =
    setSes { s.ses with opening := [], closing := [], detached := s.ses.detached ++ [(n, s.fclk)] }
      (ctxPut n 0 61 3 3 (setSes { s.ses with opening := [], closing := [] } s)) := by
  unfold afterSwap
  rw [ho, hc]
  simp
theorem afterSwap_rget {s : State} (ho : s.ses.opening = []) {o : Nat} (h : o < 0x100000) : rget (afterSwap s) (sesReg o) = rget s (sesReg o) := by
  unfold afterSwap
  rw [ho]
  dsimp only
  rw [List.foldl_nil]
  refine (foldl_keeps (part := (rget · (sesReg o))) (fun t n => ?_) _ _).trans (rget_congr (by simp) _)
  exact (rget_congr (by simp) _).trans (rget_ctxPut_apart (sesReg_not_integReg h) n 0 61 3 3 t)

theorem routeSwap_takes {s : State} (harm : rbit s (sesReg 0) 1 = true) (hon : sesOn s = true) :
    exec .routeSwap s = .next (afterSwap (routesSwapped (advanceTick (rget s (sesReg 8)).toNat s))) := by
  show execRouteSwap s = _
  rw [execRouteSwap, if_neg (by simp [harm, hon])]
  rfl

theorem routeBanks : RouteBanks := by
  intro s hon
  refine ⟨fun harm => ?_, fun harm => ?_, fun hcopy hwf => ?_, fun hfar harm hcopy => ?_, fun hno => ?_, fun harm => ?_⟩
  · show execSesCopy s = _
    rw [execSesCopy, gate_of_true hon, sesCopyStart, if_neg (by simp [harm])]
  · show execSesCopy s = _
    rw [execSesCopy, gate_of_true hon, sesCopyStart, if_pos harm]
  · refine ⟨_, gate_of_true hcopy _, rbit_w1sClear (s := syncShadow s) (by decide) hcopy, copied_copyBytes hwf ?_⟩
    rw [w1sClear_mem_eq]
    simp [syncShadow]
  · show execSesSwaparm s = _
    rw [execSesSwaparm, gate_of_true hon, sesArm, if_neg (by simp [harm, hcopy]; omega)]
  · show execSesSwaparm s = _
    rw [execSesSwaparm, gate_of_true hon, sesArm, if_pos hno]
  · intro u hopen
    have hoff := routesSwapped_offRaised u
    have hses : (routesSwapped u).ses = u.ses := (congrArg State.ses hoff :)
    have hfclk : (routesSwapped u).fclk = u.fclk := (congrArg State.fclk hoff :)
    have ho : (routesSwapped u).ses.opening = [] := by rw [hses, hopen]
    obtain ⟨hlive, hdone, hevt⟩ := routesSwapped_regs u
    refine ⟨_, routeSwap_takes harm hon, ?_, ?_, ?_, fun hc => ?_, fun n hc => ?_⟩
    · exact (rfld_congr (afterSwap_rget ho (by decide)) ..).trans hlive
    · exact (rbit_congr (afterSwap_rget ho (by decide)) _).trans hdone
    · exact (rbit_congr (afterSwap_rget ho (by decide)) _).trans hevt
    · have hmem := mem_of_offRaised hoff
      rw [afterSwap_quiet ho (by rw [hses, hc])]
      simpa using hmem
    · rw [afterSwap_closes ho (by rw [hses, hc]), hses, hfclk]
      refine ⟨?_, by simp, by simp⟩
      rw [ctxState, ctxFld_setSes, ctxFld_ctxPut_same (by decide)]
      rfl

/-! ### Commands to a thread, and writes to contexts (R384, R390) -/

theorem thread_pushBytes (p : Nat) (bs : List Byte) (s : State) :
    (thread (pushBytes p bs s) p).cmds = (thread s p).cmds ++ bs ∧ (thread (pushBytes p bs s) p).m = (thread s p).m := by
  rw [pushBytes, thread_latchEvent, thread_setThread_same]
  exact ⟨rfl, rfl⟩
theorem pushBytes_regs (p : Nat) (bs : List Byte) (s : State) : (pushBytes p bs s).regs = s.regs := by simp [pushBytes, latchEvent]
theorem pushBytes_mem_eq (p : Nat) (bs : List Byte) (s : State) : (pushBytes p bs s).mem = s.mem := by simp [pushBytes, latchEvent]

theorem pushes {v : BitVec 64} {a : Agent} {s : State} (hon : sesOn s = true) (ha : a ≠ .loader) : exec (.sesCmdPush v a) s = .next (sesPush v s).2 :=
  gate_of_true (by simp [hon, ha]) _

/-- The bytes of a context write: what the context does not list reads 0. -/
def ctxBytes (off : Nat) (bs : List Byte) : List Byte := (bs.zip (List.range bs.length)).map fun p => p.1 &&& ctxListed (off + p.2)
/-- A context takes bytes, and its tags there fall. -/
def ctxTaken (n off : Nat) (bs : List Byte) (s : State) : State :=
  let s := girdlePut (ctxAddr n off) (ctxBytes off bs) s
  setTags (s.tags.filter fun w => !(decide (ctxAddr n off < w + 16) && decide (w < ctxAddr n off + bs.length))) s
theorem ctxBytes_listed {off : Nat} {bs : List Byte} (h : ∀ i < bs.length, ctxListed (off + i) = 0xFF) : ctxBytes off bs = bs := by
  refine List.ext_getElem (by simp [ctxBytes]) fun i h1 h2 => ?_
  simp only [ctxBytes, List.getElem_map, List.getElem_zip, List.getElem_range, h i h2]
  exact BitVec.and_allOnes
theorem ctxTaken_stores (n off : Nat) (bs : List Byte) (s : State) : stored (ctxAddr n off) (ctxBytes off bs) s (ctxTaken n off bs s) := by
  have hbyte (x : Nat) : byteAt (ctxTaken n off bs s) x = byteAt (girdlePut (ctxAddr n off) (ctxBytes off bs) s) x := by simp [byteAt, ctxTaken]
  obtain ⟨hin, hout⟩ := girdlePut_stores (ctxAddr n off) (ctxBytes off bs) s
  exact ⟨fun i hi => (hbyte _).trans (hin i hi), fun x hx => (hbyte _).trans (hout x hx)⟩
theorem ctxTaken_facets (n off : Nat) (bs : List Byte) (s : State) : (ctxTaken n off bs s).facets = s.facets := by
  have hoff := facets_of_offStore (girdlePut_offStore (ctxAddr n off) (ctxBytes off bs) s)
  simpa [ctxTaken] using hoff

theorem contextWrite_takes {n : Fin 16384} {off : Nat} {bs : List (BitVec 8)} (a : Agent) {s : State} (hon : sesOn s = true) (h : off + bs.length ≤ 256) :
    exec (.contextWrite n off bs a) s = .next (ctxWrite n off bs a s).2 := by
  show execContextWrite n off bs a s = _
  rw [execContextWrite, gate_of_true hon, if_neg (by omega)]

theorem commandsAndContexts : CommandsAndContexts := by
  refine ⟨fun v a s hon ha => ⟨fun hlock hok => ?_, fun hlock hbad => ?_, fun hlock => ?_⟩, fun n off bs a s hon hbs hlen => ⟨fun ha => ?_, fun ha hoff => ?_,
    fun ha hlo hhi hend => ?_, fun ha hoff hnot => ?_⟩, fun n off bs a s hon hlen => ?_⟩
  · have hpush : (sesPush v s).2 = pushBytes (fld v 48 10) (natBytes (fld v 61 3) (fld v 0 48)) s := by
      unfold sesPush
      rw [if_neg (by simpa using hlock), if_neg (by simp [hok])]
    exact ⟨_, hpush ▸ pushes hon ha, pushBytes_mem_eq .., pushBytes_regs .., thread_pushBytes ..⟩
  · rw [pushes hon ha, sesPush, if_neg (by simpa using hlock), if_pos hbad]
  · rw [pushes hon ha, sesPush, if_pos (by simpa using hlock)]
  · have hwrite : (ctxWrite n off bs a s).2 = ctxTaken n off bs s := by
      unfold ctxWrite
      rw [if_pos ha]
      rfl
    exact ⟨_, hwrite ▸ contextWrite_takes a hon hlen, ctxTaken_stores .., ctxTaken_facets ..⟩
  · have hwrite : (ctxWrite n off bs a s).2 = ctxTaken n off bs s := by
      unfold ctxWrite
      rw [if_neg ha, if_pos ⟨hoff, hlen⟩]
      rfl
    have hbytes : ctxBytes off bs = bs := ctxBytes_listed fun i _ => by unfold ctxListed; grind
    have hst := ctxTaken_stores n off bs s
    rw [hbytes] at hst
    exact ⟨_, hwrite ▸ contextWrite_takes a hon hlen, hst, ctxTaken_facets ..⟩
  · have hwrite : (ctxWrite n off bs a s).2 = ctxTaken n off (bs.take (0x1C - off)) s := by
      unfold ctxWrite
      rw [if_neg ha, if_neg (by omega), if_pos ⟨hlo, hend, hhi⟩]
      rfl
    have hbytes : ctxBytes off (bs.take (0x1C - off)) = bs.take (0x1C - off) := ctxBytes_listed fun i hi => by
      rw [List.length_take] at hi
      unfold ctxListed
      grind
    have hst := ctxTaken_stores n off (bs.take (0x1C - off)) s
    rw [hbytes] at hst
    exact ⟨_, hwrite ▸ contextWrite_takes a hon hlen, hst, ctxTaken_facets ..⟩
  · rw [contextWrite_takes a hon hlen, ctxWrite, if_neg ha, if_neg (by omega), if_neg (by omega)]
  · show execContextWrite n off bs a s = _
    rw [execContextWrite, gate_of_true hon, if_pos hlen]

/-- Settles O47. -/
theorem sessionEngine : Obligations.SessionEngine := ⟨reportsStart, reportsPublish, reportFrames, routeBanks, commandsAndContexts⟩

end Sys2Proof.Proofs

namespace Sys2Proof.Proofs

open Sys2Proof Sys2Proof.Machine Sys2Proof.Claims Sys2Proof.Laws

/-! ### The pool of identities (R393) -/

/-- The state without the pool of identities, the registrar's table and what a control frame writes. -/
def offPool (s : State) : State :=
  { s with ses := { s.ses with pool := [], asked := false, alloc := [] }, fabric := { s.fabric with seqs := [] }, out := [] }

theorem setSes_pool_offPool (s : State) (p a : List Nat) (b : Bool) : offPool (setSes { s.ses with pool := p, asked := b, alloc := a } s) = offPool s := rfl
theorem sendControl_offPool (d : Nat) (c : Control) (s : State) : offPool (sendControl d c s) = offPool s := by simp [offPool, sendControl]
theorem tellMember_offPool (d : Option Nat) (c : Control) (s : State) : offPool (tellMember d c s) = offPool s := by
  cases d with
  | none => rfl
  | some d => exact sendControl_offPool ..
theorem fillPool_offPool (s : State) : offPool (fillPool s) = offPool s := by
  unfold fillPool
  split
  · rfl
  split
  · exact (setSes_pool_offPool ..).trans ((tellMember_offPool ..).trans (setSes_pool_offPool ..))
  split
  · rfl
  · exact (tellMember_offPool ..).trans (setSes_pool_offPool ..)

section
variable {s t : State} (h : offPool t = offPool s)
include h

theorem regs_of_offPool : t.regs = s.regs := (congrArg State.regs h :)
theorem mem_of_offPool : t.mem = s.mem := (congrArg State.mem h :)
theorem locks_of_offPool : t.locks = s.locks := (congrArg State.locks h :)
theorem known_of_offPool : t.ses.known = s.ses.known := (congrArg (fun u : State => u.ses.known) h :)
theorem detached_of_offPool : t.ses.detached = s.ses.detached := (congrArg (fun u : State => u.ses.detached) h :)
theorem standby_of_offPool : t.ses.standby = s.ses.standby := (congrArg (fun u : State => u.ses.standby) h :)
theorem freed_of_offPool : t.ses.freed = s.ses.freed := (congrArg (fun u : State => u.ses.freed) h :)
theorem present_of_offPool : t.fabric.present = s.fabric.present := (congrArg (fun u : State => u.fabric.present) h :)

theorem detachedOf_of_offPool (sig : Nat) : detachedOf t sig = detachedOf s sig := by
  unfold detachedOf
  simp only [detached_of_offPool h, ctxFld_congr (natAt_congr (mem_of_offPool h) ..)]
theorem freeSession_of_offPool : freeSession t = freeSession s := by
  unfold freeSession ctxState
  simp only [ctxFld_congr (natAt_congr (mem_of_offPool h) ..)]

end

/-! ### Places of a route bank (R385, R386) -/

/-- A place of bank `b`. -/
def isPlace (b a : Nat) : Prop := ∃ h w, h < 4096 ∧ w < 8 ∧ a = bankAddr b h w

theorem routeH1_lt (k : Nat) : routeH1 k < 4096 := by
  unfold routeH1
  omega
theorem routeH2_lt (k : Nat) : routeH2 k < 4096 :=
  Nat.xor_lt_two_pow (n := 12) (routeH1_lt k) (by omega)
theorem isPlace_bucket {b k a : Nat} (h : a ∈ bucketPlaces b k) : isPlace b a := by
  simp only [bucketPlaces, List.mem_append, List.mem_map, List.mem_range] at h
  rcases h with ⟨w, hw, rfl⟩ | ⟨w, hw, rfl⟩
  · exact ⟨_, w, routeH1_lt k, hw, rfl⟩
  · exact ⟨_, w, routeH2_lt k, hw, rfl⟩
/-- Two places of a bank are the same or apart. -/
theorem isPlace_apart {b a x : Nat} (ha : isPlace b a) (hx : isPlace b x) (hne : x ≠ a) : x + 8 ≤ a ∨ a + 8 ≤ x := by
  obtain ⟨h, w, _, _, rfl⟩ := ha
  obtain ⟨h', w', _, _, rfl⟩ := hx
  simp only [bankAddr, sesReg, girdle] at hne ⊢
  omega
/-- A route bank ends before the contexts. -/
theorem isPlace_context {b a n o : Nat} (hb : b < 2) (ha : isPlace b a) : a + 8 ≤ ctxAddr n o := by
  obtain ⟨h, w, hh, hw, rfl⟩ := ha
  simp only [bankAddr, sesReg, ctxAddr, girdle]
  omega

/-- An entry is put at a place. -/
def entryPut (a e : Nat) (s : State) : State := girdlePut a (natBytes 8 e) s
theorem entryAt_entryPut_same (a e : Nat) (s : State) : entryAt (entryPut a e s) a = BitVec.ofNat 64 e := by
  rw [entryAt, entryPut, natAt_girdlePut_same]
  exact BitVec.eq_of_toNat_eq (by simp)
theorem entryAt_entryPut_ne {b a x : Nat} (ha : isPlace b a) (hx : isPlace b x) (hne : x ≠ a) (e : Nat) (s : State) :
    entryAt (entryPut a e s) x = entryAt s x := by
  rw [entryAt, entryPut, natAt_girdlePut_apart (by rw [natBytes_length]; exact isPlace_apart ha hx hne), entryAt]
theorem natAt_entryPut_context {b a : Nat} (hb : b < 2) (ha : isPlace b a) (n o len e : Nat) (s : State) :
    natAt (entryPut a e s) (ctxAddr n o) len = natAt s (ctxAddr n o) len :=
  natAt_girdlePut_apart (by have := isPlace_context (n := n) (o := o) hb ha; rw [natBytes_length]; omega) s
theorem entryAt_congr {s t : State} (h : t.mem = s.mem) (a : Nat) : entryAt t a = entryAt s a := by rw [entryAt, entryAt, natAt_congr h]
theorem findRoute_congr {s t : State} (h : t.mem = s.mem) (b k : Nat) : findRoute t b k = findRoute s b k := by simp only [findRoute, entryAt_congr h]

/-- An entry that a lookup of key `k` takes. -/
def entryMatches (k : Nat) (e : BitVec 64) : Bool := entryValid e && entryKey e == k
theorem findRoute_eq (s : State) (b k : Nat) : findRoute s b k = (bucketPlaces b k).find? fun a => entryMatches k (entryAt s a) := rfl

/-- A new entry is the one that its key finds. -/
theorem findRoute_unique {s : State} {b k a : Nat} (ha : a ∈ bucketPlaces b k) (hm : entryMatches k (entryAt s a) = true)
    (hno : ∀ x ∈ bucketPlaces b k, x ≠ a → entryMatches k (entryAt s x) = false) : findRoute s b k = some a := by
  rw [findRoute_eq]
  cases hf : (bucketPlaces b k).find? fun x => entryMatches k (entryAt s x) with
  | none => simp [List.find?_eq_none.mp hf a ha] at hm
  | some x =>
    by_cases hx : x = a
    · rw [hx]
    · have hmx := List.find?_some hf
      rw [hno x (List.mem_of_find?_eq_some hf) hx] at hmx
      exact absurd hmx Bool.false_ne_true

theorem routeEntry_fields {k d n : Nat} (hk : k < 2 ^ 30) (hd : d < 2 ^ 8) (hn : n < 2 ^ 14) : entryMatches k (BitVec.ofNat 64 (routeEntry k d n)) = true ∧
    fld (BitVec.ofNat 64 (routeEntry k d n)) 11 14 = n ∧ fld (BitVec.ofNat 64 (routeEntry k d n)) 25 8 = d := by
  have hlt : routeEntry k d n < 2 ^ 64 := by
    unfold routeEntry
    omega
  have hnat : (BitVec.ofNat 64 (routeEntry k d n)).toNat = routeEntry k d n := by rw [BitVec.toNat_ofNat, Nat.mod_eq_of_lt hlt]
  have hbit : bit (BitVec.ofNat 64 (routeEntry k d n)) 63 = true := by
    rw [bit, BitVec.getLsbD, hnat, Nat.testBit_eq_decide_div_mod_eq]
    unfold routeEntry
    simp only [decide_eq_true_eq]
    omega
  refine ⟨?_, ?_, ?_⟩
  · simp only [entryMatches, entryValid, entryKey, hbit, fld, hnat, Bool.true_and, Bool.and_eq_true, beq_iff_eq]
    unfold routeEntry
    omega
  · rw [fld, hnat, routeEntry]
    omega
  · rw [fld, hnat, routeEntry]
    omega

end Sys2Proof.Proofs

namespace Sys2Proof.Proofs

open Sys2Proof Sys2Proof.Machine Sys2Proof.Claims Sys2Proof.Laws

/-! ### A route is inserted (R386) -/

/-- Only bytes of a route bank differ, and what a rewritten word marks. -/
def routesOnly (s t : State) : Prop :=
  offStore t = offStore s ∧ (∀ n o len, natAt t (ctxAddr n o) len = natAt s (ctxAddr n o) len) ∧ ∀ o, o < 0x100000 → rget t (sesReg o) = rget s (sesReg o)

theorem routesOnly_refl (s : State) : routesOnly s s := ⟨rfl, fun _ _ _ => rfl, fun _ _ => rfl⟩
theorem routesOnly_trans {s t u : State} : routesOnly s t → routesOnly t u → routesOnly s u
  | ⟨h1, h2, h3⟩, ⟨h4, h5, h6⟩ => ⟨h4.trans h1, fun n o len => (h5 n o len).trans (h2 n o len), fun o ho => (h6 o ho).trans (h3 o ho)⟩
theorem routesOnly_entryPut {b a : Nat} (hb : b < 2) (ha : isPlace b a) (e : Nat) (s : State) : routesOnly s (entryPut a e s) :=
  ⟨girdlePut_offStore .., fun n o len => natAt_entryPut_context hb ha n o len e s, fun _ ho => rget_girdlePut_apart (sesReg_not_integReg ho) ..⟩

theorem mem_bucketPlaces_h1 (b k w : Nat) (hw : w < 8) : bankAddr b (routeH1 k) w ∈ bucketPlaces b k := by
  simp only [bucketPlaces, List.mem_append, List.mem_map, List.mem_range]
  exact .inl ⟨w, hw, rfl⟩
theorem freeWay_place {s : State} {b h a : Nat} (ha : freeWay s b h = some a) : ∃ w, w < 8 ∧ a = bankAddr b h w := by
  have hmem := List.mem_of_find?_eq_some ha
  simp only [List.mem_map, List.mem_range] at hmem
  obtain ⟨w, hw, rfl⟩ := hmem
  exact ⟨w, hw, rfl⟩
/-- An entry moves from one place of the bucket to a free place of its other bucket. -/
theorem movableEntry_places {s : State} {b h : Nat} {p : Nat × Nat} (hp : movableEntry s b h = some p) :
    (∃ w, w < 8 ∧ p.1 = bankAddr b h w) ∧ ∃ h' w, h' < 4096 ∧ w < 8 ∧ p.2 = bankAddr b h' w := by
  have hmem := List.mem_of_mem_head? hp
  simp only [List.mem_filterMap, List.mem_map, List.mem_range] at hmem
  obtain ⟨a, ⟨w, hw, rfl⟩, hmove⟩ := hmem
  split at hmove
  · simp at hmove
  · rename_i hunlocked
    obtain ⟨t, ht, rfl⟩ := Option.map_eq_some_iff.mp hmove
    obtain ⟨w', hw', rfl⟩ := freeWay_place ht
    refine ⟨⟨w, hw, rfl⟩, _, w', ?_, hw', rfl⟩
    unfold otherBucket
    split
    · exact routeH2_lt _
    · exact routeH1_lt _

/-- Where the key has an entry, the new one replaces it. -/
theorem findRoute_replaced {s : State} {b k a e : Nat} (he : entryMatches k (BitVec.ofNat 64 e) = true) (hf : findRoute s b k = some a) :
    findRoute (entryPut a e s) b k = some a := by
  rw [findRoute_eq] at hf ⊢
  obtain ⟨hm, as, bs, hl, hno⟩ := List.find?_eq_some_iff_append.mp hf
  have ha : isPlace b a := isPlace_bucket (List.mem_of_find?_eq_some hf)
  refine List.find?_eq_some_iff_append.mpr ⟨by rw [entryAt_entryPut_same, he], as, bs, hl, fun x hx => ?_⟩
  have hxp : isPlace b x := isPlace_bucket (by rw [hl]; simp [hx])
  have hxa : x ≠ a := by
    rintro rfl
    have hnot := hno x hx
    rw [hm] at hnot
    exact absurd hnot (by decide)
  rw [entryAt_entryPut_ne ha hxp hxa]
  exact hno x hx
/-- Where it has none, a place that is put finds it. -/
theorem findRoute_added {s : State} {b k a e : Nat} (he : entryMatches k (BitVec.ofNat 64 e) = true) (ha : a ∈ bucketPlaces b k)
    (hno : ∀ x ∈ bucketPlaces b k, x ≠ a → entryMatches k (entryAt s x) = false) : findRoute (entryPut a e s) b k = some a := by
  refine findRoute_unique ha (by rw [entryAt_entryPut_same, he]) fun x hx hxa => ?_
  rw [entryAt_entryPut_ne (isPlace_bucket ha) (isPlace_bucket hx) hxa]
  exact hno x hx hxa

/-- Where another entry moves to make room. -/
theorem entryMoved_finds {s : State} {b k e : Nat} {p : Nat × Nat} (hb : b < 2) (he : entryMatches k (BitVec.ofNat 64 e) = true)
    (hnone : ∀ x ∈ bucketPlaces b k, entryMatches k (entryAt s x) = false) (hfrom : p.1 ∈ bucketPlaces b k) (hto : isPlace b p.2) :
    let t := entryPut p.1 e (entryPut p.2 (entryAt s p.1).toNat s)
    routesOnly s t ∧ ∃ a, findRoute t b k = some a ∧ entryAt t a = BitVec.ofNat 64 e := by
  intro t
  refine ⟨routesOnly_trans (routesOnly_entryPut hb hto _ s) (routesOnly_entryPut hb (isPlace_bucket hfrom) e _), p.1, ?_, entryAt_entryPut_same ..⟩
  refine findRoute_added he hfrom fun x hx _ => ?_
  by_cases hx2 : x = p.2
  · rw [hx2, entryAt_entryPut_same, BitVec.ofNat_toNat, BitVec.setWidth_eq]
    exact hnone _ hfrom
  · rw [entryAt_entryPut_ne hto (isPlace_bucket hx) hx2]
    exact hnone x hx

theorem insertRoute_finds {b k e : Nat} {s t : State} (hb : b < 2) (he : entryMatches k (BitVec.ofNat 64 e) = true) (h : insertRoute b k e s = some t) :
    routesOnly s t ∧ ∃ a, findRoute t b k = some a ∧ entryAt t a = BitVec.ofNat 64 e := by
  have hput (a : Nat) (ha : isPlace b a) (hf : findRoute (entryPut a e s) b k = some a) :
      routesOnly s (entryPut a e s) ∧ ∃ a', findRoute (entryPut a e s) b k = some a' ∧ entryAt (entryPut a e s) a' = BitVec.ofNat 64 e :=
    ⟨routesOnly_entryPut hb ha e s, a, hf, entryAt_entryPut_same ..⟩
  unfold insertRoute at h
  cases hf : findRoute s b k with
  | some a =>
    rw [hf] at h
    cases h
    exact hput a (isPlace_bucket (List.mem_of_find?_eq_some hf)) (findRoute_replaced he hf)
  | none =>
    have hnone : ∀ x ∈ bucketPlaces b k, entryMatches k (entryAt s x) = false := fun x hx => by
      simpa using List.find?_eq_none.mp ((findRoute_eq s b k).symm.trans hf) x hx
    have hfree (h' : Nat) (a : Nat) (hb' : ∀ w, w < 8 → bankAddr b h' w ∈ bucketPlaces b k) (hw : freeWay s b h' = some a) :
        a ∈ bucketPlaces b k ∧ findRoute (entryPut a e s) b k = some a := by
      obtain ⟨w, hw8, rfl⟩ := freeWay_place hw
      exact ⟨hb' w hw8, findRoute_added he (hb' w hw8) fun x hx _ => hnone x hx⟩
    have hb1 (w : Nat) (hw : w < 8) : bankAddr b (routeH1 k) w ∈ bucketPlaces b k := mem_bucketPlaces_h1 b k w hw
    have hb2 (w : Nat) (hw : w < 8) : bankAddr b (routeH2 k) w ∈ bucketPlaces b k := by
      simp only [bucketPlaces, List.mem_append, List.mem_map, List.mem_range]
      exact .inr ⟨w, hw, rfl⟩
    rw [hf] at h
    cases hw1 : freeWay s b (routeH1 k) with
    | some a =>
      rw [hw1] at h
      cases h
      obtain ⟨ha, hfound⟩ := hfree _ a hb1 hw1
      exact hput a (isPlace_bucket ha) hfound
    | none =>
      rw [hw1] at h
      cases hw2 : freeWay s b (routeH2 k) with
      | some a =>
        rw [hw2] at h
        cases h
        obtain ⟨ha, hfound⟩ := hfree _ a hb2 hw2
        exact hput a (isPlace_bucket ha) hfound
      | none =>
        rw [hw2] at h
        obtain ⟨p, hp, rfl⟩ := Option.map_eq_some_iff.mp h
        obtain ⟨⟨w, hw, hfrom⟩, h', w', hh', hw', hto⟩ := movableEntry_places hp
        exact entryMoved_finds hb he hnone (hfrom ▸ hb1 w hw) ⟨h', w', hh', hw', hto⟩

end Sys2Proof.Proofs

namespace Sys2Proof.Proofs

open Sys2Proof Sys2Proof.Machine Sys2Proof.Claims Sys2Proof.Laws

/-! ### A session opens (R391) -/

theorem mod_div_mod (x lo w k : Nat) (h : lo + w ≤ k) : x % 2 ^ k / 2 ^ lo % 2 ^ w = x / 2 ^ lo % 2 ^ w := by
  refine Nat.eq_of_testBit_eq fun i => ?_
  simp only [Nat.testBit_mod_two_pow, Nat.testBit_div_two_pow]
  by_cases hi : i < w
  · simp [hi, show lo + i < k by omega, Nat.add_comm]
  · simp [hi]
/-- A field within fields that were put at once. -/
theorem ctxFld_ctxPut_sub {k lo w : Nat} (hk : k ≤ 64) (h : lo + w ≤ k) (n o v : Nat) (s : State) : ctxFld (ctxPut n o 0 k v s) n o lo w = v / 2 ^ lo % 2 ^ w := by
  have hall := ctxFld_ctxPut_same (lo := 0) (w := k) (by omega) n o v s
  rw [ctxFld, Nat.pow_zero, Nat.div_one] at hall
  rw [ctxFld, ← mod_div_mod _ lo w k h, hall, mod_div_mod _ lo w k h]

theorem localPkg_lt (s : State) : localPkg s < 2 ^ 8 := fld_lt ..
theorem localPkg_of_rget {s t : State} (h : rget t (sesReg 0x20) = rget s (sesReg 0x20)) : localPkg t = localPkg s := rfld_congr h ..

/-! #### The context -/

/-- A new context: all bytes 0. -/
def ctxCleared (n : Nat) (s : State) : State :=
  { girdlePut (ctxAddr n 0) (List.replicate 256 0) s with tags := sdel s.tags (ctxAddr n 0x30) }
/-- The endpoint of a context, its state, and what it opened with. -/
def ctxOpened (n cell sub eid sig : Nat) (s : State) : State :=
  ctxPut n 0x48 0 64 s.tb.tick (ctxPut n 0x40 0 64 sig (ctxPut n 0 61 3 1 (ctxPut n 0 0 48 (eid * 2 ^ 30 + localPkg s * 2 ^ 22 + cell * 2 ^ 12 + sub) s)))
theorem ctxPut_tb (n o lo w v : Nat) (s : State) : (ctxPut n o lo w v s).tb = s.tb := (congrArg State.tb (ctxPut_offStore n o lo w v s) :)
theorem openContext_fresh (n cell sub eid sig : Nat) (s : State) : openContext n cell sub eid sig true s = ctxOpened n cell sub eid sig (ctxCleared n s) := by
  unfold openContext ctxOpened
  dsimp only
  rw [if_pos rfl, ctxPut_tb, ctxPut_tb]
  rfl

theorem rget_ctxCleared {o : Nat} (h : o < 0x100000) (n : Nat) (s : State) : rget (ctxCleared n s) (sesReg o) = rget s (sesReg o) :=
  (rget_congr rfl _).trans (rget_girdlePut_apart (sesReg_not_integReg h) (ctxAddr n 0) (List.replicate 256 0) s)
theorem ctxCleared_ses (n : Nat) (s : State) : (ctxCleared n s).ses = s.ses :=
  (ses_of_offStore (girdlePut_offStore (ctxAddr n 0) (List.replicate 256 0) s) :)
theorem wf_ctxCleared {s : State} (h : Memory.wf s.mem = true) (n : Nat) : Memory.wf (ctxCleared n s).mem = true :=
  wf_girdlePut (a := ctxAddr n 0) (bs := List.replicate 256 0) (s := s) h

theorem rget_ctxOpened {o : Nat} (h : o < 0x100000) (n cell sub eid sig : Nat) (s : State) :
    rget (ctxOpened n cell sub eid sig s) (sesReg o) = rget s (sesReg o) := by
  have hno := sesReg_not_integReg h
  rw [ctxOpened, rget_ctxPut_apart hno, rget_ctxPut_apart hno, rget_ctxPut_apart hno, rget_ctxPut_apart hno]
theorem ctxOpened_offStore (n cell sub eid sig : Nat) (s : State) : offStore (ctxOpened n cell sub eid sig s) = offStore s := by
  rw [ctxOpened, ctxPut_offStore, ctxPut_offStore, ctxPut_offStore, ctxPut_offStore]
theorem wf_ctxOpened {s : State} (h : Memory.wf s.mem = true) (n cell sub eid sig : Nat) : Memory.wf (ctxOpened n cell sub eid sig s).mem = true :=
  wf_ctxPut (wf_ctxPut (wf_ctxPut (wf_ctxPut h)))
theorem ctxFld_ctxOpened {cell sub : Nat} (hcell : cell < 2 ^ 10) (hsub : sub < 2 ^ 12) (n eid sig : Nat) (s : State) :
    ctxState (ctxOpened n cell sub eid sig s) n = 1 ∧ ctxFld (ctxOpened n cell sub eid sig s) n 0 30 18 = eid % 2 ^ 18 ∧
      ctxFld (ctxOpened n cell sub eid sig s) n 0 12 10 = cell ∧ ctxFld (ctxOpened n cell sub eid sig s) n 0 0 12 = sub := by
  have hpkg := localPkg_lt s
  unfold ctxState ctxOpened
  refine ⟨?_, ?_, ?_, ?_⟩
  · rw [ctxFld_ctxPut_apart (by decide), ctxFld_ctxPut_apart (by decide), ctxFld_ctxPut_same (by decide)]
    rfl
  · rw [ctxFld_ctxPut_apart (by decide), ctxFld_ctxPut_apart (by decide), ctxFld_ctxPut_field (by decide), ctxFld_ctxPut_sub (by decide) (by decide)]
    omega
  · rw [ctxFld_ctxPut_apart (by decide), ctxFld_ctxPut_apart (by decide), ctxFld_ctxPut_field (by decide), ctxFld_ctxPut_sub (by decide) (by decide)]
    omega
  · rw [ctxFld_ctxPut_apart (by decide), ctxFld_ctxPut_apart (by decide), ctxFld_ctxPut_field (by decide), ctxFld_ctxPut_sub (by decide) (by decide)]
    omega

/-! #### The shadow bank and the swap -/

theorem routesOnly_prepShadow {s : State} (hwf : Memory.wf s.mem = true) : routesOnly s (prepShadow s) := by
  have hlive := sesLive_lt s
  unfold prepShadow
  split
  · exact routesOnly_refl s
  · refine ⟨by simp [offStore, offRegs, syncShadow], fun n o len => ?_, fun o _ => rget_congr (by simp [syncShadow]) _⟩
    obtain ⟨_, hout⟩ := copied_copyBytes (t := syncShadow s) (fr := bankAddr (sesLive s) 0 0) (dst := bankAddr (1 - sesLive s) 0 0) hwf (by simp [syncShadow])
    unfold natAt bytesAt
    refine congrArg bytesNat (List.map_congr_left fun i _ => hout _ (.inr ?_))
    simp only [bankAddr, sesReg, ctxAddr, girdle]
    omega

theorem armSoon_offRegs (s : State) : offRegs (armSoon s) = offRegs s := by
  unfold armSoon
  split
  · rfl
  · rw [offRegs_rbitSet, offRegs_rset]
theorem armSoon_armed (s : State) : rbit (armSoon s) (sesReg 0) 1 = true := by
  unfold armSoon
  split
  · assumption
  · exact rbit_rbitSet_same (by decide) ..
theorem sesLive_armSoon (s : State) : sesLive (armSoon s) = sesLive s := by
  unfold armSoon
  split
  · rfl
  · rw [sesLive, rfld_rbitSet_apart (by decide)]
    exact rfld_congr (rget_rset_ne (by simp [sesReg_inj]) ..) ..
theorem rget_armSoon_ne {o : Nat} (h0 : o ≠ 0) (h8 : o ≠ 8) (s : State) : rget (armSoon s) (sesReg o) = rget s (sesReg o) := by
  unfold armSoon
  split
  · rfl
  · rw [rget_rbitSet_ne (by simpa [sesReg_inj] using h0), rget_rset_ne (by simpa [sesReg_inj] using h8)]
theorem mem_of_offRegs {s t : State} (h : offRegs t = offRegs s) : t.mem = s.mem := (congrArg State.mem h :)
theorem ses_of_offRegs {s t : State} (h : offRegs t = offRegs s) : t.ses = s.ses := (congrArg State.ses h :)

theorem routeKey_lt {pkg cell sub : Nat} (hp : pkg < 2 ^ 8) (hc : cell < 2 ^ 10) (hs : sub < 2 ^ 12) : routeKey pkg cell sub < 2 ^ 30 := by
  unfold routeKey
  omega

/-- A new session: its context, and its route in the shadow bank, which a swap makes live. -/
theorem openSession_opens {n p sub sig eid : Nat} {s t : State} (hwf : Memory.wf s.mem = true) (hp : p < 2 ^ 10) (hsub : sub < 2 ^ 12) (hn : n < 2 ^ 14)
    (h : openSession n p sub sig true (eid, s) = some t) :
    ctxState t n = 1 ∧ ctxFld t n 0 30 18 = eid % 2 ^ 18 ∧ ctxFld t n 0 12 10 = p ∧ ctxFld t n 0 0 12 = sub ∧ n ∈ t.ses.opening ∧
      rbit t (sesReg 0) 1 = true ∧ ∃ a, findRoute t (1 - sesLive t) (routeKey (localPkg s) p sub) = some a ∧
        fld (entryAt t a) 11 14 = n ∧ fld (entryAt t a) 25 8 = localPkg s := by
  unfold openSession at h
  dsimp only at h
  rw [openContext_fresh] at h
  generalize hs1 : setSes { s.ses with detached := s.ses.detached.filter fun d => d.1 != n } s = s1 at h
  have hregs1 : s1.regs = s.regs := by simp [← hs1]
  have hwf1 : Memory.wf s1.mem = true := by simpa [← hs1] using hwf
  have hwf2 : Memory.wf (ctxOpened n p sub eid sig (ctxCleared n s1)).mem = true := wf_ctxOpened (wf_ctxCleared hwf1 n) ..
  have hprep := routesOnly_prepShadow hwf2
  have hpkg : localPkg (prepShadow (ctxOpened n p sub eid sig (ctxCleared n s1))) = localPkg s := by
    refine (localPkg_of_rget ((hprep.2.2 _ (by decide)).trans ((rget_ctxOpened (by decide) ..).trans (rget_ctxCleared (by decide) ..)))).trans ?_
    exact localPkg_congr hregs1
  rw [hpkg] at h
  obtain ⟨v, hv, rfl⟩ := Option.map_eq_some_iff.mp h
  obtain ⟨hmatch, hsess, hpkgf⟩ := routeEntry_fields (routeKey_lt (localPkg_lt s) hp hsub) (localPkg_lt s) hn
  obtain ⟨honly, a, hfind, hentry⟩ := insertRoute_finds (by omega) hmatch hv
  obtain ⟨hstore, hctx, hreg⟩ := routesOnly_trans hprep honly
  generalize hw : setSes { v.ses with opening := v.ses.opening ++ [n] } v = w
  have hmem : (armSoon w).mem = v.mem := (mem_of_offRegs (armSoon_offRegs w)).trans (by simp [← hw])
  have hfld (o lo wd : Nat) : ctxFld (armSoon w) n o lo wd = ctxFld (ctxOpened n p sub eid sig (ctxCleared n s1)) n o lo wd :=
    ctxFld_congr ((natAt_congr hmem ..).trans (hctx ..)) ..
  have hlive : sesLive (armSoon w) = sesLive (prepShadow (ctxOpened n p sub eid sig (ctxCleared n s1))) := by
    refine (sesLive_armSoon w).trans ((rfld_congr (rget_congr (by simp [← hw]) _) 0 1).trans (rfld_congr (honly.2.2 0 (by decide)) 0 1))
  obtain ⟨hstate, heid, hcell, hsubf⟩ := ctxFld_ctxOpened hp hsub n eid sig (ctxCleared n s1)
  refine ⟨(hfld ..).trans hstate, (hfld ..).trans heid, (hfld ..).trans hcell, (hfld ..).trans hsubf, ?_, armSoon_armed w, a, ?_, ?_, ?_⟩
  · rw [ses_of_offRegs (armSoon_offRegs w)]
    simp [← hw]
  · rw [hlive, findRoute_congr hmem, hfind]
  · rw [entryAt_congr hmem, hentry, hsess]
  · rw [entryAt_congr hmem, hentry, hpkgf]

end Sys2Proof.Proofs

namespace Sys2Proof.Proofs

open Sys2Proof Sys2Proof.Machine Sys2Proof.Claims Sys2Proof.Laws

/-! ### Endpoints (R391 to R394) -/

theorem endpointAttach_locked {p : Fin 1024} {s : State} (hon : sesOn s = true) (hcopy : rbit s (sesReg 0) 2 = false) (hlock : p.val ∈ s.locks.cells)
    (sub : BitVec 12) (proto : BitVec 8) (ident : List (BitVec 8)) : exec (.endpointAttach p sub proto ident) s = .next (sesEvt 3 s) := by
  show execEndpointAttach p sub proto ident s = _
  rw [execEndpointAttach, if_neg (by simp [hon, hcopy]), if_pos (by simpa using hlock)]
theorem endpointAttach_takes {p : Fin 1024} {proto : BitVec 8} {s : State} (hon : sesOn s = true) (hcopy : rbit s (sesReg 0) 2 = false)
    (hlock : p.val ∉ s.locks.cells) (hproto : proto ≠ 7) (sub : BitVec 12) (ident : List (BitVec 8)) : exec (.endpointAttach p sub proto ident) s =
      .next ((attach p sub.toNat proto.toNat ident (fillPool s)).getD (fillPool s)) := by
  have hnot : ¬ proto.toNat = 7 := fun h => hproto (BitVec.eq_of_toNat_eq h)
  show execEndpointAttach p sub proto ident s = _
  rw [execEndpointAttach, if_neg (by simp [hon, hcopy]), if_neg (by simpa using hlock), if_neg hnot, if_neg hnot]

theorem freeSession_lt {s : State} {n : Nat} (h : freeSession s = some n) : n < 2 ^ 14 := by
  have hmem := List.mem_of_find?_eq_some h
  simp only [List.mem_map, List.mem_range] at hmem
  omega

/-- An attach of a known endpoint, its session free: what is left to open it. -/
theorem attach_known {p sub proto : Nat} {ident : List Byte} {s : State} {n : Nat} {e : Nat × Nat}
    (hold : detachedOf s (endpointSig (localPkg s) p proto ident) = none) (hfree : freeSession s = some n)
    (hknown : (s.ses.known.find? fun q => q.1 == endpointSig (localPkg s) p proto ident) = some e) : attach p sub proto ident s =
      openSession n p sub (endpointSig (localPkg s) p proto ident) true (e.2, setSes { s.ses with freed := s.ses.freed.filter fun f => f.1 != e.2 } s) := by
  unfold attach
  dsimp only
  rw [hold, hfree]
  dsimp only [Option.orElse]
  unfold takeIdentity
  rw [hknown]
  rfl

theorem attachOpens {p : Fin 1024} {sub : BitVec 12} {proto : Nat} {ident : List Byte} {s t : State} {n : Nat} {e : Nat × Nat} (hwf : Memory.wf s.mem = true)
    (h : attach p sub.toNat proto ident (fillPool s) = some t) (hold : detachedOf s (endpointSig (localPkg s) p proto ident) = none)
    (hfree : freeSession s = some n) (hknown : (s.ses.known.find? fun q => q.1 == endpointSig (localPkg s) p proto ident) = some e) :
    ctxState t n = 1 ∧ ctxFld t n 0 30 18 = e.2 % 2 ^ 18 ∧ ctxFld t n 0 12 10 = p ∧ ctxFld t n 0 0 12 = sub.toNat ∧ n ∈ t.ses.opening ∧
      rbit t (sesReg 0) 1 = true ∧ ∃ a, findRoute t (1 - sesLive t) (routeKey (localPkg s) p sub.toNat) = some a ∧
        fld (entryAt t a) 11 14 = n ∧ fld (entryAt t a) 25 8 = localPkg s := by
  have hoff := fillPool_offPool s
  have hpkg : localPkg (fillPool s) = localPkg s := localPkg_congr (regs_of_offPool hoff)
  rw [← hpkg] at hold hknown ⊢
  rw [← detachedOf_of_offPool hoff] at hold
  rw [← freeSession_of_offPool hoff] at hfree
  rw [← known_of_offPool hoff] at hknown
  rw [← mem_of_offPool hoff] at hwf
  rw [attach_known hold hfree hknown] at h
  generalize hv : setSes { (fillPool s).ses with freed := (fillPool s).ses.freed.filter fun f => f.1 != e.2 } (fillPool s) = v at h
  have hpkgv : localPkg v = localPkg (fillPool s) := localPkg_congr (by simp [← hv])
  have hopens := openSession_opens (by simpa [← hv] using hwf) p.isLt sub.isLt (freeSession_lt hfree) h
  rwa [hpkgv] at hopens

/-! #### A detach -/

/-- The state without its registers, its memory and what the ledger waits for. -/
def offLedger (s : State) : State := { offStore s with ledger := {} }
theorem ledgerPut_offLedger (l off : Nat) (bs : List Byte) (s : State) : offLedger (ledgerPut l off bs s) = offLedger s := by
  unfold ledgerPut setPendCount
  dsimp only
  split
  · split <;> simp [offLedger, offStore, offRegs]
  · simp [offLedger, offStore, offRegs]
theorem ledgerPut_mem_eq (l off : Nat) (bs : List Byte) (s : State) : (ledgerPut l off bs s).mem = (poke (ledgerAddr l off) bs s).mem := by
  unfold ledgerPut setPendCount
  dsimp only
  split
  · split <;> simp
  · simp
theorem rget_ledgerPut_ne {a : Nat} (h : a ≠ ldgReg 0) (l off : Nat) (bs : List Byte) (s : State) : rget (ledgerPut l off bs s) a = rget s a := by
  unfold ledgerPut setPendCount
  dsimp only
  split
  · split
    · exact (rget_congr (by simp) a).trans ((rget_rsat_ne h 32 32 1 (poke (ledgerAddr l off) bs s)).trans (rget_congr (by simp) a))
    · exact rget_congr (by simp) a
  · rw [rget_rput_ne h]
    exact rget_congr (by simp) a
theorem sesReg_ne_ldgReg (o : Nat) : sesReg o ≠ ldgReg 0 := by
  simp only [sesReg, ldgReg, girdle]
  omega
theorem natAt_ledgerPut_context {n : Nat} (hn : n < 2 ^ 14) {o len : Nat} (ho : o + len ≤ 256) (l off : Nat) (bs : List Byte) (s : State) :
    natAt (ledgerPut l off bs s) (ctxAddr n o) len = natAt s (ctxAddr n o) len := by
  rw [natAt_congr (ledgerPut_mem_eq l off bs s), natAt_poke_apart (.inl ?_)]
  simp only [ctxAddr, ledgerAddr, girdle]
  omega

/-- What a chip leaves as it goes: sessions, contexts and the session engine's registers stand. -/
theorem chipDetach_keeps {n : Nat} (hn : n < 2 ^ 14) (p dev : Nat) (s : State) : (chipDetach p dev s).ses = s.ses ∧
    (∀ o lo w, o + 8 ≤ 256 → ctxFld (chipDetach p dev s) n o lo w = ctxFld s n o lo w) ∧ ∀ o, rget (chipDetach p dev s) (sesReg o) = rget s (sesReg o) := by
  unfold chipDetach
  split
  · rename_i l hl
    unfold consEdit
    refine ⟨?_, fun o lo w ho => ctxFld_congr ((natAt_ledgerPut_context hn ho ..).trans (natAt_congr (by simp [unseatChip]) ..)) .., fun o => ?_⟩
    · exact (congrArg State.ses (ledgerPut_offLedger l 0 _ (unseatChip p dev s)) :).trans (by simp [offLedger, offStore, offRegs, unseatChip])
    · exact (rget_ledgerPut_ne (sesReg_ne_ldgReg o) ..).trans (rget_congr (by simp [unseatChip]) _)
  · exact ⟨rfl, fun _ _ _ _ => rfl, fun _ => rfl⟩

/-- The route of a session goes from the shadow bank. -/
theorem routesOnly_removeRoute {b : Nat} (hb : b < 2) (k : Nat) (s : State) : routesOnly s (removeRoute b k s) := by
  unfold removeRoute
  split
  · rename_i a ha
    exact routesOnly_entryPut hb (isPlace_bucket (List.mem_of_find?_eq_some ha)) 0 s
  · exact routesOnly_refl s

/-- A closing session: its state, and its route out of the shadow bank, with a swap armed. -/
def routeClosed (n k : Nat) (s : State) : State :=
  let s := prepShadow (ctxPut n 0 61 3 2 s)
  armSoon (removeRoute (1 - sesLive s) k s)
theorem detach_eq (n : Nat) (s : State) : ∃ k c p dev, detach n s = (let t := if c = true then chipDetach p dev (routeClosed n k s) else routeClosed n k s
    setSes { t.ses with closing := t.ses.closing ++ [n] } t) := ⟨_, _, _, _, rfl⟩
theorem routeClosed_closes {s : State} (hwf : Memory.wf s.mem = true) (n k : Nat) : ctxState (routeClosed n k s) n = 2 ∧ rbit (routeClosed n k s) (sesReg 0) 1 = true := by
  have hlive := sesLive_lt (prepShadow (ctxPut n 0 61 3 2 s))
  obtain ⟨_, hctx, _⟩ := routesOnly_trans (routesOnly_prepShadow (s := ctxPut n 0 61 3 2 s) (wf_ctxPut hwf))
    (routesOnly_removeRoute (b := 1 - sesLive (prepShadow (ctxPut n 0 61 3 2 s))) (by omega) k (prepShadow (ctxPut n 0 61 3 2 s)))
  refine ⟨?_, armSoon_armed _⟩
  have hstate := ctxFld_ctxPut_same (lo := 61) (w := 3) (by decide) n 0 2 s
  exact (ctxFld_congr ((natAt_congr (mem_of_offRegs (armSoon_offRegs _)) ..).trans (hctx ..)) ..).trans hstate

theorem rbit_setSes (x : Ses) (s : State) (a b : Nat) : rbit (setSes x s) a b = rbit s a b := rfl
theorem rbit_setGly (x : Gly) (s : State) (a b : Nat) : rbit (setGly x s) a b = rbit s a b := rfl
theorem entryAt_setGly (x : Gly) (s : State) (a : Nat) : entryAt (setGly x s) a = entryAt s a := rfl
theorem endpointDetaches {n : Fin 16384} {s : State} (hon : sesOn s = true) (hwf : Memory.wf s.mem = true) (hcopy : rbit s (sesReg 0) 2 = false)
    (hn : n.val ≠ 0) (hopen : ctxState s n = 1) :
    ∃ t, exec (.endpointDetach n) s = .next t ∧ ctxState t n = 2 ∧ n.val ∈ t.ses.closing ∧ rbit t (sesReg 0) 1 = true := by
  obtain ⟨k, c, p, dev, heq⟩ := detach_eq n s
  obtain ⟨hstate, harm⟩ := routeClosed_closes hwf n k
  obtain ⟨_, hctx, hreg⟩ := chipDetach_keeps (n := n) n.isLt p dev (routeClosed n k s)
  refine ⟨_, gate_of_true (by simp [hon, hopen, hn, hcopy]) _, ?_⟩
  rw [heq]
  dsimp only
  refine ⟨?_, by simp, ?_⟩
  · rw [ctxState, ctxFld_setSes]
    split
    · exact (hctx 0 61 3 (by decide)).trans hstate
    · exact hstate
  · rw [rbit_setSes]
    split
    · exact (rbit_congr (hreg 0) 1).trans harm
    · exact harm

/-! #### The hold time, and the return of an identity -/

theorem isRegistrar_congr {s t : State} (hf : t.fabric = s.fabric) (hr : t.regs = s.regs) : isRegistrar t = isRegistrar s := by
  unfold isRegistrar members
  rw [hf, localPkg_congr hr]

theorem holdExpires {n : Fin 16384} {d : Nat × Nat} {s : State} (hon : sesOn s = true) (hd : (s.ses.detached.find? fun p => p.1 == n.val) = some d) :
    let u := advanceTo (d.2 + s.ses.hold * 1000 * msFclk) s
    ∃ t, exec (.sessionHoldExpiry n) s = .next t ∧ ctxState t n = 0 ∧
      t.ses = { u.ses with detached := u.ses.detached.erase d, freed := u.ses.freed ++ [(ctxFld u n 0 30 18, u.fclk)] } := by
  intro u
  have hexec : exec (.sessionHoldExpiry n) s = .next (setSes { u.ses with detached := u.ses.detached.erase d, freed := u.ses.freed ++ [(ctxFld u n 0 30 18, u.fclk)] }
      (ctxPut n 0 61 3 0 u)) := by
    show execSessionHoldExpiry n s = _
    unfold execSessionHoldExpiry
    rw [hd]
    exact gateAt_of_true hon _ _ _
  refine ⟨_, hexec, ?_, by simp⟩
  rw [ctxState, ctxFld_setSes, ctxFld_ctxPut_same (by decide)]
  rfl

/-- The identity of a session that ended is bound to no endpoint. -/
def identityFreed (f : Nat × Nat) (u : State) : State :=
  setSes { u.ses with freed := u.ses.freed.erase f, known := u.ses.known.filter fun k => k.2 != f.1 } u
theorem gateAt_return (when_ : Nat) (f : Nat × Nat) (s : State) :
    (gateAt true when_ s fun s =>
      let s := setSes { s.ses with freed := s.ses.freed.erase f, known := s.ses.known.filter fun k => k.2 != f.1 } s
      if isRegistrar s then returnIdentity f.1 s else tellMember (members s).head? (.giveBack f.1) s) =
    .next (if isRegistrar (identityFreed f (advanceTo when_ s)) then returnIdentity f.1 (identityFreed f (advanceTo when_ s))
      else tellMember (members (identityFreed f (advanceTo when_ s))).head? (.giveBack f.1) (identityFreed f (advanceTo when_ s))) := rfl

theorem freedReturn_exec {eid : BitVec 18} {f : Nat × Nat} {s : State} (hf : (s.ses.freed.find? fun p => p.1 == eid.toNat) = some f) (u : State) (hu : u = advanceTo (f.2 + 60000 * msFclk) s) :
    exec (.freedIdentityReturn eid) s = .next (if isRegistrar (identityFreed f u) then returnIdentity f.1 (identityFreed f u)
      else tellMember (members (identityFreed f u)).head? (.giveBack f.1) (identityFreed f u)) := by
  subst hu
  show execFreedIdentityReturn eid s = _
  unfold execFreedIdentityReturn
  rw [hf]
  exact gateAt_return _ f s
theorem identityReturns_core (f : Nat × Nat) (u : State) :
    let t := if isRegistrar (identityFreed f u) then returnIdentity f.1 (identityFreed f u)
      else tellMember (members (identityFreed f u)).head? (.giveBack f.1) (identityFreed f u)
    t.ses.freed = u.ses.freed.erase f ∧ t.mem = u.mem ∧
      t.ses.alloc = (if isRegistrar u then sdel u.ses.alloc f.1 else u.ses.alloc) := by
  intro t
  have hreg : isRegistrar (identityFreed f u) = isRegistrar u := isRegistrar_congr (by simp [identityFreed]) (by simp [identityFreed])
  have hses (d : Option Nat) (c : Control) (v : State) : (tellMember d c v).ses = v.ses := by cases d <;> simp [tellMember, sendControl]
  have hmem (d : Option Nat) (c : Control) (v : State) : (tellMember d c v).mem = v.mem := mem_of_offPool (tellMember_offPool ..)
  unfold t
  rw [hreg]
  cases hr : isRegistrar u with
  | true =>
    rw [if_pos rfl, if_pos rfl, returnIdentity]
    dsimp only
    rw [if_pos (hreg.trans hr), hses, hmem]
    simp [identityFreed]
  | false =>
    rw [if_neg Bool.false_ne_true, if_neg Bool.false_ne_true, hses, hmem]
    simp [identityFreed]
theorem identityReturns {eid : BitVec 18} {f : Nat × Nat} {s : State} (hf : (s.ses.freed.find? fun p => p.1 == eid.toNat) = some f) :
    let u := advanceTo (f.2 + 60000 * msFclk) s
    ∃ t, exec (.freedIdentityReturn eid) s = .next t ∧ t.ses.freed = u.ses.freed.erase f ∧ t.mem = u.mem ∧
      t.ses.alloc = (if isRegistrar u then sdel u.ses.alloc f.1 else u.ses.alloc) :=
  ⟨_, freedReturn_exec hf _ rfl, identityReturns_core f _⟩

/-! #### A package is lost (R394) -/

/-- The shadow bank with the standby of one route in place of an entry of a lost package. -/
def standbyTaken (b pkg : Nat) (s : State) (p : Nat × Nat) : State :=
  match findRoute s b p.1 with
  | some a => if fld (entryAt s a) 25 8 = pkg ∧ !entryLocked s (entryAt s a)
      then girdlePut a (natBytes 8 (routeEntry p.1 (p.2 / 16384) (p.2 % 16384))) s else s
  | none => s
theorem failover_eq (pkg : Nat) (s : State) : failover pkg s =
    armSoon ((prepShadow s).ses.standby.foldl (standbyTaken (1 - sesLive (prepShadow s)) pkg) (prepShadow s)) := rfl

/-- The fabric without a package. -/
def memberGone (pkg : Nat) (s : State) : State :=
  setFabric { s.fabric with
    present := sdel s.fabric.present pkg, stations := tdel s.fabric.stations pkg, heard := tdel s.fabric.heard pkg,
    out := s.fabric.out.filter fun o => !(o.fr.ty == 7 && o.fr.dpkg.toNat == pkg) } s
theorem loseMember_eq (pkg : Nat) (s : State) : ∃ u, offPool u = offPool (memberGone pkg s) ∧
    loseMember pkg s = postEvent 9 (BitVec.ofNat 64 pkg) (failover pkg u) := by
  refine ⟨_, ?_, rfl⟩
  split
  · exact (fillPool_offPool ..).trans rfl
  · rfl

theorem standbyTaken_offStore (b pkg : Nat) (s : State) (p : Nat × Nat) : offStore (standbyTaken b pkg s p) = offStore s := by
  unfold standbyTaken
  split
  · split
    · exact girdlePut_offStore ..
    · rfl
  · rfl
theorem prepShadow_offStore (s : State) : offStore (prepShadow s) = offStore s := by
  unfold prepShadow syncShadow
  split
  · rfl
  · simp [offStore, offRegs]
theorem failover_offStore (pkg : Nat) (s : State) : offStore (failover pkg s) = offStore s := by
  rw [failover_eq, offStore_of_offRegs (armSoon_offRegs _), foldl_keeps (standbyTaken_offStore _ _), prepShadow_offStore]

theorem packageLoses {pkg : BitVec 8} {s : State} (hjoin : s.fabric.joined = true) (hin : pkg.toNat ∈ s.fabric.present) (hrun : s.pwr.running = true) :
    let u := advanceTo (tget 0 s.fabric.heard pkg.toNat + s.fabric.failtime * msFclk) s
    ∃ t, exec (.packageLost pkg) s = .next t ∧ t.fabric.present = sdel u.fabric.present pkg.toNat ∧ rbit t (sesReg 0) 1 = true ∧
      (∀ k r a, u.ses.standby = [(k, r)] → rbit u (sesReg 0) 1 = true → findRoute u (1 - sesLive u) k = some a → fld (entryAt u a) 25 8 = pkg.toNat →
        entryLocked u (entryAt u a) = false → entryAt t a = BitVec.ofNat 64 (routeEntry k (r / 16384) (r % 16384))) := by
  intro u
  have hexec : exec (.packageLost pkg) s = .next (loseMember pkg.toNat u) := by
    show execPackageLost pkg s = _
    exact gateAt_of_true (by simp [hjoin, hin, hrun]) _ _ _
  obtain ⟨v, hv, heq⟩ := loseMember_eq pkg.toNat u
  obtain ⟨g, hg⟩ := postEvent_eq 9 (BitVec.ofNat 64 pkg.toNat) (failover pkg.toNat v)
  rw [heq, hg] at hexec
  have hgone : (memberGone pkg.toNat u).mem = u.mem ∧ (memberGone pkg.toNat u).regs = u.regs ∧ (memberGone pkg.toNat u).locks = u.locks ∧
      (memberGone pkg.toNat u).ses = u.ses := by simp [memberGone]
  obtain ⟨hgmem, hgregs, hglocks, hgses⟩ := hgone
  have hmem : v.mem = u.mem := (mem_of_offPool hv).trans hgmem
  have hregs : v.regs = u.regs := (regs_of_offPool hv).trans hgregs
  have hlocks : v.locks = u.locks := (locks_of_offPool hv).trans hglocks
  have hstandby : v.ses.standby = u.ses.standby := (standby_of_offPool hv).trans (by rw [hgses])
  refine ⟨_, hexec, ?_, ?_, fun k r a hone harm hfind hpkg hlock => ?_⟩
  · have hfab : (failover pkg.toNat v).fabric = v.fabric := (congrArg State.fabric (failover_offStore pkg.toNat v) :)
    have hpresent := present_of_offPool hv
    simp [hfab, hpresent, memberGone]
  · rw [rbit_setGly, failover_eq]
    exact armSoon_armed _
  · have harmv : rbit v (sesReg 0) 1 = true := (rbit_congr (rget_congr hregs _) 1).trans harm
    have hprep : prepShadow v = v := if_pos harmv
    have hlive : sesLive v = sesLive u := rfld_congr (rget_congr hregs _) ..
    have htaken : standbyTaken (1 - sesLive u) pkg.toNat v (k, r) = entryPut a (routeEntry k (r / 16384) (r % 16384)) v := by
      unfold standbyTaken
      dsimp only
      rw [findRoute_congr hmem, hfind]
      dsimp only
      rw [entryAt_congr hmem, entryLocked, hlocks, ← entryLocked, if_pos ⟨hpkg, by simp [hlock]⟩]
      rfl
    have hfail : failover pkg.toNat v = armSoon (entryPut a (routeEntry k (r / 16384) (r % 16384)) v) := by
      rw [failover_eq, hprep, hstandby, hone, hlive, List.foldl_cons, List.foldl_nil, htaken]
    rw [entryAt_setGly, hfail, entryAt_congr (mem_of_offRegs (armSoon_offRegs _)), entryAt_entryPut_same]

/-- Settles O48. -/
theorem endpointSessions : Obligations.EndpointSessions := by
  refine ⟨fun p sub proto ident s hon hcopy => ⟨fun hlock => endpointAttach_locked hon hcopy hlock .., fun hlock hproto hnone => ?_, fun t hlock hproto hsome => ?_,
    fun t n e hwf hsome hold hfree hknown => attachOpens hwf hsome hold hfree hknown⟩, fun n s hon hwf hcopy hn hopen => endpointDetaches hon hwf hcopy hn hopen,
    fun n d s hon hd => holdExpires hon hd, fun eid f s hf => identityReturns hf, fun pkg s hjoin hin hrun => packageLoses hjoin hin hrun⟩
  · rw [endpointAttach_takes hon hcopy hlock hproto, hnone]
    rfl
  · rw [endpointAttach_takes hon hcopy hlock hproto, hsome]
    rfl

end Sys2Proof.Proofs

namespace Sys2Proof.Proofs

open Sys2Proof Sys2Proof.Machine Sys2Proof.Claims Sys2Proof.Laws

/-! ### What a source of a controller leaves unchanged -/

theorem fdrop_offLog (ctl : Nat) (s : State) : offLog (fdrop ctl s) = offLog s := rfl
theorem setFiltered_offLog (ctl src : Nat) (v : Bool) (s : State) : offLog (setFiltered ctl src v s) = offLog s := rfl
theorem setRaw_offLog (ctl src : Nat) (v : Bool) (s : State) : offLog (setRaw ctl src v s) = offLog s := by
  unfold setRaw
  simp only [apply_ite offLog, setFiltered_offLog, setIntSrc_offLog, fdrop_offLog, ite_self]
theorem pulseEvent_offLog (ctl src : Nat) (s : State) : offLog (pulseEvent ctl src s) = offLog s := by
  unfold pulseEvent
  simp only [apply_ite offLog, fdrop_offLog, setIntSrc_offLog, acceptEvents_offLog, ite_self]

theorem besides_setRaw (ctl src : Nat) (v : Bool) (s : State) : (setRaw ctl src v s).facets = s.facets ∧ (setRaw ctl src v s).mem = s.mem :=
  ⟨(congrArg State.facets (setRaw_offLog ctl src v s) :), (congrArg State.mem (setRaw_offLog ctl src v s) :)⟩
theorem facet_setRaw (ctl src : Nat) (v : Bool) (s : State) (n : Nat) : facet (setRaw ctl src v s) n = facet s n := facet_congr (besides_setRaw ..).1 n

/-! ### MBXPUT and MBXGET (R412, R413) -/

theorem retire_mem_eq (n : Nat) (f : Facet) (b : List Op) (s : State) : (retire n f b s).mem = s.mem := (congrArg State.mem (retired n f b s).rest :)

section
variable {n : Fin 128} {w : OpW} {s : State}

/-- The memory of the state in which an operation acts is the one at its issue. -/
theorem acting_mem (n : Fin 128) (o : Op) (s : State) : (acting n o s).mem = (landDue n s).mem := noteReads_mem ..

/-- The facet with one credit less and the request at the end of its ring. -/
def requested (r : BitVec 256 × KReg) (f : Facet) : Facet := { f with credits := f.credits - 1, reqRing := f.reqRing ++ [r] }
/-- The facet without its oldest response. -/
def responded (t : List (BitVec 256)) (f : Facet) : Facet := { f with staging := t }

theorem exec_mbxput_empty (h : IssuesAlone n (op .mbxput w) s) (hc : (seen n s).credits ≤ (seen n s).credNew) :
    ∃ t, exec (.mbxput n w) s = .next t ∧ Controls n (op .mbxput w) s [gLand (seen n s) w.a 0] (seen n s) t := by
  obtain ⟨t, ht, hflies⟩ := exec_controlLands (p := (.mbxput, .mbxput)) (ls := [gLand (seen n s) w.a 0])
    (mem_facetOps_of_class (l := controlOps) (by simp) (by simp [controlOps])) rfl (by decide) (by decide) h
    fun x => if_pos hc
  exact ⟨t, ht, controls_of_flies hflies⟩
theorem exec_mbxget_empty (h : IssuesAlone n (op .mbxget w) s) (hc : (seen n s).staging.length ≤ (seen n s).respNew) :
    ∃ t, exec (.mbxget n w) s = .next t ∧ Controls n (op .mbxget w) s [gLand (seen n s) w.a 0] (seen n s) t := by
  obtain ⟨t, ht, hflies⟩ := exec_controlLands (p := (.mbxget, .mbxget)) (ls := [gLand (seen n s) w.a 0])
    (mem_facetOps_of_class (l := controlOps) (by simp) (by simp [controlOps])) rfl (by decide) (by decide) h
    fun x => by
      show (match (seen n s).staging.take ((seen n s).staging.length - (seen n s).respNew) with | [] => _ | e :: _ => _) = _
      rw [Nat.sub_eq_zero_of_le hc, List.take_zero]
      rfl
  exact ⟨t, ht, controls_of_flies hflies⟩

/-- A mailbox operation has acted: `ls` is in flight behind its pointer moves, and its facet is written by `wr`. -/
structure MailboxActed (n : Fin 128) (o : Op) (s : State) (ls : List Land) (wr : Facet → Facet) (x : State) : Prop where
  shows : ∃ landed replay ready, facet x n = wr { seen n s with
    landed := landed, replay := replay, ready := ready,
    flights := (seen n s).flights ++ ((opUpdates (seen n s) o).map fun l => ⟨1, l⟩) ++ ls.map fun l => ⟨1, l⟩ }
  mem : x.mem = (landDue n s).mem

theorem seen_wait_of_alone {o : Op} (h : IssuesAlone n o s) : (seen n s).wait = .none := by
  obtain ⟨_, _, _, hact⟩ := acting_facet n o s
  have := acting_wait h
  rwa [hact] at this

/-- A mailbox operation retires. -/
theorem mailboxRetires {k : OpKind} {i : Fin 128 → OpW → Instr} {ls : List Land} {wr : Facet → Facet} (hi : (k, i) ∈ controlOps) (hk : k ≠ .retx)
    (h : IssuesAlone n (op k w) s) (hacted : MailboxActed n (op k w) s ls wr (acted n (op k w) s)) (hwait : ∀ f, (wr f).wait = f.wait) :
    ∃ t x, exec (i n w) s = .next t ∧ Retired n (seen n s) [op k w] x t ∧ MailboxActed n (op k w) s ls wr x := by
  obtain ⟨_, _, _, hshows⟩ := hacted.shows
  have hwaits : (facet (acted n (op k w) s) n).wait = .none := by rw [hshows, hwait, seen_wait_of_alone h]
  exact ⟨_, acted n (op k w) s, (exec_alone (p := (k, i)) (mem_facetOps_of_class (l := controlOps) (by simp) hi) h).trans
    (congrArg _ (afterAct_retires (by rwa [op_kind]) hwaits)), retired .., hacted⟩

/-- Where an operation of the control class without capability results acts: its pointer moves are in flight. -/
def moved (n : Fin 128) (o : Op) (s : State) : State := flyAll n 1 (opUpdates (seen n s) o) (acting n o s)
theorem moved_mem (n : Fin 128) (o : Op) (s : State) : (moved n o s).mem = (landDue n s).mem :=
  (congrArg State.mem (flyAll_onlyFacet ..).2 :).trans (acting_mem n o s)
theorem facet_moved (n : Fin 128) (o : Op) (s : State) : ∃ landed replay ready, facet (moved n o s) n = { seen n s with
    landed := landed, replay := replay, ready := ready, flights := (seen n s).flights ++ (opUpdates (seen n s) o).map fun l => ⟨1, l⟩ } := by
  obtain ⟨landed, replay, ready, hact⟩ := acting_facet n o s
  exact ⟨landed, replay, ready, by rw [moved, facet_flyAll, hact]⟩

theorem acted_mbxput_credit (h : IssuesAlone n (op .mbxput w) s) (hc : (seen n s).credNew < (seen n s).credits) :
    MailboxActed n (op .mbxput w) s [gLand (seen n s) w.a 1]
      (requested (BitVec.ofNat 256 (operand n (op .mbxput w) s 1), effK (seen n s) ((spImm w.c) &&& 15).toNat)) (acted n (op .mbxput w) s) := by
  have hacted : acted n (op .mbxput w) s = putFlight n 1 (gLand (seen n s) w.a 1) (setRaw stewardCtl (128 + n) true
      (updFacet n (requested (BitVec.ofNat 256 (operand n (op .mbxput w) s 1), effK (seen n s) ((spImm w.c) &&& 15).toNat)) (moved n (op .mbxput w) s))) :=
    (acted_control h rfl (by simp [op_kind])).trans (if_neg (Nat.not_le.mpr hc) :)
  obtain ⟨landed, replay, ready, hmoved⟩ := facet_moved n (op .mbxput w) s
  refine ⟨⟨landed, replay, ready, ?_⟩, ?_⟩
  · rw [hacted, putFlight, facet_updFacet_same, facet_setRaw, facet_updFacet_same, hmoved]
    rfl
  · rw [hacted]
    exact ((besides_setRaw ..).2).trans (moved_mem n (op .mbxput w) s)

/-- Source 48 of a facet after a response has been taken: it falls with the last one. -/
def sourceFalls (n : Nat) (b : Bool) (s : State) : State := if b = true then setRaw n 48 false s else s
theorem facet_sourceFalls (n : Nat) (b : Bool) (s : State) (m : Nat) : facet (sourceFalls n b s) m = facet s m := by
  cases b with
  | true => exact facet_setRaw ..
  | false => rfl
theorem sourceFalls_mem (n : Nat) (b : Bool) (s : State) : (sourceFalls n b s).mem = s.mem := by
  cases b with
  | true => exact (besides_setRaw ..).2
  | false => rfl

theorem acted_mbxget_response {e : BitVec 256} {rest : List (BitVec 256)} (h : IssuesAlone n (op .mbxget w) s) (hc : (seen n s).respNew < (seen n s).staging.length)
    (hs : (seen n s).staging = e :: rest) :
    MailboxActed n (op .mbxget w) s (destLands (seen n s) w.b (.vec 0) e.toNat ++ [gLand (seen n s) w.a 1]) (responded rest) (acted n (op .mbxget w) s) := by
  have hacted : acted n (op .mbxget w) s = sourceFalls n rest.isEmpty (updFacet n (responded rest) (putFlight n 1 (gLand (seen n s) w.a 1)
      (flyAll n 1 (destLands (seen n s) w.b (.vec 0) e.toNat) (moved n (op .mbxget w) s)))) := by
    refine (acted_control h rfl (by simp [op_kind])).trans ?_
    obtain ⟨k, hk⟩ : ∃ k, (seen n s).staging.length - (seen n s).respNew = k + 1 := ⟨_, (Nat.succ_pred (by omega)).symm⟩
    show (match (seen n s).staging.take ((seen n s).staging.length - (seen n s).respNew) with | [] => _ | e :: _ => _) = _
    rw [hk, hs]
    rfl
  obtain ⟨landed, replay, ready, hmoved⟩ := facet_moved n (op .mbxget w) s
  refine ⟨⟨landed, replay, ready, ?_⟩, ?_⟩
  · rw [hacted, facet_sourceFalls, facet_updFacet_same, putFlight, facet_updFacet_same, facet_flyAll, hmoved]
    simp only [responded, List.map_append, List.append_assoc]
    rfl
  · rw [hacted, sourceFalls_mem]
    exact (congrArg State.mem (flyAll_onlyFacet ..).2 :).trans (moved_mem n (op .mbxget w) s)

end

/-- Settles O25: where there is no credit or response 0 is in flight and nothing else happens; else the request or response moves, and 1 is in flight. -/
theorem mailboxOperations : Obligations.MailboxOperations := by
  intro n w s f
  refine ⟨fun h hc => exec_mbxput_empty h hc, fun h hc => ?put, fun h hc => exec_mbxget_empty h hc, fun e rest h hc hs => ?get⟩
  case put =>
    obtain ⟨t, x, ht, hr, ⟨_, _, _, hx⟩, hmem⟩ := mailboxRetires (i := .mbxput) (by simp [controlOps]) (by decide) h (acted_mbxput_credit h hc) fun _ => rfl
    have hkept := Retired.kept_eq hr
    obtain ⟨_, _, _, _, _, _, _, _, _, _, _, _, _, hs⟩ := hr.same
    refine ⟨t, ht, by rw [hs, hx]; rfl, by rw [hs, hx]; rfl, by rw [hs, hx]; rfl, ?_, (congrArg State.mem hr.rest :).trans hmem⟩
    rw [hx] at hkept
    exact (congrArg (fun g : Facet => { g with credits := 0, reqRing := [] }) hkept :)
  case get =>
    obtain ⟨t, x, ht, hr, ⟨_, _, _, hx⟩, hmem⟩ := mailboxRetires (i := .mbxget) (by simp [controlOps]) (by decide) h (acted_mbxget_response h hc hs) fun _ => rfl
    have hkept := Retired.kept_eq hr
    obtain ⟨_, _, _, _, _, _, _, _, _, _, _, _, _, hs'⟩ := hr.same
    refine ⟨t, ht, by rw [hs', hx]; rfl, ?_, ?_, (congrArg State.mem hr.rest :).trans hmem⟩
    · rw [hs', hx]
      simp only [responded, List.map_append, List.append_assoc]
      rfl
    · rw [hx] at hkept
      exact (congrArg (fun g : Facet => { g with staging := [] }) hkept :)

end Sys2Proof.Proofs

namespace Sys2Proof.Proofs

open Sys2Proof Sys2Proof.Machine Sys2Proof.Claims Sys2Proof.Laws

/-! ### Registers of a queue pair (R397, R398) -/

theorem qreg_inj {q o o' : Nat} : qreg q o = qreg q o' ↔ o = o' := by
  simp only [qreg, mbxReg, girdle]
  omega
theorem stat_ne_cfg (q : Nat) : qreg q 0x10 ≠ qreg q 0x18 := by simp [qreg_inj]

/-- The state without what the queue pairs count. -/
def offQps (s : State) : State := { s with gly := { s.gly with qps := [] } }
theorem setQpair_offQps (q : Nat) (x : QPair) (s : State) : offQps (setQpair q x s) = offQps s := rfl
theorem qpair_setQpair (q : Nat) (x : QPair) (s : State) : qpair (setQpair q x s) q = x := tget_tset_self ..
theorem rget_setQpair (q : Nat) (x : QPair) (s : State) (a : Nat) : rget (setQpair q x s) a = rget s a := rfl
theorem regs_of_offQps {s t : State} (h : offQps t = offQps s) : t.regs = s.regs := (congrArg State.regs h :)
theorem mem_of_offQps {s t : State} (h : offQps t = offQps s) : t.mem = s.mem := (congrArg State.mem h :)
theorem out_of_offQps {s t : State} (h : offQps t = offQps s) : t.out = s.out := (congrArg State.out h :)
theorem cmds_of_offQps {s t : State} (h : offQps t = offQps s) : t.gly.cmds = s.gly.cmds := (congrArg (fun u : State => u.gly.cmds) h :)
theorem evq_of_offQps {s t : State} (h : offQps t = offQps s) : t.gly.evq = s.gly.evq := (congrArg (fun u : State => u.gly.evq) h :)
theorem dropped_of_offQps {s t : State} (h : offQps t = offQps s) : t.gly.dropped = s.gly.dropped := (congrArg (fun u : State => u.gly.dropped) h :)

theorem qcfg_qSet (q i : Nat) (b : Bool) (s : State) : qcfg (qSet q i b s) q = qcfg s q := rget_rbitSet_ne (stat_ne_cfg q) ..
theorem qEn_qSet (q i : Nat) (b : Bool) (s : State) : qEn (qSet q i b s) q = qEn s q := by rw [qEn, qcfg_qSet, ← qEn]
theorem qBit_qSet_same {i : Nat} (hi : i < 64) (q : Nat) (b : Bool) (s : State) : qBit (qSet q i b s) q i = b := rbit_rbitSet_same hi ..
theorem qBit_qSet_ne {i j : Nat} (h : j ≠ i) (q : Nat) (b : Bool) (s : State) : qBit (qSet q i b s) q j = qBit s q j := rbit_rbitSet_ne h ..
theorem gly_qSet (q i : Nat) (b : Bool) (s : State) : (qSet q i b s).gly = s.gly := by simp [qSet]
theorem qpair_qSet (q i : Nat) (b : Bool) (s : State) : qpair (qSet q i b s) q = qpair s q := by rw [qpair, gly_qSet, ← qpair]
theorem qCmds_qSet (q i : Nat) (b : Bool) (s : State) : qCmds (qSet q i b s) q = qCmds s q := by rw [qCmds, gly_qSet, ← qCmds]
theorem cqTail_qSet {i : Nat} (h : i < 32) (q : Nat) (b : Bool) (s : State) : cqTail (qSet q i b s) q = cqTail s q := rfld_rbitSet_apart (by omega) ..

/-! #### Enabling and disabling -/

/-- A queue pair that has been enabled with configuration `c`. -/
def queueOn (q : Nat) (c : BitVec 64) (s : State) : State :=
  setQpair q {} (rset (qreg q 0x18) ((rget s (qreg q 0x18) &&& 0x38) ||| 1) (rset (qreg q 0x10) c s))
/-- A queue pair whose enable is refused. -/
def queueRefused (q : Nat) (c : BitVec 64) (s : State) : State := qSet q 5 true (rset (qreg q 0x10) c s)

theorem bit_enabled (v : BitVec 64) : bit (v ||| 1) 0 = true := by simp [bit]
theorem bit_disabled (v : BitVec 64) : bit (v &&& ~~~1) 0 = false := by simp [bit]

theorem queueEnable_on {q : Fin 16} {v : BitVec 64} {s : State} (hen : qEn s q = false) (hok : enableRefused s q (v ||| 1) = false) :
    exec (.queueEnable q v) s = .next (queueOn q ((v ||| 1) &&& qcfgMask) s) := by
  show execQueueEnable q v s = _
  rw [execQueueEnable]
  have hold : ¬ bit (qcfg s q) 0 = true := by rw [← qEn, hen]; exact Bool.false_ne_true
  have hon := bit_enabled v
  generalize v ||| 1 = w at hok hon ⊢
  rw [qcfgWrite]
  dsimp only
  rw [if_neg hold, if_pos hon, if_neg (by simp [hok])]
  rfl
theorem queueEnable_refused {q : Fin 16} {v : BitVec 64} {s : State} (hen : qEn s q = false) (hbad : enableRefused s q (v ||| 1) = true) :
    exec (.queueEnable q v) s = .next (queueRefused q ((v ||| 1) &&& qcfgMask &&& ~~~1) s) := by
  show execQueueEnable q v s = _
  rw [execQueueEnable]
  have hold : ¬ bit (qcfg s q) 0 = true := by rw [← qEn, hen]; exact Bool.false_ne_true
  have hon := bit_enabled v
  generalize v ||| 1 = w at hbad hon ⊢
  rw [qcfgWrite]
  dsimp only
  rw [if_neg hold, if_pos hon, if_pos hbad]
  rfl

theorem fld_small {x : BitVec 64} {lo w : Nat} (h : x.toNat < 2 ^ lo) : fld x lo w = 0 := by rw [fld, Nat.div_eq_of_lt h, Nat.zero_mod]
theorem statusOn_lt (x : BitVec 64) : ((x &&& 0x38) ||| 1).toNat < 64 := by
  rw [BitVec.toNat_or, BitVec.toNat_and]
  exact Nat.or_lt_two_pow (n := 6) (Nat.and_lt_two_pow _ (by decide)) (by decide)
theorem qcfg_queueOn (q : Nat) (c : BitVec 64) (s : State) : qcfg (queueOn q c s) q = c := by
  rw [qcfg, queueOn, rget_setQpair, rget_rset_ne (stat_ne_cfg q), rget_rset_same]
theorem rget_queueOn_stat (q : Nat) (c : BitVec 64) (s : State) : rget (queueOn q c s) (qreg q 0x18) = (rget s (qreg q 0x18) &&& 0x38) ||| 1 := by
  rw [queueOn, rget_setQpair, rget_rset_same]
theorem queueOn_shows (q : Nat) (c : BitVec 64) (s : State) : qActive (queueOn q c s) q = true ∧ qpair (queueOn q c s) q = {} ∧
    sqHead (queueOn q c s) q = 0 ∧ cqTail (queueOn q c s) q = 0 ∧ (queueOn q c s).mem = s.mem := by
  have hlt := statusOn_lt (rget s (qreg q 0x18))
  have hbit := bit_enabled (rget s (qreg q 0x18) &&& 0x38)
  rw [← rget_queueOn_stat q c s] at hlt hbit
  exact ⟨hbit, qpair_setQpair .., fld_small (by omega), fld_small (by omega), by simp [queueOn, setQpair]⟩

theorem enables {q : Fin 16} {v : BitVec 64} {s : State} (hen : qEn s q = false) (hok : enableRefused s q (v ||| 1) = false) :
    ∃ t, exec (.queueEnable q v) s = .next t ∧ qcfg t q = (v ||| 1) &&& qcfgMask ∧ qActive t q = true ∧ qpair t q = {} ∧ sqHead t q = 0 ∧
      cqTail t q = 0 ∧ t.mem = s.mem := ⟨_, queueEnable_on hen hok, qcfg_queueOn .., queueOn_shows ..⟩
theorem enableRefuses {q : Fin 16} {v : BitVec 64} {s : State} (hen : qEn s q = false) (hbad : enableRefused s q (v ||| 1) = true) :
    ∃ t, exec (.queueEnable q v) s = .next t ∧ qEn t q = false ∧ qBit t q 5 = true ∧ qActive t q = qActive s q := by
  refine ⟨_, queueEnable_refused hen hbad, ?_, qBit_qSet_same (by decide) .., ?_⟩
  · generalize (v ||| 1) &&& qcfgMask = c
    rw [queueRefused, qEn_qSet, qEn, qcfg, rget_rset_same]
    exact bit_disabled c
  · rw [queueRefused, qActive, qBit_qSet_ne (by decide), qBit, rbit_rset_ne (stat_ne_cfg q).symm, ← qBit, ← qActive]

/-- A queue pair whose EN goes from 1 to 0: a configuration bit that a live queue pair may not change is reported. -/
def queueOff (q : Nat) (told : Bool) (c : BitVec 64) (s : State) : State := rset (qreg q 0x10) c (if told = true then qSet q 5 true s else s)
theorem qcfg_queueOff (q : Nat) (told : Bool) (c : BitVec 64) (s : State) : qcfg (queueOff q told c s) q = c := rget_rset_same ..
theorem qActive_queueOff (q : Nat) (told : Bool) (c : BitVec 64) (s : State) : qActive (queueOff q told c s) q = qActive s q := by
  rw [qActive, queueOff, qBit, rbit_rset_ne (stat_ne_cfg q).symm, ← qBit]
  cases told with
  | true => exact qBit_qSet_ne (by decide) ..
  | false => rfl
theorem gly_queueOff (q : Nat) (told : Bool) (c : BitVec 64) (s : State) : (queueOff q told c s).gly = s.gly := by
  cases told <;> simp [queueOff, qSet]

theorem settleQueue_empties {q : Nat} {s : State} (hen : qEn s q = false) (hact : qActive s q = true) (hflr : (qpair s q).flr = false) (hnone : qCmds s q = []) :
    settleQueue q s = qSet q 0 false (qSet q 1 false s) := by
  rw [settleQueue, if_neg (by simp [hen, hact]), if_pos (by simp [hnone]), if_neg (by simp [hflr])]
theorem settleQueue_drains {q : Nat} {s : State} (hen : qEn s q = false) (hact : qActive s q = true) (hsome : qCmds s q ≠ []) :
    settleQueue q s = qSet q 1 true s := by
  rw [settleQueue, if_neg (by simp [hen, hact]), if_neg (by simpa using hsome)]

theorem bit_and (x y : BitVec 64) (i : Nat) : bit (x &&& y) i = (bit x i && bit y i) := BitVec.getLsbD_and
theorem bit_or (x y : BitVec 64) (i : Nat) : bit (x ||| y) i = (bit x i || bit y i) := BitVec.getLsbD_or
theorem queueDisable_on {q : Fin 16} {s : State} (v : BitVec 64) (hen : qEn s q = true) : ∃ told c, bit c 0 = false ∧
    exec (.queueDisable q v) s = .next (settleQueue q (queueOff q told c s)) := by
  have hoff := bit_disabled v
  show ∃ told c, _ ∧ execQueueDisable q v s = _
  unfold execQueueDisable
  generalize v &&& ~~~1 = w at hoff ⊢
  refine ⟨decide ((w &&& qcfgMask &&& ~~~qcfgLive) ≠ (qcfg s q &&& ~~~qcfgLive)), (qcfg s q &&& ~~~qcfgLive) ||| (w &&& qcfgLive), ?_, ?_⟩
  · rw [bit_or, bit_and, bit_and, hoff, show bit (~~~qcfgLive) 0 = false from by decide, Bool.and_false, Bool.false_and, Bool.or_false]
  · rw [qcfgWrite]
    dsimp only
    rw [if_pos (by rwa [← qEn]), queueOff]
    simp only [decide_eq_true_eq]
theorem queueDisable_off {q : Fin 16} {s : State} (v : BitVec 64) (hen : qEn s q = false) :
    exec (.queueDisable q v) s = .next (rset (qreg q 0x10) (v &&& ~~~1 &&& qcfgMask) s) := by
  have hoff := bit_disabled v
  show execQueueDisable q v s = _
  unfold execQueueDisable
  generalize v &&& ~~~1 = w at hoff ⊢
  rw [qcfgWrite]
  dsimp only
  rw [if_neg (by rw [← qEn, hen]; exact Bool.false_ne_true), if_neg (by rw [hoff]; exact Bool.false_ne_true)]

theorem disables {q : Fin 16} {s : State} (v : BitVec 64) (hen : qEn s q = true) (hact : qActive s q = true) (hflr : (qpair s q).flr = false) :
    ∃ t, exec (.queueDisable q v) s = .next t ∧ qEn t q = false ∧ (qCmds s q = [] → qActive t q = false) ∧
      (qCmds s q ≠ [] → qActive t q = true ∧ qBit t q 1 = true) := by
  obtain ⟨told, c, hc, hexec⟩ := queueDisable_on v hen
  have hen' : qEn (queueOff q told c s) q = false := by rw [qEn, qcfg_queueOff, hc]
  have hact' := (qActive_queueOff q told c s).trans hact
  have hflr' : (qpair (queueOff q told c s) q).flr = false := by rw [qpair, gly_queueOff, ← qpair, hflr]
  have hcmds : qCmds (queueOff q told c s) q = qCmds s q := by rw [qCmds, gly_queueOff, ← qCmds]
  rw [← hcmds]
  by_cases hnone : qCmds (queueOff q told c s) q = []
  · refine ⟨_, hexec.trans (by rw [settleQueue_empties hen' hact' hflr' hnone]), ?_, fun _ => qBit_qSet_same (by decide) .., fun h => absurd hnone h⟩
    rw [qEn_qSet, qEn_qSet, hen']
  · refine ⟨_, hexec.trans (by rw [settleQueue_drains hen' hact' hnone]), ?_, fun h => absurd h hnone, fun _ => ⟨?_, qBit_qSet_same (by decide) ..⟩⟩
    · rw [qEn_qSet, hen']
    · rw [qActive, qBit_qSet_ne (by decide), ← qActive, hact']

/-! #### Doorbells -/

theorem mbxSqtail_rings {q : Fin 16} {v : BitVec 64} {s : State} (hact : qActive s q = true) (hv : fld v 0 12 < sqSize s q) :
    exec (.mbxSqtail q v) s = .next (raiseSteward (288 + q) (setQpair q { qpair s q with tail := fld v 0 12 } s)) := by
  show execMbxSqtail q v s = _
  rw [execMbxSqtail, sqtailWrite, if_neg (by simp [hact]), if_neg (by omega)]
theorem mbxSqtail_stops {q : Fin 16} {v : BitVec 64} {s : State} (hact : qActive s q = true) (hv : sqSize s q ≤ fld v 0 12) :
    exec (.mbxSqtail q v) s = .next (qSet q 2 true (qSet q 3 true s)) := by
  show execMbxSqtail q v s = _
  rw [execMbxSqtail, sqtailWrite, if_neg (by simp [hact]), if_pos hv]
  rfl
theorem mbxSqtail_idle {q : Fin 16} {s : State} (v : BitVec 64) (hact : qActive s q = false) : exec (.mbxSqtail q v) s = .next (qSet q 3 true s) := by
  show execMbxSqtail q v s = _
  rw [execMbxSqtail, sqtailWrite, if_pos (by simp [hact])]
theorem mbxCqhead_idle {q : Fin 16} {s : State} (v : BitVec 64) (hact : qActive s q = false) : exec (.mbxCqhead q v) s = .next (qSet q 3 true s) := by
  show execMbxCqhead q v s = _
  rw [execMbxCqhead, cqheadWrite, if_pos (by simp [hact])]
theorem mbxCqhead_rings {q : Fin 16} {v : BitVec 64} {s : State} (hact : qActive s q = true) (hok : cqheadOk s q (fld v 0 12) = true) :
    exec (.mbxCqhead q v) s = .next (raiseSteward (288 + q) (setQpair q { qpair s q with chead := fld v 0 12 } s)) := by
  show execMbxCqhead q v s = _
  rw [execMbxCqhead, cqheadWrite, if_neg (by simp [hact]), if_neg (by simp [hok])]
theorem mbxCqhead_stops {q : Fin 16} {v : BitVec 64} {s : State} (hact : qActive s q = true) (hbad : cqheadOk s q (fld v 0 12) = false) :
    exec (.mbxCqhead q v) s = .next (qSet q 2 true (qSet q 3 true s)) := by
  show execMbxCqhead q v s = _
  rw [execMbxCqhead, cqheadWrite, if_neg (by simp [hact]), if_pos (by simp [hbad])]
  rfl
theorem cqheadOk_iff (s : State) (q v : Nat) : cqheadOk s q v = true ↔
    v < cqSize s q ∧ (v + cqSize s q - (qpair s q).chead) % cqSize s q ≤ (cqTail s q + cqSize s q - (qpair s q).chead) % cqSize s q := by
  simp only [cqheadOk, Bool.and_eq_true, decide_eq_true_eq]

/-! #### Fetching -/

theorem addCmd_offGly (src : CmdSrc) (e : BitVec 512) (s : State) : { addCmd src e s with gly := {} } = { s with gly := {} } := rfl
theorem cmds_addCmds (q : Nat) (es : List (BitVec 512)) (s : State) :
    (es.foldl (fun s e => addCmd (.host q) e s) s).gly.cmds.map (·.entry) = s.gly.cmds.map (·.entry) ++ es := by
  induction es generalizing s with
  | nil => simp
  | cons e es ih =>
    rw [List.foldl_cons, ih]
    simp [addCmd]

/-- A burst's entries in the machine, before the head moves. -/
def burstTaken (q : Nat) (es : List (BitVec 512)) (s : State) : State := es.foldl (fun s e => addCmd (.host q) e s) s
theorem burstTaken_offGly (q : Nat) (es : List (BitVec 512)) (s : State) : { burstTaken q es s with gly := {} } = { s with gly := {} } :=
  foldl_keeps (part := fun s : State => { s with gly := {} }) (fun _ _ => addCmd_offGly ..) es s
theorem fetchBurst_shows {q : Nat} {s : State} (hsize : fld (qcfg s q) 8 4 ≤ 12) (es : List (BitVec 512)) :
    sqHead (fetchBurst q es s) q = (sqHead s q + es.length) % sqSize s q ∧ (fetchBurst q es s).gly.cmds.map (·.entry) = s.gly.cmds.map (·.entry) ++ es ∧
      (fetchBurst q es s).mem = s.mem := by
  have hoff := burstTaken_offGly q es s
  have hregs (a : Nat) : rget (burstTaken q es s) a = rget s a := rget_congr (congrArg State.regs hoff :) a
  have hhead : sqHead (burstTaken q es s) q = sqHead s q := rfld_congr (hregs _) ..
  have hsq : sqSize (burstTaken q es s) q = sqSize s q := by rw [sqSize, qcfg, hregs, ← qcfg, ← sqSize]
  have hlt : (sqHead s q + es.length) % sqSize s q < 2 ^ 12 :=
    (Nat.mod_lt _ (Nat.two_pow_pos _)).trans_le (Nat.pow_le_pow_right (by decide) hsize)
  have hput : rfld (rput (qreg q 0x18) 16 12 ((sqHead (burstTaken q es s) q + es.length) % sqSize (burstTaken q es s) q) (burstTaken q es s)) (qreg q 0x18) 16 12 =
      (sqHead s q + es.length) % sqSize s q := by
    rw [rfld_rput_same (by decide), hhead, hsq, Nat.mod_eq_of_lt hlt]
  refine ⟨hput, ?_, ?_⟩
  · refine Eq.trans ?_ (cmds_addCmds q es s)
    simp [fetchBurst]
  · exact Eq.trans (by simp [fetchBurst, burstTaken]) (congrArg State.mem hoff :)
theorem commandFetch_takes {q : Fin 16} {s : State} (es : List (BitVec 512)) (ok : Bool) (hnext : nextQueue s = some q.val) (hn : burstLength s q ≠ 0)
    (hready : glebyReady s = true) (hrun : s.pwr.running = true) : exec (.commandFetch q es ok) s =
      .next (if ok then fetchBurst q ((List.range (burstLength s q)).map fun i => es.getD i 0) s else qStop q 4 s) := by
  show execCommandFetch q es ok s = _
  rw [execCommandFetch]
  exact if_neg (by simp [hnext, hn, hready, hrun])
theorem fetches {q : Fin 16} {s : State} (es : List (BitVec 512)) (hnext : nextQueue s = some q.val) (hn : burstLength s q ≠ 0)
    (hready : glebyReady s = true) (hrun : s.pwr.running = true) (hsize : fld (qcfg s q) 8 4 ≤ 12) :
    ∃ t, exec (.commandFetch q es true) s = .next t ∧ sqHead t q = (sqHead s q + burstLength s q) % sqSize s q ∧
      t.gly.cmds.map (·.entry) = s.gly.cmds.map (·.entry) ++ (List.range (burstLength s q)).map (fun i => es.getD i 0) ∧ t.mem = s.mem := by
  obtain ⟨hhead, hcmds, hmem⟩ := fetchBurst_shows hsize ((List.range (burstLength s q)).map fun i => es.getD i 0)
  rw [List.length_map, List.length_range] at hhead
  exact ⟨_, (commandFetch_takes es true hnext hn hready hrun).trans (by rw [if_pos rfl]), hhead, hcmds, hmem⟩

end Sys2Proof.Proofs

namespace Sys2Proof.Proofs

open Sys2Proof Sys2Proof.Machine Sys2Proof.Claims Sys2Proof.Laws

/-! #### Completions (R402, R403) -/

/-- The state without the registers' hits too: what a completion entry leaves but the queue pair's own counts. -/
theorem qCount_quiet {q : Nat} {s : State} (hie : bit (qcfg s q) 3 = false) : offQps (qCount q s) = offQps s ∧ (qpair (qCount q s) q).flr = (qpair s q).flr := by
  unfold qCount
  dsimp only
  rw [if_neg (fun h => by rw [qcfg, rget_setQpair, ← qcfg, hie] at h; exact Bool.false_ne_true h.1)]
  exact ⟨setQpair_offQps .., by rw [qpair_setQpair]⟩

/-- The entry at CQTAIL and the tail behind it. -/
def entryWritten (q cid status : Nat) (result : BitVec 64) (s : State) : State :=
  rput (qreg q 0x18) 32 12 ((cqTail s q + 1) % cqSize s q) (emit (.hostWrite ((rget s (qreg q 8)).toNat + 16 * cqTail s q) (cqEntry s q cid status result)) s)
/-- The phase turns where the tail comes round. -/
def phaseTurned (q n : Nat) (s : State) : State := if n = 0 then setQpair q { qpair s q with phase := !(qpair s q).phase } s else s
theorem cqWrite_eq (q cid status : Nat) (result : BitVec 64) (s : State) :
    cqWrite q cid status result s = qCount q (phaseTurned q ((cqTail s q + 1) % cqSize s q) (entryWritten q cid status result s)) := rfl
theorem phaseTurned_offQps (q n : Nat) (s : State) : offQps (phaseTurned q n s) = offQps s := by
  unfold phaseTurned
  split
  · exact setQpair_offQps ..
  · rfl
theorem phaseTurned_flr (q n : Nat) (s : State) : (qpair (phaseTurned q n s) q).flr = (qpair s q).flr := by
  unfold phaseTurned
  split
  · rw [qpair_setQpair]
  · rfl
theorem gly_entryWritten (q cid status : Nat) (result : BitVec 64) (s : State) : (entryWritten q cid status result s).gly = s.gly := by simp [entryWritten]
theorem qcfg_entryWritten (q cid status : Nat) (result : BitVec 64) (s : State) : qcfg (entryWritten q cid status result s) q = qcfg s q := by
  rw [qcfg, entryWritten, rget_rput_ne (stat_ne_cfg q), rget_emit, ← qcfg]
theorem out_entryWritten (q cid status : Nat) (result : BitVec 64) (s : State) : (entryWritten q cid status result s).out =
    s.out ++ [.hostWrite ((rget s (qreg q 8)).toNat + 16 * cqTail s q) (cqEntry s q cid status result)] := by simp [entryWritten, emit]
theorem cqTail_entryWritten {q : Nat} {s : State} (hsize : fld (qcfg s q) 16 4 ≤ 12) (cid status : Nat) (result : BitVec 64) :
    cqTail (entryWritten q cid status result s) q = (cqTail s q + 1) % cqSize s q := by
  have hlt : (cqTail s q + 1) % cqSize s q < 2 ^ 12 := (Nat.mod_lt _ (Nat.two_pow_pos _)).trans_le (Nat.pow_le_pow_right (by decide) hsize)
  rw [cqTail, entryWritten, rfld_rput_same (by decide), Nat.mod_eq_of_lt hlt]

/-- A completion while IE = 0: the entry stands at CQTAIL, and no message is sent. -/
theorem cqWrite_quiet {q : Nat} {s : State} (hie : bit (qcfg s q) 3 = false) (cid status : Nat) (result : BitVec 64) :
    offQps (cqWrite q cid status result s) = offQps (entryWritten q cid status result s) ∧ (qpair (cqWrite q cid status result s) q).flr = (qpair s q).flr := by
  have hturn := phaseTurned_offQps q ((cqTail s q + 1) % cqSize s q) (entryWritten q cid status result s)
  have hcfg : qcfg (phaseTurned q ((cqTail s q + 1) % cqSize s q) (entryWritten q cid status result s)) q = qcfg s q :=
    (rget_congr (regs_of_offQps hturn) _).trans (qcfg_entryWritten ..)
  rw [cqWrite_eq]
  obtain ⟨hoff, hflr⟩ := qCount_quiet (hcfg.symm ▸ hie)
  refine ⟨hoff.trans hturn, hflr.trans ((phaseTurned_flr ..).trans ?_)⟩
  rw [qpair, gly_entryWritten, ← qpair]

/-- A settled queue pair without a reset keeps its registers but DRAIN and ACTIVE, and everything besides. -/
theorem settleQueue_keeps {q : Nat} {s : State} (hflr : (qpair s q).flr = false) : (settleQueue q s).gly = s.gly ∧ (settleQueue q s).out = s.out ∧
    cqTail (settleQueue q s) q = cqTail s q := by
  unfold settleQueue
  split
  · exact ⟨rfl, rfl, rfl⟩
  · split
    · rw [if_neg (by simp [hflr])]
      exact ⟨by rw [gly_qSet, gly_qSet], by simp [qSet], by rw [cqTail_qSet (by decide), cqTail_qSet (by decide)]⟩
    · exact ⟨gly_qSet .., by simp [qSet], cqTail_qSet (by decide) ..⟩
theorem afterPost_keeps (c : Cmd) (st : Nat) (s : State) : ∃ p, afterPost c st s = setPwr p s := by
  unfold afterPost
  split
  · exact ⟨s.pwr, rfl⟩
  · split
    · exact ⟨_, rfl⟩
    · split
      · exact ⟨_, rfl⟩
      · exact ⟨s.pwr, rfl⟩

theorem rfld_setPwr (p : Pwr) (s : State) (a lo w : Nat) : rfld (setPwr p s) a lo w = rfld s a lo w := rfl
theorem gly_dropCmd (id : Nat) (s : State) : (dropCmd id s).gly.cmds = s.gly.cmds.filter (fun d => d.id != id) ∧ (dropCmd id s).gly.qps = s.gly.qps := by simp [dropCmd]
theorem rget_dropCmd (id : Nat) (s : State) (a : Nat) : rget (dropCmd id s) a = rget s a := rfl

/-- What the post of a finished command writes, of the state in which it is ready. -/
theorem postCmd_posts {q : Nat} {c : Cmd} {u : State} (hflr : (qpair u q).flr = false) (hie : bit (qcfg u q) 3 = false) (hsize : fld (qcfg u q) 16 4 ≤ 12) :
    cqTail (postCmd q c true u) q = (cqTail u q + 1) % cqSize u q ∧ (postCmd q c true u).gly.cmds = u.gly.cmds.filter (fun d => d.id != c.id) ∧
      (postCmd q c true u).out = u.out ++ [.hostWrite ((rget u (qreg q 8)).toNat + 16 * cqTail u q) (cqEntry u q c.cid (c.done.getD (0, 0)).1 (c.done.getD (0, 0)).2)] := by
  obtain ⟨hcmds, hqps⟩ := gly_dropCmd c.id u
  have hpair : qpair (dropCmd c.id u) q = qpair u q := by rw [qpair, hqps, ← qpair]
  generalize hx : cqWrite q c.cid (c.done.getD (0, 0)).1 (c.done.getD (0, 0)).2 (dropCmd c.id u) = x
  obtain ⟨hoff, hflrx⟩ := cqWrite_quiet (s := dropCmd c.id u) (q := q) hie c.cid (c.done.getD (0, 0)).1 (c.done.getD (0, 0)).2
  rw [hx] at hoff hflrx
  obtain ⟨p, hp⟩ := afterPost_keeps c (c.done.getD (0, 0)).1 x
  have hpost : postCmd q c true u = settleQueue q (setPwr p x) := by
    rw [← hp, ← hx, postCmd]
    dsimp only
    rw [if_neg (by simp [hpair, hflr]), if_pos rfl]
  obtain ⟨hgly, hout, htail⟩ := settleQueue_keeps (q := q) (s := setPwr p x) (hflrx.trans (by rw [hpair, hflr]))
  rw [hpost]
  refine ⟨?_, ?_, ?_⟩
  · rw [htail, cqTail, rfld_setPwr]
    refine (rfld_congr (rget_congr (regs_of_offQps hoff) _) ..).trans ?_
    exact cqTail_entryWritten (s := dropCmd c.id u) hsize ..
  · rw [hgly]
    refine (cmds_of_offQps hoff).trans ?_
    rw [gly_entryWritten, hcmds]
  · rw [hout]
    refine (out_of_offQps hoff).trans ?_
    rw [out_entryWritten]
    have hentry : cqEntry (dropCmd c.id u) q c.cid (c.done.getD (0, 0)).1 (c.done.getD (0, 0)).2 = cqEntry u q c.cid (c.done.getD (0, 0)).1 (c.done.getD (0, 0)).2 := by
      rw [cqEntry, hpair]
      rfl
    rw [hentry]
    rfl

theorem completionPost_command {q : Fin 16} {s u : State} {c : Cmd} (ok : Bool) (hact : qActive s q = true) (hfull : cqFull s q = false) (hrun : s.pwr.running = true)
    (hready : (readyCmd s fun c => c.src == .host q) = some (c, u)) : exec (.completionPost q ok) s = .next (postCmd q c ok u) := by
  show execCompletionPost q ok s = _
  rw [execCompletionPost, if_neg (by simp [hact, hfull, hrun]), hready]
theorem completionPost_event {s : State} {e : Nat × BitVec 64} {rest : List (Nat × BitVec 64)} (ok : Bool) (hact : qActive s 0 = true) (hfull : cqFull s 0 = false)
    (hrun : s.pwr.running = true) (hready : (readyCmd s fun c => c.src == .host 0) = none) (hevq : s.gly.evq = e :: rest) (hflr : (qpair s 0).flr = false) :
    exec (.completionPost 0 ok) s = .next (postQueued ok e rest s) := by
  show execCompletionPost 0 ok s = _
  rw [execCompletionPost, if_neg (by simp [hact, hfull, hrun])]
  show (match readyCmd s fun c => c.src == .host 0 with | some (c, s) => _ | none => _) = _
  rw [hready, hevq]
  exact if_pos ⟨rfl, by simp [hflr]⟩

theorem postQueued_posts {s : State} (e : Nat × BitVec 64) (rest : List (Nat × BitVec 64)) (hie : bit (qcfg s 0) 3 = false) (hdrop : s.gly.dropped = 0) :
    (postQueued true e rest s).gly.evq = rest ∧
      (postQueued true e rest s).out = s.out ++ [.hostWrite ((rget s (qreg 0 8)).toNat + 16 * cqTail s 0) (cqEntry s 0 0xFFFF (0x8000 + e.1) e.2)] := by
  generalize hv : setGly { s.gly with evq := rest } s = v
  have hgly : v.gly = { s.gly with evq := rest } := by simp [← hv]
  have hcfg : qcfg v 0 = qcfg s 0 := by rw [← hv]; rfl
  obtain ⟨hoff, _⟩ := cqWrite_quiet (s := v) (q := 0) (hcfg.symm ▸ hie) 0xFFFF (0x8000 + e.1) e.2
  have hdropped : (cqWrite 0 0xFFFF (0x8000 + e.1) e.2 v).gly.dropped = 0 := by rw [dropped_of_offQps hoff, gly_entryWritten, hgly, hdrop]
  have hpost : postQueued true e rest s = cqWrite 0 0xFFFF (0x8000 + e.1) e.2 v := by
    rw [postQueued, hv]
    dsimp only
    rw [if_pos rfl, if_pos hdropped]
  rw [hpost]
  refine ⟨?_, ?_⟩
  · rw [evq_of_offQps hoff, gly_entryWritten, hgly]
  · rw [out_of_offQps hoff, out_entryWritten, ← hv]
    rfl

/-! #### Interrupts (R404, R511) -/

theorem sendMsix_keeps (f v : Nat) (s : State) : (sendMsix f v s).mem = s.mem ∧ (sendMsix f v s).gly = s.gly ∧
    (64 * f + v ∈ s.msixOpen → (sendMsix f v s).out = s.out ++ [.msix f v]) := by
  unfold sendMsix
  split
  · exact ⟨rfl, rfl, fun _ => rfl⟩
  · rename_i hclosed
    exact ⟨by simp, by simp, fun h => absurd (List.contains_iff_mem.mpr h) hclosed⟩
theorem interruptExpires {q : Fin 16} {s : State} {f : Nat} (hf : (qpair s q).firstAt = some f) (hie : bit (qcfg s q) 3 = true) (ht : fld (qcfg s q) 40 16 ≠ 0) :
    let u := advanceTo (f + fld (qcfg s q) 40 16 * usFclk) s
    ∃ t, exec (.interruptTimeExpiry q) s = .next t ∧ (qpair t q).count = 0 ∧ (qpair t q).firstAt = none ∧ t.mem = u.mem ∧
      (fld (qcfg u q) 24 6 ∈ u.msixOpen → t.out = u.out ++ [.msix 0 (fld (qcfg u q) 24 6)]) := by
  intro u
  have hexec : exec (.interruptTimeExpiry q) s = .next (qMessage q u) := by
    show execInterruptTimeExpiry q s = _
    rw [execInterruptTimeExpiry, hf]
    exact gateAt_of_true (by simp [hie, ht]) _ _ _
  obtain ⟨hmem, _, hout⟩ := sendMsix_keeps 0 (fld (qcfg u q) 24 6) u
  refine ⟨_, hexec, ?_, ?_, hmem, fun h => hout ?_⟩
  · rw [qMessage, qpair_setQpair]
  · rw [qMessage, qpair_setQpair]
  · rwa [Nat.mul_zero, Nat.zero_add]

/-- A vector whose mask is clear. -/
def vectorOpen (v : Nat) (s : State) : State := setMsixOpen (sadd s.msixOpen v) (setMsixHeld (sdel s.msixHeld v) s)
theorem msixMaskClears {f : Fin 2} {vec : Fin 64} {s : State} (hvec : vec.val < (if f = 0 then 48 else 16)) :
    let v := 64 * f.val + vec.val
    ∃ t, exec (.msiXMaskClear f vec) s = .next t ∧ v ∈ t.msixOpen ∧ v ∉ t.msixHeld ∧ t.mem = s.mem ∧
      t.out = s.out ++ (if v ∈ s.msixHeld then [.msix f.val vec.val] else []) := by
  intro v
  have hexec : exec (.msiXMaskClear f vec) s = .next (if s.msixHeld.contains v then emit (.msix f vec) (vectorOpen v s) else vectorOpen v s) := by
    show execMsiXMaskClear f vec s = _
    rw [execMsiXMaskClear]
    exact if_neg (Nat.not_le.mpr hvec)
  have hopen : v ∈ (vectorOpen v s).msixOpen := by simp [vectorOpen, mem_sadd_self]
  have hheld : v ∉ (vectorOpen v s).msixHeld := by simp [vectorOpen, sdel]
  refine ⟨_, hexec, ?_⟩
  by_cases h : v ∈ s.msixHeld
  · rw [if_pos (List.contains_iff_mem.mpr h), if_pos h]
    exact ⟨hopen, hheld, rfl, rfl⟩
  · rw [if_neg (fun h' => h (List.contains_iff_mem.mp h')), if_neg h, List.append_nil]
    exact ⟨hopen, hheld, rfl, rfl⟩

/-- Settles O49. -/
theorem mailboxQueues : Obligations.MailboxQueues := by
  intro q s
  refine ⟨fun v => enables, fun v => enableRefuses, fun v => disables v, fun v => queueDisable_off v, fun v => mbxSqtail_rings, fun v => mbxSqtail_stops,
    fun v hact => ⟨mbxSqtail_idle v hact, mbxCqhead_idle v hact⟩, fun v hact => ?cqhead, fun es => fetches es, fun es hnext hn hready hrun => ?lost,
    fun c u hact hfull hrun hready hflr hie hsize => ⟨_, completionPost_command true hact hfull hrun hready, postCmd_posts hflr hie hsize⟩,
    fun e rest hq hact hfull hrun hready hevq hflr hie hdrop => ?event, fun f => interruptExpires, fun f vec => msixMaskClears, fun hact hup => ?timeout⟩
  case cqhead =>
    refine ⟨fun hok => mbxCqhead_rings hact ((cqheadOk_iff ..).mpr hok), fun hbad => mbxCqhead_stops hact ?_⟩
    rw [← Bool.not_eq_true, cqheadOk_iff]
    exact hbad
  case lost =>
    rw [commandFetch_takes es false hnext hn hready hrun, if_neg Bool.false_ne_true]
    rfl
  case event =>
    subst hq
    exact ⟨_, completionPost_event true hact hfull hrun hready hevq hflr, postQueued_posts e rest hie hdrop⟩
  case timeout =>
    show execCompletionTimeout q s = _
    rw [execCompletionTimeout]
    exact gate_of_true (by simp [hact, hup]) _

end Sys2Proof.Proofs

namespace Sys2Proof.Proofs

open Sys2Proof Sys2Proof.Machine Sys2Proof.Claims Sys2Proof.Laws

/-! ### Events, the heartbeat, time limits (R405, R410) -/

theorem asyncEventPost_class {cls : Fin 256} {s : State} (hcls : cls.val ≤ 0x0C) (hrun : s.pwr.running = true) (data : BitVec 64) :
    exec (.asyncEventPost cls data) s = .next (postEvent cls (eventResult s cls data) s) := by
  show execAsyncEventPost cls data s = _
  rw [execAsyncEventPost, if_pos hcls]
  exact gate_of_true hrun _
theorem eventPosts {cls : Fin 256} {s : State} (hcls : cls.val ≤ 0x0C) (hrun : s.pwr.running = true) (data : BitVec 64) :
    (bit s.gly.mask cls = false → exec (.asyncEventPost cls data) s = .next s) ∧
    (bit s.gly.mask cls = true → s.gly.evq.length < 256 →
      exec (.asyncEventPost cls data) s = .next (setGly { s.gly with evq := s.gly.evq ++ [(cls.val, eventResult s cls data)] } s)) ∧
    (bit s.gly.mask cls = true → 256 ≤ s.gly.evq.length → exec (.asyncEventPost cls data) s = .next (setGly { s.gly with dropped := s.gly.dropped + 1 } s)) := by
  rw [asyncEventPost_class hcls hrun]
  unfold postEvent
  refine ⟨fun hmask => ?_, fun hmask hroom => ?_, fun hmask hfull => ?_⟩
  · rw [if_pos (by simp [hmask])]
  · rw [if_neg (by simp [hmask]), if_pos hroom]
  · rw [if_neg (by simp [hmask]), if_neg (by omega)]
theorem droppedPosts {s : State} (data : BitVec 64) (hdrop : s.gly.dropped ≠ 0) (hroom : s.gly.evq.length < 256) (hrun : s.pwr.running = true) :
    exec (.asyncEventPost 255 data) s = .next (setGly { s.gly with evq := s.gly.evq ++ [(0xFF, BitVec.ofNat 64 s.gly.dropped)], dropped := 0 } s) := by
  show execAsyncEventPost 255 data s = _
  rw [execAsyncEventPost, if_neg (by decide)]
  exact gate_of_true (by simp [hdrop, hroom, hrun]) _

/-- The state without what an event posted changes of the steward. -/
def offEvents (s : State) : State := { s with gly := { s.gly with evq := [], dropped := 0, warned := 0 } }
theorem postEvent_offEvents (cls : Nat) (data : BitVec 64) (s : State) : offEvents (postEvent cls data s) = offEvents s := by
  unfold postEvent
  split
  · rfl
  · split <;> simp [offEvents]
/-- The monitor bits in a list posted as events. -/
def warningsPosted (l : List Nat) (s : State) : State := l.foldl (fun s i => postEvent 0x0C (BitVec.ofNat 64 i) s) s
theorem warningsPosted_offEvents (l : List Nat) (s : State) : offEvents (warningsPosted l s) = offEvents s := foldl_keeps (fun _ _ => postEvent_offEvents ..) l s
theorem postWarnings_offEvents (s : State) : offEvents (postWarnings s) = offEvents s :=
  (rfl : _ = offEvents (warningsPosted ((List.range 58).filter fun i =>
    ((rget s (girdle 0x120)).toNat % 2 ^ 58) / 2 ^ i % 2 = 1 ∧ s.gly.warned / 2 ^ i % 2 = 0) s)).trans (warningsPosted_offEvents ..)

/-- The steward's beat, before it looks at the monitors. -/
def beaten (s : State) : State := kick (setGly { s.gly with beat := s.fclk } s)
theorem glebyReady_beaten (s : State) : glebyReady (beaten s) = glebyReady s := rfl
theorem rfld_beaten (s : State) (a lo w : Nat) : rfld (beaten s) a lo w = rfld s a lo w := rfl
/-- What a beat does in the state to which the clock has run. -/
def beatActs (s : State) : State :=
  let s := kick (setGly { s.gly with beat := s.fclk } s)
  postWarnings (if glebyReady s then rput (mbxReg 0x800) 0 32 (rfld s (mbxReg 0x800) 0 32 + 1) s else s)
theorem beatActs_eq (s : State) : beatActs s =
    postWarnings (if glebyReady (beaten s) then rput (mbxReg 0x800) 0 32 (rfld (beaten s) (mbxReg 0x800) 0 32 + 1) (beaten s) else beaten s) := rfl
theorem execHeartbeat_eq (s : State) : execHeartbeat s = gateAt s.pwr.running (s.gly.beat + 1188000) s beatActs := rfl
theorem heartbeat_beats {s u : State} (hrun : s.pwr.running = true) (hu : u = advanceTo (s.gly.beat + 1188000) s) : exec .heartbeat s = .next (beatActs u) := by
  show execHeartbeat s = _
  rw [execHeartbeat_eq, hu]
  exact gateAt_of_true hrun _ _ _
theorem heartbeat_posts {s u : State} (hrun : s.pwr.running = true) (hu : u = advanceTo (s.gly.beat + 1188000) s) : exec .heartbeat s =
    .next (postWarnings (if glebyReady u then rput (mbxReg 0x800) 0 32 (rfld u (mbxReg 0x800) 0 32 + 1) (beaten u) else beaten u)) := by
  rw [heartbeat_beats hrun hu, beatActs_eq, glebyReady_beaten, rfld_beaten]
theorem heartbeats {s u : State} (hrun : s.pwr.running = true) (hu : u = advanceTo (s.gly.beat + 1188000) s) :
    ∃ t, exec .heartbeat s = .next t ∧ t.gly.beat = u.fclk ∧ t.pwr.kicked = u.fclk ∧ t.mem = u.mem ∧
      (glebyReady u = true → rfld t (mbxReg 0x800) 0 32 = (rfld u (mbxReg 0x800) 0 32 + 1) % 2 ^ 32) := by
  have hexec := heartbeat_posts hrun hu
  generalize hv : (if glebyReady u then rput (mbxReg 0x800) 0 32 (rfld u (mbxReg 0x800) 0 32 + 1) (beaten u) else beaten u) = v at hexec
  have hoff := postWarnings_offEvents v
  have hbeat : (postWarnings v).gly.beat = v.gly.beat := (congrArg (fun x : State => x.gly.beat) hoff :)
  have hpwr : (postWarnings v).pwr = v.pwr := (congrArg State.pwr hoff :)
  have hmem : (postWarnings v).mem = v.mem := (congrArg State.mem hoff :)
  have hregs : (postWarnings v).regs = v.regs := (congrArg State.regs hoff :)
  have hkeep : v.gly = (beaten u).gly ∧ v.pwr = (beaten u).pwr ∧ v.mem = (beaten u).mem := by
    rw [← hv]
    split <;> simp
  obtain ⟨hvgly, hvpwr, hvmem⟩ := hkeep
  refine ⟨_, hexec, ?_, ?_, ?_, fun h => ?_⟩
  · rw [hbeat, hvgly]
    simp [beaten, kick]
  · rw [hpwr, hvpwr]
    simp [beaten, kick]
  · rw [hmem, hvmem]
    simp [beaten, kick]
  · rw [rfld_congr (rget_congr hregs _), ← hv, if_pos h, rfld_rput_same (by decide)]

theorem gateAt_timeout {s : State} {b : Bool} (hb : b = true) (c : Cmd) (when_ : Nat) :
    (gateAt b when_ s fun s =>
      let (v, s) := drawFree s
      finishCmd c stTimeout v.toNat (abandonWait c s)) =
    .next (finishCmd c 11 (drawFree (advanceTo when_ s)).1.toNat (abandonWait c (drawFree (advanceTo when_ s)).2)) := gateAt_of_true hb _ _ _
theorem commandTimes {id : Nat} {c : Cmd} {s : State} (hc : (s.gly.cmds.find? fun c => c.id == id) = some c) (hopen : c.done = none) (hrun : s.pwr.running = true) :
    let u := advanceTo (c.start.getD c.at_ + cmdLimit c.code * msFclk) s
    exec (.commandTimeout id) s = .next (finishCmd c 11 (drawFree u).1.toNat (abandonWait c (drawFree u).2)) := by
  intro u
  show execCommandTimeout id s = _
  rw [execCommandTimeout, hc]
  exact gateAt_timeout (by simp [hopen, hrun]) c _

/-! ### Requests and responses of the facets (R412 to R417) -/

/-- The state without its interrupt tables, and without the wakes that a recorded event brings. -/
def offWakes (s : State) : State := { offLog s with wakes := [] }
theorem offWakes_of_offLog {s t : State} (h : offLog t = offLog s) : offWakes t = offWakes s := congrArg (fun u : State => { u with wakes := [] }) h
theorem recordEvent_offWakes (n i : Nat) (s : State) : offWakes (recordEvent n i s) = offWakes s := by
  unfold recordEvent
  dsimp only
  split <;> rfl
theorem facetPulse_offWakes (n i : Nat) (s : State) : offWakes (facetPulse n i s) = offWakes s := by
  unfold facetPulse
  split
  · exact offWakes_of_offLog (pulseEvent_offLog ..)
  · exact recordEvent_offWakes ..
theorem facet_of_offWakes {s t : State} (h : offWakes t = offWakes s) (n : Nat) : facet t n = facet s n := facet_congr (congrArg State.facets h :) n
theorem mem_of_offWakes {s t : State} (h : offWakes t = offWakes s) : t.mem = s.mem := (congrArg State.mem h :)
theorem gly_of_offWakes {s t : State} (h : offWakes t = offWakes s) : t.gly = s.gly := (congrArg State.gly h :)

/-- What a taken request makes of its facet. -/
def requestTaken (rest : List (BitVec 256 × KReg)) (f : Facet) : Facet :=
  { f with reqRing := rest, credits := min 4 (f.credits + 1), credNew := f.credNew + 1, inProgress := f.inProgress + 1 }
theorem requestTake_offWakes (n : Nat) (r : BitVec 256 × KReg) (rest : List (BitVec 256 × KReg)) (s : State) :
    offWakes (requestTake n r rest s) = offWakes (updFacet n (requestTaken rest) (addCmd (.facet n r.2) (r.1.setWidth 512) s)) :=
  (offWakes_of_offLog (setRaw_offLog ..)).trans (facetPulse_offWakes ..)
theorem requestTakes {n : Fin 128} {r : BitVec 256 × KReg} {rest : List (BitVec 256 × KReg)} {s : State} (hring : (facet s n).reqRing = r :: rest)
    (hbusy : facetBusy s n = false) (hroom : (facet s n).respRing.length < 4) (hready : glebyReady s = true) (hrun : s.pwr.running = true) :
    ∃ t, exec (.requestTake n) s = .next t ∧ (facet t n).reqRing = rest ∧ (facet t n).credits = min 4 ((facet s n).credits + 1) ∧
      (facet t n).inProgress = (facet s n).inProgress + 1 ∧ t.mem = s.mem ∧
      t.gly.cmds = s.gly.cmds ++ [{ id := s.gly.nextId, src := .facet n r.2, entry := r.1.setWidth 512, at_ := s.fclk }] := by
  have hexec : exec (.requestTake n) s = .next (requestTake n r rest s) := by
    show execRequestTake n s = _
    rw [execRequestTake, hring]
    exact gate_of_true (by simp [hbusy, hroom, hready, hrun]) _
  have hoff := requestTake_offWakes n r rest s
  have hfacet : facet (requestTake n r rest s) n = requestTaken rest (facet s n) := (facet_of_offWakes hoff n).trans (facet_updFacet_same ..)
  refine ⟨_, hexec, ?_, ?_, ?_, (mem_of_offWakes hoff).trans rfl, ?_⟩
  · rw [hfacet]
    rfl
  · rw [hfacet]
    rfl
  · rw [hfacet]
    rfl
  · rw [gly_of_offWakes hoff]
    rfl

/-- What a response that reaches the staging buffer makes of its facet. -/
def responseStaged (e : BitVec 256) (rest : List (BitVec 256)) (f : Facet) : Facet :=
  { f with respRing := rest, staging := f.staging ++ [e], respNew := f.respNew + 1 }
theorem forwardResp_offWakes {n : Nat} {s : State} {e : BitVec 256} {rest : List (BitVec 256)} (hring : (facet s n).respRing = e :: rest)
    (hroom : (facet s n).staging.length < 4) : offWakes (forwardResp n s) = offWakes (updFacet n (responseStaged e rest) s) := by
  unfold forwardResp
  dsimp only
  rw [hring]
  dsimp only
  rw [if_pos hroom]
  split
  · exact offWakes_of_offLog (setRaw_offLog ..)
  · exact recordEvent_offWakes ..
theorem facet_forwardResp {n : Nat} {s : State} {e : BitVec 256} {rest : List (BitVec 256)} (hring : (facet s n).respRing = e :: rest)
    (hroom : (facet s n).staging.length < 4) : facet (forwardResp n s) n = responseStaged e rest (facet s n) :=
  (facet_of_offWakes (forwardResp_offWakes hring hroom) n).trans (facet_updFacet_same ..)

theorem responseForward_ready {n : Fin 128} {c : Cmd} {s u : State} (h : (readyCmd s fun c => c.ofFacet == some n.val) = some (c, u)) :
    exec (.responseForward n) s = .next (forwardResp n (collectResp n c u)) := by
  show execResponseForward n s = _
  rw [execResponseForward, h]
theorem responseForward_ring {n : Fin 128} {s : State} {e : BitVec 256} {rest : List (BitVec 256)} (h : (readyCmd s fun c => c.ofFacet == some n.val) = none)
    (hring : (facet s n).respRing = e :: rest) (hroom : (facet s n).staging.length < 4) : exec (.responseForward n) s = .next (forwardResp n s) := by
  show execResponseForward n s = _
  rw [execResponseForward, h]
  exact gate_of_true (by simp [hring, hroom]) _

/-- What a finished request leaves in its facet: its response in the ring. -/
def responseRung (e : BitVec 256) (f : Facet) : Facet := { f with inProgress := f.inProgress - 1, respRing := f.respRing ++ [e] }
theorem facet_dropCmd (id : Nat) (s : State) (n : Nat) : facet (dropCmd id s) n = facet s n := rfl
theorem facet_collectResp {n : Nat} {u : State} (hdrop : (facet u n).dropResp = 0) (c : Cmd) :
    facet (collectResp n c u) n = responseRung (respEntry c (c.done.getD (0, 0)).1 (c.done.getD (0, 0)).2) (facet u n) := by
  unfold collectResp
  dsimp only
  rw [facet_updFacet_same, facet_dropCmd, if_neg (by simp [hdrop])]
  rfl
theorem cmds_collectResp (n : Nat) (c : Cmd) (u : State) : (collectResp n c u).gly.cmds = u.gly.cmds.filter (fun d => d.id != c.id) := (gly_dropCmd c.id u).1

theorem responseForwards {n : Fin 128} {c : Cmd} {s u : State} (h : (readyCmd s fun c => c.ofFacet == some n.val) = some (c, u))
    (hdrop : (facet u n).dropResp = 0) (hring : (facet u n).respRing = []) (hroom : (facet u n).staging.length < 4) :
    let d := c.done.getD (0, 0)
    ∃ t, exec (.responseForward n) s = .next t ∧ (facet t n).staging = (facet u n).staging ++ [respEntry c d.1 d.2] ∧ (facet t n).respRing = [] ∧
      (facet t n).inProgress = (facet u n).inProgress - 1 ∧ t.gly.cmds = u.gly.cmds.filter (fun d => d.id != c.id) := by
  intro d
  have hcollect := facet_collectResp hdrop c
  have hring' : (facet (collectResp n c u) n).respRing = [respEntry c d.1 d.2] := by
    rw [hcollect, responseRung, hring]
    rfl
  have hroom' : (facet (collectResp n c u) n).staging.length < 4 := by rwa [hcollect]
  have hfacet := facet_forwardResp hring' hroom'
  refine ⟨_, responseForward_ready h, ?_, ?_, ?_, ?_⟩
  · rw [hfacet, hcollect]
    rfl
  · rw [hfacet]
    rfl
  · rw [hfacet, hcollect]
    rfl
  · rw [gly_of_offWakes (forwardResp_offWakes hring' hroom')]
    exact cmds_collectResp n c u

/-- Settles O50. -/
theorem mailboxEventsAndRequests : Obligations.MailboxEventsAndRequests := by
  refine ⟨fun cls data s hcls hrun => eventPosts hcls hrun data, fun data s => droppedPosts data, fun s hrun => heartbeats hrun rfl, fun id c s => commandTimes,
    fun n r rest s => requestTakes, fun n c u s => responseForwards, fun n e rest s h hring hroom => ⟨_, responseForward_ring h hring hroom, ?_⟩⟩
  have hfacet := facet_forwardResp hring hroom
  have hoff := forwardResp_offWakes hring hroom
  refine ⟨?_, ?_, (gly_of_offWakes hoff).trans rfl, (mem_of_offWakes hoff).trans rfl⟩
  · rw [hfacet]
    rfl
  · rw [hfacet]
    rfl

end Sys2Proof.Proofs

namespace Sys2Proof.Proofs

open Sys2Proof Sys2Proof.Machine Sys2Proof.Claims Sys2Proof.Laws

/-! ### Gleby's checks in their order (R408) -/

section
variable {sp : CmdSpec} {g : GIn} {s : State} {c : Cmd} {obs : Call → List (Nat × Nat)} {bad : Call → State → Option BadAt} {deny : Call → State → Bool}
  {body : Call → State → Reply × State}

/-- A command that fails a check of its entry. -/
theorem runCmd_badEntry {st r : Nat} (h : Turn sp g s c) (hentry : checkEntry sp c g s = .inl (st, r)) :
    runCmd sp bad deny obs body g s = .next (fails c st r (touchSession c s)) := by
  unfold runCmd
  rw [h.found]
  dsimp only
  rw [if_neg (by simp [h.code, h.turn, h.running]), turn_input_eq h, hentry]
  rfl
/-- A command whose principal may not issue it. -/
theorem runCmd_denied {call : Call} (h : Turn sp g s c) (hentry : checkEntry sp c g s = .inr call) (hawake : bufferAsleep call s = false)
    (hbad : bad call s = none) (hmay : sp.mayIssue c call.prin = false) : runCmd sp bad deny obs body g s = .next (fails c 6 0 (touchSession c s)) := by
  unfold runCmd
  rw [h.found]
  dsimp only
  rw [if_neg (by simp [h.code, h.turn, h.running]), turn_input_eq h, hentry]
  dsimp only
  rw [hawake, h.link, hbad, hmay]
  simp only [Bool.false_eq_true, if_false, Bool.not_true, Bool.and_false, Bool.not_false, Bool.true_or, if_true]
  rfl

end

/-- The row of EVENT_ENABLE. -/
def eventRow : CmdSpec := { code := 0x0003, who := [pM, pO], fields := [(0, 8)] }

section
variable {g : GIn} {s : State} {c : Cmd}

theorem checkEntry_reserved {sp : CmdSpec} {o : Nat} (h : c.reservedAt = some o) : checkEntry sp c g s = .inl (2, o) := by
  rw [checkEntry, h]
  rfl
theorem eventRow_strayByte (h : ∀ i, 8 ≤ i → i < 40 → c.param / 2 ^ (8 * i) % 256 = 0) : eventRow.strayByte c = none := by
  have hfields : (if c.isHost ∨ eventRow.buffer.isNone then eventRow.fields else (16, 8) :: eventRow.fields) = [(0, 8)] := if_pos (.inr rfl)
  rw [CmdSpec.strayByte, hfields]
  refine List.find?_eq_none.mpr fun i hi => ?_
  have hi' := List.mem_range.mp hi
  by_cases hlow : i < 8
  · simp [hlow]
  · simp [h i (by omega) hi']
theorem checkEntry_short (hres : c.reservedAt = none) (hstray : eventRow.strayByte c = none) (hlen : c.plen < 8) : checkEntry eventRow c g s = .inl (3, 0) := by
  rw [checkEntry, hres, hstray]
  exact if_pos (.inl hlen)

/-- What is left of the checks of an entry of the right lengths. -/
theorem checkEntry_host {q : Nat} (hres : c.reservedAt = none) (hstray : eventRow.strayByte c = none) (hsrc : c.src = .host q) (hlo : 8 ≤ c.plen)
    (hhi : c.plen ≤ 40) (hdlen : c.dlen = 0) (hdptr : c.dptr = 0) :
    (c.auth = 0 ∨ session s c.auth = none → checkEntry eventRow c g s = .inl (5, 0)) ∧
    (∀ p, c.auth ≠ 0 → session s c.auth = some p → ∃ call, checkEntry eventRow c g s = .inr call ∧ call.prin = some p.prin ∧ call.facet = none) := by
  have hhost : c.isHost = true := by rw [Cmd.isHost, hsrc]
  rw [checkEntry, hres, hstray]
  dsimp only
  rw [if_neg (by simp [eventRow, CmdSpec.endField, CmdSpec.lenOk, hhost, hdlen, hdptr]; omega), hsrc]
  dsimp only
  refine ⟨fun hnone => ?_, fun p hauth hsome => ?_⟩
  · by_cases hauth : c.auth = 0
    · rw [if_pos hauth]
      rfl
    · rw [if_neg hauth, hnone.resolve_left hauth]
      rfl
  · rw [if_neg hauth, hsome]
    exact ⟨_, rfl, rfl, rfl⟩

theorem checksInOrder : ChecksInOrder := by
  intro g s c hturn ends
  have hexec : exec (.eventEnable g) s = runCmd eventRow noBad noDeny noObs eventEnable g s := rfl
  refine ⟨fun o hres => ?_, fun hres hstray => ?_⟩
  · exact hexec.trans (runCmd_badEntry hturn (checkEntry_reserved hres))
  · have hnone := eventRow_strayByte hstray
    refine ⟨fun hlen => hexec.trans (runCmd_badEntry hturn (checkEntry_short hres hnone hlen)), fun q hsrc hlo hhi hdlen hdptr => ?_⟩
    obtain ⟨hauth, hopen⟩ := checkEntry_host (g := g) (s := s) hres hnone hsrc hlo hhi hdlen hdptr
    refine ⟨fun h => hexec.trans (runCmd_badEntry hturn (hauth h)), fun p hne hsome h1 h2 => ?_⟩
    obtain ⟨call, hentry, hprin, hfacet⟩ := hopen p hne hsome
    refine hexec.trans (runCmd_denied hturn hentry (by simp [bufferAsleep, hfacet]) rfl ?_)
    rw [hprin, CmdSpec.mayIssue, if_pos (by rw [Cmd.isHost, hsrc])]
    simp [eventRow, pM, pO, h1, h2]

end

/-! ### GET_VERSION to RESET (R427, R429 to R431) -/

theorem b2n_mul (x : Bool) (i : Nat) : 2 ^ i * b2n x = if x = true then 2 ^ i else 0 := by cases x <;> simp [b2n]

/-- The objects that a RESET changes. -/
theorem resetObs_eq : (fun (call : Call) (_ : State) => if call.p 0 1 = 0 then [(obFacet, call.p 1 1)] else if call.p 0 1 = 1 then [(obCrown, call.p 1 1)] else []) =
    fun call _ => resetObs call := by
  funext call _
  unfold resetObs
  match call.p 0 1 with
  | 0 => rfl
  | 1 => rfl
  | n + 2 => rfl

theorem resetBody_facet {call : Call} (h : call.p 0 1 = 0) (u : State) :
    resetBody call u = if inPartition u (call.p 1 1) then fail stLocked u else done 0 (facetReset (call.p 1 1) 5 0 u) := by
  rw [resetBody, h]
  rfl
theorem resetBody_crown {call : Call} (h : call.p 0 1 = 1) (u : State) : resetBody call u =
    if sealActive u && call.p 1 1 == 0 then fail stLocked u
    else done 0 (crownReset (call.p 1 1) 0x21 (if domState u (call.p 1 1) = 3 then wakeDone (call.p 1 1) u else u)) := by
  rw [resetBody, h]
  rfl
theorem resetBody_package {call : Call} (h : call.p 0 1 = 2) (u : State) : resetBody call u = done 0 u := by
  rw [resetBody, h]
  rfl

theorem abortDenied_false {call : Call} {s : State}
    (h : ∀ d, abortTarget call s = some d → call.prin = some pM ∨ call.prin = (session s d.auth).map (·.prin)) : abortDenied call s = false := by
  unfold abortDenied
  cases htarget : abortTarget call s with
  | none => rfl
  | some d => rcases h d htarget with h | h <;> simp [h]

theorem systemCommands : SystemCommands := by
  refine ⟨?version, ?status, ?enable, ?abort, ?reset⟩
  case version =>
    exact runs_of_body (bad := noBad) (deny := noDeny) (body := getVersion) (fun _ _ _ _ => rfl) (fun _ _ _ => rfl) (fun _ _ _ => rfl)
      fun c call s u _ _ => answer_done ..
  case status =>
    refine runs_of_body (bad := noBad) (deny := noDeny) (body := getStatus) (fun _ _ _ _ => rfl) (fun _ _ _ => rfl) (fun _ _ _ => rfl)
      fun c call s u _ _ => ?_
    dsimp only
    rw [getStatus, answer_done, ← b2n_mul, ← b2n_mul, ← b2n_mul, ← b2n_mul, ← b2n_mul]
    simp only [Nat.pow_zero, Nat.one_mul]
    rfl
  case enable =>
    exact runs_of_body (bad := noBad) (deny := noDeny) (body := eventEnable) (fun _ _ _ _ => rfl) (fun _ _ _ => rfl) (fun _ _ _ => rfl)
      fun c call s u _ _ => answer_done ..
  case abort =>
    refine runs_of_body (bad := fun c _ => firstBad [(decide (15 < c.p 0 1), 0)]) (deny := abortDenied) (body := abortCmd) (fun _ _ _ _ => rfl)
      (fun call s ⟨hq, _⟩ => firstBad_none (by simpa using hq)) (fun call s ⟨_, hd⟩ => abortDenied_false hd)
      fun c call s u _ _ => ⟨fun hnone => ?_, fun d hd hnever => ?_, fun d hd hnever hidle => ?_, fun d hd hnever hrun => ?_⟩
    · rw [abortCmd, hnone]
      exact answer_fail ..
    · rw [abortCmd, hd]
      dsimp only
      rw [if_pos hnever, answer_done]
    · rw [abortCmd, hd]
      dsimp only
      rw [if_neg (by simp [hnever]), if_pos (by simp [hidle]), answer_done]
    · rw [abortCmd, hd]
      dsimp only
      rw [if_neg (by simp [hnever]), if_neg (by simpa using hrun), answer_done]
  case reset =>
    rw [resetObs_eq]
    refine runs_of_body (bad := resetBad) (deny := noDeny) (body := resetBody) (fun _ _ _ _ => rfl)
      (fun call s ⟨h, h0, h1⟩ => firstBad_none (by simp; omega)) (fun _ _ _ => rfl)
      fun c call s u _ _ => ⟨fun h hout => ?_, fun h hin => ?_, fun h hopen hdom => ?_, fun h hseal hi => ?_, fun h => ?_⟩
    · rw [resetBody_facet h, if_neg (by simp [hout]), answer_done]
    · rw [resetBody_facet h, if_pos hin, answer_fail]
    · rw [resetBody_crown h, if_neg (by simpa using hopen), if_neg hdom, answer_done]
    · rw [resetBody_crown h, if_pos (by simp [hseal, hi]), answer_fail]
    · rw [resetBody_package h, answer_done]

/-! ### Principal sessions (R428) -/

theorem freeBytes_gly (k : Nat) (s : State) : (freeBytes k s).2.gly = s.gly := by
  induction k generalizing s with
  | zero => rfl
  | succ k ih => exact ih (drawFree s).2

theorem authOpen_found {call : Call} {u : State} {n : Nonce} (hroot : hasRoot u (call.p 0 1) = true)
    (hn : ((liveNonces u).find? fun n => n.id == call.p 4 4) = some n) (hpfw : pfw u = false) :
    let p := call.p 0 1
    let v := setGly { u.gly with nonces := u.gly.nonces.filter fun m => m.id != n.id } u
    let w := audit false 0x0102 p (natBytes 1 p ++ natBytes 2 v.gly.nextHandle) v
    authOpen call u = if !Config.verify v.bez.manSerial p (authMessage p n.id n.value) call.data then fail stSignature v
      else if 64 ≤ (livePrins v).length ∨ 0xFFFF < v.gly.nextHandle then fail stExhausted v
      else ({ wait := .lines [nextAudit false v] (600 * 2 ^ 32 + v.gly.nextHandle) },
        setGly { w.gly with prins := w.gly.prins ++ [⟨v.gly.nextHandle, p, w.fclk⟩], nextHandle := v.gly.nextHandle + 1 } w) := by
  intro p v w
  rw [authOpen, if_neg (by simp [hroot]), hn]
  dsimp only
  rw [if_neg (by simp [hpfw])]

theorem principalCommands : PrincipalCommands := by
  refine ⟨?challenge, ?opens, ?close, fun h p s hp hrun => ?expiry, fun id n s hn hrun => ?nonce⟩
  case challenge =>
    refine runs_of_body (bad := noBad) (deny := noDeny) (body := authChallenge) (fun _ _ _ _ => rfl) (fun _ _ _ => rfl) (fun _ _ _ => rfl)
      fun c call s u _ hlink => ⟨fun hroot => ?_, fun hroot hfull => ?_, fun hroot hroom => ?_⟩
    · rw [authChallenge, if_pos (by simp [hroot]), answer_fail]
    · rw [authChallenge, if_neg (by simp [hroot]), if_pos hfull, answer_fail]
    · rw [authChallenge, if_neg (by simp [hroot]), if_neg (by omega), answer_doneData hlink, freeBytes_gly]
  case opens =>
    refine runs_of_body (bad := noBad) (deny := noDeny) (body := authOpen) (fun _ _ _ _ => rfl) (fun _ _ _ => rfl) (fun _ _ _ => rfl)
      fun c call s u _ _ => ?_
    intro p n hroot hn hpfw v good h w
    have hopen := authOpen_found hroot hn hpfw
    refine ⟨fun hbad => ?_, fun hgood hroom hh => ?_⟩
    · rw [hopen, if_pos (by simpa using hbad), answer_fail]
    · rw [hopen, if_neg (by simpa using hgood), if_neg (by simpa using ⟨hroom, hh⟩)]
      exact answer_wait (by simp) ..
  case close =>
    exact runs_of_body (bad := noBad) (deny := noDeny) (body := authClose) (fun _ _ _ _ => rfl) (fun _ _ _ => rfl) (fun _ _ _ => rfl)
      fun c call s u _ _ => answer_done ..
  case expiry =>
    show execPrincipalSessionExpiry h s = _
    rw [execPrincipalSessionExpiry, hp]
    exact gateAt_of_true hrun _ _ _
  case nonce =>
    show execNonceExpiry id s = _
    rw [execNonceExpiry, hn]
    exact gateAt_of_true hrun _ _ _

/-! ### Power (R432, R433, R547) -/

theorem powerCommands : PowerCommands := by
  refine ⟨?crown, ?domain, ?standby, ?status, ?sensors⟩
  case crown =>
    refine runs_of_body (bad := crownPowerBad) (deny := noDeny) (body := crownPower) (fun _ _ _ _ => rfl)
      (fun call s ⟨h0, h1, h2⟩ => firstBad_none (by simp; omega)) (fun _ _ _ => rfl)
      fun c call s u _ _ => ⟨fun hlock => ?_, fun hlock => ?_⟩
    · rw [crownPower, if_pos hlock, answer_fail]
    · rw [crownPower, if_neg (by simp [hlock])]
      exact answer_wait (by simp) ..
  case domain =>
    refine runs_of_body (bad := domainPowerBad) (deny := noDeny) (body := domainPower) (fun _ _ _ _ => rfl)
      (fun call s ⟨h0, h1, h2⟩ => firstBad_none (by simp; omega)) (fun _ _ _ => rfl)
      fun c call s u _ _ => ⟨fun hlock hin => ?_, fun hlock => ?_⟩
    · rw [domainPower, if_neg (by simp [hlock]), if_neg hin]
      exact answer_wait (by simp) ..
    · rw [domainPower, if_pos hlock, answer_fail]
  case standby =>
    refine runs_of_body (bad := standbyBad) (deny := noDeny) (body := standbyBody) (fun _ _ _ _ => rfl)
      (fun call s ⟨hlo, hhi⟩ => firstBad_none (by simp; omega)) (fun _ _ _ => rfl)
      fun c call s u _ _ => ⟨fun hseal => ?_, fun hseal hpfw hbusy => ?_, fun hseal hpfw hbusy => ?_⟩
    · rw [standbyBody, if_pos hseal, answer_fail]
    · rw [standbyBody, if_neg (by simp [hseal]), if_neg (by simp [hpfw]), if_pos hbusy, answer_fail]
    · rw [standbyBody, if_neg (by simp [hseal]), if_neg (by simp [hpfw]), if_neg (by simp [hbusy]), answer_done]
  case status =>
    exact runs_of_body (bad := noBad) (deny := noDeny) (body := powerStatus) (fun _ _ _ _ => rfl) (fun _ _ _ => rfl) (fun _ _ _ => rfl)
      fun c call s u _ hlink => answer_doneData hlink ..
  case sensors =>
    exact runs_of_body (bad := noBad) (deny := noDeny) (body := sensors) (fun _ _ _ _ => rfl) (fun _ _ _ => rfl) (fun _ _ _ => rfl)
      fun c call s u _ hlink => answer_listReply hlink ..

/-- Settles O51, row by row, from what each command's body answers. -/
theorem systemAndPowerCommands : Obligations.SystemAndPowerCommands := ⟨checksInOrder, systemCommands, principalCommands, powerCommands⟩

end Sys2Proof.Proofs

namespace Sys2Proof.Proofs

open Sys2Proof Sys2Proof.Machine Sys2Proof.Claims Sys2Proof.Laws

/-! ### Ledger lines (R496, R497) -/

theorem natAt_ledgerPut_apart {b len l off : Nat} {bs : List Byte} (h : b + len ≤ ledgerAddr l off ∨ ledgerAddr l off + bs.length ≤ b) (s : State) :
    natAt (ledgerPut l off bs s) b len = natAt s b len := (natAt_congr (ledgerPut_mem_eq l off bs s) ..).trans (natAt_poke_apart h s)

/-- A record enters its trail as one write of a line, or, in a full legal trail, not at all. -/
theorem audit_eq (legal : Bool) (kind prin : Nat) (detail : List Byte) (s : State) :
    audit legal kind prin detail s = s ∨ ∃ l bs x, audit legal kind prin detail s = setLedger x (ledgerPut l 0 bs s) := by
  unfold audit
  dsimp only
  by_cases hfull : (legal && decide (8192 ≤ if legal = true then s.ledger.legal else s.ledger.general)) = true
  · exact .inl (if_pos hfull)
  · rw [if_neg hfull]
    exact .inr ⟨_, _, _, rfl⟩
theorem setLedger_offLedger (x : Ledger) (s : State) : offLedger (setLedger x s) = offLedger s := by simp [offLedger, offStore, offRegs]
theorem audit_offLedger (legal : Bool) (kind prin : Nat) (detail : List Byte) (s : State) : offLedger (audit legal kind prin detail s) = offLedger s := by
  rcases audit_eq legal kind prin detail s with h | ⟨l, bs, x, h⟩
  · rw [h]
  · rw [h, setLedger_offLedger, ledgerPut_offLedger]
theorem facets_of_offLedger {s t : State} (h : offLedger t = offLedger s) : t.facets = s.facets := (congrArg State.facets h :)
theorem epochs_of_offLedger {s t : State} (h : offLedger t = offLedger s) : t.epochs = s.epochs := (congrArg State.epochs h :)

/-! ### Epochs (R171, R450) -/

theorem epochOf_congr {s t : State} (h : t.epochs = s.epochs) (p : Nat) : epochOf t p = epochOf s p := by rw [epochOf, h, ← epochOf]
theorem epochOf_lt (s : State) (p : Nat) : epochOf s p < 256 := (tget (epochReset p) s.epochs p).isLt
theorem epochOf_setEpoch_same {e : Nat} (he : e < 256) (p : Nat) (s : State) : epochOf (setEpoch p e s) p = e := by
  rw [epochOf, setEpoch, tget_tset_self, BitVec.toNat_ofNat, Nat.mod_eq_of_lt he]
theorem tget_tset_apart {α : Type} [DecidableEq α] (d d' : α) (t : List (Nat × α)) {i j : Nat} (v : α) (h : j ≠ i) : tget d (tset d' t i v) j = tget d t j := by
  unfold tset
  split
  · exact tget_tdel_ne d t h
  · exact tget_tput_ne d t v h
theorem epochOf_setEpoch_ne {p q : Nat} (h : q ≠ p) (e : Nat) (s : State) : epochOf (setEpoch p e s) q = epochOf s q := by
  rw [epochOf, epochOf, setEpoch, tget_tset_apart _ _ _ _ h]

/-! ### Capabilities (R448 to R450, R513) -/

theorem permBit_eq (perm p : Nat) : permBit perm p = perm.testBit p := by
  rw [permBit, Nat.testBit_eq_decide_div_mod_eq]
  rfl

/-- The values of OTYPE that CAP_GRANT takes (R448). -/
theorem otypeBad_false {perm ot : Nat} (h : ot = 0 ∨ (0x8000 < ot ∧ perm.testBit permX = true) ∨ (0 < ot ∧ ot < 0x8000 ∧ perm.testBit permX = false)) :
    (ot == 0x8000 || (decide (0x8000 ≤ ot) && !permBit perm permX) || (ot != 0 && decide (ot < 0x8000) && permBit perm permX)) = false := by
  rw [permBit_eq]
  rcases h with rfl | ⟨hlt, hx⟩ | ⟨h0, hlt, hx⟩
  · rfl
  · simp [hx]
    omega
  · simp [hx]
    omega

/-- A command on a halted facet fails where the facet is in the partition, asleep or off, or runs. -/
theorem facetShut_of_body {c : Cmd} {call : Call} {n : Nat} {u : State} {good : Reply × State} {p : Reply × State}
    (h : p = if inPartition u n then fail stLocked u else if facetGone u n then fail stPower u else if !facetHalted u n then fail stWrong u else good) :
    facetShut c n u (answer c call p) ∧ (facetOpen n u → p = good) := by
  subst h
  refine ⟨⟨fun hin => ?_, fun hin hgone => ?_, fun hin hgone hrun => ?_⟩, fun ⟨hin, hgone, hhalt⟩ => ?_⟩
  · rw [if_pos hin, answer_fail]
  · rw [if_neg (by simp [hin]), if_pos (c := facetGone u n = true) hgone, answer_fail]
  · rw [if_neg (by simp [hin]), if_neg (by simp [facetGone, hgone]), if_pos (by simp [facetHalted, hrun]), answer_fail]
  · rw [if_neg (by simp [hin]), if_neg (by simp [facetGone, hgone]), if_neg (by simp [facetHalted, hhalt])]

theorem revokes {c : Cmd} {call : Call} {u : State} (he : epochOf u (call.p 0 1) ≠ 255) (hpfw : pfw u = false) :
    ∃ w, answer c call (capRevoke call u) = begins c (.lines [nextAudit false u] (epochOf u (call.p 0 1) + 1)) [] w ∧
      epochOf w (call.p 0 1) = epochOf u (call.p 0 1) + 1 ∧ (∀ q, q ≠ call.p 0 1 → epochOf w q = epochOf u q) ∧ w.facets = u.facets := by
  have hlt := epochOf_lt u (call.p 0 1)
  rw [capRevoke]
  dsimp only
  rw [if_neg he, if_neg (by simp [hpfw]), answer_wait (by simp)]
  have hoff := audit_offLedger false 0x0103 call.who (natBytes 1 (call.p 0 1) ++ natBytes 1 (epochOf u (call.p 0 1) + 1))
    (setEpoch (call.p 0 1) (epochOf u (call.p 0 1) + 1) u)
  have hepoch := epochOf_congr (epochs_of_offLedger hoff)
  refine ⟨_, rfl, ?_, fun q hq => ?_, ?_⟩
  · rw [hepoch, epochOf_setEpoch_same (by omega)]
  · rw [hepoch, epochOf_setEpoch_ne hq]
  · rw [facets_of_offLedger hoff]
    rfl

/-- The package that a side of a fabric channel names has eight bits. -/
theorem bindPkg_eq {call : Call} (hk : 272 ≤ call.p 0 2) (hbase : call.p 8 8 < (if 272 ≤ call.p 0 2 then 2 ^ 56 else 2 ^ 48)) :
    call.p 8 8 / 2 ^ 48 % 256 = call.p 8 8 / 2 ^ 48 := by
  rw [if_pos hk] at hbase
  omega
theorem epochOf_putFout (k : Nat) (dst rem : Bool) (pkg : Nat) (s : State) (p : Nat) : epochOf (putFout k dst rem pkg s) p = epochOf s p :=
  epochOf_congr (by simp [putFout]) p
theorem movBind_idle {call : Call} {u : State} (hlock : call.p 0 2 ∉ u.locks.chans) (hon : domGone u (chanDomain (call.p 0 2)) = false)
    (hidle : chanState u (call.p 0 2) = 0) : movBind call u =
      let v := if 272 ≤ call.p 0 2 then putFout (call.p 0 2) (call.p 2 1 == 1) (bindRemote u call) (call.p 8 8 / 2 ^ 48 % 256) u else u
      done 0 (putChanCap (call.p 0 2) (call.p 2 1 == 1) (mint v call 0 (call.p 4 2) (bindBase call) (call.p 16 4)) v) := by
  rw [movBind]
  dsimp only
  rw [if_neg (by simpa using hlock), if_neg (by simp [hon]), if_neg (by simp [hidle])]

theorem capQuery_result (a b : Bool) : b2n a + 2 * b2n b = (if a then 1 else 0) + (if b = true then 2 else 0) := by cases a <;> cases b <;> rfl

theorem capabilityCommands : CapabilityCommands := by
  refine ⟨?grant, ?revoke, ?bind, ?opens, ?closes, ?query⟩
  case grant =>
    refine runs_of_body (bad := capGrantBad) (deny := capGrantDeny) (body := capGrant) (fun _ _ _ _ => rfl)
      (fun call s ⟨h0, h1, h2, hbank, hperm, hot, hbase, _⟩ => firstBad_none ?_) (fun call s ⟨_, _, _, _, _, _, _, hmint, hown⟩ => ?_)
      fun c call s u _ _ => ?_
    · simp only [List.forall_mem_cons, otypeBad_false hot, hperm]
      simp
      omega
    · rw [capGrantDeny, hmint]
      rcases hown with h | h <;> simp [h]
    · obtain ⟨hshut, hopen⟩ := facetShut_of_body (c := c) (call := call) (p := capGrant call u) rfl
      exact ⟨hshut, fun h => by rw [hopen h, answer_done]; rfl⟩
  case revoke =>
    refine runs_of_body (bad := noBad) (deny := capRevokeDeny) (body := capRevoke) (fun _ _ _ _ => rfl) (fun _ _ _ => rfl)
      (fun call s hok => ?_) fun c call s u _ _ => ⟨fun he => ?_, fun he hpfw => revokes he hpfw⟩
    · rcases hok with h | ⟨h, h'⟩ <;> simp [capRevokeDeny, *]
    · rw [capRevoke]
      dsimp only
      rw [if_pos he, answer_fail]
  case bind =>
    refine runs_of_body (bad := movBindBad) (deny := movBindDeny) (body := movBind) (fun _ _ _ _ => rfl)
      (fun call s ⟨h0, h1, hperm, hbase, _⟩ => firstBad_none ?_) (fun call s ⟨_, _, _, _, hdeny⟩ => hdeny)
      fun c call s u ⟨_, _, _, hbase, _⟩ _ => ⟨fun hlock => ?_, fun hlock hon hbusy => ?_, fun hlock hon hidle => ⟨fun hk => ?_, fun hk => ?_⟩⟩
    · simp only [List.forall_mem_cons, hperm, decide_eq_false_iff_not]
      exact ⟨by omega, by omega, trivial, by omega, by simp⟩
    · rw [movBind]
      dsimp only
      rw [if_pos (by simpa using hlock), answer_fail]
    · rw [movBind]
      dsimp only
      rw [if_neg (by simpa using hlock), if_neg (by simp [hon]), if_pos hbusy, answer_failWith]
    · rw [movBind_idle hlock hon hidle, if_neg (by omega), answer_done, mint, bindBase, if_neg (by omega)]
    · rw [movBind_idle hlock hon hidle, if_pos hk, answer_done, mint, bindBase, if_pos hk, epochOf_putFout, bindRemote, bindPkg_eq hk hbase]
      simp [hk]
  case opens =>
    refine runs_of_body (bad := windowBad) (deny := fun c s => mintDenied s c (c.p 4 2) (c.p 8 8) (c.p 16 4)) (body := windowOpen) (fun _ _ _ _ => rfl)
      (fun call s ⟨h0, hperm, hbase, _⟩ => firstBad_none ?_) (fun call s ⟨_, _, _, hdeny⟩ => hdeny)
      fun c call s u _ _ => ⟨fun hopen => ?_, fun hshut => ?_⟩
    · simp only [List.forall_mem_cons, hperm]
      simp
      omega
    · rw [windowOpen, if_pos hopen, answer_fail]
    · rw [windowOpen, if_neg (by simp [hshut]), answer_done]
      rfl
  case closes =>
    refine runs_of_body (bad := fun c _ => firstBad [(decide (15 < c.p 0 1), 0)]) (deny := noDeny) (body := windowClose) (fun _ _ _ _ => rfl)
      (fun call s hok => firstBad_none (by simpa using hok)) (fun _ _ _ => rfl) fun c call s u _ _ => ⟨fun hopen => ?_, fun hshut => ?_⟩
    · rw [windowClose, if_pos hopen, answer_done]
    · rw [windowClose, if_neg (by simp [hshut]), answer_fail]
  case query =>
    refine runs_of_body (bad := capQueryBad) (deny := noDeny) (body := capQuery) (fun _ _ _ _ => rfl)
      (fun call s ⟨h0, h1, h2⟩ => firstBad_none (by simp; omega)) (fun _ _ _ => rfl) fun c call s u _ hlink => ⟨fun hin => ?_, fun hout => ?_⟩
    · rw [capQuery]
      dsimp only
      rw [if_pos hin, answer_fail]
    · rw [capQuery]
      dsimp only
      rw [if_neg (by simp [hout]), answer_doneData hlink, capQuery_result]
      simp only [beq_iff_eq]
      rfl

/-! ### Consumables (R453, R454, R508) -/

/-- Outside a fabric the package is its own registrar. -/
theorem isRegistrar_alone {s : State} (h : s.fabric.joined = false) : isRegistrar s = true := by simp [isRegistrar, members, h]
theorem consDenied_false {call : Call} {s : State}
    (h : (call.prin.any fun p => decide (16 ≤ p ∧ p ≤ 31)) = true → ∀ l, chipLine s (call.p 0 2) (call.p 2 1) = some l → consAt s l 8 1 = call.who) :
    consDenied call s = false := by
  rw [consDenied, consOf]
  cases hissuer : isIssuer call with
  | false => rfl
  | true =>
    cases hline : chipLine s (call.p 0 2) (call.p 2 1) with
    | none => rfl
    | some l => simp [h hissuer l hline]
theorem consPlaceBad_none {call : Call} {s : State} (h : call.p 0 2 ≤ 1023 ∧ call.p 2 1 ≤ 7) : consPlaceBad call s = none := firstBad_none (by simp; omega)

theorem consUses {c : Cmd} {call : Call} {u : State} {l : Nat} (hline : chipLine u (call.p 0 2) (call.p 2 1) = some l)
    (hstate : consState u l = 1 ∨ consState u l = 4) (hshort : ¬ ((policyOf u (consAt u l 8 1) (consAt u l 13 1)).1 = 1 ∧ consLeft u l < call.p 4 4))
    (hleft : call.p 4 4 ≤ consLeft u l) (hout : u.fabric.joined = false) (hpfw : pfw u = false) :
    answer c call (consUse call u) = begins c (.lines [l] (consLeft u l - call.p 4 4)) [] (consEdit l
      [(9, 1, if consLeft u l - call.p 4 4 = 0 then 4 else consState u l), (0x10, 4, min (2 ^ 32 - 1) (consAt u l 0x10 4 + call.p 4 4))] u) := by
  rw [consUse, consOf, hline]
  dsimp only
  rw [if_neg (by omega), if_neg hshort, if_neg (by simp [hout]), if_neg (by simp [hpfw]), if_neg (by simpa using hleft), mirrorCons, if_pos ?_]
  · exact answer_wait (by simp) ..
  · refine isRegistrar_alone ?_
    rw [consEdit]
    exact (congrArg (fun x : State => x.fabric.joined) (ledgerPut_offLedger l 0 _ u) :).trans hout

/-- A policy line lies before the records. -/
theorem policyLine_lt {who cls : Nat} (hwho : who < 32) (hcls : cls < 256) : policyLine who cls < 0x400000 / 64 := by
  rw [policyLine]
  omega
theorem consAt_ledgerPut {l r : Nat} (hl : l < 0x400000 / 64) (hr : r ∈ consLines) (bs : List Byte) (hbs : bs.length = 8) (o n : Nat) (s : State) :
    consAt (ledgerPut l 0 bs s) r o n = consAt s r o n := by
  obtain ⟨i, _, rfl⟩ := List.mem_map.mp hr
  refine natAt_ledgerPut_apart (.inr ?_) s
  rw [hbs]
  simp only [ledgerAddr, girdle, consLine, regionLine]
  omega

theorem consPolicy_plain {c : Cmd} {call : Call} {u : State} (hwho : call.who < 32) (hpfw : pfw u = false) :
    ∃ w, answer c call (consPolicy call u) = begins c (.lines [policyLine call.who (call.p 0 1)] 0) [] w ∧
      ((∀ r ∈ consLines, ¬ (consUsed u r = true ∧ consAt u r 8 1 = call.who ∧ consAt u r 13 1 = call.p 0 1)) →
        w = ledgerPut (policyLine call.who (call.p 0 1)) 0 (natBytes 8 (1 + call.p 1 1 * 2 ^ 8 + call.p 4 4 * 2 ^ 32)) u) := by
  rw [consPolicy, if_neg (by simp [hpfw])]
  refine ⟨_, answer_wait (by simp) .., fun hnone => ?_⟩
  generalize hv : ledgerPut (policyLine call.who (call.p 0 1)) 0 (natBytes 8 (1 + call.p 1 1 * 2 ^ 8 + call.p 4 4 * 2 ^ 32)) u = v
  have hcls : call.p 0 1 < 256 := callP_lt call 0 1
  have hat (r : Nat) (hr : r ∈ consLines) (o n : Nat) : consAt v r o n = consAt u r o n := by
    rw [← hv, consAt_ledgerPut (policyLine_lt hwho hcls) hr _ (natBytes_length ..)]
  have hmine : (consLines.filter fun r => consUsed v r && consAt v r 8 1 == call.who && consAt v r 13 1 == call.p 0 1) = [] := by
    refine List.filter_eq_nil_iff.mpr fun r hr => ?_
    rw [consUsed, hat r hr, hat r hr, hat r hr, hat r hr, hat r hr, ← consUsed]
    simpa using hnone r hr
  rw [hmine]
  rfl

theorem consumableCommands : ConsumableCommands := by
  refine ⟨?list, ?auth, ?life, ?use, ?policy⟩
  case list =>
    exact runs_of_body (bad := noBad) (deny := noDeny) (body := consList) (fun _ _ _ _ => rfl) (fun _ _ _ => rfl) (fun _ _ _ => rfl)
      fun c call s u _ hlink => answer_listReply hlink ..
  case auth =>
    refine runs_of_body (bad := consPlaceBad) (deny := noDeny) (body := consAuth) (fun _ _ _ _ => rfl) (fun call s hok => consPlaceBad_none hok)
      (fun _ _ _ => rfl) fun c call s u _ _ => ⟨fun hpfw hshort => ?_, fun hpfw hlong hbad => ?_, fun hpfw hlong hgood => ?_⟩
    · rw [consAuth]
      dsimp only
      rw [if_neg (by simp [hpfw]), if_pos hshort, answer_fail]
    · rw [consAuth]
      dsimp only
      rw [if_neg (by simp [hpfw]), if_neg (by omega), if_pos (by simp [hbad]), answer_fail]
    · rw [consAuth]
      dsimp only
      rw [if_neg (by simp [hpfw]), if_neg (by omega), if_neg (by simp [hgood])]
      exact answer_wait (by simp) ..
  case life =>
    refine runs_of_body (bad := consPlaceBad) (deny := consDenied) (body := consLife) (fun _ _ _ _ => rfl) (fun call s ⟨hplace, _⟩ => consPlaceBad_none hplace)
      (fun call s ⟨_, hown⟩ => consDenied_false hown) fun c call s u _ _ => ⟨fun hnone => ?_, fun l hline => ?_⟩
    · rw [consLife, consOf, hnone]
      exact answer_fail ..
    · rw [consLife, consOf, hline]
      exact answer_done ..
  case use =>
    refine runs_of_body (bad := consPlaceBad) (deny := noDeny) (body := consUse) (fun _ _ _ _ => rfl) (fun call s hok => consPlaceBad_none hok)
      (fun _ _ _ => rfl) fun c call s u _ _ => ⟨fun hnone => ?_, fun l hline hstate => ⟨fun hshort => ?_, fun hshort hleft hout hpfw => ?_⟩⟩
    · rw [consUse, consOf, hnone]
      exact answer_fail ..
    · rw [consUse, consOf, hline]
      dsimp only
      rw [if_neg (by omega), if_pos hshort, answer_fail]
    · exact consUses hline hstate hshort hleft hout hpfw
  case policy =>
    intro g s c call hstart hok
    have hwho : call.who < 32 := by
      have hallowed := hstart.allowed
      cases hprin : call.prin with
      | none => simp [CmdSpec.mayIssue, hprin] at hallowed
      | some p =>
        rw [Call.who, hprin, Option.getD_some]
        by_cases hhost : c.isHost = true <;> simp [CmdSpec.mayIssue, hprin, hhost] at hallowed
        omega
    exact ⟨_, runCmd_of_starts (bad := fun c _ => firstBad [(decide (1 < c.p 1 1), 1)]) (deny := noDeny) (body := consPolicy) hstart
      (firstBad_none (by simpa using hok)) rfl, fun hpfw => consPolicy_plain hwho hpfw⟩

/-- Settles O55, row by row, from what each command's body answers. -/
theorem capabilityAndConsumableCommands : Obligations.CapabilityAndConsumableCommands := ⟨capabilityCommands, consumableCommands⟩

end Sys2Proof.Proofs

namespace Sys2Proof.Proofs

open Sys2Proof Sys2Proof.Machine Sys2Proof.Claims Sys2Proof.Laws

/-! ### The ledger (R457, R458) -/

theorem bytesAt_congr {s t : State} (h : s.mem = t.mem) (a n : Nat) : bytesAt s a n = bytesAt t a n := by simp [bytesAt, byteAt, h]
theorem bytesAt_poke_same {bs : List Byte} {n : Nat} (h : bs.length = n) (a : Nat) (s : State) : bytesAt (poke a bs s) a n = bs := by
  refine List.ext_getElem (by simp [bytesAt, h]) fun i h1 h2 => ?_
  simp [bytesAt, byteAt, mget_mputs, h2, List.getD_eq_getElem?_getD]
theorem bytesAt_ledgerPut_same {bs : List Byte} {n : Nat} (h : bs.length = n) (l : Nat) (s : State) : bytesAt (ledgerPut l 0 bs s) (ledgerAddr l 0) n = bs :=
  (bytesAt_congr (ledgerPut_mem_eq l 0 bs s) ..).trans (bytesAt_poke_same h ..)
theorem bytesAt_setLedger (x : Ledger) (s : State) (a n : Nat) : bytesAt (setLedger x s) a n = bytesAt s a n := rfl
theorem padTo_length_eq (k : Nat) (bs : List Byte) : (padTo k bs).length = k := by simp [padTo]
theorem appRecord_length (s : State) (c : Call) (n : Nat) : (appRecord s c n).length = 64 := by
  unfold appRecord
  simp [natBytes_length, padTo_length_eq, shaBytes]

theorem setPendCount_ledger (s : State) : (setPendCount s).ledger = s.ledger := by simp [setPendCount]
/-- A written line waits for its commit. -/
theorem ledgerPending_ledgerPut (l off : Nat) (bs : List Byte) (s : State) : ledgerPending (ledgerPut l off bs s) l = true := by
  unfold ledgerPending ledgerPut
  dsimp only
  split
  · rename_i hany
    obtain ⟨p, hp, hl⟩ := List.any_eq_true.mp hany
    refine List.any_eq_true.mpr ⟨{ p with merged := true }, ?_, ?_⟩
    · simp only [setLedger_fields]
      exact List.mem_map.mpr ⟨p, hp, if_pos hl⟩
    · simp only [Bool.and_eq_true] at hl
      exact hl.1
  · rw [setPendCount_ledger]
    simp
/-- Besides what waits, a write of a line leaves the ledger's state. -/
theorem ledgerPut_ledger (l off : Nat) (bs : List Byte) (s : State) : { (ledgerPut l off bs s).ledger with pend := [] } = { s.ledger with pend := [] } := by
  unfold ledgerPut
  dsimp only
  split
  · simp
  · rw [setPendCount_ledger]
    simp

theorem appends {c : Cmd} {call : Call} {u : State} (hpfw : pfw u = false) :
    ∃ w, answer c call (ldgAppend call u) = begins c (.lines [regionLine 8 + u.ledger.app % 180224] u.ledger.app) [] w ∧ w.ledger.app = u.ledger.app + 1 ∧
      ledgerPending w (regionLine 8 + u.ledger.app % 180224) = true ∧
      bytesAt w (ledgerAddr (regionLine 8 + u.ledger.app % 180224) 0) 64 = appRecord u call u.ledger.app := by
  rw [ldgAppend, if_neg (by simp [hpfw])]
  refine ⟨_, answer_wait (by simp) .., ?_, ?_, ?_⟩
  · simp
  · rw [ledgerPending]
    simp only [setLedger_fields]
    exact ledgerPending_ledgerPut ..
  · rw [bytesAt_setLedger, bytesAt_ledgerPut_same (appRecord_length ..)]

/-- Besides what waits and the counts of the trails, a record leaves the ledger's state. -/
theorem audit_ledger (legal : Bool) (kind prin : Nat) (detail : List Byte) (s : State) :
    { (audit legal kind prin detail s).ledger with pend := [], legal := 0, general := 0 } = { s.ledger with pend := [], legal := 0, general := 0 } := by
  unfold audit
  dsimp only
  by_cases hfull : (legal && decide (8192 ≤ if legal = true then s.ledger.legal else s.ledger.general)) = true
  · rw [if_pos hfull]
  · rw [if_neg hfull]
    generalize hput : ledgerPut _ 0 _ s = v
    have hledger : { v.ledger with pend := [] } = { s.ledger with pend := [] } := by rw [← hput, ledgerPut_ledger]
    have hsame := congrArg (fun x : Ledger => { x with legal := 0, general := 0 }) hledger
    cases legal <;> exact Eq.trans (by simp) hsame

theorem patches_audit (legal : Bool) (kind prin : Nat) (detail : List Byte) (s : State) : (audit legal kind prin detail s).ledger.patches = s.ledger.patches :=
  (congrArg Ledger.patches (audit_ledger legal kind prin detail s) :)

/-! ### Updates (R459, R460, R471) -/

/-- Where a command starts, the objects that it changes read from the state. -/
theorem starts_at {sp : CmdSpec} {obs : Call → State → List (Nat × Nat)} {g : GIn} {s : State} {c : Cmd} {call : Call} (h : Starts sp obs g s c call) :
    Starts sp (fun call _ => obs call s) g s c call := ⟨h.toTurn, h.entry, h.allowed, h.buffer, h.awake, h.free⟩

/-- Bytes staged from an offset on. -/
def stagedBytes (o : Nat) (bs : List Byte) (n : Nat) (t : List (Nat × Byte)) : List (Nat × Byte) :=
  (bs.zip (List.range' n bs.length)).foldl (fun t b => tput t (o + b.2) b.1) t
theorem stagedBytes_cons (o : Nat) (b : Byte) (bs : List Byte) (n : Nat) (t : List (Nat × Byte)) :
    stagedBytes o (b :: bs) n t = stagedBytes o bs (n + 1) (tput t (o + n) b) := by
  rw [stagedBytes, List.length_cons, List.range'_succ, List.zip_cons_cons, List.foldl_cons]
  rfl
theorem tget_stagedBytes_below {o n i : Nat} (h : i < o + n) (bs : List Byte) (t : List (Nat × Byte)) : tget 0 (stagedBytes o bs n t) i = tget 0 t i := by
  induction bs generalizing n t with
  | nil => rfl
  | cons b bs ih =>
    rw [stagedBytes_cons, ih (by omega), tget_tput_ne _ _ _ (by omega)]
theorem tget_stagedBytes {o : Nat} {bs : List Byte} {i : Nat} (h : i < bs.length) (n : Nat) (t : List (Nat × Byte)) :
    tget 0 (stagedBytes o bs n t) (o + n + i) = bs.getD i 0 := by
  induction bs generalizing n i t with
  | nil => simp at h
  | cons b bs ih =>
    rw [stagedBytes_cons]
    cases i with
    | zero =>
      rw [tget_stagedBytes_below (by omega), Nat.add_zero, tget_tput_self]
      rfl
    | succ i =>
      rw [show o + n + (i + 1) = o + (n + 1) + i by omega, ih (by simpa using h)]
      simp
theorem mem_foldl_sadd {x : Nat} {us l : List Nat} (h : x ∈ us ∨ x ∈ l) : x ∈ us.foldl sadd l := by
  induction us generalizing l with
  | nil => simpa using h
  | cons u us ih =>
    refine ih ?_
    rw [mem_sadd]
    rcases h with h | h
    · rcases List.mem_cons.mp h with h | h
      · exact .inr (.inl h)
      · exact .inl h
    · exact .inr (.inr h)

/-- The image with what an UPD_STAGE brings. -/
def staged (call : Call) (g : Stage) : Stage :=
  { g with units := ((List.range (call.data.length / 16)).map (call.p 4 4 / 16 + ·)).foldl sadd g.units, bytes := stagedBytes (call.p 4 4) call.data 0 g.bytes }
theorem updStage_eq {call : Call} {u : State} (happly : applying u = false) (hkind : ∀ g, u.gly.stage = some g → g.kind = call.p 0 1) : updStage call u =
    done 0 (setGly { u.gly with stage := some (staged call (u.gly.stage.getD ⟨call.p 0 1, call.p 8 4, [], []⟩)) } u) := by
  have hany : (u.gly.stage.any fun g => g.kind != call.p 0 1) = false := by
    cases hstage : u.gly.stage with
    | none => rfl
    | some g => simp [hkind g hstage]
  rw [updStage, if_neg (by simp [happly, hany]), staged, stagedBytes, ← List.range_eq_range']
theorem staged_kind {call : Call} {st : Option Stage} (hkind : ∀ g, st = some g → g.kind = call.p 0 1) (n : Nat) :
    (staged call (st.getD ⟨call.p 0 1, n, [], []⟩)).kind = call.p 0 1 := by
  cases st with
  | none => rfl
  | some g => exact hkind g rfl
theorem stages {c : Cmd} {call : Call} {u : State} (happly : applying u = false) (hkind : ∀ g, u.gly.stage = some g → g.kind = call.p 0 1) :
    ∃ g, answer c call (updStage call u) = succeeds c call 0 [] (setGly { u.gly with stage := some g } u) ∧ g.kind = call.p 0 1 ∧
      (∀ i, i < call.data.length → tget 0 g.bytes (call.p 4 4 + i) = call.data.getD i 0) ∧ ∀ k, k < call.data.length / 16 → call.p 4 4 / 16 + k ∈ g.units := by
  rw [updStage_eq happly hkind]
  refine ⟨_, answer_done .., staged_kind hkind _, fun i hi => tget_stagedBytes hi 0 _, fun k hk => mem_foldl_sadd (.inl ?_)⟩
  exact List.mem_map.mpr ⟨k, List.mem_range.mpr hk, rfl⟩

theorem updStageBad_none {call : Call} {s : State} (hkind : call.p 0 1 ≤ 1) (hoff : call.p 4 4 % 16 = 0) (hend : call.p 4 4 + call.dlen ≤ call.p 8 4)
    (htotal : call.p 8 4 % 16 = 0) (hmax : call.p 8 4 ≤ 0x1000000) (hsame : ∀ g, s.gly.stage = some g → g.kind = call.p 0 1 → g.total = call.p 8 4) :
    updStageBad call s = none := by
  have hany : (s.gly.stage.any fun g => g.kind == call.p 0 1 && g.total != call.p 8 4) = false := by
    cases hstage : s.gly.stage with
    | none => rfl
    | some g => simpa using hsame g hstage
  refine firstBad_none ?_
  simp only [hany]
  simp [hoff, htotal]
  omega

/-! #### UPD_APPLY -/

theorem bez_of_offLedger {s t : State} (h : offLedger t = offLedger s) : t.bez = s.bez := (congrArg State.bez h :)

theorem applies_gleby {c : Cmd} {call : Call} {u : State} {bs : List Byte} (hgood : headerOk 1 (stagedImage bs) = true ∧ imageSigned u 0 (stagedImage bs) = true)
    (hroll : fuseRoll u ≤ imageRoll (stagedImage bs)) (hpfw : pfw u = false) :
    ∃ w, answer c call (applyGleby call bs u) = begins c (.lines [nextAudit false u] (1 - liveSlot u)) [(obUpdate, 0)] w ∧
      w.bez.rel = tput u.bez.rel (1 - liveSlot u) (256 * imageRelease (stagedImage bs) + imageRoll (stagedImage bs)) ∧ w.facets = u.facets := by
  rw [applyGleby]
  dsimp only
  rw [if_neg (by simp [hgood]), if_neg (by omega), if_neg (by simp [hpfw])]
  refine ⟨_, answer_wait (by simp) .., ?_, ?_⟩
  · rw [bez_of_offLedger (audit_offLedger ..)]
    rfl
  · exact (facets_of_offLedger (audit_offLedger ..)).trans rfl

/-- The state without its registers' and stores' contents, and what it raises: what the loader of microcode keeps. -/
def offLoad (s : State) : State := { offRaised s with mem := [] }
theorem offLoad_of_offRaised {s t : State} (h : offRaised t = offRaised s) : offLoad t = offLoad s := congrArg (fun u : State => { u with mem := [] }) h
theorem writeShadow_offLoad (p : Patch) (b : Nat) (s : State) : offLoad (writeShadow p b s) = offLoad s := by
  refine (offLoad_of_offRaised (rput_offRaised ..)).trans ?_
  exact foldl_keeps (part := offLoad) (fun _ _ => by simp [offLoad, offRaised, offLog]) _ _
theorem blkArm_offLoad (b : Nat) (s : State) : offLoad (blkArm b s) = offLoad s := by
  unfold blkArm
  split
  · exact offLoad_of_offRaised (blkStat_offRaised ..)
  · exact offLoad_of_offRaised (by simp [offRaised, offLog])
theorem armAll_offLoad (t : Nat) (bs : List Nat) (s : State) : offLoad (armAll t bs s).2 = offLoad s := by
  induction bs generalizing s with
  | nil => rfl
  | cons b bs ih =>
    unfold armAll
    dsimp only
    generalize hv : rbitSet (blkReg b 0x10) 0 false (if rbit s (blkReg b 0) 1 then s else rset (blkReg b 8) (BitVec.ofNat 64 t) s) = v
    have hoff : offLoad v = offLoad s := by
      rw [← hv]
      split <;> simp [offLoad, offRaised, offLog]
    split
    · exact (blkArm_offLoad ..).trans hoff
    · exact (ih _).trans ((blkArm_offLoad ..).trans hoff)
theorem ledger_of_offLoad {s t : State} (h : offLoad t = offLoad s) : t.ledger = s.ledger := (congrArg State.ledger h :)

/-- What the installation of a patch does before the banks are armed. -/
def patchWritten (call : Call) (bs : List Byte) (p : Patch) (u : State) : State :=
  let s := (maskBlockers p).foldl (fun s b => writeShadow p b s) u
  audit false 0x0105 call.who (natBytes 1 1 ++ natBytes 2 p.newRel ++ natBytes 2 p.serial ++ natBytes 8 p.mask)
    (addRec5 (.patch p.serial) (setLedger { s.ledger with patches := s.ledger.patches ++ [bs] } s))
theorem patchWritten_patches (call : Call) (bs : List Byte) (p : Patch) (u : State) : (patchWritten call bs p u).ledger.patches = u.ledger.patches ++ [bs] := by
  have hoff : offLoad ((maskBlockers p).foldl (fun s b => writeShadow p b s) u) = offLoad u := foldl_keeps (fun s b => writeShadow_offLoad p b s) ..
  have hledger := ledger_of_offLoad hoff
  unfold patchWritten
  dsimp only
  rw [patches_audit]
  simp [addRec5, hledger]
theorem installPatch_eq (call : Call) (bs : List Byte) (p : Patch) (u : State) : ∃ at_, installPatch call bs p u =
    match (armAll at_ (maskBlockers p) (patchWritten call bs p u)).1 with
    | some b => failWith stRefused b (armAll at_ (maskBlockers p) (patchWritten call bs p u)).2
    | none => ({ wait := .swapped (maskBlockers p) [nextAudit false ((maskBlockers p).foldl (fun s b => writeShadow p b s) u)] at_,
                 held := (obUpdate, 0) :: (maskBlockers p).map (obBlocker, ·) }, (armAll at_ (maskBlockers p) (patchWritten call bs p u)).2) := ⟨_, rfl⟩
theorem installs {c : Cmd} (call : Call) (bs : List Byte) (p : Patch) (u : State) : ∃ w, w.ledger.patches = u.ledger.patches ++ [bs] ∧
    ((∃ b, answer c call (installPatch call bs p u) = fails c stRefused b w) ∨ ∃ at_, answer c call (installPatch call bs p u) =
      begins c (.swapped (maskBlockers p) [nextAudit false u] at_) ((obUpdate, 0) :: (maskBlockers p).map (obBlocker, ·)) w) := by
  obtain ⟨at_, hinstall⟩ := installPatch_eq call bs p u
  have hshadow : offLoad ((maskBlockers p).foldl (fun s b => writeShadow p b s) u) = offLoad u := foldl_keeps (fun s b => writeShadow_offLoad p b s) ..
  have hnext : nextAudit false ((maskBlockers p).foldl (fun s b => writeShadow p b s) u) = nextAudit false u := by
    rw [nextAudit, ledger_of_offLoad hshadow, ← nextAudit]
  have hpatches := (congrArg Ledger.patches (ledger_of_offLoad (armAll_offLoad at_ (maskBlockers p) (patchWritten call bs p u))) :).trans (patchWritten_patches ..)
  refine ⟨(armAll at_ (maskBlockers p) (patchWritten call bs p u)).2, hpatches, ?_⟩
  rw [hinstall]
  cases harm : (armAll at_ (maskBlockers p) (patchWritten call bs p u)).1 with
  | some b => exact .inl ⟨b, answer_failWith ..⟩
  | none =>
    refine .inr ⟨at_, ?_⟩
    dsimp only
    rw [answer_wait (by simp), hnext]

section
variable {c : Cmd} {call : Call} {u : State} {g : Stage}

/-- An UPD_APPLY of a whole image of its kind. -/
theorem updApply_whole (hstage : u.gly.stage = some g) (hkind : g.kind = call.p 0 1) (hwhole : stageWhole g = true) :
    updApply call u = if g.kind = 0 then applyGleby call (stageBytes g) u else applyPatch call (stageBytes g) u := by
  rw [updApply, hstage]
  dsimp only
  rw [if_neg (by simp [hkind, hwhole])]

theorem appliesGleby (hstage : u.gly.stage = some g) (hkind : g.kind = 0) (hcall : call.p 0 1 = 0) (hwhole : stageWhole g = true) :
    let img := stagedImage (stageBytes g)
    let good := headerOk 1 img = true ∧ imageSigned u 0 img = true
    let t := answer c call (updApply call u)
    (¬ good → t = fails c stSignature 0 u) ∧
    (good → imageRoll img < fuseRoll u → t = fails c stVersion 0 u) ∧
    (good → fuseRoll u ≤ imageRoll img → pfw u = false → ∃ w, t = begins c (.lines [nextAudit false u] (1 - liveSlot u)) [(obUpdate, 0)] w ∧
      w.bez.rel = tput u.bez.rel (1 - liveSlot u) (256 * imageRelease img + imageRoll img) ∧ w.facets = u.facets) := by
  intro img good t
  have ht : t = answer c call (applyGleby call (stageBytes g) u) := congrArg (answer c call) ((updApply_whole hstage (hkind.trans hcall.symm) hwhole).trans (if_pos hkind))
  rw [ht]
  refine ⟨fun hbad => ?_, fun hgood hroll => ?_, fun hgood hroll hpfw => applies_gleby hgood hroll hpfw⟩
  · rw [applyGleby, if_pos ?_, answer_fail]
    simpa [good, img, imp_iff_not_or] using hbad
  · rw [applyGleby, if_neg (by simpa using hgood), if_pos hroll, answer_fail]

theorem appliesPatch {bs : List Byte} {p : Patch} (hstage : u.gly.stage = some g) (hkind : g.kind = 1) (hcall : call.p 0 1 = 1) (hwhole : stageWhole g = true)
    (hpatch : stagedPatch (stageBytes g) = some (bs, p)) :
    let t := answer c call (updApply call u)
    (patchCheck u bs p = some 3 → t = fails c stVersion 0 u) ∧
    (patchCheck u bs p = none → ((maskBlockers p).any fun b => !spineOn u b) = true → t = fails c stPower 0 u) ∧
    (patchCheck u bs p = none → ((maskBlockers p).any fun b => !spineOn u b) = false → pfw u = false → ∃ w, w.ledger.patches = u.ledger.patches ++ [bs] ∧
      ((∃ b, t = fails c stRefused b w) ∨ ∃ at_, t = begins c (.swapped (maskBlockers p) [nextAudit false u] at_) ((obUpdate, 0) :: (maskBlockers p).map (obBlocker, ·)) w)) := by
  intro t
  have ht : t = answer c call (applyPatch call (stageBytes g) u) :=
    congrArg (answer c call) ((updApply_whole hstage (hkind.trans hcall.symm) hwhole).trans (if_neg (by simp [hkind])))
  rw [ht, applyPatch, hpatch]
  dsimp only
  refine ⟨fun hcheck => ?_, fun hcheck hoff => ?_, fun hcheck hon hpfw => ?_⟩
  · rw [hcheck]
    exact answer_fail ..
  · rw [hcheck]
    dsimp only
    rw [if_pos hoff, answer_fail]
  · rw [hcheck]
    dsimp only
    rw [if_neg (by rw [hon]; exact Bool.false_ne_true), if_neg (by simp [hpfw])]
    exact installs ..

end

theorem updStatus_empty {u : State} (h : u.gly.stage = none) (call : Call) :
    updStatus call u = done (slotRelease u (liveSlot u) + slotRelease u (1 - liveSlot u) * 2 ^ 16) u := by
  rw [updStatus, h]
  dsimp only
  rw [Nat.zero_mul, Nat.zero_mul, Nat.add_zero]
theorem updStatus_staged {u : State} {g : Stage} (h : u.gly.stage = some g) (call : Call) : updStatus call u =
    done (slotRelease u (liveSlot u) + slotRelease u (1 - liveSlot u) * 2 ^ 16 + g.units.length % 2 ^ 16 * 2 ^ 32 + g.kind * 2 ^ 48) u := by
  rw [updStatus, h]

theorem ledgerAndUpdateCommands : LedgerAndUpdateCommands := by
  refine ⟨?read, ?append, ?status, ?stage, ?apply, ?shows, ?discard⟩
  case read =>
    refine runs_of_body (bad := fun c _ => firstBad [(decide (8 < c.p 0 1), 0), (c.p 4 4 % 64 != 0, 4)]) (deny := ldgReadDeny) (body := ldgRead) (fun _ _ _ _ => rfl)
      (fun call s ⟨hr, hoff, _⟩ => firstBad_none (by simp [hoff]; omega)) (fun call s ⟨_, _, hdeny⟩ => hdeny)
      fun c call s u _ hlink => ⟨fun hend => ?_, fun hin hlaid => ?_, fun hin hlaid => ?_⟩
    · rw [ldgRead, if_pos hend, answer_fail]
    · rw [ldgRead, if_neg (by omega), if_pos (by simpa [laidOut] using hlaid), answer_doneData hlink, linesOf]
    · rw [ldgRead, if_neg (by omega), if_neg (by simpa [laidOut] using hlaid), answer_doneData hlink, linesOf]
  case append =>
    refine runs_of_body (bad := fun c _ => firstBad [(decide (c.p 2 1 < 1 ∨ 32 < c.p 2 1), 2)]) (deny := noDeny) (body := ldgAppend) (fun _ _ _ _ => rfl)
      (fun call s hok => firstBad_none (by simp; omega)) (fun _ _ _ => rfl) fun c call s u _ _ => ⟨fun hpfw => ?_, fun hpfw => appends hpfw⟩
    rw [ldgAppend, if_pos hpfw, answer_fail]
  case status =>
    exact runs_of_body (bad := noBad) (deny := noDeny) (body := ldgStatus) (fun _ _ _ _ => rfl) (fun _ _ _ => rfl) (fun _ _ _ => rfl)
      fun c call s u _ _ => answer_done ..
  case stage =>
    refine runs_of_body (bad := updStageBad) (deny := noDeny) (body := updStage) (fun _ _ _ _ => rfl)
      (fun call s ⟨hkind, hoff, hend, htotal, hmax, hsame⟩ => updStageBad_none hkind hoff hend htotal hmax hsame) (fun _ _ _ => rfl)
      fun c call s u _ _ => ⟨fun happly => ?_, fun happly hkind => stages happly hkind⟩
    rw [updStage, if_pos (by simp [happly]), answer_fail]
  case apply =>
    intro g s c call hstart hok
    refine ⟨_, runCmd_of_starts (bad := fun c _ => firstBad [(decide (1 < c.p 0 1), 0)]) (deny := noDeny) (obs := fun _ => applyObs s) (body := updApply) (starts_at hstart)
      (firstBad_none (by simpa using hok)) rfl, fun hnone => ?_, fun g hstage hbad => ?_, fun g hstage hkind hcall hwhole => appliesGleby hstage hkind hcall hwhole,
      fun g bs p hstage hkind hcall hwhole hpatch => appliesPatch hstage hkind hcall hwhole hpatch⟩
    · rw [updApply, hnone]
      exact answer_fail ..
    · rw [updApply, hstage]
      dsimp only
      rw [if_pos (by simpa using hbad), answer_fail]
  case shows =>
    refine runs_of_body (bad := noBad) (deny := noDeny) (body := updStatus) (fun _ _ _ _ => rfl) (fun _ _ _ => rfl) (fun _ _ _ => rfl)
      fun c call s u _ _ => ⟨fun hnone => ?_, fun g hstage => ?_⟩
    · rw [updStatus_empty hnone, answer_done]
    · rw [updStatus_staged hstage, answer_done]
  case discard =>
    refine runs_of_body (bad := fun c _ => firstBad [(decide (1 < c.p 0 1), 0)]) (deny := noDeny) (body := updDiscard) (fun _ _ _ _ => rfl)
      (fun call s hok => firstBad_none (by simpa using hok)) (fun _ _ _ => rfl) fun c call s u _ _ => ⟨fun hother => ?_, fun g hstage hkind => ?_⟩
    · rw [updDiscard, if_neg ?_, answer_fail]
      cases hstage : u.gly.stage with
      | none => simp
      | some g => simp [hother g hstage]
    · rw [updDiscard, if_pos (by simp [hstage, hkind]), answer_done]

end Sys2Proof.Proofs

namespace Sys2Proof.Proofs

open Sys2Proof Sys2Proof.Machine Sys2Proof.Claims Sys2Proof.Laws

/-! ### METR_BREAK on a facet that stands twice in the table -/

/-- A METR_BREAK whose legal record is committed. -/
def breaking0 : Cmd := { id := 1, src := .host 0, entry := 0x0904, at_ := 0, start := some 0, wait := .breaking }
/-- A configuration that names nothing. -/
def conf0 : SealedConf :=
  { legal := [], code := [], starts := [], caps := [], chans := [], timers := [], cells := [], routines := [], hat := [], feeds := [], cal := [] }
/-- Metrology is broken, and a METR_BREAK waits for its last steps. The table of facets lists facet 0 twice, the second time running and with a reservation on
a word that a store of facet 1, in flight, is about to write. -/
def facetTwice : State :=
  rput (bezReg 0x100) 32 2 3 { State.reset with
    facets := [(0, { ctl := 1, pc := 8 }), (0, { ctl := 1, resv := some (0x010000000000, 100) }), (1, { ctl := 1, flights := [⟨1, .mem 0x010000000000 [7] false⟩] })],
    metro := { State.reset.metro with conf := some conf0 },
    gly := { State.reset.gly with cmds := [breaking0] } }

theorem facetTwice_halts : bit (facet (breakSteps conf0 facetTwice) 0).ctl 1 = false := by decide +kernel

/-- The clause on a METR_BREAK presented again runs its last steps and ends it: the end of a command leaves every facet. -/
theorem execMetrBreak_again {g : GIn} {s : State} {c : Cmd} {conf : SealedConf}
    (hc : (s.gly.cmds.find? fun c => c.id == g.id && c.wait == .breaking) = some c) (hconf : s.metro.conf = some conf)
    (hst : metroState s = 3) (hq : quiet conf s = true) :
    exec (.metrBreak g) s = .next (finishCmd c stOk 0 (breakSteps conf s)) := by
  show execMetrBreak g s = _
  rw [execMetrBreak, hc, hconf]
  exact gate_of_true (by simp [hst, hq]) _

theorem facet_finishCmd (c : Cmd) (st r : Nat) (s : State) (n : Nat) : facet (finishCmd c st r s) n = facet s n := rfl

theorem facetTwice_find : (facetTwice.gly.cmds.find? fun c => c.id == (1 : Nat) && c.wait == .breaking) = some breaking0 := by decide +kernel
theorem facetTwice_state : metroState facetTwice = 3 := by decide +kernel
theorem facetTwice_quiet : quiet conf0 facetTwice = true := by decide +kernel

/-- Refutes O56: the clause on a METR_BREAK presented again asks for no canonical facet table. Where the table lists facet 0 twice, the second time
with a reservation, the drain of facet 1 stores to the reserved word and so puts the second entry, which runs, in the place of the halted one: facet 0
ends unhalted. The other half, `LedgerAndUpdateCommands`, holds (`ledgerAndUpdateCommands`). -/
theorem not_metrologyLedgerUpdateCommands : ¬ Obligations.MetrologyLedgerUpdateCommands := by
  rintro ⟨⟨-, -, -, -, -, hbreak, -⟩, -⟩
  obtain ⟨w, hw, -, -, -, hhalted, -⟩ := hbreak { id := 1, data := [], linkOk := true, ext := [] } facetTwice breaking0 conf0 facetTwice_find rfl
    facetTwice_state facetTwice_quiet
  rw [execMetrBreak_again facetTwice_find rfl facetTwice_state facetTwice_quiet] at hw
  injection hw with hw
  have hfac : facet (breakSteps conf0 facetTwice) 0 = facet w 0 := by
    simpa only [facet_finishCmd] using (congrArg (facet · 0) hw :)
  rw [← hfac, facetTwice_halts] at hhalted
  exact absurd hhalted (by decide)

end Sys2Proof.Proofs

namespace Sys2Proof.Proofs

open Sys2Proof Sys2Proof.Machine Sys2Proof.Claims Sys2Proof.Laws

/-! ### LINE_COMMIT_DONE of a seal whose configuration names a timer past the timer block -/

/-- The legal record of a METR_SEAL, its commit running. -/
def sealRecord : PendLine := { line := 1024, base := [], due := 0, busy := true, merged := false }
/-- A configuration of one timer, whose count register would be the register that holds the metrology state. -/
def farTimer : SealedConf := { conf0 with timers := [{ num := 14216, periodic := false, period := 0, phase := 0 }] }
/-- The state in which the record that seals is about to be committed. -/
def sealCommits : State :=
  { State.reset with
    ledger := { State.reset.ledger with pend := [sealRecord] }
    metro := { State.reset.metro with conf := some farTimer, change := some (1024, 2) } }

theorem ltim_farTimer : ltim 14216 0 = bezReg 0x100 := by decide +kernel
/-- Step 10 of R479 writes the timer's first tick where the metrology state stood. -/
theorem metroState_sealCommits : metroState (metroFollow 2 (metroCommitted (lineDone sealRecord sealCommits))) = 0 := by decide +kernel

theorem execLineCommitDone_sealCommits :
    exec (.lineCommitDone 1024) sealCommits = .next (metroFollow 2 (metroCommitted (lineDone sealRecord sealCommits))) := rfl

/-- Refutes O57: the clause on the commit of a sealing record bounds no timer number of the configuration. With timer 14216, whose first register is the
bezel's metrology register, the seal's step 10 overwrites the state that the commit has just set, and it reads 0 and not 2. -/
theorem not_bezelAndLedgerLines : ¬ Obligations.BezelAndLedgerLines := by
  rintro ⟨-, -, ⟨-, hdone⟩, -⟩
  obtain ⟨t, ht, -, -, -, -, hseal, -⟩ := hdone 1024 sealRecord sealCommits rfl
  rw [execLineCommitDone_sealCommits] at ht
  injection ht with ht
  have hstate := (hseal rfl).1
  rw [← ht, metroState_sealCommits] at hstate
  exact absurd hstate (by decide)

end Sys2Proof.Proofs

namespace Sys2Proof.Proofs

open Sys2Proof Sys2Proof.Machine Sys2Proof.Claims Sys2Proof.Laws

/-! ### CROWN_P2_ENTRY where the facet table lists a facet twice -/

/-- Crown 1 is about to open its power switch. The table of facets lists facet 8 twice: first with 5 in G1, then with 7 and a reservation in the crown's
store. -/
def crownLeaves : State :=
  { State.reset with
    fclk := 5000
    facets := [(8, { g := [(1, 5)] }), (8, { g := [(1, 7)], resv := some (crownStoreBase 1, 100) })]
    pwr := { State.reset.pwr with changes := [⟨1, 3, 0, true⟩] } }

/-- The power switch of crown `c` opens (R543), with the reservations that it ends (R248). -/
def crownOff (c : Nat) (s : State) : State :=
  let off (f : Facet) : Facet := { f with resv := none, flights := [], shadows := [] }
  let s := dropCrownResv c (setPwr { s.pwr with failed := s.pwr.failed ++ remoteFacets s c } s)
  actAgain c (setDom c 3 (dropChange c ((List.range 8).foldl (fun s i => updFacet (8 * c + i) off s) s)))

theorem execCrownP2Entry_crownLeaves : exec (.crownP2Entry 1) crownLeaves = .next (crownOff 1 (advanceTo 1200 crownLeaves)) := by
  show execCrownP2Entry 1 crownLeaves = _
  rw [execCrownP2Entry, show changeOf crownLeaves (1 : Fin 16).val = some ⟨1, 3, 0, true⟩ from rfl]
  exact gateAt_of_true (by decide +kernel) _ _ _

/-- No FCLK passes: the 1,200 FCLK of R543 are over. -/
theorem advanceTo_crownLeaves : advanceTo 1200 crownLeaves = crownLeaves := rfl

theorem g_crownOff : (facet (crownOff 1 crownLeaves) 8).g = [(1, 7)] := by decide +kernel

/-- Refutes O60: the clause on CROWN_P2_ENTRY asks for no canonical facet table. Where the table lists facet 8 twice, the end of the reservation that the
second entry holds puts that entry in the place of the first, and G1 of facet 8 changes from 5 to 7. -/
theorem not_powerResetBoot : ¬ Obligations.PowerResetBoot := by
  rintro ⟨-, -, ⟨-, hentry, -⟩, -⟩
  obtain ⟨t, ht, -, -, -, hfacets⟩ := (hentry 1 ⟨1, 3, 0, true⟩ crownLeaves rfl rfl).1 (Or.inl rfl) (by decide) rfl (by decide +kernel) (by decide +kernel)
  rw [execCrownP2Entry_crownLeaves, advanceTo_crownLeaves] at ht
  injection ht with ht
  obtain ⟨-, -, hg⟩ := hfacets 0 (by decide)
  have hu : (facet crownLeaves 8).g = [(1, 5)] := rfl
  have hg' : (facet (crownOff 1 crownLeaves) 8).g = (facet crownLeaves 8).g := ht ▸ hg
  rw [g_crownOff, hu] at hg'
  exact absurd hg' (by decide)

end Sys2Proof.Proofs
